-- ==== Sys2Proof/Word.lean ====
section
/-! DEFINITION. The word types of the register and memory spaces (R2, Table 0.2), the access codes of Table 0.3, the rows of
the register tables, and the names of masters and islands. -/

namespace Sys2Proof

/-- A byte of memory space. -/
abbrev Byte := BitVec 8

/-- A word of register space: 20 bits (R2). -/
abbrev Word := BitVec 20

/-- The access codes of Table 0.3 (R3). -/
inductive Access where
  | rw | ro | wo | w1c | rc | wl
deriving DecidableEq, Repr

/-- A field of a register: the register's word address, the field's lowest bit and its width. -/
structure Fld where
  addr : Nat
  lo   : Nat
  len  : Nat
deriving DecidableEq, Repr

/-- One field of a register table: lowest bit, width, access code. -/
structure FieldRow where
  lo  : Nat
  len : Nat
  acc : Access
deriving DecidableEq, Repr

/-- One row of a register table: offset in the block, number of registers, address stride, reset value, fields. -/
structure RegRow where
  off    : Nat
  count  : Nat
  stride : Nat
  reset  : Nat
  fields : List FieldRow
deriving DecidableEq, Repr

/-- Who makes a register or memory access: the host port (R377), a frame of another bay (R364), a HOOK channel (R332), a needle
(R254), the chart engine, the gauge, the self-test controller, or WVL itself (R79 governs the first four). -/
inductive Master where
  | host
  | gallery
  | hook (c : Fin 16)
  | needle (m : Fin 16)
  | chart
  | gauge
  | stc
  | wvl
deriving DecidableEq, Repr

/-- The clock islands of Table 1.1. -/
inductive Island where
  | angle | needle | memory | gallery | management | safety
deriving DecidableEq, Repr

end Sys2Proof
end

