-- ==== Sys2Proof/Syntax.lean ====
section
/-! DEFINITION. The commands of the Karek: one constructor per row of the table of operations and events, with the operands the
row’s words name. A unit number is a `Fin`, so no command names a unit that does not exist. -/

namespace Sys2Proof

/-- The two PLLs (R53). -/
inductive Pll where
  | a | g
deriving DecidableEq, Repr

/-- What of a crossing item fails its check bits (R10): the item at the front of a path is discarded, a finding of a Porter source, or the
next raise of an interrupt source or feed of a variable kind and index. `other` is an item that the state does not hold apart. -/
inductive CrossPath where
  | planRequest | stitchItem | gaugeRecord | treadZero | beacon | faultCount | pacingPulse | streamFrame
  | finding (k : Fin 128)
  | interrupt (k : Fin 320)
  | feed (kind : Fin 9) (idx : Fin 64)
  | other
deriving DecidableEq, Repr

/-- The size of a hall or NVS access in bytes (R304). -/
inductive AccSize where
  | b1 | b2 | b4 | b8
deriving DecidableEq, Repr

/-- Errors found in the stored words an access reads: none, one bit, two bits; for the first and the second word (R305). -/
structure WordErrs where
  first  : Fin 3
  second : Fin 3
deriving DecidableEq, Repr

/-- A Gallery frame between SOF and EOF (Table 16.2); LEN is the payload's length. -/
structure Frame where
  kind    : BitVec 4
  flags   : BitVec 4
  dst     : BitVec 6
  src     : BitVec 6
  hops    : BitVec 8
  payload : List Byte
  seq     : BitVec 60
  tag     : BitVec 64
deriving DecidableEq, Repr

/-- How a march test of a hall region ended: the lowest failing bit where a read differed (R434, R439). -/
inductive MarchRes where
  | pass
  | fail (bit : Fin 72)
  | incomplete
deriving DecidableEq, Repr

/-- How a unit's vector test ended (R439). -/
inductive TestRes where
  | pass | fail | incomplete
deriving DecidableEq, Repr

/-- What the Porter finds on a pair in one SOSC cycle: (1,0) after fine, a broken wire at its second sample (R405, R406), or a
difference of its own copies: 0 configuration, 1 capture, 2 classification state (R422). -/
inductive PairEvt where
  | error (k : Fin 128)
  | integ (k : Fin 128)
  | porter (g : Fin 3)
deriving DecidableEq, Repr

/-- A CAN frame as received without error (R447). An 11-bit identifier lies in bits 10 to 0. -/
structure CanFrame where
  ide  : Bool
  id   : BitVec 29
  rtr  : Bool
  fdf  : Bool
  brs  : Bool
  esi  : Bool
  dlc  : BitVec 4
  data : List Byte
deriving DecidableEq, Repr

/-- The pulses of a SENT fast frame in MCLK, each from falling edge to falling edge: a pause that came before, the calibration pulse,
the nibbles (R452). -/
structure SentPulses where
  pause : Option Nat
  cal   : Nat
  nibs  : List Nat
deriving DecidableEq, Repr

/-- The commands (spec/opcode_table.json). Each docstring gives the row’s rule and words. -/
inductive Instr where
  /-- R45: A rail stays below its warning level for 200 ns without falling below its reset level for 200 ns. -/
  | railWarning (rail : Fin 5) (mv : Nat)
  /-- R46: VCORE, VIO, VANA or VLNK stays below its reset level for 200 ns and a power-on reset begins, with RAIL recorded. -/
  | railReset (rail : Fin 4) (mv : Nat)
  /-- R47: VGATE stays below 8.0 V for 200 ns, so all gates are held off and every open window is cut. -/
  | gateLockoutBegin (mv : Nat)
  /-- R47: VGATE has stayed above 8.5 V for 10 us and gate lockout ends. -/
  | gateLockoutEnd
  /-- R32: NRST is held low from outside and the Karek enters a chip-level reset. -/
  | nrstAssert
  /-- R32: NRST rises and the 1 us wait before internal reset release starts. -/
  | nrstRelease
  /-- R59: The reset hold ends and boot step 1 starts. -/
  | internalResetRelease (mstr boot1 boot0 : BitVec 3) (xin : Nat) (rootOk : Bool)
  /-- R50: A master bay without XIN repeats the XIN check every 1 ms. -/
  | xinRecheck (count : Nat)
  /-- R53: A PLL reports lock and its islands leave reset. -/
  | pllLock (pll : Pll)
  /-- R59: Boot step 1 completes and step 2 begins. -/
  | bootStep1End
  /-- R52: A bay without XIN locks its PLLs to the symbol stream at its active Gallery input. -/
  | ringReferenceLock
  /-- R55: XIN shows no edge for 16 SOSC cycles, the PLLs enter holdover and REF_LOSS is reported. -/
  | xinEdgeLoss
  /-- R52: No valid stream returns within 100 us of the active input falling silent and REF_LOSS is reported. -/
  | ringStreamLoss
  /-- R480: The PLLs relock to a valid reference, HOLDOVER clears and MGCLK returns to its normal source. -/
  | holdoverEnd
  /-- R54: Every 64 SOSC cycles the clock monitor compares each clock count with its nominal. -/
  | clockMonitorCount (f m n g mg : Nat)
  /-- R81: Boot step 2 selects the load source and begins verification of the first candidate slot. -/
  | imageSlotLoad
  /-- R84: Verification of an image ends with the first failed check or with a pass. -/
  | imageVerifyDone
  /-- R62: A non-master bay gets no enumeration frame within 50 ms of step 3 and continues as bay 0. -/
  | enumWaitTimeout
  /-- R59: After enumeration the trackers are set running and enter SEARCH. -/
  | bootStep4
  /-- R58: A PCR_BRST bit or a Porter reaction starts a block reset. -/
  | blockResetRequest (src : Master) (v : BitVec 16)
  /-- R58: After the 16-cycle hold the block's REGS entries and sections are applied again and the block resumes. -/
  | blockResetResume (blk : Fin 16)
  /-- R48: A write of 1 to PCR_VSTAT.CLRMIN sets every PCR_VMINn to 0xF_FFFF. -/
  | vminClear
  /-- R64: A PCR_MODE write with WATCH 1 and KEY 0x5A requests watch mode. -/
  | watchRequest (v : Word)
  /-- R14: In watch mode the management island counts 40 000 SOSC cycles as one MT tick. -/
  | watchMtTick
  /-- R66: The WAKE pin stays high for 10 us and ends watch mode when enabled. -/
  | wakePin
  /-- R66: PCR_WTIMER MT ticks have been counted since entry and the timer wakes the Karek. -/
  | wakeTimer
  /-- R13: TB reaches or passes a multiple of 1 000 000 and an MT tick is sent to every island. -/
  | mtTick
  /-- R460: TB passes from 2^60 - 1 to 0, giving a tick, and a master starts a full enumeration. -/
  | tbWrap
  /-- R87: WVL_CMD LOAD_BEGIN with KEY 0xA5 starts an image load into HALL15 or a slot. -/
  | wvlLoadBegin
  /-- R82: A write to WVL_DATA places two image bytes at 2 x WVL_OFS and increments WVL_OFS. -/
  | wvlDataWrite (v : BitVec 16)
  /-- R82: LOAD_END checks the received length and starts verification of the loaded image. -/
  | wvlLoadEnd
  /-- R87: Run-time verification of a stored slot completes, setting DONE or erasing the slot with FAIL. -/
  | loadVerifyDone
  /-- R88: CMD ABORT ends a load with cause ABORTED. -/
  | wvlAbort
  /-- R88: No WVL_DATA write arrives for 1 s and the load ends with cause TIMEOUT. -/
  | wvlLoadTimeout
  /-- R89: CMD HOTSWAP checks the candidate image and copies differing sections into place. -/
  | wvlHotswap
  /-- R90: A pending hot-swap section takes effect at its apply point. -/
  | hotswapApply (typ tgt : Nat)
  /-- R3: A write to a register with no row of its own sets its fields by their access codes. -/
  | registerWrite (src : Master) (a : BitVec 16) (v : Word)
  /-- R3: A read of an RC field returns its value and clears it. -/
  | readClear (src : Master) (a : BitVec 16)
  /-- R100: An edge on a tracker input passes the filter, is stamped and is tested against the tracker's state. -/
  | wheelEdge (inp : Fin 12) (lvl : Bool) (age : Nat) (vpk : BitVec 10)
  /-- R98: The predicted time of the next tooth passes without an arming crossing and VARM halves. -/
  | vrArmDrop (n : Fin 4)
  /-- R114: The window of the expected tooth or beacon closes without an edge and the two-tooth window opens. -/
  | toothWindowExpire (n : Fin 4)
  /-- R116: The two-tooth window closes, so the next edge sends the tracker to LOST, or a remote goes LOST at once. -/
  | twoToothWindowExpire (n : Fin 4)
  /-- R117: No tooth is accepted before the stall deadline and the tracker enters STALLED. -/
  | trackerStall (n : Fin 4)
  /-- R118: A direction-encoded pulse ends and its length decides forward or reverse. -/
  | directionPulseEnd (n : Fin 4)
  /-- R121: A write of CTRL.RESYNC takes the tracker from LOST to SEARCH, or from sync to LOST with cause HOST. -/
  | trackerResync (n : Fin 4)
  /-- R121: A write of CTRL.RUN starts or stops the tracker. -/
  | trackerRunWrite (n : Fin 4) (src : Master) (run : Bool)
  /-- R130: A write of CTRL.CLRCNT clears ERRCNT, SYNCCNT and HSTAT.OVF. -/
  | trackerClearCounts (n : Fin 4)
  /-- R128: A read of STAIRn_HIST_HI returns and removes the head tooth-period record. -/
  | historyRecordRead (n : Fin 4)
  /-- R133: The interpolated angle word takes its next tread as predicted time passes. -/
  | treadStep (n : Fin 4) (chk : Option (Fin 128))
  /-- R151: A write of GCTL.SAVE starts programming the geometry record. -/
  | geometrySave (n : Fin 4)
  /-- R314: The geometry record program completes, clearing GDIRTY or setting GERR. -/
  | geometrySaveDone (n : Fin 4)
  /-- R151: A write of GCTL.GRESET sets every G_k to GEO0_k. -/
  | geometryReset (n : Fin 4)
  /-- R151: A host write to STAIRn_GEOk sets G_k unless LEARN is 1. -/
  | geometryWrite (n : Fin 4) (k : Fin 256) (src : Master) (v : Word)
  /-- R126: A remote tracker takes a beacon as a virtual tooth. -/
  | beaconReceive (n : Fin 4)
  /-- R158: The pipeline scans a group of stitches, recomputing starts, arming and loading edge timers. -/
  | stitchScan (chk : Option (Fin 128))
  /-- R155: A running pulse reaches the end of its duration and the occurrence ends. -/
  | stitchPulseEnd (n : Fin 128) (chk : Option (Fin 128))
  /-- R166: A write to SU_COMMIT sets PEND on a stitch. -/
  | stitchCommit (n : Fin 128)
  /-- R169: A write to SU_CANCEL with KEY 0x3C ends the stitch's occurrence. -/
  | stitchCancel (n : Fin 128)
  /-- R165: A write to W0 to W5 goes to the shadow set and withdraws a pending commit. -/
  | stitchParamWrite (n : Fin 128) (w : Fin 6) (src : Master) (v : Word)
  /-- R167: A recipe write or commit reaches the stitch unit and applies in order. -/
  | stitchItemArrive
  /-- R182: A pulse slot sees its line rise and requests a pulse window. -/
  | slotLineRise (slots : List (Fin 128))
  /-- R22: The slot sees its line fall, the window closes and the gates are forced off. -/
  | slotLineFall (slot : Fin 128)
  /-- R182: The drain time of a bank passes and the bank returns to FREE. -/
  | bankDrainEnd (b : Fin 4)
  /-- R186: TH1 after a window opens, H1DONE of the bank goes high. -/
  | h1doneRise (b : Fin 4)
  /-- R188: A bank comparator level reaches the INJ block and feeds rise time, load diagnostics and opening detection. -/
  | injComparatorChange (k : Fin 16)
  /-- R188: The count 200 x TPKMAX is reached without I_PK and OPEN or SLOW is set with a cut. -/
  | peakTimeLimit (b : Fin 4)
  /-- R192: The end-of-injection comparator crosses during observation and is recorded. -/
  | eoiCrossing (b : Fin 4)
  /-- R192: EOIWIN passes after a window close and EOI observation ends. -/
  | eoiObserveEnd (b : Fin 4)
  /-- R193: An injector or bank gate pad differs from its driven level and the gate readback fault is reported. -/
  | gateReadbackMismatch (pin : Fin 24) (pad : Bool)
  /-- R189: A write of INJ_CMD with ENABLE 1 and KEY 0x69 clears DIS of an injector. -/
  | injReenable (i : Fin 16)
  /-- R20: An EO pad readback differs from its driven level and MISMATCH sets. -/
  | eoReadbackMismatch (pin : Fin 24) (pad : Bool)
  /-- R10: A crossing item fails its check bits, is discarded and a crossing-integrity fault is recorded. -/
  | crossingCheckFail (dest : Island) (path : CrossPath)
  /-- R203: A write to CHT_QVq updates a HOST entry of the variable file. -/
  | hostQvWrite (q : Fin 64) (src : Master) (v : Word)
  /-- R217: A plan-tooth request reaches the chart engine and enters the queue, or is dropped when full. -/
  | recipeRequestArrive
  /-- R217: A queued request starts in a free context and takes a snapshot of the variable file. -/
  | recipeStart
  /-- R213: Step END ends the run. -/
  | recipeEndStep (i : Fin 4)
  /-- R213: Step LOAD loads a working value from the snapshot or an immediate. -/
  | recipeLoad (i : Fin 4)
  /-- R210: Step LOOKUP interpolates a chart on the snapshot inputs. -/
  | recipeLookup (i : Fin 4)
  /-- R213: Step ADD adds or subtracts working values or an immediate. -/
  | recipeAdd (i : Fin 4)
  /-- R213: Step SCALE multiplies and shifts a working value. -/
  | recipeScale (i : Fin 4)
  /-- R213: Step CLAMP limits a working value between bounds. -/
  | recipeClamp (i : Fin 4)
  /-- R213: Step SELECT copies a working value when its test holds. -/
  | recipeSelect (i : Fin 4)
  /-- R213: Step WRQV writes a working value to a RECIPE entry of the variable file. -/
  | recipeWrqv (i : Fin 4)
  /-- R213: Step WRSTITCH sends a working value to a word of a stitch shadow set. -/
  | recipeWrstitch (i : Fin 4)
  /-- R213: Step COMMIT sends a commit of a stitch. -/
  | recipeCommit (i : Fin 4)
  /-- R219: A run lasts RTMAX x 30 MCLK and ends with TIMEOUT. -/
  | recipeRunTimeout (i : Fin 4)
  /-- R221: A write of CHT_TCMD with GO starts a test lookup of a chart. -/
  | chartTestLookup (c : Fin 64)
  /-- R202: An entry's age counter reaches AGE and the entry reads FALLBACK. -/
  | qvStale (q : Fin 64)
  /-- R224: A tooth record reaches the gauge and adds to segment times and the history coder. -/
  | gaugeRecordArrive
  /-- R227: The tracker passes tread 0, requesting a threshold lookup and counting the misfire block. -/
  | gaugeTreadZero
  /-- R227: The misfire threshold lookup completes and GAU_MFTHR takes its result. -/
  | thresholdLookupDone
  /-- R237: An angle word change reaches the gauge and AWO output is re-evaluated. -/
  | awoWordArrive (a : Fin 2)
  /-- R237: Every 64 MCLK an interpolating AWO output is re-evaluated. -/
  | awoInterpRefresh (a : Fin 2)
  /-- R240: A stream frame writes its value into a receive slot and sets FRESH. -/
  | streamReceive
  /-- R240: No frame arrives in a slot for 10 x SRXTO us and FRESH clears. -/
  | streamSlotTimeout (sl : Fin 8)
  /-- R241: The PWM carrier reaches count 0 and latches a new duty. -/
  | awoPwmPeriod (a : Fin 2)
  /-- R254: SET loads U or V, or their high halves, with an immediate. -/
  | needleSet (m : Fin 16)
  /-- R254: MOV applies its operation to a source and writes a destination. -/
  | needleMov (m : Fin 16) (np : BitVec 32)
  /-- R251: JMP jumps when its condition holds. -/
  | needleJmp (m : Fin 16) (np : BitVec 32)
  /-- R252: WAIT stalls until its source equals POL. -/
  | needleWait (m : Fin 16) (np : BitVec 32)
  /-- R253: IN shifts bits of a source into SIN. -/
  | needleIn (m : Fin 16) (np : BitVec 32)
  /-- R253: OUT shifts bits of SOUT to a destination or writes pins or directions. -/
  | needleOut (m : Fin 16)
  /-- R255: PUSH moves SIN into the receive queue. -/
  | needlePush (m : Fin 16)
  /-- R255: PULL loads SOUT from the transmit queue. -/
  | needlePull (m : Fin 16)
  /-- R256: FLAG clears or sets a needle flag, optionally waiting. -/
  | needleFlag (m : Fin 16)
  /-- R257: A word that is no instruction runs as a no-operation and sets BADOP. -/
  | needleBadop (m : Fin 16)
  /-- R262: NCTL START makes a stopped needle run from NPC. -/
  | needleStart (m : Fin 16) (src : Master)
  /-- R263: NCTL STOP stops a needle. -/
  | needleStop (m : Fin 16) (src : Master)
  /-- R262: A write of BED0_SYNC starts the named stopped needles together. -/
  | bedSyncStart (mask : BitVec 16) (src : Master)
  /-- R262: A write to NPC sets a stopped needle's PC. -/
  | needlePcWrite (m : Fin 16) (v : BitVec 6)
  /-- R260: A write to NTX adds a word to the transmit queue, or is dropped when full. -/
  | needleTxWrite (m : Fin 16) (v : Word)
  /-- R260: A read of NRX removes the head of the receive queue. -/
  | needleRxRead (m : Fin 16)
  /-- R266: A write to a program store word applies only while the bed's needles are stopped. -/
  | programStoreWrite (b : Fin 4) (k : Fin 64) (src : Master) (v : Word)
  /-- R268: A write of 1 to BED0_FLAGS clears needle flags. -/
  | flagClearWrite (mask : BitVec 16)
  /-- R268: A write of 1 to BED0_FSET sets needle flags. -/
  | flagSetWrite (mask : BitVec 16)
  /-- R267: A needle stays stalled for STO + 1 ticks and is stopped with cause STALL. -/
  | needleStallTimeout (m : Fin 16)
  /-- R272: A continuous comparator's input crosses its threshold and the output switches. -/
  | comparatorSwitch (k : Fin 24) (uv : Int)
  /-- R274: A sampled window's tick powers its comparators for 2 us. -/
  | windowSampleTick (w : Fin 12)
  /-- R274: After 2 us the sampled outputs are latched. -/
  | windowSampleLatch (w : Fin 12) (lo hi : Int)
  /-- R272: A write of THR, HYST or SEL takes effect and the DAC settles. -/
  | comparatorConfigWrite (k : Fin 24) (src : Master) (v : Word)
  /-- R274: A write of a window's MODE takes effect at the next MGCLK or tick. -/
  | windowModeWrite (w : Fin 12) (src : Master) (v : Word)
  /-- R279: A rotation step starts and the spare takes a comparator role in parallel. -/
  | ladderStepStart (lvl : Bool)
  /-- R279: After 1 us of agreement consumers take the spare's output. -/
  | ladderHandover
  /-- R279: No agreement within 1 ms forces the change and FORCED increments. -/
  | ladderHandoverForced
  /-- R279: The freed comparator's ladder test ends and it becomes the spare or is kept out. -/
  | ladderTestDone (fail : Option (Fin 8))
  /-- R282: A timer's prescaler expires and the count advances or wraps. -/
  | timerAdvance (n : Fin 16)
  /-- R283: A START line starts a stopped timer. -/
  | timerLineStart (n : Fin 16)
  /-- R283: A STOP line stops the timer. -/
  | timerLineStop (n : Fin 16)
  /-- R288: A CAPTURE line writes the count into TMRn_CAP. -/
  | timerLineCapture (n : Fin 16)
  /-- R283: A CLEAR line sets the count to 0. -/
  | timerLineClear (n : Fin 16)
  /-- R284: A write of CTRL.RUN starts or stops the timer. -/
  | timerRunWrite (n : Fin 16) (run : Bool)
  /-- R284: A write of CTRL.CLEAR sets the count to 0 without a compare test. -/
  | timerClearCommand (n : Fin 16)
  /-- R284: A write to TMRn_CNT sets the count without a compare test. -/
  | timerCountWrite (n : Fin 16) (v : Word)
  /-- R287: A write of RELOAD governs the next advance. -/
  | timerReloadWrite (n : Fin 16) (v : Word)
  /-- R286: A compare write sets its value and its PAST flag. -/
  | timerCompareWrite (n : Fin 16) (k : Fin 2) (v : Word)
  /-- R284: A write to TMR_GRUN sets RUN on the named timers at once. -/
  | timerGroupRun (mask : BitVec 16)
  /-- R290: A read of an even linked timer's CNT latches the odd half. -/
  | timerPairCountRead (n : Fin 16)
  /-- R293: A scheduled slew advances TB by 2 or 0 in one FCLK. -/
  | tbSlew (fast : Bool)
  /-- R297: A master's access to a hall is arbitrated on its port and served with ECC. -/
  | hallAccess (m : Master) (a : BitVec 23) (sz : AccSize) (wr : Option (BitVec 64)) (err : WordErrs)
  /-- R302: A request has lost arbitration for the hold limit and is granted ahead of all others. -/
  | hallHoldLimit (h : Fin 16) (portB : Bool)
  /-- R305: A corrected word is written back when port B is free. -/
  | scrubWriteback
  /-- R303: A write to HAL_OWNn.OWNER requests a port A hand-over, or is rejected. -/
  | hallOwnerWrite (h : Fin 16) (src : Master) (v : Word)
  /-- R303: No access of the old owner is under way and the new owner takes port A. -/
  | hallOwnerHandover (h : Fin 16)
  /-- R313: HAL_NVCMD PROGRAM requests a user-area page program. -/
  | nvsProgramCommand
  /-- R313: HAL_NVCMD ERASE requests a user-area page erase. -/
  | nvsEraseCommand
  /-- R312: The next waiting NVS write is started in requester order. -/
  | nvsWriteStart
  /-- R309: An NVS program or erase completes its verify, or fails twice. -/
  | nvsWriteDone (ok : Bool)
  /-- R311: An NVS read returns its data with ECC checking. -/
  | nvsRead (m : Master) (a : BitVec 21) (sz : AccSize) (err : WordErrs)
  /-- R316: At an MT tick the log writer programs one queued fault-log entry. -/
  | logEntryWrite
  /-- R326: HK_CTRL START runs a stopped channel from HK_PC. -/
  | hookStart (c : Fin 16)
  /-- R326: HK_CTRL STOP stops a channel after its outstanding bursts. -/
  | hookStop (c : Fin 16)
  /-- R329: HK_CTRL CLRREQ sets REQCNT and REQOVF to 0. -/
  | hookClearRequests (c : Fin 16)
  /-- R326: A write to HK_PC sets the next descriptor of a stopped channel. -/
  | hookPcWrite (c : Fin 16) (hi : Bool) (v : Word)
  /-- R324: A channel reads its next descriptor and stops at OWN 0 or a read error. -/
  | descriptorFetch (c : Fin 16)
  /-- R320: A MOVE descriptor copies bytes in bursts. -/
  | hookMove (c : Fin 16)
  /-- R321: A FILL descriptor writes its pattern. -/
  | hookFill (c : Fin 16)
  /-- R321: A CMP descriptor compares two operands. -/
  | hookCmp (c : Fin 16)
  /-- R322: A LOOP descriptor jumps or falls through by its counter. -/
  | hookLoop (c : Fin 16)
  /-- R323: A WAIT descriptor completes after N requests of its source. -/
  | hookWait (c : Fin 16)
  /-- R320: A SIGNAL descriptor sends completion requests to channels. -/
  | hookSignal (c : Fin 16)
  /-- R328: A pulse pacing request arrives and REQCNT increments. -/
  | pacingPulse (edge : Option (Fin 16))
  /-- R331: The arbiter issues one burst of the highest eligible channel. -/
  | burstIssue
  /-- R330: A burst's last write is acknowledged or last read returns. -/
  | burstComplete (c : Fin 16)
  /-- R325: The status write of a descriptor is issued once its barrier allows. -/
  | descriptorStatusWrite (c : Fin 16)
  /-- R334: A burst stays outstanding BTO us and the descriptor is marked BAD. -/
  | burstTimeout (c : Fin 16) (wr : Fin 65)
  /-- R335: At an MT tick every HK_USEDn returns to 0. -/
  | hookBudgetReset
  /-- R335: A write to HK_BUDGETn sets a channel's burst budget. -/
  | hookBudgetWrite (c : Fin 16) (src : Master) (v : Word)
  /-- R342: The primary input is silent for 2 us and the cable input becomes active. -/
  | laneSwitchToCable
  /-- R343: The primary input has been valid for 1 ms and becomes active again. -/
  | laneReturnToPrimary
  /-- R344: Both inputs are silent for 2 us and ISOL sets. -/
  | ringIsolation
  /-- R348: A Gallery frame arrives and is discarded, removed, taken or forwarded. -/
  | frameReceive (rd : Bool) (ws : List (BitVec 20))
  /-- R354: A MEASURE frame sets NM and SK and the bay measures its lanes. -/
  | enumMeasure
  /-- R354: The 16 us hold of a MEASURE frame ends and it is forwarded. -/
  | measureHoldEnd (dlyP dlyC : Word)
  /-- R353: An ASSIGN frame gives the bay its number and time fields. -/
  | enumAssign (resid : Nat)
  /-- R353: A DONE frame sets ENUMERATED and ends boot step 3. -/
  | enumDone
  /-- R356: A JOIN OFFER passes an unnumbered member, which writes its REQID. -/
  | joinOffer
  /-- R356: A JOIN GRANT gives the named bay its number. -/
  | joinGrant
  /-- R364: A REGRD frame reads registers of this bay. -/
  | remoteRegrd
  /-- R364: A REGWR frame writes registers of this bay. -/
  | remoteRegwr
  /-- R364: A MEMRD frame reads memory space of this bay. -/
  | remoteMemrd
  /-- R364: A MEMWR frame writes memory space of this bay. -/
  | remoteMemwr
  /-- R364: A RESP frame ends an outstanding transaction. -/
  | respReceive
  /-- R360: A SYNC frame sets or corrects TB and is forwarded with updated COR. -/
  | syncReceive (phase : Fin 40) (resid : Nat)
  /-- R368: An EVENT frame writes its level to GAL_ERX. -/
  | eventReceive
  /-- R365: A waiting bay places IMAGE frame bytes in HALL15, and FINAL starts verification. -/
  | imageFrameReceive
  /-- R366: A RESET frame with 0x5A schedules a Gallery reset. -/
  | resetFrame
  /-- R366: 1 us after a RESET frame acts, the Gallery reset begins. -/
  | galleryReset
  /-- R353: The master's ENUMDLY wait ends and it starts a full enumeration. -/
  | enumStart
  /-- R353: GAL_CTRL FULL with KEY 0x4E starts a full enumeration on the master. -/
  | fullEnumeration
  /-- R353: The master takes back its enumeration or join frame and starts the next pass. -/
  | enumFrameReturn (wanted : Bool)
  /-- R353: A pass frame does not return in time and enumeration restarts. -/
  | enumPassTimeout
  /-- R353: No enumeration completed after 50 ms, so the master continues and retries every 10 ms. -/
  | enumRetryTimer
  /-- R356: GAL_CTRL JOINNOW with KEY 0x4E sends a JOIN OFFER. -/
  | joinNow
  /-- R356: Every JOINP MT ticks the master sends a JOIN OFFER. -/
  | joinOfferTimer
  /-- R371: GAL_CTRL CLRCNT clears GAL_ERRCNT and GAL_EVCNT. -/
  | galleryCountClear
  /-- R359: The master's TB reaches a multiple of 400 000 and it sends a SYNC frame. -/
  | syncSend
  /-- R363: A locked bay takes no SYNC for 8 ms and enters HOLDOVER. -/
  | syncTimeout
  /-- R364: No RESP arrives within TTO and the request is repeated or ends with TIMEOUT. -/
  | transactionTimeout (b : Fin 63)
  /-- R341: The bay starts one of its queued frames at a free word boundary. -/
  | ownFrameTransmit (phase : Fin 40)
  /-- R368: A line routed to a Gallery event slot changes and an EVENT frame is queued. -/
  | eventSlotChange (sl : Fin 16)
  /-- R375: A FETCH frame returns the waiting result. -/
  | hostFetch (sdi : List Byte) (bits : Fin 8)
  /-- R377: A host REGRD frame reads registers locally or through the Gallery. -/
  | hostRegrd (sdi : List Byte) (bits : Fin 8)
  /-- R377: A host REGWR frame writes registers locally or through the Gallery. -/
  | hostRegwr (sdi : List Byte) (bits : Fin 8)
  /-- R377: A host MEMRD frame reads memory space. -/
  | hostMemrd (sdi : List Byte) (bits : Fin 8)
  /-- R377: A host MEMWR frame writes memory space. -/
  | hostMemwr (sdi : List Byte) (bits : Fin 8)
  /-- R375: A host request completes, BUSY clears and READY sets. -/
  | hostResultReady
  /-- R376: SCS_N stays low with no SCK edge for FTO us and the frame is discarded. -/
  | hostFrameTimeout (sdi : List Byte)
  /-- R378: A write to IRT_HOST registers a host and broadcasts HOSTSTATE. -/
  | hostRegister (v : Word)
  /-- R378: A HOSTSTATE frame updates the host table. -/
  | hoststateReceive
  /-- R382: With no offer outstanding the bay offers its lowest eligible source to the best available host. -/
  | irqEvaluate
  /-- R383: An OFFER is accepted by a FREE slot, which lowers HIRQ, or refused. -/
  | irqOfferReceive (here : Bool)
  /-- R382: An ACCEPT ends the outstanding offer. -/
  | irqAcceptReceive (here : Bool)
  /-- R382: A REFUSE excludes that host at this bay. -/
  | irqRefuseReceive (here : Bool)
  /-- R381: An OFFER or CLAIM gets no reply after its repeats and ends. -/
  | irqFrameNoReply (claim : Bool)
  /-- R383: A host-port read of IRT_CLAIM sends a CLAIM and the slot becomes CLAIMING. -/
  | irqClaimRead
  /-- R383: The source bay answers a CLAIM with its lowest eligible source. -/
  | irqClaimReceive (here : Bool)
  /-- R383: A CLAIMED answer makes the slot HELD or returns it FREE. -/
  | irqClaimedReceive (here : Bool)
  /-- R384: A write of IRT_DONE matching the held claim sends DONE. -/
  | irqDoneWrite (src : Master) (v : Word)
  /-- R384: 4 MCLK after DONE the host slot becomes FREE. -/
  | irqSlotRelease
  /-- R384: The source bay takes DONE and evaluates again. -/
  | irqDoneReceive (here : Bool)
  /-- R385: A WITHDRAW makes the source bay exclude that host for the next evaluation. -/
  | irqWithdrawReceive (here : Bool)
  /-- R385: The slot stays OFFERED for CLAIMT and the offer is withdrawn. -/
  | irqClaimTimeout
  /-- R385: The slot stays HELD for HOLDT and the claim ends as DONE. -/
  | irqHoldTimeout
  /-- R379: A write of 1 to IRT_TRAP.PEND clears it and HTRAP rises. -/
  | trapClear
  /-- R387: A write of IRT_SRCk.CLR sets the source's COUNT to 0. -/
  | sourceCountClear (k : Fin 320)
  /-- R393: CLAIM installs a key digest in slot 0 and makes a BLANK device CLAIMED. -/
  | trustClaim
  /-- R393: ADDKEY installs a key digest into a slot. -/
  | trustAddkey
  /-- R393: REVOKE empties an owner slot unless it is the last. -/
  | trustRevoke
  /-- R398: LOCK moves the device to LOCKED when the running image is encrypted. -/
  | trustLock
  /-- R399: RETIRE erases slots and identity and moves the device to RETIRED. -/
  | trustRetire
  /-- R393: SETFLOOR raises WVL_FLOOR. -/
  | trustSetfloor
  /-- R400: DEBUG opens or ends a debug session of the test access port. -/
  | trustDebug
  /-- R397: ATTEST signs the challenge, identity, state and version with the identity key. -/
  | trustAttest
  /-- R393: A command code not in the table fails with cause CMD. -/
  | trustUnknownCommand
  /-- R396: A trust command ends with DONE or FAIL and a new challenge is drawn where it checked one. -/
  | trustCommandEnd
  /-- R396: The challenge has stood for 24 000 MT ticks and a new one is drawn. -/
  | challengeExpire
  /-- R400: TRU_DBGLEFT reaches zero and the debug session ends. -/
  | debugSessionExpire
  /-- R402: A tamper sensor trips, keys are erased and the tamper fault is reported. -/
  | tamperTrip (sensor : Fin 4)
  /-- R405: The Porter decides an error event of a source and performs its reaction. -/
  | faultEvent (evs : List PairEvt)
  /-- R410: An event reaches the management island and is counted in its window. -/
  | faultCount
  /-- R411: A severe notice reaches the safety domain and is decided with the severe reaction. -/
  | severeNotice
  /-- R410: A window's age reaches W at an MT tick and WCNT returns to 0. -/
  | porterWindowClose (k : Fin 128)
  /-- R408: A write to POR_FORCEi presents an error at a source input for two SOSC cycles. -/
  | faultForce (i : Fin 8) (src : Master) (v : Word)
  /-- R411: A W1C write to POR_SEV ends a source's severe state and zeroes WCNT. -/
  | severeClear (i : Fin 8) (v : Word)
  /-- R416: POR_CMD CAPCLR clears VALID, SECOND and COUNT. -/
  | capclr (src : Master)
  /-- R419: POR_CMD CHIPRST performs an uncounted Porter chip reset. -/
  | chiprst (src : Master)
  /-- R420: Every 6250 MGCLK the management island sends a heartbeat. -/
  | heartbeatSend
  /-- R420: No heartbeat arrives within HBTO x 250 us and a HEARTBEAT event is decided. -/
  | heartbeatTimeout
  /-- R421: Every 8000 SOSC cycles ALIVE changes level and its readback is compared. -/
  | aliveToggle (readback : Bool)
  /-- R431: Every MINT us the STC saves, march-tests and restores the next hall region. -/
  | hallRegionTest (res : MarchRes) (bufFail : Bool)
  /-- R435: At each MT tick the STC reads the next NPPT NVS pages. -/
  | nvsBackgroundRead
  /-- R436: Every CSTEP the spare compare unit copies the state of the next role. -/
  | compareUnitStep
  /-- R436: After 16 FCLK of agreement the stitch takes the spare's output, or the spare is failed. -/
  | compareUnitHandover (agree : Bool)
  /-- R438: The freed compare unit's vector test ends and it becomes spare or is kept out. -/
  | compareUnitTestDone (res : TestRes)
  /-- R437: Every TSTEP the edge-timer rotation moves to the next slot. -/
  | edgeTimerStep
  /-- R437: The slot's timer holds no edge, so the spare joins the pool and the timer is tested. -/
  | edgeTimerSlotFree
  /-- R438: The freed edge timer's test ends and it becomes spare or is kept out. -/
  | edgeTimerTestDone (res : TestRes)
  /-- R440: A unit's interval between test completions exceeds its bound and LATE sets. -/
  | testIntervalLate (kind : Fin 5)
  /-- R447: A CAN frame received without error is stored in the first matching receive object. -/
  | canFrameReceive (x : Fin 2) (f : CanFrame)
  /-- R449: A pending transmit object's frame is sent and its TXRQ bit clears. -/
  | canFrameSent (x : Fin 2)
  /-- R449: A write of TXRQ makes a transmit object pending. -/
  | canTxRequest (x : Fin 2) (mask : BitVec 32)
  /-- R449: A write of TXAB withdraws a pending request. -/
  | canTxAbort (x : Fin 2) (mask : BitVec 32) (onBus : Option (Fin 32))
  /-- R448: A write of OSEL copies an object into the view registers. -/
  | canObjectSelect (x : Fin 2) (o : Fin 32)
  /-- R448: CTRL.OWR copies the view into the object, or is rejected. -/
  | canObjectWrite (x : Fin 2)
  /-- R446: CTRL.RECOVER lets a bus-off controller start counting recessive sequences. -/
  | canRecover (x : Fin 2)
  /-- R446: After 128 sequences of 11 recessive bits the controller rejoins the bus. -/
  | canBusOffRecovery (x : Fin 2)
  /-- R452: A SENT fast frame completes and is checked, accepted or rejected. -/
  | sentFrameEnd (r : Fin 8) (p : SentPulses)
  /-- R452: No frame is accepted for SILTO ms and SILENT is reported. -/
  | sentSilence (r : Fin 8)
  /-- R45: A rail that was below its warning level stays above warning level plus hysteresis for 200 ns, PCR_VSTAT.BELOW clears and
  the warning source returns to fine. -/
  | railWarningEnd (rail : Fin 5)
  /-- R405: An EO or gate pad whose readback differed from its driven level agrees with it again, and the readback source's pair
  returns to fine. -/
  | padReadbackMatch (gate : Bool) (pin : Fin 24)
  /-- R344: A Gallery input that was delivering no valid code group starts delivering them, PRIMOK or CABLEOK sets, and when ISOL is 1
  it clears and that input becomes active. -/
  | validCodeGroupArrival (cable : Bool)
  /-- R446: A CAN controller detects a bus error while receiving or transmitting, updates TEC, REC and LEC, and may enter error
  passive or bus-off and report it. -/
  | canBusError (x : Fin 2) (tx strong : Bool) (lec : Fin 6)
  /-- R449: A transmit object's frame loses arbitration and is queued again with DAR 0 or not sent again with DAR 1. -/
  | canArbitrationLost (x : Fin 2)
deriving DecidableEq, Repr

end Sys2Proof
end

