-- ==== Sys2Proof/Decode.lean ====
section
/-! DEFINITION. Commands spelled by table words. The table of operations and events gives no row any bits: a command comes from a pin,
a bus or a unit, never from a word, so no word spells one. -/

namespace Sys2Proof

/-- The command that a word of `nbits` bits spells: none, for no row has bits. -/
def decodeTableWord (_nbits _w : Nat) : Option Instr := none

end Sys2Proof
end

