-- ==== Sys2Proof/Config.lean ====
section
/-! DEFINITION. What the spec leaves open: free values. Each is a constant without a body, so nothing can be proved of its value;
it is applied to a plain counter of the state or to the operands it depends on. -/

namespace Sys2Proof.Config

/-- A 20-bit value that the spec does not state (free value). -/
opaque freeWord : Nat → BitVec 20

/-- The root key of the device (R388): 32 bytes that its on-die circuit gives, held in no register and in no store (free value). -/
opaque rootByte : Nat → BitVec 8

end Sys2Proof.Config
end

