-- ==== Sys2Proof/Machine/Cells.lean ====
section
/-! DEFINITION. Sparse data in one canonical form: a list of (address, value) pairs with strictly rising addresses and no entry
equal to what an unlisted address reads as. The register file, the halls, NVS and a few sparse tables are held so. -/

namespace Sys2Proof.Machine

/-- The value at `a`: the listed one, else what an unlisted address reads as. -/
def cellGet {α : Type} (d : Nat → α) : List (Nat × α) → Nat → α
  | [], a => d a
  | (k, v) :: t, a => if k = a then v else cellGet d t a

/-- Insert an entry before the first larger address. -/
def cellIns {α : Type} (a : Nat) (v : α) : List (Nat × α) → List (Nat × α)
  | [] => [(a, v)]
  | (k, w) :: t => if a < k then (a, v) :: (k, w) :: t else (k, w) :: cellIns a v t

/-- Remove every entry of `a`. -/
def cellDel {α : Type} (a : Nat) : List (Nat × α) → List (Nat × α)
  | [] => []
  | (k, w) :: t => if k = a then cellDel a t else (k, w) :: cellDel a t

/-- Write `v` at `a`, keeping the canonical form: a value equal to the unlisted one removes the entry. -/
def cellPut {α : Type} [DecidableEq α] (d : Nat → α) (l : List (Nat × α)) (a : Nat) (v : α) : List (Nat × α) :=
  if v = d a then cellDel a l else cellIns a v (cellDel a l)

/-- Every address of the list is above `b`, and they rise strictly, and no entry equals the unlisted value. -/
def cellsAbove {α : Type} [DecidableEq α] (d : Nat → α) : Nat → List (Nat × α) → Bool
  | _, [] => true
  | b, (k, v) :: t => b ≤ k && decide (v ≠ d k) && cellsAbove d (k + 1) t

/-- The canonical form of a sparse list. -/
def cellsWf {α : Type} [DecidableEq α] (d : Nat → α) (l : List (Nat × α)) : Bool := cellsAbove d 0 l

/-- Element `i` of a fixed table, with a default outside it. -/
def vget {α : Type} {n : Nat} (v : Vector α n) (i : Nat) (d : α) : α := if h : i < n then v[i] else d

/-- Replace element `i` of a fixed table by a function of it; nothing outside the table. -/
def vupd {α : Type} {n : Nat} (v : Vector α n) (i : Nat) (f : α → α) : Vector α n :=
  if h : i < n then v.set i (f v[i]) else v

/-- Saturating increment: `x + k`, at most `m`. -/
def satAdd (x k m : Nat) : Nat := if m < x + k then m else x + k

/-- Bit `i` of `x`. -/
def bitOf (x i : Nat) : Bool := x / 2 ^ i % 2 = 1

/-- 1 for true, 0 for false. -/
def b2n (b : Bool) : Nat := if b then 1 else 0

/-- Sign-extension of the low `w` bits of `x` (two's complement). -/
def sgn (w x : Nat) : Int :=
  let y := x % 2 ^ w
  if 2 * y < 2 ^ w then (y : Int) else (y : Int) - (2 ^ w : Nat)

/-- The low `w` bits of an integer, two's complement. -/
def toW (w : Nat) (x : Int) : Nat := (x % ((2 ^ w : Nat) : Int)).toNat

end Sys2Proof.Machine
end

