-- ==== Sys2Proof/Machine/RegMap.lean ====
section
/-! DEFINITION. The register space of the Karek (Tables 1.7, 2.6, 3.6, 4.8, 5.11, 6.7, 7.9, 7.11, 8.9, 9.7, 10.7, 11.7, 12.3,
13.3, 14.6, 15.7, 16.7, 17.7, 18.6, 19.7, 20.3, 21.4 and their field tables): the word address of every register (namespace R),
every field (namespace F), and the table of access codes and reset values that Table 0.3 gives a meaning to. -/

namespace Sys2Proof.Machine

namespace R

def CHIP_ID : Nat := 0x0000
def CHIP_STRAP : Nat := 0x0000 + 0x10
def PCR_STAT : Nat := 0x0400
def PCR_RSTCAUSE : Nat := 0x0400 + 0x1
def PCR_BRST : Nat := 0x0400 + 0x2
def PCR_BRSTAT : Nat := 0x0400 + 0x3
def PCR_VSTAT : Nat := 0x0400 + 0x4
def PCR_VMIN (i : Nat) : Nat := 0x0400 + 0x5 + 1 * i
def PCR_MODE : Nat := 0x0400 + 0xA
def PCR_WAKE : Nat := 0x0400 + 0xB
def PCR_WTIMER : Nat := 0x0400 + 0xC
def WVL_STAT : Nat := 0x0800
def WVL_CMD : Nat := 0x0800 + 0x1
def WVL_DATA : Nat := 0x0800 + 0x2
def WVL_OFS : Nat := 0x0800 + 0x3
def WVL_SLOT (i : Nat) : Nat := 0x0800 + 0x4 + 2 * i
def WVL_VER (i : Nat) : Nat := 0x0800 + 0x5 + 2 * i
def WVL_FLOOR : Nat := 0x0800 + 0x8
def WVL_RUNVER : Nat := 0x0800 + 0x9
def WVL_WLREJ : Nat := 0x0800 + 0xA
def STAIR_CFG (n : Nat) : Nat := 0x1000 + 0x400 * n
def STAIR_CFG2 (n : Nat) : Nat := 0x1000 + 0x400 * n + 0x1
def STAIR_WIN (n : Nat) : Nat := 0x1000 + 0x400 * n + 0x2
def STAIR_FILT (n : Nat) : Nat := 0x1000 + 0x400 * n + 0x3
def STAIR_STALL (n : Nat) : Nat := 0x1000 + 0x400 * n + 0x4
def STAIR_VR (n : Nat) : Nat := 0x1000 + 0x400 * n + 0x5
def STAIR_CTRL (n : Nat) : Nat := 0x1000 + 0x400 * n + 0x6
def STAIR_STAT (n : Nat) : Nat := 0x1000 + 0x400 * n + 0x7
def STAIR_ANGLE (n : Nat) : Nat := 0x1000 + 0x400 * n + 0x8
def STAIR_CYCNT (n : Nat) : Nat := 0x1000 + 0x400 * n + 0x9
def STAIR_PER_LO (n : Nat) : Nat := 0x1000 + 0x400 * n + 0xA
def STAIR_PER_HI (n : Nat) : Nat := 0x1000 + 0x400 * n + 0xB
def STAIR_ERRCNT (n : Nat) : Nat := 0x1000 + 0x400 * n + 0xC
def STAIR_SYNCCNT (n : Nat) : Nat := 0x1000 + 0x400 * n + 0xD
def STAIR_CAMCNT (n : Nat) : Nat := 0x1000 + 0x400 * n + 0xE
def STAIR_VPK (n : Nat) : Nat := 0x1000 + 0x400 * n + 0xF
def STAIR_HIST_LO (n : Nat) : Nat := 0x1000 + 0x400 * n + 0x10
def STAIR_HIST_HI (n : Nat) : Nat := 0x1000 + 0x400 * n + 0x11
def STAIR_HSTAT (n : Nat) : Nat := 0x1000 + 0x400 * n + 0x12
def STAIR_RCFG (n : Nat) : Nat := 0x1000 + 0x400 * n + 0x13
def STAIR_BCFG (n : Nat) : Nat := 0x1000 + 0x400 * n + 0x14
def STAIR_GEOM (n : Nat) : Nat := 0x1000 + 0x400 * n + 0x15
def STAIR_PHASE (n : Nat) : Nat := 0x1000 + 0x400 * n + 0x16
def STAIR_LEN (n : Nat) : Nat := 0x1000 + 0x400 * n + 0x17
def STAIR_TTA (n i : Nat) : Nat := 0x1000 + 0x400 * n + 0x100 + 2 * i
def STAIR_TTB (n i : Nat) : Nat := 0x1000 + 0x400 * n + 0x101 + 2 * i
def STAIR_ICFG (n : Nat) : Nat := 0x1000 + 0x400 * n + 0x18
def STAIR_GCTL (n : Nat) : Nat := 0x1000 + 0x400 * n + 0x19
def STAIR_ISTAT (n : Nat) : Nat := 0x1000 + 0x400 * n + 0x1A
def STAIR_TPRED_LO (n : Nat) : Nat := 0x1000 + 0x400 * n + 0x1B
def STAIR_TPRED_HI (n : Nat) : Nat := 0x1000 + 0x400 * n + 0x1C
def STAIR_DEFICIT (n : Nat) : Nat := 0x1000 + 0x400 * n + 0x1D
def STAIR_GUPD (n : Nat) : Nat := 0x1000 + 0x400 * n + 0x1E
def STAIR_TPLIDX (n : Nat) : Nat := 0x1000 + 0x400 * n + 0x1F
def STAIR_TPLDAT (n : Nat) : Nat := 0x1000 + 0x400 * n + 0x20
def STAIR_GEO (n i : Nat) : Nat := 0x1000 + 0x400 * n + 0x300 + 1 * i
def SU_ALLOC (i : Nat) : Nat := 0x2000 + 1 * i
def SU_PLAN (i : Nat) : Nat := 0x2000 + 0x80 + 1 * i
def SU_CTRL : Nat := 0x2000 + 0x100
def SU_COMMIT : Nat := 0x2000 + 0x101
def SU_CANCEL : Nat := 0x2000 + 0x102
def SU_STAT : Nat := 0x2000 + 0x103
def SU_CROWD : Nat := 0x2000 + 0x104
def SU_CHK : Nat := 0x2000 + 0x105
def STITCH_CTRL (n : Nat) : Nat := 0x2400 + 8 * n
def STITCH_END (n : Nat) : Nat := 0x2400 + 8 * n + 0x1
def STITCH_DUR (n : Nat) : Nat := 0x2400 + 8 * n + 0x2
def STITCH_TIMING (n : Nat) : Nat := 0x2400 + 8 * n + 0x3
def STITCH_MINST (n : Nat) : Nat := 0x2400 + 8 * n + 0x4
def STITCH_MAXST (n : Nat) : Nat := 0x2400 + 8 * n + 0x5
def STITCH_STATUS (n : Nat) : Nat := 0x2400 + 8 * n + 0x6
def STITCH_LAST (n : Nat) : Nat := 0x2400 + 8 * n + 0x7
def EO_CFG (i : Nat) : Nat := 0x2800 + 1 * i
def EL_STATE (i : Nat) : Nat := 0x2800 + 0x18 + 1 * i
def INJ_BCFG (i : Nat) : Nat := 0x3000 + 1 * i
def INJ_BTIM (i : Nat) : Nat := 0x3000 + 0x4 + 1 * i
def INJ_BDIAG (i : Nat) : Nat := 0x3000 + 0x8 + 1 * i
def INJ_BOPD (i : Nat) : Nat := 0x3000 + 0xC + 1 * i
def INJ_BEOI (i : Nat) : Nat := 0x3000 + 0x10 + 1 * i
def INJ_BSTAT (i : Nat) : Nat := 0x3000 + 0x14 + 1 * i
def INJ_CFG (i : Nat) : Nat := 0x3000 + 0x20 + 1 * i
def INJ_STAT (i : Nat) : Nat := 0x3000 + 0x30 + 1 * i
def INJ_RISE (i : Nat) : Nat := 0x3000 + 0x40 + 1 * i
def INJ_OPEN (i : Nat) : Nat := 0x3000 + 0x50 + 1 * i
def INJ_EOIF (i : Nat) : Nat := 0x3000 + 0x60 + 1 * i
def INJ_EOIL (i : Nat) : Nat := 0x3000 + 0x70 + 1 * i
def INJ_CONF : Nat := 0x3000 + 0x80
def INJ_CMD : Nat := 0x3000 + 0x81
def CHT_QV (i : Nat) : Nat := 0x3400 + 1 * i
def CHT_QVS (i : Nat) : Nat := 0x3400 + 0x40 + 1 * i
def CHT_CTRL : Nat := 0x3400 + 0x80
def CHT_STAT : Nat := 0x3400 + 0x81
def CHT_ERR : Nat := 0x3400 + 0x82
def CHT_CLIP : Nat := 0x3400 + 0x83
def CHT_TCMD : Nat := 0x3400 + 0x84
def CHT_TRES : Nat := 0x3400 + 0x85
def CHT_TSTAT : Nat := 0x3400 + 0x86
def CHT_RCP (i : Nat) : Nat := 0x3400 + 0xC0 + 1 * i
def CHT_CHART (i : Nat) : Nat := 0x3400 + 0x100 + 1 * i
def GAU_CFG : Nat := 0x3800
def GAU_MFCFG : Nat := 0x3800 + 0x1
def GAU_MFTHR : Nat := 0x3800 + 0x2
def GAU_STAT : Nat := 0x3800 + 0x3
def GAU_SEG (i : Nat) : Nat := 0x3800 + 0x10 + 1 * i
def GAU_SLEN (i : Nat) : Nat := 0x3800 + 0x20 + 1 * i
def GAU_TSEG (i : Nat) : Nat := 0x3800 + 0x30 + 1 * i
def GAU_ROUGH (i : Nat) : Nat := 0x3800 + 0x40 + 1 * i
def GAU_MF (i : Nat) : Nat := 0x3800 + 0x50 + 1 * i
def GAU_HCFG (i : Nat) : Nat := 0x3800 + 0x80 + 1 * i
def GAU_HSTAT (i : Nat) : Nat := 0x3800 + 0x84 + 1 * i
def GAU_HBYTES (i : Nat) : Nat := 0x3800 + 0x88 + 1 * i
def GAU_ACFG (i : Nat) : Nat := 0x3800 + 0x90 + 1 * i
def GAU_AOFS (i : Nat) : Nat := 0x3800 + 0x92 + 1 * i
def GAU_APER (i : Nat) : Nat := 0x3800 + 0x94 + 1 * i
def GAU_AIDLE (i : Nat) : Nat := 0x3800 + 0x96 + 1 * i
def GAU_AOUT (i : Nat) : Nat := 0x3800 + 0x98 + 1 * i
def GAU_AIDX (i : Nat) : Nat := 0x3800 + 0x9A + 1 * i
def GAU_SRX (i : Nat) : Nat := 0x3800 + 0xA0 + 1 * i
def GAU_SRXTO : Nat := 0x3800 + 0xA8
def BED_PS (b i : Nat) : Nat := 0x4000 + 0x100 * b + 1 * i
def BED_STAT (b : Nat) : Nat := 0x4000 + 0x100 * b + 0x80
def BED_NCFG (m : Nat) : Nat := 0x4040 + 0x100 * (m / 4) + 0x10 * (m % 4)
def BED_NCTL (m : Nat) : Nat := 0x4040 + 0x100 * (m / 4) + 0x10 * (m % 4) + 0x1
def BED_NPC (m : Nat) : Nat := 0x4040 + 0x100 * (m / 4) + 0x10 * (m % 4) + 0x2
def BED_NSTAT (m : Nat) : Nat := 0x4040 + 0x100 * (m / 4) + 0x10 * (m % 4) + 0x3
def BED_NU (m : Nat) : Nat := 0x4040 + 0x100 * (m / 4) + 0x10 * (m % 4) + 0x4
def BED_NV (m : Nat) : Nat := 0x4040 + 0x100 * (m / 4) + 0x10 * (m % 4) + 0x5
def BED_NSIN (m : Nat) : Nat := 0x4040 + 0x100 * (m / 4) + 0x10 * (m % 4) + 0x6
def BED_NSOUT (m : Nat) : Nat := 0x4040 + 0x100 * (m / 4) + 0x10 * (m % 4) + 0x7
def BED_NTX (m : Nat) : Nat := 0x4040 + 0x100 * (m / 4) + 0x10 * (m % 4) + 0x8
def BED_NRX (m : Nat) : Nat := 0x4040 + 0x100 * (m / 4) + 0x10 * (m % 4) + 0x9
def BED_NQSTAT (m : Nat) : Nat := 0x4040 + 0x100 * (m / 4) + 0x10 * (m % 4) + 0xA
def BED_NSTO (m : Nat) : Nat := 0x4040 + 0x100 * (m / 4) + 0x10 * (m % 4) + 0xB
def BED_BIND (m i : Nat) : Nat := 0x40C0 + 0x100 * (m / 4) + 0x10 * (m % 4) + i
def BED0_SYNC : Nat := 0x4090
def BED0_FLAGS : Nat := 0x4091
def BED0_FSET : Nat := 0x4092
def BED0_NCLK : Nat := 0x4093
def CMP_CFG (i : Nat) : Nat := 0x4800 + 1 * i
def CMP_WCFG (i : Nat) : Nat := 0x4800 + 0x20 + 1 * i
def CMP_OUT (i : Nat) : Nat := 0x4800 + 0x40 + 1 * i
def CMP_ZONE (i : Nat) : Nat := 0x4800 + 0x42 + 1 * i
def CMP_EVT : Nat := 0x4800 + 0x44
def CMP_CHK : Nat := 0x4800 + 0x45
def CMP_CHKCNT : Nat := 0x4800 + 0x46
def TMR_CFG (n : Nat) : Nat := 0x4C00 + 8 * n
def TMR_CTRL (n : Nat) : Nat := 0x4C00 + 8 * n + 0x1
def TMR_CNT (n : Nat) : Nat := 0x4C00 + 8 * n + 0x2
def TMR_RELOAD (n : Nat) : Nat := 0x4C00 + 8 * n + 0x3
def TMR_CMP0 (n : Nat) : Nat := 0x4C00 + 8 * n + 0x4
def TMR_CMP1 (n : Nat) : Nat := 0x4C00 + 8 * n + 0x5
def TMR_CAP (n : Nat) : Nat := 0x4C00 + 8 * n + 0x6
def TMR_STAT (n : Nat) : Nat := 0x4C00 + 8 * n + 0x7
def TB_LO : Nat := 0x4C80
def TB_MID : Nat := 0x4C81
def TB_HI : Nat := 0x4C82
def TB_STAT : Nat := 0x4C83
def TMR_GRUN : Nat := 0x4C84
def HAL_OWN (i : Nat) : Nat := 0x5000 + 1 * i
def HAL_CFG : Nat := 0x5000 + 0x10
def HAL_STAT : Nat := 0x5000 + 0x11
def HAL_ECCCNT : Nat := 0x5000 + 0x12
def HAL_ECCA_LO : Nat := 0x5000 + 0x13
def HAL_ECCA_HI : Nat := 0x5000 + 0x14
def HAL_HOLD : Nat := 0x5000 + 0x15
def HAL_SPARE (i : Nat) : Nat := 0x5000 + 0x20 + 1 * i
def HAL_NVPAGE : Nat := 0x5000 + 0x30
def HAL_NVCMD : Nat := 0x5000 + 0x31
def HAL_NVSTAT : Nat := 0x5000 + 0x32
def HAL_NVBUF (i : Nat) : Nat := 0x5000 + 0x40 + 1 * i
def HAL_LOGHEAD : Nat := 0x5000 + 0x50
def HAL_LOGSTAT : Nat := 0x5000 + 0x51
def HK_CFG (n : Nat) : Nat := 0x5400 + 0x10 * n
def HK_CTRL (n : Nat) : Nat := 0x5400 + 0x10 * n + 0x1
def HK_PC_LO (n : Nat) : Nat := 0x5400 + 0x10 * n + 0x2
def HK_PC_HI (n : Nat) : Nat := 0x5400 + 0x10 * n + 0x3
def HK_STAT (n : Nat) : Nat := 0x5400 + 0x10 * n + 0x4
def HK_DADDR_LO (n : Nat) : Nat := 0x5400 + 0x10 * n + 0x5
def HK_DADDR_HI (n : Nat) : Nat := 0x5400 + 0x10 * n + 0x6
def HK_RESID (n : Nat) : Nat := 0x5400 + 0x10 * n + 0x7
def HK_LCNT (n : Nat) : Nat := 0x5400 + 0x10 * n + 0x8
def HK_BUDGET (n : Nat) : Nat := 0x5400 + 0x10 * n + 0x9
def HK_USED (n : Nat) : Nat := 0x5400 + 0x10 * n + 0xA
def HK_CMPOFS (n : Nat) : Nat := 0x5400 + 0x10 * n + 0xB
def HK_BADCNT (n : Nat) : Nat := 0x5400 + 0x10 * n + 0xC
def HK_GCFG : Nat := 0x5500
def HK_GSTAT : Nat := 0x5501
def HK_RUN : Nat := 0x5502
def HK_ERR : Nat := 0x5503
def HK_ERRA_LO : Nat := 0x5504
def HK_ERRA_HI : Nat := 0x5505
def GAL_CFG : Nat := 0x6000
def GAL_CTRL : Nat := 0x6000 + 0x1
def GAL_STAT : Nat := 0x6000 + 0x2
def GAL_SYNC : Nat := 0x6000 + 0x3
def GAL_SYNCERR : Nat := 0x6000 + 0x4
def GAL_DLYP : Nat := 0x6000 + 0x5
def GAL_DLYC : Nat := 0x6000 + 0x6
def GAL_ERRCNT : Nat := 0x6000 + 0x7
def GAL_EVCNT : Nat := 0x6000 + 0x8
def GAL_AUTHREC : Nat := 0x6000 + 0x9
def GAL_RINGN : Nat := 0x6000 + 0xA
def GAL_ID (i : Nat) : Nat := 0x6000 + 0xC + 1 * i
def GAL_EVTDST (i : Nat) : Nat := 0x6000 + 0x10 + 1 * i
def GAL_ERX : Nat := 0x6000 + 0x20
def GAL_ERXF : Nat := 0x6000 + 0x21
def GAL_RIDX : Nat := 0x6000 + 0x30
def GAL_RSTAT : Nat := 0x6000 + 0x31
def GAL_RID (i : Nat) : Nat := 0x6000 + 0x32 + 1 * i
def HOST_CFG : Nat := 0x6400
def HOST_STAT : Nat := 0x6400 + 0x1
def HOST_ERRCNT : Nat := 0x6400 + 0x2
def IRT_CFG : Nat := 0x6400 + 0x10
def IRT_HOST : Nat := 0x6400 + 0x11
def IRT_CLAIM : Nat := 0x6400 + 0x12
def IRT_DONE : Nat := 0x6400 + 0x13
def IRT_HSTAT : Nat := 0x6400 + 0x14
def IRT_HSLOT : Nat := 0x6400 + 0x15
def IRT_TRAP : Nat := 0x6400 + 0x16
def IRT_STAT : Nat := 0x6400 + 0x17
def IRT_HTAB (i : Nat) : Nat := 0x6400 + 0x20 + 1 * i
def IRT_PEND (i : Nat) : Nat := 0x6400 + 0x40 + 1 * i
def IRT_SRC (i : Nat) : Nat := 0x6400 + 0x100 + 1 * i
def TRU_STAT : Nat := 0x6800
def TRU_CMD : Nat := 0x6800 + 0x1
def TRU_DBGLEFT : Nat := 0x6800 + 0x2
def TRU_TAMP : Nat := 0x6800 + 0x3
def TRU_DIGSEL : Nat := 0x6800 + 0x4
def TRU_CHAL (i : Nat) : Nat := 0x6800 + 0x8 + 1 * i
def TRU_IDPUB (i : Nat) : Nat := 0x6800 + 0x10 + 1 * i
def TRU_DIG (i : Nat) : Nat := 0x6800 + 0x30 + 1 * i
def TRU_BUF (i : Nat) : Nat := 0x6800 + 0x40 + 1 * i
def POR_STAT : Nat := 0x7000
def POR_GCFG : Nat := 0x7000 + 0x1
def POR_CMD : Nat := 0x7000 + 0x2
def POR_FIRST : Nat := 0x7000 + 0x3
def POR_FDET : Nat := 0x7000 + 0x4
def POR_FTB_LO : Nat := 0x7000 + 0x5
def POR_FTB_MID : Nat := 0x7000 + 0x6
def POR_FTB_HI : Nat := 0x7000 + 0x7
def POR_FADDR_LO : Nat := 0x7000 + 0x8
def POR_FADDR_HI : Nat := 0x7000 + 0x9
def POR_SECOND : Nat := 0x7000 + 0xA
def POR_FORCE (i : Nat) : Nat := 0x7000 + 0x10 + 1 * i
def POR_FCFG : Nat := 0x7000 + 0x18
def POR_SEV (i : Nat) : Nat := 0x7000 + 0x20 + 1 * i
def POR_ACT (i : Nat) : Nat := 0x7000 + 0x28 + 1 * i
def POR_SRCA (i : Nat) : Nat := 0x7000 + 0x80 + 1 * i
def POR_SRCB (i : Nat) : Nat := 0x7000 + 0x100 + 1 * i
def POR_CNT (i : Nat) : Nat := 0x7000 + 0x180 + 1 * i
def STC_STAT : Nat := 0x7400
def STC_PACE0 : Nat := 0x7400 + 0x1
def STC_PACE1 : Nat := 0x7400 + 0x2
def STC_MPOS : Nat := 0x7400 + 0x3
def STC_NPOS : Nat := 0x7400 + 0x4
def STC_MFAIL0 : Nat := 0x7400 + 0x5
def STC_MFAIL1 : Nat := 0x7400 + 0x6
def STC_RES : Nat := 0x7400 + 0x7
def STC_UFAIL : Nat := 0x7400 + 0x8
def STC_PASSM : Nat := 0x7400 + 0x9
def STC_CNT : Nat := 0x7400 + 0xA
def CAN_CFG (x : Nat) : Nat := 0x7800 + 0x200 * x
def CAN_NBT (x : Nat) : Nat := 0x7800 + 0x200 * x + 0x1
def CAN_BT2 (x : Nat) : Nat := 0x7800 + 0x200 * x + 0x2
def CAN_DBT (x : Nat) : Nat := 0x7800 + 0x200 * x + 0x3
def CAN_STAT (x : Nat) : Nat := 0x7800 + 0x200 * x + 0x4
def CAN_ERRCNT (x : Nat) : Nat := 0x7800 + 0x200 * x + 0x5
def CAN_CTRL (x : Nat) : Nat := 0x7800 + 0x200 * x + 0x6
def CAN_NEW (x i : Nat) : Nat := 0x7800 + 0x200 * x + 0x7 + 1 * i
def CAN_TXRQ (x i : Nat) : Nat := 0x7800 + 0x200 * x + 0x9 + 1 * i
def CAN_TXAB (x i : Nat) : Nat := 0x7800 + 0x200 * x + 0xB + 1 * i
def CAN_LOST (x i : Nat) : Nat := 0x7800 + 0x200 * x + 0xD + 1 * i
def CAN_OSEL (x : Nat) : Nat := 0x7800 + 0x200 * x + 0xF
def CAN_OCFG (x : Nat) : Nat := 0x7800 + 0x200 * x + 0x10
def CAN_OIDLO (x : Nat) : Nat := 0x7800 + 0x200 * x + 0x11
def CAN_OIDHI (x : Nat) : Nat := 0x7800 + 0x200 * x + 0x12
def CAN_OMSKLO (x : Nat) : Nat := 0x7800 + 0x200 * x + 0x13
def CAN_OMSKHI (x : Nat) : Nat := 0x7800 + 0x200 * x + 0x14
def CAN_OSTAT (x : Nat) : Nat := 0x7800 + 0x200 * x + 0x15
def CAN_OTS (x : Nat) : Nat := 0x7800 + 0x200 * x + 0x16
def CAN_ODATA (x i : Nat) : Nat := 0x7800 + 0x200 * x + 0x20 + 1 * i
def CAN_SIGA (i : Nat) : Nat := 0x7980 + 2 * i
def CAN_SIGB (i : Nat) : Nat := 0x7981 + 2 * i
def SENT_CFG (r : Nat) : Nat := 0x7C00 + 0x10 * r
def SENT_CFG2 (r : Nat) : Nat := 0x7C00 + 0x10 * r + 0x1
def SENT_CH1 (r : Nat) : Nat := 0x7C00 + 0x10 * r + 0x2
def SENT_CH1HI (r : Nat) : Nat := 0x7C00 + 0x10 * r + 0x3
def SENT_CH2 (r : Nat) : Nat := 0x7C00 + 0x10 * r + 0x4
def SENT_STATUS (r : Nat) : Nat := 0x7C00 + 0x10 * r + 0x5
def SENT_ERR (r : Nat) : Nat := 0x7C00 + 0x10 * r + 0x6
def SENT_TICK (r : Nat) : Nat := 0x7C00 + 0x10 * r + 0x7
def SENT_SMSG (r : Nat) : Nat := 0x7C00 + 0x10 * r + 0x8
def SENT_SMID (r : Nat) : Nat := 0x7C00 + 0x10 * r + 0x9
def SENT_SLOT (i : Nat) : Nat := 0x7C80 + i
def SENT_SLOTV (i : Nat) : Nat := 0x7CA0 + i

end R

namespace F

def CHIP_ID : Fld := ⟨R.CHIP_ID, 0, 20⟩
def CHIP_STRAP.MSTR : Fld := ⟨R.CHIP_STRAP, 0, 1⟩
def CHIP_STRAP.BOOT : Fld := ⟨R.CHIP_STRAP, 1, 2⟩
def CHIP_STRAP.BOOT_EFF : Fld := ⟨R.CHIP_STRAP, 3, 2⟩
def CHIP_STRAP.SRC_NRST : Fld := ⟨R.CHIP_STRAP, 5, 1⟩
def PCR_STAT.REFSRC : Fld := ⟨R.PCR_STAT, 0, 2⟩
def PCR_STAT.PLLA_LOCK : Fld := ⟨R.PCR_STAT, 2, 1⟩
def PCR_STAT.PLLG_LOCK : Fld := ⟨R.PCR_STAT, 3, 1⟩
def PCR_STAT.HOLDOVER : Fld := ⟨R.PCR_STAT, 4, 1⟩
def PCR_STAT.BOOTSTEP : Fld := ⟨R.PCR_STAT, 5, 3⟩
def PCR_RSTCAUSE.POR : Fld := ⟨R.PCR_RSTCAUSE, 0, 1⟩
def PCR_RSTCAUSE.NRST : Fld := ⟨R.PCR_RSTCAUSE, 1, 1⟩
def PCR_RSTCAUSE.PCHIP : Fld := ⟨R.PCR_RSTCAUSE, 2, 1⟩
def PCR_RSTCAUSE.GAL : Fld := ⟨R.PCR_RSTCAUSE, 3, 1⟩
def PCR_RSTCAUSE.RAIL : Fld := ⟨R.PCR_RSTCAUSE, 4, 3⟩
def PCR_RSTCAUSE.WAKE : Fld := ⟨R.PCR_RSTCAUSE, 7, 1⟩
def PCR_BRST : Fld := ⟨R.PCR_BRST, 0, 16⟩
def PCR_BRSTAT : Fld := ⟨R.PCR_BRSTAT, 0, 16⟩
def PCR_VSTAT.WARN : Fld := ⟨R.PCR_VSTAT, 0, 5⟩
def PCR_VSTAT.BELOW : Fld := ⟨R.PCR_VSTAT, 5, 5⟩
def PCR_VSTAT.LOCKOUT : Fld := ⟨R.PCR_VSTAT, 10, 1⟩
def PCR_VSTAT.CLRMIN : Fld := ⟨R.PCR_VSTAT, 11, 1⟩
def PCR_VMIN (i : Nat) : Fld := ⟨R.PCR_VMIN i, 0, 20⟩
def PCR_MODE.WATCH : Fld := ⟨R.PCR_MODE, 0, 1⟩
def PCR_MODE.REFUSED : Fld := ⟨R.PCR_MODE, 1, 1⟩
def PCR_MODE.KEY : Fld := ⟨R.PCR_MODE, 12, 8⟩
def PCR_WAKE.PIN_EN : Fld := ⟨R.PCR_WAKE, 0, 1⟩
def PCR_WAKE.WIN_EN : Fld := ⟨R.PCR_WAKE, 1, 1⟩
def PCR_WAKE.TMR_EN : Fld := ⟨R.PCR_WAKE, 2, 1⟩
def PCR_WAKE.CAUSE : Fld := ⟨R.PCR_WAKE, 4, 2⟩
def PCR_WTIMER : Fld := ⟨R.PCR_WTIMER, 0, 20⟩
def WVL_STAT.APPLIED : Fld := ⟨R.WVL_STAT, 0, 3⟩
def WVL_STAT.CAUSE : Fld := ⟨R.WVL_STAT, 3, 5⟩
def WVL_STAT.SAFETY : Fld := ⟨R.WVL_STAT, 8, 1⟩
def WVL_STAT.ENC : Fld := ⟨R.WVL_STAT, 9, 1⟩
def WVL_STAT.LOADING : Fld := ⟨R.WVL_STAT, 10, 1⟩
def WVL_STAT.HOTPEND : Fld := ⟨R.WVL_STAT, 11, 1⟩
def WVL_STAT.DONE : Fld := ⟨R.WVL_STAT, 12, 1⟩
def WVL_STAT.FAIL : Fld := ⟨R.WVL_STAT, 13, 1⟩
def WVL_CMD.CMD : Fld := ⟨R.WVL_CMD, 0, 3⟩
def WVL_CMD.KEY : Fld := ⟨R.WVL_CMD, 12, 8⟩
def WVL_DATA : Fld := ⟨R.WVL_DATA, 0, 16⟩
def WVL_OFS : Fld := ⟨R.WVL_OFS, 0, 19⟩
def WVL_SLOT.STATE (i : Nat) : Fld := ⟨R.WVL_SLOT i, 0, 2⟩
def WVL_SLOT.CAUSE (i : Nat) : Fld := ⟨R.WVL_SLOT i, 2, 5⟩
def WVL_VER (i : Nat) : Fld := ⟨R.WVL_VER i, 0, 16⟩
def WVL_FLOOR : Fld := ⟨R.WVL_FLOOR, 0, 16⟩
def WVL_RUNVER : Fld := ⟨R.WVL_RUNVER, 0, 16⟩
def WVL_WLREJ.ADDR : Fld := ⟨R.WVL_WLREJ, 0, 16⟩
def WVL_WLREJ.COUNT : Fld := ⟨R.WVL_WLREJ, 16, 4⟩
def STAIR_CFG.ROLE (n : Nat) : Fld := ⟨R.STAIR_CFG n, 0, 2⟩
def STAIR_CFG.INTYPE (n : Nat) : Fld := ⟨R.STAIR_CFG n, 2, 1⟩
def STAIR_CFG.WHLSEL (n : Nat) : Fld := ⟨R.STAIR_CFG n, 3, 3⟩
def STAIR_CFG.EDGE (n : Nat) : Fld := ⟨R.STAIR_CFG n, 6, 1⟩
def STAIR_CFG.TPTLOG (n : Nat) : Fld := ⟨R.STAIR_CFG n, 7, 4⟩
def STAIR_CFG.PRED (n : Nat) : Fld := ⟨R.STAIR_CFG n, 11, 2⟩
def STAIR_CFG.EARLY (n : Nat) : Fld := ⟨R.STAIR_CFG n, 13, 1⟩
def STAIR_CFG.DIRMODE (n : Nat) : Fld := ⟨R.STAIR_CFG n, 14, 2⟩
def STAIR_CFG.AUTORS (n : Nat) : Fld := ⟨R.STAIR_CFG n, 16, 1⟩
def STAIR_CFG.PHASEPOL (n : Nat) : Fld := ⟨R.STAIR_CFG n, 17, 1⟩
def STAIR_CFG.PHMODE (n : Nat) : Fld := ⟨R.STAIR_CFG n, 18, 2⟩
def STAIR_CFG2.CAMTRK (n : Nat) : Fld := ⟨R.STAIR_CFG2 n, 0, 2⟩
def STAIR_CFG2.MINTEETH (n : Nat) : Fld := ⟨R.STAIR_CFG2 n, 2, 4⟩
def STAIR_CFG2.NOISELIM (n : Nat) : Fld := ⟨R.STAIR_CFG2 n, 6, 4⟩
def STAIR_CFG2.MISSLIM (n : Nat) : Fld := ⟨R.STAIR_CFG2 n, 10, 4⟩
def STAIR_WIN.WMIN (n : Nat) : Fld := ⟨R.STAIR_WIN n, 0, 8⟩
def STAIR_WIN.WMAX (n : Nat) : Fld := ⟨R.STAIR_WIN n, 8, 8⟩
def STAIR_FILT.FILT (n : Nat) : Fld := ⟨R.STAIR_FILT n, 0, 8⟩
def STAIR_FILT.DIRW (n : Nat) : Fld := ⟨R.STAIR_FILT n, 8, 8⟩
def STAIR_STALL (n : Nat) : Fld := ⟨R.STAIR_STALL n, 0, 10⟩
def STAIR_VR.VRSTART (n : Nat) : Fld := ⟨R.STAIR_VR n, 0, 8⟩
def STAIR_VR.VRFLOOR (n : Nat) : Fld := ⟨R.STAIR_VR n, 8, 8⟩
def STAIR_VR.ADAPT (n : Nat) : Fld := ⟨R.STAIR_VR n, 16, 4⟩
def STAIR_CTRL.RUN (n : Nat) : Fld := ⟨R.STAIR_CTRL n, 0, 1⟩
def STAIR_CTRL.RESYNC (n : Nat) : Fld := ⟨R.STAIR_CTRL n, 1, 1⟩
def STAIR_CTRL.CLRCNT (n : Nat) : Fld := ⟨R.STAIR_CTRL n, 2, 1⟩
def STAIR_STAT.STATE (n : Nat) : Fld := ⟨R.STAIR_STAT n, 0, 3⟩
def STAIR_STAT.CAUSE (n : Nat) : Fld := ⟨R.STAIR_STAT n, 3, 4⟩
def STAIR_STAT.FLIGHT (n : Nat) : Fld := ⟨R.STAIR_STAT n, 7, 1⟩
def STAIR_STAT.INLVL (n : Nat) : Fld := ⟨R.STAIR_STAT n, 8, 1⟩
def STAIR_STAT.ARMED (n : Nat) : Fld := ⟨R.STAIR_STAT n, 9, 1⟩
def STAIR_STAT.TIDX (n : Nat) : Fld := ⟨R.STAIR_STAT n, 10, 8⟩
def STAIR_STAT.DIR (n : Nat) : Fld := ⟨R.STAIR_STAT n, 18, 1⟩
def STAIR_ANGLE (n : Nat) : Fld := ⟨R.STAIR_ANGLE n, 0, 20⟩
def STAIR_CYCNT (n : Nat) : Fld := ⟨R.STAIR_CYCNT n, 0, 20⟩
def STAIR_PER_LO (n : Nat) : Fld := ⟨R.STAIR_PER_LO n, 0, 20⟩
def STAIR_PER_HI (n : Nat) : Fld := ⟨R.STAIR_PER_HI n, 0, 10⟩
def STAIR_ERRCNT.NOISE (n : Nat) : Fld := ⟨R.STAIR_ERRCNT n, 0, 10⟩
def STAIR_ERRCNT.MISSED (n : Nat) : Fld := ⟨R.STAIR_ERRCNT n, 10, 10⟩
def STAIR_SYNCCNT.LOSTS (n : Nat) : Fld := ⟨R.STAIR_SYNCCNT n, 0, 10⟩
def STAIR_SYNCCNT.PHERR (n : Nat) : Fld := ⟨R.STAIR_SYNCCNT n, 10, 10⟩
def STAIR_CAMCNT.RUNNING (n : Nat) : Fld := ⟨R.STAIR_CAMCNT n, 0, 8⟩
def STAIR_CAMCNT.LAST (n : Nat) : Fld := ⟨R.STAIR_CAMCNT n, 8, 8⟩
def STAIR_VPK (n : Nat) : Fld := ⟨R.STAIR_VPK n, 0, 10⟩
def STAIR_HIST_LO (n : Nat) : Fld := ⟨R.STAIR_HIST_LO n, 0, 20⟩
def STAIR_HIST_HI (n : Nat) : Fld := ⟨R.STAIR_HIST_HI n, 0, 20⟩
def STAIR_HSTAT.LEVEL (n : Nat) : Fld := ⟨R.STAIR_HSTAT n, 0, 5⟩
def STAIR_HSTAT.OVF (n : Nat) : Fld := ⟨R.STAIR_HSTAT n, 5, 10⟩
def STAIR_RCFG.SRCBAY (n : Nat) : Fld := ⟨R.STAIR_RCFG n, 0, 6⟩
def STAIR_RCFG.SRCTRK (n : Nat) : Fld := ⟨R.STAIR_RCFG n, 6, 2⟩
def STAIR_RCFG.BSTEPLOG (n : Nat) : Fld := ⟨R.STAIR_RCFG n, 8, 4⟩
def STAIR_RCFG.BLATMAX (n : Nat) : Fld := ⟨R.STAIR_RCFG n, 12, 8⟩
def STAIR_BCFG.BEN (n : Nat) : Fld := ⟨R.STAIR_BCFG n, 0, 1⟩
def STAIR_BCFG.BSTEPLOG (n : Nat) : Fld := ⟨R.STAIR_BCFG n, 1, 4⟩
def STAIR_BCFG.DEST (n : Nat) : Fld := ⟨R.STAIR_BCFG n, 5, 6⟩
def STAIR_GEOM.NTM1 (n : Nat) : Fld := ⟨R.STAIR_GEOM n, 0, 8⟩
def STAIR_GEOM.FL2 (n : Nat) : Fld := ⟨R.STAIR_GEOM n, 8, 1⟩
def STAIR_GEOM.ORIGIN (n : Nat) : Fld := ⟨R.STAIR_GEOM n, 9, 8⟩
def STAIR_PHASE.PHASE0 (n : Nat) : Fld := ⟨R.STAIR_PHASE n, 0, 8⟩
def STAIR_PHASE.PHASE1 (n : Nat) : Fld := ⟨R.STAIR_PHASE n, 8, 8⟩
def STAIR_LEN (n : Nat) : Fld := ⟨R.STAIR_LEN n, 0, 20⟩
def STAIR_TTA.SPAN (n i : Nat) : Fld := ⟨R.STAIR_TTA n i, 0, 12⟩
def STAIR_TTA.LANDING (n i : Nat) : Fld := ⟨R.STAIR_TTA n i, 12, 1⟩
def STAIR_TTA.WOVR (n i : Nat) : Fld := ⟨R.STAIR_TTA n i, 13, 1⟩
def STAIR_TTA.IRQ (n i : Nat) : Fld := ⟨R.STAIR_TTA n i, 14, 1⟩
def STAIR_TTB.WMIN (n i : Nat) : Fld := ⟨R.STAIR_TTB n i, 0, 8⟩
def STAIR_TTB.WMAX (n i : Nat) : Fld := ⟨R.STAIR_TTB n i, 8, 8⟩
def STAIR_ICFG.CSW (n : Nat) : Fld := ⟨R.STAIR_ICFG n, 0, 3⟩
def STAIR_ICFG.GLW (n : Nat) : Fld := ⟨R.STAIR_ICFG n, 3, 3⟩
def STAIR_ICFG.GEN (n : Nat) : Fld := ⟨R.STAIR_ICFG n, 6, 1⟩
def STAIR_GCTL.LEARN (n : Nat) : Fld := ⟨R.STAIR_GCTL n, 0, 1⟩
def STAIR_GCTL.SAVE (n : Nat) : Fld := ⟨R.STAIR_GCTL n, 1, 1⟩
def STAIR_GCTL.GRESET (n : Nat) : Fld := ⟨R.STAIR_GCTL n, 2, 1⟩
def STAIR_ISTAT.HALT (n : Nat) : Fld := ⟨R.STAIR_ISTAT n, 0, 1⟩
def STAIR_ISTAT.CATCH (n : Nat) : Fld := ⟨R.STAIR_ISTAT n, 1, 1⟩
def STAIR_ISTAT.OVSP (n : Nat) : Fld := ⟨R.STAIR_ISTAT n, 2, 1⟩
def STAIR_ISTAT.PACT (n : Nat) : Fld := ⟨R.STAIR_ISTAT n, 3, 2⟩
def STAIR_ISTAT.QOK (n : Nat) : Fld := ⟨R.STAIR_ISTAT n, 5, 1⟩
def STAIR_ISTAT.TPLFULL (n : Nat) : Fld := ⟨R.STAIR_ISTAT n, 6, 1⟩
def STAIR_ISTAT.GSRC (n : Nat) : Fld := ⟨R.STAIR_ISTAT n, 7, 1⟩
def STAIR_ISTAT.GDIRTY (n : Nat) : Fld := ⟨R.STAIR_ISTAT n, 8, 1⟩
def STAIR_ISTAT.GBUSY (n : Nat) : Fld := ⟨R.STAIR_ISTAT n, 9, 1⟩
def STAIR_ISTAT.GERR (n : Nat) : Fld := ⟨R.STAIR_ISTAT n, 10, 1⟩
def STAIR_TPRED_LO (n : Nat) : Fld := ⟨R.STAIR_TPRED_LO n, 0, 20⟩
def STAIR_TPRED_HI (n : Nat) : Fld := ⟨R.STAIR_TPRED_HI n, 0, 10⟩
def STAIR_DEFICIT (n : Nat) : Fld := ⟨R.STAIR_DEFICIT n, 0, 20⟩
def STAIR_GUPD (n : Nat) : Fld := ⟨R.STAIR_GUPD n, 0, 20⟩
def STAIR_TPLIDX (n : Nat) : Fld := ⟨R.STAIR_TPLIDX n, 0, 9⟩
def STAIR_TPLDAT (n : Nat) : Fld := ⟨R.STAIR_TPLDAT n, 0, 20⟩
def STAIR_GEO (n i : Nat) : Fld := ⟨R.STAIR_GEO n i, 0, 16⟩
def SU_ALLOC.EN (i : Nat) : Fld := ⟨R.SU_ALLOC i, 0, 1⟩
def SU_ALLOC.TRK (i : Nat) : Fld := ⟨R.SU_ALLOC i, 1, 2⟩
def SU_PLAN (i : Nat) : Fld := ⟨R.SU_PLAN i, 0, 20⟩
def SU_CTRL.VIEWACT : Fld := ⟨R.SU_CTRL, 0, 1⟩
def SU_COMMIT.STITCH : Fld := ⟨R.SU_COMMIT, 0, 7⟩
def SU_CANCEL.STITCH : Fld := ⟨R.SU_CANCEL, 0, 7⟩
def SU_CANCEL.KEY : Fld := ⟨R.SU_CANCEL, 12, 8⟩
def SU_STAT.TBUSY : Fld := ⟨R.SU_STAT, 0, 5⟩
def SU_STAT.NARMED : Fld := ⟨R.SU_STAT, 5, 8⟩
def SU_STAT.CROWD : Fld := ⟨R.SU_STAT, 13, 1⟩
def SU_STAT.CHKERR : Fld := ⟨R.SU_STAT, 14, 1⟩
def SU_CROWD.LAST : Fld := ⟨R.SU_CROWD, 0, 7⟩
def SU_CROWD.COUNT : Fld := ⟨R.SU_CROWD, 7, 13⟩
def SU_CHK.STITCH : Fld := ⟨R.SU_CHK, 0, 7⟩
def SU_CHK.LINE : Fld := ⟨R.SU_CHK, 7, 6⟩
def SU_CHK.COUNT : Fld := ⟨R.SU_CHK, 13, 7⟩
def STITCH_CTRL.EN (n : Nat) : Fld := ⟨R.STITCH_CTRL n, 0, 1⟩
def STITCH_CTRL.LINE (n : Nat) : Fld := ⟨R.STITCH_CTRL n, 1, 6⟩
def STITCH_CTRL.MODE (n : Nat) : Fld := ⟨R.STITCH_CTRL n, 7, 1⟩
def STITCH_CTRL.POLICY (n : Nat) : Fld := ⟨R.STITCH_CTRL n, 8, 2⟩
def STITCH_CTRL.RUN_ON (n : Nat) : Fld := ⟨R.STITCH_CTRL n, 10, 1⟩
def STITCH_CTRL.CLMIN (n : Nat) : Fld := ⟨R.STITCH_CTRL n, 11, 1⟩
def STITCH_CTRL.CLMAX (n : Nat) : Fld := ⟨R.STITCH_CTRL n, 12, 1⟩
def STITCH_CTRL.IRQ (n : Nat) : Fld := ⟨R.STITCH_CTRL n, 13, 2⟩
def STITCH_END (n : Nat) : Fld := ⟨R.STITCH_END n, 0, 20⟩
def STITCH_DUR (n : Nat) : Fld := ⟨R.STITCH_DUR n, 0, 20⟩
def STITCH_TIMING.TSCALE (n : Nat) : Fld := ⟨R.STITCH_TIMING n, 0, 3⟩
def STITCH_TIMING.ARM_LEAD (n : Nat) : Fld := ⟨R.STITCH_TIMING n, 3, 3⟩
def STITCH_TIMING.GUARD (n : Nat) : Fld := ⟨R.STITCH_TIMING n, 6, 8⟩
def STITCH_MINST (n : Nat) : Fld := ⟨R.STITCH_MINST n, 0, 20⟩
def STITCH_MAXST (n : Nat) : Fld := ⟨R.STITCH_MAXST n, 0, 20⟩
def STITCH_STATUS.STATE (n : Nat) : Fld := ⟨R.STITCH_STATUS n, 0, 3⟩
def STITCH_STATUS.RESULT (n : Nat) : Fld := ⟨R.STITCH_STATUS n, 3, 4⟩
def STITCH_STATUS.MISSED (n : Nat) : Fld := ⟨R.STITCH_STATUS n, 7, 1⟩
def STITCH_STATUS.JUMPED (n : Nat) : Fld := ⟨R.STITCH_STATUS n, 8, 1⟩
def STITCH_STATUS.CLAMPED (n : Nat) : Fld := ⟨R.STITCH_STATUS n, 9, 1⟩
def STITCH_STATUS.PEND (n : Nat) : Fld := ⟨R.STITCH_STATUS n, 10, 1⟩
def STITCH_STATUS.ACTSET (n : Nat) : Fld := ⟨R.STITCH_STATUS n, 11, 1⟩
def STITCH_STATUS.COMMIT_LATE (n : Nat) : Fld := ⟨R.STITCH_STATUS n, 12, 1⟩
def STITCH_STATUS.CROWD (n : Nat) : Fld := ⟨R.STITCH_STATUS n, 13, 1⟩
def STITCH_STATUS.CHKERR (n : Nat) : Fld := ⟨R.STITCH_STATUS n, 14, 1⟩
def STITCH_STATUS.BANKCONF (n : Nat) : Fld := ⟨R.STITCH_STATUS n, 15, 1⟩
def STITCH_STATUS.OCC (n : Nat) : Fld := ⟨R.STITCH_STATUS n, 16, 4⟩
def STITCH_LAST (n : Nat) : Fld := ⟨R.STITCH_LAST n, 0, 20⟩
def EO_CFG.LINE (i : Nat) : Fld := ⟨R.EO_CFG i, 0, 6⟩
def EO_CFG.SRC (i : Nat) : Fld := ⟨R.EO_CFG i, 6, 2⟩
def EO_CFG.INV (i : Nat) : Fld := ⟨R.EO_CFG i, 8, 1⟩
def EO_CFG.LEVEL (i : Nat) : Fld := ⟨R.EO_CFG i, 9, 1⟩
def EO_CFG.SAFE (i : Nat) : Fld := ⟨R.EO_CFG i, 10, 1⟩
def EO_CFG.EN (i : Nat) : Fld := ⟨R.EO_CFG i, 11, 1⟩
def EO_CFG.MISMATCH (i : Nat) : Fld := ⟨R.EO_CFG i, 12, 1⟩
def EL_STATE (i : Nat) : Fld := ⟨R.EL_STATE i, 0, 20⟩
def INJ_BCFG.EN (i : Nat) : Fld := ⟨R.INJ_BCFG i, 0, 1⟩
def INJ_BCFG.BGAP (i : Nat) : Fld := ⟨R.INJ_BCFG i, 1, 8⟩
def INJ_BCFG.EOIEN (i : Nat) : Fld := ⟨R.INJ_BCFG i, 9, 1⟩
def INJ_BCFG.AUTODIS (i : Nat) : Fld := ⟨R.INJ_BCFG i, 10, 1⟩
def INJ_BTIM (i : Nat) : Fld := ⟨R.INJ_BTIM i, 0, 12⟩
def INJ_BDIAG.TPKMIN (i : Nat) : Fld := ⟨R.INJ_BDIAG i, 0, 8⟩
def INJ_BDIAG.TPKMAX (i : Nat) : Fld := ⟨R.INJ_BDIAG i, 8, 8⟩
def INJ_BOPD.OPTHR (i : Nat) : Fld := ⟨R.INJ_BOPD i, 0, 6⟩
def INJ_BOPD.OPDEN (i : Nat) : Fld := ⟨R.INJ_BOPD i, 6, 1⟩
def INJ_BEOI (i : Nat) : Fld := ⟨R.INJ_BEOI i, 0, 10⟩
def INJ_BSTAT.BUSY (i : Nat) : Fld := ⟨R.INJ_BSTAT i, 0, 1⟩
def INJ_BSTAT.CONDINJ (i : Nat) : Fld := ⟨R.INJ_BSTAT i, 1, 2⟩
def INJ_BSTAT.CONDSLOT (i : Nat) : Fld := ⟨R.INJ_BSTAT i, 3, 3⟩
def INJ_BSTAT.DRAIN (i : Nat) : Fld := ⟨R.INJ_BSTAT i, 6, 1⟩
def INJ_BSTAT.NDLOFF (i : Nat) : Fld := ⟨R.INJ_BSTAT i, 7, 1⟩
def INJ_BSTAT.CUTCAUSE (i : Nat) : Fld := ⟨R.INJ_BSTAT i, 8, 2⟩
def INJ_BSTAT.GMIS (i : Nat) : Fld := ⟨R.INJ_BSTAT i, 10, 1⟩
def INJ_BSTAT.LOST (i : Nat) : Fld := ⟨R.INJ_BSTAT i, 11, 8⟩
def INJ_CFG.EN (i : Nat) : Fld := ⟨R.INJ_CFG i, 0, 1⟩
def INJ_CFG.EOIANA (i : Nat) : Fld := ⟨R.INJ_CFG i, 1, 4⟩
def INJ_CFG.OPIRQ (i : Nat) : Fld := ⟨R.INJ_CFG i, 5, 1⟩
def INJ_STAT.OPEN (i : Nat) : Fld := ⟨R.INJ_STAT i, 0, 1⟩
def INJ_STAT.SHORT (i : Nat) : Fld := ⟨R.INJ_STAT i, 1, 1⟩
def INJ_STAT.LOWR (i : Nat) : Fld := ⟨R.INJ_STAT i, 2, 1⟩
def INJ_STAT.SLOW (i : Nat) : Fld := ⟨R.INJ_STAT i, 3, 1⟩
def INJ_STAT.CONF (i : Nat) : Fld := ⟨R.INJ_STAT i, 4, 1⟩
def INJ_STAT.CUT (i : Nat) : Fld := ⟨R.INJ_STAT i, 5, 1⟩
def INJ_STAT.DIS (i : Nat) : Fld := ⟨R.INJ_STAT i, 6, 1⟩
def INJ_STAT.OPOK (i : Nat) : Fld := ⟨R.INJ_STAT i, 7, 1⟩
def INJ_STAT.EOIOK (i : Nat) : Fld := ⟨R.INJ_STAT i, 8, 1⟩
def INJ_STAT.EOIN (i : Nat) : Fld := ⟨R.INJ_STAT i, 9, 4⟩
def INJ_STAT.PULSES (i : Nat) : Fld := ⟨R.INJ_STAT i, 13, 7⟩
def INJ_RISE (i : Nat) : Fld := ⟨R.INJ_RISE i, 0, 20⟩
def INJ_OPEN (i : Nat) : Fld := ⟨R.INJ_OPEN i, 0, 20⟩
def INJ_EOIF (i : Nat) : Fld := ⟨R.INJ_EOIF i, 0, 20⟩
def INJ_EOIL (i : Nat) : Fld := ⟨R.INJ_EOIL i, 0, 20⟩
def INJ_CONF.INJ : Fld := ⟨R.INJ_CONF, 0, 4⟩
def INJ_CONF.SLOT : Fld := ⟨R.INJ_CONF, 4, 3⟩
def INJ_CONF.REASON : Fld := ⟨R.INJ_CONF, 7, 3⟩
def INJ_CONF.COUNT : Fld := ⟨R.INJ_CONF, 10, 10⟩
def INJ_CMD.INJ : Fld := ⟨R.INJ_CMD, 0, 4⟩
def INJ_CMD.ENABLE : Fld := ⟨R.INJ_CMD, 4, 1⟩
def INJ_CMD.KEY : Fld := ⟨R.INJ_CMD, 12, 8⟩
def CHT_QV (i : Nat) : Fld := ⟨R.CHT_QV i, 0, 20⟩
def CHT_QVS.KIND (i : Nat) : Fld := ⟨R.CHT_QVS i, 0, 4⟩
def CHT_QVS.STALE (i : Nat) : Fld := ⟨R.CHT_QVS i, 4, 1⟩
def CHT_QVS.AGECNT (i : Nat) : Fld := ⟨R.CHT_QVS i, 5, 8⟩
def CHT_CTRL.EN : Fld := ⟨R.CHT_CTRL, 0, 1⟩
def CHT_CTRL.RTMAX : Fld := ⟨R.CHT_CTRL, 1, 10⟩
def CHT_STAT.RUNNING : Fld := ⟨R.CHT_STAT, 0, 3⟩
def CHT_STAT.QLEVEL : Fld := ⟨R.CHT_STAT, 3, 5⟩
def CHT_STAT.QOVF : Fld := ⟨R.CHT_STAT, 8, 1⟩
def CHT_STAT.RUNERR : Fld := ⟨R.CHT_STAT, 9, 1⟩
def CHT_ERR.RECIPE : Fld := ⟨R.CHT_ERR, 0, 6⟩
def CHT_ERR.CYL : Fld := ⟨R.CHT_ERR, 6, 4⟩
def CHT_ERR.STEP : Fld := ⟨R.CHT_ERR, 10, 5⟩
def CHT_ERR.CAUSE : Fld := ⟨R.CHT_ERR, 15, 2⟩
def CHT_CLIP : Fld := ⟨R.CHT_CLIP, 0, 20⟩
def CHT_TCMD.CHART : Fld := ⟨R.CHT_TCMD, 0, 6⟩
def CHT_TCMD.GO : Fld := ⟨R.CHT_TCMD, 6, 1⟩
def CHT_TRES : Fld := ⟨R.CHT_TRES, 0, 20⟩
def CHT_TSTAT.BUSY : Fld := ⟨R.CHT_TSTAT, 0, 1⟩
def CHT_TSTAT.DONE : Fld := ⟨R.CHT_TSTAT, 1, 1⟩
def CHT_TSTAT.ERR : Fld := ⟨R.CHT_TSTAT, 2, 1⟩
def CHT_RCP.LASTCYL (i : Nat) : Fld := ⟨R.CHT_RCP i, 0, 4⟩
def CHT_RCP.LASTRES (i : Nat) : Fld := ⟨R.CHT_RCP i, 4, 3⟩
def CHT_RCP.RUNS (i : Nat) : Fld := ⟨R.CHT_RCP i, 7, 13⟩
def CHT_CHART.HALL (i : Nat) : Fld := ⟨R.CHT_CHART i, 0, 4⟩
def CHT_CHART.NDIM (i : Nat) : Fld := ⟨R.CHT_CHART i, 4, 2⟩
def CHT_CHART.QUANT (i : Nat) : Fld := ⟨R.CHT_CHART i, 6, 1⟩
def CHT_CHART.K (i : Nat) : Fld := ⟨R.CHT_CHART i, 7, 3⟩
def CHT_CHART.VALID (i : Nat) : Fld := ⟨R.CHT_CHART i, 10, 1⟩
def GAU_CFG.EN : Fld := ⟨R.GAU_CFG, 0, 1⟩
def GAU_CFG.TRK : Fld := ⟨R.GAU_CFG, 1, 2⟩
def GAU_CFG.NSEGM1 : Fld := ⟨R.GAU_CFG, 3, 4⟩
def GAU_MFCFG.MFCHART : Fld := ⟨R.GAU_MFCFG, 0, 6⟩
def GAU_MFCFG.MFEN : Fld := ⟨R.GAU_MFCFG, 6, 1⟩
def GAU_MFCFG.MFWIN : Fld := ⟨R.GAU_MFCFG, 7, 8⟩
def GAU_MFCFG.MFLIM : Fld := ⟨R.GAU_MFCFG, 15, 5⟩
def GAU_MFTHR : Fld := ⟨R.GAU_MFTHR, 0, 20⟩
def GAU_STAT.THRLATE : Fld := ⟨R.GAU_STAT, 0, 1⟩
def GAU_STAT.SEGINV : Fld := ⟨R.GAU_STAT, 1, 1⟩
def GAU_STAT.ECC : Fld := ⟨R.GAU_STAT, 2, 1⟩
def GAU_STAT.BLKCYC : Fld := ⟨R.GAU_STAT, 3, 8⟩
def GAU_SEG (i : Nat) : Fld := ⟨R.GAU_SEG i, 0, 16⟩
def GAU_SLEN (i : Nat) : Fld := ⟨R.GAU_SLEN i, 0, 8⟩
def GAU_TSEG (i : Nat) : Fld := ⟨R.GAU_TSEG i, 0, 20⟩
def GAU_ROUGH (i : Nat) : Fld := ⟨R.GAU_ROUGH i, 0, 20⟩
def GAU_MF.CAND (i : Nat) : Fld := ⟨R.GAU_MF i, 0, 8⟩
def GAU_MF.BLKCNT (i : Nat) : Fld := ⟨R.GAU_MF i, 8, 5⟩
def GAU_MF.LIMIT (i : Nat) : Fld := ⟨R.GAU_MF i, 13, 1⟩
def GAU_MF.VALID (i : Nat) : Fld := ⟨R.GAU_MF i, 14, 1⟩
def GAU_HCFG.HEN (i : Nat) : Fld := ⟨R.GAU_HCFG i, 0, 1⟩
def GAU_HCFG.COARSE (i : Nat) : Fld := ⟨R.GAU_HCFG i, 1, 1⟩
def GAU_HCFG.SYNCINT (i : Nat) : Fld := ⟨R.GAU_HCFG i, 2, 8⟩
def GAU_HSTAT.LOST (i : Nat) : Fld := ⟨R.GAU_HSTAT i, 0, 10⟩
def GAU_HSTAT.LOSTF (i : Nat) : Fld := ⟨R.GAU_HSTAT i, 10, 1⟩
def GAU_HSTAT.ACTIVE (i : Nat) : Fld := ⟨R.GAU_HSTAT i, 11, 1⟩
def GAU_HSTAT.CACT (i : Nat) : Fld := ⟨R.GAU_HSTAT i, 12, 1⟩
def GAU_HBYTES (i : Nat) : Fld := ⟨R.GAU_HBYTES i, 0, 20⟩
def GAU_ACFG.AEN (i : Nat) : Fld := ⟨R.GAU_ACFG i, 0, 1⟩
def GAU_ACFG.ATRK (i : Nat) : Fld := ⟨R.GAU_ACFG i, 1, 2⟩
def GAU_ACFG.INTERP (i : Nat) : Fld := ⟨R.GAU_ACFG i, 3, 1⟩
def GAU_ACFG.REMOTE (i : Nat) : Fld := ⟨R.GAU_ACFG i, 4, 1⟩
def GAU_ACFG.RXSLOT (i : Nat) : Fld := ⟨R.GAU_ACFG i, 5, 3⟩
def GAU_ACFG.STREAM (i : Nat) : Fld := ⟨R.GAU_ACFG i, 8, 1⟩
def GAU_ACFG.TXSLOT (i : Nat) : Fld := ⟨R.GAU_ACFG i, 9, 3⟩
def GAU_ACFG.DEST (i : Nat) : Fld := ⟨R.GAU_ACFG i, 12, 6⟩
def GAU_ACFG.SLOG (i : Nat) : Fld := ⟨R.GAU_ACFG i, 18, 2⟩
def GAU_AOFS (i : Nat) : Fld := ⟨R.GAU_AOFS i, 0, 20⟩
def GAU_APER (i : Nat) : Fld := ⟨R.GAU_APER i, 0, 20⟩
def GAU_AIDLE (i : Nat) : Fld := ⟨R.GAU_AIDLE i, 0, 16⟩
def GAU_AOUT.Y (i : Nat) : Fld := ⟨R.GAU_AOUT i, 0, 16⟩
def GAU_AOUT.VALID (i : Nat) : Fld := ⟨R.GAU_AOUT i, 16, 1⟩
def GAU_AIDX (i : Nat) : Fld := ⟨R.GAU_AIDX i, 0, 10⟩
def GAU_SRX.VALUE (i : Nat) : Fld := ⟨R.GAU_SRX i, 0, 16⟩
def GAU_SRX.FRESH (i : Nat) : Fld := ⟨R.GAU_SRX i, 16, 1⟩
def GAU_SRXTO : Fld := ⟨R.GAU_SRXTO, 0, 8⟩
def BED_PS (b i : Nat) : Fld := ⟨R.BED_PS b i, 0, 20⟩
def BED_STAT.PSTORE_BUSY (b : Nat) : Fld := ⟨R.BED_STAT b, 0, 1⟩
def BED_STAT.BUSY (b : Nat) : Fld := ⟨R.BED_STAT b, 1, 1⟩
def BED_NCFG.DIVM1 (m : Nat) : Fld := ⟨R.BED_NCFG m, 0, 12⟩
def BED_NCFG.INDIR (m : Nat) : Fld := ⟨R.BED_NCFG m, 12, 1⟩
def BED_NCFG.OUTDIR (m : Nat) : Fld := ⟨R.BED_NCFG m, 13, 1⟩
def BED_NCFG.JOIN (m : Nat) : Fld := ⟨R.BED_NCFG m, 14, 2⟩
def BED_NCFG.FIRQ (m : Nat) : Fld := ⟨R.BED_NCFG m, 16, 1⟩
def BED_NCFG.WAITTO (m : Nat) : Fld := ⟨R.BED_NCFG m, 17, 1⟩
def BED_NCFG.PROT (m : Nat) : Fld := ⟨R.BED_NCFG m, 18, 1⟩
def BED_NCTL.START (m : Nat) : Fld := ⟨R.BED_NCTL m, 0, 1⟩
def BED_NCTL.STOP (m : Nat) : Fld := ⟨R.BED_NCTL m, 1, 1⟩
def BED_NPC (m : Nat) : Fld := ⟨R.BED_NPC m, 0, 6⟩
def BED_NSTAT.STATE (m : Nat) : Fld := ⟨R.BED_NSTAT m, 0, 2⟩
def BED_NSTAT.CAUSE (m : Nat) : Fld := ⟨R.BED_NSTAT m, 2, 3⟩
def BED_NSTAT.BADOP (m : Nat) : Fld := ⟨R.BED_NSTAT m, 5, 1⟩
def BED_NU (m : Nat) : Fld := ⟨R.BED_NU m, 0, 20⟩
def BED_NV (m : Nat) : Fld := ⟨R.BED_NV m, 0, 20⟩
def BED_NSIN (m : Nat) : Fld := ⟨R.BED_NSIN m, 0, 20⟩
def BED_NSOUT (m : Nat) : Fld := ⟨R.BED_NSOUT m, 0, 20⟩
def BED_NTX (m : Nat) : Fld := ⟨R.BED_NTX m, 0, 20⟩
def BED_NRX (m : Nat) : Fld := ⟨R.BED_NRX m, 0, 20⟩
def BED_NQSTAT.TXLVL (m : Nat) : Fld := ⟨R.BED_NQSTAT m, 0, 4⟩
def BED_NQSTAT.RXLVL (m : Nat) : Fld := ⟨R.BED_NQSTAT m, 4, 4⟩
def BED_NQSTAT.TXOVF (m : Nat) : Fld := ⟨R.BED_NQSTAT m, 8, 1⟩
def BED_NQSTAT.RXOVF (m : Nat) : Fld := ⟨R.BED_NQSTAT m, 9, 1⟩
def BED_NQSTAT.RXUNF (m : Nat) : Fld := ⟨R.BED_NQSTAT m, 10, 1⟩
def BED_NSTO (m : Nat) : Fld := ⟨R.BED_NSTO m, 0, 10⟩
def BED_BIND.INDEX (m i : Nat) : Fld := ⟨R.BED_BIND m i, 0, 5⟩
def BED_BIND.CLASS (m i : Nat) : Fld := ⟨R.BED_BIND m i, 5, 3⟩
def BED_BIND.DIR0 (m i : Nat) : Fld := ⟨R.BED_BIND m i, 8, 1⟩
def BED_BIND.LEVEL0 (m i : Nat) : Fld := ⟨R.BED_BIND m i, 9, 1⟩
def BED_BIND.SAFE (m i : Nat) : Fld := ⟨R.BED_BIND m i, 10, 2⟩
def BED0_SYNC : Fld := ⟨R.BED0_SYNC, 0, 16⟩
def BED0_FLAGS : Fld := ⟨R.BED0_FLAGS, 0, 16⟩
def BED0_FSET : Fld := ⟨R.BED0_FSET, 0, 16⟩
def BED0_NCLK : Fld := ⟨R.BED0_NCLK, 0, 6⟩
def CMP_CFG.THR (i : Nat) : Fld := ⟨R.CMP_CFG i, 0, 10⟩
def CMP_CFG.HYST (i : Nat) : Fld := ⟨R.CMP_CFG i, 10, 2⟩
def CMP_CFG.SEL (i : Nat) : Fld := ⟨R.CMP_CFG i, 12, 5⟩
def CMP_WCFG.MODE (i : Nat) : Fld := ⟨R.CMP_WCFG i, 0, 2⟩
def CMP_WCFG.TSRC (i : Nat) : Fld := ⟨R.CMP_WCFG i, 2, 1⟩
def CMP_WCFG.TIMER (i : Nat) : Fld := ⟨R.CMP_WCFG i, 3, 4⟩
def CMP_WCFG.IRQ (i : Nat) : Fld := ⟨R.CMP_WCFG i, 7, 2⟩
def CMP_WCFG.WATCH (i : Nat) : Fld := ⟨R.CMP_WCFG i, 9, 1⟩
def CMP_WCFG.WAKE (i : Nat) : Fld := ⟨R.CMP_WCFG i, 10, 1⟩
def CMP_WCFG.PFLT (i : Nat) : Fld := ⟨R.CMP_WCFG i, 11, 1⟩
def CMP_WCFG.EOI (i : Nat) : Fld := ⟨R.CMP_WCFG i, 12, 1⟩
def CMP_OUT (i : Nat) : Fld := ⟨R.CMP_OUT i, 0, 20⟩
def CMP_ZONE (i : Nat) : Fld := ⟨R.CMP_ZONE i, 0, 20⟩
def CMP_EVT : Fld := ⟨R.CMP_EVT, 0, 12⟩
def CMP_CHK.ROLE : Fld := ⟨R.CMP_CHK, 0, 5⟩
def CMP_CHK.SPARE : Fld := ⟨R.CMP_CHK, 5, 5⟩
def CMP_CHK.FAIL : Fld := ⟨R.CMP_CHK, 10, 1⟩
def CMP_CHK.FROLE : Fld := ⟨R.CMP_CHK, 11, 5⟩
def CMP_CHK.FPOINT : Fld := ⟨R.CMP_CHK, 16, 3⟩
def CMP_CHKCNT.STEPS : Fld := ⟨R.CMP_CHKCNT, 0, 10⟩
def CMP_CHKCNT.FORCED : Fld := ⟨R.CMP_CHKCNT, 10, 10⟩
def TMR_CFG.PRE (n : Nat) : Fld := ⟨R.TMR_CFG n, 0, 4⟩
def TMR_CFG.LINK (n : Nat) : Fld := ⟨R.TMR_CFG n, 4, 1⟩
def TMR_CFG.CIE (n : Nat) : Fld := ⟨R.TMR_CFG n, 5, 1⟩
def TMR_CFG.WIE (n : Nat) : Fld := ⟨R.TMR_CFG n, 6, 1⟩
def TMR_CFG.C0IE (n : Nat) : Fld := ⟨R.TMR_CFG n, 7, 1⟩
def TMR_CFG.C1IE (n : Nat) : Fld := ⟨R.TMR_CFG n, 8, 1⟩
def TMR_CFG.CAPEDGE (n : Nat) : Fld := ⟨R.TMR_CFG n, 9, 1⟩
def TMR_CTRL.RUN (n : Nat) : Fld := ⟨R.TMR_CTRL n, 0, 1⟩
def TMR_CTRL.CLEAR (n : Nat) : Fld := ⟨R.TMR_CTRL n, 1, 1⟩
def TMR_CNT (n : Nat) : Fld := ⟨R.TMR_CNT n, 0, 20⟩
def TMR_RELOAD (n : Nat) : Fld := ⟨R.TMR_RELOAD n, 0, 20⟩
def TMR_CMP0 (n : Nat) : Fld := ⟨R.TMR_CMP0 n, 0, 20⟩
def TMR_CMP1 (n : Nat) : Fld := ⟨R.TMR_CMP1 n, 0, 20⟩
def TMR_CAP (n : Nat) : Fld := ⟨R.TMR_CAP n, 0, 20⟩
def TMR_STAT.C0F (n : Nat) : Fld := ⟨R.TMR_STAT n, 0, 1⟩
def TMR_STAT.C1F (n : Nat) : Fld := ⟨R.TMR_STAT n, 1, 1⟩
def TMR_STAT.WRAPF (n : Nat) : Fld := ⟨R.TMR_STAT n, 2, 1⟩
def TMR_STAT.CAPF (n : Nat) : Fld := ⟨R.TMR_STAT n, 3, 1⟩
def TMR_STAT.CAPOVR (n : Nat) : Fld := ⟨R.TMR_STAT n, 4, 1⟩
def TMR_STAT.PAST0 (n : Nat) : Fld := ⟨R.TMR_STAT n, 5, 1⟩
def TMR_STAT.PAST1 (n : Nat) : Fld := ⟨R.TMR_STAT n, 6, 1⟩
def TMR_STAT.RUNNING (n : Nat) : Fld := ⟨R.TMR_STAT n, 7, 1⟩
def TB_LO : Fld := ⟨R.TB_LO, 0, 20⟩
def TB_MID : Fld := ⟨R.TB_MID, 0, 20⟩
def TB_HI : Fld := ⟨R.TB_HI, 0, 20⟩
def TB_STAT.SYNC : Fld := ⟨R.TB_STAT, 0, 2⟩
def TB_STAT.STEPS : Fld := ⟨R.TB_STAT, 2, 8⟩
def TMR_GRUN : Fld := ⟨R.TMR_GRUN, 0, 16⟩
def HAL_OWN.OWNER (i : Nat) : Fld := ⟨R.HAL_OWN i, 0, 4⟩
def HAL_OWN.LOCKOWN (i : Nat) : Fld := ⟨R.HAL_OWN i, 4, 1⟩
def HAL_OWN.PWR (i : Nat) : Fld := ⟨R.HAL_OWN i, 5, 1⟩
def HAL_OWN.HOPEND (i : Nat) : Fld := ⟨R.HAL_OWN i, 6, 1⟩
def HAL_CFG.HOLDTO : Fld := ⟨R.HAL_CFG, 0, 8⟩
def HAL_CFG.SCRUB : Fld := ⟨R.HAL_CFG, 8, 1⟩
def HAL_STAT.OWNREJ : Fld := ⟨R.HAL_STAT, 0, 1⟩
def HAL_STAT.CORR : Fld := ⟨R.HAL_STAT, 1, 1⟩
def HAL_STAT.UNCOR : Fld := ⟨R.HAL_STAT, 2, 1⟩
def HAL_STAT.HOLDF : Fld := ⟨R.HAL_STAT, 3, 1⟩
def HAL_ECCCNT.CORR : Fld := ⟨R.HAL_ECCCNT, 0, 10⟩
def HAL_ECCCNT.UNCOR : Fld := ⟨R.HAL_ECCCNT, 10, 10⟩
def HAL_ECCA_LO : Fld := ⟨R.HAL_ECCA_LO, 0, 20⟩
def HAL_ECCA_HI.ADDR : Fld := ⟨R.HAL_ECCA_HI, 0, 5⟩
def HAL_ECCA_HI.UNCOR : Fld := ⟨R.HAL_ECCA_HI, 5, 1⟩
def HAL_ECCA_HI.MASTER : Fld := ⟨R.HAL_ECCA_HI, 6, 4⟩
def HAL_ECCA_HI.PORT : Fld := ⟨R.HAL_ECCA_HI, 10, 1⟩
def HAL_ECCA_HI.RMW : Fld := ⟨R.HAL_ECCA_HI, 11, 1⟩
def HAL_HOLD.HALL : Fld := ⟨R.HAL_HOLD, 0, 4⟩
def HAL_HOLD.PORT : Fld := ⟨R.HAL_HOLD, 4, 1⟩
def HAL_HOLD.MASTER : Fld := ⟨R.HAL_HOLD, 5, 4⟩
def HAL_HOLD.COUNT : Fld := ⟨R.HAL_HOLD, 9, 11⟩
def HAL_SPARE.USED (i : Nat) : Fld := ⟨R.HAL_SPARE i, 0, 4⟩
def HAL_SPARE.PEND (i : Nat) : Fld := ⟨R.HAL_SPARE i, 4, 1⟩
def HAL_SPARE.FULL (i : Nat) : Fld := ⟨R.HAL_SPARE i, 5, 1⟩
def HAL_NVPAGE : Fld := ⟨R.HAL_NVPAGE, 0, 16⟩
def HAL_NVCMD.CMD : Fld := ⟨R.HAL_NVCMD, 0, 2⟩
def HAL_NVCMD.KEY : Fld := ⟨R.HAL_NVCMD, 12, 8⟩
def HAL_NVSTAT.BUSY : Fld := ⟨R.HAL_NVSTAT, 0, 1⟩
def HAL_NVSTAT.DONE : Fld := ⟨R.HAL_NVSTAT, 1, 1⟩
def HAL_NVSTAT.ERR : Fld := ⟨R.HAL_NVSTAT, 2, 1⟩
def HAL_NVSTAT.PROT : Fld := ⟨R.HAL_NVSTAT, 3, 1⟩
def HAL_NVSTAT.REFUSED : Fld := ⟨R.HAL_NVSTAT, 4, 1⟩
def HAL_NVSTAT.WBUSY : Fld := ⟨R.HAL_NVSTAT, 5, 1⟩
def HAL_NVBUF (i : Nat) : Fld := ⟨R.HAL_NVBUF i, 0, 16⟩
def HAL_LOGHEAD : Fld := ⟨R.HAL_LOGHEAD, 0, 15⟩
def HAL_LOGSTAT.LEVEL : Fld := ⟨R.HAL_LOGSTAT, 0, 5⟩
def HAL_LOGSTAT.DROP : Fld := ⟨R.HAL_LOGSTAT, 5, 10⟩
def HK_CFG.PRIO (n : Nat) : Fld := ⟨R.HK_CFG n, 0, 2⟩
def HK_CFG.PSRC (n : Nat) : Fld := ⟨R.HK_CFG n, 2, 8⟩
def HK_CFG.PEDGE (n : Nat) : Fld := ⟨R.HK_CFG n, 10, 1⟩
def HK_CFG.BED (n : Nat) : Fld := ⟨R.HK_CFG n, 11, 3⟩
def HK_CFG.EIE (n : Nat) : Fld := ⟨R.HK_CFG n, 14, 1⟩
def HK_CFG.ENDIE (n : Nat) : Fld := ⟨R.HK_CFG n, 15, 1⟩
def HK_CFG.MAXOUT (n : Nat) : Fld := ⟨R.HK_CFG n, 16, 2⟩
def HK_CTRL.START (n : Nat) : Fld := ⟨R.HK_CTRL n, 0, 1⟩
def HK_CTRL.STOP (n : Nat) : Fld := ⟨R.HK_CTRL n, 1, 1⟩
def HK_CTRL.CLRREQ (n : Nat) : Fld := ⟨R.HK_CTRL n, 2, 1⟩
def HK_PC_LO (n : Nat) : Fld := ⟨R.HK_PC_LO n, 0, 20⟩
def HK_PC_HI (n : Nat) : Fld := ⟨R.HK_PC_HI n, 0, 12⟩
def HK_STAT.STATE (n : Nat) : Fld := ⟨R.HK_STAT n, 0, 3⟩
def HK_STAT.REQCNT (n : Nat) : Fld := ⟨R.HK_STAT n, 3, 4⟩
def HK_STAT.REQOVF (n : Nat) : Fld := ⟨R.HK_STAT n, 7, 1⟩
def HK_STAT.BSTALL (n : Nat) : Fld := ⟨R.HK_STAT n, 8, 1⟩
def HK_STAT.OUTST (n : Nat) : Fld := ⟨R.HK_STAT n, 9, 3⟩
def HK_STAT.SCAUSE (n : Nat) : Fld := ⟨R.HK_STAT n, 12, 4⟩
def HK_DADDR_LO (n : Nat) : Fld := ⟨R.HK_DADDR_LO n, 0, 20⟩
def HK_DADDR_HI (n : Nat) : Fld := ⟨R.HK_DADDR_HI n, 0, 12⟩
def HK_RESID (n : Nat) : Fld := ⟨R.HK_RESID n, 0, 20⟩
def HK_LCNT (n : Nat) : Fld := ⟨R.HK_LCNT n, 0, 16⟩
def HK_BUDGET (n : Nat) : Fld := ⟨R.HK_BUDGET n, 0, 12⟩
def HK_USED (n : Nat) : Fld := ⟨R.HK_USED n, 0, 12⟩
def HK_CMPOFS (n : Nat) : Fld := ⟨R.HK_CMPOFS n, 0, 20⟩
def HK_BADCNT (n : Nat) : Fld := ⟨R.HK_BADCNT n, 0, 10⟩
def HK_GCFG : Fld := ⟨R.HK_GCFG, 0, 8⟩
def HK_GSTAT : Fld := ⟨R.HK_GSTAT, 0, 6⟩
def HK_RUN : Fld := ⟨R.HK_RUN, 0, 16⟩
def HK_ERR.CHAN : Fld := ⟨R.HK_ERR, 0, 4⟩
def HK_ERR.CAUSE : Fld := ⟨R.HK_ERR, 4, 4⟩
def HK_ERR.COUNT : Fld := ⟨R.HK_ERR, 8, 12⟩
def HK_ERRA_LO : Fld := ⟨R.HK_ERRA_LO, 0, 20⟩
def HK_ERRA_HI : Fld := ⟨R.HK_ERRA_HI, 0, 12⟩
def GAL_CFG.TTO : Fld := ⟨R.GAL_CFG, 0, 8⟩
def GAL_CFG.RETRY : Fld := ⟨R.GAL_CFG, 8, 2⟩
def GAL_CFG.JOINP : Fld := ⟨R.GAL_CFG, 10, 4⟩
def GAL_CFG.ENUMDLY : Fld := ⟨R.GAL_CFG, 14, 4⟩
def GAL_CTRL.FULL : Fld := ⟨R.GAL_CTRL, 0, 1⟩
def GAL_CTRL.JOINNOW : Fld := ⟨R.GAL_CTRL, 1, 1⟩
def GAL_CTRL.CLRCNT : Fld := ⟨R.GAL_CTRL, 2, 1⟩
def GAL_CTRL.KEY : Fld := ⟨R.GAL_CTRL, 12, 8⟩
def GAL_STAT.BAY : Fld := ⟨R.GAL_STAT, 0, 6⟩
def GAL_STAT.MASTER : Fld := ⟨R.GAL_STAT, 6, 1⟩
def GAL_STAT.ENUMERATED : Fld := ⟨R.GAL_STAT, 7, 1⟩
def GAL_STAT.ACTIVE : Fld := ⟨R.GAL_STAT, 8, 1⟩
def GAL_STAT.PRIMOK : Fld := ⟨R.GAL_STAT, 9, 1⟩
def GAL_STAT.CABLEOK : Fld := ⟨R.GAL_STAT, 10, 1⟩
def GAL_STAT.ISOL : Fld := ⟨R.GAL_STAT, 11, 1⟩
def GAL_STAT.ENUM_WAIT : Fld := ⟨R.GAL_STAT, 12, 1⟩
def GAL_STAT.MCONF : Fld := ⟨R.GAL_STAT, 13, 1⟩
def GAL_STAT.ROSTERFULL : Fld := ⟨R.GAL_STAT, 14, 1⟩
def GAL_STAT.ROLE : Fld := ⟨R.GAL_STAT, 15, 1⟩
def GAL_SYNC : Fld := ⟨R.GAL_SYNC, 0, 6⟩
def GAL_SYNCERR : Fld := ⟨R.GAL_SYNCERR, 0, 20⟩
def GAL_DLYP : Fld := ⟨R.GAL_DLYP, 0, 20⟩
def GAL_DLYC : Fld := ⟨R.GAL_DLYC, 0, 20⟩
def GAL_ERRCNT.CODE : Fld := ⟨R.GAL_ERRCNT, 0, 7⟩
def GAL_ERRCNT.AUTH : Fld := ⟨R.GAL_ERRCNT, 7, 7⟩
def GAL_ERRCNT.ENUMRETRY : Fld := ⟨R.GAL_ERRCNT, 14, 6⟩
def GAL_EVCNT.TO : Fld := ⟨R.GAL_EVCNT, 0, 10⟩
def GAL_EVCNT.SWITCH : Fld := ⟨R.GAL_EVCNT, 10, 10⟩
def GAL_AUTHREC.SRC : Fld := ⟨R.GAL_AUTHREC, 0, 6⟩
def GAL_AUTHREC.KIND : Fld := ⟨R.GAL_AUTHREC, 6, 4⟩
def GAL_AUTHREC.CAUSE : Fld := ⟨R.GAL_AUTHREC, 10, 1⟩
def GAL_RINGN : Fld := ⟨R.GAL_RINGN, 0, 6⟩
def GAL_ID (i : Nat) : Fld := ⟨R.GAL_ID i, 0, 16⟩
def GAL_EVTDST.DEST (i : Nat) : Fld := ⟨R.GAL_EVTDST i, 0, 6⟩
def GAL_EVTDST.EN (i : Nat) : Fld := ⟨R.GAL_EVTDST i, 6, 1⟩
def GAL_ERX : Fld := ⟨R.GAL_ERX, 0, 16⟩
def GAL_ERXF : Fld := ⟨R.GAL_ERXF, 0, 16⟩
def GAL_RIDX : Fld := ⟨R.GAL_RIDX, 0, 6⟩
def GAL_RSTAT : Fld := ⟨R.GAL_RSTAT, 0, 1⟩
def GAL_RID (i : Nat) : Fld := ⟨R.GAL_RID i, 0, 16⟩
def HOST_CFG : Fld := ⟨R.HOST_CFG, 0, 8⟩
def HOST_STAT.BUSY : Fld := ⟨R.HOST_STAT, 0, 1⟩
def HOST_STAT.READY : Fld := ⟨R.HOST_STAT, 1, 1⟩
def HOST_STAT.LASTERR : Fld := ⟨R.HOST_STAT, 2, 3⟩
def HOST_ERRCNT.CRC : Fld := ⟨R.HOST_ERRCNT, 0, 10⟩
def HOST_ERRCNT.FRAME : Fld := ⟨R.HOST_ERRCNT, 10, 10⟩
def IRT_CFG.CLAIMT : Fld := ⟨R.IRT_CFG, 0, 10⟩
def IRT_CFG.HOLDT : Fld := ⟨R.IRT_CFG, 10, 8⟩
def IRT_HOST.HID : Fld := ⟨R.IRT_HOST, 0, 3⟩
def IRT_HOST.REG : Fld := ⟨R.IRT_HOST, 3, 1⟩
def IRT_HOST.PRIO : Fld := ⟨R.IRT_HOST, 4, 4⟩
def IRT_CLAIM.SRC : Fld := ⟨R.IRT_CLAIM, 0, 10⟩
def IRT_CLAIM.BAY : Fld := ⟨R.IRT_CLAIM, 10, 6⟩
def IRT_DONE.SRC : Fld := ⟨R.IRT_DONE, 0, 10⟩
def IRT_DONE.BAY : Fld := ⟨R.IRT_DONE, 10, 6⟩
def IRT_HSTAT.SLOT : Fld := ⟨R.IRT_HSTAT, 0, 2⟩
def IRT_HSTAT.HIDCONF : Fld := ⟨R.IRT_HSTAT, 2, 1⟩
def IRT_HSTAT.DONEERR : Fld := ⟨R.IRT_HSTAT, 3, 1⟩
def IRT_HSLOT.SRC : Fld := ⟨R.IRT_HSLOT, 0, 10⟩
def IRT_HSLOT.BAY : Fld := ⟨R.IRT_HSLOT, 10, 6⟩
def IRT_TRAP.PEND : Fld := ⟨R.IRT_TRAP, 0, 1⟩
def IRT_TRAP.PSRC : Fld := ⟨R.IRT_TRAP, 1, 7⟩
def IRT_STAT.WDRAW : Fld := ⟨R.IRT_STAT, 0, 7⟩
def IRT_STAT.SPUR : Fld := ⟨R.IRT_STAT, 7, 7⟩
def IRT_STAT.LOST : Fld := ⟨R.IRT_STAT, 14, 6⟩
def IRT_HTAB.BAY (i : Nat) : Fld := ⟨R.IRT_HTAB i, 0, 6⟩
def IRT_HTAB.REG (i : Nat) : Fld := ⟨R.IRT_HTAB i, 6, 1⟩
def IRT_HTAB.PRIO (i : Nat) : Fld := ⟨R.IRT_HTAB i, 7, 4⟩
def IRT_HTAB.SLOT (i : Nat) : Fld := ⟨R.IRT_HTAB i, 11, 2⟩
def IRT_HTAB.VALID (i : Nat) : Fld := ⟨R.IRT_HTAB i, 13, 1⟩
def IRT_PEND (i : Nat) : Fld := ⟨R.IRT_PEND i, 0, 20⟩
def IRT_SRC.EN (i : Nat) : Fld := ⟨R.IRT_SRC i, 0, 1⟩
def IRT_SRC.HMASK (i : Nat) : Fld := ⟨R.IRT_SRC i, 1, 8⟩
def IRT_SRC.COUNT (i : Nat) : Fld := ⟨R.IRT_SRC i, 9, 4⟩
def IRT_SRC.CLR (i : Nat) : Fld := ⟨R.IRT_SRC i, 13, 1⟩
def TRU_STAT.LIFE : Fld := ⟨R.TRU_STAT, 0, 2⟩
def TRU_STAT.BUSY : Fld := ⟨R.TRU_STAT, 2, 1⟩
def TRU_STAT.DONE : Fld := ⟨R.TRU_STAT, 3, 1⟩
def TRU_STAT.FAIL : Fld := ⟨R.TRU_STAT, 4, 1⟩
def TRU_STAT.CAUSE : Fld := ⟨R.TRU_STAT, 5, 4⟩
def TRU_STAT.SLOTS : Fld := ⟨R.TRU_STAT, 9, 4⟩
def TRU_STAT.ROOTERR : Fld := ⟨R.TRU_STAT, 13, 1⟩
def TRU_STAT.DEBUG : Fld := ⟨R.TRU_STAT, 14, 1⟩
def TRU_STAT.IDOK : Fld := ⟨R.TRU_STAT, 15, 1⟩
def TRU_CMD.CMD : Fld := ⟨R.TRU_CMD, 0, 4⟩
def TRU_CMD.KEY : Fld := ⟨R.TRU_CMD, 12, 8⟩
def TRU_DBGLEFT : Fld := ⟨R.TRU_DBGLEFT, 0, 16⟩
def TRU_TAMP.SENSOR : Fld := ⟨R.TRU_TAMP, 0, 4⟩
def TRU_TAMP.COUNT : Fld := ⟨R.TRU_TAMP, 4, 8⟩
def TRU_DIGSEL : Fld := ⟨R.TRU_DIGSEL, 0, 3⟩
def TRU_CHAL (i : Nat) : Fld := ⟨R.TRU_CHAL i, 0, 16⟩
def TRU_IDPUB (i : Nat) : Fld := ⟨R.TRU_IDPUB i, 0, 16⟩
def TRU_DIG (i : Nat) : Fld := ⟨R.TRU_DIG i, 0, 16⟩
def TRU_BUF (i : Nat) : Fld := ⟨R.TRU_BUF i, 0, 16⟩
def POR_STAT.SAFE : Fld := ⟨R.POR_STAT, 0, 1⟩
def POR_STAT.LIMIT : Fld := ⟨R.POR_STAT, 1, 1⟩
def POR_STAT.SSRC : Fld := ⟨R.POR_STAT, 2, 7⟩
def POR_STAT.PROMISE : Fld := ⟨R.POR_STAT, 9, 1⟩
def POR_STAT.RSTCNT : Fld := ⟨R.POR_STAT, 10, 4⟩
def POR_STAT.ALIVEON : Fld := ⟨R.POR_STAT, 14, 1⟩
def POR_GCFG.CAPMIN : Fld := ⟨R.POR_GCFG, 0, 3⟩
def POR_GCFG.RSTLIM : Fld := ⟨R.POR_GCFG, 3, 4⟩
def POR_GCFG.HBTO : Fld := ⟨R.POR_GCFG, 7, 8⟩
def POR_CMD.CMD : Fld := ⟨R.POR_CMD, 0, 2⟩
def POR_CMD.KEY : Fld := ⟨R.POR_CMD, 12, 8⟩
def POR_FIRST.SRC : Fld := ⟨R.POR_FIRST, 0, 7⟩
def POR_FIRST.VALID : Fld := ⟨R.POR_FIRST, 7, 1⟩
def POR_FIRST.INTEG : Fld := ⟨R.POR_FIRST, 8, 1⟩
def POR_FIRST.FORCED : Fld := ⟨R.POR_FIRST, 9, 1⟩
def POR_FIRST.REACT : Fld := ⟨R.POR_FIRST, 10, 3⟩
def POR_FIRST.SEV : Fld := ⟨R.POR_FIRST, 13, 1⟩
def POR_FDET.DET : Fld := ⟨R.POR_FDET, 0, 8⟩
def POR_FDET.MASTER : Fld := ⟨R.POR_FDET, 8, 4⟩
def POR_FDET.ACCESS : Fld := ⟨R.POR_FDET, 12, 3⟩
def POR_FTB_LO : Fld := ⟨R.POR_FTB_LO, 0, 20⟩
def POR_FTB_MID : Fld := ⟨R.POR_FTB_MID, 0, 20⟩
def POR_FTB_HI : Fld := ⟨R.POR_FTB_HI, 0, 20⟩
def POR_FADDR_LO : Fld := ⟨R.POR_FADDR_LO, 0, 20⟩
def POR_FADDR_HI : Fld := ⟨R.POR_FADDR_HI, 0, 12⟩
def POR_SECOND.SECOND : Fld := ⟨R.POR_SECOND, 0, 1⟩
def POR_SECOND.COUNT : Fld := ⟨R.POR_SECOND, 1, 8⟩
def POR_SECOND.LASTSRC : Fld := ⟨R.POR_SECOND, 9, 7⟩
def POR_FORCE (i : Nat) : Fld := ⟨R.POR_FORCE i, 0, 16⟩
def POR_FCFG : Fld := ⟨R.POR_FCFG, 0, 1⟩
def POR_SEV (i : Nat) : Fld := ⟨R.POR_SEV i, 0, 16⟩
def POR_ACT (i : Nat) : Fld := ⟨R.POR_ACT i, 0, 16⟩
def POR_SRCA.EVR (i : Nat) : Fld := ⟨R.POR_SRCA i, 0, 3⟩
def POR_SRCA.SEVR (i : Nat) : Fld := ⟨R.POR_SRCA i, 3, 3⟩
def POR_SRCA.LOG (i : Nat) : Fld := ⟨R.POR_SRCA i, 6, 1⟩
def POR_SRCA.EN (i : Nat) : Fld := ⟨R.POR_SRCA i, 7, 1⟩
def POR_SRCA.BLK (i : Nat) : Fld := ⟨R.POR_SRCA i, 8, 4⟩
def POR_SRCA.N (i : Nat) : Fld := ⟨R.POR_SRCA i, 12, 8⟩
def POR_SRCB (i : Nat) : Fld := ⟨R.POR_SRCB i, 0, 16⟩
def POR_CNT.WCNT (i : Nat) : Fld := ⟨R.POR_CNT i, 0, 8⟩
def POR_CNT.TOTAL (i : Nat) : Fld := ⟨R.POR_CNT i, 8, 12⟩
def STC_STAT.PACEOK : Fld := ⟨R.STC_STAT, 0, 1⟩
def STC_STAT.CSPARE : Fld := ⟨R.STC_STAT, 1, 1⟩
def STC_STAT.TSPARE : Fld := ⟨R.STC_STAT, 2, 1⟩
def STC_STAT.WSPARE : Fld := ⟨R.STC_STAT, 3, 1⟩
def STC_STAT.FAIL : Fld := ⟨R.STC_STAT, 4, 1⟩
def STC_STAT.INC : Fld := ⟨R.STC_STAT, 5, 1⟩
def STC_STAT.LATE : Fld := ⟨R.STC_STAT, 6, 1⟩
def STC_STAT.CSPU : Fld := ⟨R.STC_STAT, 7, 8⟩
def STC_STAT.TSPU : Fld := ⟨R.STC_STAT, 15, 5⟩
def STC_PACE0.MINT : Fld := ⟨R.STC_PACE0, 0, 10⟩
def STC_PACE0.NPPT : Fld := ⟨R.STC_PACE0, 10, 8⟩
def STC_PACE1.CSTEP : Fld := ⟨R.STC_PACE1, 0, 8⟩
def STC_PACE1.TSTEP : Fld := ⟨R.STC_PACE1, 8, 6⟩
def STC_PACE1.WSTEP : Fld := ⟨R.STC_PACE1, 14, 6⟩
def STC_MPOS.HALL : Fld := ⟨R.STC_MPOS, 0, 4⟩
def STC_MPOS.REGION : Fld := ⟨R.STC_MPOS, 4, 12⟩
def STC_NPOS : Fld := ⟨R.STC_NPOS, 0, 16⟩
def STC_MFAIL0.HALL : Fld := ⟨R.STC_MFAIL0, 0, 4⟩
def STC_MFAIL0.REGION : Fld := ⟨R.STC_MFAIL0, 4, 12⟩
def STC_MFAIL1.BIT : Fld := ⟨R.STC_MFAIL1, 0, 7⟩
def STC_MFAIL1.SPARE : Fld := ⟨R.STC_MFAIL1, 7, 3⟩
def STC_MFAIL1.REC : Fld := ⟨R.STC_MFAIL1, 10, 1⟩
def STC_RES.MEM : Fld := ⟨R.STC_RES, 0, 3⟩
def STC_RES.CMPU : Fld := ⟨R.STC_RES, 3, 3⟩
def STC_RES.ETMR : Fld := ⟨R.STC_RES, 6, 3⟩
def STC_RES.BUF : Fld := ⟨R.STC_RES, 9, 3⟩
def STC_UFAIL.CMPU : Fld := ⟨R.STC_UFAIL, 0, 8⟩
def STC_UFAIL.ETMR : Fld := ⟨R.STC_UFAIL, 8, 5⟩
def STC_PASSM : Fld := ⟨R.STC_PASSM, 0, 20⟩
def STC_CNT.FAILS : Fld := ⟨R.STC_CNT, 0, 10⟩
def STC_CNT.INCOMP : Fld := ⟨R.STC_CNT, 10, 10⟩
def CAN_CFG.EN (x : Nat) : Fld := ⟨R.CAN_CFG x, 0, 1⟩
def CAN_CFG.FDEN (x : Nat) : Fld := ⟨R.CAN_CFG x, 1, 1⟩
def CAN_CFG.BRSEN (x : Nat) : Fld := ⟨R.CAN_CFG x, 2, 1⟩
def CAN_CFG.MON (x : Nat) : Fld := ⟨R.CAN_CFG x, 3, 1⟩
def CAN_CFG.LBACK (x : Nat) : Fld := ⟨R.CAN_CFG x, 4, 1⟩
def CAN_CFG.ABOR (x : Nat) : Fld := ⟨R.CAN_CFG x, 5, 1⟩
def CAN_CFG.DAR (x : Nat) : Fld := ⟨R.CAN_CFG x, 6, 1⟩
def CAN_NBT.BRP (x : Nat) : Fld := ⟨R.CAN_NBT x, 0, 5⟩
def CAN_NBT.TSEG1 (x : Nat) : Fld := ⟨R.CAN_NBT x, 5, 8⟩
def CAN_NBT.TSEG2 (x : Nat) : Fld := ⟨R.CAN_NBT x, 13, 7⟩
def CAN_BT2.NSJW (x : Nat) : Fld := ⟨R.CAN_BT2 x, 0, 7⟩
def CAN_BT2.DSJW (x : Nat) : Fld := ⟨R.CAN_BT2 x, 7, 4⟩
def CAN_BT2.TDCO (x : Nat) : Fld := ⟨R.CAN_BT2 x, 11, 7⟩
def CAN_BT2.TDCEN (x : Nat) : Fld := ⟨R.CAN_BT2 x, 18, 1⟩
def CAN_DBT.BRP (x : Nat) : Fld := ⟨R.CAN_DBT x, 0, 5⟩
def CAN_DBT.TSEG1 (x : Nat) : Fld := ⟨R.CAN_DBT x, 5, 5⟩
def CAN_DBT.TSEG2 (x : Nat) : Fld := ⟨R.CAN_DBT x, 10, 4⟩
def CAN_STAT.STATE (x : Nat) : Fld := ⟨R.CAN_STAT x, 0, 2⟩
def CAN_STAT.OWREJ (x : Nat) : Fld := ⟨R.CAN_STAT x, 2, 1⟩
def CAN_ERRCNT.TEC (x : Nat) : Fld := ⟨R.CAN_ERRCNT x, 0, 8⟩
def CAN_ERRCNT.REC (x : Nat) : Fld := ⟨R.CAN_ERRCNT x, 8, 7⟩
def CAN_ERRCNT.LEC (x : Nat) : Fld := ⟨R.CAN_ERRCNT x, 15, 3⟩
def CAN_CTRL.RECOVER (x : Nat) : Fld := ⟨R.CAN_CTRL x, 0, 1⟩
def CAN_CTRL.OWR (x : Nat) : Fld := ⟨R.CAN_CTRL x, 1, 1⟩
def CAN_NEW (x i : Nat) : Fld := ⟨R.CAN_NEW x i, 0, 16⟩
def CAN_TXRQ (x i : Nat) : Fld := ⟨R.CAN_TXRQ x i, 0, 16⟩
def CAN_TXAB (x i : Nat) : Fld := ⟨R.CAN_TXAB x i, 0, 16⟩
def CAN_LOST (x i : Nat) : Fld := ⟨R.CAN_LOST x i, 0, 16⟩
def CAN_OSEL (x : Nat) : Fld := ⟨R.CAN_OSEL x, 0, 5⟩
def CAN_OCFG.VALID (x : Nat) : Fld := ⟨R.CAN_OCFG x, 0, 1⟩
def CAN_OCFG.DIR (x : Nat) : Fld := ⟨R.CAN_OCFG x, 1, 1⟩
def CAN_OCFG.IDE (x : Nat) : Fld := ⟨R.CAN_OCFG x, 2, 1⟩
def CAN_OCFG.FDF (x : Nat) : Fld := ⟨R.CAN_OCFG x, 3, 1⟩
def CAN_OCFG.BRS (x : Nat) : Fld := ⟨R.CAN_OCFG x, 4, 1⟩
def CAN_OCFG.DLC (x : Nat) : Fld := ⟨R.CAN_OCFG x, 5, 4⟩
def CAN_OCFG.RXIRQ (x : Nat) : Fld := ⟨R.CAN_OCFG x, 9, 1⟩
def CAN_OCFG.TXIRQ (x : Nat) : Fld := ⟨R.CAN_OCFG x, 10, 1⟩
def CAN_OIDLO (x : Nat) : Fld := ⟨R.CAN_OIDLO x, 0, 16⟩
def CAN_OIDHI (x : Nat) : Fld := ⟨R.CAN_OIDHI x, 0, 13⟩
def CAN_OMSKLO (x : Nat) : Fld := ⟨R.CAN_OMSKLO x, 0, 16⟩
def CAN_OMSKHI (x : Nat) : Fld := ⟨R.CAN_OMSKHI x, 0, 13⟩
def CAN_OSTAT (x : Nat) : Fld := ⟨R.CAN_OSTAT x, 0, 7⟩
def CAN_OTS (x : Nat) : Fld := ⟨R.CAN_OTS x, 0, 20⟩
def CAN_ODATA (x i : Nat) : Fld := ⟨R.CAN_ODATA x i, 0, 16⟩
def CAN_SIGA.EN (i : Nat) : Fld := ⟨R.CAN_SIGA i, 0, 1⟩
def CAN_SIGA.CTL (i : Nat) : Fld := ⟨R.CAN_SIGA i, 1, 1⟩
def CAN_SIGA.OBJ (i : Nat) : Fld := ⟨R.CAN_SIGA i, 2, 5⟩
def CAN_SIGA.START (i : Nat) : Fld := ⟨R.CAN_SIGA i, 7, 9⟩
def CAN_SIGB.LENM1 (i : Nat) : Fld := ⟨R.CAN_SIGB i, 0, 5⟩
def CAN_SIGB.MOTO (i : Nat) : Fld := ⟨R.CAN_SIGB i, 5, 1⟩
def CAN_SIGB.SGN (i : Nat) : Fld := ⟨R.CAN_SIGB i, 6, 1⟩
def SENT_CFG.EN (r : Nat) : Fld := ⟨R.SENT_CFG r, 0, 1⟩
def SENT_CFG.TICKQ (r : Nat) : Fld := ⟨R.SENT_CFG r, 1, 8⟩
def SENT_CFG.NNIB (r : Nat) : Fld := ⟨R.SENT_CFG r, 9, 3⟩
def SENT_CFG.FMT (r : Nat) : Fld := ⟨R.SENT_CFG r, 12, 2⟩
def SENT_CFG.PAUSE (r : Nat) : Fld := ⟨R.SENT_CFG r, 14, 1⟩
def SENT_CFG.LEGACY (r : Nat) : Fld := ⟨R.SENT_CFG r, 15, 1⟩
def SENT_CFG.SUCC (r : Nat) : Fld := ⟨R.SENT_CFG r, 16, 1⟩
def SENT_CFG2.SFILT (r : Nat) : Fld := ⟨R.SENT_CFG2 r, 0, 5⟩
def SENT_CFG2.SILTO (r : Nat) : Fld := ⟨R.SENT_CFG2 r, 5, 8⟩
def SENT_CFG2.FIRQ (r : Nat) : Fld := ⟨R.SENT_CFG2 r, 13, 1⟩
def SENT_CFG2.SIRQ (r : Nat) : Fld := ⟨R.SENT_CFG2 r, 14, 1⟩
def SENT_CFG2.EIRQ (r : Nat) : Fld := ⟨R.SENT_CFG2 r, 15, 1⟩
def SENT_CFG2.SLOW (r : Nat) : Fld := ⟨R.SENT_CFG2 r, 16, 2⟩
def SENT_CH1 (r : Nat) : Fld := ⟨R.SENT_CH1 r, 0, 20⟩
def SENT_CH1HI (r : Nat) : Fld := ⟨R.SENT_CH1HI r, 0, 4⟩
def SENT_CH2 (r : Nat) : Fld := ⟨R.SENT_CH2 r, 0, 12⟩
def SENT_STATUS (r : Nat) : Fld := ⟨R.SENT_STATUS r, 0, 4⟩
def SENT_ERR.LASTC (r : Nat) : Fld := ⟨R.SENT_ERR r, 0, 3⟩
def SENT_ERR.COUNT (r : Nat) : Fld := ⟨R.SENT_ERR r, 3, 10⟩
def SENT_TICK (r : Nat) : Fld := ⟨R.SENT_TICK r, 0, 20⟩
def SENT_SMSG (r : Nat) : Fld := ⟨R.SENT_SMSG r, 0, 16⟩
def SENT_SMID.ID (r : Nat) : Fld := ⟨R.SENT_SMID r, 0, 8⟩
def SENT_SMID.KIND (r : Nat) : Fld := ⟨R.SENT_SMID r, 8, 2⟩
def SENT_SLOT.RX (i : Nat) : Fld := ⟨R.SENT_SLOT i, 0, 3⟩
def SENT_SLOT.ID (i : Nat) : Fld := ⟨R.SENT_SLOT i, 3, 8⟩
def SENT_SLOT.EN (i : Nat) : Fld := ⟨R.SENT_SLOT i, 11, 1⟩
def SENT_SLOTV (i : Nat) : Fld := ⟨R.SENT_SLOTV i, 0, 16⟩

end F

/-- Register rows of block chip (R39). -/
def rows_chip : List RegRow :=
  [⟨0x0, 1, 1, 0x32A41, [⟨0, 20, .ro⟩]⟩,
   ⟨0x10, 1, 1, 0x0, [⟨0, 1, .ro⟩, ⟨1, 2, .ro⟩, ⟨3, 2, .ro⟩, ⟨5, 1, .ro⟩]⟩]

/-- Register rows of block pcr (R68). -/
def rows_pcr : List RegRow :=
  [⟨0x0, 1, 1, 0x0, [⟨0, 2, .ro⟩, ⟨2, 1, .ro⟩, ⟨3, 1, .ro⟩, ⟨4, 1, .ro⟩, ⟨5, 3, .ro⟩]⟩,
   ⟨0x1, 1, 1, 0x1, [⟨0, 1, .w1c⟩, ⟨1, 1, .w1c⟩, ⟨2, 1, .w1c⟩, ⟨3, 1, .w1c⟩, ⟨4, 3, .ro⟩, ⟨7, 1, .w1c⟩]⟩,
   ⟨0x2, 1, 1, 0x0, [⟨0, 16, .wo⟩]⟩,
   ⟨0x3, 1, 1, 0x0, [⟨0, 16, .ro⟩]⟩,
   ⟨0x4, 1, 1, 0x400, [⟨0, 5, .w1c⟩, ⟨5, 5, .ro⟩, ⟨10, 1, .ro⟩, ⟨11, 1, .wo⟩]⟩,
   ⟨0x5, 5, 1, 0xFFFFF, [⟨0, 20, .ro⟩]⟩,
   ⟨0xA, 1, 1, 0x0, [⟨0, 1, .wo⟩, ⟨1, 1, .w1c⟩, ⟨12, 8, .wo⟩]⟩,
   ⟨0xB, 1, 1, 0x1, [⟨0, 1, .rw⟩, ⟨1, 1, .rw⟩, ⟨2, 1, .rw⟩, ⟨4, 2, .ro⟩]⟩,
   ⟨0xC, 1, 1, 0x0, [⟨0, 20, .rw⟩]⟩]

/-- Register rows of block wvl (R93). -/
def rows_wvl : List RegRow :=
  [⟨0x0, 1, 1, 0x0, [⟨0, 3, .ro⟩, ⟨3, 5, .ro⟩, ⟨8, 1, .ro⟩, ⟨9, 1, .ro⟩, ⟨10, 1, .ro⟩, ⟨11, 1, .ro⟩, ⟨12, 1, .w1c⟩, ⟨13, 1, .w1c⟩]⟩,
   ⟨0x1, 1, 1, 0x0, [⟨0, 3, .wo⟩, ⟨12, 8, .wo⟩]⟩,
   ⟨0x2, 1, 1, 0x0, [⟨0, 16, .wo⟩]⟩,
   ⟨0x3, 1, 1, 0x0, [⟨0, 19, .rw⟩]⟩,
   ⟨0x4, 2, 2, 0x0, [⟨0, 2, .ro⟩, ⟨2, 5, .ro⟩]⟩,
   ⟨0x5, 2, 2, 0x0, [⟨0, 16, .ro⟩]⟩,
   ⟨0x8, 1, 1, 0x0, [⟨0, 16, .ro⟩]⟩,
   ⟨0x9, 1, 1, 0x0, [⟨0, 16, .ro⟩]⟩,
   ⟨0xA, 1, 1, 0x0, [⟨0, 16, .ro⟩, ⟨16, 4, .rc⟩]⟩]

/-- Register rows of block stair (R130, R152). -/
def rows_stair : List RegRow :=
  [⟨0x0, 1, 1, 0x10000, [⟨0, 2, .wl⟩, ⟨2, 1, .wl⟩, ⟨3, 3, .wl⟩, ⟨6, 1, .wl⟩, ⟨7, 4, .wl⟩, ⟨11, 2, .wl⟩, ⟨13, 1, .wl⟩, ⟨14, 2, .wl⟩, ⟨16, 1, .wl⟩, ⟨17, 1, .wl⟩, ⟨18, 2, .wl⟩]⟩,
   ⟨0x1, 1, 1, 0x90C, [⟨0, 2, .wl⟩, ⟨2, 4, .wl⟩, ⟨6, 4, .wl⟩, ⟨10, 4, .wl⟩]⟩,
   ⟨0x2, 1, 1, 0x200A, [⟨0, 8, .wl⟩, ⟨8, 8, .wl⟩]⟩,
   ⟨0x3, 1, 1, 0x0, [⟨0, 8, .wl⟩, ⟨8, 8, .wl⟩]⟩,
   ⟨0x4, 1, 1, 0x12C, [⟨0, 10, .wl⟩]⟩,
   ⟨0x5, 1, 1, 0x80414, [⟨0, 8, .wl⟩, ⟨8, 8, .wl⟩, ⟨16, 4, .wl⟩]⟩,
   ⟨0x6, 1, 1, 0x0, [⟨0, 1, .wl⟩, ⟨1, 1, .wo⟩, ⟨2, 1, .wo⟩]⟩,
   ⟨0x7, 1, 1, 0x0, [⟨0, 3, .ro⟩, ⟨3, 4, .ro⟩, ⟨7, 1, .ro⟩, ⟨8, 1, .ro⟩, ⟨9, 1, .ro⟩, ⟨10, 8, .ro⟩, ⟨18, 1, .ro⟩]⟩,
   ⟨0x8, 1, 1, 0x0, [⟨0, 20, .ro⟩]⟩,
   ⟨0x9, 1, 1, 0x0, [⟨0, 20, .ro⟩]⟩,
   ⟨0xA, 1, 1, 0x0, [⟨0, 20, .ro⟩]⟩,
   ⟨0xB, 1, 1, 0x0, [⟨0, 10, .ro⟩]⟩,
   ⟨0xC, 1, 1, 0x0, [⟨0, 10, .ro⟩, ⟨10, 10, .ro⟩]⟩,
   ⟨0xD, 1, 1, 0x0, [⟨0, 10, .ro⟩, ⟨10, 10, .ro⟩]⟩,
   ⟨0xE, 1, 1, 0x0, [⟨0, 8, .ro⟩, ⟨8, 8, .ro⟩]⟩,
   ⟨0xF, 1, 1, 0x0, [⟨0, 10, .ro⟩]⟩,
   ⟨0x10, 1, 1, 0x0, [⟨0, 20, .ro⟩]⟩,
   ⟨0x11, 1, 1, 0x0, [⟨0, 20, .rc⟩]⟩,
   ⟨0x12, 1, 1, 0x0, [⟨0, 5, .ro⟩, ⟨5, 10, .ro⟩]⟩,
   ⟨0x13, 1, 1, 0x28000, [⟨0, 6, .wl⟩, ⟨6, 2, .wl⟩, ⟨8, 4, .wl⟩, ⟨12, 8, .wl⟩]⟩,
   ⟨0x14, 1, 1, 0x0, [⟨0, 1, .wl⟩, ⟨1, 4, .wl⟩, ⟨5, 6, .wl⟩]⟩,
   ⟨0x15, 1, 1, 0x0, [⟨0, 8, .ro⟩, ⟨8, 1, .ro⟩, ⟨9, 8, .ro⟩]⟩,
   ⟨0x16, 1, 1, 0x0, [⟨0, 8, .ro⟩, ⟨8, 8, .ro⟩]⟩,
   ⟨0x17, 1, 1, 0x0, [⟨0, 20, .ro⟩]⟩,
   ⟨0x100, 256, 2, 0x0, [⟨0, 12, .ro⟩, ⟨12, 1, .ro⟩, ⟨13, 1, .ro⟩, ⟨14, 1, .ro⟩]⟩,
   ⟨0x101, 256, 2, 0x0, [⟨0, 8, .ro⟩, ⟨8, 8, .ro⟩]⟩,
   ⟨0x18, 1, 1, 0x22, [⟨0, 3, .wl⟩, ⟨3, 3, .wl⟩, ⟨6, 1, .wl⟩]⟩,
   ⟨0x19, 1, 1, 0x0, [⟨0, 1, .rw⟩, ⟨1, 1, .wo⟩, ⟨2, 1, .wo⟩]⟩,
   ⟨0x1A, 1, 1, 0x0, [⟨0, 1, .ro⟩, ⟨1, 1, .ro⟩, ⟨2, 1, .w1c⟩, ⟨3, 2, .ro⟩, ⟨5, 1, .ro⟩, ⟨6, 1, .ro⟩, ⟨7, 1, .ro⟩, ⟨8, 1, .ro⟩, ⟨9, 1, .ro⟩, ⟨10, 1, .w1c⟩]⟩,
   ⟨0x1B, 1, 1, 0x0, [⟨0, 20, .ro⟩]⟩,
   ⟨0x1C, 1, 1, 0x0, [⟨0, 10, .ro⟩]⟩,
   ⟨0x1D, 1, 1, 0x0, [⟨0, 20, .ro⟩]⟩,
   ⟨0x1E, 1, 1, 0x0, [⟨0, 20, .ro⟩]⟩,
   ⟨0x1F, 1, 1, 0x0, [⟨0, 9, .rw⟩]⟩,
   ⟨0x20, 1, 1, 0x0, [⟨0, 20, .ro⟩]⟩,
   ⟨0x300, 256, 1, 0x0, [⟨0, 16, .wl⟩]⟩]

/-- Register rows of block su (R177). -/
def rows_su : List RegRow :=
  [⟨0x0, 128, 1, 0x0, [⟨0, 1, .ro⟩, ⟨1, 2, .ro⟩]⟩,
   ⟨0x80, 128, 1, 0x0, [⟨0, 20, .ro⟩]⟩,
   ⟨0x100, 1, 1, 0x0, [⟨0, 1, .rw⟩]⟩,
   ⟨0x101, 1, 1, 0x0, [⟨0, 7, .wo⟩]⟩,
   ⟨0x102, 1, 1, 0x0, [⟨0, 7, .wo⟩, ⟨12, 8, .wo⟩]⟩,
   ⟨0x103, 1, 1, 0x0, [⟨0, 5, .ro⟩, ⟨5, 8, .ro⟩, ⟨13, 1, .w1c⟩, ⟨14, 1, .w1c⟩]⟩,
   ⟨0x104, 1, 1, 0x0, [⟨0, 7, .ro⟩, ⟨7, 13, .rc⟩]⟩,
   ⟨0x105, 1, 1, 0x0, [⟨0, 7, .ro⟩, ⟨7, 6, .ro⟩, ⟨13, 7, .rc⟩]⟩]

/-- Register rows of block stitch (R178). -/
def rows_stitch : List RegRow :=
  [⟨0x0, 1, 1, 0x0, [⟨0, 1, .wl⟩, ⟨1, 6, .wl⟩, ⟨7, 1, .wl⟩, ⟨8, 2, .wl⟩, ⟨10, 1, .wl⟩, ⟨11, 1, .rw⟩, ⟨12, 1, .rw⟩, ⟨13, 2, .rw⟩]⟩,
   ⟨0x1, 1, 1, 0x0, [⟨0, 20, .rw⟩]⟩,
   ⟨0x2, 1, 1, 0x0, [⟨0, 20, .rw⟩]⟩,
   ⟨0x3, 1, 1, 0x1008, [⟨0, 3, .rw⟩, ⟨3, 3, .rw⟩, ⟨6, 8, .rw⟩]⟩,
   ⟨0x4, 1, 1, 0x0, [⟨0, 20, .rw⟩]⟩,
   ⟨0x5, 1, 1, 0x0, [⟨0, 20, .rw⟩]⟩,
   ⟨0x6, 1, 1, 0x0, [⟨0, 3, .ro⟩, ⟨3, 4, .ro⟩, ⟨7, 1, .ro⟩, ⟨8, 1, .ro⟩, ⟨9, 1, .ro⟩, ⟨10, 1, .ro⟩, ⟨11, 1, .ro⟩, ⟨12, 1, .w1c⟩, ⟨13, 1, .w1c⟩, ⟨14, 1, .w1c⟩, ⟨15, 1, .w1c⟩, ⟨16, 4, .ro⟩]⟩,
   ⟨0x7, 1, 1, 0x0, [⟨0, 20, .ro⟩]⟩]

/-- Register rows of block eo (R18). -/
def rows_eo : List RegRow :=
  [⟨0x0, 24, 1, 0x0, [⟨0, 6, .wl⟩, ⟨6, 2, .wl⟩, ⟨8, 1, .wl⟩, ⟨9, 1, .wl⟩, ⟨10, 1, .ro⟩, ⟨11, 1, .wl⟩, ⟨12, 1, .w1c⟩]⟩,
   ⟨0x18, 4, 1, 0x0, [⟨0, 20, .ro⟩]⟩]

/-- Register rows of block inj (R198). -/
def rows_inj : List RegRow :=
  [⟨0x0, 4, 1, 0x0, [⟨0, 1, .wl⟩, ⟨1, 8, .wl⟩, ⟨9, 1, .wl⟩, ⟨10, 1, .wl⟩]⟩,
   ⟨0x4, 4, 1, 0x0, [⟨0, 12, .wl⟩]⟩,
   ⟨0x8, 4, 1, 0xC80A, [⟨0, 8, .wl⟩, ⟨8, 8, .wl⟩]⟩,
   ⟨0xC, 4, 1, 0x8, [⟨0, 6, .wl⟩, ⟨6, 1, .wl⟩]⟩,
   ⟨0x10, 4, 1, 0x0, [⟨0, 10, .wl⟩]⟩,
   ⟨0x14, 4, 1, 0x0, [⟨0, 1, .ro⟩, ⟨1, 2, .ro⟩, ⟨3, 3, .ro⟩, ⟨6, 1, .ro⟩, ⟨7, 1, .w1c⟩, ⟨8, 2, .ro⟩, ⟨10, 1, .w1c⟩, ⟨11, 8, .rc⟩]⟩,
   ⟨0x20, 16, 1, 0x0, [⟨0, 1, .wl⟩, ⟨1, 4, .wl⟩, ⟨5, 1, .wl⟩]⟩,
   ⟨0x30, 16, 1, 0x0, [⟨0, 1, .w1c⟩, ⟨1, 1, .w1c⟩, ⟨2, 1, .w1c⟩, ⟨3, 1, .w1c⟩, ⟨4, 1, .w1c⟩, ⟨5, 1, .w1c⟩, ⟨6, 1, .ro⟩, ⟨7, 1, .ro⟩, ⟨8, 1, .ro⟩, ⟨9, 4, .ro⟩, ⟨13, 7, .ro⟩]⟩,
   ⟨0x40, 16, 1, 0xFFFFF, [⟨0, 20, .ro⟩]⟩,
   ⟨0x50, 16, 1, 0x0, [⟨0, 20, .ro⟩]⟩,
   ⟨0x60, 16, 1, 0xFFFFF, [⟨0, 20, .ro⟩]⟩,
   ⟨0x70, 16, 1, 0xFFFFF, [⟨0, 20, .ro⟩]⟩,
   ⟨0x80, 1, 1, 0x0, [⟨0, 4, .ro⟩, ⟨4, 3, .ro⟩, ⟨7, 3, .ro⟩, ⟨10, 10, .rc⟩]⟩,
   ⟨0x81, 1, 1, 0x0, [⟨0, 4, .wo⟩, ⟨4, 1, .wo⟩, ⟨12, 8, .wo⟩]⟩]

/-- Register rows of block cht (R223). -/
def rows_cht : List RegRow :=
  [⟨0x0, 64, 1, 0x0, [⟨0, 20, .rw⟩]⟩,
   ⟨0x40, 64, 1, 0x0, [⟨0, 4, .ro⟩, ⟨4, 1, .ro⟩, ⟨5, 8, .ro⟩]⟩,
   ⟨0x80, 1, 1, 0xC8, [⟨0, 1, .wl⟩, ⟨1, 10, .wl⟩]⟩,
   ⟨0x81, 1, 1, 0x0, [⟨0, 3, .ro⟩, ⟨3, 5, .ro⟩, ⟨8, 1, .w1c⟩, ⟨9, 1, .w1c⟩]⟩,
   ⟨0x82, 1, 1, 0x0, [⟨0, 6, .ro⟩, ⟨6, 4, .ro⟩, ⟨10, 5, .ro⟩, ⟨15, 2, .ro⟩]⟩,
   ⟨0x83, 1, 1, 0x0, [⟨0, 20, .rc⟩]⟩,
   ⟨0x84, 1, 1, 0x0, [⟨0, 6, .wo⟩, ⟨6, 1, .wo⟩]⟩,
   ⟨0x85, 1, 1, 0x0, [⟨0, 20, .ro⟩]⟩,
   ⟨0x86, 1, 1, 0x0, [⟨0, 1, .ro⟩, ⟨1, 1, .w1c⟩, ⟨2, 1, .w1c⟩]⟩,
   ⟨0xC0, 64, 1, 0x0, [⟨0, 4, .ro⟩, ⟨4, 3, .ro⟩, ⟨7, 13, .ro⟩]⟩,
   ⟨0x100, 64, 1, 0x0, [⟨0, 4, .ro⟩, ⟨4, 2, .ro⟩, ⟨6, 1, .ro⟩, ⟨7, 3, .ro⟩, ⟨10, 1, .ro⟩]⟩]

/-- Register rows of block gau (R246). -/
def rows_gau : List RegRow :=
  [⟨0x0, 1, 1, 0x0, [⟨0, 1, .wl⟩, ⟨1, 2, .wl⟩, ⟨3, 4, .wl⟩]⟩,
   ⟨0x1, 1, 1, 0x8040, [⟨0, 6, .wl⟩, ⟨6, 1, .wl⟩, ⟨7, 8, .wl⟩, ⟨15, 5, .wl⟩]⟩,
   ⟨0x2, 1, 1, 0x7FFFF, [⟨0, 20, .ro⟩]⟩,
   ⟨0x3, 1, 1, 0x0, [⟨0, 1, .w1c⟩, ⟨1, 1, .w1c⟩, ⟨2, 1, .w1c⟩, ⟨3, 8, .ro⟩]⟩,
   ⟨0x10, 16, 1, 0x0, [⟨0, 16, .wl⟩]⟩,
   ⟨0x20, 16, 1, 0x0, [⟨0, 8, .wl⟩]⟩,
   ⟨0x30, 16, 1, 0x0, [⟨0, 20, .ro⟩]⟩,
   ⟨0x40, 16, 1, 0x0, [⟨0, 20, .ro⟩]⟩,
   ⟨0x50, 16, 1, 0x0, [⟨0, 8, .rc⟩, ⟨8, 5, .ro⟩, ⟨13, 1, .w1c⟩, ⟨14, 1, .ro⟩]⟩,
   ⟨0x80, 4, 1, 0x0, [⟨0, 1, .wl⟩, ⟨1, 1, .wl⟩, ⟨2, 8, .wl⟩]⟩,
   ⟨0x84, 4, 1, 0x0, [⟨0, 10, .rc⟩, ⟨10, 1, .w1c⟩, ⟨11, 1, .ro⟩, ⟨12, 1, .ro⟩]⟩,
   ⟨0x88, 4, 1, 0x0, [⟨0, 20, .ro⟩]⟩,
   ⟨0x90, 2, 1, 0x0, [⟨0, 1, .wl⟩, ⟨1, 2, .wl⟩, ⟨3, 1, .wl⟩, ⟨4, 1, .wl⟩, ⟨5, 3, .wl⟩, ⟨8, 1, .wl⟩, ⟨9, 3, .wl⟩, ⟨12, 6, .wl⟩, ⟨18, 2, .wl⟩]⟩,
   ⟨0x92, 2, 1, 0x0, [⟨0, 20, .wl⟩]⟩,
   ⟨0x94, 2, 1, 0x0, [⟨0, 20, .wl⟩]⟩,
   ⟨0x96, 2, 1, 0x0, [⟨0, 16, .wl⟩]⟩,
   ⟨0x98, 2, 1, 0x0, [⟨0, 16, .ro⟩, ⟨16, 1, .ro⟩]⟩,
   ⟨0x9A, 2, 1, 0x0, [⟨0, 10, .ro⟩]⟩,
   ⟨0xA0, 8, 1, 0x0, [⟨0, 16, .ro⟩, ⟨16, 1, .ro⟩]⟩,
   ⟨0xA8, 1, 1, 0x5, [⟨0, 8, .wl⟩]⟩]

/-- Register rows of block bed (R270). -/
def rows_bed : List RegRow :=
  [⟨0x0, 64, 1, 0x0, [⟨0, 20, .wl⟩]⟩,
   ⟨0x80, 1, 1, 0x0, [⟨0, 1, .w1c⟩, ⟨1, 1, .ro⟩]⟩,
   ⟨0x40, 4, 16, 0x0, [⟨0, 12, .wl⟩, ⟨12, 1, .wl⟩, ⟨13, 1, .wl⟩, ⟨14, 2, .wl⟩, ⟨16, 1, .wl⟩, ⟨17, 1, .wl⟩, ⟨18, 1, .ro⟩]⟩,
   ⟨0x41, 4, 16, 0x0, [⟨0, 1, .wo⟩, ⟨1, 1, .wo⟩]⟩,
   ⟨0x42, 4, 16, 0x0, [⟨0, 6, .rw⟩]⟩,
   ⟨0x43, 4, 16, 0x0, [⟨0, 2, .ro⟩, ⟨2, 3, .ro⟩, ⟨5, 1, .w1c⟩]⟩,
   ⟨0x44, 4, 16, 0x0, [⟨0, 20, .ro⟩]⟩,
   ⟨0x45, 4, 16, 0x0, [⟨0, 20, .ro⟩]⟩,
   ⟨0x46, 4, 16, 0x0, [⟨0, 20, .ro⟩]⟩,
   ⟨0x47, 4, 16, 0x0, [⟨0, 20, .ro⟩]⟩,
   ⟨0x48, 4, 16, 0x0, [⟨0, 20, .wo⟩]⟩,
   ⟨0x49, 4, 16, 0x0, [⟨0, 20, .rc⟩]⟩,
   ⟨0x4A, 4, 16, 0x0, [⟨0, 4, .ro⟩, ⟨4, 4, .ro⟩, ⟨8, 1, .w1c⟩, ⟨9, 1, .w1c⟩, ⟨10, 1, .w1c⟩]⟩,
   ⟨0x4B, 4, 16, 0x0, [⟨0, 10, .wl⟩]⟩,
   ⟨0xC0, 64, 1, 0x0, [⟨0, 5, .ro⟩, ⟨5, 3, .ro⟩, ⟨8, 1, .ro⟩, ⟨9, 1, .ro⟩, ⟨10, 2, .ro⟩]⟩]

/-- Register rows of block bed0 (R270). -/
def rows_bed0 : List RegRow :=
  [⟨0x90, 1, 1, 0x0, [⟨0, 16, .wo⟩]⟩,
   ⟨0x91, 1, 1, 0x0, [⟨0, 16, .w1c⟩]⟩,
   ⟨0x92, 1, 1, 0x0, [⟨0, 16, .wo⟩]⟩,
   ⟨0x93, 1, 1, 0x2, [⟨0, 6, .ro⟩]⟩]

/-- Register rows of block cmp (R281). -/
def rows_cmp : List RegRow :=
  [⟨0x0, 24, 1, 0x0, [⟨0, 10, .wl⟩, ⟨10, 2, .wl⟩, ⟨12, 5, .wl⟩]⟩,
   ⟨0x20, 12, 1, 0x0, [⟨0, 2, .wl⟩, ⟨2, 1, .wl⟩, ⟨3, 4, .wl⟩, ⟨7, 2, .wl⟩, ⟨9, 1, .ro⟩, ⟨10, 1, .ro⟩, ⟨11, 1, .wl⟩, ⟨12, 1, .ro⟩]⟩,
   ⟨0x40, 2, 1, 0x0, [⟨0, 20, .ro⟩]⟩,
   ⟨0x42, 2, 1, 0x0, [⟨0, 20, .ro⟩]⟩,
   ⟨0x44, 1, 1, 0x0, [⟨0, 12, .w1c⟩]⟩,
   ⟨0x45, 1, 1, 0x300, [⟨0, 5, .ro⟩, ⟨5, 5, .ro⟩, ⟨10, 1, .w1c⟩, ⟨11, 5, .ro⟩, ⟨16, 3, .ro⟩]⟩,
   ⟨0x46, 1, 1, 0x0, [⟨0, 10, .ro⟩, ⟨10, 10, .ro⟩]⟩]

/-- Register rows of block tmr (R295). -/
def rows_tmr : List RegRow :=
  [⟨0x0, 1, 1, 0x0, [⟨0, 4, .wl⟩, ⟨4, 1, .wl⟩, ⟨5, 1, .wl⟩, ⟨6, 1, .wl⟩, ⟨7, 1, .wl⟩, ⟨8, 1, .wl⟩, ⟨9, 1, .wl⟩]⟩,
   ⟨0x1, 1, 1, 0x0, [⟨0, 1, .rw⟩, ⟨1, 1, .wo⟩]⟩,
   ⟨0x2, 1, 1, 0x0, [⟨0, 20, .rw⟩]⟩,
   ⟨0x3, 1, 1, 0xFFFFF, [⟨0, 20, .rw⟩]⟩,
   ⟨0x4, 1, 1, 0xFFFFF, [⟨0, 20, .rw⟩]⟩,
   ⟨0x5, 1, 1, 0xFFFFF, [⟨0, 20, .rw⟩]⟩,
   ⟨0x6, 1, 1, 0x0, [⟨0, 20, .ro⟩]⟩,
   ⟨0x7, 1, 1, 0x0, [⟨0, 1, .w1c⟩, ⟨1, 1, .w1c⟩, ⟨2, 1, .w1c⟩, ⟨3, 1, .w1c⟩, ⟨4, 1, .w1c⟩, ⟨5, 1, .ro⟩, ⟨6, 1, .ro⟩, ⟨7, 1, .ro⟩]⟩]

/-- Register rows of block tmrc (R295). -/
def rows_tmrc : List RegRow :=
  [⟨0x80, 1, 1, 0x0, [⟨0, 20, .ro⟩]⟩,
   ⟨0x81, 1, 1, 0x0, [⟨0, 20, .ro⟩]⟩,
   ⟨0x82, 1, 1, 0x0, [⟨0, 20, .ro⟩]⟩,
   ⟨0x83, 1, 1, 0x0, [⟨0, 2, .ro⟩, ⟨2, 8, .ro⟩]⟩,
   ⟨0x84, 1, 1, 0x0, [⟨0, 16, .wo⟩]⟩]

/-- Register rows of block hal (R317). -/
def rows_hal : List RegRow :=
  [⟨0x0, 16, 1, 0x20, [⟨0, 4, .wl⟩, ⟨4, 1, .ro⟩, ⟨5, 1, .ro⟩, ⟨6, 1, .ro⟩]⟩,
   ⟨0x10, 1, 1, 0x110, [⟨0, 8, .wl⟩, ⟨8, 1, .wl⟩]⟩,
   ⟨0x11, 1, 1, 0x0, [⟨0, 1, .w1c⟩, ⟨1, 1, .w1c⟩, ⟨2, 1, .w1c⟩, ⟨3, 1, .w1c⟩]⟩,
   ⟨0x12, 1, 1, 0x0, [⟨0, 10, .rc⟩, ⟨10, 10, .rc⟩]⟩,
   ⟨0x13, 1, 1, 0x0, [⟨0, 20, .ro⟩]⟩,
   ⟨0x14, 1, 1, 0x0, [⟨0, 5, .ro⟩, ⟨5, 1, .ro⟩, ⟨6, 4, .ro⟩, ⟨10, 1, .ro⟩, ⟨11, 1, .ro⟩]⟩,
   ⟨0x15, 1, 1, 0x0, [⟨0, 4, .ro⟩, ⟨4, 1, .ro⟩, ⟨5, 4, .ro⟩, ⟨9, 11, .rc⟩]⟩,
   ⟨0x20, 16, 1, 0x0, [⟨0, 4, .ro⟩, ⟨4, 1, .ro⟩, ⟨5, 1, .ro⟩]⟩,
   ⟨0x30, 1, 1, 0x0, [⟨0, 16, .rw⟩]⟩,
   ⟨0x31, 1, 1, 0x0, [⟨0, 2, .wo⟩, ⟨12, 8, .wo⟩]⟩,
   ⟨0x32, 1, 1, 0x0, [⟨0, 1, .ro⟩, ⟨1, 1, .w1c⟩, ⟨2, 1, .w1c⟩, ⟨3, 1, .w1c⟩, ⟨4, 1, .w1c⟩, ⟨5, 1, .ro⟩]⟩,
   ⟨0x40, 16, 1, 0x0, [⟨0, 16, .rw⟩]⟩,
   ⟨0x50, 1, 1, 0x0, [⟨0, 15, .ro⟩]⟩,
   ⟨0x51, 1, 1, 0x0, [⟨0, 5, .ro⟩, ⟨5, 10, .rc⟩]⟩]

/-- Register rows of block hook (R338). -/
def rows_hook : List RegRow :=
  [⟨0x0, 1, 1, 0x0, [⟨0, 2, .wl⟩, ⟨2, 8, .wl⟩, ⟨10, 1, .wl⟩, ⟨11, 3, .wl⟩, ⟨14, 1, .wl⟩, ⟨15, 1, .wl⟩, ⟨16, 2, .wl⟩]⟩,
   ⟨0x1, 1, 1, 0x0, [⟨0, 1, .wo⟩, ⟨1, 1, .wo⟩, ⟨2, 1, .wo⟩]⟩,
   ⟨0x2, 1, 1, 0x0, [⟨0, 20, .rw⟩]⟩,
   ⟨0x3, 1, 1, 0x0, [⟨0, 12, .rw⟩]⟩,
   ⟨0x4, 1, 1, 0x0, [⟨0, 3, .ro⟩, ⟨3, 4, .ro⟩, ⟨7, 1, .w1c⟩, ⟨8, 1, .ro⟩, ⟨9, 3, .ro⟩, ⟨12, 4, .ro⟩]⟩,
   ⟨0x5, 1, 1, 0x0, [⟨0, 20, .ro⟩]⟩,
   ⟨0x6, 1, 1, 0x0, [⟨0, 12, .ro⟩]⟩,
   ⟨0x7, 1, 1, 0x0, [⟨0, 20, .ro⟩]⟩,
   ⟨0x8, 1, 1, 0x0, [⟨0, 16, .ro⟩]⟩,
   ⟨0x9, 1, 1, 0xFFF, [⟨0, 12, .wl⟩]⟩,
   ⟨0xA, 1, 1, 0x0, [⟨0, 12, .ro⟩]⟩,
   ⟨0xB, 1, 1, 0xFFFFF, [⟨0, 20, .ro⟩]⟩,
   ⟨0xC, 1, 1, 0x0, [⟨0, 10, .rc⟩]⟩]

/-- Register rows of block hookc (R338). -/
def rows_hookc : List RegRow :=
  [⟨0x100, 1, 1, 0xA, [⟨0, 8, .wl⟩]⟩,
   ⟨0x101, 1, 1, 0x0, [⟨0, 6, .ro⟩]⟩,
   ⟨0x102, 1, 1, 0x0, [⟨0, 16, .ro⟩]⟩,
   ⟨0x103, 1, 1, 0x0, [⟨0, 4, .ro⟩, ⟨4, 4, .ro⟩, ⟨8, 12, .rc⟩]⟩,
   ⟨0x104, 1, 1, 0x0, [⟨0, 20, .ro⟩]⟩,
   ⟨0x105, 1, 1, 0x0, [⟨0, 12, .ro⟩]⟩]

/-- Register rows of block gal (R371). -/
def rows_gal : List RegRow :=
  [⟨0x0, 1, 1, 0x920A, [⟨0, 8, .wl⟩, ⟨8, 2, .wl⟩, ⟨10, 4, .wl⟩, ⟨14, 4, .wl⟩]⟩,
   ⟨0x1, 1, 1, 0x0, [⟨0, 1, .wo⟩, ⟨1, 1, .wo⟩, ⟨2, 1, .wo⟩, ⟨12, 8, .wo⟩]⟩,
   ⟨0x2, 1, 1, 0x0, [⟨0, 6, .ro⟩, ⟨6, 1, .ro⟩, ⟨7, 1, .ro⟩, ⟨8, 1, .ro⟩, ⟨9, 1, .ro⟩, ⟨10, 1, .ro⟩, ⟨11, 1, .ro⟩, ⟨12, 1, .ro⟩, ⟨13, 1, .w1c⟩, ⟨14, 1, .ro⟩, ⟨15, 1, .ro⟩]⟩,
   ⟨0x3, 1, 1, 0x0, [⟨0, 6, .ro⟩]⟩,
   ⟨0x4, 1, 1, 0x0, [⟨0, 20, .ro⟩]⟩,
   ⟨0x5, 1, 1, 0x0, [⟨0, 20, .ro⟩]⟩,
   ⟨0x6, 1, 1, 0x0, [⟨0, 20, .ro⟩]⟩,
   ⟨0x7, 1, 1, 0x0, [⟨0, 7, .rc⟩, ⟨7, 7, .rc⟩, ⟨14, 6, .rc⟩]⟩,
   ⟨0x8, 1, 1, 0x0, [⟨0, 10, .rc⟩, ⟨10, 10, .rc⟩]⟩,
   ⟨0x9, 1, 1, 0x0, [⟨0, 6, .ro⟩, ⟨6, 4, .ro⟩, ⟨10, 1, .ro⟩]⟩,
   ⟨0xA, 1, 1, 0x0, [⟨0, 6, .ro⟩]⟩,
   ⟨0xC, 4, 1, 0x0, [⟨0, 16, .ro⟩]⟩,
   ⟨0x10, 16, 1, 0x0, [⟨0, 6, .wl⟩, ⟨6, 1, .wl⟩]⟩,
   ⟨0x20, 1, 1, 0x0, [⟨0, 16, .ro⟩]⟩,
   ⟨0x21, 1, 1, 0x0, [⟨0, 16, .w1c⟩]⟩,
   ⟨0x30, 1, 1, 0x0, [⟨0, 6, .rw⟩]⟩,
   ⟨0x31, 1, 1, 0x0, [⟨0, 1, .ro⟩]⟩,
   ⟨0x32, 4, 1, 0x0, [⟨0, 16, .ro⟩]⟩]

/-- Register rows of block host (R387). -/
def rows_host : List RegRow :=
  [⟨0x0, 1, 1, 0x64, [⟨0, 8, .wl⟩]⟩,
   ⟨0x1, 1, 1, 0x0, [⟨0, 1, .ro⟩, ⟨1, 1, .ro⟩, ⟨2, 3, .ro⟩]⟩,
   ⟨0x2, 1, 1, 0x0, [⟨0, 10, .rc⟩, ⟨10, 10, .rc⟩]⟩,
   ⟨0x10, 1, 1, 0x2864, [⟨0, 10, .wl⟩, ⟨10, 8, .wl⟩]⟩,
   ⟨0x11, 1, 1, 0x0, [⟨0, 3, .rw⟩, ⟨3, 1, .rw⟩, ⟨4, 4, .rw⟩]⟩,
   ⟨0x12, 1, 1, 0x3FF, [⟨0, 10, .rc⟩, ⟨10, 6, .rc⟩]⟩,
   ⟨0x13, 1, 1, 0x0, [⟨0, 10, .wo⟩, ⟨10, 6, .wo⟩]⟩,
   ⟨0x14, 1, 1, 0x0, [⟨0, 2, .ro⟩, ⟨2, 1, .ro⟩, ⟨3, 1, .w1c⟩]⟩,
   ⟨0x15, 1, 1, 0x0, [⟨0, 10, .ro⟩, ⟨10, 6, .ro⟩]⟩,
   ⟨0x16, 1, 1, 0x0, [⟨0, 1, .w1c⟩, ⟨1, 7, .ro⟩]⟩,
   ⟨0x17, 1, 1, 0x0, [⟨0, 7, .rc⟩, ⟨7, 7, .rc⟩, ⟨14, 6, .rc⟩]⟩,
   ⟨0x20, 8, 1, 0x0, [⟨0, 6, .ro⟩, ⟨6, 1, .ro⟩, ⟨7, 4, .ro⟩, ⟨11, 2, .ro⟩, ⟨13, 1, .ro⟩]⟩,
   ⟨0x40, 16, 1, 0x0, [⟨0, 20, .ro⟩]⟩,
   ⟨0x100, 320, 1, 0x1FE, [⟨0, 1, .rw⟩, ⟨1, 8, .wl⟩, ⟨9, 4, .ro⟩, ⟨13, 1, .wo⟩]⟩]

/-- Register rows of block tru (R404). -/
def rows_tru : List RegRow :=
  [⟨0x0, 1, 1, 0x0, [⟨0, 2, .ro⟩, ⟨2, 1, .ro⟩, ⟨3, 1, .w1c⟩, ⟨4, 1, .w1c⟩, ⟨5, 4, .ro⟩, ⟨9, 4, .ro⟩, ⟨13, 1, .ro⟩, ⟨14, 1, .ro⟩, ⟨15, 1, .ro⟩]⟩,
   ⟨0x1, 1, 1, 0x0, [⟨0, 4, .wo⟩, ⟨12, 8, .wo⟩]⟩,
   ⟨0x2, 1, 1, 0x0, [⟨0, 16, .ro⟩]⟩,
   ⟨0x3, 1, 1, 0x0, [⟨0, 4, .w1c⟩, ⟨4, 8, .rc⟩]⟩,
   ⟨0x4, 1, 1, 0x0, [⟨0, 3, .rw⟩]⟩,
   ⟨0x8, 8, 1, 0x0, [⟨0, 16, .ro⟩]⟩,
   ⟨0x10, 32, 1, 0x0, [⟨0, 16, .ro⟩]⟩,
   ⟨0x30, 16, 1, 0x0, [⟨0, 16, .ro⟩]⟩,
   ⟨0x40, 112, 1, 0x0, [⟨0, 16, .rw⟩]⟩]

/-- Register rows of block por (R428). -/
def rows_por : List RegRow :=
  [⟨0x0, 1, 1, 0x0, [⟨0, 1, .ro⟩, ⟨1, 1, .ro⟩, ⟨2, 7, .ro⟩, ⟨9, 1, .ro⟩, ⟨10, 4, .ro⟩, ⟨14, 1, .ro⟩]⟩,
   ⟨0x1, 1, 1, 0x219, [⟨0, 3, .ro⟩, ⟨3, 4, .ro⟩, ⟨7, 8, .ro⟩]⟩,
   ⟨0x2, 1, 1, 0x0, [⟨0, 2, .wl⟩, ⟨12, 8, .wl⟩]⟩,
   ⟨0x3, 1, 1, 0x0, [⟨0, 7, .ro⟩, ⟨7, 1, .ro⟩, ⟨8, 1, .ro⟩, ⟨9, 1, .ro⟩, ⟨10, 3, .ro⟩, ⟨13, 1, .ro⟩]⟩,
   ⟨0x4, 1, 1, 0x0, [⟨0, 8, .ro⟩, ⟨8, 4, .ro⟩, ⟨12, 3, .ro⟩]⟩,
   ⟨0x5, 1, 1, 0x0, [⟨0, 20, .ro⟩]⟩,
   ⟨0x6, 1, 1, 0x0, [⟨0, 20, .ro⟩]⟩,
   ⟨0x7, 1, 1, 0x0, [⟨0, 20, .ro⟩]⟩,
   ⟨0x8, 1, 1, 0x0, [⟨0, 20, .ro⟩]⟩,
   ⟨0x9, 1, 1, 0x0, [⟨0, 12, .ro⟩]⟩,
   ⟨0xA, 1, 1, 0x0, [⟨0, 1, .ro⟩, ⟨1, 8, .ro⟩, ⟨9, 7, .ro⟩]⟩,
   ⟨0x10, 8, 1, 0x0, [⟨0, 16, .wl⟩]⟩,
   ⟨0x18, 1, 1, 0x0, [⟨0, 1, .wl⟩]⟩,
   ⟨0x20, 8, 1, 0x0, [⟨0, 16, .w1c⟩]⟩,
   ⟨0x28, 8, 1, 0x0, [⟨0, 16, .ro⟩]⟩,
   ⟨0x80, 128, 1, 0x0, [⟨0, 3, .ro⟩, ⟨3, 3, .ro⟩, ⟨6, 1, .ro⟩, ⟨7, 1, .ro⟩, ⟨8, 4, .ro⟩, ⟨12, 8, .ro⟩]⟩,
   ⟨0x100, 128, 1, 0x190, [⟨0, 16, .ro⟩]⟩,
   ⟨0x180, 128, 1, 0x0, [⟨0, 8, .ro⟩, ⟨8, 12, .rc⟩]⟩]

/-- Register rows of block stc (R443). -/
def rows_stc : List RegRow :=
  [⟨0x0, 1, 1, 0xC400F, [⟨0, 1, .ro⟩, ⟨1, 1, .ro⟩, ⟨2, 1, .ro⟩, ⟨3, 1, .ro⟩, ⟨4, 1, .w1c⟩, ⟨5, 1, .w1c⟩, ⟨6, 1, .w1c⟩, ⟨7, 8, .ro⟩, ⟨15, 5, .ro⟩]⟩,
   ⟨0x1, 1, 1, 0x8014, [⟨0, 10, .ro⟩, ⟨10, 8, .ro⟩]⟩,
   ⟨0x2, 1, 1, 0x21020, [⟨0, 8, .ro⟩, ⟨8, 6, .ro⟩, ⟨14, 6, .ro⟩]⟩,
   ⟨0x3, 1, 1, 0x0, [⟨0, 4, .ro⟩, ⟨4, 12, .ro⟩]⟩,
   ⟨0x4, 1, 1, 0x0, [⟨0, 16, .ro⟩]⟩,
   ⟨0x5, 1, 1, 0x0, [⟨0, 4, .ro⟩, ⟨4, 12, .ro⟩]⟩,
   ⟨0x6, 1, 1, 0x0, [⟨0, 7, .ro⟩, ⟨7, 3, .ro⟩, ⟨10, 1, .ro⟩]⟩,
   ⟨0x7, 1, 1, 0x0, [⟨0, 3, .ro⟩, ⟨3, 3, .ro⟩, ⟨6, 3, .ro⟩, ⟨9, 3, .ro⟩]⟩,
   ⟨0x8, 1, 1, 0x0, [⟨0, 8, .ro⟩, ⟨8, 5, .ro⟩]⟩,
   ⟨0x9, 1, 1, 0x0, [⟨0, 20, .ro⟩]⟩,
   ⟨0xA, 1, 1, 0x0, [⟨0, 10, .rc⟩, ⟨10, 10, .rc⟩]⟩]

/-- Register rows of block can (R456). -/
def rows_can : List RegRow :=
  [⟨0x0, 1, 1, 0x0, [⟨0, 1, .wl⟩, ⟨1, 1, .wl⟩, ⟨2, 1, .wl⟩, ⟨3, 1, .wl⟩, ⟨4, 1, .wl⟩, ⟨5, 1, .wl⟩, ⟨6, 1, .wl⟩]⟩,
   ⟨0x1, 1, 1, 0x0, [⟨0, 5, .wl⟩, ⟨5, 8, .wl⟩, ⟨13, 7, .wl⟩]⟩,
   ⟨0x2, 1, 1, 0x0, [⟨0, 7, .wl⟩, ⟨7, 4, .wl⟩, ⟨11, 7, .wl⟩, ⟨18, 1, .wl⟩]⟩,
   ⟨0x3, 1, 1, 0x0, [⟨0, 5, .wl⟩, ⟨5, 5, .wl⟩, ⟨10, 4, .wl⟩]⟩,
   ⟨0x4, 1, 1, 0x3, [⟨0, 2, .ro⟩, ⟨2, 1, .w1c⟩]⟩,
   ⟨0x5, 1, 1, 0x0, [⟨0, 8, .ro⟩, ⟨8, 7, .ro⟩, ⟨15, 3, .ro⟩]⟩,
   ⟨0x6, 1, 1, 0x0, [⟨0, 1, .wo⟩, ⟨1, 1, .wo⟩]⟩,
   ⟨0x7, 2, 1, 0x0, [⟨0, 16, .w1c⟩]⟩,
   ⟨0x9, 2, 1, 0x0, [⟨0, 16, .rw⟩]⟩,
   ⟨0xB, 2, 1, 0x0, [⟨0, 16, .wo⟩]⟩,
   ⟨0xD, 2, 1, 0x0, [⟨0, 16, .w1c⟩]⟩,
   ⟨0xF, 1, 1, 0x0, [⟨0, 5, .rw⟩]⟩,
   ⟨0x10, 1, 1, 0x0, [⟨0, 1, .wl⟩, ⟨1, 1, .wl⟩, ⟨2, 1, .wl⟩, ⟨3, 1, .wl⟩, ⟨4, 1, .wl⟩, ⟨5, 4, .wl⟩, ⟨9, 1, .wl⟩, ⟨10, 1, .wl⟩]⟩,
   ⟨0x11, 1, 1, 0x0, [⟨0, 16, .rw⟩]⟩,
   ⟨0x12, 1, 1, 0x0, [⟨0, 13, .rw⟩]⟩,
   ⟨0x13, 1, 1, 0x0, [⟨0, 16, .rw⟩]⟩,
   ⟨0x14, 1, 1, 0x0, [⟨0, 13, .rw⟩]⟩,
   ⟨0x15, 1, 1, 0x0, [⟨0, 7, .ro⟩]⟩,
   ⟨0x16, 1, 1, 0x0, [⟨0, 20, .ro⟩]⟩,
   ⟨0x20, 32, 1, 0x0, [⟨0, 16, .rw⟩]⟩]

/-- Register rows of block cansig (R456). -/
def rows_cansig : List RegRow :=
  [⟨0x180, 64, 2, 0x0, [⟨0, 1, .wl⟩, ⟨1, 1, .wl⟩, ⟨2, 5, .wl⟩, ⟨7, 9, .wl⟩]⟩,
   ⟨0x181, 64, 2, 0x0, [⟨0, 5, .wl⟩, ⟨5, 1, .wl⟩, ⟨6, 1, .wl⟩]⟩]

/-- Register rows of block sent (R456). -/
def rows_sent : List RegRow :=
  [⟨0x0, 1, 1, 0xC, [⟨0, 1, .wl⟩, ⟨1, 8, .wl⟩, ⟨9, 3, .wl⟩, ⟨12, 2, .wl⟩, ⟨14, 1, .wl⟩, ⟨15, 1, .wl⟩, ⟨16, 1, .wl⟩]⟩,
   ⟨0x1, 1, 1, 0x0, [⟨0, 5, .wl⟩, ⟨5, 8, .wl⟩, ⟨13, 1, .wl⟩, ⟨14, 1, .wl⟩, ⟨15, 1, .wl⟩, ⟨16, 2, .wl⟩]⟩,
   ⟨0x2, 1, 1, 0x0, [⟨0, 20, .ro⟩]⟩,
   ⟨0x3, 1, 1, 0x0, [⟨0, 4, .ro⟩]⟩,
   ⟨0x4, 1, 1, 0x0, [⟨0, 12, .ro⟩]⟩,
   ⟨0x5, 1, 1, 0x0, [⟨0, 4, .ro⟩]⟩,
   ⟨0x6, 1, 1, 0x0, [⟨0, 3, .ro⟩, ⟨3, 10, .rc⟩]⟩,
   ⟨0x7, 1, 1, 0x0, [⟨0, 20, .ro⟩]⟩,
   ⟨0x8, 1, 1, 0x0, [⟨0, 16, .ro⟩]⟩,
   ⟨0x9, 1, 1, 0x0, [⟨0, 8, .ro⟩, ⟨8, 2, .ro⟩]⟩]

/-- Register rows of block sentc (R456). -/
def rows_sentc : List RegRow :=
  [⟨0x80, 32, 1, 0x0, [⟨0, 3, .wl⟩, ⟨3, 8, .wl⟩, ⟨11, 1, .wl⟩]⟩,
   ⟨0xA0, 32, 1, 0x0, [⟨0, 16, .ro⟩]⟩]

/-- Block-relative offset and rows of a register address (Table 1.4); `none` for an address outside the blocks. -/
def blockOf (a : Nat) : Option (Nat × List RegRow) :=
  if a < 0x0400 then some (a, rows_chip)
  else if a < 0x0800 then some (a - 0x0400, rows_pcr)
  else if a < 0x1000 then some (a - 0x0800, rows_wvl)
  else if a < 0x2000 then some ((a - 0x1000) % 0x400, rows_stair)
  else if a < 0x2400 then some (a - 0x2000, rows_su)
  else if a < 0x2800 then some ((a - 0x2400) % 8, rows_stitch)
  else if a < 0x3000 then some (a - 0x2800, rows_eo)
  else if a < 0x3400 then some (a - 0x3000, rows_inj)
  else if a < 0x3800 then some (a - 0x3400, rows_cht)
  else if a < 0x4000 then some (a - 0x3800, rows_gau)
  else if 0x4090 ≤ a ∧ a < 0x4094 then some (a - 0x4000, rows_bed0)
  else if a < 0x4400 then some ((a - 0x4000) % 0x100, rows_bed)
  else if a < 0x4800 then none
  else if a < 0x4C00 then some (a - 0x4800, rows_cmp)
  else if a < 0x4C80 then some ((a - 0x4C00) % 8, rows_tmr)
  else if a < 0x5000 then some (a - 0x4C00, rows_tmrc)
  else if a < 0x5400 then some (a - 0x5000, rows_hal)
  else if a < 0x5500 then some ((a - 0x5400) % 0x10, rows_hook)
  else if a < 0x6000 then some (a - 0x5400, rows_hookc)
  else if a < 0x6400 then some (a - 0x6000, rows_gal)
  else if a < 0x6800 then some (a - 0x6400, rows_host)
  else if a < 0x7000 then some (a - 0x6800, rows_tru)
  else if a < 0x7400 then some (a - 0x7000, rows_por)
  else if a < 0x7800 then some (a - 0x7400, rows_stc)
  else if a < 0x7980 then some (a - 0x7800, rows_can)
  else if a < 0x7A00 then some (a - 0x7800, rows_cansig)
  else if a < 0x7C00 then some (a - 0x7A00, rows_can)
  else if a < 0x7C80 then some ((a - 0x7C00) % 0x10, rows_sent)
  else if a < 0x8000 then some (a - 0x7C00, rows_sentc)
  else none

/-- Does row `r` hold the register at block offset `o`? -/
def rowHolds (r : RegRow) (o : Nat) : Bool :=
  r.off ≤ o && (o - r.off) % r.stride = 0 && (o - r.off) / r.stride < r.count

/-- The row of a register address; `none` for an unlisted address (R23). -/
def rowOf (a : Nat) : Option RegRow :=
  match blockOf a with
  | some (o, rows) => rows.find? (fun r => rowHolds r o)
  | none => none

/-- The fields of a register address with their access codes; empty for an unlisted address (R4, R23). -/
def fieldsOf (a : Nat) : List FieldRow :=
  match rowOf a with
  | some r => r.fields
  | none => []

/-- Default reactions of Porter source `k` (Table 19.1): event reaction and severe reaction; `none` for a reserved source. -/
def porDefault (k : Nat) : Option (Nat × Nat) :=
  if k ≤ 3 then some (5, 5)
  else if k = 4 then some (1, 2)
  else if k = 5 then some (1, 1)
  else if k = 6 then some (5, 5)
  else if k = 7 then some (1, 1)
  else if k = 8 then some (5, 5)
  else if k = 9 then some (1, 1)
  else if k = 10 then some (1, 2)
  else if k = 11 then none
  else if k ≤ 15 then some (0, 1)
  else if k = 16 then some (5, 5)
  else if k = 17 then some (1, 2)
  else if k = 18 then some (5, 5)
  else if k = 19 then none
  else if k ≤ 23 then some (1, 2)
  else if k ≤ 27 then some (2, 5)
  else if k = 28 then some (5, 5)
  else if k ≤ 31 then none
  else if k ≤ 43 then some (1, 1)
  else if k = 44 then some (1, 2)
  else if k ≤ 47 then none
  else if k ≤ 63 then some (1, 2)
  else if k = 64 then some (0, 1)
  else if k = 65 then some (2, 5)
  else if k = 66 then some (0, 1)
  else if k = 67 then some (2, 2)
  else if k ≤ 70 then some (1, 2)
  else if k = 71 then some (1, 1)
  else if k ≤ 73 then some (1, 2)
  else if k ≤ 77 then some (1, 1)
  else if k ≤ 79 then none
  else if k ≤ 87 then some (2, 2)
  else some (1, 1)

/-- Reset value of POR_SRCAk: reactions of Table 19.1, EN 1 and N 8; a reserved source has EN 0 (Table 19.8). -/
def porSrcAReset (k : Nat) : Nat :=
  match porDefault k with
  | some (e, v) => e + 8 * v + 0x80 + 8 * 0x1000
  | none => 8 * 0x1000

/-- The reset value of a register (R5); zero for an unlisted address (R23). -/
def resetOf (a : Nat) : BitVec 20 :=
  if a = 0x500F then 0x0002A
  else if 0x7080 ≤ a ∧ a < 0x7100 then BitVec.ofNat 20 (porSrcAReset (a - 0x7080))
  else match rowOf a with
    | some r => BitVec.ofNat 20 r.reset
    | none => 0

end Sys2Proof.Machine
end

