-- ==== Sys2Proof/Machine/Units.lean ====
section
/-! DEFINITION. The state of the blocks that no register shows: queues and items in flight between islands, frozen sets, learned
tables, the parts of an exchange under way. Every value that a register shows stands in the register file instead. -/

namespace Sys2Proof.Machine

/-! ### Events of the present clock (R479) -/

/-- What events have done to the W1C and RC fields of a register in one clock of its island: the FCLK of the first of them, the word
before it, and what the events alone make of zero. -/
structure Mark where
  addr : Nat
  t    : Nat
  was  : Word
  ev   : Word
deriving DecidableEq, Repr

/-! ### Supplies, clocks, reset (R43 to R68) -/

/-- The chip-level resets of Table 3.3, and the start after watch mode (R67). -/
inductive ResetKind where
  | powerOn | nrst | porter | gallery | wake
deriving DecidableEq, Repr

/-- PCR: what reset is held, and watch mode. -/
structure Pcr where
  /-- the internal reset being held, none when it is released (R49, R32) -/
  held : Option ResetKind
  /-- NRST is held low from outside (R32) -/
  nrstLow : Bool
  /-- the Karek drives NRST low at a Porter chip reset (R32) -/
  drive : Bool
  /-- the PLLs run from SOSC until the ring gives a reference (R50) -/
  sosc : Bool
  /-- watch mode (R64) -/
  watch : Bool
  /-- TB saved in the retention latch (R64) -/
  tbSave : Nat
  /-- MT ticks counted in watch mode (R14) -/
  watchTicks : Nat
  /-- block resets under way: block and FCLK of the start (R58) -/
  brst : List (Nat × Nat)
  /-- the last chip-level reset, by the Porter or the Gallery, found POR_FIRST.VALID at 1 (R417) -/
  found : Bool
deriving DecidableEq, Repr

/-- What the pads drive, for the readbacks (R20, R193): INJ0 to INJ15, the BST and BAT gates of the banks, EO0 to EO23. One code a pin, 0
not driven, 1 low, 2 high; and the FCLK of its last change for every pin that changed less than 8 FCLK ago. -/
structure PinMon where
  codes : List Nat
  chT   : List (Nat × Nat)
deriving DecidableEq, Repr

/-! ### The weave image (R69 to R93) -/

/-- One section of an image in plaintext. -/
structure Sect where
  typ  : Nat
  tgt  : Nat
  hot  : Bool
  dig  : List Byte
  data : List Byte
  /-- where the plaintext stands in HALL15 once it is retained (R85, R90) -/
  ofs  : Nat
deriving DecidableEq, Repr

/-- One LIMIT entry (R78). -/
structure Limit where
  addr  : Nat
  allow : Bool
  mask  : Nat
  min   : Nat
  max   : Nat
deriving DecidableEq, Repr

/-- An image that has passed verification. -/
structure Image where
  version : Nat
  enc     : Bool
  raise   : Bool
  len     : Nat
  sects   : List Sect
deriving DecidableEq, Repr

/-- Where an image under load or verification stands. -/
inductive ImgSrc where
  | slot (i : Fin 2)
  | host
  | gallery
deriving DecidableEq, Repr

/-- WVL: loads, verification, the running image and a pending hot swap. -/
structure Wvl where
  /-- the retained copy of the running image (R85) -/
  run : Option Image
  /-- the slot last applied (R87, R90) -/
  lastSlot : Option (Fin 2)
  /-- boot step 2 waits for an image over the host port or the Gallery (R81) -/
  wait : Bool
  /-- the verification under way, with the slot that follows when it fails at boot -/
  verify : Option ImgSrc
  next : Option (Fin 2)
  /-- the load in progress -/
  load : Option ImgSrc
  /-- highest offset reached since LOAD_BEGIN, in two-byte units (R82) -/
  hi : Nat
  /-- received length given to verification -/
  recv : Nat
  /-- FCLK of the last LOAD_BEGIN or WVL_DATA write (R88) -/
  loadT : Nat
  /-- the candidate a passed LOAD_END left (R89), with its slot -/
  cand : Option (Image × Fin 2)
  /-- hot-swap sections copied and not yet in effect: the section, or the type and target of one that goes -/
  hot : List (Nat × Nat × Option Sect)
  /-- the image a pending hot swap installs -/
  hotImg : Option (Image × Fin 2)
  /-- LIMIT entries in force (R78) -/
  limits : List Limit
  /-- a load into a slot: the header page, and the other page being filled, as received so far (R87) -/
  head : List Byte
  page : Option (Nat × List Byte)
  /-- the stored image that passed, while its header page is being programmed (R87) -/
  hdr  : Option (Image × Fin 2)
  /-- safe levels of NP pins as the BED sections give them: pin and level, 0 low, 1 high (R29) -/
  npSafe : List (Nat × Nat)
  /-- an MT tick has come since the hot swap began (Table 4.6) -/
  hotTick : Bool
deriving DecidableEq, Repr

/-! ### Stair trackers (R94 to R152) -/

/-- A tooth-period record (Table 5.9). -/
structure ToothRec where
  per    : Nat
  tidx   : Nat
  missed : Bool
  noise  : Bool
deriving DecidableEq, Repr

/-- A measured period: the difference of two accepted stamps and the length it spans (R136). -/
structure Meas where
  p : Nat
  e : Int
deriving DecidableEq, Repr

/-- The record of a flight for geometry learning (R150). -/
structure FlightRec where
  /-- stamps of the teeth of the flight, oldest first -/
  stamps : List Nat
  /-- a record carried MISSED or NOISE, or a phase mismatch fell in the flight -/
  bad : Bool
deriving DecidableEq, Repr

/-- Which window of the expected tooth is open (R105, R114, R116). -/
inductive WinSt where
  | expected | two | closed
deriving DecidableEq, Repr

/-- A beacon (R125): source bay and tracker, the multiple, TB, state, L and last tooth period. -/
structure Beacon where
  bay  : Nat
  trk  : Nat
  mult : Nat
  tb   : Nat
  st   : Nat
  len  : Nat
  per  : Nat
deriving DecidableEq, Repr

/-- What waits in its FCLK for the edge or beacon that the rules put before it (R124, R146). -/
inductive TrkAct where
  | stall
  | resync
  | run (src : Master) (v : Word)
  | tread (chk : Option (Fin 128))
deriving DecidableEq, Repr

/-- A wheel input as it stands at its balls: VRIN0 to VRIN3, then WHL0 to WHL7. A VR input is high from the crossing of an arming
threshold to the zero crossing; `pk` is its highest positive voltage since, in 5 mV units (R97). -/
structure InPin where
  lvl : Bool
  pk  : Nat
deriving DecidableEq, Repr

/-- One stair tracker: what lies behind its registers. -/
structure Trk where
  /-- filtered level of the tracker's input (R96) -/
  pin : Bool
  /-- VR arming threshold VARM in force, in 5 mV units, and whether it has been halved in this interval (R97, R98) -/
  varm : Nat
  vdrop : Bool
  /-- TPTLOG in force (R146) and the value the image set -/
  tptLog : Nat
  imgTptLog : Nat
  /-- stamp of the last accepted tooth (in SEARCH: of the last edge), in FCLK; for a remote tracker a TB value -/
  last : Option Nat
  /-- stamp of the last edge that passed the filter, for the stall of SEARCH, LOST and REVERSED (R117) -/
  lastAny : Option Nat
  /-- FCLK of the acceptance that began the running interval, and its angle (R133) -/
  accT : Nat
  base : Nat
  /-- FCLK of that acceptance; on a remote tracker accT is the beacon's TB (R171) -/
  accF : Nat
  /-- treads of the running interval -/
  n : Nat
  /-- Tpred2 of the running interval (R142) -/
  tpred2 : Nat
  /-- the last measured period and the one before it (R136) -/
  m1 : Option Meas
  m2 : Option Meas
  /-- SEARCH: the run's length, and the period before the present one (R108) -/
  run : Nat
  runP : Option Nat
  /-- stamps of the edges of the run, newest first (R139) -/
  runS : List Nat
  /-- the window of the expected tooth that is open (R105, R114, R116) -/
  win : WinSt
  /-- edges rejected in this interval (R106) -/
  noise : Nat
  /-- missed teeth since tread 0 (R115) -/
  missN : Nat
  /-- catch-up running from this word (R145), and the FCLK it began in -/
  catchC : Option Nat
  catchT : Nat
  /-- FCLK of the last phase-tracker edge counted, and RUNNING before it (R111) -/
  camT : Option (Nat × Nat)
  /-- stamp at which the direction pulse began (R118) -/
  pulse : Option Nat
  /-- the landing-end tooth that entered GAP_FOUND has been seen, so a count is running (R111) -/
  counting : Bool
  /-- flight parity and held stamps of the last cycle, keyed by entry + parity × 256 (R139) -/
  par : Nat
  stamps : List (Nat × Nat)
  /-- Q of the tooth that began the running interval (R139) -/
  q : Option Nat
  /-- template T_c, 0 unfilled (R140) -/
  tpl : List (Nat × Nat)
  /-- GEO0 of the WHEEL section, as 16-bit words (Table 5.4), and the digest bytes loaded with it -/
  geo0 : List (Nat × Nat)
  dig : List Byte
  /-- learned values that come into force at a later acceptance, with the acceptances left (R150) -/
  geoNew : Option (Nat × List (Nat × Nat))
  /-- flights a (closed) and b (running) for learning -/
  fltA : Option FlightRec
  fltB : Option FlightRec
  /-- tooth-period FIFO, oldest first (R128) -/
  fifo : List ToothRec
  /-- remote: multiple of the last beacon, and consistent beacons in sequence (R126, R127) -/
  mult : Option Nat
  beacons : Nat
  /-- outcome of a geometry save that has ended and is not yet taken (R151) -/
  geoDone : Option Bool
  /-- the next tooth record is the first after GAP_FOUND or CYCLE_SYNC was entered (R234) -/
  firstRec : Bool
  /-- FCLK in which the word last took a tread (R132) -/
  stepT : Nat
  /-- TB of the FCLK in which the word reached its last multiple of BSTEP (R125) -/
  multT : Nat
  /-- what waits for an edge of this FCLK (R124, R146) -/
  acts : List TrkAct
deriving DecidableEq, Repr

/-! ### Stitches (R153 to R178) -/

/-- One parameter set: words W0 to W5 (R153). -/
structure PSet where
  w0 : Nat
  w1 : Nat
  w2 : Nat
  w3 : Nat
  w4 : Nat
  w5 : Nat
deriving DecidableEq, Repr

/-- What a stitch freezes at arming (R160). -/
structure Frozen where
  s     : Nat
  d     : Nat
  tpred : Nat
  nj    : Nat
  line  : Nat
  pol   : Nat
  runOn : Bool
  irq   : Nat
  guard : Nat
deriving DecidableEq, Repr

/-- One stitch: what lies behind its status word. -/
structure Stitch where
  setA : PSet
  setB : PSet
  fz : Option Frozen
  /-- an acceptance scan is pending; the next scan is the first after a hand-over or after WAIT was entered (R158) -/
  accScan : Bool
  fresh : Bool
  /-- the plan point has passed in this occurrence; a newly committed set came with it -/
  planSeen : Bool
  newSet : Bool
  /-- FCLK of the last hand-over (R167) -/
  hoT : Option Nat
  /-- FCLK and words of the last recipe write (R165) -/
  rcpW : Option (Nat × Nat)
  /-- the last pulse: the line it drives is high from FCLK startT up to, not including, endT (R155) -/
  startT : Nat
  endT : Nat
  lineNo : Nat
  /-- result and flags of this occurrence so far (R164) -/
  res : Nat
  oMissed : Bool
  oJumped : Bool
  oClamped : Bool
  /-- edge timers holding this stitch's start and end, with the FCLK each is loaded for (R170, R171) -/
  timS : Option Nat
  timE : Option Nat
  /-- the start or end was crowded and is placed by the compare path alone (R172) -/
  crS : Bool
  crE : Bool
  /-- FCLK in which the last occurrence ended, with the line it drove and its IRQ: a check may find it in the 17 FCLK after (R173) -/
  ended : Option (Nat × Nat × Nat)
deriving DecidableEq, Repr

/-- An item on the path from the chart engine to the stitch unit (R21, R218). -/
inductive SuItem where
  | write (n w v : Nat)
  | commit (n : Nat)
deriving DecidableEq, Repr

/-- What arrives at the stitch unit and waits, within its FCLK, for the steps of R167 before its own. -/
inductive SuAct where
  | write (n w : Nat) (src : Master) (v : Word)
  | item (i : SuItem)
  | cancel (n : Nat)
  | commit (n : Nat)
  | scan (chk : Option (Fin 128))
deriving DecidableEq, Repr

/-! ### Injector channels (R179 to R198) -/

/-- One bank: window, drain and diagnosis under way. The bank's state, conducting injector and slot stand in INJ_BSTAT. -/
structure Bank where
  /-- FCLK in which the last window opened, and in which the gates last went off (R182) -/
  openT : Nat
  offT : Nat
  /-- H1DONE (R186) -/
  h1done : Bool
  /-- RISE_T once I_PK is seen; I_H2 seen in this pulse; OPEN or SLOW decided (R188) -/
  rise : Option Nat
  h2seen : Bool
  limitDone : Bool
  /-- the needle was not running when the window opened (R190) -/
  ndlOff : Bool
  /-- the synchronised comparator levels I_PK, I_H1, I_H2, I_OC (R184) -/
  pk : Bool
  h1 : Bool
  h2 : Bool
  oc : Bool
  /-- level of the BAT gate when last evaluated; BAT-on FCLK of the hold-1 cycle being measured (R191) -/
  bat : Bool
  batOn : Option Nat
  /-- measured on-times of this pulse, newest first, and the opening found -/
  onT : List Nat
  opened : Option Nat
  /-- end-of-injection observation: injector and FCLK of the close (R192) -/
  eoi : Option (Nat × Nat)
  /-- level of the EOI comparator last observed (R192) -/
  eoiLvl : Bool
deriving DecidableEq, Repr

/-- INJ: pulse slots as bits of 8 × injector + slot: the line level each slot sees, and whether it is refused until its line falls
(R181, R183). -/
structure Inj where
  seen    : Nat
  refused : Nat
  /-- lines of the slots refused in this FCLK, for BANKCONF in the next (R183) -/
  confs   : List Nat
  bank    : Vector Bank 4
deriving DecidableEq, Repr

/-! ### Needles (R247 to R270) -/

/-- One needle: fill counts, queues, pin and direction registers, and its place in time. U, V, SIN, SOUT, PC and the flag stand in
the register file. -/
structure Ndl where
  sinN  : Nat
  soutN : Nat
  tx    : List Nat
  rx    : List Nat
  pin   : Nat
  dir   : Nat
  /-- address of the next instruction to begin; NPC holds the one under way (R262) -/
  pc    : Nat
  /-- the needle has been started since its bed's reset, so its NP pins have left their reset state (R30) -/
  live  : Bool
  /-- NCLK of the start, and NCLK of the next instruction's first cycle (R249, R262) -/
  start : Nat
  next  : Nat
  /-- count of 10 µs ticks when STALLED was entered (R267) -/
  stallAt : Nat
  /-- a SETW or CLRW has made its change and waits (R256) -/
  flagDone : Bool
  /-- pin and direction registers by the NCLK from which they stand, newest first, as far back as a synchroniser looks (R258) -/
  hist : List (Nat × Nat × Nat)
  /-- NCLK of the last start or stop, and whether the needle ran before the first of that NCLK (R266) -/
  chg : Option (Nat × Bool)
  /-- NCLK in which FLAG instructions last acted on this needle's flag, the flag before the first of them, and whether that one set it
  (R268) -/
  flg : Option (Nat × Bool × Bool)
deriving DecidableEq, Repr

/-- The needle island's clock: NCLKDIV in force, and an FCLK at which the NCLK count stood at a known value (R248). -/
structure NclkBase where
  div : Nat
  f0  : Nat
  n0  : Nat
deriving DecidableEq, Repr

/-! ### Charts, recipes and the variable file (R199 to R223) -/

/-- A QVMAP entry (Table 9.2). -/
structure QEnt where
  kind  : Nat
  idx   : Nat
  shift : Int
  age   : Nat
  fall  : Nat
deriving DecidableEq, Repr

/-- A recipe (R215): plan entries (POS, TRK, CYL) and step words. -/
structure Recipe where
  stride : Nat
  irq    : Bool
  plan   : List (Nat × Nat × Nat)
  steps  : List Nat
deriving DecidableEq, Repr

/-- A plan-tooth request, with the tracker that sent it (R8, R216). -/
structure PlanReq where
  rcp : Nat
  cyl : Nat
  trk : Nat
deriving DecidableEq, Repr

/-- A run in a context (R212, R217). -/
structure Ctx where
  rcp   : Nat
  cyl   : Nat
  step  : Nat
  v     : List Int
  snap  : List Int
  stale : List Bool
  /-- MCLK of the snapshot and of the present step's begin, in thirds of an FCLK: an MCLK is four of them -/
  t0    : Nat
  beg   : Nat
  /-- in a LOOKUP step: when the lookup unit accepted it (R214) -/
  acc   : Option Nat
deriving DecidableEq, Repr

/-- A lookup that the unit serves only when no recipe LOOKUP waits: of the gauge's threshold (R227), or a test (R221). Its snapshot, and
the instants, in thirds of an FCLK, of its request and of its acceptance. -/
structure LowLook where
  snap : List Int
  reqT : Nat
  acc  : Option Nat
deriving DecidableEq, Repr

/-- Where a chart stands: hall, byte offset, body length (R204). -/
structure ChartPos where
  hall : Nat
  ofs  : Nat
  len  : Nat
deriving DecidableEq, Repr

/-- CHT: the chart engine. -/
structure Cht where
  qmap    : List (Nat × QEnt)
  recipes : List (Nat × Recipe)
  charts  : List (Nat × ChartPos)
  /-- requests on their way from the trackers (R216) -/
  inbound : List PlanReq
  queue   : List PlanReq
  ctx     : Vector (Option Ctx) 4
  /-- when the lookup unit accepts again, in thirds of an FCLK (R214); the test lookup under way, with its chart (R221) -/
  unitT   : Nat
  test    : Option (Nat × LowLook)
  /-- runs that a block reset ended, to be recorded when CHT resumes (R219) -/
  aborted : List Ctx
  /-- FCLK of the last tick of the age counters, and entries to be tested for staleness at the end of the FCLK (R202, R462) -/
  ageT    : Nat
  staleQ  : List Nat
deriving DecidableEq, Repr

/-! ### Gauge (R224 to R246) -/

/-- A tooth record on its way to the gauge and HOOK. -/
structure GauRec where
  trk    : Nat
  rec_   : ToothRec
  pos    : Nat
  tb     : Nat
  cyc    : Bool
  flight : Nat
  first  : Bool
deriving DecidableEq, Repr

/-- An item on the path from a tracker to the gauge: a tooth record, or word of tread 0 (R227). Items of one tracker arrive in the order
in which they were sent (R8). -/
inductive GauItem where
  | record (r : GauRec)
  | zero (n : Nat)
deriving DecidableEq, Repr

/-- The tracker an item comes from. -/
def GauItem.trk : GauItem → Nat
  | .record r => r.trk
  | .zero n => n

def GauItem.isZero : GauItem → Bool
  | .record _ => false
  | .zero _ => true

/-- One history coder (R231 to R235). -/
structure Coder where
  /-- the next record must be coded as a sync block, LOST flag, records since the last block -/
  sync  : Bool
  lost  : Bool
  since : Nat
  coarse : Bool
  q     : Nat
  prevP : Nat
  prevQ : Nat
  prevSig : Nat
  buf   : List Byte
deriving DecidableEq, Repr

/-- GAU: segment timing, roughness history, coders and stream slots. -/
structure Gau where
  inbound : List GauItem
  /-- segment being summed: its number and the sum so far, none outside a segment or when invalid -/
  seg     : Option (Nat × Nat)
  segBad  : Bool
  /-- the two preceding segments' times in the sequence, newest first (R226) -/
  prevT   : List Nat
  /-- position of the last record of the tracker followed -/
  lastPos : Option Nat
  /-- candidates since tread 0 (Table 10.1); segments that have reached their limit in this block, as bits (R228) -/
  cycCand : Nat
  mfHit   : Nat
  /-- the last candidate: its MCLK, its segment, whether it set LIMIT, and LIMIT before it; the last change of GAU_MFTHR: its MCLK and
  the threshold before it (R229) -/
  candT   : Option (Nat × Nat × Bool × Bool)
  thrT    : Option (Nat × Nat)
  /-- threshold lookup under way (R227) -/
  lookup  : Option LowLook
  coders  : Vector Coder 4
  /-- AWO table places: hall and offset, none for no table -/
  awoTab  : Vector (Option (Nat × Nat)) 2
  /-- a stream frame waiting for the Gallery: y, idx, TB (R239) -/
  awoTx   : Vector (Option (Nat × Nat × Nat)) 2
  /-- latched duty and carrier phase start (R241) -/
  duty    : Vector Nat 2
  phase   : Vector Nat 2
  /-- the level of each PWM output while a block reset of GAU holds it: EO pins are no pins of GAU, so they keep theirs (R33) -/
  held    : Vector (Option Bool) 2
  /-- FCLK of the last evaluation of each output (R237), and of the last advance of its index, with whether it passed 0 (Table 4.6) -/
  awoT    : Vector Nat 2
  awoAdv  : Vector (Nat × Bool) 2
  /-- the last evaluation met an uncorrectable error, so no y stands (R238) -/
  awoBad  : Vector Bool 2
  /-- FCLK of the last frame of each receive slot, and authenticated stream frames on their way: slot and value (R240) -/
  srxT    : Vector Nat 8
  rx      : List (Nat × Nat)
deriving DecidableEq, Repr

/-! ### The Porter (R405 to R428) -/

/-- A finding of a source: detail code, and the address, master and access type of sources 64 to 69 (R405, R415). -/
structure FaultSig where
  src    : Nat
  det    : Nat
  addr   : Nat
  master : Nat
  access : Nat
deriving DecidableEq, Repr

/-- An item that crosses into the memory island and acts within the step that sends it: a raise of an interrupt source (R380), a feed
of a variable-file entry (R199). -/
inductive LostItem where
  | irq (k : Nat)
  | feed (kind idx : Nat)
deriving DecidableEq, Repr

/-- An event decided, on its way to the management island to be counted (R410). -/
structure CountItem where
  sig    : FaultSig
  integ  : Bool
  forced : Bool
deriving DecidableEq, Repr

/-- An entry offered to the fault log: bytes 6 to 31 (Table 19.4). -/
structure LogRec where
  kind   : Nat
  integ  : Bool
  sig    : FaultSig
  react  : Nat
  forced : Bool
  wcnt   : Nat
  bay    : Nat
  ts     : Nat
  cause  : Nat
deriving DecidableEq, Repr

/-- POR: the pairs, the counting state and the ALIVE generator. -/
structure Por where
  /-- single occurrences on the pairs and not yet decided, oldest first -/
  pulses : List FaultSig
  /-- standing conditions that last (R405) -/
  stand  : List FaultSig
  /-- sources whose present error excursion has been decided -/
  seen   : List Nat
  /-- values presented by POR_FORCE: source, and whether (1,1) was presented (R408) -/
  forced : List (Nat × Bool)
  /-- events on their way to the counters; severe notices on their way back (R410, R411) -/
  countQ : List CountItem
  sevQ   : List CountItem
  /-- open windows: source and age (R410) -/
  ages   : List (Nat × Nat)
  /-- level of ALIVE (R421), and a heartbeat has arrived since the last look (R420) -/
  alive  : Bool
  beat   : Bool
  /-- FCLK of the last heartbeat, or of the last event for want of one (R420) -/
  beatT  : Nat
  /-- FCLK in which the latest excursion of a source began, and sources whose waiting occurrence belongs to one already decided (R405) -/
  excT   : List (Nat × Nat)
  same   : List Nat
  /-- events to be counted at the end of the FCLK, and an MT tick to be taken after them (R410, R411) -/
  late   : Nat
  tick   : Bool
  /-- FCLK in which a capture clear acted ahead of the events of its clock (R416) -/
  clrT   : Option Nat
  /-- items that act in the step which sends them, and whose crossing is to fail its check (R10) -/
  lost   : List LostItem
deriving DecidableEq, Repr

/-! ### Window comparators (R271 to R281) -/

/-- One window: the mode in force (a written MODE may still wait for its tick, R274), and whether a sample is under way. -/
structure Win where
  eff    : Nat
  sample : Bool
  /-- a tick of the window has come and not been taken (R274) -/
  due    : Bool
  /-- FCLK in which the sample under way began -/
  sampT  : Nat
deriving DecidableEq, Repr

/-- A step of the reference-ladder rotation (R279): the role, the physical unit freed for its test; and until the hand-over the spare's own
output, the FCLK since which it agrees with the role's, and whether a sample has come at which both agree. -/
structure LadderStep where
  role  : Nat
  freed : Option Nat
  spare : Bool
  agree : Option Nat
  samp  : Bool
deriving DecidableEq, Repr

/-- CMP: windows and the rotation of physical units. -/
structure CmpBlk where
  win  : Vector Win 12
  /-- physical unit holding each role -/
  unit : Vector Nat 24
  /-- no unit is spare because the freed one failed (R279) -/
  noSpare : Bool
  step : Option LadderStep
  /-- role of the next step -/
  nextRole : Nat
  /-- FCLK of the last step's start and of the last hand-over; last test completion by physical unit (R429, R440) -/
  stepT : Nat
  freedT : Nat
  done : List (Nat × Nat)
  /-- FCLK of the first zone change of an MGCLK, with CMP_ZONE0 and CMP_ZONE1 before it (R276) -/
  zPrev : Option (Nat × Nat × Nat)
  /-- the test of the freed unit was cut short, and waits for the next step (R439) -/
  cut : Bool
deriving DecidableEq, Repr

/-- A register write that waits, within its FCLK, for steps 1 to 3 of R284. -/
inductive TmrAct where
  | run (n : Nat) (run : Bool)
  | clear (n : Nat)
  | count (n v : Nat)
  | reload (n v : Nat)
  | compare (n k v : Nat)
  | group (mask : Nat)
  | cfg (n : Nat) (src : Master) (v : Word)
deriving DecidableEq, Repr

/-! ### Timers (R282 to R290) -/

/-- One timer: prescaler phase, values held for a linked pair, the latched odd half, and the count before its last change. -/
structure Tmr where
  /-- FCLK of the last advance, start, clear or PRE change (R282) -/
  phase : Nat
  heldReload : Option Nat
  heldC0 : Option Nat
  heldC1 : Option Nat
  /-- odd half latched by a read of the even count (R290) -/
  latch : Option Nat
  /-- count that stood before the change made in FCLK chT (R288) -/
  prev : Nat
  chT : Nat
  /-- FCLK of the last capture (R288) -/
  capT : Nat
deriving DecidableEq, Repr

/-! ### Halls and NVS (R296 to R317) -/

/-- The error a stored word holds against its check bits (R305, R309). -/
inductive EccErr where
  | single | double
deriving DecidableEq, Repr

/-- Who asks for an NVS write, in the order of R312. -/
inductive NvWho where
  | log | stc | tru | trk (n : Fin 4) | wvl | host
deriving DecidableEq, Repr

/-- An NVS write request: pages still to be written with their 32 bytes, first the one under way. -/
structure NvReq where
  who  : NvWho
  todo : List (Nat × List Byte)
deriving DecidableEq, Repr

/-- A request at a port of a hall that has not been granted in full (R300, R304): its master, the place and bytes still to be served, the
data to write, the errors found in the words it reads, the data read so far, whether its first word has been served, the MCLK in which
it begins to compete, and the MCLK it has lost without a break (R302). -/
structure HallReq where
  m    : Master
  addr : Nat
  len  : Nat
  wr   : Option (List Byte)
  err  : WordErrs
  data : List Byte
  t    : Nat
  lost : Nat
deriving DecidableEq, Repr

/-- HAL: ownership hand-overs, the NVS write port, the log queue and the word last read. -/
structure Hal where
  /-- new owner of a hand-over waiting for the old owner's access to end (R303) -/
  handover : List (Nat × Nat)
  /-- corrected words waiting for port B (R305) -/
  scrubQ : List Nat
  /-- repair in force: rows mapped to spares, as (hall × 2048 + row, spare) (R307) -/
  rows : List (Nat × Nat)
  waiting : List NvReq
  running : Option NvReq
  /-- fault-log queue, oldest first, and SEQ of the last entry (R316) -/
  logQ : List LogRec
  logSeq : Nat
  /-- an MT tick has come since the log writer last took an entry (R316) -/
  logDue : Bool
  /-- NVS requests that have ended and that their requester has not yet taken -/
  ended : List (NvWho × Bool)
  /-- requests that compete for the ports, and ports that a read-modify-write holds: 2 × hall + port, and the last MCLK (R297, R300) -/
  reqs  : List HallReq
  held  : List (Nat × Nat)
  /-- the last HALL_ACCESS or NVS_READ of each master that has ended: its data, and whether it ended with a bus error -/
  res   : List (Master × List Byte × Bool)
  /-- the last ECC error recorded: its MCLK, uncorrectable, on port B or in NVS (R305) -/
  eccT  : Option (Nat × Bool × Bool)
deriving DecidableEq, Repr

/-! ### HOOK (R318 to R338) -/

/-- A burst outstanding: the words of its descriptor, whether that descriptor's status has been written, its place in LENGTH, its
addresses, the coder's bytes taken at its issue, and the FCLK of the issue (R330, R334). -/
structure Burst where
  words : List Nat
  late  : Bool
  ofs   : Nat
  len   : Nat
  src   : Nat
  dst   : Nat
  data  : List Byte
  /-- its reads are made, and `data` is what they returned -/
  read  : Bool
  t     : Nat
  /-- number of its descriptor, and whether that has been marked BAD already (R333) -/
  seq   : Nat
  bad   : Bool
deriving DecidableEq, Repr

/-- One channel: what lies behind its registers. -/
structure Hk where
  /-- the four words of the descriptor under way, none in FETCH and STOPPED; its operation has begun -/
  desc  : Option (List Nat)
  begun : Bool
  /-- PACE 2 has consumed its request (R329) -/
  paced : Bool
  /-- requests that a WAIT still needs (R323) -/
  need  : Nat
  /-- address of the LOOP that runs the counter (R322) -/
  loopAt : Option Nat
  /-- the cause that marks the descriptor BAD, and MISMATCH -/
  bad   : Option Nat
  mism  : Bool
  /-- bytes of LENGTH issued -/
  issued : Nat
  /-- bursts outstanding, oldest first -/
  burst : List Burst
  /-- a STOP waits for the outstanding bursts (R326) -/
  stopping : Bool
  /-- descriptors fetched so far -/
  seq   : Nat
  /-- bytes of a 4-byte source access that the funnel holds for the next burst (R332) -/
  left  : List Byte
  /-- the level that PEDGE saw last (R328) -/
  lvl   : Bool
  /-- FCLK in which a burst last consumed a request; FCLK of the last pulse counted, with the pulses of its MCLK (R329) -/
  usedT : Option Nat
  inT   : Option (Nat × Nat)
deriving DecidableEq, Repr

/-- HOOK: channels, pulses on their way (pacing code and channel mask), the channel last granted at each level (R331), channels that
start by themselves (R336), and an MT tick not yet taken by the budgets (R335). -/
structure Hook where
  ch     : Vector Hk 16
  pulses : List (Nat × Nat)
  last   : Vector Nat 4
  auto   : Nat
  due    : Bool
  /-- FCLK of the last burst issue, and its channel (R335) -/
  issT   : Option (Nat × Nat)
deriving DecidableEq, Repr

/-! ### Self-test (R429 to R443) -/

/-- A rotation of n + 1 units over n roles (R436, R437). -/
structure Rot where
  /-- physical unit holding each role, and the role the next step serves -/
  unit : List Nat
  next : Nat
  /-- role of the step under way whose spare has not taken over -/
  wait : Option Nat
  /-- slots passed over because they did not become free (R437) -/
  again : List Nat
  /-- unit under test, and FCLK of its test's start; unit that must be tested again (R439) -/
  freed : Option Nat
  freedT : Nat
  retry : Option Nat
  /-- FCLK of the step's start, and of the earliest next one -/
  stepT : Nat
  nextT : Nat
deriving DecidableEq, Repr

/-- STC: hall test, NVS reading, rotations. -/
structure Stc where
  /-- FCLK of the earliest next region, and of the start of the pass -/
  hallT : Nat
  passT : Nat
  /-- unused spares, as 8 × hall + spare, whose most recent test passed (R434) -/
  spareOk : List Nat
  /-- records asked for since boot: hall, row, spare, region; and how many of them are programmed -/
  recs : List (Nat × Nat × Nat × Nat)
  recsN : Nat
  /-- records that wait for the controller's request before them: page and bytes (R312) -/
  recQ : List (Nat × List Byte)
  /-- save buffers that have failed, and the one in use (R432, R440) -/
  bufBad : List Nat
  buf : Nat
  /-- MT ticks whose NVS pages are still to be read -/
  nvDue : Nat
  cmpu : Rot
  etmr : Rot
  /-- INCOMPLETE results in a row, by kind (R439) -/
  inc : Vector Nat 5
  /-- FCLK of the last test completion, by kind and unit (R440) -/
  done : List (Nat × Nat)
deriving DecidableEq, Repr

/-! ### Trust (R388 to R404) -/

/-- A trust record (R392): GEN, LIFE, slot valid mask, WVL_FLOOR, the digests of the four slots. -/
structure TrustRec where
  gen   : Nat
  life  : Nat
  mask  : Nat
  floor : Nat
  digs  : List (List Byte)
deriving DecidableEq, Repr

/-- An NVS update of TRU: a new trust record, asked for by a command or by RAISE_FLOOR, or the identity record of a new pair. -/
inductive TruJob where
  | record (r : TrustRec) (cmd : Bool)
  | identity (pub : List Byte)
deriving DecidableEq, Repr

/-- A command under way: its code, whether its checks have been made and whether they came to CHALLENGE, and its cause once it is
known, 0 when it passed. -/
structure TruCmd where
  code  : Nat
  done  : Bool
  chal  : Bool
  cause : Option Nat
deriving DecidableEq, Repr

/-- TRU. -/
structure Tru where
  /-- the root key is present (R388) -/
  root : Bool
  /-- the trust record in force and the NVS copy it stands in, none when neither copy is readable -/
  rec_ : TrustRec
  copy : Option (Fin 2)
  job  : Option TruJob
  /-- a raise of WVL_FLOOR that waits for the update under way -/
  floorQ : Option Nat
  cmd  : Option TruCmd
  /-- a challenge stands; one drawn while a command was BUSY (R396, R402); MT ticks the challenge has stood -/
  chalOk : Bool
  chalNext : Option (List Byte)
  chalT : Nat
deriving DecidableEq, Repr

/-! ### CAN FD and SENT (R444 to R456) -/

/-- A message object (R447): configuration word, identifier, mask, received status, time stamp, 64 data bytes. -/
structure CanObj where
  cfg  : Nat
  id   : Nat
  mask : Nat
  stat : Nat
  ots  : Nat
  data : List Byte
deriving DecidableEq, Repr

/-- A CAN controller: objects, error counters beyond what ERRCNT shows, bus-off, the object whose frame is on the bus when a request
was withdrawn, and whether recovery counts (R446, R449). -/
structure Can where
  objs    : List CanObj
  tec     : Nat
  rec_    : Nat
  off     : Bool
  bus     : Option Nat
  counting : Bool
deriving DecidableEq, Repr

/-- A SENT receiver: the last accepted calibration pulse, the status nibbles of the slow message in progress, FCLK of the last
accepted frame, and whether its silence has been found. -/
structure SentRx where
  cal    : Option Nat
  slow   : List Nat
  accT   : Nat
  silent : Bool
deriving DecidableEq, Repr

/-! ### The Gallery (R339 to R371) -/

/-- A frame on its way from the lanes to the block that acts on it: TB at its arrival; it passed R350 and R351; it is the bay's own
frame coming back. -/
structure RxFrame where
  f   : Frame
  tb  : Nat
  act : Bool
  own : Bool
deriving DecidableEq, Repr

/-- The pass a master waits for (Table 16.4), and the MEASURE pass of a join (R356). -/
inductive EnumPass where
  | measure | assign | sync | done | joinMeasure
deriving DecidableEq, Repr

/-- Who waits for a Gallery request: the host port, or the roster entry of a bay (R355, R364). -/
inductive ReqWho where
  | host | roster
deriving DecidableEq, Repr

/-- A request outstanding at a bay: kind and payload, tries made, whether it waits to be sent, FCLK at which it was last sent. -/
structure GalReq where
  who   : ReqWho
  bay   : Nat
  kind  : Nat
  body  : List Byte
  tries : Nat
  sent  : Bool
  t     : Nat
deriving DecidableEq, Repr

/-- What a frame word is (R340): idle, the ends of a frame, or two data bytes. -/
inductive LaneWord where
  | idle
  | sof
  | eof
  | data (lo hi : Byte)
deriving DecidableEq, Repr

/-- What the bay sends on its two output lanes: a frame on each, or the words of a frame that a code error ended (R341). -/
inductive LaneItem where
  | whole (p c : Frame)
  | broken (ws : List LaneWord)
deriving DecidableEq, Repr

/-- GAL: keys, frames on their way in and out, enumeration, transactions. -/
structure Gal where
  /-- RING_KEY of the GAL section, the NM held and the session key from it (R349) -/
  key : List Byte
  nm  : Option (List Byte)
  sk  : Option (List Byte)
  /-- last SEQ held by source bay (R351) -/
  lastSeq : List (Nat × Nat)
  /-- taken frames that have not acted, oldest first -/
  rx : List RxFrame
  /-- a MEASURE frame being held, and FCLK of its arrival (R354) -/
  hold : Option (Frame × Nat)
  /-- the last frame that left on GPO and on GCO, none where it was ended early; its words, none for the invalid code group that ends a
  frame early; the running disparity after it (R340, R341) -/
  outP : Option Frame
  outC : Option Frame
  laneP : List (Option (BitVec 20))
  laneC : List (Option (BitVec 20))
  rdP : Bool
  rdC : Bool
  /-- FCLK from which the outputs are free for another frame, and frames of other bays that wait for that (R341) -/
  outT : Nat
  transit : List LaneItem
  /-- own frames waiting, by class of R367: ENUM and JOIN, SYNC, EVENT per slot, IRQ, RESP -/
  ctlQ : List (Nat × List Byte)
  syncQ : Bool
  ev   : Vector (Option (Bool × Nat)) 16
  irqQ : List (Nat × List Byte)
  respQ : List (Nat × List Byte)
  /-- level of each event slot's line last seen (R368) -/
  evLvl : Nat
  /-- requests outstanding, the next TID, and the answer kept for each source bay: TID and RESP payload (R364) -/
  req  : List GalReq
  tid  : Nat
  kept : List (Nat × Nat × List Byte)
  /-- roster: bay number and identity digest (R355) -/
  roster : List (Nat × List Byte)
  /-- the pass under way and FCLK of its start; NEXT of the last ASSIGN; the number and REQID of a join -/
  pass : Option (EnumPass × Nat)
  next : Nat
  join : Option (Nat × List Byte)
  /-- the SYNC pass has begun, so every kind of frame is sent; an enumeration has completed since the last chip-level reset -/
  free : Bool
  complete : Bool
  /-- FCLK at which boot step 3 began, and at which the retry timer last acted; an ENUM frame has been received in step 3 (R62,
  R353) -/
  step3 : Option Nat
  retryT : Option Nat
  seen : Bool
  /-- the 50 ms of a master have passed without an enumeration -/
  gaveUp : Bool
  /-- MT ticks counted for ENUMDLY and JOINP -/
  ticks : Nat
  /-- FCLK at which the primary input began to deliver valid code groups (R343), and of the last SYNC taken (R363) -/
  primT : Nat
  syncT : Nat
  /-- error and correction planned at the last SYNC (R360) -/
  lastErr : Option (Int × Int)
  /-- FCLK at which a RESET frame acted (R366) -/
  resetT : Option Nat
deriving DecidableEq, Repr

/-! ### Host port and interrupt router (R372 to R387) -/

/-- An exchange of R381 outstanding: the bay it went to, HID, the source offered (0 for a CLAIM), tries, FCLK of the last. -/
structure IrqAsk where
  bay   : Nat
  hid   : Nat
  src   : Nat
  tries : Nat
  t     : Nat
deriving DecidableEq, Repr

/-- IRT: both sides of the exchanges. -/
structure Irt where
  /-- exchanges on their way within the bay: SUB, HID, value (R381) -/
  loc   : List (Nat × Nat × Nat)
  /-- the OFFER and the CLAIM outstanding -/
  offer : Option IrqAsk
  claim : Option IrqAsk
  /-- hosts excluded at this bay until a HOSTSTATE shows them FREE (R382) -/
  excl  : List Nat
  /-- host and source excluded for the source's next evaluation (R385) -/
  once  : Option (Nat × Nat)
  /-- no evaluation before this FCLK count of thirds (R384) -/
  evalT : Nat
  /-- FCLK at which the slot became OFFERED or HELD, and the instant, in thirds of an FCLK, at which it becomes FREE (R384, R385) -/
  slotT : Nat
  freeT : Option Nat
  /-- CLAIMs taken in this FCLK, answered at its end (R386): bay and HID -/
  claims : List (Nat × Nat)
deriving DecidableEq, Repr

/-- A host request being carried out or done: RESULT and data; a register read that stands at IRT_CLAIM: values so far, registers
left, and whether the claim has been answered (R375, R383). -/
structure HostPort where
  /-- CRCERR, FERR and REFUSED to be shown by the next PSTAT (R374) -/
  crcErr : Bool
  fErr   : Bool
  refused : Bool
  /-- PSTAT as the last frame carried it, and the bytes SDO carried after it -/
  pstat  : Nat
  sdo    : List Byte
  /-- the result of the request under way, once it stands; D of a read under way -/
  done   : Option (Nat × List Byte)
  dlen   : Nat
  /-- the result waiting to be fetched -/
  result : Option (Nat × List Byte)
  /-- bay that a remote request waits for -/
  remote : Option Nat
  /-- values read before IRT_CLAIM, first address after it and registers left; the claim has begun; the value it gave -/
  vals   : List Nat
  rest   : Option (Nat × Nat)
  begun  : Bool
  claimed : Option Nat
  /-- an NVS read of a page being written, waiting: offset and length (R311) -/
  nvRead : Option (Nat × Nat)
deriving DecidableEq, Repr

end Sys2Proof.Machine
end

