-- ==== Sys2Proof/Machine/State.lean ====
section
/-! DEFINITION. The state of the Karek as plain data: the queue of waiting commands, the clocks, the register file, the stores, and
the units of Machine/Units.lean; the reasons a step can stop; and the state at reset. -/

namespace Sys2Proof.Machine

/-- Why a step stops with a fault. No meaning raises one: every command of the table has an effect in every state, an access that
the spec answers with a bus error included (R9, R24). Safe: the type is kept so that a later fault has a name. -/
inductive Fault where
  /-- A memory of the state is not in its canonical form; raised by nothing. Safe. -/
  | corruptState
deriving DecidableEq, Repr

/-- Why a command has no meaning. -/
inductive Refusal where
  /-- The command is not modelled; raised by an arm of the dispatch only. Safe. -/
  | notModelled (mnemonic : String)
deriving DecidableEq, Repr

/-- The machine's state. -/
structure State where
  /-- the commands that wait, first in, first out -/
  pending : List Instr
  /-- the model's own count of FCLK (assumption 3) -/
  fclk : Nat
  /-- TB (R291) -/
  tb : BitVec 60
  /-- MT ticks due and not yet taken (R13), TB wraps due (R460), SYNC frames due (R359) -/
  mtDue : Nat
  wrapDue : Bool
  syncDue : Bool
  /-- the model's own count of 10 µs ticks: FCLK in which TB reaches or passes a multiple of 4000 (R267) -/
  tick10 : Nat
  /-- TB corrections still to be made by slews, and FCLK of the last slew (R293) -/
  corr : Int
  slewT : Nat
  /-- changes of TB other than by one count: FCLK, and the TB that counting would have given there (R294; the model's own) -/
  tbLog : List (Nat × Nat)
  /-- the word that the last register read returned to its master (the model's own) -/
  rd : Word
  /-- the model's own counter behind free values (assumption 5) -/
  freeCtr : Nat
  /-- the register file: registers that differ from their reset value -/
  regs : List (Nat × Word)
  /-- what events have set in W1C and RC fields in the present clock (R479) -/
  marks : List Mark
  /-- the halls, by byte address (R296), and words that hold an error -/
  halls : List Host.Cell
  hallErr : List (Nat × EccErr)
  /-- NVS, by byte offset (R309), and 8-byte words that hold an error -/
  nvs : List Host.Cell
  nvsErr : List (Nat × EccErr)
  /-- event-line routing: 256 × CLASS + INDEX to line (R174) -/
  routes : List (Nat × Nat)
  pcr : Pcr
  wvl : Wvl
  /-- levels at the wheel inputs: VRIN0 to VRIN3, WHL0 to WHL7 (R95) -/
  inp : Vector InPin 12
  trk : Vector Trk 4
  /-- beacons waiting for the Gallery island, with their destination, and beacons received, with the remote tracker they
are for (R125, R126) -/
  bcnOut : List (Nat × Beacon)
  bcnIn : List (Nat × Beacon)
  /-- levels of the pads (R20, R193) -/
  pins : PinMon
  stitch : Vector Stitch 128
  /-- next group of eight stitches in the pass (R158), and the path from the chart engine (R21) -/
  suPos : Nat
  suPath : List SuItem
  suActs : List SuAct
  /-- FCLK in which the pass last scanned, or was abandoned (R158) -/
  suT : Option Nat
  inj : Inj
  ndl : Vector Ndl 16
  ncl : NclkBase
  cht : Cht
  gau : Gau
  cmp : CmpBlk
  tmr : Vector Tmr 16
  tmrActs : List TmrAct
  hal : Hal
  hook : Hook
  gal : Gal
  irt : Irt
  host : HostPort
  stc : Stc
  tru : Tru
  can : Vector Can 2
  sent : Vector SentRx 8
  por : Por
deriving DecidableEq, Repr

/-- What an unlisted hall byte reads as: zero, the fill of boot step 1 (R306). -/
def hallDefault (_ : Nat) : Byte := 0

/-- What an unlisted NVS byte reads as: the erased value (R309; assumption 4). -/
def nvsDefault (_ : Nat) : Byte := 0xFF

/-- The canonical form of the stores: register file, halls, NVS. -/
def Memory.wf (s : State) : Bool :=
  cellsWf resetOf s.regs && cellsWf hallDefault s.halls && cellsWf nvsDefault s.nvs

def Pcr.reset : Pcr := ⟨some .powerOn, false, false, false, false, 0, 0, [], false⟩
/-- Gates off, EO pins not driven (Table 2.2). -/
def PinMon.reset : PinMon := ⟨List.replicate 24 1 ++ List.replicate 24 0, []⟩
def Wvl.reset : Wvl := ⟨none, none, false, none, none, none, 0, 0, 0, none, [], none, [], [], none, none, [], false⟩
def Trk.reset : Trk :=
  { pin := false, varm := 0, vdrop := false, tptLog := 0, imgTptLog := 0, last := none, lastAny := none, accT := 0, base := 0, accF := 0,
    n := 0, tpred2 := 0, m1 := none, m2 := none, run := 0, runP := none, runS := [], win := .expected, noise := 0, missN := 0,
    catchC := none, catchT := 0, camT := none, pulse := none, counting := false, par := 0, stamps := [], q := none, tpl := [], geo0 := [], dig := [],
    geoNew := none, fltA := none, fltB := none, fifo := [], mult := none, beacons := 0, geoDone := none,
    firstRec := false, stepT := 0, multT := 0, acts := [] }
/-- A parameter set at reset (Table 7.11): W3 holds ARM_LEAD 1 and GUARD 64. -/
def PSet.reset : PSet := ⟨0, 0, 0, 0x1008, 0, 0⟩
def Stitch.reset : Stitch :=
  { setA := PSet.reset, setB := PSet.reset, fz := none, accScan := false, fresh := false, planSeen := false, newSet := false,
    hoT := none, rcpW := none, startT := 0, endT := 0, lineNo := 0, res := 0, oMissed := false, oJumped := false, oClamped := false,
    timS := none, timE := none, crS := false, crE := false, ended := none }
def Bank.reset : Bank :=
  { openT := 0, offT := 0, h1done := false, rise := none, h2seen := false, limitDone := false, ndlOff := false, pk := false,
    h1 := false, h2 := false, oc := false, bat := false, batOn := none, onT := [], opened := none, eoi := none, eoiLvl := false }
def Inj.reset : Inj := ⟨0, 0, [], .replicate 4 Bank.reset⟩
def Ndl.reset : Ndl := ⟨0, 0, [], [], 0, 0, 0, false, 0, 0, 0, false, [], none, none⟩
def Cht.reset : Cht := ⟨[], [], [], [], [], .replicate 4 none, 0, none, [], 0, []⟩
def Coder.reset : Coder := ⟨true, false, 0, false, 1, 0, 0, 16, []⟩
def Gau.reset : Gau :=
  { inbound := [], seg := none, segBad := false, prevT := [], lastPos := none, cycCand := 0,
    mfHit := 0, candT := none, thrT := none, lookup := none,
    coders := .replicate 4 Coder.reset, awoTab := .replicate 2 none, awoTx := .replicate 2 none, duty := .replicate 2 0,
    phase := .replicate 2 0, held := .replicate 2 none, awoT := .replicate 2 0, awoAdv := .replicate 2 (0, false), awoBad := .replicate 2 false, srxT := .replicate 8 0, rx := [] }
def Win.reset : Win := ⟨0, false, false, 0⟩
def CmpBlk.reset : CmpBlk := ⟨.replicate 12 Win.reset, Vector.ofFn (fun i : Fin 24 => i.val), false, none, 0, 0, 0, [], none, false⟩
def Tmr.reset : Tmr := ⟨0, none, none, none, none, 0, 0, 0⟩
def Hal.reset : Hal := ⟨[], [], [], [], none, [], 0, false, [], [], [], [], none⟩
def Hk.reset : Hk := ⟨none, false, false, 0, none, none, false, 0, [], false, 0, [], false, none, none⟩
def Hook.reset : Hook := ⟨.replicate 16 Hk.reset, [], .replicate 4 15, 0, false, none⟩
def Gal.reset : Gal :=
  { key := [], nm := none, sk := none, lastSeq := [], rx := [], hold := none, outP := none, outC := none, laneP := [], laneC := [], rdP := false, rdC := false, outT := 0, transit := [], ctlQ := [], syncQ := false,
    ev := .replicate 16 none, irqQ := [], respQ := [], evLvl := 0, req := [], tid := 0, kept := [], roster := [],
    pass := none, next := 0, join := none, free := false, complete := false, step3 := none, retryT := none, seen := false,
    gaveUp := false, ticks := 0, primT := 0, syncT := 0, lastErr := none, resetT := none }
def Irt.reset : Irt := ⟨[], none, none, [], none, 0, 0, none, []⟩
def HostPort.reset : HostPort := ⟨false, false, false, 0, [], none, 0, none, none, [], none, false, none, none⟩
def Rot.reset (n : Nat) : Rot := ⟨List.range n, 0, none, [], none, 0, none, 0, 0⟩
def Stc.reset : Stc := ⟨0, 0, [], [], 0, [], [], 0, 0, Rot.reset 128, Rot.reset 24, .replicate 5 0, []⟩
def TrustRec.blank : TrustRec := ⟨0, 0, 0, 0, List.replicate 4 []⟩
def Tru.reset : Tru := ⟨false, TrustRec.blank, none, none, none, none, false, none, 0⟩
def CanObj.reset : CanObj := ⟨0, 0, 0, 0, 0, List.replicate 64 0⟩
def Can.reset : Can := ⟨List.replicate 32 CanObj.reset, 0, 0, false, none, false⟩
def SentRx.reset : SentRx := ⟨none, [], 0, false⟩
def Por.reset : Por := ⟨[], [], [], [], [], [], [], false, true, 0, [], [], 0, false, none, []⟩

/-- The machine right after a power-on reset begins: every register at its reset value, the internal reset held (R49), NVS erased,
no command waiting. -/
def State.reset : State :=
  { pending := [], fclk := 4096, tb := 0, mtDue := 0, wrapDue := false, syncDue := false, tick10 := 0, corr := 0, slewT := 0, tbLog := [], rd := 0, freeCtr := 0, regs := [], marks := [],
    halls := [], hallErr := [], nvs := [], nvsErr := [], routes := [], pcr := Pcr.reset, wvl := Wvl.reset,
    inp := .replicate 12 ⟨false, 0⟩, trk := .replicate 4 Trk.reset, bcnOut := [], bcnIn := [], pins := PinMon.reset, stitch := .replicate 128 Stitch.reset, suPos := 0, suPath := [], suActs := [], suT := none, inj := Inj.reset,
    ndl := .replicate 16 Ndl.reset, ncl := ⟨2, 4096, 2048⟩, cht := Cht.reset, gau := Gau.reset, cmp := CmpBlk.reset, tmr := .replicate 16 Tmr.reset, tmrActs := [],
    hal := Hal.reset, hook := Hook.reset, gal := Gal.reset, irt := Irt.reset, host := HostPort.reset, stc := Stc.reset, tru := Tru.reset, can := .replicate 2 Can.reset, sent := .replicate 8 SentRx.reset, por := Por.reset }

end Sys2Proof.Machine
end

