-- ==== Sys2Proof/Machine/Operands.lean ====
section
/-! DEFINITION. Registers as operands: reading and setting a register and a field, the effect of a write by the access codes of
Table 0.3, and the image's limits on governed writes (R79, R80). -/

namespace Sys2Proof.Machine

/-- The word a register holds. -/
def State.reg (s : State) (a : Nat) : Word := cellGet resetOf s.regs a

/-- Set the word a register holds. -/
def State.setReg (s : State) (a : Nat) (v : Word) : State := { s with regs := cellPut resetOf s.regs a v }

/-- A field of a word. -/
def fldGet (f : Fld) (w : Word) : Nat := w.toNat / 2 ^ f.lo % 2 ^ f.len

/-- A word with a field replaced by the low bits of `v`. -/
def fldSet (f : Fld) (w : Word) (v : Nat) : Word :=
  BitVec.ofNat 20 (w.toNat / 2 ^ (f.lo + f.len) * 2 ^ (f.lo + f.len) + v % 2 ^ f.len * 2 ^ f.lo + w.toNat % 2 ^ f.lo)

/-- Read a field. -/
def State.get (s : State) (f : Fld) : Nat := fldGet f (s.reg f.addr)

/-- Set a field. -/
def State.set (s : State) (f : Fld) (v : Nat) : State := s.setReg f.addr (fldSet f (s.reg f.addr) v)

/-- A field that is not zero. -/
def State.bit (s : State) (f : Fld) : Bool := s.get f ≠ 0

/-- Set a one-bit field from a truth value. -/
def State.setB (s : State) (f : Fld) (b : Bool) : State := s.set f (b2n b)

/-- Count up a field that saturates at its largest value. -/
def State.inc (s : State) (f : Fld) : State := s.set f (satAdd (s.get f) 1 (2 ^ f.len - 1))

/-- Count up a field that wraps. -/
def State.incW (s : State) (f : Fld) : State := s.set f (s.get f + 1)

/-- Replace one bit of a field. -/
def State.setBitAt (s : State) (f : Fld) (i : Nat) (b : Bool) : State :=
  let x := s.get f
  s.set f (if bitOf x i = b then x else if b then x + 2 ^ i else x - 2 ^ i)

/-- Bitwise choice: the bits of `m` from `x`, the others from `y`. -/
def pick (m x y : Nat) : Nat := (x &&& m) ||| (y &&& (0xFFFFF ^^^ m))

/-- The mask of a field. -/
def fldMask (f : FieldRow) : Nat := (2 ^ f.len - 1) * 2 ^ f.lo

/-- The bits of the register at `a` that carry access code `acc`. -/
def accMask (a : Nat) (acc : Access) : Nat :=
  (fieldsOf a).foldl (fun m f => if f.acc = acc then m ||| fldMask f else m) 0

/-- No internal reset is held and the part is not in watch mode. -/
def State.running (s : State) : Bool := s.pcr.held.isNone && !s.pcr.watch

/-- An island is clocked and out of reset: PLLA serves the angle, needle and memory islands, PLLG the Gallery island; the
management island runs in watch mode too (Table 1.1, R53). -/
def State.islandUp (s : State) (i : Island) : Bool :=
  match i with
  | .angle | .needle | .memory => s.running && s.bit F.PCR_STAT.PLLA_LOCK
  | .gallery => s.running && s.bit F.PCR_STAT.PLLG_LOCK
  | .management | .safety => s.pcr.held.isNone

/-! ### Events and clears of one clock (R479) -/

/-- The island of a word address (Table 1.4); none for an address that no block holds. -/
def regIsland (a : Nat) : Option Island :=
  if a < 0x800 then some .management
  else if a < 0x1000 then some .memory
  else if a < 0x3400 then some .angle
  else if a < 0x4000 then some .memory
  else if a < 0x4400 then some .needle
  else if a < 0x4800 then none
  else if a < 0x4C00 then some .management
  else if a < 0x5000 then some .angle
  else if a < 0x6000 then some .memory
  else if a < 0x6400 then some .gallery
  else if a < 0x7000 then some .memory
  else if a < 0x7400 then some .management
  else if a < 0x8000 then some .memory
  else none

/-- The number of the NCLK in which FCLK `t` falls (R248). -/
def State.nclkAt (s : State) (t : Nat) : Nat := if t < s.ncl.f0 then s.ncl.n0 - 1 else s.ncl.n0 + (t - s.ncl.f0) / s.ncl.div

/-- NCLKDIV comes into force; the count goes on. -/
def State.nclkDiv (s : State) (d : Nat) : State := if d = s.ncl.div then s else { s with ncl := ⟨d, s.fclk, s.nclkAt s.fclk⟩ }

/-- The number of the clock of an island in which FCLK `t` falls (Table 1.1). -/
def State.clockNo (s : State) (i : Island) (t : Nat) : Nat :=
  match i with
  | .angle => t
  | .needle => s.nclkAt t
  | .memory => 3 * t / 4
  | .gallery => 5 * t / 8
  | .management => t / 16
  | .safety => t / 25

/-- FCLK `t` falls in the present clock of the island that owns register `a`. -/
def State.sameClock (s : State) (a t : Nat) : Bool :=
  match regIsland a with
  | some i => s.clockNo i t = s.clockNo i s.fclk
  | none => false

/-- What events have set in register `a` in the present clock of its island, if any (R479). -/
def State.markOf (s : State) (a : Nat) : Option Mark := s.marks.find? fun m => m.addr = a && s.sameClock a m.t

/-- The bits that events have set in register `a` in the present clock: a clear of the same clock leaves them set (R479). -/
def State.setNow (s : State) (a : Nat) : Nat := ((s.markOf a).map fun m => m.ev.toNat).getD 0

/-- Note what an event makes of register `a`: `f` is its effect on the word. -/
def State.mark (s : State) (a : Nat) (f : Word → Word) : State :=
  if s.islandUp .angle then
    let m := (s.markOf a).getD ⟨a, s.fclk, s.reg a, 0⟩
    { s with marks := { m with ev := f m.ev } :: s.marks.filter fun x => x.addr ≠ a }
  else s

/-- An event sets a one-bit flag that a write or a read clears. -/
def State.evt (s : State) (f : Fld) : State := (s.mark f.addr fun w => fldSet f w 1).set f 1

/-- An event sets one bit of a field of flags. -/
def State.evtAt (s : State) (f : Fld) (i : Nat) : State :=
  (s.mark f.addr fun w => fldSet f w (fldGet f w ||| 2 ^ i)).setBitAt f i true

/-- `k` events are counted in a field that a read clears; the count saturates. -/
def State.evtAdd (s : State) (f : Fld) (k : Nat) : State :=
  (s.mark f.addr fun w => fldSet f w (satAdd (fldGet f w) k (2 ^ f.len - 1))).set f (satAdd (s.get f) k (2 ^ f.len - 1))
def State.evtInc (s : State) (f : Fld) : State := s.evtAdd f 1

/-! ### Writes and reads by access codes -/

/-- Lifecycle stages (R391): BLANK 0, CLAIMED 1, LOCKED 2, RETIRED 3. -/
def State.life (s : State) : Nat := s.get F.TRU_STAT.LIFE

/-- The LIMIT entry of a register. -/
def State.limitOf (s : State) (a : Nat) : Option Limit := s.wvl.limits.find? (fun l => l.addr = a)

/-- The WL bits that a write of `v` may set (R79). WVL, recipes and the controllers of the part are not governed. Without an entry a
register keeps them in a LOCKED and in a RETIRED device (Table 18.1). -/
def State.wlAllow (s : State) (src : Master) (a v : Nat) : Nat :=
  match src with
  | .chart | .gauge | .stc | .wvl => 0xFFFFF
  | .host | .gallery | .hook _ | .needle _ =>
    match s.limitOf a with
    | none => if 2 ≤ s.life then 0 else 0xFFFFF
    | some l => if l.allow && decide (l.min ≤ v &&& l.mask) && decide (v &&& l.mask ≤ l.max) then l.mask else 0

/-- The bits of a WL register that a write reaches, and the word the write leaves, by Table 0.3: RW bits take the value, WL bits
where they are allowed, W1C bits are cleared where written 1 and no event of this clock set them (R479), all others stay. -/
def State.merged (s : State) (src : Master) (a old v : Nat) : Nat :=
  let wl := accMask a .wl &&& s.wlAllow src a v
  let clr := accMask a .w1c &&& v &&& (0xFFFFF ^^^ s.setNow a)
  pick (accMask a .rw ||| wl) v old &&& (0xFFFFF ^^^ clr)

/-- A write left a WL bit it tried to change at its old value (R80). -/
def State.wlBlocked (s : State) (src : Master) (a old v : Nat) : Bool :=
  ((old ^^^ v) &&& accMask a .wl) &&& (0xFFFFF ^^^ s.wlAllow src a v) ≠ 0

/-- Record a rejected governed write (R80). -/
def State.recordReject (s : State) (a : Nat) : State := (s.set F.WVL_WLREJ.ADDR a).evtInc F.WVL_WLREJ.COUNT

/-- A write by the access codes alone, with its rejection record. -/
def State.writeCodes (s : State) (src : Master) (a : Nat) (v : Word) : State :=
  let old := (s.reg a).toNat
  let s' := s.setReg a (BitVec.ofNat 20 (s.merged src a old v.toNat))
  if s.wlBlocked src a old v.toNat then s'.recordReject a else s'

/-- The bits of a written value that act on WL command fields: those the limits allow. -/
def State.wlActs (s : State) (src : Master) (a : Nat) (v : Word) : Nat := v.toNat &&& s.wlAllow src a v.toNat

/-- Clear the RC bits of a register, after a read of it (Table 0.3); what events of this clock added stays (R479). -/
def State.clearRC (s : State) (a : Nat) : State :=
  if accMask a .rc = 0 then s
  else s.setReg a (BitVec.ofNat 20 (pick (accMask a .rc) (s.setNow a) (s.reg a).toNat))

/-- A value read from register `a`, whose RC bits show what stood before the events of this clock (R479). -/
def State.rcShow (s : State) (a v : Nat) : Nat :=
  match s.markOf a with
  | some m => pick (accMask a .rc) m.was.toNat v
  | none => v

/-- What the access codes let a read return: WO bits and reserved bits read zero (R3, R4). -/
def readMask (a : Nat) : Nat :=
  (fieldsOf a).foldl (fun m f => if f.acc = .wo then m else m ||| fldMask f) 0

end Sys2Proof.Machine
end

