-- ==== Sys2Proof/Machine/Flags.lean ====
section
/-! DEFINITION. What units report with: interrupt sources (R380), Porter findings (R405), the flags and levels of the clocks and
resets that other units ask for, and event-line levels (R16). -/

namespace Sys2Proof.Machine

/-- What a meaning answers. -/
abbrev Out := Host.Outcome State Fault Refusal

/-- An item whose crossing fails its check has come, and is discarded (R10). -/
def State.lostMet (s : State) (x : LostItem) : State := { s with por := { s.por with lost := s.por.lost.erase x } }

/-- Raise interrupt source `k`: its COUNT increments; at 15 the raise is lost and counted (R380). A raise is a pulse: a stopped memory
island does not see it (R9), and one whose crossing fails its check is discarded (R10). -/
def State.raise (s : State) (k : Nat) : State :=
  if !s.islandUp .memory then s
  else if s.por.lost.contains (.irq k) then s.lostMet (.irq k)
  else if s.get (F.IRT_SRC.COUNT k) = 15 then s.evtInc F.IRT_STAT.LOST else s.incW (F.IRT_SRC.COUNT k)

/-- Raise a source when a condition holds. -/
def State.raiseIf (s : State) (c : Bool) (k : Nat) : State := if c then s.raise k else s

/-- A finding without an access: address 0, master 15, access 0 (R409). -/
def plainSig (src det : Nat) : FaultSig := ⟨src, det, 0, 15, 0⟩

/-- An occurrence of source `k` now falls within the latest excursion of its pair, or the fine time after it: 4 SOSC, which are 100 FCLK
(R405). -/
def State.sameExc (s : State) (k : Nat) : Bool := s.por.excT.any fun e => e.1 = k && decide (s.fclk < e.2 + 100)

/-- Report a single occurrence: the pair holds (1,0) until it is decided. One that falls within an excursion, or within the fine time after
it, is one event with it (R405). -/
def State.reportSig (s : State) (g : FaultSig) : State :=
  let on := s.sameExc g.src
  let waits := s.por.pulses.any fun p => p.src = g.src
  if on && waits then s
  else if on && s.islandUp .angle then
    { s with por := { s.por with pulses := s.por.pulses ++ [g], same := g.src :: s.por.same.filter fun k => k ≠ g.src } }
  else
    { s with por := { s.por with pulses := s.por.pulses ++ [g], excT := (g.src, s.fclk) :: s.por.excT.filter fun e => e.1 ≠ g.src } }

/-- Report a single occurrence with its detail code. -/
def State.report (s : State) (src det : Nat) : State := s.reportSig (plainSig src det)

/-- A standing condition begins: the pair holds (1,0) while it lasts (R405). -/
def State.standOn (s : State) (src det : Nat) : State :=
  if s.por.stand.any (fun p => p.src = src && p.det = det) then s
  else { s with por := { s.por with stand := s.por.stand ++ [plainSig src det] } }

/-- A standing condition ends; the pair returns to fine when no condition of the source lasts (R405). -/
def State.standOff (s : State) (src det : Nat) : State :=
  let st := s.por.stand.filter (fun p => !(p.src = src && p.det = det))
  let seen := if st.any (fun p => p.src = src) then s.por.seen else s.por.seen.filter (fun k => k ≠ src)
  { s with por := { s.por with stand := st, seen := seen } }

/-- A block is not held in block reset (bit positions of Table 3.9). -/
def State.blockFree (s : State) (b : Nat) : Bool := !bitOf (s.get F.PCR_BRSTAT) b

/-- The angle island runs and block `b` is not held. -/
def State.angleOk (s : State) (b : Nat) : Bool := s.islandUp .angle && s.blockFree b

/-- Safe state (R418). -/
def State.safe (s : State) : Bool := s.bit F.POR_STAT.SAFE

/-- The image is applied: until then, and from the beginning of a chip-level reset, the reset column of Table 2.2 governs (R30, R31). -/
def State.applied (s : State) : Bool := s.pcr.held.isNone && s.wvl.run.isSome

/-- Outputs take their safe levels: safe state, or watch mode (R19, R29, R34). -/
def State.safeLevels (s : State) : Bool := s.safe || s.pcr.watch

/-- The safe level of pin NPp: the one the bed sections of the image give, whatever became of the needle it serves; none is
high-impedance (R29). -/
def State.npSafe (s : State) (p : Nat) : Option Bool := (s.wvl.npSafe.find? fun e => e.1 = p).bind fun e =>
  match e.2 with | 0 => some false | 1 => some true | _ => none

/-- A stitch contributes a high level to its line in FCLK `f`: from its start, for the length of its pulse (R155). -/
def Stitch.highAt (t : Stitch) (f : Nat) : Bool := decide (t.startT ≤ f) && decide (f < t.endT)

/-- The level of event line `l` in FCLK `f`, for the present and the FCLK just before: high while at least one stitch routed to it is
within its pulse (R16). -/
def State.lineAt (s : State) (l f : Nat) : Bool := s.stitch.toList.any (fun t => t.highAt f && decide (t.lineNo = l))

/-- The level of event line `l` now. -/
def State.line (s : State) (l : Nat) : Bool := s.lineAt l s.fclk

/-- The line routed to a consumer (R174). -/
def State.route (s : State) (cls idx : Nat) : Option Nat :=
  (s.routes.find? (fun r => r.1 = 256 * cls + idx)).map (·.2)

/-- The level that a consumer in the angle island sees, one FCLK after the line (R17), and the level it saw before that. -/
def State.routedSeen (s : State) (cls idx : Nat) (back : Nat) : Bool :=
  match s.route cls idx with
  | some l => decide (1 + back ≤ s.fclk) && s.lineAt l (s.fclk - 1 - back)
  | none => false

/-- The level a consumer's routed line has now; low where nothing is routed. -/
def State.routedHigh (s : State) (cls idx : Nat) : Bool :=
  match s.route cls idx with
  | some l => s.line l
  | none => false

end Sys2Proof.Machine
end

