-- ==== Sys2Proof/Machine/Ops.lean ====
section
/-! DEFINITION. The shared operations over time and memory: TB and its ticks, the byte stores, little-endian words, and the free
values. -/

namespace Sys2Proof.Machine

/-- FCLK per MT tick (R13) and per SYNC frame (R359). -/
def mtPeriod : Nat := 1000000
def syncPeriod : Nat := 400000

/-- TB advances by `k` FCLK counts: reaching or passing a multiple of 1 000 000 makes an MT tick due, a multiple of 400 000 a SYNC
frame, and passing 2^60 - 1 a wrap, which is a tick (R13, R294, R359, R460). -/
def State.tbAdvance (s : State) (k : Nat) : State :=
  let t := s.tb.toNat + k
  let wrap := decide (2 ^ 60 ≤ t)
  { s with
    tb := BitVec.ofNat 60 t
    mtDue := if t / mtPeriod ≠ s.tb.toNat / mtPeriod || wrap then s.mtDue + 1 else s.mtDue
    syncDue := s.syncDue || decide (t / syncPeriod ≠ s.tb.toNat / syncPeriod)
    tick10 := if t / 4000 ≠ s.tb.toNat / 4000 || wrap then s.tick10 + 1 else s.tick10
    wrapDue := s.wrapDue || wrap }

/-- A change of TB in FCLK `t`, where counting would have given `v`, is noted for as long as an edge can be on its way through a filter. -/
def State.tbLogged (s : State) (t v : Nat) : List (Nat × Nat) := (s.tbLog.filter fun e => decide (t ≤ e.1 + 5000)) ++ [(t, v)]

/-- The value that TB had in FCLK `g`, at most 5000 FCLK ago. -/
def State.tbAt (s : State) (g : Nat) : Nat :=
  match s.tbLog.find? fun e => decide (g < e.1) with
  | some e => e.2 - (e.1 - g)
  | none => s.tb.toNat - (s.fclk - g)

/-- TB takes a value in one step: a forward step past a multiple of 1 000 000 gives one tick, a backward step none (R294). -/
def State.tbStep (s : State) (v : Nat) : State :=
  let t := v % 2 ^ 60
  { s with
    tb := BitVec.ofNat 60 t
    tbLog := s.tbLogged s.fclk s.tb.toNat
    mtDue := if s.tb.toNat / mtPeriod < t / mtPeriod then s.mtDue + 1 else s.mtDue
    tick10 := if s.tb.toNat / 4000 < t / 4000 then s.tick10 + 1 else s.tick10 }

/-- Commands that wait and happen in the present FCLK: one FCLK passes only on an empty queue and in TB_SLEW (assumption 3). -/
def State.waiting (s : State) : List Instr := s.pending.takeWhile fun c => match c with | .tbSlew _ => false | _ => true

/-- A completion waits in the present FCLK: a timeout that expires in the cycle of the completion it guards does not act (R462). -/
def State.comes (s : State) (p : Instr → Bool) : Bool := s.waiting.any p

/-- Read a byte of the halls. -/
def State.hallByte (s : State) (a : Nat) : Byte := cellGet hallDefault s.halls a

/-- Write a byte of the halls. -/
def State.setHallByte (s : State) (a : Nat) (b : Byte) : State := { s with halls := cellPut hallDefault s.halls a b }

/-- Write consecutive bytes of the halls. -/
def State.setHallBytes (s : State) : Nat → List Byte → State
  | _, [] => s
  | a, b :: t => (s.setHallByte a b).setHallBytes (a + 1) t

/-- Read `n` consecutive bytes of the halls. -/
def State.hallBytes (s : State) (a n : Nat) : List Byte := (List.range n).map (fun i => s.hallByte (a + i))

/-- Read a byte of NVS, at an offset from 0x0100_0000. -/
def State.nvByte (s : State) (a : Nat) : Byte := cellGet nvsDefault s.nvs a

/-- Write a byte of NVS. -/
def State.setNvByte (s : State) (a : Nat) (b : Byte) : State := { s with nvs := cellPut nvsDefault s.nvs a b }

/-- Write consecutive bytes of NVS. -/
def State.setNvBytes (s : State) : Nat → List Byte → State
  | _, [] => s
  | a, b :: t => (s.setNvByte a b).setNvBytes (a + 1) t

/-- Read `n` consecutive bytes of NVS. -/
def State.nvBytes (s : State) (a n : Nat) : List Byte := (List.range n).map (fun i => s.nvByte (a + i))

/-- Little-endian value of bytes. -/
def leNat : List Byte → Nat
  | [] => 0
  | b :: t => b.toNat + 256 * leNat t

/-- `n` little-endian bytes of a value. -/
def leBytes : Nat → Nat → List Byte
  | 0, _ => []
  | n + 1, v => BitVec.ofNat 8 v :: leBytes n (v / 256)

/-- A byte of a natural. -/
def byteOf (x : Nat) : Byte := BitVec.ofNat 8 x

/-- Big-endian value of bytes, and `n` big-endian bytes of a value. -/
def beNat (l : List Byte) : Nat := l.foldl (fun a b => 256 * a + b.toNat) 0
def beBytes (n v : Nat) : List Byte := (leBytes n v).reverse

/-- Bytes `o` to `o + n - 1` of a payload, zero past its end. -/
def slice (l : List Byte) (o n : Nat) : List Byte := ((l.drop o).take n)

/-- Little-endian field of a payload. -/
def leAt (l : List Byte) (o n : Nat) : Nat := leNat (slice l o n)

/-- Rounded quotient, half up, of a numerator that may be negative and a positive divisor. -/
def rndDiv (a : Int) (b : Nat) : Int := (2 * a + b) / (2 * (b : Int))

/-- Rounded quotient, half up, of naturals. -/
def rndDivN (a b : Nat) : Nat := (2 * a + b) / (2 * b)

/-- Saturation of an integer to a range. -/
def clampI (lo hi x : Int) : Int := if x < lo then lo else if hi < x then hi else x

/-- The next free 20-bit value (Config.freeWord), and the state with the counter behind it advanced. -/
def State.free (s : State) : Nat × State := ((Config.freeWord s.freeCtr).toNat, { s with freeCtr := s.freeCtr + 1 })

/-- `n` free bytes: what the spec says is drawn at random, or does not state. -/
def State.freeBytes (s : State) (n : Nat) : List Byte × State :=
  ((List.range n).map fun i => BitVec.ofNat 8 (Config.freeWord (s.freeCtr + i)).toNat, { s with freeCtr := s.freeCtr + n })

/-- Replace a tracker, stitch, bank, needle, timer by a function of it. -/
def State.updTrk (s : State) (n : Nat) (f : Trk → Trk) : State := { s with trk := vupd s.trk n f }
def State.getTrk (s : State) (n : Nat) : Trk := vget s.trk n Trk.reset
def State.getInp (s : State) (i : Nat) : InPin := vget s.inp i ⟨false, 0⟩
def State.updSt (s : State) (n : Nat) (f : Stitch → Stitch) : State := { s with stitch := vupd s.stitch n f }
def State.getSt (s : State) (n : Nat) : Stitch := vget s.stitch n Stitch.reset
def State.updBank (s : State) (b : Nat) (f : Bank → Bank) : State := { s with inj := { s.inj with bank := vupd s.inj.bank b f } }
def State.getBank (s : State) (b : Nat) : Bank := vget s.inj.bank b Bank.reset
def State.updNdl (s : State) (m : Nat) (f : Ndl → Ndl) : State := { s with ndl := vupd s.ndl m f }
def State.getNdl (s : State) (m : Nat) : Ndl := vget s.ndl m Ndl.reset
def State.updTmr (s : State) (n : Nat) (f : Tmr → Tmr) : State := { s with tmr := vupd s.tmr n f }
def State.getTmr (s : State) (n : Nat) : Tmr := vget s.tmr n Tmr.reset
def State.updHk (s : State) (c : Nat) (f : Hk → Hk) : State := { s with hook := { s.hook with ch := vupd s.hook.ch c f } }
def State.getHk (s : State) (c : Nat) : Hk := vget s.hook.ch c Hk.reset
def State.updCht (s : State) (f : Cht → Cht) : State := { s with cht := f s.cht }
def State.updGau (s : State) (f : Gau → Gau) : State := { s with gau := f s.gau }
def State.updHal (s : State) (f : Hal → Hal) : State := { s with hal := f s.hal }
def State.updPor (s : State) (f : Por → Por) : State := { s with por := f s.por }
def State.updPcr (s : State) (f : Pcr → Pcr) : State := { s with pcr := f s.pcr }
def State.updWvl (s : State) (f : Wvl → Wvl) : State := { s with wvl := f s.wvl }
def State.updGal (s : State) (f : Gal → Gal) : State := { s with gal := f s.gal }
def State.updIrt (s : State) (f : Irt → Irt) : State := { s with irt := f s.irt }
def State.updHost (s : State) (f : HostPort → HostPort) : State := { s with host := f s.host }
def State.updStc (s : State) (f : Stc → Stc) : State := { s with stc := f s.stc }
def State.updTru (s : State) (f : Tru → Tru) : State := { s with tru := f s.tru }
def State.updCan (s : State) (x : Nat) (f : Can → Can) : State := { s with can := vupd s.can x f }
def State.getCan (s : State) (x : Nat) : Can := vget s.can x Can.reset
def State.updSent (s : State) (r : Nat) (f : SentRx → SentRx) : State := { s with sent := vupd s.sent r f }
def State.getSent (s : State) (r : Nat) : SentRx := vget s.sent r SentRx.reset
def State.updCmp (s : State) (f : CmpBlk → CmpBlk) : State := { s with cmp := f s.cmp }

/-- Fold a state over a list. -/
def State.each {α : Type} (s : State) (l : List α) (f : State → α → State) : State := l.foldl f s

end Sys2Proof.Machine
end

