-- ==== Sys2Proof/Machine/Stitches.lean ====
section
/-! DEFINITION. Stitches: events planned in angle (R153 to R178). -/

namespace Sys2Proof.Machine

/-! ### What a stitch needs of its tracker -/

/-- The angle word, the state and the cycle length L of a tracker (R102, R123). -/
def State.word (s : State) (t : Nat) : Nat := s.get (F.STAIR_ANGLE t)
def State.trkState (s : State) (t : Nat) : Nat := s.get (F.STAIR_STAT.STATE t)
def State.cycLen (s : State) (t : Nat) : Nat := s.get (F.STAIR_LEN t) + 1

/-- Tpred of the running interval (R136). -/
def State.tpred (s : State) (t : Nat) : Nat := s.get (F.STAIR_TPRED_LO t) + 2 ^ 20 * s.get (F.STAIR_TPRED_HI t)

/-- Entries in use, and the span of entry `k`, in sixteenths of a pitch (R101). -/
def State.nTeeth (s : State) (t : Nat) : Nat := s.get (F.STAIR_GEOM.NTM1 t) + 1
def State.span (s : State) (t k : Nat) : Nat := s.get (F.STAIR_TTA.SPAN t k)

/-- Treads of interval `k` (R131): TPT × SPAN / 16, or BSTEP on a remote tracker. -/
def State.treadsOf (s : State) (t k : Nat) : Nat :=
  if s.get (F.STAIR_CFG.ROLE t) = 3 then 2 ^ s.get (F.STAIR_RCFG.BSTEPLOG t)
  else 2 ^ (s.getTrk t).tptLog * s.span t (k % s.nTeeth t) / 16

/-- Treads of the intervals `j` to `j + lead` together (R160). -/
def State.armReach (s : State) (t j : Nat) : Nat → Nat
  | 0 => s.treadsOf t j
  | l + 1 => s.armReach t j l + s.treadsOf t (j + l + 1)

/-- (a - b) modulo L. -/
def subMod (a b l : Nat) : Nat := (a + (l - b % l)) % l

/-- The least whole number not below a / b. -/
def ceilDiv (a b : Nat) : Nat := (a + (b - 1)) / b

/-- Time since the interval began: FCLK since acceptance, or TB since the beacon's stamp (R133, R147). -/
def State.elapsed (s : State) (n : Nat) : Nat :=
  let now := if s.get (F.STAIR_CFG.ROLE n) = 3 then s.tb.toNat else s.fclk
  now - (s.getTrk n).accT

/-! ### Parameter sets (R153, R165, R166) -/

/-- Word `i` of a set. -/
def PSet.word (p : PSet) (i : Nat) : Nat :=
  match i with
  | 0 => p.w0 | 1 => p.w1 | 2 => p.w2 | 3 => p.w3 | 4 => p.w4 | _ => p.w5

/-- Replace word `i` of a set. -/
def PSet.setWord (p : PSet) (i v : Nat) : PSet :=
  match i with
  | 0 => { p with w0 := v } | 1 => { p with w1 := v } | 2 => { p with w2 := v }
  | 3 => { p with w3 := v } | 4 => { p with w4 := v } | _ => { p with w5 := v }

/-- The active and the shadow set of stitch `n`. -/
def State.activeSet (s : State) (n : Nat) : PSet :=
  if s.bit (F.STITCH_STATUS.ACTSET n) then (s.getSt n).setB else (s.getSt n).setA
def State.shadowSet (s : State) (n : Nat) : PSet :=
  if s.bit (F.STITCH_STATUS.ACTSET n) then (s.getSt n).setA else (s.getSt n).setB

/-- Fields of W0 and W3 of a set (Table 7.12). -/
def PSet.en (p : PSet) : Bool := bitOf p.w0 0
def PSet.line (p : PSet) : Nat := p.w0 / 2 % 64
def PSet.once (p : PSet) : Bool := bitOf p.w0 7
def PSet.policy (p : PSet) : Nat := p.w0 / 256 % 4
def PSet.runOn (p : PSet) : Bool := bitOf p.w0 10
def PSet.clmin (p : PSet) : Bool := bitOf p.w0 11
def PSet.clmax (p : PSet) : Bool := bitOf p.w0 12
def PSet.irq (p : PSet) : Nat := p.w0 / 8192 % 4
def PSet.tscale (p : PSet) : Nat := min (p.w3 % 8) 6
def PSet.armLead (p : PSet) : Nat := p.w3 / 8 % 8
def PSet.guard (p : PSet) : Nat := p.w3 / 64 % 256
/-- The pulse length D := DUR × 2^TSCALE (R155). -/
def PSet.len (p : PSet) : Nat := p.w2 * 2 ^ p.tscale

/-- LATE_WINDOW := floor(L × GUARD / 256), GUARD 0 acting as 64 and above 128 as 128 (R161). -/
def lateWindow (l guard : Nat) : Nat := l * (if guard = 0 then 64 else min guard 128) / 256

/-- IRQ selection of the occurrence under way, else of the active set (R160, R175). -/
def State.stIrq (s : State) (n : Nat) : Nat :=
  match (s.getSt n).fz with
  | some f => f.irq
  | none => (s.activeSet n).irq

/-- The line and the IRQ of stitch `n` that a check failure concerns: those of the occurrence under way, of one that ended within the
17 FCLK in which the check finds it, else of the active set (R160, R173). -/
def State.stChecked (s : State) (n : Nat) : Nat × Nat :=
  match (s.getSt n).fz, (s.getSt n).ended with
  | some f, _ => (f.line, f.irq)
  | none, some e => if s.fclk ≤ e.1 + 17 then e.2 else ((s.activeSet n).line, (s.activeSet n).irq)
  | none, none => ((s.activeSet n).line, (s.activeSet n).irq)

/-- A write reaches word `w` of the shadow set; a commit that stands is withdrawn (R165). -/
def State.stSetShadow (s : State) (n w v : Nat) : State :=
  let b := s.bit (F.STITCH_STATUS.ACTSET n)
  (s.updSt n fun t => if b then { t with setA := t.setA.setWord w v } else { t with setB := t.setB.setWord w v }).set
    (F.STITCH_STATUS.PEND n) 0

/-- A commit sets PEND; one that arrives in the FCLK of a hand-over has missed it (R166, R167). -/
def State.stCommit (s : State) (n : Nat) : State :=
  if s.bit (F.STITCH_STATUS.PEND n) then s
  else
    let s := s.set (F.STITCH_STATUS.PEND n) 1
    if (s.getSt n).hoT = some s.fclk then
      (s.evt (F.STITCH_STATUS.COMMIT_LATE n)).raiseIf (s.stIrq n = 3) (80 + n)
    else s

/-! ### Ends, starts and late starts -/

/-- An occurrence ends with result `res`: RESULT, flags, OCC, the interrupt of R175, and the next state of Table 7.1 (or `nxt`). -/
def State.stFinish (s : State) (n res : Nat) (nxt : Option Nat) : State :=
  let t := s.getSt n
  let a := s.activeSet n
  let q := s.stIrq n
  let st := match nxt with
    | some x => x
    | none =>
      if !a.en then 0
      else if a.once then (if t.newSet then 1 else 5)
      else if t.planSeen then 1 else 4
  let s := s.set (F.STITCH_STATUS.RESULT n) res
  let s := s.setB (F.STITCH_STATUS.MISSED n) t.oMissed
  let s := s.setB (F.STITCH_STATUS.JUMPED n) t.oJumped
  let s := s.setB (F.STITCH_STATUS.CLAMPED n) t.oClamped
  let s := s.incW (F.STITCH_STATUS.OCC n)
  let s := s.set (F.STITCH_STATUS.STATE n) st
  let now := s.fclk
  let e := match t.fz with
    | some f => some (now, f.line, f.irq)
    | none => t.ended
  let s := s.updSt n fun t =>
    { t with fz := none, ended := e, endT := min t.endT now, timS := none, timE := none, crS := false, crE := false, planSeen := false,
             newSet := false, oMissed := false, oJumped := false, oClamped := false, fresh := st = 1, accScan := false }
  s.raiseIf (q = 2 || (q = 3 && res ≠ 1)) (80 + n)

/-- Edge timers loaded (R171). -/
def State.timersBusy (s : State) : Nat :=
  s.stitch.toList.foldl (fun k t => k + b2n t.timS.isSome + b2n t.timE.isSome) 0

/-- An edge finds all 24 timers busy (R172). -/
def State.stCrowd (s : State) (n : Nat) : State :=
  let s := s.evt (F.STITCH_STATUS.CROWD n)
  let s := s.evt F.SU_STAT.CROWD
  let s := (s.set F.SU_CROWD.LAST n).evtInc F.SU_CROWD.COUNT
  (s.report 17 n).raiseIf (s.stIrq n = 3) (80 + n)

/-- The FCLK in which the word of tracker `trk` will take `st`: under R133 or R147 the first FCLK whose W(e) reaches it, in a catch-up
the first whose V(e) does, and at most one tread in an FCLK (R132, R145). -/
def State.takesAt (s : State) (trk st : Nat) : Nat :=
  let t := s.getTrk trk
  let l := s.cycLen trk
  let p := s.tpred trk
  let w := s.fclk + ceilDiv (subMod st t.base l * p) t.n - s.elapsed trk
  let v := match t.catchC with
    | some c => max (t.catchT + ceilDiv (subMod st c l * p) (4 * t.n)) (if subMod st c l < subMod t.base c l then 0 else w)
    | none => w
  max v (s.fclk + subMod st (s.word trk) l)

/-- Load the start edge of a stitch on tracker `trk` with start `st` (R171), or crowd it. -/
def State.stLoadStart (s : State) (n trk st : Nat) : State :=
  let t := s.getSt n
  if t.timS.isSome || t.crS then s
  else if s.timersBusy < 24 then
    let f := s.takesAt trk st
    s.updSt n fun t => { t with timS := some f }
  else (s.updSt n fun t => { t with crS := true }).stCrowd n

/-- Load the end edge, or crowd it. -/
def State.stLoadEnd (s : State) (n : Nat) : State :=
  let t := s.getSt n
  if t.timE.isSome || t.crE || t.endT ≤ t.startT then s
  else if s.timersBusy < 24 then s.updSt n fun t => { t with timE := some t.endT }
  else (s.updSt n fun t => { t with crE := true }).stCrowd n

/-- The end of a running pulse falls before the predicted acceptance of the next tooth (R171). -/
def State.stEndSoon (s : State) (n trk : Nat) : Bool :=
  decide ((s.getSt n).endT < (s.getTrk trk).accF + s.tpred trk)

/-- A stitch starts now with a pulse of `d` ticks: W7, the line, the interrupt of R175, and its end loaded when it is near. The pulse
lasts `d` FCLK (R155), and a correction of TB moves neither path's end (DEDUCED, assumption 68). -/
def State.stBegin (s : State) (n trk res d : Nat) : State :=
  let q := s.stIrq n
  let s := s.set (F.STITCH_STATUS.STATE n) 3
  let s := s.set (F.STITCH_LAST n) s.tb.toNat
  let b := s.fclk
  let e := s.fclk + d
  let l := match (s.getSt n).fz with | some f => f.line | none => (s.activeSet n).line
  let s := s.updSt n fun t => { t with startT := b, endT := e, lineNo := l, res := res, timS := none, crS := false }
  let s := s.raiseIf (q = 1) (80 + n)
  if s.stEndSoon n trk then s.stLoadEnd n else s

/-- A late start, `lam` treads late, under the frozen policy (R163). -/
def State.stLate (s : State) (n trk lam : Nat) : State :=
  match (s.getSt n).fz with
  | none => s
  | some f =>
    let tau := rndDivN (lam * s.tpred trk) (s.getTrk trk).n
    if f.pol = 0 then s.stBegin n trk 2 f.d
    else if f.pol = 1 then if tau < f.d then s.stBegin n trk 3 (f.d - tau) else s.stFinish n 4 none
    else s.stFinish n 4 none

/-! ### Scans (R158 to R161, R171) -/

/-- The start of a waiting stitch, before and after the clamps of R159. -/
def State.stStart (s : State) (n trk : Nat) : Nat :=
  let a := s.activeSet n
  subMod a.w1 (rndDivN (a.len * (s.getTrk trk).n) (s.tpred trk)) (s.cycLen trk)
/-- The start after the clamps, and whether one of them changed it. -/
def State.stClamped (s : State) (n trk : Nat) : Nat × Bool :=
  let a := s.activeSet n
  let l := s.cycLen trk
  let p := s.get (F.SU_PLAN n)
  let s0 := s.stStart n trk
  let lo := a.clmin && decide (subMod s0 p l < subMod a.w4 p l)
  let s1 := if lo then a.w4 else s0
  let hi := a.clmax && decide (subMod a.w5 p l < subMod s1 p l)
  (if hi then a.w5 else s1, lo || hi)

/-- The start edge of an armed stitch lies after the word and at or before the last tread of the running interval (R171); in a catch-up the
word is still before the interval (R145). -/
def State.stStartNear (s : State) (trk st : Nat) : Bool :=
  let l := s.cycLen trk
  let t := s.getTrk trk
  let c := s.word trk
  let last := subMod t.base c l + (t.n - 1)
  if t.catchC.isSome then decide (0 < subMod st c l) && decide (subMod st c l ≤ last)
  else decide (subMod c t.base l < subMod st t.base l) && decide (subMod st t.base l ≤ t.n - 1)

/-- Arming with start `st`: the set is frozen, and the start test of R161 is made on the word of this FCLK. -/
def State.stArm (s : State) (n trk st : Nat) : State :=
  let a := s.activeSet n
  let l := s.cycLen trk
  let c := s.word trk
  let p := s.get (F.SU_PLAN n)
  let s := s.updSt n fun t =>
    { t with fz := some ⟨st, a.len, s.tpred trk, (s.getTrk trk).n, a.line, a.policy, a.runOn, a.irq, a.guard⟩,
             oMissed := false, oJumped := false, planSeen := false, newSet := false }
  let s := s.set (F.STITCH_STATUS.STATE n) 2
  if decide (subMod c st l < lateWindow l a.guard) && decide (subMod st p l ≤ subMod c p l) then
    if st % l = c then s.stBegin n trk 1 a.len else s.stLate n trk (subMod c st l)
  else if s.stStartNear trk st then s.stLoadStart n trk st else s

/-- The scan of one stitch. -/
def State.stScan (s : State) (n : Nat) : State :=
  if !s.bit (F.SU_ALLOC.EN n) then s
  else
    let trk := s.get (F.SU_ALLOC.TRK n)
    let t := s.getSt n
    let s := s.updSt n fun t => { t with accScan := false, fresh := false }
    if s.trkState trk ≠ 2 then s
    else
      match s.get (F.STITCH_STATUS.STATE n) with
      | 1 =>
        if t.accScan || t.fresh then
          let st := (s.stClamped n trk).1
          let hit := (s.stClamped n trk).2
          let s := s.updSt n fun t => { t with oClamped := hit }
          if subMod st (s.getTrk trk).base (s.cycLen trk) < s.armReach trk (s.get (F.STAIR_STAT.TIDX trk)) (s.activeSet n).armLead
          then s.stArm n trk st
          else s
        else s
      | 2 =>
        match t.fz with
        | some f => if t.accScan && s.stStartNear trk f.s then s.stLoadStart n trk f.s else s
        | none => s
      | 3 =>
        if (t.accScan && s.stEndSoon n trk) || (s.bit (F.STAIR_ISTAT.HALT trk) && decide (t.endT ≤ s.fclk + 4096))
        then s.stLoadEnd n else s
      | _ => s

/-! ### Plan points, the word, and tracker events -/

/-- The plan point of stitch `n` is reached: hand-over, and the transitions of Table 7.1 (R157, R166). -/
def State.stPlan (s : State) (n : Nat) : State :=
  let pend := s.bit (F.STITCH_STATUS.PEND n)
  let s :=
    if pend then
      let sh := s.shadowSet n
      let b := s.bit (F.STITCH_STATUS.ACTSET n)
      let s := s.updSt n fun t => if b then { t with setB := sh } else { t with setA := sh }
      (s.setB (F.STITCH_STATUS.ACTSET n) !b).set (F.STITCH_STATUS.PEND n) 0
    else s
  let f := s.fclk
  let s := s.updSt n fun t => { t with hoT := some f }
  let a := s.activeSet n
  let st := s.get (F.STITCH_STATUS.STATE n)
  if st = 2 || st = 3 then s.updSt n fun t => { t with planSeen := true, newSet := t.newSet || (pend && a.en) }
  else if !a.en then (s.set (F.STITCH_STATUS.STATE n) 0)
  else if st = 5 && !pend then s
  else (s.set (F.STITCH_STATUS.STATE n) 1).updSt n fun t => { t with fresh := true }

/-- Stitches allocated to tracker `t`. -/
def State.stitchesOf (s : State) (t : Nat) : List Nat :=
  (List.range 128).filter (fun n => s.bit (F.SU_ALLOC.EN n) && s.get (F.SU_ALLOC.TRK n) = t)

/-- How the word moved: an ordinary step, or a forward jump of Table 6.2 over missed or early values. -/
inductive Move where
  | step | missed | early
deriving DecidableEq, Repr

/-- Starts and late starts of armed stitches when the word of tracker `t` moves from `old` to `new` (R162). -/
def State.stMoveStart (s : State) (t old new : Nat) (mv : Move) (n : Nat) : State :=
  match (s.getSt n).fz with
  | none => s
  | some f =>
    if s.get (F.STITCH_STATUS.STATE n) ≠ 2 then s
    else
      let l := s.cycLen t
      let o := subMod f.s old l
      let d := subMod new old l
      if o = 0 || d < o then s
      else if o = d then s.stBegin n t 1 f.d
      else
        let s := s.updSt n fun t => match mv with
          | .missed => { t with oMissed := true }
          | .early => { t with oJumped := true }
          | .step => t
        s.stLate n t (subMod new f.s l)

/-- Plan points passed or reached by that move (R157). -/
def State.stMovePlan (s : State) (t old new : Nat) (n : Nat) : State :=
  let l := s.cycLen t
  let o := subMod (s.get (F.SU_PLAN n)) old l
  if o = 0 || subMod new old l < o then s else s.stPlan n

/-- The stitch unit takes a new word of tracker `t`, in the order of R167: starts, then hand-overs. Stitches act only in CYCLE_SYNC,
and not while the unit is held in reset (R154, R58). -/
def State.stWord (s : State) (t old new : Nat) (mv : Move) : State :=
  if s.trkState t ≠ 2 || !s.blockFree 4 then s
  else
    let l := s.stitchesOf t
    let s := s.each l (fun s n => s.stMoveStart t old new mv n)
    s.each l (fun s n => s.stMovePlan t old new n)

/-- The tracker's entry to CYCLE_SYNC counts as reaching every plan point (R157). -/
def State.stEntry (s : State) (t : Nat) : State :=
  if s.blockFree 4 then s.each (s.stitchesOf t) State.stPlan else s

/-- A tooth of tracker `t` is accepted: the pass under way is abandoned and a new one begins in the next FCLK, its stitches owe an
acceptance scan, and start timers are freed to be loaded again (R158, R171). -/
def State.stTooth (s : State) (t : Nat) : State :=
  if s.blockFree 4 then
    { s.each (s.stitchesOf t) (fun s n => s.updSt n fun t => { t with accScan := true, timS := none, crS := false }) with
      suPos := 0, suT := some s.fclk }
  else s

/-- Tracker events with stitches in flight (Table 7.5). -/
inductive TrkEvent where
  | stall | lost | reverse
deriving DecidableEq, Repr

/-- One stitch on a tracker event. -/
def State.stOnEvent (s : State) (e : TrkEvent) (n : Nat) : State :=
  match s.get (F.STITCH_STATUS.STATE n), (s.getSt n).fz with
  | 2, some _ => s.stFinish n (match e with | .stall => 5 | .lost => 8 | .reverse => 7) none
  | 3, some f =>
    match e with
    | .reverse => s.stFinish n 7 none
    | .stall => if f.runOn then s else s.stFinish n 6 none
    | .lost => if f.runOn then s else s.stFinish n 8 none
  | _, _ => s

/-- The stitches of tracker `t` on an event of Table 7.5 (R168). -/
def State.stEvent (s : State) (t : Nat) (e : TrkEvent) : State := s.each (s.stitchesOf t) (fun s n => s.stOnEvent e n)

/-- The timer path and the compare path of a stitch disagree (R173). -/
def State.stCheck (s : State) (chk : Option (Fin 128)) : State :=
  match chk with
  | none => s
  | some n =>
    let c := s.stChecked n
    let s := (s.evt (F.STITCH_STATUS.CHKERR n)).evt F.SU_STAT.CHKERR
    let s := ((s.set F.SU_CHK.STITCH n).set F.SU_CHK.LINE c.1).evtInc F.SU_CHK.COUNT
    (s.report 16 n).raiseIf (c.2 = 3) (80 + n)

/-- SU_CANCEL of stitch `n` (R169). -/
def State.stCancel (s : State) (n : Nat) : State :=
  match s.get (F.STITCH_STATUS.STATE n) with
  | 1 => s.stFinish n 9 (some (if (s.activeSet n).once then 5 else 4))
  | 2 => s.stFinish n 9 none
  | 3 => s.stFinish n 9 none
  | _ => s

/-- A write of word `w` of stitch `n`'s shadow set by a master: governed in W0, ignored for an unallocated stitch, and giving way to
a recipe write of the same word in the same FCLK (R165, R176, R178). -/
def State.stParamWrite (s : State) (n w : Nat) (src : Master) (v : Word) : State :=
  if !s.bit (F.SU_ALLOC.EN n) then s
  else
    let a := 0x2400 + 8 * n + w
    let old := (s.shadowSet n).word w
    let new := match (s.getSt n).rcpW with
      | some (f, m) => if f = s.fclk && bitOf m w then old else s.merged src a old v.toNat
      | none => s.merged src a old v.toNat
    let blk := s.wlBlocked src a old v.toNat
    let s := s.stSetShadow n w new
    if blk then s.recordReject a else s

/-- An item of the path from the chart engine applies (R167, R218). -/
def State.stItem (s : State) (i : SuItem) : State :=
  match i with
  | .write n w v =>
    let n := n % 128
    if !s.bit (F.SU_ALLOC.EN n) then s
    else
      let f := s.fclk
      let m := match (s.getSt n).rcpW with
        | some (f', m) => if f' = f then m else 0
        | none => 0
      (s.stSetShadow n w (v &&& (accMask (0x2400 + 8 * n + w) .rw ||| accMask (0x2400 + 8 * n + w) .wl))).updSt n fun t => { t with rcpW := some (f, m ||| 2 ^ w) }
  | .commit n => s.stCommit (n % 128)

/-- The pass scans its next eight stitches, one group in an FCLK, and none in the FCLK in which a pass is abandoned (R158). -/
def State.suScan (s : State) (chk : Option (Fin 128)) : State :=
  if s.suT = some s.fclk then s.stCheck chk
  else
    let k := s.suPos % 16
    let s := s.each (List.range 8) (fun s i => s.stScan (8 * k + i))
    ({ s with suPos := (k + 1) % 16, suT := some s.fclk } : State).stCheck chk

/-! ### The order of one FCLK (R167) -/

/-- The step of R167 that something belongs to. A cancel is a write (R169). -/
def SuAct.phase (a : SuAct) : Nat :=
  match a with
  | .write _ _ _ _ => 4
  | .item (.write _ _ _) => 4
  | .cancel _ => 4
  | .item (.commit _) => 5
  | .commit _ => 5
  | .scan _ => 6

/-- The step of R167 to which a command still to be handled in this FCLK belongs: 1 where it may move a word, 0 where it is no concern
of the stitch unit's. -/
def suPhase (c : Instr) : Nat :=
  match c with
  | .wheelEdge _ _ _ _ => 1
  | .beaconReceive _ => 1
  | .treadStep _ _ => 1
  | .stitchParamWrite _ _ _ _ => 4
  | .stitchCancel _ => 4
  | .stitchItemArrive => 4
  | .stitchCommit _ => 5
  | .registerWrite _ a _ =>
    if decide (0x2400 ≤ a.toNat) && decide (a.toNat < 0x2800) || a.toNat = R.SU_CANCEL then 4 else if a.toNat = R.SU_COMMIT then 5 else 0
  | _ => 0

/-- Nothing of a step before step `k` is still to come in this FCLK. -/
def State.suReady (s : State) (k : Nat) : Bool := s.waiting.all fun c => suPhase c = 0 || decide (k ≤ suPhase c)

/-- What arrives acts. -/
def State.suDo (s : State) (a : SuAct) : State :=
  match a with
  | .write n w src v => s.stParamWrite n w src v
  | .item i => s.stItem i
  | .cancel n => s.stCancel n
  | .commit n => s.stCommit n
  | .scan chk => s.suScan chk

/-- It acts at once, or when the steps of R167 before its own have been made. -/
def State.suAct (s : State) (a : SuAct) : State := if s.suReady a.phase then s.suDo a else { s with suActs := s.suActs ++ [a] }

/-- What waited for step `k` acts when that step has come. -/
def State.suStep (s : State) (k : Nat) : State :=
  if s.suReady k then ({ s with suActs := s.suActs.filter fun a => a.phase ≠ k } : State).each (s.suActs.filter fun a => a.phase = k) State.suDo
  else s

/-- After a command of an earlier step: what waited for it follows, in the order of R167. -/
def State.suFlush (s : State) : State := if s.suActs.isEmpty then s else ((s.suStep 4).suStep 5).suStep 6

/-! ### The commands -/

/-- STITCH_SCAN (R158). -/
def execStitchScan (chk : Option (Fin 128)) (s : State) : Out := .next (if s.angleOk 4 then s.suAct (.scan chk) else s)

/-- STITCH_PULSE_END: a running pulse reaches the end of its duration (R155). -/
def execStitchPulseEnd (n : Fin 128) (chk : Option (Fin 128)) (s : State) : Out :=
  .next <|
    if s.angleOk 4 && s.get (F.STITCH_STATUS.STATE n) = 3 && decide ((s.getSt n).endT ≤ s.fclk) then
      (s.stFinish n (s.getSt n).res none).stCheck chk
    else s

/-- STITCH_COMMIT: a write of `n` to SU_COMMIT (R166). -/
def execStitchCommit (n : Fin 128) (s : State) : Out := .next (if s.angleOk 4 then (s.suAct (.commit n)).suFlush else s)

/-- STITCH_CANCEL: a write to SU_CANCEL with KEY 0x3C (R169). -/
def execStitchCancel (n : Fin 128) (s : State) : Out := .next (if s.angleOk 4 then (s.suAct (.cancel n)).suFlush else s)

/-- STITCH_PARAM_WRITE: a write of W0 to W5 (R165). -/
def execStitchParamWrite (n : Fin 128) (w : Fin 6) (src : Master) (v : Word) (s : State) : Out :=
  .next (if s.angleOk 4 then (s.suAct (.write n w src v)).suFlush else s)

/-- STITCH_ITEM_ARRIVE: the next item from the chart engine reaches the stitch unit; one that arrives under block reset is discarded
(R167, R220). -/
def execStitchItemArrive (s : State) : Out :=
  .next <|
    if s.islandUp .angle then
      match s.suPath with
      | [] => s
      | i :: t =>
        let s : State := { s with suPath := t }
        if s.blockFree 4 then (s.suAct (.item i)).suFlush else s
    else s

end Sys2Proof.Machine
end

