-- ==== Sys2Proof/Machine/Inj.lean ====
section
/-! DEFINITION. Injector channels: pulse slots, bank windows, load diagnostics, opening point, end of injection (R179 to R192, R194
to R198). -/

namespace Sys2Proof.Machine

/-! ### Gates (R180, R185) -/

/-- The outputs of the bank needles that bed 3 binds (Table 8.5). -/
def reqBST : Nat := 0
def reqBAT : Nat := 1
def reqLSD : Nat := 2

/-- The level of request `i` of bank `b`'s needle: some output binding of class 4 and that index holds a 1 (Tables 8.5, 11.5). -/
def State.bankReq (s : State) (b i : Nat) : Bool :=
  (List.range 8).any fun k =>
    s.get (F.BED_BIND.CLASS (12 + b) (8 + k)) = 4 && s.get (F.BED_BIND.INDEX (12 + b) (8 + k)) = i
      && bitOf (s.getNdl (12 + b)).pin k

/-- Gate lockout is active (R47). -/
def State.lockout (s : State) : Bool := s.bit F.PCR_VSTAT.LOCKOUT

/-- A window of bank `b` is open and no lockout, safe state or block reset holds its gates off. -/
def State.bankLive (s : State) (b : Nat) : Bool :=
  s.bit (F.INJ_BSTAT.BUSY b) && !s.lockout && !s.safe && s.blockFree 5

/-- The three kinds of gate (Table 8.2). With the needle not running at the opening, no high-side gate conducts (R190). -/
def State.gateINJ (s : State) (n : Nat) : Bool :=
  s.bankLive (n / 4) && s.get (F.INJ_BSTAT.CONDINJ (n / 4)) = n % 4 && !s.bankReq (n / 4) reqLSD
def State.gateBST (s : State) (b : Nat) : Bool := s.bankLive b && !(s.getBank b).ndlOff && s.bankReq b reqBST
def State.gateBAT (s : State) (b : Nat) : Bool :=
  s.bankLive b && !(s.getBank b).ndlOff && s.bankReq b reqBAT && !s.bankReq b reqBST

/-! ### Flags, cuts and closes -/

/-- A flag of INJ_STATn is set, and its source raised (R196). -/
def State.injFlag (s : State) (n : Nat) (f : Fld) : State := (s.evt f).raise (208 + n)

/-- The injector whose window is, or was last, open in bank `b`. -/
def State.condInj (s : State) (b : Nat) : Nat := 4 * b + s.get (F.INJ_BSTAT.CONDINJ b)

/-- Set or clear a bit of the slots seen and refused. -/
def State.slotSeen (s : State) (k : Nat) : Bool := bitOf s.inj.seen k
def State.slotRefused (s : State) (k : Nat) : Bool := bitOf s.inj.refused k
def setBitN (x k : Nat) (b : Bool) : Nat := if bitOf x k = b then x else if b then x + 2 ^ k else x - 2 ^ k
def State.setSeen (s : State) (k : Nat) (b : Bool) : State := { s with inj := { s.inj with seen := setBitN s.inj.seen k b } }
def State.setRefused (s : State) (k : Nat) (b : Bool) : State :=
  { s with inj := { s.inj with refused := setBitN s.inj.refused k b } }

/-- The window of bank `b` closes: the measurements of the pulse are taken, the bank drains, and EOI observation starts (R182, R188,
R191, R192). -/
def State.bankClose (s : State) (b : Nat) : State :=
  let n := s.condInj b
  let k := s.getBank b
  let f := s.fclk
  let s := s.set (F.INJ_RISE n) (match k.rise with | some r => min r 0xFFFFE | none => 0xFFFFF)
  let s := (s.set (F.INJ_OPEN n) (min (k.opened.getD 0) 0xFFFFF)).setB (F.INJ_STAT.OPOK n) k.opened.isSome
  let s := (s.set (F.INJ_BSTAT.BUSY b) 0).set (F.INJ_BSTAT.DRAIN b) 1
  let eoi := s.bit (F.INJ_BCFG.EOIEN b)
  let s := if eoi then
      (((s.set (F.INJ_EOIF n) 0xFFFFF).set (F.INJ_EOIL n) 0xFFFFF).set (F.INJ_STAT.EOIN n) 0).set (F.INJ_STAT.EOIOK n) 0
    else s
  let lvl := bitOf (s.get (F.CMP_OUT ((16 + 2 * b) / 20))) ((16 + 2 * b) % 20)
  s.updBank b fun k =>
    { k with offT := f, h1done := false, bat := false, batOn := none, eoi := if eoi then some (n, f) else none, eoiLvl := lvl }

/-- A cut of bank `b` with its cause (R189): the slot stays refused until its line falls. Nothing without an open window. -/
def State.bankCut (s : State) (b cause : Nat) : State :=
  if s.bit (F.INJ_BSTAT.BUSY b) then
    let n := s.condInj b
    let k := 8 * n + s.get (F.INJ_BSTAT.CONDSLOT b)
    (((s.bankClose b).setRefused k true).set (F.INJ_BSTAT.CUTCAUSE b) cause).injFlag n (F.INJ_STAT.CUT n)
  else s

/-- Lockout and safe state cut every open window (R194). -/
def State.cutAll (s : State) (cause : Nat) : State := s.each (List.range 4) fun s b => s.bankCut b cause

/-- A load fault of the pulse: its flag and its report, unless the needle was off (R188, R190). `code` as Table 19.1 numbers the
flags. -/
def State.loadFlag (s : State) (b code : Nat) : State :=
  let n := s.condInj b
  let f := match code with
    | 0 => F.INJ_STAT.OPEN n | 1 => F.INJ_STAT.SHORT n | 2 => F.INJ_STAT.LOWR n | _ => F.INJ_STAT.SLOW n
  (s.injFlag n f).report (20 + b) (4 * (n % 4) + code)

/-! ### Opening point (R191) -/

/-- An on-time of a hold-1 cycle is measured; the third and later are tested for the opening. -/
def State.bankOnTime (s : State) (b t on : Nat) : State :=
  let k := s.getBank b
  let n := s.condInj b
  let found := match k.onT with
    | t1 :: t2 :: _ => k.opened.isNone && decide (t2 < t1) && decide (64 * t < (64 - s.get (F.INJ_BOPD.OPTHR b)) * t1)
    | _ => false
  let s := s.updBank b fun k =>
    { k with batOn := none, onT := t :: k.onT, opened := if found then some (on - k.openT) else k.opened }
  if found then
    let s := (s.set (F.INJ_OPEN n) (min (on - k.openT) 0xFFFFF)).set (F.INJ_STAT.OPOK n) 1
    s.raiseIf (s.bit (F.INJ_CFG.OPIRQ n)) (208 + n)
  else s

/-- The BAT gate is evaluated again: a rise within hold 1 starts a measurement, which an I_H1 already high ends at 0. -/
def State.batEval (s : State) (b : Nat) : State :=
  let now := s.gateBAT b
  let k := s.getBank b
  if now = k.bat then s
  else
    let f := s.fclk
    let m := now && s.bit (F.INJ_BOPD.OPDEN b) && !k.h1done
    let s := s.updBank b fun k => { k with bat := now, batOn := if m then some f else none }
    if m && k.h1 then s.bankOnTime b 0 f else s

/-! ### Load diagnostics (R188) -/

/-- The comparators as the block sees them while a window is open: I_PK, I_H2, I_H1, then I_OC. -/
def State.bankSees (s : State) (b : Nat) : State :=
  if !s.bit (F.INJ_BSTAT.BUSY b) then s
  else
    let k := s.getBank b
    let cnt := s.fclk - k.openT
    let first := k.pk && k.rise.isNone
    let s := if first then s.updBank b fun k => { k with rise := some cnt } else s
    let s := if first && !k.ndlOff && decide (cnt < 200 * s.get (F.INJ_BDIAG.TPKMIN b)) then s.loadFlag b 2 else s
    let s := if k.h2 then s.updBank b fun k => { k with h2seen := true } else s
    let s := match k.batOn with
      | some on => if k.h1 then s.bankOnTime b (s.fclk - on) on else s
      | none => s
    if k.oc && !k.ndlOff then
      let n := s.condInj b
      let s := s.loadFlag b 1
      let s := if s.bit (F.INJ_BCFG.AUTODIS b) then s.set (F.INJ_STAT.DIS n) 1 else s
      s.bankCut b 3
    else s

/-! ### Requests (R181 to R183) -/

/-- The window of injector `n` opens for slot `sl`. -/
def State.bankOpen (s : State) (n sl : Nat) : State :=
  let b := n / 4
  let f := s.fclk
  let off := s.get (F.BED_NSTAT.STATE (12 + b)) = 0
  let s := ((s.set (F.INJ_BSTAT.BUSY b) 1).set (F.INJ_BSTAT.CONDINJ b) (n % 4)).set (F.INJ_BSTAT.CONDSLOT b) sl
  let s := s.incW (F.INJ_STAT.PULSES n)
  let th1 := s.get (F.INJ_BTIM b)
  let s := s.updBank b fun k =>
    { k with openT := f, h1done := th1 = 0, rise := none, h2seen := false, limitDone := false, ndlOff := off, bat := false,
             batOn := none, onT := [], opened := none, eoi := none }
  let s := if off then (s.evt (F.INJ_BSTAT.NDLOFF b)).report (24 + b) n else s
  let s := if s.bit (F.INJ_BCFG.EOIEN b) then s.set (F.CMP_CFG.SEL (16 + 2 * b)) (s.get (F.INJ_CFG.EOIANA n)) else s
  (s.bankSees b).batEval b

/-- A refusal for a bank reason: its record and CONF; BANKCONF follows in the next FCLK. -/
def State.refuse (s : State) (n sl reason : Nat) : State :=
  let s := s.setRefused (8 * n + sl) true
  let s := (((s.set F.INJ_CONF.INJ n).set F.INJ_CONF.SLOT sl).set F.INJ_CONF.REASON reason).evtInc F.INJ_CONF.COUNT
  let s := s.injFlag n (F.INJ_STAT.CONF n)
  match s.route 1 (8 * n + sl) with
  | none => s
  | some l => { s with inj := { s.inj with confs := s.inj.confs ++ [l] } }

/-- In the FCLK after a refusal, BANKCONF sets on every stitch that is routed to the slot's line and is then in RUN (R183). -/
def State.bankConfs (s : State) : State :=
  if s.inj.confs.isEmpty then s
  else
    let ls := s.inj.confs
    let s : State := { s with inj := { s.inj with confs := [] } }
    s.each (List.range 128) fun s i =>
      match (s.getSt i).fz with
      | some f => if s.get (F.STITCH_STATUS.STATE i) = 3 && ls.contains f.line then s.evt (F.STITCH_STATUS.BANKCONF i) else s
      | none => s

/-- No non-bank reason refuses injector `n` (R182, R183). -/
def State.requestOk (s : State) (n : Nat) : Bool :=
  s.bit (F.INJ_CFG.EN n) && s.bit (F.INJ_BCFG.EN (n / 4)) && !s.bit (F.INJ_STAT.DIS n) && !s.lockout && !s.safe

/-- One request; `free` says that the bank was FREE when this FCLK began. -/
def State.request (s : State) (k : Nat) (free : Bool) : State :=
  let n := k / 8
  let b := n / 4
  let s := s.setSeen k true
  if !s.requestOk n then (s.setRefused k true).evtInc (F.INJ_BSTAT.LOST b)
  else if free then if s.bit (F.INJ_BSTAT.BUSY b) || s.bit (F.INJ_BSTAT.DRAIN b) then s.refuse n (k % 8) 4 else s.bankOpen n (k % 8)
  else if s.bit (F.INJ_BSTAT.BUSY b) then s.refuse n (k % 8) (if s.condInj b = n then 2 else 1)
  else s.refuse n (k % 8) 3

/-- The level a slot sees: its line's, one FCLK before (R17, R181). -/
def State.slotLine (s : State) (k : Nat) : Bool := s.routedSeen 1 k 0

/-! ### The commands -/

/-- SLOT_LINE_RISE: the named slots see their lines rise in one FCLK (R181 to R183), lowest injector and slot first. -/
def execSlotLineRise (slots : List (Fin 128)) (s : State) : Out :=
  .next <|
    if s.angleOk 5 then
      let rises := (List.range 128).filter fun k => slots.any (fun x => x.val = k) && s.slotLine k && !s.slotSeen k
      let free := fun k => !s.bit (F.INJ_BSTAT.BUSY (k / 32)) && !s.bit (F.INJ_BSTAT.DRAIN (k / 32))
      s.each rises fun s k => s.request k (free k)
    else s

/-- SLOT_LINE_FALL: the slot sees its line fall; its window closes (R22, R181). -/
def execSlotLineFall (slot : Fin 128) (s : State) : Out :=
  .next <|
    if s.angleOk 5 && s.slotSeen slot && !s.slotLine slot then
      let n := slot.val / 8
      let b := n / 4
      let held := s.slotRefused slot
      let s := (s.setSeen slot false).setRefused slot false
      if !held && s.bit (F.INJ_BSTAT.BUSY b) && s.condInj b = n && s.get (F.INJ_BSTAT.CONDSLOT b) = slot.val % 8 then s.bankClose b
      else s
    else s

/-- BANK_DRAIN_END (R182): 40 × BGAP FCLK after the gates went off, and not in the FCLK of the close. -/
def execBankDrainEnd (b : Fin 4) (s : State) : Out :=
  .next <|
    if s.angleOk 5 && s.bit (F.INJ_BSTAT.DRAIN b) && decide ((s.getBank b).offT + max 1 (40 * s.get (F.INJ_BCFG.BGAP b)) ≤ s.fclk)
    then s.set (F.INJ_BSTAT.DRAIN b) 0 else s

/-- H1DONE_RISE (R186). -/
def execH1doneRise (b : Fin 4) (s : State) : Out :=
  .next <|
    if s.angleOk 5 && s.bit (F.INJ_BSTAT.BUSY b) && decide ((s.getBank b).openT + 100 * s.get (F.INJ_BTIM b) ≤ s.fclk)
    then s.updBank b fun k => { k with h1done := true } else s

/-- INJ_COMPARATOR_CHANGE (R184, R188): the level of comparator `k` reaches the block. -/
def execInjComparatorChange (k : Fin 16) (s : State) : Out :=
  .next <|
    if s.angleOk 5 && s.bit (F.INJ_BCFG.EN (k.val / 4)) then
      let v := bitOf (s.get (F.CMP_OUT 0)) k.val
      let b := k.val / 4
      let s := s.updBank b fun x => match k.val % 4 with
        | 0 => { x with pk := v } | 1 => { x with h1 := v } | 2 => { x with h2 := v } | _ => { x with oc := v }
      s.bankSees b
    else s

/-- The peak comparator of bank `b` rises in this FCLK and its change is still waiting (R188, R191). -/
def State.peakComes (s : State) (b : Fin 4) : Bool :=
  bitOf (s.get (F.CMP_OUT 0)) (4 * b.val) && s.comes fun c => c = .injComparatorChange ⟨4 * b.val, by omega⟩

/-- PEAK_TIME_LIMIT (R188): OPEN or SLOW at count 200 × TPKMAX, with a cut. -/
def execPeakTimeLimit (b : Fin 4) (s : State) : Out :=
  .next <|
    let k := s.getBank b
    if s.angleOk 5 && s.bit (F.INJ_BSTAT.BUSY b) && !k.limitDone && decide (k.openT + 200 * s.get (F.INJ_BDIAG.TPKMAX b) ≤ s.fclk)
        && !s.peakComes b then
      let s := s.updBank b fun k => { k with limitDone := true }
      if k.rise.isNone && !k.ndlOff then (s.loadFlag b (if k.h2seen then 3 else 0)).bankCut b 3 else s
    else s

/-- EOI_CROSSING (R192): the EOI comparator's level differs from the one last observed. -/
def execEoiCrossing (b : Fin 4) (s : State) : Out :=
  .next <|
    match (s.getBank b).eoi with
    | none => s
    | some (n, t0) =>
      let lvl := bitOf (s.get (F.CMP_OUT ((16 + 2 * b.val) / 20))) ((16 + 2 * b.val) % 20)
      if s.angleOk 5 && lvl ≠ (s.getBank b).eoiLvl && decide (s.fclk ≤ t0 + 400 * s.get (F.INJ_BEOI b)) then
        let c := min (s.fclk - t0) 0xFFFFE
        let s := s.updBank b fun k => { k with eoiLvl := lvl }
        let s := if !lvl && s.get (F.INJ_EOIF n) = 0xFFFFF then s.set (F.INJ_EOIF n) c else s
        let s := (s.set (F.INJ_EOIL n) c).inc (F.INJ_STAT.EOIN n)
        s.setB (F.INJ_STAT.EOIOK n) (3 ≤ s.get (F.INJ_STAT.EOIN n))
      else s

/-- EOI_OBSERVE_END (R192): EOIWIN µs after the close. -/
def execEoiObserveEnd (b : Fin 4) (s : State) : Out :=
  .next <|
    match (s.getBank b).eoi with
    | none => s
    | some (_, t0) =>
      if s.angleOk 5 && decide (t0 + 400 * s.get (F.INJ_BEOI b) ≤ s.fclk) then s.updBank b fun k => { k with eoi := none } else s

/-- INJ_REENABLE: a write of INJ_CMD with ENABLE 1 and KEY 0x69 (R189). -/
def execInjReenable (i : Fin 16) (s : State) : Out :=
  .next (if s.angleOk 5 then s.set (F.INJ_STAT.DIS i) 0 else s)

/-- Block reset of INJ: every window closes and the slots whose lines are high stay refused until they fall (R183, R195). The
registers and the sections are WVL's part. -/
def State.injReset (s : State) : State :=
  let high := (List.range 128).foldl (fun m k => if s.slotLine k then m + 2 ^ k else m) 0
  { s with inj := { Inj.reset with seen := high, refused := high } }

end Sys2Proof.Machine
end

