-- ==== Sys2Proof/Machine/Beds.lean ====
section
/-! DEFINITION. Needles and needle beds (R247 to R270). -/

namespace Sys2Proof.Machine

/-! ### Needle cycles, inputs, queues -/

/-- NCLK cycles so far (R248). A block reset of bed 0 leaves the island's clock as it is (R265; assumption 69). -/
def State.nclk (s : State) : Nat := s.nclkAt s.fclk

/-- DIV of a needle: 1 to 4096 (R248). -/
def State.ndlDiv (s : State) (m : Nat) : Nat := s.get (F.BED_NCFG.DIVM1 m) + 1

/-- The needle island runs and the needle's bed is not held. -/
def State.bedOk (s : State) (b : Nat) : Bool := s.islandUp .needle && s.blockFree (6 + b)

/-- The needle cycle in which an instruction taken now completes: the latest one not after this NCLK. -/
def State.ndlCycle (s : State) (m : Nat) : Nat :=
  let n := s.getNdl m
  n.next + (s.nclk - n.next) / s.ndlDiv m * s.ndlDiv m

/-- Pin and direction registers as a synchroniser shows them in NCLK `x`: as they stood two NCLK before (Table 11.5). -/
def Ndl.seenPins (n : Ndl) (x : Nat) : Nat × Nat :=
  match n.hist.find? fun e => decide (e.1 + 2 ≤ x) with
  | some e => e.2
  | none => (n.pin, n.dir)

/-- As much of that history as a synchroniser in NCLK `x` or later needs. -/
def pinsKept (x : Nat) : List (Nat × Nat × Nat) → List (Nat × Nat × Nat)
  | [] => []
  | e :: t => if e.1 + 2 ≤ x then [e] else e :: pinsKept x t

/-- The direction and level that the needles give pin NPp at its synchroniser's output in NCLK `x`, none while no running binding drives it
(R258, R259, R29). -/
def State.npDrive (s : State) (p x : Nat) : Option Bool :=
  if s.safe then s.npSafe p
  else
    (List.range 128).findSome? fun i =>
      let m := i / 8
      let k := i % 8
      if s.get (F.BED_BIND.CLASS m (8 + k)) = 1 && s.get (F.BED_BIND.INDEX m (8 + k)) = p && (s.getNdl m).live
          && bitOf ((s.getNdl m).seenPins x).2 k then
        some (bitOf ((s.getNdl m).seenPins x).1 k)
      else none

/-- The level that the synchroniser of pin NPp shows in NCLK `x`: the needles' own where they drive it, else the one from outside. -/
def State.npLevel (s : State) (np : BitVec 32) (p x : Nat) : Bool := (s.npDrive p x).getD (bitOf np.toNat p)

/-- The level of bed event input `i` (R258). -/
def State.bedEvent (s : State) (b i : Nat) : Bool := s.routedHigh 3 (8 * b + i)

/-- The level of input binding Ik of a needle (Table 11.5). -/
def State.ndlInput (s : State) (m : Nat) (np : BitVec 32) (k : Nat) : Bool :=
  let i := s.get (F.BED_BIND.INDEX m k)
  match s.get (F.BED_BIND.CLASS m k) with
  | 1 => s.npLevel np i (s.ndlCycle m)
  | 2 => bitOf (s.get (F.CMP_OUT (i / 20))) (i % 20)
  | 3 => s.bedEvent (m / 4) (i % 8)
  | 4 => if i = 0 then s.bit (F.INJ_BSTAT.BUSY (m % 4)) else (s.getBank (m % 4)).h1done
  | _ => false

/-- Queue sizes (R260). -/
def State.txSize (s : State) (m : Nat) : Nat := match s.get (F.BED_NCFG.JOIN m) with | 1 => 8 | 2 => 0 | _ => 4
def State.rxSize (s : State) (m : Nat) : Nat := match s.get (F.BED_NCFG.JOIN m) with | 1 => 0 | 2 => 8 | _ => 4

/-- A needle's flag. -/
def State.flag (s : State) (n : Nat) : Bool := bitOf (s.get F.BED0_FLAGS) n

/-- A flag is set, with the interrupt of a change from 0 to 1, or cleared (R268). -/
def State.flagSet (s : State) (n : Nat) : State :=
  if s.flag n then s else (s.evtAt F.BED0_FLAGS n).raiseIf (s.bit (F.BED_NCFG.FIRQ n)) (240 + n)
def State.flagClear (s : State) (n : Nat) : State := s.setBitAt F.BED0_FLAGS n false

/-- Source value of Table 11.4. -/
def State.ndlSource (s : State) (m : Nat) (np : BitVec 32) (code : Nat) : Nat :=
  let n := s.getNdl m
  match code with
  | 0 => (List.range 8).foldl (fun a k => a + b2n (s.ndlInput m np k) * 2 ^ k) 0
  | 1 => s.get (F.BED_NU m)
  | 2 => s.get (F.BED_NV m)
  | 3 => s.get (F.BED_NSIN m)
  | 4 => s.get (F.BED_NSOUT m)
  | 5 => 0
  | 6 => n.tx.length + 16 * n.rx.length + 256 * n.sinN + 8192 * n.soutN + 262144 * b2n (s.flag m)
  | _ => s.nclk % 2 ^ 20

/-! ### Completing, stalling, pins -/

/-- The pin or direction register takes bits below `cnt` of `v` at the end of the cycle (R249); a bank needle's request may move the
BAT gate (R180, R253). -/
def State.ndlPins (s : State) (m : Nat) (dirs : Bool) (v cnt : Nat) : State :=
  let put := fun old => v % 2 ^ min cnt 8 + old / 2 ^ min cnt 8 * 2 ^ min cnt 8
  let x := s.ndlCycle m + 1
  let s := s.updNdl m fun n =>
    let t := if dirs then { n with dir := put n.dir } else { n with pin := put n.pin }
    { t with hist := pinsKept x ((x, t.pin, t.dir) :: (if n.hist.isEmpty then [(0, n.pin, n.dir)] else n.hist)) }
  if 12 ≤ m then s.batEval (m - 12) else s

/-- The word at the address of the next instruction. -/
def State.ndlWord (s : State) (m : Nat) : Nat := s.get (F.BED_PS (m / 4) ((s.getNdl m).pc % 64))

/-- The instruction `w` completes and `pc` follows it after its delay (R249). -/
def State.ndlDone (s : State) (m w pc : Nat) : State :=
  let c := s.ndlCycle m
  let d := s.ndlDiv m
  let s := (s.set (F.BED_NSTAT.STATE m) 1).set (F.BED_NPC m) (s.getNdl m).pc
  s.updNdl m fun n => { n with pc := pc % 64, next := c + d * (1 + w % 16), flagDone := false }

/-- The instruction stalls: it is read again in the next needle cycle. -/
def State.ndlStall (s : State) (m : Nat) : State :=
  let c := s.ndlCycle m
  let d := s.ndlDiv m
  let t := s.tick10
  let was := s.get (F.BED_NSTAT.STATE m) = 2
  let s := (s.set (F.BED_NSTAT.STATE m) 2).set (F.BED_NPC m) (s.getNdl m).pc
  s.updNdl m fun n => { n with next := c + d, stallAt := if was then n.stallAt else t }

/-- The address after the present one. -/
def State.ndlNext (s : State) (m : Nat) : Nat := (s.getNdl m).pc + 1

/-- The needle runs, its next needle cycle has come, and its next word is of the given types. -/
def State.ndlReady (s : State) (m : Nat) (op : Nat → Bool) : Bool :=
  s.bedOk (m / 4) && s.get (F.BED_NSTAT.STATE m) ≠ 0 && decide ((s.getNdl m).next ≤ s.nclk) && op (s.ndlWord m / 65536)

/-- A destination of Table 11.4 takes `v`; an OUT of `cnt` bits changes that many pins. The address that follows. -/
def State.ndlDest (s : State) (m code v cnt : Nat) (out : Bool) : State × Nat :=
  let nx := s.ndlNext m
  match code with
  | 0 => (s.ndlPins m false v cnt, nx)
  | 1 => (s.set (F.BED_NU m) v, nx)
  | 2 => (s.set (F.BED_NV m) v, nx)
  | 3 => ((s.set (F.BED_NSIN m) v).updNdl m fun n => { n with sinN := 0 }, nx)
  | 4 => (if out then s else (s.set (F.BED_NSOUT m) v).updNdl m fun n => { n with soutN := 0 }, nx)
  | 5 => (s.ndlPins m true v cnt, nx)
  | 6 => (s, v % 64)
  | _ => (s, nx)

/-! ### The instructions (Table 11.2) -/

/-- COUNT of IN and OUT: 0 means 20, above 20 acts as 20. -/
def shiftCount (w : Nat) : Nat := let c := w / 16 % 32; if c = 0 then 20 else min c 20

/-- OPR of MOV on 20 bits (R254). -/
def movOp (opr x : Nat) : Nat :=
  match opr with
  | 1 => 1048575 - x
  | 2 => (List.range 20).foldl (fun a i => a + b2n (bitOf x i) * 2 ^ (19 - i)) 0
  | 3 => (1048576 - x) % 1048576
  | 4 => (x + 1) % 1048576
  | 5 => (x + 1048575) % 1048576
  | _ => x

/-- NEEDLE_SET (R254). -/
def execNeedleSet (m : Fin 16) (s : State) : Out :=
  .next <|
    if s.ndlReady m (· = 1) then
      let w := s.ndlWord m
      let imm := w / 16 % 1024
      let s' := match w / 16384 % 4 with
        | 0 => s.set (F.BED_NU m) imm
        | 1 => s.set (F.BED_NV m) imm
        | 2 => s.set (F.BED_NU m) (1024 * imm + s.get (F.BED_NU m) % 1024)
        | _ => s.set (F.BED_NV m) (1024 * imm + s.get (F.BED_NV m) % 1024)
      s'.ndlDone m w (s.ndlNext m)
    else s

/-- NEEDLE_MOV (R254). -/
def execNeedleMov (m : Fin 16) (np : BitVec 32) (s : State) : Out :=
  .next <|
    if s.ndlReady m (· = 2) then
      let w := s.ndlWord m
      let v := movOp (w / 1024 % 8) (s.ndlSource m np (w / 16 % 8))
      let r := s.ndlDest m (w / 8192 % 8) v 8 false
      r.1.ndlDone m w r.2
    else s

/-- NEEDLE_JMP (R251). -/
def execNeedleJmp (m : Fin 16) (np : BitVec 32) (s : State) : Out :=
  .next <|
    if s.ndlReady m (· = 3) then
      let w := s.ndlWord m
      let addr := w / 16 % 64
      let inp := w / 1024 % 8
      let u := (s.get (F.BED_NU m) + 1048575) % 1048576
      let v := (s.get (F.BED_NV m) + 1048575) % 1048576
      let (s', jump) : State × Bool := match w / 8192 % 8 with
        | 0 => (s, true)
        | 1 => (s, s.ndlInput m np inp)
        | 2 => (s, !s.ndlInput m np inp)
        | 3 => (s.set (F.BED_NU m) u, u ≠ 0)
        | 4 => (s.set (F.BED_NV m) v, v ≠ 0)
        | 5 => (s, s.get (F.BED_NU m) = s.get (F.BED_NV m))
        | 6 => (s, !(s.getNdl m).tx.isEmpty)
        | _ => (s, s.flag m)
      s'.ndlDone m w (if jump then addr else s.ndlNext m)
    else s

/-- NEEDLE_WAIT (R252): one needle cycle of the wait. -/
def execNeedleWait (m : Fin 16) (np : BitVec 32) (s : State) : Out :=
  .next <|
    if s.ndlReady m (· = 4) then
      let w := s.ndlWord m
      let idx := w / 16 % 64
      let src := match w / 8192 % 4 with
        | 0 => s.ndlInput m np (idx % 8)
        | 1 => s.bedEvent (m / 4) (idx % 8)
        | 2 => s.npLevel np (idx % 32) (s.ndlCycle m)
        | _ => s.flag (idx % 16)
      if src = bitOf w 15 then s.ndlDone m w (s.ndlNext m) else s.ndlStall m
    else s

/-- NEEDLE_IN (R253). -/
def execNeedleIn (m : Fin 16) (np : BitVec 32) (s : State) : Out :=
  .next <|
    if s.ndlReady m (· = 5) then
      let w := s.ndlWord m
      let c := shiftCount w
      let v := s.ndlSource m np (w / 8192 % 8) % 2 ^ c
      let x := s.get (F.BED_NSIN m)
      let y := if s.bit (F.BED_NCFG.INDIR m) then x / 2 ^ c + v * 2 ^ (20 - c) else x * 2 ^ c % 1048576 + v
      ((s.set (F.BED_NSIN m) y).updNdl m fun n => { n with sinN := min 20 (n.sinN + c) }).ndlDone m w (s.ndlNext m)
    else s

/-- NEEDLE_OUT (R253). -/
def execNeedleOut (m : Fin 16) (s : State) : Out :=
  .next <|
    if s.ndlReady m (· = 6) then
      let w := s.ndlWord m
      if bitOf w 15 then (s.ndlPins m (bitOf w 14) (w / 16 % 256) 8).ndlDone m w (s.ndlNext m)
      else
        let c := shiftCount w
        let x := s.get (F.BED_NSOUT m)
        let r := s.bit (F.BED_NCFG.OUTDIR m)
        let v := if r then x % 2 ^ c else x / 2 ^ (20 - c)
        let y := if r then x / 2 ^ c else x * 2 ^ c % 1048576
        let s := (s.set (F.BED_NSOUT m) y).updNdl m fun n => { n with soutN := min 20 (n.soutN + c) }
        let d := s.ndlDest m (w / 4096 % 8) v c true
        d.1.ndlDone m w d.2
    else s

/-- NEEDLE_PUSH (R255). -/
def execNeedlePush (m : Fin 16) (s : State) : Out :=
  .next <|
    if s.ndlReady m (· = 7) then
      let w := s.ndlWord m
      let full := decide (s.rxSize m ≤ (s.getNdl m).rx.length)
      if full && bitOf w 15 then s.ndlStall m
      else
        let x := s.get (F.BED_NSIN m)
        let s' := if full then s.evt (F.BED_NQSTAT.RXOVF m) else s.updNdl m fun n => { n with rx := n.rx ++ [x] }
        ((s'.set (F.BED_NSIN m) 0).updNdl m fun n => { n with sinN := 0 }).ndlDone m w (s.ndlNext m)
    else s

/-- NEEDLE_PULL (R255). -/
def execNeedlePull (m : Fin 16) (s : State) : Out :=
  .next <|
    if s.ndlReady m (· = 8) then
      let w := s.ndlWord m
      match (s.getNdl m).tx with
      | [] => if bitOf w 15 then s.ndlStall m else s.ndlDone m w (s.ndlNext m)
      | x :: t => ((s.set (F.BED_NSOUT m) x).updNdl m fun n => { n with tx := t, soutN := 0 }).ndlDone m w (s.ndlNext m)
    else s

/-- A FLAG instruction acts on flag `k`. -/
def State.ndlFlag (s : State) (k : Nat) (on : Bool) : State :=
  let c := s.nclk
  let was := s.flag k
  let s := s.updNdl k fun n => match n.flg with
    | some (x, _, _) => if x = c then n else { n with flg := some (c, was, on) }
    | none => { n with flg := some (c, was, on) }
  if on then s.flagSet k else s.flagClear k

/-- NEEDLE_FLAG (R256): SETW and CLRW make their change in the first cycle and test from the next on. -/
def execNeedleFlag (m : Fin 16) (s : State) : Out :=
  .next <|
    if s.ndlReady m (· = 9) then
      let w := s.ndlWord m
      let k := w / 16 % 16
      match w / 16384 % 4 with
      | 0 => (s.ndlFlag k false).ndlDone m w (s.ndlNext m)
      | 1 => (s.ndlFlag k true).ndlDone m w (s.ndlNext m)
      | 2 =>
        if (s.getNdl m).flagDone then if s.flag k then s.ndlStall m else s.ndlDone m w (s.ndlNext m)
        else ((s.ndlFlag k true).ndlStall m).updNdl m fun n => { n with flagDone := true }
      | _ =>
        if (s.getNdl m).flagDone then if s.flag k then s.ndlDone m w (s.ndlNext m) else s.ndlStall m
        else ((s.ndlFlag k false).ndlStall m).updNdl m fun n => { n with flagDone := true }
    else s

/-- NEEDLE_BADOP (R257): OP 0 and OP 10 to 15. -/
def execNeedleBadop (m : Fin 16) (s : State) : Out :=
  .next <|
    if s.ndlReady m (fun o => o = 0 || decide (10 ≤ o)) then
      (s.evt (F.BED_NSTAT.BADOP m)).ndlDone m (s.ndlWord m) (s.ndlNext m)
    else s

/-! ### Starting and stopping (R262 to R264, R267) -/

/-- PROT keeps every master but WVL from starting and stopping the needle (R264). -/
def State.ndlMay (s : State) (m : Nat) (src : Master) : Bool := decide (src = .wvl) || !s.bit (F.BED_NCFG.PROT m)

/-- The needle runs or stands still from this NCLK on; what it did before the first change of the NCLK is kept (R266). -/
def State.ndlChanged (s : State) (m : Nat) : State :=
  let c := s.nclk
  let was := decide (s.get (F.BED_NSTAT.STATE m) ≠ 0)
  s.updNdl m fun n => match n.chg with
    | some (x, _) => if x = c then n else { n with chg := some (c, was) }
    | none => { n with chg := some (c, was) }

/-- A start of a stopped needle; its divider starts at zero in this NCLK. -/
def State.ndlStart (s : State) (m : Nat) : State :=
  if s.get (F.BED_NSTAT.STATE m) = 0 then
    let c := s.nclk
    let pc := s.get (F.BED_NPC m)
    ((s.ndlChanged m).set (F.BED_NSTAT.STATE m) 1).updNdl m fun n => { n with pc := pc, live := true, start := c, next := c, flagDone := false }
  else s

/-- A stop with its cause: NPC takes the PC that would follow; a wait keeps its own (R263). -/
def State.ndlStop (s : State) (m cause : Nat) : State :=
  if s.get (F.BED_NSTAT.STATE m) = 0 then s
  else
    let pc := (s.getNdl m).pc
    ((((s.ndlChanged m).set (F.BED_NSTAT.STATE m) 0).set (F.BED_NSTAT.CAUSE m) cause).set (F.BED_NPC m) pc).updNdl m fun n =>
      { n with flagDone := false }

/-- NEEDLE_START: a write of NCTL with START 1 (R262). -/
def execNeedleStart (m : Fin 16) (src : Master) (s : State) : Out :=
  .next (if s.bedOk (m / 4) && s.ndlMay m src then s.ndlStart m else s)

/-- NEEDLE_STOP: a write of NCTL with STOP 1 (R263). -/
def execNeedleStop (m : Fin 16) (src : Master) (s : State) : Out :=
  .next (if s.bedOk (m / 4) && s.ndlMay m src then s.ndlStop m 1 else s)

/-- A write of BED0_SYNC (R262): every stopped needle named starts in one NCLK. -/
def State.bedSync (s : State) (mask : Nat) (src : Master) : State :=
  s.each (List.range 16) fun s m => if bitOf mask m && s.bedOk (m / 4) && s.ndlMay m src then s.ndlStart m else s
/-- BED_SYNC_START. -/
def execBedSyncStart (mask : BitVec 16) (src : Master) (s : State) : Out :=
  .next (if s.islandUp .needle then s.bedSync mask.toNat src else s)

/-- A write of NPC, ignored while the needle runs (R262). -/
def State.ndlPcWrite (s : State) (m v : Nat) : State := if s.get (F.BED_NSTAT.STATE m) = 0 then s.set (F.BED_NPC m) v else s
/-- NEEDLE_PC_WRITE. -/
def execNeedlePcWrite (m : Fin 16) (v : BitVec 6) (s : State) : Out :=
  .next (if s.bedOk (m / 4) then s.ndlPcWrite m v.toNat else s)

/-- A write of NTX (R260): into the queue, or dropped when full. -/
def State.ndlTxWrite (s : State) (m v : Nat) : State :=
  if (s.getNdl m).tx.length < s.txSize m then s.updNdl m fun n => { n with tx := n.tx ++ [v] }
  else s.evt (F.BED_NQSTAT.TXOVF m)
/-- NEEDLE_TX_WRITE. -/
def execNeedleTxWrite (m : Fin 16) (v : Word) (s : State) : Out :=
  .next (if s.bedOk (m / 4) then s.ndlTxWrite m v.toNat else s)

/-- A read of NRX (R260): the head is removed and returned; an empty queue returns 0. -/
def State.ndlRxRead (s : State) (m : Nat) : State :=
  match (s.getNdl m).rx with
  | [] => { s.evt (F.BED_NQSTAT.RXUNF m) with rd := 0 }
  | x :: t => { s.updNdl m fun n => { n with rx := t } with rd := BitVec.ofNat 20 x }
/-- NEEDLE_RX_READ. -/
def execNeedleRxRead (m : Fin 16) (s : State) : Out := .next (if s.bedOk (m / 4) then s.ndlRxRead m else s)

/-- The bed's needles are all stopped. -/
def State.bedStopped (s : State) (b : Nat) : Bool := (List.range 4).all fun m => s.get (F.BED_NSTAT.STATE (4 * b + m)) = 0

/-- The bed's needles were all stopped before what started or stopped them in this NCLK. -/
def State.bedWasStopped (s : State) (b : Nat) : Bool := (List.range 4).all fun m =>
  match (s.getNdl (4 * b + m)).chg with
  | some (c, was) => if c = s.nclk then !was else s.get (F.BED_NSTAT.STATE (4 * b + m)) = 0
  | none => s.get (F.BED_NSTAT.STATE (4 * b + m)) = 0

/-- A write of a program store word, decided on the states before a start or stop of the same NCLK (R266). -/
def State.storeWrite (s : State) (b k : Nat) (src : Master) (v : Word) : State :=
  if s.bedWasStopped b then s.writeCodes src (R.BED_PS b k) v else s.evt (F.BED_STAT.PSTORE_BUSY b)
/-- PROGRAM_STORE_WRITE. -/
def execProgramStoreWrite (b : Fin 4) (k : Fin 64) (src : Master) (v : Word) (s : State) : Out :=
  .next (if s.bedOk b then s.storeWrite b k src v else s)

/-- What the FLAG instructions of this NCLK did to flag `n`: the flag before the first of them, and whether that one set it. -/
def State.flagNow (s : State) (n : Nat) : Option (Bool × Bool) :=
  match (s.getNdl n).flg with
  | some (c, was, on) => if c = s.nclk then some (was, on) else none
  | none => none

/-- A host write clears or sets flag `n`, before the FLAG instructions of its NCLK (R268): where some acted, the flag stays as they left it,
and only the change from 0 to 1 that this order makes is raised. -/
def State.flagHost (s : State) (n : Nat) (set : Bool) : State :=
  match s.flagNow n with
  | none => if set then s.flagSet n else s.flagClear n
  | some (was, on) =>
    if was = set then s
    else
      let c := s.nclk
      (s.updNdl n fun x => { x with flg := some (c, set, on) }).raiseIf (set ≠ on && s.bit (F.BED_NCFG.FIRQ n)) (240 + n)

/-- Flags of a mask are cleared, or set, by a write (R268). -/
def State.flagsClear (s : State) (mask : Nat) : State := s.each (List.range 16) fun s n => if bitOf mask n then s.flagHost n false else s
def State.flagsSet (s : State) (mask : Nat) : State := s.each (List.range 16) fun s n => if bitOf mask n then s.flagHost n true else s
/-- FLAG_CLEAR_WRITE: a write of BED0_FLAGS. -/
def execFlagClearWrite (mask : BitVec 16) (s : State) : Out := .next (if s.bedOk 0 then s.flagsClear mask.toNat else s)
/-- FLAG_SET_WRITE: a write of BED0_FSET. -/
def execFlagSetWrite (mask : BitVec 16) (s : State) : Out := .next (if s.bedOk 0 then s.flagsSet mask.toNat else s)

/-- A command that runs an instruction of needle `m`. -/
def needleRuns (m : Fin 16) (s : State) : Instr → Option Out
  | .needleSet k => if k = m then some (execNeedleSet k s) else none
  | .needleMov k np => if k = m then some (execNeedleMov k np s) else none
  | .needleJmp k np => if k = m then some (execNeedleJmp k np s) else none
  | .needleWait k np => if k = m then some (execNeedleWait k np s) else none
  | .needleIn k np => if k = m then some (execNeedleIn k np s) else none
  | .needleOut k => if k = m then some (execNeedleOut k s) else none
  | .needlePush k => if k = m then some (execNeedlePush k s) else none
  | .needlePull k => if k = m then some (execNeedlePull k s) else none
  | .needleFlag k => if k = m then some (execNeedleFlag k s) else none
  | _ => none

/-- The stalled instruction of needle `m` completes in this FCLK. -/
def State.stallEnds (s : State) (m : Fin 16) : Bool :=
  s.comes fun c => match needleRuns m s c with | some (.next t) => t.get (F.BED_NSTAT.STATE m) ≠ 2 | _ => false

/-- NEEDLE_STALL_TIMEOUT (R267): at the tick that brings the count to STO + 1; a WAIT only with WAITTO. -/
def execNeedleStallTimeout (m : Fin 16) (s : State) : Out :=
  .next <|
    let sto := s.get (F.BED_NSTO m)
    if s.bedOk (m / 4) && s.get (F.BED_NSTAT.STATE m) = 2 && sto ≠ 0
        && (s.ndlWord m / 65536 ≠ 4 || s.bit (F.BED_NCFG.WAITTO m))
        && decide (sto + 1 ≤ s.tick10 - (s.getNdl m).stallAt) && !s.stallEnds m then
      (s.ndlStop m 2).report (48 + m) (s.getNdl m).pc
    else s

/-! ### Registers with effects, reset -/

/-- A write of NCFG: a change of JOIN empties both queues (R260). -/
def State.ncfgWrite (s : State) (m : Nat) (src : Master) (v : Word) : State :=
  let j := s.get (F.BED_NCFG.JOIN m)
  let s := s.writeCodes src (R.BED_NCFG m) v
  if s.get (F.BED_NCFG.JOIN m) = j then s else s.updNdl m fun n => { n with tx := [], rx := [] }

/-- Block reset of bed `b`: its needles stop, queues and flags empty, outputs take their reset state (R265). The bed's registers and
its section are WVL's part. -/
def State.bedReset (s : State) (b : Nat) : State :=
  let s := s.each (List.range 4) fun s m => (s.flagClear (4 * b + m)).updNdl (4 * b + m) fun _ => Ndl.reset
  if b = 3 then s.each (List.range 4) fun s i => s.batEval i else s

/-- What a bed section leaves in a needle: its initial pins, levels and PC (Table 11.6); a bank needle's may move the BAT gate (R191). -/
def State.ndlInit (s : State) (m pc0 : Nat) : State :=
  let f := fun (x : Nat → Fld) => (List.range 8).foldl (fun a k => a + s.get (x k) * 2 ^ k) 0
  let dir := f fun k => F.BED_BIND.DIR0 m (8 + k)
  let pin := f fun k => F.BED_BIND.LEVEL0 m (8 + k)
  let s := (s.set (F.BED_NPC m) pc0).updNdl m fun _ => { Ndl.reset with pin := pin, dir := dir, pc := pc0 }
  if 12 ≤ m then s.batEval (m - 12) else s

end Sys2Proof.Machine
end

