-- ==== Sys2Proof/Machine/Crypto.lean ====
section
/-! DEFINITION. The algorithms that the spec names by their standards: SHA-256, HMAC and HKDF, ECDSA and ECDH on P-256, AES, AES-GCM,
AES key wrap (RFC 3394), AES-CMAC (RFC 4493) (R72 to R74, R349, R350, R389, R394). -/

namespace Sys2Proof.Machine

/-! ### SHA-256, HMAC, HKDF -/

/-- The first `n` primes, found by trial over a bounded range. -/
def primes (n : Nat) : List Nat :=
  ((List.range 320).filter fun x => decide (2 ≤ x) && (List.range 18).all fun d => decide (d < 2) || x = d || x % d ≠ 0).take n

/-- The largest r with r^k ≤ x, bit by bit from bit `b`. -/
def rootFrom (k x : Nat) : Nat → Nat → Nat
  | 0, r => r
  | b + 1, r => if (r + 2 ^ b) ^ k ≤ x then rootFrom k x b (r + 2 ^ b) else rootFrom k x b r

/-- The first 32 bits of the fraction of the `k`-th root of `p`. -/
def rootFrac (k p : Nat) : BitVec 32 := BitVec.ofNat 32 (rootFrom k (p * 2 ^ (32 * k)) 40 0)

/-- The round constants and the initial hash value: fractions of cube and square roots of the first primes. -/
def shaK : List (BitVec 32) := (primes 64).map (rootFrac 3)
def shaInit : List (BitVec 32) := (primes 8).map (rootFrac 2)

/-- The message schedule, newest word first. -/
def shaSched : Nat → List (BitVec 32) → List (BitVec 32)
  | 0, w => w
  | n + 1, w =>
    let s0 := fun (x : BitVec 32) => x.rotateRight 7 ^^^ x.rotateRight 18 ^^^ (x >>> 3)
    let s1 := fun (x : BitVec 32) => x.rotateRight 17 ^^^ x.rotateRight 19 ^^^ (x >>> 10)
    shaSched n ((s1 (w.getD 1 0) + w.getD 6 0 + s0 (w.getD 14 0) + w.getD 15 0) :: w)

/-- One round. -/
def shaRound (v : List (BitVec 32)) (kw : BitVec 32 × BitVec 32) : List (BitVec 32) :=
  match v with
  | [a, b, c, d, e, f, g, h] =>
    let t1 := h + (e.rotateRight 6 ^^^ e.rotateRight 11 ^^^ e.rotateRight 25) + ((e &&& f) ^^^ (~~~e &&& g)) + kw.1 + kw.2
    let t2 := (a.rotateRight 2 ^^^ a.rotateRight 13 ^^^ a.rotateRight 22) + ((a &&& b) ^^^ (a &&& c) ^^^ (b &&& c))
    [t1 + t2, a, b, c, d + t1, e, f, g]
  | _ => v

/-- One 64-byte block. -/
def shaBlock (h : List (BitVec 32)) (blk : List Byte) : List (BitVec 32) :=
  let w := ((List.range 16).map fun i => (BitVec.ofNat 32 (beNat (slice blk (4 * i) 4)) : BitVec 32)).reverse
  let v := ((shaK.zip (shaSched 48 w).reverse)).foldl shaRound h
  List.zipWith (· + ·) h v

/-- Blocks of `n` bytes. -/
def chunks (n : Nat) (l : List Byte) : List (List Byte) := (List.range ((l.length + n - 1) / n)).map fun i => slice l (n * i) n

/-- SHA-256. -/
def sha256 (m : List Byte) : List Byte :=
  let p := m ++ [0x80] ++ List.replicate ((119 - m.length % 64) % 64) 0 ++ beBytes 8 (8 * m.length)
  ((chunks 64 p).foldl shaBlock shaInit).flatMap fun x => beBytes 4 x.toNat

/-- Bytewise exclusive or. -/
def xorBytes (a b : List Byte) : List Byte := List.zipWith (· ^^^ ·) a b

/-- HMAC-SHA-256. -/
def hmac (key msg : List Byte) : List Byte :=
  let k := if 64 < key.length then sha256 key else key
  let k := k ++ List.replicate (64 - k.length) 0
  sha256 (k.map (· ^^^ 0x5C) ++ sha256 (k.map (· ^^^ 0x36) ++ msg))

/-- HKDF-SHA-256 with at most 32 bytes of output. -/
def hkdf (ikm salt info : List Byte) (n : Nat) : List Byte := (hmac (hmac salt ikm) (info ++ [1])).take n

/-- The bytes of an ASCII string. -/
def ascii (s : String) : List Byte := s.toList.map fun c => BitVec.ofNat 8 c.toNat

/-! ### P-256 -/

def p256 : Nat := 2 ^ 256 - 2 ^ 224 + 2 ^ 192 + 2 ^ 96 - 1
def n256 : Nat := 0xFFFFFFFF00000000FFFFFFFFFFFFFFFFBCE6FAADA7179E84F3B9CAC2FC632551
def b256 : Nat := 0x5AC635D8AA3A93E7B3EBBD55769886BC651D06B0CC53B0F63BCE3C3E27D2604B
def g256 : Nat × Nat :=
  (0x6B17D1F2E12C4247F8BCE6E563A440F277037D812DEB33A0F4A13945D898C296,
   0x4FE342E2FE1A7F9B8EE7EB4A7C0F9E162BCE33576B315ECECBB6406837BF51F5)

/-- b^e mod m over `k` bits of e. -/
def powMod (m b e k : Nat) : Nat := (List.range k).reverse.foldl (fun a i => let q := a * a % m; if bitOf e i then q * b % m else q) 1

/-- Inverse modulo a prime. -/
def invMod (m a : Nat) : Nat := powMod m (a % m) (m - 2) 256

/-- A point, none for infinity. -/
abbrev Point := Option (Nat × Nat)

/-- The point lies on the curve. -/
def onCurve (q : Nat × Nat) : Bool :=
  decide (q.1 < p256) && decide (q.2 < p256) && q.2 * q.2 % p256 = (q.1 * q.1 * q.1 + (p256 - 3) * q.1 + b256) % p256

/-- Point addition. -/
def ptAdd (a b : Point) : Point :=
  match a, b with
  | none, q => q
  | q, none => q
  | some (x1, y1), some (x2, y2) =>
    if x1 = x2 ∧ (y1 + y2) % p256 = 0 then none
    else
      let l := if x1 = x2 then (3 * x1 * x1 + p256 - 3) * invMod p256 (2 * y1) % p256
        else (y2 + p256 - y1) * invMod p256 (x2 + p256 - x1) % p256
      let x := (l * l + 2 * p256 - x1 - x2) % p256
      some (x, (l * (x1 + p256 - x) + p256 - y1) % p256)

/-- Scalar multiplication. -/
def ptMul (k : Nat) (q : Point) : Point :=
  (List.range 256).reverse.foldl (fun a i => let d := ptAdd a a; if bitOf k i then ptAdd d q else d) none

/-- A public key of 64 bytes, X then Y. -/
def keyPoint (k : List Byte) : Nat × Nat := (beNat (slice k 0 32), beNat (slice k 32 32))

/-- The public key of a private one. -/
def pubKey (d : Nat) : List Byte :=
  match ptMul d (some g256) with
  | some (x, y) => beBytes 32 x ++ beBytes 32 y
  | none => List.replicate 64 0

/-- ECDSA verification of a signature, r then s, over a digest. -/
def ecdsaVerify (key dig sig : List Byte) : Bool :=
  let q := keyPoint key
  let r := beNat (slice sig 0 32)
  let s := beNat (slice sig 32 32)
  if onCurve q && decide (1 ≤ r) && decide (r < n256) && decide (1 ≤ s) && decide (s < n256) then
    let w := invMod n256 s
    match ptAdd (ptMul (beNat dig * w % n256) (some g256)) (ptMul (r * w % n256) (some q)) with
    | some (x, _) => x % n256 = r
    | none => false
  else false

/-- ECDSA signature of a digest with private key `d` and per-signature secret `k`. -/
def ecdsaSign (d k : Nat) (dig : List Byte) : List Byte :=
  let r := match ptMul (k % n256) (some g256) with | some (x, _) => x % n256 | none => 0
  let s := invMod n256 k * (beNat dig + r * d) % n256
  beBytes 32 r ++ beBytes 32 s

/-- ECDH: the X coordinate shared by private key `d` and a public key. -/
def ecdh (d : Nat) (key : List Byte) : Option (List Byte) :=
  if onCurve (keyPoint key) then
    match ptMul d (some (keyPoint key)) with
    | some (x, _) => some (beBytes 32 x)
    | none => none
  else none

/-! ### AES -/

/-- Multiplication in the field of 256 elements of AES. -/
def xtime (x : Nat) : Nat := let y := 2 * x; if 256 ≤ y then y ^^^ 0x11B else y
def gmul (a b : Nat) : Nat := ((List.range 8).foldl (fun (acc : Nat × Nat) i => (if bitOf b i then acc.1 ^^^ acc.2 else acc.1, xtime acc.2)) (0, a)).1

/-- The S-box: inverse, then the affine map; and its inverse. -/
def ginv (x : Nat) : Nat := (List.range 7).foldl (fun (acc : Nat × Nat) _ => let q := gmul acc.2 acc.2; (gmul acc.1 q, q)) (1, x) |>.1
def rotl8 (x k : Nat) : Nat := (x * 2 ^ k ||| x / 2 ^ (8 - k)) % 256
def sbox (x : Nat) : Nat := let y := ginv x; y ^^^ rotl8 y 1 ^^^ rotl8 y 2 ^^^ rotl8 y 3 ^^^ rotl8 y 4 ^^^ 0x63
def sboxInv (x : Nat) : Nat := ginv (rotl8 x 1 ^^^ rotl8 x 3 ^^^ rotl8 x 6 ^^^ 0x05)

/-- Key expansion: words of four bytes, newest first, until there are enough. -/
def keyWords (nk : Nat) : Nat → List (List Nat) → Nat → List (List Nat)
  | 0, w, _ => w
  | n + 1, w, rc =>
    let i := w.length
    let t := w.headD []
    let t' := if i % nk = 0 then
        match t with | [a, b, c, d] => [sbox b ^^^ rc, sbox c, sbox d, sbox a] | x => x
      else if nk = 8 ∧ i % nk = 4 then t.map sbox else t
    keyWords nk n (List.zipWith (· ^^^ ·) t' (w.getD (nk - 1) []) :: w) (if i % nk = 0 then xtime rc else rc)

/-- Round keys of 16 bytes, first round first. -/
def roundKeys (key : List Byte) : List (List Nat) :=
  let nk := key.length / 4
  let w0 := ((chunks 4 key).map fun c => c.map (·.toNat)).reverse
  let w := (keyWords nk (4 * (nk + 7) - nk) w0 1).reverse
  (List.range (nk + 7)).map fun r => (List.range 4).flatMap fun c => w.getD (4 * r + c) []

/-- ShiftRows on 16 bytes in columns; MixColumns with the given first row. -/
def shiftRows (back : Bool) (st : List Nat) : List Nat :=
  (List.range 16).map fun i => st.getD ((if back then i + 16 - 4 * (i % 4) else i + 4 * (i % 4)) % 16) 0
def mixCols (m : List Nat) (st : List Nat) : List Nat :=
  (List.range 16).map fun i => (List.range 4).foldl (fun a k => a ^^^ gmul (m.getD ((k + 4 - i % 4) % 4) 0) (st.getD (i / 4 * 4 + k) 0)) 0

/-- The cipher and the inverse cipher on one block. -/
def aesEnc (key blk : List Byte) : List Byte :=
  match roundKeys key with
  | [] => blk
  | k0 :: ks =>
    let st := List.zipWith (· ^^^ ·) (blk.map (·.toNat)) k0
    let st := ks.dropLast.foldl (fun st k => List.zipWith (· ^^^ ·) (mixCols [2, 3, 1, 1] (shiftRows false (st.map sbox))) k) st
    (List.zipWith (· ^^^ ·) (shiftRows false (st.map sbox)) (ks.getLastD [])).map (BitVec.ofNat 8)
def aesDec (key blk : List Byte) : List Byte :=
  match (roundKeys key).reverse with
  | [] => blk
  | k0 :: ks =>
    let st := List.zipWith (· ^^^ ·) (blk.map (·.toNat)) k0
    let st := ks.dropLast.foldl (fun st k => mixCols [14, 11, 13, 9] (List.zipWith (· ^^^ ·) ((shiftRows true st).map sboxInv) k)) st
    (List.zipWith (· ^^^ ·) ((shiftRows true st).map sboxInv) (ks.getLastD [])).map (BitVec.ofNat 8)

/-! ### Modes -/

/-- RFC 3394: the initial value, and the six passes of wrapping and of unwrapping over n semiblocks. -/
def kwIv : List Byte := List.replicate 8 0xA6
def keyWrap (kek key : List Byte) : List Byte :=
  let n := key.length / 8
  let r := (List.range (6 * n)).foldl (fun (s : List Byte × List (List Byte)) t =>
    let i := t % n
    let b := aesEnc kek (s.1 ++ s.2.getD i [])
    (xorBytes (b.take 8) (beBytes 8 (t + 1)), s.2.set i (b.drop 8))) (kwIv, chunks 8 key)
  r.1 ++ r.2.flatten
def keyUnwrap (kek w : List Byte) : Option (List Byte) :=
  let n := w.length / 8 - 1
  let r := (List.range (6 * n)).reverse.foldl (fun (s : List Byte × List (List Byte)) t =>
    let i := t % n
    let b := aesDec kek (xorBytes s.1 (beBytes 8 (t + 1)) ++ s.2.getD i [])
    (b.take 8, s.2.set i (b.drop 8))) (w.take 8, chunks 8 (w.drop 8))
  if r.1 = kwIv then some r.2.flatten else none

/-- Multiplication of GHASH: 128-bit values, first bit most significant. -/
def ghMul (x y : Nat) : Nat :=
  ((List.range 128).foldl (fun (s : Nat × Nat) i =>
    (if bitOf x (127 - i) then s.1 ^^^ s.2 else s.1, if s.2 % 2 = 1 then s.2 / 2 ^^^ (0xE1 * 2 ^ 120) else s.2 / 2)) (0, y)).1
def ghash (h : Nat) (blks : List (List Byte)) : Nat :=
  blks.foldl (fun a b => ghMul (a ^^^ beNat (b ++ List.replicate (16 - b.length) 0)) h) 0

/-- The key stream of GCM over a text. -/
def gcmCtr (key iv txt : List Byte) : List Byte :=
  ((chunks 16 txt).mapIdx fun i b => xorBytes b (aesEnc key (iv ++ beBytes 4 (i + 2)))).flatten
/-- The tag of GCM over additional data and ciphertext. -/
def gcmTag (key iv aad ct : List Byte) : List Byte :=
  let h := beNat (aesEnc key (List.replicate 16 0))
  let g := ghash h (chunks 16 aad ++ chunks 16 ct ++ [beBytes 8 (8 * aad.length) ++ beBytes 8 (8 * ct.length)])
  xorBytes (beBytes 16 g) (aesEnc key (iv ++ beBytes 4 1))

/-- AES-CMAC. -/
def cmacDouble (x : Nat) : Nat := let y := 2 * x; if 2 ^ 128 ≤ y then (y % 2 ^ 128) ^^^ 0x87 else y
def cmac (key msg : List Byte) : List Byte :=
  let k1 := cmacDouble (beNat (aesEnc key (List.replicate 16 0)))
  let n := (msg.length + 15) / 16
  let lastBlk := msg.drop (16 * (n - 1))
  let full := n ≠ 0 && lastBlk.length = 16
  let m := if full then beNat lastBlk ^^^ k1
    else beNat (lastBlk ++ [0x80] ++ List.replicate (15 - lastBlk.length) 0) ^^^ cmacDouble k1
  let x := (chunks 16 (msg.take (16 * (n - 1)))).foldl (fun a b => beNat (aesEnc key (beBytes 16 (a ^^^ beNat b)))) 0
  aesEnc key (beBytes 16 (x ^^^ m))

end Sys2Proof.Machine
end

