-- ==== Sys2Proof/Machine/Halls.lean ====
section
/-! DEFINITION. Halls and the non-volatile store (R296 to R317). -/

namespace Sys2Proof.Machine

/-- How a memory-space access ended: normally, refused (R24, R299, R308), or on an uncorrectable error (R305, R311). -/
inductive MemRes where
  | ok | refused | ecc
deriving DecidableEq, Repr

/-- The bus-error outcomes. -/
def MemRes.bad (r : MemRes) : Bool := r ≠ .ok

/-! ### ECC marks -/

/-- The error a word holds. -/
def errGet (l : List (Nat × EccErr)) (w : Nat) : Option EccErr := (l.find? (fun e => e.1 = w)).map (·.2)

/-- Replace the error a word holds. -/
def errPut (l : List (Nat × EccErr)) (w : Nat) (e : Option EccErr) : List (Nat × EccErr) :=
  match e with
  | none => cellDel w l
  | some x => cellIns w x (cellDel w l)

/-- An error found in a stored word: 1 one bit, 2 two bits. -/
def errOf (k : Nat) : Option EccErr := match k with | 0 => none | 1 => some .single | _ => some .double

/-- OWNER code of a master, with 11 for the self-test controller (Tables 14.1, 14.7, R415). A channel tied to the bed that owns the
hall carries the bed's code. -/
def State.masterCode (s : State) (m : Master) (h : Nat) : Nat :=
  match m with
  | .host => 1 | .gallery => 2 | .chart => 4 | .gauge => 5 | .wvl => 10 | .stc => 11 | .needle _ => 3
  | .hook c =>
    let o := s.get (F.HAL_OWN.OWNER h)
    let b := s.get (F.HK_CFG.BED c)
    if h < 16 && decide (1 ≤ b) && decide (b ≤ 4) && o = 5 + b then o else 3

/-- The MCLK in which an FCLK falls. -/
def State.mclk (s : State) : Nat := s.clockNo .memory s.fclk

/-- An error of the present MCLK stands in HAL_ECCA that another of the same MCLK does not replace: an uncorrectable one against a
corrected one, and on equal kind the one of port A (R305). -/
def State.eccYields (s : State) (unc portB : Bool) : Bool :=
  match s.hal.eccT with
  | some (m, u, b) => m = s.mclk && ((u && !unc) || (u = unc && !b && portB))
  | none => false

/-- HAL_ECCA takes an error. -/
def State.eccAddr (s : State) (unc : Bool) (addr code : Nat) (portB rmw : Bool) : State :=
  let m := s.mclk
  let s := (s.set F.HAL_ECCA_LO addr).set F.HAL_ECCA_HI.ADDR (addr / 2 ^ 20)
  let s := ((s.setB F.HAL_ECCA_HI.UNCOR unc).set F.HAL_ECCA_HI.MASTER code).setB F.HAL_ECCA_HI.PORT portB
  (s.setB F.HAL_ECCA_HI.RMW rmw).updHal fun x => { x with eccT := some (m, unc, portB) }

/-- The record of an ECC error (R305): counts, address, flags, and the report to the Porter. `acc` is the access type of R415. -/
def State.eccRecord (s : State) (nvs unc : Bool) (addr code : Nat) (portB rmw : Bool) (acc : Nat) (det : Nat) : State :=
  let s := if unc then (s.evtInc F.HAL_ECCCNT.UNCOR).evt F.HAL_STAT.UNCOR else (s.evtInc F.HAL_ECCCNT.CORR).evt F.HAL_STAT.CORR
  let s := if s.eccYields unc portB then s else s.eccAddr unc addr code portB rmw
  let src := (if nvs then 66 else 64) + b2n unc
  s.reportSig ⟨src, det, addr, code, acc⟩

/-! ### Halls (R297 to R305) -/

/-- The access uses port A: the master owns the hall, or is WVL (R298). -/
def State.ownsHall (s : State) (m : Master) (h : Nat) : Bool :=
  let o := s.get (F.HAL_OWN.OWNER h)
  match m with
  | .host => o = 1
  | .gallery => o = 2
  | .hook c => o = 3 || (let b := s.get (F.HK_CFG.BED c); decide (1 ≤ b) && decide (b ≤ 4) && o = 5 + b)
  | .chart => o = 4
  | .gauge => o = 5
  | .wvl => true
  | .stc => false
  | .needle _ => false

/-- Charts (0x50) and AWO tables (0x59) of the running image: type, first byte in the halls, length. A block reset leaves them. -/
def State.runPlaces (s : State) : List (Nat × Nat × Nat) :=
  match s.wvl.run with
  | none => []
  | some im => im.sects.filterMap fun x =>
    let b := x.data
    if x.typ = 0x50 then some (0x50, 524288 * leAt b 0 1 + leAt b 4 4, leAt b 8 4)
    else if x.typ = 0x59 && leAt b 0 1 ≠ 0xFF then some (0x59, 524288 * leAt b 0 1 + leAt b 4 4, 2048)
    else none

/-- Byte ranges that port B writes may not reach: charts and AWO tables of the running image, and HALL15 (R299). -/
def State.guarded (s : State) (a n : Nat) : Bool :=
  s.runPlaces.any (fun p => decide (a < p.2.1 + p.2.2) && decide (p.2.1 < a + n)) || decide (15 * 524288 < a + n)

/-- The port an access uses: `some false` port A, `some true` port B, none refused (R299, R308). -/
def State.hallPort (s : State) (m : Master) (a n : Nat) (write : Bool) : Option Bool :=
  let h := a / 524288
  if decide (16 ≤ h) || !s.bit (F.HAL_OWN.PWR h) then none
  else if s.ownsHall m h then some false
  else
    match m with
    | .stc => some true
    | .host => if write then none else some true
    | .gallery => if write then none else some true
    | .hook _ => if write && s.guarded a n then none else some true
    | _ => none

/-- Write bytes of one word, with check bits computed again. -/
def State.hallPut (s : State) (a : Nat) (bs : List Byte) : State :=
  { s.setHallBytes a bs with hallErr := errPut s.hallErr (a / 8) none }

/-- One word access of `n` bytes at `a`, on a granted port. A single-bit error is corrected, recorded and queued for scrubbing; a
double-bit error ends the access and writes nothing (R305). -/
def State.hallWord (s : State) (m : Master) (a n : Nat) (wr : Option (List Byte)) (portB : Bool) (acc : Nat) :
    State × List Byte × MemRes :=
  let w := a / 8
  let h := a / 524288
  let rmw := wr.isSome && decide (n < 8)
  let reads := wr.isNone || rmw
  let addr := 8 * w
  let code := s.masterCode m h
  let acc := if acc = 4 then 4 else if rmw then 3 else if wr.isSome then 2 else 1
  match (if reads then errGet s.hallErr w else none) with
  | some .double => (s.eccRecord false true addr code portB rmw acc h, List.replicate n 0, .ecc)
  | e =>
    let s := if e = some .single then s.eccRecord false false addr code portB rmw acc h else s
    match wr with
    | some bs => (s.hallPut a (bs.take n), [], .ok)
    | none =>
      let s := if e = some .single && s.bit F.HAL_CFG.SCRUB && !s.hal.scrubQ.contains w then
          s.updHal fun x => { x with scrubQ := x.scrubQ ++ [w] } else s
      let zero := portB && decide (15 * 524288 ≤ a) && s.life = 2 && decide (m ≠ .stc)
      (s, if zero then List.replicate n 0 else s.hallBytes a n, .ok)

/-- An access of `n` bytes at hall byte `a`, split at a word boundary, lower word first (R304). -/
def State.hallOp (s : State) (m : Master) (a n : Nat) (wr : Option (List Byte)) (acc : Nat) : State × List Byte × MemRes :=
  match s.hallPort m a n wr.isSome with
  | none => (s, List.replicate n 0, .refused)
  | some pb =>
    let n1 := min n (8 - a % 8)
    let r1 := s.hallWord m a n1 (wr.map (·.take n1)) pb acc
    if n = n1 then r1
    else if r1.2.2 ≠ .ok then (r1.1, List.replicate n 0, r1.2.2)
    else
      match r1.1.hallPort m (a + n1) (n - n1) wr.isSome with
      | none => (r1.1, List.replicate n 0, .refused)
      | some pb2 =>
        let r2 := r1.1.hallWord m (a + n1) (n - n1) (wr.map (·.drop n1)) pb2 acc
        (r2.1, if r2.2.2 = .ok then r1.2.1 ++ r2.2.1 else List.replicate n 0, r2.2.2)

/-- Read `n` bytes as a sequence of 4-byte accesses; the first failure ends it. -/
def State.hallRead (s : State) (m : Master) (a : Nat) (acc : Nat) : Nat → State × List Byte × MemRes
  | 0 => (s, [], .ok)
  | k + 1 =>
    let r := s.hallOp m a 4 none acc
    if r.2.2 ≠ .ok then r
    else
      let q := r.1.hallRead m (a + 4) acc k
      (q.1, r.2.1 ++ q.2.1, q.2.2)

/-- Bytes of an access size. -/
def accBytes (z : AccSize) : Nat := match z with | .b1 => 1 | .b2 => 2 | .b4 => 4 | .b8 => 8

/-! ### The arbiter of the ports (R297, R300 to R304)

Requests of one MCLK compete at its end, so their order in the queue of commands has no weight. -/

/-- An access of a master has ended, with its data and whether it ended with a bus error. -/
def State.busEnd (s : State) (m : Master) (d : List Byte) (bad : Bool) : State :=
  s.updHal fun x => { x with res := (m, d, bad) :: x.res.filter fun e => e.1 ≠ m }

/-- What the last access of a master gave. -/
def State.busRes (s : State) (m : Master) : Option (List Byte × Bool) := (s.hal.res.find? fun e => e.1 = m).map (·.2)

/-- HALL_ACCESS: a request comes to a hall, to compete from the present MCLK on. -/
def execHallAccess (m : Master) (a : BitVec 23) (sz : AccSize) (wr : Option (BitVec 64)) (err : WordErrs) (s : State) : Out :=
  .next <|
    if s.islandUp .memory then
      let n := accBytes sz
      let r : HallReq := ⟨m, a.toNat, n, wr.map fun v => leBytes n v.toNat, err, [], s.mclk, 0⟩
      s.updHal fun x => { x with reqs := x.reqs ++ [r] }
    else s

/-- The port a request seeks, as 2 × hall + port; none where it is refused (R299). -/
def State.reqPort (s : State) (r : HallReq) : Option Nat :=
  (s.hallPort r.m r.addr r.len r.wr.isSome).map fun b => 2 * (r.addr / 524288) + b2n b

/-- Its place in the order of Table 14.2, lowest first; HOOK's requests among themselves as its arbiter has it: by level, then the
channel after the one last granted (R331). -/
def State.reqRank (s : State) (r : HallReq) : Nat :=
  match r.m with
  | .stc => 0
  | .hook c =>
    let p := s.get (F.HK_CFG.PRIO c)
    16 * (4 - p) + (c + 15 - vget s.hook.last p 15) % 16
  | .gallery => 100
  | .host => 101
  | .wvl => if s.get (F.HAL_OWN.OWNER (r.addr / 524288)) = 10 then 0 else 102
  | _ => 0

/-- MCLK that a request may lose before it goes ahead of all others; HOLDTO 0 acts as 1 (R302). -/
def State.holdLimit (s : State) : Nat := 4 * max 1 (s.get F.HAL_CFG.HOLDTO)

/-- A read-modify-write holds port `p` in MCLK `m`. -/
def State.portHeld (s : State) (p m : Nat) : Bool := s.hal.held.any fun e => e.1 = p && decide (m ≤ e.2)

/-- The request that port `p` grants in MCLK `m`: none while the port is held, or while a request has reached the hold limit, which
HALL_HOLD_LIMIT grants; else the highest in the order, the older of equal ones. -/
def State.portWin (s : State) (p m : Nat) : Option HallReq :=
  let rs := s.hal.reqs.filter fun r => decide (r.t ≤ m) && s.reqPort r = some p
  if s.portHeld p m || rs.any (fun r => decide (s.holdLimit ≤ r.lost)) then none
  else rs.foldl (fun b r => match b with | none => some r | some x => if s.reqRank r < s.reqRank x then some r else some x) none

/-- A granted request has one word served in MCLK `m`; the second word of a split access competes from the next MCLK on. -/
def State.reqServe (s : State) (m : Nat) (r : HallReq) (p : Nat) : State :=
  let n := min r.len (8 - r.addr % 8)
  let e := r.err.first.val
  let s := s.updHal fun x => { x with reqs := x.reqs.erase r }
  let s := if e = 0 then s else { s with hallErr := errPut s.hallErr (r.addr / 8) (errOf e) }
  let s := if r.wr.isSome && decide (n < 8) then
      s.updHal fun x => { x with held := (p, m + 1) :: x.held.filter fun h => h.1 ≠ p } else s
  let q := s.hallWord r.m r.addr n (r.wr.map (·.take n)) (p % 2 = 1) (if r.wr.isSome then 2 else 1)
  if q.2.2.bad then q.1.busEnd r.m (List.replicate (r.data.length + r.len) 0) true
  else if r.len = n then q.1.busEnd r.m (r.data ++ q.2.1) false
  else
    let r' : HallReq := ⟨r.m, r.addr + n, r.len - n, r.wr.map (·.drop n), ⟨r.err.second, 0⟩, r.data ++ q.2.1, m + 1, 0⟩
    q.1.updHal fun x => { x with reqs := x.reqs ++ [r'] }

/-- Requests that are refused end with a bus error (R299, R308). -/
def State.reqsRefuse (s : State) (m : Nat) : State :=
  s.each (s.hal.reqs.filter fun r => decide (r.t ≤ m) && (s.reqPort r).isNone) fun s r =>
    (s.updHal fun x => { x with reqs := x.reqs.erase r }).busEnd r.m (List.replicate (r.data.length + r.len) 0) true

/-- The arbitration of MCLK `m`: every port grants one request, the others lose. Of one word that both ports reach, a write on port A is
the last to write and a read gives what was written (R301). -/
def State.hallMclk (s : State) (m : Nat) : State :=
  if s.hal.reqs.isEmpty then s
  else
    let s := s.reqsRefuse m
    let wins := (List.range 32).filterMap fun p => (s.portWin p m).map fun r => (p, r)
    let lose := fun (r : HallReq) => if decide (r.t ≤ m) && !(wins.any fun w => w.2 = r) then { r with lost := r.lost + 1 } else r
    let s := s.updHal fun x => { x with reqs := x.reqs.map lose }
    let wr := wins.filter fun w => w.2.wr.isSome
    let s := s.each (wr.filter fun w => w.1 % 2 = 1) fun s w => s.reqServe m w.2 w.1
    let s := s.each (wr.filter fun w => w.1 % 2 = 0) fun s w => s.reqServe m w.2 w.1
    s.each (wins.filter fun w => w.2.wr.isNone) fun s w => s.reqServe m w.2 w.1

/-- HALL_HOLD_LIMIT (R302): on a port, a request that has lost for the limit is granted ahead of all others, flagged, recorded and
reported; the port grants nothing else in this MCLK. -/
def execHallHoldLimit (h : Fin 16) (portB : Bool) (s : State) : Out :=
  .next <|
    if s.islandUp .memory then
      let p := 2 * h.val + b2n portB
      match s.hal.reqs.find? fun r => decide (s.holdLimit ≤ r.lost) && s.reqPort r = some p with
      | none => s
      | some r =>
        let m := s.mclk
        let code := s.masterCode r.m h
        let s := ((s.evt F.HAL_STAT.HOLDF).set F.HAL_HOLD.HALL h).setB F.HAL_HOLD.PORT portB
        let s := (s.set F.HAL_HOLD.MASTER code).evtInc F.HAL_HOLD.COUNT
        let s := s.reportSig ⟨68, h, r.addr, code, if r.wr.isSome then if min r.len (8 - r.addr % 8) < 8 then 3 else 2 else 1⟩
        (s.updHal fun x => { x with held := (p, m) :: x.held.filter fun e => e.1 ≠ p }).reqServe m r p
    else s

/-- Port B of a hall is free: no read-modify-write holds it and no request competes for it. -/
def State.portFree (s : State) (p : Nat) : Bool := !s.portHeld p s.mclk && !s.hal.reqs.any fun r => s.reqPort r = some p

/-- SCRUB_WRITEBACK (R305): the next corrected word is written back when port B of its hall is free, unless it has been written since. -/
def execScrubWriteback (s : State) : Out :=
  .next <|
    if s.islandUp .memory then
      match s.hal.scrubQ with
      | [] => s
      | w :: t =>
        if !s.portFree (2 * (w / 65536) + 1) then s
        else
        let s := s.updHal fun x => { x with scrubQ := t }
        if errGet s.hallErr w = some .single then { s with hallErr := errPut s.hallErr w none } else s
    else s

/-- HALL_OWNER_WRITE (R303). -/
def State.ownerWrite (s : State) (h : Nat) (src : Master) (v : Word) : State :=
  let a := R.HAL_OWN h
  let old := (s.reg a).toNat
  let new := s.merged src a old v.toNat % 16
  let s := if s.wlBlocked src a old v.toNat then s.recordReject a else s
  if s.wlAllow src a v.toNat % 16 = 0 then s
  else if s.bit (F.HAL_OWN.LOCKOWN h) || h = 15 || decide (10 ≤ new)
      || s.runPlaces.any (fun p => p.2.1 / 524288 = h && new ≠ if p.1 = 0x50 then 4 else 5) then
    s.evt F.HAL_STAT.OWNREJ
  else (s.set (F.HAL_OWN.HOPEND h) 1).updHal fun x => { x with handover := cellIns h new (cellDel h x.handover) }
def execHallOwnerWrite (h : Fin 16) (src : Master) (v : Word) (s : State) : Out :=
  .next (if s.islandUp .memory then s.ownerWrite h src v else s)

/-- HALL_OWNER_HANDOVER (R303): no access of the old owner is under way on port A. -/
def execHallOwnerHandover (h : Fin 16) (s : State) : Out :=
  .next <|
    match s.hal.handover.find? (fun e => e.1 = h.val) with
    | none => s
    | some e =>
      if s.islandUp .memory && !s.portHeld (2 * h.val) s.mclk then
        ((s.set (F.HAL_OWN.OWNER h) e.2).set (F.HAL_OWN.HOPEND h) 0).updHal fun x => { x with handover := cellDel h.val x.handover }
      else s

/-! ### NVS (R309 to R312) -/

/-- The page an NVS write is under way on. -/
def State.nvBusyPage (s : State) : Option Nat :=
  match s.hal.running with
  | some ⟨_, (p, _) :: _⟩ => some p
  | _ => none

/-- The words from `w` on hold an error, the worst of them. -/
def State.nvErr (s : State) (w : Nat) : Nat → Option EccErr
  | 0 => none
  | k + 1 =>
    match errGet s.nvsErr w, s.nvErr (w + 1) k with
    | some .double, _ => some .double
    | _, some .double => some .double
    | some .single, _ => some .single
    | _, e => e

/-- Read NVS through the ECC: a double-bit error anywhere ends the read (R311). -/
def State.nvOp (s : State) (code a n : Nat) : State × List Byte × MemRes :=
  let w := a / 8
  let k := (a + n + 7) / 8 - w
  match s.nvErr w k with
  | some .double => (s.eccRecord true true (0x1000000 + 8 * w) code true false 1 0, List.replicate n 0, .ecc)
  | some .single => (s.eccRecord true false (0x1000000 + 8 * w) code true false 1 0, s.nvBytes a n, .ok)
  | none => (s, s.nvBytes a n, .ok)

/-- A read of `n` bytes touches the page being written, so it waits (R311). -/
def State.nvWaits (s : State) (a n : Nat) : Bool :=
  match s.nvBusyPage with
  | some p => decide (a < 32 * p + 32) && decide (32 * p < a + n)
  | none => false

/-- Memory-space reads of NVS: bytes of the factory and trust areas read zero (Table 14.5). -/
def State.nvSpace (s : State) (m : Master) (a n : Nat) : State × List Byte × MemRes :=
  let code := s.masterCode m 16
  let lo := 0x100000
  let hi := 0x102000
  if decide (a + n ≤ lo) || decide (hi ≤ a) then s.nvOp code a n
  else if a < lo then
    let r := s.nvOp code a (lo - a)
    (r.1, r.2.1 ++ List.replicate (n - (lo - a)) 0, r.2.2)
  else if a + n ≤ hi then (s, List.replicate n 0, .ok)
  else
    let r := s.nvOp code hi (a + n - hi)
    (r.1, List.replicate (hi - a) 0 ++ r.2.1, r.2.2)

/-- An internal read of NVS finds the errors of the words from byte `a` to `b`: each is recorded (R305, R311). -/
def State.nvScan (s : State) (a b : Nat) : State :=
  s.each (s.nvsErr.filter fun e => decide (a < 8 * e.1 + 8) && decide (8 * e.1 < b)) fun s e =>
    s.eccRecord true (decide (e.2 = .double)) (0x1000000 + 8 * e.1) 12 true false 1 0

/-- NVS_READ (R311): a read of the page being written waits. -/
def execNvsRead (m : Master) (a : BitVec 21) (sz : AccSize) (err : WordErrs) (s : State) : Out :=
  .next <|
    if s.islandUp .memory && !s.nvWaits a.toNat (accBytes sz) then
      let w := a.toNat / 8
      let l := if err.first.val = 0 then s.nvsErr else errPut s.nvsErr w (errOf err.first.val)
      let l := if err.second.val = 0 then l else errPut l (w + 1) (errOf err.second.val)
      let r := ({ s with nvsErr := l } : State).nvSpace m a.toNat (min (accBytes sz) (2097152 - a.toNat))
      r.1.busEnd m r.2.1 r.2.2.bad
    else s

/-- The order in which waiting requests start (R312). -/
def NvWho.rank (w : NvWho) : Nat :=
  match w with | .log => 0 | .stc => 1 | .tru => 2 | .trk n => 3 + n | .wvl => 7 | .host => 8

/-- A request of `w` waits or runs. -/
def State.nvHas (s : State) (w : NvWho) : Bool :=
  s.hal.waiting.any (fun r => r.who = w) || (match s.hal.running with | some r => r.who = w | none => false)

/-- Any NVS write runs or waits: HAL_NVSTAT.WBUSY (R312). -/
def State.nvAny (s : State) : Bool := !s.hal.waiting.isEmpty || s.hal.running.isSome

/-- A request to write pages. -/
def State.nvAsk (s : State) (w : NvWho) (todo : List (Nat × List Byte)) : State :=
  s.updHal fun x => { x with waiting := x.waiting ++ [⟨w, todo⟩] }

/-- A page takes 32 bytes with valid check bits. -/
def State.nvPut (s : State) (p : Nat) (bs : List Byte) : State :=
  { s.setNvBytes (32 * p) bs with
    nvsErr := (List.range 4).foldl (fun l i => errPut l (4 * p + i) none) s.nvsErr }

/-- 32 erased bytes. -/
def erased : List Byte := List.replicate 32 0xFF

/-- What a page reads as after a write that a reset cut: its old data, its new data, or a double-bit error, as a free value says
(R312). -/
def State.nvTorn (s : State) (p : Nat) (bs : List Byte) : State :=
  let r := s.free
  match r.1 % 3 with
  | 0 => r.2
  | 1 => r.2.nvPut p bs
  | _ => { r.2 with nvsErr := (List.range 4).foldl (fun l i => errPut l (4 * p + i) (some .double)) r.2.nvsErr }

/-- What a page holds after its write has failed twice: the spec does not say, so bytes and errors are free values (R309). -/
def State.nvFailed (s : State) (p : Nat) : State :=
  let c := s.freeCtr
  let bs := (List.range 32).map fun i => BitVec.ofNat 8 (Config.freeWord (c + i)).toNat
  let s := s.nvPut p bs
  { s with
    nvsErr := (List.range 4).foldl (fun l i => errPut l (4 * p + i) (errOf ((Config.freeWord (c + 32 + i)).toNat % 3))) s.nvsErr
    freeCtr := c + 36 }

/-- NVS_WRITE_START (R312): the waiting request of lowest rank starts. -/
def execNvsWriteStart (s : State) : Out :=
  .next <|
    if s.islandUp .memory && s.hal.running.isNone then
      match s.hal.waiting with
      | [] => s
      | h :: t =>
        let best := t.foldl (fun b r => if r.who.rank < b.who.rank then r else b) h
        s.updHal fun x => { x with waiting := x.waiting.erase best, running := some best }
    else s

/-- A log entry was programmed: the head advances (R316); one whose program failed is dropped (R459). -/
def State.logDone (s : State) (ok : Bool) : State :=
  if ok then (s.set F.HAL_LOGHEAD ((s.get F.HAL_LOGHEAD + 1) % 31744)).updHal fun x => { x with logSeq := x.logSeq + 1 }
  else (s.evtInc F.HAL_LOGSTAT.DROP).raise 4

/-- The oldest repair record that waits is asked for: the controller holds one request at a time (R312). -/
def State.repairAsk (s : State) : State :=
  match s.stc.recQ with
  | [] => s
  | e :: t => if s.nvHas .stc then s else (s.updStc fun x => { x with recQ := t }).nvAsk .stc [e]

/-- A repair record was programmed, or failed (R434, R441). -/
def State.repairDone (s : State) (ok : Bool) : State :=
  let n := s.stc.recsN
  match s.stc.recs[n]? with
  | none => s
  | some (h, r, sp, g) =>
    if ok then
      let s := (s.updStc fun x => { x with recsN := n + 1 }).set (F.HAL_SPARE.PEND h) 1
      let s := if s.get F.STC_MFAIL0.HALL = h && s.get F.STC_MFAIL0.REGION = g then s.set F.STC_MFAIL1.REC 1 else s
      s.raise 318
    else s.updStc fun x => { x with recs := x.recs.erase (h, r, sp, g) }

/-! ### Trust records (R392) -/

/-- First page of trust record copy `c`, and of identity record copy `c`. -/
def trustPage (c : Nat) : Nat := 0x101000 / 32 + 8 * c
def identPage (c : Nat) : Nat := 0x101000 / 32 + 16 + 8 * c

/-- The pages of a trust record: the header is erased, the digests of the slots follow, the header comes last. -/
def trustPages (r : TrustRec) (c : Nat) : List (Nat × List Byte) :=
  let hdr := ascii "EZTR" ++ leBytes 4 r.gen ++ [byteOf r.life, byteOf r.mask] ++ leBytes 2 r.floor ++ List.replicate 20 0
  (trustPage c, erased) :: ((List.range 4).map fun i => (trustPage c + 1 + i, ((r.digs.getD i []) ++ List.replicate 32 0).take 32))
    ++ [(trustPage c, hdr)]

/-- The copy that an update writes: the one that is not in force. -/
def State.truCopy (s : State) : Fin 2 := match s.tru.copy with | some c => 1 - c | none => 0

/-- An update of the trust record begins; GEN goes one above the record in force. `before` are pages written ahead of it (R399). -/
def State.truAsk (s : State) (r : TrustRec) (cmd : Bool) (before : List (Nat × List Byte)) : State :=
  let r := { r with gen := s.tru.rec_.gen + 1 }
  (s.updTru fun t => { t with job := some (.record r cmd) }).nvAsk .tru (before ++ trustPages r s.truCopy)

/-- WVL_FLOOR rises to `v` when the update under way, if any, has ended (R392). -/
def State.floorRaise (s : State) (v : Nat) : State :=
  if v ≤ s.tru.rec_.floor then s
  else if s.tru.job.isSome then s.updTru fun t => { t with floorQ := some v }
  else s.truAsk { s.tru.rec_ with floor := v } false []

/-- The registers that show a trust record. -/
def State.truShow (s : State) (r : TrustRec) : State :=
  ((s.set F.TRU_STAT.LIFE r.life).set F.TRU_STAT.SLOTS r.mask).set F.WVL_FLOOR r.floor

/-- The registers that show the identity: key, first digest bytes, IDOK (R390). -/
def State.idShow (s : State) (pub : List Byte) : State :=
  let s := s.each (List.range 32) fun s k => s.set (F.TRU_IDPUB k) (leAt pub (2 * k) 2)
  let dig := sha256 pub
  (s.each (List.range 4) fun s k => s.set (F.GAL_ID k) (leAt dig (2 * k) 2)).set F.TRU_STAT.IDOK 1

/-- An update of TRU has ended: a new record is in force, or the identity stands; a command learns its outcome; a floor that waits
is raised. -/
def State.truDone (s : State) (ok : Bool) : State :=
  let c := s.truCopy
  let j := s.tru.job
  let s := s.updTru fun t => { t with job := none }
  let s := match j with
    | none => s
    | some (.identity pub) => if ok then s.idShow pub else s
    | some (.record r cmd) =>
      let s := if ok then (s.truShow r).updTru fun t => { t with rec_ := r, copy := some c } else s
      if cmd then s.updTru fun t => { t with cmd := t.cmd.map fun (x : TruCmd) => { x with cause := some (if ok then 0 else 10) } } else s
  match s.tru.floorQ with
  | none => s
  | some v => (s.updTru fun t => { t with floorQ := none }).floorRaise v

/-- Pages that WVL writes, after those it has asked for (R312). -/
def State.wvlAsk (s : State) (todo : List (Nat × List Byte)) : State :=
  if s.nvHas .wvl then
    s.updHal fun x =>
      { x with
        waiting := x.waiting.map fun r => if r.who = .wvl then { r with todo := r.todo ++ todo } else r
        running := x.running.map fun (r : NvReq) => if r.who = .wvl then { r with todo := r.todo ++ todo } else r }
  else s.nvAsk .wvl todo

/-- WVL's pages not yet begun are given up. -/
def State.wvlDrop (s : State) : State :=
  s.updHal fun x =>
    { x with
      waiting := x.waiting.filter fun r => r.who ≠ .wvl
      running := x.running.map fun (r : NvReq) => if r.who = .wvl then { r with todo := r.todo.take 1 } else r }

/-- The header page of slot `i` (R310). -/
def slotPage (i : Fin 2) : Nat := 16384 * i.val

/-- A failed verification or load, or a refused command, shows (R92). -/
def State.wvlFlag (s : State) (cause : Nat) : State := (s.set F.WVL_STAT.CAUSE cause).evt F.WVL_STAT.FAIL

/-- Slot `i` is erased: its header page, by an NVS write in its turn (R310). -/
def State.slotErase (s : State) (i : Fin 2) : State := s.wvlAsk [(slotPage i, erased)]

/-- An NVS write that erases the header page of slot `i` waits or runs. -/
def State.slotErasing (s : State) (i : Fin 2) : Bool :=
  (s.hal.waiting ++ s.hal.running.toList).any fun r => r.who = .wvl && r.todo.any fun e => e.1 = slotPage i && e.2 = erased

/-- A chip-level reset during a load into a slot leaves the slot without a valid header (R88). -/
def State.slotCut (s : State) : State :=
  s.each [0, 1] fun s (i : Fin 2) => if s.wvl.load = some (.slot i) || s.slotErasing i then s.nvPut (slotPage i) erased else s

/-- A load into slot `i` fails: the slot is erased and shows its cause (R87, R88). -/
def State.slotFail (s : State) (i : Fin 2) (cause : Nat) : State :=
  let s := (((s.wvlFlag cause).set (F.WVL_SLOT.STATE i) 2).set (F.WVL_SLOT.CAUSE i) cause).set (F.WVL_VER i) 0
  let s := (s.set F.WVL_STAT.LOADING 0).updWvl fun w => { w with load := none, verify := none, cand := none, page := none, hdr := none }
  s.wvlDrop.slotErase i

/-- A page of WVL's could not be programmed: the load under way, or its verification, ends (R88). -/
def State.wvlProgFail (s : State) : State :=
  match s.wvl.load, s.wvl.verify with
  | some (.slot i), _ => s.slotFail i 20
  | _, some (.slot i) => if s.get F.PCR_STAT.BOOTSTEP = 6 then s.slotFail i 20 else s
  | _, _ => s

/-- The header page of a stored image that passed is programmed: the slot is a candidate (R87, R89). -/
def State.hdrDone (s : State) : State :=
  match s.wvl.hdr with
  | some (im, i) =>
    let s := ((s.setReg (R.WVL_SLOT i) 1).set (F.WVL_VER i) im.version).evt F.WVL_STAT.DONE
    s.updWvl fun w => { w with verify := none, hdr := none, cand := some (im, i) }
  | none => s

/-- A request has ended: the log's head moves, the self-test controller's record stands, the host's status shows it, and the others
find it in `ended`. -/
def State.nvEnd (s : State) (w : NvWho) (ok : Bool) : State :=
  match w with
  | .log => s.logDone ok
  | .stc => (s.repairDone ok).repairAsk
  | .tru => s.truDone ok
  | .host => if ok then s.evt F.HAL_NVSTAT.DONE else s.evt F.HAL_NVSTAT.ERR
  | .wvl => if ok then s.hdrDone else s.wvlProgFail
  | _ => s.updHal fun x => { x with ended := x.ended ++ [(w, ok)] }

/-- NVS_WRITE_DONE (R309, R312): the page of the running request is written, and its next page waits in its turn; a failure ends
the request. -/
def execNvsWriteDone (ok : Bool) (s : State) : Out :=
  .next <|
    match s.hal.running with
    | none => s
    | some r =>
      if s.islandUp .memory then
        let s := s.updHal fun x => { x with running := none }
        match r.todo with
        | [] => s.nvEnd r.who ok
        | (p, bs) :: t =>
          let s := if ok then s.nvPut p bs else s.nvFailed p
          if ok && !t.isEmpty then s.nvAsk r.who t else s.nvEnd r.who ok
      else s

/-- The outcome of an ended request of `w`, and the state with it taken. -/
def State.nvTake (s : State) (w : NvWho) : Option (Bool × State) :=
  match s.hal.ended.find? (fun e => e.1 = w) with
  | none => none
  | some e => some (e.2, s.updHal fun x => { x with ended := x.ended.erase e })

/-- A host command on the user area (R313). -/
def State.nvHost (s : State) (bs : List Byte) : State :=
  let p := s.get F.HAL_NVPAGE
  if s.nvHas .host then s.evt F.HAL_NVSTAT.REFUSED
  else if decide (33408 ≤ p) && decide (p ≤ 33791) then s.nvAsk .host [(p, bs)]
  else s.evt F.HAL_NVSTAT.PROT

/-- The page buffer HAL_NVBUF0 to HAL_NVBUF15. -/
def State.nvBuf (s : State) : List Byte := (List.range 16).flatMap fun k => leBytes 2 (s.get (F.HAL_NVBUF k))

/-- NVS_PROGRAM_COMMAND and NVS_ERASE_COMMAND: HAL_NVCMD with KEY 0xC3 (R313). -/
def execNvsProgramCommand (s : State) : Out := .next (if s.islandUp .memory then s.nvHost s.nvBuf else s)
def execNvsEraseCommand (s : State) : Out := .next (if s.islandUp .memory then s.nvHost erased else s)

/-! ### The fault log (R316, R417) -/

/-- Bytes 6 to 31 of a log entry (Table 19.4). -/
def LogRec.bytes (r : LogRec) : List Byte :=
  let b := fun (x : Nat) => (BitVec.ofNat 8 x : Byte)
  [b r.kind, b (r.sig.src % 128 + 128 * b2n r.integ), b r.sig.det, b (r.react % 8 + 8 * b2n r.forced), b r.wcnt, b r.bay]
    ++ leBytes 8 (r.ts % 2 ^ 60) ++ leBytes 4 r.sig.addr ++ [b (r.sig.master % 16 + 16 * (r.sig.access % 8)), b r.cause]
    ++ List.replicate 6 0

/-- An entry is offered to the queue; a full queue drops it (R316, R427). -/
def State.logOffer (s : State) (r : LogRec) : State :=
  if s.hal.logQ.length < 16 then s.updHal fun x => { x with logQ := x.logQ ++ [r] }
  else (s.evtInc F.HAL_LOGSTAT.DROP).raise 4

/-- First page of the fault log, as a page number (Table 14.5). -/
def logPage : Nat := 0x108000 / 32

/-- LOG_ENTRY_WRITE (R316): at most one entry per MT tick asks for its program, with SEQ one above the last. -/
def execLogEntryWrite (s : State) : Out :=
  .next <|
    if s.islandUp .memory && s.hal.logDue && !s.nvHas .log then
      match s.hal.logQ with
      | [] => s
      | r :: t =>
        let s := s.updHal fun x => { x with logQ := t, logDue := false }
        s.nvAsk .log [(logPage + s.get F.HAL_LOGHEAD, leBytes 6 (s.hal.logSeq + 1) ++ r.bytes)]
    else s

/-- SEQ of log entry `i`; an erased page, or one that does not read, holds none. -/
def State.logSeqAt (s : State) (i : Nat) : Option Nat :=
  let a := 32 * (logPage + i)
  if s.nvErr (a / 8) 4 = some .double then none
  else
    let q := leNat (s.nvBytes a 6)
    if q = 0xFFFFFFFFFFFF then none else some q

/-- Boot step 1: the entry with the highest SEQ, and the head after it (R316). Only pages that NVS lists can hold an entry. -/
def State.logSearch (s : State) : State :=
  let s := s.nvScan 0x108000 0x200000
  let idx := (s.nvs.filterMap fun c =>
    if decide (0x108000 ≤ c.1) && decide (c.1 < 0x200000) then some ((c.1 - 0x108000) / 32) else none).dedup
  let best := idx.foldl (fun (b : Option (Nat × Nat)) i =>
    match s.logSeqAt i with
    | none => b
    | some q => match b with | none => some (q, i) | some (q', i') => if q' < q then some (q, i) else some (q', i')) none
  match best with
  | none => (s.set F.HAL_LOGHEAD 0).updHal fun x => { x with logSeq := 0 }
  | some (q, i) => (s.set F.HAL_LOGHEAD ((i + 1) % 31744)).updHal fun x => { x with logSeq := q }

/-! ### Repair records (R307, R315) -/

/-- A valid repair record of page `i` of the region: hall, row, spare. -/
def State.repairAt (s : State) (i : Nat) : Option (Nat × Nat × Nat) :=
  let a := 0x104000 + 32 * i
  if s.nvByte a = 0xA7 && s.nvErr (a / 8) 4 ≠ some .double then
    some ((s.nvByte (a + 1)).toNat % 16, leNat (s.nvBytes (a + 2) 2) % 2048, (s.nvByte (a + 4)).toNat % 8)
  else none

/-- Boot step 1: each valid record maps its row; of two that name one spare, the higher page prevails. HAL_SPAREn shows the use. -/
def State.repairMap (s : State) : State :=
  let s := s.nvScan 0x104000 0x105000
  let m := (List.range 128).foldl (fun (l : List (Nat × Nat)) i =>
    match s.repairAt i with
    | none => l
    | some (h, r, sp) => cellIns (2048 * h + r) sp (cellDel (2048 * h + r) (l.filter fun e => !(e.1 / 2048 = h && e.2 = sp)))) []
  let s := s.updHal fun x => { x with rows := m }
  s.each (List.range 16) fun s h =>
    ((s.set (F.HAL_SPARE.USED h) (m.filter fun e => e.1 / 2048 = h).length).set (F.HAL_SPARE.PEND h) 0).set (F.HAL_SPARE.FULL h) 0

/-- Boot step 1: every hall is filled with zero and valid check bits (R306). -/
def State.hallFill (s : State) : State :=
  { s.updHal (fun x => { x with scrubQ := [], handover := [] }) with halls := [], hallErr := [] }

/-! ### Geometry records (R149, R151, R314) -/

/-- Byte offset of copy `c` of tracker `n`. -/
def geoBase (n c : Nat) : Nat := 0x102000 + 0x800 * n + 0x400 * c

/-- GEN of a copy whose header reads and is not erased. -/
def State.geoGen (s : State) (n c : Nat) : Option Nat :=
  let a := geoBase n c
  if s.nvErr (a / 8) 4 = some .double || s.nvBytes a 32 = erased then none else some (leNat (s.nvBytes (a + 10) 4))

/-- A save of the geometry record begins: the header of the copy without the higher GEN is erased, the G pages are programmed, the
header last (R151, R314). -/
def State.geoSave (s : State) (n : Nat) : State :=
  let g0 := s.geoGen n 0
  let g1 := s.geoGen n 1
  let c := match g0, g1 with
    | some x, some y => if x < y then 0 else 1
    | some _, none => 1
    | none, _ => 0
  let other := (if c = 0 then g1 else g0).getD 0
  let p := geoBase n c / 32
  let g := (List.range 256).flatMap fun k => leBytes 2 (s.get (F.STAIR_GEO n k))
  let nt := s.get (F.STAIR_GEOM.NTM1 n) + 1
  let dig := (((s.getTrk n).dig.take 8) ++ List.replicate 8 0).take 8
  let hdr := dig ++ leBytes 2 nt ++ leBytes 4 (other + 1) ++ List.replicate 18 0
  let pages := (List.range 16).map fun i => (p + 1 + i, slice g (32 * i) 32)
  if s.nvHas (.trk (Fin.ofNat 4 n)) then s
  else (s.set (F.STAIR_ISTAT.GBUSY n) 1).nvAsk (.trk (Fin.ofNat 4 n)) ((p, erased) :: pages ++ [(p, hdr)])

/-- GEOMETRY_SAVE (R151): ignored while GBUSY is 1, and on a remote tracker (R152). -/
def execGeometrySave (n : Fin 4) (s : State) : Out :=
  .next (if s.angleOk n && !s.bit (F.STAIR_ISTAT.GBUSY n) && s.get (F.STAIR_CFG.ROLE n) ≠ 3 then s.geoSave n else s)

/-- GEOMETRY_SAVE_DONE (R314): the record's program has ended. -/
def execGeometrySaveDone (n : Fin 4) (s : State) : Out :=
  .next <|
    match s.nvTake (.trk n) with
    | none => s
    | some (ok, s') =>
      let s' := s'.set (F.STAIR_ISTAT.GBUSY n) 0
      if ok then s'.set (F.STAIR_ISTAT.GDIRTY n) 0 else s'.evt (F.STAIR_ISTAT.GERR n)

/-- A copy of the record, when its header and G pages read without a double-bit error: digest bytes, NTEETH, G values. -/
def State.geoRead (s : State) (n c : Nat) : Option (List Byte × Nat × List Nat) :=
  let a := geoBase n c
  if s.nvErr (a / 8) 68 = some .double then none
  else some (s.nvBytes a 8, leNat (s.nvBytes (a + 8) 2), (List.range 256).map fun k => leNat (s.nvBytes (a + 32 + 2 * k) 2))

/-- On apply of a WHEEL section with digest `dig` and `nt` teeth, the record is looked up and G_k loaded, else GEO0_k (R149). The copy
with the higher GEN is tried first, and of two without one the copy whose header does not read; one that does not read sets GERR. -/
def State.geoLoad (s : State) (n nt : Nat) (dig : List Byte) : State :=
  let fits := fun c => match s.geoRead n c with
    | some (d, k, _) => decide (d = dig.take 8) && decide (k = nt)
    | none => false
  let first := match s.geoGen n 0, s.geoGen n 1 with
    | some x, some y => if x < y then 1 else 0
    | none, some _ => if s.nvErr (geoBase n 0 / 8) 4 = some .double then 0 else 1
    | some _, none => if s.nvErr (geoBase n 1 / 8) 4 = some .double then 1 else 0
    | none, none => if s.nvErr (geoBase n 0 / 8) 4 ≠ some .double && s.nvErr (geoBase n 1 / 8) 4 = some .double then 1 else 0
  let bad := (s.geoRead n first).isNone
  let s := s.nvScan (geoBase n first) (geoBase n first + 544)
  let s := s.nvScan (geoBase n (1 - first)) (geoBase n (1 - first) + if fits first then 32 else 544)
  let s := if bad then s.evt (F.STAIR_ISTAT.GERR n) else s
  let pickC := if fits first then some first else if fits (1 - first) then some (1 - first) else none
  match pickC with
  | none =>
    let s := s.each (List.range 256) fun s k => s.set (F.STAIR_GEO n k) (cellGet (fun _ => 0) (s.getTrk n).geo0 k)
    s.set (F.STAIR_ISTAT.GSRC n) 0
  | some c =>
    let g := match s.geoRead n c with | some (_, _, g) => g | none => []
    let s := s.each (List.range 256) fun s k => s.set (F.STAIR_GEO n k) (g.getD k 0)
    ((s.set (F.STAIR_ISTAT.GSRC n) 1).set (F.STAIR_ISTAT.GDIRTY n) 0).set (F.STAIR_GUPD n) 0

end Sys2Proof.Machine
end

