-- ==== Sys2Proof/Machine/Vars.lean ====
section
/-! DEFINITION. The variable file QV0 to QV63 (R199 to R203). -/

namespace Sys2Proof.Machine

/-- The QVMAP entry of QVq; CONST 0 without one (R199). -/
def State.qent (s : State) (q : Nat) : QEnt :=
  match s.cht.qmap.find? (fun e => e.1 = q) with
  | some e => e.2
  | none => ⟨0, 0, 0, 0, 0⟩

/-- The value a read of QVq gives, signed (R199). -/
def State.qv (s : State) (q : Nat) : Int := sgn 20 (s.get (F.CHT_QV q))

/-- A raw value times 2^SHIFT, rounded down (R199). -/
def shiftRaw (raw shift : Int) : Int :=
  if 0 ≤ shift then raw * 2 ^ shift.toNat else raw / 2 ^ (-shift).toNat

/-- Saturation to 20 bits signed. -/
def sat20 (x : Int) : Int := clampI (-524288) 524287 x

/-- The age counter of entry q runs: kinds 1 to 7 with an AGE (R202). -/
def State.qvAges (s : State) (q : Nat) : Bool := let e := s.qent q; decide (1 ≤ e.kind) && decide (e.kind ≤ 7) && e.age ≠ 0

/-- An update of QVq: the value is taken, STALE clears and the age counter restarts, before a tick of the same clock (R202). -/
def State.qvUpdate (s : State) (q : Nat) (v : Int) : State :=
  ((s.set (F.CHT_QV q) (toW 20 (sat20 v))).set (F.CHT_QVS.STALE q) 0).set (F.CHT_QVS.AGECNT q)
    (b2n (decide (s.cht.ageT = s.fclk) && s.qvAges q))

/-- A source of kind `kind` and index `idx` delivers `raw`: every entry of that kind and index updates, shifted where the kind
says so (Table 9.1); one whose crossing fails its check is discarded (R10). -/
def State.qvFeed (s : State) (kind idx : Nat) (raw : Int) (shift : Bool) : State :=
  if s.por.lost.contains (.feed kind idx) then s.lostMet (.feed kind idx)
  else if s.blockFree 10 then
    s.each s.cht.qmap fun s e =>
      if e.2.kind = kind && e.2.idx = idx then
        s.qvUpdate (e.1 % 64) (if shift then shiftRaw raw e.2.shift else raw)
      else s
  else s

/-- A request from a tracker reaches the chart engine: it joins the queue, is dropped when that is full, and is discarded while EN is 0 or
the block is held (R216, R217). -/
def State.planTake (s : State) (r : PlanReq) : State :=
  if !s.blockFree 10 || !s.bit F.CHT_CTRL.EN then s
  else if s.cht.queue.length < 16 then s.updCht fun c => { c with queue := c.queue ++ [r] }
  else ((s.evt F.CHT_STAT.QOVF).set (F.CHT_RCP.LASTRES (r.rcp % 64)) 4).raise 305

/-- What tracker `n` has sent to the chart engine and is still on its way arrives: a later item of the same path comes after it (R8). -/
def State.plansArrive (s : State) (n : Nat) : State :=
  let mine := s.cht.inbound.filter fun r => r.trk = n
  (s.updCht fun c => { c with inbound := c.inbound.filter fun r => r.trk ≠ n }).each mine State.planTake

end Sys2Proof.Machine
end

