-- ==== Sys2Proof/Machine/Charts.lean ====
section
/-! DEFINITION. The chart engine: the variable file's updates, charts and their interpolation, recipes and their runs (R199 to
R223). -/

namespace Sys2Proof.Machine

/-! ### The variable file (R199 to R203) -/

/-- A write to CHT_QVq from the host port, the Gallery or HOOK acts on a HOST entry (R199, R203). -/
def State.qvWrite (s : State) (q : Nat) (src : Master) (v : Word) : State :=
  match src with
  | .host | .gallery | .hook _ => if s.blockFree 10 && (s.qent q).kind = 1 then s.qvUpdate q (sgn 20 v.toNat) else s
  | _ => s

/-- HOST_QV_WRITE. -/
def execHostQvWrite (q : Fin 64) (src : Master) (v : Word) (s : State) : Out :=
  .next (if s.islandUp .memory then s.qvWrite q src v else s)

/-- At an MT tick the age counters of entries of kinds 1 to 7 with an AGE advance, saturating at 255 (R202). -/
def State.qvTick (s : State) : State :=
  let f := s.fclk
  let s := s.each s.cht.qmap fun s e =>
    if decide (1 ≤ e.2.kind) && decide (e.2.kind ≤ 7) && e.2.age ≠ 0 then s.inc (F.CHT_QVS.AGECNT (e.1 % 64)) else s
  s.updCht fun c => { c with ageT := f }

/-- Entry q goes stale when its age counter has reached AGE (R202). -/
def State.qvStale (s : State) (q : Nat) : State :=
  let e := s.qent q
  if s.islandUp .memory && s.blockFree 10 && s.qvAges q && decide (e.age ≤ s.get (F.CHT_QVS.AGECNT q)) && !s.bit (F.CHT_QVS.STALE q) then
    ((s.set (F.CHT_QV q) e.fall).set (F.CHT_QVS.STALE q) 1).raise 306
  else s

/-- QV_STALE. While other commands of its FCLK are still to come the test waits for the FCLK's end, as an update of the tick's clock comes
first (R202, R462). -/
def execQvStale (q : Fin 64) (s : State) : Out :=
  .next (if s.waiting.isEmpty then s.qvStale q else s.updCht fun c => { c with staleQ := c.staleQ ++ [q.val] })

/-- The tests that wait for the end of the FCLK. -/
def State.qvStaleRun (s : State) : State :=
  match s.cht.staleQ with
  | [] => s
  | l => (s.updCht fun c => { c with staleQ := [] }).each l State.qvStale

/-- The whole file, as a snapshot holds it (R217). -/
def State.snapshot (s : State) : List Int := (List.range 64).map s.qv

/-! ### Charts (R205 to R211) -/

/-- `k` bits from bit `p` of the bit-stream that begins at word `base`. -/
def rowBits (w : Nat → Nat) (base p k : Nat) : Nat :=
  (w (base + p / 32) + 2 ^ 32 * w (base + p / 32 + 1)) / 2 ^ (p % 32) % 2 ^ k

/-- `t` codes from bit `p` on, after the value `v`: the values from `v` on, the bit after the last code, the escapes (R206). -/
def rowCodes (w : Nat → Nat) (base k : Nat) : Nat → Nat → Int → List Int × Nat × Nat
  | 0, p, v => ([v], p, 0)
  | t + 1, p, v =>
    let d := rowBits w base p 10
    let esc := decide (d = 0x200)
    let v' := if esc then sgn 20 (rowBits w base (p + 10) 20) else v + sgn 10 d * 2 ^ k
    let r := rowCodes w base k t (if esc then p + 30 else p + 10) v'
    (v :: r.1, r.2.1, r.2.2 + b2n esc)

/-- Values 0 to `t` of the row at word `base`. -/
def rowVals (w : Nat → Nat) (base k t : Nat) : List Int × Nat × Nat := rowCodes w base k t 20 (sgn 20 (rowBits w base 0 20))

/-- The layout of a chart body (Table 9.3). -/
structure ChartFmt where
  ndim  : Nat
  quant : Bool
  k     : Nat
  nx    : Nat
  ny    : Nat
  nz    : Nat
  qx    : Nat
  qy    : Nat
  qz    : Nat
deriving DecidableEq, Repr

def chartFmt (w : Nat → Nat) : ChartFmt :=
  let a := w 0
  let b := w 1
  { ndim := a % 4, quant := bitOf a 2, k := a / 8 % 8, nx := a / 256 % 32 + 1, ny := a / 8192 % 32 + 1, nz := a / 262144 % 32 + 1
    qx := b % 64, qy := b / 256 % 64, qz := b / 65536 % 64 }

/-- Breakpoint words of Y and Z begin here, and the row directory; an unused axis has none. -/
def ChartFmt.yAt (f : ChartFmt) : Nat := 2 + f.nx
def ChartFmt.zAt (f : ChartFmt) : Nat := f.yAt + if 2 ≤ f.ndim then f.ny else 0
def ChartFmt.dirAt (f : ChartFmt) : Nat := f.zAt + if 3 ≤ f.ndim then f.nz else 0

/-- Rows, and the word offset of row `r`. -/
def ChartFmt.rows (f : ChartFmt) : Nat := (if 2 ≤ f.ndim then f.ny else 1) * (if 3 ≤ f.ndim then f.nz else 1)
def ChartFmt.rowAt (f : ChartFmt) (w : Nat → Nat) (r : Nat) : Nat := w (f.dirAt + r / 2) / 2 ^ (16 * (r % 2)) % 65536

/-- The segment of an input on an axis of `n` breakpoints: its index, the pair (n, m), and 1 when the input is clipped (R209). -/
def axisSeg (b : Nat → Int) (n : Nat) (q : Int) : Nat × Int × Int × Nat :=
  if q ≤ b 0 then (0, 0, b 1 - b 0, b2n (decide (q < b 0)))
  else if b (n - 1) ≤ q then
    let m := b (n - 1) - b (n - 2)
    (n - 2, m, m, b2n (decide (b (n - 1) < q)))
  else
    let i := ((List.range n).filter fun j => decide (b j ≤ q)).length - 1
    (i, q - b i, b (i + 1) - b i, 0)

/-- u + floor((w - u) × n / m) (R210). -/
def lerp (u w n m : Int) : Int := u + (w - u) * n / m

/-- A lookup: its result, the words it reads in order, escapes decoded, clipped axes. -/
structure Lookup where
  val  : Int
  read : List Nat
  esc  : Nat
  clip : Nat
deriving DecidableEq, Repr

/-- A row interpolated along X. -/
def lookupRow (f : ChartFmt) (w : Nat → Nat) (r i : Nat) (n m : Int) : Lookup :=
  let base := f.rowAt w r
  let x := rowVals w base (if f.quant then f.k else 0) (i + 1)
  ⟨lerp (x.1.getD i 0) (x.1.getD (i + 1) 0) n m,
    (f.dirAt + r / 2) :: (List.range ((x.2.1 + 31) / 32)).map (base + ·), x.2.2, 0⟩

/-- Two results interpolated along a further axis. -/
def lookupPair (a b : Lookup) (n m : Int) : Lookup := ⟨lerp a.val b.val n m, a.read ++ b.read, a.esc + b.esc, a.clip + b.clip⟩

/-- Multilinear interpolation of a chart body (R209, R210): X in each row, then Y, then Z. -/
def chartEval (w : Nat → Nat) (q : Nat → Int) : Lookup :=
  let f := chartFmt w
  let bp := fun a i => sgn 20 (w (a + i))
  let (ix, nx, mx, cx) := axisSeg (bp 2) f.nx (q f.qx)
  let (iy, ny, my, cy) := if 2 ≤ f.ndim then axisSeg (bp f.yAt) f.ny (q f.qy) else (0, 0, 1, 0)
  let (iz, nz, mz, cz) := if 3 ≤ f.ndim then axisSeg (bp f.zAt) f.nz (q f.qz) else (0, 0, 1, 0)
  let row := fun j k => lookupRow f w (j + f.ny * k) ix nx mx
  let plane := fun k => if 2 ≤ f.ndim then lookupPair (row iy k) (row (iy + 1) k) ny my else row 0 0
  let r := if 3 ≤ f.ndim then lookupPair (plane iz) (plane (iz + 1)) nz mz else plane 0
  { r with read := List.range f.dirAt ++ r.read, clip := cx + cy + cz }

/-- Byte address of a chart's body, and its words. -/
def ChartPos.base (p : ChartPos) : Nat := 524288 * p.hall + p.ofs
def State.chartWord (s : State) (p : ChartPos) (i : Nat) : Nat := leNat (s.hallBytes (p.base + 4 * i) 4)

/-- Where chart `c` stands. -/
def State.chartAt (s : State) (c : Nat) : Option ChartPos := (s.cht.charts.find? (fun e => e.1 = c)).map (·.2)

/-- Read words of a body through the hall's port A, to the first failure (R204, R305). -/
def State.readWords (s : State) (m : Master) (b : Nat) : List Nat → State × Bool
  | [] => (s, true)
  | i :: t =>
    let r := s.hallOp m (b + 4 * i) 4 none 1
    if r.2.2.bad then (r.1, false) else r.1.readWords m b t

/-- A lookup of chart `c` on a snapshot: none when the chart is absent; the result none when a read fails. -/
def State.chartLookup (s : State) (m : Master) (c : Nat) (snap : List Int) : State × Option Lookup :=
  match s.chartAt c with
  | none => (s, none)
  | some p =>
    let l := chartEval (s.chartWord p) (fun i => snap.getD i 0)
    let r := s.readWords m p.base l.read
    let s := r.1.evtAdd F.CHT_CLIP l.clip
    (s, if r.2 then some l else none)

/-! ### Requests and runs (R216 to R220) -/

/-- A run in context `i`. -/
def State.ctx (s : State) (i : Nat) : Option Ctx := vget s.cht.ctx i none
def State.setCtx (s : State) (i : Nat) (c : Option Ctx) : State := s.updCht fun x => { x with ctx := vupd x.ctx i fun _ => c }

/-- Recipe `r` of the running image. -/
def State.recipe (s : State) (r : Nat) : Option Recipe := (s.cht.recipes.find? (fun e => e.1 = r)).map (·.2)

/-- The chart engine runs. -/
def State.chtUp (s : State) : Bool := s.islandUp .memory && s.blockFree 10

/-- RECIPE_REQUEST_ARRIVE: the oldest request on its way. -/
def execRecipeRequestArrive (s : State) : Out :=
  .next <|
    if s.islandUp .memory then
      match s.cht.inbound with
      | [] => s
      | r :: t =>
        (s.updCht fun c => { c with inbound := t }).planTake r
    else s

/-- RECIPE_START: the oldest request starts in the lowest free context with a snapshot; its first step begins 7 MCLK later (R212,
R217). -/
def execRecipeStart (s : State) : Out :=
  .next <|
    if s.chtUp then
      match s.cht.queue, (List.range 4).find? (fun i => (s.ctx i).isNone) with
      | r :: t, some i =>
        let c : Ctx :=
          { rcp := r.rcp, cyl := r.cyl, step := 0, v := List.replicate 7 0 ++ [(r.cyl : Int)], snap := s.snapshot,
            stale := (List.range 64).map fun q => s.bit (F.CHT_QVS.STALE q), t0 := 3 * s.fclk, beg := 3 * s.fclk + 28, acc := none }
        (s.updCht fun x => { x with queue := t }).setCtx i (some c)
      | _, _ => s
    else s

/-- The record of a run's end (Table 9.8): 1 completed, 2 TIMEOUT, 3 ECC, 5 ABORTED. Abnormal ends set CHT_ERR and RUNERR and raise
304; TIMEOUT is reported (R219). -/
def State.runRecord (s : State) (c : Ctx) (res : Nat) : State :=
  let r := c.rcp % 64
  let s := ((s.set (F.CHT_RCP.LASTCYL r) c.cyl).set (F.CHT_RCP.LASTRES r) res).incW (F.CHT_RCP.RUNS r)
  if res = 1 then s.raiseIf (((s.recipe c.rcp).map (·.irq)).getD false) 307
  else
    let s := ((s.set F.CHT_ERR.RECIPE c.rcp).set F.CHT_ERR.CYL c.cyl).set F.CHT_ERR.STEP c.step
    let s := ((s.set F.CHT_ERR.CAUSE (if res = 5 then 3 else res - 1)).evt F.CHT_STAT.RUNERR).raise 304
    if res = 2 then s.report 70 c.rcp else s

/-- The run of context `i` ends. -/
def State.runEnd (s : State) (i : Nat) (res : Nat) : State :=
  match s.ctx i with
  | none => s
  | some c => (s.setCtx i none).runRecord c res

/-- The instant, in thirds of an FCLK, at which a run reaches its limit; RTMAX 0 acts as 1 (R219). -/
def State.runLimit (s : State) (c : Ctx) : Nat := c.t0 + 120 * max 1 (s.get F.CHT_CTRL.RTMAX)

/-- RECIPE_RUN_TIMEOUT. -/
def execRecipeRunTimeout (i : Fin 4) (s : State) : Out :=
  .next <|
    match s.ctx i with
    | none => s
    | some c => if s.chtUp && decide (s.runLimit c ≤ 3 * s.fclk) && !s.comes (fun x => x = .recipeEndStep i) then s.runEnd i 2 else s

/-- Fields of a step word (R213). -/
def stOp (w : Nat) : Nat := w % 16
def stDst (w : Nat) : Nat := w / 16 % 8
def stA (w : Nat) : Nat := w / 128 % 8
def stForm (w : Nat) : Bool := bitOf w 10
def stB (w : Nat) : Nat := w / 2048 % 8
def stImm (w : Nat) : Nat := w / 16384

/-- The index (IMM[5:0] + (IMM[6] ? CYL : 0)) mod 64 of LOAD and LOOKUP. -/
def stIdx (w cyl : Nat) : Nat := (stImm w % 64 + if bitOf (stImm w) 6 then cyl else 0) % 64

/-- The stitch (IMM[6:0] + (IMM[7] ? CYL × SSTRIDE : 0)) mod 128 of WRSTITCH and COMMIT. -/
def stStitch (w cyl stride : Nat) : Nat := (stImm w % 128 + if bitOf (stImm w) 7 then cyl * stride else 0) % 128

/-- Set a working value. -/
def Ctx.put (c : Ctx) (d : Nat) (x : Int) : Ctx := { c with v := c.v.set d x }
def Ctx.val (c : Ctx) (r : Nat) : Int := c.v.getD r 0

/-- The run of context `i` stands at a step of operation `op` whose cost of `cost` MCLK has passed and does not carry it past the
run limit: the run and the step word. -/
def State.atStep (s : State) (i op cost : Nat) : Option (Ctx × Nat × Recipe) :=
  match s.ctx i with
  | none => none
  | some c =>
    match s.recipe c.rcp with
    | none => none
    | some r =>
      match r.steps[c.step]? with
      | none => none
      | some w =>
        if s.chtUp && stOp w = op && decide (c.beg + 4 * cost ≤ 3 * s.fclk) && decide (c.beg + 4 * cost ≤ s.runLimit c) then
          some (c, w, r)
        else none

/-- The step has been taken: the run stands at the next. -/
def State.stepTo (s : State) (i : Nat) (c : Ctx) (cost : Nat) : State :=
  s.setCtx i (some { c with step := c.step + 1, beg := c.beg + 4 * cost })

/-- A step that only makes a working value. -/
def State.valueStep (s : State) (i op cost : Nat) (f : Ctx → Nat → Int) : State :=
  match s.atStep i op cost with
  | none => s
  | some (c, w, _) => s.stepTo i (c.put (stDst w) (f c w)) cost

/-- RECIPE_END_STEP. -/
def execRecipeEndStep (i : Fin 4) (s : State) : Out :=
  .next (match s.atStep i 0 1 with | none => s | some _ => s.runEnd i 1)

/-- LOAD. -/
def loadVal (c : Ctx) (w : Nat) : Int := if stForm w then sgn 18 (stImm w) else c.snap.getD (stIdx w c.cyl) 0
def execRecipeLoad (i : Fin 4) (s : State) : Out := .next (s.valueStep i 1 2 loadVal)

/-! The lookup unit (R214): it accepts a 1-D or 2-D lookup every 12 MCLK, a 3-D lookup every 24. Recipe LOOKUPs are accepted in the
order in which their steps begin (of two that begin together, the lower context's: assumption 55); the gauge's and test lookups only
while none waits. -/

/-- For how long a lookup of chart `c` keeps the unit, and what it costs on a snapshot, in thirds of an FCLK: escapes add 2 MCLK each. -/
def State.unitHold (s : State) (c : Nat) : Nat := if s.get (F.CHT_CHART.NDIM c) = 3 then 96 else 48
def State.lookCost (s : State) (c : Nat) (snap : List Int) : Nat :=
  let esc := match s.chartAt c with
    | none => 0
    | some p => (chartEval (s.chartWord p) (fun k => snap.getD k 0)).esc
  4 * ((if s.get (F.CHT_CHART.NDIM c) = 3 then 84 else 60) + 2 * esc)

/-- The run of context `i` waits in a LOOKUP step that has begun: when it began, and its chart. -/
def State.lookWaits (s : State) (i : Nat) : Option (Nat × Nat) :=
  match s.ctx i with
  | none => none
  | some c =>
    match (s.recipe c.rcp).bind fun r => r.steps[c.step]? with
    | some w => if stOp w = 2 && c.acc.isNone && decide (c.beg ≤ 3 * s.fclk) then some (c.beg, stIdx w c.cyl) else none
    | none => none

/-- The waiting LOOKUP that began first: its context, its begin, its chart. -/
def State.lookFirst (s : State) : Option (Nat × Nat × Nat) :=
  (List.range 4).foldl (fun best i =>
    match s.lookWaits i, best with
    | some (b, c), some (j, b', c') => if b < b' then some (i, b, c) else some (j, b', c')
    | some (b, c), none => some (i, b, c)
    | none, x => x) none

/-- The request that waits behind the recipes: when the unit could take it, whether it is the test lookup, its chart. The earlier request
comes first. -/
def State.lowFirst (s : State) : Option (Nat × Bool × Nat) :=
  let thr := match s.gau.lookup with
    | some l => if l.acc.isNone then some (l.reqT, false, s.get F.GAU_MFCFG.MFCHART) else none
    | none => none
  let tst := match s.cht.test with
    | some (c, l) => if l.acc.isNone && (s.chartAt c).isSome then some (l.reqT, true, c) else none
    | none => none
  let x := match thr, tst with
    | some a, some b => some (if b.1 < a.1 then b else a)
    | some a, none => some a
    | none, b => b
  x.map fun e => (max e.1 s.cht.unitT, e.2)

/-- The unit takes a recipe's LOOKUP, or a request that waited behind the recipes. -/
def State.lookTake (s : State) (i b c : Nat) : State :=
  let a := max b s.cht.unitT
  let h := s.unitHold c
  s.updCht fun x => { x with unitT := a + h, ctx := vupd x.ctx i fun o => o.map fun y => { y with acc := some a } }
def State.lowTake (s : State) (a : Nat) (tst : Bool) (c : Nat) : State :=
  let h := s.unitHold c
  let s := s.updCht fun x => { x with unitT := a + h }
  if tst then s.updCht fun x => { x with test := x.test.map fun e => (e.1, { e.2 with acc := some a }) }
  else s.updGau fun g => { g with lookup := g.lookup.map fun l => { l with acc := some a } }

/-- The unit accepts what has come to it up to now, at most `k` lookups. -/
def State.lookAccept (s : State) : Nat → State
  | 0 => s
  | k + 1 =>
    match s.lookFirst, s.lowFirst with
    | some (i, b, c), some (a, t, d) => if a < b then (s.lowTake a t d).lookAccept k else (s.lookTake i b c).lookAccept k
    | some (i, b, c), none => (s.lookTake i b c).lookAccept k
    | none, some (a, t, d) => if a ≤ 3 * s.fclk then (s.lowTake a t d).lookAccept k else s
    | none, none => s

/-- LOOKUP (R210, R214). A failed read ends the run with ECC (R219). The image check lets no recipe name an absent chart; the value is
then free. -/
def State.lookupStep (s : State) (i : Nat) : State :=
  let s := s.lookAccept 6
  match s.atStep i 2 60 with
  | none => s
  | some (c, w, _) =>
    let ch := stIdx w c.cyl
    match c.acc with
    | none => s
    | some a =>
      let fin := a + s.lookCost ch c.snap
      if decide (fin ≤ 3 * s.fclk) && decide (fin ≤ s.runLimit c) then
        let r := s.chartLookup .chart ch c.snap
        let c' := { c with step := c.step + 1, beg := fin, acc := none }
        match r.2, r.1.chartAt ch with
        | some l, _ => r.1.setCtx i (some { c'.put (stDst w) l.val with beg := max fin (3 * s.fclk - 2) })
        | none, some _ => r.1.runEnd i 3
        | none, none =>
          let v := r.1.free
          v.2.setCtx i (some (c'.put (stDst w) (sgn 20 v.1)))
      else s
def execRecipeLookup (i : Fin 4) (s : State) : Out := .next (s.lookupStep i)

/-- ADD. -/
def addVal (c : Ctx) (w : Nat) : Int :=
  sat20 (if stForm w then c.val (stA w) + sgn 18 (stImm w)
    else if bitOf (stImm w) 0 then c.val (stA w) - c.val (stB w) else c.val (stA w) + c.val (stB w))
def execRecipeAdd (i : Fin 4) (s : State) : Out := .next (s.valueStep i 3 2 addVal)

/-- SCALE. -/
def scaleVal (c : Ctx) (w : Nat) : Int :=
  let m := if stForm w then sgn 13 (stImm w / 32) else c.val (stB w)
  sat20 (rndDiv (c.val (stA w) * m) (2 ^ (stImm w % 32)))
def execRecipeScale (i : Fin 4) (s : State) : Out := .next (s.valueStep i 4 3 scaleVal)

/-- CLAMP: when hi < lo the result is lo. -/
def clampVal (c : Ctx) (w : Nat) : Int :=
  let lo := if stForm w then 0 else c.val (stB w)
  let hi := if stForm w then sgn 18 (stImm w) else c.val ((stB w + 1) % 8)
  if hi < lo then lo else clampI lo hi (c.val (stA w))
def execRecipeClamp (i : Fin 4) (s : State) : Out := .next (s.valueStep i 5 2 clampVal)

/-- SELECT. -/
def selectVal (c : Ctx) (w : Nat) : Int :=
  let a := c.val (stA w)
  let t := match stImm w % 8 with
    | 0 => decide (a < 0)
    | 1 => decide (a = 0)
    | 2 => decide (0 < a)
    | 3 => c.stale.getD (stImm w / 8 % 64) false
    | _ => false
  if t then c.val (stB w) else c.val (stDst w)
def execRecipeSelect (i : Fin 4) (s : State) : Out := .next (s.valueStep i 6 2 selectVal)

/-- WRQV: a RECIPE entry takes the value; the snapshot does not. -/
def execRecipeWrqv (i : Fin 4) (s : State) : Out :=
  .next <|
    match s.atStep i 7 2 with
    | none => s
    | some (c, w, _) =>
      let q := stImm w % 64
      let s := if (s.qent q).kind = 8 then s.qvUpdate q (c.val (stA w)) else s
      s.stepTo i c 2

/-- An item leaves on the one path to the stitch unit (R21, R218). -/
def State.sendItem (s : State) (x : SuItem) : State := { s with suPath := s.suPath ++ [x] }

/-- WRSTITCH. -/
def execRecipeWrstitch (i : Fin 4) (s : State) : Out :=
  .next <|
    match s.atStep i 8 2 with
    | none => s
    | some (c, w, r) =>
      (s.sendItem (.write (stStitch w c.cyl r.stride) (stImm w / 256 % 8) (toW 20 (c.val (stA w))))).stepTo i c 2

/-- COMMIT. -/
def execRecipeCommit (i : Fin 4) (s : State) : Out :=
  .next <|
    match s.atStep i 9 2 with
    | none => s
    | some (c, w, r) => (s.sendItem (.commit (stStitch w c.cyl r.stride))).stepTo i c 2

/-- A GO starts a test lookup on a snapshot; while one runs it has no effect (R221). -/
def State.testLookup (s : State) (c : Nat) : State :=
  if s.cht.test.isSome then s
  else
    let l : LowLook := ⟨s.snapshot, 3 * s.fclk, none⟩
    (s.updCht fun x => { x with test := some (c, l) }).set F.CHT_TSTAT.BUSY 1

/-- The test lookup ends: the result with DONE, or ERR. -/
def State.testEnd (s : State) (c : Nat) (snap : List Int) : State :=
  let r := s.chartLookup .chart c snap
  let s := (r.1.updCht fun x => { x with test := none }).set F.CHT_TSTAT.BUSY 0
  match r.2 with
  | some l => (s.set F.CHT_TRES (toW 20 l.val)).evt F.CHT_TSTAT.DONE
  | none => s.evt F.CHT_TSTAT.ERR

/-- What time brings a test lookup: its end when the unit has served it, after one MCLK for a chart that is absent. -/
def State.testRun (s : State) : State :=
  match s.cht.test with
  | none => s
  | some (c, l) =>
    if !s.chtUp then s
    else if (s.chartAt c).isNone then if l.reqT + 4 ≤ 3 * s.fclk then s.testEnd c l.snap else s
    else
      let s := s.lookAccept 6
      match s.cht.test.bind fun e => e.2.acc with
      | some a => if a + s.lookCost c l.snap ≤ 3 * s.fclk then s.testEnd c l.snap else s
      | none => s

/-- CHART_TEST_LOOKUP (R221). -/
def execChartTestLookup (c : Fin 64) (s : State) : Out := .next (if s.chtUp then s.testLookup c else s)

/-! ### Sections and block reset (R200, R204, R215, R219) -/

/-- QVMAP applied: kinds show, entries take FALLBACK, or 0 for SPEED and PERIOD; ages and STALE read 0 (R199). -/
def qvmapParse (b : List Byte) (q : Nat) : QEnt :=
  { kind := leAt b (8 * q) 1, idx := leAt b (8 * q + 1) 1, shift := sgn 8 (leAt b (8 * q + 2) 1), age := leAt b (8 * q + 3) 1
    fall := leAt b (8 * q + 4) 4 }
def State.qvInit (s : State) (q : Nat) (e : QEnt) : State :=
  let s := s.setReg (R.CHT_QVS q) (BitVec.ofNat 20 e.kind)
  s.set (F.CHT_QV q) (if e.kind = 2 || e.kind = 3 then 0 else e.fall)
def State.qvmapApply (s : State) (b : List Byte) : State :=
  let m := (List.range 64).map fun q => (q, qvmapParse b q)
  (s.updCht fun c => { c with qmap := m }).each m fun s e => s.qvInit e.1 e.2
/-- R200, with NSEG of R230. -/
def qvmapCheck (b : List Byte) (nseg : Nat) : Bool :=
  b.length = 512 && (List.range 64).all fun q =>
    let e := qvmapParse b q
    let top := fun n => decide (e.idx ≤ n)
    let idxOk := match e.kind with
      | 0 | 1 | 8 => top 0
      | 2 | 3 => top 3
      | 4 => top 15
      | 5 => top 31
      | 6 => top 63
      | 7 => e.idx = 32 || (decide (e.idx < 32) && decide (e.idx % 16 < nseg))
      | _ => false
    idxOk && decide (-16 ≤ e.shift) && decide (e.shift ≤ 16) && decide (e.fall < 1048576)

/-- Words of a CHART section's body. -/
def bodyWord (b : List Byte) (i : Nat) : Nat := leAt b (16 + 4 * i) 4

/-- CHART applied: the body goes to its place and CHT_CHARTc shows it (R204). -/
def State.chartApply (s : State) (c : Nat) (b : List Byte) : State :=
  let f := chartFmt (bodyWord b)
  let p : ChartPos := ⟨leAt b 0 1 % 16, leAt b 4 4, leAt b 8 4⟩
  let s := { s.setHallBytes p.base (slice b 16 p.len) with
    hallErr := s.hallErr.filter fun e => !(decide (p.base ≤ 8 * e.1 + 7) && decide (8 * e.1 < p.base + p.len)) }
  let s := s.updCht fun x => { x with charts := cellIns c p (cellDel c x.charts) }
  let s := ((s.set (F.CHT_CHART.HALL c) p.hall).set (F.CHT_CHART.NDIM c) f.ndim).setB (F.CHT_CHART.QUANT c) f.quant
  (s.set (F.CHT_CHART.K c) f.k).set (F.CHT_CHART.VALID c) 1

/-- A chart leaves the image. -/
def State.chartRemove (s : State) (c : Nat) : State :=
  (s.updCht fun x => { x with charts := cellDel c x.charts }).setReg (R.CHT_CHART c) 0

/-- An axis of `n` words at `a`: at least two, [31:20] zero, strictly increasing. -/
def axisOk (w : Nat → Nat) (a n : Nat) : Bool :=
  decide (2 ≤ n) && (List.range n).all (fun i => decide (w (a + i) < 1048576))
    && (List.range (n - 1)).all fun i => decide (sgn 20 (w (a + i)) < sgn 20 (w (a + i + 1)))

/-- The checks of one CHART section that need no other section (R75, R204, R205, R208). -/
def chartCheck (b : List Byte) : Bool :=
  let w := bodyWord b
  let f := chartFmt w
  let n := leAt b 8 4 / 4
  let offs := (List.range f.rows).map (f.rowAt w)
  let rowOk := fun o =>
    let lim := if 2 ≤ offs.count o then o else offs.foldl (fun m x => if o < x && x < m then x else m) n
    let r := rowVals w o (if f.quant then f.k else 0) (f.nx - 1)
    decide (o < n) && decide (32 * o + r.2.1 ≤ 32 * lim) && r.1.all (fun v => decide (-524288 ≤ v) && decide (v ≤ 524287))
      && rowBits w o r.2.1 ((32 - r.2.1 % 32) % 32) = 0
  decide (leAt b 0 1 ≤ 14) && leAt b 1 3 = 0 && leAt b 4 4 % 8 = 0 && leAt b 8 4 % 4 = 0 && leAt b 12 4 = 0
    && b.length = 16 + leAt b 8 4 && decide (leAt b 4 4 + leAt b 8 4 ≤ 524288) && decide (2 ≤ n)
    && decide (1 ≤ f.ndim) && (if f.quant then decide (1 ≤ f.k) && decide (f.k ≤ 6) else f.k = 0)
    && w 0 / 64 % 4 = 0 && w 0 / 8388608 = 0 && w 1 / 64 % 4 = 0 && w 1 / 16384 % 4 = 0 && w 1 / 4194304 = 0
    && decide (f.nx * f.ny * f.nz ≤ 1024) && axisOk w 2 f.nx
    && (if 2 ≤ f.ndim then axisOk w f.yAt f.ny else f.ny = 1) && (if 3 ≤ f.ndim then axisOk w f.zAt f.nz else f.nz = 1)
    && decide (f.dirAt + (f.rows + 1) / 2 ≤ n) && (f.rows % 2 = 0 || w (f.dirAt + f.rows / 2) / 65536 = 0)
    && offs.all rowOk

/-- A RECIPE section (R215). -/
def recipeParse (b : List Byte) : Recipe :=
  let ns := leAt b 0 1
  let np := leAt b 1 1
  { stride := leAt b 2 1, irq := bitOf (leAt b 3 1) 0
    plan := (List.range np).map fun i => (leAt b (16 + 4 * i) 2, leAt b (18 + 4 * i) 1, leAt b (19 + 4 * i) 1)
    steps := (List.range ns).map fun i => leAt b (16 + 4 * np + 4 * i) 4 }
def State.recipeApply (s : State) (r : Nat) (b : List Byte) : State :=
  s.updCht fun x => { x with recipes := cellIns r (recipeParse b) (cellDel r x.recipes) }
def State.recipeRemove (s : State) (r : Nat) : State := s.updCht fun x => { x with recipes := cellDel r x.recipes }

/-- The bits of a step word that its OP, in its FORM, does not use. -/
def stepUnused (w : Nat) : Nat :=
  let d := 0x70
  let a := 0x380
  let f := 0x400
  let bb := 0x3800
  let above := fun n => 2 ^ 32 - 2 ^ (14 + n)
  let m := match stOp w with
    | 0 => d + a + f + bb + above 0
    | 1 => if stForm w then a + bb else a + bb + above 7
    | 2 => a + f + bb + above 7
    | 3 => if stForm w then bb else above 1
    | 4 => if stForm w then bb else above 5
    | 5 => if stForm w then bb else above 0
    | 6 => if stImm w % 8 = 3 then f + above 9 + a else f + above 3
    | 7 => d + f + bb + above 6
    | 8 => d + f + bb + above 11
    | _ => d + a + f + bb + above 8
  w &&& m

/-- The checks of one RECIPE section (R75, R215), given the kinds of the variable file, the charts and allocated stitches of the
image, and whether POS lies below L / TPT of TRK, a Main or Remote tracker. -/
def recipeCheck (b : List Byte) (kind : Nat → Nat) (chart stitch : Nat → Bool) (pos : Nat → Nat → Bool) : Bool :=
  let r := recipeParse b
  let ns := r.steps.length
  let cyls := if r.plan.isEmpty then [0] else r.plan.map (·.2.2)
  decide (1 ≤ ns) && decide (ns ≤ 32) && decide (r.plan.length ≤ 8) && decide (r.stride ≤ 127) && decide (leAt b 3 1 ≤ 1)
    && leAt b 4 12 = 0 && b.length = 16 + 4 * r.plan.length + 4 * ns
    && r.plan.all (fun p => decide (p.2.1 ≤ 3) && decide (p.2.2 ≤ 15) && pos p.1 p.2.1)
    && (r.steps.getLast?.map stOp) = some 0
    && r.steps.all fun w =>
      decide (stOp w ≤ 9) && stepUnused w = 0
        && (stOp w ≠ 8 || decide (stImm w / 256 % 8 ≤ 5)) && (stOp w ≠ 6 || decide (stImm w % 8 ≤ 3))
        && (stOp w ≠ 7 || kind (stImm w % 64) = 8)
        && (stOp w ≠ 2 || cyls.all fun c => chart (stIdx w c))
        && ((stOp w ≠ 8 && stOp w ≠ 9) || cyls.all fun c => stitch (stStitch w c r.stride))

/-- Block reset of CHT: its registers take their reset values, the queue and the runs end, and the runs are recorded when CHT
resumes (R58, R219). -/
def State.chtReset (s : State) : State :=
  let s := { s with regs := s.regs.filter fun c => !(decide (0x3400 ≤ c.1) && decide (c.1 < 0x3600)) }
  s.updCht fun x =>
    { x with qmap := [], recipes := [], charts := [], queue := [], ctx := .replicate 4 none, unitT := 0, test := none,
             aborted := x.ctx.toList.filterMap id }

/-- CHT resumes: the ended runs are recorded as ABORTED. -/
def State.chtResume (s : State) : State :=
  (s.each s.cht.aborted fun s c => s.runRecord c 5).updCht fun x => { x with aborted := [] }

end Sys2Proof.Machine
end

