-- ==== Sys2Proof/Machine/Wheel.lean ====
section
/-! DEFINITION. What a tracker computes: tooth-table geometry, windows, prediction, template and geometry learning (R101 to R105,
R131 to R150). -/

namespace Sys2Proof.Machine

/-! ### The tooth table -/

/-- Sum of `cnt` spans from entry `i` on, modulo NTEETH. -/
def State.spanSum (s : State) (n i : Nat) : Nat → Nat
  | 0 => 0
  | c + 1 => s.span n (i % s.nTeeth n) + s.spanSum n (i + 1) c

/-- S, the sum of SPAN over the table, and F and L in treads (R102). -/
def State.spanAll (s : State) (n : Nat) : Nat := s.spanSum n 0 (s.nTeeth n)
def State.flightLen (s : State) (n : Nat) : Nat := 2 ^ (s.getTrk n).tptLog * s.spanAll n / 16
def State.flights (s : State) (n : Nat) : Nat := 1 + s.get (F.STAIR_GEOM.FL2 n)

/-- A_k, the angle of tooth `k` within its flight (R102). -/
def State.toothAngle (s : State) (n k : Nat) : Nat :=
  let nt := s.nTeeth n
  let o := s.get (F.STAIR_GEOM.ORIGIN n)
  2 ^ (s.getTrk n).tptLog * s.spanSum n o ((k + (nt - o % nt)) % nt) / 16

/-- The landing entry of the table (R101). -/
def State.landEntry (s : State) (n : Nat) : Nat :=
  match (List.range (s.nTeeth n)).find? (fun k => s.bit (F.STAIR_TTA.LANDING n k)) with
  | some k => k
  | none => 0

/-- The window bounds of the tooth that ends interval `k` (R105); a remote tracker's own (R126). -/
def State.wovr (s : State) (n k : Nat) : Bool := s.bit (F.STAIR_TTA.WOVR n k) && s.get (F.STAIR_CFG.ROLE n) ≠ 3
def State.wmin (s : State) (n k : Nat) : Nat :=
  if s.wovr n k then s.get (F.STAIR_TTB.WMIN n k) else s.get (F.STAIR_WIN.WMIN n)
def State.wmax (s : State) (n k : Nat) : Nat :=
  if s.wovr n k then s.get (F.STAIR_TTB.WMAX n k) else s.get (F.STAIR_WIN.WMAX n)

/-- The modulus of the word: L in CYCLE_SYNC, F in GAP_FOUND (R110, R123, R132). -/
def State.wordMod (s : State) (n : Nat) : Nat := if s.trkState n = 1 then s.flightLen n else s.cycLen n

/-- FCLK from an edge's stamp to its acceptance: 4 + 16 × FILT (Table 5.2, R96). -/
def State.accDelay (s : State) (n : Nat) : Nat := 4 + 16 * min (s.get (F.STAIR_FILT.FILT n)) 250

/-- The stamp of an edge that is handled now (R100). -/
def State.stampNow (s : State) (n : Nat) : Nat := s.fclk - s.accDelay n

/-- PHMODE, with 3 acting as 0 (Table 5.12); DIRMODE likewise. -/
def State.phMode (s : State) (n : Nat) : Nat := s.get (F.STAIR_CFG.PHMODE n) % 3
def State.dirMode (s : State) (n : Nat) : Nat := s.get (F.STAIR_CFG.DIRMODE n) % 3

/-! ### Prediction (R135 to R142) -/

/-- G_k, signed (R135). -/
def State.geo (s : State) (n k : Nat) : Int := sgn 16 (s.get (F.STAIR_GEO n k))

/-- The effective length E_k (R135); 2^18 on a remote tracker. -/
def State.effLen (s : State) (n k : Nat) : Int :=
  if s.get (F.STAIR_CFG.ROLE n) = 3 then 262144
  else
    let k := k % s.nTeeth n
    (s.span n k : Int) * (262144 + (if s.bit (F.STAIR_ICFG.GEN n) then s.geo n k else 0))

/-- Λ, the nominal cycle length (R135). -/
def State.nominal (s : State) (n : Nat) : Nat := s.flights n * 262144 * s.spanAll n

/-- Saturation of a prediction to 1 … 2^30 - 1 (R136). -/
def satPred (x : Int) : Nat := (clampI 1 1073741823 x).toNat

/-- The predicted normalised period x as a fraction: p_i in mode 0, the clamped 2 p_i - p_h in mode 1 (R137, R138). -/
def predFrac (mode : Nat) (i : Meas) (h : Option Meas) : Int × Int :=
  match mode, h with
  | 0, _ => (i.p, i.e)
  | _, none => (i.p, i.e)
  | _, some h =>
    let num := 2 * (i.p : Int) * h.e - (h.p : Int) * i.e
    let pih := (i.p : Int) * h.e
    if 4 * num < 3 * pih then (3 * (i.p : Int), 4 * i.e)
    else if 5 * pih < 4 * num then (5 * (i.p : Int), 4 * i.e)
    else (num, i.e * h.e)

/-- The prediction of a length `e` on the fraction `x`. -/
def predOn (x : Int × Int) (e : Int) : Nat := satPred (rndDiv (x.1 * e) x.2.toNat)

/-- The template index of interval `k` of flight `f`, and its value (0 unfilled) (R140). -/
def State.tplIdx (s : State) (n k f : Nat) : Nat := k + f * s.nTeeth n
def State.tplVal (s : State) (n c : Nat) : Nat := cellGet (fun _ => 0) (s.getTrk n).tpl c

/-- The mode that acts for the interval beginning at entry `k` of flight `f` (Table 6.3). -/
def State.predMode (s : State) (n k f : Nat) : Nat :=
  let t := s.getTrk n
  let pred := match s.get (F.STAIR_CFG.PRED n) with | 3 => 1 | p => p
  if t.m1.isNone || t.m2.isNone then 0
  else if pred = 0 then 0
  else if s.trkState n = 2 && pred = 2 && s.tplVal n (s.tplIdx n k f) ≠ 0 && t.q.isSome && !s.bit (F.STAIR_GCTL.LEARN n)
      && s.get (F.STAIR_CFG.ROLE n) = 1 then 2
  else 1

/-- Set the prediction of the interval that begins at entry `k` of flight `f`: Tpred, Tpred2, PACT, QOK (R137 to R142). -/
def State.predict (s : State) (n k f : Nat) : State :=
  let t := s.getTrk n
  match t.m1 with
  | none => s
  | some i =>
    let nt := s.nTeeth n
    let mode := s.predMode n k f
    let e := s.effLen n k
    let e2 := s.effLen n (k + 1)
    let f2 := if (k + 1) % nt = s.get (F.STAIR_GEOM.ORIGIN n) then (f + 1) % s.flights n else f
    let tj := s.tplVal n (s.tplIdx n k f)
    let tk := s.tplVal n (s.tplIdx n ((k + 1) % nt) f2)
    let x := predFrac (if mode = 0 then 0 else 1) i t.m2
    let q := t.q.getD 0
    let den := 262144 * s.nominal n
    let p1 := if mode = 2 then satPred (rndDiv ((tj : Int) * e * q) den) else predOn x e
    let p2 :=
      if mode = 2 && tk ≠ 0 then satPred (rndDiv (((tj : Int) * e + (tk : Int) * e2) * q) den) else predOn x (e + e2)
    let s := (s.set (F.STAIR_TPRED_LO n) p1).set (F.STAIR_TPRED_HI n) (p1 / 2 ^ 20)
    let s := (s.set (F.STAIR_ISTAT.PACT n) mode).setB (F.STAIR_ISTAT.QOK n) t.q.isSome
    s.updTrk n fun t => { t with tpred2 := p2 }

/-- The template entry of the interval that ends now (R140): `k` of flight `f`, measured `p`, with the Q of its first tooth. -/
def State.tplUpdate (s : State) (n k f p : Nat) : State :=
  match (s.getTrk n).q with
  | none => s
  | some q =>
    let c := s.tplIdx n k f
    let v := s.tplVal n c
    let num : Int := (p : Int) * s.nominal n * 262144
    let den : Int := s.effLen n k * q
    let w := s.get (F.STAIR_ICFG.CSW n)
    let new := if v = 0 then rndDiv num den.toNat
      else rndDiv ((v : Int) * (2 ^ w - 1) * den + num) (den.toNat * 2 ^ w)
    let new := (clampI 1 0xFFFFF new).toNat
    let s := s.updTrk n fun t => { t with tpl := cellPut (fun _ => 0) t.tpl c new }
    s.setB (F.STAIR_ISTAT.TPLFULL n) ((s.getTrk n).tpl.length = s.flights n * s.nTeeth n)

/-! ### Geometry learning (R150) -/

/-- rnd of a rational, half up. -/
def rndRat (x : Rat) : Int := (x + 1 / 2).floor

/-- The learned corrections of flight a, given the stamps of a (NTEETH + 1 of them) and the duration of the flight b after it: the
entry of interval `i` is (Le + 1 + i) mod NTEETH. `none` when the speed changed by more than a sixteenth. -/
def State.learnGeo (s : State) (n : Nat) (st : List Nat) (tfb : Nat) : Option (List (Nat × Nat)) :=
  let nt := s.nTeeth n
  let le := s.landEntry n
  let ent := fun i => (le + 1 + i) % nt
  let at' := fun i => st.getD i 0
  let tfa := at' nt - at' 0
  if tfa = 0 then none
  else if (tfa : Int) < 16 * ((tfb : Int) - tfa) || (tfa : Int) < 16 * ((tfa : Int) - tfb) then none
  else
    let beta : Rat := ((tfb : Rat) - tfa) / tfa
    let big : Rat := s.spanAll n
    let idx := List.range nt
    let m := idx.map fun i =>
      let mid : Rat := ((at' i : Rat) + at' (i + 1)) / 2 - at' 0
      let pc : Rat := ((at' (i + 1) : Rat) - at' i) / (1 + beta * (mid / tfa - 1 / 2))
      pc * big / ((tfa : Rat) * s.span n (ent i)) - 1
    let mbar : Rat := (idx.foldl (fun a i => a + (s.span n (ent i) : Rat) * m.getD i 0) 0) / big
    let w : Rat := 2 ^ s.get (F.STAIR_ICFG.GLW n)
    let g := idx.map fun i =>
      clampI (-32767) 32767 (s.geo n (ent i) + rndRat ((262144 * (m.getD i 0 - mbar) - s.geo n (ent i)) / w))
    let c := rndRat ((idx.foldl (fun a i => a + (s.span n (ent i) : Rat) * g.getD i 0) 0) / big)
    some (idx.map fun i => (ent i, toW 16 (clampI (-32767) 32767 (g.getD i 0 - c))))

/-- A value of G_k is set; a change sets GDIRTY (R151). -/
def State.setGeo (s : State) (n k v : Nat) : State :=
  if s.get (F.STAIR_GEO n k) = v % 65536 then s
  else (s.set (F.STAIR_GEO n k) v).set (F.STAIR_ISTAT.GDIRTY n) 1

/-- One more acceptance: learned values come into force when their count is up (R150). -/
def State.geoCount (s : State) (n : Nat) : State :=
  match (s.getTrk n).geoNew with
  | none => s
  | some (c, l) =>
    if c ≤ 1 then (s.each l fun s e => s.setGeo n e.1 e.2).updTrk n fun t => { t with geoNew := none }
    else s.updTrk n fun t => { t with geoNew := some (c - 1, l) }

/-- The landing-end tooth at stamp `st` closes flight b: flight a before it is learned from, then b becomes a and a new flight
begins (R150). -/
def State.flightClose (s : State) (n st : Nat) : State :=
  let t := s.getTrk n
  let nt := s.nTeeth n
  let s := match t.fltA, t.fltB with
    | some a, some b =>
      if s.bit (F.STAIR_GCTL.LEARN n) && !a.bad && !b.bad && a.stamps.length = nt + 1 && b.stamps.length = nt then
        match s.learnGeo n a.stamps (st - b.stamps.getD 0 0) with
        | none => s
        | some g => (s.inc (F.STAIR_GUPD n)).updTrk n fun t => { t with geoNew := some (2, g) }
      else s
    | _, _ => s
  s.updTrk n fun t =>
    { t with fltA := t.fltB.map (fun b => { b with stamps := b.stamps ++ [st] }), fltB := some ⟨[st], false⟩ }

/-- A tooth within a flight, and a record that spoils it. -/
def State.flightTooth (s : State) (n st : Nat) : State :=
  s.updTrk n fun t => { t with fltB := t.fltB.map fun b => { b with stamps := b.stamps ++ [st] } }
def State.flightBad (s : State) (n : Nat) : State :=
  s.updTrk n fun t => { t with fltB := t.fltB.map fun b => { b with bad := true } }

/-! ### The interpolated word (R133, R143, R145, R147) -/

/-- The most treads the interval gives: N - 1, or 2N - 1 on a remote tracker. -/
def State.treadCap (s : State) (n : Nat) : Nat :=
  let t := s.getTrk n
  if s.get (F.STAIR_CFG.ROLE n) = 3 then 2 * t.n - 1 else t.n - 1

/-- Treads of W' beyond the interval's first angle (R133, R147). -/
def State.treadsDue (s : State) (n : Nat) : Nat :=
  min (s.treadCap n) ((s.getTrk n).n * s.elapsed n / s.tpred n)

/-- W' as an angle. -/
def State.wPrime (s : State) (n : Nat) : Nat := ((s.getTrk n).base + s.treadsDue n) % s.wordMod n

/-- The catch-up's value V, as treads beyond C: the lesser of W' - C and 4 N' e / Tpred' (R145). -/
def State.catchDue (s : State) (n c : Nat) : Nat :=
  let t := s.getTrk n
  min (subMod t.base c (s.wordMod n) + s.treadsDue n) (4 * t.n * (s.fclk - t.catchT) / s.tpred n)

/-- DEFICIT: W' - V during a catch-up, 0 otherwise (Table 6.7). -/
def State.deficit (s : State) (n : Nat) : Nat :=
  match (s.getTrk n).catchC with
  | none => 0
  | some _ => subMod (s.wPrime n) (s.word n) (s.wordMod n)

end Sys2Proof.Machine
end

