-- ==== Sys2Proof/Machine/Gauge.lean ====
section
/-! DEFINITION. The gauge: segment times and roughness, the tooth-history coders, the angle waveform outputs (R224 to R246). -/

namespace Sys2Proof.Machine

/-- The gauge runs (block 11). -/
def State.gauUp (s : State) : Bool := s.islandUp .memory && s.blockFree 11

/-! ### Segments and roughness (R224 to R229) -/

/-- Tooth positions of a cycle of tracker `n`: L / TPT. -/
def State.positions (s : State) (n : Nat) : Nat := s.cycLen n / 2 ^ (s.getTrk n).tptLog

/-- Position `x` lies strictly between `a` and `b`, going up modulo `m`. -/
def between (m a b x : Nat) : Bool :=
  let d := fun y => (y + m - a % m) % m
  decide (0 < d x) && decide (d x < d b)

/-- NSEG, and the end position of segment `c`. -/
def State.nSeg (s : State) : Nat := s.get F.GAU_CFG.NSEGM1 + 1
def State.segEnd (s : State) (c : Nat) : Nat :=
  (s.get (F.GAU_SEG c) + s.get (F.GAU_SLEN c)) % s.positions (s.get F.GAU_CFG.TRK)

/-- A candidate in segment `c` counts in the block (R228). A count past BLKCNT's five bits is not stated, so it is a free value. -/
def State.blockCount (s : State) (c : Nat) : State :=
  let b := s.get (F.GAU_MF.BLKCNT c) + 1
  let lim := s.bit (F.GAU_MF.LIMIT c)
  let s := if b < 32 then s.set (F.GAU_MF.BLKCNT c) b else s.free.2.set (F.GAU_MF.BLKCNT c) s.free.1
  let hit := decide (max 1 (s.get F.GAU_MFCFG.MFLIM) ≤ b) && !bitOf s.gau.mfHit c
  let s := s.updGau fun g => { g with candT := some (s.mclk, c, hit, lim) }
  if hit then
    ((((s.evt (F.GAU_MF.LIMIT c)).raise 309).report 71 c).updGau fun g => { g with mfHit := g.mfHit + 2 ^ c })
  else s

/-- A misfire candidate in segment `c` (R228). -/
def State.candidate (s : State) (c : Nat) : State :=
  (((s.evtInc (F.GAU_MF.CAND c)).updGau fun g => { g with cycCand := g.cycCand + 1 }).raise 308).blockCount c

/-- The candidate of the present MCLK, if any: a tread 0 of the same MCLK comes before it (R229). -/
def State.candNow (s : State) : Option (Nat × Bool × Bool) :=
  match s.gau.candT with
  | some (m, c) => if m = s.mclk then some c else none
  | none => none

/-- The candidate of this MCLK is taken back from the block that ends, with the limit it reached there (R229). -/
def State.candUndo (s : State) : State :=
  match s.candNow with
  | some (c, true, lim) =>
    let s := (s.setB (F.GAU_MF.LIMIT c) lim).set (F.IRT_SRC.COUNT 309) (s.get (F.IRT_SRC.COUNT 309) - 1)
    { s with por := { s.por with pulses := s.por.pulses.erase (plainSig 71 c) } }
  | _ => s

/-- The threshold that a result is tested against: the one before a change of the same MCLK (R229). -/
def State.thrOld (s : State) : Nat :=
  match s.gau.thrT with
  | some (m, v) => if m = s.mclk then v else s.get F.GAU_MFTHR
  | none => s.get F.GAU_MFTHR

/-- The threshold takes a value. -/
def State.thrSet (s : State) (v : Nat) : State :=
  (s.updGau fun g => { g with thrT := some (s.mclk, s.thrOld) }).set F.GAU_MFTHR v

/-- A segment ends valid with time `t`: its time, then its roughness when the two before it were valid (R226, R230). With T_c 0 the
spec states no quotient, so it is a free value. -/
def State.segValid (s : State) (c t : Nat) : State :=
  let s := (s.set (F.GAU_TSEG c) (min (t / 64) 0xFFFFF)).qvFeed 7 (16 + c) (min (t / 64) 524287 : Nat) true
  let prev := s.gau.prevT
  let s := s.updGau fun g => { g with prevT := (t :: g.prevT).take 2 }
  match prev with
  | [t1, t2] =>
    let r := s.free
    let rho := if t = 0 then sgn 20 r.1 else sat20 (rndDiv (65536 * ((t : Int) - 2 * t1 + t2)) t)
    let s := if t = 0 then r.2 else s
    let s := ((s.set (F.GAU_ROUGH c) (toW 20 rho)).set (F.GAU_MF.VALID c) 1).qvFeed 7 c rho true
    if sgn 20 s.thrOld < rho then s.candidate c else s
  | _ => s.set (F.GAU_MF.VALID c) 0

/-- A segment ends invalid: a gap in the sequence (R225). -/
def State.segInvalid (s : State) (c : Nat) : State :=
  ((s.evt F.GAU_STAT.SEGINV).set (F.GAU_MF.VALID c) 0).updGau fun g => { g with prevT := [] }

/-- The running segment ends: a sum past 30 bits is not stated, so it is a free value (R224). -/
def State.segClose (s : State) (c t : Nat) (bad : Bool) : State :=
  let s := s.updGau fun g => { g with seg := none, segBad := false }
  if bad then s.segInvalid c
  else if t < 2 ^ 30 then s.segValid c t
  else
    let a := s.free
    let b := a.2.free
    b.2.segValid c ((a.1 + 2 ^ 20 * b.1) % 2 ^ 30)

/-- The sum takes a record at position `p`; the segment ends at its end tooth, or where that tooth was passed over. -/
def State.segSum (s : State) (r : GauRec) : State :=
  match s.gau.seg with
  | none => s
  | some (c, t) =>
    let e := s.segEnd c
    let m := s.positions r.trk
    let t := t + r.rec_.per
    let passed := match s.gau.lastPos with | some q => between m q r.pos e | none => false
    if r.pos = e then s.segClose c t s.gau.segBad
    else if passed then s.segClose c t true
    else s.updGau fun g => { g with seg := some (c, t) }

/-- Segments start at this tooth, or at one passed over: such a segment is invalid, and ends at once where its end tooth has come. -/
def State.segStart (s : State) (r : GauRec) : State :=
  let m := s.positions r.trk
  let at_ := (List.range s.nSeg).find? fun c => s.get (F.GAU_SEG c) = r.pos
  let skip := match s.gau.lastPos with
    | some q => (List.range s.nSeg).find? fun c => between m q r.pos (s.get (F.GAU_SEG c))
    | none => none
  let s := match skip with
    | some c => if at_.isSome || s.segEnd c = r.pos then s.segInvalid c else s.updGau fun g => { g with seg := some (c, 0), segBad := true }
    | none => s
  match at_ with
  | some c => s.updGau fun g => { g with seg := some (c, 0), segBad := false }
  | none => s

/-- A record for the segments (R224, R225, R226): outside CYCLE_SYNC, or at its entry, a running segment ends invalid and the
sequence restarts at the entry. -/
def State.segRecord (s : State) (r : GauRec) : State :=
  if !s.bit F.GAU_CFG.EN then s.updGau fun g => { g with seg := none, segBad := false, prevT := [], lastPos := none }
  else if r.trk ≠ s.get F.GAU_CFG.TRK then s
  else
    let s := if !r.cyc || r.first then
        let s := match s.gau.seg with | some (c, t) => s.segClose c t true | none => s
        s.updGau fun g => { g with lastPos := none, prevT := if r.cyc then [] else g.prevT }
      else s
    if !r.cyc then s
    else ((s.segSum r).segStart r).updGau fun g => { g with lastPos := some r.pos }

/-! ### History coders (R231 to R235) -/

/-- σ of a record: its entry's span, and the one before it when MISSED (R232). -/
def State.recSpan (s : State) (n : Nat) (r : ToothRec) : Nat :=
  let nt := s.nTeeth n
  s.span n ((r.tidx + nt - 1) % nt) + if r.missed then s.span n ((r.tidx + 2 * nt - 2) % nt) else 0

/-- The sync block of a record (Table 10.4). -/
def syncBytes (r : GauRec) (lost coarse : Bool) : List Byte :=
  [BitVec.ofNat 8 (0xC0 + 32 * b2n lost + 16 * b2n r.rec_.missed + 8 * b2n r.rec_.noise), BitVec.ofNat 8 r.rec_.tidx,
    BitVec.ofNat 8 (b2n r.cyc + 2 * (r.flight % 2) + 4 * b2n coarse)] ++ leBytes 8 (r.tb % 2 ^ 60) ++ leBytes 4 (r.rec_.per % 2 ^ 30)

/-- Rounded quotient of naturals, 0 for divisor 0. -/
def quo (a b : Nat) : Nat := if b = 0 then 0 else rndDivN a b

/-- The code of a record outside a sync block, in the coder's mode (Table 10.3); none where only a sync block can carry it: coarse with
Q_i > 65 535 (R234). -/
def coderCode (c : Coder) (r : ToothRec) (sig : Nat) : Option (List Byte) :=
  let mb := b2n r.missed
  if c.coarse then
    let q := quo r.per c.q
    let d : Int := (q : Int) - quo (c.prevQ * sig) c.prevSig
    if 65535 < q then none
    else if -32 ≤ d ∧ d ≤ 31 then some [BitVec.ofNat 8 (64 * mb + toW 6 d)]
    else some (BitVec.ofNat 8 (0x80 + 32 * mb) :: leBytes 2 q)
  else
    let d : Int := (r.per : Int) - (c.prevP * sig / c.prevSig : Nat)
    let nb := b2n r.noise
    if -4096 ≤ d ∧ d ≤ 4095 then
      let x := toW 13 d
      some [BitVec.ofNat 8 (64 * mb + 32 * nb + x / 256), BitVec.ofNat 8 x]
    else some (BitVec.ofNat 8 (0x80 + 32 * mb + 16 * nb) :: leBytes 4 (r.per % 2 ^ 30))

/-- The coder after a record was coded, by a block or not. -/
def Coder.after (c : Coder) (blk coarse : Bool) (r : ToothRec) (sig : Nat) (bs : List Byte) : Coder :=
  let q := if blk then max 1 (r.per / (4 * sig)) else c.q
  { c with
    sync := false, lost := if blk then false else c.lost, since := if blk then 1 else c.since + 1
    coarse := if blk then coarse else c.coarse, q := q, prevP := r.per, prevQ := quo r.per q, prevSig := sig, buf := c.buf ++ bs }

/-- Coder `n`. -/
def State.coder (s : State) (n : Nat) : Coder := vget s.gau.coders n Coder.reset
def State.updCoder (s : State) (n : Nat) (f : Coder → Coder) : State := s.updGau fun g => { g with coders := vupd g.coders n f }

/-- A record for coder `n`: coded as a sync block where R234 asks for one, in its mode otherwise, or dropped whole (R235). -/
def State.coderRecord (s : State) (n : Nat) (r : GauRec) : State :=
  if !s.bit (F.GAU_HCFG.HEN n) then s
  else
    let c := s.coder n
    let sig := s.recSpan n r.rec_
    let si := s.get (F.GAU_HCFG.SYNCINT n)
    let blk := c.sync || r.first || (si ≠ 0 && decide (si ≤ c.since))
    let mode := s.bit (F.GAU_HCFG.COARSE n)
    let sync := syncBytes r c.lost mode
    let (isBlk, bs) := if blk then (true, sync) else match coderCode c r.rec_ sig with
      | some b => (false, b)
      | none => (true, sync)
    if c.buf.length + bs.length ≤ 32 then
      let s := (s.updCoder n fun c => c.after isBlk mode r.rec_ sig bs).set (F.GAU_HBYTES n) (s.get (F.GAU_HBYTES n) + bs.length)
      if isBlk then s.setB (F.GAU_HSTAT.CACT n) mode else s
    else
      (((s.evtInc (F.GAU_HSTAT.LOST n)).evt (F.GAU_HSTAT.LOSTF n)).raise 310).updCoder n fun c => { c with sync := true, lost := true }

/-- The first item of a kind on its way that no item of its tracker stands before (R8). -/
def gauFirst (z : Bool) : List GauItem → List Nat → Option GauItem
  | [], _ => none
  | x :: t, seen =>
    if x.isZero = z then if seen.contains x.trk then gauFirst z t seen else some x
    else gauFirst z t (x.trk :: seen)

/-- GAUGE_RECORD_ARRIVE: a tooth record reaches the gauge; one that arrives at a held block is lost. -/
def execGaugeRecordArrive (s : State) : Out :=
  .next <|
    if s.islandUp .memory then
      match gauFirst false s.gau.inbound [] with
      | some (.record r) =>
        let s := s.updGau fun g => { g with inbound := g.inbound.erase (.record r) }
        if s.blockFree 11 then (s.segRecord r).coderRecord r.trk r else s
      | _ => s
    else s

/-! ### Threshold (R227, R228) -/

/-- The tracker followed passed tread 0 in CYCLE_SYNC: the cycle, and after MFWIN of them the block, ends. A candidate of the same MCLK
counts in the new cycle and block (R229). -/
def State.gauZero (s : State) : State :=
  let n := s.get F.GAU_STAT.BLKCYC + 1
  let now := s.candNow
  let s := if max 1 (s.get F.GAU_MFCFG.MFWIN) ≤ n then
      let s := (s.candUndo.each (List.range 16) fun s c => s.set (F.GAU_MF.BLKCNT c) 0).updGau fun g => { g with mfHit := 0 }
      let s := match now with | some e => s.blockCount e.1 | none => s
      s.set F.GAU_STAT.BLKCYC 0
    else s.set F.GAU_STAT.BLKCYC n
  let k := b2n now.isSome
  let s := (s.qvFeed 7 32 (s.gau.cycCand - k : Nat) true).updGau fun g => { g with cycCand := k }
  if s.bit F.GAU_MFCFG.MFEN then
    let s := if s.gau.lookup.isSome then s.evt F.GAU_STAT.THRLATE else s
    let l : LowLook := ⟨s.snapshot, 3 * s.fclk, none⟩
    s.updGau fun g => { g with lookup := some l }
  else s

/-- GAUGE_TREAD_ZERO. -/
def execGaugeTreadZero (s : State) : Out :=
  .next <|
    if s.islandUp .memory then
      match gauFirst true s.gau.inbound [] with
      | some (.zero n) =>
        let s := s.updGau fun g => { g with inbound := g.inbound.erase (.zero n) }
        if s.blockFree 11 && s.bit F.GAU_CFG.EN && n = s.get F.GAU_CFG.TRK then s.gauZero else s
      | _ => s
    else s

/-- The threshold lookup ends: its result is the threshold; an uncorrectable error leaves it. The image lets MFEN name no absent chart;
the result of one is free. -/
def State.thrEnd (s : State) (snap : List Int) : State :=
  let c := s.get F.GAU_MFCFG.MFCHART
  let r := s.chartLookup .chart c snap
  let s' := r.1.updGau fun g => { g with lookup := none }
  match r.2, s.chartAt c with
  | some l, _ => s'.thrSet (toW 20 l.val)
  | none, some _ => s'.evt F.GAU_STAT.ECC
  | none, none => s'.free.2.thrSet s'.free.1

/-- THRESHOLD_LOOKUP_DONE: the unit has taken the request while no recipe LOOKUP waited, and served it. -/
def execThresholdLookupDone (s : State) : Out :=
  .next <|
    if s.gauUp && s.chtUp then
      let s := s.lookAccept 6
      match s.gau.lookup with
      | none => s
      | some l =>
        match l.acc with
        | some a => if a + s.lookCost (s.get F.GAU_MFCFG.MFCHART) l.snap ≤ 3 * s.fclk then s.thrEnd l.snap else s
        | none => s
    else s

/-! ### Angle waveform outputs (R236 to R242) -/

/-- idx and rem of output `a` for the word now (R236). -/
def State.awoIdx (s : State) (a : Nat) : Nat × Nat :=
  let n := s.get (F.GAU_ACFG.ATRK a)
  let l := s.cycLen n
  let x := (s.word n + s.get (F.GAU_AOFS a)) % l * 1024
  (x / l, x - x / l * l)

/-- Table value `i`, signed, read through the gauge's port; a refused read gives zero (R299). -/
def State.awoVal (s : State) (a i : Nat) : State × Int × Bool :=
  match vget s.gau.awoTab a none with
  | none => (s, 0, true)
  | some (h, o) =>
    let r := s.hallOp .gauge (524288 * h + o + 2 * (i % 1024)) 2 none 1
    (r.1, sgn 16 (leNat r.2.1), r.2.2 ≠ .ecc)

/-- The conditions that hold an output idle apart from a bad read (R238). -/
def State.awoLive (s : State) (a : Nat) : Bool :=
  s.bit (F.GAU_ACFG.AEN a) &&
    if s.bit (F.GAU_ACFG.REMOTE a) then s.bit (F.GAU_SRX.FRESH (s.get (F.GAU_ACFG.RXSLOT a)))
    else s.trkState (s.get (F.GAU_ACFG.ATRK a)) = 2

/-- The output as AOUT shows it: y with VALID, or the idle value (R238). A remote output's y is its slot's value (R237). -/
def State.awoOut (s : State) (a : Nat) : Nat × Bool :=
  if !s.awoLive a then (s.get (F.GAU_AIDLE a), false)
  else if s.bit (F.GAU_ACFG.REMOTE a) then (s.get (F.GAU_SRX.VALUE (s.get (F.GAU_ACFG.RXSLOT a))), true)
  else if s.bit (F.GAU_AOUT.VALID a) then (s.get (F.GAU_AOUT.Y a), true)
  else (s.get (F.GAU_AIDLE a), false)

/-- The index moves to `idx`; the hot swap sees whether it passed from the last entry to the first (Table 4.6). -/
def State.awoMove (s : State) (a idx : Nat) : State :=
  let old := s.get (F.GAU_AIDX a)
  let now := s.fclk
  let s := s.set (F.GAU_AIDX a) idx
  if idx = old then s else s.updGau fun g => { g with awoAdv := vupd g.awoAdv a fun _ => (now, decide (idx < old)) }

/-- A new y stands, and the frame of R239 waits when idx passed a multiple of 2^SLOG. -/
def State.awoTake (s : State) (a old idx : Nat) (y : Int) : State :=
  let st := 2 ^ s.get (F.GAU_ACFG.SLOG a)
  let moved := idx ≠ old && (decide (idx < old) || old / st ≠ idx / st)
  let s := ((s.set (F.GAU_AOUT.Y a) (toW 16 y)).set (F.GAU_AOUT.VALID a) 1).updGau fun g => { g with awoBad := vupd g.awoBad a fun _ => false }
  if moved && s.bit (F.GAU_ACFG.STREAM a) then
    let f := (toW 16 y, idx, s.tb.toNat)
    s.updGau fun g => { g with awoTx := vupd g.awoTx a fun _ => some f }
  else s

/-- An evaluation that reads the table (R236); an uncorrectable error leaves the output idle (R238). -/
def State.awoEval (s : State) (a : Nat) : State :=
  let f := s.fclk
  let old := s.get (F.GAU_AIDX a)
  let (idx, rem) := s.awoIdx a
  let s := (s.updGau fun g => { g with awoT := vupd g.awoT a fun _ => f }).awoMove a idx
  let l := s.cycLen (s.get (F.GAU_ACFG.ATRK a))
  let r0 := s.awoVal a idx
  let r1 := if s.bit (F.GAU_ACFG.INTERP a) then r0.1.awoVal a (idx + 1) else (r0.1, r0.2.1, true)
  let y := r0.2.1 + (r1.2.1 - r0.2.1) * rem / l
  if r0.2.2 && r1.2.2 then r1.1.awoTake a old idx y
  else (((r1.1.evt F.GAU_STAT.ECC).raise 311).set (F.GAU_AOUT.VALID a) 0).updGau fun g => { g with awoBad := vupd g.awoBad a fun _ => true }

/-- An output that is idle, remote or whose table is gone holds no y of its own, and nothing to send (R238, R239). -/
def State.awoDrop (s : State) (a : Nat) : State :=
  (s.set (F.GAU_AOUT.VALID a) 0).updGau fun g => { g with awoBad := vupd g.awoBad a fun _ => false, awoTx := vupd g.awoTx a fun _ => none }

/-- A local output that may be evaluated; one that is idle loses its y. -/
def State.awoLocal (s : State) (a : Nat) (k : State → State) : State :=
  if !s.gauUp then s
  else if s.awoLive a && !s.bit (F.GAU_ACFG.REMOTE a) then k s
  else s.awoDrop a

/-- The output is evaluated when idx changed, or when no evaluation stands (R237). -/
def State.awoStale (s : State) (a : Nat) : Bool :=
  (s.awoIdx a).1 ≠ s.get (F.GAU_AIDX a) || !(s.bit (F.GAU_AOUT.VALID a) || vget s.gau.awoBad a false)

/-- AWO_INTERP_REFRESH: with INTERP 1, 64 MCLK after the last evaluation (R237). -/
def execAwoInterpRefresh (a : Fin 2) (s : State) : Out :=
  .next (s.awoLocal a fun s =>
    if s.bit (F.GAU_ACFG.INTERP a) && decide (4 * 64 ≤ 3 * (s.fclk - vget s.gau.awoT a 0)) then s.awoEval a else s)

/-- STREAM_RECEIVE: an authenticated frame writes its slot; REMOTE outputs on the slot show its value (`State.awoOut`, R237, R240). -/
def execStreamReceive (s : State) : Out :=
  .next <|
    if s.islandUp .memory then
      match s.gau.rx with
      | [] => s
      | (sl, y) :: t =>
        let f := s.fclk
        let s := s.updGau fun g => { g with rx := t }
        if !s.blockFree 11 then s
        else
          ((s.set (F.GAU_SRX.VALUE sl) y).set (F.GAU_SRX.FRESH sl) 1).updGau fun g => { g with srxT := vupd g.srxT sl fun _ => f }
    else s

/-- STREAM_SLOT_TIMEOUT: no frame for 10 × SRXTO µs (R240). -/
def execStreamSlotTimeout (sl : Fin 8) (s : State) : Out :=
  .next <|
    if s.gauUp && s.bit (F.GAU_SRX.FRESH sl) && decide (vget s.gau.srxT sl 0 + 4000 * max 1 (s.get F.GAU_SRXTO) ≤ s.fclk)
        && !(s.gau.rx.head?.map (·.1) = some sl.val && s.comes (fun c => c = .streamReceive)) then
      (s.set (F.GAU_SRX.FRESH sl) 0).raise 311
    else s

/-- The carrier's period: 1 acts as 2 (R241). -/
def State.awoPer (s : State) (a : Nat) : Nat := let p := s.get (F.GAU_APER a); if p = 1 then 2 else p

/-- AWO_PWM_PERIOD: the carrier is at count 0 and latches its duty (R241). -/
def execAwoPwmPeriod (a : Fin 2) (s : State) : Out :=
  .next <|
    let p := s.awoPer a
    if s.islandUp .angle && p ≠ 0 && decide (vget s.gau.phase a 0 + p ≤ s.fclk) then
      let d := ((sgn 16 (s.awoOut a).1 + 32768) * p / 65536).toNat
      let f := s.fclk
      s.updGau fun g => { g with duty := vupd g.duty a fun _ => d, phase := vupd g.phase a fun _ => f }
    else s

/-- The carrier's level: high while the count is below the duty; low with APER 0 (R241). While a block reset holds the gauge, the level
that stood before it (R33). -/
def State.awoPwm (s : State) (a : Nat) : Bool :=
  (vget s.gau.held a none).getD (s.get (F.GAU_APER a) ≠ 0 && decide (s.fclk - vget s.gau.phase a 0 < vget s.gau.duty a 0))

/-! ### Register writes, sections, block reset -/

/-- After a write to GAU_HCFGn: a clear of HEN empties the buffer; a set of HEN, or a change of COARSE, makes the next record a sync
block (R234, R235). -/
def State.hcfgWritten (s : State) (n : Nat) (old : Word) : State :=
  let now := s.reg (R.GAU_HCFG n)
  let o := old.toNat
  let v := now.toNat
  let s := if bitOf v 0 then s else s.updCoder n fun c => { c with buf := [] }
  if (bitOf v 0 && !bitOf o 0) || bitOf v 1 ≠ bitOf o 1 then s.updCoder n fun c => { c with sync := true } else s

/-- After a write to GAU_ACFGa: an output that is switched on or off, to or from a slot, or to another tracker holds no y of its own any
more; without STREAM nothing waits to be sent (R237 to R239). -/
def State.awoCfgd (s : State) (a : Nat) (old : Word) : State :=
  let x := old.toNat ^^^ (s.reg (R.GAU_ACFG a)).toNat
  if x % 8 ≠ 0 || bitOf x 4 then s.awoDrop a
  else if s.bit (F.GAU_ACFG.STREAM a) then s
  else s.updGau fun g => { g with awoTx := vupd g.awoTx a fun _ => none }

/-- Word image `i` of a section: four bytes, [31:20] zero. -/
def imgWord (b : List Byte) (o : Nat) : Nat := leAt b o 4

/-- GAUGE applied (R227, R243). -/
def State.gaugeApply (s : State) (b : List Byte) : State :=
  let w := fun o => (BitVec.ofNat 20 (imgWord b o) : Word)
  let s := (s.setReg R.GAU_CFG (w 0)).setReg R.GAU_MFCFG (w 4)
  let s := s.each (List.range 16) fun s c => (s.setReg (R.GAU_SEG c) (w (8 + 4 * c))).setReg (R.GAU_SLEN c) (w (72 + 4 * c))
  (s.set F.GAU_MFTHR 524287).updGau fun g => { g with seg := none, segBad := false, prevT := [], lookup := none, lastPos := none }

/-- The checks of a GAUGE section (R243), given whether a tracker is Main, its tooth positions per cycle, whether a position is one
of its teeth, and the charts of the image. -/
def gaugeCheck (b : List Byte) (main : Nat → Bool) (npos : Nat → Nat) (tooth : Nat → Nat → Bool) (chart : Nat → Bool) : Bool :=
  let cfg := imgWord b 0
  let mf := imgWord b 4
  let t := cfg / 2 % 4
  let k := cfg / 8 % 16
  let sp := fun c => imgWord b (8 + 4 * c)
  let sl := fun c => imgWord b (72 + 4 * c)
  b.length = 136 && decide (cfg < 128) && decide (mf < 1048576)
    && (List.range 16).all (fun c => decide (sp c < 65536) && decide (sl c < 256))
    && main t
    && (List.range (k + 1)).all (fun c => sl c ≠ 0 && tooth t (sp c) && tooth t ((sp c + sl c) % npos t))
    && (List.range k).all (fun c => decide (sp c + sl c ≤ sp (c + 1)))
    && decide (sp k + sl k ≤ sp 0 + npos t)
    && (!bitOf mf 6 || chart (mf % 64))

/-- AWO applied: registers, and the table into its hall (R244). -/
def State.awoApply (s : State) (a : Nat) (b : List Byte) : State :=
  let w := fun o => (BitVec.ofNat 20 (imgWord b o) : Word)
  let h := leAt b 0 1
  let o := leAt b 4 4
  let old := s.reg (R.GAU_ACFG a)
  let s := (((s.setReg (R.GAU_ACFG a) (w 8)).setReg (R.GAU_AOFS a) (w 12)).setReg (R.GAU_APER a) (w 16)).setReg (R.GAU_AIDLE a) (w 20)
  let s := s.awoCfgd a old
  if h = 0xFF then s.updGau fun g => { g with awoTab := vupd g.awoTab a fun _ => none }
  else
    let p := 524288 * h + o
    let s := { s.setHallBytes p (slice b 32 2048) with
      hallErr := s.hallErr.filter fun e => !(decide (p ≤ 8 * e.1 + 7) && decide (8 * e.1 < p + 2048)) }
    s.updGau fun g => { g with awoTab := vupd g.awoTab a fun _ => some (h % 16, o) }

/-- An AWO section leaves the image: no table, and its registers at their reset values. -/
def State.awoRemove (s : State) (a : Nat) : State :=
  (((((s.setReg (R.GAU_ACFG a) 0).setReg (R.GAU_AOFS a) 0).setReg (R.GAU_APER a) 0).setReg (R.GAU_AIDLE a) 0).awoDrop a).updGau (fun g =>
    { g with awoTab := vupd g.awoTab a fun _ => none })

/-- A GAUGE section leaves the image: its registers take their reset values. -/
def State.gaugeRemove (s : State) : State :=
  let s := (s.setReg R.GAU_CFG (resetOf R.GAU_CFG)).setReg R.GAU_MFCFG (resetOf R.GAU_MFCFG)
  let s := s.each (List.range 16) fun s c => (s.setReg (R.GAU_SEG c) (resetOf (R.GAU_SEG c))).setReg (R.GAU_SLEN c) (resetOf (R.GAU_SLEN c))
  s.updGau fun g => { g with seg := none, segBad := false, prevT := [], lookup := none, lastPos := none }

/-- The checks of an AWO section that need no other section (R244). -/
def awoCheck (b : List Byte) (trk : Nat → Bool) (len : Nat → Nat) : Bool :=
  let h := leAt b 0 1
  let c := imgWord b 8
  leAt b 4 4 % 8 = 0 &&
  (if h = 0xFF then b.length = 32 && bitOf c 4
    else b.length = 2080 && decide (h ≤ 14) && decide (leAt b 4 4 + 2048 ≤ 524288))
    && leAt b 1 3 = 0 && leAt b 24 8 = 0 && decide (c < 1048576) && trk (c / 2 % 4)
    && decide (imgWord b 12 < len (c / 2 % 4)) && decide (imgWord b 16 < 1048576) && decide (imgWord b 20 < 65536)
    && !(bitOf c 8 && bitOf c 4) && decide (1 ≤ c / 4096 % 64) && decide (c / 4096 % 64 ≤ 62)

/-- Block reset of GAU: registers and everything behind them (R58, R235). Records and frames on their way stay on their way. -/
def State.gauReset (s : State) : State :=
  let held := Vector.ofFn fun a : Fin 2 => some (s.awoPwm a)
  let s := { s with regs := s.regs.filter fun c => !(decide (0x3800 ≤ c.1) && decide (c.1 < 0x4000)) }
  s.updGau fun g => { Gau.reset with inbound := g.inbound, rx := g.rx, held := held }

/-- The gauge resumes: its PWM outputs follow their carriers again. -/
def State.gauResume (s : State) : State := s.updGau fun g => { g with held := .replicate 2 none }

end Sys2Proof.Machine
end

