-- ==== Sys2Proof/Machine/Lane.lean ====
section
/-! DEFINITION. What a lane of the ring carries: 8b/10b code groups, frame words, frames (R340, R346). A word is written in the order in
which its 20 bits leave, the first bit most significant; the code group tables are those of IEEE 802.3 clause 36 (assumption 71). -/

namespace Sys2Proof.Machine

/-- A code group: a data octet, or one of the control octets (K28.5 is 0xBC, K27.7 0xFB, K29.7 0xFD, K23.7 0xF7). -/
structure CodeGroup where
  ctl   : Bool
  octet : Nat
deriving DecidableEq, Repr

/-- The six bits abcdei of EDCBA, for a negative running disparity. -/
def code6 : List Nat :=
  [0b100111, 0b011101, 0b101101, 0b110001, 0b110101, 0b101001, 0b011001, 0b111000, 0b111001, 0b100101, 0b010101, 0b110100, 0b001101,
   0b101100, 0b011100, 0b010111, 0b011011, 0b100011, 0b010011, 0b110010, 0b001011, 0b101010, 0b011010, 0b111010, 0b110011, 0b100110,
   0b010110, 0b110110, 0b001110, 0b101110, 0b011110, 0b101011]

/-- The four bits fghj of HGF, for a negative running disparity: data, and control groups. -/
def code4 : List Nat := [0b1011, 0b1001, 0b0101, 0b1100, 0b1101, 0b1010, 0b0110, 0b1110]
def code4K : List Nat := [0b1011, 0b0110, 0b1010, 0b1100, 0b1101, 0b0101, 0b1001, 0b0111]

/-- Ones among the low `n` bits. -/
def onesOf (n x : Nat) : Nat := (List.range n).countP fun i => bitOf x i

/-- A sub-block of `n` bits as sent at running disparity `rd` (true: positive), from its form for a negative one, and the disparity after
it. An unbalanced sub-block, and a balanced one with two forms (`two`), is complemented at a positive disparity. -/
def subBlock (n x : Nat) (two rd : Bool) : Nat × Bool :=
  let flat := decide (2 * onesOf n x = n)
  (if rd && (!flat || two) then 2 ^ n - 1 - x else x, if flat then rd else !rd)

/-- The alternate form of D.x.7, which keeps runs of equal bits short. -/
def altSeven (x : Nat) (rd : Bool) : Bool := if rd then x = 11 || x = 13 || x = 14 else x = 17 || x = 18 || x = 20

/-- The ten bits of a code group at a running disparity, and the disparity after it. -/
def codeSend (rd : Bool) (c : CodeGroup) : Nat × Bool :=
  let x := c.octet % 32
  let y := c.octet / 32
  let a := if c.ctl && x = 28 then subBlock 6 0b001111 false rd else subBlock 6 (code6.getD x 0) (x = 7) rd
  let b :=
    if c.ctl then subBlock 4 (code4K.getD y 0) true a.2
    else if y = 7 && altSeven x a.2 then subBlock 4 0b0111 false a.2
    else subBlock 4 (code4.getD y 0) (y = 3) a.2
  (16 * a.1 + b.1, b.2)

/-- The octets that a sub-block of six bits may stand for at a disparity. -/
def codeHeads (rd : Bool) (six : Nat) : List Nat := (List.range 32).filter fun x => (subBlock 6 (code6.getD x 0) (x = 7) rd).1 = six

/-- The code group that ten bits are at a running disparity: none when they carry a code or disparity error. -/
def codeRead (rd : Bool) (w : Nat) : Option CodeGroup :=
  let ctl := [0xBC, 0xFB, 0xFD, 0xF7].map (CodeGroup.mk true)
  let data := (codeHeads rd (w / 16)).flatMap fun x => (List.range 8).map fun y => CodeGroup.mk false (32 * y + x)
  (ctl ++ data).find? fun c => (codeSend rd c).1 = w

/-- The two code groups of a word, lower byte first. -/
def LaneWord.groups : LaneWord → CodeGroup × CodeGroup
  | .idle => (⟨true, 0xBC⟩, ⟨false, 0x50⟩)
  | .sof => (⟨true, 0xFB⟩, ⟨false, 0xB5⟩)
  | .eof => (⟨true, 0xFD⟩, ⟨true, 0xF7⟩)
  | .data lo hi => (⟨false, lo.toNat⟩, ⟨false, hi.toNat⟩)

/-- The word that two code groups form. -/
def wordOf (a b : CodeGroup) : Option LaneWord :=
  if !a.ctl && !b.ctl then some (.data (byteOf a.octet) (byteOf b.octet))
  else [LaneWord.idle, .sof, .eof].find? fun w => w.groups = (a, b)

/-- A word as its 20 bits, and the disparity after it. -/
def laneSend (rd : Bool) (w : LaneWord) : BitVec 20 × Bool :=
  let a := codeSend rd w.groups.1
  let b := codeSend a.2 w.groups.2
  (BitVec.ofNat 20 (1024 * a.1 + b.1), b.2)

/-- Words as they leave. -/
def laneCode (rd : Bool) : List LaneWord → List (BitVec 20) × Bool
  | [] => ([], rd)
  | w :: t =>
    let a := laneSend rd w
    let r := laneCode a.2 t
    (a.1 :: r.1, r.2)

/-- What the 20 bits of a word are: code groups that form a word, code groups that form none, or a code error. -/
inductive LaneRead where
  | word (w : LaneWord) (rd : Bool)
  | stray
  | codeError
deriving DecidableEq, Repr

def laneRead (rd : Bool) (w : BitVec 20) : LaneRead :=
  match codeRead rd (w.toNat / 1024) with
  | none => .codeError
  | some a =>
    let r := (codeSend rd a).2
    match codeRead r (w.toNat % 1024) with
    | none => .codeError
    | some b => match wordOf a b with | none => .stray | some x => .word x (codeSend r b).2

/-- The words that come before the first code or framing error, and whether none comes at all. -/
def laneWords (rd : Bool) : List (BitVec 20) → List LaneWord × Bool
  | [] => ([], true)
  | w :: t =>
    match laneRead rd w with
    | .word x r =>
      let q := laneWords r t
      (x :: q.1, q.2)
    | _ => ([], false)

/-! ### Frames (R346) -/

/-- The bytes of a frame between SOF and EOF. -/
def frBytes (f : Frame) : List Byte :=
  let n := f.payload.length
  [byteOf (f.kind.toNat + 16 * f.flags.toNat), byteOf f.dst.toNat, byteOf f.src.toNat, byteOf n, byteOf f.hops.toNat, 0]
    ++ f.payload ++ List.replicate (n % 2) 0 ++ leBytes 8 f.seq.toNat ++ beBytes 8 f.tag.toNat

/-- Bytes in pairs, as data words. -/
def dataWords : List Byte → List LaneWord
  | lo :: hi :: t => .data lo hi :: dataWords t
  | _ => []

/-- The words of a frame: 13 + ceil(LEN / 2). -/
def frWords (f : Frame) : List LaneWord := .sof :: dataWords (frBytes f) ++ [.eof]

/-- The bytes of leading data words. -/
def wordBytes : List LaneWord → List Byte
  | .data lo hi :: t => lo :: hi :: wordBytes t
  | _ => []

/-- The frame that bytes spell; bytes that the layout gives as zero, or a length that does not fit, make none. -/
def frOfBytes (b : List Byte) : Option Frame :=
  let n := leAt b 3 1
  let f : Frame :=
    ⟨BitVec.ofNat 4 (leAt b 0 1), BitVec.ofNat 4 (leAt b 0 1 / 16), BitVec.ofNat 6 (leAt b 1 1), BitVec.ofNat 6 (leAt b 2 1),
     BitVec.ofNat 8 (leAt b 4 1), slice b 6 n, BitVec.ofNat 60 (leAt b (6 + n + n % 2) 8),
     BitVec.ofNat 64 (beNat (slice b (14 + n + n % 2) 8))⟩
  if n ≤ 64 && frBytes f = b then some f else none

/-- The frame that the code words from SOF to EOF carry, from the running disparity before them: none for a code or framing error. -/
def laneFrame (rd : Bool) (ws : List (BitVec 20)) : Option Frame :=
  let l := (laneWords rd ws).1
  match frOfBytes (wordBytes l.tail) with
  | some f => if (laneWords rd ws).2 && l = frWords f then some f else none
  | none => none

end Sys2Proof.Machine
end

