-- ==== Sys2Proof/Machine/Ring.lean ====
section
/-! DEFINITION. Gallery frames: their bytes, tags and sequence numbers, the queue of taken frames (R346 to R351). -/

namespace Sys2Proof.Machine

/-- Replace bytes `o` to `o + l.length - 1` of a payload. -/
def patch (p : List Byte) (o : Nat) (l : List Byte) : List Byte := p.take o ++ l ++ p.drop (o + l.length)

/-- SUB of a frame whose payload begins with one. -/
def frSub (f : Frame) : Nat := leAt f.payload 0 1

/-- The payload with its mutable fields zero (Table 16.3). -/
def frFixed (f : Frame) : List Byte :=
  match f.kind.toNat with
  | 1 => patch (patch f.payload 1 [0]) 26 (List.replicate 12 0)
  | 2 => if frSub f = 0 then patch f.payload 18 (List.replicate 8 0) else f.payload
  | 9 => patch f.payload 8 (List.replicate 5 0)
  | _ => f.payload

/-- The bytes that the tag covers: header, payload with its padding, SEQ (R350). -/
def frTagInput (f : Frame) : List Byte :=
  let n := f.payload.length
  [byteOf (f.kind.toNat + 16 * f.flags.toNat), byteOf f.dst.toNat, byteOf f.src.toNat, byteOf n, 0, 0]
    ++ frFixed f ++ List.replicate (n % 2) 0 ++ leBytes 8 f.seq.toNat

/-- The tag under a session key. -/
def frTag (f : Frame) (sk : List Byte) : BitVec 64 := BitVec.ofNat 64 (beNat ((cmac sk (frTagInput f)).take 8))

/-- The session key of an NM (R349). -/
def sessionKey (key nm : List Byte) : List Byte := hkdf key nm (ascii "EZGL SESS") 16

/-- LEN is one that the kind allows (Table 16.3). -/
def frLenOk (f : Frame) : Bool :=
  let n := f.payload.length
  let c := leAt f.payload 1 1
  match f.kind.toNat with
  | 1 => n = 38
  | 2 => n = 27
  | 3 => n = 4
  | 4 => decide (1 ≤ c) && decide (c ≤ 16) && n = 4 + 3 * c
  | 5 => n = 6
  | 6 => decide (1 ≤ c) && decide (c ≤ 56) && n = 6 + c
  | 7 => decide (2 ≤ n) && decide (n ≤ 58)
  | 8 => n = 19
  | 9 => n = 14
  | 10 => n = 4
  | 11 => n = 14
  | 12 => n = 10
  | 13 => decide (18 ≤ n) && decide (n ≤ 64) && n % 2 = 0
  | 14 => n = 2
  | _ => false

/-- The bay's number and its own identity digest's first 8 bytes (GAL_ID0 to GAL_ID3). -/
def State.bay (s : State) : Nat := s.get F.GAL_STAT.BAY
def State.idBytes (s : State) : List Byte := (List.range 4).flatMap fun k => leBytes 2 (s.get (F.GAL_ID k))

/-- The register writes that a command makes: itself a register write, or a REGWR frame of the host for this bay. -/
def State.writesOf (s : State) : Instr → List (Master × Nat × Word)
  | .registerWrite src a v => [(src, a.toNat, v)]
  | .hostRegwr d bits =>
    if bits = 0 && (leAt d 1 1 = 0 || leAt d 1 1 = s.bay) then
      (List.range (leAt d 2 1 % 16 + 1)).map fun i => (.host, beNat (slice d 3 2) + i, BitVec.ofNat 20 (beNat (slice d (5 + 3 * i) 3)))
    else []
  | _ => []

/-- The Gallery island runs. -/
def State.galUp (s : State) : Bool := s.islandUp .gallery

/-- Where a taken frame goes: ring upkeep, requests carried out one at a time, or what its kind names. -/
def rxGroup (r : RxFrame) : Nat :=
  match r.f.kind.toNat with
  | 1 | 2 | 9 => 1
  | 3 | 4 | 5 | 6 => 3
  | k => k

/-- The oldest frame of `rx` that satisfies `p`; none while an older frame for the same place waits, as frames act in the order in which
they came (R8, R348, R364). -/
def State.rxFirst (s : State) (p : RxFrame → Bool) : Option RxFrame :=
  match s.gal.rx.find? p with
  | none => none
  | some r => if s.gal.rx.find? (fun x => rxGroup x = rxGroup r) = some r then some r else none

/-- That frame, and the state with it removed. -/
def State.rxTake (s : State) (p : RxFrame → Bool) : Option (RxFrame × State) :=
  (s.rxFirst p).map fun r => (r, s.updGal fun g => { g with rx := g.rx.erase r })

/-- Run `k` on the oldest taken frame that satisfies `p`. -/
def State.onFrame (s : State) (p : RxFrame → Bool) (k : State → RxFrame → State) : State :=
  if s.galUp then match s.rxTake p with | none => s | some (r, s') => k s' r else s

/-! ### Frames leave (R340, R341, R345) -/

/-- The bypass is open: boot has reached enumeration, no reset is held, and the part is not in watch mode (R40). -/
def State.bypassOpen (s : State) : Bool :=
  s.running && (let b := s.get F.PCR_STAT.BOOTSTEP; decide (3 ≤ b) && decide (b ≤ 6))

/-- The passive bypass is closed, and GPI passes to GPO (R40). -/
def State.bypass (s : State) : Bool := !s.bypassOpen

/-- The words of an item on GPO and on GCO, and whether an invalid code group ends them. -/
def LaneItem.words : LaneItem → List LaneWord × List LaneWord × Bool
  | .whole p c => (frWords p, frWords c, false)
  | .broken ws => (ws, ws, true)

/-- FCLK that the words of an item take: 40 ns each. -/
def LaneItem.time (i : LaneItem) : Nat := let w := i.words; 16 * (w.1.length + b2n w.2.2)

/-- An item leaves on both outputs, which are free again `d` FCLK later. -/
def State.leave (s : State) (i : LaneItem) (d : Nat) : State :=
  let f := s.fclk
  let w := i.words
  let code := fun (r : List (BitVec 20) × Bool) => r.1.map some ++ if w.2.2 then [none] else []
  s.updGal fun g =>
    let a := laneCode g.rdP w.1
    let b := laneCode g.rdC w.2.1
    let fr := match i with | .whole p c => (some p, some c) | .broken _ => (none, none)
    { g with outP := fr.1, outC := fr.2, laneP := code a, laneC := code b, rdP := a.2, rdC := b.2, outT := f + d }

/-- The outputs are free: the bay drives them, sends no frame on them, and measures no lane. -/
def State.lanesFree (s : State) : Bool :=
  s.bypassOpen && s.gal.hold.isNone && s.gal.transit.isEmpty && decide (s.gal.outT ≤ s.fclk)

/-- A frame of another bay goes on: at once, its last word within 32 GCLK, or, behind a frame that is leaving, through the transit buffer.
While the bay measures its lanes such a frame is lost; through a closed bypass nothing of the island's leaves (R341, R345, R354). -/
def State.pass (s : State) (i : LaneItem) : State :=
  if s.bypass || s.gal.hold.isSome then s
  else if s.lanesFree then s.leave i 52
  else s.updGal fun g => { g with transit := g.transit ++ [i] }

/-- The frame that waits in the transit buffer goes first once the outputs are free. -/
def State.transitRun (s : State) : State :=
  match s.gal.transit with
  | [] => s
  | i :: t =>
    if s.bypass || s.gal.hold.isSome then s.updGal fun g => { g with transit := [] }
    else if s.gal.outT ≤ s.fclk then (s.leave i i.time).updGal fun g => { g with transit := t }
    else s

/-- A frame goes out unchanged but for HOPS (Table 16.2). -/
def frHop (f : Frame) : Frame := { f with hops := f.hops + 1 }
def State.forward (s : State) (f : Frame) : State := s.pass (.whole (frHop f) (frHop f))

/-- What a lane carries: the words of the frame that is leaving, else an idle word (R340). -/
def State.laneNow (s : State) (ws : List (Option (BitVec 20))) (rd : Bool) : List (Option (BitVec 20)) :=
  if s.fclk < s.gal.outT then ws else [some (laneSend rd .idle).1]

/-- An IRQ frame's payload, and its queueing (R381). -/
def irqBody (sub hid x : Nat) : List Byte := [byteOf sub, byteOf hid] ++ leBytes 2 x
def State.irqSend (s : State) (dst sub hid x : Nat) : State :=
  s.updGal fun g => { g with irqQ := g.irqQ ++ [(dst, irqBody sub hid x)] }

end Sys2Proof.Machine
end

