-- ==== Sys2Proof/Machine/Irt.lean ====
section
/-! DEFINITION. The interrupt router: registration, the host table, offers, claims and done (R378 to R387). -/

namespace Sys2Proof.Machine

/-- The router runs. -/
def State.irtUp (s : State) : Bool := s.islandUp .memory

/-- Source k: pending, and eligible for host h (R380). -/
def State.srcPending (s : State) (k : Nat) : Bool := s.bit (F.IRT_SRC.COUNT k)
def State.srcFor (s : State) (k h : Nat) : Bool :=
  s.srcPending k && s.bit (F.IRT_SRC.EN k) && bitOf (s.get (F.IRT_SRC.HMASK k)) h

/-- A bay number in an exchange means this bay when it is the bay's own, or 0 while it has none (R378). -/
def State.isHere (s : State) (b : Nat) : Bool := b = s.bay || b = 0

/-- Send an exchange to a bay: within the bay without a frame, else as an IRQ frame (R381). -/
def State.irqTo (s : State) (b sub hid x : Nat) : State :=
  if s.isHere b then s.updIrt fun r => { r with loc := r.loc ++ [(sub, hid, x)] } else s.irqSend b sub hid x

/-- An exchange of a SUB arrives, from within the bay, where they come in the order sent, or from its frame: run `k` with the sender's
bay, HID and value. -/
def State.irqMsg (s : State) (here : Bool) (sub : Nat) (k : State → Nat → Nat → Nat → State) : State :=
  if !s.irtUp then s
  else if here then
    match s.irt.loc with
    | [] => s
    | m :: t => if m.1 = sub then k (s.updIrt fun r => { r with loc := t }) s.bay m.2.1 m.2.2 else s
  else
    match s.rxTake (fun r => r.act && r.f.kind = 10 && frSub r.f = sub) with
    | none => s
    | some (r, s') => k s' r.f.src.toNat (leAt r.f.payload 1 1) (leAt r.f.payload 2 2)

/-! ### Registration (R378) -/

/-- This bay's host. -/
def State.hid (s : State) : Nat := s.get F.IRT_HOST.HID
def State.slot (s : State) : Nat := s.get F.IRT_HSTAT.SLOT

/-- An entry of the host table is written. -/
def State.htabSet (s : State) (h b reg prio slot : Nat) : State :=
  (((((s.set (F.IRT_HTAB.BAY h) b).set (F.IRT_HTAB.REG h) reg).set (F.IRT_HTAB.PRIO h) prio).set (F.IRT_HTAB.SLOT h) slot).set
    (F.IRT_HTAB.VALID h) 1)

/-- The host of bay `b` stands, or falls, under HID `h` (R378): REG 0 clears the entry it holds, and a bay without a number keeps
its own entry with REG 0; of two bays the lower number keeps the entry. A slot shown FREE ends an exclusion (R382). -/
def State.htabTake (s : State) (h b reg prio slot : Nat) : State :=
  let mine := s.bit (F.IRT_HTAB.VALID h) && s.get (F.IRT_HTAB.BAY h) = b
  if reg = 0 then if !mine then s else if b = 0 then s.htabSet h 0 0 prio slot else s.setReg (R.IRT_HTAB h) 0
  else if mine || !s.bit (F.IRT_HTAB.VALID h) || decide (b < s.get (F.IRT_HTAB.BAY h)) then
    (if slot = 0 then s.updIrt fun r => { r with excl := r.excl.filter fun x => x ≠ h } else s).htabSet h b 1 prio slot
  else s

/-- The 16 bits of a HOSTSTATE (Table 17.4). -/
def hostWord (reg prio slot : Nat) : Nat := reg + 2 * prio + 32 * slot

/-- HOSTSTATE of the bay's host under `h`: the bay's own table takes it, and every other bay by a frame once the bay has a number. A
host that another bay's lower number keeps out conflicts. -/
def State.hostShow (s : State) (h reg : Nat) : State :=
  let prio := s.get F.IRT_HOST.PRIO
  let s := s.htabTake h s.bay reg prio s.slot
  let s := if reg = 1 && s.get (F.IRT_HTAB.BAY h) ≠ s.bay then s.set F.IRT_HSTAT.HIDCONF 1 else s
  if s.bay = 0 then s else s.irqSend 63 7 h (hostWord reg prio s.slot)

/-- The host's state is shown when it is registered. -/
def State.hostTell (s : State) : State := if s.bit F.IRT_HOST.REG then s.hostShow s.hid 1 else s

/-- The bay has taken a number: its host's entry moves from bay 0 to it and is broadcast, an entry with REG 0 too (R378). -/
def State.hostNumbered (s : State) (old : Nat) : State :=
  let h := s.hid
  let mine := s.bit (F.IRT_HTAB.VALID h) && s.get (F.IRT_HTAB.BAY h) = old
  let s := if mine then s.setReg (R.IRT_HTAB h) 0 else s
  if s.bit F.IRT_HOST.REG then s.hostShow h 1 else if mine then s.hostShow h 0 else s

/-- The slot takes a state, and the host's state is shown. -/
def State.slotSet (s : State) (k : Nat) : State := (s.set F.IRT_HSTAT.SLOT k).hostTell

/-- The thirds of an FCLK that have passed (an MCLK is four). -/
def State.thirds (s : State) : Nat := 3 * s.fclk

/-- A held claim ends: DONE to the source bay, and the slot FREE 4 MCLK later (R384). -/
def State.claimDone (s : State) : State :=
  let f := s.thirds + 16
  (s.irqTo (s.get F.IRT_HSLOT.BAY) 5 s.hid (s.get F.IRT_HSLOT.SRC)).updIrt fun r => { r with freeT := some f }

/-- An offered delivery is withdrawn (R385). -/
def State.withdraw (s : State) : State :=
  let s := s.irqTo (s.get F.IRT_HSLOT.BAY) 6 s.hid (s.get F.IRT_HSLOT.SRC)
  (s.set F.IRT_HSTAT.SLOT 0).evtInc F.IRT_STAT.WDRAW

/-- A host that clears REG, or changes its HID, loses its offer and its claim (R378). -/
def State.hostDrop (s : State) : State :=
  if s.slot = 1 then s.withdraw else if s.slot = 3 && s.irt.freeT.isNone then s.claimDone else s

/-- HOST_REGISTER: a write to IRT_HOST. A bay without a number moves its entry with the HID. -/
def State.hostWrite (s : State) (v : Word) : State :=
  let old := s.reg R.IRT_HOST
  let was := s.bit F.IRT_HOST.REG
  let h0 := s.hid
  let new := (BitVec.ofNat 20 (v.toNat % 256) : Word)
  let reg := bitOf new.toNat 3
  let h1 := new.toNat % 8
  if new = old then s
  else
    let drop := was && (!reg || h0 ≠ h1)
    let s := if drop then s.hostDrop.hostShow h0 0 else s
    let own := s.bay = 0 && s.bit (F.IRT_HTAB.VALID h0) && s.get (F.IRT_HTAB.BAY h0) = 0
    let s := if own && h0 ≠ h1 then s.setReg (R.IRT_HTAB h0) 0 else s
    let s := s.setReg R.IRT_HOST new
    let free := !s.bit (F.IRT_HTAB.VALID h1) || s.get (F.IRT_HTAB.BAY h1) = s.bay
    let s := if reg && free then s.set F.IRT_HSTAT.HIDCONF 0 else s
    if own && !reg && free then s.htabSet h1 0 0 (s.get F.IRT_HOST.PRIO) s.slot else s.hostTell
def execHostRegister (v : Word) (s : State) : Out := .next (if s.irtUp then s.hostWrite v else s)

/-- HOSTSTATE_RECEIVE. -/
def State.hoststate (s : State) (b h x : Nat) : State :=
  let s := s.htabTake (h % 8) b (x % 2) (x / 2 % 16) (x / 32 % 4)
  if s.bit F.IRT_HOST.REG && s.hid = h % 8 && x % 2 = 1 && decide (b < s.bay) then s.set F.IRT_HSTAT.HIDCONF 1 else s
def execHoststateReceive (s : State) : Out := .next (s.irqMsg false 7 State.hoststate)

/-! ### Offers (R382) -/

/-- Host `h` is available: registered, PRIO below 15, slot FREE, not excluded. -/
def State.hostAvail (s : State) (h : Nat) : Bool :=
  s.bit (F.IRT_HTAB.VALID h) && s.bit (F.IRT_HTAB.REG h) && decide (s.get (F.IRT_HTAB.PRIO h) < 15) && s.get (F.IRT_HTAB.SLOT h) = 0
    && !s.irt.excl.contains h

/-- Of two hosts, the one an offer goes to: lower PRIO, then lower bay. -/
def State.hostBetter (s : State) (a b : Nat) : Bool :=
  let k := fun h => s.get (F.IRT_HTAB.PRIO h) * 64 + s.get (F.IRT_HTAB.BAY h)
  decide (k a < k b)

/-- The hosts a source may be offered to, without the one a withdrawal excludes unless it is the only one available. -/
def State.hostsFor (s : State) (k : Nat) : List Nat :=
  let l := (List.range 8).filter fun h => s.srcFor k h && s.hostAvail h
  match s.irt.once with
  | some (h, k') =>
    let l' := l.filter fun x => x ≠ h
    if k' = k && ((List.range 8).filter fun x => s.hostAvail x) ≠ [h] then l' else l
  | none => l

/-- IRQ_EVALUATE: the lowest source that some available host may take is offered to the best of them. -/
def State.irqEvaluate (s : State) : State :=
  match (List.range 320).find? (fun k => !(s.hostsFor k).isEmpty) with
  | none => s.updIrt fun r => { r with once := none }
  | some k =>
    match s.hostsFor k with
    | [] => s
    | h0 :: t =>
      let h := t.foldl (fun a b => if s.hostBetter b a then b else a) h0
      let b := s.get (F.IRT_HTAB.BAY h)
      let f := s.fclk
      (s.irqTo b 0 h k).updIrt fun r =>
        { r with offer := some ⟨b, h, k, 0, f⟩, once := if r.once.map (·.2) = some k then none else r.once }
def execIrqEvaluate (s : State) : Out :=
  .next (if s.irtUp && s.irt.offer.isNone && decide (s.irt.evalT ≤ s.thirds) then s.irqEvaluate else s)

/-- IRQ_OFFER_RECEIVE: a FREE slot of the host named accepts; any other state refuses (R383). -/
def State.offerTake (s : State) (b h x : Nat) : State :=
  if s.slot = 0 && s.bit F.IRT_HOST.REG && s.hid = h && !s.bit F.IRT_HSTAT.HIDCONF then
    let f := s.fclk
    let s := ((s.set F.IRT_HSLOT.SRC x).set F.IRT_HSLOT.BAY b).updIrt fun r => { r with slotT := f }
    (s.irqTo b 1 h x).slotSet 1
  else s.irqTo b 2 h x
def execIrqOfferReceive (here : Bool) (s : State) : Out := .next (s.irqMsg here 0 State.offerTake)

/-- The outstanding OFFER is the one answered. -/
def State.offerIs (s : State) (b h x : Nat) : Bool :=
  match s.irt.offer with
  | some o => (o.bay = b || (s.isHere o.bay && s.isHere b)) && o.hid = h && o.src = x
  | none => false

/-- IRQ_ACCEPT_RECEIVE, IRQ_REFUSE_RECEIVE (R382). -/
def State.offerAnswer (s : State) (refuse : Bool) (b h x : Nat) : State :=
  if s.offerIs b h x then s.updIrt fun r => { r with offer := none, excl := if refuse then h :: r.excl.filter (fun y => y ≠ h) else r.excl }
  else s
def execIrqAcceptReceive (here : Bool) (s : State) : Out := .next (s.irqMsg here 1 (State.offerAnswer · false))
def execIrqRefuseReceive (here : Bool) (s : State) : Out := .next (s.irqMsg here 2 (State.offerAnswer · true))

/-! ### Claims and done (R383 to R385) -/

/-- The claim ends without a source: SRC 1023, BAY 0, SPUR, slot FREE. -/
def State.claimEmpty (s : State) : State :=
  let s := (s.setReg R.IRT_CLAIM 1023).evtInc F.IRT_STAT.SPUR
  ((s.updIrt fun r => { r with claim := none }).updHost fun p => { p with claimed := some 1023 }).slotSet 0

/-- IRQ_CLAIM_READ: the host's read has reached IRT_CLAIM. An OFFERED slot becomes CLAIMING and a CLAIM goes to the offering bay; in any
other state the read gives SRC 1023. -/
def State.claimRead (s : State) : State :=
  let s := s.updHost fun p => { p with begun := true }
  if s.slot = 1 then
    let b := s.get F.IRT_HSLOT.BAY
    let f := s.fclk
    ((s.irqTo b 3 s.hid 0).updIrt fun r => { r with claim := some ⟨b, 0, 0, 0, f⟩ }).slotSet 2
  else s.updHost fun p => { p with claimed := some 1023 }
def execIrqClaimRead (s : State) : Out :=
  .next (if s.irtUp && s.host.rest.isSome && !s.host.begun then s.claimRead else s)

/-- IRQ_CLAIM_RECEIVE: the lowest source eligible for the host is given and counted down, else 1023. -/
def State.claimServe (s : State) (b h : Nat) : State :=
  match (List.range 320).find? (fun k => s.srcFor k h) with
  | some k => (s.set (F.IRT_SRC.COUNT k) (s.get (F.IRT_SRC.COUNT k) - 1)).irqTo b 4 h k
  | none => s.irqTo b 4 h 1023

/-- A CLAIM is taken. While other commands of its FCLK are still to come it is answered at the FCLK's end, so that a raise that reaches the
router with it counts first (R386, Table 17.5). -/
def State.claimTake (s : State) (b h : Nat) : State :=
  if s.waiting.isEmpty && s.irt.claims.isEmpty then s.claimServe b h else s.updIrt fun r => { r with claims := r.claims ++ [(b, h)] }
def execIrqClaimReceive (here : Bool) (s : State) : Out := .next (s.irqMsg here 3 (fun s b h _ => s.claimTake b h))

/-- The CLAIMs of an FCLK are answered. -/
def State.claimsRun (s : State) : State :=
  match s.irt.claims with
  | [] => s
  | l => (s.updIrt fun r => { r with claims := [] }).each l fun s c => s.claimServe c.1 c.2

/-- IRQ_CLAIMED_RECEIVE. -/
def State.claimedTake (s : State) (b x : Nat) : State :=
  match s.irt.claim with
  | some c =>
    if s.slot = 2 && (c.bay = b || (s.isHere c.bay && s.isHere b)) then
      if x = 1023 then s.claimEmpty
      else
        let f := s.fclk
        let w := x % 1024 + 1024 * b
        let s := (s.setReg R.IRT_CLAIM (BitVec.ofNat 20 w)).updIrt fun r => { r with claim := none, slotT := f }
        (((s.set F.IRT_HSLOT.SRC x).set F.IRT_HSLOT.BAY b).updHost fun p => { p with claimed := some w }).slotSet 3
    else s
  | none => s
def execIrqClaimedReceive (here : Bool) (s : State) : Out := .next (s.irqMsg here 4 (fun s b _ x => s.claimedTake b x))

/-- FCLK within which a reply must come: 10 × TTO µs. -/
def State.replyTime (s : State) : Nat := 4000 * max 1 (s.get F.GAL_CFG.TTO)

/-- The reply to an OFFER, or to a CLAIM, comes. -/
def isReply (claim : Bool) : Instr → Bool
  | .irqAcceptReceive _ | .irqRefuseReceive _ => !claim
  | .irqClaimedReceive _ => claim
  | _ => false

/-- IRQ_FRAME_NO_REPLY: an OFFER or CLAIM without reply is repeated RETRY times and then ends (R381 to R383). -/
def execIrqFrameNoReply (claim : Bool) (s : State) : Out :=
  .next <|
    let f := s.fclk
    match (if claim then s.irt.claim else s.irt.offer) with
    | none => s
    | some o =>
      if s.irtUp && decide (o.t + s.replyTime ≤ f) && !s.comes (isReply claim) then
        if o.tries < s.get F.GAL_CFG.RETRY then
          let o' := { o with tries := o.tries + 1, t := f }
          if claim then (s.irqTo o.bay 3 s.hid 0).updIrt fun r => { r with claim := some o' }
          else (s.irqTo o.bay 0 o.hid o.src).updIrt fun r => { r with offer := some o' }
        else if claim then s.claimEmpty
        else s.updIrt fun r => { r with offer := none, excl := o.hid :: r.excl.filter fun y => y ≠ o.hid }
      else s

/-- A value written to IRT_DONE names the interrupt of the slot. -/
def State.heldIs (s : State) (v : Nat) : Bool := v % 65536 = s.get F.IRT_HSLOT.SRC + 1024 * s.get F.IRT_HSLOT.BAY

/-- IRQ_DONE_WRITE: a host-port write that equals the held claim ends it; one that does not sets DONEERR (R384). -/
def State.doneWrite (s : State) (src : Master) (v : Nat) : State :=
  if src = .host then
    if s.slot = 3 && s.irt.freeT.isNone && s.heldIs v then s.claimDone
    else s.evt F.IRT_HSTAT.DONEERR
  else s
def execIrqDoneWrite (src : Master) (v : Word) (s : State) : Out := .next (if s.irtUp then s.doneWrite src v.toNat else s)

/-- IRQ_SLOT_RELEASE. -/
def execIrqSlotRelease (s : State) : Out :=
  .next <|
    match s.irt.freeT with
    | none => s
    | some t => if s.irtUp && decide (t ≤ s.thirds) then (s.updIrt fun r => { r with freeT := none }).slotSet 0 else s

/-- IRQ_DONE_RECEIVE: the source bay evaluates 4 MCLK later. -/
def execIrqDoneReceive (here : Bool) (s : State) : Out :=
  .next (s.irqMsg here 5 fun s _ _ _ => let t := s.thirds + 16; s.updIrt fun r => { r with evalT := t })

/-- IRQ_WITHDRAW_RECEIVE (R385). -/
def execIrqWithdrawReceive (here : Bool) (s : State) : Out :=
  .next (s.irqMsg here 6 fun s _ h x => s.updIrt fun r => { r with once := some (h, x) })

/-- IRQ_CLAIM_TIMEOUT: CLAIMT µs in OFFERED. -/
def execIrqClaimTimeout (s : State) : Out :=
  .next <|
    if s.irtUp && s.slot = 1 && decide (s.irt.slotT + 400 * max 1 (s.get F.IRT_CFG.CLAIMT) ≤ s.fclk)
        && !(s.host.rest.isSome && !s.host.begun && s.comes fun c => c = .irqClaimRead) then
      s.withdraw.hostTell.report 77 0
    else s

/-- A write of IRT_DONE that equals the held claim comes. -/
def State.isDone (s : State) : Instr → Bool
  | .irqDoneWrite .host v => s.heldIs v.toNat
  | c => (s.writesOf c).any fun w => w.1 = .host && w.2.1 = R.IRT_DONE && s.heldIs w.2.2.toNat

/-- IRQ_HOLD_TIMEOUT: HOLDT ms in HELD. -/
def execIrqHoldTimeout (s : State) : Out :=
  .next <|
    if s.irtUp && s.slot = 3 && s.irt.freeT.isNone && decide (s.irt.slotT + 400000 * max 1 (s.get F.IRT_CFG.HOLDT) ≤ s.fclk)
        && !s.comes s.isDone then
      s.claimDone.report 77 1
    else s

/-- TRAP_CLEAR: a write of 1 to IRT_TRAP.PEND (R379); a trap of this clock keeps it set (R479). -/
def execTrapClear (s : State) : Out := .next (if s.irtUp && !bitOf (s.setNow R.IRT_TRAP) 0 then s.set F.IRT_TRAP.PEND 0 else s)

/-- SOURCE_COUNT_CLEAR: CLR of IRT_SRCk (R387). -/
def execSourceCountClear (k : Fin 320) (s : State) : Out := .next (if s.irtUp then s.set (F.IRT_SRC.COUNT k) 0 else s)

/-- HIRQ is asserted while the slot is OFFERED, HTRAP while PEND is 1 (R379, R383). -/
def State.hirq (s : State) : Bool := s.slot = 1
def State.htrap (s : State) : Bool := s.bit F.IRT_TRAP.PEND

end Sys2Proof.Machine
end

