-- ==== Sys2Proof/Machine/Gallery.lean ====
section
/-! DEFINITION. The Gallery ring: lanes, frames in and out, enumeration, time sync, transactions, events (R339 to R371). Register and
memory access for other bays stands in Remote.lean. -/

namespace Sys2Proof.Machine

/-- The bay acts as master; the bay is a member; its TB is synchronised. -/
def State.galMaster (s : State) : Bool := s.bit F.GAL_STAT.MASTER
def State.member (s : State) : Bool := s.bit F.GAL_STAT.ROLE
def State.synced (s : State) : Bool := s.get F.TB_STAT.SYNC ≠ 0

/-- TB_STAT.SYNC takes a value; a change raises source 302 (R360). -/
def State.syncSet (s : State) (k : Nat) : State := if s.get F.TB_STAT.SYNC = k then s else (s.set F.TB_STAT.SYNC k).raise 302

/-! ### Lanes (R342 to R344) -/

/-- A ring-referenced bay's PLLs enter holdover (R52). -/
def State.ringHoldover (s : State) : State := if s.get F.PCR_STAT.REFSRC = 1 then s else s.set F.PCR_STAT.HOLDOVER 1

/-- The active input changes. -/
def State.laneSet (s : State) (cable : Bool) : State :=
  (((s.setB F.GAL_STAT.ACTIVE cable).evtInc F.GAL_EVCNT.SWITCH).raise 296).ringHoldover

/-- Valid code groups come on an input of the ring. -/
def isValidGroup : Instr → Bool
  | .validCodeGroupArrival _ | .frameReceive .. => true
  | _ => false

/-- Valid code groups come on the primary input, while it is active. -/
def primaryGroup : Instr → Bool
  | .validCodeGroupArrival cable => !cable
  | .frameReceive .. => true
  | _ => false

/-- LANE_SWITCH_TO_CABLE. -/
def execLaneSwitchToCable (s : State) : Out :=
  .next (if s.galUp && !s.bit F.GAL_STAT.ACTIVE && s.bit F.GAL_STAT.CABLEOK && !s.comes primaryGroup then (s.set F.GAL_STAT.PRIMOK 0).laneSet true else s)

/-- LANE_RETURN_TO_PRIMARY: the primary input has been valid for 1 ms. -/
def execLaneReturnToPrimary (s : State) : Out :=
  .next <|
    if s.galUp && s.bit F.GAL_STAT.ACTIVE && s.bit F.GAL_STAT.PRIMOK && decide (s.gal.primT + 400000 ≤ s.fclk) then s.laneSet false else s

/-- RING_ISOLATION. -/
def execRingIsolation (s : State) : Out :=
  .next <|
    if s.galUp && !s.bit F.GAL_STAT.ISOL && !s.comes isValidGroup then
      ((((s.set F.GAL_STAT.PRIMOK 0).set F.GAL_STAT.CABLEOK 0).set F.GAL_STAT.ISOL 1).raise 297).ringHoldover.report 72 0
    else s

/-- VALID_CODE_GROUP_ARRIVAL: an input begins to deliver valid code groups; it ends an isolation and becomes active. -/
def execValidCodeGroupArrival (cable : Bool) (s : State) : Out :=
  .next <|
    if s.galUp then
      let f := s.fclk
      let s := if cable then s.set F.GAL_STAT.CABLEOK 1
        else (s.set F.GAL_STAT.PRIMOK 1).updGal fun g => { g with primT := f }
      if s.bit F.GAL_STAT.ISOL then (s.set F.GAL_STAT.ISOL 0).setB F.GAL_STAT.ACTIVE cable else s
    else s

/-! ### Frames in (R348, R350, R351) -/

/-- The session key that checks a frame: from its own NM for ENUM and JOIN, else the one held. -/
def State.keyFor (s : State) (f : Frame) : Option (List Byte) :=
  if f.kind = 1 || f.kind = 2 then some (sessionKey s.gal.key (slice f.payload 2 16)) else s.gal.sk

/-- A tag or sequence failure (R350, R351). -/
def State.authFail (s : State) (f : Frame) (cause : Nat) : State :=
  let s := ((s.set F.GAL_AUTHREC.SRC f.src.toNat).set F.GAL_AUTHREC.KIND f.kind.toNat).set F.GAL_AUTHREC.CAUSE cause
  ((s.evtInc F.GAL_ERRCNT.AUTH).raise 299).report 73 f.src.toNat

/-- A frame waits to act. -/
def State.rxPut (s : State) (f : Frame) (act own : Bool) : State :=
  let tb := s.tb.toNat
  s.updGal fun g => { g with rx := g.rx ++ [⟨f, tb, act, own⟩] }

/-- The blocks that take a checked frame of a kind at once from the lanes: beacons for the remote trackers that follow their source,
stream frames for the gauge; every other kind waits for its command. -/
def State.deliver (s : State) (f : Frame) : State :=
  let p := f.payload
  match f.kind.toNat with
  | 8 =>
    let b : Beacon := ⟨f.src.toNat, leAt p 0 1 % 4, leAt p 1 3, leAt p 4 8, leAt p 0 1 / 4 % 8, leAt p 12 3 + 1, leAt p 15 4 % 2 ^ 30⟩
    let trks := (List.range 4).filter fun n => s.get (F.STAIR_CFG.ROLE n) = 3 && s.get (F.STAIR_RCFG.SRCBAY n) = b.bay
      && s.get (F.STAIR_RCFG.SRCTRK n) = b.trk
    { s with bcnIn := s.bcnIn ++ trks.map fun n => (n, b) }
  | 11 => s.updGau fun g => { g with rx := g.rx ++ [(leAt p 0 1 % 8, leAt p 2 2)] }
  | _ => s.rxPut f true false

/-- The tag and sequence tests of a frame that this bay takes; ENUM and JOIN carry no sequence test. -/
def State.check (s : State) (f : Frame) : Bool × State :=
  match s.keyFor f with
  | none => (false, s)
  | some k =>
    if frTag f k ≠ f.tag then (false, s.authFail f 0)
    else if f.kind = 1 || f.kind = 2 then (true, s)
    else
      match s.gal.lastSeq.find? (fun e => e.1 = f.src.toNat) with
      | some (_, q) =>
        if q < f.seq.toNat then
          (true, s.updGal fun g => { g with lastSeq := cellIns f.src.toNat f.seq.toNat (cellDel f.src.toNat g.lastSeq) })
        else (false, s.authFail f 1)
      | none => (true, s.updGal fun g => { g with lastSeq := cellIns f.src.toNat f.seq.toNat g.lastSeq })

/-- The bay waits for an image that may come as IMAGE frames: boot stopped in step 2, or BOOT_EFF 0b10; frames that come during a load
over the host port or a verification are discarded (R82, R365). -/
def State.imageWait (s : State) : Bool :=
  s.wvl.wait && s.wvl.verify.isNone && s.wvl.load ≠ some .host
    && (s.get F.PCR_STAT.BOOTSTEP = 7 || s.get F.CHIP_STRAP.BOOT_EFF = 2)

/-- A bay takes a frame of its number, or for all; without a number only ENUM, JOIN, SYNC and IMAGE; a relay, which holds no key, takes
only IMAGE frames (R348, R352). -/
def State.takes (s : State) (f : Frame) : Bool :=
  let mine := f.dst = 63 || (s.bay ≠ 0 && f.dst.toNat = s.bay)
  mine && s.member && (s.bay ≠ 0 || f.kind = 1 || f.kind = 2 || f.kind = 9)

/-- Frames that each bay changes as they pass: ENUM, JOIN and SYNC wait for their command, which forwards them. -/
def passKind (f : Frame) : Bool := f.kind = 1 || f.kind = 2 || f.kind = 9

/-- A payload's SUB is one that its kind gives (Tables 16.3, 17.4); a frame of another one does nothing here. -/
def subKnown (f : Frame) : Bool :=
  match f.kind.toNat with
  | 1 => decide (frSub f ≤ 2)
  | 2 => decide (frSub f ≤ 1)
  | 10 => decide (frSub f ≤ 7)
  | _ => true

/-- A sound frame that comes while the bypass is closed: a waiting bay takes IMAGE frames, and takes part in nothing else (R365). -/
def State.imageIn (s : State) (f : Frame) : State := if f.kind = 13 && s.imageWait then s.rxPut f true false else s

/-- A sound frame: taken, forwarded, or both. -/
def State.frameIn (s : State) (f : Frame) : State :=
  let back := s.bay ≠ 0 && f.src.toNat = s.bay
  let ownId := !(f.kind = 1) || slice f.payload 18 8 = s.idBytes
  let s := if f.kind = 1 then s.updGal fun g => { g with seen := true } else s
  if s.bypass then s.imageIn f
  else if back && (ownId || !s.galMaster) then
    if s.galMaster && passKind f && (f.kind ≠ 9 || s.gal.pass.map (·.1) = some .sync) then s.rxPut f true true else s
  else if f.kind = 13 then (s.imageIn f).forward f
  else if !subKnown f then if f.dst ≠ 63 && s.takes f then s else s.forward f
  else if passKind f then
    if s.takes f then
      let r := s.check f
      r.2.rxPut f r.1 false
    else s.rxPut f false false
  else
    let s := if f.dst ≠ 63 && s.takes f then s else s.forward f
    if s.takes f then
      let r := s.check f
      if r.1 then r.2.deliver f else r.2
    else s

/-- The bay sends on a frame of this header, as far as its words have come: it is not removed for its HOPS or its SRC, and not addressed
to this bay alone; a MEASURE frame is held first (R348, R354). -/
def State.sendsOn (s : State) (b : List Byte) : Bool :=
  let k := leAt b 0 1 % 16
  decide (1 ≤ k) && decide (k ≤ 14) && decide (leAt b 4 1 < 63) && !(s.bay ≠ 0 && leAt b 2 1 % 64 = s.bay)
    && !(s.bay ≠ 0 && leAt b 1 1 % 64 = s.bay) && !(k = 1 && (b.length ≤ 6 || leAt b 6 1 = 0))

/-- A frame with a code or framing error: discarded and counted. Where its header was sound, forwarding had begun, and what had come of
it leaves, ended by an invalid code group (R341, R348). -/
def State.frameBad (s : State) (ws : List LaneWord) : State :=
  let s := s.evtInc F.GAL_ERRCNT.CODE
  let b := wordBytes ws.tail
  if ws.head? = some .sof && decide (6 ≤ b.length) && s.sendsOn b then
    s.pass (.broken (.sof :: dataWords (patch b 4 [byteOf (leAt b 4 1 + 1)])))
  else s

/-- FRAME_RECEIVE: the words from SOF to EOF on the active input, after a running disparity. -/
def execFrameReceive (rd : Bool) (ws : List (BitVec 20)) (s : State) : Out :=
  .next <|
    if s.galUp then
      match laneFrame rd ws with
      | none => s.frameBad (laneWords rd ws).1
      | some f =>
        if !frLenOk f then s.evtInc F.GAL_ERRCNT.CODE
        else if 63 ≤ f.hops.toNat then s
        else s.frameIn f
    else s

/-! ### Frames out (R341, R351, R367) -/

/-- A frame of this bay with SEQ and TAG, leaving now. -/
def State.mkFrame (s : State) (kind dst : Nat) (p : List Byte) : Frame :=
  let f : Frame := ⟨BitVec.ofNat 4 kind, 0, BitVec.ofNat 6 dst, BitVec.ofNat 6 s.bay, 0, p, s.tb, 0⟩
  { f with tag := frTag f (s.gal.sk.getD []) }

/-- Frames of this bay leave on the outputs. -/
def State.send (s : State) (a b : Frame) : State := s.leave (.whole a b) (LaneItem.whole a b).time
def State.emit (s : State) (kind dst : Nat) (p : List Byte) : State := let f := s.mkFrame kind dst p; s.send f f

/-- COR and SHOP of a SYNC payload. -/
def syncPay (tm cor shop : Nat) : List Byte := leBytes 8 tm ++ leBytes 4 cor ++ [byteOf shop, 0]

/-- A master's SYNC frame: T_M is TB now, COR each lane's delay plus the departure phase (R359). -/
def State.emitSync (s : State) (phase : Nat) : State :=
  let f := fun d => s.mkFrame 9 63 (syncPay s.tb.toNat (s.get d + phase) 1)
  let a := f F.GAL_DLYP
  let b := f F.GAL_DLYC
  (s.send a b).updGal fun g => { g with syncQ := false }

/-- Payloads of BEACON, EVENT and STREAM frames (Table 16.3). -/
def beaconPay (b : Beacon) : List Byte :=
  [byteOf (b.trk % 4 + 4 * (b.st % 8))] ++ leBytes 3 b.mult ++ leBytes 8 b.tb ++ leBytes 3 (b.len - 1) ++ leBytes 4 (b.per % 2 ^ 30)
def eventPay (sl : Nat) (lvl : Bool) (tb : Nat) : List Byte := [byteOf sl, byteOf (b2n lvl)] ++ leBytes 8 tb
def streamPay (sl a y idx tb : Nat) : List Byte := [byteOf sl, byteOf a] ++ leBytes 2 y ++ leBytes 2 idx ++ leBytes 8 tb

/-- The stream frame of an output may still leave: STREAM is 1, and the output is local and valid (R239). -/
def State.awoStreams (s : State) (a : Nat) : Bool :=
  s.bit (F.GAU_ACFG.STREAM a) && !s.bit (F.GAU_ACFG.REMOTE a) && s.bit (F.GAU_AOUT.VALID a) && s.awoLive a

/-- The bay may send frames other than ENUM and JOIN: it has a number and a key, and its TB is synchronised; a master from its first
SYNC pass on (R351). -/
def State.maySend (s : State) : Bool :=
  s.bay ≠ 0 && s.gal.sk.isSome && if s.galMaster then s.gal.free else s.synced

/-- The first request that may go: not sent, and none sent to its bay (R364). -/
def State.reqNext (s : State) : Option GalReq :=
  s.gal.req.find? fun r => !r.sent && !(s.gal.req.any fun q => q.sent && q.bay = r.bay)

/-- A request leaves. -/
def State.reqSend (s : State) (r : GalReq) : State :=
  let f := s.fclk
  let set := fun (l : List GalReq) => l.map fun q => if q = r then { q with sent := true, t := f } else q
  (s.emit r.kind r.bay r.body).updGal fun g => { g with req := set g.req }

/-- OWN_FRAME_TRANSMIT: the first waiting frame of the highest class leaves (R367). A bay without a number drops beacons, events and
stream frames, which it never sends. -/
def State.transmit (s : State) (phase : Nat) : State :=
  match s.gal.ctlQ with
  | (k, p) :: t =>
    if s.gal.sk.isSome && s.bay ≠ 0 then (s.emit k 63 p).updGal fun g => { g with ctlQ := t } else s
  | [] =>
    if s.bay = 0 then
      { s.updGal (fun g => { g with ev := .replicate 16 none }) with bcnOut := [], gau := { s.gau with awoTx := .replicate 2 none } }
    else if !s.maySend then s
    else if s.gal.syncQ then s.emitSync phase
    else
      match s.bcnOut with
      | (d, b) :: t => s.emit 8 d (beaconPay b) |> fun s => { s with bcnOut := t }
      | [] =>
        match (List.range 16).find? (fun i => (vget s.gal.ev i none).isSome) with
        | some i =>
          match vget s.gal.ev i none with
          | some (l, tb) =>
            (s.emit 12 (s.get (F.GAL_EVTDST.DEST i)) (eventPay i l tb)).updGal fun g => { g with ev := vupd g.ev i fun _ => none }
          | none => s
        | none =>
          match (List.range 2).find? (fun a => (vget s.gau.awoTx a none).isSome && s.awoStreams a) with
          | some a =>
            match vget s.gau.awoTx a none with
            | some (y, idx, tb) =>
              (s.emit 11 (s.get (F.GAU_ACFG.DEST a)) (streamPay (s.get (F.GAU_ACFG.TXSLOT a)) a y idx tb)).updGau fun g =>
                { g with awoTx := vupd g.awoTx a fun _ => none }
            | none => s
          | none =>
            match s.gal.irqQ with
            | (d, p) :: t => (s.emit 10 d p).updGal fun g => { g with irqQ := t }
            | [] =>
              match s.gal.respQ with
              | (d, p) :: t => (s.emit 7 d p).updGal fun g => { g with respQ := t }
              | [] => match s.reqNext with | some r => s.reqSend r | none => s
def execOwnFrameTransmit (phase : Fin 40) (s : State) : Out := .next (if s.galUp && s.lanesFree then s.transmit phase else s)

/-! ### Ends of requests (R364) -/

/-- The host request that waited for another bay has its RESULT and data. -/
def State.hostAnswer (s : State) (code : Nat) (d : List Byte) : State :=
  s.updHost fun p => { p with remote := none, done := some (code, d) }

/-- A request ends with TIMEOUT. -/
def State.reqDead (s : State) (r : GalReq) : State :=
  let s := ((s.evtInc F.GAL_EVCNT.TO).raise 300).report 75 r.bay
  let s := s.updGal fun g => { g with req := g.req.erase r }
  if r.who = .host then s.hostAnswer 3 [] else s

/-- Register values of a RESP in the host port's byte order. -/
def respHost (kind : Nat) (d : List Byte) : List Byte :=
  if kind = 3 then (chunks 3 d).flatMap List.reverse else d

/-- RESP_RECEIVE. -/
def State.respTake (s : State) (r : RxFrame) : State :=
  let p := r.f.payload
  match s.gal.req.find? (fun q => q.sent && q.bay = r.f.src.toNat && leAt q.body 0 1 % 16 = leAt p 0 1 % 16) with
  | none => s
  | some q =>
    let s := s.updGal fun g => { g with req := g.req.erase q }
    let ok := decide (leAt p 1 1 = 0)
    match q.who with
    | .host => s.hostAnswer (if ok then 1 else 2) (respHost q.kind (p.drop 2))
    | .roster =>
      let d := (chunks 3 (p.drop 2)).flatMap (·.take 2)
      if ok then s.updGal fun g => { g with roster := cellIns q.bay d (cellDel q.bay g.roster) } else s
def execRespReceive (s : State) : Out := .next (s.onFrame (fun r => r.act && r.f.kind = 7) State.respTake)

/-- The answer to a request has come and will be taken. -/
def State.respComes (s : State) (q : GalReq) : Bool :=
  ((s.gal.rx.find? fun r => r.act && r.f.kind = 7).any fun r => r.f.src.toNat = q.bay && leAt r.f.payload 0 1 % 16 = leAt q.body 0 1 % 16)
    && s.comes fun c => c = .respReceive

/-- TRANSACTION_TIMEOUT: no RESP within TTO; repeated RETRY times, then ended. -/
def execTransactionTimeout (b : Fin 63) (s : State) : Out :=
  .next <|
    match s.gal.req.find? (fun q => q.sent && q.bay = b.val) with
    | none => s
    | some q =>
      if s.galUp && decide (q.t + s.replyTime ≤ s.fclk) && !s.respComes q then
        if q.tries < s.get F.GAL_CFG.RETRY then
          let set := fun (l : List GalReq) => l.map fun x => if x = q then { q with sent := false, tries := q.tries + 1 } else x
          s.updGal fun g => { g with req := set g.req }
        else s.reqDead q
      else s

/-- A request joins, with the next TID as the first byte of its body. -/
def State.reqAdd (s : State) (who : ReqWho) (bay kind : Nat) (rest : List Byte) : State :=
  s.updGal fun g => { g with req := g.req ++ [⟨who, bay, kind, byteOf (g.tid % 16) :: rest, 0, false, 0⟩], tid := (g.tid + 1) % 16 }

/-! ### Enumeration (R352 to R357) -/

/-- Step 3 of boot ends (R59). -/
def State.step3End (s : State) : State :=
  if s.get F.PCR_STAT.BOOTSTEP = 3 then (s.set F.PCR_STAT.BOOTSTEP 4).updGal fun g => { g with step3 := none } else s

/-- The bay takes a number. -/
def State.bayTake (s : State) (n : Nat) : State :=
  let old := s.bay
  if n = old then s else (s.set F.GAL_STAT.BAY n).hostNumbered old

/-- A MEASURE frame with a new NM is accepted: key, cleared sequence values, requests outstanding ended (R349, R351, R364). -/
def State.nmTake (s : State) (nm : List Byte) : State :=
  let rs := s.gal.req
  let s := s.each rs State.reqDead
  s.updGal fun g => { g with nm := some nm, sk := some (sessionKey g.key nm), lastSeq := [] }

/-- ENUM payload. -/
def enumPay (sub next : Nat) (nm mid : List Byte) (rtb racc : Nat) : List Byte :=
  [byteOf sub, byteOf next] ++ nm ++ mid ++ leBytes 8 rtb ++ leBytes 4 racc

/-- A pass of the master begins: its frame waits to leave; a MEASURE frame is held while the master measures its own lanes (R354). -/
def State.passBegin (s : State) (p : EnumPass) (k : Nat) (body : List Byte) : State :=
  let f := s.fclk
  let hold := p = .measure || p = .joinMeasure
  let fr := s.mkFrame k 63 body
  s.updGal fun g =>
    { g with pass := some (p, f), hold := if hold then some (fr, f) else g.hold, ctlQ := if hold then g.ctlQ else g.ctlQ ++ [(k, body)] }

/-- A full enumeration starts on the master: bay number 1, a new NM, an empty roster (R353, R356). -/
def State.fullEnum (s : State) : State :=
  let r := s.freeBytes 16
  let s := (r.2.bayTake 1).nmTake r.1
  let s := (s.set F.GAL_STAT.ROSTERFULL 0).updGal fun g => { g with ctlQ := [], roster := [], join := none }
  s.passBegin .measure 1 (enumPay 0 0 r.1 s.idBytes 0 0)

/-- A master of the ring: member with the MSTR strap, still acting as master. -/
def State.enumMay (s : State) : Bool := s.galUp && s.galMaster

/-- ENUM_START: ENUMDLY MT ticks after step 3 began. -/
def execEnumStart (s : State) : Out :=
  .next <|
    if s.enumMay && s.gal.step3.isSome && s.gal.pass.isNone && !s.gal.complete && decide (s.get F.GAL_CFG.ENUMDLY ≤ s.gal.ticks) then s.fullEnum
    else s

/-- FULL_ENUMERATION: GAL_CTRL FULL with its key. -/
def execFullEnumeration (s : State) : Out := .next (if s.enumMay then s.fullEnum else s)

/-- A frame of the master's own has come back and will be taken. -/
def State.backComes (s : State) : Bool := s.gal.rx.any (·.own) && s.comes fun c => match c with | .enumFrameReturn _ => true | _ => false

/-- ENUM_PASS_TIMEOUT: a MEASURE frame has not returned within 16 ms, another within 2 ms. -/
def execEnumPassTimeout (s : State) : Out :=
  .next <|
    match s.gal.pass with
    | none => s
    | some (p, t) =>
      let lim := if p = .measure || p = .joinMeasure then 6400000 else 800000
      if s.enumMay && decide (t + lim ≤ s.fclk) && !s.backComes then (s.evtInc F.GAL_ERRCNT.ENUMRETRY).fullEnum else s

/-- ENUM_RETRY_TIMER: 50 ms after step 3 began the master goes on as bay 1, and starts a full enumeration every 10 ms. -/
def execEnumRetryTimer (s : State) : Out :=
  .next <|
    let f := s.fclk
    if s.enumMay && !s.gal.complete then
      if !s.gal.gaveUp then
        match s.gal.step3 with
        | none => s
        | some t =>
          if t + 20000000 ≤ f then
            (s.updGal fun g => { g with gaveUp := true, retryT := some f }).step3End.fullEnum
          else s
      else
        match s.gal.retryT with
        | some t => if t + 4000000 ≤ f then (s.updGal fun g => { g with retryT := some f }).fullEnum else s
        | none => s
    else s

/-- R357: a master has met another master's ENUM frame. -/
def State.masterConflict (s : State) : State := ((s.evt F.GAL_STAT.MCONF).raise 303).report 74 0

/-- A MEASURE frame is held for 16 µs (R354). -/
def State.holdFrame (s : State) (f : Frame) : State := let t := s.fclk; s.updGal fun g => { g with hold := some (f, t) }

/-- A member accepts a MEASURE frame; in a join's MEASURE pass, whose NM is the one held, nothing is cleared (Table 16.4, R356), and a
bay whose key was erased takes it again (R402). -/
def State.measureTake (s : State) (r : RxFrame) : State :=
  let nm := slice r.f.payload 2 16
  let s := if r.act && s.gal.nm ≠ some nm then
      ((s.nmTake nm).bayTake 0).set F.GAL_STAT.ENUMERATED 0
    else if r.act && s.gal.sk.isNone then s.updGal fun g => { g with sk := some (sessionKey g.key nm) }
    else s
  s.holdFrame r.f

/-- ENUM_MEASURE: a MEASURE frame arrives; or, at a master, any ENUM frame of another master. -/
def State.enumMeasure (s : State) (r : RxFrame) : State :=
  if s.galMaster then
    let mine := leNat s.idBytes
    let other := leAt r.f.payload 18 8
    let s := s.masterConflict
    if other < mine then
      let s := (s.set F.GAL_STAT.MASTER 0).updGal fun g => { g with pass := none, ctlQ := [], roster := [], join := none, rx := g.rx.filter fun x => !x.own }
      if frSub r.f = 0 then s.measureTake r else s.forward r.f
    else s.fullEnum
  else s.measureTake r
def execEnumMeasure (s : State) : Out :=
  .next (s.onFrame (fun r => !r.own && r.f.kind = 1 && (frSub r.f = 0 || (s.galMaster && r.act))) State.enumMeasure)

/-- MEASURE_HOLD_END: the lane delays are written, and the frame goes on; a master's own MEASURE frame takes its SEQ and tag. -/
def execMeasureHoldEnd (dlyP dlyC : Word) (s : State) : Out :=
  .next <|
    match s.gal.hold with
    | none => s
    | some (f, t) =>
      if s.galUp && decide (t + 6400 ≤ s.fclk) then
        let s := ((s.setReg R.GAL_DLYP dlyP).setReg R.GAL_DLYC dlyC).updGal fun g => { g with hold := none }
        if s.galMaster && f.src.toNat = s.bay && slice f.payload 18 8 = s.idBytes then s.emit 1 63 f.payload else s.forward f
      else s

/-- ENUM_ASSIGN: the bay takes NEXT, and RTB and RACC are filled or advanced (Table 16.4, R355). A relay updates RACC alone. -/
def State.assignTake (s : State) (r : RxFrame) (resid : Nat) : State :=
  let p := r.f.payload
  let next := leAt p 1 1
  let s0 := s
  let take := r.act && decide (next ≤ 62)
  let s := if take then s.bayTake next else s
  let next' := if take then next + 1 else next
  let rtb := leAt p 26 8
  let racc := leAt p 34 4
  let dly := s.get F.GAL_DLYP
  let (rtb', racc') :=
    if rtb ≠ 0 then (rtb, racc + resid + dly)
    else if s0.member && s.synced then (s.tb.toNat, dly)
    else (rtb, racc)
  s.forward { r.f with payload := patch (patch p 1 [byteOf next']) 26 (leBytes 8 rtb' ++ leBytes 4 racc') }
def execEnumAssign (resid : Nat) (s : State) : Out :=
  .next (s.onFrame (fun r => !r.own && r.f.kind = 1 && frSub r.f = 1) (fun s r => s.assignTake r resid))

/-- The bay is enumerated: source 298, and boot step 3 ends (R353, R356). -/
def State.enumerated (s : State) : State :=
  (((s.set F.GAL_STAT.ENUMERATED 1).set F.GAL_STAT.ENUM_WAIT 0).raise 298).step3End.hostTell

/-- ENUM_DONE. -/
def State.doneTake (s : State) (r : RxFrame) : State :=
  let s := if r.act then
      let s := s.set F.GAL_RINGN (leAt r.f.payload 1 1 - 1)
      if s.bay ≠ 0 then s.enumerated else s
    else s
  s.forward r.f
def execEnumDone (s : State) : Out := .next (s.onFrame (fun r => !r.own && r.f.kind = 1 && frSub r.f = 2) State.doneTake)

/-- JOIN_OFFER: the first member without a number writes its REQID and takes the key. -/
def State.offerPass (s : State) (r : RxFrame) : State :=
  let p := r.f.payload
  if r.act && s.bay = 0 && leAt p 18 8 = 0 then
    let nm := slice p 2 16
    let s := s.updGal fun g => { g with nm := some nm, sk := some (sessionKey g.key nm) }
    s.forward { r.f with payload := patch p 18 s.idBytes }
  else s.forward r.f
def execJoinOffer (s : State) : Out := .next (s.onFrame (fun r => !r.own && r.f.kind = 2 && frSub r.f = 0) State.offerPass)

/-- JOIN_GRANT. -/
def State.grantTake (s : State) (r : RxFrame) : State :=
  let p := r.f.payload
  let s := if r.act && s.bay = 0 && slice p 18 8 = s.idBytes then (s.bayTake (leAt p 1 1 % 64)).enumerated else s
  s.forward r.f
def execJoinGrant (s : State) : Out := .next (s.onFrame (fun r => !r.own && r.f.kind = 2 && frSub r.f = 1) State.grantTake)

/-- JOIN payload. -/
def joinPay (sub num : Nat) (nm id : List Byte) : List Byte := [byteOf sub, byteOf num] ++ nm ++ id ++ [0]

/-- A JOIN OFFER waits to leave (R356). -/
def State.joinSend (s : State) : State :=
  if s.bit F.GAL_STAT.ENUMERATED then
    let nm := s.gal.nm.getD []
    s.updGal fun g => { g with ctlQ := g.ctlQ ++ [(2, joinPay 0 0 nm (List.replicate 8 0))], ticks := 0 }
  else s

/-- JOIN_NOW and JOIN_OFFER_TIMER. -/
def execJoinNow (s : State) : Out := .next (if s.enumMay then s.joinSend else s)
def execJoinOfferTimer (s : State) : Out :=
  .next (if s.enumMay && decide (max 1 (s.get F.GAL_CFG.JOINP) ≤ s.gal.ticks) then s.joinSend else s)

/-- The number a joining bay is given: its roster number, else the lowest of 2 to 62 without an entry (R356). -/
def State.joinNumber (s : State) (id : List Byte) : Option Nat :=
  match s.gal.roster.find? (fun e => e.2 = id) with
  | some e => some e.1
  | none => ((List.range 61).map (· + 2)).find? fun n => !(s.gal.roster.any fun e => e.1 = n)

/-- The OFFER has come back with a REQID. -/
def State.offerBack (s : State) (r : RxFrame) : State :=
  let id := slice r.f.payload 18 8
  if id = List.replicate 8 0 then s
  else
    match s.joinNumber id with
    | none => s.set F.GAL_STAT.ROSTERFULL 1
    | some n =>
      let s := s.updGal fun g => { g with roster := cellIns n id (cellDel n g.roster), join := some (n, id) }
      s.passBegin .joinMeasure 1 (enumPay 0 0 (s.gal.nm.getD []) s.idBytes 0 0)

/-- The ASSIGN frame has come back: a master that has completed no enumeration takes up the ring's time (R355), and the SYNC pass
begins. ROSTERFULL sets when numbers were still wanted. -/
def State.assignBack (s : State) (r : RxFrame) (wanted : Bool) : State :=
  let p := r.f.payload
  let next := leAt p 1 1
  let rtb := leAt p 26 8
  let target := rtb + rndDivN (leAt p 34 4) 40
  let f := s.fclk
  let s := if rtb ≠ 0 && !s.gal.complete then
      (s.tbStep ((target + (s.tb.toNat + 2 ^ 60 - r.tb)) % 2 ^ 60)).inc F.TB_STAT.STEPS
    else s
  let s := if next = 63 && wanted then s.set F.GAL_STAT.ROSTERFULL 1 else s
  s.updGal fun g => { g with next := next, pass := some (.sync, f), syncQ := true, free := true }

/-- The DONE frame has come back: the enumeration is complete (R353, R355, R293). -/
def State.doneBack (s : State) : State :=
  let nx := s.gal.next
  let s := (s.set F.GAL_RINGN (nx - 1)).syncSet 1
  let s := s.updGal fun g => { g with pass := none, complete := true, ticks := 0 }
  let s := s.enumerated
  s.each ((List.range (nx - 2)).map (· + 2)) fun s b => s.reqAdd .roster b 3 ([4] ++ leBytes 2 (R.GAL_ID 0))

/-- ENUM_FRAME_RETURN. -/
def State.frameBack (s : State) (r : RxFrame) (wanted : Bool) : State :=
  if r.f.kind = 2 then if frSub r.f = 0 then s.offerBack r else s
  else
    match s.gal.pass with
    | some (.measure, _) => if r.f.kind = 1 && frSub r.f = 0 then s.passBegin .assign 1 (enumPay 1 2 (s.gal.nm.getD []) s.idBytes 0 0) else s
    | some (.assign, _) => if r.f.kind = 1 && frSub r.f = 1 then s.assignBack r wanted else s
    | some (.sync, _) => if r.f.kind = 9 then s.passBegin .done 1 (enumPay 2 s.gal.next (s.gal.nm.getD []) s.idBytes 0 0) else s
    | some (.done, _) => if r.f.kind = 1 && frSub r.f = 2 then s.doneBack else s
    | some (.joinMeasure, _) =>
      if r.f.kind = 1 && frSub r.f = 0 then
        match s.gal.join with
        | some (n, id) =>
          (s.updGal fun g => { g with pass := none, join := none, ctlQ := g.ctlQ ++ [(2, joinPay 1 n (g.nm.getD []) id)] }).raise 298
        | none => s.updGal fun g => { g with pass := none }
      else s
    | none => s
def execEnumFrameReturn (wanted : Bool) (s : State) : Out :=
  .next (if s.enumMay then s.onFrame (fun r => r.own) (fun s r => s.frameBack r wanted) else s)

/-- An ENUM frame comes on the active input. -/
def isEnumFrame : Instr → Bool
  | .frameReceive rd ws => (laneFrame rd ws).any fun f => f.kind = 1
  | _ => false

/-- ENUM_WAIT_TIMEOUT: a member that is no master has received no ENUM frame within 50 ms of step 3 and goes on as bay 0 (R62). -/
def execEnumWaitTimeout (s : State) : Out :=
  .next <|
    match s.gal.step3 with
    | none => s
    | some t =>
      if s.running && !s.galMaster && !s.gal.seen && decide (t + 20000000 ≤ s.fclk) && !s.comes isEnumFrame then
        ((s.set F.GAL_STAT.ENUM_WAIT 1).report 9 0).step3End
      else s

/-! ### Time (R358 to R363) -/

/-- A SYNC frame that the bay takes: TB steps at the first, later corrections are slews that remove the error and the drift found
since the last one (R360). An error outside 20 bits is not stated in GAL_SYNCERR, so it is a free value there. -/
def State.syncTake (s : State) (r : RxFrame) (phase : Nat) : State :=
  let p := r.f.payload
  let e : Int := ((r.tb * 40 + phase : Nat) : Int) - (leAt p 0 8 * 40 + leAt p 8 4 : Nat)
  let n := rndDiv e 40
  let f := s.fclk
  let fits := decide (-524288 ≤ e) && decide (e ≤ 524287)
  let s := if fits then s.set F.GAL_SYNCERR (toW 20 e) else s.free.2.set F.GAL_SYNCERR s.free.1
  let s := (s.set F.GAL_SYNC (leAt p 12 1)).updGal fun g => { g with syncT := f }
  if s.get F.TB_STAT.SYNC = 0 then
    let s := ((s.tbStep (((s.tb.toNat : Int) - n) % (2 ^ 60 : Int)).toNat).inc F.TB_STAT.STEPS).syncSet 1
    { s.updGal (fun g => { g with lastErr := some (e - 40 * n, 0) }) with corr := 0 }
  else
    let drift := match s.gal.lastErr with | some (e0, c0) => e - (e0 + 40 * (c0 - s.corr)) | none => 0
    let c := -(rndDiv (e + drift) 40)
    { (s.syncSet 1).updGal (fun g => { g with lastErr := some (e, c) }) with corr := c }

/-- SYNC_RECEIVE: taken when it passed its checks, and forwarded with COR advanced by the residence and each lane's delay (R361). -/
def State.syncPass (s : State) (r : RxFrame) (phase resid : Nat) : State :=
  let p := r.f.payload
  let s := if r.act && !s.galMaster then s.syncTake r phase else s
  let out := fun d => frHop { r.f with payload := patch p 8 (leBytes 4 (leAt p 8 4 + resid + s.get d) ++ [byteOf (leAt p 12 1 + 1)]) }
  s.pass (.whole (out F.GAL_DLYP) (out F.GAL_DLYC))
def execSyncReceive (phase : Fin 40) (resid : Nat) (s : State) : Out :=
  .next (s.onFrame (fun r => !r.own && r.f.kind = 9) (fun s r => s.syncPass r phase resid))

/-- SYNC_SEND: the master's TB has reached a multiple of 400 000 (R359). -/
def execSyncSend (s : State) : Out :=
  .next <|
    if s.galUp && s.syncDue then
      let s : State := { s with syncDue := false }
      if s.galMaster && s.gal.free then s.updGal fun g => { g with syncQ := true } else s
    else s

/-- A SYNC frame has come and will be taken. -/
def State.syncComes (s : State) : Bool :=
  (s.gal.rx.find? fun r => r.f.kind = 9).any (·.act) && s.comes fun c => match c with | .syncReceive .. => true | _ => false

/-- SYNC_TIMEOUT: a locked bay has taken no SYNC for 8 ms (R363). -/
def execSyncTimeout (s : State) : Out :=
  .next <|
    if s.islandUp .angle && !s.galMaster && s.get F.TB_STAT.SYNC = 1 && decide (s.gal.syncT + 3200000 ≤ s.fclk) && !s.syncComes then s.syncSet 2 else s

/-! ### Events, counts, resets (R366, R368, R371) -/

/-- EVENT_SLOT_CHANGE: the line routed to a slot has changed; while EN is 1 its frame waits, replacing one still waiting. -/
def execEventSlotChange (sl : Fin 16) (s : State) : Out :=
  .next <|
    let l := s.routedHigh 5 sl
    if s.galUp && l ≠ bitOf s.gal.evLvl sl then
      let tb := s.tb.toNat
      let flip := fun x => if l then x + 2 ^ sl.val else x - 2 ^ sl.val
      let s := s.updGal fun g => { g with evLvl := flip g.evLvl }
      if s.bit (F.GAL_EVTDST.EN sl) && s.bay ≠ 0 then s.updGal fun g => { g with ev := vupd g.ev sl fun _ => some (l, tb) } else s
    else s

/-- EVENT_RECEIVE. -/
def State.eventTake (s : State) (r : RxFrame) : State :=
  let sl := leAt r.f.payload 0 1 % 16
  ((s.setBitAt F.GAL_ERX sl (leAt r.f.payload 1 1 % 2 = 1)).evtAt F.GAL_ERXF sl).raise 301
def execEventReceive (s : State) : Out := .next (s.onFrame (fun r => r.act && r.f.kind = 12) State.eventTake)

/-- RESET_FRAME: payload 0x5A schedules a Gallery reset 1 µs later; any other payload is discarded. -/
def execResetFrame (s : State) : Out :=
  .next (s.onFrame (fun r => r.act && r.f.kind = 14) fun s r =>
    let f := s.fclk
    if leAt r.f.payload 0 1 = 0x5A then s.updGal fun g => { g with resetT := some f } else s)

/-- GALLERY_COUNT_CLEAR. -/
def State.galClr (s : State) : State := (s.setReg R.GAL_ERRCNT 0).setReg R.GAL_EVCNT 0
def execGalleryCountClear (s : State) : Out := .next (if s.galUp then s.galClr else s)

/-- A write of GAL_CTRL with its key. -/
def State.galCtrl (s : State) (v : Nat) : State :=
  if v / 4096 % 256 = 0x4E then
    let s := if bitOf v 2 then s.galClr else s
    let s := if bitOf v 1 && s.enumMay then s.joinSend else s
    if bitOf v 0 && s.enumMay then s.fullEnum else s
  else s

/-- Boot step 3 begins: a member waits for enumeration, as master when its strap says so; a relay passes (R352, R353). -/
def State.step3Begin (s : State) : State :=
  let f := s.fclk
  let s := s.set F.PCR_STAT.BOOTSTEP 3
  if s.member then
    (s.set F.GAL_STAT.MASTER (s.get F.CHIP_STRAP.MSTR)).updGal fun g => { g with step3 := some f, seen := false, ticks := 0, gaveUp := false }
  else s.set F.PCR_STAT.BOOTSTEP 4

/-- The roster shown at GAL_RIDX: valid, and its digest bytes; zero on a bay that is no master (R371). -/
def State.rosterAt (s : State) : Option (List Byte) :=
  if s.galMaster then (s.gal.roster.find? fun e => e.1 = s.get F.GAL_RIDX).map (·.2) else none

/-- GAL applied (R370). -/
def State.galApply (s : State) (b : List Byte) : State :=
  let s := (s.set F.GAL_STAT.ROLE (leAt b 0 1)).setReg R.GAL_CFG (BitVec.ofNat 20 (leAt b 4 4))
  let s := s.updGal fun g => { g with key := slice b 8 32 }
  s.each (List.range 16) fun s i => s.setReg (R.GAL_EVTDST i) (BitVec.ofNat 20 (leAt b (40 + 4 * i) 4))
def galCheck (b : List Byte) : Bool :=
  b.length = 128 && decide (leAt b 0 1 ≤ 1) && leAt b 1 3 = 0 && decide (leAt b 4 4 < 2 ^ 18)
    && (leAt b 0 1 = 0 || leAt b 8 32 ≠ 0)
    && (List.range 16).all (fun i => let w := leAt b (40 + 4 * i) 4; decide (w < 128) && (!bitOf w 6 || w % 64 ≠ 0))
    && leAt b 104 24 = 0

end Sys2Proof.Machine
end

