-- ==== Sys2Proof/Machine/Timers.lean ====
section
/-! DEFINITION. Timers and the time base (R282 to R295). -/

namespace Sys2Proof.Machine

/-! ### Linked pairs (R289) -/

/-- Timer `n` is the even half, or the odd half, of a linked pair. -/
def State.linkEven (s : State) (n : Nat) : Bool := n % 2 = 0 && s.bit (F.TMR_CFG.LINK n)
def State.linkOdd (s : State) (n : Nat) : Bool := n % 2 = 1 && s.bit (F.TMR_CFG.LINK (n - 1))

/-- A value whose high half stands in the next timer where the pair is linked. -/
def State.pairGet (s : State) (n : Nat) (f : Nat → Fld) : Nat :=
  if s.linkEven n then s.get (f n) + 2 ^ 20 * s.get (f (n + 1)) else s.get (f n)
def State.pairSet (s : State) (n : Nat) (f : Nat → Fld) (v : Nat) : State :=
  if s.linkEven n then (s.set (f n) v).set (f (n + 1)) (v / 2 ^ 20) else s.set (f n) v

/-- Compare `k` of a timer. -/
def cmpFld (k : Nat) : Nat → Fld := if k = 0 then F.TMR_CMP0 else F.TMR_CMP1
def cmpFlag (k n : Nat) : Fld := if k = 0 then F.TMR_STAT.C0F n else F.TMR_STAT.C1F n
def cmpIE (k n : Nat) : Fld := if k = 0 then F.TMR_CFG.C0IE n else F.TMR_CFG.C1IE n
def cmpPast (k n : Nat) : Fld := if k = 0 then F.TMR_STAT.PAST0 n else F.TMR_STAT.PAST1 n

/-! ### Counting and compares (R282, R285) -/

/-- A pulse of a pacing source leaves for HOOK (R285, R328). -/
def State.paceSend (s : State) (code mask : Nat) : State :=
  { s with hook := { s.hook with pulses := s.hook.pulses ++ [(code, mask)] } }

/-- Compare `k` matches a count that has changed to its value. -/
def State.tmrMatch (s : State) (n v k : Nat) : State :=
  if s.pairGet n (cmpFld k) = v then
    let s := (s.evt (cmpFlag k n)).set (cmpPast k n) 0
    (s.raiseIf (s.bit (cmpIE k n)) (256 + n)).paceSend (1 + 2 * n + k) 0xFFFF
  else s

/-- The count changes in step 1 of this FCLK: to `v`, with the compares tested (R284, R285). -/
def State.tmrChange (s : State) (n v : Nat) : State :=
  let old := s.pairGet n F.TMR_CNT
  let f := s.fclk
  let s := s.updTmr n fun t => { t with prev := if t.chT = f then t.prev else old, chT := f }
  ((s.pairSet n F.TMR_CNT v).tmrMatch n v 0).tmrMatch n v 1

/-- Window `w` is sampled, or is to be from its next tick (R274). -/
def State.winSampled (s : State) (w : Nat) : Bool :=
  (vget s.cmp.win w Win.reset).eff = 2 || s.get (F.CMP_WCFG.MODE w) = 2

/-- Window `w` gets its tick. -/
def State.winDue (s : State) (w : Nat) : State := s.updCmp fun c => { c with win := vupd c.win w fun x => { x with due := true } }

/-- The windows that timer `n` clocks get their tick (R274). -/
def State.winTimerTick (s : State) (n : Nat) : State :=
  s.each (List.range 12) fun s w =>
    if s.bit (F.CMP_WCFG.TSRC w) && s.get (F.CMP_WCFG.TIMER w) = n && s.winSampled w then s.winDue w else s

/-- The prescaler's phase restarts in this FCLK. -/
def State.tmrPhase (s : State) (n : Nat) : State := let f := s.fclk; s.updTmr n fun t => { t with phase := f }

/-- The timer sees its line of function `f` rise, or fall, in this FCLK; the odd half of a linked pair sees none (R283). -/
def State.tmrRise (s : State) (n f : Nat) : Bool :=
  s.islandUp .angle && !s.linkOdd n && s.routedSeen 2 (4 * n + f) 0 && !s.routedSeen 2 (4 * n + f) 1
def State.tmrFall (s : State) (n f : Nat) : Bool :=
  s.islandUp .angle && !s.linkOdd n && !s.routedSeen 2 (4 * n + f) 0 && s.routedSeen 2 (4 * n + f) 1

/-- A timer starts, or stops; a running one is left as it runs. -/
def State.tmrRun (s : State) (n : Nat) (run : Bool) : State :=
  if run && !s.bit (F.TMR_CTRL.RUN n) then (s.set (F.TMR_CTRL.RUN n) 1).tmrPhase n else s.setB (F.TMR_CTRL.RUN n) run

/-! ### Writes (R284, R286, R287, R289) -/

/-- CTRL.CLEAR: the count is set to 0 without a compare test. -/
def State.tmrClear (s : State) (n : Nat) : State := (s.pairSet n F.TMR_CNT 0).tmrPhase n

/-- A CNT write, without a compare test; on a linked even timer the high half becomes 0. -/
def State.tmrCount (s : State) (n v : Nat) : State := s.pairSet n F.TMR_CNT (v % 2 ^ 20)

/-- A RELOAD write: held on a linked even timer until the odd one's write applies both. -/
def State.tmrReload (s : State) (n v : Nat) : State :=
  if s.linkEven n then s.updTmr n fun t => { t with heldReload := some v }
  else if s.linkOdd n then
    let lo := ((s.getTmr (n - 1)).heldReload).getD (s.get (F.TMR_RELOAD (n - 1)))
    ((s.set (F.TMR_RELOAD (n - 1)) lo).set (F.TMR_RELOAD n) v).updTmr (n - 1) fun t => { t with heldReload := none }
  else s.set (F.TMR_RELOAD n) v

/-- PAST is set from the count and the compare's new value (R286). -/
def State.tmrPast (s : State) (n k : Nat) : State :=
  s.setB (cmpPast k n) (s.pairGet n (cmpFld k) ≤ s.pairGet n F.TMR_CNT)

/-- A compare write, held in the same way. -/
def State.tmrCompare (s : State) (n k v : Nat) : State :=
  if s.linkEven n then s.updTmr n fun t => if k = 0 then { t with heldC0 := some v } else { t with heldC1 := some v }
  else if s.linkOdd n then
    let e := n - 1
    let held := if k = 0 then (s.getTmr e).heldC0 else (s.getTmr e).heldC1
    let s := (s.set (cmpFld k e) (held.getD (s.get (cmpFld k e)))).set (cmpFld k n) v
    (s.updTmr e fun t => if k = 0 then { t with heldC0 := none } else { t with heldC1 := none }).tmrPast e k
  else (s.set (cmpFld k n) v).tmrPast n k

/-- TMR_GRUN: RUN of every timer named (R284). -/
def State.tmrGroup (s : State) (mask : Nat) : State := s.each (List.range 16) fun s n => if bitOf mask n then s.tmrRun n true else s

/-- A CFG write: a change of PRE restarts the phase; an odd timer has no LINK (R282, R289). With LINK cleared no value is held and no odd
half latched any more. -/
def State.tmrCfg (s : State) (n : Nat) (src : Master) (v : Word) : State :=
  let p := s.get (F.TMR_CFG.PRE n)
  let l := s.linkEven n
  let s := s.writeCodes src (R.TMR_CFG n) v
  let s := if n % 2 = 1 then s.set (F.TMR_CFG.LINK n) 0 else s
  let s := if l && !s.linkEven n then
      (s.updTmr n fun t => { t with heldReload := none, heldC0 := none, heldC1 := none }).updTmr (n + 1) fun t => { t with latch := none }
    else s
  if s.get (F.TMR_CFG.PRE n) = p then s else s.tmrPhase n

/-! ### The order of one FCLK (R284) -/

/-- A write applies. -/
def State.tmrDo (s : State) (a : TmrAct) : State :=
  match a with
  | .run n run => s.tmrRun n run
  | .clear n => s.tmrClear n
  | .count n v => s.tmrCount n v
  | .reload n v => s.tmrReload n v
  | .compare n k v => s.tmrCompare n k v
  | .group mask => s.tmrGroup mask
  | .cfg n src v => s.tmrCfg n src v

/-- An advance or an event line of this FCLK is still to be handled. -/
def State.tmrWaits (s : State) : Bool :=
  s.waiting.any fun c => match c with
    | .timerAdvance _ => true
    | .timerLineStart _ => true
    | .timerLineStop _ => true
    | .timerLineCapture _ => true
    | .timerLineClear _ => true
    | _ => false

/-- A register write applies at once, or after steps 1 to 3 of its FCLK. -/
def State.tmrAct (s : State) (a : TmrAct) : State := if s.tmrWaits then { s with tmrActs := s.tmrActs ++ [a] } else s.tmrDo a

/-- Step 4: once no advance or line of this FCLK is to come, the writes that waited apply in their order. -/
def State.tmrFlush (s : State) : State :=
  if s.tmrActs.isEmpty || s.tmrWaits then s else ({ s with tmrActs := [] } : State).each s.tmrActs State.tmrDo

/-- TIMER_ADVANCE (R282): 2^PRE FCLK after the last advance, start, clear or PRE change. None in an FCLK in which the timer sees STOP or
CLEAR (R283, R285). -/
def execTimerAdvance (n : Fin 16) (s : State) : Out :=
  .next <|
    let p := 2 ^ s.get (F.TMR_CFG.PRE n)
    let due := (s.getTmr n).phase + p
    State.tmrFlush <| if s.islandUp .angle && s.bit (F.TMR_CTRL.RUN n) && !s.linkOdd n && decide (due ≤ s.fclk) && !s.tmrRise n 1 && !s.tmrRise n 3 then
      let c := s.pairGet n F.TMR_CNT
      let s := s.updTmr n fun t => { t with phase := due }
      if s.pairGet n F.TMR_RELOAD ≤ c then
        let s := ((s.evt (F.TMR_STAT.WRAPF n)).raiseIf (s.bit (F.TMR_CFG.WIE n)) (256 + n)).tmrChange n 0
        s.winTimerTick n
      else s.tmrChange n (c + 1)
    else s

/-! ### Event lines (R283) -/

/-- TIMER_LINE_START: a STOP seen in the same FCLK prevails (R284). -/
def execTimerLineStart (n : Fin 16) (s : State) : Out :=
  .next (if s.tmrRise n 0 && !s.tmrRise n 1 then s.tmrRun n true else s).tmrFlush
/-- TIMER_LINE_STOP. -/
def execTimerLineStop (n : Fin 16) (s : State) : Out := .next (if s.tmrRise n 1 then s.tmrRun n false else s).tmrFlush

/-- TIMER_LINE_CAPTURE (R288): CAP takes the count of the FCLK before. -/
def execTimerLineCapture (n : Fin 16) (s : State) : Out :=
  .next <|
    let f := s.fclk
    let t := s.getTmr n
    let edge := if s.bit (F.TMR_CFG.CAPEDGE n) then s.tmrFall n 2 else s.tmrRise n 2
    State.tmrFlush <| if edge && t.capT ≠ f then
      let v := if t.chT = f then t.prev else s.pairGet n F.TMR_CNT
      let s := s.updTmr n fun t => { t with capT := f }
      let s := if s.bit (F.TMR_STAT.CAPF n) then s.evt (F.TMR_STAT.CAPOVR n) else s
      let s := (s.pairSet n F.TMR_CAP v).evt (F.TMR_STAT.CAPF n)
      s.raiseIf (s.bit (F.TMR_CFG.CIE n)) (256 + n)
    else s

/-- TIMER_LINE_CLEAR (R285): the count becomes 0; one already at 0 does not change. -/
def execTimerLineClear (n : Fin 16) (s : State) : Out :=
  .next <|
    State.tmrFlush <| if s.tmrRise n 3 then
      let s := s.tmrPhase n
      if s.pairGet n F.TMR_CNT = 0 then s else s.tmrChange n 0
    else s

/-! ### Write and read commands -/

/-- TIMER_RUN_WRITE. -/
def execTimerRunWrite (n : Fin 16) (run : Bool) (s : State) : Out := .next (if s.islandUp .angle then s.tmrAct (.run n run) else s)
/-- TIMER_CLEAR_COMMAND. -/
def execTimerClearCommand (n : Fin 16) (s : State) : Out := .next (if s.islandUp .angle then s.tmrAct (.clear n) else s)
/-- TIMER_COUNT_WRITE. -/
def execTimerCountWrite (n : Fin 16) (v : Word) (s : State) : Out :=
  .next (if s.islandUp .angle then s.tmrAct (.count n v.toNat) else s)
/-- TIMER_RELOAD_WRITE. -/
def execTimerReloadWrite (n : Fin 16) (v : Word) (s : State) : Out :=
  .next (if s.islandUp .angle then s.tmrAct (.reload n v.toNat) else s)
/-- TIMER_COMPARE_WRITE. -/
def execTimerCompareWrite (n : Fin 16) (k : Fin 2) (v : Word) (s : State) : Out :=
  .next (if s.islandUp .angle then s.tmrAct (.compare n k v.toNat) else s)
/-- TIMER_GROUP_RUN. -/
def execTimerGroupRun (mask : BitVec 16) (s : State) : Out := .next (if s.islandUp .angle then s.tmrAct (.group mask.toNat) else s)

/-- A read of CNT: an even linked timer latches the odd half, which the next read of the odd CNT returns (R290). -/
def State.tmrRead (s : State) (n : Nat) : Nat × State :=
  if s.linkEven n then
    let hi := s.get (F.TMR_CNT (n + 1))
    (s.get (F.TMR_CNT n), s.updTmr (n + 1) fun t => { t with latch := some hi })
  else
    match (s.getTmr n).latch with
    | some v => if s.linkOdd n then (v, s.updTmr n fun t => { t with latch := none }) else (s.get (F.TMR_CNT n), s)
    | none => (s.get (F.TMR_CNT n), s)
/-- TIMER_PAIR_COUNT_READ. -/
def execTimerPairCountRead (n : Fin 16) (s : State) : Out :=
  .next <|
    if s.islandUp .angle then
      let r := s.tmrRead n
      { r.2 with rd := BitVec.ofNat 20 r.1 }
    else s

end Sys2Proof.Machine
end

