-- ==== Sys2Proof/Machine/Hook.lean ====
section
/-! DEFINITION. HOOK: channels, their requests, the arbiter, and the operations that need no memory access (R318 to R338). The
accesses themselves stand in HookRun.lean. -/

namespace Sys2Proof.Machine

/-- HOOK runs (block 12). -/
def State.hkUp (s : State) : Bool := s.islandUp .memory && s.blockFree 12

/-- STATE as stored: 0 STOPPED, 1 FETCH, 2 a WAIT operation, 3 a MOVE, FILL, CMP, LOOP or SIGNAL under way, 4 WRITEBACK. What a read
of STATE shows for 3 is `hkState`. -/
def State.hkSt (s : State) (c : Nat) : Nat := s.get (F.HK_STAT.STATE c)
def State.hkSet (s : State) (c st : Nat) : State := s.set (F.HK_STAT.STATE c) st

/-- HK_PCn. -/
def State.hkPc (s : State) (c : Nat) : Nat := s.get (F.HK_PC_LO c) + 2 ^ 20 * s.get (F.HK_PC_HI c)
def State.hkPcSet (s : State) (c a : Nat) : State := (s.set (F.HK_PC_LO c) (a / 16 * 16)).set (F.HK_PC_HI c) (a / 2 ^ 20)

/-- Word `k` of the descriptor under way. -/
def State.hkWord (s : State) (c k : Nat) : Nat := ((s.getHk c).desc.getD []).getD k 0

/-- A descriptor of operation `op` has been read and not begun. -/
def State.hkAt (s : State) (c op : Nat) : Bool :=
  s.hkUp && (s.getHk c).desc.isSome && !(s.getHk c).begun && s.hkWord c 0 % 16 = op
    && (s.hkSt c = 3 || s.hkSt c = 2) && !(s.getHk c).stopping

/-- The channel stops with a cause of Table 15.6 (R324, R337); bursts still outstanding concern no descriptor under way any more. -/
def State.hkStop (s : State) (c cause : Nat) : State :=
  let s := ((s.hkSet c 0).set (F.HK_STAT.SCAUSE c) cause).updHk c fun h =>
    { h with desc := none, begun := false, stopping := false, need := 0,
             burst := h.burst.map fun b => { b with late := true, bad := b.bad || h.bad.isSome } }
  s.raiseIf (cause ≠ 2 && s.bit (F.HK_CFG.ENDIE c)) (224 + c)

/-- The record of a descriptor marked BAD (R333, R337). -/
def State.hkErr (s : State) (c cause addr : Nat) : State :=
  let s := ((s.set F.HK_ERR.CHAN c).set F.HK_ERR.CAUSE cause).evtInc F.HK_ERR.COUNT
  let s := ((s.set F.HK_ERRA_LO addr).set F.HK_ERRA_HI (addr / 2 ^ 20)).evtInc (F.HK_BADCNT c)
  s.raiseIf (s.bit (F.HK_CFG.EIE c)) (224 + c)

/-- The failing address where the spec names none: a free value. -/
def State.freeAddr (s : State) : Nat × State :=
  let a := s.free
  let b := a.2.free
  ((a.1 + 2 ^ 20 * b.1) % 2 ^ 32, b.2)

/-- The descriptor under way is marked BAD: no further burst, and its status is to be written (R333). -/
def State.hkBad (s : State) (c cause addr : Nat) : State :=
  if (s.getHk c).bad.isSome then s
  else ((s.hkErr c cause addr).updHk c fun h => { h with bad := some cause, begun := true }).hkSet c 4

/-! ### Commands (R326, R329) -/

/-- START: a stopped channel fetches at HK_PC. -/
def State.hkStart (s : State) (c : Nat) : State :=
  if s.hkSt c = 0 then
    (s.hkSet c 1).updHk c fun h => { h with desc := none, begun := false, paced := false, need := 0, bad := none, mism := false, issued := 0 }
  else s

/-- STOP: no burst is issued any more; the channel stops when none is outstanding. -/
def State.hkHalt (s : State) (c : Nat) : State :=
  if s.hkSt c = 0 then s
  else if (s.getHk c).burst.isEmpty then s.hkStop c 2
  else s.updHk c fun h => { h with stopping := true }

/-- HOOK_START, HOOK_STOP, HOOK_CLEAR_REQUESTS. -/
def execHookStart (c : Fin 16) (s : State) : Out := .next (if s.hkUp then s.hkStart c else s)
def execHookStop (c : Fin 16) (s : State) : Out := .next (if s.hkUp then s.hkHalt c else s)
/-- FCLK `t` falls in the present MCLK. -/
def State.thisMclk (s : State) (t : Nat) : Bool := s.clockNo .memory t = s.clockNo .memory s.fclk

/-- Pulses that the channel's own source has counted in this MCLK. -/
def State.hkPulsesNow (s : State) (c : Nat) : Nat :=
  match (s.getHk c).inT with
  | some (t, k) => if s.thisMclk t then k else 0
  | none => 0

/-- CLRREQ: the pulses of its MCLK count after the clear (R329). -/
def State.hkClr (s : State) (c : Nat) : State :=
  (s.set (F.HK_STAT.REQCNT c) (min 15 (s.hkPulsesNow c))).set (F.HK_STAT.REQOVF c) 0
def execHookClearRequests (c : Fin 16) (s : State) : Out := .next (if s.hkUp then s.hkClr c else s)

/-- A write of HK_CTRLn: START and STOP together act as STOP. -/
def State.hkCtrl (s : State) (c v : Nat) : State :=
  let s := if bitOf v 1 then s.hkHalt c else if bitOf v 0 then s.hkStart c else s
  if bitOf v 2 then s.hkClr c else s

/-- HOOK_PC_WRITE: ignored unless the channel is STOPPED; bits [3:0] stay zero. -/
def State.hkPcWrite (s : State) (c : Nat) (hi : Bool) (v : Nat) : State :=
  if s.hkSt c = 0 then if hi then s.set (F.HK_PC_HI c) v else s.set (F.HK_PC_LO c) (v / 16 * 16) else s
def execHookPcWrite (c : Fin 16) (hi : Bool) (v : Word) (s : State) : Out :=
  .next (if s.hkUp then s.hkPcWrite c hi v.toNat else s)

/-! ### Requests (R323, R328, R329) -/

/-- The level of a level source of channel `c` (Table 15.4). -/
def State.hkLevel (s : State) (c code : Nat) : Bool :=
  if code = 33 then s.routedSeen 4 c 0
  else if 50 ≤ code && code ≤ 53 then !(s.coder (code - 50)).buf.isEmpty
  else if 54 ≤ code && code ≤ 69 then !(s.getNdl (code - 54)).rx.isEmpty
  else if 70 ≤ code && code ≤ 85 then decide ((s.getNdl (code - 70)).tx.length < s.txSize (code - 70))
  else false

/-- The source is one of levels. -/
def levelCode (code : Nat) : Bool := code = 33 || (decide (50 ≤ code) && decide (code ≤ 85))

/-- The source counts as pulses for channel `c`: a pulse source, or the channel's own level source with PEDGE 1. -/
def State.hkPulsed (s : State) (c code : Nat) : Bool :=
  (decide (1 ≤ code) && decide (code ≤ 32)) || (decide (34 ≤ code) && decide (code ≤ 49))
    || (levelCode code && s.bit (F.HK_CFG.PEDGE c) && code = s.get (F.HK_CFG.PSRC c))

/-- The channel's request is present. -/
def State.hkReq (s : State) (c : Nat) : Bool :=
  let p := s.get (F.HK_CFG.PSRC c)
  if p = 0 then true else if s.hkPulsed c p then s.bit (F.HK_STAT.REQCNT c) else s.hkLevel c p

/-- A request is consumed: a pulse is counted down. -/
def State.hkConsume (s : State) (c : Nat) : State :=
  let p := s.get (F.HK_CFG.PSRC c)
  if p ≠ 0 && s.hkPulsed c p then s.set (F.HK_STAT.REQCNT c) (s.get (F.HK_STAT.REQCNT c) - 1) else s

/-- A WAIT that needs no more requests goes to its status write. -/
def State.waitTest (s : State) (c : Nat) : State := if s.hkSt c = 2 && (s.getHk c).begun && (s.getHk c).need = 0 then s.hkSet c 4 else s

/-- The WAIT of channel `c` is on source `code`, from the fetch on (R323). -/
def State.waitsOn (s : State) (c code : Nat) : Bool :=
  s.hkSt c = 2 && !(s.getHk c).stopping && s.hkWord c 1 % 256 = code

/-- The channel's own source counts a pulse. A burst that consumed one in this MCLK did so after it, so a count that stood at 15 before
overflows (R328, R329). -/
def State.hkCount (s : State) (c : Nat) : State :=
  let n := s.get (F.HK_STAT.REQCNT c)
  let used := match (s.getHk c).usedT with | some t => s.thisMclk t | none => false
  let f := s.fclk
  let k := s.hkPulsesNow c
  let s := s.updHk c fun h => { h with inT := some (f, k + 1) }
  if n = 15 || (used && n = 14) then s.evt (F.HK_STAT.REQOVF c) else s.incW (F.HK_STAT.REQCNT c)

/-- One pulse of `code` reaches channel `c`: a WAIT on it takes the pulse, else the channel's own source counts it (R323, R328). -/
def State.hkPulse (s : State) (c code : Nat) : State :=
  if s.waitsOn c code && decide (0 < (s.getHk c).need) then (s.updHk c fun h => { h with need := h.need - 1 }).waitTest c
  else if code = s.get (F.HK_CFG.PSRC c) then s.hkCount c
  else s

/-- The level of the channel's own source as PEDGE has it now, so that a later rise is an edge. -/
def State.hkLook (s : State) (c : Nat) : State :=
  let v := s.hkLevel c (s.get (F.HK_CFG.PSRC c))
  s.updHk c fun h => { h with lvl := v }

/-- Levels that PEDGE saw high and that have fallen since. -/
def State.hkFalls (s : State) : State :=
  s.each (List.range 16) fun s c =>
    if (s.getHk c).lvl && !s.hkLevel c (s.get (F.HK_CFG.PSRC c)) then s.updHk c fun h => { h with lvl := false } else s

/-- PACING_PULSE: the pulse at the front of the path arrives at the channels it names; or the own level source of a channel with
PEDGE 1 has risen since it was last seen low. -/
def execPacingPulse (edge : Option (Fin 16)) (s : State) : Out :=
  .next <|
    if s.islandUp .memory then
      match edge with
      | none =>
        match s.hook.pulses with
        | [] => s
        | (code, mask) :: t =>
          let s : State := { s with hook := { s.hook with pulses := t } }
          if s.blockFree 12 then s.each (List.range 16) fun s c => if bitOf mask c then s.hkPulse c code else s else s
      | some c =>
        let p := s.get (F.HK_CFG.PSRC c)
        if s.blockFree 12 && levelCode p && s.bit (F.HK_CFG.PEDGE c) && s.hkLevel c p && !(s.getHk c).lvl then (s.hkLook c).hkPulse c p
        else s
    else s

/-! ### LOOP, WAIT, SIGNAL (R320, R322, R323) -/

/-- HOOK_LOOP: nesting, target, then the jump or the fall-through. A LOOP with COUNT 0 leaves the counter at 0, so no loop runs by it
(DEDUCED, assumption 70). -/
def State.hkLoop (s : State) (c : Nat) : State :=
  let pc := s.hkPc c
  let tgt := s.hkWord c 1
  let cnt := s.hkWord c 2 % 65536
  let jump := fun (s : State) => ((s.hkPcSet c tgt).hkSet c 1).updHk c fun h => { h with desc := none }
  if ((s.getHk c).loopAt.getD pc) ≠ pc then (s.freeAddr.2).hkBad c 6 s.freeAddr.1
  else if tgt % 16 ≠ 0 then s.hkBad c 7 tgt
  else
    let s := if (s.getHk c).loopAt.isNone && cnt ≠ 0 then (s.set (F.HK_LCNT c) cnt).updHk c fun h => { h with loopAt := some pc } else s
    if cnt = 0 then jump s
    else if 1 < s.get (F.HK_LCNT c) then jump (s.set (F.HK_LCNT c) (s.get (F.HK_LCNT c) - 1))
    else ((s.set (F.HK_LCNT c) 0).updHk c fun h => { h with loopAt := none, begun := true }).hkSet c 4
def execHookLoop (c : Fin 16) (s : State) : Out := .next (if s.hkAt c 3 then s.hkLoop c else s)

/-- HOOK_WAIT: it needs what the pulses since the fetch have left of N; pending requests of the channel's own source count first; a
level source completes the WAIT when it is high, so the command may come again until it is. -/
def State.hkWait (s : State) (c : Nat) : State :=
  let code := s.hkWord c 1 % 256
  let n := (s.getHk c).need
  if code = 0 then (s.updHk c fun h => { h with begun := true }).hkSet c 4
  else if s.hkPulsed c code then
    let k := if code = s.get (F.HK_CFG.PSRC c) then min n (s.get (F.HK_STAT.REQCNT c)) else 0
    let s := if k = 0 then s else s.set (F.HK_STAT.REQCNT c) (s.get (F.HK_STAT.REQCNT c) - k)
    (s.updHk c fun h => { h with begun := true, need := n - k }).waitTest c
  else if levelCode code && s.hkLevel c code then (s.updHk c fun h => { h with begun := true }).hkSet c 4
  else s
def execHookWait (c : Fin 16) (s : State) : Out := .next (if s.hkAt c 4 then s.hkWait c else s)

/-- HOOK_SIGNAL: nothing but the status write is left; its requests act after that (R325). -/
def execHookSignal (c : Fin 16) (s : State) : Out :=
  .next (if s.hkAt c 5 then (s.updHk c fun h => { h with begun := true }).hkSet c 4 else s)

/-! ### MOVE, FILL, CMP (R320, R321, R330, R332) -/

/-- Fields of the words of a data descriptor. -/
def dOp (w : List Nat) : Nat := w.getD 0 0 % 16
def dPace (w : List Nat) : Nat := w.getD 0 0 / 128 % 4
def dSinc (w : List Nat) : Bool := bitOf (w.getD 0 0) 9
def dDinc (w : List Nat) : Bool := bitOf (w.getD 0 0) 10
def dLen (w : List Nat) : Nat := w.getD 3 0 % 2 ^ 20
def dCoder (w : List Nat) : Bool := dOp w = 0 && w.getD 3 0 / 2 ^ 25 % 4 = 1
def dCmpStop (w : List Nat) : Bool := dOp w = 2 && bitOf (w.getD 3 0) 24

/-- An address of register space (R2). -/
def regSpace (a : Nat) : Bool := decide (0x4000000 ≤ a) && decide (a < 0x4040000)

/-- The address that breaks the alignment rule of R332, if one does: register space and fixed addresses need multiples of 4 in
address and LENGTH. -/
def alignBad (w : List Nat) : Option Nat :=
  let bad := fun a inc => (regSpace a || !inc) && (a % 4 ≠ 0 || dLen w % 4 ≠ 0)
  let src := w.getD 1 0
  let dst := w.getD 2 0
  if dOp w ≠ 1 && !dCoder w && bad src (dSinc w) then some src
  else if bad dst (dDinc w) then some dst
  else none

/-- A data descriptor begins: SKIND and alignment are checked, the address and length show; LENGTH 0 completes it. -/
def State.hkBegin (s : State) (c : Nat) : State :=
  let w := (s.getHk c).desc.getD []
  let dst := w.getD 2 0
  let s := ((s.set (F.HK_DADDR_LO c) dst).set (F.HK_DADDR_HI c) (dst / 2 ^ 20)).set (F.HK_RESID c) (dLen w)
  if dOp w = 0 && decide (2 ≤ w.getD 3 0 / 2 ^ 25 % 4) then (s.freeAddr.2).hkBad c 5 s.freeAddr.1
  else if dLen w = 0 then (s.updHk c fun h => { h with begun := true }).hkSet c 4
  else
    match alignBad w with
    | some a => s.hkBad c 3 a
    | none => s.updHk c fun h => { h with begun := true }

/-- HOOK_MOVE, HOOK_FILL, HOOK_CMP. -/
def execHookMove (c : Fin 16) (s : State) : Out := .next (if s.hkAt c 0 then s.hkBegin c else s)
def execHookFill (c : Fin 16) (s : State) : Out := .next (if s.hkAt c 1 then s.hkBegin c else s)
def execHookCmp (c : Fin 16) (s : State) : Out := .next (if s.hkAt c 2 then s.hkBegin c else s)

/-- Bytes of the next burst: to the next 64-byte boundary of the destination, or 16 accesses of 4 at a fixed one; no more than are
left, or than the coder holds, in whole units where accesses are always of 4 bytes (R330, R332). -/
def State.burstLen (s : State) (c : Nat) : Nat :=
  let h := s.getHk c
  let w := h.desc.getD []
  let dst := w.getD 2 0 + if dDinc w then h.issued else 0
  let n := min (if dDinc w then 64 - dst % 64 else 64) (dLen w - h.issued)
  if dCoder w then
    let k := min n (s.coder (w.getD 1 0 % 4)).buf.length
    if regSpace dst || !dDinc w then k / 4 * 4 else k
  else n

/-- Bursts outstanding in the whole of HOOK. -/
def State.hkOut (s : State) : Nat := (s.hook.ch.toList.map (fun h => h.burst.length)).sum

/-- HK_USEDn has reached HK_BUDGETn; 4095 means no limit (R335). -/
def State.hkStall (s : State) (c : Nat) : Bool :=
  s.get (F.HK_BUDGET c) ≠ 4095 && decide (s.get (F.HK_BUDGET c) ≤ s.get (F.HK_USED c))

/-- A request is present where PACE still needs one. -/
def State.hkPaced (s : State) (c : Nat) : Bool :=
  let w := (s.getHk c).desc.getD []
  dPace w = 0 || (dPace w = 2 && (s.getHk c).paced) || s.hkReq c

/-- A burst of the channel may be issued (R331). -/
def State.hkElig (s : State) (c : Nat) : Bool :=
  let h := s.getHk c
  s.hkSt c = 3 && h.begun && !h.stopping && h.bad.isNone && decide (0 < s.burstLen c) && s.hkPaced c && !s.hkStall c
    && decide (s.hkOut < 32) && decide (h.burst.length ≤ s.get (F.HK_CFG.MAXOUT c))

/-- What a read of STATE shows: RUN while a burst may be issued, else WAIT (Table 15.3). -/
def State.hkState (s : State) (c : Nat) : Nat :=
  if s.hkSt c = 3 && (s.getHk c).begun && !s.hkElig c then 2 else s.hkSt c

/-- The channel that the arbiter takes: the highest PRIO, and the first eligible after the one last granted there (R331). -/
def State.hkArbiter (s : State) : Option Nat :=
  let at_ := fun p => (List.range 16).filterMap fun k =>
    let c := (vget s.hook.last p 15 + 1 + k) % 16
    if s.get (F.HK_CFG.PRIO c) = p && s.hkElig c then some c else none
  (at_ 3 ++ at_ 2 ++ at_ 1 ++ at_ 0).head?

/-- HK_USEDn counts a burst; past its twelve bits the spec states no count, so it is free (R335). -/
def State.hkUse (s : State) (c : Nat) : State :=
  let u := s.get (F.HK_USED c)
  if u < 4095 then s.set (F.HK_USED c) (u + 1) else s.free.2.set (F.HK_USED c) s.free.1

/-- A burst of channel `c` is issued. -/
def State.hkIssue (s : State) (c : Nat) : State :=
  let h := s.getHk c
  let w := h.desc.getD []
  let n := s.burstLen c
  let k := w.getD 1 0 % 4
  let src := w.getD 1 0 + if dSinc w then h.issued else 0
  let dst := w.getD 2 0 + if dDinc w then h.issued else 0
  let data := if dCoder w then (s.coder k).buf.take n else []
  let f := s.fclk
  let s := if dCoder w then s.updCoder k fun x => { x with buf := x.buf.drop n } else s
  let s := if dPace w = 0 || (dPace w = 2 && h.paced) then s else (s.hkConsume c).updHk c fun x => { x with usedT := some f }
  let p := s.get (F.HK_CFG.PRIO c)
  let s : State := { s with hook := { s.hook with last := vupd s.hook.last p fun _ => c, issT := some (f, c) } }
  let s := (s.hkUse c).updHk c fun x =>
    { x with paced := true, issued := x.issued + n, burst := x.burst ++ [⟨w, false, h.issued, n, src, dst, data, dCoder w, f, h.seq, false⟩] }
  let next := dst + if dDinc w then n else 0
  let s := ((s.set (F.HK_DADDR_LO c) next).set (F.HK_DADDR_HI c) (next / 2 ^ 20)).set (F.HK_RESID c) (dLen w - h.issued - n)
  if dLen w ≤ h.issued + n then s.hkSet c 4 else s

/-- BURST_ISSUE. -/
def execBurstIssue (s : State) : Out :=
  .next (if s.hkUp then match s.hkArbiter with | some c => s.hkIssue c | none => s else s)

/-- A stopping channel whose last burst is gone is STOPPED (R326). -/
def State.hkDrained (s : State) (c : Nat) : State :=
  if (s.getHk c).stopping && (s.getHk c).burst.isEmpty then s.hkStop c 2 else s

/-- A burst went wrong: its descriptor is marked BAD, or, when its status has been written already, the record alone is made. A descriptor
is marked once, whatever the number of its bursts that fail (R333). -/
def State.burstBad (s : State) (c : Nat) (b : Burst) (cause addr : Nat) : State :=
  if b.late then
    if b.bad then s
    else (s.hkErr c cause addr).updHk c fun h => { h with burst := h.burst.map fun x => if x.seq = b.seq then { x with bad := true } else x }
  else if (s.getHk c).stopping then
    if (s.getHk c).bad.isSome then s else (s.hkErr c cause addr).updHk c fun h => { h with bad := some cause }
  else s.hkBad c cause addr

/-! ### Budgets, sections, block reset (R327, R335, R336) -/

/-- The MT tick reaches the budgets: every HK_USEDn returns to 0, and a burst issued in the tick's MCLK counts in the new tick (R335). -/
def State.hkTick (s : State) : State :=
  let s : State := { s with hook := { s.hook with due := false } }
  s.each (List.range 16) fun s c =>
    s.set (F.HK_USED c) (match s.hook.issT with | some (t, x) => b2n (x = c && s.thisMclk t) | none => 0)

/-- HOOK_BUDGET_WRITE: a governed write (R79, R338). -/
def execHookBudgetWrite (c : Fin 16) (src : Master) (v : Word) (s : State) : Out :=
  .next (if s.hkUp then s.writeCodes src (R.HK_BUDGET c) v else s)

/-- HOOK applied: descriptors to their hall, HK_CFG and HK_PC set, AUTOSTART noted (R336). -/
def State.hookApply (s : State) (n : Nat) (b : List Byte) : State :=
  let p := 524288 * leAt b 0 1 + leAt b 4 4
  let len := 16 * leAt b 8 4
  let s := { s.setHallBytes p (slice b 32 len) with
    hallErr := s.hallErr.filter fun e => !(decide (p ≤ 8 * e.1 + 7) && decide (8 * e.1 < p + len)) }
  let s := ((s.setReg (R.HK_CFG n) (BitVec.ofNat 20 (leAt b 12 4))).hkPcSet n p).hkLook n
  if (leAt b 16 1 = 1) = bitOf s.hook.auto n then s
  else if leAt b 16 1 = 1 then { s with hook := { s.hook with auto := s.hook.auto + 2 ^ n } }
  else { s with hook := { s.hook with auto := s.hook.auto - 2 ^ n } }

/-- A HOOK section leaves the image: its registers take their reset values. -/
def State.hookRemove (s : State) (n : Nat) : State :=
  let s := (s.setReg (R.HK_CFG n) (resetOf (R.HK_CFG n))).hkPcSet n 0
  if bitOf s.hook.auto n then { s with hook := { s.hook with auto := s.hook.auto - 2 ^ n } } else s

/-- Channels marked AUTOSTART start together (R327, R336). -/
def State.hookAuto (s : State) : State := s.each (List.range 16) fun s c => if bitOf s.hook.auto c then s.hkStart c else s

/-- The checks of a HOOK section that need no other section (R336), for the pattern at its place in memory space. -/
def hookCheck (b : List Byte) : Bool :=
  let n := leAt b 8 4
  let p := 524288 * leAt b 0 1 + leAt b 4 4
  let cfg := leAt b 12 4
  let descOk := fun i =>
    let w := fun k => leAt b (32 + 16 * i + 4 * k) 4
    let w0 := w 0
    let resv := w0 / 2048 % 32 = 0 && !bitOf w0 23 && w0 / 2 ^ 24 % 128 = 0
    let body := match w0 % 16 with
      | 0 => !bitOf (w 3) 24 && decide (w 3 / 2 ^ 25 % 4 ≤ 1) && w 3 / 2 ^ 27 = 0 && w 3 / 2 ^ 20 % 16 = 0
      | 1 => w 3 / 2 ^ 20 = 0
      | 2 => w 3 / 2 ^ 25 = 0 && w 3 / 2 ^ 20 % 16 = 0
      | 3 => w 1 % 16 = 0 && decide (p ≤ w 1) && decide (w 1 < p + 16 * n) && decide (w 2 < 65536) && w 3 = 0
      | 4 => decide (w 1 ≤ 85) && decide (w 2 < 65536) && w 3 = 0
      | 5 => decide (w 1 < 65536) && w 2 = 0 && w 3 = 0
      | _ => false
    resv && body
  decide (leAt b 0 1 ≤ 14) && leAt b 1 3 = 0 && leAt b 4 4 % 16 = 0 && decide (1 ≤ n) && decide (n ≤ 4096)
    && b.length = 32 + 16 * n && decide (leAt b 4 4 + 16 * n ≤ 524288)
    && decide (cfg < 2 ^ 18) && decide (cfg / 4 % 256 ≤ 85) && decide (leAt b 16 1 ≤ 1) && leAt b 17 15 = 0
    && (List.range n).all descOk

/-- BUDGET applied, or gone from the image. -/
def State.budgetRemove (s : State) : State := s.each (List.range 16) fun s c => s.setReg (R.HK_BUDGET c) (resetOf (R.HK_BUDGET c))
def State.budgetApply (s : State) (b : List Byte) : State :=
  s.each (List.range 16) fun s c => s.set (F.HK_BUDGET c) (leAt b (4 * c) 4)
def budgetCheck (b : List Byte) : Bool := b.length = 64 && (List.range 16).all fun c => decide (leAt b (4 * c) 4 < 4096)

/-- Block reset of HOOK: running channels stop with cause RESET; accesses not granted are discarded (R327). Pulses on their way stay on
their way. -/
def State.hookReset (s : State) : State :=
  let run := (List.range 16).filter fun c => s.hkSt c ≠ 0
  let s := { s with regs := s.regs.filter fun c => !(decide (0x5400 ≤ c.1) && decide (c.1 < 0x5800)) }
  let s : State := { s with hook := { Hook.reset with pulses := s.hook.pulses } }
  s.each run fun s c => s.set (F.HK_STAT.SCAUSE c) 6

end Sys2Proof.Machine
end

