-- ==== Sys2Proof/Machine/Links.lean ====
section
/-! DEFINITION. CAN FD controllers, CAN signals and SENT receivers (R444 to R456). -/

namespace Sys2Proof.Machine

/-! ### CAN controllers: error state (R446) -/

/-- Controller `x` is clocked, enabled, and out of block reset. -/
def State.canUp (s : State) (x : Nat) : Bool := s.islandUp .memory && s.blockFree (13 + x)

/-- The controller takes part in bus traffic: error active or passive. -/
def State.canLive (s : State) (x : Nat) : Bool := s.canUp x && decide (s.get (F.CAN_STAT.STATE x) ≤ 1)

/-- STATE as the counters give it: 3 not enabled, 2 bus-off, 1 passive, 0 active. -/
def State.canState (s : State) (x : Nat) : Nat :=
  let c := s.getCan x
  if !s.bit (F.CAN_CFG.EN x) then 3 else if c.off then 2 else if 127 < c.tec || 127 < c.rec_ then 1 else 0

/-- The status registers follow the counters; entry to error passive and to bus-off is reported, and a change of error state raises
the event source (Tables 21.6, 21.7). -/
def State.canShow (s : State) (x : Nat) : State :=
  let c := s.getCan x
  let old := s.get (F.CAN_STAT.STATE x)
  let new := s.canState x
  let s := ((s.set (F.CAN_STAT.STATE x) new).set (F.CAN_ERRCNT.TEC x) (min c.tec 255)).set (F.CAN_ERRCNT.REC x) (min c.rec_ 127)
  let s := s.raiseIf (old ≠ new && old ≠ 3 && new ≠ 3) (285 + 2 * x)
  let s := if old ≠ 2 && new = 2 then s.report (88 + 2 * x) (min c.tec 255) else s
  if old = 0 && new = 1 then s.report (89 + 2 * x) (min c.tec 255) else s

/-- A frame was received without error: REC falls, as ISO 11898-1 gives; above 127 it takes a value from 119 to 127. -/
def State.canRxOk (s : State) (x : Nat) : State :=
  if 127 < (s.getCan x).rec_ then
    let r := s.free
    (r.2.updCan x fun c => { c with rec_ := 119 + r.1 % 9 }).canShow x
  else (s.updCan x fun c => { c with rec_ := c.rec_ - 1 }).canShow x

/-- A write of CFG has taken effect: enabling and disabling. -/
def State.canCfg (s : State) (x : Nat) : State :=
  let s := if s.bit (F.CAN_CFG.EN x) then s else s.updCan x fun c => { c with bus := none, counting := false }
  s.canShow x

/-! ### Message objects (R447 to R449) -/

/-- Object `o` of controller `x`, and its update. -/
def State.canObj (s : State) (x o : Nat) : CanObj := (s.getCan x).objs.getD o CanObj.reset
def State.updObj (s : State) (x o : Nat) (f : CanObj → CanObj) : State :=
  s.updCan x fun c => { c with objs := c.objs.set o (f (c.objs.getD o CanObj.reset)) }

/-- Bits of an object's configuration word: VALID, DIR, IDE, FDF, BRS, RXIRQ, TXIRQ; DLC. -/
def CanObj.valid (o : CanObj) : Bool := bitOf o.cfg 0
def CanObj.tx (o : CanObj) : Bool := bitOf o.cfg 1
def CanObj.ide (o : CanObj) : Bool := bitOf o.cfg 2
def CanObj.fdf (o : CanObj) : Bool := bitOf o.cfg 3
def CanObj.brs (o : CanObj) : Bool := bitOf o.cfg 4
def CanObj.dlc (o : CanObj) : Nat := o.cfg / 32 % 16
def CanObj.rxIrq (o : CanObj) : Bool := bitOf o.cfg 9
def CanObj.txIrq (o : CanObj) : Bool := bitOf o.cfg 10

/-- Data bytes of a DLC: 0 to 8, and for FD frames up to 64. -/
def dlcBytes (fdf : Bool) (d : Nat) : Nat :=
  if d ≤ 8 then d else if !fdf then 8 else match d with | 9 => 12 | 10 => 16 | 11 => 20 | 12 => 24 | 13 => 32 | 14 => 48 | _ => 64

/-- The object that stores a frame: the lowest-numbered valid receive object whose IDE and masked identifier match. -/
def State.canMatch (s : State) (x : Nat) (f : CanFrame) : Option Nat :=
  (List.range 32).find? fun o =>
    let c := s.canObj x o
    c.valid && !c.tx && c.ide = f.ide && (f.id.toNat ^^^ c.id) &&& c.mask = 0

/-! ### CAN signals (R450) -/

/-- Bit numbers of a signal, least significant first. -/
def sigBits (moto : Bool) (start len : Nat) : List Nat :=
  if moto then ((List.range len).map fun i =>
      let r := 7 - start % 8 + i
      8 * (start / 8 + r / 8) + (7 - r % 8)).reverse
  else (List.range len).map fun i => start + i

/-- The value of bits of the data. -/
def bitsValue (data : List Byte) (bs : List Nat) : Nat :=
  (bs.zipIdx.map fun p => b2n (bitOf (data.getD (p.1 / 8) 0).toNat (p.1 % 8)) * 2 ^ p.2).sum

/-- The signals that a stored frame of `n` bytes covers update (R450). -/
def State.canSignals (s : State) (x o n : Nat) : State :=
  s.each (List.range 64) fun s g =>
    if s.bit (F.CAN_SIGA.EN g) && s.get (F.CAN_SIGA.CTL g) = x && s.get (F.CAN_SIGA.OBJ g) = o then
      let len := min (s.get (F.CAN_SIGB.LENM1 g)) 19 + 1
      let bs := sigBits (s.bit (F.CAN_SIGB.MOTO g)) (s.get (F.CAN_SIGA.START g)) len
      if bs.all fun b => decide (b < 8 * n) then
        let v := bitsValue (s.canObj x o).data bs
        s.qvFeed 6 g (if s.bit (F.CAN_SIGB.SGN g) then sgn len v else v) true
      else s
    else s

/-- A frame is stored into object `o` (R447). -/
def State.canStore (s : State) (x o : Nat) (f : CanFrame) : State :=
  let n := dlcBytes f.fdf f.dlc.toNat
  let d := (f.data ++ List.replicate 64 0).take n
  let ots := s.tb.toNat % 2 ^ 20
  let st := f.dlc.toNat + 16 * b2n f.fdf + 32 * b2n f.brs + 64 * b2n f.esi
  let old := bitOf (s.get (F.CAN_NEW x (o / 16))) (o % 16)
  let s := s.updObj x o fun c => { c with stat := st, ots := ots, data := d ++ c.data.drop n }
  let s := s.evtAt (F.CAN_NEW x (o / 16)) (o % 16)
  let s := if old then (s.evtAt (F.CAN_LOST x (o / 16)) (o % 16)).report 92 (32 * x + o) else s
  (s.raiseIf (s.canObj x o).rxIrq (284 + 2 * x)).canSignals x o n

/-- A frame received without error: stored, or discarded when it matches no object or is a remote frame (Table 21.1). -/
def State.canTake (s : State) (x : Nat) (f : CanFrame) : State :=
  if f.rtr then s else match s.canMatch x f with | some o => s.canStore x o f | none => s

/-- CAN_FRAME_RECEIVE. -/
def execCanFrameReceive (x : Fin 2) (f : CanFrame) (s : State) : Out :=
  .next (if s.canLive x && (!f.fdf || s.bit (F.CAN_CFG.FDEN x)) then (s.canRxOk x).canTake x f else s)

/-! ### Transmission (R449) -/

/-- A pending request of object `o`. -/
def State.canPend (s : State) (x o : Nat) : Bool := bitOf (s.get (F.CAN_TXRQ x (o / 16))) (o % 16)
def State.canPendSet (s : State) (x o : Nat) (b : Bool) : State := s.setBitAt (F.CAN_TXRQ x (o / 16)) (o % 16) b

/-- The arbitration field as a number: the lower wins. A base frame wins over an extended one of the same first 11 bits. -/
def CanObj.arb (c : CanObj) : Nat :=
  if c.ide then c.id / 2 ^ 18 % 2 ^ 11 * 2 ^ 20 + 2 ^ 19 + c.id % 2 ^ 18 else c.id % 2 ^ 11 * 2 ^ 20

/-- The pending object whose arbitration field wins; on equal fields the lower number. -/
def State.canWinner (s : State) (x : Nat) : Option Nat :=
  (List.range 32).foldl (fun b o =>
    if s.canPend x o && (s.canObj x o).valid && (s.canObj x o).tx then
      match b with
      | none => some o
      | some w => if (s.canObj x o).arb < (s.canObj x w).arb then some o else b
    else b) none

/-- The object whose frame is on the bus: one found there when a request was withdrawn, else the winner. -/
def State.canOnBus (s : State) (x : Nat) : Option Nat := match (s.getCan x).bus with | some o => some (o % 32) | none => s.canWinner x

/-- The controller may transmit. -/
def State.canSends (s : State) (x : Nat) : Bool := s.canLive x && !s.bit (F.CAN_CFG.MON x)

/-- The frame that an object sends. -/
def CanObj.frame (c : CanObj) (brsOk : Bool) : CanFrame :=
  ⟨c.ide, BitVec.ofNat 29 c.id, false, c.fdf, c.fdf && c.brs && brsOk, false, BitVec.ofNat 4 c.dlc, c.data.take (dlcBytes c.fdf c.dlc)⟩

/-- CAN_FRAME_SENT: the request ends; in internal loopback the frame is received as well. -/
def State.canSent (s : State) (x o : Nat) : State :=
  let c := s.canObj x o
  let s := (s.canPendSet x o false).updCan x fun k => { k with bus := none, tec := k.tec - 1 }
  let s := (s.raiseIf c.txIrq (285 + 2 * x)).canShow x
  if s.bit (F.CAN_CFG.LBACK x) then s.canTake x (c.frame (s.bit (F.CAN_CFG.BRSEN x))) else s
def execCanFrameSent (x : Fin 2) (s : State) : Out :=
  .next (if s.canSends x then match s.canOnBus x with | some o => s.canSent x o | none => s else s)

/-- A frame that lost arbitration or met an error: sent again, unless DAR is 1 or its request was withdrawn meanwhile. -/
def State.canAgain (s : State) (x : Nat) : State :=
  match s.canOnBus x with
  | none => s
  | some o =>
    let s' := s.updCan x fun k => { k with bus := none }
    if (s.getCan x).bus.isSome || s.bit (F.CAN_CFG.DAR x) then s'.canPendSet x o false else s'

/-- CAN_ARBITRATION_LOST. -/
def execCanArbitrationLost (x : Fin 2) (s : State) : Out := .next (if s.canSends x then s.canAgain x else s)

/-- CAN_TX_REQUEST: each named bit of a valid transmit object sets. -/
def State.canRequest (s : State) (x v : Nat) : State :=
  s.each (List.range 32) fun s o =>
    if bitOf v o && (s.canObj x o).valid && (s.canObj x o).tx then s.canPendSet x o true else s
def execCanTxRequest (x : Fin 2) (mask : BitVec 32) (s : State) : Out := .next (if s.canUp x then s.canRequest x mask.toNat else s)

/-- CAN_TX_ABORT: each named request is withdrawn; one whose frame is on the bus stays until the frame ends. -/
def State.canAbort (s : State) (x v : Nat) (onBus : Option Nat) : State :=
  s.each (List.range 32) fun s o =>
    if bitOf v o && s.canPend x o then
      if onBus = some o then s.updCan x fun k => { k with bus := some o } else s.canPendSet x o false
    else s
def execCanTxAbort (x : Fin 2) (mask : BitVec 32) (onBus : Option (Fin 32)) (s : State) : Out :=
  .next (if s.canUp x then s.canAbort x mask.toNat (onBus.map (·.val)) else s)

/-- CAN_OBJECT_SELECT: the object is copied into the view (R448). -/
def State.canSelect (s : State) (x o : Nat) : State :=
  let c := s.canObj x o
  let s := (s.set (F.CAN_OSEL x) o).setReg (R.CAN_OCFG x) (BitVec.ofNat 20 c.cfg)
  let s := (s.set (F.CAN_OIDLO x) c.id).set (F.CAN_OIDHI x) (c.id / 2 ^ 16)
  let s := (s.set (F.CAN_OMSKLO x) c.mask).set (F.CAN_OMSKHI x) (c.mask / 2 ^ 16)
  let s := (s.set (F.CAN_OSTAT x) c.stat).set (F.CAN_OTS x) c.ots
  s.each (List.range 32) fun s k => s.set (F.CAN_ODATA x k) (leAt c.data (2 * k) 2)
def execCanObjectSelect (x : Fin 2) (o : Fin 32) (s : State) : Out := .next (if s.canUp x then s.canSelect x o else s)

/-- The view as an object. -/
def State.canView (s : State) (x : Nat) : CanObj :=
  { cfg := (s.reg (R.CAN_OCFG x)).toNat % 2 ^ 11
    id := s.get (F.CAN_OIDLO x) + 2 ^ 16 * s.get (F.CAN_OIDHI x)
    mask := s.get (F.CAN_OMSKLO x) + 2 ^ 16 * s.get (F.CAN_OMSKHI x)
    stat := s.get (F.CAN_OSTAT x)
    ots := s.get (F.CAN_OTS x)
    data := (List.range 32).flatMap fun k => leBytes 2 (s.get (F.CAN_ODATA x k)) }

/-- CAN_OBJECT_WRITE: the view is copied into the object, unless that is a transmit object with its request pending (R448). -/
def State.canOwr (s : State) (x : Nat) : State :=
  let o := s.get (F.CAN_OSEL x)
  if (s.canObj x o).tx && s.canPend x o then s.evt (F.CAN_STAT.OWREJ x)
  else
    let v := s.canView x
    s.updObj x o fun _ => v
def execCanObjectWrite (x : Fin 2) (s : State) : Out := .next (if s.canUp x then s.canOwr x else s)

/-! ### Bus errors and recovery (R446) -/

/-- CAN_BUS_ERROR: LEC and the counters, as ISO 11898-1 gives: a transmitter adds 8, a receiver 1, or 8 where `strong`. -/
def State.canError (s : State) (x : Nat) (tx strong : Bool) (lec : Nat) : State :=
  let s := s.set (F.CAN_ERRCNT.LEC x) lec
  let s := s.updCan x fun c =>
    if tx then { c with tec := if strong then c.tec + 8 else c.tec, off := c.off || (strong && decide (255 < c.tec + 8)) }
    else { c with rec_ := min 255 (c.rec_ + if strong then 8 else 1) }
  (if tx then s.canAgain x else s).canShow x
def execCanBusError (x : Fin 2) (tx strong : Bool) (lec : Fin 6) (s : State) : Out :=
  .next (if s.canLive x && !(tx && s.bit (F.CAN_CFG.MON x)) then s.canError x tx strong (lec.val + 1) else s)

/-- CAN_RECOVER. -/
def State.canRecover (s : State) (x : Nat) : State :=
  if s.get (F.CAN_STAT.STATE x) = 2 then s.updCan x fun c => { c with counting := true } else s
def execCanRecover (x : Fin 2) (s : State) : Out := .next (if s.canUp x then s.canRecover x else s)

/-- CAN_BUS_OFF_RECOVERY: 128 sequences of 11 recessive bits have been seen while they count. -/
def execCanBusOffRecovery (x : Fin 2) (s : State) : Out :=
  .next <|
    if s.canUp x && s.get (F.CAN_STAT.STATE x) = 2 && (s.bit (F.CAN_CFG.ABOR x) || (s.getCan x).counting) then
      (s.updCan x fun c => { c with tec := 0, rec_ := 0, off := false, counting := false }).canShow x
    else s

/-! ### SENT (R451 to R453) -/

/-- Receiver `r` is clocked and enabled. -/
def State.sentUp (s : State) (r : Nat) : Bool := s.islandUp .memory && s.blockFree 15 && s.bit (F.SENT_CFG.EN r)

/-- A nibble of length `p` after a calibration pulse `cal`: floor(56 p / cal - 12 + 1/2). -/
def nibValue (cal p : Nat) : Int := ((112 * p : Nat) - (23 * cal : Nat) : Int) / (2 * cal : Nat)

/-- One step of the 4-bit CRC, polynomial x⁴ + x³ + x² + 1, and the CRC of nibbles by either method (Table 21.2). -/
def crc4Step (c : Nat) : Nat := (List.range 4).foldl (fun x _ => if 8 ≤ x then (2 * x) ^^^ 0x1D else 2 * x) c
def sentCrc (legacy : Bool) (ns : List Nat) : Nat :=
  (if legacy then ns else ns ++ [0]).foldl (fun c n => crc4Step c ^^^ n) 5

/-- The 6-bit CRC of the enhanced serial message: polynomial x⁶ + x⁴ + x³ + 1, seed 0b010101, six zero bits appended. -/
def crc6Step (c : Nat) : Nat := (List.range 6).foldl (fun x _ => if 32 ≤ x then (2 * x) ^^^ 0x59 else 2 * x) c
def slowCrc6 (gs : List Nat) : Nat := (gs ++ [0]).foldl (fun c n => crc6Step c ^^^ n) 0x15

/-- The number of bits, first most significant. -/
def bitsNat (bs : List Bool) : Nat := bs.foldl (fun a b => 2 * a + b2n b) 0

/-- The nibbles the frame carries: status, data, CRC. -/
def State.sentData (s : State) (r : Nat) : Nat := let n := s.get (F.SENT_CFG.NNIB r); if n = 0 || n = 7 then 6 else n

/-- The first check of Table 21.3 that a fast frame fails; 0 for none. -/
def State.sentCheck (s : State) (r : Nat) (p : SentPulses) : Nat :=
  let nom := 56 * 150 * s.get (F.SENT_CFG.TICKQ r)
  if 5 * p.cal < 4 * nom || 6 * nom < 5 * p.cal || p.cal = 0 then 1
  else if s.bit (F.SENT_CFG.SUCC r) && (match (s.getSent r).cal with
      | some c => decide (c < 64 * (if p.cal < c then c - p.cal else p.cal - c)) | none => false) then 2
  else if p.nibs.any (fun n => nibValue p.cal n < 0 || 15 < nibValue p.cal n)
      || (match p.pause with | some q => decide (56 * q < 12 * p.cal) || decide (768 * p.cal < 56 * q) | none => false) then 3
  else if p.nibs.length ≠ s.sentData r + 2 then 4
  else
    let v := p.nibs.map fun n => (nibValue p.cal n).toNat
    if sentCrc (s.bit (F.SENT_CFG.LEGACY r)) ((v.drop 1).dropLast) ≠ v.getLastD 0 then 5 else 0

/-- The slow message in progress after one more status nibble: the nibbles so far, and whether they now make a whole message (R453).
A short message starts with bit 3 set and keeps it clear; an enhanced one holds 1111110 there first. -/
def slowNext (mode : Nat) (l : List Nat) (st : Nat) : List Nat × Bool :=
  let b3 := bitOf st 3
  let again := if b3 && mode ≠ 0 then [st] else []
  match l with
  | [] => (again, false)
  | [a] =>
    if b3 then (if 2 ≤ mode then [a, st] else [st], false)
    else (if mode = 1 || mode = 3 then [a, st] else [], false)
  | _ =>
    let i := l.length
    let enh := bitOf (l.getD 1 0) 3
    if enh then
      let want := if i ≤ 5 then some true else if i = 6 || i = 12 || i = 17 then some false else none
      if want = some b3 || want.isNone then (l ++ [st], i = 17) else (again, false)
    else if b3 then ([st], false)
    else (l ++ [st], i = 15)

/-- Identifier, data, kind and CRC verdict of a whole slow message (SAE J2716). -/
def slowParse (legacy : Bool) (l : List Nat) : Nat × Nat × Nat × Bool :=
  let b2 := l.map fun n => bitOf n 2
  let b3 := l.map fun n => bitOf n 3
  if l.length = 16 then
    let w := bitsNat b2
    (w / 4096, w / 16 % 256, 1, sentCrc legacy [w / 4096, w / 256 % 16, w / 16 % 16] = w % 16)
  else
    let gs := (List.range 4).map fun g => bitsNat ((List.range 3).flatMap fun j => [b2.getD (6 + 3 * g + j) false, b3.getD (6 + 3 * g + j) false])
    let ok := decide (slowCrc6 gs = bitsNat (b2.take 6))
    let hi := bitsNat ((List.range 4).map fun j => b3.getD (8 + j) false)
    let lo := bitsNat ((List.range 4).map fun j => b3.getD (13 + j) false)
    let d := bitsNat (b2.drop 6)
    if b3.getD 7 false then (hi, 4096 * lo + d, 3, ok) else (16 * hi + lo, d, 2, ok)

/-- A rejection: cause and count, source 288 + r with EIRQ, the slow message ends. -/
def State.sentReject (s : State) (r cause psrc det : Nat) : State :=
  let s := ((s.set (F.SENT_ERR.LASTC r) cause).evtInc (F.SENT_ERR.COUNT r)).updSent r fun x => { x with slow := [] }
  (s.raiseIf (s.bit (F.SENT_CFG2.EIRQ r)) (288 + r)).report psrc det

/-- A slow message that passed its CRC (R453). -/
def State.slowTake (s : State) (r id data kind : Nat) : State :=
  let s := ((s.set (F.SENT_SMSG r) data).set (F.SENT_SMID.ID r) id).set (F.SENT_SMID.KIND r) kind
  let s := s.each (List.range 32) fun s i =>
    if s.bit (F.SENT_SLOT.EN i) && s.get (F.SENT_SLOT.RX i) = r && s.get (F.SENT_SLOT.ID i) = id then
      (s.set (F.SENT_SLOTV i) data).qvFeed 5 i data true
    else s
  s.raiseIf (s.bit (F.SENT_CFG2.SIRQ r)) (288 + r)

/-- Channels of an accepted frame: FMT 1 takes nibbles 1 to 3, and 4 to 6 in reverse order; else all of them. -/
def sentChannels (fmt : Nat) (d : List Nat) : Nat × Nat :=
  let num := fun (l : List Nat) => l.foldl (fun a n => 16 * a + n) 0
  if fmt = 1 then (num (d.take 3), num ((d.drop 3).take 3).reverse) else (num d, 0)

/-- An accepted fast frame. -/
def State.sentTake (s : State) (r : Nat) (p : SentPulses) (v : List Nat) : State :=
  let f := s.fclk
  let ch := sentChannels (s.get (F.SENT_CFG.FMT r)) (v.drop 1).dropLast
  let s := s.updSent r fun x => { x with cal := some p.cal, accT := f, silent := false }
  let s := ((s.set (F.SENT_CH1 r) ch.1).set (F.SENT_CH1HI r) (ch.1 / 2 ^ 20)).set (F.SENT_CH2 r) ch.2
  let s := (s.set (F.SENT_STATUS r) (v.headD 0)).set (F.SENT_TICK r) (min (10 * p.cal / 168) 0xFFFFF)
  let s := (s.qvFeed 4 (2 * r) (ch.1 % 2 ^ 20 : Nat) true).qvFeed 4 (2 * r + 1) ch.2 true
  s.raiseIf (s.bit (F.SENT_CFG2.FIRQ r)) (288 + r)

/-- SENT_FRAME_END. -/
def State.sentFrame (s : State) (r : Nat) (p : SentPulses) : State :=
  let cause := s.sentCheck r p
  if cause ≠ 0 then s.sentReject r cause 93 (8 * r + cause)
  else
    let v := p.nibs.map fun n => (nibValue p.cal n).toNat
    let n := slowNext (s.get (F.SENT_CFG2.SLOW r)) (s.getSent r).slow (v.headD 0)
    if n.2 then
      let m := slowParse (s.bit (F.SENT_CFG.LEGACY r)) n.1
      if m.2.2.2 then ((s.updSent r fun x => { x with slow := [] }).sentTake r p v).slowTake r m.1 m.2.1 m.2.2.1
      else s.sentReject r 6 94 r
    else (s.updSent r fun x => { x with slow := n.1 }).sentTake r p v
def execSentFrameEnd (r : Fin 8) (p : SentPulses) (s : State) : Out := .next (if s.sentUp r then s.sentFrame r p else s)

/-- A frame of receiver `r` that will be accepted comes in this FCLK. -/
def State.sentComes (s : State) (r : Fin 8) : Instr → Bool
  | .sentFrameEnd k p => k = r && decide (((s.sentFrame r p).getSent r).accT = s.fclk)
  | _ => false

/-- SENT_SILENCE: no frame accepted for SILTO ms. -/
def execSentSilence (r : Fin 8) (s : State) : Out :=
  .next <|
    let n := s.get (F.SENT_CFG2.SILTO r)
    let x := s.getSent r
    if s.sentUp r && n ≠ 0 && !x.silent && decide (x.accT + 400000 * n ≤ s.fclk) && !s.comes (s.sentComes r) then
      (s.updSent r fun x => { x with silent := true }).sentReject r 7 95 r
    else s

/-! ### LINK (R455) -/

/-- Words of a section from `o` on, written to registers. -/
def State.putRegs (s : State) (b : List Byte) (o : Nat) (rs : List Nat) : State :=
  s.each rs.zipIdx fun s p => s.setReg p.1 (BitVec.ofNat 20 (leAt b (o + 4 * p.2) 4))

/-- The part of LINK for a controller; CANA's holds the signal entries too (Table 3.12). -/
def State.linkCan (s : State) (b : List Byte) (x : Nat) : State :=
  let s := s.putRegs b (16 * x) [R.CAN_CFG x, R.CAN_NBT x, R.CAN_BT2 x, R.CAN_DBT x]
  let s := s.each (List.range 32) fun s o =>
    let q := 32 + 512 * x + 16 * o
    s.updObj x o fun c => { c with cfg := leAt b q 4, id := leAt b (q + 4) 4 + 2 ^ 16 * leAt b (q + 8) 4, mask := leAt b (q + 12) 4 }
  let s := if x = 0 then s.putRegs b 1056 ((List.range 64).flatMap fun g => [R.CAN_SIGA g, R.CAN_SIGB g]) else s
  s.canCfg x

/-- The part of LINK for the receivers and slots. -/
def State.linkSent (s : State) (b : List Byte) : State :=
  let f := s.fclk
  let s := s.putRegs b 1568 ((List.range 8).flatMap fun r => [R.SENT_CFG r, R.SENT_CFG2 r])
  let s := s.putRegs b 1632 ((List.range 32).map R.SENT_SLOT)
  { s with sent := s.sent.map fun x => { x with accT := f } }
def State.linkApply (s : State) (b : List Byte) : State := ((s.linkCan b 0).linkCan b 1).linkSent b

/-- Block resets of a controller and of the receivers. -/
def State.canReset (s : State) (x : Nat) : State := s.updCan x fun _ => Can.reset
def State.sentReset (s : State) : State := { s with sent := .replicate 8 SentRx.reset }

/-- SEMANTIC check of LINK. -/
def linkCheck (b : List Byte) : Bool :=
  let w := fun (o : Nat) => leAt b o 4
  b.length = 1760
    && (List.range 2).all (fun x => decide (w (16 * x) < 2 ^ 7) && decide (w (16 * x + 4) < 2 ^ 20) && decide (w (16 * x + 8) < 2 ^ 19)
        && decide (w (16 * x + 12) < 2 ^ 14))
    && (List.range 64).all (fun o => let q := 32 + 16 * o
        decide (w q < 2 ^ 11) && decide (w (q + 4) < 2 ^ 16) && decide (w (q + 8) < 2 ^ 13) && decide (w (q + 12) < 2 ^ 29))
    && (List.range 64).all (fun g => let a := w (1056 + 8 * g)
        let c := w (32 + 512 * (a / 2 % 2) + 16 * (a / 4 % 32))
        decide (a < 2 ^ 16) && decide (w (1060 + 8 * g) < 2 ^ 7) && (!bitOf a 0 || (bitOf c 0 && !bitOf c 1)))
    && (List.range 8).all (fun r => let a := w (1568 + 8 * r)
        decide (a < 2 ^ 17) && decide (6 ≤ a / 2 % 256) && decide (a / 2 % 256 ≤ 180) && decide (w (1572 + 8 * r) < 2 ^ 18))
    && (List.range 32).all (fun i => decide (w (1632 + 4 * i) < 2 ^ 12))

end Sys2Proof.Machine
end

