-- ==== Sys2Proof/Machine/Porter.lean ====
section
/-! DEFINITION. The Porter: how events are decided, captured, logged, counted and reacted to (R405 to R428). The chip and block resets
that a reaction starts are in React.lean. -/

namespace Sys2Proof.Machine

/-! ### Pairs (R405 to R409) -/

/-- The island and block of source `k` are clocked and out of reset, so its pair is not read as fine (R407). -/
def State.srcUp (s : State) (k : Nat) : Bool :=
  if k ≤ 6 || k = 10 then true
  else if k = 7 then s.islandUp .memory
  else if k ≤ 11 then s.islandUp .management
  else if k ≤ 15 then s.angleOk (k - 12)
  else if k ≤ 17 then s.angleOk 4
  else if k ≤ 19 then s.islandUp .angle
  else if k ≤ 31 then s.angleOk 5
  else if k ≤ 47 then s.islandUp .management
  else if k ≤ 63 then s.islandUp .needle && s.blockFree (6 + (k - 48) / 4)
  else if k = 69 then s.islandUp .memory && s.blockFree 12
  else if k = 70 then s.islandUp .memory && s.blockFree 10
  else if k = 71 then s.islandUp .memory && s.blockFree 11
  else if 88 ≤ k && k ≤ 91 then s.islandUp .memory && s.blockFree (13 + (k - 88) / 2)
  else if 93 ≤ k && k ≤ 95 then s.islandUp .memory && s.blockFree 15
  else if 72 ≤ k && k ≤ 75 then s.islandUp .gallery
  else s.islandUp .memory

/-- The source's own pair is not fine: POR_ACT (R428). A forced value stands at the Porter's input, not on the pair (R408). -/
def State.pairAct (s : State) (k : Nat) : Bool :=
  s.srcUp k && (s.por.pulses.any (fun p => p.src = k) || s.por.stand.any (fun p => p.src = k))

/-- An event with the reaction it calls for. -/
structure Decided where
  item  : CountItem
  react : Nat
  sev   : Bool
deriving DecidableEq, Repr

/-- The finding that an observation of the pairs gives, and the state with it consumed. A forced event's detail code is the source's
own, which the spec does not state for a source without a finding: a free value. Over a standing pair that has given its event a forced
error gives none, as no fine sample came before (R405). -/
def State.sample (s : State) (e : PairEvt) : Option CountItem × State :=
  match e with
  | .porter g => (some ⟨plainSig 0 (g.val + 1), false, false⟩, s)
  | .integ k =>
    if s.por.forced.contains (k.val, true) then
      (some ⟨plainSig k 0, true, true⟩, s.updPor fun p => { p with forced := p.forced.erase (k.val, true) })
    else if s.srcUp k then (some ⟨plainSig k 0, true, false⟩, s) else (none, s)
  | .error k =>
    if s.por.forced.contains (k.val, false) then
      let r := s.free
      let det := if 96 ≤ k.val then 0 else r.1 % 256
      let on := s.srcUp k && s.por.stand.any fun p => p.src = k.val
      let s := r.2.updPor fun p => { p with forced := p.forced.erase (k.val, false),
                                            seen := if on && !p.seen.contains k.val then p.seen ++ [k.val] else p.seen }
      (if on && r.2.por.seen.contains k.val then none else some ⟨plainSig k det, false, true⟩, s)
    else
      match s.por.pulses.find? (fun p => p.src = k.val) with
      | some g =>
        (if s.srcUp k && !s.por.same.contains k.val then some ⟨g, false, false⟩ else none,
          s.updPor fun p => { p with pulses := p.pulses.erase g, same := p.same.filter fun x => x ≠ k.val })
      | none =>
        match s.por.stand.find? (fun p => p.src = k.val) with
        | some g =>
          if s.srcUp k && !s.por.seen.contains k.val then
            (some ⟨g, false, false⟩, s.updPor fun p => { p with seen := p.seen ++ [k.val] })
          else (none, s)
        | none => (none, s)

/-- Source of an observation. -/
def evSrc (e : PairEvt) : Nat := match e with | .error k => k | .integ k => k | .porter _ => 0

/-- A source is severe (R411). -/
def State.sevBit (s : State) (k : Nat) : Bool := bitOf (s.get (F.POR_SEV (k / 16))) (k % 16)

/-- The findings of one SOSC cycle, one for a source, masked ones discarded, with the reactions they call for (R407, R411). -/
def State.sampleAll (s : State) : List PairEvt → List Nat → List Decided × State
  | [], _ => ([], s)
  | e :: t, seen =>
    if seen.contains (evSrc e) then s.sampleAll t seen
    else
      let r := s.sample e
      let q := r.2.sampleAll t ((evSrc e) :: seen)
      match r.1 with
      | none => q
      | some c =>
        if s.bit (F.POR_SRCA.EN (evSrc e)) then
          (⟨c, if s.sevBit (evSrc e) then s.get (F.POR_SRCA.SEVR (evSrc e)) else s.get (F.POR_SRCA.EVR (evSrc e)), false⟩ :: q.1, q.2)
        else q

/-- The capture order of R416: higher severity first, then the lower source. -/
def decIns (d : Decided) : List Decided → List Decided
  | [] => [d]
  | x :: t =>
    if x.react < d.react || (x.react = d.react && d.item.sig.src < x.item.sig.src) then d :: x :: t else x :: decIns d t
def decSort (l : List Decided) : List Decided := l.foldl (fun a d => decIns d a) []

/-! ### Capture and log (R415 to R417) -/

/-- The time stamp of a decision: TB, or all ones when FCLK is stopped. -/
def State.stamp (s : State) : Nat := if s.islandUp .angle then s.tb.toNat else 2 ^ 60 - 1

/-- The capture takes an event. -/
def State.captureTake (s : State) (d : Decided) : State :=
  let g := d.item.sig
  let s := ((s.setReg R.POR_FIRST 0).set F.POR_FIRST.SRC g.src).set F.POR_FIRST.VALID 1
  let s := ((s.setB F.POR_FIRST.INTEG d.item.integ).setB F.POR_FIRST.FORCED d.item.forced).set F.POR_FIRST.REACT d.react
  let s := (s.setB F.POR_FIRST.SEV d.sev).setReg R.POR_FDET 0
  let s := ((s.set F.POR_FDET.DET g.det).set F.POR_FDET.MASTER g.master).set F.POR_FDET.ACCESS g.access
  let t := s.stamp
  let s := ((s.set F.POR_FTB_LO t).set F.POR_FTB_MID (t / 2 ^ 20)).set F.POR_FTB_HI (t / 2 ^ 40)
  (s.set F.POR_FADDR_LO g.addr).set F.POR_FADDR_HI (g.addr / 2 ^ 20)

/-- SECOND sets; from 0 it raises source 3 (R427). -/
def State.secondSet (s : State) : State := (s.raiseIf (!s.bit F.POR_SECOND.SECOND) 3).set F.POR_SECOND.SECOND 1

/-- An event meets the capture. A difference in the capture itself rewrites it (R422). -/
def State.capture (s : State) (d : Decided) : State :=
  let g := d.item.sig
  if g.src = 0 && g.det = 2 && !d.item.integ && !d.item.forced then (s.captureTake d).secondSet
  else if s.get F.POR_GCFG.CAPMIN ≤ d.react then
    if s.bit F.POR_FIRST.VALID then (s.secondSet.inc F.POR_SECOND.COUNT).set F.POR_SECOND.LASTSRC g.src else s.captureTake d
  else s

/-- Events of a source decided and not yet counted. -/
def State.uncounted (s : State) (k : Nat) : Nat := (s.por.countQ.filter fun c => c.sig.src = k).length

/-- An event is offered to the fault log where R417 says so. -/
def State.logEvent (s : State) (d : Decided) : State :=
  let k := d.item.sig.src
  if d.sev || 2 ≤ d.react || s.bit (F.POR_SRCA.LOG k) then
    let w := s.get (F.POR_CNT.WCNT k)
    s.logOffer { kind := b2n d.sev, integ := d.item.integ, sig := d.item.sig, react := d.react, forced := d.item.forced,
                 wcnt := if d.sev then w else min 255 (w + s.uncounted k + 1), bay := s.get F.GAL_STAT.BAY, ts := s.stamp, cause := 0 }
  else s

/-- The reset record of boot step 4 after a Porter or Gallery reset that found VALID at 1 (R417). -/
def State.logReset (s : State) : State :=
  let ts := s.get F.POR_FTB_LO + s.get F.POR_FTB_MID * 2 ^ 20 + s.get F.POR_FTB_HI * 2 ^ 40
  let sig : FaultSig := ⟨s.get F.POR_FIRST.SRC, s.get F.POR_FDET.DET, s.get F.POR_FADDR_LO + s.get F.POR_FADDR_HI * 2 ^ 20,
    s.get F.POR_FDET.MASTER, s.get F.POR_FDET.ACCESS⟩
  s.logOffer { kind := 2, integ := s.bit F.POR_FIRST.INTEG, sig := sig, react := s.get F.POR_FIRST.REACT,
               forced := s.bit F.POR_FIRST.FORCED, wcnt := s.get (F.POR_CNT.WCNT sig.src), bay := s.get F.GAL_STAT.BAY, ts := ts,
               cause := (s.reg R.PCR_RSTCAUSE).toNat % 256 }

/-- POR_CMD: the command that a write gives, by the bits that the limits allow; 0 for none. -/
def State.porCmd (s : State) (src : Master) (v : Word) : Nat × State :=
  let act := s.wlActs src R.POR_CMD v
  let s := if s.wlBlocked src R.POR_CMD 0 v.toNat then s.recordReject R.POR_CMD else s
  (if act / 4096 % 256 = 0x96 then act % 4 else 0, s)

/-- A clear of the capture that will act comes in this FCLK: events decided in the clock of that write are taken after it (R416). -/
def State.clrComes (s : State) (c : Instr) : Bool :=
  let writes := match c with | .capclr src => [(src, R.POR_CMD, (0x96001 : Word))] | _ => s.writesOf c
  s.islandUp .management && writes.any fun w => w.2.1 = R.POR_CMD && (s.porCmd w.1 w.2.2).1 = 1

/-- VALID, SECOND and COUNT clear, unless that has been done ahead of the events of this FCLK. -/
def State.capClear (s : State) : State :=
  if s.por.clrT = some s.fclk then s else ((s.set F.POR_FIRST.VALID 0).set F.POR_SECOND.SECOND 0).set F.POR_SECOND.COUNT 0

/-! ### Reactions (R412 to R414, R418) -/

/-- Safe state is entered. -/
def State.safeEnter (s : State) (k : Nat) : State :=
  if s.safe then s
  else
    let s := ((s.set F.POR_STAT.SAFE 1).set F.POR_STAT.SSRC k).raise 2
    (s.cutAll 2).updPor fun p => { p with alive := false }

/-- A CRESET whose limit is reached is performed as SAFE (R414). -/
def State.limited (s : State) (d : Decided) : Bool :=
  d.react = 4 && s.get F.POR_GCFG.RSTLIM ≠ 0 && decide (s.get F.POR_GCFG.RSTLIM ≤ s.get F.POR_STAT.RSTCNT)

/-- The reaction of one event, chip and block resets apart: interrupt and trap, which a stopped memory island does not see (R9). `first`
is the first trap of the cycle. -/
def State.perform (s : State) (d : Decided) (r : Nat) (first : Bool) : State :=
  let s := s.raiseIf (1 ≤ r && r ≠ 4) 0
  if r = 2 || r = 5 then
    if !s.islandUp .memory then s
    else
      let s := s.evt F.IRT_TRAP.PEND
      if first then s.set F.IRT_TRAP.PSRC d.item.sig.src else s
  else s

/-- All reactions of one SOSC cycle (R413). The answers are the blocks to reset, and whether a Porter chip reset is due. -/
def State.reactAll (s : State) (ds : List Decided) : State × List Nat × Bool :=
  let eff := ds.map fun d => (d, if s.limited d then 5 else d.react)
  let s := if ds.any s.limited then s.set F.POR_STAT.LIMIT 1 else s
  let anySafe := eff.any fun e => e.2 = 5
  let creset := !anySafe && !s.safe && eff.any fun e => e.2 = 4
  if creset then (s.inc F.POR_STAT.RSTCNT, [], true)
  else
    let s := match eff.find? (fun e => e.2 = 5) with | some e => s.safeEnter e.1.item.sig.src | none => s
    let r := eff.foldl (fun (a : State × Bool) e => (a.1.perform e.1 e.2 a.2, a.2 && !(e.2 = 2 || e.2 = 5))) (s, true)
    (r.1, (eff.filter fun e => e.2 = 3).map fun e => s.get (F.POR_SRCA.BLK e.1.item.sig.src), false)

/-- Events decided in one SOSC cycle: captured, logged, reacted to, and sent to be counted; a severe notice is not counted again. -/
def State.decide_ (s : State) (ds : List Decided) : State × List Nat × Bool :=
  let ds := decSort ds
  let f := s.fclk
  let s := if !ds.isEmpty && s.comes s.clrComes then s.capClear.updPor fun p => { p with clrT := some f } else s
  let s := s.each ds State.capture
  let s := s.each ds fun s d =>
    let s := s.logEvent d
    if d.sev then s else s.updPor fun p => { p with countQ := p.countQ ++ [d.item] }
  s.reactAll ds

/-! ### Counting (R410, R411) -/

/-- W and N; 0 acts as 1. -/
def State.porW (s : State) (k : Nat) : Nat := max 1 (s.get (F.POR_SRCB k))
def State.porN (s : State) (k : Nat) : Nat := max 1 (s.get (F.POR_SRCA.N k))

/-- The window of a source closes when its age has come to W, unless the source is severe. -/
def State.winClose (s : State) (k : Nat) : State :=
  match s.por.ages.find? (fun e => e.1 = k) with
  | none => s
  | some e =>
    if s.porW k ≤ e.2 && !s.sevBit k then
      (s.set (F.POR_CNT.WCNT k) 0).updPor fun p => { p with ages := cellDel k p.ages }
    else s

/-- FAULT_COUNT: the next event on the way is counted; a window whose age had come to W has closed before. -/
def State.count (s : State) (c : CountItem) : State :=
  let k := c.sig.src % 128
  let s := s.winClose k
  let s := s.evtInc (F.POR_CNT.TOTAL k)
  let s := if s.get (F.POR_CNT.WCNT k) = 0 then
      (s.set (F.POR_CNT.WCNT k) 1).updPor fun p => { p with ages := cellIns k 0 (cellDel k p.ages) }
    else s.inc (F.POR_CNT.WCNT k)
  if s.porN k ≤ s.get (F.POR_CNT.WCNT k) && !s.sevBit k then
    ((s.evtAt (F.POR_SEV (k / 16)) (k % 16)).raise 1).updPor fun p => { p with sevQ := p.sevQ ++ [c] }
  else s
def State.countNext (s : State) : State :=
  match s.por.countQ with
  | [] => s
  | c :: t => (s.updPor fun p => { p with countQ := t }).count c

/-- A write of POR_SEV comes in this FCLK. -/
def State.sevComes (s : State) : Instr → Bool
  | .severeClear _ _ => true
  | c => (s.writesOf c).any fun w => decide (0x7020 ≤ w.2.1) && decide (w.2.1 < 0x7028)

/-- FAULT_COUNT: an event whose clock still brings a clear of POR_SEV is counted after it, at the FCLK's end (R411). -/
def execFaultCount (s : State) : Out :=
  .next <|
    if s.islandUp .management then
      if s.comes s.sevComes then s.updPor fun p => { p with late := p.late + 1 } else s.countNext
    else s

/-- PORTER_WINDOW_CLOSE. -/
def execPorterWindowClose (k : Fin 128) (s : State) : Out := .next (if s.islandUp .management then s.winClose k else s)

/-- An MT tick ages the open windows; one whose clock still brings an event to be counted ages them after it, at the FCLK's end (R410). -/
def State.agesTick (s : State) : State := s.updPor fun p => { p with ages := p.ages.map fun e => (e.1, e.2 + 1) }
def State.porTick (s : State) : State :=
  if s.por.late ≠ 0 || s.comes (fun c => c = .faultCount) then s.updPor fun p => { p with tick := true } else s.agesTick

/-- What the end of an FCLK brings to the counters: the events first, then the tick. -/
def State.countsRun (s : State) : State :=
  if s.por.late = 0 && !s.por.tick then s
  else
    let k := s.por.late
    let tk := s.por.tick
    let s := (s.updPor fun p => { p with late := 0, tick := false }).each (List.range k) fun s _ => s.countNext
    if tk then s.agesTick else s

/-- SEVERE_CLEAR: a W1C write of POR_SEVi; a bit that this clock sets stays (R479). -/
def State.sevClear (s : State) (i v : Nat) : State :=
  s.each (List.range 16) fun s j =>
    let k := 16 * i + j
    if bitOf v j && s.sevBit k && !bitOf (s.setNow (R.POR_SEV i)) j then
      ((s.setBitAt (F.POR_SEV i) j false).set (F.POR_CNT.WCNT k) 0).updPor fun p => { p with ages := cellDel k p.ages }
    else s
def execSevereClear (i : Fin 8) (v : Word) (s : State) : Out := .next (if s.islandUp .management then s.sevClear i v.toNat else s)

/-! ### Forcing, capture clear (R408, R416) -/

/-- A write of POR_FORCEi: the bits that the limits allow act; the register reads 0. -/
def State.forceWrite (s : State) (i : Nat) (src : Master) (v : Word) : State :=
  let a := R.POR_FORCE i
  let act := s.wlActs src a v
  let integ := s.bit F.POR_FCFG
  let s := if s.wlBlocked src a 0 v.toNat then s.recordReject a else s
  s.each (List.range 16) fun s j =>
    if bitOf act j then s.updPor fun p => { p with forced := p.forced.filter (fun e => e.1 ≠ 16 * i + j) ++ [(16 * i + j, integ)] } else s
def execFaultForce (i : Fin 8) (src : Master) (v : Word) (s : State) : Out :=
  .next (if s.islandUp .management then s.forceWrite i src v else s)

def execCapclr (src : Master) (s : State) : Out :=
  .next <|
    if s.islandUp .management then
      let r := s.porCmd src 0x96001
      if r.1 = 1 then r.2.capClear else r.2
    else s

/-! ### Heartbeat and ALIVE (R420, R421) -/

/-- HEARTBEAT_SEND. -/
def execHeartbeatSend (s : State) : Out :=
  .next (let f := s.fclk; if s.islandUp .management then s.updPor fun p => { p with beat := true, beatT := f } else s)

/-- FCLK within which a heartbeat must come: HBTO × 250 µs, 0 and 1 acting as 2. -/
def State.beatTime (s : State) : Nat := 100000 * max 2 (s.get F.POR_GCFG.HBTO)

/-- HEARTBEAT_TIMEOUT: no heartbeat has come for that time. While FCLK is stopped the model counts no time, and one that has come since the
last such command stands for it (assumption 3). -/
def execHeartbeatTimeout (s : State) : Out :=
  .next <|
    let f := s.fclk
    if s.islandUp .safety && !s.comes (fun c => c = .heartbeatSend) then
      if s.islandUp .angle then
        if s.por.beatT + s.beatTime ≤ f then (s.updPor fun p => { p with beat := false, beatT := f }).report 1 0 else s
      else if s.por.beat then s.updPor fun p => { p with beat := false }
      else s.report 1 0
    else s

/-- ALIVE toggles: boot complete, not in watch mode, not in safe state. -/
def State.aliveOn (s : State) : Bool := s.running && s.get F.PCR_STAT.BOOTSTEP = 6 && !s.safe

/-- ALIVE_TOGGLE: the level changes while ALIVE toggles, and the readback is compared with it. -/
def execAliveToggle (readback : Bool) (s : State) : Out :=
  .next <|
    if s.pcr.held.isNone then
      let l := s.aliveOn && !s.por.alive
      let s := s.updPor fun p => { p with alive := l }
      if readback = l then s.standOff 0 4 else s.standOn 0 4
    else s

/-- POR_STAT.PROMISE (R424). -/
def State.promise (s : State) : Bool :=
  s.bit F.WVL_STAT.SAFETY && s.bit F.STC_STAT.PACEOK && s.bit F.STC_STAT.CSPARE && s.bit F.STC_STAT.TSPARE && s.bit F.STC_STAT.WSPARE

/-! ### Image sections (R425, R426) -/

/-- Sources that Table 19.1 reserves, and those that Table 19.5 names. -/
def porReserved (k : Nat) : Bool := (porDefault k).isNone
def porPromised (k : Nat) : Bool := [0, 2, 3, 8, 16, 18, 28, 44, 64, 65, 66, 67].contains k || (80 ≤ k && k ≤ 87)

/-- PORTER applied; SAFETY applied and removed. -/
def State.porterApply (s : State) (b : List Byte) : State :=
  s.each (List.range 128) fun s k =>
    let e := leAt b (8 * k) 1
    (s.setReg (R.POR_SRCA k) (BitVec.ofNat 20 (e + 256 * (leAt b (8 * k + 4) 1 % 16) + 4096 * leAt b (8 * k + 1) 1))).setReg (R.POR_SRCB k)
      (BitVec.ofNat 20 (leAt b (8 * k + 2) 2))
def State.safetyApply (s : State) (b : List Byte) : State :=
  (s.setReg R.POR_GCFG (BitVec.ofNat 20 (leAt b 0 4))).set F.WVL_STAT.SAFETY 1

/-- SEMANTIC checks of PORTER and SAFETY. -/
def porterCheck (b : List Byte) (safety : Bool) : Bool :=
  b.length = 1024 && (List.range 128).all fun k =>
    let e := leAt b (8 * k) 1
    let ev := e % 8
    let sv := e / 8 % 8
    let en := bitOf e 7
    if porReserved k then leAt b (8 * k) 8 = 0
    else decide (ev ≤ 5) && decide (sv ≤ 5) && leAt b (8 * k + 5) 3 = 0 && decide (leAt b (8 * k + 4) 1 < 16)
      && (!(k = 0 || k = 1 || k = 6) || (en && ev = 5 && sv = 5)) && (!safety || !porPromised k || en)
def safetyCheck (b : List Byte) : Bool := b.length = 32 && decide (leAt b 0 4 < 2 ^ 15) && leAt b 4 28 = 0

end Sys2Proof.Machine
end

