-- ==== Sys2Proof/Machine/Stc.lean ====
section
/-! DEFINITION. The self-test controller: hall rows, NVS reading, the rotations of compare units and edge timers (R429 to R443). -/

namespace Sys2Proof.Machine

/-- The tests run from the end of boot step 2 (R429). -/
def State.stcOn (s : State) : Bool :=
  s.islandUp .memory && (let b := s.get F.PCR_STAT.BOOTSTEP; decide (3 ≤ b) && decide (b ≤ 6))

/-! ### Results (R439, R440) -/

/-- A failure: flag, count, source 316. -/
def State.stcFail (s : State) : State := ((s.evt F.STC_STAT.FAIL).evtInc F.STC_CNT.FAILS).raise 316

/-- A test of `kind` completed on unit `u`. -/
def State.stcDone (s : State) (kind u : Nat) : State :=
  let f := s.fclk
  let k := 100000 * kind + u
  s.updStc fun x => { x with done := cellIns k f (cellDel k x.done), inc := vupd x.inc kind fun _ => 0 }

/-- An INCOMPLETE result of `kind`; every third in a row reports STC4. -/
def State.stcInc (s : State) (kind : Nat) : State :=
  let n := vget s.stc.inc kind 0 + 1
  let s := ((s.evt F.STC_STAT.INC).evtInc F.STC_CNT.INCOMP).raise 317
  let s := s.updStc fun x => { x with inc := vupd x.inc kind fun _ => n % 3 }
  if n = 3 then s.report 84 kind else s

/-! ### Hall rows (R430 to R434) -/

/-- MINT µs in FCLK; 0 and 1 act as 2. -/
def State.mint (s : State) : Nat := 400 * max 2 (s.get F.STC_PACE0.MINT)

/-- The powered hall that the test is in, or the next one; none when no hall has power (R430, R308). -/
def State.stcHall (s : State) (h : Nat) : Option Nat :=
  ((List.range 16).map fun k => (h + k) % 16).find? fun k => s.bit (F.HAL_OWN.PWR k)

/-- The row that a region holds: its own, or for a spare in use the row mapped to it. -/
def State.regionRow (s : State) (h g : Nat) : Option Nat :=
  if g < 2048 then some g
  else (s.hal.rows.find? fun e => e.1 / 2048 = h && e.2 = g - 2048).map fun e => e.1 % 2048

/-- Save and restore of a row: each of its 32 words is read through the ECC; a corrected word is written back, a double-bit error
stays (R431, R433). -/
def State.regionWords (s : State) (h row : Nat) : State :=
  let w0 := (524288 * h + 256 * row) / 8
  let mine := s.hallErr.filter fun e => decide (w0 ≤ e.1) && decide (e.1 < w0 + 32)
  s.each mine fun s e =>
    let s := (s.hallWord .stc (8 * e.1) 8 none true 1).1
    if e.2 = .single then { s with hallErr := errPut s.hallErr e.1 none } else s

/-- Spares of a hall that a record names: in force, or asked for since boot. -/
def State.sparesUsed (s : State) (h : Nat) : List Nat :=
  ((s.hal.rows.filter fun e => e.1 / 2048 = h).map (·.2)) ++ ((s.stc.recs.filter fun e => e.1 = h).map fun e => e.2.2.1)

/-- The lowest erased page of the repair region that no record waits for: an erased page reads, with valid check bits (R309, R315). -/
def State.repairPage (s : State) : Option Nat :=
  let asked := (s.hal.waiting ++ s.hal.running.toList).flatMap fun r => if r.who = .stc then r.todo.map (·.1) else []
  let asked := asked ++ s.stc.recQ.map (·.1)
  ((List.range 128).map fun i => 0x104000 / 32 + i).find? fun p =>
    s.nvBytes (32 * p) 32 = erased && s.nvErr (4 * p) 4 ≠ some .double && !asked.contains p

/-- R434: the failure of a region is recorded and reported, and a repair record is asked for when a spare qualifies. -/
def State.marchFail (s : State) (h g bit : Nat) : State :=
  let s := (s.set F.STC_MFAIL0.HALL h).set F.STC_MFAIL0.REGION g
  let s := (s.setReg R.STC_MFAIL1 0).set F.STC_MFAIL1.BIT bit
  let s := (s.report 80 h).stcFail
  let s := if 2048 ≤ g then s.updStc fun x => { x with spareOk := x.spareOk.filter fun k => k ≠ 8 * h + (g - 2048) } else s
  match s.regionRow h g with
  | none => s
  | some row =>
    let used := s.sparesUsed h
    match (List.range 8).find? (fun sp => !used.contains sp && s.stc.spareOk.contains (8 * h + sp)), s.repairPage with
    | some sp, some p =>
      let body := [0xA7, byteOf h] ++ leBytes 2 row ++ [byteOf sp, byteOf bit] ++ leBytes 8 s.tb.toNat ++ List.replicate 18 0
      let s := (s.set F.STC_MFAIL1.SPARE sp).updStc fun x => { x with recs := x.recs ++ [(h, row, sp, g)] }
      (s.updStc fun x => { x with recQ := x.recQ ++ [(p, body)] }).repairAsk
    | _, _ =>
      let s := if (List.range 8).all used.contains then s.set (F.HAL_SPARE.FULL h) 1 else s
      s.report 86 h

/-- The hall test moves to the next region; a pass that ends is timed (R430, R441). -/
def State.regionNext (s : State) (h g : Nat) : State :=
  if g + 1 < 2056 then (s.set F.STC_MPOS.HALL h).set F.STC_MPOS.REGION (g + 1)
  else
    let h' := (s.stcHall ((h + 1) % 16)).getD 0
    let s := (s.set F.STC_MPOS.HALL h').set F.STC_MPOS.REGION 0
    if h' ≤ h then
      let f := s.fclk
      ((s.set F.STC_PASSM (min 1048575 ((f - s.stc.passT) / 400))).updStc fun x => { x with passT := f }).raise 319
    else s

/-- The march of the save buffer not in use: a failure reports STC7, and the other buffer serves every region (R432, R440). -/
def State.bufTest (s : State) (bad : Bool) : State :=
  let b := 1 - s.stc.buf
  if s.stc.bufBad.contains b then s
  else if bad then
    ((s.set F.STC_RES.BUF 2).updStc fun x => { x with bufBad := x.bufBad ++ [b] }).stcFail.report 87 b
  else s.set F.STC_RES.BUF 1

/-- One region (R431): save, march, restore. -/
def State.regionTest (s : State) (res : MarchRes) (bufFail : Bool) : State :=
  match s.stcHall (s.get F.STC_MPOS.HALL) with
  | none => s
  | some h =>
    let g := if h = s.get F.STC_MPOS.HALL then s.get F.STC_MPOS.REGION else 0
    let f := s.fclk
    let m := s.mint
    let s := s.updStc fun x => { x with hallT := f + m }
    let s := match s.regionRow h g with | some row => s.regionWords h row | none => s
    let s := s.bufTest bufFail
    let s := s.updStc fun x => { x with buf := if x.bufBad.contains (1 - x.buf) then x.buf else 1 - x.buf }
    match res with
    | .incomplete => (((s.set F.STC_MPOS.HALL h).set F.STC_MPOS.REGION g).set F.STC_RES.MEM 3).stcInc 0
    | .pass =>
      let s := s.set F.STC_RES.MEM (if bufFail then 2 else 1)
      let s := if 2048 ≤ g && !bufFail then s.updStc fun x => { x with spareOk := x.spareOk.filter (fun k => k ≠ 8 * h + (g - 2048)) ++ [8 * h + (g - 2048)] } else s
      (s.stcDone 0 (2056 * h + g)).regionNext h g
    | .fail bit => (((s.set F.STC_RES.MEM 2).marchFail h g bit).stcDone 0 (2056 * h + g)).regionNext h g

/-- HALL_REGION_TEST. -/
def execHallRegionTest (res : MarchRes) (bufFail : Bool) (s : State) : Out :=
  .next (if s.stcOn && decide (s.stc.hallT ≤ s.fclk) then s.regionTest res bufFail else s)

/-! ### NVS reading (R435) -/

/-- One page is read, word by word, with master 11. -/
def State.pageRead (s : State) (p : Nat) : State :=
  (s.each (List.range 4) fun s i => (s.nvOp 11 (32 * p + 8 * i) 8).1).stcDone 1 p

/-- NVS_BACKGROUND_READ: the next NPPT pages of an MT tick. It waits for a page that is being written. -/
def execNvsBackgroundRead (s : State) : Out :=
  .next <|
    if s.stcOn && decide (0 < s.stc.nvDue) then
      let n := max 1 (s.get F.STC_PACE0.NPPT)
      let p0 := s.get F.STC_NPOS
      let ps := (List.range n).map fun i => (p0 + i) % 65536
      match s.nvBusyPage with
      | some p => if ps.contains p then s else
          ((s.each ps State.pageRead).set F.STC_NPOS (p0 + n)).updStc fun x => { x with nvDue := x.nvDue - 1 }
      | none => ((s.each ps State.pageRead).set F.STC_NPOS (p0 + n)).updStc fun x => { x with nvDue := x.nvDue - 1 }
    else s

/-! ### Compare units (R436, R438) -/

/-- A rotation of kind 2 (compare units) or 3 (edge timers). -/
def State.rot (s : State) (kind : Nat) : Rot := if kind = 2 then s.stc.cmpu else s.stc.etmr
def State.updRot (s : State) (kind : Nat) (f : Rot → Rot) : State :=
  s.updStc fun x => if kind = 2 then { x with cmpu := f x.cmpu } else { x with etmr := f x.etmr }

/-- The rotation's fields: spare present, spare's unit, result, failed unit. -/
def rotHas (kind : Nat) : Fld := if kind = 2 then F.STC_STAT.CSPARE else F.STC_STAT.TSPARE
def rotSpare (kind : Nat) : Fld := if kind = 2 then F.STC_STAT.CSPU else F.STC_STAT.TSPU
def rotRes (kind : Nat) : Fld := if kind = 2 then F.STC_RES.CMPU else F.STC_RES.ETMR
def rotBad (kind : Nat) : Fld := if kind = 2 then F.STC_UFAIL.CMPU else F.STC_UFAIL.ETMR

/-- A unit goes out of service: the rotation has no spare and stops (R438). -/
def State.rotLose (s : State) (kind u res : Nat) : State :=
  let s := ((s.set (rotRes kind) res).set (rotBad kind) u).set (rotHas kind) 0
  (s.stcFail.report (79 + kind) u).report 85 kind

/-- The test of a freed unit begins. -/
def State.rotTest (s : State) (kind u : Nat) : State :=
  let f := s.fclk
  s.updRot kind fun r => { r with freed := some u, freedT := f, retry := none }

/-- Role `k` takes the spare's output; the unit that held it is freed for its test. -/
def State.rotHand (s : State) (kind k : Nat) : State :=
  let sp := s.get (rotSpare kind)
  let old := (s.rot kind).unit.getD k 0
  (s.updRot kind fun r => { r with unit := r.unit.set k sp, wait := none }).rotTest kind old

/-- The end of a freed unit's test (R438, R439). `len` is its length in FCLK; a test cut short has no such length. -/
def State.rotDone (s : State) (kind len : Nat) (res : TestRes) : State :=
  match (s.rot kind).freed with
  | none => s
  | some u =>
    match res with
    | .incomplete =>
      ((s.updRot kind fun r => { r with freed := none, retry := some u }).set (rotRes kind) 3).stcInc kind
    | .pass =>
      if (s.rot kind).freedT + len ≤ s.fclk then
        (((s.updRot kind fun r => { r with freed := none }).set (rotRes kind) 1).set (rotSpare kind) u).stcDone kind u
      else s
    | .fail =>
      if (s.rot kind).freedT + len ≤ s.fclk then
        ((s.updRot kind fun r => { r with freed := none }).rotLose kind u 2).stcDone kind u
      else s

/-- A step begins for role `k`, the position moving on by `adv`. -/
def State.rotStep (s : State) (kind k pace n : Nat) (adv : Bool) : State :=
  let f := s.fclk
  s.updRot kind fun r => { r with wait := some k, stepT := f, nextT := f + pace, next := if adv then (k + 1) % n else r.next }

/-- The rotation has a spare and no unit under test, and its next step is due. -/
def State.rotReady (s : State) (kind : Nat) : Bool :=
  s.stcOn && s.blockFree 4 && s.bit (rotHas kind) && (s.rot kind).freed.isNone && decide ((s.rot kind).nextT ≤ s.fclk)

/-- The unit whose test was INCOMPLETE is tested again; the step serves no role. -/
def State.rotRetry (s : State) (kind u pace : Nat) : State :=
  let f := s.fclk
  (s.updRot kind fun r => { r with nextT := f + pace }).rotTest kind u

/-- COMPARE_UNIT_STEP. -/
def State.cStep (s : State) : Nat := 4000 * max 1 (s.get F.STC_PACE1.CSTEP)
def execCompareUnitStep (s : State) : Out :=
  .next <|
    if s.rotReady 2 && s.stc.cmpu.wait.isNone then
      match s.stc.cmpu.retry with
      | some u => s.rotRetry 2 u s.cStep
      | none => s.rotStep 2 s.stc.cmpu.next s.cStep 128 true
    else s

/-- COMPARE_UNIT_HANDOVER: in the FCLK after the copy and 16 FCLK in which the units agreed, or after one in which they did not. -/
def execCompareUnitHandover (agree : Bool) (s : State) : Out :=
  .next <|
    match s.stc.cmpu.wait with
    | none => s
    | some k =>
      if s.stcOn then
        if agree then if s.stc.cmpu.stepT + 17 ≤ s.fclk then s.rotHand 2 k else s
        else (s.updRot 2 fun r => { r with wait := none, next := k }).rotLose 2 (s.get F.STC_STAT.CSPU) 4
      else s

/-- COMPARE_UNIT_TEST_DONE. -/
def execCompareUnitTestDone (res : TestRes) (s : State) : Out := .next (if s.stcOn then s.rotDone 2 2048 res else s)

/-! ### Edge timers (R437, R438) -/

/-- EDGE_TIMER_STEP: the next slot is served; a slot that has not become free within TSTEP gives way and is served again at the next
step. -/
def State.tStep (s : State) : Nat := 40000 * max 1 (s.get F.STC_PACE1.TSTEP)
def execEdgeTimerStep (s : State) : Out :=
  .next <|
    if s.rotReady 3 then
      let r := s.stc.etmr
      let p := s.tStep
      match r.retry, r.wait with
      | some u, none => s.rotRetry 3 u p
      | _, w =>
        let s := s.updRot 3 fun r => { r with again := r.again.drop 1 ++ w.toList }
        match r.again with
        | k :: _ => s.rotStep 3 k p 24 false
        | [] => s.rotStep 3 r.next p 24 true
    else s

/-- EDGE_TIMER_SLOT_FREE: the slot's timer holds no loaded edge. -/
def execEdgeTimerSlotFree (s : State) : Out :=
  .next <|
    match s.stc.etmr.wait with
    | none => s
    | some k => if s.stcOn && decide (s.timersBusy < 24) then s.rotHand 3 k else s

/-- EDGE_TIMER_TEST_DONE. -/
def execEdgeTimerTestDone (res : TestRes) (s : State) : Out := .next (if s.stcOn then s.rotDone 3 4096 res else s)

/-! ### Intervals, stops, pace -/

/-- Bounds of Table 20.1 in FCLK. -/
def stcBound (kind : Nat) : Nat :=
  match kind with | 0 => 400000000 | 1 => 4000000000 | 2 => 20000000 | 3 => 20000000 | _ => 80000000

/-- Completion times of kind `kind`; the comparators' stand with the ladder. -/
def State.stcTimes (s : State) (kind : Nat) : List (Nat × Nat) :=
  if kind = 4 then s.cmp.done else s.stc.done.filter fun e => e.1 / 100000 = kind

/-- TEST_INTERVAL_LATE (R440): some unit's last completion lies further back than its bound. Each interval is found once. -/
def execTestIntervalLate (kind : Fin 5) (s : State) : Out :=
  .next <|
    if s.stcOn then
      match (s.stcTimes kind).find? (fun e => decide (e.2 + stcBound kind < s.fclk)) with
      | none => s
      | some e =>
        let s := (s.evt F.STC_STAT.LATE).report 83 kind
        if kind.val = 4 then s.updCmp fun c => { c with done := cellDel e.1 c.done }
        else s.updStc fun x => { x with done := cellDel e.1 x.done }
    else s

/-- Tests of a rotation are cut short: at a block reset of the stitch unit, or at watch entry (R439). -/
def State.rotCut (s : State) (kind : Nat) : State :=
  let s := match (s.rot kind).wait with
    | some k => s.updRot kind fun r => if kind = 2 then { r with wait := none, next := k } else { r with wait := none, again := k :: r.again }
    | none => s
  s.rotDone kind 0 .incomplete

/-- Boot step 2 has ended: the tests begin (R429); after a wake the hall test starts at hall 0, region 0 (R439). -/
def State.stcStart (s : State) : State :=
  let f := s.fclk
  (s.setReg R.STC_MPOS 0).updStc fun x =>
    { x with hallT := f, passT := f, cmpu := { x.cmpu with nextT := f }, etmr := { x.etmr with nextT := f } }

/-- PACEOK: every pace field at or faster than its default (Table 20.4). -/
def State.paceOk (s : State) : Bool :=
  decide (s.get F.STC_PACE0.MINT ≤ 20) && decide (32 ≤ s.get F.STC_PACE0.NPPT) && decide (s.get F.STC_PACE1.CSTEP ≤ 32)
    && decide (s.get F.STC_PACE1.TSTEP ≤ 16) && decide (s.get F.STC_PACE1.WSTEP ≤ 8)

/-- STPACE applied, removed, checked (R442). -/
def State.paceSet (s : State) (a b : Nat) : State :=
  let s := (s.setReg R.STC_PACE0 (BitVec.ofNat 20 a)).setReg R.STC_PACE1 (BitVec.ofNat 20 b)
  s.setB F.STC_STAT.PACEOK s.paceOk
def State.paceApply (s : State) (b : List Byte) : State := s.paceSet (leAt b 0 4) (leAt b 4 4)
def State.paceRemove (s : State) : State := s.paceSet (resetOf R.STC_PACE0).toNat (resetOf R.STC_PACE1).toNat
def paceCheck (b : List Byte) : Bool :=
  b.length = 16 && decide (leAt b 0 4 < 2 ^ 18) && decide (leAt b 4 4 < 2 ^ 20) && leAt b 8 8 = 0

end Sys2Proof.Machine
end

