-- ==== Sys2Proof/Machine/Windows.lean ====
section
/-! DEFINITION. Window comparators: thresholds, modes, zones, and the reference-ladder rotation (R271 to R281). -/

namespace Sys2Proof.Machine

/-- Window `w` of the block. -/
def State.getWin (s : State) (w : Nat) : Win := vget s.cmp.win w Win.reset
def State.updWin (s : State) (w : Nat) (f : Win → Win) : State := s.updCmp fun c => { c with win := vupd c.win w f }

/-- The output of comparator `k`, and the zone of window `w` (Table 12.2). -/
def State.cmpOut (s : State) (k : Nat) : Bool := bitOf (s.get (F.CMP_OUT (k / 20))) (k % 20)
def zoneOf (lower upper : Bool) : Nat := match lower, upper with | false, false => 0 | true, false => 1 | true, true => 2 | false, true => 3
def State.zone (s : State) (w : Nat) : Nat := s.get (F.CMP_ZONE (w / 10)) / 4 ^ (w % 10) % 4

/-- Step and hysteresis of comparator `k` at its input, in µV (Table 12.1). A GND input has none of its own; it takes the ANA step. -/
def State.cmpScale (s : State) (k : Nat) : Nat :=
  match s.get (F.CMP_CFG.SEL k) with | 18 => 2 | 20 => 4 | _ => 1
def State.cmpStep (s : State) (k : Nat) : Nat := if k < 16 then 625 else 5000 * s.cmpScale k
def State.cmpHyst (s : State) (k : Nat) : Nat :=
  match s.get (F.CMP_CFG.HYST k) with
  | 0 => 0
  | 1 => if k < 16 then 1250 else 10000 * s.cmpScale k
  | 2 => if k < 16 then 3125 else 25000 * s.cmpScale k
  | _ => if k < 16 then 6250 else 50000 * s.cmpScale k

/-- The output of a unit in role `k` for an input of `uv` µV: high above U, low below U - H, else its last value (R272). A GND input
is at 0. -/
def State.cmpEvalFrom (s : State) (k : Nat) (last : Bool) (uv : Int) : Bool :=
  let v : Int := if 16 ≤ k && 21 ≤ s.get (F.CMP_CFG.SEL k) then 0 else uv
  let u : Int := s.get (F.CMP_CFG.THR k) * s.cmpStep k
  if u < v then true else if v < u - s.cmpHyst k then false else last
def State.cmpEval (s : State) (k : Nat) (uv : Int) : Bool := s.cmpEvalFrom k (s.cmpOut k) uv

/-- The zones before the first change of the present MGCLK are kept: a read of this MGCLK still returns them (R276). -/
def State.zoneNote (s : State) : State :=
  let z := (s.fclk, s.get (F.CMP_ZONE 0), s.get (F.CMP_ZONE 1))
  let up := s.islandUp .angle
  s.updCmp fun c => { c with zPrev := match c.zPrev with
    | some e => if !up then none else if s.sameClock (R.CMP_ZONE 0) e.1 then some e else some z
    | none => if up then some z else none }

/-- What a read of CMP_ZONE0 or CMP_ZONE1, which stands at `w`, returns: the old zones where it meets a change in its MGCLK (R276). -/
def State.zonesRead (s : State) (a w : Nat) : Nat :=
  match s.cmp.zPrev with
  | some e => if s.sameClock a e.1 then (if a = R.CMP_ZONE 0 then e.2.1 else e.2.2) else w
  | none => w

/-- The zone of window `w` follows its outputs; a change raises its event, its source and its level fault as selected (R277). The
level fault stands while the zone is not INSIDE (R405). -/
def State.zoneUpdate (s : State) (w : Nat) : State :=
  let z := zoneOf (s.cmpOut (2 * w)) (s.cmpOut (2 * w + 1))
  let old := s.zone w
  if z = old then s
  else
    let r := F.CMP_ZONE (w / 10)
    let s := s.zoneNote
    let s := s.set r (s.get r + z * 4 ^ (w % 10) - old * 4 ^ (w % 10))
    let ev := match s.get (F.CMP_WCFG.IRQ w) with | 0 => false | 1 => true | 2 => z ≠ 1 | _ => z = 1
    let s := if ev then (s.evtAt F.CMP_EVT w).raise (272 + w) else s
    let s := if s.bit (F.CMP_WCFG.PFLT w) && z ≠ 1 then s.standOn (32 + w) z else s
    s.standOff (32 + w) old

/-- An event of window `w` by its IRQ code, for a change of zone to `z`. -/
def State.winEvent (s : State) (w old z : Nat) : Bool :=
  z ≠ old && (match s.get (F.CMP_WCFG.IRQ w) with | 0 => false | 1 => true | 2 => z ≠ 1 | _ => z = 1)

/-- Both outputs of window `w` take levels. -/
def State.winOutputs (s : State) (w : Nat) (lo hi : Bool) : State :=
  ((s.setBitAt (F.CMP_OUT (2 * w / 20)) (2 * w % 20) lo).setBitAt (F.CMP_OUT ((2 * w + 1) / 20)) ((2 * w + 1) % 20) hi).zoneUpdate w

/-- The spare of a ladder step under way for role `r`: its output, as the role's unit would show it, and whether both agree (R279). -/
def State.ladderSpare (s : State) (r : Nat) (out : Bool) (sample : Bool) : State :=
  let f := s.fclk
  let same := decide (out = s.cmpOut r)
  let inTime := decide (f ≤ s.cmp.stepT + 400000)
  s.updCmp fun c => { c with step := match c.step with
    | some x =>
      if x.freed.isSome || x.role ≠ r then some x
      else some { x with spare := out, agree := if same then (match x.agree with | some a => some a | none => some f) else none,
                         samp := x.samp || (sample && same && inTime) }
    | none => none }

/-- The spare evaluates role `r`'s input of `uv` µV on its own last output. -/
def State.ladderInput (s : State) (r : Nat) (uv : Int) (sample : Bool) : State :=
  match s.cmp.step with
  | some x => if x.role = r && x.freed.isNone then s.ladderSpare r (s.cmpEvalFrom r x.spare uv) sample else s
  | none => s

/-- The mode in force becomes `m`: entering or leaving off makes both outputs low (R274, R278). -/
def State.winMode (s : State) (w m : Nat) : State :=
  let old := (s.getWin w).eff
  let s := s.updWin w fun x => { x with eff := m }
  if old = m then s
  else if old = 0 || m = 0 then (((s.updWin w fun x => { x with sample := false, due := false }).winOutputs w false false).ladderSpare (2 * w) false false).ladderSpare
      (2 * w + 1) false false else s

/-- A write of CMP_WCFGw: to sampled at the next tick, to continuous or off at once (R274); a cleared PFLT ends its fault. -/
def State.winWrite (s : State) (w : Nat) (src : Master) (v : Word) : State :=
  let s := s.writeCodes src (R.CMP_WCFG w) v
  let m := s.get (F.CMP_WCFG.MODE w) % 3
  let s := if s.bit (F.CMP_WCFG.PFLT w) then s else s.standOff (32 + w) (s.zone w)
  if m = 2 then s else s.winMode w m

/-- WINDOW_MODE_WRITE. -/
def execWindowModeWrite (w : Fin 12) (src : Master) (v : Word) (s : State) : Out :=
  .next (if s.islandUp .management then s.winWrite w src v else s)

/-- A write of CMP_CFGk. SEL belongs to CMP16 to CMP23, and to INJ while the window's EOI is 1 (R273). -/
def State.cmpWrite (s : State) (k : Nat) (src : Master) (v : Word) : State :=
  let sel := s.get (F.CMP_CFG.SEL k)
  let s := s.writeCodes src (R.CMP_CFG k) v
  if k < 16 || (k % 2 = 0 && s.bit (F.CMP_WCFG.EOI (k / 2))) then s.set (F.CMP_CFG.SEL k) sel else s

/-- COMPARATOR_CONFIG_WRITE (R272). -/
def execComparatorConfigWrite (k : Fin 24) (src : Master) (v : Word) (s : State) : Out :=
  .next (if s.islandUp .management then s.cmpWrite k src v else s)

/-- COMPARATOR_SWITCH: a continuous comparator's input stands at `uv` µV (R272, R276). -/
def execComparatorSwitch (k : Fin 24) (uv : Int) (s : State) : Out :=
  .next <|
    if s.islandUp .management && !s.pcr.watch && (s.getWin (k.val / 2)).eff = 1 then
      ((s.setBitAt (F.CMP_OUT (k.val / 20)) (k.val % 20) (s.cmpEval k uv)).zoneUpdate (k.val / 2)).ladderInput k uv false
    else s

/-- A sample of window `w` begins. -/
def State.winSample (s : State) (w : Nat) : State := let f := s.fclk; s.updWin w fun x => { x with sample := true, sampT := f }

/-- WINDOW_SAMPLE_TICK: the window's tick starts a sample; one that comes during a sample is ignored, and the first tick after a write
of MODE 2 makes the mode sampled (R274, R275). -/
def execWindowSampleTick (w : Fin 12) (s : State) : Out :=
  .next <|
    let x := s.getWin w
    if s.islandUp .management && x.due then
      let s := s.updWin w fun x => { x with due := false }
      if s.pcr.watch then (if s.bit (F.CMP_WCFG.WATCH w) then s.winSample w else s)
      else
        let s := if s.get (F.CMP_WCFG.MODE w) = 2 then s.winMode w 2 else s
        if (s.getWin w).eff = 2 && !(s.getWin w).sample then s.winSample w else s
    else s

/-- The sample of window `w` is latched, 2 µs after its beginning (in watch mode the angle island's clock stands still), with inputs
`lo` and `hi` in µV (R274). The truth value says that the window's event wakes the part (R277, Table 3.5). -/
def State.winLatch (s : State) (w : Nat) (lo hi : Int) : State × Bool :=
  if s.islandUp .management && (s.getWin w).sample && (s.pcr.watch || decide ((s.getWin w).sampT + 800 ≤ s.fclk)) then
    let old := s.zone w
    let a := s.cmpEval (2 * w) lo
    let b := s.cmpEval (2 * w + 1) hi
    let s := ((s.updWin w fun x => { x with sample := false }).winOutputs w a b).ladderInput (2 * w) lo true
    let s := s.ladderInput (2 * w + 1) hi true
    (s, s.pcr.watch && s.bit (F.CMP_WCFG.WAKE w) && s.winEvent w old (s.zone w))
  else (s, false)

/-! ### Reference-ladder rotation (R279, R429, R438) -/

/-- A step's pace in FCLK: WSTEP ms, 0 and 1 acting as 2. -/
def State.wStep (s : State) : Nat := 400000 * max 2 (s.get F.STC_PACE1.WSTEP)

/-- LADDER_STEP_START: the spare takes the next role's input and settings, on which its own output comes up at `lvl`: the model holds no
input voltage. A step after a test that was cut short makes that test again, and serves no role (R439). -/
def execLadderStepStart (lvl : Bool) (s : State) : Out :=
  .next <|
    if s.running && s.cmp.cut && decide (s.cmp.stepT + s.wStep ≤ s.fclk) then
      let f := s.fclk
      s.updCmp fun c => { c with cut := false, stepT := f, freedT := f }
    else if s.running && s.cmp.step.isNone && s.bit F.STC_STAT.WSPARE && decide (s.cmp.stepT + s.wStep ≤ s.fclk) then
      let r := s.cmp.nextRole
      let f := s.fclk
      let out := lvl && (s.getWin (r / 2)).eff ≠ 0
      let same := decide (out = s.cmpOut r)
      (s.set F.CMP_CHK.ROLE r).updCmp fun c => { c with step := some ⟨r, none, out, if same then some f else none, false⟩, stepT := f }
    else s

/-- Consumers take the spare's output; the unit that held the role is freed. -/
def State.ladderHand (s : State) (r : Nat) : State :=
  let sp := s.get F.CMP_CHK.SPARE
  let old := vget s.cmp.unit r 0
  let f := s.fclk
  s.updCmp fun c => { c with unit := vupd c.unit r fun _ => sp, step := some ⟨r, some old, false, none, false⟩, freedT := f }

/-- Within 1 ms of the step's start, a sample has come at which both outputs agree, or, of a window that is not sampled, a run of 1 µs in
which they agreed has ended (R279). -/
def State.ladderAgreed (s : State) (x : LadderStep) : Bool :=
  if (s.getWin (x.role / 2)).eff = 2 then x.samp
  else match x.agree with
    | some a => decide (a + 400 ≤ min s.fclk (s.cmp.stepT + 400000))
    | none => false

/-- LADDER_HANDOVER: both outputs have agreed for 1 µs, or at a sample. -/
def execLadderHandover (s : State) : Out :=
  .next <|
    match s.cmp.step with
    | some x => if s.running && x.freed.isNone && s.ladderAgreed x then s.ladderHand x.role else s
    | none => s

/-- LADDER_HANDOVER_FORCED: no agreement within 1 ms; the output takes the spare's level. -/
def execLadderHandoverForced (s : State) : Out :=
  .next <|
    match s.cmp.step with
    | some x =>
      if s.running && x.freed.isNone && decide (s.cmp.stepT + 400000 ≤ s.fclk) && !s.ladderAgreed x then
        let r := x.role
        let s := (s.ladderHand r).inc F.CMP_CHKCNT.FORCED
        (s.setBitAt (F.CMP_OUT (r / 20)) (r % 20) x.spare).zoneUpdate (r / 2)
      else s
    | none => s

/-- LADDER_TEST_DONE: the freed unit becomes the spare, or is kept out of service at the ladder point where it failed. The test takes
160 µs. -/
def execLadderTestDone (fail : Option (Fin 8)) (s : State) : Out :=
  .next <|
    match s.cmp.step with
    | some ⟨r, some u, _, _, _⟩ =>
      if s.running && !s.cmp.cut && decide (s.cmp.freedT + 64000 ≤ s.fclk) then
        let f := s.fclk
        let s := s.updStc fun x => { x with inc := vupd x.inc 4 fun _ => 0 }
        let s := (s.incW F.CMP_CHKCNT.STEPS).updCmp fun c =>
          { c with step := none, nextRole := (r + 1) % 24, done := cellIns u f (cellDel u c.done) }
        match fail with
        | none => s.set F.CMP_CHK.SPARE u
        | some p =>
          let s := ((s.set F.CMP_CHK.FROLE r).set F.CMP_CHK.FPOINT p).evt F.CMP_CHK.FAIL
          let s := (s.updCmp fun c => { c with noSpare := true }).set F.STC_STAT.WSPARE 0
          (s.report 44 r).report 85 4
      else s
    | _ => s

end Sys2Proof.Machine
end

