-- ==== Sys2Proof/Machine/Sections.lean ====
section
/-! DEFINITION. Image sections: the payload checks of WHEEL, STITCH, ROUTE, INJ, BED, WIN, HALL, REGS and LIMIT and what each section
sets when it is applied, and the SEMANTIC check of a whole image (R75 to R78, R84 step 10, and the chapters Table 4.5 names). -/

namespace Sys2Proof.Machine

/-! ### Sections and register images -/

/-- The payload of the section of type `t` and target `g`; targets are 0xFFFF for a whole-device section. -/
def sectGet (l : List Sect) (t g : Nat) : Option (List Byte) := (l.find? fun x => x.typ = t && x.tgt = g).map (·.data)
def sectBytes (l : List Sect) (t g : Nat) : List Byte := (sectGet l t g).getD []
def sectAll (l : List Sect) (t : Nat) : List (Nat × List Byte) := (l.filter fun x => x.typ = t).map fun x => (x.tgt, x.data)

/-- The bits of a register that its field table lists. -/
def listedMask (a : Nat) : Nat := (fieldsOf a).foldl (fun m f => m ||| fldMask f) 0

/-- The four-byte image of the register at `a` at offset `o`: no reserved bit set, [31:20] zero (R75). -/
def imgOk (b : List Byte) (o a : Nat) : Bool :=
  let v := leAt b o 4
  decide (v < 1048576) && v &&& (0xFFFFF ^^^ listedMask a) = 0
def imgSet (s : State) (b : List Byte) (o a : Nat) : State := s.setReg a (BitVec.ofNat 20 (leAt b o 4))

/-- No two elements are equal. -/
def distinct (l : List Nat) : Bool := l.eraseDups.length = l.length

/-! ### WHEEL (R101 to R104) -/

def whNt (b : List Byte) : Nat := leAt b 0 2
def whFl (b : List Byte) : Nat := leAt b 2 1
def whOrg (b : List Byte) : Nat := leAt b 3 1
def whCfg (b : List Byte) : Nat := leAt b 8 4
def whRole (b : List Byte) : Nat := whCfg b % 4
def whTpt (b : List Byte) : Nat := whCfg b / 128 % 16
/-- Bytes `o` on of entry `k`. -/
def whEnt (b : List Byte) (k o n : Nat) : Nat := leAt b (32 + 8 * k + o) n
def whSpan (b : List Byte) (k : Nat) : Nat := whEnt b k 0 2 % 4096
def whLand (b : List Byte) (k : Nat) : Bool := bitOf (whEnt b k 0 2) 12
def whWovr (b : List Byte) (k : Nat) : Bool := bitOf (whEnt b k 0 2) 13
def whMin (b : List Byte) (k : Nat) : Nat := if whWovr b k then whEnt b k 2 1 else leAt b 16 1
def whMax (b : List Byte) (k : Nat) : Nat := if whWovr b k then whEnt b k 3 1 else leAt b 17 1
/-- Sum of the spans, and L (R102). -/
def whSum (b : List Byte) : Nat := ((List.range (whNt b)).map (whSpan b)).sum
def whLen (b : List Byte) : Nat := whFl b * (2 ^ whTpt b * whSum b / 16)
/-- Tooth positions of a cycle: L / TPT, and those of the teeth (R102). -/
def whNpos (b : List Byte) : Nat := whLen b / 2 ^ whTpt b
def whTeeth (b : List Byte) : List Nat :=
  let nt := whNt b
  let acc := (List.range nt).foldl (fun (a : List Nat × Nat) i => (a.1 ++ [a.2], a.2 + whSpan b ((whOrg b + i) % nt))) ([], 0)
  (List.range (whFl b)).flatMap fun f => acc.1.map fun x => 2 ^ whTpt b * (x + f * whSum b) / 16 / 2 ^ whTpt b

/-- The checks of R104 and R75 on the WHEEL section of tracker `n`, given the roles that the image gives the trackers. -/
def wheelCheck (b : List Byte) (n : Nat) (role : Nat → Nat) : Bool :=
  let nt := whNt b
  let c := whCfg b
  let es := List.range 256
  let images := imgOk b 8 (R.STAIR_CFG n) && imgOk b 12 (R.STAIR_CFG2 n) && imgOk b 16 (R.STAIR_WIN n) && imgOk b 20 (R.STAIR_FILT n)
    && imgOk b 24 (R.STAIR_STALL n) && imgOk b 28 (R.STAIR_VR n)
  let phase := nt = 1 && whFl b = 1 && leAt b 3 3 = 0 && es.all (fun k => whEnt b k 0 8 = 0) && leAt b 12 4 = 0 && leAt b 16 4 = 0
    && leAt b 24 4 = 0 && c / 128 = 0
  let ph := c / 2 ^ 18 % 4 % 3
  let cam := leAt b 12 4 % 4
  let tree := decide (1 ≤ nt) && decide (nt ≤ 256) && (whFl b = 1 || whFl b = 2) && decide (whOrg b < nt)
    && decide (4 ≤ whTpt b) && decide (whTpt b ≤ 12) && decide (whLen b ≤ 1048576)
    && es.all (fun k => if k < nt then whSpan b k ≠ 0 && !bitOf (whEnt b k 0 2) 15 && whEnt b k 6 2 = 0 else whEnt b k 0 8 = 0)
    && (whRole b ≠ 1 || ((List.range nt).filter (whLand b)).length = 1)
    && (List.range nt).all (fun k =>
        let p := (k + (nt - 1)) % nt
        !whLand b k || decide (whMax b p * whSpan b p ≤ whMin b k * whSpan b k))
    && (whFl b ≠ 2 || ph = 0 || leAt b 4 1 ≠ leAt b 5 1) && (ph = 0 || (cam ≠ n && role cam = 2))
    && !(c / 2 ^ 14 % 4 = 1 && !bitOf c 2)
  b.length = 2080 && leAt b 6 2 = 0 && images && whRole b ≠ 0 && (if whRole b = 2 then phase else tree)

/-- WHEEL applied to tracker `n`: a Phase section sets the input alone; otherwise the registers, the table, and for a Main tracker the
geometry record (R103, R104, R140, R149). -/
def State.wheelApply (s : State) (n : Nat) (b dig : List Byte) : State :=
  let s := imgSet (imgSet (imgSet s b 8 (R.STAIR_CFG n)) b 20 (R.STAIR_FILT n)) b 28 (R.STAIR_VR n)
  if whRole b = 2 then s
  else
    let nt := whNt b
    let s := imgSet (imgSet (imgSet s b 12 (R.STAIR_CFG2 n)) b 16 (R.STAIR_WIN n)) b 24 (R.STAIR_STALL n)
    let s := ((s.set (F.STAIR_GEOM.NTM1 n) (nt - 1)).set (F.STAIR_GEOM.FL2 n) (whFl b - 1)).set (F.STAIR_GEOM.ORIGIN n) (whOrg b)
    let s := s.setReg (R.STAIR_PHASE n) (BitVec.ofNat 20 (leAt b 4 2))
    let s := s.setReg (R.STAIR_LEN n) (BitVec.ofNat 20 (whLen b - 1))
    let s := s.each (List.range 256) fun s k =>
      (s.setReg (R.STAIR_TTA n k) (BitVec.ofNat 20 (whEnt b k 0 2))).setReg (R.STAIR_TTB n k) (BitVec.ofNat 20 (whEnt b k 2 2))
    let g := (List.range 256).filterMap fun k => let v := whEnt b k 4 2; if v = 0 then none else some (k, v)
    let s := s.updTrk n fun t => { t with tptLog := whTpt b, imgTptLog := whTpt b, geo0 := g, dig := dig, tpl := [] }
    if whRole b = 1 then s.geoLoad n nt dig else s

/-! ### STITCH and ROUTE (R174, R176) -/

def stitchCheck (b : List Byte) (role len : Nat → Nat) : Bool :=
  b.length = 4096 && (List.range 128).all fun n =>
    let o := 32 * n
    let a := leAt b o 1
    let t := a / 2 % 4
    decide (a < 8) && leAt b (o + 1) 3 = 0 && decide (leAt b (o + 4) 4 < 1048576)
      && (List.range 6).all (fun i => imgOk b (o + 8 + 4 * i) (R.STITCH_CTRL n + i))
      && (if bitOf a 0 then (role t = 1 || role t = 3) && decide (leAt b (o + 4) 4 < len t) else !bitOf (leAt b (o + 8) 1) 0)

def State.stitchApply (s : State) (b : List Byte) : State :=
  s.each (List.range 128) fun s n =>
    let w := fun i => leAt b (32 * n + 8 + 4 * i) 4
    let p : PSet := ⟨w 0, w 1, w 2, w 3, w 4, w 5⟩
    let s := (s.setReg (R.SU_ALLOC n) (BitVec.ofNat 20 (leAt b (32 * n) 1))).setReg (R.SU_PLAN n) (BitVec.ofNat 20 (leAt b (32 * n + 4) 4))
    s.updSt n fun t => { t with setA := p, setB := p }

/-- Consumers of a ROUTE class (Table 7.7). -/
def routeTop (c : Nat) : Nat := match c with | 0 => 24 | 1 => 128 | 2 => 64 | 3 => 32 | 4 => 16 | 5 => 16 | _ => 0
def routeEnts (b : List Byte) : List (Nat × Nat × Nat × Nat) :=
  (List.range (b.length / 4)).map fun i => (leAt b (4 * i) 1, leAt b (4 * i + 1) 1, leAt b (4 * i + 2) 1, leAt b (4 * i + 3) 1)
def routeCheck (b : List Byte) : Bool :=
  b.length % 4 = 0 && decide (b.length ≤ 1024)
    && (routeEnts b).all (fun e => decide (e.2.1 < routeTop e.1) && decide (e.2.2.1 < 64) && decide (e.2.2.2 ≤ if e.1 = 0 then 1 else 0))
    && distinct ((routeEnts b).map fun e => 256 * e.1 + e.2.1)

/-- ROUTE applied, for the consumers that `keep` names. -/
def State.routeApply (s : State) (b : List Byte) (keep : Nat → Nat → Bool) : State :=
  s.each (routeEnts b) fun s e =>
    if !keep e.1 e.2.1 then s
    else if e.1 = 0 then
      ((s.set (F.EO_CFG.LINE e.2.1) e.2.2.1).set (F.EO_CFG.SRC e.2.1) 0).set (F.EO_CFG.INV e.2.1) e.2.2.2
    else
      let k := 256 * e.1 + e.2.1
      { s with routes := cellIns k e.2.2.1 (cellDel k s.routes) }

/-! ### WIN and INJ (R197, R280) -/

def winMode0 (b : List Byte) (w : Nat) : Nat := leAt b (96 + 4 * w) 4 % 4
def winSectCheck (b : List Byte) : Bool :=
  b.length = 160 && leAt b 144 16 = 0
    && (List.range 24).all (fun k => imgOk b (4 * k) (R.CMP_CFG k) && (16 ≤ k || leAt b (4 * k) 4 / 4096 = 0))
    && (List.range 12).all fun w =>
      let v := leAt b (96 + 4 * w) 4
      imgOk b (96 + 4 * w) (R.CMP_WCFG w) && (!bitOf v 10 || (bitOf v 9 && v / 128 % 4 ≠ 0))
        && (!bitOf v 12 || (decide (8 ≤ w) && v % 4 = 1))

/-- The windows go to their modes: continuous at once, sampled at the next tick (R274). -/
def State.winSettle (s : State) : State :=
  s.each (List.range 12) fun s w => let m := s.get (F.CMP_WCFG.MODE w) % 3; if m = 2 then s else s.winMode w m
def State.winApply (s : State) (b : List Byte) : State :=
  let s := s.each (List.range 24) fun s k => imgSet s b (4 * k) (R.CMP_CFG k)
  s.each (List.range 12) fun s w => imgSet s b (96 + 4 * w) (R.CMP_WCFG w)

/-- Input and output binding `k` of needle `m` in a BED section. -/
def bedIn (b : List Byte) (m k : Nat) : Nat := leAt b (272 + 48 * m + 16 + k) 1
def bedOut (b : List Byte) (m k : Nat) : Nat := leAt b (272 + 48 * m + 24 + k) 1

/-- Bank `b` is bound as Table 8.5 gives. -/
def bankBound (bed : List Byte) (b : Nat) : Bool :=
  (List.range 3).map (bedOut bed b) = [0x80, 0x81, 0x82]
    && (List.range 5).map (bedIn bed b) = [0x80, 0x40 + 4 * b, 0x41 + 4 * b, 0x42 + 4 * b, 0x81]

def injCheck (p : List Byte) (bed3 win route : Option (List Byte)) : Bool :=
  let en := fun n => bitOf (leAt p (128 + 8 * n) 1) 0
  let regs := fun b => [R.INJ_BCFG b, R.INJ_BTIM b, R.INJ_BDIAG b, R.INJ_BOPD b, R.INJ_BEOI b]
  let mode := fun w => match win with | some x => winMode0 x w | none => 0
  let other := fun w => match win with
    | some x => let v := leAt x (96 + 4 * w) 4; !bitOf v 12 && (v % 4 % 3 ≠ 0 || bitOf v 9)
    | none => false
  p.length = 256
    && (List.range 4).all (fun b =>
        (regs b).zipIdx.all (fun r => imgOk p (32 * b + 4 * r.2) r.1) && leAt p (32 * b + 20) 12 = 0
          && (if bitOf (leAt p (32 * b) 1) 0 then
                (match bed3 with | some x => bankBound x b | none => false) && mode (2 * b) = 1 && mode (2 * b + 1) = 1
              else (List.range 4).all fun i => !en (4 * b + i))
          && (!bitOf (leAt p (32 * b) 4) 9 || !other (8 + b)))
    && (List.range 16).all (fun n => imgOk p (128 + 8 * n) (R.INJ_CFG n) && leAt p (132 + 8 * n) 4 = 0)
    && (match route with | some r => (routeEnts r).all fun e => e.1 ≠ 1 || en (e.2.1 / 8) | none => true)

def State.injApply (s : State) (p : List Byte) : State :=
  let s := s.each (List.range 4) fun s b =>
    imgSet (imgSet (imgSet (imgSet (imgSet s p (32 * b) (R.INJ_BCFG b)) p (32 * b + 4) (R.INJ_BTIM b)) p (32 * b + 8) (R.INJ_BDIAG b))
      p (32 * b + 12) (R.INJ_BOPD b)) p (32 * b + 16) (R.INJ_BEOI b)
  s.each (List.range 16) fun s n => imgSet s p (128 + 8 * n) (R.INJ_CFG n)

/-! ### BED (R250 to R269) -/

/-- A program word that an image may hold (R250, R251, R257, R269). -/
def needleWordOk (w : Nat) : Bool :=
  let z := fun lo n => w / 2 ^ lo % 2 ^ n = 0
  w = 0 || (decide (w < 1048576) && match w / 65536 with
    | 1 => true
    | 2 => z 7 3
    | 3 => (let c := w / 8192 % 8; c = 1 || c = 2 || z 10 3)
    | 4 => z 10 3 && decide (w / 16 % 64 < match w / 8192 % 4 with | 0 => 8 | 1 => 8 | 2 => 32 | _ => 16)
    | 5 => z 9 4
    | 6 => if bitOf w 15 then z 12 2 else z 9 3
    | 7 => z 4 11
    | 8 => z 4 11
    | 9 => z 8 6
    | _ => false)

/-- A binding byte of bed `b` (Table 11.5). -/
def bindOk (b x : Nat) (out : Bool) : Bool :=
  let i := x % 32
  match x / 32 with
  | 0 => i = 0
  | 1 => true
  | 2 => !out && decide (i < 24)
  | 3 => !out && decide (i < 8)
  | 4 => b = 3 && decide (i < if out then 3 else 2)
  | _ => false

def bedCheck (p : List Byte) (b : Nat) : Bool :=
  let div := leAt p 0 1
  p.length = 464 && (if b = 0 then decide (2 ≤ div) && decide (div ≤ 64) else div = 0) && leAt p 1 15 = 0
    && (List.range 64).all (fun k => needleWordOk (leAt p (16 + 4 * k) 4))
    && (List.range 4).all fun m =>
      let o := 272 + 48 * m
      let ins := (List.range 8).map (bedIn p m)
      let outs := (List.range 8).map (bedOut p m)
      imgOk p o (R.BED_NCFG (4 * b + m)) && imgOk p (o + 4) (R.BED_NSTO (4 * b + m)) && decide (leAt p (o + 8) 1 < 64)
        && decide (leAt p (o + 9) 1 ≤ 1) && leAt p (o + 10) 6 = 0 && leAt p (o + 40) 8 = 0
        && ins.all (bindOk b · false) && outs.all (bindOk b · true) && (List.range 8).all (fun k => decide (leAt p (o + 32 + k) 1 < 16))
        && (!(ins ++ outs).any (fun x => x / 32 = 4) || leAt p o 4 % 4096 = 0)

/-- NP pins that the needles of an image drive, each once per needle. -/
def bedPins (l : List Sect) : List Nat :=
  (sectAll l 0x40).flatMap fun e => (List.range 4).flatMap fun m =>
    (((List.range 8).map (bedOut e.2 m)).filter fun x => x / 32 = 1).eraseDups

/-- A BED section: bed 0's sets NCLKDIV, which its 6-bit register shows modulo 64 (R248, R269, R270; assumption 69). -/
def State.bedApply (s : State) (b : Nat) (p : List Byte) : State :=
  let s := if b = 0 then (s.setReg R.BED0_NCLK (BitVec.ofNat 20 (leAt p 0 1 % 64))).nclkDiv (leAt p 0 1) else s
  let s := s.each (List.range 64) fun s k => imgSet s p (16 + 4 * k) (R.BED_PS b k)
  s.each (List.range 4) fun s j =>
    let o := 272 + 48 * j
    let m := 4 * b + j
    let s := imgSet (imgSet s p o (R.BED_NCFG m)) p (o + 4) (R.BED_NSTO m)
    let s := s.each (List.range 8) fun s k =>
      let at_ := leAt p (o + 32 + k) 1
      (s.setReg (R.BED_BIND m k) (BitVec.ofNat 20 (bedIn p j k))).setReg (R.BED_BIND m (8 + k))
        (BitVec.ofNat 20 (bedOut p j k + at_ % 4 * 256 + at_ / 4 % 4 * 1024))
    let s := s.updWvl fun w => { w with npSafe := (List.range 8).foldl (fun l k =>
      let x := bedOut p j k
      if x / 32 = 1 then cellIns (x % 32) (leAt p (o + 32 + k) 1 / 4 % 4) (cellDel (x % 32) l) else l) w.npSafe }
    s.ndlInit m (leAt p (o + 8) 1)

/-- The needles of bed `b` marked AUTOSTART start (R262). -/
def State.bedAuto (s : State) (b : Nat) (p : List Byte) : State :=
  s.each (List.range 4) fun s j => if leAt p (272 + 48 * j + 9) 1 % 2 = 1 then s.ndlStart (4 * b + j) else s

/-! ### HALL (R308) -/

def hallOwner (b : List Byte) (h : Nat) : Nat := leAt b (4 * h) 1
def hallCheck (b : List Byte) : Bool :=
  b.length = 96 && leAt b 68 28 = 0 && imgOk b 64 R.HAL_CFG
    && (List.range 16).all fun h =>
      let o := hallOwner b h
      let f := leAt b (4 * h + 1) 1
      (if h = 15 then o = 10 else decide (o < 10)) && decide (f < 4) && leAt b (4 * h + 2) 2 = 0 && (bitOf f 1 || o = 0)
def State.hallApply (s : State) (b : List Byte) : State :=
  let s := s.each (List.range 16) fun s h =>
    let f := leAt b (4 * h + 1) 1
    ((s.set (F.HAL_OWN.OWNER h) (hallOwner b h)).set (F.HAL_OWN.LOCKOWN h) (f % 2)).set (F.HAL_OWN.PWR h) (f / 2 % 2)
  imgSet s b 64 R.HAL_CFG

/-! ### REGS and LIMIT (R77, R78) -/

def regsEnts (b : List Byte) : List (Nat × Nat) := (List.range (b.length / 8)).map fun i => (leAt b (8 * i) 2, leAt b (8 * i + 4) 4)

/-- A RW or WL field of a REGS value lies in its stated range and set of codes (R75); codes that the manual gives an effect pass, and
TPTLOG 0 of a tracker that is Off or Phase. -/
def regsValue (a v : Nat) : Bool :=
  let stair := decide (0x1000 ≤ a) && decide (a < 0x2000)
  let o := a % 0x400
  if stair && o = 0x000 then (v % 2 = 0 && v / 128 % 16 = 0) || (decide (4 ≤ v / 128 % 16) && decide (v / 128 % 16 ≤ 12))
  else if stair && o = 0x013 then decide (1 ≤ v % 64) && decide (v % 64 ≤ 62) && bitOf v 11
  else if stair && o = 0x014 then bitOf v 4
  else if a = R.GAU_ACFG 0 || a = R.GAU_ACFG 1 then decide (1 ≤ v / 4096 % 64) && decide (v / 4096 % 64 ≤ 62)
  else if decide (R.HAL_OWN 0 ≤ a) && decide (a < R.HAL_OWN 15) then decide (v % 16 < 10)
  else if a = R.HAL_OWN 15 then v % 16 = 10
  else true

/-- Addresses that REGS may not name. -/
def regsBarred (a : Nat) : Bool :=
  (decide (0x800 ≤ a) && decide (a < 0x1000)) || (decide (0x6800 ≤ a) && decide (a < 0x7800)) || a = R.PCR_BRST || a = R.PCR_MODE
    || (rowOf a).isNone
def regsCheck (b : List Byte) : Bool :=
  b.length % 8 = 0 && (List.range (b.length / 8)).all (fun i => leAt b (8 * i + 2) 2 = 0)
    && (regsEnts b).all fun e => !regsBarred e.1 && decide (e.2 < 1048576) && regsValue e.1 e.2

def limitEnts (b : List Byte) : List Limit :=
  (List.range (b.length / 16)).map fun i =>
    ⟨leAt b (16 * i) 2, bitOf (leAt b (16 * i + 2) 2) 0, leAt b (16 * i + 4) 4, leAt b (16 * i + 8) 4, leAt b (16 * i + 12) 4⟩
def limitCheck (b : List Byte) : Bool :=
  b.length % 16 = 0 && distinct ((limitEnts b).map (·.addr))
    && (List.range (b.length / 16)).all (fun i => decide (leAt b (16 * i + 2) 2 ≤ 1))
    && (limitEnts b).all fun e => accMask e.addr .wl ≠ 0 && decide (e.mask < 1048576) && decide (e.min < 1048576) && decide (e.max < 1048576)

/-- Without an INJ section every injector keeps EN 0 (R76) unless a REGS entry sets it, so a ROUTE entry of CLASS 1 names one with EN 0
(R197). -/
def injAbsent (regs : List (Nat × Nat)) (route : List Byte) : Bool :=
  let en := fun n => match (regs.filter fun e => e.1 = R.INJ_CFG n).getLast? with | some e => bitOf e.2 0 | none => false
  (routeEnts route).all fun e => e.1 ≠ 1 || en (e.2.1 / 8)

/-! ### The SEMANTIC check of an image -/

/-- Highest TARGET of a type, none for a whole-device section; and whether Table 4.5 marks the type HOT. -/
def sectTop (t : Nat) : Option (Option Nat) :=
  match t with
  | 0x10 => some (some 3) | 0x40 => some (some 3) | 0x50 => some (some 63) | 0x51 => some (some 63) | 0x59 => some (some 1)
  | 0x68 => some (some 15)
  | 0x01 => some none | 0x02 => some none | 0x20 => some none | 0x21 => some none | 0x30 => some none | 0x52 => some none
  | 0x58 => some none | 0x60 => some none | 0x70 => some none | 0x78 => some none | 0x79 => some none | 0x80 => some none
  | 0x81 => some none | 0x88 => some none | 0x89 => some none
  | _ => none
def sectHot (t : Nat) : Bool := [0x50, 0x51, 0x58, 0x59, 0x68, 0x88, 0x89].contains t

/-- Type, target and HOT of a section (R75). -/
def sectForm (x : Sect) : Bool :=
  (match sectTop x.typ with | some (some n) => decide (x.tgt ≤ n) | some none => x.tgt = 0xFFFF | none => false)
    && (!x.hot || sectHot x.typ)

/-- Places that a section takes in the halls: first byte and length. -/
def chartPlace (b : List Byte) : Nat × Nat := (524288 * leAt b 0 1 + leAt b 4 4, leAt b 8 4)
def awoPlace (b : List Byte) : Option (Nat × Nat) := if leAt b 0 1 = 0xFF then none else some (524288 * leAt b 0 1 + leAt b 4 4, 2048)
def hookPlace (b : List Byte) : Nat × Nat := (524288 * leAt b 0 1 + leAt b 4 4, 16 * leAt b 8 4)
def places (l : List Sect) : List (Nat × Nat) :=
  (sectAll l 0x50).map (fun e => chartPlace e.2) ++ (sectAll l 0x59).filterMap (fun e => awoPlace e.2)
    ++ (sectAll l 0x68).map fun e => hookPlace e.2
def meet (a b : Nat × Nat) : Bool := decide (a.1 < b.1 + b.2) && decide (b.1 < a.1 + a.2)
def disjoint : List (Nat × Nat) → Bool
  | [] => true
  | p :: t => !t.any (meet p) && disjoint t

/-- Role and L of a tracker, and whether it is Main or Remote, in an image. -/
def imgRole (l : List Sect) (n : Nat) : Nat := match sectGet l 0x10 n with | some b => whRole b | none => 0
def imgLen (l : List Sect) (n : Nat) : Nat := match sectGet l 0x10 n with | some b => whLen b | none => 0
def imgTree (l : List Sect) (n : Nat) : Bool := imgRole l n = 1 || imgRole l n = 3
def imgTooth (l : List Sect) (n p : Nat) : Bool := (whTeeth (sectBytes l 0x10 n)).contains p

/-- NSEG when the apply ends: of the GAUGE section, else what the last REGS entry leaves in GAU_CFG, else the reset value (R200). -/
def imgNseg (l : List Sect) : Nat :=
  let w := match sectGet l 0x58 0xFFFF with
    | some b => leAt b 0 4
    | none => match ((regsEnts (sectBytes l 0x01 0xFFFF)).filter fun e => e.1 = R.GAU_CFG).getLast? with
      | some e => e.2
      | none => (resetOf R.GAU_CFG).toNat
  w / 8 % 16 + 1

/-- The check of one section among the sections of its image. -/
def sectCheck (l : List Sect) (x : Sect) : Bool :=
  let b := x.data
  let hall := sectBytes l 0x60 0xFFFF
  let chart := fun c => (sectGet l 0x50 c).isSome
  match x.typ with
  | 0x01 => regsCheck b
  | 0x02 => limitCheck b
  | 0x10 => wheelCheck b x.tgt (imgRole l)
  | 0x20 => stitchCheck b (imgRole l) (imgLen l)
  | 0x21 => routeCheck b
  | 0x30 => injCheck b (sectGet l 0x40 3) (sectGet l 0x70 0xFFFF) (sectGet l 0x21 0xFFFF)
  | 0x40 => bedCheck b x.tgt
  | 0x50 => chartCheck b && hallOwner hall (leAt b 0 1) = 4
  | 0x51 =>
    let q := sectGet l 0x52 0xFFFF
    recipeCheck b (fun i => match q with | some m => leAt m (8 * i) 1 | none => 0) chart
      (fun n => bitOf (leAt (sectBytes l 0x20 0xFFFF) (32 * n) 1) 0) (fun p t => imgTree l t && decide (p < whNpos (sectBytes l 0x10 t)))
  | 0x52 => qvmapCheck b (imgNseg l)
  | 0x58 => gaugeCheck b (fun t => imgRole l t = 1) (fun t => whNpos (sectBytes l 0x10 t)) (imgTooth l) chart
  | 0x59 => awoCheck b (imgTree l) (imgLen l) && (leAt b 0 1 = 0xFF || hallOwner hall (leAt b 0 1) = 5)
  | 0x60 => hallCheck b
  | 0x68 =>
    let bed := leAt b 12 4 / 2048 % 8
    let o := hallOwner hall (leAt b 0 1)
    hookCheck b && (o = 3 || (decide (1 ≤ bed) && decide (bed ≤ 4) && o = 5 + bed))
  | 0x70 => winSectCheck b
  | 0x78 => galCheck b
  | 0x79 => linkCheck b
  | 0x80 => porterCheck b (sectGet l 0x81 0xFFFF).isSome
  | 0x81 => safetyCheck b
  | 0x88 => budgetCheck b
  | 0x89 => paceCheck b
  | _ => false

/-- R75 to R78 and every limit of the chapters (R84 step 10). -/
def semanticOk (l : List Sect) : Bool :=
  ((sectGet l 0x30 0xFFFF).isSome || injAbsent (regsEnts (sectBytes l 0x01 0xFFFF)) (sectBytes l 0x21 0xFFFF)) && l.all sectForm && distinct (l.map fun x => 65536 * x.typ + x.tgt) && l.all (sectCheck l) && disjoint (places l) && distinct (bedPins l)

end Sys2Proof.Machine
end

