-- ==== Sys2Proof/Machine/Trust.lean ====
section
/-! DEFINITION. Trust: root key, identity, lifecycle, owner keys, commands, tamper (R388 to R404). -/

namespace Sys2Proof.Machine

/-! ### Root key and identity (R388 to R390) -/

/-- The root key, and the key that wraps the identity private key. -/
def rootKey : List Byte := (List.range 32).map Config.rootByte
def identKek : List Byte := hkdf rootKey (List.replicate 32 0) (ascii "EZID WRAP") 32

/-- The first readable identity record: the copy's first page. -/
def State.identAt (s : State) : Option Nat :=
  [identPage 0, identPage 1].find? fun p => s.nvErr (4 * p) 20 ≠ some .double && s.nvBytes (32 * p) 4 = ascii "EZID"

/-- The identity private key, unwrapped for one operation; none without the root key, without IDOK, or when the unwrap fails. -/
def State.identKey (s : State) : Option Nat :=
  if s.tru.root && s.bit F.TRU_STAT.IDOK then
    match s.identAt with
    | none => none
    | some p => (keyUnwrap identKek (s.nvBytes (32 * (p + 3)) 40)).map beNat
  else none

/-- The public key and the identity digest, as the registers show the key. -/
def State.identPub (s : State) : List Byte := (List.range 32).flatMap fun k => leBytes 2 (s.get (F.TRU_IDPUB k))
def State.identDig (s : State) : List Byte := if s.bit F.TRU_STAT.IDOK then sha256 s.identPub else List.replicate 32 0

/-- A key pair is drawn, and both copies of its record are asked for, each with its MAGIC page last (R389). -/
def State.identDraw (s : State) : State :=
  if s.life = 0 && !s.bit F.TRU_STAT.IDOK && s.tru.root && s.tru.job.isNone then
    let r := s.freeBytes 40
    let d := beNat r.1 % (n256 - 1) + 1
    let pub := pubKey d
    let w := keyWrap identKek (beBytes 32 d) ++ List.replicate 24 0
    let pages := fun c => [(identPage c + 1, slice pub 0 32), (identPage c + 2, slice pub 32 32), (identPage c + 3, slice w 0 32),
      (identPage c + 4, slice w 32 32), (identPage c, ascii "EZID" ++ List.replicate 28 0)]
    (r.2.updTru fun t => { t with job := some (.identity pub) }).nvAsk .tru (pages 0 ++ pages 1)
  else s

/-! ### The challenge (R396) -/

/-- A challenge is in force. -/
def State.chalSet (s : State) (c : List Byte) : State :=
  (s.each (List.range 8) fun s k => s.set (F.TRU_CHAL k) (leAt c (2 * k) 2)).updTru fun t => { t with chalOk := true, chalNext := none, chalT := 0 }

/-- A challenge is drawn; while a command is BUSY it waits for the command's end. -/
def State.chalDraw (s : State) : State :=
  let r := s.freeBytes 16
  if s.tru.cmd.isSome then r.2.updTru fun t => { t with chalNext := some r.1, chalT := 0 } else r.2.chalSet r.1

/-- CHALLENGE_EXPIRE: 24 000 MT ticks have been counted. -/
def execChallengeExpire (s : State) : Out :=
  .next (if s.islandUp .memory && decide (24000 ≤ s.tru.chalT) then s.chalDraw else s)

/-! ### Boot step 1 (R388, R390, R392) -/

/-- The trust record of copy `c`, when its pages read and its MAGIC is valid. -/
def State.trustAt (s : State) (c : Nat) : Option TrustRec :=
  let a := 32 * trustPage c
  if s.nvErr (a / 8) 20 = some .double || s.nvBytes a 4 ≠ ascii "EZTR" then none
  else
    let b := s.nvBytes a 32
    some ⟨leAt b 4 4, leAt b 8 1 % 4, leAt b 9 1 % 16, leAt b 10 2, (List.range 4).map fun i => s.nvBytes (a + 32 + 32 * i) 32⟩

/-- The copy in force: the readable one with the higher GEN. -/
def State.trustRead (s : State) : Option (Fin 2 × TrustRec) :=
  match s.trustAt 0, s.trustAt 1 with
  | some x, some y => if x.gen < y.gen then some (1, y) else some (0, x)
  | some x, none => some (0, x)
  | none, some y => some (1, y)
  | none, none => none

/-- TRU in boot step 1 of a chip-level reset or wake: record, root key, identity, challenge. -/
def State.truBoot (s : State) (rootOk : Bool) : State :=
  let s := s.nvScan 0x101000 0x102000
  let s := match s.trustRead with
    | some (c, r) => (s.truShow r).updTru fun t => { t with rec_ := r, copy := some c }
    | none => (s.truShow TrustRec.blank).updTru fun t => { t with rec_ := TrustRec.blank, copy := none }
  let s := (s.setB F.TRU_STAT.ROOTERR (!rootOk)).updTru fun t => { t with root := rootOk }
  let s := if rootOk then s else s.report 7 0
  let s := match s.identAt with
    | some p => s.idShow (s.nvBytes (32 * (p + 1)) 64)
    | none => if s.life = 1 || s.life = 2 then s.report 7 1 else s
  s.chalDraw

/-! ### Commands (R393 to R399) -/

/-- The command block (R394). -/
def State.truBuf (s : State) : List Byte := (List.range 112).flatMap fun k => leBytes 2 (s.get (F.TRU_BUF k))

/-- States in which a command is allowed (Table 18.2). -/
def truAllowed (code life : Nat) : Bool :=
  match code with
  | 1 => life = 0
  | 2 => life = 1 || life = 2
  | 3 => life = 1 || life = 2
  | 4 => life = 1
  | 5 => life = 1 || life = 2
  | 6 => life = 1 || life = 2
  | 7 => life = 2
  | _ => life ≠ 3

/-- The command is signed. -/
def truSigned (code : Nat) : Bool := decide (2 ≤ code) && decide (code ≤ 7)

/-- Checks 1 and 2 of R395. A device without an identity has no digest that DEVID could match; its ATTEST goes on to fail with cause ROOT
(R389). -/
def State.truFirst (s : State) (code : Nat) (b : List Byte) : Nat :=
  if code = 0 || 9 ≤ code then 13
  else if !truAllowed code s.life then 1
  else if leAt b 0 2 ≠ code then 13
  else if s.bit F.TRU_STAT.IDOK then if slice b 20 8 ≠ s.identDig.take 8 then 2 else 0
  else if code = 8 then 0
  else 2

/-- Check 3: challenge, signer, signature. -/
def State.truSig (s : State) (b : List Byte) : Nat :=
  let chal := (List.range 8).flatMap fun k => leBytes 2 (s.get (F.TRU_CHAL k))
  let sg := leAt b 3 1
  if !s.tru.chalOk || slice b 4 16 ≠ chal then 3
  else if 4 ≤ sg || !bitOf s.tru.rec_.mask sg || s.tru.rec_.digs.getD sg [] ≠ sha256 (slice b 96 64) then 4
  else if !ecdsaVerify (slice b 96 64) (sha256 (b.take 160)) (slice b 160 64) then 5
  else 0

/-- Check 4: the command's own. -/
def State.truOwn (s : State) (code : Nat) (b : List Byte) : Nat :=
  let slot := leAt b 2 1
  let key := onCurve (keyPoint (slice b 28 64))
  match code with
  | 1 => if key then 0 else 6
  | 2 => if !key then 6 else if 4 ≤ slot then 7 else 0
  | 3 => if 4 ≤ slot || s.tru.rec_.mask = 2 ^ slot then 7 else 0
  | 4 => if s.bit F.WVL_STAT.ENC then 0 else 9
  | 6 => if leAt b 92 2 ≤ s.tru.rec_.floor then 8 else 0
  | 8 => if s.identKey.isNone then 11 else 0
  | _ => 0

/-- The record that a command leaves, for the commands that change it. -/
def State.truNew (s : State) (code : Nat) (b : List Byte) : Option TrustRec :=
  let r := s.tru.rec_
  let slot := leAt b 2 1
  let dig := sha256 (slice b 28 64)
  let add := fun (m i : Nat) => if bitOf m i then m else m + 2 ^ i
  match code with
  | 1 => some { r with life := 1, mask := add r.mask 0, digs := r.digs.set 0 dig }
  | 2 => some { r with mask := add r.mask slot, digs := r.digs.set slot dig }
  | 3 => some { r with mask := if bitOf r.mask slot then r.mask - 2 ^ slot else r.mask, digs := r.digs.set slot [] }
  | 4 => some { r with life := 2 }
  | 5 => some { r with life := 3, mask := 0, digs := List.replicate 4 [] }
  | 6 => some { r with floor := leAt b 92 2 }
  | _ => none

/-- Pages that RETIRE erases ahead of its record: the headers of both slots, both identity records (R399). -/
def retirePages : List (Nat × List Byte) :=
  ([0, 0x80000 / 32] ++ (List.range 16).map fun i => identPage 0 + i).map fun p => (p, erased)

/-- The command's checks, in order; where they pass, its NVS update begins, and without one its outcome stands. They wait for a WVL
verification and for an update under way (R396). -/
def State.truTry (s : State) : State :=
  match s.tru.cmd with
  | none => s
  | some c =>
    if c.done || s.wvl.verify.isSome || s.tru.job.isSome then s
    else
      let b := s.truBuf
      let c1 := s.truFirst c.code b
      let chal := c1 = 0 && truSigned c.code
      let c2 := if c1 ≠ 0 then c1 else if truSigned c.code then s.truSig b else 0
      let c3 := if c2 ≠ 0 then c2 else s.truOwn c.code b
      let put := fun (s : State) r => s.updTru fun t => { t with cmd := some ⟨c.code, true, chal, r⟩ }
      if c3 ≠ 0 then put s (some c3)
      else
        match s.truNew c.code b with
        | some r => (put s none).truAsk r true (if c.code = 5 then retirePages else [])
        | none => put s (some 0)

/-- A TRU_CMD write with its key starts a command, or meets one under way (R395, R396). -/
def State.truStart (s : State) (code : Nat) : State :=
  if !s.islandUp .memory then s
  else if s.tru.cmd.isSome then ((s.evt F.TRU_STAT.FAIL).set F.TRU_STAT.CAUSE 12).raise 313
  else ((s.set F.TRU_STAT.BUSY 1).updTru fun t => { t with cmd := some ⟨code, false, false, none⟩ }).truTry

def execTrustClaim (s : State) : Out := .next (s.truStart 1)
def execTrustAddkey (s : State) : Out := .next (s.truStart 2)
def execTrustRevoke (s : State) : Out := .next (s.truStart 3)
def execTrustLock (s : State) : Out := .next (s.truStart 4)
def execTrustRetire (s : State) : Out := .next (s.truStart 5)
def execTrustSetfloor (s : State) : Out := .next (s.truStart 6)
def execTrustDebug (s : State) : Out := .next (s.truStart 7)
def execTrustAttest (s : State) : Out := .next (s.truStart 8)
def execTrustUnknownCommand (s : State) : Out := .next (s.truStart 0)

/-- A write of TRU_CMD. -/
def State.truCmdWrite (s : State) (v : Nat) : State := if v / 4096 % 256 = 0xD7 then s.truStart (v % 16) else s

/-- A debug session ends (R400, R403). -/
def State.debugEnd (s : State) : State :=
  if s.bit F.TRU_STAT.DEBUG then ((s.set F.TRU_STAT.DEBUG 0).set F.TRU_DBGLEFT 0).raise 315 else s

/-- The effect of a command that passed and changes no record: a debug session, an attestation (R397, R400). The signature's nonce is
drawn. -/
def State.truEffect (s : State) (code : Nat) : State :=
  match code with
  | 5 => s.debugEnd.each (List.range 2) fun s i => (s.setReg (R.WVL_SLOT i) 0).setReg (R.WVL_VER i) 0
  | 7 =>
    let n := leAt s.truBuf 92 2
    if n = 0 then s.debugEnd else (s.set F.TRU_STAT.DEBUG 1).set F.TRU_DBGLEFT n
  | 8 =>
    match s.identKey with
    | none => s
    | some d =>
      let r := s.freeBytes 40
      let b := s.truBuf
      let msg := ascii "EZAT" ++ slice b 4 16 ++ s.identDig ++ [byteOf s.life] ++ leBytes 2 (s.get F.WVL_RUNVER) ++ [byteOf s.tru.rec_.mask]
      let sig := ecdsaSign d (beNat r.1 % (n256 - 1) + 1) (sha256 msg)
      r.2.each (List.range 32) fun s k => s.set (F.TRU_BUF (80 + k)) (leAt sig (2 * k) 2)
  | _ => s

/-- The command ends with its cause; a command that came to CHALLENGE draws a new one, and one drawn meanwhile takes effect. -/
def State.truFinish (s : State) (c : TruCmd) (cause : Nat) : State :=
  let s := if cause = 0 then s.truEffect c.code else s
  let s := (s.set F.TRU_STAT.BUSY 0).updTru fun t => { t with cmd := none }
  let s := if cause = 0 then ((s.evt F.TRU_STAT.DONE).set F.TRU_STAT.CAUSE 0).raise 312
    else ((s.evt F.TRU_STAT.FAIL).set F.TRU_STAT.CAUSE cause).raise 313
  if c.chal then s.chalDraw else match s.tru.chalNext with | some x => s.chalSet x | none => s

/-- TRUST_COMMAND_END: a command whose outcome stands ends; one whose checks had to wait makes them first. -/
def execTrustCommandEnd (s : State) : Out :=
  .next <|
    if s.islandUp .memory then
      let s := s.truTry
      match s.tru.cmd with
      | none => s
      | some c => match c.cause with | some k => s.truFinish c k | none => s
    else s

/-! ### Debug and tamper (R400 to R402) -/

/-- DEBUG_SESSION_EXPIRE: TRU_DBGLEFT has come to zero. -/
def execDebugSessionExpire (s : State) : Out :=
  .next (if s.islandUp .memory && s.bit F.TRU_STAT.DEBUG && s.get F.TRU_DBGLEFT = 0 then s.debugEnd else s)

/-- TAMPER_TRIP: keys and challenge are erased, the session ends, the trip is counted and reported. In watch mode only the temperature
and shield sensors run. A register of erased bytes reads zero, and no challenge matches it. -/
def State.tamper (s : State) (k : Nat) : State :=
  let s := s.updGal fun g => { g with sk := none }
  let s := (s.each (List.range 8) fun s i => s.set (F.TRU_CHAL i) 0).updTru fun t => { t with chalOk := false, chalNext := none }
  let s := s.debugEnd
  let s := ((s.evtAt F.TRU_TAMP.SENSOR k).evtInc F.TRU_TAMP.COUNT).raise 314
  s.report 6 k
def execTamperTrip (sensor : Fin 4) (s : State) : Out :=
  .next (if s.pcr.held.isNone && (!s.pcr.watch || 2 ≤ sensor.val) then s.tamper sensor else s)

/-- TRU counts MT ticks as they arrive in the memory island: the challenge's age and the debug session. -/
def State.truTick (s : State) : State :=
  let s := s.updTru fun t => { t with chalT := t.chalT + 1 }
  if s.bit F.TRU_STAT.DEBUG then s.set F.TRU_DBGLEFT (s.get F.TRU_DBGLEFT - 1) else s

/-- A digest byte pair as TRU_DIG shows it: the slot that DIGSEL names, zero for an empty one, or the identity digest (Table 18.6). -/
def State.truDig (s : State) (k : Nat) : Nat :=
  let d := s.get F.TRU_DIGSEL
  let l := if d < 4 then if bitOf s.tru.rec_.mask d then s.tru.rec_.digs.getD d [] else [] else s.identDig
  leAt l (2 * k) 2

end Sys2Proof.Machine
end

