-- ==== Sys2Proof/Machine/Image.lean ====
section
/-! DEFINITION. The weave image: its container and verification, loads over the host port and the Gallery, stored slots, and hot swap
(R69 to R93). -/

namespace Sys2Proof.Machine

/-! ### The container (R69 to R74) -/

def imFlags (b : List Byte) : Nat := leAt b 0x14 4
def imEnc (b : List Byte) : Bool := bitOf (imFlags b) 0
def imLen (b : List Byte) : Nat := leAt b 0x0C 4
def imVer (b : List Byte) : Nat := leAt b 0x10 2
def imN (b : List Byte) : Nat := leAt b 0x12 2
def imMagic : List Byte := ascii "EZWV"
/-- Starts of the key block, the signature block and the first section (Table 4.1). -/
def imKeyAt (b : List Byte) : Nat := 128 + 96 * imN b
def imSigAt (b : List Byte) : Nat := imKeyAt b + if imEnc b then 128 else 0
def imSecAt (b : List Byte) : Nat := (imSigAt b + 128 + 31) / 32 * 32
/-- Fields of section table entry `i` (Table 4.3). -/
def imEnt (b : List Byte) (i o n : Nat) : Nat := leAt b (128 + 96 * i + o) n
def imEntB (b : List Byte) (i o n : Nat) : List Byte := slice b (128 + 96 * i + o) n
def imOff (b : List Byte) (i : Nat) : Nat := imEnt b i 8 4
def imSize (b : List Byte) (i : Nat) : Nat := imEnt b i 12 4
def imSecEnc (b : List Byte) (i : Nat) : Bool := bitOf (imEnt b i 4 2) 1
def imStored (b : List Byte) (i : Nat) : List Byte := slice b (imOff b i) (imSize b i)

/-- A table entry obeys R71 and R74. -/
def imEntryOk (b : List Byte) (i : Nat) : Bool :=
  decide (imEnt b i 4 2 < 4) && imEnt b i 6 2 = 0 && imEnt b i 0x2C 4 = 0 && imEnt b i 0x50 16 = 0
    && (if imSecEnc b i then imEnc b else imEnt b i 0x10 28 = 0)
    && imOff b i % 32 = 0 && decide (imSecAt b ≤ imOff b i) && decide (imOff b i + imSize b i ≤ imLen b)

/-- The FORMAT check (R84 step 1). -/
def imFormat (b : List Byte) : Bool :=
  let is := List.range (imN b)
  slice b 0 4 = imMagic && leAt b 4 2 = 1 && leAt b 6 2 = 0x80 && decide (1 ≤ imVer b) && decide (1 ≤ imN b) && decide (imN b ≤ 255)
    && decide (imFlags b < 4) && leAt b 0x18 8 = 0 && leAt b 0x40 64 = 0 && (!imEnc b || leAt b (imKeyAt b + 104) 24 = 0)
    && is.all (imEntryOk b)
    && disjoint ((is.map fun i => (imOff b i, imSize b i)).filter fun p => p.2 ≠ 0)
    && distinct ((is.filter (imSecEnc b)).map fun i => imEnt b i 0x10 12)

/-- The key that wraps the content key, and the content key (R73). -/
def State.imContentKey (s : State) (b : List Byte) : Option (List Byte) :=
  match s.identKey with
  | none => none
  | some d =>
    match ecdh d (slice b (imKeyAt b) 64) with
    | none => none
    | some x => keyUnwrap (hkdf x (List.replicate 32 0) (ascii "EZWV KEK") 32) (slice b (imKeyAt b + 64) 40)

/-- The plaintext of section `i` under content key `k` (R74). -/
def imPlain (b k : List Byte) (i : Nat) : List Byte := if imSecEnc b i then gcmCtr k (imEntB b i 0x10 12) (imStored b i) else imStored b i

/-- The first of NVS_ECC, TAG and DIGEST that section `i` fails, 0 for none; `ecc` says that a byte range reads with an uncorrectable
error. -/
def imSecCause (b k : List Byte) (ecc : Nat → Nat → Bool) (i : Nat) : Nat :=
  if ecc (imOff b i) (imSize b i) then 15
  else if imSecEnc b i && gcmTag k (imEntB b i 0x10 12) (imEntB b i 0 16) (imStored b i) ≠ imEntB b i 0x1C 16 then 11
  else if sha256 (imPlain b k i) ≠ imEntB b i 0x30 32 then 12
  else 0

/-- The section that entry `i` describes. -/
def imSect (b k : List Byte) (i : Nat) : Sect := ⟨imEnt b i 0 2, imEnt b i 2 2, bitOf (imEnt b i 4 2) 0, imEntB b i 0x30 32, imPlain b k i, imOff b i⟩

/-- Lifecycle acceptance (R83): 0, LIFECYCLE or PLAIN. -/
def State.imLife (s : State) (b : List Byte) : Nat :=
  match s.life with
  | 1 => 0
  | 2 => if imEnc b && (List.range (imN b)).all (imSecEnc b) then 0 else 6
  | _ => 5

/-- Verification of R84: the cause of the first check that fails, or the image and its plaintext. `recv` is the length received without
its padding, none for a stored slot at boot. -/
def State.imVerify (s : State) (b : List Byte) (recv : Option Nat) (ecc : Nat → Nat → Bool) : Except Nat (Image × List Byte) :=
  let is := List.range (imN b)
  let fits := match recv with | some n => imLen b = n | none => true
  let pub := slice b (imSigAt b) 64
  let key := if imEnc b then s.imContentKey b else some []
  if !imFormat b then .error 2
  else if !(decide (imLen b ≤ 524288) && fits) then .error 4
  else if leAt b 8 4 ≠ s.get F.CHIP_ID then .error 3
  else if s.imLife b ≠ 0 then .error (s.imLife b)
  else if !(List.range 4).any (fun i => bitOf s.tru.rec_.mask i && s.tru.rec_.digs.getD i [] = sha256 pub) then .error 7
  else if !ecdsaVerify pub (sha256 (b.take (imSigAt b))) (slice b (imSigAt b + 64) 64) then .error 8
  else if imVer b < s.get F.WVL_FLOOR then .error 9
  else match key with
    | none => .error 10
    | some k =>
      match (is.map (imSecCause b k ecc)).find? (· ≠ 0) with
      | some c => .error c
      | none =>
        let l := is.map (imSect b k)
        if !l.any (fun x => x.typ = 0x60) || !l.any (fun x => x.typ = 0x80) then .error 14
        else if !semanticOk l then .error 13
        else .ok (⟨imVer b, imEnc b, bitOf (imFlags b) 1, imLen b, l⟩, is.foldl (fun p i => patch p (imOff b i) (imPlain b k i)) (b.take (imLen b)))

/-! ### Where the bytes stand -/

/-- First byte of a slot in NVS, and of HALL15 in the halls. -/
def slotBase (i : Fin 2) : Nat := 524288 * i.val
def hall15 : Nat := 0x780000

/-- An NVS range meets an uncorrectable word. -/
def State.nvsBad (s : State) (a n : Nat) : Bool :=
  s.nvsErr.any fun e => e.2 = .double && decide (a < 8 * e.1 + 8) && decide (8 * e.1 < a + n)

/-- WVL reads an NVS range: an uncorrectable word reads zero, and each word with an error is recorded (R305, R311). -/
def State.wvlRead (s : State) (a n : Nat) : State × List Byte :=
  (s.nvScan a (a + n),
    (List.range n).map fun i => if errGet s.nvsErr ((a + i) / 8) = some .double then 0 else s.nvByte (a + i))

/-- WVL reads HALL15 through port A: a corrected word is recorded and scrubbed, an uncorrectable one reads zero (R305). -/
def State.hall15Read (s : State) (o n : Nat) : State × List Byte :=
  let es := s.hallErr.filter fun e => decide (hall15 + o < 8 * e.1 + 8) && decide (8 * e.1 < hall15 + o + n)
  (s.each es fun s e => (s.hallWord .wvl (8 * e.1) 8 none false 1).1,
    (List.range n).map fun i => if errGet s.hallErr ((hall15 + o + i) / 8) = some .double then 0 else s.hallByte (hall15 + o + i))

/-- The length received without the byte that pads an odd transfer: LENGTH where it is one less and that byte is zero (R82, R87). -/
def padLen (len recv : Nat) (pad : Byte) : Nat := if len + 1 = recv && len % 2 = 1 && pad = 0 then len else recv

/-- A slot's header page is readable and holds a valid MAGIC. -/
def State.slotValid (s : State) (i : Fin 2) : Bool := !s.nvsBad (slotBase i) 32 && s.nvBytes (slotBase i) 4 = imMagic
def State.slotVer (s : State) (i : Fin 2) : Nat := leNat (s.nvBytes (slotBase i + 0x10) 2)

/-- The slot registers as NVS gives them at reset (Table 4.8). -/
def State.slotsShow (s : State) : State :=
  s.each [0, 1] fun s (i : Fin 2) =>
    let s := s.nvScan (slotBase i) (slotBase i + 32)
    if s.slotValid i then (s.setReg (R.WVL_SLOT i) 1).set (F.WVL_VER i) (s.slotVer i) else (s.setReg (R.WVL_SLOT i) 0).set (F.WVL_VER i) 0

/-- The image that a source holds, verified; a header page still held back is taken from the load (R87). -/
def State.verifySrc (s : State) (src : ImgSrc) : State × Except Nat (Image × List Byte) :=
  let boot := decide (s.get F.PCR_STAT.BOOTSTEP ≠ 6)
  match src with
  | .slot i =>
    let a := slotBase i
    let n := min 524288 (max 128 (if boot then leNat (s.nvBytes (a + 12) 4) else leAt s.wvl.head 12 4))
    let r := s.wvlRead a n
    let b := if boot then r.2 else patch r.2 0 (s.wvl.head.take 32)
    let len := imLen b
    (r.1, s.imVerify b (if boot then none else some (padLen len s.wvl.recv (s.nvByte (a + len)))) (fun o k => s.nvsBad (a + o) k))
  | _ =>
    let h := s.hall15Read 0 128
    let n := min 524288 (max 128 (imLen h.2))
    let r := s.hall15Read 0 n
    (r.1, s.imVerify r.2 (some (padLen (imLen h.2) s.wvl.recv (s.hallByte (hall15 + imLen h.2)))) (fun _ _ => false))

/-- The plaintext becomes the retained copy in HALL15 (R85). -/
def State.retain (s : State) (p : List Byte) : State :=
  { s.setHallBytes hall15 p with hallErr := s.hallErr.filter fun e => 8 * e.1 < hall15 }

/-! ### Loads (R82, R87, R88) -/

/-- A load over the host port or the Gallery, or the whole of boot step 2, fails: boot stays stopped (R61, R82). -/
def State.bootStop (s : State) : State :=
  (((s.set F.WVL_STAT.LOADING 0).set F.PCR_STAT.BOOTSTEP 7).updWvl fun w => { w with load := none, verify := none, next := none, wait := true })

/-- A load or its verification fails. -/
def State.loadFail (s : State) (src : ImgSrc) (cause : Nat) : State :=
  match src with
  | .slot i => s.slotFail i cause
  | _ => (s.wvlFlag cause).bootStop

/-- The slot that a run-time load writes (R87). -/
def State.loadTarget (s : State) : Fin 2 :=
  match s.wvl.lastSlot with
  | some i => 1 - i
  | none => if s.slotValid 0 && !s.slotValid 1 then 1 else 0

/-- A partial image in HALL15 is discarded: what a load does not send reads zero, as the fill of boot step 1 left it (R82, R306;
assumption 30). -/
def State.hall15Drop (s : State) : State :=
  { s with halls := s.halls.filter fun c => decide (c.1 < hall15), hallErr := s.hallErr.filter fun e => decide (8 * e.1 < hall15) }

/-- LOAD_BEGIN. -/
def State.loadBegin (s : State) : State :=
  let f := s.fclk
  let begun := fun (s : State) (src : ImgSrc) =>
    (s.set F.WVL_STAT.LOADING 1).updWvl fun w => { w with load := some src, hi := 0, loadT := f, cand := none, page := none, hdr := none, head := List.replicate 32 0xFF }
  if s.wvl.load.isSome || s.wvl.verify.isSome || s.bit F.WVL_STAT.HOTPEND then s.wvlFlag 19
  else if s.get F.PCR_STAT.BOOTSTEP = 6 then
    if s.life = 1 || s.life = 2 then
      let i := s.loadTarget
      let s := ((s.set (F.WVL_SLOT.STATE i) 3).set (F.WVL_VER i) 0).slotErase i
      begun s (.slot i)
    else s.wvlFlag 5
  else if s.wvl.wait && (s.get F.PCR_STAT.BOOTSTEP = 7 || s.get F.CHIP_STRAP.BOOT_EFF = 1) then begun (s.hall15Drop.set F.PCR_STAT.BOOTSTEP 2) .host
  else s

/-- WVL_LOAD_BEGIN. -/
def execWvlLoadBegin (s : State) : Out := .next (if s.islandUp .memory then s.loadBegin else s)

/-- What page `p` of slot `i` will hold once the pages asked for are written. -/
def State.slotFuture (s : State) (p : Nat) : List Byte :=
  let todo := (s.hal.waiting ++ s.hal.running.toList).flatMap fun r => if r.who = .wvl then r.todo else []
  match todo.reverse.find? fun e => e.1 = p with
  | some e => e.2
  | none => s.nvBytes (32 * p) 32

/-- The page being filled is asked for. -/
def State.pageFlush (s : State) : State :=
  match s.wvl.page with
  | none => s
  | some p => (s.updWvl fun w => { w with page := none }).wvlAsk [p]

/-- Two bytes at offset `o` of the slot: the header page is held back to the end (R87). -/
def State.slotData (s : State) (i : Fin 2) (o : Nat) (bs : List Byte) : State :=
  if o < 32 then s.updWvl fun w => { w with head := patch w.head o bs }
  else if 524288 ≤ o then s
  else
    let p := slotPage i + o / 32
    let s := match s.wvl.page with
      | some e => if e.1 = p then s else s.pageFlush
      | none => s
    let old := match s.wvl.page with | some e => e.2 | none => s.slotFuture p
    s.updWvl fun w => { w with page := some (p, patch old (o % 32) bs) }

/-- A write to WVL_DATA (R82, R88). -/
def State.loadData (s : State) (v : Nat) : State :=
  let k := s.get F.WVL_OFS
  let bs := leBytes 2 v
  let f := s.fclk
  let after := fun (s : State) =>
    let s := s.incW F.WVL_OFS
    let n := s.get F.WVL_OFS
    s.updWvl fun w => { w with hi := max w.hi n, loadT := f }
  match s.wvl.load with
  | some .host => after (if 2 * k < 524288 then { s.setHallBytes (hall15 + 2 * k) bs with hallErr := errPut s.hallErr ((hall15 + 2 * k) / 8) none } else s)
  | some (.slot i) => after (s.slotData i (2 * k) bs)
  | _ => s

/-- WVL_DATA_WRITE. -/
def execWvlDataWrite (v : BitVec 16) (s : State) : Out := .next (if s.islandUp .memory then s.loadData v.toNat else s)

/-- A write of WVL_OFS counts as reached (R82). -/
def State.ofsWrite (s : State) (src : Master) (v : Word) : State :=
  let s := s.writeCodes src R.WVL_OFS v
  let n := s.get F.WVL_OFS
  s.updWvl fun w => { w with hi := max w.hi n }

/-- LOAD_END: at boot the received length is compared with the header's; then verification begins (R82, R87). -/
def State.loadEnd (s : State) : State :=
  let n := 2 * s.wvl.hi
  let close := fun (s : State) (src : ImgSrc) (n : Nat) =>
    (s.set F.WVL_STAT.LOADING 0).updWvl fun w => { w with load := none, verify := some src, recv := n }
  match s.wvl.load with
  | some .host =>
    let r := s.hall15Read 12 4
    let l := leNat r.2
    if l = padLen l n (s.hallByte (hall15 + l)) then close r.1 .host n else r.1.loadFail .host 4
  | some (.slot i) => close s.pageFlush (.slot i) n
  | _ => s

/-- WVL_LOAD_END. -/
def execWvlLoadEnd (s : State) : Out := .next (if s.islandUp .memory then s.loadEnd else s)

/-- LOAD_VERIFY_DONE: the stored slot has been verified; when it passes, its header page is programmed in its turn, and with its end the
load has passed (`State.hdrDone`; R87, R312). -/
def execLoadVerifyDone (s : State) : Out :=
  .next <|
    match s.wvl.verify with
    | some (.slot i) =>
      if s.islandUp .memory && s.get F.PCR_STAT.BOOTSTEP = 6 && !s.nvHas .wvl && s.wvl.hdr.isNone then
        let r := s.verifySrc (.slot i)
        match r.2 with
        | .error c => r.1.slotFail i c
        | .ok (im, _) => (r.1.updWvl fun w => { w with hdr := some (im, i) }).wvlAsk [(slotPage i, s.wvl.head)]
      else s
    | _ => s

/-- ABORT ends a load, and the candidate is no longer held (R88, R89). -/
def State.loadAbort (s : State) : State :=
  let s := s.updWvl fun w => { w with cand := none }
  match s.wvl.load with
  | some src => s.loadFail src 21
  | none => s

/-- WVL_ABORT. -/
def execWvlAbort (s : State) : Out := .next (if s.islandUp .memory then s.loadAbort else s)

/-- A load goes on in this FCLK: data comes, or its end or abort. -/
def isLoadData : Instr → Bool
  | .wvlDataWrite .. | .wvlLoadEnd | .wvlAbort => true
  | .registerWrite _ a _ => a.toNat = R.WVL_DATA || a.toNat = R.WVL_CMD
  | _ => false

/-- WVL_LOAD_TIMEOUT: 1 s without a WVL_DATA write (R88). -/
def execWvlLoadTimeout (s : State) : Out :=
  .next <|
    match s.wvl.load with
    | some src => if s.islandUp .memory && src ≠ .gallery && decide (s.wvl.loadT + 400000000 ≤ s.fclk) && !s.comes isLoadData then s.loadFail src 16 else s
    | none => s

/-- IMAGE_FRAME_RECEIVE: the bytes of an IMAGE frame for this bay go to HALL15; FINAL starts verification (R365). -/
def execImageFrameReceive (s : State) : Out :=
  .next <| s.onFrame (fun r => r.f.kind = 13) fun s r =>
    let p := r.f.payload
    let id := slice p 8 8
    if s.imageWait && s.islandUp .memory && (leNat id = 0 || id = s.idBytes) then
      let o := leAt p 4 4
      let bs := p.drop 16
      let fit := bs.take (524288 - o)
      let s := { s.setHallBytes (hall15 + o) fit with
        hallErr := s.hallErr.filter fun e => !(decide (hall15 + o < 8 * e.1 + 8) && decide (8 * e.1 < hall15 + o + fit.length)) }
      if bitOf (leAt p 0 1) 0 then
        (s.set F.WVL_STAT.LOADING 0).updWvl fun w => { w with load := none, verify := some .gallery, recv := o + bs.length }
      else (s.set F.WVL_STAT.LOADING 1).updWvl fun w => { w with load := some .gallery }
    else s

/-! ### Hot swap (R89 to R91) -/

/-- Sections of a candidate that differ from the running image's: type, target, and the new section, none where it is gone. -/
def hotDiff (run new : List Sect) : List (Nat × Nat × Option Sect) :=
  (new.filter fun x => !run.any fun y => y.typ = x.typ && y.tgt = x.tgt && y.dig = x.dig).map (fun x => (x.typ, x.tgt, some x))
    ++ (run.filter fun y => !new.any fun x => x.typ = y.typ && x.tgt = y.tgt).map fun y => (y.typ, y.tgt, none)

/-- The cause that refuses a hot swap, 0 for none (R89, R303). -/
def State.hotCause (s : State) : Nat :=
  match s.wvl.cand, s.wvl.run with
  | some (im, _), some run =>
    let d := hotDiff run.sects im.sects
    let hot := fun (l : List Sect) (t g : Nat) => (l.filter fun x => x.typ = t && x.tgt = g).all (·.hot)
    let new := d.filterMap fun e => e.2.2
    let old := (sectAll run.sects 0x50).map fun e => chartPlace e.2
    let owned := fun (x : Sect) =>
      if x.typ = 0x50 then s.get (F.HAL_OWN.OWNER (leAt x.data 0 1)) = 4
      else if x.typ = 0x59 then leAt x.data 0 1 = 0xFF || s.get (F.HAL_OWN.OWNER (leAt x.data 0 1)) = 5 else true
    if s.bit F.WVL_STAT.HOTPEND then 19
    else if im.version ≤ s.get F.WVL_RUNVER then 18
    else if !d.all (fun e => sectHot e.1 && hot run.sects e.1 e.2.1 && hot im.sects e.1 e.2.1) then 17
    else if !new.all (fun x => owned x && (x.typ ≠ 0x50 || !old.any (meet (chartPlace x.data)))) then 13
    else if 524288 < run.len + (new.map fun x => x.data.length).sum then 4
    else 0
  | _, _ => 22

/-- The retained copy (R85, R90): where the plaintext of the sections ends in HALL15; a section written there. -/
def retEnd (l : List Sect) : Nat := l.foldl (fun m x => max m (x.ofs + x.data.length)) 0
def State.retPut (s : State) (x : Sect) : State :=
  let a := hall15 + x.ofs
  { s.setHallBytes a x.data with
    hallErr := s.hallErr.filter fun e => !(decide (a < 8 * e.1 + 8) && decide (8 * e.1 < a + x.data.length)) }

/-- Sections placed one after another from offset `o` on. -/
def retPack (o : Nat) : List Sect → List Sect
  | [] => []
  | x :: t => { x with ofs := o } :: retPack (o + x.data.length) t

/-- Room for `k` bytes behind the retained copy; where it lacks, the copy is packed first (assumption 56). -/
def State.retRoom (s : State) (k : Nat) : State :=
  match s.wvl.run with
  | some im =>
    if retEnd im.sects + k ≤ 524288 then s
    else
      let l := retPack 0 im.sects
      (s.updWvl fun w => { w with run := some { im with sects := l } }).each l State.retPut
  | none => s

/-- The last section has taken effect (R90). -/
def State.hotDone (s : State) : State :=
  match s.wvl.hotImg with
  | some (im, i) =>
    let s := ((s.set F.WVL_RUNVER im.version).evt F.WVL_STAT.DONE).set F.WVL_STAT.HOTPEND 0
    let s := (s.set F.WVL_STAT.APPLIED (i.val + 1)).setB F.WVL_STAT.ENC im.enc
    let old := (s.wvl.run.map (·.sects)).getD []
    let at_ := fun (x : Sect) => ((old.find? fun y => y.typ = x.typ && y.tgt = x.tgt).map (·.ofs)).getD x.ofs
    let run := { im with sects := im.sects.map fun x => { x with ofs := at_ x } }
    let s := s.updWvl fun w => { w with run := some run, lastSlot := some i, hot := [], hotImg := none, cand := none }
    if im.raise then s.floorRaise im.version else s
  | none => s

/-- HOTSWAP: refused with its cause, or the differing sections stand behind the retained copy and wait for their apply points, the bodies
of new charts already in their halls. -/
def State.hotSwap (s : State) : State :=
  if s.hotCause ≠ 0 then s.wvlFlag s.hotCause
  else
    match s.wvl.cand, s.wvl.run with
    | some (im, i), some run =>
      let d := hotDiff run.sects im.sects
      let new := d.filterMap (·.2.2)
      let s := s.retRoom (new.map fun x => x.data.length).sum
      let new := retPack (retEnd ((s.wvl.run.map (·.sects)).getD [])) new
      let d := new.map (fun x => (x.typ, x.tgt, some x)) ++ d.filter fun e => e.2.2.isNone
      let s := (s.set F.WVL_STAT.HOTPEND 1).updWvl fun w => { w with hot := d, hotImg := some (im, i), hotTick := false }
      let s := s.each new State.retPut
      let s := s.each d fun s e => match e.2.2 with
        | some x => if x.typ = 0x50 then s.setHallBytes (chartPlace x.data).1 (slice x.data 16 (leAt x.data 8 4)) else s
        | none => s
      if d.isEmpty then s.hotDone else s
    | _, _ => s

/-- WVL_HOTSWAP. -/
def execWvlHotswap (s : State) : Out := .next (if s.islandUp .memory && s.get F.PCR_STAT.BOOTSTEP = 6 then s.hotSwap else s)

/-- The apply point of a section is there (Table 4.6); that of an AWO whose index passes from 1023 to 0 comes with AWO_WORD_ARRIVE. -/
def State.hotPoint (s : State) (t g : Nat) : Bool :=
  match t with
  | 0x50 => s.cht.queue.isEmpty && s.cht.ctx.toList.all (·.isNone)
  | 0x51 => s.cht.queue.isEmpty && s.cht.ctx.toList.all (·.isNone)
  | 0x58 => let n := s.get F.GAU_CFG.TRK; s.trkState n ≠ 2 || s.word n = 0 || s.gau.inbound.contains (.zero n)
  | 0x59 => decide ((vget s.gau.awoAdv g (0, false)).1 + 1000000 ≤ s.fclk)
  | 0x68 => s.hkSt g = 0
  | 0x88 => s.wvl.hotTick
  | 0x89 => s.wvl.hotTick
  | _ => false

/-- One section takes effect, in its block and in the retained copy. -/
def State.hotOne (s : State) (e : Nat × Nat × Option Sect) : State :=
  let n := e.2.1
  let s := s.updWvl fun w =>
    { w with hot := w.hot.erase e
             run := w.run.map fun (r : Image) => { r with sects := (r.sects.filter fun x => !(x.typ = e.1 && x.tgt = n)) ++ e.2.2.toList } }
  match e.1, e.2.2 with
  | 0x50, some x => s.chartApply n x.data
  | 0x50, none => s.chartRemove n
  | 0x51, some x => s.recipeApply n x.data
  | 0x51, none => s.recipeRemove n
  | 0x58, some x => s.gaugeApply x.data
  | 0x58, none => s.gaugeRemove
  | 0x59, some x => s.awoApply n x.data
  | 0x59, none => s.awoRemove n
  | 0x68, some x => s.hookApply n x.data
  | 0x68, none => s.hookRemove n
  | 0x88, some x => s.budgetApply x.data
  | 0x88, none => s.budgetRemove
  | 0x89, some x => s.paceApply x.data
  | 0x89, none => s.paceRemove
  | _, _ => s

/-- Pending sections that `p` picks take effect. -/
def State.hotTake (s : State) (p : Nat × Nat × Option Sect → Bool) : State :=
  let es := s.wvl.hot.filter p
  if es.isEmpty then s
  else
    let s := s.each (es.filter fun e => e.2.2.isNone) State.hotOne
    let s := s.each (es.filter fun e => e.2.2.isSome) State.hotOne
    if s.wvl.hot.isEmpty then s.hotDone else s

/-- AWO_WORD_ARRIVE (R237): where the index passes from the last entry to the first, a pending section takes effect before the evaluation
(R242). -/
def execAwoWordArrive (a : Fin 2) (s : State) : Out :=
  .next (s.awoLocal a fun s =>
    let s := if (s.awoIdx a).1 < s.get (F.GAU_AIDX a) then s.hotTake (fun e => e.1 = 0x59 && e.2.1 = a.val) else s
    if s.awoLive a && !s.bit (F.GAU_ACFG.REMOTE a) && s.awoStale a then s.awoEval a else s)

/-- The MT tick at HOOK: a pending BUDGET section takes effect together with the reset of HK_USED (R90, R335). -/
def State.budgetTick (s : State) : State := (if s.wvl.hotTick then s.hotTake fun e => e.1 = 0x88 else s).hkTick

/-- HOOK_BUDGET_RESET (R335). -/
def execHookBudgetReset (s : State) : Out := .next (if s.hkUp && s.hook.due then s.budgetTick else s)

/-- HOTSWAP_APPLY: a pending section takes effect at its point; charts and recipes switch together, and BUDGET comes with the tick. -/
def execHotswapApply (typ tgt : Nat) (s : State) : Out :=
  .next <|
    let both := fun t => t = 0x50 || t = 0x51
    if typ = 0x88 && s.hkUp && s.hook.due && s.wvl.hotTick then s.budgetTick
    else if s.islandUp .memory && s.hotPoint typ tgt then s.hotTake fun e => if both typ then both e.1 else e.1 = typ && e.2.1 = tgt
    else s

/-- What WVL_CMD asks for (Table 4.9). -/
def State.wvlCmd (s : State) (v : Nat) : State :=
  if v / 4096 ≠ 0xA5 then s
  else match v % 8 with
    | 1 => s.loadBegin
    | 2 => s.loadEnd
    | 3 => if s.get F.PCR_STAT.BOOTSTEP = 6 then s.hotSwap else s
    | 4 => s.loadAbort
    | _ => s

end Sys2Proof.Machine
end

