-- ==== Sys2Proof/Machine/Pcr.lean ====
section
/-! DEFINITION. Supplies, clocks, resets and watch mode (R43 to R68), the MT tick (R13) and the TB wrap (R460). What WVL applies at boot
and after a block reset is in Boot.lean. -/

namespace Sys2Proof.Machine

/-! ### Chip-level resets and wake (R56, R67) -/

/-- Registers of the management island and the safety domain, which watch mode keeps (R64, Table 1.4). -/
def mgmtReg (a : Nat) : Bool :=
  decide (a < 0x800) || (decide (0x4800 ≤ a) && decide (a < 0x4C00)) || (decide (0x7000 ≤ a) && decide (a < 0x7400))

/-- Registers that a reset of kind `k` keeps (Table 3.3, R56, R67): the straps; VMIN except at power-on and NRST; the fault capture
except at power-on; all of the management island at wake. -/
def keptReg (k : ResetKind) (a : Nat) : Bool :=
  a = R.CHIP_STRAP || (k ≠ .powerOn && a = R.PCR_RSTCAUSE)
    || (k ≠ .powerOn && k ≠ .nrst && decide (R.PCR_VMIN 0 ≤ a) && decide (a ≤ R.PCR_VMIN 4))
    || (k ≠ .powerOn && decide (R.POR_FIRST ≤ a) && decide (a ≤ R.POR_SECOND))
    || (k = .wake && mgmtReg a && a ≠ R.PCR_STAT && a ≠ R.PCR_BRSTAT)

/-- The bit of PCR_RSTCAUSE that a reset sets (Table 3.8). -/
def causeFld (k : ResetKind) : Fld :=
  match k with
  | .powerOn => F.PCR_RSTCAUSE.POR | .nrst => F.PCR_RSTCAUSE.NRST | .porter => F.PCR_RSTCAUSE.PCHIP
  | .gallery => F.PCR_RSTCAUSE.GAL | .wake => F.PCR_RSTCAUSE.WAKE

/-- An NVS write that the reset cuts leaves its page torn (R312). -/
def State.nvCut (s : State) : State :=
  match s.hal.running with
  | some ⟨_, (p, bs) :: _⟩ => s.nvTorn p bs
  | _ => s

/-- What the Porter keeps: all of it at wake; otherwise the supply conditions that last, so that one excursion stays one event (R45). -/
def State.porKept (s : State) (k : ResetKind) : Por :=
  if k = .wake then s.por
  else if k = .powerOn then Por.reset
  else
    let live := fun x => x = 4 || x = 5 || x = 10
    { Por.reset with stand := s.por.stand.filter (fun p => live p.src), seen := s.por.seen.filter live }

/-- Fields of STC_STAT that tell of the rotations, which a wake leaves as they stopped: a failed unit stays out of service until the next
chip-level reset (R438, R439). -/
def rotFlds : List Fld := [F.STC_STAT.CSPARE, F.STC_STAT.TSPARE, F.STC_STAT.WSPARE, F.STC_STAT.CSPU, F.STC_STAT.TSPU]

/-- A chip-level reset or a wake begins and is held (R56, R67, Table 3.3). -/
def State.chipReset (s : State) (k : ResetKind) : State :=
  let s := s.nvCut.slotCut
  let rst := s.get F.POR_STAT.RSTCNT
  let lim := s.get F.POR_STAT.LIMIT
  let below := s.get F.PCR_VSTAT.BELOW
  let lock := s.get F.PCR_VSTAT.LOCKOUT
  let tb := if k = .wake then BitVec.ofNat 60 (s.pcr.tbSave + mtPeriod * s.pcr.watchTicks) else 0
  let t : State :=
    { State.reset with
      pending := s.pending, fclk := s.fclk, freeCtr := s.freeCtr, nvs := s.nvs, nvsErr := s.nvsErr, tb := tb, inp := s.inp, ncl := ⟨2, s.fclk, s.nclkAt s.fclk⟩
      regs := s.regs.filter fun c => keptReg k c.1
      pcr := { Pcr.reset with held := some k, nrstLow := s.pcr.nrstLow, drive := k = .porter,
                              found := (k = .porter || k = .gallery) && s.bit F.POR_FIRST.VALID }
      wvl := { Wvl.reset with lastSlot := if k = .wake then s.wvl.lastSlot else none }
      cmp := if k = .wake then s.cmp else CmpBlk.reset
      por := { s.porKept k with beatT := s.fclk }
      stc := if k = .wake then { Stc.reset with cmpu := s.stc.cmpu, etmr := s.stc.etmr, inc := s.stc.inc } else Stc.reset }
  let t := t.set (causeFld k) 1
  if k = .powerOn then t
  else if k = .wake then t.each rotFlds fun t f => t.set f (s.get f)
  else
    let t := (t.set F.PCR_VSTAT.BELOW below).set F.PCR_VSTAT.LOCKOUT lock
    if k = .nrst then t else (t.set F.POR_STAT.RSTCNT rst).set F.POR_STAT.LIMIT lim

/-! ### Rails (R43 to R48) -/

/-- VMIN resolution of a rail in mV (Table 3.1). -/
def vminRes (rail : Nat) : Nat := match rail with | 0 => 2 | 1 => 10 | 2 => 10 | 3 => 5 | _ => 50

/-- The lowest filtered value of a rail, rounded down (R48). -/
def State.vmin (s : State) (rail mv : Nat) : State :=
  s.set (F.PCR_VMIN rail) (min (s.get (F.PCR_VMIN rail)) (mv / vminRes rail * vminRes rail))

/-- The monitors of VLNK and VGATE are masked in watch mode (R65). -/
def State.railMasked (s : State) (rail : Nat) : Bool := s.pcr.watch && decide (3 ≤ rail)

/-- The warning source of a rail with its detail code (R45). -/
def railSrc (rail : Nat) : Nat × Nat := if rail = 4 then (10, 0) else (4, rail)

/-- Warning level, and reset or lockout level, of a rail in mV (Table 3.1). -/
def warnLevel (rail : Nat) : Nat := match rail with | 0 => 745 | 1 => 2950 | 2 => 4600 | 3 => 1660 | _ => 9000
def lowLevel (rail : Nat) : Nat := match rail with | 0 => 715 | 1 => 2800 | 2 => 4400 | 3 => 1600 | _ => 8000

/-- A filtered value can lie below a monitor level, which is accurate to 1 % (R43). -/
def underLevel (mv level : Nat) : Bool := decide (100 * mv < 101 * level)

/-- RAIL_WARNING: the filtered value goes into VMIN; where it lies below the warning level, an excursion is recorded and reported once
(R45, R48). -/
def execRailWarning (rail : Fin 5) (mv : Nat) (s : State) : Out :=
  .next <|
    if s.pcr.held.isSome || s.railMasked rail then s
    else
      let s := s.vmin rail mv
      if bitOf (s.get F.PCR_VSTAT.BELOW) rail || !underLevel mv (warnLevel rail) then s
      else
        let s := (s.evtAt F.PCR_VSTAT.WARN rail).setBitAt F.PCR_VSTAT.BELOW rail true
        s.standOn (railSrc rail).1 (railSrc rail).2

/-- RAIL_WARNING_END. -/
def execRailWarningEnd (rail : Fin 5) (s : State) : Out :=
  .next <|
    if s.railMasked rail then s
    else (s.setBitAt F.PCR_VSTAT.BELOW rail false).standOff (railSrc rail).1 (railSrc rail).2

/-- RAIL_RESET (R46): a value above the reset level is a sample only. -/
def execRailReset (rail : Fin 4) (mv : Nat) (s : State) : Out :=
  .next <|
    if s.railMasked rail then s
    else if !underLevel mv (lowLevel rail) then s.vmin rail mv
    else ((s.vmin rail mv).chipReset .powerOn).set F.PCR_RSTCAUSE.RAIL (rail.val + 1)

/-- GATE_LOCKOUT_BEGIN (R47): the gates are held off, and every open window is cut. VGATE lies below its warning level too, whose
event the lockout takes the place of (R45, Table 3.10). A value above the lockout level is a sample only. -/
def execGateLockoutBegin (mv : Nat) (s : State) : Out :=
  .next <|
    if s.railMasked 4 then s
    else if !underLevel mv (lowLevel 4) then s.vmin 4 mv
    else
      let s := ((s.vmin 4 mv).set F.PCR_VSTAT.LOCKOUT 1).setBitAt F.PCR_VSTAT.BELOW 4 true
      if s.pcr.held.isSome then s else (s.cutAll 1).standOn 5 0

/-- GATE_LOCKOUT_END. -/
def execGateLockoutEnd (s : State) : Out :=
  .next (if s.railMasked 4 then s else (s.set F.PCR_VSTAT.LOCKOUT 0).standOff 5 0)

/-- Every PCR_VMINn reads 0xF_FFFF again. -/
def State.vminClear (s : State) : State := s.each (List.range 5) fun s i => s.set (F.PCR_VMIN i) 0xFFFFF
/-- VMIN_CLEAR. -/
def execVminClear (s : State) : Out := .next (if s.islandUp .management then s.vminClear else s)

/-! ### NRST and the release of the internal reset (R32, R35 to R38, R49) -/

/-- NRST_ASSERT: a reset held for power-on or by the Porter is extended only; a Gallery reset or a wake becomes an NRST reset. -/
def execNrstAssert (s : State) : Out :=
  .next <|
    let s := s.updPcr fun p => { p with nrstLow := true }
    match s.pcr.held with
    | some .powerOn => s
    | some .porter => s
    | _ => s.chipReset .nrst

/-- NRST_RELEASE: NRST rises, so neither an external part nor the Karek at a Porter reset holds it low any more (R32). -/
def execNrstRelease (s : State) : Out := .next (s.updPcr fun p => { p with nrstLow := false, drive := false })

/-- Majority of three samples (R35). -/
def majority (b : BitVec 3) : Nat := if 2 ≤ b.toNat % 2 + b.toNat / 2 % 2 + b.toNat / 4 % 2 then 1 else 0

/-- BOOT_EFF: 0b11 acts as 0b00, and LOCKED and RETIRED act as 0b00 (R37, R38). -/
def State.bootEff (s : State) : State :=
  let b := s.get F.CHIP_STRAP.BOOT
  s.set F.CHIP_STRAP.BOOT_EFF (if b = 3 || 2 ≤ s.life then 0 else b)

/-- The reference check (R50): XIN edges in 64 SOSC cycles, 100 expected within 15 %. -/
def State.xinCheck (s : State) (count : Nat) : State :=
  if decide (85 ≤ count) && decide (count ≤ 115) then s.set F.PCR_STAT.REFSRC 1
  else if s.bit F.CHIP_STRAP.MSTR then s else s.updPcr fun p => { p with sosc := true }

/-- INTERNAL_RESET_RELEASE: the straps are latched where the reset samples them, and boot step 1 begins with the reference check, the
zero fill, and what NVS tells of repairs, log, trust and slots (R59). -/
def execInternalResetRelease (mstr boot1 boot0 : BitVec 3) (xin : Nat) (rootOk : Bool) (s : State) : Out :=
  .next <|
    match s.pcr.held with
    | none => s
    | some k =>
      if s.pcr.nrstLow || s.pcr.drive then s
      else
        let s :=
          if k = .powerOn || k = .nrst then
            ((s.set F.CHIP_STRAP.MSTR (majority mstr)).set F.CHIP_STRAP.BOOT (2 * majority boot1 + majority boot0)).setB
              F.CHIP_STRAP.SRC_NRST (k = .nrst)
          else s
        let s := (s.updPcr fun p => { p with held := none }).set F.PCR_STAT.BOOTSTEP 1
        (((s.hallFill.repairMap.logSearch.truBoot rootOk).bootEff).slotsShow).xinCheck xin

/-- XIN_RECHECK: a master bay without XIN. -/
def execXinRecheck (count : Nat) (s : State) : Out :=
  .next (if s.running && s.get F.PCR_STAT.BOOTSTEP = 1 && s.get F.PCR_STAT.REFSRC = 0 && s.bit F.CHIP_STRAP.MSTR then s.xinCheck count
    else s)

/-! ### PLLs and references (R50 to R55, R480) -/

/-- PLL_LOCK: a PLL locks to the reference, or to SOSC on a bay that waits for the ring. -/
def execPllLock (pll : Pll) (s : State) : Out :=
  .next <|
    if s.running && (s.pcr.sosc || s.get F.PCR_STAT.REFSRC ≠ 0) then
      s.set (match pll with | .a => F.PCR_STAT.PLLA_LOCK | .g => F.PCR_STAT.PLLG_LOCK) 1
    else s

/-- BOOT_STEP_1_END. -/
def execBootStep1End (s : State) : Out :=
  .next <|
    if s.running && s.get F.PCR_STAT.BOOTSTEP = 1 && s.bit F.PCR_STAT.PLLA_LOCK && s.bit F.PCR_STAT.PLLG_LOCK then
      s.set F.PCR_STAT.BOOTSTEP 2
    else s

/-- RING_REFERENCE_LOCK (R50, R52). -/
def execRingReferenceLock (s : State) : Out :=
  .next (if s.running && s.pcr.sosc then (s.set F.PCR_STAT.REFSRC 2).updPcr fun p => { p with sosc := false } else s)

/-- XIN_EDGE_LOSS (R55). -/
def execXinEdgeLoss (s : State) : Out :=
  .next (if s.running && s.get F.PCR_STAT.REFSRC = 1 then (s.set F.PCR_STAT.HOLDOVER 1).standOn 3 0 else s)

/-- RING_STREAM_LOSS (R52). -/
def execRingStreamLoss (s : State) : Out :=
  .next (if s.running && s.get F.PCR_STAT.REFSRC = 2 && !s.comes isValidGroup then (s.set F.PCR_STAT.HOLDOVER 1).standOn 3 1 else s)

/-- HOLDOVER_END (R480). -/
def execHoldoverEnd (s : State) : Out :=
  .next (if s.running && s.bit F.PCR_STAT.HOLDOVER then ((s.set F.PCR_STAT.HOLDOVER 0).standOff 3 0).standOff 3 1 else s)

/-- A count lies outside ±15 % of its nominal, given as a fraction. -/
def clockOff (count num den : Nat) : Bool := decide (20 * count * den < 17 * num) || decide (23 * num < 20 * count * den)

/-- One clock against its nominal: outside its range is a standing condition of CLK_MON (R54, R405). A clock that is not compared
stands for nothing. -/
def State.clockCheck (s : State) (k : Nat) (compared : Bool) (count num den : Nat) : State :=
  if compared && clockOff count num den then s.standOn 2 k else s.standOff 2 k

/-- CLOCK_MONITOR_COUNT (R54): counts of FCLK, MCLK, NCLK, GCLK and MGCLK in 64 SOSC cycles; the clock is named in the detail code. A
clock whose PLL has not locked, or that watch mode stops, is not compared. -/
def execClockMonitorCount (f m n g mg : Nat) (s : State) : Out :=
  .next <|
    if s.pcr.held.isSome then s
    else
      let a := s.islandUp .angle
      let s := ((s.clockCheck 0 a f 1600 1).clockCheck 1 a m 1200 1).clockCheck 2 a n 1600 s.ncl.div
      let s := s.clockCheck 3 (s.islandUp .gallery) g 1000 1
      s.clockCheck 4 true mg (if s.pcr.watch then 64 else 100) 1

/-! ### Watch mode (R14, R64 to R67) -/

/-- A request is refused while a stitch is armed or running, a pulse window is open, or an NVS write has not ended. -/
def State.watchBarred (s : State) : Bool :=
  (List.range 128).any (fun n => let k := s.get (F.STITCH_STATUS.STATE n); k = 2 || k = 3)
    || (List.range 4).any (fun b => s.bit (F.INJ_BSTAT.BUSY b)) || s.nvAny

/-- The comparator rotation stops: a step that has not handed over is abandoned, a freed unit's test is INCOMPLETE and is made again (R279,
R439). -/
def State.ladderCut (s : State) : State :=
  match s.cmp.step with
  | some x => if x.freed.isNone then s.updCmp fun c => { c with step := none } else (s.updCmp fun c => { c with cut := true }).stcInc 4
  | none => s

/-- Watch mode begins: a debug session ends and the rotations' tests are cut short (R279, R400, R439), the islands without power lose the
session key, the ring's exchanges and the links' state (R64, R349, R454), TB is saved, the clocks stop, and only the windows marked for it
run, sampled. -/
def State.watchEnter (s : State) : State :=
  let s := (s.debugEnd.rotCut 2).rotCut 3
  let s : State := { s with gal := Gal.reset, can := .replicate 2 Can.reset, sent := .replicate 8 SentRx.reset }
  let s := s.ladderCut
  let s := (s.set F.PCR_WAKE.CAUSE 0).updPcr fun p => { p with watch := true, tbSave := s.tb.toNat, watchTicks := 0 }
  s.each (List.range 12) fun s w => s.winMode w (if s.bit (F.CMP_WCFG.WATCH w) then 2 else 0)

/-- A write of PCR_MODE: with KEY 0x5A, REFUSED is W1C and WATCH requests watch mode; "a write with any other KEY has no effect", which
the model takes to cover REFUSED too, although Table 3.11 gives that bit as W1C without a key (DEDUCED, assumption 59). -/
def State.modeWrite (s : State) (src : Master) (v : Word) : State :=
  if v.toNat / 4096 ≠ 0x5A then s
  else
    let s := s.writeCodes src R.PCR_MODE v
    if bitOf v.toNat 0 && !s.pcr.watch then
      if s.watchBarred then s.evt F.PCR_MODE.REFUSED else s.watchEnter
    else s

/-- WATCH_REQUEST (R64). -/
def execWatchRequest (v : Word) (s : State) : Out := .next (if s.running then s.modeWrite .host v else s)

/-- WATCH_MT_TICK (R14). -/
def execWatchMtTick (s : State) : Out :=
  .next <|
    if s.pcr.watch && s.pcr.held.isNone then
      let s := (s.updPcr fun p => { p with watchTicks := p.watchTicks + 1 }).porTick
      s.each (List.range 12) fun s w => if s.bit (F.CMP_WCFG.WATCH w) then s.winDue w else s
    else s

/-- A wake: the cause is recorded, each window returns to its MODE with low outputs, and the stopped islands start from reset (R67,
R275, R278). -/
def State.wake (s : State) (cause : Nat) : State :=
  let s := s.set F.PCR_WAKE.CAUSE cause
  let s := s.each (List.range 12) fun s w => (s.winMode w 0).winMode w (s.get (F.CMP_WCFG.MODE w) % 3)
  s.chipReset .wake

/-- WAKE_PIN. -/
def execWakePin (s : State) : Out := .next (if s.pcr.watch && s.bit F.PCR_WAKE.PIN_EN then s.wake 1 else s)

/-- WAKE_TIMER: PCR_WTIMER MT ticks since entry; 0 disables the timer. -/
def execWakeTimer (s : State) : Out :=
  .next <|
    let n := s.get F.PCR_WTIMER
    if s.pcr.watch && s.bit F.PCR_WAKE.TMR_EN && n ≠ 0 && decide (n ≤ s.pcr.watchTicks) then s.wake 3 else s

/-- WINDOW_SAMPLE_LATCH: the sample is latched (R274); in watch mode an event of a wake window ends watch mode (R277, Table 3.5). -/
def execWindowSampleLatch (w : Fin 12) (lo hi : Int) (s : State) : Out :=
  .next <|
    let r := s.winLatch w lo hi
    if r.2 && r.1.bit F.PCR_WAKE.WIN_EN then r.1.wake 2 else r.1

/-! ### The tick and the wrap (R13, R460) -/

/-- MT_TICK: a tick that is due reaches every island; each function that counts per tick takes it. -/
def execMtTick (s : State) : Out :=
  .next <|
    if s.mtDue = 0 || !s.running then s
    else
      let s := { s with mtDue := s.mtDue - 1 }
      let s := s.each (List.range 12) fun s w =>
        if !s.bit (F.CMP_WCFG.TSRC w) && s.winSampled w then s.winDue w else s
      let s := (s.qvTick.updHal fun h => { h with logDue := true }).updStc fun x => { x with nvDue := x.nvDue + 1 }
      let s : State := { s with hook := { s.hook with due := true } }
      let s := if s.wvl.hot.isEmpty then s else s.updWvl fun w => { w with hotTick := true }
      (s.porTick.truTick).updGal fun g => { g with ticks := g.ticks + 1 }

/-- TB_WRAP: after a wrap a master starts a full enumeration. -/
def execTbWrap (s : State) : Out :=
  .next <|
    if s.wrapDue then
      let s := { s with wrapDue := false }
      if s.enumMay then s.fullEnum else s
    else s

/-- GALLERY_RESET: 1 µs after a RESET frame acted (R366). -/
def execGalleryReset (s : State) : Out :=
  .next <|
    match s.gal.resetT with
    | some t => if s.running && decide (t + 400 ≤ s.fclk) then s.chipReset .gallery else s
    | none => s

/-! ### Block resets (R58) -/

/-- The section of the running image by which it uses block `b` (Table 3.12; bit positions of Table 3.9). -/
def State.blockUsed (s : State) (b : Nat) : Bool :=
  match s.wvl.run with
  | none => false
  | some i =>
    let any := fun t g => (sectGet i.sects t g).isSome
    if b < 4 then any 0x10 b
    else if b = 4 then any 0x20 0xFFFF
    else if b = 5 then any 0x30 0xFFFF
    else if b < 10 then any 0x40 (b - 6)
    else if b = 10 then any 0x52 0xFFFF || i.sects.any fun x => x.typ = 0x50 || x.typ = 0x51
    else if b = 11 then any 0x58 0xFFFF || i.sects.any fun x => x.typ = 0x59
    else if b = 12 then any 0x88 0xFFFF || i.sects.any fun x => x.typ = 0x68
    else if b < 16 then any 0x79 0xFFFF
    else false

/-- First word address and number of words of block `b` (Table 1.4). -/
def blockRange (b : Nat) : Nat × Nat :=
  if b < 4 then (0x1000 + 0x400 * b, 0x400)
  else if b = 4 then (0x2000, 0x800)
  else if b = 5 then (0x3000, 0x400)
  else if b < 10 then (0x4000 + 0x100 * (b - 6), 0x100)
  else if b = 10 then (0x3400, 0x400)
  else if b = 11 then (0x3800, 0x800)
  else if b = 12 then (0x5400, 0xC00)
  else if b = 13 then (0x7800, 0x200)
  else if b = 14 then (0x7A00, 0x200)
  else (0x7C00, 0x400)

/-- Interrupt sources of block `b`: first and number (R129, R175, R196, R220, R245, R268, R337, R446, R453). -/
def blockSrcs (b : Nat) : Nat × Nat :=
  if b < 4 then (16 + 16 * b, 16)
  else if b = 4 then (80, 128)
  else if b = 5 then (208, 16)
  else if b < 10 then (240 + 4 * (b - 6), 4)
  else if b = 10 then (304, 4)
  else if b = 11 then (308, 4)
  else if b = 12 then (224, 16)
  else if b < 15 then (284 + 2 * (b - 13), 2)
  else (288, 8)

/-- The registers of block `b` take their reset values. The needle flags stand in BED0's range and belong to each needle's own bed. -/
def State.regsClear (s : State) (b : Nat) : State :=
  let r := blockRange b
  { s with regs := s.regs.filter fun c => !(decide (r.1 ≤ c.1) && decide (c.1 < r.1 + r.2)) || c.1 = R.BED0_FLAGS }

/-- What lies behind the block's registers, and what its reset does to other blocks. -/
def State.unitReset (s : State) (b : Nat) : State :=
  if b < 4 then ((s.stEvent b .reverse).regsClear b).updTrk b fun t => { Trk.reset with pin := t.pin }
  else if b = 4 then
    let s := ((s.rotCut 2).rotCut 3).regsClear 4
    { s with stitch := .replicate 128 Stitch.reset, suPos := 0, suPath := [], suActs := [], suT := none }
  else if b = 5 then (s.regsClear 5).injReset
  else if b < 10 then (s.regsClear b).bedReset (b - 6)
  else if b = 10 then s.chtReset
  else if b = 11 then s.gauReset
  else if b = 12 then s.hookReset
  else if b < 15 then (s.regsClear b).canReset (b - 13)
  else (s.regsClear b).sentReset

/-- A block reset starts, unless one runs or the image does not use the block. -/
def State.blockReset (s : State) (b : Nat) : State :=
  if bitOf (s.get F.PCR_BRSTAT) b || !s.blockUsed b || !s.running then s
  else
    let f := s.fclk
    let s := (s.setBitAt F.PCR_BRSTAT b true).updPcr fun p => { p with brst := (b, f) :: p.brst.filter fun e => e.1 ≠ b }
    let s := s.unitReset b
    s.each (List.range (blockSrcs b).2) fun s i => s.set (F.IRT_SRC.COUNT ((blockSrcs b).1 + i)) 0

/-- A write of PCR_BRST. -/
def State.blockRequests (s : State) (v : Nat) : State := s.each (List.range 16) fun s b => if bitOf v b then s.blockReset b else s

/-- BLOCK_RESET_REQUEST. -/
def execBlockResetRequest (_src : Master) (v : BitVec 16) (s : State) : Out :=
  .next (if s.islandUp .management then s.blockRequests v.toNat else s)

end Sys2Proof.Machine
end

