-- ==== Sys2Proof/Machine/Trackers.lean ====
section
/-! DEFINITION. Stair trackers: edges, sync, loss, beacons, records (R94 to R130, R143 to R152). -/

namespace Sys2Proof.Machine

/-- Interrupt source of tracker `n` (Table 5.10). -/
def trkSrc (n k : Nat) : Nat := 16 + 16 * n + k

/-! ### Beacons sent (R125) -/

/-- A beacon with the present state, the last multiple of BSTEP that the word reached and the TB of that FCLK waits for the Gallery. -/
def State.sendBeacon (s : State) (n : Nat) : State :=
  if s.bit (F.STAIR_BCFG.BEN n) && s.get (F.STAIR_CFG.ROLE n) = 1 then
    let step := 2 ^ s.get (F.STAIR_BCFG.BSTEPLOG n)
    let per := s.get (F.STAIR_PER_LO n) + 2 ^ 20 * s.get (F.STAIR_PER_HI n)
    { s with bcnOut := s.bcnOut ++ [(s.get (F.STAIR_BCFG.DEST n),
        ⟨s.get F.GAL_STAT.BAY, n, s.word n / step * step, (s.getTrk n).multT, s.trkState n, s.cycLen n, per⟩)] }
  else s

/-- The word reaches, or passes, a multiple of BSTEP now. -/
def State.multNow (s : State) (n : Nat) : State :=
  let tb := s.tb.toNat
  s.updTrk n fun t => { t with multT := tb }

/-- The word moved from `old` to `new`: a beacon when it reached or passed a multiple of BSTEP. -/
def State.beaconOnMove (s : State) (n old new : Nat) : State :=
  let step := 2 ^ s.get (F.STAIR_BCFG.BSTEPLOG n)
  if new < old || old / step < new / step then (s.multNow n).sendBeacon n else s

/-! ### Entering states (R121 to R123) -/

/-- A loss: the stitches act, HALT and CATCH clear, the word holds (R146, R168). -/
def State.leaveSync (s : State) (n : Nat) (e : TrkEvent) : State :=
  let s := s.stEvent n e
  let s := (s.set (F.STAIR_ISTAT.HALT n) 0).set (F.STAIR_ISTAT.CATCH n) 0
  s.updTrk n fun t => { t with catchC := none }

/-- Entry to LOST, STALLED or REVERSED: state, cause, source, Porter report, beacon (R122). -/
def State.enterLoss (s : State) (n st cause : Nat) (e : TrkEvent) (src : Nat) : State :=
  let s := s.leaveSync n e
  let s := (s.set (F.STAIR_STAT.STATE n) st).set (F.STAIR_STAT.CAUSE n) cause
  let s := (s.raise (trkSrc n src)).report (12 + n) cause
  s.sendBeacon n

/-- Entry to LOST (R121, R122); a cause other than REVERSE acts on stitches as LOST. -/
def State.enterLost (s : State) (n cause : Nat) : State :=
  (s.enterLoss n 3 cause .lost 2).inc (F.STAIR_SYNCCNT.LOSTS n)

/-- Entry to REVERSED (R120). -/
def State.enterReversed (s : State) (n cause : Nat) : State := s.enterLoss n 5 cause .reverse 4

/-- Entry to STALLED: SPEED and PERIOD entries take 0 (R117, R199); from SEARCH the word is 0. -/
def State.enterStalled (s : State) (n cause : Nat) : State :=
  let s := s.enterLoss n 4 cause .stall 3
  ((s.plansArrive n).qvFeed 2 n 0 false).qvFeed 3 n 0 false

/-- Entry to SEARCH: the word is 0, every held stamp and template entry is discarded, CYCNT restarts, and a written TPTLOG takes
effect (R123, R139, R140, R146). The stamp of the last edge stays: the stall time of SEARCH counts from an edge seen before the entry too
(R117; DESIGN CHOICE, assumption 61). RUNNING stays as it is (assumption 62). -/
def State.enterSearch (s : State) (n : Nat) : State :=
  let st := s.trkState n
  let s := (s.set (F.STAIR_STAT.STATE n) 0).set (F.STAIR_STAT.FLIGHT n) 0
  let s := (s.set (F.STAIR_ANGLE n) 0).set (F.STAIR_CYCNT n) 0
  let s := ((s.set (F.STAIR_ISTAT.QOK n) 0).set (F.STAIR_ISTAT.TPLFULL n) 0).set (F.STAIR_ISTAT.PACT n) 0
  let w := s.get (F.STAIR_CFG.TPTLOG n)
  let img := (s.getTrk n).imgTptLog
  let len := s.flights n * 2 ^ w * s.spanAll n / 16
  let log := if 4 ≤ w && w ≤ 12 && len ≤ 1048576 then w else img
  let s := if s.get (F.STAIR_CFG.ROLE n) % 2 = 1 then s.set (F.STAIR_LEN n) (s.flights n * 2 ^ log * s.spanAll n / 16 - 1) else s
  let s := s.updTrk n fun t =>
    { t with tptLog := log, last := none, m1 := none, m2 := none, run := 0, runP := none, runS := [], win := .expected, noise := 0,
             missN := 0, catchC := none, par := 0, stamps := [], q := none, tpl := [], fltA := none, fltB := none,
             geoNew := none, mult := none, beacons := 0, base := 0, counting := false }
  if st = 0 then s else (s.multNow n).sendBeacon n

/-- Entry to GAP_FOUND or CYCLE_SYNC (R110): state, source, and the plan points of every stitch on CYCLE_SYNC (R157). -/
def State.enterGap (s : State) (n : Nat) : State :=
  ((s.set (F.STAIR_STAT.STATE n) 1).raise (trkSrc n 1)).updTrk n fun t => { t with firstRec := true }
def State.enterCycle (s : State) (n : Nat) : State :=
  ((s.set (F.STAIR_STAT.STATE n) 2).raise (trkSrc n 0)).updTrk n fun t => { t with firstRec := true }

/-! ### The word -/

/-- The gauge is told of tread 0 (R227). -/
def State.gauZeroSend (s : State) (n : Nat) : State := s.updGau fun g => { g with inbound := g.inbound ++ [.zero n] }

/-- CYCLE_SYNC is entered with the word at `a`: tread 0 counts as reached (R227). -/
def State.entryZero (s : State) (n a : Nat) : State := if a = 0 then s.gauZeroSend n else s

/-- The word takes `new` by a step or a jump: CYCNT, FLIGHT, the missed-tooth count and the gauge's tread 0 at a wrap, the stitches,
a beacon at a multiple (R115, R123, R125, R132, R157, R227). -/
def State.moveWord (s : State) (n new : Nat) (mv : Move) (stitches : Bool) : State :=
  let old := s.word n
  if new = old then s
  else
    let s := s.set (F.STAIR_ANGLE n) new
    let wrap := decide (new < old)
    let s := if wrap then s.updTrk n fun t => { t with missN := 0 } else s
    let s := if s.trkState n = 2 then
        let s := s.setB (F.STAIR_STAT.FLIGHT n) (s.bit (F.STAIR_GEOM.FL2 n) && decide (s.flightLen n ≤ new))
        if wrap then (s.incW (F.STAIR_CYCNT n)).gauZeroSend n else s
      else s
    let s := if stitches then s.stWord n old new mv else s
    s.beaconOnMove n old new

/-! ### Records and what a tooth delivers (R128, R201, R216, R481) -/

/-- The record of the tooth that began the running interval goes to the FIFO and the gauge (R128). -/
def State.appendRecord (s : State) (n : Nat) (r : ToothRec) (stampTb : Nat) : State :=
  let t := s.getTrk n
  let s := if t.fifo.length < 16 then s.updTrk n fun t => { t with fifo := t.fifo ++ [r] }
    else (s.inc (F.STAIR_HSTAT.OVF n)).raise (trkSrc n 9)
  let flight := if s.trkState n = 2 && s.bit (F.STAIR_GEOM.FL2 n) && s.flightLen n ≤ t.base then 1 else 0
  let g : GauRec := ⟨n, r, t.base / 2 ^ t.tptLog, stampTb, s.trkState n = 2, flight, t.firstRec⟩
  (s.updGau fun x => { x with inbound := x.inbound ++ [.record g] }).updTrk n fun t => { t with firstRec := false }

/-- SPEED, in sixteenths of a revolution per minute, of `treads` treads in `p` ticks (R201). -/
def State.speedOf (s : State) (n treads p : Nat) : Int :=
  if p * s.flightLen n = 0 then 524287 else min (rndDivN (384000000000 * treads) (p * s.flightLen n) : Nat) 524287

/-- SPEED and PERIOD entries update (R199, R201), after what the tracker sent to the chart engine before (R8). -/
def State.speedUpdate (s : State) (n treads p : Nat) : State :=
  ((s.plansArrive n).qvFeed 2 n (s.speedOf n treads p) false).qvFeed 3 n (min p 524287 : Nat) false

/-- Plan entries at the given tooth positions fire: requests in ascending recipe number, then entry order (R216). -/
def State.firePlans (s : State) (n : Nat) (pos : List Nat) : State :=
  if s.trkState n ≠ 2 then s
  else
    let reqs := (List.range 64).flatMap fun r =>
      match s.cht.recipes.find? (fun e => e.1 = r) with
      | none => []
      | some e => (e.2.plan.filter (fun p => p.2.1 = n && pos.contains p.1)).map (fun p => (⟨r, p.2.2, n⟩ : PlanReq))
    s.updCht fun c => { c with inbound := c.inbound ++ reqs }

/-- The last measured period shows in PER_LO and PER_HI, saturating (R128). -/
def State.showPeriod (s : State) (n p : Nat) : State :=
  let p := min p 1073741823
  (s.set (F.STAIR_PER_LO n) p).set (F.STAIR_PER_HI n) (p / 2 ^ 20)

/-- What VARM and VPK become at a VR tooth (R97, R98). The spec rounds neither ADAPT × VPK / 16 nor VARM / 2: the model rounds down to whole
5 mV (DESIGN CHOICE, assumption 60). -/
def State.vrTooth (s : State) (n : Nat) (vpk : BitVec 10) : State :=
  if s.bit (F.STAIR_CFG.INTYPE n) then s
  else
    let v := max (s.get (F.STAIR_VR.VRFLOOR n)) (s.get (F.STAIR_VR.ADAPT n) * vpk.toNat / 16)
    (s.set (F.STAIR_VPK n) vpk.toNat).updTrk n fun t => { t with varm := v, vdrop := false }

/-! ### Phase (R110 to R113) -/

/-- The phase value at a landing-end tooth: the count since the last one, or the level of CAMTRK's input; the running count passes
to LAST and an edge of the same FCLK counts toward the new flight (R111, R112). In SEARCH nothing counts or clears RUNNING, so the
landing-end tooth that ends SEARCH passes to LAST what stood before (DESIGN CHOICE, assumption 62). -/
def State.phaseCount (s : State) (n : Nat) : Nat × State :=
  let c := s.get (F.STAIR_CAMCNT.RUNNING n)
  let before := (s.getTrk n).camT.bind fun e => if e.1 = s.fclk then some e.2 else none
  let same := before.isSome
  let v := before.getD c
  (v, (s.set (F.STAIR_CAMCNT.LAST n) v).set (F.STAIR_CAMCNT.RUNNING n) (b2n same))
def State.camLevel (s : State) (n : Nat) : Nat := s.get (F.STAIR_STAT.INLVL (s.get (F.STAIR_CFG2.CAMTRK n)))

/-- The flight a phase value names, when it matches exactly one. -/
def State.flightOf (s : State) (n v : Nat) : Option Nat :=
  let p0 := s.get (F.STAIR_PHASE.PHASE0 n)
  let p1 := s.get (F.STAIR_PHASE.PHASE1 n)
  let m0 := if s.phMode n = 2 then p0 % 2 = v else p0 = v
  let m1 := if s.phMode n = 2 then p1 % 2 = v else p1 = v
  if m0 && !m1 then some 0 else if m1 && !m0 then some 1 else none
def State.phaseFits (s : State) (n v f : Nat) : Bool :=
  let p := if f = 1 then s.get (F.STAIR_PHASE.PHASE1 n) else s.get (F.STAIR_PHASE.PHASE0 n)
  if s.phMode n = 2 then p % 2 = v else p = v

/-- A phase mismatch: PHERR and its source (R111, R113). -/
def State.phaseError (s : State) (n : Nat) : State :=
  ((s.inc (F.STAIR_SYNCCNT.PHERR n)).raise (trkSrc n 6)).flightBad n

/-! ### Accepting a tooth -/

/-- The interval that the tooth of entry `k` at angle `a` begins: base, treads, entry, prediction (R131, R133, R136). -/
def State.beginInterval (s : State) (n k a st : Nat) : State :=
  let tr := s.treadsOf n k
  let f := s.fclk
  let s := s.set (F.STAIR_STAT.TIDX n) k
  let s := s.updTrk n fun t => { t with last := some st, accT := f, accF := f, base := a, n := tr, win := .expected, noise := 0 }
  s.predict n k (if s.trkState n = 2 && s.flightLen n ≤ a then 1 else 0)

/-- The stamp of the tooth of entry `k` is held, and Q is its distance from the stamp one cycle earlier (R139); the parity of the
flight turns at tooth ORIGIN. `skip` is an entry that was missed. -/
def State.holdStamp (s : State) (n k st : Nat) (skip : Option Nat) : State :=
  let t := s.getTrk n
  let o := s.get (F.STAIR_GEOM.ORIGIN n)
  let two := s.bit (F.STAIR_GEOM.FL2 n)
  let p1 := if two && skip = some o then 1 - t.par else t.par
  let st1 := match skip with
    | none => t.stamps
    | some m => cellPut (fun _ => 0) t.stamps (m + 256 * p1) 0
  let p2 := if two && k = o then 1 - p1 else p1
  let key := k + 256 * p2
  let old := cellGet (fun _ => 0) st1 key
  s.updTrk n fun t =>
    { t with par := p2, stamps := cellPut (fun _ => 0) st1 key st, q := if old = 0 then none else some (st - old) }

/-- After the word stands at the tooth: record, SPEED and PERIOD, sources, plan entries, acceptance scans. -/
def State.toothDelivers (s : State) (n k p treads : Nat) (missed noise land : Bool) (pos : List Nat) : State :=
  let s := s.appendRecord n ⟨min p 1073741823, k, missed, noise⟩ (s.tbAt ((s.getTrk n).last.getD 0))
  let s := s.speedUpdate n treads p
  let s := s.raiseIf missed (trkSrc n 5)
  let s := s.raiseIf land (trkSrc n 7)
  let s := s.raiseIf (s.bit (F.STAIR_TTA.IRQ n k)) (trkSrc n 8)
  let s := s.firePlans n pos
  s.stTooth n

/-- The stamps of the run's teeth, the last of which began the landing, are held as those of the entries before it (R139). -/
def State.holdRun (s : State) (n le : Nat) : State :=
  let nt := s.nTeeth n
  let l := (s.getTrk n).runS.take nt
  s.each (l.zipIdx.reverse) fun s e => s.holdStamp n ((le + nt - e.2 % nt) % nt) e.1 none

/-- Leaving SEARCH at a landing-end tooth (R109, R110, R112, R481). `p` is the landing interval, `pr` the period before it. Where the level
resolves the flight at once, GAP_FOUND is passed in the same FCLK: both sources are raised, and one beacon carries the state that stands
(R112, R125; DESIGN CHOICE, assumption 63). -/
def State.syncFromSearch (s : State) (n st p pr : Nat) : State :=
  let le := s.landEntry n
  let nt := s.nTeeth n
  let k := (le + 1) % nt
  let s := s.updTrk n fun t =>
    { t with m1 := some ⟨p, s.effLen n le⟩, m2 := some ⟨pr, s.effLen n ((le + nt - 1) % nt)⟩, missN := 0,
             fltA := none, fltB := some ⟨[st], false⟩ }
  let a := s.toothAngle n k
  let (_, s) := s.phaseCount n
  let s := s.updTrk n fun t => { t with counting := true }
  let two := s.bit (F.STAIR_GEOM.FL2 n)
  let f := if !two then some 0 else if s.phMode n = 2 then s.flightOf n (s.camLevel n) else none
  let s := if two then s.enterGap n else s
  let s := match f with
    | some f =>
      let s := s.enterCycle n
      (s.set (F.STAIR_ANGLE n) (a + f * s.flightLen n)).setB (F.STAIR_STAT.FLIGHT n) (f = 1)
    | none => s.set (F.STAIR_ANGLE n) a
  let w := s.word n
  let s := (if f.isSome then s.entryZero n w else s).multNow n
  let s := (s.holdRun n le).beginInterval n k w st
  let s := s.holdStamp n k st none
  let s := if f.isSome then s.stEntry n else s
  let s := s.sendBeacon n
  s.toothDelivers n k p (s.treadsOf n le) false false true [w / 2 ^ (s.getTrk n).tptLog]

/-- The word goes to the tooth's angle `a`: an ordinary step, a jump, or the start of a catch-up (R144, R145). -/
def State.wordToTooth (s : State) (n a : Nat) (missed stitches : Bool) : State :=
  let c := s.word n
  let m := s.wordMod n
  let d := subMod a c m
  let s := (s.set (F.STAIR_ISTAT.HALT n) 0).set (F.STAIR_ISTAT.CATCH n) 0
  let now := s.fclk
  let s := s.updTrk n fun t => { t with catchC := none }
  if missed then s.moveWord n a .missed stitches
  else if d ≤ 1 then s.moveWord n a .step stitches
  else if s.bit (F.STAIR_CFG.EARLY n) then
    (s.set (F.STAIR_ISTAT.CATCH n) 1).updTrk n fun t => { t with catchC := some c, catchT := now }
  else s.moveWord n a .early stitches

/-- A tooth accepted in GAP_FOUND or CYCLE_SYNC at stamp `st`, `p` ticks after the last: the expected one, or with `missed` the one
after it (R105, R111, R113, R114). The choices of assumption 64: the interval that ends is measured on the E in force before learned G
values come into force at this acceptance, and the older period keeps its E (R146, R150); a tooth that resolves the flight to flight 0
sets the word at once, early and with EARLY 1 too (R111, R145). -/
def State.acceptTooth (s : State) (n st p : Nat) (missed : Bool) : State :=
  let t := s.getTrk n
  let nt := s.nTeeth n
  let j := s.get (F.STAIR_STAT.TIDX n)
  let k1 := (j + 1) % nt
  let k := if missed then (k1 + 1) % nt else k1
  let le := s.landEntry n
  let land := decide (k = (le + 1) % nt)
  let noise := decide (0 < t.noise)
  let fl := if s.flightLen n ≤ t.base then 1 else 0
  let treads := s.treadsOf n j + (if missed then s.treadsOf n k1 else 0)
  let m := s.wordMod n
  let a := (t.base + treads) % m
  let posMissed := (t.base + s.treadsOf n j) % m
  -- measured period, template, counts
  let e := s.effLen n j + (if missed then s.effLen n k1 else 0)
  let s := if s.trkState n = 2 && !missed then s.tplUpdate n j fl p else s
  let s := (s.showPeriod n p).updTrk n fun t =>
    { t with m2 := t.m1, m1 := some ⟨p, e⟩ }
  let s := if missed then s.inc (F.STAIR_ERRCNT.MISSED n) else s
  let s := if missed || noise then s.flightBad n else s
  let s := s.geoCount n
  -- phase at the landing-end tooth
  let cnt := s.camLevel n
  let (v, s) := if land then (let r := s.phaseCount n; (if s.phMode n = 2 then cnt else r.1, r.2)) else (0, s)
  let gap := s.trkState n = 1
  let counting := (s.getTrk n).counting
  let resolve : Option Nat :=
    if land && gap && ((s.phMode n = 1 && counting) || s.phMode n = 2) then s.flightOf n v else none
  let f := if s.flightLen n ≤ a then 1 else 0
  let badGap := land && gap && s.phMode n = 1 && counting && resolve.isNone && !s.phaseFits n v 0 && !s.phaseFits n v 1
  let badCyc := land && !gap && s.phMode n ≠ 0 && !s.phaseFits n v f
  let s := if badGap || badCyc then s.phaseError n else s
  let s := if land then s.flightClose n st else s.flightTooth n st
  let lost := badCyc && s.bit (F.STAIR_CFG.PHASEPOL n)
  -- the word
  match resolve with
  | some f =>
    let s := s.enterCycle n
    let a := s.toothAngle n k + f * s.flightLen n
    let s := if missed then s else s.tplUpdate n j (if s.flightLen n ≤ subMod a treads (s.cycLen n) then 1 else 0) p
    let wrap := decide (a < s.word n)
    let s := (s.set (F.STAIR_ANGLE n) a).setB (F.STAIR_STAT.FLIGHT n) (f = 1)
    let s := (s.set (F.STAIR_ISTAT.HALT n) 0).set (F.STAIR_ISTAT.CATCH n) 0
    let s := s.updTrk n fun t => { t with catchC := none, missN := if wrap then 0 else t.missN }
    let s := (s.entryZero n a).multNow n
    let s := s.holdStamp n k st none
    let s := s.beginInterval n k a st
    let s := s.stEntry n
    let s := s.sendBeacon n
    s.toothDelivers n k p treads missed noise land [a / 2 ^ (s.getTrk n).tptLog]
  | none =>
    let s := s.holdStamp n k st (if missed then some k1 else none)
    let s := s.beginInterval n k a st
    let s := if lost then s.moveWord n a .step false else s.wordToTooth n a missed true
    let s := if missed then s.updTrk n fun t => { t with missN := t.missN + 1 } else s
    let log := (s.getTrk n).tptLog
    let s := s.toothDelivers n k p treads missed noise land
      (if missed then [posMissed / 2 ^ log, a / 2 ^ log] else [a / 2 ^ log])
    if lost then s.enterLost n 6 else s

/-! ### Edges -/

/-- An edge of SEARCH (R108): the run, and the landing test on the period after it. -/
def State.searchEdge (s : State) (n st : Nat) : State :=
  let t := s.getTrk n
  match t.last with
  | none => s.updTrk n fun t => { t with last := some st, runS := [st] }
  | some l =>
    let p := st - l
    let s := (s.showPeriod n p).updTrk n fun t => { t with last := some st }
    match t.runP with
    | none => s.updTrk n fun t => { t with run := 1, runP := some p, runS := (st :: t.runS).take 256 }
    | some q =>
      let le := s.landEntry n
      let nt := s.nTeeth n
      let sl := s.span n le
      let sp := s.span n ((le + nt - 1) % nt)
      let mint := max 2 (s.get (F.STAIR_CFG2.MINTEETH n))
      if mint ≤ t.run && decide (s.wmin n le * sl * q ≤ 20 * sp * p) && decide (20 * sp * p ≤ s.wmax n le * sl * q) then
        s.syncFromSearch n st p q
      else if decide (s.get (F.STAIR_WIN.WMIN n) * q ≤ 20 * p) && decide (20 * p ≤ s.get (F.STAIR_WIN.WMAX n) * q) then
        s.updTrk n fun t => { t with run := t.run + 1, runP := some p, runS := (st :: t.runS).take 256 }
      else s.updTrk n fun t => { t with run := 0, runP := none, runS := [st] }

/-- An edge of GAP_FOUND or CYCLE_SYNC against the windows (R105 to R107, R114 to R116, R119). -/
def State.syncEdge (s : State) (n st : Nat) : State :=
  let t := s.getTrk n
  let p := st - t.last.getD 0
  let j := s.get (F.STAIR_STAT.TIDX n)
  let nt := s.nTeeth n
  let le := s.landEntry n
  let tp := s.tpred n
  let here := s.bit (F.STAIR_TTA.LANDING n j)
  let q := match t.m1 with | some m => m.p | none => 0
  let sl := s.span n le
  let sp := s.span n ((le + nt - 1) % nt)
  if s.dirMode n = 2 && !here && decide (0 < q) && decide (s.wmin n le * sl * q ≤ 20 * sp * p)
      && decide (20 * sp * p ≤ s.wmax n le * sl * q) then s.enterReversed n 7
  else if 20 * p < s.wmin n j * tp then
    let s := (s.inc (F.STAIR_ERRCNT.NOISE n)).updTrk n fun t => { t with noise := t.noise + 1 }
    if here && decide (tp ≤ 4 * p) then s.enterLost n 4
    else if s.get (F.STAIR_CFG2.NOISELIM n) < t.noise + 1 then s.enterLost n 1
    else s
  else if 20 * p ≤ s.wmax n j * tp then s.acceptTooth n st p false
  else if 20 * p ≤ s.wmax n ((j + 1) % nt) * t.tpred2 then
    if here || s.bit (F.STAIR_TTA.LANDING n ((j + 1) % nt)) then s.enterLost n 2
    else
      let a := (t.base + s.treadsOf n j + s.treadsOf n ((j + 1) % nt)) % s.wordMod n
      if s.get (F.STAIR_CFG2.MISSLIM n) ≤ (if a < t.base then 0 else t.missN) then s.enterLost n 5
      else s.acceptTooth n st p true
  else s.enterLost n 3

/-- An active edge of a main tracker at stamp `st`, by its state (Table 5.8). -/
def State.mainEdge (s : State) (n st : Nat) : State :=
  let s := s.updTrk n fun t => { t with lastAny := some st }
  match s.trkState n with
  | 0 => s.searchEdge n st
  | 1 => s.syncEdge n st
  | 2 => s.syncEdge n st
  | 3 => if s.bit (F.STAIR_CFG.AUTORS n) then (s.enterSearch n).searchEdge n st else s
  | 4 => (s.enterSearch n).searchEdge n st
  | 5 => if s.dirMode n = 2 then s.enterLost n 7 else s
  | _ => s

/-- An active edge of a phase tracker counts for every main tracker that names it: in GAP_FOUND and CYCLE_SYNC, and in SEARCH where
the landing-end tooth of the same FCLK starts the first count (R95, R111). -/
def State.phaseEdge (s : State) (n : Nat) : State :=
  s.each (List.range 4) fun s m =>
    if s.get (F.STAIR_CFG.ROLE m) = 1 && s.get (F.STAIR_CFG2.CAMTRK m) = n && s.phMode m ≠ 0 && s.trkState m ≤ 2 then
      let f := s.fclk
      let c := s.get (F.STAIR_CAMCNT.RUNNING m)
      (if s.trkState m = 0 then s else s.inc (F.STAIR_CAMCNT.RUNNING m)).updTrk m fun t => { t with camT := some (f, c) }
    else s

/-- The end of a direction pulse, at the inactive edge with stamp `st` (R118, R120). -/
def State.dirEnd (s : State) (n st : Nat) : State :=
  match (s.getTrk n).pulse with
  | none => s
  | some b =>
    let rev := decide (400 * s.get (F.STAIR_FILT.DIRW n) < st - b)
    let s := (s.setB (F.STAIR_STAT.DIR n) rev).updTrk n fun t => { t with pulse := none }
    match s.trkState n with
    | 0 => if rev then s.updTrk n fun t => { t with run := 0, runP := none, runS := t.last.toList } else s
    | 1 => if rev then s.enterReversed n 7 else s
    | 2 => if rev then s.enterReversed n 7 else s
    | 5 => if rev then s else s.enterLost n 7
    | _ => s

/-- The level that is the active edge's: falling for a VR input, EDGE for a pin (R96, R97). -/
def State.activeLevel (s : State) (n : Nat) : Bool := s.bit (F.STAIR_CFG.INTYPE n) && s.bit (F.STAIR_CFG.EDGE n)

/-- The tracker follows its pin: it has a local role and RUN is 1 (R94, R121). -/
def State.trkOn (s : State) (n : Nat) : Bool :=
  s.bit (F.STAIR_CTRL.RUN n) && (s.get (F.STAIR_CFG.ROLE n) = 1 || s.get (F.STAIR_CFG.ROLE n) = 2)

/-- The input that tracker `n` takes (R95). -/
def State.inputOf (s : State) (n : Nat) : Nat := if s.bit (F.STAIR_CFG.INTYPE n) then 4 + s.get (F.STAIR_CFG.WHLSEL n) else n

/-- A change of level passes to tracker `n`: a VR input rises where the voltage crosses VARM (R97); every other change has held for the
filter time, `age` FCLK after its first sample (R96). -/
def State.inputPass (s : State) (n : Nat) (lvl : Bool) (age : Nat) (vpk : BitVec 10) : Bool :=
  if !s.bit (F.STAIR_CFG.INTYPE n) && lvl then decide ((s.getTrk n).varm ≤ vpk.toNat) else decide (s.accDelay n ≤ age)

/-- A change of level on the input of tracker `n`, first sampled `age` FCLK ago (R96 to R100). A VR tooth has its arming before it. -/
def State.inputEdge (s : State) (n : Nat) (lvl : Bool) (age : Nat) (vpk : BitVec 10) : State :=
  if !s.trkOn n || (s.getTrk n).pin = lvl || !s.inputPass n lvl age vpk then s
  else
    let s := s.updTrk n fun t => { t with pin := lvl }
    if !s.bit (F.STAIR_STAT.ARMED n) then
      if lvl then (s.set (F.STAIR_STAT.ARMED n) 1).set (F.STAIR_STAT.INLVL n) 1 else s
    else
      let s := s.setB (F.STAIR_STAT.INLVL n) lvl
      if lvl = s.activeLevel n then
        let s := s.vrTooth n vpk
        let b := s.fclk - age
        let s := if s.dirMode n = 1 then s.updTrk n fun t => { t with pulse := some b } else s
        if s.get (F.STAIR_CFG.ROLE n) = 2 then s.phaseEdge n else s.mainEdge n b
      else if s.dirMode n = 1 then s.dirEnd n (s.fclk - age)
      else s

/-- The input is enabled: above the upper threshold it reads high and is armed at once (R99); VARM starts at VRSTART (R97). -/
def State.enableInput (s : State) (n : Nat) : State :=
  let v := s.get (F.STAIR_VR.VRSTART n)
  let i := s.getInp (s.inputOf n)
  let hi := i.lvl && (s.bit (F.STAIR_CFG.INTYPE n) || decide (v ≤ i.pk))
  ((s.setB (F.STAIR_STAT.ARMED n) hi).setB (F.STAIR_STAT.INLVL n) hi).updTrk n fun t =>
    { t with pin := hi, varm := v, vdrop := false, pulse := none, lastAny := none }

/-- A write of STAIRn_CFG. A change of ROLE takes the tracker out of sync as clearing RUN does, and into SEARCH, which STATE reads for the
roles Off and Phase (R94, R95); a change of the input enables the new one (R99). The spec gives neither change (DESIGN CHOICE, assumption
65). -/
def State.cfgWrite (s : State) (n : Nat) (src : Master) (v : Word) : State :=
  let a := R.STAIR_CFG n
  let t := s.writeCodes src a v
  if t.get (F.STAIR_CFG.ROLE n) = s.get (F.STAIR_CFG.ROLE n) then
    if t.inputOf n ≠ s.inputOf n && t.trkOn n then t.enableInput n else t
  else
    let s := if s.trkState n = 1 || s.trkState n = 2 then s.enterLost n 8 else s
    let s := (s.writeCodes src a v).enterSearch n
    if s.trkOn n then s.enableInput n else s

/-- RUN is set or cleared (R121). -/
def State.trkRun (s : State) (n : Nat) (run : Bool) : State :=
  let was := s.bit (F.STAIR_CTRL.RUN n)
  let s := s.setB (F.STAIR_CTRL.RUN n) run
  if run && !was then (s.enterSearch n).enableInput n
  else if !run && was then
    let s := if s.trkState n = 1 || s.trkState n = 2 then s.enterLost n 8 else s
    s.enterSearch n
  else s

/-! ### Interpolated treads (R133, R143, R145, R147) -/

/-- HALT: the word stands at the last tread of the interval, and its predicted time has come; two of them on a remote tracker
(R143). "The halt of R143 falls at A_b + 2N - 1": the model takes it with 2 × Tpred elapsed (R147; DEDUCED, assumption 66). -/
def State.haltCheck (s : State) (n : Nat) : State :=
  let k : Nat := if s.get (F.STAIR_CFG.ROLE n) = 3 then 2 else 1
  if (s.getTrk n).catchC.isNone && decide (subMod (s.word n) (s.getTrk n).base (s.wordMod n) = s.treadCap n)
      && decide (k * s.tpred n ≤ s.elapsed n) then s.set (F.STAIR_ISTAT.HALT n) 1
  else s

/-- The word takes one tread in this FCLK. -/
def State.treadTake (s : State) (n : Nat) : State :=
  let f := s.fclk
  (s.moveWord n ((s.word n + 1) % s.wordMod n) .step true).updTrk n fun t => { t with stepT := f }

/-- One FCLK's tread of tracker `n`, or the halt: one tread at most in an FCLK, and none in the FCLK of a tooth (R132, R133, R145, R146).
OVSP is the formula's own of R133, so a catch-up that the limit holds back does not set it (DESIGN CHOICE, assumption 64). -/
def State.treadStep (s : State) (n : Nat) : State :=
  if (s.trkState n ≠ 1 && s.trkState n ≠ 2) || (s.getTrk n).stepT = s.fclk then s
  else
    let t := s.getTrk n
    let m := s.wordMod n
    let w := s.word n
    match t.catchC with
    | some c =>
      let s := if subMod w c m < s.catchDue n c then s.treadTake n else s
      if s.word n = s.wPrime n then
        ((s.set (F.STAIR_ISTAT.CATCH n) 0).updTrk n fun t => { t with catchC := none }).haltCheck n
      else s
    | none =>
      let pos := subMod w t.base m
      let due := s.treadsDue n
      if pos < due then
        let s := s.treadTake n
        let s := if pos + 1 < due && s.tpred n < t.n then s.evt (F.STAIR_ISTAT.OVSP n) else s
        (if s.get (F.STAIR_CFG.ROLE n) = 3 then s.set (F.STAIR_ISTAT.HALT n) 0 else s).haltCheck n
      else s.haltCheck n

/-! ### Remote trackers (R126, R127, R147) -/

/-- The state a beacon's source is in, taken by the remote (R127). A beacon that carries SEARCH leaves the remote as it is (DESIGN CHOICE,
assumption 67). -/
def State.remoteState (s : State) (n st : Nat) : State :=
  if s.trkState n = st then s
  else match st with
    | 1 => (s.enterGap n).sendBeacon n
    | 2 =>
      let s := (s.enterCycle n).setB (F.STAIR_STAT.FLIGHT n) (s.bit (F.STAIR_GEOM.FL2 n) && decide (s.flightLen n ≤ s.word n))
      (s.stEntry n).sendBeacon n
    | 3 => s.enterLost n 11
    | 4 => s.enterStalled n 11
    | 5 => s.enterReversed n 11
    | _ => s

/-- The word after a beacon (R147): C below W' - 1 is early, C beyond W' holds. -/
def State.wordToBeacon (s : State) (n : Nat) : State :=
  let c := s.word n
  let m := s.wordMod n
  let w := s.wPrime n
  let d := subMod w c m
  let now := s.fclk
  let s := (s.set (F.STAIR_ISTAT.HALT n) 0).set (F.STAIR_ISTAT.CATCH n) 0
  let s := s.updTrk n fun t => { t with catchC := none }
  if d ≤ 1 then s.moveWord n w .step true
  else if m / 2 < d then s.set (F.STAIR_ISTAT.HALT n) 1
  else if s.bit (F.STAIR_CFG.EARLY n) then
    (s.set (F.STAIR_ISTAT.CATCH n) 1).updTrk n fun t => { t with catchC := some c, catchT := now }
  else s.moveWord n w .early true

/-- A beacon accepted as the expected one, or with `missed` the one after it. One that brings CYCLE_SYNC to a remote in GAP_FOUND counts as
accepted in CYCLE_SYNC (R216, R481). -/
def State.acceptBeacon (s : State) (n : Nat) (b : Beacon) (p : Nat) (missed : Bool) : State :=
  let step := 2 ^ s.get (F.STAIR_RCFG.BSTEPLOG n)
  let k : Nat := if missed then 2 else 1
  let log := (s.getTrk n).tptLog
  let s := (s.showPeriod n p).updTrk n fun t =>
    { t with m2 := t.m1, m1 := some ⟨p, (262144 * k : Nat)⟩, mult := some b.mult }
  let s := if missed then (s.inc (F.STAIR_ERRCNT.MISSED n)).raise (trkSrc n 5) else s
  let f := s.fclk
  let s := s.updTrk n fun t =>
    { t with last := some b.tb, accT := b.tb, accF := f, base := b.mult, n := step, win := .expected, noise := 0 }
  let up := s.trkState n = 1 && b.st = 2
  let s := (if up then s.enterCycle n else s).predict n 0 0
  let s := if up then
      let w := s.wPrime n
      let s := (s.set (F.STAIR_ISTAT.HALT n) 0).set (F.STAIR_ISTAT.CATCH n) 0
      let s := (s.updTrk n fun t => { t with catchC := none }).set (F.STAIR_ANGLE n) w
      ((s.setB (F.STAIR_STAT.FLIGHT n) (s.bit (F.STAIR_GEOM.FL2 n) && decide (s.flightLen n ≤ w))).entryZero n w).stEntry n
    else if missed then
      let w := s.wPrime n
      ((((s.set (F.STAIR_ISTAT.HALT n) 0).set (F.STAIR_ISTAT.CATCH n) 0).updTrk n fun t => { t with catchC := none }).moveWord n w
        .missed true).updTrk n fun t => { t with missN := t.missN + 1 }
    else s.wordToBeacon n
  let s := s.speedUpdate n (step * k) p
  let s := s.firePlans n (if missed then [subMod b.mult step (s.cycLen n) / 2 ^ log, b.mult / 2 ^ log] else [b.mult / 2 ^ log])
  s.stTooth n

/-- Sync of a remote tracker from SEARCH, at the second consistent beacon (R127), which counts as accepted in the state it brings. -/
def State.beaconSync (s : State) (n : Nat) (b : Beacon) (p : Nat) : State :=
  let s := s.updTrk n fun t => { t with m1 := some ⟨p, 262144⟩, m2 := none, mult := some b.mult, missN := 0 }
  let s := s.showPeriod n p
  let step := 2 ^ s.get (F.STAIR_RCFG.BSTEPLOG n)
  let f := s.fclk
  let s := s.updTrk n fun t => { t with last := some b.tb, accT := b.tb, accF := f, base := b.mult, n := step, win := .expected, noise := 0 }
  let s := s.predict n 0 0
  let s := s.set (F.STAIR_ANGLE n) (((s.getTrk n).base + s.treadsDue n) % (if b.st = 1 then s.flightLen n else s.cycLen n))
  let s := s.remoteState n b.st
  let s := if b.st = 2 then s.entryZero n (s.word n) else s
  let s := s.speedUpdate n step p
  let s := s.firePlans n [b.mult / 2 ^ (s.getTrk n).tptLog]
  s.stTooth n

/-- A beacon of SEARCH. One that carries SEARCH has no effect, on the count of consecutive beacons neither (DESIGN CHOICE, assumption
67). -/
def State.searchBeacon (s : State) (n : Nat) (b : Beacon) : State :=
  let t := s.getTrk n
  let step := 2 ^ s.get (F.STAIR_RCFG.BSTEPLOG n)
  if b.len ≠ s.cycLen n then s.set (F.STAIR_STAT.CAUSE n) 9
  else if b.st ≠ 1 && b.st ≠ 2 then s.remoteState n b.st
  else if 1 ≤ t.beacons && t.mult.isSome && b.mult = (t.mult.getD 0 + step) % s.cycLen n then
    s.beaconSync n b (b.tb - t.last.getD 0)
  else s.updTrk n fun t => { t with beacons := 1, mult := some b.mult, last := some b.tb }

/-- A beacon of GAP_FOUND or CYCLE_SYNC: its multiple first, then its time against the windows (R126). One with another L is not the
tracker's next beacon: LOST with cause BEACON, which the rule says of SEARCH only (DESIGN CHOICE, assumption 67). -/
def State.syncBeacon (s : State) (n : Nat) (b : Beacon) : State :=
  let t := s.getTrk n
  let step := 2 ^ s.get (F.STAIR_RCFG.BSTEPLOG n)
  let l := s.cycLen n
  let p := b.tb - t.last.getD 0
  let prev := t.mult.getD 0
  let tp := s.tpred n
  if b.len ≠ l then s.enterLost n 9
  else if b.st ≠ 1 && b.st ≠ 2 then s.remoteState n b.st
  else if b.mult = prev then s.remoteState n b.st
  else if b.mult = (prev + step) % l then
    if 20 * p < s.get (F.STAIR_WIN.WMIN n) * tp then
      let s := (s.inc (F.STAIR_ERRCNT.NOISE n)).updTrk n fun t => { t with noise := t.noise + 1 }
      if s.get (F.STAIR_CFG2.NOISELIM n) < t.noise + 1 then s.enterLost n 1 else s
    else if 20 * p ≤ s.get (F.STAIR_WIN.WMAX n) * tp then (s.acceptBeacon n b p false).remoteState n b.st
    else s.enterLost n 9
  else if b.mult = (prev + 2 * step) % l && decide (s.get (F.STAIR_WIN.WMAX n) * tp < 20 * p)
      && decide (20 * p ≤ s.get (F.STAIR_WIN.WMAX n) * t.tpred2) then
    if s.get (F.STAIR_CFG2.MISSLIM n) ≤ (if b.mult < prev then 0 else t.missN) then s.enterLost n 5
    else (s.acceptBeacon n b p true).remoteState n b.st
  else s.enterLost n 9

/-- A beacon reaches remote tracker `n` (R126, R127). -/
def State.takeBeacon (s : State) (n : Nat) (b : Beacon) : State :=
  if !s.bit (F.STAIR_CTRL.RUN n) || s.get (F.STAIR_CFG.ROLE n) ≠ 3 then s
  else if s.get (F.STAIR_RCFG.BLATMAX n) * 200 < s.tb.toNat - b.tb then s.raise (trkSrc n 10)
  else
    let f := s.fclk
    let s := s.updTrk n fun t => { t with lastAny := some f }
    if (b.st = 3 || b.st = 4 || b.st = 5) && b.len = s.cycLen n then s.remoteState n b.st
    else match s.trkState n with
    | 0 => s.searchBeacon n b
    | 1 => s.syncBeacon n b
    | 2 => s.syncBeacon n b
    | 3 => if s.bit (F.STAIR_CFG.AUTORS n) then (s.enterSearch n).searchBeacon n b else s
    | 4 => (s.enterSearch n).searchBeacon n b
    | 5 => (s.enterSearch n).searchBeacon n b
    | _ => s

/-! ### The commands -/

/-- VR_ARM_DROP (R98): in GAP_FOUND and CYCLE_SYNC, past the predicted time and not armed, VARM falls once; half
of it is rounded down to whole 5 mV (DESIGN CHOICE, assumption 60). -/
def execVrArmDrop (n : Fin 4) (s : State) : Out :=
  .next <|
    let t := s.getTrk n
    if s.angleOk n && !s.bit (F.STAIR_CFG.INTYPE n) && s.get (F.STAIR_CFG.ROLE n) = 1 && (s.trkState n = 1 || s.trkState n = 2)
        && !t.pin && !t.vdrop && decide (s.tpred n ≤ s.fclk - t.accT) then
      let v := max (s.get (F.STAIR_VR.VRFLOOR n)) (t.varm / 2)
      s.updTrk n fun t => { t with varm := v, vdrop := true }
    else s

/-- Time since the last accepted tooth's stamp, for windows that close with no edge. -/
def State.sinceLast (s : State) (n : Nat) : Nat :=
  (if s.get (F.STAIR_CFG.ROLE n) = 3 then s.tb.toNat else s.stampNow n) - (s.getTrk n).last.getD 0

/-- TOOTH_WINDOW_EXPIRE (R114): the expected window closes and the two-tooth window opens; a missing beacon is counted. -/
def execToothWindowExpire (n : Fin 4) (s : State) : Out :=
  .next <|
    if s.angleOk n && (s.trkState n = 1 || s.trkState n = 2) && (s.getTrk n).win = .expected
        && decide (s.wmax n (s.get (F.STAIR_STAT.TIDX n)) * s.tpred n < 20 * s.sinceLast n) then
      let s := s.updTrk n fun t => { t with win := .two }
      s.raiseIf (s.get (F.STAIR_CFG.ROLE n) = 3) (trkSrc n 10)
    else s

/-- TWO_TOOTH_WINDOW_EXPIRE (R116, R126): a remote goes LOST at once, a main tracker at its next edge. -/
def execTwoToothWindowExpire (n : Fin 4) (s : State) : Out :=
  .next <|
    if s.angleOk n && (s.trkState n = 1 || s.trkState n = 2) && (s.getTrk n).win = .two
        && decide (s.wmax n ((s.get (F.STAIR_STAT.TIDX n) + 1) % s.nTeeth n) * (s.getTrk n).tpred2 < 20 * s.sinceLast n) then
      if s.get (F.STAIR_CFG.ROLE n) = 3 then (s.raise (trkSrc n 10)).enterLost n 9
      else s.updTrk n fun t => { t with win := .closed }
    else s

/-- STALL_T in FCLK: 1 to 1000 ms (R117). -/
def State.stallTime (s : State) (n : Nat) : Nat := 400000 * max 1 (min 1000 (s.get (F.STAIR_STALL n)))

/-- The stall deadline, where one runs (R117). In SEARCH it runs from the last edge seen, one before the entry included (DESIGN CHOICE,
assumption 61). -/
def State.stallAt (s : State) (n : Nat) : Option Nat :=
  let t := s.getTrk n
  match s.trkState n with
  | 0 => if s.get (F.STAIR_CFG.ROLE n) = 2 then none else t.lastAny.map (· + s.stallTime n)
  | 1 => if s.get (F.STAIR_CFG.ROLE n) = 3 then none else t.last.map (· + max (s.stallTime n) (4 * s.tpred n))
  | 2 => if s.get (F.STAIR_CFG.ROLE n) = 3 then none else t.last.map (· + max (s.stallTime n) (4 * s.tpred n))
  | 3 => t.lastAny.map (· + s.stallTime n)
  | 5 => if s.get (F.STAIR_CFG.ROLE n) = 3 then none else t.lastAny.map (· + s.stallTime n)
  | _ => none

/-- The stall is declared when its deadline has passed by the time an edge takes to its use (R117). -/
def State.stallTake (s : State) (n : Nat) : State :=
  match s.stallAt n with
  | some d => if s.bit (F.STAIR_CTRL.RUN n) && decide (d + s.accDelay n ≤ s.fclk) then s.enterStalled n 10 else s
  | none => s

/-- DIRECTION_PULSE_END (R118, R120): the inactive edge of a direction-encoded pulse. -/
def execDirectionPulseEnd (n : Fin 4) (s : State) : Out :=
  .next <|
    if s.angleOk n && s.trkOn n && s.dirMode n = 1 && s.bit (F.STAIR_STAT.ARMED n) && (s.getTrk n).pin = s.activeLevel n then
      let l := !s.activeLevel n
      let i := s.inputOf n
      let s : State := { s with inp := vupd s.inp i fun x => { x with lvl := l } }
      ((s.updTrk n fun t => { t with pin := l }).setB (F.STAIR_STAT.INLVL n) l).dirEnd n (s.stampNow n)
    else s

/-- A write of RESYNC (R121). -/
def State.resync (s : State) (n : Nat) : State :=
  if s.bit (F.STAIR_CTRL.RUN n) then
    match s.trkState n with
    | 3 => s.enterSearch n
    | 1 => s.enterLost n 8
    | 2 => s.enterLost n 8
    | _ => s
  else s
/-- A write of STAIRn_CTRL: RUN by the limits, RESYNC and CLRCNT as written (R121, R130). -/
def State.clearCounts (s : State) (n : Nat) : State :=
  ((((s.set (F.STAIR_ERRCNT.NOISE n) 0).set (F.STAIR_ERRCNT.MISSED n) 0).set (F.STAIR_SYNCCNT.LOSTS n) 0).set
    (F.STAIR_SYNCCNT.PHERR n) 0).set (F.STAIR_HSTAT.OVF n) 0

/-- A write of `v` to STAIRn_CTRL as far as RUN goes: the image's limits look at the whole value (R79, R121). -/
def State.runWrite (s : State) (n : Nat) (src : Master) (v : Word) : State :=
  let a := R.STAIR_CTRL n
  let old := (s.reg a).toNat
  let s' := if bitOf (s.wlAllow src a v.toNat) 0 then s.trkRun n (bitOf v.toNat 0) else s
  if s.wlBlocked src a old v.toNat then s'.recordReject a else s'

/-! ### What waits for an edge of the same FCLK (R124, R146) -/

/-- An edge or a beacon for tracker `n` waits to be handled in this FCLK. -/
def State.edgeWaits (s : State) (n : Nat) : Bool :=
  s.waiting.any fun c => match c with
    | .wheelEdge i _ _ _ => s.trkOn n && s.inputOf n = i.val
    | .beaconReceive m => m.val = n
    | _ => false

def State.trkDo (s : State) (n : Nat) (a : TrkAct) : State :=
  match a with
  | .stall => s.stallTake n
  | .resync => s.resync n
  | .run src v => s.runWrite n src v
  | .tread chk => (s.treadStep n).stCheck chk

/-- A stall, a RESYNC, a change of RUN or a tread takes place at once, or after the edge that the rules put before it. -/
def State.trkAct (s : State) (n : Nat) (a : TrkAct) : State :=
  if s.edgeWaits n then s.updTrk n fun t => { t with acts := t.acts ++ [a] } else s.trkDo n a

/-- An edge or a beacon of tracker `n` has been handled: what waited for it follows. -/
def State.trkActs (s : State) (n : Nat) : State :=
  let l := (s.getTrk n).acts
  if l.isEmpty || s.edgeWaits n then s else (s.updTrk n fun t => { t with acts := [] }).each l fun s a => s.trkDo n a

/-- WHEEL_EDGE (R95 to R116): a wheel input stands at a new level, first sampled `age` FCLK ago, for every tracker that takes it. -/
def execWheelEdge (inp : Fin 12) (lvl : Bool) (age : Nat) (vpk : BitVec 10) (s : State) : Out :=
  .next <|
    let s : State := { s with inp := vupd s.inp inp fun _ => ⟨lvl, vpk.toNat⟩ }
    (s.each (List.range 4) fun s n =>
      if s.angleOk n then (if s.inputOf n = inp.val then s.inputEdge n lvl age vpk else s).trkActs n else s).suFlush

/-- TRACKER_STALL (R117). -/
def execTrackerStall (n : Fin 4) (s : State) : Out := .next (if s.angleOk n then s.trkAct n .stall else s)

/-- TRACKER_RESYNC (R121). -/
def execTrackerResync (n : Fin 4) (s : State) : Out := .next (if s.angleOk n then s.trkAct n .resync else s)

/-- TRACKER_RUN_WRITE (R121). -/
def execTrackerRunWrite (n : Fin 4) (src : Master) (run : Bool) (s : State) : Out :=
  .next (if s.angleOk n then s.trkAct n (.run src (BitVec.ofNat 20 (b2n run))) else s)

/-- TRACKER_CLEAR_COUNTS (R130). -/
def execTrackerClearCounts (n : Fin 4) (s : State) : Out := .next (if s.angleOk n then s.clearCounts n else s)

/-- HISTORY_RECORD_READ (R128): the head record is removed; nothing on an empty FIFO. -/
def execHistoryRecordRead (n : Fin 4) (s : State) : Out :=
  .next (if s.angleOk n then s.updTrk n fun t => { t with fifo := t.fifo.drop 1 } else s)

/-- TREAD_STEP (R133). -/
def execTreadStep (n : Fin 4) (chk : Option (Fin 128)) (s : State) : Out :=
  .next (if s.angleOk n then s.trkAct n (.tread chk) else s).suFlush

/-- BEACON_RECEIVE (R126): the next received beacon of the source tracker `n` follows. -/
def execBeaconReceive (n : Fin 4) (s : State) : Out :=
  .next <|
    (if s.angleOk n then
      match s.bcnIn.find? (fun e => e.1 = n.val && e.2.bay = s.get (F.STAIR_RCFG.SRCBAY n) && e.2.trk = s.get (F.STAIR_RCFG.SRCTRK n)) with
      | none => s.trkActs n
      | some e => (({ s with bcnIn := s.bcnIn.erase e } : State).takeBeacon n e.2).trkActs n
    else s).suFlush

/-- A write of STAIRn_GEOk, ignored while LEARN is 1 and on a remote tracker (R151, R152). -/
def State.geoWrite (s : State) (n k : Nat) (src : Master) (v : Word) : State :=
  if !s.bit (F.STAIR_GCTL.LEARN n) && s.get (F.STAIR_CFG.ROLE n) ≠ 3 then
    let a := R.STAIR_GEO n k
    let old := (s.reg a).toNat
    let s' := s.setGeo n k (s.merged src a old v.toNat)
    if s.wlBlocked src a old v.toNat then s'.recordReject a else s'
  else s
/-- GEOMETRY_WRITE. -/
def execGeometryWrite (n : Fin 4) (k : Fin 256) (src : Master) (v : Word) (s : State) : Out :=
  .next (if s.angleOk n then s.geoWrite n k src v else s)

/-- G_k := GEO0_k, for every k (R151). -/
def State.geoAll (s : State) (n : Nat) : State :=
  if s.get (F.STAIR_CFG.ROLE n) ≠ 3 then
    s.each (List.range 256) fun s k => s.setGeo n k (cellGet (fun _ => 0) (s.getTrk n).geo0 k)
  else s
/-- GEOMETRY_RESET. -/
def execGeometryReset (n : Fin 4) (s : State) : Out := .next (if s.angleOk n then s.geoAll n else s)

end Sys2Proof.Machine
end

