-- ==== Sys2Proof/Machine/Bus.lean ====
section
/-! DEFINITION. Register space and memory space as masters see them: what a read of a register shows and does, what a write does
(R2 to R4, R9, R23 to R25), and accesses to memory space cut by their alignment (R332). -/

namespace Sys2Proof.Machine

/-! ### Which island and block hold a register (Table 1.4) -/

/-- The block whose reset holds a register (Table 3.9). -/
def regBlock (a : Nat) : Option Nat := (List.range 16).find? fun b => decide ((blockRange b).1 ≤ a) && decide (a < (blockRange b).1 + (blockRange b).2)

/-- The access reaches a running clock (R9). -/
def State.regUp (s : State) (a : Nat) : Bool := match regIsland a with | some i => s.islandUp i | none => true

/-- The block of the register is not held in block reset. -/
def State.regFree (s : State) (a : Nat) : Bool := match regBlock a with | some b => s.blockFree b | none => true

/-! ### What a read shows -/

/-- Put bits of a value in place of a field. -/
def showFld (f : Fld) (v : Nat) (w : Nat) : Nat := (fldSet f (BitVec.ofNat 20 w) v).toNat

/-- A number from a test of each of `n` places. -/
def maskOf (n : Nat) (p : Nat → Bool) : Nat := (List.range n).foldl (fun m i => if p i then m + 2 ^ i else m) 0

/-- The geometry and template registers of a tracker, which read zero and take no write on a remote one (R152). -/
def geoReg (o : Nat) : Bool := o = 0x18 || o = 0x19 || o = 0x1E || o = 0x1F || o = 0x20 || decide (0x300 ≤ o)

/-- STAIR registers that stand elsewhere: history, deficit, template (R128, R140, R145). -/
def State.peekStair (s : State) (n o w : Nat) : Nat :=
  let t := s.getTrk n
  if s.get (F.STAIR_CFG.ROLE n) = 3 && geoReg o then 0
  else if 0x300 ≤ o then w % 65536 + 65536 * (15 * (w / 32768 % 2))
  else match o, t.fifo with
  | 0x10, r :: _ => r.per % 2 ^ 20
  | 0x11, r :: _ => r.per / 2 ^ 20 % 1024 + 1024 * (r.tidx % 256) + 2 ^ 18 * b2n r.missed + 2 ^ 19 * b2n r.noise
  | 0x10, [] => 0
  | 0x11, [] => 0
  | 0x12, l => showFld (F.STAIR_HSTAT.LEVEL n) l.length w
  | 0x1D, _ => s.deficit n % 2 ^ 20
  | 0x20, _ =>
    let c := s.get (F.STAIR_TPLIDX n)
    if c < s.flights n * s.nTeeth n then s.tplVal n c % 2 ^ 20 else 0
  | _, _ => w

/-- Stitch-unit registers that stand elsewhere: TBUSY and NARMED, and W0 to W5 by VIEWACT (R165). -/
def State.peekSu (s : State) (a w : Nat) : Nat :=
  if a = R.SU_STAT then
    showFld F.SU_STAT.NARMED ((List.range 128).filter fun n => s.get (F.STITCH_STATUS.STATE n) = 2).length
      (showFld F.SU_STAT.TBUSY s.timersBusy w)
  else if 0x2400 ≤ a && (a - 0x2400) % 8 < 6 then
    let n := (a - 0x2400) / 8
    (if s.bit F.SU_CTRL.VIEWACT then s.activeSet n else s.shadowSet n).word ((a - 0x2400) % 8)
  else w

/-- Timer and time-base registers that stand elsewhere: held halves, RUNNING, TB (R284, R289, R291). -/
def State.peekTmr (s : State) (a w : Nat) : Nat :=
  if a = R.TB_LO then s.tb.toNat % 2 ^ 20
  else if a = R.TB_MID then s.tb.toNat / 2 ^ 20 % 2 ^ 20
  else if a = R.TB_HI then s.tb.toNat / 2 ^ 40
  else if a < R.TB_LO then
    let n := (a - 0x4C00) / 8
    let t := s.getTmr n
    match (a - 0x4C00) % 8 with
    | 3 => t.heldReload.getD w
    | 4 => t.heldC0.getD w
    | 5 => t.heldC1.getD w
    | 7 => showFld (F.TMR_STAT.RUNNING n) (s.get (F.TMR_CTRL.RUN (if s.linkOdd n then n - 1 else n))) w
    | _ => w
  else w

/-- HOOK registers that stand elsewhere. -/
def State.peekHook (s : State) (a w : Nat) : Nat :=
  if a = R.HK_GSTAT then s.hkOut
  else if a = R.HK_RUN then maskOf 16 fun c => s.hkSt c ≠ 0
  else if a < 0x5500 && (a - 0x5400) % 0x10 = 4 then
    let c := (a - 0x5400) / 0x10
    showFld (F.HK_STAT.STATE c) (s.hkState c)
      (showFld (F.HK_STAT.BSTALL c) (b2n (s.hkStall c)) (showFld (F.HK_STAT.OUTST c) (s.getHk c).burst.length w))
  else w

/-- A host request is being carried out (R375). -/
def State.hostBusy (s : State) : Bool := s.host.done.isSome || s.host.remote.isSome || s.host.rest.isSome || s.host.nvRead.isSome

/-- The value of register `a`: its stored word, or what its status fields show of the unit behind it. WO and reserved bits read zero
(R3, R4). -/
def State.peek (s : State) (a : Nat) : Nat :=
  let w := (s.reg a).toNat &&& readMask a
  if 0x1000 ≤ a && a < 0x2000 then s.peekStair ((a - 0x1000) / 0x400) ((a - 0x1000) % 0x400) w
  else if 0x2000 ≤ a && a < 0x2800 then s.peekSu a w
  else if 0x2818 ≤ a && a ≤ 0x281B then
    maskOf (if a = 0x281B then 4 else 20) fun i => s.line (20 * (a - 0x2818) + i)
  else if a = R.CHT_STAT then
    showFld F.CHT_STAT.RUNNING (s.cht.ctx.toList.filter (·.isSome)).length (showFld F.CHT_STAT.QLEVEL s.cht.queue.length w)
  else if 0x3884 ≤ a && a < 0x3888 then showFld (F.GAU_HSTAT.ACTIVE (a - 0x3884)) (s.get (F.GAU_HCFG.HEN (a - 0x3884))) w
  else if 0x3898 ≤ a && a < 0x389A then let r := s.awoOut (a - 0x3898); r.1 + 2 ^ 16 * b2n r.2
  else if 0x4000 ≤ a && a < 0x4400 then
    let b := (a - 0x4000) / 0x100
    let o := (a - 0x4000) % 0x100
    if o = 0x80 then showFld (F.BED_STAT.BUSY b) (b2n (!s.bedStopped b)) w
    else if 0x40 ≤ o && o < 0x80 && o % 0x10 = 0xA then
      let m := 4 * b + (o - 0x40) / 0x10
      showFld (F.BED_NQSTAT.TXLVL m) (s.getNdl m).tx.length (showFld (F.BED_NQSTAT.RXLVL m) (s.getNdl m).rx.length w)
    else if 0x40 ≤ o && o < 0x80 && o % 0x10 = 9 then ((s.getNdl (4 * b + (o - 0x40) / 0x10)).rx.headD 0) % 2 ^ 20
    else w
  else if a = R.CMP_ZONE 0 || a = R.CMP_ZONE 1 then s.zonesRead a w
  else if 0x4C00 ≤ a && a < 0x5000 then s.peekTmr a w
  else if a = R.HAL_NVSTAT then showFld F.HAL_NVSTAT.BUSY (b2n (s.nvHas .host)) (showFld F.HAL_NVSTAT.WBUSY (b2n s.nvAny) w)
  else if a = R.HAL_LOGSTAT then showFld F.HAL_LOGSTAT.LEVEL s.hal.logQ.length w
  else if 0x5400 ≤ a && a < 0x5600 then s.peekHook a w
  else if a = R.GAL_RSTAT then b2n s.rosterAt.isSome
  else if 0x6032 ≤ a && a < 0x6036 then leAt (s.rosterAt.getD []) (2 * (a - 0x6032)) 2
  else if a = R.HOST_STAT then
    showFld F.HOST_STAT.BUSY (b2n s.hostBusy) (showFld F.HOST_STAT.READY (b2n s.host.result.isSome) w)
  else if 0x6440 ≤ a && a < 0x6450 then maskOf 20 fun j => s.srcPending (20 * (a - 0x6440) + j)
  else if 0x6830 ≤ a && a < 0x6840 then s.truDig (a - 0x6830)
  else if a = R.POR_STAT then showFld F.POR_STAT.PROMISE (b2n s.promise) (showFld F.POR_STAT.ALIVEON (b2n s.aliveOn) w)
  else if 0x7028 ≤ a && a < 0x7030 then maskOf 16 fun j => s.pairAct (16 * (a - 0x7028) + j)
  else w

/-! ### Reads -/

/-- A read of register `a` by a master (R3): the value, and what the read clears or removes. IRT_CLAIM is not cleared by a read: the
host port's claim is a step of its own (R383). -/
def State.regRead (s : State) (a : Nat) : State × Nat :=
  let v := s.peek a
  if 0x1000 ≤ a && a < 0x2000 && (a - 0x1000) % 0x400 = 0x11 then
    (s.updTrk ((a - 0x1000) / 0x400) fun t => { t with fifo := t.fifo.drop 1 }, v)
  else if 0x4000 ≤ a && a < 0x4400 && 0x40 ≤ (a - 0x4000) % 0x100 && (a - 0x4000) % 0x100 < 0x80 && a % 0x10 = 9 then
    (s.ndlRxRead (4 * ((a - 0x4000) / 0x100) + ((a - 0x4000) % 0x100 - 0x40) / 0x10), v)
  else if 0x4C00 ≤ a && a < 0x4C80 && a % 8 = 2 then let r := s.tmrRead ((a - 0x4C00) / 8); (r.2, r.1)
  else if a = R.IRT_CLAIM then (s, v)
  else (s.clearRC a, s.rcShow a v)

/-- A register read: the word, and whether it completed with a bus error (R9, R23). -/
def State.readReg (s : State) (a : Nat) : State × Nat × Bool :=
  if !s.regUp a then (s, 0, true)
  else
    let r := s.regRead a
    (r.1, r.2, false)

/-! ### Writes -/

/-- Writes into a STAIR block (R121, R130, R151). -/
def State.wrStair (s : State) (n o : Nat) (src : Master) (a : Nat) (v : Word) : State :=
  if o = 0 then s.cfgWrite n src v
  else if o = 6 then
    let s := s.trkAct n (.run src v)
    let s := if bitOf v.toNat 1 then s.trkAct n .resync else s
    if bitOf v.toNat 2 then s.clearCounts n else s
  else if s.get (F.STAIR_CFG.ROLE n) = 3 && geoReg o then s
  else if o = 0x19 then
    let s := s.writeCodes src a v
    let s := if bitOf v.toNat 2 then s.geoAll n else s
    if bitOf v.toNat 1 && !s.bit (F.STAIR_ISTAT.GBUSY n) && s.get (F.STAIR_CFG.ROLE n) ≠ 3 then s.geoSave n else s
  else if 0x300 ≤ o then s.geoWrite n (o - 0x300) src v
  else s.writeCodes src a v

/-- Writes into the stitch unit (R165, R166, R169). -/
def State.wrSu (s : State) (src : Master) (a : Nat) (v : Word) : State :=
  if a = R.SU_COMMIT then s.suAct (.commit (v.toNat % 128))
  else if a = R.SU_CANCEL then if v.toNat / 4096 = 0x3C then s.suAct (.cancel (v.toNat % 128)) else s
  else if 0x2400 ≤ a && (a - 0x2400) % 8 < 6 then s.suAct (.write ((a - 0x2400) / 8) ((a - 0x2400) % 8) src v)
  else s.writeCodes src a v

/-- Writes into a bed (R262 to R268). -/
def State.wrBed (s : State) (src : Master) (a : Nat) (v : Word) : State :=
  let b := (a - 0x4000) / 0x100
  let o := (a - 0x4000) % 0x100
  let m := 4 * b + (o - 0x40) / 0x10
  if a = R.BED0_SYNC then s.bedSync v.toNat src
  else if a = R.BED0_FLAGS then s.flagsClear v.toNat
  else if a = R.BED0_FSET then s.flagsSet v.toNat
  else if o < 0x40 then s.storeWrite b o src v
  else if o < 0x80 then
    match o % 0x10 with
    | 0 => s.ncfgWrite m src v
    | 1 =>
      if !s.ndlMay m src then s
      else if bitOf v.toNat 1 then s.ndlStop m 1 else if bitOf v.toNat 0 then s.ndlStart m else s
    | 2 => s.ndlPcWrite m (v.toNat % 64)
    | 8 => s.ndlTxWrite m v.toNat
    | _ => s.writeCodes src a v
  else s.writeCodes src a v

/-- Writes into the timers (R284 to R289). -/
def State.wrTmr (s : State) (src : Master) (a : Nat) (v : Word) : State :=
  let n := (a - 0x4C00) / 8
  if a = R.TMR_GRUN then s.tmrAct (.group v.toNat)
  else if a < 0x4C80 then
    match a % 8 with
    | 0 => s.tmrAct (.cfg n src v)
    | 1 =>
      let s := s.tmrAct (.run n (bitOf v.toNat 0))
      if bitOf v.toNat 1 then s.tmrAct (.clear n) else s
    | 2 => s.tmrAct (.count n v.toNat)
    | 3 => s.tmrAct (.reload n v.toNat)
    | 4 => s.tmrAct (.compare n 0 v.toNat)
    | 5 => s.tmrAct (.compare n 1 v.toNat)
    | _ => s.writeCodes src a v
  else s.writeCodes src a v

/-- Writes into the halls' registers (R303, R313). -/
def State.wrHal (s : State) (src : Master) (a : Nat) (v : Word) : State :=
  if a < 0x5010 then s.ownerWrite (a - 0x5000) src v
  else if a = R.HAL_NVCMD then
    if v.toNat / 4096 = 0xC3 then
      match v.toNat % 4 with
      | 1 => s.nvHost s.nvBuf
      | 2 => s.nvHost erased
      | _ => s
    else s
  else s.writeCodes src a v

/-- Writes into HOOK (R326, R329). -/
def State.wrHook (s : State) (src : Master) (a : Nat) (v : Word) : State :=
  let c := (a - 0x5400) / 0x10
  if a < 0x5500 then
    match a % 0x10 with
    | 0 => (s.writeCodes src a v).hkLook c
    | 1 => s.hkCtrl c v.toNat
    | 2 => s.hkPcWrite c false v.toNat
    | 3 => s.hkPcWrite c true v.toNat
    | _ => s.writeCodes src a v
  else s.writeCodes src a v

/-- Writes into HOST and IRT (R378, R384, R387). -/
def State.wrHost (s : State) (src : Master) (a : Nat) (v : Word) : State :=
  if a = R.IRT_HOST then s.hostWrite v
  else if a = R.IRT_DONE then s.doneWrite src v.toNat
  else if 0x6500 ≤ a && a < 0x6640 then
    let s := s.writeCodes src a v
    if bitOf v.toNat 13 then s.set (F.IRT_SRC.COUNT (a - 0x6500)) 0 else s
  else s.writeCodes src a v

/-- Writes into the Porter (R408, R411, R416, R419). -/
def State.wrPor (s : State) (src : Master) (a : Nat) (v : Word) : State :=
  if a = R.POR_CMD then
    let r := s.porCmd src v
    match r.1 with
    | 1 => r.2.capClear
    | 2 => r.2.chipReset .porter
    | _ => r.2
  else if 0x7010 ≤ a && a < 0x7018 then s.forceWrite (a - 0x7010) src v
  else if 0x7020 ≤ a && a < 0x7028 then s.sevClear (a - 0x7020) v.toNat
  else s.writeCodes src a v

/-- A frame of an object is on the bus when its request is withdrawn by a register write: the model holds no bus, so a free value says
so where the controller may send (assumption 26). -/
def State.canAbortReg (s : State) (x m : Nat) : State :=
  let on := if s.canSends x then s.canOnBus x else none
  let f := s.free
  f.2.canAbort x m (if f.1 % 2 = 1 then on else none)

/-- Writes into a CAN controller or the receivers (R446 to R449, R452). -/
def State.wrLink (s : State) (src : Master) (a : Nat) (v : Word) : State :=
  let x := if a < 0x7A00 then 0 else 1
  let o := (a - 0x7800) % 0x200
  if 0x7C00 ≤ a then
    let f := s.fclk
    let r := (a - 0x7C00) / 0x10
    let was := s.bit (F.SENT_CFG.EN r)
    let s := s.writeCodes src a v
    if a < 0x7C80 && a % 0x10 = 0 && !was && s.bit (F.SENT_CFG.EN r) then s.updSent r fun t => { t with accT := f, silent := false } else s
  else if o = 0 then (s.writeCodes src a v).canCfg x
  else if o = 6 then
    let s := if bitOf v.toNat 1 then s.canOwr x else s
    if bitOf v.toNat 0 then s.canRecover x else s
  else if o = 9 then s.canRequest x (v.toNat % 65536)
  else if o = 0xA then s.canRequest x (v.toNat % 65536 * 65536)
  else if o = 0xB then s.canAbortReg x (v.toNat % 65536)
  else if o = 0xC then s.canAbortReg x (v.toNat % 65536 * 65536)
  else if o = 0xF then s.canSelect x (v.toNat % 32)
  else s.writeCodes src a v

/-- The effect of a write of `v` to register `a` by a master, in an island that runs and a block that is not held. -/
def State.regWrite (s : State) (src : Master) (a : Nat) (v : Word) : State :=
  if a < 0x400 then s
  else if a < 0x800 then
    if a = R.PCR_BRST then s.blockRequests v.toNat
    else if a = R.PCR_VSTAT then let s := s.writeCodes src a v; if bitOf v.toNat 11 then s.vminClear else s
    else if a = R.PCR_MODE then if s.running then s.modeWrite src v else s
    else s.writeCodes src a v
  else if a < 0x1000 then
    if a = R.WVL_CMD then s.wvlCmd v.toNat
    else if a = R.WVL_DATA then s.loadData (v.toNat % 65536)
    else if a = R.WVL_OFS then s.ofsWrite src v
    else s.writeCodes src a v
  else if a < 0x2000 then s.wrStair ((a - 0x1000) / 0x400) ((a - 0x1000) % 0x400) src a v
  else if a < 0x2800 then s.wrSu src a v
  else if a < 0x3400 then
    if a = R.INJ_CMD then
      if v.toNat / 4096 = 0x69 && bitOf v.toNat 4 then s.set (F.INJ_STAT.DIS (v.toNat % 16)) 0 else s
    else s.writeCodes src a v
  else if a < 0x3800 then
    if a < 0x3440 then s.qvWrite (a - 0x3400) src v
    else if a = R.CHT_TCMD then if bitOf v.toNat 6 then s.testLookup (v.toNat % 64) else s
    else s.writeCodes src a v
  else if a < 0x4000 then
    if 0x3880 ≤ a && a < 0x3884 then (s.writeCodes src a v).hcfgWritten (a - 0x3880) (s.reg a)
    else if 0x3890 ≤ a && a < 0x3892 then (s.writeCodes src a v).awoCfgd (a - 0x3890) (s.reg a)
    else s.writeCodes src a v
  else if a < 0x4400 then s.wrBed src a v
  else if a < 0x4800 then s
  else if a < 0x4C00 then
    if a < 0x4818 then s.cmpWrite (a - 0x4800) src v
    else if 0x4820 ≤ a && a < 0x482C then s.winWrite (a - 0x4820) src v
    else s.writeCodes src a v
  else if a < 0x5000 then s.wrTmr src a v
  else if a < 0x5400 then s.wrHal src a v
  else if a < 0x6000 then s.wrHook src a v
  else if a < 0x6400 then if a = R.GAL_CTRL then s.galCtrl v.toNat else s.writeCodes src a v
  else if a < 0x6800 then s.wrHost src a v
  else if a < 0x7000 then if a = R.TRU_CMD then s.truCmdWrite v.toNat else s.writeCodes src a v
  else if a < 0x7400 then s.wrPor src a v
  else if a < 0x7800 then s.writeCodes src a v
  else if a < 0x8000 then s.wrLink src a v
  else s

/-- A register write: the state, and whether it completed with a bus error. A write to a block held in block reset changes nothing, as
the block's registers are held at their reset values (assumption 27). -/
def State.writeReg (s : State) (src : Master) (a : Nat) (v : Word) : State × Bool :=
  if !s.regUp a then (s, true)
  else if !s.regFree a then (s, false)
  else (s.regWrite src a v, false)

/-- REGISTER_WRITE (R3, R79, R80). -/
def execRegisterWrite (src : Master) (a : BitVec 16) (v : Word) (s : State) : Out := .next (s.writeReg src a.toNat v).1.suFlush

/-- READ_CLEAR: a read of a register by a master; `rd` holds the word it returned. -/
def execReadClear (_src : Master) (a : BitVec 16) (s : State) : Out :=
  .next (let r := s.readReg a.toNat; { r.1 with rd := BitVec.ofNat 20 r.2.1 })

/-! ### Memory space (R2, R24, R25, R332) -/

/-- Base of the registers in memory space. -/
def regBase : Nat := 0x4000000

/-- An access of `n` bytes at byte `a` of memory space, at most 8: what it reads, and how it ended. -/
def State.memRead (s : State) (m : Master) (a n acc : Nat) : State × List Byte × MemRes :=
  if a + n ≤ 0x800000 then s.hallOp m a n none acc
  else if decide (0x1000000 ≤ a) && decide (a + n ≤ 0x1200000) then s.nvSpace m (a - 0x1000000) n
  else if regSpace a && n = 4 && a % 4 = 0 then
    let r := s.readReg ((a - regBase) / 4)
    (r.1, leBytes 4 r.2.1, if r.2.2 then .refused else .ok)
  else (s, List.replicate n 0, .refused)

/-- A write access. NVS takes none (R25). -/
def State.memWrite (s : State) (m : Master) (a : Nat) (bs : List Byte) : State × MemRes :=
  if a + bs.length ≤ 0x800000 then let r := s.hallOp m a bs.length (some bs) 2; (r.1, r.2.2)
  else if regSpace a && bs.length = 4 && a % 4 = 0 then
    let r := s.writeReg m ((a - regBase) / 4) (BitVec.ofNat 20 (leNat bs))
    (r.1, if r.2 then .refused else .ok)
  else (s, .refused)

/-- The size of the next access from address `a` with `r` bytes left; 4 in register space (R332). -/
def accSize (a r : Nat) : Nat :=
  if regSpace a then 4
  else if a % 8 = 0 && 8 ≤ r then 8 else if a % 4 = 0 && 4 ≤ r then 4 else if a % 2 = 0 && 2 ≤ r then 2 else 1

/-- Reads of `r` bytes from `a` on, at most `k` accesses, up to the first that fails: state, bytes, outcome, address that failed. -/
def State.memReads (s : State) (m : Master) (acc : Nat) : Nat → Nat → Nat → State × List Byte × MemRes × Nat
  | 0, a, _ => (s, [], .ok, a)
  | _ + 1, a, 0 => (s, [], .ok, a)
  | k + 1, a, r + 1 =>
    let z := min (accSize a (r + 1)) (r + 1)
    let q := s.memRead m a z acc
    if q.2.2 ≠ .ok then (q.1, q.2.1, q.2.2, a)
    else
      let t := q.1.memReads m acc k (a + z) (r + 1 - z)
      (t.1, q.2.1 ++ t.2.1, t.2.2)

/-- Writes of bytes from `a` on, up to the first that fails. -/
def State.memWrites (s : State) (m : Master) : Nat → Nat → List Byte → State × MemRes × Nat
  | 0, a, _ => (s, .ok, a)
  | _ + 1, a, [] => (s, .ok, a)
  | k + 1, a, b :: bs =>
    let z := min (accSize a (bs.length + 1)) (bs.length + 1)
    let q := s.memWrite m a ((b :: bs).take z)
    if q.2 ≠ .ok then (q.1, q.2, a) else q.1.memWrites m k (a + z) ((b :: bs).drop z)

end Sys2Proof.Machine
end

