-- ==== Sys2Proof/Machine/Boot.lean ====
section
/-! DEFINITION. What WVL applies: an image at boot (R59, R81 to R85), and a block's part of it after a block reset (R58); boot step 4;
the crossing check (R10). -/

namespace Sys2Proof.Machine

/-! ### Applying sections (R77, R85) -/

/-- One REGS entry: its RW and WL bits are written as WVL writes them, and EO_CFGn.SAFE is set; bits of other codes are ignored. A hall
owner takes effect at once, since no access is under way. -/
def State.regsEntry (s : State) (e : Nat × Nat) : State :=
  let a := e.1
  let m := accMask a .rw ||| accMask a .wl
  let s := if m = 0 then s else s.regWrite .wvl a (BitVec.ofNat 20 (e.2 &&& m))
  if 0x2800 ≤ a && a < 0x2818 then s.set (F.EO_CFG.SAFE (a - 0x2800)) (e.2 / 1024 % 2)
  else if 0x5000 ≤ a && a < 0x5010 then
    match s.hal.handover.find? (fun x => x.1 = a - 0x5000) with
    | some x =>
      ((s.set (F.HAL_OWN.OWNER x.1) x.2).set (F.HAL_OWN.HOPEND x.1) 0).updHal fun h => { h with handover := cellDel x.1 h.handover }
    | none => s
  else s

/-- One section of an image (Table 4.5). -/
def State.sectApply (s : State) (x : Sect) : State :=
  let b := x.data
  match x.typ with
  | 0x01 => s.each (regsEnts b) State.regsEntry
  | 0x02 => s.updWvl fun w => { w with limits := limitEnts b }
  | 0x10 => s.wheelApply x.tgt b x.dig
  | 0x20 => s.stitchApply b
  | 0x21 => s.routeApply b fun _ _ => true
  | 0x30 => s.injApply b
  | 0x40 => s.bedApply x.tgt b
  | 0x50 => s.chartApply x.tgt b
  | 0x51 => s.recipeApply x.tgt b
  | 0x52 => s.qvmapApply b
  | 0x58 => s.gaugeApply b
  | 0x59 => s.awoApply x.tgt b
  | 0x60 => s.hallApply b
  | 0x68 => s.hookApply x.tgt b
  | 0x70 => s.winApply b
  | 0x78 => s.galApply b
  | 0x79 => s.linkApply b
  | 0x80 => s.porterApply b
  | 0x81 => s.safetyApply b
  | 0x88 => s.budgetApply b
  | 0x89 => s.paceApply b
  | _ => s

/-- Section types in the order of R85: HALL, REGS, the others ascending, LIMIT. -/
def applyOrder : List Nat :=
  [0x60, 0x01, 0x10, 0x20, 0x21, 0x30, 0x40, 0x50, 0x51, 0x52, 0x58, 0x59, 0x68, 0x70, 0x78, 0x79, 0x80, 0x81, 0x88, 0x89, 0x02]

/-- Sections of some types, in that order and ascending TARGET. -/
def sectsIn (l : List Sect) (ts : List Nat) : List Sect :=
  ts.flatMap fun t => (List.range 64 ++ [0xFFFF]).filterMap fun g => l.find? fun x => x.typ = t && x.tgt = g

/-- What APPLIED reads for a source (Table 4.9). -/
def appliedCode (src : ImgSrc) : Nat := match src with | .slot i => i.val + 1 | .host => 3 | .gallery => 4

/-- Every block is held in reset before an image is written, so nothing that was written earlier in boot survives (R76, R85): the blocks of
Table 3.9 with what lies behind them, EO, the timers and the routes take their reset values, and so does every RW and WL field of the
others but WVL and TRU, which serve the load (assumption 57). -/
def State.blocksReset (s : State) : State :=
  let s := s.each (List.range 16) State.unitReset
  let whole := fun a => (decide (0x2800 ≤ a) && decide (a < 0x3000)) || (decide (0x4C00 ≤ a) && decide (a < 0x4C80))
  let kept := fun a => decide (a < 0x400) || (decide (0x800 ≤ a) && decide (a < 0x1000)) || (decide (0x6800 ≤ a) && decide (a < 0x7000))
  let s : State := { s with regs := s.regs.filter (fun c => !whole c.1), tmr := .replicate 16 Tmr.reset, routes := [] }
  let s := s.updHal fun x => { x with handover := [] }
  s.each ((s.regs.map (·.1)).filter fun a => !kept a) fun s a =>
    s.setReg a (BitVec.ofNat 20 (pick (accMask a .rw ||| accMask a .wl) (resetOf a).toNat (s.reg a).toNat))

/-- The image is applied as one whole at the end of boot step 2, its plaintext retained; then all blocks are released together: windows
take their modes, marked needles and channels start, the self-test begins, and step 3 follows (R58, R59, R85, R262, R336, R429). -/
def State.imageApply (s : State) (src : ImgSrc) (im : Image) (plain : List Byte) : State :=
  let s := s.blocksReset.retain plain
  let s := s.each (sectsIn im.sects applyOrder) State.sectApply
  let s := if im.raise then s.floorRaise im.version else s
  let s := (s.set F.WVL_STAT.APPLIED (appliedCode src)).setB F.WVL_STAT.ENC im.enc
  let s := (s.setB F.WVL_STAT.SAFETY (sectGet im.sects 0x81 0xFFFF).isSome).set F.WVL_RUNVER im.version
  let s := if src = .host then s.evt F.WVL_STAT.DONE else s
  let s := s.updWvl fun w =>
    { w with run := some im, verify := none, next := none, wait := false,
             lastSlot := match src with | .slot i => some i | _ => none }
  let s := s.winSettle
  let s := s.each (List.range 4) fun s b => match sectGet im.sects 0x40 b with | some p => s.bedAuto b p | none => s
  (s.hookAuto.stcStart).step3Begin

/-! ### Boot step 2 (R81, R84, R389) -/

/-- A slot's verification begins, with the slot that follows when it fails. -/
def State.verifyBegin (s : State) (i : Fin 2) (nxt : Option (Fin 2)) : State :=
  s.updWvl fun w => { w with verify := some (.slot i), next := nxt }

/-- IMAGE_SLOT_LOAD: a BLANK device draws its identity. At wake the slot last applied is verified whatever BOOT_EFF reads, and where it
fails, boot stops: the spec names no other slot (R86; DESIGN CHOICE, assumption 58). Otherwise BOOT_EFF decides (R81): the image is
waited for, or the first candidate slot is verified, the one with the higher VERSION, A on equal ones. -/
def execImageSlotLoad (s : State) : Out :=
  .next <|
    if s.running && s.get F.PCR_STAT.BOOTSTEP = 2 && s.wvl.verify.isNone && s.wvl.load.isNone && !s.wvl.wait then
      let s := s.identDraw
      match s.wvl.lastSlot with
      | some i => s.verifyBegin i none
      | none =>
        if s.get F.CHIP_STRAP.BOOT_EFF ≠ 0 then s.updWvl fun w => { w with wait := true }
        else
          match s.slotValid 0, s.slotValid 1 with
          | true, true => if s.slotVer 0 < s.slotVer 1 then s.verifyBegin 1 (some 0) else s.verifyBegin 0 (some 1)
          | true, false => s.verifyBegin 0 none
          | false, true => s.verifyBegin 1 none
          | false, false => (s.wvlFlag 1).bootStop
    else s

/-- A verification at boot fails with a cause: the slot shows it and the other candidate follows; LIFECYCLE stops boot (Table 4.7). -/
def State.verifyFail (s : State) (src : ImgSrc) (c : Nat) : State :=
  match src with
  | .slot i =>
    let s := ((s.wvlFlag c).set (F.WVL_SLOT.STATE i) 2).set (F.WVL_SLOT.CAUSE i) c
    match (if c = 5 then none else s.wvl.next) with
    | some j => s.verifyBegin j none
    | none => s.bootStop
  | _ => (s.wvlFlag c).bootStop

/-- IMAGE_VERIFY_DONE: the verification under way in boot ends (R84). -/
def execImageVerifyDone (s : State) : Out :=
  .next <|
    match s.wvl.verify with
    | some src =>
      if s.islandUp .memory && s.get F.PCR_STAT.BOOTSTEP ≠ 6 then
        let r := s.verifySrc src
        match r.2 with
        | .error c => r.1.verifyFail src c
        | .ok (im, p) => r.1.imageApply src im p
      else s
    | none => s

/-! ### Boot step 4 (R59, R121, R417) -/

/-- BOOT_STEP_4: every tracker with a role runs; a reset that found a captured fault leaves its record; boot is complete. -/
def execBootStep4 (s : State) : Out :=
  .next <|
    if s.running && s.get F.PCR_STAT.BOOTSTEP = 4 then
      let s := s.each (List.range 4) fun s n => if s.get (F.STAIR_CFG.ROLE n) = 0 then s else s.trkRun n true
      let s := if s.pcr.found then s.logReset.updPcr fun p => { p with found := false } else s
      s.set F.PCR_STAT.BOOTSTEP 6
    else s

/-! ### Block resume (R58, Table 3.12) -/

/-- The block's sections are applied again, in ascending TYPE and TARGET. -/
def State.blockSects (s : State) (l : List Sect) (b : Nat) : State :=
  let route := sectBytes l 0x21 0xFFFF
  let link := sectBytes l 0x79 0xFFFF
  let put := fun (s : State) (ts : List Nat) => s.each (sectsIn l ts) State.sectApply
  if b < 4 then s.each ((sectsIn l [0x10]).filter fun x => x.tgt = b) State.sectApply
  else if b = 4 then put s [0x20]
  else if b = 5 then put (s.routeApply route fun c _ => c = 1) [0x30]
  else if b < 10 then
    (s.routeApply route fun c i => c = 3 && i / 8 = b - 6).each ((sectsIn l [0x40]).filter fun x => x.tgt = b - 6) State.sectApply
  else if b = 10 then put s [0x50, 0x51, 0x52]
  else if b = 11 then put s [0x58, 0x59]
  else if b = 12 then put (s.routeApply route fun c _ => c = 4) [0x68, 0x88]
  else if b < 15 then s.linkCan link (b - 13)
  else s.linkSent link

/-- What the block does when it resumes: a tracker runs, marked needles and channels start, ended runs are recorded. -/
def State.blockGo (s : State) (l : List Sect) (b : Nat) : State :=
  if b < 4 then if s.get (F.STAIR_CFG.ROLE b) = 0 then s else s.trkRun b true
  else if 6 ≤ b && b < 10 then match sectGet l 0x40 (b - 6) with | some p => s.bedAuto (b - 6) p | none => s
  else if b = 10 then s.chtResume
  else if b = 11 then s.gauResume
  else if b = 12 then s.hookAuto
  else s

/-- Sixteen cycles of the block's clock, in thirds of an FCLK (Table 1.1, R58). -/
def State.holdThirds (s : State) (b : Nat) : Nat :=
  if b < 6 then 48 else if b < 10 then 48 * s.ncl.div else 64

/-- Section types that block `b` takes from the retained copy (Table 3.12). -/
def blockTypes (b : Nat) : List Nat :=
  0x01 :: (if b < 4 then [0x10] else if b = 4 then [0x20] else if b = 5 then [0x21, 0x30] else if b < 10 then [0x21, 0x40]
    else if b = 10 then [0x50, 0x51, 0x52] else if b = 11 then [0x58, 0x59] else if b = 12 then [0x21, 0x68, 0x88] else [0x79])

/-- A section as it reads from the retained copy: each word with an error is recorded, an uncorrectable one reads zero (R305). -/
def State.retained (s : State) (x : Sect) : State × Sect :=
  let a := hall15 + x.ofs
  let es := s.hallErr.filter fun e => decide (a < 8 * e.1 + 8) && decide (8 * e.1 < a + x.data.length)
  if es.isEmpty then (s, x)
  else (s.each es fun s e => (s.hallWord .wvl (8 * e.1) 8 none false 1).1,
    { x with data := x.data.zipIdx.map fun p => if errGet s.hallErr ((a + p.2) / 8) = some .double then 0 else p.1 })

/-- The sections of a block as they read, and all others as they stand. -/
def State.retainedFor (s : State) (b : Nat) : List Sect → State × List Sect
  | [] => (s, [])
  | x :: t =>
    let r := if (blockTypes b).contains x.typ then s.retained x else (s, x)
    let q := r.1.retainedFor b t
    (q.1, r.2 :: q.2)

/-- BLOCK_RESET_RESUME: after the hold, REGS entries of the block's range in list order, its sections, and its resumption. -/
def execBlockResetResume (blk : Fin 16) (s : State) : Out :=
  .next <|
    match s.pcr.brst.find? (fun e => e.1 = blk.val), s.wvl.run with
    | some e, some im =>
      if s.running && decide (3 * e.2 + s.holdThirds blk ≤ 3 * s.fclk) then
        let r := blockRange blk
        let (s, sects) := s.retainedFor blk im.sects
        let regs := (regsEnts (sectBytes sects 0x01 0xFFFF)).filter fun x => decide (r.1 ≤ x.1) && decide (x.1 < r.1 + r.2)
        let s := s.each regs State.regsEntry
        let s := s.blockSects sects blk
        let s := (s.setBitAt F.PCR_BRSTAT blk false).updPcr fun p => { p with brst := p.brst.filter fun x => x.1 ≠ blk.val }
        s.blockGo sects blk
      else s
    | _, _ => s

/-! ### Crossings (R10) -/

/-- Detail code of a destination island. -/
def islandCode (i : Island) : Nat :=
  match i with | .angle => 0 | .needle => 1 | .memory => 2 | .gallery => 3 | .management => 4 | .safety => 5

/-- CROSSING_CHECK_FAIL: the item at the front of the path is discarded, and the fault is reported with the destination. An interrupt or a
feed of the variable file acts in the step that sends it, so its loss is noted for it. -/
def execCrossingCheckFail (dest : Island) (path : CrossPath) (s : State) : Out :=
  .next <|
    if !s.islandUp dest then s
    else
      let s := match path with
        | .planRequest => s.updCht fun x => { x with inbound := x.inbound.drop 1 }
        | .stitchItem => { s with suPath := s.suPath.drop 1 }
        | .gaugeRecord => s.updGau fun x => { x with inbound := x.inbound.eraseP fun i => !i.isZero }
        | .treadZero => s.updGau fun x => { x with inbound := x.inbound.eraseP GauItem.isZero }
        | .beacon => if dest = Island.gallery then { s with bcnOut := s.bcnOut.drop 1 } else { s with bcnIn := s.bcnIn.drop 1 }
        | .faultCount =>
          if dest = Island.safety then s.updPor fun p => { p with sevQ := p.sevQ.drop 1 } else s.updPor fun p => { p with countQ := p.countQ.drop 1 }
        | .pacingPulse => { s with hook := { s.hook with pulses := s.hook.pulses.drop 1 } }
        | .streamFrame => s.updGau fun x => { x with rx := x.rx.drop 1 }
        | .finding k => s.updPor fun p => { p with pulses := p.pulses.eraseP fun g => g.src = k.val }
        | .interrupt k => s.updPor fun p => { p with lost := p.lost ++ [LostItem.irq k.val] }
        | .feed kind idx => s.updPor fun p => { p with lost := p.lost ++ [LostItem.feed kind.val idx.val] }
        | .other => s
      s.report 8 (islandCode dest)

end Sys2Proof.Machine
end

