-- ==== Sys2Proof/Machine/HookRun.lean ====
section
/-! DEFINITION. HOOK's memory accesses: the descriptor fetch, the data of a burst, the status write (R318 to R325, R330 to R333). -/

namespace Sys2Proof.Machine

/-- DESCRIPTOR_FETCH: the whole descriptor is read. A pattern lies in a hall; a fetch elsewhere, or one that fails, stops the channel
with cause FETCH, and one that finds OWN 0 with cause END (R318, R324). -/
def State.hkFetch (s : State) (c : Fin 16) : State :=
  let pc := s.hkPc c
  if 0x800000 < pc + 16 then s.hkStop c 3
  else
    let r := s.memReads (.hook c) 4 16 pc 16
    let s := r.1
    let w := [leAt r.2.1 0 4, leAt r.2.1 4 4, leAt r.2.1 8 4, leAt r.2.1 12 4]
    if r.2.2.1 ≠ .ok then s.hkStop c 3
    else if !bitOf (w.getD 0 0) 31 then s.hkStop c 1
    else
      let s := (s.set (F.HK_CMPOFS c) 0xFFFFF).updHk c fun h =>
        { h with desc := some w, begun := false, paced := false, need := max 1 (w.getD 2 0 % 65536), bad := none, mism := false, issued := 0,
                 seq := h.seq + 1, left := [] }
      if 6 ≤ w.getD 0 0 % 16 then (s.freeAddr.2).hkBad c 5 s.freeAddr.1
      else s.hkSet c (if w.getD 0 0 % 16 = 4 then 2 else 3)
def execDescriptorFetch (c : Fin 16) (s : State) : Out :=
  .next (if s.hkUp && s.hkSt c = 1 && !(s.getHk c).stopping then s.hkFetch c else s)

/-- Accesses of one side are of 4 bytes: in register space, and at a fixed address (R332). -/
def fours (inc : Bool) (a : Nat) : Bool := regSpace a || !inc

/-- `k` reads of 4 bytes from `a` on, or at `a`. -/
def State.unitReads (s : State) (c : Fin 16) (inc : Bool) : Nat → Nat → State × List Byte × MemRes × Nat
  | 0, a => (s, [], .ok, a)
  | k + 1, a =>
    let q := s.memRead (.hook c) a 4 1
    if q.2.2 ≠ .ok then (q.1, q.2.1, q.2.2, a)
    else
      let r := q.1.unitReads c inc k (if inc then a + 4 else a)
      (r.1, q.2.1 ++ r.2.1, r.2.2)

/-- Reads of a burst's source. Where its accesses are of 4 bytes and the burst ends within one, the funnel holds the bytes beyond its
end for the next burst, so that each access is made once (R332; DEDUCED, assumption 70). -/
def State.srcRead (s : State) (c : Fin 16) (b : Burst) : State × List Byte × MemRes × Nat :=
  let inc := dSinc b.words
  if !fours inc b.src then s.memReads (.hook c) 1 64 b.src b.len
  else
    let left := (s.getHk c).left
    let have_ := left.length = (4 - b.ofs % 4) % 4
    let first := if have_ then (b.ofs + 3) / 4 else b.ofs / 4
    let r := s.unitReads c inc ((b.ofs + b.len + 3) / 4 - first) (b.words.getD 1 0 + if inc then 4 * first else 0)
    if r.2.2.1 ≠ .ok then r
    else
      let all := if have_ then left ++ r.2.1 else r.2.1.drop (b.ofs % 4)
      (r.1.updHk c fun h => { h with left := all.drop b.len }, all.take b.len, r.2.2)

/-- Reads of the second operand of a CMP. -/
def State.dstRead (s : State) (c : Fin 16) (b : Burst) : State × List Byte × MemRes × Nat :=
  let inc := dDinc b.words
  if fours inc b.dst then s.unitReads c inc (b.len / 4) b.dst else s.memReads (.hook c) 1 64 b.dst b.len

/-- Writes of a burst. -/
def State.sideWrite (s : State) (c : Fin 16) (inc : Bool) (a : Nat) (bs : List Byte) : State × MemRes × Nat :=
  if inc then s.memWrites (.hook c) 64 a bs
  else
    (List.range (bs.length / 4)).foldl (fun r i =>
      if r.2.1 ≠ .ok then r
      else
        let q := r.1.memWrite (.hook c) a (slice bs (4 * i) 4)
        (q.1, q.2, a)) (s, .ok, a)

/-- Bytes of a FILL: byte `x mod 4` of the pattern at address `x`. -/
def fillBytes (pat a n : Nat) (inc : Bool) : List Byte :=
  (List.range n).map fun i => byteOf (pat / 256 ^ ((if inc then a + i else i) % 4))

/-- Cause of a failed access (Table 15.6). -/
def resCause (r : MemRes) : Nat := if r = .refused then 1 else 2

/-- A comparison found its first difference. -/
def State.cmpFound (s : State) (c : Nat) (b : Burst) (i : Nat) : State :=
  if (s.getHk c).mism then s
  else
    let s := (s.set (F.HK_CMPOFS c) (b.ofs + i)).updHk c fun h => { h with mism := true }
    if dCmpStop b.words && s.hkSt c = 3 then s.hkSet c 4 else s

/-- A read of the burst falls on the NVS page being written, so it waits (R311). -/
def State.burstWaits (s : State) (b : Burst) : Bool :=
  let on := fun a => decide (0x1000000 ≤ a) && s.nvWaits (a - 0x1000000) b.len
  (dOp b.words = 0 && !b.read && on b.src) || (dOp b.words = 2 && (on b.src || on b.dst))

/-- The bytes a MOVE or FILL burst writes: those its reads gave, or will give now. None where a read fails: then the burst writes nothing
(assumption 70). -/
def State.burstData (s : State) (c : Fin 16) (b : Burst) : State × Option (List Byte) :=
  if b.read then (s, some b.data)
  else if dOp b.words = 1 then (s, some (fillBytes (b.words.getD 1 0) b.dst b.len (dDinc b.words)))
  else
    let x := s.srcRead c b
    if x.2.2.1 ≠ .ok then (x.1.burstBad c b (resCause x.2.2.1) x.2.2.2, none) else (x.1, some x.2.1)

/-- The accesses of one burst (R321, R330 to R333). -/
def State.burstRun (s : State) (c : Fin 16) (b : Burst) : State :=
  if dOp b.words = 2 then
    let x := s.srcRead c b
    if x.2.2.1 ≠ .ok then x.1.burstBad c b (resCause x.2.2.1) x.2.2.2
    else
      let y := x.1.dstRead c b
      if y.2.2.1 ≠ .ok then y.1.burstBad c b (resCause y.2.2.1) y.2.2.2
      else
        match (List.range b.len).find? fun i => x.2.1.getD i 0 ≠ y.2.1.getD i 0 with
        | some i => y.1.cmpFound c b i
        | none => y.1
  else
    let x := s.burstData c b
    match x.2 with
    | none => x.1
    | some d =>
      let y := x.1.sideWrite c (dDinc b.words) b.dst d
      if y.2.1 ≠ .ok then y.1.burstBad c b (resCause y.2.1) y.2.2 else y.1

/-- BURST_COMPLETE: the channel's oldest burst makes its accesses; bursts of a channel write in issue order (R330). -/
def execBurstComplete (c : Fin 16) (s : State) : Out :=
  .next <|
    match (s.getHk c).burst with
    | [] => s
    | b :: t =>
      if s.hkUp && !s.burstWaits b then ((s.updHk c fun h => { h with burst := t }).burstRun c b).hkDrained c else s

/-- BURST_TIMEOUT: the oldest burst of the channel has been outstanding for BTO µs and is abandoned; of its writes those of the first `wr`
bytes complete, then or later, and stand (R334). -/
def execBurstTimeout (c : Fin 16) (wr : Fin 65) (s : State) : Out :=
  .next <|
    match (s.getHk c).burst with
    | [] => s
    | b :: t =>
      if s.hkUp && decide (b.t + 400 * max 1 (s.get F.HK_GCFG) ≤ s.fclk) && !(s.comes (fun x => x = .burstComplete c) && !s.burstWaits b) then
        let s := s.updHk c fun h => { h with burst := t }
        let rd := dOp b.words = 2
        let s := (s.freeAddr.2).burstBad c b 4 s.freeAddr.1
        let s := if rd || wr.val = 0 then s
          else
            let x := s.burstData c { b with late := true, bad := true }
            match x.2 with
            | none => x.1
            | some d => (x.1.sideWrite c (dDinc b.words) b.dst (d.take wr)).1
        (s.reportSig ⟨69, c, if rd then b.src else b.dst, 3, if rd then 1 else 2⟩).hkDrained c
      else s

/-- The status byte (Table 15.1). -/
def statusByte (bad : Option Nat) (mism : Bool) : Nat :=
  bad.getD 0 + 16 * b2n bad.isSome + 32 * b2n mism + 64 * b2n bad.isNone

/-- The status write may be made. With BAR 1, and for a CMP, no burst of the descriptor is outstanding. With BAR 0 its data writes have been
issued: those to the pattern's own hall come before the status there, and the others may still be on their way (R325). -/
def State.hkWbReady (s : State) (c : Nat) : Bool :=
  let h := s.getHk c
  let bar := bitOf (s.hkWord c 0) 4 || s.hkWord c 0 % 16 = 2
  let away := fun (b : Burst) => decide (0x800000 ≤ b.dst) || b.dst / 524288 ≠ s.hkPc c / 524288
  s.hkSt c = 4 && !h.stopping && h.desc.isSome && h.burst.all fun b => b.late || (!bar && away b && !s.burstWaits b)

/-- Outstanding bursts of the descriptor whose writes are issued before its status: their reads are made by then. -/
def State.sendBursts (s : State) (c : Fin 16) : List Burst → State × List Burst
  | [] => (s, [])
  | b :: t =>
    if b.late then
      let r := s.sendBursts c t
      (r.1, b :: r.2)
    else
      let x := s.burstData c b
      let r := x.1.sendBursts c t
      (r.1, match x.2 with | some d => { b with data := d, read := true } :: r.2 | none => r.2)

/-- DESCRIPTOR_STATUS_WRITE: byte 2, then byte 3 as zero unless KEEP; then the completion acts and the channel goes on. -/
def State.hkWriteback (s : State) (c : Fin 16) : State :=
  let q := s.sendBursts c (s.getHk c).burst
  let s := q.1.updHk c fun h => { h with burst := q.2 }
  let h := s.getHk c
  let w := h.desc.getD []
  let pc := s.hkPc c
  let r := s.memWrite (.hook c) (pc + 2) [byteOf (statusByte h.bad h.mism)]
  if r.2 ≠ .ok then r.1.hkStop c 5
  else
    let q := if bitOf (w.getD 0 0) 5 then r else r.1.memWrite (.hook c) (pc + 3) [0]
    if q.2 ≠ .ok then q.1.hkStop c 5
    else
      let s := (q.1.hkPcSet c (pc + 16)).raiseIf (bitOf (w.getD 0 0) 6) (224 + c)
      let s : State := if w.getD 0 0 % 16 = 5 then
          { s with hook := { s.hook with pulses := s.hook.pulses ++ [(34 + c.val, w.getD 1 0 % 65536)] } }
        else s
      let s := (s.updHk c fun x =>
        { x with desc := none, begun := false, burst := x.burst.map fun b => { b with late := true, bad := b.bad || x.bad.isSome } }).hkSet c 1
      if h.mism && dCmpStop w then s.hkStop c 4 else s
def execDescriptorStatusWrite (c : Fin 16) (s : State) : Out :=
  .next (if s.hkUp && s.hkWbReady c then s.hkWriteback c else s)

end Sys2Proof.Machine
end

