-- ==== Sys2Proof/Machine/Remote.lean ====
section
/-! DEFINITION. Requests of other bays: register and memory accesses that Gallery frames ask for, and the answers kept (R364). -/

namespace Sys2Proof.Machine

/-- Reads of `n` registers from `a` on, up to the first bus error: state, values, no bus error (R364, R377). -/
def State.regReads (s : State) : Nat → Nat → State × List Nat × Bool
  | 0, _ => (s, [], true)
  | n + 1, a =>
    let r := s.readReg a
    if r.2.2 then (r.1, [], false)
    else
      let t := r.1.regReads n (a + 1)
      (t.1, r.2.1 :: t.2.1, t.2.2)

/-- Writes of registers from `a` on, up to the first bus error. -/
def State.regWrites (s : State) (m : Master) : Nat → List Nat → State × Bool
  | _, [] => (s, true)
  | a, v :: t =>
    let r := s.writeReg m a (BitVec.ofNat 20 v)
    if r.2 then (r.1, false) else r.1.regWrites m (a + 1) t

/-- An access of `n` bytes in the register range needs an address and a length that are multiples of 4 (R2, R377). -/
def memAligned (a n : Nat) : Bool := !regSpace a || (a % 4 = 0 && n % 4 = 0)

/-- The answer to a request is kept, and sent. -/
def State.respPut (s : State) (src tid status : Nat) (d : List Byte) : State :=
  let p := [byteOf tid, byteOf status] ++ d
  s.updGal fun g =>
    { g with respQ := g.respQ ++ [(src, p)], kept := g.kept.filter (fun e => e.1 ≠ src) ++ [(src, tid, p)] }

/-- A taken request: one whose TID was the source's last is answered from the store; any other is carried out. -/
def State.remote (s : State) (r : RxFrame) (k : State → List Byte → State × Bool × List Byte) : State :=
  let src := r.f.src.toNat
  let tid := leAt r.f.payload 0 1 % 16
  match s.gal.kept.find? (fun e => e.1 = src && e.2.1 = tid) with
  | some e => s.updGal fun g => { g with respQ := g.respQ ++ [(src, e.2.2)] }
  | none =>
    let q := k s r.f.payload
    q.1.respPut src tid (b2n (!q.2.1)) q.2.2

/-- The oldest request, when it is of a kind. -/
def State.onRequest (s : State) (kind : Nat) (k : State → List Byte → State × Bool × List Byte) : State :=
  s.onFrame (fun r => r.act && r.f.kind.toNat = kind) (fun s r => s.remote r k)

/-- A memory read touches an NVS page being written, so it waits (R311). -/
def State.memWaits (s : State) (a n : Nat) : Bool := decide (0x1000000 ≤ a) && s.nvWaits (a - 0x1000000) n

/-- The data of an answer: those read, or, after a bus error, bytes that the spec does not state. -/
def State.answer (s : State) (ok : Bool) (n : Nat) (d : List Byte) : State × Bool × List Byte :=
  if ok then (s, true, d) else let f := s.freeBytes n; (f.2, false, f.1)

/-- REMOTE_REGRD. -/
def State.remRegrd (s : State) (p : List Byte) : State × Bool × List Byte :=
  let n := leAt p 1 1
  if n = 0 || 16 < n then (s, false, [])
  else
    let r := s.regReads n (leAt p 2 2)
    r.1.answer r.2.2 (3 * n) (r.2.1.flatMap (leBytes 3))
def execRemoteRegrd (s : State) : Out := .next (s.onRequest 3 State.remRegrd)

/-- REMOTE_REGWR. -/
def State.remRegwr (s : State) (p : List Byte) : State × Bool × List Byte :=
  let r := s.regWrites .gallery (leAt p 2 2) ((chunks 3 (p.drop 4)).map leNat)
  (r.1, r.2, [])
def execRemoteRegwr (s : State) : Out := .next (s.onRequest 4 State.remRegwr)

/-- REMOTE_MEMRD. -/
def State.remMemrd (s : State) (p : List Byte) : State × Bool × List Byte :=
  let n := leAt p 1 1
  let a := leAt p 2 4
  if n = 0 || 56 < n then (s, false, [])
  else if !memAligned a n then s.answer false n []
  else
    let r := s.memReads .gallery 1 64 a n
    r.1.answer (r.2.2.1 = .ok) n r.2.1
def execRemoteMemrd (s : State) : Out :=
  .next (s.onFrame (fun r => r.act && r.f.kind = 5 && !s.memWaits (leAt r.f.payload 2 4) (leAt r.f.payload 1 1)) fun s r => s.remote r State.remMemrd)

/-- REMOTE_MEMWR. -/
def State.remMemwr (s : State) (p : List Byte) : State × Bool × List Byte :=
  let d := p.drop 6
  let a := leAt p 2 4
  if !memAligned a d.length then (s, false, [])
  else
    let r := s.memWrites .gallery 64 a d
    (r.1, r.2.1 = .ok, [])
def execRemoteMemwr (s : State) : Out := .next (s.onRequest 6 State.remMemwr)

end Sys2Proof.Machine
end

