-- ==== Sys2Proof/Machine/HostPort.lean ====
section
/-! DEFINITION. The host port: SPI frames, their checks, requests and results (R372 to R377). -/

namespace Sys2Proof.Machine

/-! ### The wire (R372 to R374) -/

/-- One byte of CRC-8 with polynomial 0x2F (R373). -/
def crc8Byte (c : Nat) (b : Byte) : Nat :=
  (List.range 8).foldl (fun x _ => if 128 ≤ x then ((2 * x) ^^^ 0x2F) % 256 else 2 * x) (c ^^^ b.toNat)

/-- CRC-8: initial value 0xFF, final XOR 0xFF. -/
def crc8 (l : List Byte) : Byte := byteOf ((l.foldl crc8Byte 0xFF) ^^^ 0xFF)

/-- PSTAT (Table 17.2). -/
def State.pstat (s : State) : Nat :=
  b2n s.hostBusy + 2 * b2n s.host.result.isSome + 4 * b2n s.host.crcErr + 8 * b2n s.host.fErr + 16 * b2n s.host.refused
    + 32 * b2n s.hirq + 64 * b2n s.htrap

/-- A frame error, by LASTERR (R376): PSTAT shows it in the next frame, HOST_ERRCNT counts it. -/
def State.hostErr (s : State) (e : Nat) : State :=
  let s := (s.set F.HOST_STAT.LASTERR e).evtInc (if e = 1 then F.HOST_ERRCNT.CRC else F.HOST_ERRCNT.FRAME)
  s.updHost fun h => if e = 1 then { h with crcErr := true } else { h with fErr := true }

/-- The length that Table 17.1 gives a request frame, from its OP and its NM1 or COUNT byte. -/
def hostLen (d : List Byte) : Nat :=
  let x := leAt d 2 1
  match leAt d 0 1 / 32 with
  | 1 => 6
  | 2 => 6 + 3 * (x % 16 + 1)
  | 3 => 8
  | _ => 8 + x

/-- How a frame of whole bytes fails, as LASTERR; 0 when it passes (R376). -/
def hostCheck (d : List Byte) : Nat :=
  match leAt d 0 1 / 32 with
  | 0 => if d.length < 2 then 2 else if d.getD 1 0 ≠ crc8 (d.take 1) then 1 else if d.getD 0 0 ≠ 0 then 2 else 0
  | 1 | 2 | 3 | 4 =>
    if d.length < 3 || d.length ≠ hostLen d then 2
    else if d.getLast? ≠ some (crc8 d.dropLast) then 1 else 0
  | _ => 2

/-- The bytes after PSTAT of a frame, and the consumption of the result once its CRC has been clocked out (R374, R375). -/
def State.hostSdo (s : State) (d : List Byte) : State :=
  let n := d.length - 1
  if d.take 2 = [0x00, 0xBD] then
    let r := s.host.result.getD (0, [])
    let body := byteOf r.1 :: r.2
    let out := [0] ++ body ++ [crc8 body]
    s.updHost fun h =>
      { h with sdo := (out ++ List.replicate n 0).take n, result := if out.length ≤ n then none else h.result }
  else s.updHost fun h => { h with sdo := List.replicate n 0 }

/-- A frame begins: SDO carries PSTAT, whose bits 2 to 4 describe the frame before. -/
def State.hostOpen (s : State) (d : List Byte) : State :=
  let p := s.pstat
  (s.updHost fun h =>
    { h with pstat := if d.isEmpty then h.pstat else p, crcErr := false, fErr := false, refused := false }).hostSdo d

/-! ### Requests (R375, R377) -/

/-- The request under way has a result, unless a reset has ended it meanwhile. -/
def State.hostEnd (s : State) (code : Nat) (d : List Byte) : State :=
  if s.host.done.isSome then s.updHost fun h => { h with done := some (code, d) } else s

/-- Register values in the host's form: three bytes, most significant first; or as four bytes of memory space. -/
def hostVals (mem : Bool) (l : List Nat) : List Byte := l.flatMap fun v => if mem then leBytes 4 v else beBytes 3 v

/-- A read of `n` registers from `a` on. One that comes to IRT_CLAIM stands there until the claim is answered (R383). -/
def State.hostRegs (s : State) (mem : Bool) (a n : Nat) : State :=
  let k := R.IRT_CLAIM - a
  if a ≤ R.IRT_CLAIM && R.IRT_CLAIM < a + n then
    let r := s.regReads k a
    if r.2.2 then
      r.1.updHost fun h =>
        { h with done := none, vals := r.2.1, rest := some (R.IRT_CLAIM + 1, n - k - 1), begun := false, claimed := none }
    else r.1.hostEnd 2 []
  else
    let r := s.regReads n a
    r.1.hostEnd (if r.2.2 then 1 else 2) (hostVals mem r.2.1)

/-- A read of memory outside the registers. -/
def State.hostMem (s : State) (a x : Nat) : State :=
  let r := s.memReads .host 1 64 a x
  r.1.hostEnd (if r.2.2.1 = .ok then 1 else 2) r.2.1

/-- A request for the local bay is carried out (R377). -/
def State.hostLocal (s : State) (op x : Nat) (d : List Byte) : State :=
  let body := d.dropLast
  match op with
  | 1 => s.hostRegs false (beNat (slice d 3 2)) (x % 16 + 1)
  | 2 =>
    let r := s.regWrites .host (beNat (slice d 3 2)) ((chunks 3 (body.drop 5)).map beNat)
    r.1.hostEnd (if r.2 then 1 else 2) []
  | 3 =>
    let a := beNat (slice d 3 4)
    if !memAligned a x then s.hostEnd 2 []
    else if regSpace a && a + x ≤ 0x4040000 then s.hostRegs true ((a - regBase) / 4) (x / 4)
    else if s.memWaits a x then s.updHost fun h => { h with done := none, nvRead := some (a, x) }
    else s.hostMem a x
  | _ =>
    let a := beNat (slice d 3 4)
    if !memAligned a x then s.hostEnd 2 []
    else
      let r := s.memWrites .host 64 a (body.drop 7)
      r.1.hostEnd (if r.2.1 = .ok then 1 else 2) []

/-- The rest of the payload, after TID, of the Gallery frame that carries a request (Table 16.3). -/
def hostBody (op x : Nat) (d : List Byte) : List Byte :=
  let body := d.dropLast
  match op with
  | 1 => byteOf (x % 16 + 1) :: (slice d 3 2).reverse
  | 2 => byteOf (x % 16 + 1) :: (slice d 3 2).reverse ++ (chunks 3 (body.drop 5)).flatMap fun w => leBytes 3 (beNat w % 2 ^ 20)
  | 3 => byteOf x :: (slice d 3 4).reverse
  | _ => byteOf x :: (slice d 3 4).reverse ++ body.drop 7

/-- Reserved bits not zero, BAY 63, or COUNT 0 or above 56 (Table 17.3). -/
def hostBad (op b x : Nat) (d : List Byte) : Bool :=
  leAt d 0 1 % 32 ≠ 0 || decide (63 ≤ b) || if op ≤ 2 then decide (16 ≤ x) else x = 0 || decide (56 < x)

/-- A request frame that passes its checks: refused while BUSY; else a waiting result is discarded and the request is carried out. -/
def State.hostRequest (s : State) (d : List Byte) : State :=
  if s.hostBusy then (s.set F.HOST_STAT.LASTERR 4).updHost fun h => { h with refused := true }
  else
    let op := leAt d 0 1 / 32
    let b := leAt d 1 1
    let x := leAt d 2 1
    let dl := if op = 1 then 3 * (x % 16 + 1) else if op = 3 then x else 0
    let s := s.updHost fun h => { h with result := none, done := some (1, []), dlen := dl }
    if hostBad op b x d then s.hostEnd 5 []
    else if b = 0 || b = s.bay then s.hostLocal op x d
    else if s.bay = 0 then s.hostEnd 4 []
    else (s.updHost fun h => { h with done := none, remote := some b }).reqAdd .host b (op + 2) (hostBody op x d)

/-- A frame between two edges of SCS_N: the whole bytes on SDI and the bits left over. A frame of another OP is no frame of this command;
one of OP 5 to 7, or without a byte, has no command of its own. -/
def State.hostFrame (s : State) (op : Nat) (d : List Byte) (bits : Nat) : State :=
  let o := leAt d 0 1 / 32
  if !s.islandUp .memory || (!d.isEmpty && o ≤ 4 && o ≠ op) then s
  else
    let s := s.hostOpen d
    if bits ≠ 0 || d.isEmpty then s.hostErr 2
    else
      let e := hostCheck d
      if e ≠ 0 then s.hostErr e else if o = 0 then s else s.hostRequest d

/-- HOST_FETCH, HOST_REGRD, HOST_REGWR, HOST_MEMRD, HOST_MEMWR. -/
def execHostFetch (sdi : List Byte) (bits : Fin 8) (s : State) : Out := .next (s.hostFrame 0 sdi bits)
def execHostRegrd (sdi : List Byte) (bits : Fin 8) (s : State) : Out := .next (s.hostFrame 1 sdi bits)
def execHostRegwr (sdi : List Byte) (bits : Fin 8) (s : State) : Out := .next (s.hostFrame 2 sdi bits)
def execHostMemrd (sdi : List Byte) (bits : Fin 8) (s : State) : Out := .next (s.hostFrame 3 sdi bits)
def execHostMemwr (sdi : List Byte) (bits : Fin 8) (s : State) : Out := .next (s.hostFrame 4 sdi bits)

/-- SCS_N rises at the end of a frame. -/
def isHostFrame : Instr → Bool
  | .hostFetch .. | .hostRegrd .. | .hostRegwr .. | .hostMemrd .. | .hostMemwr .. => true
  | _ => false

/-- HOST_FRAME_TIMEOUT: SCS_N has stayed low without an SCK edge for FTO µs; the frame ends with what was clocked (R376). -/
def execHostFrameTimeout (sdi : List Byte) (s : State) : Out :=
  .next (if s.islandUp .memory && !s.comes isHostFrame then ((s.hostOpen sdi).hostErr 3).report 76 3 else s)

/-- A result stands: a read that did not end OK gives D zero bytes. -/
def State.hostReady (s : State) (code : Nat) (d : List Byte) : State :=
  s.updHost fun h =>
    { h with done := none, rest := none, begun := false, claimed := none, vals := [],
             result := some (code, if code = 1 then (d ++ List.replicate h.dlen 0).take h.dlen else List.replicate h.dlen 0) }

/-- HOST_RESULT_READY: BUSY clears and READY sets; a read that stood at IRT_CLAIM goes on once the claim is answered. -/
def execHostResultReady (s : State) : Out :=
  .next <|
    if !s.islandUp .memory then s
    else
      let s := match s.host.nvRead with
        | some (a, x) =>
          if s.memWaits a x then s else (s.updHost fun h => { h with nvRead := none, done := some (1, []) }).hostMem a x
        | none => s
      match s.host.done, s.host.rest, s.host.claimed with
      | some r, _, _ => s.hostReady r.1 r.2
      | none, some (a, n), some v =>
        let l := s.host.vals
        let mem := decide (s.host.dlen = 4 * (l.length + 1 + n))
        let r := s.regReads n a
        r.1.hostReady (if r.2.2 then 1 else 2) (hostVals mem (l ++ v :: r.2.1))
      | _, _, _ => s

end Sys2Proof.Machine
end

