-- ==== Sys2Proof/Machine/Pins.lean ====
section
/-! DEFINITION. The output pins as functions of the state (R17 to R22, R27, R29 to R34, R40, R259, R379, R421), and the readback of EO
and gate pads (R20, R193). -/

namespace Sys2Proof.Machine

/-- What an output drives: a level, or nothing, so that its pull decides. -/
inductive Drive where
  | low
  | high
  | hiZ
deriving DecidableEq, Repr

def driveOf (b : Bool) : Drive := if b then .high else .low

/-- Level of EOn once the image is applied (Table 1.8): SAFE in safe state, in watch mode and while EN is 0; else LEVEL, or the line or
carrier with INV. The line is seen one FCLK late (Table 1.6). -/
def State.eoLevel (s : State) (n : Nat) : Bool :=
  if s.safeLevels || !s.bit (F.EO_CFG.EN n) then s.bit (F.EO_CFG.SAFE n)
  else
    match s.get (F.EO_CFG.SRC n) with
    | 0 => xor (decide (1 ≤ s.fclk) && s.lineAt (s.get (F.EO_CFG.LINE n)) (s.fclk - 1)) (s.bit (F.EO_CFG.INV n))
    | 3 => s.bit (F.EO_CFG.LEVEL n)
    | k => xor (s.awoPwm (k - 1)) (s.bit (F.EO_CFG.INV n))
def State.eoPin (s : State) (n : Nat) : Drive := if s.applied then driveOf (s.eoLevel n) else .hiZ

/-- The needle and output binding that drive NPn, if any. -/
def State.npOwner (s : State) (n : Nat) : Option (Nat × Nat) :=
  (List.range 128).findSome? fun j =>
    let m := j / 8
    let k := j % 8
    if s.get (F.BED_BIND.CLASS m (8 + k)) = 1 && s.get (F.BED_BIND.INDEX m (8 + k)) = n then some (m, k) else none

/-- NPn: its safe level in safe state and watch mode, whatever the needle's state; else the pin-register bit where the direction bit is 1,
from the needle's first start on (R29, R30, R33, R259). -/
def State.npPin (s : State) (n : Nat) : Drive :=
  if !s.applied then .hiZ
  else if s.safeLevels then match s.npSafe n with | some b => driveOf b | none => .hiZ
  else
    match s.npOwner n with
    | none => .hiZ
    | some (m, k) =>
      if s.blockFree (6 + m / 4) && (s.getNdl m).live && bitOf (s.getNdl m).dir k then driveOf (bitOf (s.getNdl m).pin k) else .hiZ

/-- Gate pins: off outside an open window, in watch mode and before the image is applied (R30, R34, R180). -/
def State.injPin (s : State) (n : Nat) : Drive := driveOf (s.applied && !s.pcr.watch && s.gateINJ n)
def State.bstPin (s : State) (b : Nat) : Drive := driveOf (s.applied && !s.pcr.watch && s.gateBST b)
def State.batPin (s : State) (b : Nat) : Drive := driveOf (s.applied && !s.pcr.watch && s.gateBAT b)

/-- ALIVE (R421); HIRQ and HTRAP, both active low (R379). -/
def State.alivePin (s : State) : Drive := driveOf (s.aliveOn && s.por.alive)
def State.hirqPin (s : State) : Drive := driveOf (!(s.running && s.hirq))
def State.htrapPin (s : State) : Drive := driveOf (!(s.running && s.htrap))

/-- NRST, open drain: the Karek drives it low during its own power-on reset and at a Porter chip reset (R32, Table 3.3). -/
def State.nrstPin (s : State) : Drive := if s.pcr.held = some .powerOn || s.pcr.drive then .low else .hiZ

/-- What a serial output carries: a level that stands, or the bits of the frame under way. -/
inductive Serial where
  | level (d : Drive)
  | frame
deriving DecidableEq, Repr

/-- CANx_TX: recessive until the image is applied, in watch mode, in a block reset of the controller and between frames (R27, R30, R31,
R33, R454). -/
def State.canTxPin (s : State) (x : Nat) : Serial :=
  if s.applied && !s.pcr.watch && s.blockFree (13 + x) && (s.getCan x).bus.isSome then .frame else .level .high

/-- The host port is in service: from the release of the memory island after PLLA lock (R30, R372). -/
def State.hostServed (s : State) : Bool := s.islandUp .memory

/-- SDO: high-impedance while SCS_N is high, and until the port is in service (Table 2.2). -/
def State.sdoPin (s : State) (scsN : Bool) : Serial := if scsN || !s.hostServed then .level .hiZ else .frame

/-- TDO: high-impedance while a reset is held and while the test access port is locked (Table 2.2, R400). -/
def State.tdoPin (s : State) : Serial :=
  if s.pcr.held.isSome || !(decide (s.life < 2) || (s.life = 2 && s.bit F.TRU_STAT.DEBUG)) then .level .hiZ else .frame

/-- What a lane's output carries: the signal of GPI through the closed bypass, nothing, test patterns while the bay measures its lanes, or
the Gallery island's own words, none of them standing for an invalid code group (R40, R340, R341, R354). -/
inductive LaneOut where
  | passed
  | off
  | pattern
  | own (ws : List (Option (BitVec 20)))
deriving DecidableEq, Repr
def State.gpoPin (s : State) : LaneOut :=
  if s.bypass then .passed else if s.gal.hold.isSome then .pattern else .own (s.laneNow s.gal.laneP s.gal.rdP)

/-- GCO: its driver is off until Gallery enumeration starts and in watch mode (Tables 2.2, 2.4, R34). -/
def State.gcoPin (s : State) : LaneOut :=
  if s.bypass then .off else if s.gal.hold.isSome then .pattern else .own (s.laneNow s.gal.laneC s.gal.rdC)

/-! ### Pad readback (R20, R193, R405) -/

def Drive.code : Drive → Nat
  | .hiZ => 0
  | .low => 1
  | .high => 2

/-- Codes of the pads that are read back, as `PinMon` numbers them. -/
def State.padCodes (s : State) : List Nat :=
  ((List.range 16).map s.injPin ++ (List.range 4).map s.bstPin ++ (List.range 4).map s.batPin ++ (List.range 24).map s.eoPin).map Drive.code

/-- The end of an FCLK: pads whose driven level changed in it are noted. -/
def State.padsNote (s : State) : State :=
  let c := s.padCodes
  let old := s.pins.chT.filter fun e => decide (s.fclk < e.2 + 8)
  if c = s.pins.codes && old = s.pins.chT then s
  else
    let new := (List.range 48).filter fun p => c.getD p 0 ≠ s.pins.codes.getD p 0
    { s with pins := ⟨c, (old.filter fun e => !new.contains e.1) ++ new.map fun p => (p, s.fclk)⟩ }

/-- A readback of `pad` differs from what pin `p` drives, in an FCLK in which the compare runs: 8 FCLK after the last change of the
driven level and later. -/
def State.padDiffers (s : State) (p : Nat) (pad : Bool) : Bool :=
  let c := s.padCodes.getD p 0
  c ≠ 0 && c = s.pins.codes.getD p 0 && !(s.pins.chT.any fun e => e.1 = p && decide (s.fclk < e.2 + 8)) && pad ≠ (c = 2)

/-- GATE_READBACK_MISMATCH (R193): pins as source 28 numbers them. GMIS and the report while the difference lasts, the interrupt at
its beginning. -/
def execGateReadbackMismatch (pin : Fin 24) (pad : Bool) (s : State) : Out :=
  .next <|
    if s.angleOk 5 && s.padDiffers pin pad then
      let b := if pin.val < 16 then pin.val / 4 else pin.val % 4
      let new := !s.por.stand.any (fun p => p.src = 28 && p.det = pin.val)
      let n := if s.bit (F.INJ_BSTAT.BUSY b) then s.condInj b else 4 * b
      ((s.evt (F.INJ_BSTAT.GMIS b)).standOn 28 pin.val).raiseIf new (208 + n)
    else s

/-- EO_READBACK_MISMATCH (R20). -/
def execEoReadbackMismatch (pin : Fin 24) (pad : Bool) (s : State) : Out :=
  .next (if s.islandUp .angle && s.padDiffers (24 + pin) pad then (s.evt (F.EO_CFG.MISMATCH pin)).standOn 18 pin.val else s)

/-- PAD_READBACK_MATCH (R405): the pad agrees again, and the source's pair returns to fine when no other pad differs. -/
def execPadReadbackMatch (gate : Bool) (pin : Fin 24) (s : State) : Out :=
  .next (if s.islandUp .angle then s.standOff (if gate then 28 else 18) pin.val else s)

end Sys2Proof.Machine
end

