-- ==== Sys2Proof/Machine/React.lean ====
section
/-! DEFINITION. The Porter's decisions with the resets that they start (R405, R411 to R414, R419). -/

namespace Sys2Proof.Machine

/-- Events decided in one SOSC cycle, with the block resets and the chip reset that their reactions call for. -/
def State.decided (s : State) (ds : List Decided) : State :=
  let r := s.decide_ ds
  let t := r.1.each r.2.1 State.blockReset
  if r.2.2 then t.chipReset .porter else t

/-- FAULT_EVENT: the findings of one SOSC cycle in the safety island. -/
def execFaultEvent (evs : List PairEvt) (s : State) : Out :=
  .next <|
    if s.islandUp .safety then
      let r := s.sampleAll evs []
      r.2.decided r.1
    else s

/-- SEVERE_NOTICE: the oldest notice arrives, and the source's reaction is the one of its severe events (R411). -/
def execSevereNotice (s : State) : Out :=
  .next <|
    if s.islandUp .safety then
      match s.por.sevQ with
      | [] => s
      | c :: t => (s.updPor fun p => { p with sevQ := t }).decided [⟨c, s.get (F.POR_SRCA.SEVR c.sig.src), true⟩]
    else s

/-- CHIPRST: a Porter reset by command, which RSTCNT does not count (R419). -/
def execChiprst (src : Master) (s : State) : Out :=
  .next <|
    if s.islandUp .management then
      let r := s.porCmd src 0x96002
      if r.1 = 2 then r.2.chipReset .porter else r.2
    else s

end Sys2Proof.Machine
end

