-- ==== Sys2Proof/Machine/Tick.lean ====
section
/-! DEFINITION. What one FCLK brings without a command (assumption 3): TB counts, pads are looked at, the hall ports arbitrate at the end of
each MCLK, a test lookup ends, and what a refusal leaves for the next FCLK takes place. -/

namespace Sys2Proof.Machine

/-- The halls' arbitration of the MCLK that ended in this FCLK, if one did (R300). -/
def State.hallTick (s : State) : State :=
  if s.mclk = s.clockNo .memory (s.fclk - 1) then s else s.hallMclk (s.mclk - 1)

/-- One FCLK ends and the next begins, in which TB stands `k` counts further. -/
def State.passFclk (s : State) (k : Nat) : State :=
  ({ s.qvStaleRun.padsNote.tbAdvance k with fclk := s.fclk + 1 } : State).bankConfs.hallTick.testRun.hkFalls.transitRun.claimsRun.countsRun

/-- What an empty queue lets happen: one FCLK in the angle island; nothing while that island has no clock. -/
def State.idle (s : State) : State := if s.islandUp .angle then s.passFclk 1 else s

/-- TB_SLEW (R293): one FCLK in which TB advances by 2 or by 0, toward a correction still to be made, at most one in 1024, and none in
HOLDOVER, where TB runs free. -/
def execTbSlew (fast : Bool) (s : State) : Out :=
  .next <|
    if s.islandUp .angle && s.get F.TB_STAT.SYNC = 1 && decide (s.slewT + 1024 ≤ s.fclk + 1) && (if fast then decide (0 < s.corr) else decide (s.corr < 0)) then
      let s : State := { s with tbLog := s.tbLogged (s.fclk + 1) (s.tb.toNat + 1), slewT := s.fclk + 1,
                                corr := if fast then s.corr - 1 else s.corr + 1 }
      s.passFclk (if fast then 2 else 0)
    else s

end Sys2Proof.Machine
end

