-- ==== Sys2Proof/Machine/Dispatch.lean ====
section
/-! DEFINITION. The dispatch: one arm per command, each one call of its meaning. -/

namespace Sys2Proof.Machine

def exec (i : Instr) (s : State) : Host.Outcome State Fault Refusal :=
  match i with
  | .railWarning rail mv => Sys2Proof.Machine.execRailWarning rail mv s
  | .railReset rail mv => Sys2Proof.Machine.execRailReset rail mv s
  | .gateLockoutBegin mv => Sys2Proof.Machine.execGateLockoutBegin mv s
  | .gateLockoutEnd => Sys2Proof.Machine.execGateLockoutEnd s
  | .nrstAssert => Sys2Proof.Machine.execNrstAssert s
  | .nrstRelease => Sys2Proof.Machine.execNrstRelease s
  | .internalResetRelease mstr boot1 boot0 xin rootOk => Sys2Proof.Machine.execInternalResetRelease mstr boot1 boot0 xin rootOk s
  | .xinRecheck count => Sys2Proof.Machine.execXinRecheck count s
  | .pllLock pll => Sys2Proof.Machine.execPllLock pll s
  | .bootStep1End => Sys2Proof.Machine.execBootStep1End s
  | .ringReferenceLock => Sys2Proof.Machine.execRingReferenceLock s
  | .xinEdgeLoss => Sys2Proof.Machine.execXinEdgeLoss s
  | .ringStreamLoss => Sys2Proof.Machine.execRingStreamLoss s
  | .holdoverEnd => Sys2Proof.Machine.execHoldoverEnd s
  | .clockMonitorCount f m n g mg => Sys2Proof.Machine.execClockMonitorCount f m n g mg s
  | .imageSlotLoad => Sys2Proof.Machine.execImageSlotLoad s
  | .imageVerifyDone => Sys2Proof.Machine.execImageVerifyDone s
  | .enumWaitTimeout => Sys2Proof.Machine.execEnumWaitTimeout s
  | .bootStep4 => Sys2Proof.Machine.execBootStep4 s
  | .blockResetRequest src v => Sys2Proof.Machine.execBlockResetRequest src v s
  | .blockResetResume blk => Sys2Proof.Machine.execBlockResetResume blk s
  | .vminClear => Sys2Proof.Machine.execVminClear s
  | .watchRequest v => Sys2Proof.Machine.execWatchRequest v s
  | .watchMtTick => Sys2Proof.Machine.execWatchMtTick s
  | .wakePin => Sys2Proof.Machine.execWakePin s
  | .wakeTimer => Sys2Proof.Machine.execWakeTimer s
  | .mtTick => Sys2Proof.Machine.execMtTick s
  | .tbWrap => Sys2Proof.Machine.execTbWrap s
  | .wvlLoadBegin => Sys2Proof.Machine.execWvlLoadBegin s
  | .wvlDataWrite v => Sys2Proof.Machine.execWvlDataWrite v s
  | .wvlLoadEnd => Sys2Proof.Machine.execWvlLoadEnd s
  | .loadVerifyDone => Sys2Proof.Machine.execLoadVerifyDone s
  | .wvlAbort => Sys2Proof.Machine.execWvlAbort s
  | .wvlLoadTimeout => Sys2Proof.Machine.execWvlLoadTimeout s
  | .wvlHotswap => Sys2Proof.Machine.execWvlHotswap s
  | .hotswapApply typ tgt => Sys2Proof.Machine.execHotswapApply typ tgt s
  | .registerWrite src a v => Sys2Proof.Machine.execRegisterWrite src a v s
  | .readClear src a => Sys2Proof.Machine.execReadClear src a s
  | .wheelEdge inp lvl age vpk => Sys2Proof.Machine.execWheelEdge inp lvl age vpk s
  | .vrArmDrop n => Sys2Proof.Machine.execVrArmDrop n s
  | .toothWindowExpire n => Sys2Proof.Machine.execToothWindowExpire n s
  | .twoToothWindowExpire n => Sys2Proof.Machine.execTwoToothWindowExpire n s
  | .trackerStall n => Sys2Proof.Machine.execTrackerStall n s
  | .directionPulseEnd n => Sys2Proof.Machine.execDirectionPulseEnd n s
  | .trackerResync n => Sys2Proof.Machine.execTrackerResync n s
  | .trackerRunWrite n src run => Sys2Proof.Machine.execTrackerRunWrite n src run s
  | .trackerClearCounts n => Sys2Proof.Machine.execTrackerClearCounts n s
  | .historyRecordRead n => Sys2Proof.Machine.execHistoryRecordRead n s
  | .treadStep n chk => Sys2Proof.Machine.execTreadStep n chk s
  | .geometrySave n => Sys2Proof.Machine.execGeometrySave n s
  | .geometrySaveDone n => Sys2Proof.Machine.execGeometrySaveDone n s
  | .geometryReset n => Sys2Proof.Machine.execGeometryReset n s
  | .geometryWrite n k src v => Sys2Proof.Machine.execGeometryWrite n k src v s
  | .beaconReceive n => Sys2Proof.Machine.execBeaconReceive n s
  | .stitchScan chk => Sys2Proof.Machine.execStitchScan chk s
  | .stitchPulseEnd n chk => Sys2Proof.Machine.execStitchPulseEnd n chk s
  | .stitchCommit n => Sys2Proof.Machine.execStitchCommit n s
  | .stitchCancel n => Sys2Proof.Machine.execStitchCancel n s
  | .stitchParamWrite n w src v => Sys2Proof.Machine.execStitchParamWrite n w src v s
  | .stitchItemArrive => Sys2Proof.Machine.execStitchItemArrive s
  | .slotLineRise slots => Sys2Proof.Machine.execSlotLineRise slots s
  | .slotLineFall slot => Sys2Proof.Machine.execSlotLineFall slot s
  | .bankDrainEnd b => Sys2Proof.Machine.execBankDrainEnd b s
  | .h1doneRise b => Sys2Proof.Machine.execH1doneRise b s
  | .injComparatorChange k => Sys2Proof.Machine.execInjComparatorChange k s
  | .peakTimeLimit b => Sys2Proof.Machine.execPeakTimeLimit b s
  | .eoiCrossing b => Sys2Proof.Machine.execEoiCrossing b s
  | .eoiObserveEnd b => Sys2Proof.Machine.execEoiObserveEnd b s
  | .gateReadbackMismatch pin pad => Sys2Proof.Machine.execGateReadbackMismatch pin pad s
  | .injReenable ix => Sys2Proof.Machine.execInjReenable ix s
  | .eoReadbackMismatch pin pad => Sys2Proof.Machine.execEoReadbackMismatch pin pad s
  | .crossingCheckFail dest path => Sys2Proof.Machine.execCrossingCheckFail dest path s
  | .hostQvWrite q src v => Sys2Proof.Machine.execHostQvWrite q src v s
  | .recipeRequestArrive => Sys2Proof.Machine.execRecipeRequestArrive s
  | .recipeStart => Sys2Proof.Machine.execRecipeStart s
  | .recipeEndStep ix => Sys2Proof.Machine.execRecipeEndStep ix s
  | .recipeLoad ix => Sys2Proof.Machine.execRecipeLoad ix s
  | .recipeLookup ix => Sys2Proof.Machine.execRecipeLookup ix s
  | .recipeAdd ix => Sys2Proof.Machine.execRecipeAdd ix s
  | .recipeScale ix => Sys2Proof.Machine.execRecipeScale ix s
  | .recipeClamp ix => Sys2Proof.Machine.execRecipeClamp ix s
  | .recipeSelect ix => Sys2Proof.Machine.execRecipeSelect ix s
  | .recipeWrqv ix => Sys2Proof.Machine.execRecipeWrqv ix s
  | .recipeWrstitch ix => Sys2Proof.Machine.execRecipeWrstitch ix s
  | .recipeCommit ix => Sys2Proof.Machine.execRecipeCommit ix s
  | .recipeRunTimeout ix => Sys2Proof.Machine.execRecipeRunTimeout ix s
  | .chartTestLookup c => Sys2Proof.Machine.execChartTestLookup c s
  | .qvStale q => Sys2Proof.Machine.execQvStale q s
  | .gaugeRecordArrive => Sys2Proof.Machine.execGaugeRecordArrive s
  | .gaugeTreadZero => Sys2Proof.Machine.execGaugeTreadZero s
  | .thresholdLookupDone => Sys2Proof.Machine.execThresholdLookupDone s
  | .awoWordArrive a => Sys2Proof.Machine.execAwoWordArrive a s
  | .awoInterpRefresh a => Sys2Proof.Machine.execAwoInterpRefresh a s
  | .streamReceive => Sys2Proof.Machine.execStreamReceive s
  | .streamSlotTimeout sl => Sys2Proof.Machine.execStreamSlotTimeout sl s
  | .awoPwmPeriod a => Sys2Proof.Machine.execAwoPwmPeriod a s
  | .needleSet m => Sys2Proof.Machine.execNeedleSet m s
  | .needleMov m np => Sys2Proof.Machine.execNeedleMov m np s
  | .needleJmp m np => Sys2Proof.Machine.execNeedleJmp m np s
  | .needleWait m np => Sys2Proof.Machine.execNeedleWait m np s
  | .needleIn m np => Sys2Proof.Machine.execNeedleIn m np s
  | .needleOut m => Sys2Proof.Machine.execNeedleOut m s
  | .needlePush m => Sys2Proof.Machine.execNeedlePush m s
  | .needlePull m => Sys2Proof.Machine.execNeedlePull m s
  | .needleFlag m => Sys2Proof.Machine.execNeedleFlag m s
  | .needleBadop m => Sys2Proof.Machine.execNeedleBadop m s
  | .needleStart m src => Sys2Proof.Machine.execNeedleStart m src s
  | .needleStop m src => Sys2Proof.Machine.execNeedleStop m src s
  | .bedSyncStart mask src => Sys2Proof.Machine.execBedSyncStart mask src s
  | .needlePcWrite m v => Sys2Proof.Machine.execNeedlePcWrite m v s
  | .needleTxWrite m v => Sys2Proof.Machine.execNeedleTxWrite m v s
  | .needleRxRead m => Sys2Proof.Machine.execNeedleRxRead m s
  | .programStoreWrite b k src v => Sys2Proof.Machine.execProgramStoreWrite b k src v s
  | .flagClearWrite mask => Sys2Proof.Machine.execFlagClearWrite mask s
  | .flagSetWrite mask => Sys2Proof.Machine.execFlagSetWrite mask s
  | .needleStallTimeout m => Sys2Proof.Machine.execNeedleStallTimeout m s
  | .comparatorSwitch k uv => Sys2Proof.Machine.execComparatorSwitch k uv s
  | .windowSampleTick w => Sys2Proof.Machine.execWindowSampleTick w s
  | .windowSampleLatch w lo hi => Sys2Proof.Machine.execWindowSampleLatch w lo hi s
  | .comparatorConfigWrite k src v => Sys2Proof.Machine.execComparatorConfigWrite k src v s
  | .windowModeWrite w src v => Sys2Proof.Machine.execWindowModeWrite w src v s
  | .ladderStepStart lvl => Sys2Proof.Machine.execLadderStepStart lvl s
  | .ladderHandover => Sys2Proof.Machine.execLadderHandover s
  | .ladderHandoverForced => Sys2Proof.Machine.execLadderHandoverForced s
  | .ladderTestDone fail => Sys2Proof.Machine.execLadderTestDone fail s
  | .timerAdvance n => Sys2Proof.Machine.execTimerAdvance n s
  | .timerLineStart n => Sys2Proof.Machine.execTimerLineStart n s
  | .timerLineStop n => Sys2Proof.Machine.execTimerLineStop n s
  | .timerLineCapture n => Sys2Proof.Machine.execTimerLineCapture n s
  | .timerLineClear n => Sys2Proof.Machine.execTimerLineClear n s
  | .timerRunWrite n run => Sys2Proof.Machine.execTimerRunWrite n run s
  | .timerClearCommand n => Sys2Proof.Machine.execTimerClearCommand n s
  | .timerCountWrite n v => Sys2Proof.Machine.execTimerCountWrite n v s
  | .timerReloadWrite n v => Sys2Proof.Machine.execTimerReloadWrite n v s
  | .timerCompareWrite n k v => Sys2Proof.Machine.execTimerCompareWrite n k v s
  | .timerGroupRun mask => Sys2Proof.Machine.execTimerGroupRun mask s
  | .timerPairCountRead n => Sys2Proof.Machine.execTimerPairCountRead n s
  | .tbSlew fast => Sys2Proof.Machine.execTbSlew fast s
  | .hallAccess m a sz wr err => Sys2Proof.Machine.execHallAccess m a sz wr err s
  | .hallHoldLimit h portB => Sys2Proof.Machine.execHallHoldLimit h portB s
  | .scrubWriteback => Sys2Proof.Machine.execScrubWriteback s
  | .hallOwnerWrite h src v => Sys2Proof.Machine.execHallOwnerWrite h src v s
  | .hallOwnerHandover h => Sys2Proof.Machine.execHallOwnerHandover h s
  | .nvsProgramCommand => Sys2Proof.Machine.execNvsProgramCommand s
  | .nvsEraseCommand => Sys2Proof.Machine.execNvsEraseCommand s
  | .nvsWriteStart => Sys2Proof.Machine.execNvsWriteStart s
  | .nvsWriteDone ok => Sys2Proof.Machine.execNvsWriteDone ok s
  | .nvsRead m a sz err => Sys2Proof.Machine.execNvsRead m a sz err s
  | .logEntryWrite => Sys2Proof.Machine.execLogEntryWrite s
  | .hookStart c => Sys2Proof.Machine.execHookStart c s
  | .hookStop c => Sys2Proof.Machine.execHookStop c s
  | .hookClearRequests c => Sys2Proof.Machine.execHookClearRequests c s
  | .hookPcWrite c hi v => Sys2Proof.Machine.execHookPcWrite c hi v s
  | .descriptorFetch c => Sys2Proof.Machine.execDescriptorFetch c s
  | .hookMove c => Sys2Proof.Machine.execHookMove c s
  | .hookFill c => Sys2Proof.Machine.execHookFill c s
  | .hookCmp c => Sys2Proof.Machine.execHookCmp c s
  | .hookLoop c => Sys2Proof.Machine.execHookLoop c s
  | .hookWait c => Sys2Proof.Machine.execHookWait c s
  | .hookSignal c => Sys2Proof.Machine.execHookSignal c s
  | .pacingPulse edge => Sys2Proof.Machine.execPacingPulse edge s
  | .burstIssue => Sys2Proof.Machine.execBurstIssue s
  | .burstComplete c => Sys2Proof.Machine.execBurstComplete c s
  | .descriptorStatusWrite c => Sys2Proof.Machine.execDescriptorStatusWrite c s
  | .burstTimeout c wr => Sys2Proof.Machine.execBurstTimeout c wr s
  | .hookBudgetReset => Sys2Proof.Machine.execHookBudgetReset s
  | .hookBudgetWrite c src v => Sys2Proof.Machine.execHookBudgetWrite c src v s
  | .laneSwitchToCable => Sys2Proof.Machine.execLaneSwitchToCable s
  | .laneReturnToPrimary => Sys2Proof.Machine.execLaneReturnToPrimary s
  | .ringIsolation => Sys2Proof.Machine.execRingIsolation s
  | .frameReceive rd ws => Sys2Proof.Machine.execFrameReceive rd ws s
  | .enumMeasure => Sys2Proof.Machine.execEnumMeasure s
  | .measureHoldEnd dlyP dlyC => Sys2Proof.Machine.execMeasureHoldEnd dlyP dlyC s
  | .enumAssign resid => Sys2Proof.Machine.execEnumAssign resid s
  | .enumDone => Sys2Proof.Machine.execEnumDone s
  | .joinOffer => Sys2Proof.Machine.execJoinOffer s
  | .joinGrant => Sys2Proof.Machine.execJoinGrant s
  | .remoteRegrd => Sys2Proof.Machine.execRemoteRegrd s
  | .remoteRegwr => Sys2Proof.Machine.execRemoteRegwr s
  | .remoteMemrd => Sys2Proof.Machine.execRemoteMemrd s
  | .remoteMemwr => Sys2Proof.Machine.execRemoteMemwr s
  | .respReceive => Sys2Proof.Machine.execRespReceive s
  | .syncReceive phase resid => Sys2Proof.Machine.execSyncReceive phase resid s
  | .eventReceive => Sys2Proof.Machine.execEventReceive s
  | .imageFrameReceive => Sys2Proof.Machine.execImageFrameReceive s
  | .resetFrame => Sys2Proof.Machine.execResetFrame s
  | .galleryReset => Sys2Proof.Machine.execGalleryReset s
  | .enumStart => Sys2Proof.Machine.execEnumStart s
  | .fullEnumeration => Sys2Proof.Machine.execFullEnumeration s
  | .enumFrameReturn wanted => Sys2Proof.Machine.execEnumFrameReturn wanted s
  | .enumPassTimeout => Sys2Proof.Machine.execEnumPassTimeout s
  | .enumRetryTimer => Sys2Proof.Machine.execEnumRetryTimer s
  | .joinNow => Sys2Proof.Machine.execJoinNow s
  | .joinOfferTimer => Sys2Proof.Machine.execJoinOfferTimer s
  | .galleryCountClear => Sys2Proof.Machine.execGalleryCountClear s
  | .syncSend => Sys2Proof.Machine.execSyncSend s
  | .syncTimeout => Sys2Proof.Machine.execSyncTimeout s
  | .transactionTimeout b => Sys2Proof.Machine.execTransactionTimeout b s
  | .ownFrameTransmit phase => Sys2Proof.Machine.execOwnFrameTransmit phase s
  | .eventSlotChange sl => Sys2Proof.Machine.execEventSlotChange sl s
  | .hostFetch sdi bits => Sys2Proof.Machine.execHostFetch sdi bits s
  | .hostRegrd sdi bits => Sys2Proof.Machine.execHostRegrd sdi bits s
  | .hostRegwr sdi bits => Sys2Proof.Machine.execHostRegwr sdi bits s
  | .hostMemrd sdi bits => Sys2Proof.Machine.execHostMemrd sdi bits s
  | .hostMemwr sdi bits => Sys2Proof.Machine.execHostMemwr sdi bits s
  | .hostResultReady => Sys2Proof.Machine.execHostResultReady s
  | .hostFrameTimeout sdi => Sys2Proof.Machine.execHostFrameTimeout sdi s
  | .hostRegister v => Sys2Proof.Machine.execHostRegister v s
  | .hoststateReceive => Sys2Proof.Machine.execHoststateReceive s
  | .irqEvaluate => Sys2Proof.Machine.execIrqEvaluate s
  | .irqOfferReceive here => Sys2Proof.Machine.execIrqOfferReceive here s
  | .irqAcceptReceive here => Sys2Proof.Machine.execIrqAcceptReceive here s
  | .irqRefuseReceive here => Sys2Proof.Machine.execIrqRefuseReceive here s
  | .irqFrameNoReply claim => Sys2Proof.Machine.execIrqFrameNoReply claim s
  | .irqClaimRead => Sys2Proof.Machine.execIrqClaimRead s
  | .irqClaimReceive here => Sys2Proof.Machine.execIrqClaimReceive here s
  | .irqClaimedReceive here => Sys2Proof.Machine.execIrqClaimedReceive here s
  | .irqDoneWrite src v => Sys2Proof.Machine.execIrqDoneWrite src v s
  | .irqSlotRelease => Sys2Proof.Machine.execIrqSlotRelease s
  | .irqDoneReceive here => Sys2Proof.Machine.execIrqDoneReceive here s
  | .irqWithdrawReceive here => Sys2Proof.Machine.execIrqWithdrawReceive here s
  | .irqClaimTimeout => Sys2Proof.Machine.execIrqClaimTimeout s
  | .irqHoldTimeout => Sys2Proof.Machine.execIrqHoldTimeout s
  | .trapClear => Sys2Proof.Machine.execTrapClear s
  | .sourceCountClear k => Sys2Proof.Machine.execSourceCountClear k s
  | .trustClaim => Sys2Proof.Machine.execTrustClaim s
  | .trustAddkey => Sys2Proof.Machine.execTrustAddkey s
  | .trustRevoke => Sys2Proof.Machine.execTrustRevoke s
  | .trustLock => Sys2Proof.Machine.execTrustLock s
  | .trustRetire => Sys2Proof.Machine.execTrustRetire s
  | .trustSetfloor => Sys2Proof.Machine.execTrustSetfloor s
  | .trustDebug => Sys2Proof.Machine.execTrustDebug s
  | .trustAttest => Sys2Proof.Machine.execTrustAttest s
  | .trustUnknownCommand => Sys2Proof.Machine.execTrustUnknownCommand s
  | .trustCommandEnd => Sys2Proof.Machine.execTrustCommandEnd s
  | .challengeExpire => Sys2Proof.Machine.execChallengeExpire s
  | .debugSessionExpire => Sys2Proof.Machine.execDebugSessionExpire s
  | .tamperTrip sensor => Sys2Proof.Machine.execTamperTrip sensor s
  | .faultEvent evs => Sys2Proof.Machine.execFaultEvent evs s
  | .faultCount => Sys2Proof.Machine.execFaultCount s
  | .severeNotice => Sys2Proof.Machine.execSevereNotice s
  | .porterWindowClose k => Sys2Proof.Machine.execPorterWindowClose k s
  | .faultForce ix src v => Sys2Proof.Machine.execFaultForce ix src v s
  | .severeClear ix v => Sys2Proof.Machine.execSevereClear ix v s
  | .capclr src => Sys2Proof.Machine.execCapclr src s
  | .chiprst src => Sys2Proof.Machine.execChiprst src s
  | .heartbeatSend => Sys2Proof.Machine.execHeartbeatSend s
  | .heartbeatTimeout => Sys2Proof.Machine.execHeartbeatTimeout s
  | .aliveToggle readback => Sys2Proof.Machine.execAliveToggle readback s
  | .hallRegionTest res bufFail => Sys2Proof.Machine.execHallRegionTest res bufFail s
  | .nvsBackgroundRead => Sys2Proof.Machine.execNvsBackgroundRead s
  | .compareUnitStep => Sys2Proof.Machine.execCompareUnitStep s
  | .compareUnitHandover agree => Sys2Proof.Machine.execCompareUnitHandover agree s
  | .compareUnitTestDone res => Sys2Proof.Machine.execCompareUnitTestDone res s
  | .edgeTimerStep => Sys2Proof.Machine.execEdgeTimerStep s
  | .edgeTimerSlotFree => Sys2Proof.Machine.execEdgeTimerSlotFree s
  | .edgeTimerTestDone res => Sys2Proof.Machine.execEdgeTimerTestDone res s
  | .testIntervalLate kind => Sys2Proof.Machine.execTestIntervalLate kind s
  | .canFrameReceive x f => Sys2Proof.Machine.execCanFrameReceive x f s
  | .canFrameSent x => Sys2Proof.Machine.execCanFrameSent x s
  | .canTxRequest x mask => Sys2Proof.Machine.execCanTxRequest x mask s
  | .canTxAbort x mask onBus => Sys2Proof.Machine.execCanTxAbort x mask onBus s
  | .canObjectSelect x o => Sys2Proof.Machine.execCanObjectSelect x o s
  | .canObjectWrite x => Sys2Proof.Machine.execCanObjectWrite x s
  | .canRecover x => Sys2Proof.Machine.execCanRecover x s
  | .canBusOffRecovery x => Sys2Proof.Machine.execCanBusOffRecovery x s
  | .sentFrameEnd r p => Sys2Proof.Machine.execSentFrameEnd r p s
  | .sentSilence r => Sys2Proof.Machine.execSentSilence r s
  | .railWarningEnd rail => Sys2Proof.Machine.execRailWarningEnd rail s
  | .padReadbackMatch gate pin => Sys2Proof.Machine.execPadReadbackMatch gate pin s
  | .validCodeGroupArrival cable => Sys2Proof.Machine.execValidCodeGroupArrival cable s
  | .canBusError x tx strong lec => Sys2Proof.Machine.execCanBusError x tx strong lec s
  | .canArbitrationLost x => Sys2Proof.Machine.execCanArbitrationLost x s

end Sys2Proof.Machine
end

