-- ==== Sys2Proof/Laws/PerInstr.lean ====
section
/-! SUPPORT. Statements made per command: none so far. -/

namespace Sys2Proof.Laws

end Sys2Proof.Laws
end

