-- ==== Sys2Proof/Safety.lean ====
section
/-! DEFINITION. The terms that claims use: an answer that goes on, a state whose stores are canonical, outputs that are off. -/

namespace Sys2Proof

open Sys2Proof.Machine

/-- The machine goes on. -/
def Goes (o : Out) : Prop := ∃ t, o = .next t

/-- The machine goes on, in a state with a property. -/
def GoesTo (o : Out) (p : State → Prop) : Prop := ∃ t, o = .next t ∧ p t

/-- No gate of an injector or a bank conducts. -/
def GatesOff (s : State) : Prop := (∀ n, s.gateINJ n = false) ∧ (∀ b, s.gateBST b = false) ∧ ∀ b, s.gateBAT b = false

/-- Two states hold the same halls, the same NVS, and the same errors in them. -/
abbrev SameStores (s t : State) : Prop := t.halls = s.halls ∧ t.hallErr = s.hallErr ∧ t.nvs = s.nvs ∧ t.nvsErr = s.nvsErr

/-- Two states differ in no register but those that satisfy `p`. -/
def SameRegs (p : Nat → Prop) (s t : State) : Prop := ∀ a, ¬ p a → t.reg a = s.reg a

/-- Two states differ in no register outside the address ranges given. -/
abbrev RegsIn (l : List (Nat × Nat)) (s t : State) : Prop :=
  SameRegs (fun a => (l.any fun r => decide (r.1 ≤ a) && decide (a < r.2)) = true) s t

/-- Two states hold the same clocks: FCLK, TB, ticks due. -/
abbrev SameTime (s t : State) : Prop :=
  t.fclk = s.fclk ∧ t.tb = s.tb ∧ t.mtDue = s.mtDue ∧ t.wrapDue = s.wrapDue ∧ t.syncDue = s.syncDue ∧ t.tick10 = s.tick10

/-- Needle `m` has taken the instruction at its PC: it runs, NPC shows that instruction's address, the next one is at `pc` and begins
1 + DELAY needle cycles later (R249). -/
abbrev NeedleGoes (s t : State) (m pc : Nat) : Prop :=
  t.get (F.BED_NSTAT.STATE m) = 1 ∧ t.get (F.BED_NPC m) = (s.getNdl m).pc % 64 ∧ (t.getNdl m).pc = pc % 64
    ∧ (t.getNdl m).next = s.ndlCycle m + s.ndlDiv m * (1 + s.ndlWord m % 16)

/-- Needle `m` stalls at its PC: it reads the same instruction again one needle cycle later (R249). -/
abbrev NeedleStalls (s t : State) (m : Nat) : Prop :=
  t.get (F.BED_NSTAT.STATE m) = 2 ∧ (t.getNdl m).pc = (s.getNdl m).pc ∧ (t.getNdl m).next = s.ndlCycle m + s.ndlDiv m

/-- Nothing waits for the end of an FCLK: no access of a hall, no test lookup, no item that went unused, no refusal to be shown, no frame
on its way, no claim, no event to be counted, no level source last seen high. -/
abbrev NothingUnderWay (s : State) : Prop :=
  s.cht.staleQ = [] ∧ s.cht.test = none ∧ s.inj.confs = [] ∧ s.hal.reqs = [] ∧ s.gal.transit = [] ∧ s.irt.claims = []
    ∧ s.por.late = 0 ∧ s.por.tick = false ∧ ∀ c : Fin 16, (s.getHk c).lvl = false

/-! ### Families of commands, for the statements of what they leave alone -/

/-- The commands of power and clocks, resets apart. -/
def powerCommand : Instr → Bool
  | .railWarning .. | .railWarningEnd .. | .gateLockoutEnd .. | .nrstRelease .. | .pllLock .. | .bootStep1End ..
  | .ringReferenceLock .. | .xinEdgeLoss .. | .ringStreamLoss .. | .holdoverEnd .. | .clockMonitorCount .. | .vminClear .. => true
  | _ => false

/-- The commands of the trackers, treads and beacons. -/
def stairCommand : Instr → Bool
  | .wheelEdge .. | .vrArmDrop .. | .toothWindowExpire .. | .twoToothWindowExpire .. | .trackerStall ..
  | .directionPulseEnd .. | .trackerResync .. | .trackerRunWrite .. | .trackerClearCounts .. | .historyRecordRead ..
  | .treadStep .. | .geometrySave .. | .geometrySaveDone .. | .geometryReset .. | .geometryWrite .. | .beaconReceive .. => true
  | _ => false

/-- The commands of the stitches. -/
def stitchCommand : Instr → Bool
  | .stitchScan .. | .stitchPulseEnd .. | .stitchCommit .. | .stitchCancel .. | .stitchParamWrite .. | .stitchItemArrive .. => true
  | _ => false

/-- The commands of the injector channels and pads. -/
def injectorCommand : Instr → Bool
  | .slotLineRise .. | .slotLineFall .. | .bankDrainEnd .. | .h1doneRise .. | .injComparatorChange .. | .peakTimeLimit ..
  | .eoiCrossing .. | .eoiObserveEnd .. | .gateReadbackMismatch .. | .injReenable .. | .gateLockoutBegin ..
  | .eoReadbackMismatch .. | .padReadbackMatch .. => true
  | _ => false

/-- The commands of variables and recipes that read no hall. -/
def chartCommand : Instr → Bool
  | .hostQvWrite .. | .recipeRequestArrive .. | .recipeStart .. | .recipeEndStep .. | .recipeLoad .. | .recipeAdd ..
  | .recipeScale .. | .recipeClamp .. | .recipeSelect .. | .recipeWrqv .. | .recipeWrstitch .. | .recipeCommit ..
  | .recipeRunTimeout .. | .qvStale .. => true
  | _ => false

/-- The commands of the needles. -/
def needleCommand : Instr → Bool
  | .needleSet .. | .needleMov .. | .needleJmp .. | .needleWait .. | .needleIn .. | .needleOut .. | .needlePush ..
  | .needlePull .. | .needleFlag .. | .needleBadop .. | .needleStart .. | .needleStop .. | .bedSyncStart ..
  | .needlePcWrite .. | .needleTxWrite .. | .needleRxRead .. | .programStoreWrite .. | .flagClearWrite .. | .flagSetWrite ..
  | .needleStallTimeout .. => true
  | _ => false

/-- The commands of the comparators, windows and the ladder. -/
def windowCommand : Instr → Bool
  | .comparatorSwitch .. | .windowSampleTick .. | .comparatorConfigWrite .. | .windowModeWrite .. | .ladderStepStart ..
  | .ladderHandover .. | .ladderTestDone .. => true
  | _ => false

/-- The commands of the timers. -/
def timerCommand : Instr → Bool
  | .timerAdvance .. | .timerLineStart .. | .timerLineStop .. | .timerLineCapture .. | .timerLineClear ..
  | .timerRunWrite .. | .timerClearCommand .. | .timerCountWrite .. | .timerReloadWrite .. | .timerCompareWrite ..
  | .timerGroupRun .. | .timerPairCountRead .. => true
  | _ => false

/-- The commands that ask for an owner or an NVS write. -/
def storeRequest : Instr → Bool
  | .hallOwnerWrite .. | .hallOwnerHandover .. | .nvsProgramCommand .. | .nvsEraseCommand .. | .nvsWriteStart ..
  | .logEntryWrite .. => true
  | _ => false

/-- The commands of the HOOK channels that reach no other block. -/
def hookCommand : Instr → Bool
  | .hookStart .. | .hookStop .. | .hookClearRequests .. | .hookPcWrite .. | .hookMove .. | .hookFill .. | .hookCmp ..
  | .hookLoop .. | .hookWait .. | .hookSignal .. | .pacingPulse .. | .burstIssue ..
  | .hookBudgetWrite .. => true
  | _ => false

/-- The commands of the Gallery that carry out no request and reset nothing. -/
def ringCommand : Instr → Bool
  | .laneSwitchToCable .. | .laneReturnToPrimary .. | .ringIsolation .. | .validCodeGroupArrival .. | .frameReceive ..
  | .enumMeasure .. | .measureHoldEnd .. | .enumAssign .. | .enumDone .. | .joinOffer .. | .joinGrant .. | .respReceive ..
  | .syncReceive .. | .eventReceive .. | .resetFrame .. | .enumStart .. | .fullEnumeration .. | .enumFrameReturn ..
  | .enumPassTimeout .. | .enumRetryTimer .. | .joinNow .. | .joinOfferTimer .. | .galleryCountClear .. | .syncSend ..
  | .syncTimeout .. | .transactionTimeout .. | .ownFrameTransmit .. | .eventSlotChange .. => true
  | _ => false

/-- The commands of the interrupt router, and HOST_FRAME_TIMEOUT. -/
def routerCommand : Instr → Bool
  | .hostRegister .. | .hoststateReceive .. | .irqEvaluate .. | .irqOfferReceive .. | .irqAcceptReceive ..
  | .irqRefuseReceive .. | .irqFrameNoReply .. | .irqClaimRead .. | .irqClaimReceive .. | .irqClaimedReceive ..
  | .irqDoneWrite .. | .irqSlotRelease .. | .irqDoneReceive .. | .irqWithdrawReceive .. | .irqClaimTimeout ..
  | .irqHoldTimeout .. | .trapClear .. | .sourceCountClear .. | .hostFrameTimeout .. => true
  | _ => false

/-- The commands of trust. -/
def trustCommand : Instr → Bool
  | .trustClaim .. | .trustAddkey .. | .trustRevoke .. | .trustLock .. | .trustRetire .. | .trustSetfloor ..
  | .trustDebug .. | .trustAttest .. | .trustUnknownCommand .. | .trustCommandEnd .. | .challengeExpire ..
  | .debugSessionExpire .. | .tamperTrip .. => true
  | _ => false

/-- The commands of the Porter that react to nothing. -/
def porterCommand : Instr → Bool
  | .faultCount .. | .porterWindowClose .. | .faultForce .. | .severeClear .. | .capclr .. | .heartbeatSend ..
  | .heartbeatTimeout .. | .aliveToggle .. => true
  | _ => false

/-- The commands of the self-test rotations. -/
def rotationCommand : Instr → Bool
  | .compareUnitStep .. | .compareUnitHandover .. | .compareUnitTestDone .. | .edgeTimerStep .. | .edgeTimerSlotFree ..
  | .edgeTimerTestDone .. | .testIntervalLate .. => true
  | _ => false

/-- The commands of the CAN controllers and SENT receivers. -/
def linkCommand : Instr → Bool
  | .canFrameReceive .. | .canFrameSent .. | .canTxRequest .. | .canTxAbort .. | .canObjectSelect .. | .canObjectWrite ..
  | .canRecover .. | .canBusOffRecovery .. | .canBusError .. | .canArbitrationLost .. | .sentFrameEnd .. | .sentSilence .. => true
  | _ => false

end Sys2Proof
end

