-- ==== Sys2Proof/WellFormed.lean ====
section
/-! DEFINITION. Relations between the operands of one command that their types do not carry. A meaning never depends on them: they say
which terms name a happening that the Karek can meet. -/

namespace Sys2Proof

/-- A master whose register writes R79 governs: the host port, a Gallery frame, HOOK, a needle. -/
def Master.governed : Master → Bool
  | .host => true
  | .gallery => true
  | .hook _ => true
  | .needle _ => true
  | .chart => false
  | .gauge => false
  | .stc => false
  | .wvl => false

/-- Bytes of an access (R304). -/
def AccSize.bytes : AccSize → Nat
  | .b1 => 1
  | .b2 => 2
  | .b4 => 4
  | .b8 => 8

/-- The islands that a path of Table 1.2 ends in. -/
def CrossPath.reaches (p : CrossPath) (d : Island) : Bool :=
  match p with
  | .planRequest => d = .memory
  | .stitchItem => d = .angle
  | .gaugeRecord => d = .memory
  | .treadZero => d = .memory
  | .beacon => d = .gallery || d = .angle
  | .faultCount => d = .management || d = .safety
  | .pacingPulse => d = .memory
  | .streamFrame => d = .memory
  | .interrupt _ => d = .memory
  | .feed _ _ => d = .memory
  | .finding _ => d = .safety
  | .other => true

/-- Section types that HOTSWAP may change, with their targets (Table 4.5, R89). -/
def hotTarget (typ tgt : Nat) : Bool :=
  match typ with
  | 0x50 => decide (tgt < 64)
  | 0x51 => decide (tgt < 64)
  | 0x58 => tgt = 0xFFFF
  | 0x59 => decide (tgt < 2)
  | 0x68 => decide (tgt < 16)
  | 0x88 => tgt = 0xFFFF
  | 0x89 => tgt = 0xFFFF
  | _ => false

/-- Bytes of data that a DLC names. -/
def dlcBytes (n : Nat) : Nat :=
  if n ≤ 8 then n else match n with
    | 9 => 12
    | 10 => 16
    | 11 => 20
    | 12 => 24
    | 13 => 32
    | 14 => 48
    | _ => 64

/-- A frame that CAN FD allows: an 11-bit identifier where it is not extended, no remote FD frame, BRS and ESI in FD frames only, the
data that DLC names (at most 8 bytes in a classical frame, none in a remote one). -/
def CanFrame.wf (f : CanFrame) : Bool :=
  (f.ide || decide (f.id.toNat < 2 ^ 11)) && !(f.fdf && f.rtr) && (f.fdf || (!f.brs && !f.esi))
    && f.data.length = if f.rtr then 0 else if f.fdf then dlcBytes f.dlc.toNat else min 8 f.dlc.toNat

/-- The Porter source of an observation. -/
def PairEvt.source : PairEvt → Nat
  | .error k => k.val
  | .integ k => k.val
  | .porter _ => 0

/-- A host frame whose OP is `op`, or that has no OP of Table 17.1. -/
def hostOp (sdi : List Byte) (op : Nat) : Bool :=
  match sdi with
  | [] => true
  | b :: _ => b.toNat / 32 = op || decide (5 ≤ b.toNat / 32)

/-- Reset level, or lockout level, of a rail in mV (Table 3.1). -/
def lowMv (r : Fin 5) : Nat := if r = 0 then 715 else if r = 1 then 2800 else if r = 2 then 4400 else if r = 3 then 1600 else 8000

/-- A command names a happening that can come. -/
def Instr.wf (i : Instr) : Bool :=
  match i with
  | .railWarning r mv => decide (99 * lowMv r ≤ 100 * mv)
  | .railReset _ _ => true
  | .gateLockoutBegin _ => true
  | .gateLockoutEnd => true
  | .nrstAssert => true
  | .nrstRelease => true
  | .internalResetRelease _ _ _ _ _ => true
  | .xinRecheck _ => true
  | .pllLock _ => true
  | .bootStep1End => true
  | .ringReferenceLock => true
  | .xinEdgeLoss => true
  | .ringStreamLoss => true
  | .holdoverEnd => true
  | .clockMonitorCount _ _ _ _ _ => true
  | .imageSlotLoad => true
  | .imageVerifyDone => true
  | .enumWaitTimeout => true
  | .bootStep4 => true
  | .blockResetRequest src _ => src.governed
  | .blockResetResume _ => true
  | .vminClear => true
  | .watchRequest _ => true
  | .watchMtTick => true
  | .wakePin => true
  | .wakeTimer => true
  | .mtTick => true
  | .tbWrap => true
  | .wvlLoadBegin => true
  | .wvlDataWrite _ => true
  | .wvlLoadEnd => true
  | .loadVerifyDone => true
  | .wvlAbort => true
  | .wvlLoadTimeout => true
  | .wvlHotswap => true
  | .hotswapApply typ tgt => hotTarget typ tgt
  | .registerWrite src _ _ => src.governed
  | .readClear src _ => src.governed
  | .wheelEdge _ _ age _ => decide (age ≤ 4096)
  | .vrArmDrop _ => true
  | .toothWindowExpire _ => true
  | .twoToothWindowExpire _ => true
  | .trackerStall _ => true
  | .directionPulseEnd _ => true
  | .trackerResync _ => true
  | .trackerRunWrite _ src _ => src.governed
  | .trackerClearCounts _ => true
  | .historyRecordRead _ => true
  | .treadStep _ _ => true
  | .geometrySave _ => true
  | .geometrySaveDone _ => true
  | .geometryReset _ => true
  | .geometryWrite _ _ src _ => src.governed
  | .beaconReceive _ => true
  | .stitchScan _ => true
  | .stitchPulseEnd _ _ => true
  | .stitchCommit _ => true
  | .stitchCancel _ => true
  | .stitchParamWrite _ _ src _ => src.governed || src = .chart
  | .stitchItemArrive => true
  | .slotLineRise slots => !slots.isEmpty && decide slots.Nodup
  | .slotLineFall _ => true
  | .bankDrainEnd _ => true
  | .h1doneRise _ => true
  | .injComparatorChange _ => true
  | .peakTimeLimit _ => true
  | .eoiCrossing _ => true
  | .eoiObserveEnd _ => true
  | .gateReadbackMismatch _ _ => true
  | .injReenable _ => true
  | .eoReadbackMismatch _ _ => true
  | .crossingCheckFail dest path => path.reaches dest
  | .hostQvWrite _ src _ => src.governed
  | .recipeRequestArrive => true
  | .recipeStart => true
  | .recipeEndStep _ => true
  | .recipeLoad _ => true
  | .recipeLookup _ => true
  | .recipeAdd _ => true
  | .recipeScale _ => true
  | .recipeClamp _ => true
  | .recipeSelect _ => true
  | .recipeWrqv _ => true
  | .recipeWrstitch _ => true
  | .recipeCommit _ => true
  | .recipeRunTimeout _ => true
  | .chartTestLookup _ => true
  | .qvStale _ => true
  | .gaugeRecordArrive => true
  | .gaugeTreadZero => true
  | .thresholdLookupDone => true
  | .awoWordArrive _ => true
  | .awoInterpRefresh _ => true
  | .streamReceive => true
  | .streamSlotTimeout _ => true
  | .awoPwmPeriod _ => true
  | .needleSet _ => true
  | .needleMov _ _ => true
  | .needleJmp _ _ => true
  | .needleWait _ _ => true
  | .needleIn _ _ => true
  | .needleOut _ => true
  | .needlePush _ => true
  | .needlePull _ => true
  | .needleFlag _ => true
  | .needleBadop _ => true
  | .needleStart _ src => src.governed
  | .needleStop _ src => src.governed
  | .bedSyncStart _ src => src.governed
  | .needlePcWrite _ _ => true
  | .needleTxWrite _ _ => true
  | .needleRxRead _ => true
  | .programStoreWrite _ _ src _ => src.governed
  | .flagClearWrite _ => true
  | .flagSetWrite _ => true
  | .needleStallTimeout _ => true
  | .comparatorSwitch _ _ => true
  | .windowSampleTick _ => true
  | .windowSampleLatch _ _ _ => true
  | .comparatorConfigWrite _ src _ => src.governed
  | .windowModeWrite _ src _ => src.governed
  | .ladderStepStart _ => true
  | .ladderHandover => true
  | .ladderHandoverForced => true
  | .ladderTestDone _ => true
  | .timerAdvance _ => true
  | .timerLineStart _ => true
  | .timerLineStop _ => true
  | .timerLineCapture _ => true
  | .timerLineClear _ => true
  | .timerRunWrite _ _ => true
  | .timerClearCommand _ => true
  | .timerCountWrite _ _ => true
  | .timerReloadWrite _ _ => true
  | .timerCompareWrite _ _ _ => true
  | .timerGroupRun _ => true
  | .timerPairCountRead _ => true
  | .tbSlew _ => true
  | .hallAccess _ a sz _ _ => a.toNat + sz.bytes ≤ 2 ^ 23
  | .hallHoldLimit _ _ => true
  | .scrubWriteback => true
  | .hallOwnerWrite _ src _ => src.governed
  | .hallOwnerHandover _ => true
  | .nvsProgramCommand => true
  | .nvsEraseCommand => true
  | .nvsWriteStart => true
  | .nvsWriteDone _ => true
  | .nvsRead _ a sz _ => a.toNat + sz.bytes ≤ 2 ^ 21
  | .logEntryWrite => true
  | .hookStart _ => true
  | .hookStop _ => true
  | .hookClearRequests _ => true
  | .hookPcWrite _ _ _ => true
  | .descriptorFetch _ => true
  | .hookMove _ => true
  | .hookFill _ => true
  | .hookCmp _ => true
  | .hookLoop _ => true
  | .hookWait _ => true
  | .hookSignal _ => true
  | .pacingPulse _ => true
  | .burstIssue => true
  | .burstComplete _ => true
  | .descriptorStatusWrite _ => true
  | .burstTimeout _ _ => true
  | .hookBudgetReset => true
  | .hookBudgetWrite _ src _ => src.governed
  | .laneSwitchToCable => true
  | .laneReturnToPrimary => true
  | .ringIsolation => true
  | .frameReceive _ ws => ws.length ≤ 45
  | .enumMeasure => true
  | .measureHoldEnd _ _ => true
  | .enumAssign resid => resid < 2 ^ 32
  | .enumDone => true
  | .joinOffer => true
  | .joinGrant => true
  | .remoteRegrd => true
  | .remoteRegwr => true
  | .remoteMemrd => true
  | .remoteMemwr => true
  | .respReceive => true
  | .syncReceive _ resid => resid < 2 ^ 32
  | .eventReceive => true
  | .imageFrameReceive => true
  | .resetFrame => true
  | .galleryReset => true
  | .enumStart => true
  | .fullEnumeration => true
  | .enumFrameReturn _ => true
  | .enumPassTimeout => true
  | .enumRetryTimer => true
  | .joinNow => true
  | .joinOfferTimer => true
  | .galleryCountClear => true
  | .syncSend => true
  | .syncTimeout => true
  | .transactionTimeout _ => true
  | .ownFrameTransmit _ => true
  | .eventSlotChange _ => true
  | .hostFetch sdi _ => hostOp sdi 0
  | .hostRegrd sdi _ => hostOp sdi 1
  | .hostRegwr sdi _ => hostOp sdi 2
  | .hostMemrd sdi _ => hostOp sdi 3
  | .hostMemwr sdi _ => hostOp sdi 4
  | .hostResultReady => true
  | .hostFrameTimeout _ => true
  | .hostRegister _ => true
  | .hoststateReceive => true
  | .irqEvaluate => true
  | .irqOfferReceive _ => true
  | .irqAcceptReceive _ => true
  | .irqRefuseReceive _ => true
  | .irqFrameNoReply _ => true
  | .irqClaimRead => true
  | .irqClaimReceive _ => true
  | .irqClaimedReceive _ => true
  | .irqDoneWrite src _ => src.governed
  | .irqSlotRelease => true
  | .irqDoneReceive _ => true
  | .irqWithdrawReceive _ => true
  | .irqClaimTimeout => true
  | .irqHoldTimeout => true
  | .trapClear => true
  | .sourceCountClear _ => true
  | .trustClaim => true
  | .trustAddkey => true
  | .trustRevoke => true
  | .trustLock => true
  | .trustRetire => true
  | .trustSetfloor => true
  | .trustDebug => true
  | .trustAttest => true
  | .trustUnknownCommand => true
  | .trustCommandEnd => true
  | .challengeExpire => true
  | .debugSessionExpire => true
  | .tamperTrip _ => true
  | .faultEvent evs => !evs.isEmpty && decide (evs.map PairEvt.source).Nodup
  | .faultCount => true
  | .severeNotice => true
  | .porterWindowClose _ => true
  | .faultForce _ src _ => src.governed
  | .severeClear _ _ => true
  | .capclr src => src.governed
  | .chiprst src => src.governed
  | .heartbeatSend => true
  | .heartbeatTimeout => true
  | .aliveToggle _ => true
  | .hallRegionTest _ _ => true
  | .nvsBackgroundRead => true
  | .compareUnitStep => true
  | .compareUnitHandover _ => true
  | .compareUnitTestDone _ => true
  | .edgeTimerStep => true
  | .edgeTimerSlotFree => true
  | .edgeTimerTestDone _ => true
  | .testIntervalLate _ => true
  | .canFrameReceive _ f => f.wf
  | .canFrameSent _ => true
  | .canTxRequest _ _ => true
  | .canTxAbort _ _ _ => true
  | .canObjectSelect _ _ => true
  | .canObjectWrite _ => true
  | .canRecover _ => true
  | .canBusOffRecovery _ => true
  | .sentFrameEnd _ p => p.nibs.length ≤ 16
  | .sentSilence _ => true
  | .railWarningEnd _ => true
  | .padReadbackMatch _ _ => true
  | .validCodeGroupArrival _ => true
  | .canBusError _ _ _ _ => true
  | .canArbitrationLost _ => true

end Sys2Proof
end

