-- ==== Sys2Proof/Certificates/Slice0/Obligations.lean ====
section
/-! DEFINITION. The statements about the model, for the provers. Commands are named as in Syntax.lean; `GoesTo o p` says that the answer
`o` is a next state with property `p`. -/

open Sys2Proof Sys2Proof.Machine

/-- Rail warnings, rail resets, gate lockout and the VMIN clear complete with their records. Outside a held reset and outside
the rails that watch mode masks: a value below the warning level begins an excursion, which sets WARN and BELOW, keeps the
lowest rounded value in VMIN and stands on source 4 (rail VGATE: 10); one above it goes into VMIN and changes nothing else; the
end of an excursion clears BELOW and the standing condition; a rail below its reset level begins a power-on reset with the rail
in RSTCAUSE; gate lockout sets LOCKOUT and BELOW, turns every gate off and stands on source 5; its end clears LOCKOUT and the
standing condition; CLRMIN gives every VMIN the value 0xFFFFF. (That a level stands for 1 % around it is in assumption 72.) -/
def Obligations.RailExcursionsAndGateLockout : Prop :=
  (∀ (s : State) (rail : Fin 5) (mv : Nat), s.pcr.held = none → s.railMasked rail = false →
    bitOf (s.get F.PCR_VSTAT.BELOW) rail = false → underLevel mv (warnLevel rail) = true →
    GoesTo (exec (.railWarning rail mv) s) fun t =>
      bitOf (t.get F.PCR_VSTAT.BELOW) rail = true ∧ bitOf (t.get F.PCR_VSTAT.WARN) rail = true
      ∧ t.get (F.PCR_VMIN rail) = min (s.get (F.PCR_VMIN rail)) (mv / vminRes rail * vminRes rail)
      ∧ (t.por.stand.any fun p => p.src = if rail = 4 then 10 else 4) = true)
  ∧ (∀ (s : State) (rail : Fin 5) (mv : Nat), s.pcr.held = none → s.railMasked rail = false → underLevel mv (warnLevel rail) = false →
    GoesTo (exec (.railWarning rail mv) s) fun t =>
      t.get (F.PCR_VMIN rail) = min (s.get (F.PCR_VMIN rail)) (mv / vminRes rail * vminRes rail)
      ∧ SameRegs (fun a => a = R.PCR_VMIN rail) s t ∧ t.por = s.por)
  ∧ (∀ (s : State) (rail : Fin 5), s.railMasked rail = false →
    GoesTo (exec (.railWarningEnd rail) s) fun t =>
      bitOf (t.get F.PCR_VSTAT.BELOW) rail = false
      ∧ (t.por.stand.any fun p => p.src = (railSrc rail).1 && p.det = (railSrc rail).2) = false)
  ∧ (∀ (s : State) (rail : Fin 4) (mv : Nat), s.railMasked rail = false → underLevel mv (lowLevel rail) = true →
    GoesTo (exec (.railReset rail mv) s) fun t =>
      t.pcr.held = some .powerOn ∧ t.get F.PCR_RSTCAUSE.POR = 1 ∧ t.get F.PCR_RSTCAUSE.RAIL = rail.val + 1
      ∧ t.get F.PCR_RSTCAUSE.NRST = 0 ∧ t.get F.PCR_RSTCAUSE.PCHIP = 0)
  ∧ (∀ (s : State) (mv : Nat), s.pcr.held = none → s.pcr.watch = false → underLevel mv (lowLevel 4) = true →
    GoesTo (exec (.gateLockoutBegin mv) s) fun t =>
      t.get F.PCR_VSTAT.LOCKOUT = 1 ∧ bitOf (t.get F.PCR_VSTAT.BELOW) 4 = true ∧ GatesOff t ∧ (t.por.stand.any fun p => p.src = 5) = true)
  ∧ (∀ s : State, s.pcr.watch = false →
    GoesTo (exec .gateLockoutEnd s) fun t =>
      t.get F.PCR_VSTAT.LOCKOUT = 0 ∧ (t.por.stand.any fun p => p.src = 5 && p.det = 0) = false)
  ∧ ∀ s : State, s.islandUp .management = true →
    GoesTo (exec .vminClear s) fun t => ∀ i, i < 5 → t.get (F.PCR_VMIN i) = 0xFFFFF

/-- NRST, the release of the internal reset, and the resets that frames and POR_CMD start. NRST held low begins an NRST reset
(unless a power-on or Porter reset is already held) with its cause bit set and the other cause bits kept; its release is seen;
the release of a held reset while nothing holds NRST low starts boot step 1 and, after power-on or NRST, latches each strap as
the majority of three samples; a RESET frame that acted 1 µs ago begins a Gallery reset; CHIPRST begins a Porter reset that
RSTCNT does not count, and during which the Karek drives NRST low. -/
def Obligations.ResetsFromOutsideAndTheirRelease : Prop :=
  (∀ s : State, s.pcr.held ≠ some .powerOn → s.pcr.held ≠ some .porter →
    GoesTo (exec .nrstAssert s) fun t =>
      t.pcr.held = some .nrst ∧ t.pcr.nrstLow = true ∧ t.get F.PCR_RSTCAUSE.NRST = 1
      ∧ t.get F.PCR_RSTCAUSE.POR = s.get F.PCR_RSTCAUSE.POR ∧ t.get F.PCR_RSTCAUSE.GAL = s.get F.PCR_RSTCAUSE.GAL)
  ∧ (∀ s : State, GoesTo (exec .nrstRelease s) fun t => t.pcr.nrstLow = false ∧ t.pcr.drive = false ∧ t.pcr.held = s.pcr.held)
  ∧ (∀ (s : State) (m b1 b0 : BitVec 3) (xin : Nat) (root : Bool) (k : ResetKind), s.pcr.held = some k → s.pcr.nrstLow = false → s.pcr.drive = false →
    GoesTo (exec (.internalResetRelease m b1 b0 xin root) s) fun t =>
      t.pcr.held = none ∧ t.get F.PCR_STAT.BOOTSTEP = 1 ∧ t.halls = []
      ∧ (k = .powerOn ∨ k = .nrst → t.get F.CHIP_STRAP.MSTR = majority m ∧ t.get F.CHIP_STRAP.BOOT = 2 * majority b1 + majority b0))
  ∧ (∀ (s : State) (t0 : Nat), s.running = true → s.gal.resetT = some t0 → t0 + 400 ≤ s.fclk →
    GoesTo (exec .galleryReset s) fun t => t.pcr.held = some .gallery ∧ t.get F.PCR_RSTCAUSE.GAL = 1)
  ∧ ∀ s : State, s.islandUp .management = true → s.limitOf R.POR_CMD = none → s.life < 2 →
    GoesTo (exec (.chiprst .host) s) fun t =>
      t.pcr.held = some .porter ∧ t.nrstPin = .low ∧ t.get F.PCR_RSTCAUSE.PCHIP = 1 ∧ t.get F.POR_STAT.RSTCNT = s.get F.POR_STAT.RSTCNT

/-- Reference checks, PLL lock, holdover and the clock monitor complete with their effects. With 85 to 115 XIN edges counted a
waiting master takes XIN as its reference; a PLL that may run sets its lock bit; step 1 ends into step 2 when both have locked;
a bay that ran from SOSC takes the ring as reference; loss of the XIN edges, or of the ring stream when no valid code group
comes in the same FCLK, starts HOLDOVER with source 3 standing (detail 0 or 1), and a return clears both; a count outside 15 per
cent of FCLK, 1600 in 64 SOSC, is reported by source 2. -/
def Obligations.ClocksLockLoseAndReturn : Prop :=
  (∀ (s : State) (n : Nat), s.running = true → s.get F.PCR_STAT.BOOTSTEP = 1 → s.get F.PCR_STAT.REFSRC = 0 →
    s.bit F.CHIP_STRAP.MSTR = true → 85 ≤ n → n ≤ 115 →
    GoesTo (exec (.xinRecheck n) s) fun t => t.get F.PCR_STAT.REFSRC = 1 ∧ t.get F.PCR_STAT.BOOTSTEP = 1)
  ∧ (∀ s : State, s.running = true → s.get F.PCR_STAT.REFSRC ≠ 0 →
    GoesTo (exec (.pllLock .a) s) (fun t => t.islandUp .angle = true ∧ t.islandUp .needle = true ∧ t.islandUp .memory = true)
    ∧ GoesTo (exec (.pllLock .g) s) fun t => t.islandUp .gallery = true)
  ∧ (∀ s : State, s.running = true → s.get F.PCR_STAT.BOOTSTEP = 1 → s.bit F.PCR_STAT.PLLA_LOCK = true → s.bit F.PCR_STAT.PLLG_LOCK = true →
    GoesTo (exec .bootStep1End s) fun t => t.get F.PCR_STAT.BOOTSTEP = 2)
  ∧ (∀ s : State, s.running = true → s.pcr.sosc = true →
    GoesTo (exec .ringReferenceLock s) fun t => t.get F.PCR_STAT.REFSRC = 2 ∧ t.pcr.sosc = false)
  ∧ (∀ s : State, s.running = true → s.get F.PCR_STAT.REFSRC = 1 →
    GoesTo (exec .xinEdgeLoss s) fun t => t.get F.PCR_STAT.HOLDOVER = 1 ∧ (t.por.stand.any fun p => p.src = 3 && p.det = 0) = true)
  ∧ (∀ s : State, s.running = true → s.get F.PCR_STAT.REFSRC = 2 → s.comes isValidGroup = false →
    GoesTo (exec .ringStreamLoss s) fun t => t.get F.PCR_STAT.HOLDOVER = 1 ∧ (t.por.stand.any fun p => p.src = 3 && p.det = 1) = true)
  ∧ (∀ s : State, s.running = true → s.bit F.PCR_STAT.HOLDOVER = true →
    GoesTo (exec .holdoverEnd s) fun t =>
      t.get F.PCR_STAT.HOLDOVER = 0 ∧ (t.por.stand.any fun p => p.src = 3 && (p.det = 0 || p.det = 1)) = false)
  ∧ ∀ (s : State) (f m n g mg : Nat), s.islandUp .angle = true → 20 * f < 27200 ∨ 36800 < 20 * f →
    GoesTo (exec (.clockMonitorCount f m n g mg) s) fun t => (t.por.stand.any fun p => p.src = 2 && p.det = 0) = true

/-- Boot steps 2 to 4: the candidate image, its verification, the wait for enumeration, and completion. In step 2 a device that
boots from a slot takes the valid slot of the higher VERSION, slot A on equal ones, or stops with NOIMAGE; one whose straps name
a port waits; one that wakes takes the slot last applied, whatever the straps say; a verification that succeeds gives the image
to the device (it becomes the running image and its plaintext is retained) and leaves step 2 for step 3 or later; one that fails
with no further slot stops boot with its cause; 50 ms in step 3 without an ENUM frame, and none in the FCLK of the limit, end it
with ENUM_WAIT; step 4 completes boot. -/
def Obligations.BootRunsFromVerificationToCompletion : Prop :=
  (∀ s : State, s.running = true → s.get F.PCR_STAT.BOOTSTEP = 2 → s.wvl.verify = none → s.wvl.load = none → s.wvl.wait = false →
    s.life ≠ 0 →
    Goes (exec .imageSlotLoad s)
    ∧ (∀ i, s.wvl.lastSlot = some i → GoesTo (exec .imageSlotLoad s) fun t => t.wvl.verify = some (.slot i) ∧ t.wvl.wait = false)
    ∧ (s.wvl.lastSlot = none → s.get F.CHIP_STRAP.BOOT_EFF ≠ 0 → GoesTo (exec .imageSlotLoad s) fun t => t.wvl.wait = true)
    ∧ (s.get F.CHIP_STRAP.BOOT_EFF = 0 → s.wvl.lastSlot = none → s.slotValid 0 = true → s.slotValid 1 = true →
      GoesTo (exec .imageSlotLoad s) fun t =>
        t.wvl.verify = some (.slot (if s.slotVer 0 < s.slotVer 1 then 1 else 0))
        ∧ t.wvl.next = some (if s.slotVer 0 < s.slotVer 1 then 0 else 1))
    ∧ (s.get F.CHIP_STRAP.BOOT_EFF = 0 → s.wvl.lastSlot = none → s.slotValid 0 = false → s.slotValid 1 = false →
      GoesTo (exec .imageSlotLoad s) fun t => t.get F.PCR_STAT.BOOTSTEP = 7))
  ∧ (∀ (s : State) (src : ImgSrc), s.islandUp .memory = true → s.get F.PCR_STAT.BOOTSTEP ≠ 6 → s.wvl.verify = some src →
    GoesTo (exec .imageVerifyDone s) fun t =>
      match (s.verifySrc src).2 with
      | .ok r => t.wvl.run = some r.1 ∧ t.wvl.verify = none ∧ t.wvl.wait = false
          ∧ (t.get F.PCR_STAT.BOOTSTEP = 3 ∨ t.get F.PCR_STAT.BOOTSTEP = 4)
      | .error c => ((s.verifySrc src).1.wvl.next = none → t.get F.PCR_STAT.BOOTSTEP = 7) ∧ (c ≤ 15 → t.get F.WVL_STAT.CAUSE = c))
  ∧ (∀ (s : State) (t0 : Nat), s.gal.step3 = some t0 → s.running = true → s.galMaster = false → s.gal.seen = false →
    t0 + 20000000 ≤ s.fclk → s.get F.PCR_STAT.BOOTSTEP = 3 → s.comes isEnumFrame = false →
    GoesTo (exec .enumWaitTimeout s) fun t =>
      t.get F.PCR_STAT.BOOTSTEP = 4 ∧ t.get F.GAL_STAT.ENUM_WAIT = 1 ∧ (t.por.pulses.any fun p => p.src = 9) = true)
  ∧ ∀ s : State, s.running = true → s.get F.PCR_STAT.BOOTSTEP = 4 →
    GoesTo (exec .bootStep4 s) fun t => t.get F.PCR_STAT.BOOTSTEP = 6

/-- A block reset holds its block and clears its interrupt counts; it ends only after its time. A request for one block that the
image uses, and that is not already held, sets its bit of PCR_BRSTAT, notes the FCLK of its start and clears the counts of the
block’s own interrupt sources; when sixteen cycles of the block’s clock have passed the resume clears the bit; a request for a
block that the image does not use, or that is held, changes nothing. -/
def Obligations.BlockResetsHoldAndResume : Prop :=
  (∀ (s : State) (src : Master) (b : Fin 16), s.running = true → s.blockUsed b = true → bitOf (s.get F.PCR_BRSTAT) b = false →
    GoesTo (exec (.blockResetRequest src (BitVec.ofNat 16 (2 ^ b.val))) s) fun t =>
      bitOf (t.get F.PCR_BRSTAT) b = true ∧ (b.val, s.fclk) ∈ t.pcr.brst
      ∧ ∀ i, i < (blockSrcs b).2 → t.get (F.IRT_SRC.COUNT ((blockSrcs b).1 + i)) = 0)
  ∧ (∀ (s : State) (src : Master) (b : Fin 16), s.blockUsed b = false ∨ bitOf (s.get F.PCR_BRSTAT) b = true →
    exec (.blockResetRequest src (BitVec.ofNat 16 (2 ^ b.val))) s = .next s)
  ∧ ∀ (s : State) (b : Fin 16) (e : Nat × Nat) (im : Image), s.running = true → s.wvl.run = some im →
    s.pcr.brst.find? (fun e => e.1 = b.val) = some e → 3 * e.2 + s.holdThirds b ≤ 3 * s.fclk →
    GoesTo (exec (.blockResetResume b) s) fun t =>
      bitOf (t.get F.PCR_BRSTAT) b = false ∧ ∀ x ∈ t.pcr.brst, x.1 ≠ b.val

/-- Watch mode: entry with its key, refusal, the count of MT ticks, and the wakes by pin and timer. A keyed request while no
stitch is armed, no window is open and no NVS write runs enters watch mode, saves TB and clears CAUSE; while one of these holds it
sets REFUSED instead; each MT tick in watch mode is counted; the WAKE pin and the timer, when enabled and due, start the wake
reset with CAUSE 1 or 3 and TB advanced by 10^6 for each tick. -/
def Obligations.WatchModeEntersCountsAndWakes : Prop :=
  (∀ s : State, s.running = true → s.watchBarred = false →
    GoesTo (exec (.watchRequest 0x5A001) s) fun t =>
      t.pcr.watch = true ∧ t.pcr.tbSave = s.tb.toNat ∧ t.get F.PCR_WAKE.CAUSE = 0 ∧ t.islandUp .angle = false)
  ∧ (∀ s : State, s.running = true → s.watchBarred = true →
    GoesTo (exec (.watchRequest 0x5A001) s) fun t => t.pcr.watch = false ∧ t.get F.PCR_MODE.REFUSED = 1)
  ∧ (∀ s : State, s.pcr.watch = true → s.pcr.held = none →
    GoesTo (exec .watchMtTick s) fun t => t.pcr.watchTicks = s.pcr.watchTicks + 1 ∧ t.pcr.watch = true)
  ∧ (∀ s : State, s.pcr.watch = true → s.bit F.PCR_WAKE.PIN_EN = true →
    GoesTo (exec .wakePin s) fun t =>
      t.pcr.held = some .wake ∧ t.pcr.watch = false ∧ t.get F.PCR_WAKE.CAUSE = 1 ∧ t.get F.PCR_RSTCAUSE.WAKE = 1
      ∧ t.tb = BitVec.ofNat 60 (s.pcr.tbSave + 1000000 * s.pcr.watchTicks))
  ∧ ∀ s : State, s.pcr.watch = true → s.bit F.PCR_WAKE.TMR_EN = true → s.get F.PCR_WTIMER ≠ 0 →
    s.get F.PCR_WTIMER ≤ s.pcr.watchTicks →
    GoesTo (exec .wakeTimer s) fun t => t.pcr.held = some .wake ∧ t.get F.PCR_WAKE.CAUSE = 3 ∧ t.get F.PCR_RSTCAUSE.WAKE = 1

/-- Time: one FCLK of an idle queue, the MT tick taken by every island, the wrap of TB. With no command waiting and the angle
island clocked, a step advances FCLK and TB by one; an MT tick becomes due exactly when TB then is a multiple of 1 000 000 or
wraps. (That time passes on an empty queue is this model’s choice, assumption 3.) MT_TICK takes one tick that is due: the budgets,
the log writer, the NVS reading and the Gallery counts see it. TB_WRAP takes the wrap, and a master starts a full enumeration. -/
def Obligations.TicksAndWrapsAreTaken : Prop :=
  (∀ s : State, s.pending = [] → s.islandUp .angle = true →
    GoesTo (step s) fun t => t.fclk = s.fclk + 1 ∧ t.tb = s.tb + 1
      ∧ t.mtDue = s.mtDue + if (s.tb.toNat + 1) % 1000000 = 0 ∨ s.tb.toNat + 1 = 2 ^ 60 then 1 else 0)
  ∧ (∀ s : State, s.pending = [] → s.islandUp .angle = false → step s = .next s)
  ∧ (∀ s : State, s.mtDue ≠ 0 → s.running = true →
    GoesTo (exec .mtTick s) fun t =>
      t.mtDue = s.mtDue - 1 ∧ t.hook.due = true ∧ t.hal.logDue = true ∧ t.stc.nvDue = s.stc.nvDue + 1 ∧ t.gal.ticks = s.gal.ticks + 1
      ∧ t.tb = s.tb)
  ∧ ∀ s : State, s.wrapDue = true →
    GoesTo (exec .tbWrap s) fun t => t.wrapDue = false ∧ (s.enumMay = true → t.gal.pass = some (.measure, s.fclk))

/-- Image loads: LOAD_BEGIN, WVL_DATA, LOAD_END, ABORT, the time-out, and IMAGE frames. At run time LOAD_BEGIN opens a load into
the slot that is not the one last applied, shown as LOADING and slot state 3; in a RETIRED or BLANK device it is refused with
LIFECYCLE; boot stopped in step 2 takes a load over the host port. A data write of a host-port load puts two bytes, the low one
first, at the offset in HALL15 and moves the offset on. LOAD_END of a slot load starts its verification with the received
length, and a host-port load of the wrong length (read from a hall without errors) stops boot with cause 4. ABORT, and 1 s
without data nor a data write in the FCLK of the limit, end a load with causes 21 and 16. An IMAGE frame with IDSEL zero starts
verification when it is final. -/
def Obligations.ImageLoadsBeginFillAndEnd : Prop :=
  (∀ s : State, s.islandUp .memory = true → s.wvl.load = none → s.wvl.verify = none → s.bit F.WVL_STAT.HOTPEND = false →
    (s.get F.PCR_STAT.BOOTSTEP = 6 → s.life = 1 ∨ s.life = 2 →
      GoesTo (exec .wvlLoadBegin s) fun t =>
        t.wvl.load = some (.slot s.loadTarget) ∧ t.get F.WVL_STAT.LOADING = 1 ∧ t.get (F.WVL_SLOT.STATE s.loadTarget) = 3
        ∧ t.wvl.cand = none ∧ t.wvl.hi = 0)
    ∧ (s.get F.PCR_STAT.BOOTSTEP = 6 → s.life = 0 ∨ s.life = 3 →
      GoesTo (exec .wvlLoadBegin s) fun t => t.wvl.load = none ∧ t.get F.WVL_STAT.CAUSE = 5 ∧ t.get F.WVL_STAT.FAIL = 1)
    ∧ (s.get F.PCR_STAT.BOOTSTEP = 7 → s.wvl.wait = true →
      GoesTo (exec .wvlLoadBegin s) fun t => t.wvl.load = some .host ∧ t.get F.PCR_STAT.BOOTSTEP = 2 ∧ t.get F.WVL_STAT.LOADING = 1))
  ∧ (∀ (s : State) (v : BitVec 16), s.islandUp .memory = true → s.wvl.load = some .host → 2 * s.get F.WVL_OFS < 524288 →
    GoesTo (exec (.wvlDataWrite v) s) fun t =>
      t.hallByte (hall15 + 2 * s.get F.WVL_OFS) = BitVec.ofNat 8 v.toNat
      ∧ t.hallByte (hall15 + 2 * s.get F.WVL_OFS + 1) = BitVec.ofNat 8 (v.toNat / 256)
      ∧ t.get F.WVL_OFS = (s.get F.WVL_OFS + 1) % 2 ^ F.WVL_OFS.len ∧ t.wvl.loadT = s.fclk)
  ∧ (∀ (s : State) (i : Fin 2), s.islandUp .memory = true → s.wvl.load = some (.slot i) →
    GoesTo (exec .wvlLoadEnd s) fun t =>
      t.wvl.load = none ∧ t.wvl.verify = some (.slot i) ∧ t.wvl.recv = 2 * s.wvl.hi ∧ t.get F.WVL_STAT.LOADING = 0)
  ∧ (∀ s : State, s.islandUp .memory = true → s.wvl.load = some .host → s.hallErr = [] →
    2 * s.wvl.hi + 1 < leNat (s.hallBytes (hall15 + 12) 4) →
    GoesTo (exec .wvlLoadEnd s) fun t => t.get F.PCR_STAT.BOOTSTEP = 7 ∧ t.get F.WVL_STAT.CAUSE = 4 ∧ t.wvl.load = none)
  ∧ (∀ (s : State) (src : ImgSrc), s.islandUp .memory = true → s.wvl.load = some src →
    GoesTo (exec .wvlAbort s) (fun t => t.wvl.load = none ∧ t.wvl.cand = none ∧ t.get F.WVL_STAT.CAUSE = 21 ∧ t.get F.WVL_STAT.FAIL = 1)
    ∧ (src ≠ .gallery → s.wvl.loadT + 400000000 ≤ s.fclk → s.comes isLoadData = false →
      GoesTo (exec .wvlLoadTimeout s) fun t => t.wvl.load = none ∧ t.get F.WVL_STAT.CAUSE = 16))
  ∧ ∀ (s : State) (r : RxFrame), s.galUp = true → s.imageWait = true → s.islandUp .memory = true → s.rxFirst (fun r => r.f.kind = 13) = some r →
    leNat (slice r.f.payload 8 8) = 0 →
    GoesTo (exec .imageFrameReceive s) fun t =>
      if bitOf (leAt r.f.payload 0 1) 0 then t.wvl.verify = some .gallery ∧ t.wvl.recv = leAt r.f.payload 4 4 + (r.f.payload.length - 16)
      else t.wvl.load = some .gallery

/-- Run-time verification, HOTSWAP and the apply points. A stored slot that fails verification shows its cause in the slot and
leaves no candidate; one that passes asks for its header page, and when that is programmed becomes the candidate with DONE; a
failed programming gives cause 20. HOTSWAP with a cause is refused, FAIL and CAUSE telling it, and the running image stays;
without one, and with sections that differ, HOTPEND sets, exactly those sections wait, and the running image keeps its sections
(where in HALL15 they stand is the model’s own: assumption 56). At its apply point a pending section takes effect and no longer
waits. -/
def Obligations.StoredImagesAreVerifiedAndSwapped : Prop :=
  (∀ (s : State) (i : Fin 2), s.islandUp .memory = true → s.get F.PCR_STAT.BOOTSTEP = 6 → s.wvl.verify = some (.slot i) →
    s.nvHas .wvl = false → s.wvl.hdr = none →
    GoesTo (exec .loadVerifyDone s) fun t =>
      match (s.verifySrc (.slot i)).2 with
      | .error c => t.wvl.verify = none ∧ t.wvl.cand = none ∧ t.get (F.WVL_SLOT.STATE i) = 2 ∧ (c ≤ 15 → t.get (F.WVL_SLOT.CAUSE i) = c)
      | .ok r => t.wvl.hdr = some (r.1, i) ∧ t.wvl.verify = s.wvl.verify ∧ t.wvl.cand = s.wvl.cand
          ∧ t.hal.waiting = s.hal.waiting ++ [⟨.wvl, [(slotPage i, s.wvl.head)]⟩])
  ∧ (∀ (s : State) (im : Image) (i : Fin 2) (bs : List Byte), s.islandUp .memory = true → s.hal.running = some ⟨.wvl, [(slotPage i, bs)]⟩ →
    s.wvl.hdr = some (im, i) →
    GoesTo (exec (.nvsWriteDone true) s) fun t =>
      t.wvl.cand = some (im, i) ∧ t.wvl.verify = none ∧ t.wvl.hdr = none ∧ t.get (F.WVL_SLOT.STATE i) = 1 ∧ t.get F.WVL_STAT.DONE = 1)
  ∧ (∀ (s : State) (i : Fin 2) (p : Nat) (bs : List Byte) (rest : List (Nat × List Byte)), s.islandUp .memory = true →
    s.hal.running = some ⟨.wvl, (p, bs) :: rest⟩ → s.wvl.load = none → s.wvl.verify = some (.slot i) → s.get F.PCR_STAT.BOOTSTEP = 6 →
    GoesTo (exec (.nvsWriteDone false) s) fun t =>
      t.wvl.cand = none ∧ t.wvl.verify = none ∧ t.wvl.hdr = none ∧ t.get (F.WVL_SLOT.CAUSE i) = 20 ∧ t.get (F.WVL_SLOT.STATE i) = 2)
  ∧ (∀ s : State, s.islandUp .memory = true → s.get F.PCR_STAT.BOOTSTEP = 6 → s.hotCause ≠ 0 →
    GoesTo (exec .wvlHotswap s) fun t => t.get F.WVL_STAT.FAIL = 1 ∧ t.wvl.run = s.wvl.run ∧ t.wvl.hot = s.wvl.hot
      ∧ t.get F.WVL_STAT.CAUSE = s.hotCause % 32)
  ∧ (∀ (s : State) (im run : Image) (i : Fin 2), s.islandUp .memory = true → s.get F.PCR_STAT.BOOTSTEP = 6 → s.hotCause = 0 →
    s.wvl.cand = some (im, i) → s.wvl.run = some run → hotDiff run.sects im.sects ≠ [] →
    GoesTo (exec .wvlHotswap s) fun t =>
      t.get F.WVL_STAT.HOTPEND = 1 ∧ t.wvl.hotImg = some (im, i)
      ∧ (t.wvl.hot.map fun e => (e.1, e.2.1, e.2.2.map (·.data))) = (hotDiff run.sects im.sects).map (fun e => (e.1, e.2.1, e.2.2.map (·.data)))
      ∧ ∃ l, t.wvl.run = some { run with sects := l }
        ∧ (l.map fun x => (x.typ, x.tgt, x.data)) = run.sects.map fun x => (x.typ, x.tgt, x.data))
  ∧ ∀ (s : State) (typ tgt : Nat) (x : Option Sect), s.islandUp .memory = true → (typ, tgt, x) ∈ s.wvl.hot → s.hotPoint typ tgt = true →
    GoesTo (exec (.hotswapApply typ tgt) s) fun t => ∀ e ∈ t.wvl.hot, ¬ (e.1 = typ ∧ e.2.1 = tgt)

/-- A register write by its access codes and limits, a read and what it clears, a stopped island. While nothing of the FCLK
waits at the stitch unit, a governed write of EO_CFGn leaves what the access codes and limits give: RW and allowed WL bits take
the value, W1C bits written 1 clear, all others stay; a WL bit that it tried and failed to change is recorded in WVL_WLREJ with
the address; no other register changes. A read of IRT_STAT, all of RC fields, in a clock with no event on it returns the counts
and clears them. An access into an island whose clock is stopped reads zero and changes nothing; so does one of an address that
no block holds. -/
def Obligations.RegisterAccessesFollowTheirCodes : Prop :=
  (∀ (s : State) (src : Master) (n : Fin 24) (v : Word), s.islandUp .angle = true → src.governed = true → s.suActs = [] →
    GoesTo (exec (.registerWrite src (BitVec.ofNat 16 (R.EO_CFG n)) v) s) fun t =>
      t.reg (R.EO_CFG n) = BitVec.ofNat 20 (s.merged src (R.EO_CFG n) (s.reg (R.EO_CFG n)).toNat v.toNat)
      ∧ (∀ a, a ≠ R.EO_CFG n → a ≠ R.WVL_WLREJ → t.reg a = s.reg a)
      ∧ (s.wlBlocked src (R.EO_CFG n) (s.reg (R.EO_CFG n)).toNat v.toNat = true →
          t.get F.WVL_WLREJ.ADDR = R.EO_CFG n ∧ t.get F.WVL_WLREJ.COUNT = min 15 (s.get F.WVL_WLREJ.COUNT + 1))
      ∧ (s.wlBlocked src (R.EO_CFG n) (s.reg (R.EO_CFG n)).toNat v.toNat = false → t.reg R.WVL_WLREJ = s.reg R.WVL_WLREJ)
      ∧ SameStores s t)
  ∧ (∀ (s : State) (src : Master), s.islandUp .memory = true → s.markOf R.IRT_STAT = none →
    GoesTo (exec (.readClear src (BitVec.ofNat 16 R.IRT_STAT)) s) fun t =>
      t.rd = s.reg R.IRT_STAT ∧ t.reg R.IRT_STAT = 0 ∧ ∀ a, a ≠ R.IRT_STAT → t.reg a = s.reg a)
  ∧ (∀ (s : State) (src : Master) (a : BitVec 16) (v : Word), s.regUp a.toNat = false → s.suActs = [] →
    exec (.registerWrite src a v) s = .next s ∧ exec (.readClear src a) s = .next { s with rd := 0 })
  ∧ ∀ (s : State) (src : Master) (a : BitVec 16) (v : Word), 0x8000 ≤ a.toNat → s.suActs = [] →
    exec (.registerWrite src a v) s = .next s ∧ exec (.readClear src a) s = .next { s with rd := 0 }

/-- Stair trackers: RUN, RESYNC, CLRCNT, the history FIFO and the geometry registers. While no edge of the same FCLK is to come
first: RESYNC in sync enters LOST with cause 8, reports source 12+n and holds the word; in LOST it enters SEARCH with word and
CYCNT 0; RUN written 1 where the limits allow starts SEARCH, armed at once when its input stands high, on a VR input with a peak
of at least VRSTART; written 0 in sync, it loses sync and stands in SEARCH; where the limits forbid the bit nothing but
WVL_WLREJ changes. CLRCNT clears NOISE, MISSED, LOSTS, PHERR and OVF and no other register. A record read drops the head of the
FIFO. A G_k write outside LEARN takes the value the access codes give and sets GDIRTY on a change; a reset of the geometry gives
every G_k its image value; a save sets GBUSY and asks for its NVS pages; the end of a save clears GBUSY and GDIRTY, or sets
GERR. -/
def Obligations.TrackerRunResyncAndCounts : Prop :=
  (∀ (s : State) (n : Fin 4),
    s.angleOk n = true → s.edgeWaits n = false → s.bit (F.STAIR_CTRL.RUN n) = true → (s.trkState n = 1 ∨ s.trkState n = 2) →
    GoesTo (exec (.trackerResync n) s) fun t =>
      t.trkState n = 3 ∧ t.get (F.STAIR_STAT.CAUSE n) = 8 ∧ t.word n = s.word n ∧ (t.por.pulses.any fun p => p.src = 12 + n.val) = true)
  ∧ (∀ (s : State) (n : Fin 4),
    s.angleOk n = true → s.edgeWaits n = false → s.bit (F.STAIR_CTRL.RUN n) = true → s.trkState n = 3 →
    GoesTo (exec (.trackerResync n) s) fun t =>
      t.trkState n = 0 ∧ t.word n = 0 ∧ t.get (F.STAIR_CYCNT n) = 0 ∧ (t.getTrk n).last = none)
  ∧ (∀ (s : State) (n : Fin 4) (src : Master),
    s.angleOk n = true → s.edgeWaits n = false → bitOf (s.wlAllow src (R.STAIR_CTRL n) 1) 0 = true → s.bit (F.STAIR_CTRL.RUN n) = false →
    GoesTo (exec (.trackerRunWrite n src true) s) fun t =>
      t.bit (F.STAIR_CTRL.RUN n) = true ∧ t.trkState n = 0 ∧ t.word n = 0 ∧ t.bit (F.STAIR_STAT.ARMED n)
        = ((s.getInp (s.inputOf n)).lvl && (s.bit (F.STAIR_CFG.INTYPE n) || decide (s.get (F.STAIR_VR.VRSTART n) ≤ (s.getInp (s.inputOf n)).pk))))
  ∧ (∀ (s : State) (n : Fin 4) (src : Master),
    s.angleOk n = true → s.edgeWaits n = false → bitOf (s.wlAllow src (R.STAIR_CTRL n) 0) 0 = true → s.bit (F.STAIR_CTRL.RUN n) = true →
    (s.trkState n = 1 ∨ s.trkState n = 2) →
    GoesTo (exec (.trackerRunWrite n src false) s) fun t =>
      t.bit (F.STAIR_CTRL.RUN n) = false ∧ t.trkState n = 0 ∧ t.word n = 0 ∧ (t.por.pulses.any fun p => p.src = 12 + n.val) = true)
  ∧ (∀ (s : State) (n : Fin 4) (src : Master) (run : Bool),
    s.angleOk n = true → s.edgeWaits n = false → bitOf (s.wlAllow src (R.STAIR_CTRL n) (b2n run)) 0 = false →
    s.wlBlocked src (R.STAIR_CTRL n) (s.reg (R.STAIR_CTRL n)).toNat (b2n run) = true →
    GoesTo (exec (.trackerRunWrite n src run) s) fun t =>
      t.get F.WVL_WLREJ.ADDR = R.STAIR_CTRL n ∧ ∀ a, a ≠ R.WVL_WLREJ → t.reg a = s.reg a)
  ∧ (∀ (s : State) (n : Fin 4),
    s.angleOk n = true →
    GoesTo (exec (.trackerClearCounts n) s) fun t =>
      t.get (F.STAIR_ERRCNT.NOISE n) = 0 ∧ t.get (F.STAIR_ERRCNT.MISSED n) = 0 ∧ t.get (F.STAIR_SYNCCNT.LOSTS n) = 0 ∧ t.get (F.STAIR_SYNCCNT.PHERR n) = 0
      ∧ t.get (F.STAIR_HSTAT.OVF n) = 0 ∧ SameRegs (fun a => a = R.STAIR_ERRCNT n ∨ a = R.STAIR_SYNCCNT n ∨ a = R.STAIR_HSTAT n) s t ∧ t.trk = s.trk)
  ∧ (∀ (s : State) (n : Fin 4),
    s.angleOk n = true →
    GoesTo (exec (.historyRecordRead n) s) fun t =>
      (t.getTrk n).fifo = (s.getTrk n).fifo.drop 1 ∧ t.regs = s.regs ∧ SameStores s t)
  ∧ (∀ (s : State) (n : Fin 4) (k : Fin 256) (src : Master) (v : Word),
    s.angleOk n = true → s.bit (F.STAIR_GCTL.LEARN n) = false → s.get (F.STAIR_CFG.ROLE n) ≠ 3 →
    GoesTo (exec (.geometryWrite n k src v) s) fun t =>
      t.get (F.STAIR_GEO n k) = s.merged src (R.STAIR_GEO n k) (s.reg (R.STAIR_GEO n k)).toNat v.toNat % 65536
      ∧ (t.get (F.STAIR_GEO n k) ≠ s.get (F.STAIR_GEO n k) → t.get (F.STAIR_ISTAT.GDIRTY n) = 1))
  ∧ (∀ (s : State) (n : Fin 4),
    s.angleOk n = true → s.get (F.STAIR_CFG.ROLE n) ≠ 3 →
    GoesTo (exec (.geometryReset n) s) fun t =>
      ∀ k, k < 256 → t.get (F.STAIR_GEO n k) = cellGet (fun _ => 0) (s.getTrk n).geo0 k % 65536)
  ∧ (∀ (s : State) (n : Fin 4),
    s.angleOk n = true → s.bit (F.STAIR_ISTAT.GBUSY n) = false → s.get (F.STAIR_CFG.ROLE n) ≠ 3 → s.nvHas (.trk n) = false →
    GoesTo (exec (.geometrySave n) s) fun t =>
      t.get (F.STAIR_ISTAT.GBUSY n) = 1 ∧ t.nvHas (.trk n) = true ∧ SameStores s t)
  ∧ (∀ (s : State) (n : Fin 4) (e : NvWho × Bool),
    s.hal.ended.find? (fun e => e.1 = .trk n) = some e →
    GoesTo (exec (.geometrySaveDone n) s) fun t =>
      t.get (F.STAIR_ISTAT.GBUSY n) = 0 ∧ (if e.2 then t.get (F.STAIR_ISTAT.GDIRTY n) = 0 else t.get (F.STAIR_ISTAT.GERR n) = 1))

/-- Stair trackers: edges, windows that close, stall, the VR arming drop and direction pulses. A change of the input a tracker
has selected reaches it when it passes the filter or the arming threshold, its stamp the age given. The first high level arms a
running input and moves no word. In SEARCH the first active edge is held as the last stamp. In CYCLE_SYNC an edge before the
window counts as NOISE and changes neither state nor word; one within the window is accepted: its stamp and period are held, the
former period becomes the one before, and TIDX moves to the next entry. The expected window closes into the two-tooth window,
that one into a closed window; a stall deadline that passes enters STALLED with cause 10; VARM halves once, down to VRFLOOR,
when no arming comes by the predicted time; a direction pulse longer than DIRW in CYCLE_SYNC enters REVERSED. -/
def Obligations.TrackerEdgesAndWindows : Prop :=
  (∀ (s : State) (n : Fin 4) (inp : Fin 12) (age : Nat) (vpk : BitVec 10),
    s.inputOf n = inp.val → s.inputPass n true age vpk = true → (s.getTrk n).acts = [] → s.angleOk n = true → s.trkOn n = true → (s.getTrk n).pin = false → s.bit (F.STAIR_STAT.ARMED n) = false →
    GoesTo (exec (.wheelEdge inp true age vpk) s) fun t =>
      t.bit (F.STAIR_STAT.ARMED n) = true ∧ t.bit (F.STAIR_STAT.INLVL n) = true ∧ (t.getTrk n).pin = true ∧ t.word n = s.word n ∧ t.trkState n = s.trkState n)
  ∧ (∀ (s : State) (n : Fin 4) (inp : Fin 12) (age : Nat) (vpk : BitVec 10),
    s.inputOf n = inp.val → s.inputPass n true age vpk = true → (s.getTrk n).acts = [] → s.angleOk n = true → s.trkOn n = true → s.get (F.STAIR_CFG.ROLE n) = 1 → s.activeLevel n = true → s.dirMode n = 0 →
    (s.getTrk n).pin = false → s.bit (F.STAIR_STAT.ARMED n) = true → s.trkState n = 0 → (s.getTrk n).last = none →
    GoesTo (exec (.wheelEdge inp true age vpk) s) fun t =>
      (t.getTrk n).last = some ((s.fclk - age)) ∧ (t.getTrk n).lastAny = some ((s.fclk - age)) ∧ t.trkState n = 0 ∧ t.word n = s.word n)
  ∧ (∀ (s : State) (n : Fin 4) (inp : Fin 12) (age : Nat) (vpk : BitVec 10),
    s.inputOf n = inp.val → s.inputPass n true age vpk = true → (s.getTrk n).acts = [] → s.angleOk n = true → s.trkOn n = true → s.get (F.STAIR_CFG.ROLE n) = 1 → s.activeLevel n = true → s.dirMode n = 0 →
    (s.getTrk n).pin = false → s.bit (F.STAIR_STAT.ARMED n) = true → s.trkState n = 2 →
    s.bit (F.STAIR_TTA.LANDING n (s.get (F.STAIR_STAT.TIDX n))) = false →
    (s.getTrk n).noise + 1 ≤ s.get (F.STAIR_CFG2.NOISELIM n) →
    20 * ((s.fclk - age) - (s.getTrk n).last.getD 0) < s.wmin n (s.get (F.STAIR_STAT.TIDX n)) * s.tpred n →
    GoesTo (exec (.wheelEdge inp true age vpk) s) fun t =>
      t.get (F.STAIR_ERRCNT.NOISE n) = satAdd (s.get (F.STAIR_ERRCNT.NOISE n)) 1 (2 ^ (F.STAIR_ERRCNT.NOISE n).len - 1)
      ∧ t.trkState n = 2 ∧ t.word n = s.word n ∧ (t.getTrk n).last = (s.getTrk n).last)
  ∧ (∀ (s : State) (n : Fin 4) (inp : Fin 12) (age : Nat) (vpk : BitVec 10),
    s.inputOf n = inp.val → s.inputPass n true age vpk = true → (s.getTrk n).acts = [] → s.angleOk n = true → s.trkOn n = true → s.get (F.STAIR_CFG.ROLE n) = 1 → s.activeLevel n = true → s.dirMode n = 0 →
    (s.getTrk n).pin = false → s.bit (F.STAIR_STAT.ARMED n) = true → s.trkState n = 2 →
    s.wmin n (s.get (F.STAIR_STAT.TIDX n)) * s.tpred n ≤ 20 * ((s.fclk - age) - (s.getTrk n).last.getD 0) →
    20 * ((s.fclk - age) - (s.getTrk n).last.getD 0) ≤ s.wmax n (s.get (F.STAIR_STAT.TIDX n)) * s.tpred n →
    GoesTo (exec (.wheelEdge inp true age vpk) s) fun t =>
      (t.getTrk n).last = some ((s.fclk - age)) ∧ (t.getTrk n).m2 = (s.getTrk n).m1
      ∧ (t.getTrk n).m1 = some ⟨(s.fclk - age) - (s.getTrk n).last.getD 0, s.effLen n (s.get (F.STAIR_STAT.TIDX n))⟩
      ∧ t.get (F.STAIR_STAT.TIDX n) = (s.get (F.STAIR_STAT.TIDX n) + 1) % s.nTeeth n)
  ∧ (∀ (s : State) (n : Fin 4),
    s.angleOk n = true → (s.trkState n = 1 ∨ s.trkState n = 2) → s.get (F.STAIR_CFG.ROLE n) = 1 →
    (s.getTrk n).win = .expected → s.wmax n (s.get (F.STAIR_STAT.TIDX n)) * s.tpred n < 20 * s.sinceLast n →
    GoesTo (exec (.toothWindowExpire n) s) fun t =>
      (t.getTrk n).win = .two ∧ t.regs = s.regs)
  ∧ (∀ (s : State) (n : Fin 4),
    s.angleOk n = true → (s.trkState n = 1 ∨ s.trkState n = 2) → s.get (F.STAIR_CFG.ROLE n) = 1 → (s.getTrk n).win = .two →
    s.wmax n ((s.get (F.STAIR_STAT.TIDX n) + 1) % s.nTeeth n) * (s.getTrk n).tpred2 < 20 * s.sinceLast n →
    GoesTo (exec (.twoToothWindowExpire n) s) fun t =>
      (t.getTrk n).win = .closed ∧ t.regs = s.regs)
  ∧ (∀ (s : State) (n : Fin 4) (d : Nat),
    s.angleOk n = true → s.edgeWaits n = false → s.bit (F.STAIR_CTRL.RUN n) = true → s.stallAt n = some d → d + s.accDelay n ≤ s.fclk →
    GoesTo (exec (.trackerStall n) s) fun t =>
      t.trkState n = 4 ∧ t.get (F.STAIR_STAT.CAUSE n) = 10 ∧ (t.por.pulses.any fun p => p.src = 12 + n.val) = true)
  ∧ (∀ (s : State) (n : Fin 4),
    s.angleOk n = true → s.bit (F.STAIR_CFG.INTYPE n) = false → s.get (F.STAIR_CFG.ROLE n) = 1 →
    (s.trkState n = 1 ∨ s.trkState n = 2) → (s.getTrk n).pin = false → (s.getTrk n).vdrop = false →
    s.tpred n ≤ s.fclk - (s.getTrk n).accT →
    GoesTo (exec (.vrArmDrop n) s) fun t =>
      (t.getTrk n).varm = max (s.get (F.STAIR_VR.VRFLOOR n)) ((s.getTrk n).varm / 2) ∧ (t.getTrk n).vdrop = true ∧ t.regs = s.regs)
  ∧ (∀ (s : State) (n : Fin 4) (b : Nat),
    s.angleOk n = true → s.trkOn n = true → s.dirMode n = 1 → s.bit (F.STAIR_STAT.ARMED n) = true →
    (s.getTrk n).pin = s.activeLevel n → s.trkState n = 2 → (s.getTrk n).pulse = some b →
    400 * s.get (F.STAIR_FILT.DIRW n) < s.stampNow n - b →
    GoesTo (exec (.directionPulseEnd n) s) fun t =>
      t.trkState n = 5 ∧ t.get (F.STAIR_STAT.CAUSE n) = 7 ∧ t.bit (F.STAIR_STAT.DIR n) = true ∧ t.word n = s.word n)

/-- Stair trackers: a tread of the word, the halt at the interval’s end, beacons of a remote tracker. In CYCLE_SYNC without a
catch-up, a word that is behind the treads that are due, and has taken none in this FCLK, moves on by one, modulo the word’s
range; a word at the last tread of an interval whose predicted time (on a remote tracker, twice that) has passed stands and HALT
shows it. A remote tracker in SEARCH holds the first beacon of its source that is not too old and whose length fits; a beacon
older than BLATMAX raises its source and changes neither state nor word. -/
def Obligations.TreadsAndBeacons : Prop :=
  (∀ (s : State) (n : Fin 4) (chk : Option (Fin 128)),
    s.angleOk n = true → s.edgeWaits n = false → s.trkState n = 2 → (s.getTrk n).stepT ≠ s.fclk → (s.getTrk n).catchC = none →
    subMod (s.word n) (s.getTrk n).base (s.wordMod n) < s.treadsDue n →
    GoesTo (exec (.treadStep n chk) s) fun t =>
      t.word n = (s.word n + 1) % s.wordMod n % 2 ^ 20)
  ∧ (∀ (s : State) (n : Fin 4) (chk : Option (Fin 128)),
    s.angleOk n = true → s.edgeWaits n = false → s.trkState n = 2 → (s.getTrk n).stepT ≠ s.fclk → (s.getTrk n).catchC = none →
    subMod (s.word n) (s.getTrk n).base (s.wordMod n) = s.treadCap n →
    (if s.get (F.STAIR_CFG.ROLE n) = 3 then 2 else 1) * s.tpred n ≤ s.elapsed n →
    GoesTo (exec (.treadStep n chk) s) fun t =>
      t.word n = s.word n ∧ t.get (F.STAIR_ISTAT.HALT n) = 1)
  ∧ (∀ (s : State) (n : Fin 4) (b : Beacon),
    s.angleOk n = true → (s.getTrk n).acts = [] → s.bit (F.STAIR_CTRL.RUN n) = true → s.get (F.STAIR_CFG.ROLE n) = 3 → s.trkState n = 0 →
    (s.getTrk n).beacons = 0 →
    s.bcnIn.find? (fun e => e.1 = n.val && e.2.bay = s.get (F.STAIR_RCFG.SRCBAY n) && e.2.trk = s.get (F.STAIR_RCFG.SRCTRK n)) = some (n.val, b) →
    s.tb.toNat - b.tb ≤ s.get (F.STAIR_RCFG.BLATMAX n) * 200 → b.len = s.cycLen n → (b.st = 1 ∨ b.st = 2) →
    GoesTo (exec (.beaconReceive n) s) fun t =>
      (t.getTrk n).mult = some b.mult ∧ (t.getTrk n).beacons = 1 ∧ (t.getTrk n).last = some b.tb ∧ t.bcnIn = s.bcnIn.erase (n.val, b) ∧ t.trkState n = 0)
  ∧ (∀ (s : State) (n : Fin 4) (b : Beacon),
    s.angleOk n = true → (s.getTrk n).acts = [] → s.bit (F.STAIR_CTRL.RUN n) = true → s.get (F.STAIR_CFG.ROLE n) = 3 →
    s.bcnIn.find? (fun e => e.1 = n.val && e.2.bay = s.get (F.STAIR_RCFG.SRCBAY n) && e.2.trk = s.get (F.STAIR_RCFG.SRCTRK n)) = some (n.val, b) →
    s.get (F.STAIR_RCFG.BLATMAX n) * 200 < s.tb.toNat - b.tb → s.get (F.IRT_SRC.COUNT (26 + 16 * n.val)) ≠ 15 →
    LostItem.irq (26 + 16 * n.val) ∉ s.por.lost →
    GoesTo (exec (.beaconReceive n) s) fun t =>
      t.trkState n = s.trkState n ∧ t.word n = s.word n ∧ t.bcnIn = s.bcnIn.erase (n.val, b)
      ∧ t.get (F.IRT_SRC.COUNT (26 + 16 * n.val)) = s.get (F.IRT_SRC.COUNT (26 + 16 * n.val)) + 1)

/-- Stitches: scan and arming, the end of a pulse, commits, cancels and parameter writes. While no step of R167 before its own
waits in the FCLK: a scan moves the pass on by one group, and a waiting stitch of the group whose start lies within its arming
reach, and which is not late, is frozen and armed; a commit sets PEND, or changes nothing where one stands; one in the FCLK of a
hand-over also sets COMMIT_LATE; a cancel ends the occurrence with result 9; a write of a parameter reaches the shadow set by
its access codes and withdraws a commit, and changes nothing in an unallocated stitch; items from the chart engine do the same
on arrival. A pulse that has run its length ends with its result, OCC counts it, and its state is the one of the table:
DISABLED, WAIT, IDLE or SPENT. -/
def Obligations.StitchesArmRunAndEnd : Prop :=
  (∀ (s : State) (n : Fin 128) (trk : Nat) (chk : Option (Fin 128)),
    s.angleOk 4 = true → s.suReady 6 = true → s.suT ≠ some s.fclk → n.val / 8 = s.suPos → s.bit (F.SU_ALLOC.EN n) = true → s.get (F.SU_ALLOC.TRK n) = trk →
    s.trkState trk = 2 → s.get (F.STITCH_STATUS.STATE n) = 1 → (s.getSt n).accScan = true →
    subMod (s.stClamped n trk).1 (s.getTrk trk).base (s.cycLen trk) < s.armReach trk (s.get (F.STAIR_STAT.TIDX trk)) (s.activeSet n).armLead →
    lateWindow (s.cycLen trk) (s.activeSet n).guard ≤ subMod (s.word trk) (s.stClamped n trk).1 (s.cycLen trk) →
    GoesTo (exec (.stitchScan chk) s) fun t =>
      t.suPos = (s.suPos + 1) % 16 ∧ t.get (F.STITCH_STATUS.STATE n) = 2
      ∧ (t.getSt n).fz = some ⟨(s.stClamped n trk).1, (s.activeSet n).len, s.tpred trk, (s.getTrk trk).n, (s.activeSet n).line, (s.activeSet n).policy,
          (s.activeSet n).runOn, (s.activeSet n).irq, (s.activeSet n).guard⟩)
  ∧ (∀ (s : State) (n : Fin 128) (chk : Option (Fin 128)),
    s.angleOk 4 = true → s.get (F.STITCH_STATUS.STATE n) = 3 → (s.getSt n).endT ≤ s.fclk →
    GoesTo (exec (.stitchPulseEnd n chk) s) fun t =>
      t.get (F.STITCH_STATUS.RESULT n) = (s.getSt n).res % 2 ^ (F.STITCH_STATUS.RESULT n).len ∧ (t.getSt n).fz = none
      ∧ t.get (F.STITCH_STATUS.OCC n) = (s.get (F.STITCH_STATUS.OCC n) + 1) % 2 ^ (F.STITCH_STATUS.OCC n).len
      ∧ t.get (F.STITCH_STATUS.STATE n) = (if !(s.activeSet n).en then 0 else if (s.activeSet n).once then (if (s.getSt n).newSet then 1 else 5)
          else if (s.getSt n).planSeen then 1 else 4))
  ∧ (∀ (s : State) (n : Fin 128),
    s.angleOk 4 = true → s.suReady 5 = true → s.suActs = [] → s.bit (F.STITCH_STATUS.PEND n) = false → (s.getSt n).hoT ≠ some s.fclk →
    GoesTo (exec (.stitchCommit n) s) fun t =>
      t.bit (F.STITCH_STATUS.PEND n) = true ∧ SameRegs (fun a => a = R.STITCH_STATUS n) s t ∧ t.stitch = s.stitch
      ∧ t.get (F.STITCH_STATUS.COMMIT_LATE n) = s.get (F.STITCH_STATUS.COMMIT_LATE n))
  ∧ (∀ (s : State) (n : Fin 128),
    s.angleOk 4 = true → s.suReady 5 = true → s.suActs = [] → s.bit (F.STITCH_STATUS.PEND n) = false → (s.getSt n).hoT = some s.fclk →
    GoesTo (exec (.stitchCommit n) s) fun t =>
      t.bit (F.STITCH_STATUS.PEND n) = true ∧ t.bit (F.STITCH_STATUS.COMMIT_LATE n) = true)
  ∧ (∀ (s : State) (n : Fin 128),
    s.suReady 5 = true → s.suActs = [] → s.bit (F.STITCH_STATUS.PEND n) = true →
    exec (.stitchCommit n) s = .next s)
  ∧ (∀ (s : State) (n : Fin 128),
    s.angleOk 4 = true → s.suReady 4 = true → s.suActs = [] → (s.get (F.STITCH_STATUS.STATE n) = 2 ∨ s.get (F.STITCH_STATUS.STATE n) = 3) →
    GoesTo (exec (.stitchCancel n) s) fun t =>
      t.get (F.STITCH_STATUS.RESULT n) = 9 ∧ (t.getSt n).fz = none ∧ (t.getSt n).endT ≤ t.fclk ∧ t.get (F.STITCH_STATUS.STATE n) ≠ 2
      ∧ t.get (F.STITCH_STATUS.STATE n) ≠ 3)
  ∧ (∀ (s : State) (n : Fin 128) (w : Fin 6) (src : Master) (v : Word),
    s.angleOk 4 = true → s.suReady 4 = true → s.suActs = [] → s.bit (F.SU_ALLOC.EN n) = true → (s.getSt n).rcpW = none →
    GoesTo (exec (.stitchParamWrite n w src v) s) fun t =>
      (t.shadowSet n).word w = s.merged src (0x2400 + 8 * n + w) ((s.shadowSet n).word w) v.toNat
      ∧ t.get (F.STITCH_STATUS.PEND n) = 0 ∧ t.activeSet n = s.activeSet n)
  ∧ (∀ (s : State) (n : Fin 128) (w : Fin 6) (src : Master) (v : Word),
    s.suReady 4 = true → s.suActs = [] → s.bit (F.SU_ALLOC.EN n) = false →
    exec (.stitchParamWrite n w src v) s = .next s)
  ∧ (∀ (s : State) (n : Fin 128) (rest : List SuItem),
    s.angleOk 4 = true → s.suReady 5 = true → s.suActs = [] → s.suPath = .commit n.val :: rest →
    GoesTo (exec (.stitchItemArrive) s) fun t =>
      t.suPath = rest ∧ t.bit (F.STITCH_STATUS.PEND n) = true)
  ∧ (∀ (s : State) (n : Fin 128) (w : Fin 6) (v : Nat) (rest : List SuItem),
    s.angleOk 4 = true → s.suReady 4 = true → s.suActs = [] → s.bit (F.SU_ALLOC.EN n) = true → s.suPath = .write n.val w.val v :: rest →
    GoesTo (exec (.stitchItemArrive) s) fun t =>
      t.suPath = rest ∧ t.get (F.STITCH_STATUS.PEND n) = 0 ∧ t.activeSet n = s.activeSet n
      ∧ (t.shadowSet n).word w = v &&& (accMask (0x2400 + 8 * n + w) .rw ||| accMask (0x2400 + 8 * n + w) .wl))

/-- Injectors: requests, closes, drain, H1DONE, comparators, the peak limit, end of injection, re-enable. A rise of one slot of
an enabled, undisabled injector whose bank is free opens the window: BUSY, injector, slot and PULSES show it; with the bank open
for another the slot is refused until its line falls; an injector that is disabled counts LOST. A fall of the slot that holds
the window closes it and drains the bank until BGAP has passed. I_OC high in a window with its needle running is a SHORT: cut
with cause 3, reported by source 20+b. No I_PK by TPKMAX, nor in the FCLK of that limit, is OPEN, or SLOW when I_H2 was seen,
and cuts. EOI crossings are counted and the observation ends after EOIWIN. H1DONE rises T_H1 after the opening. INJ_CMD clears
DIS. -/
def Obligations.InjectorWindowsOpenAndClose : Prop :=
  (∀ (s : State) (k : Fin 128),
    s.angleOk 5 = true → s.slotLine k = true → s.slotSeen k = false → s.requestOk (k / 8) = true →
    s.bit (F.INJ_BSTAT.BUSY (k / 32)) = false → s.bit (F.INJ_BSTAT.DRAIN (k / 32)) = false → (s.getBank (k / 32)).oc = false →
    GoesTo (exec (.slotLineRise [k]) s) fun t =>
      t.bit (F.INJ_BSTAT.BUSY (k / 32)) = true ∧ t.get (F.INJ_BSTAT.CONDINJ (k / 32)) = k / 8 % 4 ∧ t.get (F.INJ_BSTAT.CONDSLOT (k / 32)) = k % 8
      ∧ t.slotSeen k = true ∧ (t.getBank (k / 32)).openT = s.fclk
      ∧ t.get (F.INJ_STAT.PULSES (k / 8)) = (s.get (F.INJ_STAT.PULSES (k / 8)) + 1) % 2 ^ (F.INJ_STAT.PULSES (k / 8)).len)
  ∧ (∀ (s : State) (k : Fin 128),
    s.angleOk 5 = true → s.slotLine k = true → s.slotSeen k = false → s.requestOk (k / 8) = true →
    s.bit (F.INJ_BSTAT.BUSY (k / 32)) = true →
    GoesTo (exec (.slotLineRise [k]) s) fun t =>
      t.slotRefused k = true ∧ t.get F.INJ_CONF.INJ = k / 8 ∧ t.get F.INJ_CONF.SLOT = k % 8 ∧ t.bit (F.INJ_STAT.CONF (k / 8)) = true
      ∧ t.get F.INJ_CONF.REASON = (if s.condInj (k / 32) = k / 8 then 2 else 1) ∧ t.inj.bank = s.inj.bank)
  ∧ (∀ (s : State) (k : Fin 128),
    s.angleOk 5 = true → s.slotLine k = true → s.slotSeen k = false → s.requestOk (k / 8) = false →
    GoesTo (exec (.slotLineRise [k]) s) fun t =>
      t.slotRefused k = true ∧ t.get (F.INJ_BSTAT.BUSY (k / 32)) = s.get (F.INJ_BSTAT.BUSY (k / 32))
      ∧ t.get (F.INJ_BSTAT.LOST (k / 32)) = satAdd (s.get (F.INJ_BSTAT.LOST (k / 32))) 1 (2 ^ (F.INJ_BSTAT.LOST (k / 32)).len - 1))
  ∧ (∀ (s : State) (k : Fin 128),
    s.angleOk 5 = true → s.slotLine k = false → s.slotSeen k = true → s.slotRefused k = false →
    s.bit (F.INJ_BSTAT.BUSY (k / 32)) = true → s.condInj (k / 32) = k / 8 → s.get (F.INJ_BSTAT.CONDSLOT (k / 32)) = k % 8 →
    GoesTo (exec (.slotLineFall k) s) fun t =>
      t.bit (F.INJ_BSTAT.BUSY (k / 32)) = false ∧ t.bit (F.INJ_BSTAT.DRAIN (k / 32)) = true ∧ (t.getBank (k / 32)).offT = s.fclk ∧ t.slotSeen k = false
      ∧ t.gateINJ (k / 8) = false ∧ t.gateBST (k / 32) = false ∧ t.gateBAT (k / 32) = false)
  ∧ (∀ (s : State) (b : Fin 4),
    s.angleOk 5 = true → s.bit (F.INJ_BSTAT.DRAIN b) = true →
    (s.getBank b).offT + max 1 (40 * s.get (F.INJ_BCFG.BGAP b)) ≤ s.fclk →
    GoesTo (exec (.bankDrainEnd b) s) fun t =>
      t.bit (F.INJ_BSTAT.DRAIN b) = false ∧ SameRegs (fun a => a = R.INJ_BSTAT b) s t ∧ t.inj = s.inj)
  ∧ (∀ (s : State) (b : Fin 4),
    s.angleOk 5 = true → s.bit (F.INJ_BSTAT.BUSY b) = true → (s.getBank b).openT + 100 * s.get (F.INJ_BTIM b) ≤ s.fclk →
    GoesTo (exec (.h1doneRise b) s) fun t =>
      (t.getBank b).h1done = true ∧ t.regs = s.regs)
  ∧ (∀ (s : State) (b : Fin 4),
    s.angleOk 5 = true → s.bit (F.INJ_BCFG.EN b) = true → s.bit (F.INJ_BSTAT.BUSY b) = true → (s.getBank b).ndlOff = false →
    bitOf (s.get (F.CMP_OUT 0)) (4 * b + 3) = true →
    GoesTo (exec (.injComparatorChange (Fin.ofNat 16 (4 * b + 3))) s) fun t =>
      t.bit (F.INJ_BSTAT.BUSY b) = false ∧ t.get (F.INJ_BSTAT.CUTCAUSE b) = 3 ∧ t.bit (F.INJ_STAT.SHORT (s.condInj b)) = true
      ∧ t.bit (F.INJ_STAT.CUT (s.condInj b)) = true ∧ (t.por.pulses.any fun p => p.src = 20 + b.val) = true)
  ∧ (∀ (s : State) (b : Fin 4),
    s.angleOk 5 = true → s.bit (F.INJ_BSTAT.BUSY b) = true → (s.getBank b).limitDone = false → (s.getBank b).rise = none →
    (s.getBank b).ndlOff = false → s.peakComes b = false → (s.getBank b).openT + 200 * s.get (F.INJ_BDIAG.TPKMAX b) ≤ s.fclk →
    GoesTo (exec (.peakTimeLimit b) s) fun t =>
      t.bit (F.INJ_BSTAT.BUSY b) = false ∧ t.get (F.INJ_BSTAT.CUTCAUSE b) = 3 ∧ (t.por.pulses.any fun p => p.src = 20 + b.val) = true
      ∧ (if (s.getBank b).h2seen then t.bit (F.INJ_STAT.SLOW (s.condInj b)) = true else t.bit (F.INJ_STAT.OPEN (s.condInj b)) = true))
  ∧ (∀ (s : State) (b : Fin 4) (n : Fin 16) (t0 : Nat),
    s.angleOk 5 = true → (s.getBank b).eoi = some (n.val, t0) → (s.getBank b).eoiLvl = true →
    bitOf (s.get (F.CMP_OUT ((16 + 2 * b) / 20))) ((16 + 2 * b) % 20) = false → s.fclk ≤ t0 + 400 * s.get (F.INJ_BEOI b) →
    s.get (F.INJ_EOIF n) = 0xFFFFF →
    GoesTo (exec (.eoiCrossing b) s) fun t =>
      t.get (F.INJ_EOIF n) = min (s.fclk - t0) 0xFFFFE ∧ t.get (F.INJ_EOIL n) = min (s.fclk - t0) 0xFFFFE ∧ (t.getBank b).eoiLvl = false
      ∧ t.get (F.INJ_STAT.EOIN n) = satAdd (s.get (F.INJ_STAT.EOIN n)) 1 (2 ^ (F.INJ_STAT.EOIN n).len - 1))
  ∧ (∀ (s : State) (b : Fin 4) (n : Nat) (t0 : Nat),
    s.angleOk 5 = true → (s.getBank b).eoi = some (n, t0) → t0 + 400 * s.get (F.INJ_BEOI b) ≤ s.fclk →
    GoesTo (exec (.eoiObserveEnd b) s) fun t =>
      (t.getBank b).eoi = none ∧ t.regs = s.regs)
  ∧ (∀ (s : State) (i : Fin 16),
    s.angleOk 5 = true →
    GoesTo (exec (.injReenable i) s) fun t =>
      t.bit (F.INJ_STAT.DIS i) = false ∧ SameRegs (fun a => a = R.INJ_STAT i) s t ∧ t.inj = s.inj)

/-- Readback of gates and event outputs, and items that fail their check between islands. A gate pin whose pad has differed from
the driven level since the time a change of that level allows sets GMIS of its bank and stands on source 28 with its number, an
event output likewise sets MISMATCH and stands on source 18; a pad that agrees again ends its standing condition, and a source
on which nothing stands any more counts as fine. An item that fails its check on the way to an island that runs is dropped from
the front of its path, whatever waits behind it stays in order, and source 8 reports the destination. -/
def Obligations.ReadbacksAndCrossingChecks : Prop :=
  (∀ (s : State) (pin : Fin 24) (pad : Bool),
    s.angleOk 5 = true → s.padDiffers pin pad = true →
    GoesTo (exec (.gateReadbackMismatch pin pad) s) fun t =>
      t.bit (F.INJ_BSTAT.GMIS (if pin.val < 16 then pin.val / 4 else pin.val % 4)) = true ∧ (t.por.stand.any fun p => p.src = 28 && p.det = pin.val) = true
      ∧ t.inj = s.inj)
  ∧ (∀ (s : State) (pin : Fin 24) (pad : Bool),
    s.islandUp .angle = true → s.padDiffers (24 + pin) pad = true →
    GoesTo (exec (.eoReadbackMismatch pin pad) s) fun t =>
      t.bit (F.EO_CFG.MISMATCH pin) = true ∧ (t.por.stand.any fun p => p.src = 18 && p.det = pin.val) = true ∧ SameRegs (fun a => a = R.EO_CFG pin) s t)
  ∧ (∀ (s : State) (gate : Bool) (pin : Fin 24),
    s.islandUp .angle = true →
    GoesTo (exec (.padReadbackMatch gate pin) s) fun t =>
      (t.por.stand.any fun p => p.src = (if gate then 28 else 18) && p.det = pin.val) = false ∧ t.regs = s.regs
      ∧ ((t.por.stand.any fun p => p.src = if gate then 28 else 18) = false → (if gate then 28 else 18) ∉ t.por.seen))
  ∧ (∀ (s : State) (dest : Island) (path : CrossPath),
    s.islandUp dest = true →
    GoesTo (exec (.crossingCheckFail dest path) s) fun t =>
      (t.por.pulses.any fun p => p.src = 8) = true ∧ t.regs = s.regs
      ∧ t.suPath = (if path = .stitchItem then s.suPath.drop 1 else s.suPath)
      ∧ t.cht.inbound = (if path = .planRequest then s.cht.inbound.drop 1 else s.cht.inbound)
      ∧ t.gau.inbound = (match path with
        | .gaugeRecord => s.gau.inbound.eraseP (fun i => !i.isZero) | .treadZero => s.gau.inbound.eraseP GauItem.isZero
        | _ => s.gau.inbound)
      ∧ t.bcnOut = (if path = .beacon ∧ dest = .gallery then s.bcnOut.drop 1 else s.bcnOut)
      ∧ t.bcnIn = (if path = .beacon ∧ dest ≠ .gallery then s.bcnIn.drop 1 else s.bcnIn))

/-- The variable file, recipe requests, the start and the ends of runs, the test lookup. A HOST entry takes the value written
outside the FCLK of an age tick, STALE and the age counter clear; an entry whose counter has reached AGE, with no other command
of the FCLK to come, takes FALLBACK and is STALE. A request joins the queue, or a full queue drops it with QOVF and result 4.
The oldest request starts in the lowest free context on a snapshot of the whole file with working value 7 the cylinder. END ends
the run with result 1, and its record; a run past its limit ends with result 2 and is reported by source 70. A test lookup takes
its snapshot and is BUSY; one asked for meanwhile changes nothing; once accepted with no recipe lookup waiting, and after its
time, it gives the chart’s interpolated value in CHT_TRES with DONE and is no longer BUSY, or ERR where the chart is absent. -/
def Obligations.VariablesRequestsAndRunEnds : Prop :=
  (∀ (s : State) (q : Fin 64) (v : Word),
    s.islandUp .memory = true → s.blockFree 10 = true → (s.qent q).kind = 1 → s.cht.ageT ≠ s.fclk →
    GoesTo (exec (.hostQvWrite q .host v) s) fun t =>
      t.get (F.CHT_QV q) = v.toNat ∧ t.get (F.CHT_QVS.STALE q) = 0 ∧ t.get (F.CHT_QVS.AGECNT q) = 0 ∧ SameRegs (fun a => a = R.CHT_QV q ∨ a = R.CHT_QVS q) s t)
  ∧ (∀ (s : State) (q : Fin 64),
    s.islandUp .memory = true → s.blockFree 10 = true → s.waiting = [] → 1 ≤ (s.qent q).kind → (s.qent q).kind ≤ 7 → (s.qent q).age ≠ 0 →
    (s.qent q).age ≤ s.get (F.CHT_QVS.AGECNT q) → s.bit (F.CHT_QVS.STALE q) = false →
    GoesTo (exec (.qvStale q) s) fun t =>
      t.get (F.CHT_QV q) = (s.qent q).fall % 2 ^ 20 ∧ t.bit (F.CHT_QVS.STALE q) = true)
  ∧ (∀ (s : State) (r : PlanReq) (rest : List PlanReq),
    s.islandUp .memory = true → s.blockFree 10 = true → s.bit F.CHT_CTRL.EN = true → s.cht.inbound = r :: rest →
    s.cht.queue.length < 16 →
    GoesTo (exec (.recipeRequestArrive) s) fun t =>
      t.cht.queue = s.cht.queue ++ [r] ∧ t.cht.inbound = rest ∧ t.regs = s.regs)
  ∧ (∀ (s : State) (r : Fin 64) (cyl trk : Nat) (rest : List PlanReq),
    s.islandUp .memory = true → s.blockFree 10 = true → s.bit F.CHT_CTRL.EN = true → s.cht.inbound = ⟨r.val, cyl, trk⟩ :: rest →
    16 ≤ s.cht.queue.length →
    GoesTo (exec (.recipeRequestArrive) s) fun t =>
      t.cht.queue = s.cht.queue ∧ t.cht.inbound = rest ∧ t.bit F.CHT_STAT.QOVF = true ∧ t.get (F.CHT_RCP.LASTRES r) = 4)
  ∧ (∀ (s : State) (r : PlanReq) (rest : List PlanReq) (i : Fin 4),
    s.chtUp = true → s.cht.queue = r :: rest → (List.range 4).find? (fun i => (s.ctx i).isNone) = some i.val →
    GoesTo (exec (.recipeStart) s) fun t =>
      t.cht.queue = rest ∧ t.regs = s.regs ∧ ∃ c, t.ctx i = some c ∧ c.rcp = r.rcp ∧ c.cyl = r.cyl ∧ c.step = 0
      ∧ c.v = List.replicate 7 0 ++ [(r.cyl : Int)] ∧ c.snap = (List.range 64).map s.qv ∧ c.t0 = 3 * s.fclk)
  ∧ (∀ (s : State) (i : Fin 4) (c : Ctx) (w : Nat) (r : Recipe),
    s.atStep i 0 1 = some (c, w, r) → c.rcp < 64 →
    GoesTo (exec (.recipeEndStep i) s) fun t =>
      t.ctx i = none ∧ t.get (F.CHT_RCP.LASTRES c.rcp) = 1 ∧ t.get (F.CHT_RCP.RUNS c.rcp) = (s.get (F.CHT_RCP.RUNS c.rcp) + 1) % 2 ^ (F.CHT_RCP.RUNS c.rcp).len)
  ∧ (∀ (s : State) (i : Fin 4) (c : Ctx),
    s.ctx i = some c → c.rcp < 64 → s.chtUp = true → s.runLimit c ≤ 3 * s.fclk → s.comes (fun x => x = .recipeEndStep i) = false →
    GoesTo (exec (.recipeRunTimeout i) s) fun t =>
      t.ctx i = none ∧ t.get (F.CHT_RCP.LASTRES c.rcp) = 2 ∧ t.bit F.CHT_STAT.RUNERR = true ∧ t.get F.CHT_ERR.CAUSE = 1
      ∧ (t.por.pulses.any fun p => p.src = 70) = true)
  ∧ (∀ (s : State) (c : Fin 64),
    s.chtUp = true → s.cht.test = none →
    GoesTo (exec (.chartTestLookup c) s) fun t =>
      t.bit F.CHT_TSTAT.BUSY = true ∧ t.cht.test = some (c.val, ⟨s.snapshot, 3 * s.fclk, none⟩) ∧ SameRegs (fun a => a = R.CHT_TSTAT) s t)
  ∧ (∀ (s : State) (c : Fin 64),
    s.chtUp = true → s.cht.test ≠ none →
    exec (.chartTestLookup c) s = .next s)
  ∧ (∀ (s : State) (c a : Nat) (l : LowLook) (p : ChartPos),
    s.chtUp = true → s.cht.test = some (c, l) → l.acc = some a → s.lookFirst = none → s.lowFirst = none → s.chartAt c = some p →
    a + s.lookCost c l.snap ≤ 3 * s.fclk → (s.readWords .chart p.base (chartEval (s.chartWord p) (fun i => l.snap.getD i 0)).read).2 = true →
    s.testRun.get F.CHT_TRES = toW 20 (chartEval (s.chartWord p) (fun i => l.snap.getD i 0)).val ∧ s.testRun.bit F.CHT_TSTAT.DONE = true
      ∧ s.testRun.bit F.CHT_TSTAT.BUSY = false ∧ s.testRun.cht.test = none)
  ∧ (∀ (s : State) (c : Nat) (l : LowLook),
    s.chtUp = true → s.cht.test = some (c, l) → s.chartAt c = none → l.reqT + 4 ≤ 3 * s.fclk →
    s.testRun.bit F.CHT_TSTAT.ERR = true ∧ s.testRun.get F.CHT_TRES = s.get F.CHT_TRES ∧ s.testRun.cht.test = none)

/-- Recipe steps: each operation’s result and cost. A run that stands at a step whose cost has passed, within its limit, takes
it: LOAD puts a constant or a value of the snapshot into the destination, ADD a saturated sum or difference, SCALE a product
divided by a power of two and rounded, CLAMP a value held between two bounds, SELECT the second operand where the test holds;
each goes on to the next step and writes no register. LOOKUP, where no other context’s lookup waits, puts the chart’s value
there. WRQV updates a RECIPE entry and not the snapshot. WRSTITCH and COMMIT send one item each to the stitch unit, in order. -/
def Obligations.RecipeStepsCompute : Prop :=
  (∀ (s : State) (i : Fin 4) (c : Ctx) (w : Nat) (r : Recipe),
    s.atStep i 1 2 = some (c, w, r) →
    GoesTo (exec (.recipeLoad i) s) fun t =>
      t.ctx i = some { c with v := c.v.set (stDst w) (if stForm w then sgn 18 (stImm w) else c.snap.getD (stIdx w c.cyl) 0), step := c.step + 1, beg := c.beg + 8 } ∧ t.regs = s.regs ∧ t.suPath = s.suPath)
  ∧ (∀ (s : State) (i : Fin 4) (c : Ctx) (w : Nat) (r : Recipe),
    s.atStep i 3 2 = some (c, w, r) →
    GoesTo (exec (.recipeAdd i) s) fun t =>
      t.ctx i = some { c with v := c.v.set (stDst w) (sat20 (if stForm w then c.val (stA w) + sgn 18 (stImm w) else if bitOf (stImm w) 0 then c.val (stA w) - c.val (stB w) else c.val (stA w) + c.val (stB w))), step := c.step + 1, beg := c.beg + 8 } ∧ t.regs = s.regs ∧ t.suPath = s.suPath)
  ∧ (∀ (s : State) (i : Fin 4) (c : Ctx) (w : Nat) (r : Recipe),
    s.atStep i 4 3 = some (c, w, r) →
    GoesTo (exec (.recipeScale i) s) fun t =>
      t.ctx i = some { c with v := c.v.set (stDst w) (sat20 (rndDiv (c.val (stA w) * (if stForm w then sgn 13 (stImm w / 32) else c.val (stB w))) (2 ^ (stImm w % 32)))), step := c.step + 1, beg := c.beg + 12 } ∧ t.regs = s.regs ∧ t.suPath = s.suPath)
  ∧ (∀ (s : State) (i : Fin 4) (c : Ctx) (w : Nat) (r : Recipe),
    s.atStep i 5 2 = some (c, w, r) →
    GoesTo (exec (.recipeClamp i) s) fun t =>
      t.ctx i = some { c with v := c.v.set (stDst w) (clampVal c w), step := c.step + 1, beg := c.beg + 8 } ∧ t.regs = s.regs ∧ t.suPath = s.suPath)
  ∧ (∀ (s : State) (i : Fin 4) (c : Ctx) (w : Nat) (r : Recipe),
    s.atStep i 6 2 = some (c, w, r) →
    GoesTo (exec (.recipeSelect i) s) fun t =>
      t.ctx i = some { c with v := c.v.set (stDst w) (selectVal c w), step := c.step + 1, beg := c.beg + 8 } ∧ t.regs = s.regs ∧ t.suPath = s.suPath)
  ∧ (∀ (s : State) (i : Fin 4) (c : Ctx) (w : Nat) (r : Recipe) (p : ChartPos),
    s.atStep i 2 60 = some (c, w, r) → s.chartAt (stIdx w c.cyl) = some p → s.get (F.CHT_CHART.NDIM (stIdx w c.cyl)) ≠ 3 →
    c.acc = none → s.lowFirst = none → (∀ j, j < 4 → j ≠ i.val → s.lookWaits j = none) → s.cht.unitT ≤ c.beg → c.beg + 4 * (60 + 2 * (chartEval (s.chartWord p) (fun k => c.snap.getD k 0)).esc) ≤ 3 * s.fclk →
    c.beg + 4 * (60 + 2 * (chartEval (s.chartWord p) (fun k => c.snap.getD k 0)).esc) ≤ s.runLimit c →
    (s.readWords .chart p.base (chartEval (s.chartWord p) (fun k => c.snap.getD k 0)).read).2 = true →
    GoesTo (exec (.recipeLookup i) s) fun t =>
      ∃ c', t.ctx i = some c' ∧ c'.v = c.v.set (stDst w) (chartEval (s.chartWord p) (fun k => c.snap.getD k 0)).val ∧ c'.step = c.step + 1 ∧ c'.snap = c.snap
      ∧ t.cht.unitT = c.beg + 48)
  ∧ (∀ (s : State) (i : Fin 4) (c : Ctx) (w : Nat) (r : Recipe),
    s.atStep i 7 2 = some (c, w, r) → (s.qent (stImm w % 64)).kind = 8 →
    GoesTo (exec (.recipeWrqv i) s) fun t =>
      t.qv (stImm w % 64) = sat20 (c.val (stA w)) ∧ t.ctx i = some { c with step := c.step + 1, beg := c.beg + 8 } ∧ t.bit (F.CHT_QVS.STALE (stImm w % 64)) = false)
  ∧ (∀ (s : State) (i : Fin 4) (c : Ctx) (w : Nat) (r : Recipe),
    s.atStep i 8 2 = some (c, w, r) →
    GoesTo (exec (.recipeWrstitch i) s) fun t =>
      t.suPath = s.suPath ++ [.write (stStitch w c.cyl r.stride) (stImm w / 256 % 8) (toW 20 (c.val (stA w)))] ∧ t.regs = s.regs
      ∧ t.ctx i = some { c with step := c.step + 1, beg := c.beg + 8 })
  ∧ (∀ (s : State) (i : Fin 4) (c : Ctx) (w : Nat) (r : Recipe),
    s.atStep i 9 2 = some (c, w, r) →
    GoesTo (exec (.recipeCommit i) s) fun t =>
      t.suPath = s.suPath ++ [.commit (stStitch w c.cyl r.stride)] ∧ t.regs = s.regs ∧ t.ctx i = some { c with step := c.step + 1, beg := c.beg + 8 })

/-- The gauge: segment sums, segment times and roughness, coders, the threshold, waveform outputs, streams. A record within a
segment adds its period to the sum; one at the end position, with no segment boundary passed over, gives T_c / 64, saturated,
and the roughness from the two times before. A record that the coder must give as a sync block adds the fifteen bytes to its
buffer and HBYTES. A tread 0 counts the cycle and asks for a threshold lookup; that, accepted when no recipe lookup waits and
after its time, gives MFTHR. A waveform output whose index or table changed takes its table value, or with INTERP the
interpolated one. A stream frame shows in its slot and in the outputs that take it; a slot without a frame for its time is no
longer FRESH. The carrier latches its duty at count 0. -/
def Obligations.GaugeSegmentsCodersAndOutputs : Prop :=
  (∀ (s : State) (r : GauRec) (rest : List GauItem) (c : Fin 16) (x : Nat),
    s.islandUp .memory = true → s.blockFree 11 = true → s.gau.inbound = .record r :: rest → s.bit F.GAU_CFG.EN = true →
    r.trk = s.get F.GAU_CFG.TRK → r.cyc = true → r.first = false → s.bit (F.GAU_HCFG.HEN r.trk) = false →
    s.gau.seg = some (c.val, x) → s.gau.lastPos = none → r.pos ≠ s.segEnd c → (∀ k, k < s.nSeg → s.get (F.GAU_SEG k) ≠ r.pos) →
    GoesTo (exec (.gaugeRecordArrive) s) fun t =>
      t.gau.seg = some (c.val, x + r.rec_.per) ∧ t.gau.lastPos = some r.pos ∧ t.gau.inbound = rest ∧ t.regs = s.regs)
  ∧ (∀ (s : State) (r : GauRec) (rest : List GauItem) (c : Fin 16) (x : Nat) (t1 : Nat) (t2 : Nat),
    s.islandUp .memory = true → s.blockFree 11 = true → s.gau.inbound = .record r :: rest → s.bit F.GAU_CFG.EN = true →
    r.trk = s.get F.GAU_CFG.TRK → r.cyc = true → r.first = false → s.gau.seg = some (c.val, x) → s.gau.segBad = false →
    r.pos = s.segEnd c → (s.gau.lastPos.all fun q => (List.range s.nSeg).all fun k => !between (s.positions r.trk) q r.pos (s.get (F.GAU_SEG k))) = true →
    x + r.rec_.per < 2 ^ 30 → x + r.rec_.per ≠ 0 → s.gau.prevT = [t1, t2] →
    GoesTo (exec (.gaugeRecordArrive) s) fun t =>
      t.get (F.GAU_TSEG c) = min ((x + r.rec_.per) / 64) 0xFFFFF ∧ t.bit (F.GAU_MF.VALID c) = true ∧ t.gau.prevT = [x + r.rec_.per, t1]
      ∧ t.get (F.GAU_ROUGH c) = toW 20 (sat20 (rndDiv (65536 * (((x + r.rec_.per : Nat) : Int) - 2 * t1 + t2)) (x + r.rec_.per))))
  ∧ (∀ (s : State) (r : GauRec) (rest : List GauItem) (n : Fin 4),
    s.islandUp .memory = true → s.blockFree 11 = true → s.gau.inbound = .record r :: rest → s.bit F.GAU_CFG.EN = false →
    r.trk = n.val → s.bit (F.GAU_HCFG.HEN n) = true → (s.coder n).sync = true → (s.coder n).buf.length + 15 ≤ 32 →
    GoesTo (exec (.gaugeRecordArrive) s) fun t =>
      (t.coder n).buf = (s.coder n).buf ++ syncBytes r (s.coder n).lost (s.bit (F.GAU_HCFG.COARSE n)) ∧ (t.coder n).sync = false ∧ (t.coder n).since = 1
      ∧ t.get (F.GAU_HBYTES n) = (s.get (F.GAU_HBYTES n) + 15) % 2 ^ (F.GAU_HBYTES n).len ∧ t.bit (F.GAU_HSTAT.CACT n) = s.bit (F.GAU_HCFG.COARSE n))
  ∧ (∀ (s : State) (n : Nat) (rest : List GauItem),
    s.islandUp .memory = true → s.blockFree 11 = true → s.gau.inbound = .zero n :: rest → s.candNow = none → s.bit F.GAU_CFG.EN = true →
    n = s.get F.GAU_CFG.TRK → s.bit F.GAU_MFCFG.MFEN = true →
    GoesTo (exec (.gaugeTreadZero) s) fun t =>
      t.gau.inbound = rest ∧ t.gau.lookup.isSome = true ∧ t.gau.cycCand = 0
      ∧ t.get F.GAU_STAT.BLKCYC = (if max 1 (s.get F.GAU_MFCFG.MFWIN) ≤ s.get F.GAU_STAT.BLKCYC + 1 then 0 else s.get F.GAU_STAT.BLKCYC + 1))
  ∧ (∀ (s : State) (a : Nat) (l : LowLook) (p : ChartPos),
    s.gauUp = true → s.chtUp = true → s.gau.lookup = some l → l.acc = some a → s.lookFirst = none → s.lowFirst = none →
    s.chartAt (s.get F.GAU_MFCFG.MFCHART) = some p → a + s.lookCost (s.get F.GAU_MFCFG.MFCHART) l.snap ≤ 3 * s.fclk →
    (s.readWords .chart p.base (chartEval (s.chartWord p) (fun i => l.snap.getD i 0)).read).2 = true →
    GoesTo (exec (.thresholdLookupDone) s) fun t =>
      t.get F.GAU_MFTHR = toW 20 (chartEval (s.chartWord p) (fun i => l.snap.getD i 0)).val ∧ t.gau.lookup = none)
  ∧ (∀ (s : State) (a : Fin 2) (h : Fin 15) (o : Nat),
    s.gauUp = true → s.bit (F.GAU_ACFG.REMOTE a) = false → s.awoLive a = true → s.bit (F.GAU_ACFG.INTERP a) = false →
    s.awoStale a = true → (∀ e ∈ s.wvl.hot, ¬ (e.1 = 0x59 ∧ e.2.1 = a.val)) → vget s.gau.awoTab a none = some (h.val, o) →
    o % 8 = 0 → o + 2048 ≤ 524288 → s.bit (F.HAL_OWN.PWR h) = true → s.get (F.HAL_OWN.OWNER h) = 5 → s.hallErr = [] →
    GoesTo (exec (.awoWordArrive a) s) fun t =>
      t.bit (F.GAU_AOUT.VALID a) = true ∧ t.get (F.GAU_AIDX a) = (s.awoIdx a).1 % 1024 ∧ vget t.gau.awoT a 0 = s.fclk
      ∧ t.get (F.GAU_AOUT.Y a) = toW 16 (sgn 16 (leNat (s.hallBytes (524288 * h + o + 2 * ((s.awoIdx a).1 % 1024)) 2))))
  ∧ (∀ (s : State) (a : Fin 2) (h : Fin 15) (o : Nat),
    s.gauUp = true → s.bit (F.GAU_ACFG.REMOTE a) = false → s.awoLive a = true → s.bit (F.GAU_ACFG.INTERP a) = true →
    256 ≤ 3 * (s.fclk - vget s.gau.awoT a 0) → vget s.gau.awoTab a none = some (h.val, o) → o % 8 = 0 → o + 2048 ≤ 524288 →
    s.bit (F.HAL_OWN.PWR h) = true → s.get (F.HAL_OWN.OWNER h) = 5 → s.hallErr = [] →
    GoesTo (exec (.awoInterpRefresh a) s) fun t =>
      t.bit (F.GAU_AOUT.VALID a) = true ∧ t.get (F.GAU_AIDX a) = (s.awoIdx a).1 % 1024 ∧ vget t.gau.awoT a 0 = s.fclk
      ∧ let y0 := sgn 16 (leNat (s.hallBytes (524288 * h + o + 2 * ((s.awoIdx a).1 % 1024)) 2))
        let y1 := sgn 16 (leNat (s.hallBytes (524288 * h + o + 2 * (((s.awoIdx a).1 + 1) % 1024)) 2))
        t.get (F.GAU_AOUT.Y a) = toW 16 (y0 + (y1 - y0) * (s.awoIdx a).2 / s.cycLen (s.get (F.GAU_ACFG.ATRK a))))
  ∧ (∀ (s : State) (sl : Fin 8) (y : Nat) (rest : List (Nat × Nat)),
    s.islandUp .memory = true → s.blockFree 11 = true → s.gau.rx = (sl.val, y) :: rest →
    GoesTo (exec (.streamReceive) s) fun t =>
      t.get (F.GAU_SRX.VALUE sl) = y % 65536 ∧ t.bit (F.GAU_SRX.FRESH sl) = true ∧ vget t.gau.srxT sl 0 = s.fclk ∧ t.gau.rx = rest
      ∧ ∀ a, a < 2 → s.bit (F.GAU_ACFG.AEN a) = true → s.bit (F.GAU_ACFG.REMOTE a) = true → s.get (F.GAU_ACFG.RXSLOT a) = sl.val →
        t.awoOut a = (y % 65536, true))
  ∧ (∀ (s : State) (sl : Fin 8),
    s.gauUp = true → s.bit (F.GAU_SRX.FRESH sl) = true → vget s.gau.srxT sl 0 + 4000 * max 1 (s.get F.GAU_SRXTO) ≤ s.fclk →
    (s.gau.rx.head?.map (·.1) = some sl.val → s.comes (fun c => c = .streamReceive) = false) →
    GoesTo (exec (.streamSlotTimeout sl) s) fun t =>
      t.bit (F.GAU_SRX.FRESH sl) = false ∧ t.get (F.GAU_SRX.VALUE sl) = s.get (F.GAU_SRX.VALUE sl))
  ∧ (∀ (s : State) (a : Fin 2),
    s.islandUp .angle = true → s.awoPer a ≠ 0 → vget s.gau.phase a 0 + s.awoPer a ≤ s.fclk →
    GoesTo (exec (.awoPwmPeriod a) s) fun t =>
      vget t.gau.phase a 0 = s.fclk ∧ vget t.gau.duty a 0 = ((sgn 16 (s.awoOut a).1 + 32768) * s.awoPer a / 65536).toNat ∧ t.regs = s.regs)

/-- Needles: what each instruction does, where it goes on and when it stalls. A running needle whose needle cycle has come takes
the word at its PC. SET loads ten bits low, or high above the ten kept; MOV passes its source through OPR to U, V, the pins or the
PC; JMP on U or V counts it down and jumps unless it has become 0, an unconditional one always; WAIT goes on when its source has
the level, else it stalls; IN and OUT shift COUNT bits; PUSH appends SIN and clears it, and a blocking PUSH to a full queue
stalls; PULL takes the head; FLAG sets and clears; an unused OP sets BADOP and goes on. Each that goes on shows its own address in
NPC and lets DELAY more needle cycles pass. -/
def Obligations.NeedleInstructionsRun : Prop :=
  (∀ (s : State) (m : Fin 16),
    s.ndlReady m (· = 1) = true → s.ndlWord m / 16384 % 4 = 0 →
    GoesTo (exec (.needleSet m) s) fun t =>
      NeedleGoes s t m (s.ndlNext m) ∧ t.get (F.BED_NU m) = s.ndlWord m / 16 % 1024 ∧ t.get (F.BED_NV m) = s.get (F.BED_NV m))
  ∧ (∀ (s : State) (m : Fin 16),
    s.ndlReady m (· = 1) = true → s.ndlWord m / 16384 % 4 = 3 →
    GoesTo (exec (.needleSet m) s) fun t =>
      NeedleGoes s t m (s.ndlNext m) ∧ t.get (F.BED_NU m) = s.get (F.BED_NU m)
      ∧ t.get (F.BED_NV m) = 1024 * (s.ndlWord m / 16 % 1024) + s.get (F.BED_NV m) % 1024)
  ∧ (∀ (s : State) (m : Fin 16) (np : BitVec 32),
    s.ndlReady m (· = 2) = true → s.ndlWord m / 8192 % 8 = 1 →
    GoesTo (exec (.needleMov m np) s) fun t =>
      NeedleGoes s t m (s.ndlNext m)
      ∧ t.get (F.BED_NU m) = movOp (s.ndlWord m / 1024 % 8) (s.ndlSource m np (s.ndlWord m / 16 % 8)) % 2 ^ 20 ∧ t.get (F.BED_NV m) = s.get (F.BED_NV m))
  ∧ (∀ (s : State) (m : Fin 16) (np : BitVec 32),
    s.ndlReady m (· = 2) = true → s.ndlWord m / 8192 % 8 = 0 →
    GoesTo (exec (.needleMov m np) s) fun t =>
      NeedleGoes s t m (s.ndlNext m)
      ∧ (t.getNdl m).pin = movOp (s.ndlWord m / 1024 % 8) (s.ndlSource m np (s.ndlWord m / 16 % 8)) % 256 + (s.getNdl m).pin / 256 * 256)
  ∧ (∀ (s : State) (m : Fin 16) (np : BitVec 32),
    s.ndlReady m (· = 2) = true → s.ndlWord m / 8192 % 8 = 6 →
    GoesTo (exec (.needleMov m np) s) fun t =>
      NeedleGoes s t m (movOp (s.ndlWord m / 1024 % 8) (s.ndlSource m np (s.ndlWord m / 16 % 8))))
  ∧ (∀ (s : State) (m : Fin 16) (np : BitVec 32),
    s.ndlReady m (· = 3) = true → s.ndlWord m / 8192 % 8 = 0 →
    GoesTo (exec (.needleJmp m np) s) fun t =>
      NeedleGoes s t m (s.ndlWord m / 16 % 64) ∧ t.get (F.BED_NU m) = s.get (F.BED_NU m))
  ∧ (∀ (s : State) (m : Fin 16) (np : BitVec 32),
    s.ndlReady m (· = 3) = true → s.ndlWord m / 8192 % 8 = 3 →
    GoesTo (exec (.needleJmp m np) s) fun t =>
      t.get (F.BED_NU m) = (s.get (F.BED_NU m) + 1048575) % 1048576
      ∧ NeedleGoes s t m (if s.get (F.BED_NU m) = 1 then s.ndlNext m else s.ndlWord m / 16 % 64))
  ∧ (∀ (s : State) (m : Fin 16) (np : BitVec 32),
    s.ndlReady m (· = 4) = true → s.ndlWord m / 8192 % 4 = 3 →
    GoesTo (exec (.needleWait m np) s) fun t =>
      if s.flag (s.ndlWord m / 16 % 16) = bitOf (s.ndlWord m) 15 then NeedleGoes s t m (s.ndlNext m) else NeedleStalls s t m)
  ∧ (∀ (s : State) (m : Fin 16) (np : BitVec 32),
    s.ndlReady m (· = 5) = true →
    GoesTo (exec (.needleIn m np) s) fun t =>
      NeedleGoes s t m (s.ndlNext m) ∧ (t.getNdl m).sinN = min 20 ((s.getNdl m).sinN + shiftCount (s.ndlWord m))
      ∧ (s.bit (F.BED_NCFG.INDIR m) = false → t.get (F.BED_NSIN m) = (s.get (F.BED_NSIN m) * 2 ^ shiftCount (s.ndlWord m)
          + s.ndlSource m np (s.ndlWord m / 8192 % 8) % 2 ^ shiftCount (s.ndlWord m)) % 2 ^ 20))
  ∧ (∀ (s : State) (m : Fin 16),
    s.ndlReady m (· = 6) = true → bitOf (s.ndlWord m) 15 = false → s.ndlWord m / 4096 % 8 = 1 →
    s.bit (F.BED_NCFG.OUTDIR m) = true →
    GoesTo (exec (.needleOut m) s) fun t =>
      NeedleGoes s t m (s.ndlNext m) ∧ t.get (F.BED_NU m) = s.get (F.BED_NSOUT m) % 2 ^ shiftCount (s.ndlWord m)
      ∧ t.get (F.BED_NSOUT m) = s.get (F.BED_NSOUT m) / 2 ^ shiftCount (s.ndlWord m) ∧ (t.getNdl m).soutN = min 20 ((s.getNdl m).soutN + shiftCount (s.ndlWord m)))
  ∧ (∀ (s : State) (m : Fin 16),
    s.ndlReady m (· = 6) = true → bitOf (s.ndlWord m) 15 = true → bitOf (s.ndlWord m) 14 = false →
    GoesTo (exec (.needleOut m) s) fun t =>
      NeedleGoes s t m (s.ndlNext m) ∧ (t.getNdl m).pin = s.ndlWord m / 16 % 256 + (s.getNdl m).pin / 256 * 256 ∧ t.get (F.BED_NSOUT m) = s.get (F.BED_NSOUT m))
  ∧ (∀ (s : State) (m : Fin 16),
    s.ndlReady m (· = 7) = true → (s.getNdl m).rx.length < s.rxSize m →
    GoesTo (exec (.needlePush m) s) fun t =>
      NeedleGoes s t m (s.ndlNext m) ∧ (t.getNdl m).rx = (s.getNdl m).rx ++ [s.get (F.BED_NSIN m)] ∧ t.get (F.BED_NSIN m) = 0)
  ∧ (∀ (s : State) (m : Fin 16),
    s.ndlReady m (· = 7) = true → s.rxSize m ≤ (s.getNdl m).rx.length → bitOf (s.ndlWord m) 15 = true →
    GoesTo (exec (.needlePush m) s) fun t =>
      NeedleStalls s t m ∧ (t.getNdl m).rx = (s.getNdl m).rx)
  ∧ (∀ (s : State) (m : Fin 16) (x : Nat) (rest : List Nat),
    s.ndlReady m (· = 8) = true → (s.getNdl m).tx = x :: rest →
    GoesTo (exec (.needlePull m) s) fun t =>
      NeedleGoes s t m (s.ndlNext m) ∧ t.get (F.BED_NSOUT m) = x % 2 ^ 20 ∧ (t.getNdl m).tx = rest ∧ (t.getNdl m).soutN = 0)
  ∧ (∀ (s : State) (m : Fin 16),
    s.ndlReady m (· = 8) = true → (s.getNdl m).tx = [] → bitOf (s.ndlWord m) 15 = true →
    GoesTo (exec (.needlePull m) s) fun t =>
      NeedleStalls s t m ∧ t.get (F.BED_NSOUT m) = s.get (F.BED_NSOUT m))
  ∧ (∀ (s : State) (m : Fin 16),
    s.ndlReady m (· = 9) = true → s.ndlWord m / 16384 % 4 = 1 →
    GoesTo (exec (.needleFlag m) s) fun t =>
      NeedleGoes s t m (s.ndlNext m) ∧ t.flag (s.ndlWord m / 16 % 16) = true)
  ∧ (∀ (s : State) (m : Fin 16),
    s.ndlReady m (· = 9) = true → s.ndlWord m / 16384 % 4 = 0 →
    GoesTo (exec (.needleFlag m) s) fun t =>
      NeedleGoes s t m (s.ndlNext m) ∧ t.flag (s.ndlWord m / 16 % 16) = false)
  ∧ (∀ (s : State) (m : Fin 16),
    s.ndlReady m (fun o => o = 0 || decide (10 ≤ o)) = true →
    GoesTo (exec (.needleBadop m) s) fun t =>
      NeedleGoes s t m (s.ndlNext m) ∧ t.bit (F.BED_NSTAT.BADOP m) = true ∧ t.get (F.BED_NU m) = s.get (F.BED_NU m))

/-- Needles: starts, stops, the PC, the queues, the program store, flags, the stall limit. A start of a stopped needle that its
master may start lets it run from NPC; BED0_SYNC starts every stopped needle it names in one NCLK and no other; a stop shows
cause 1 and the PC that would follow. NPC takes a value only while the needle stands. NTX appends or, full, sets TXOVF; NRX
gives the head, or 0 with RXUNF. The program store takes a word by its codes when all four needles stood as the NCLK began, and
else sets PSTORE_BUSY. In an NCLK in which no FLAG instruction has acted, BED0_FLAGS clears the flags of its mask, BED0_FSET
sets them. A needle stalled for STO + 1 ticks of 10 µs, and whose stall does not end in the FCLK, stops with cause 2 and is
reported by source 48 + m. -/
def Obligations.NeedlesStartStopAndServeQueues : Prop :=
  (∀ (s : State) (m : Fin 16) (src : Master),
    s.bedOk (m / 4) = true → s.ndlMay m src = true → s.get (F.BED_NSTAT.STATE m) = 0 →
    GoesTo (exec (.needleStart m src) s) fun t =>
      t.get (F.BED_NSTAT.STATE m) = 1 ∧ (t.getNdl m).pc = s.get (F.BED_NPC m) ∧ (t.getNdl m).start = s.nclk ∧ (t.getNdl m).next = s.nclk ∧ (t.getNdl m).live = true)
  ∧ (∀ (s : State) (m : Fin 16) (src : Master),
    s.ndlMay m src = false →
    exec (.needleStart m src) s = .next s)
  ∧ (∀ (s : State) (m : Fin 16) (src : Master),
    s.bedOk (m / 4) = true → s.ndlMay m src = true → s.get (F.BED_NSTAT.STATE m) ≠ 0 →
    GoesTo (exec (.needleStop m src) s) fun t =>
      t.get (F.BED_NSTAT.STATE m) = 0 ∧ t.get (F.BED_NSTAT.CAUSE m) = 1 ∧ t.get (F.BED_NPC m) = (s.getNdl m).pc % 64)
  ∧ (∀ (s : State) (mask : BitVec 16) (src : Master),
    s.islandUp .needle = true →
    GoesTo (exec (.bedSyncStart mask src) s) fun t =>
      ∀ m, m < 16 → (bitOf mask.toNat m = true → s.bedOk (m / 4) = true → s.ndlMay m src = true → s.get (F.BED_NSTAT.STATE m) = 0 →
          t.get (F.BED_NSTAT.STATE m) = 1 ∧ (t.getNdl m).start = s.nclk ∧ (t.getNdl m).pc = s.get (F.BED_NPC m))
        ∧ (bitOf mask.toNat m = false → t.getNdl m = s.getNdl m ∧ t.get (F.BED_NSTAT.STATE m) = s.get (F.BED_NSTAT.STATE m)))
  ∧ (∀ (s : State) (m : Fin 16) (v : BitVec 6),
    s.bedOk (m / 4) = true → s.get (F.BED_NSTAT.STATE m) = 0 →
    GoesTo (exec (.needlePcWrite m v) s) fun t =>
      t.get (F.BED_NPC m) = v.toNat ∧ SameRegs (fun a => a = R.BED_NPC m) s t)
  ∧ (∀ (s : State) (m : Fin 16) (v : BitVec 6),
    s.get (F.BED_NSTAT.STATE m) ≠ 0 →
    exec (.needlePcWrite m v) s = .next s)
  ∧ (∀ (s : State) (m : Fin 16) (v : Word),
    s.bedOk (m / 4) = true →
    GoesTo (exec (.needleTxWrite m v) s) fun t =>
      if (s.getNdl m).tx.length < s.txSize m then (t.getNdl m).tx = (s.getNdl m).tx ++ [v.toNat] ∧ t.regs = s.regs
      else t.bit (F.BED_NQSTAT.TXOVF m) = true ∧ t.ndl = s.ndl)
  ∧ (∀ (s : State) (m : Fin 16) (x : Nat) (rest : List Nat),
    s.bedOk (m / 4) = true → (s.getNdl m).rx = x :: rest →
    GoesTo (exec (.needleRxRead m) s) fun t =>
      t.rd = BitVec.ofNat 20 x ∧ (t.getNdl m).rx = rest ∧ t.regs = s.regs)
  ∧ (∀ (s : State) (m : Fin 16),
    s.bedOk (m / 4) = true → (s.getNdl m).rx = [] →
    GoesTo (exec (.needleRxRead m) s) fun t =>
      t.rd = 0 ∧ t.bit (F.BED_NQSTAT.RXUNF m) = true)
  ∧ (∀ (s : State) (b : Fin 4) (k : Fin 64) (src : Master) (v : Word),
    s.bedOk b = true → s.bedWasStopped b = true →
    GoesTo (exec (.programStoreWrite b k src v) s) fun t =>
      t.reg (R.BED_PS b k) = BitVec.ofNat 20 (s.merged src (R.BED_PS b k) (s.reg (R.BED_PS b k)).toNat v.toNat))
  ∧ (∀ (s : State) (b : Fin 4) (k : Fin 64) (src : Master) (v : Word),
    s.bedOk b = true → s.bedWasStopped b = false →
    GoesTo (exec (.programStoreWrite b k src v) s) fun t =>
      t.bit (F.BED_STAT.PSTORE_BUSY b) = true ∧ t.reg (R.BED_PS b k) = s.reg (R.BED_PS b k))
  ∧ (∀ (s : State) (mask : BitVec 16),
    s.bedOk 0 = true → (∀ n, n < 16 → s.flagNow n = none) →
    GoesTo (exec (.flagClearWrite mask) s) fun t =>
      ∀ n, n < 16 → t.flag n = (s.flag n && !bitOf mask.toNat n))
  ∧ (∀ (s : State) (mask : BitVec 16),
    s.bedOk 0 = true → (∀ n, n < 16 → s.flagNow n = none) →
    GoesTo (exec (.flagSetWrite mask) s) fun t =>
      ∀ n, n < 16 → t.flag n = (s.flag n || bitOf mask.toNat n))
  ∧ (∀ (s : State) (m : Fin 16),
    s.bedOk (m / 4) = true → s.get (F.BED_NSTAT.STATE m) = 2 → s.get (F.BED_NSTO m) ≠ 0 →
    (s.ndlWord m / 65536 ≠ 4 ∨ s.bit (F.BED_NCFG.WAITTO m) = true) →
    s.get (F.BED_NSTO m) + 1 ≤ s.tick10 - (s.getNdl m).stallAt → s.stallEnds m = false →
    GoesTo (exec (.needleStallTimeout m) s) fun t =>
      t.get (F.BED_NSTAT.STATE m) = 0 ∧ t.get (F.BED_NSTAT.CAUSE m) = 2 ∧ (t.por.pulses.any fun p => p.src = 48 + m.val) = true)

/-- Window comparators: continuous outputs, samples, modes and settings. In continuous mode a comparator’s output takes the
level that threshold and hysteresis give, and the zone of its window follows both outputs. A tick of a sampled window starts a
sample; its latch, 2 µs later, takes both levels and ends it. A write of MODE 0 or 1 acts at once, and leaving off or entering
it makes both outputs low; MODE 2 acts at the next tick. A write of CMP_CFGk keeps SEL where INJ or the fixed wiring owns it and
takes the rest by the access codes. -/
def Obligations.WindowsFollowTheirInputs : Prop :=
  (∀ (s : State) (k : Fin 24) (uv : Int),
    s.islandUp .management = true → s.pcr.watch = false → (s.getWin (k / 2)).eff = 1 →
    GoesTo (exec (.comparatorSwitch k uv) s) fun t =>
      t.cmpOut k = s.cmpEval k uv ∧ (∀ j, j < 24 → j ≠ k.val → t.cmpOut j = s.cmpOut j)
      ∧ t.zone (k / 2) = zoneOf (t.cmpOut (2 * (k / 2))) (t.cmpOut (2 * (k / 2) + 1)))
  ∧ (∀ (s : State) (w : Fin 12),
    s.islandUp .management = true → s.pcr.watch = false → (s.getWin w).due = true → (s.getWin w).eff = 2 → (s.getWin w).sample = false →
    GoesTo (exec (.windowSampleTick w) s) fun t =>
      (t.getWin w).sample = true ∧ (t.getWin w).due = false ∧ t.regs = s.regs)
  ∧ (∀ (s : State) (w : Fin 12),
    s.islandUp .management = true → s.pcr.watch = false → (s.getWin w).due = true → s.get (F.CMP_WCFG.MODE w) = 2 → (s.getWin w).sample = false →
    GoesTo (exec (.windowSampleTick w) s) fun t =>
      (t.getWin w).eff = 2 ∧ (t.getWin w).sample = true)
  ∧ (∀ (s : State) (w : Fin 12) (lo : Int) (hi : Int),
    s.islandUp .management = true → s.pcr.watch = false → (s.getWin w).sample = true →
    (s.getWin w).sampT + 800 ≤ s.fclk →
    GoesTo (exec (.windowSampleLatch w lo hi) s) fun t =>
      t.cmpOut (2 * w) = s.cmpEval (2 * w) lo ∧ t.cmpOut (2 * w + 1) = s.cmpEval (2 * w + 1) hi ∧ (t.getWin w).sample = false
      ∧ t.zone w = zoneOf (s.cmpEval (2 * w) lo) (s.cmpEval (2 * w + 1) hi))
  ∧ (∀ (s : State) (w : Fin 12) (src : Master) (v : Word),
    s.islandUp .management = true → s.merged src (R.CMP_WCFG w) (s.reg (R.CMP_WCFG w)).toNat v.toNat % 4 = 1 →
    (s.getWin w).eff = 0 →
    GoesTo (exec (.windowModeWrite w src v) s) fun t =>
      t.get (F.CMP_WCFG.MODE w) = 1 ∧ (t.getWin w).eff = 1 ∧ t.cmpOut (2 * w) = false ∧ t.cmpOut (2 * w + 1) = false ∧ t.zone w = 0)
  ∧ (∀ (s : State) (w : Fin 12) (src : Master) (v : Word),
    s.islandUp .management = true → s.merged src (R.CMP_WCFG w) (s.reg (R.CMP_WCFG w)).toNat v.toNat % 4 = 2 →
    GoesTo (exec (.windowModeWrite w src v) s) fun t =>
      t.get (F.CMP_WCFG.MODE w) = 2 ∧ (t.getWin w).eff = (s.getWin w).eff ∧ t.get (F.CMP_OUT 0) = s.get (F.CMP_OUT 0))
  ∧ (∀ (s : State) (k : Fin 24) (src : Master) (v : Word),
    s.islandUp .management = true → 16 ≤ k.val → (k.val % 2 = 1 ∨ s.bit (F.CMP_WCFG.EOI (k / 2)) = false) →
    GoesTo (exec (.comparatorConfigWrite k src v) s) fun t =>
      t.reg (R.CMP_CFG k) = BitVec.ofNat 20 (s.merged src (R.CMP_CFG k) (s.reg (R.CMP_CFG k)).toNat v.toNat))
  ∧ (∀ (s : State) (k : Fin 24) (src : Master) (v : Word),
    s.islandUp .management = true → k.val < 16 →
    GoesTo (exec (.comparatorConfigWrite k src v) s) fun t =>
      t.get (F.CMP_CFG.SEL k) = s.get (F.CMP_CFG.SEL k)
      ∧ t.get (F.CMP_CFG.THR k) = s.merged src (R.CMP_CFG k) (s.reg (R.CMP_CFG k)).toNat v.toNat / 2 ^ (F.CMP_CFG.THR k).lo % 2 ^ (F.CMP_CFG.THR k).len)

/-- Window comparators: the reference-ladder rotation. While a unit is spare, no test was cut short and a step’s pace has
passed, the next role’s step starts and CMP_CHK names it; the spare takes the level given, low where the window is off, and its
agreement counts from there. A hand-over, once they have agreed for 1 µs or at a sample, gives the role to the spare and frees
the unit that held it; without agreement for 1 ms it is forced, counted, and the role takes the spare’s output. A test that
passes counts a step and makes the freed unit the spare; one that fails records role and point, leaves no spare, and reports by
sources 44 and 85. -/
def Obligations.LadderRotationTestsEveryUnit : Prop :=
  (∀ (s : State) (lvl out : Bool),
    s.running = true → s.cmp.cut = false → s.cmp.step = none → s.bit F.STC_STAT.WSPARE = true → s.cmp.stepT + s.wStep ≤ s.fclk →
    out = (lvl && decide ((s.getWin (s.cmp.nextRole / 2)).eff ≠ 0)) →
    GoesTo (exec (.ladderStepStart lvl) s) fun t =>
      t.cmp.step = some ⟨s.cmp.nextRole, none, out, if out = s.cmpOut s.cmp.nextRole then some s.fclk else none, false⟩ ∧ t.get F.CMP_CHK.ROLE = s.cmp.nextRole % 32 ∧ t.cmp.stepT = s.fclk ∧ t.cmp.unit = s.cmp.unit)
  ∧ (∀ (s : State) (r : Fin 24) (x : LadderStep),
    s.running = true → s.cmp.step = some x → x.role = r.val → x.freed = none → s.ladderAgreed x = true →
    GoesTo (exec (.ladderHandover) s) fun t =>
      t.cmp.step = some ⟨r.val, some (vget s.cmp.unit r 0), false, none, false⟩ ∧ vget t.cmp.unit r 0 = s.get F.CMP_CHK.SPARE ∧ t.cmp.freedT = s.fclk ∧ t.regs = s.regs)
  ∧ (∀ (s : State) (r : Fin 24) (x : LadderStep),
    s.running = true → s.cmp.step = some x → x.role = r.val → x.freed = none → s.cmp.stepT + 400000 ≤ s.fclk → s.ladderAgreed x = false →
    GoesTo (exec (.ladderHandoverForced) s) fun t =>
      t.cmpOut r = x.spare ∧ vget t.cmp.unit r 0 = s.get F.CMP_CHK.SPARE ∧ t.zone (r / 2) = zoneOf (t.cmpOut (2 * (r / 2))) (t.cmpOut (2 * (r / 2) + 1))
      ∧ t.get F.CMP_CHKCNT.FORCED = satAdd (s.get F.CMP_CHKCNT.FORCED) 1 1023)
  ∧ (∀ (s : State) (r : Fin 24) (u : Nat) (sp sm : Bool) (ag : Option Nat),
    s.running = true → s.cmp.cut = false → s.cmp.step = some ⟨r.val, some u, sp, ag, sm⟩ → s.cmp.freedT + 64000 ≤ s.fclk →
    GoesTo (exec (.ladderTestDone none) s) fun t =>
      t.cmp.step = none ∧ t.cmp.nextRole = (r + 1) % 24 ∧ t.get F.CMP_CHK.SPARE = u % 32 ∧ t.get F.CMP_CHKCNT.STEPS = (s.get F.CMP_CHKCNT.STEPS + 1) % 1024)
  ∧ (∀ (s : State) (r : Fin 24) (u : Nat) (sp sm : Bool) (ag : Option Nat) (p : Fin 8),
    s.running = true → s.cmp.cut = false → s.cmp.step = some ⟨r.val, some u, sp, ag, sm⟩ → s.cmp.freedT + 64000 ≤ s.fclk →
    GoesTo (exec (.ladderTestDone (some p)) s) fun t =>
      t.get F.CMP_CHK.FROLE = r.val ∧ t.get F.CMP_CHK.FPOINT = p.val ∧ t.bit F.CMP_CHK.FAIL = true ∧ t.bit F.STC_STAT.WSPARE = false ∧ t.cmp.noSpare = true
      ∧ (t.por.pulses.any fun p => p.src = 44) = true ∧ (t.por.pulses.any fun p => p.src = 85) = true)

/-- Timers: the count, its compares, event lines, writes, linked pairs, and the slews of TB. A running timer whose prescaler
interval has passed, and that no line stops or clears in the FCLK, counts on, or wraps to 0 with WRAPF at RELOAD; a compare
value that is reached sets its flag. A rise of its lines starts and stops it, captures the count into CAP with CAPF, and clears
the count. With nothing of steps 1 to 3 to come in the FCLK, a clear and a count write change the count without flags; a compare
write sets PAST when the count has reached the value; a write to the even half of a pair is held until the odd half’s write
applies both; TMR_GRUN starts every timer named and no other. A read of an even count latches the odd half, and a read of the
odd one gives what was latched. While LOCKED, a slew makes TB count 2 or 0 in one FCLK, takes one off the correction that is
due, and comes at most once in 1024 FCLK. -/
def Obligations.TimersCountCompareAndCapture : Prop :=
  (∀ (s : State) (n : Fin 16),
    s.islandUp .angle = true → s.tmrActs = [] → s.tmrRise n 1 = false → s.tmrRise n 3 = false → s.bit (F.TMR_CTRL.RUN n) = true → s.linkOdd n = false →
    (s.getTmr n).phase + 2 ^ s.get (F.TMR_CFG.PRE n) ≤ s.fclk → s.pairGet n F.TMR_CNT < s.pairGet n F.TMR_RELOAD →
    GoesTo (exec (.timerAdvance n) s) fun t =>
      t.pairGet n F.TMR_CNT = s.pairGet n F.TMR_CNT + 1 ∧ (t.getTmr n).phase = (s.getTmr n).phase + 2 ^ s.get (F.TMR_CFG.PRE n)
      ∧ (s.pairGet n F.TMR_CMP0 = s.pairGet n F.TMR_CNT + 1 → t.bit (F.TMR_STAT.C0F n) = true)
      ∧ (s.pairGet n F.TMR_CMP1 = s.pairGet n F.TMR_CNT + 1 → t.bit (F.TMR_STAT.C1F n) = true) ∧ t.get (F.TMR_STAT.WRAPF n) = s.get (F.TMR_STAT.WRAPF n))
  ∧ (∀ (s : State) (n : Fin 16),
    s.islandUp .angle = true → s.tmrActs = [] → s.tmrRise n 1 = false → s.tmrRise n 3 = false → s.bit (F.TMR_CTRL.RUN n) = true → s.linkOdd n = false →
    (s.getTmr n).phase + 2 ^ s.get (F.TMR_CFG.PRE n) ≤ s.fclk → s.pairGet n F.TMR_RELOAD ≤ s.pairGet n F.TMR_CNT →
    GoesTo (exec (.timerAdvance n) s) fun t =>
      t.pairGet n F.TMR_CNT = 0 ∧ t.bit (F.TMR_STAT.WRAPF n) = true)
  ∧ (∀ (s : State) (n : Fin 16),
    s.tmrActs = [] → s.tmrRise n 0 = true → s.tmrRise n 1 = false → s.bit (F.TMR_CTRL.RUN n) = false →
    GoesTo (exec (.timerLineStart n) s) fun t =>
      t.bit (F.TMR_CTRL.RUN n) = true ∧ (t.getTmr n).phase = s.fclk)
  ∧ (∀ (s : State) (n : Fin 16),
    s.tmrActs = [] → s.tmrRise n 1 = true →
    GoesTo (exec (.timerLineStop n) s) fun t =>
      t.bit (F.TMR_CTRL.RUN n) = false)
  ∧ (∀ (s : State) (n : Fin 16),
    s.tmrActs = [] → s.bit (F.TMR_CFG.CAPEDGE n) = false → s.tmrRise n 2 = true → (s.getTmr n).capT ≠ s.fclk → (s.getTmr n).chT ≠ s.fclk →
    GoesTo (exec (.timerLineCapture n) s) fun t =>
      t.pairGet n F.TMR_CAP = s.pairGet n F.TMR_CNT ∧ t.bit (F.TMR_STAT.CAPF n) = true ∧ t.get (F.TMR_CNT n) = s.get (F.TMR_CNT n)
      ∧ (s.bit (F.TMR_STAT.CAPF n) = true → t.bit (F.TMR_STAT.CAPOVR n) = true))
  ∧ (∀ (s : State) (n : Fin 16),
    s.tmrActs = [] → s.tmrRise n 3 = true →
    GoesTo (exec (.timerLineClear n) s) fun t =>
      t.pairGet n F.TMR_CNT = 0 ∧ (t.getTmr n).phase = s.fclk)
  ∧ (∀ (s : State) (n : Fin 16) (run : Bool),
    s.islandUp .angle = true → s.tmrWaits = false →
    GoesTo (exec (.timerRunWrite n run) s) fun t =>
      t.bit (F.TMR_CTRL.RUN n) = run ∧ SameRegs (fun a => a = R.TMR_CTRL n) s t)
  ∧ (∀ (s : State) (n : Fin 16),
    s.islandUp .angle = true → s.tmrWaits = false →
    GoesTo (exec (.timerClearCommand n) s) fun t =>
      t.pairGet n F.TMR_CNT = 0 ∧ (t.getTmr n).phase = s.fclk ∧ SameRegs (fun a => a = R.TMR_CNT n ∨ a = R.TMR_CNT (n + 1)) s t)
  ∧ (∀ (s : State) (n : Fin 16) (v : Word),
    s.islandUp .angle = true → s.tmrWaits = false →
    GoesTo (exec (.timerCountWrite n v) s) fun t =>
      t.get (F.TMR_CNT n) = v.toNat ∧ t.get (F.TMR_STAT.C0F n) = s.get (F.TMR_STAT.C0F n) ∧ (s.linkEven n = true → t.get (F.TMR_CNT (n + 1)) = 0))
  ∧ (∀ (s : State) (n : Fin 16) (v : Word),
    s.islandUp .angle = true → s.tmrWaits = false → s.linkEven n = false → s.linkOdd n = false →
    GoesTo (exec (.timerReloadWrite n v) s) fun t =>
      t.get (F.TMR_RELOAD n) = v.toNat ∧ SameRegs (fun a => a = R.TMR_RELOAD n) s t)
  ∧ (∀ (s : State) (n : Fin 16) (v : Word),
    s.islandUp .angle = true → s.tmrWaits = false → s.linkEven n = true →
    GoesTo (exec (.timerReloadWrite n v) s) fun t =>
      (t.getTmr n).heldReload = some v.toNat ∧ t.regs = s.regs)
  ∧ (∀ (s : State) (n : Fin 16) (v : Word) (lo : Nat),
    s.islandUp .angle = true → s.tmrWaits = false → s.linkOdd n = true → (s.getTmr (n - 1)).heldReload = some lo →
    GoesTo (exec (.timerReloadWrite n v) s) fun t =>
      t.get (F.TMR_RELOAD n) = v.toNat ∧ t.get (F.TMR_RELOAD (n - 1)) = lo % 2 ^ 20 ∧ (t.getTmr (n - 1)).heldReload = none)
  ∧ (∀ (s : State) (n : Fin 16) (k : Fin 2) (v : Word),
    s.islandUp .angle = true → s.tmrWaits = false → s.linkEven n = false → s.linkOdd n = false →
    GoesTo (exec (.timerCompareWrite n k v) s) fun t =>
      t.get (cmpFld k n) = v.toNat ∧ t.bit (cmpPast k n) = decide (v.toNat ≤ s.get (F.TMR_CNT n)))
  ∧ (∀ (s : State) (mask : BitVec 16),
    s.islandUp .angle = true → s.tmrWaits = false →
    GoesTo (exec (.timerGroupRun mask) s) fun t =>
      ∀ n, n < 16 → t.bit (F.TMR_CTRL.RUN n) = (s.bit (F.TMR_CTRL.RUN n) || bitOf mask.toNat n))
  ∧ (∀ (s : State) (n : Fin 16),
    s.islandUp .angle = true → s.linkEven n = false → s.linkOdd n = false →
    GoesTo (exec (.timerPairCountRead n) s) fun t =>
      t.rd = s.reg (R.TMR_CNT n) ∧ t.regs = s.regs ∧ t.tmr = s.tmr)
  ∧ (∀ (s : State) (n : Fin 16),
    s.islandUp .angle = true → s.linkEven n = true →
    GoesTo (exec (.timerPairCountRead n) s) fun t =>
      t.rd = s.reg (R.TMR_CNT n) ∧ (t.getTmr (n + 1)).latch = some (s.get (F.TMR_CNT (n + 1))) ∧ t.regs = s.regs)
  ∧ (∀ (s : State) (n : Fin 16) (v : Nat),
    s.islandUp .angle = true → s.linkOdd n = true → (s.getTmr n).latch = some v →
    GoesTo (exec (.timerPairCountRead n) s) fun t =>
      t.rd = BitVec.ofNat 20 v ∧ (t.getTmr n).latch = none ∧ t.regs = s.regs)
  ∧ (∀ (s : State),
    s.islandUp .angle = true → s.get F.TB_STAT.SYNC = 1 → s.slewT + 1024 ≤ s.fclk + 1 → 0 < s.corr →
    GoesTo (exec (.tbSlew true) s) fun t =>
      t.tb = s.tb + 2 ∧ t.fclk = s.fclk + 1 ∧ t.corr = s.corr - 1 ∧ t.slewT = s.fclk + 1)
  ∧ (∀ (s : State),
    s.islandUp .angle = true → s.get F.TB_STAT.SYNC = 1 → s.slewT + 1024 ≤ s.fclk + 1 → s.corr < 0 →
    GoesTo (exec (.tbSlew false) s) fun t =>
      t.tb = s.tb ∧ t.fclk = s.fclk + 1 ∧ t.corr = s.corr + 1 ∧ t.mtDue = s.mtDue)

/-- Halls: requests, arbitration, refusals, errors, the hold limit, scrubbing and ownership. An access comes as a request; at
the end of an MCLK a port grants one request, the one that Table 14.2 puts first, and the others count a lost MCLK. One granted
within one word and without an error writes the bytes given, low byte first, and no other byte of the halls or of NVS, or reads
the bytes that stand; a refused one reads zero with a bus error and changes no store; a double-bit error ends the access with a
bus error, sets UNCOR and writes nothing. A request at the hold limit is served ahead of all, flagged and reported. A scrub
removes the single-bit error of the next corrected word when port B is free. An owner write that LOCKOWN forbids sets OWNREJ;
one allowed waits as HOPEND and takes effect at the hand-over. (That an FCLK passes on an empty queue is the model’s choice,
assumption 3.) -/
def Obligations.HallAccessesReadAndWrite : Prop :=
  (∀ (s : State) (m : Master) (a : BitVec 23) (sz : AccSize) (wr : Option (BitVec 64)) (err : WordErrs),
    s.islandUp .memory = true →
    GoesTo (exec (.hallAccess m a sz wr err) s) fun t =>
      t.hal.reqs = s.hal.reqs ++ [⟨m, a.toNat, accBytes sz, wr.map (fun v => leBytes (accBytes sz) v.toNat), err, [], s.mclk, 0⟩]
      ∧ SameStores s t ∧ t.regs = s.regs)
  ∧ (∀ (s : State) (r : HallReq) (p : Nat) (bs : List Byte),
    s.pending = [] → s.islandUp .angle = true → s.fclk % 4 ≠ 0 → s.hal.reqs = [r] → r.t ≤ s.mclk → r.lost < s.holdLimit →
    s.reqPort r = some p → s.portHeld p s.mclk = false → r.err = ⟨0, 0⟩ → s.hallErr = [] → r.data = [] → r.addr % 8 + r.len ≤ 8 →
    r.wr = some bs → bs.length = r.len →
    GoesTo (step s) fun t =>
      t.busRes r.m = some ([], false) ∧ t.hal.reqs = [] ∧ t.hallBytes r.addr r.len = bs
      ∧ (∀ b, b < r.addr ∨ r.addr + r.len ≤ b → t.hallByte b = s.hallByte b) ∧ t.nvs = s.nvs ∧ t.hallErr = [])
  ∧ (∀ (s : State) (r : HallReq) (p : Nat),
    s.pending = [] → s.islandUp .angle = true → s.fclk % 4 ≠ 0 → s.hal.reqs = [r] → r.t ≤ s.mclk → r.lost < s.holdLimit →
    s.reqPort r = some p → s.portHeld p s.mclk = false → r.err = ⟨0, 0⟩ → s.hallErr = [] → r.data = [] → r.addr % 8 + r.len ≤ 8 →
    r.wr = none → r.addr < 15 * 524288 →
    GoesTo (step s) fun t =>
      t.busRes r.m = some (s.hallBytes r.addr r.len, false) ∧ t.hal.reqs = [] ∧ SameStores s t)
  ∧ (∀ (s : State) (r : HallReq),
    s.pending = [] → s.islandUp .angle = true → s.fclk % 4 ≠ 0 → s.hal.reqs = [r] → r.t ≤ s.mclk → r.data = [] → s.reqPort r = none →
    GoesTo (step s) fun t =>
      t.busRes r.m = some (List.replicate r.len 0, true) ∧ t.hal.reqs = [] ∧ SameStores s t)
  ∧ (∀ (s : State) (r : HallReq) (p : Nat),
    s.pending = [] → s.islandUp .angle = true → s.fclk % 4 ≠ 0 → s.hal.reqs = [r] → r.t ≤ s.mclk → r.lost < s.holdLimit →
    s.reqPort r = some p → s.portHeld p s.mclk = false → r.err = ⟨2, 0⟩ → r.data = [] → r.addr % 8 + r.len ≤ 8 →
    r.wr.isNone = true ∨ r.len < 8 → s.cht.test = none → s.hal.eccT = none →
    GoesTo (step s) fun t =>
      t.busRes r.m = some (List.replicate r.len 0, true) ∧ t.halls = s.halls ∧ t.bit F.HAL_STAT.UNCOR = true
      ∧ t.get F.HAL_ECCA_LO = 8 * (r.addr / 8) % 2 ^ 20 ∧ (t.por.pulses.any fun p => p.src = 65) = true)
  ∧ (∀ (s : State) (a b : HallReq) (p : Nat),
    s.pending = [] → s.islandUp .angle = true → s.fclk % 4 ≠ 0 → s.hal.reqs = [a, b] → a.t ≤ s.mclk → b.t ≤ s.mclk →
    a.lost < s.holdLimit → b.lost < s.holdLimit → s.reqPort a = some p → s.reqPort b = some p → s.portHeld p s.mclk = false →
    s.reqRank b < s.reqRank a → b.err = ⟨0, 0⟩ → s.hallErr = [] → b.addr % 8 + b.len ≤ 8 →
    GoesTo (step s) fun t => t.hal.reqs = [{ a with lost := a.lost + 1 }] ∧ (t.busRes b.m).isSome = true)
  ∧ (∀ (s : State) (h : Fin 16) (portB : Bool) (r : HallReq),
    s.islandUp .memory = true →
    s.hal.reqs.find? (fun r => decide (s.holdLimit ≤ r.lost) && s.reqPort r = some (2 * h.val + b2n portB)) = some r →
    r.err = ⟨0, 0⟩ → s.hallErr = [] → r.data = [] → r.addr % 8 + r.len ≤ 8 → r.wr = none → r.addr < 15 * 524288 →
    GoesTo (exec (.hallHoldLimit h portB) s) fun t =>
      t.busRes r.m = some (s.hallBytes r.addr r.len, false) ∧ t.hal.reqs = s.hal.reqs.erase r ∧ t.bit F.HAL_STAT.HOLDF = true
      ∧ t.get F.HAL_HOLD.HALL = h ∧ (t.por.pulses.any fun p => p.src = 68) = true ∧ SameStores s t)
  ∧ (∀ (s : State) (w : Nat) (rest : List Nat),
    s.islandUp .memory = true → s.hal.scrubQ = w :: rest → s.portFree (2 * (w / 65536) + 1) = true →
    errGet s.hallErr w = some .single →
    GoesTo (exec (.scrubWriteback) s) fun t =>
      t.hal.scrubQ = rest ∧ errGet t.hallErr w = none ∧ t.halls = s.halls ∧ t.regs = s.regs)
  ∧ (∀ (s : State) (h : Fin 16) (src : Master) (v : Word),
    s.islandUp .memory = true → s.bit (F.HAL_OWN.LOCKOWN h) = true → s.wlAllow src (R.HAL_OWN h) v.toNat % 16 ≠ 0 →
    GoesTo (exec (.hallOwnerWrite h src v) s) fun t =>
      t.bit F.HAL_STAT.OWNREJ = true ∧ t.get (F.HAL_OWN.OWNER h) = s.get (F.HAL_OWN.OWNER h) ∧ t.hal.handover = s.hal.handover)
  ∧ (∀ (s : State) (h : Fin 16) (src : Master) (v : Word),
    s.islandUp .memory = true → s.bit (F.HAL_OWN.LOCKOWN h) = false → s.wlAllow src (R.HAL_OWN h) v.toNat % 16 ≠ 0 →
    h.val ≠ 15 → s.merged src (R.HAL_OWN h) (s.reg (R.HAL_OWN h)).toNat v.toNat % 16 < 10 →
    s.runPlaces.any (fun p => p.2.1 / 524288 = h.val) = false →
    GoesTo (exec (.hallOwnerWrite h src v) s) fun t =>
      t.bit (F.HAL_OWN.HOPEND h) = true ∧ t.get (F.HAL_OWN.OWNER h) = s.get (F.HAL_OWN.OWNER h)
      ∧ (h.val, s.merged src (R.HAL_OWN h) (s.reg (R.HAL_OWN h)).toNat v.toNat % 16) ∈ t.hal.handover)
  ∧ (∀ (s : State) (h : Fin 16) (o : Nat),
    s.islandUp .memory = true → s.portHeld (2 * h.val) s.mclk = false →
    s.hal.handover.find? (fun e => e.1 = h.val) = some (h.val, o) →
    GoesTo (exec (.hallOwnerHandover h) s) fun t =>
      t.get (F.HAL_OWN.OWNER h) = o % 2 ^ (F.HAL_OWN.OWNER h).len ∧ t.bit (F.HAL_OWN.HOPEND h) = false ∧ SameStores s t)

/-- NVS: reads, host page commands, the order and the end of writes, log entries. A read without errors outside the reserved
areas gives the bytes that stand; one of a page that is being written waits. A host command on a page of the user area asks for
a write of that page, of the page buffer or of erased bytes; outside it PROT is set, and while one of the host’s is under way
REFUSED. The waiting request of lowest rank starts when none runs. The end of a host’s page write leaves its 32 bytes in the
page and no other byte changed, with DONE, or sets ERR. At most one log entry per MT tick asks for its page. -/
def Obligations.NvsPagesAndTheFaultLog : Prop :=
  (∀ (s : State) (m : Master) (a : BitVec 21) (sz : AccSize),
    s.islandUp .memory = true → s.nvWaits a.toNat (accBytes sz) = false → s.nvsErr = [] → 0x102000 ≤ a.toNat →
    a.toNat + accBytes sz ≤ 2097152 →
    GoesTo (exec (.nvsRead m a sz ⟨0, 0⟩) s) fun t =>
      t.busRes m = some (s.nvBytes a.toNat (accBytes sz), false) ∧ SameStores s t ∧ t.regs = s.regs)
  ∧ (∀ (s : State) (m : Master) (a : BitVec 21) (sz : AccSize) (err : WordErrs),
    s.nvWaits a.toNat (accBytes sz) = true → exec (.nvsRead m a sz err) s = .next s)
  ∧ (∀ (s : State),
    s.islandUp .memory = true → s.nvHas .host = false → 33408 ≤ s.get F.HAL_NVPAGE → s.get F.HAL_NVPAGE ≤ 33791 →
    GoesTo (exec (.nvsProgramCommand) s) fun t =>
      t.hal.waiting = s.hal.waiting ++ [⟨.host, [(s.get F.HAL_NVPAGE, s.nvBuf)]⟩] ∧ t.regs = s.regs ∧ SameStores s t)
  ∧ (∀ (s : State),
    s.islandUp .memory = true → s.nvHas .host = false → 33408 ≤ s.get F.HAL_NVPAGE → s.get F.HAL_NVPAGE ≤ 33791 →
    GoesTo (exec (.nvsEraseCommand) s) fun t =>
      t.hal.waiting = s.hal.waiting ++ [⟨.host, [(s.get F.HAL_NVPAGE, List.replicate 32 0xFF)]⟩] ∧ t.regs = s.regs ∧ SameStores s t)
  ∧ (∀ (s : State),
    s.islandUp .memory = true → s.nvHas .host = false → (s.get F.HAL_NVPAGE < 33408 ∨ 33791 < s.get F.HAL_NVPAGE) →
    GoesTo (exec (.nvsProgramCommand) s) fun t =>
      t.bit F.HAL_NVSTAT.PROT = true ∧ t.hal = s.hal)
  ∧ (∀ (s : State),
    s.islandUp .memory = true → s.nvHas .host = true →
    GoesTo (exec (.nvsProgramCommand) s) fun t =>
      t.bit F.HAL_NVSTAT.REFUSED = true ∧ t.hal = s.hal)
  ∧ (∀ (s : State),
    s.islandUp .memory = true → s.hal.running = none → s.hal.waiting ≠ [] →
    GoesTo (exec (.nvsWriteStart) s) fun t =>
      ∃ r, r ∈ s.hal.waiting ∧ t.hal.running = some r ∧ t.hal.waiting = s.hal.waiting.erase r ∧ (∀ x ∈ s.hal.waiting, r.who.rank ≤ x.who.rank) ∧ SameStores s t)
  ∧ (∀ (s : State) (p : Nat) (bs : List Byte),
    s.islandUp .memory = true → s.hal.running = some ⟨.host, [(p, bs)]⟩ → bs.length = 32 →
    GoesTo (exec (.nvsWriteDone true) s) fun t =>
      t.nvBytes (32 * p) 32 = bs ∧ (∀ a, a < 32 * p ∨ 32 * p + 32 ≤ a → t.nvByte a = s.nvByte a) ∧ t.bit F.HAL_NVSTAT.DONE = true ∧ t.hal.running = none
      ∧ t.halls = s.halls)
  ∧ (∀ (s : State) (p : Nat) (bs : List Byte),
    s.islandUp .memory = true → s.hal.running = some ⟨.host, [(p, bs)]⟩ →
    GoesTo (exec (.nvsWriteDone false) s) fun t =>
      t.bit F.HAL_NVSTAT.ERR = true ∧ t.hal.running = none ∧ (∀ a, a < 32 * p ∨ 32 * p + 32 ≤ a → t.nvByte a = s.nvByte a))
  ∧ (∀ (s : State) (r : LogRec) (rest : List LogRec),
    s.islandUp .memory = true → s.hal.logDue = true → s.nvHas .log = false → s.hal.logQ = r :: rest →
    GoesTo (exec (.logEntryWrite) s) fun t =>
      t.hal.logQ = rest ∧ t.hal.logDue = false ∧ t.regs = s.regs ∧ SameStores s t
      ∧ t.hal.waiting = s.hal.waiting ++ [⟨.log, [(logPage + s.get F.HAL_LOGHEAD, leBytes 6 (s.hal.logSeq + 1) ++ r.bytes)]⟩])

/-- HOOK: starts, stops, the PC, requests, descriptor fetches, LOOP, WAIT, SIGNAL and the status write. START lets a stopped
channel fetch at HK_PC, STOP ends it with cause 2 when no burst is outstanding; the PC takes a multiple of 16 while the channel
stands; pulses are counted in REQCNT, of a level with PEDGE its rises, and cleared by CLRREQ. A fetch reads sixteen bytes of a
hall: OWN 0 stops the channel with cause END, OWN 1 holds the four words. LOOP jumps while its count lasts, for ever with COUNT
0; WAIT takes the pulses counted; SIGNAL goes to its status write. The status write, with no burst of the channel but late ones
outstanding, stores the status byte and, without KEEP, clears the byte with OWN, and the channel fetches the next descriptor. -/
def Obligations.HookChannelsRunDescriptors : Prop :=
  (∀ (s : State) (c : Fin 16),
    s.hkUp = true → s.hkSt c = 0 →
    GoesTo (exec (.hookStart c) s) fun t =>
      t.hkSt c = 1 ∧ (t.getHk c).desc = none ∧ t.hkPc c = s.hkPc c ∧ SameStores s t)
  ∧ (∀ (s : State) (c : Fin 16),
    s.hkUp = true → s.hkSt c ≠ 0 →
    exec (.hookStart c) s = .next s)
  ∧ (∀ (s : State) (c : Fin 16),
    s.hkUp = true → s.hkSt c ≠ 0 → (s.getHk c).burst = [] →
    GoesTo (exec (.hookStop c) s) fun t =>
      t.hkSt c = 0 ∧ t.get (F.HK_STAT.SCAUSE c) = 2 ∧ (t.getHk c).desc = none ∧ t.hkPc c = s.hkPc c)
  ∧ (∀ (s : State) (c : Fin 16),
    s.hkUp = true → s.hkSt c ≠ 0 → (s.getHk c).burst ≠ [] →
    GoesTo (exec (.hookStop c) s) fun t =>
      (t.getHk c).stopping = true ∧ t.regs = s.regs)
  ∧ (∀ (s : State) (c : Fin 16),
    s.hkUp = true → s.hkPulsesNow c = 0 →
    GoesTo (exec (.hookClearRequests c) s) fun t =>
      t.get (F.HK_STAT.REQCNT c) = 0 ∧ t.get (F.HK_STAT.REQOVF c) = 0 ∧ SameRegs (fun a => a = R.HK_STAT c) s t ∧ t.hook = s.hook)
  ∧ (∀ (s : State) (c : Fin 16) (v : Word),
    s.hkUp = true → s.hkSt c = 0 →
    GoesTo (exec (.hookPcWrite c false v) s) fun t =>
      t.get (F.HK_PC_LO c) = v.toNat / 16 * 16 ∧ t.get (F.HK_PC_HI c) = s.get (F.HK_PC_HI c))
  ∧ (∀ (s : State) (c : Fin 16) (v : Word),
    s.hkUp = true → s.hkSt c = 0 →
    GoesTo (exec (.hookPcWrite c true v) s) fun t =>
      t.get (F.HK_PC_HI c) = v.toNat % 2 ^ (F.HK_PC_HI c).len ∧ t.get (F.HK_PC_LO c) = s.get (F.HK_PC_LO c))
  ∧ (∀ (s : State) (c : Fin 16),
    s.hkUp = true → s.hkSt c = 1 → (s.getHk c).stopping = false → s.hkPc c % 16 = 0 → s.hkPc c + 16 ≤ 15 * 524288 →
    s.hallErr = [] → s.bit (F.HAL_OWN.PWR (s.hkPc c / 524288)) = true → bitOf (leNat (s.hallBytes (s.hkPc c) 4)) 31 = false →
    GoesTo (exec (.descriptorFetch c) s) fun t =>
      t.hkSt c = 0 ∧ t.get (F.HK_STAT.SCAUSE c) = 1 ∧ SameStores s t)
  ∧ (∀ (s : State) (c : Fin 16),
    s.hkUp = true → s.hkSt c = 1 → (s.getHk c).stopping = false → s.hkPc c % 16 = 0 → s.hkPc c + 16 ≤ 15 * 524288 →
    s.hallErr = [] → s.bit (F.HAL_OWN.PWR (s.hkPc c / 524288)) = true → bitOf (leNat (s.hallBytes (s.hkPc c) 4)) 31 = true →
    leNat (s.hallBytes (s.hkPc c) 4) % 16 < 6 →
    GoesTo (exec (.descriptorFetch c) s) fun t =>
      (t.getHk c).desc = some ((List.range 4).map fun k => leNat (s.hallBytes (s.hkPc c + 4 * k) 4)) ∧ (t.getHk c).begun = false
      ∧ (t.getHk c).need = max 1 (leNat (s.hallBytes (s.hkPc c + 8) 4) % 65536)
      ∧ t.hkSt c = (if leNat (s.hallBytes (s.hkPc c) 4) % 16 = 4 then 2 else 3) ∧ t.get (F.HK_CMPOFS c) = 0xFFFFF ∧ SameStores s t)
  ∧ (∀ (s : State) (c : Fin 16),
    s.hkAt c 3 = true → (s.getHk c).loopAt = none → s.hkWord c 1 % 16 = 0 → s.hkWord c 1 < 2 ^ 32 → 2 ≤ s.hkWord c 2 % 65536 →
    GoesTo (exec (.hookLoop c) s) fun t =>
      t.hkPc c = s.hkWord c 1 ∧ t.hkSt c = 1 ∧ t.get (F.HK_LCNT c) = s.hkWord c 2 % 65536 - 1 ∧ (t.getHk c).loopAt = some (s.hkPc c))
  ∧ (∀ (s : State) (c : Fin 16),
    s.hkAt c 3 = true → (s.getHk c).loopAt = some (s.hkPc c) → s.hkWord c 1 % 16 = 0 → s.hkWord c 2 % 65536 ≠ 0 →
    s.get (F.HK_LCNT c) ≤ 1 →
    GoesTo (exec (.hookLoop c) s) fun t =>
      t.hkPc c = s.hkPc c ∧ t.hkSt c = 4 ∧ t.get (F.HK_LCNT c) = 0 ∧ (t.getHk c).loopAt = none)
  ∧ (∀ (s : State) (c : Fin 16),
    s.hkAt c 4 = true → 1 ≤ s.hkWord c 1 % 256 → s.hkWord c 1 % 256 ≤ 32 → s.hkSt c = 2 →
    s.get (F.HK_CFG.PSRC c) = s.hkWord c 1 % 256 → (s.getHk c).need ≤ s.get (F.HK_STAT.REQCNT c) →
    GoesTo (exec (.hookWait c) s) fun t =>
      t.hkSt c = 4 ∧ t.get (F.HK_STAT.REQCNT c) = s.get (F.HK_STAT.REQCNT c) - (s.getHk c).need)
  ∧ (∀ (s : State) (c : Fin 16),
    s.hkAt c 5 = true →
    GoesTo (exec (.hookSignal c) s) fun t =>
      t.hkSt c = 4 ∧ (t.getHk c).begun = true ∧ t.hook.pulses = s.hook.pulses)
  ∧ (∀ (s : State) (c : Fin 16) (code : Nat) (mask : Nat) (rest : List (Nat × Nat)),
    s.islandUp .memory = true → s.blockFree 12 = true → s.hook.pulses = (code, mask) :: rest → bitOf mask c = true →
    s.get (F.HK_CFG.PSRC c) = code → s.hkSt c ≠ 2 → ((s.getHk c).usedT.any s.thisMclk) = false →
    GoesTo (exec (.pacingPulse none) s) fun t =>
      t.hook.pulses = rest ∧ (if s.get (F.HK_STAT.REQCNT c) = 15 then t.bit (F.HK_STAT.REQOVF c) = true ∧ t.get (F.HK_STAT.REQCNT c) = 15
        else t.get (F.HK_STAT.REQCNT c) = s.get (F.HK_STAT.REQCNT c) + 1))
  ∧ (∀ (s : State) (c : Fin 16),
    s.islandUp .memory = true → s.blockFree 12 = true → levelCode (s.get (F.HK_CFG.PSRC c)) = true →
    s.bit (F.HK_CFG.PEDGE c) = true → s.hkLevel c (s.get (F.HK_CFG.PSRC c)) = true → s.hkSt c ≠ 2 →
    s.get (F.HK_STAT.REQCNT c) ≠ 15 → (s.getHk c).lvl = false → ((s.getHk c).usedT.any s.thisMclk) = false →
    GoesTo (exec (.pacingPulse (some c)) s) fun t =>
      t.get (F.HK_STAT.REQCNT c) = s.get (F.HK_STAT.REQCNT c) + 1 ∧ SameRegs (fun a => a = R.HK_STAT c) s t)
  ∧ (∀ (s : State) (c : Fin 16),
    s.hkUp = true → s.hkWbReady c = true → s.hkPc c % 16 = 0 → s.hkPc c + 16 ≤ 15 * 524288 → s.hallErr = [] →
    s.bit (F.HAL_OWN.PWR (s.hkPc c / 524288)) = true → s.get (F.HAL_OWN.OWNER (s.hkPc c / 524288)) = 3 →
    s.hkWord c 0 % 16 ≠ 5 → (s.getHk c).mism = false → ((s.getHk c).burst.all fun b => b.late) = true →
    GoesTo (exec (.descriptorStatusWrite c) s) fun t =>
      t.hallByte (s.hkPc c + 2) = byteOf (statusByte (s.getHk c).bad (s.getHk c).mism)
      ∧ t.hallByte (s.hkPc c + 3) = (if bitOf (s.hkWord c 0) 5 then s.hallByte (s.hkPc c + 3) else 0)
      ∧ (∀ a, a ≠ s.hkPc c + 2 → a ≠ s.hkPc c + 3 → t.hallByte a = s.hallByte a) ∧ t.hkSt c = 1 ∧ t.hkPc c = s.hkPc c + 16 ∧ (t.getHk c).desc = none)

/-- HOOK: data descriptors, bursts, their accesses and their time limit, budgets. A MOVE, FILL or CMP of a nonzero LENGTH that
meets the alignment rule begins, and shows its address and length; one that breaks the rule is marked BAD with cause 3. The
arbiter’s channel issues a burst of the length that the 64-byte rule gives, counted in HK_USED. A burst of a MOVE between halls,
granted and without errors, leaves the source’s bytes at the destination and every other byte as it was. A burst outstanding for
BTO µs that does not complete in the FCLK is abandoned with cause 4, its descriptor is BAD, and source 69 reports it; of its
bytes, in order, as many are written as had completed, and no other byte changes. An MT tick clears every HK_USED; a budget
write follows its access codes. -/
def Obligations.HookDataMovesInBursts : Prop :=
  (∀ (s : State) (c : Fin 16) (w : List Nat),
    s.hkAt c 0 = true → (s.getHk c).desc = some w → w.getD 3 0 / 2 ^ 25 % 4 ≤ 1 → dLen w ≠ 0 → alignBad w = none →
    GoesTo (exec (.hookMove c) s) fun t =>
      (t.getHk c).begun = true ∧ t.hkSt c = s.hkSt c ∧ t.get (F.HK_RESID c) = dLen w ∧ t.get (F.HK_DADDR_LO c) = w.getD 2 0 % 2 ^ 20
      ∧ (t.getHk c).bad = (s.getHk c).bad ∧ SameStores s t)
  ∧ (∀ (s : State) (c : Fin 16) (w : List Nat),
    s.hkAt c 1 = true → (s.getHk c).desc = some w → w.getD 0 0 % 16 = 1 → dLen w ≠ 0 → alignBad w = none →
    GoesTo (exec (.hookFill c) s) fun t =>
      (t.getHk c).begun = true ∧ t.hkSt c = s.hkSt c ∧ t.get (F.HK_RESID c) = dLen w ∧ t.get (F.HK_DADDR_LO c) = w.getD 2 0 % 2 ^ 20
      ∧ (t.getHk c).bad = (s.getHk c).bad ∧ SameStores s t)
  ∧ (∀ (s : State) (c : Fin 16) (w : List Nat),
    s.hkAt c 2 = true → (s.getHk c).desc = some w → w.getD 0 0 % 16 = 2 → dLen w ≠ 0 → alignBad w = none →
    GoesTo (exec (.hookCmp c) s) fun t =>
      (t.getHk c).begun = true ∧ t.hkSt c = s.hkSt c ∧ t.get (F.HK_RESID c) = dLen w ∧ t.get (F.HK_DADDR_LO c) = w.getD 2 0 % 2 ^ 20
      ∧ (t.getHk c).bad = (s.getHk c).bad ∧ SameStores s t)
  ∧ (∀ (s : State) (c : Fin 16) (w : List Nat) (a : Nat),
    s.hkAt c 0 = true → (s.getHk c).desc = some w → w.getD 3 0 / 2 ^ 25 % 4 ≤ 1 → dLen w ≠ 0 → alignBad w = some a →
    (s.getHk c).bad = none →
    GoesTo (exec (.hookMove c) s) fun t =>
      (t.getHk c).bad = some 3 ∧ t.hkSt c = 4 ∧ t.get F.HK_ERR.CAUSE = 3 ∧ t.get F.HK_ERR.CHAN = c.val ∧ t.get F.HK_ERRA_LO = a % 2 ^ 20)
  ∧ (∀ (s : State) (c : Fin 16) (w : List Nat),
    s.hkUp = true → s.hkArbiter = some c.val → (s.getHk c).desc = some w → dCoder w = false → dDinc w = true → dSinc w = true →
    GoesTo (exec (.burstIssue) s) fun t =>
      let n := min (64 - (w.getD 2 0 + (s.getHk c).issued) % 64) (dLen w - (s.getHk c).issued)
      (t.getHk c).issued = (s.getHk c).issued + n ∧ (t.getHk c).burst = (s.getHk c).burst
        ++ [⟨w, false, (s.getHk c).issued, n, w.getD 1 0 + (s.getHk c).issued, w.getD 2 0 + (s.getHk c).issued, [], false, s.fclk,
          (s.getHk c).seq, false⟩]
      ∧ vget t.hook.last (s.get (F.HK_CFG.PRIO c)) 15 = c.val ∧ (s.get (F.HK_USED c) < 4095 → t.get (F.HK_USED c) = s.get (F.HK_USED c) + 1))
  ∧ (∀ (s : State) (c : Fin 16) (b : Burst) (rest : List Burst),
    s.hkUp = true → (s.getHk c).burst = b :: rest → (s.getHk c).stopping = false → b.read = false → dOp b.words = 0 → dCoder b.words = false →
    dSinc b.words = true → dDinc b.words = true → b.len ≤ 64 → s.hallErr = [] → b.src / 524288 < 15 →
    b.src % 524288 + b.len ≤ 524288 → s.bit (F.HAL_OWN.PWR (b.src / 524288)) = true → b.dst / 524288 < 15 →
    b.dst % 524288 + b.len ≤ 524288 → s.bit (F.HAL_OWN.PWR (b.dst / 524288)) = true →
    s.get (F.HAL_OWN.OWNER (b.dst / 524288)) = 3 →
    GoesTo (exec (.burstComplete c) s) fun t =>
      (∀ i, i < b.len → t.hallByte (b.dst + i) = s.hallByte (b.src + i)) ∧ (∀ a, a < b.dst ∨ b.dst + b.len ≤ a → t.hallByte a = s.hallByte a)
      ∧ (t.getHk c).burst = rest ∧ t.regs = s.regs ∧ t.nvs = s.nvs)
  ∧ (∀ (s : State) (c : Fin 16) (wr : Fin 65) (b : Burst) (rest : List Burst),
    s.hkUp = true → s.comes (fun x => x = .burstComplete c) = false → (s.getHk c).burst = b :: rest → b.late = false → (s.getHk c).stopping = false → (s.getHk c).bad = none →
    b.t + 400 * max 1 (s.get F.HK_GCFG) ≤ s.fclk →
    GoesTo (exec (.burstTimeout c wr) s) fun t =>
      (t.getHk c).burst = rest ∧ (t.getHk c).bad = some 4 ∧ t.hkSt c = 4 ∧ t.get F.HK_ERR.CAUSE = 4 ∧ (t.por.pulses.any fun p => p.src = 69) = true
      ∧ (wr = 0 ∨ dOp b.words = 2 → SameStores s t))
  ∧ (∀ (s : State) (c : Fin 16) (wr : Fin 65) (b : Burst) (rest : List Burst),
    s.hkUp = true → s.comes (fun x => x = .burstComplete c) = false → (s.getHk c).burst = b :: rest →
    b.t + 400 * max 1 (s.get F.HK_GCFG) ≤ s.fclk → b.read = false → dOp b.words = 0 → dCoder b.words = false →
    dSinc b.words = true → dDinc b.words = true → b.len ≤ 64 → s.hallErr = [] → b.src / 524288 < 15 →
    b.src % 524288 + b.len ≤ 524288 → s.bit (F.HAL_OWN.PWR (b.src / 524288)) = true → b.dst / 524288 < 15 →
    b.dst % 524288 + b.len ≤ 524288 → s.bit (F.HAL_OWN.PWR (b.dst / 524288)) = true →
    s.get (F.HAL_OWN.OWNER (b.dst / 524288)) = 3 →
    GoesTo (exec (.burstTimeout c wr) s) fun t =>
      (∀ i, i < b.len → i < wr → t.hallByte (b.dst + i) = s.hallByte (b.src + i))
      ∧ (∀ a, a < b.dst ∨ b.dst + min b.len wr ≤ a → t.hallByte a = s.hallByte a) ∧ t.nvs = s.nvs)
  ∧ (∀ (s : State),
    s.hkUp = true → s.hook.due = true → s.wvl.hotTick = false → (s.hook.issT.any fun e => s.thisMclk e.1) = false →
    GoesTo (exec (.hookBudgetReset) s) fun t =>
      t.hook.due = false ∧ (∀ c, c < 16 → t.get (F.HK_USED c) = 0) ∧ t.get (F.HK_BUDGET 0) = s.get (F.HK_BUDGET 0))
  ∧ (∀ (s : State) (c : Fin 16) (src : Master) (v : Word),
    s.hkUp = true →
    GoesTo (exec (.hookBudgetWrite c src v) s) fun t =>
      t.reg (R.HK_BUDGET c) = BitVec.ofNat 20 (s.merged src (R.HK_BUDGET c) (s.reg (R.HK_BUDGET c)).toNat v.toNat))

/-- The Gallery: lanes, isolation, frames received and sent, event slots, RESET frames. Loss of the primary input takes the
cable when it is good; 1 ms of a good primary takes it back; loss of both is isolation, reported by source 72, and a valid code
group ends it. Code words that spell no frame, or one of a length its kind does not have, are counted and nothing is taken; a
frame at 63 hops is dropped. An event frame for all whose tag is right waits to act and, the lanes being free, passes on with
HOPS one higher; one whose tag is wrong is recorded and counted and does not act, yet passes on. A change of a slot’s line waits
as its event, and leaves with TB, this bay as source and a tag over it; a received event sets its level and flag. -/
def Obligations.RingLanesAndFrames : Prop :=
  (∀ (s : State),
    s.galUp = true → s.bit F.GAL_STAT.ACTIVE = false → s.bit F.GAL_STAT.CABLEOK = true →
    s.comes primaryGroup = false →
    GoesTo (exec (.laneSwitchToCable) s) fun t =>
      t.bit F.GAL_STAT.ACTIVE = true ∧ t.bit F.GAL_STAT.PRIMOK = false ∧ t.get F.GAL_EVCNT.SWITCH = satAdd (s.get F.GAL_EVCNT.SWITCH) 1 (2 ^ F.GAL_EVCNT.SWITCH.len - 1))
  ∧ (∀ (s : State),
    s.galUp = true → s.bit F.GAL_STAT.ACTIVE = true → s.bit F.GAL_STAT.PRIMOK = true → s.gal.primT + 400000 ≤ s.fclk →
    GoesTo (exec (.laneReturnToPrimary) s) fun t =>
      t.bit F.GAL_STAT.ACTIVE = false)
  ∧ (∀ (s : State),
    s.galUp = true → s.bit F.GAL_STAT.ISOL = false → s.comes isValidGroup = false →
    GoesTo (exec (.ringIsolation) s) fun t =>
      t.bit F.GAL_STAT.ISOL = true ∧ t.bit F.GAL_STAT.PRIMOK = false ∧ t.bit F.GAL_STAT.CABLEOK = false ∧ (t.por.pulses.any fun p => p.src = 72) = true)
  ∧ (∀ (s : State) (cable : Bool),
    s.galUp = true → s.bit F.GAL_STAT.ISOL = true →
    GoesTo (exec (.validCodeGroupArrival cable) s) fun t =>
      t.bit F.GAL_STAT.ISOL = false ∧ t.bit F.GAL_STAT.ACTIVE = cable ∧ t.bit (if cable then F.GAL_STAT.CABLEOK else F.GAL_STAT.PRIMOK) = true)
  ∧ (∀ (s : State) (rd : Bool) (ws : List (BitVec 20)),
    s.galUp = true → ((laneFrame rd ws).any frLenOk) = false →
    GoesTo (exec (.frameReceive rd ws) s) fun t =>
      t.get F.GAL_ERRCNT.CODE = satAdd (s.get F.GAL_ERRCNT.CODE) 1 (2 ^ F.GAL_ERRCNT.CODE.len - 1) ∧ t.gal.rx = s.gal.rx)
  ∧ (∀ (s : State) (rd : Bool) (ws : List (BitVec 20)) (f : Frame),
    s.galUp = true → laneFrame rd ws = some f → frLenOk f = true → 63 ≤ f.hops.toNat → exec (.frameReceive rd ws) s = .next s)
  ∧ (∀ (s : State) (rd : Bool) (ws : List (BitVec 20)) (f : Frame) (k : List Byte), s.galUp = true → laneFrame rd ws = some f →
    s.lanesFree = true → frLenOk f = true → f.hops.toNat < 63 → f.kind = 12 → f.dst = 63 → s.member = true →
    s.bay ≠ 0 → f.src.toNat ≠ s.bay → s.gal.sk = some k → f.tag = frTag f k → s.gal.lastSeq.find? (fun e => e.1 = f.src.toNat) = none →
    GoesTo (exec (.frameReceive rd ws) s) fun t =>
      t.gal.rx = s.gal.rx ++ [⟨f, s.tb.toNat, true, false⟩] ∧ (f.src.toNat, f.seq.toNat) ∈ t.gal.lastSeq
      ∧ t.gal.outP = some { f with hops := f.hops + 1 } ∧ t.gal.outC = some { f with hops := f.hops + 1 } ∧ t.regs = s.regs)
  ∧ (∀ (s : State) (rd : Bool) (ws : List (BitVec 20)) (f : Frame) (k : List Byte), s.galUp = true → laneFrame rd ws = some f →
    s.lanesFree = true → frLenOk f = true → f.hops.toNat < 63 → f.kind = 12 → f.dst = 63 → s.member = true →
    s.bay ≠ 0 → f.src.toNat ≠ s.bay → s.gal.sk = some k → f.tag ≠ frTag f k →
    GoesTo (exec (.frameReceive rd ws) s) fun t =>
      t.gal.rx = s.gal.rx ∧ t.gal.outP = some { f with hops := f.hops + 1 } ∧ t.get F.GAL_AUTHREC.SRC = f.src.toNat ∧ t.get F.GAL_AUTHREC.CAUSE = 0
      ∧ t.get F.GAL_ERRCNT.AUTH = satAdd (s.get F.GAL_ERRCNT.AUTH) 1 (2 ^ F.GAL_ERRCNT.AUTH.len - 1) ∧ (t.por.pulses.any fun p => p.src = 73) = true)
  ∧ (∀ (s : State) (phase : Fin 40) (i : Fin 16) (l : Bool) (tb : Nat) (k : List Byte),
    s.galUp = true → s.lanesFree = true → s.gal.ctlQ = [] → s.bay ≠ 0 → s.maySend = true → s.gal.sk = some k → s.gal.syncQ = false → s.bcnOut = [] →
    (List.range 16).find? (fun i => (vget s.gal.ev i none).isSome) = some i.val → vget s.gal.ev i none = some (l, tb) →
    GoesTo (exec (.ownFrameTransmit phase) s) fun t =>
      ∃ f, t.gal.outP = some f ∧ t.gal.outC = some f ∧ f.kind = 12 ∧ f.payload = eventPay i l tb ∧ f.src.toNat = s.bay ∧ f.seq = s.tb ∧ f.tag = frTag f k
      ∧ vget t.gal.ev i none = none)
  ∧ (∀ (s : State) (r : RxFrame),
    s.galUp = true → s.rxFirst (fun r => r.act && r.f.kind = 14) = some r → leAt r.f.payload 0 1 = 0x5A →
    GoesTo (exec (.resetFrame) s) fun t =>
      t.gal.resetT = some s.fclk ∧ t.gal.rx = s.gal.rx.erase r ∧ t.regs = s.regs)
  ∧ (∀ (s : State) (r : RxFrame),
    s.galUp = true → s.rxFirst (fun r => r.act && r.f.kind = 14) = some r → leAt r.f.payload 0 1 ≠ 0x5A →
    GoesTo (exec (.resetFrame) s) fun t =>
      t.gal.resetT = s.gal.resetT ∧ t.gal.rx = s.gal.rx.erase r ∧ t.regs = s.regs)
  ∧ (∀ (s : State) (r : RxFrame),
    s.galUp = true → s.rxFirst (fun r => r.act && r.f.kind = 12) = some r →
    GoesTo (exec (.eventReceive) s) fun t =>
      bitOf (t.get F.GAL_ERX) (leAt r.f.payload 0 1 % 16) = decide (leAt r.f.payload 1 1 % 2 = 1) ∧ bitOf (t.get F.GAL_ERXF) (leAt r.f.payload 0 1 % 16) = true
      ∧ t.gal.rx = s.gal.rx.erase r)
  ∧ (∀ (s : State) (sl : Fin 16),
    s.galUp = true → s.routedHigh 5 sl ≠ bitOf s.gal.evLvl sl → s.bit (F.GAL_EVTDST.EN sl) = true → s.bay ≠ 0 →
    GoesTo (exec (.eventSlotChange sl) s) fun t =>
      vget t.gal.ev sl none = some (s.routedHigh 5 sl, s.tb.toNat) ∧ bitOf t.gal.evLvl sl = s.routedHigh 5 sl ∧ t.regs = s.regs)
  ∧ (∀ (s : State),
    s.galUp = true →
    GoesTo (exec (.galleryCountClear) s) fun t =>
      t.reg R.GAL_ERRCNT = 0 ∧ t.reg R.GAL_EVCNT = 0 ∧ SameRegs (fun a => a = R.GAL_ERRCNT ∨ a = R.GAL_EVCNT) s t ∧ t.gal = s.gal)

/-- The Gallery: the passes of an enumeration and of a join, at a member and at the master. A MEASURE frame with a new NM gives
a member the number 0, its key and cleared sequence values, and is held; after 16 µs the lane delays stand and, the lanes being
free, it goes on. ASSIGN gives the bay NEXT and goes on with NEXT one higher; DONE sets ENUMERATED and RINGN. A JOIN OFFER
without a REQID takes this numberless bay’s; a GRANT that names it gives its number. A master starts an enumeration at its time,
by command, after a pass that did not return, and after 50 ms; it stands as bay 1 in the MEASURE pass with an empty roster. The
return of MEASURE begins ASSIGN, that of DONE completes. JOIN NOW and the join period send an OFFER. -/
def Obligations.RingEnumeratesItsBays : Prop :=
  (∀ (s : State) (r : RxFrame),
    s.galUp = true → s.galMaster = false → s.gal.req = [] →
    s.rxFirst (fun r => !r.own && r.f.kind = 1 && (frSub r.f = 0 || (s.galMaster && r.act))) = some r → r.act = true →
    s.gal.nm ≠ some (slice r.f.payload 2 16) →
    GoesTo (exec (.enumMeasure) s) fun t =>
      t.bay = 0 ∧ t.gal.nm = some (slice r.f.payload 2 16) ∧ t.gal.sk = some (sessionKey s.gal.key (slice r.f.payload 2 16)) ∧ t.gal.lastSeq = []
      ∧ t.gal.hold = some (r.f, s.fclk) ∧ t.bit F.GAL_STAT.ENUMERATED = false)
  ∧ (∀ (s : State) (f : Frame) (t0 : Nat) (p : Word) (c : Word),
    s.galUp = true → s.gal.hold = some (f, t0) → t0 + 6400 ≤ s.fclk → s.galMaster = false →
    s.bypassOpen = true → s.gal.transit = [] → s.gal.outT ≤ s.fclk →
    GoesTo (exec (.measureHoldEnd p c) s) fun t =>
      t.reg R.GAL_DLYP = p ∧ t.reg R.GAL_DLYC = c ∧ t.gal.hold = none ∧ t.gal.outP = some { f with hops := f.hops + 1 })
  ∧ (∀ (s : State) (r : RxFrame) (resid : Nat),
    s.galUp = true → s.rxFirst (fun r => !r.own && r.f.kind = 1 && frSub r.f = 1) = some r → s.lanesFree = true → r.act = true →
    r.f.payload.length = 38 → leAt r.f.payload 1 1 ≤ 62 →
    GoesTo (exec (.enumAssign resid) s) fun t =>
      t.bay = leAt r.f.payload 1 1 ∧ t.gal.rx = s.gal.rx.erase r ∧ ∃ g, t.gal.outP = some g ∧ leAt g.payload 1 1 = leAt r.f.payload 1 1 + 1 ∧ g.hops = r.f.hops + 1)
  ∧ (∀ (s : State) (r : RxFrame),
    s.galUp = true → s.rxFirst (fun r => !r.own && r.f.kind = 1 && frSub r.f = 2) = some r → s.lanesFree = true → r.act = true →
    s.bay ≠ 0 →
    GoesTo (exec (.enumDone) s) fun t =>
      t.bit F.GAL_STAT.ENUMERATED = true ∧ t.bay = s.bay ∧ t.get F.GAL_RINGN = (leAt r.f.payload 1 1 - 1) % 2 ^ F.GAL_RINGN.len ∧ t.get F.PCR_STAT.BOOTSTEP ≠ 3
      ∧ t.gal.outP = some { r.f with hops := r.f.hops + 1 })
  ∧ (∀ (s : State) (r : RxFrame),
    s.galUp = true → s.rxFirst (fun r => !r.own && r.f.kind = 2 && frSub r.f = 0) = some r → s.lanesFree = true → r.act = true → s.bay = 0 →
    leAt r.f.payload 18 8 = 0 → r.f.payload.length = 27 →
    GoesTo (exec (.joinOffer) s) fun t =>
      t.gal.nm = some (slice r.f.payload 2 16) ∧ ∃ g, t.gal.outP = some g ∧ slice g.payload 18 8 = s.idBytes ∧ g.hops = r.f.hops + 1)
  ∧ (∀ (s : State) (r : RxFrame),
    s.galUp = true → s.rxFirst (fun r => !r.own && r.f.kind = 2 && frSub r.f = 1) = some r → s.lanesFree = true → r.act = true → s.bay = 0 →
    slice r.f.payload 18 8 = s.idBytes → leAt r.f.payload 1 1 < 64 →
    GoesTo (exec (.joinGrant) s) fun t =>
      t.bay = leAt r.f.payload 1 1 ∧ t.bit F.GAL_STAT.ENUMERATED = true ∧ t.gal.outP = some { r.f with hops := r.f.hops + 1 })
  ∧ (∀ (s : State),
    s.enumMay = true → s.gal.step3.isSome = true → s.gal.pass = none → s.gal.complete = false →
    s.get F.GAL_CFG.ENUMDLY ≤ s.gal.ticks →
    GoesTo (exec (.enumStart) s) fun t =>
      t.bay = 1 ∧ t.gal.pass = some (.measure, s.fclk) ∧ t.gal.roster = [] ∧ t.gal.hold.isSome = true)
  ∧ (∀ (s : State),
    s.enumMay = true →
    GoesTo (exec (.fullEnumeration) s) fun t =>
      t.bay = 1 ∧ t.gal.pass = some (.measure, s.fclk) ∧ t.gal.roster = [] ∧ t.gal.lastSeq = [])
  ∧ (∀ (s : State) (t0 : Nat),
    s.enumMay = true → s.gal.pass = some (.assign, t0) → t0 + 800000 ≤ s.fclk → s.backComes = false →
    GoesTo (exec (.enumPassTimeout) s) fun t =>
      t.gal.pass = some (.measure, s.fclk) ∧ t.get F.GAL_ERRCNT.ENUMRETRY = satAdd (s.get F.GAL_ERRCNT.ENUMRETRY) 1 (2 ^ F.GAL_ERRCNT.ENUMRETRY.len - 1))
  ∧ (∀ (s : State) (t0 : Nat),
    s.enumMay = true → s.gal.complete = false → s.gal.gaveUp = false → s.gal.step3 = some t0 → t0 + 20000000 ≤ s.fclk →
    s.get F.PCR_STAT.BOOTSTEP = 3 →
    GoesTo (exec (.enumRetryTimer) s) fun t =>
      t.bay = 1 ∧ t.get F.PCR_STAT.BOOTSTEP = 4 ∧ t.gal.pass = some (.measure, s.fclk) ∧ t.gal.gaveUp = true)
  ∧ (∀ (s : State) (r : RxFrame) (t0 : Nat) (wanted : Bool),
    s.enumMay = true → s.gal.pass = some (.measure, t0) → s.rxFirst (fun r => r.own) = some r → r.f.kind = 1 →
    frSub r.f = 0 →
    GoesTo (exec (.enumFrameReturn wanted) s) fun t =>
      t.gal.pass = some (.assign, s.fclk) ∧ t.gal.ctlQ = s.gal.ctlQ ++ [(1, enumPay 1 2 (s.gal.nm.getD []) s.idBytes 0 0)] ∧ t.bay = s.bay)
  ∧ (∀ (s : State) (r : RxFrame) (t0 : Nat) (wanted : Bool),
    s.enumMay = true → s.gal.pass = some (.done, t0) → s.rxFirst (fun r => r.own) = some r → r.f.kind = 1 →
    frSub r.f = 2 →
    GoesTo (exec (.enumFrameReturn wanted) s) fun t =>
      t.gal.pass = none ∧ t.gal.complete = true ∧ t.bit F.GAL_STAT.ENUMERATED = true ∧ t.get F.TB_STAT.SYNC = 1)
  ∧ (∀ (s : State),
    s.enumMay = true → s.bit F.GAL_STAT.ENUMERATED = true →
    GoesTo (exec (.joinNow) s) fun t =>
      t.gal.ctlQ = s.gal.ctlQ ++ [(2, joinPay 0 0 (s.gal.nm.getD []) (List.replicate 8 0))] ∧ t.regs = s.regs)
  ∧ (∀ (s : State),
    s.enumMay = true → s.bit F.GAL_STAT.ENUMERATED = true → max 1 (s.get F.GAL_CFG.JOINP) ≤ s.gal.ticks →
    GoesTo (exec (.joinOfferTimer) s) fun t =>
      t.gal.ctlQ = s.gal.ctlQ ++ [(2, joinPay 0 0 (s.gal.nm.getD []) (List.replicate 8 0))] ∧ t.gal.ticks = 0)

/-- The Gallery: SYNC frames, requests of other bays, and requests to them. The first SYNC frame that a bay takes steps TB by the
rounded error and sets SYNC; every one goes on with COR advanced. A master sends one at each multiple of 400 000; 8 ms without one
is a holdover of TB. A request of another bay for a register gives its value in the answer, a write acts by the access codes as a
Gallery write, a read or write of a granted hall gives or takes its bytes; each answer carries the TID and STATUS 0. An answer to
a host’s request ends it with RESULT 1 and its data; no answer within TTO is repeated, and at last ends it with RESULT 3, counted
and reported. -/
def Obligations.RingTimeAndTransactions : Prop :=
  (∀ (s : State) (r : RxFrame) (phase : Fin 40) (resid : Nat),
    s.galUp = true → s.galMaster = false → s.get F.TB_STAT.SYNC = 0 →
    s.rxFirst (fun r => !r.own && r.f.kind = 9) = some r → s.lanesFree = true → r.act = true → r.f.payload.length = 14 →
    GoesTo (exec (.syncReceive phase resid) s) fun t =>
      let e : Int := ((r.tb * 40 + phase.val : Nat) : Int) - (leAt r.f.payload 0 8 * 40 + leAt r.f.payload 8 4 : Nat)
      t.tb = BitVec.ofNat 60 (((s.tb.toNat : Int) - rndDiv e 40) % (2 ^ 60 : Int)).toNat ∧ t.get F.TB_STAT.SYNC = 1 ∧ t.corr = 0 ∧ t.gal.syncT = s.fclk
      ∧ ∃ g, t.gal.outP = some g ∧ leAt g.payload 8 4 = (leAt r.f.payload 8 4 + resid + s.get F.GAL_DLYP) % 2 ^ 32)
  ∧ (∀ (s : State),
    s.galUp = true → s.syncDue = true → s.galMaster = true → s.gal.free = true →
    GoesTo (exec (.syncSend) s) fun t =>
      t.gal.syncQ = true ∧ t.syncDue = false ∧ t.regs = s.regs)
  ∧ (∀ (s : State),
    s.islandUp .angle = true → s.galMaster = false → s.get F.TB_STAT.SYNC = 1 → s.gal.syncT + 3200000 ≤ s.fclk →
    s.syncComes = false →
    GoesTo (exec (.syncTimeout) s) fun t =>
      t.get F.TB_STAT.SYNC = 2)
  ∧ (∀ (s : State) (r : RxFrame) (q : GalReq),
    s.galUp = true → s.rxFirst (fun r => r.act && r.f.kind = 7) = some r →
    s.gal.req.find? (fun q => q.sent && q.bay = r.f.src.toNat && leAt q.body 0 1 % 16 = leAt r.f.payload 0 1 % 16) = some q →
    q.who = .host → leAt r.f.payload 1 1 = 0 →
    GoesTo (exec (.respReceive) s) fun t =>
      t.host.done = some (1, respHost q.kind (r.f.payload.drop 2)) ∧ t.host.remote = none ∧ t.gal.req = s.gal.req.erase q ∧ t.regs = s.regs)
  ∧ (∀ (s : State) (b : Fin 63) (q : GalReq),
    s.galUp = true → s.gal.req.find? (fun q => q.sent && q.bay = b.val) = some q → q.t + s.replyTime ≤ s.fclk →
    s.respComes q = false → q.tries < s.get F.GAL_CFG.RETRY →
    GoesTo (exec (.transactionTimeout b) s) fun t =>
      { q with sent := false, tries := q.tries + 1 } ∈ t.gal.req ∧ t.regs = s.regs ∧ t.host = s.host)
  ∧ (∀ (s : State) (b : Fin 63) (q : GalReq),
    s.galUp = true → s.gal.req.find? (fun q => q.sent && q.bay = b.val) = some q → q.t + s.replyTime ≤ s.fclk →
    s.respComes q = false → s.get F.GAL_CFG.RETRY ≤ q.tries → q.who = .host →
    GoesTo (exec (.transactionTimeout b) s) fun t =>
      t.host.done = some (3, []) ∧ t.gal.req = s.gal.req.erase q ∧ (t.por.pulses.any fun p => p.src = 75) = true ∧ t.get F.GAL_EVCNT.TO = satAdd (s.get F.GAL_EVCNT.TO) 1 (2 ^ F.GAL_EVCNT.TO.len - 1))
  ∧ (∀ (s : State) (n : Fin 24) (r : RxFrame) (tid : Fin 16),
    s.galUp = true → s.islandUp .angle = true → s.gal.kept = [] →
    s.rxFirst (fun r => r.act && r.f.kind.toNat = 3) = some r → r.f.payload = [byteOf tid, 1] ++ leBytes 2 (R.EO_CFG n) →
    GoesTo (exec (.remoteRegrd) s) fun t =>
      t.gal.respQ = s.gal.respQ ++ [(r.f.src.toNat, [byteOf tid, 0] ++ leBytes 3 ((s.reg (R.EO_CFG n)).toNat % 2 ^ 13))] ∧ t.regs = s.regs)
  ∧ (∀ (s : State) (n : Fin 24) (v : Word) (r : RxFrame) (tid : Fin 16),
    s.galUp = true → s.islandUp .angle = true → s.gal.kept = [] →
    s.rxFirst (fun r => r.act && r.f.kind.toNat = 4) = some r →
    r.f.payload = [byteOf tid, 1] ++ leBytes 2 (R.EO_CFG n) ++ leBytes 3 v.toNat →
    GoesTo (exec (.remoteRegwr) s) fun t =>
      t.reg (R.EO_CFG n) = BitVec.ofNat 20 (s.merged .gallery (R.EO_CFG n) (s.reg (R.EO_CFG n)).toNat v.toNat) ∧ t.gal.respQ = s.gal.respQ ++ [(r.f.src.toNat, [byteOf tid, 0])])
  ∧ (∀ (s : State) (a : Nat) (n : Nat) (r : RxFrame) (tid : Fin 16),
    s.galUp = true → s.islandUp .memory = true → s.gal.kept = [] →
    s.rxFirst (fun r => r.act && r.f.kind = 5 && !s.memWaits (leAt r.f.payload 2 4) (leAt r.f.payload 1 1)) = some r →
    r.f.payload = [byteOf tid, byteOf n] ++ leBytes 4 a →
    1 ≤ n → n ≤ 56 → a / 524288 < 15 → a % 524288 + n ≤ 524288 → s.bit (F.HAL_OWN.PWR (a / 524288)) = true → s.hallErr = [] →
    GoesTo (exec (.remoteMemrd) s) fun t =>
      t.gal.respQ = s.gal.respQ ++ [(r.f.src.toNat, [byteOf tid, 0] ++ s.hallBytes a n)] ∧ SameStores s t ∧ t.regs = s.regs)
  ∧ (∀ (s : State) (a : Nat) (d : List Byte) (r : RxFrame) (tid : Fin 16),
    s.galUp = true → s.islandUp .memory = true → s.gal.kept = [] →
    s.rxFirst (fun r => r.act && r.f.kind.toNat = 6) = some r →
    r.f.payload = [byteOf tid, byteOf d.length] ++ leBytes 4 a ++ d → 1 ≤ d.length → d.length ≤ 56 → a / 524288 < 15 →
    a % 524288 + d.length ≤ 524288 → s.bit (F.HAL_OWN.PWR (a / 524288)) = true → s.get (F.HAL_OWN.OWNER (a / 524288)) = 2 →
    s.hallErr = [] →
    GoesTo (exec (.remoteMemwr) s) fun t =>
      t.hallBytes a d.length = d ∧ (∀ b, b < a ∨ a + d.length ≤ b → t.hallByte b = s.hallByte b) ∧ t.gal.respQ = s.gal.respQ ++ [(r.f.src.toNat, [byteOf tid, 0])]
      ∧ t.regs = s.regs)

/-- The host port: FETCH, register and memory requests, the result, errors of frames. PSTAT of a frame is the status as it stood
before. A FETCH clocks out RESULT, D and their CRC, and consumes the result only when the CRC has been clocked out. While no
request is under way, a register read or write, or a memory read or write of a granted hall, is carried out and ends with RESULT 1
and its data, high byte first for registers; while one is, the request is refused, with LASTERR 4. The result then stands, padded
or cut to the length asked. A frame that fails its checks only sets LASTERR and counts; one whose SCS_N stays low too long sets
LASTERR 3 and raises source 76. -/
def Obligations.HostFramesRequestAndFetch : Prop :=
  (∀ (s : State) (d : List Byte) (code : Nat) (l : List Byte),
    s.islandUp .memory = true → d.take 2 = [0, 0xBD] → s.host.result = some (code, l) → d.length = l.length + 4 →
    GoesTo (exec (.hostFetch d 0) s) fun t =>
      t.host.pstat = s.pstat ∧ t.host.sdo = [0] ++ (byteOf code :: l) ++ [crc8 (byteOf code :: l)] ∧ t.host.result = none ∧ t.regs = s.regs)
  ∧ (∀ (s : State) (d : List Byte) (code : Nat) (l : List Byte),
    s.islandUp .memory = true → d.take 2 = [0, 0xBD] → s.host.result = some (code, l) → d.length < l.length + 4 →
    GoesTo (exec (.hostFetch d 0) s) fun t =>
      t.host.pstat = s.pstat ∧ t.host.sdo = ([0] ++ (byteOf code :: l) ++ [crc8 (byteOf code :: l)]).take (d.length - 1) ∧ t.host.result = s.host.result
      ∧ t.regs = s.regs)
  ∧ (∀ (s : State) (n : Fin 24) (f : List Byte),
    s.islandUp .memory = true → s.hostBusy = false → s.islandUp .angle = true → f = [0x20, 0, 0] ++ beBytes 2 (R.EO_CFG n) →
    GoesTo (exec (.hostRegrd (f ++ [crc8 f]) 0) s) fun t =>
      t.host.done = some (1, beBytes 3 ((s.reg (R.EO_CFG n)).toNat % 2 ^ 13)) ∧ t.hostBusy = true ∧ t.host.result = none ∧ t.regs = s.regs ∧ SameStores s t)
  ∧ (∀ (s : State) (n : Fin 24) (v : Word) (f : List Byte),
    s.islandUp .memory = true → s.hostBusy = false → s.islandUp .angle = true →
    f = [0x40, 0, 0] ++ beBytes 2 (R.EO_CFG n) ++ beBytes 3 v.toNat →
    GoesTo (exec (.hostRegwr (f ++ [crc8 f]) 0) s) fun t =>
      t.reg (R.EO_CFG n) = BitVec.ofNat 20 (s.merged .host (R.EO_CFG n) (s.reg (R.EO_CFG n)).toNat v.toNat) ∧ t.host.done = some (1, []) ∧ t.nvs = s.nvs)
  ∧ (∀ (s : State) (a : Nat) (n : Nat) (f : List Byte),
    s.islandUp .memory = true → s.hostBusy = false → f = [0x60, 0, byteOf n] ++ beBytes 4 a → 1 ≤ n → n ≤ 56 →
    a / 524288 < 15 → a % 524288 + n ≤ 524288 → s.bit (F.HAL_OWN.PWR (a / 524288)) = true → s.hallErr = [] →
    GoesTo (exec (.hostMemrd (f ++ [crc8 f]) 0) s) fun t =>
      t.host.done = some (1, s.hallBytes a n) ∧ t.host.dlen = n ∧ SameStores s t ∧ t.regs = s.regs)
  ∧ (∀ (s : State) (a : Nat) (d : List Byte) (f : List Byte),
    s.islandUp .memory = true → s.hostBusy = false → f = [0x80, 0, byteOf d.length] ++ beBytes 4 a ++ d → 1 ≤ d.length →
    d.length ≤ 56 → a / 524288 < 15 → a % 524288 + d.length ≤ 524288 → s.bit (F.HAL_OWN.PWR (a / 524288)) = true →
    s.get (F.HAL_OWN.OWNER (a / 524288)) = 1 → s.hallErr = [] →
    GoesTo (exec (.hostMemwr (f ++ [crc8 f]) 0) s) fun t =>
      t.hallBytes a d.length = d ∧ (∀ b, b < a ∨ a + d.length ≤ b → t.hallByte b = s.hallByte b) ∧ t.host.done = some (1, []) ∧ t.regs = s.regs)
  ∧ (∀ (s : State) (f : List Byte),
    s.islandUp .memory = true → s.hostBusy = true → hostCheck (f ++ [crc8 f]) = 0 → leAt f 0 1 / 32 = 3 →
    GoesTo (exec (.hostMemrd (f ++ [crc8 f]) 0) s) fun t =>
      t.get F.HOST_STAT.LASTERR = 4 ∧ t.host.refused = true ∧ t.host.done = s.host.done ∧ SameStores s t)
  ∧ (∀ (s : State) (d : List Byte) (e : Nat),
    s.islandUp .memory = true → hostCheck d = e → e ≠ 0 → leAt d 0 1 / 32 = 3 →
    GoesTo (exec (.hostMemrd d 0) s) fun t =>
      t.get F.HOST_STAT.LASTERR = e ∧ t.host.pstat = s.pstat ∧ t.host.done = s.host.done ∧ SameStores s t)
  ∧ (∀ (s : State) (code : Nat) (d : List Byte),
    s.islandUp .memory = true → s.host.nvRead = none → s.host.done = some (code, d) →
    GoesTo (exec (.hostResultReady) s) fun t =>
      t.host.done = none ∧ t.host.result = some (code, if code = 1 then (d ++ List.replicate s.host.dlen 0).take s.host.dlen else List.replicate s.host.dlen 0)
      ∧ t.regs = s.regs)
  ∧ (∀ (s : State) (d : List Byte),
    s.islandUp .memory = true → s.comes isHostFrame = false →
    GoesTo (exec (.hostFrameTimeout d) s) fun t =>
      t.get F.HOST_STAT.LASTERR = 3 ∧ t.host.fErr = true ∧ t.host.done = s.host.done ∧ (t.por.pulses.any fun p => p.src = 76) = true ∧ SameStores s t)

/-- The interrupt router: registration, offers and their answers, and frames without an answer. A write that registers a host
enters it in the host table under this bay; a HOSTSTATE enters another’s. The lowest source that an available host may take is
offered to the best such host. Frames within the bay are taken in the order sent. A FREE slot accepts and becomes OFFERED, any
other refuses; a refused host is excluded. Unanswered OFFER and CLAIM frames are repeated, and at last the host is excluded, or
the slot is free and the read gives 1023. -/
def Obligations.InterruptsAreOfferedAndClaimed : Prop :=
  (∀ (s : State) (h : Fin 8) (p : Fin 16) (v : Word),
    s.irtUp = true → s.bit F.IRT_HOST.REG = false → s.bit (F.IRT_HTAB.VALID h) = false → v.toNat = h + 8 + 16 * p →
    GoesTo (exec (.hostRegister v) s) fun t =>
      t.reg R.IRT_HOST = v ∧ t.bit (F.IRT_HTAB.VALID h) = true ∧ t.bit (F.IRT_HTAB.REG h) = true ∧ t.get (F.IRT_HTAB.BAY h) = s.bay ∧ t.get (F.IRT_HTAB.PRIO h) = p)
  ∧ (∀ (s : State) (h : Fin 8) (p : Fin 16) (k : Fin 4) (r : RxFrame),
    s.irtUp = true → s.rxFirst (fun r => r.act && r.f.kind = 10 && frSub r.f = 7) = some r →
    r.f.payload = [7, byteOf h] ++ leBytes 2 (1 + 2 * p + 32 * k) → s.bit (F.IRT_HTAB.VALID h) = false →
    GoesTo (exec (.hoststateReceive) s) fun t =>
      t.bit (F.IRT_HTAB.VALID h) = true ∧ t.get (F.IRT_HTAB.BAY h) = r.f.src.toNat ∧ t.get (F.IRT_HTAB.PRIO h) = p ∧ t.get (F.IRT_HTAB.SLOT h) = k ∧ t.gal.rx = s.gal.rx.erase r)
  ∧ (∀ (s : State) (k : Fin 320),
    s.irtUp = true → s.irt.offer = none → s.irt.evalT ≤ s.thirds → s.hostsFor k ≠ [] →
    (∀ j : Fin 320, j < k → s.hostsFor j = []) →
    GoesTo (exec (.irqEvaluate) s) fun t =>
      (∃ h, h ∈ s.hostsFor k ∧ (∀ x, x ∈ s.hostsFor k → s.hostBetter x h = false) ∧ t.irt.offer = some ⟨s.get (F.IRT_HTAB.BAY h), h, k, 0, s.fclk⟩
        ∧ (s.isHere (s.get (F.IRT_HTAB.BAY h)) = true → t.irt.loc = s.irt.loc ++ [(0, h, k.val)])) ∧ t.regs = s.regs)
  ∧ (∀ (s : State) (h : Nat) (x : Fin 320) (rest : List (Nat × Nat × Nat)),
    s.irtUp = true → s.irt.loc = (0, h, x.val) :: rest → s.slot = 0 → s.bit F.IRT_HOST.REG = true →
    s.hid = h → s.bit F.IRT_HSTAT.HIDCONF = false →
    GoesTo (exec (.irqOfferReceive true) s) fun t =>
      t.slot = 1 ∧ t.hirq = true ∧ t.get F.IRT_HSLOT.SRC = x ∧ t.get F.IRT_HSLOT.BAY = s.bay ∧ t.irt.slotT = s.fclk
      ∧ t.irt.loc = rest ++ [(1, h, x.val)])
  ∧ (∀ (s : State) (h : Nat) (x : Nat) (rest : List (Nat × Nat × Nat)),
    s.irtUp = true → s.irt.loc = (0, h, x) :: rest → s.slot ≠ 0 →
    GoesTo (exec (.irqOfferReceive true) s) fun t =>
      t.irt.loc = rest ++ [(2, h, x)] ∧ t.regs = s.regs)
  ∧ (∀ (s : State) (h : Nat) (x : Nat) (rest : List (Nat × Nat × Nat)) (b : Nat) (n : Nat) (f : Nat),
    s.irtUp = true → s.irt.loc = (1, h, x) :: rest → s.irt.offer = some ⟨b, h, x, n, f⟩ →
    s.isHere b = true →
    GoesTo (exec (.irqAcceptReceive true) s) fun t =>
      t.irt.offer = none ∧ t.irt.excl = s.irt.excl ∧ t.regs = s.regs)
  ∧ (∀ (s : State) (h : Nat) (x : Nat) (rest : List (Nat × Nat × Nat)) (b : Nat) (n : Nat) (f : Nat),
    s.irtUp = true → s.irt.loc = (2, h, x) :: rest → s.irt.offer = some ⟨b, h, x, n, f⟩ →
    s.isHere b = true →
    GoesTo (exec (.irqRefuseReceive true) s) fun t =>
      t.irt.offer = none ∧ h ∈ t.irt.excl ∧ t.regs = s.regs)
  ∧ (∀ (s : State) (o : IrqAsk),
    s.irtUp = true → s.irt.offer = some o → o.t + s.replyTime ≤ s.fclk → s.comes (isReply false) = false →
    o.tries < s.get F.GAL_CFG.RETRY →
    GoesTo (exec (.irqFrameNoReply false) s) fun t =>
      t.irt.offer = some { o with tries := o.tries + 1, t := s.fclk } ∧ t.regs = s.regs)
  ∧ (∀ (s : State) (o : IrqAsk),
    s.irtUp = true → s.irt.offer = some o → o.t + s.replyTime ≤ s.fclk → s.comes (isReply false) = false →
    s.get F.GAL_CFG.RETRY ≤ o.tries →
    GoesTo (exec (.irqFrameNoReply false) s) fun t =>
      t.irt.offer = none ∧ o.hid ∈ t.irt.excl ∧ t.regs = s.regs)
  ∧ (∀ (s : State) (o : IrqAsk),
    s.irtUp = true → s.irt.claim = some o → o.t + s.replyTime ≤ s.fclk → s.comes (isReply true) = false →
    o.tries < s.get F.GAL_CFG.RETRY →
    GoesTo (exec (.irqFrameNoReply true) s) fun t =>
      t.irt.claim = some { o with tries := o.tries + 1, t := s.fclk } ∧ t.slot = s.slot ∧ t.regs = s.regs)
  ∧ (∀ (s : State) (o : IrqAsk),
    s.irtUp = true → s.irt.claim = some o → o.t + s.replyTime ≤ s.fclk → s.comes (isReply true) = false →
    s.get F.GAL_CFG.RETRY ≤ o.tries →
    GoesTo (exec (.irqFrameNoReply true) s) fun t =>
      t.irt.claim = none ∧ t.slot = 0 ∧ t.reg R.IRT_CLAIM = 1023 ∧ t.host.claimed = some 1023)

/-- The interrupt router: claims, done, withdrawals and their limits. A read of IRT_CLAIM in OFFERED sends a CLAIM, and in any
other state gives 1023. A CLAIM gives the lowest eligible source, counted down, or 1023, at once where nothing of the FCLK is to
come and else at its end, claims in order; with a source the slot is then HELD, with 1023 free, and SPUR counts it. A DONE write
that names the held claim frees the slot 4 MCLK later, another sets DONEERR. Offers and claims not answered in time are
withdrawn or ended, with source 77. PEND and COUNT clear by their commands. -/
def Obligations.InterruptsAreClaimedAndEnded : Prop :=
  (∀ (s : State),
    s.irtUp = true → s.host.rest.isSome = true → s.host.begun = false → s.slot = 1 → s.isHere (s.get F.IRT_HSLOT.BAY) = true →
    GoesTo (exec (.irqClaimRead) s) fun t =>
      t.slot = 2 ∧ t.irt.loc = s.irt.loc ++ [(3, s.hid, 0)] ∧ t.host.begun = true ∧ t.hirq = false)
  ∧ (∀ (s : State),
    s.irtUp = true → s.host.rest.isSome = true → s.host.begun = false → s.slot ≠ 1 →
    GoesTo (exec (.irqClaimRead) s) fun t =>
      t.host.claimed = some 1023 ∧ t.regs = s.regs ∧ t.irt = s.irt)
  ∧ (∀ (s : State) (h : Nat) (x : Nat) (rest : List (Nat × Nat × Nat)) (k : Fin 320),
    s.irtUp = true → s.irt.loc = (3, h, x) :: rest → s.waiting = [] → s.irt.claims = [] →
    s.srcFor k h = true → (∀ j : Fin 320, j < k → s.srcFor j h = false) →
    GoesTo (exec (.irqClaimReceive true) s) fun t =>
      t.get (F.IRT_SRC.COUNT k) = s.get (F.IRT_SRC.COUNT k) - 1 ∧ SameRegs (fun a => a = R.IRT_SRC k) s t ∧ t.irt.loc = rest ++ [(4, h, k.val)])
  ∧ (∀ (s : State) (h : Nat) (x : Nat) (rest : List (Nat × Nat × Nat)),
    s.irtUp = true → s.irt.loc = (3, h, x) :: rest → s.waiting = [] → s.irt.claims = [] →
    (∀ j : Fin 320, s.srcFor j h = false) →
    GoesTo (exec (.irqClaimReceive true) s) fun t =>
      t.irt.loc = rest ++ [(4, h, 1023)] ∧ t.regs = s.regs)
  ∧ (∀ (s : State) (h : Nat) (x : Nat) (rest : List (Nat × Nat × Nat)),
    s.irtUp = true → s.irt.loc = (3, h, x) :: rest → s.waiting ≠ [] ∨ s.irt.claims ≠ [] →
    GoesTo (exec (.irqClaimReceive true) s) fun t =>
      t.irt.claims = s.irt.claims ++ [(s.bay, h)] ∧ t.irt.loc = rest ∧ t.regs = s.regs)
  ∧ (∀ (s : State) (h : Nat) (k : Fin 320),
    s.irt.claims = [(s.bay, h)] → s.srcFor k h = true → (∀ j : Fin 320, j < k → s.srcFor j h = false) →
    s.claimsRun.get (F.IRT_SRC.COUNT k) = s.get (F.IRT_SRC.COUNT k) - 1 ∧ s.claimsRun.irt.claims = []
      ∧ s.claimsRun.irt.loc = s.irt.loc ++ [(4, h, k.val)])
  ∧ (∀ (s : State) (h : Nat) (x : Nat) (rest : List (Nat × Nat × Nat)) (c : IrqAsk),
    s.irtUp = true → s.irt.loc = (4, h, x) :: rest → s.irt.claim = some c → s.isHere c.bay = true →
    s.slot = 2 → x < 320 →
    GoesTo (exec (.irqClaimedReceive true) s) fun t =>
      t.slot = 3 ∧ (t.reg R.IRT_CLAIM).toNat = x + 1024 * s.bay ∧ t.host.claimed = some (x + 1024 * s.bay) ∧ t.get F.IRT_HSLOT.SRC = x ∧ t.irt.slotT = s.fclk)
  ∧ (∀ (s : State) (h : Nat) (x : Nat) (rest : List (Nat × Nat × Nat)) (c : IrqAsk),
    s.irtUp = true → s.irt.loc = (4, h, x) :: rest → s.irt.claim = some c → s.isHere c.bay = true →
    s.slot = 2 → x = 1023 →
    GoesTo (exec (.irqClaimedReceive true) s) fun t =>
      t.slot = 0 ∧ t.reg R.IRT_CLAIM = 1023 ∧ t.host.claimed = some 1023 ∧ t.get F.IRT_STAT.SPUR = satAdd (s.get F.IRT_STAT.SPUR) 1 (2 ^ F.IRT_STAT.SPUR.len - 1))
  ∧ (∀ (s : State) (v : Word),
    s.irtUp = true → s.slot = 3 → s.irt.freeT = none → v.toNat % 65536 = s.get F.IRT_HSLOT.SRC + 1024 * s.get F.IRT_HSLOT.BAY →
    GoesTo (exec (.irqDoneWrite .host v) s) fun t =>
      t.irt.freeT = some (s.thirds + 16) ∧ t.slot = 3 ∧ t.regs = s.regs)
  ∧ (∀ (s : State) (v : Word),
    s.irtUp = true → v.toNat % 65536 ≠ s.get F.IRT_HSLOT.SRC + 1024 * s.get F.IRT_HSLOT.BAY →
    GoesTo (exec (.irqDoneWrite .host v) s) fun t =>
      t.bit F.IRT_HSTAT.DONEERR = true ∧ t.irt = s.irt ∧ t.slot = s.slot)
  ∧ (∀ (s : State) (f : Nat),
    s.irtUp = true → s.irt.freeT = some f → f ≤ s.thirds →
    GoesTo (exec (.irqSlotRelease) s) fun t =>
      t.slot = 0 ∧ t.irt.freeT = none)
  ∧ (∀ (s : State) (h : Nat) (x : Nat) (rest : List (Nat × Nat × Nat)),
    s.irtUp = true → s.irt.loc = (5, h, x) :: rest →
    GoesTo (exec (.irqDoneReceive true) s) fun t =>
      t.irt.evalT = s.thirds + 16 ∧ t.irt.loc = rest ∧ t.regs = s.regs)
  ∧ (∀ (s : State) (h : Nat) (x : Nat) (rest : List (Nat × Nat × Nat)),
    s.irtUp = true → s.irt.loc = (6, h, x) :: rest →
    GoesTo (exec (.irqWithdrawReceive true) s) fun t =>
      t.irt.once = some (h, x) ∧ t.irt.loc = rest ∧ t.regs = s.regs)
  ∧ (∀ (s : State),
    s.irtUp = true → s.slot = 1 → s.irt.slotT + 400 * max 1 (s.get F.IRT_CFG.CLAIMT) ≤ s.fclk →
    s.comes (fun c => c = .irqClaimRead) = false →
    GoesTo (exec (.irqClaimTimeout) s) fun t =>
      t.slot = 0 ∧ t.hirq = false ∧ (t.por.pulses.any fun p => p.src = 77) = true ∧ t.get F.IRT_STAT.WDRAW = satAdd (s.get F.IRT_STAT.WDRAW) 1 (2 ^ F.IRT_STAT.WDRAW.len - 1))
  ∧ (∀ (s : State),
    s.irtUp = true → s.slot = 3 → s.irt.freeT = none → s.irt.slotT + 400000 * max 1 (s.get F.IRT_CFG.HOLDT) ≤ s.fclk →
    s.comes s.isDone = false →
    GoesTo (exec (.irqHoldTimeout) s) fun t =>
      t.irt.freeT = some (s.thirds + 16) ∧ (t.por.pulses.any fun p => p.src = 77) = true)
  ∧ (∀ (s : State),
    s.irtUp = true → bitOf (s.setNow R.IRT_TRAP) 0 = false →
    GoesTo (exec (.trapClear) s) fun t =>
      t.bit F.IRT_TRAP.PEND = false ∧ t.htrap = false ∧ SameRegs (fun a => a = R.IRT_TRAP) s t)
  ∧ (∀ (s : State) (k : Fin 320),
    s.irtUp = true →
    GoesTo (exec (.sourceCountClear k) s) fun t =>
      t.get (F.IRT_SRC.COUNT k) = 0 ∧ SameRegs (fun a => a = R.IRT_SRC k) s t ∧ t.irt = s.irt)

/-- Trust: the checks of a command, its record, its end, the challenge, the debug session, tamper. A command that meets no other
under way is BUSY. CLAIM, and a signed command whose challenge, signer and signature pass, ask for an NVS update to the record
that the command gives, one generation on; DEBUG, and ATTEST with a key, pass without one; a command that fails a check stands
with its cause and asks for nothing, an unknown code with CMD. Under BUSY a command sets FAIL with cause 12 and nothing else. At
its end DONE or FAIL sets with its cause, and a new challenge is drawn where CHALLENGE was checked; DEBUG opens a session. A
challenge of 24 000 ticks is replaced. A session without time left ends. A tamper trip erases keys and challenge, is counted and
reported. -/
def Obligations.TrustCommandsAreCheckedAndEnd : Prop :=
  (∀ (s : State),
    s.islandUp .memory = true → s.tru.cmd = none → s.wvl.verify = none → s.tru.job = none → s.truFirst 1 s.truBuf = 0 →
    s.truOwn 1 s.truBuf = 0 →
    GoesTo (exec (.trustClaim) s) fun t =>
      t.bit F.TRU_STAT.BUSY = true ∧ t.tru.cmd = some ⟨1, true, false, none⟩ ∧ SameRegs (fun a => a = R.TRU_STAT) s t
      ∧ ∃ r, s.truNew 1 s.truBuf = some r ∧ t.tru.job = some (.record { r with gen := s.tru.rec_.gen + 1 } true))
  ∧ (∀ (s : State) (n : Nat) (c : Instr),
    s.islandUp .memory = true → s.tru.cmd = none → s.wvl.verify = none → s.tru.job = none →
    (n, c) ∈ ([(2, .trustAddkey), (3, .trustRevoke), (4, .trustLock), (5, .trustRetire), (6, .trustSetfloor), (7, .trustDebug)] : List (Nat × Instr)) →
    s.truFirst n s.truBuf = 0 → s.truSig s.truBuf = 0 → s.truOwn n s.truBuf = 0 →
    GoesTo (exec (c) s) fun t =>
      t.bit F.TRU_STAT.BUSY = true ∧ t.tru.cmd = some ⟨n, true, true, if n = 7 then some 0 else none⟩ ∧ SameRegs (fun a => a = R.TRU_STAT) s t
      ∧ (∀ r, s.truNew n s.truBuf = some r → t.tru.job = some (.record { r with gen := s.tru.rec_.gen + 1 } true)) ∧ (n = 7 → t.tru.job = none))
  ∧ (∀ (s : State) (n : Nat) (c : Instr) (k : Nat),
    s.islandUp .memory = true → s.tru.cmd = none → s.wvl.verify = none → s.tru.job = none →
    (n, c) ∈ ([(0, .trustUnknownCommand), (1, .trustClaim), (2, .trustAddkey), (3, .trustRevoke), (4, .trustLock), (5, .trustRetire), (6, .trustSetfloor), (7, .trustDebug), (8, .trustAttest)] : List (Nat × Instr)) →
    s.truFirst n s.truBuf = k → k ≠ 0 →
    GoesTo (exec (c) s) fun t =>
      t.bit F.TRU_STAT.BUSY = true ∧ t.tru.cmd = some ⟨n, true, false, some k⟩ ∧ t.tru.job = none ∧ t.hal = s.hal ∧ SameRegs (fun a => a = R.TRU_STAT) s t)
  ∧ (∀ (s : State),
    s.islandUp .memory = true → s.tru.cmd = none → s.wvl.verify = none → s.tru.job = none →
    GoesTo (exec (.trustUnknownCommand) s) fun t =>
      t.bit F.TRU_STAT.BUSY = true ∧ t.tru.cmd = some ⟨0, true, false, some 13⟩ ∧ t.hal = s.hal ∧ SameRegs (fun a => a = R.TRU_STAT) s t)
  ∧ (∀ (s : State),
    s.islandUp .memory = true → s.tru.cmd = none → s.wvl.verify = none → s.tru.job = none → s.truFirst 8 s.truBuf = 0 →
    GoesTo (exec (.trustAttest) s) fun t =>
      t.bit F.TRU_STAT.BUSY = true ∧ t.tru.cmd = some ⟨8, true, false, some (if s.identKey.isNone then 11 else 0)⟩ ∧ t.hal = s.hal
      ∧ SameRegs (fun a => a = R.TRU_STAT) s t)
  ∧ (∀ (s : State) (n : Nat) (c : Instr),
    s.islandUp .memory = true → s.tru.cmd.isSome = true →
    (n, c) ∈ ([(0, .trustUnknownCommand), (1, .trustClaim), (2, .trustAddkey), (3, .trustRevoke), (4, .trustLock), (5, .trustRetire), (6, .trustSetfloor), (7, .trustDebug), (8, .trustAttest)] : List (Nat × Instr)) →
    GoesTo (exec (c) s) fun t =>
      t.bit F.TRU_STAT.FAIL = true ∧ t.get F.TRU_STAT.CAUSE = 12 ∧ t.tru = s.tru ∧ t.hal = s.hal)
  ∧ (∀ (s : State) (n : Nat),
    s.islandUp .memory = true → s.tru.cmd = some ⟨n, true, true, some 0⟩ → (n = 2 ∨ n = 3 ∨ n = 4 ∨ n = 6) →
    s.por.lost.contains (.irq 312) = false →
    GoesTo (exec (.trustCommandEnd) s) fun t =>
      t.bit F.TRU_STAT.BUSY = false ∧ t.bit F.TRU_STAT.DONE = true ∧ t.get F.TRU_STAT.CAUSE = 0 ∧ t.tru.cmd = none ∧ t.get (F.IRT_SRC.COUNT 312) = min 15 (s.get (F.IRT_SRC.COUNT 312) + 1)
      ∧ t.tru.chalOk = true ∧ t.tru.chalT = 0 ∧ ∀ k : Fin 8, t.get (F.TRU_CHAL k) = leAt (s.freeBytes 16).1 (2 * k) 2)
  ∧ (∀ (s : State) (n : Nat) (k : Fin 16),
    s.islandUp .memory = true → s.tru.cmd = some ⟨n, true, false, some k.val⟩ → k.val ≠ 0 → s.tru.chalNext = none →
    s.por.lost.contains (.irq 313) = false →
    GoesTo (exec (.trustCommandEnd) s) fun t =>
      t.bit F.TRU_STAT.BUSY = false ∧ t.bit F.TRU_STAT.FAIL = true ∧ t.get F.TRU_STAT.CAUSE = k ∧ t.tru.cmd = none ∧ t.get (F.IRT_SRC.COUNT 313) = min 15 (s.get (F.IRT_SRC.COUNT 313) + 1) ∧ t.hal = s.hal)
  ∧ (∀ (s : State),
    s.islandUp .memory = true → s.tru.cmd = some ⟨7, true, true, some 0⟩ → leAt s.truBuf 92 2 ≠ 0 →
    GoesTo (exec (.trustCommandEnd) s) fun t =>
      t.bit F.TRU_STAT.BUSY = false ∧ t.bit F.TRU_STAT.DONE = true ∧ t.bit F.TRU_STAT.DEBUG = true ∧ t.get F.TRU_DBGLEFT = leAt s.truBuf 92 2 ∧ t.tru.cmd = none)
  ∧ (∀ (s : State),
    s.islandUp .memory = true → 24000 ≤ s.tru.chalT → s.tru.cmd = none →
    GoesTo (exec (.challengeExpire) s) fun t =>
      t.tru.chalOk = true ∧ t.tru.chalT = 0 ∧ ∀ k : Fin 8, t.get (F.TRU_CHAL k) = leAt (s.freeBytes 16).1 (2 * k) 2)
  ∧ (∀ (s : State),
    s.islandUp .memory = true → 24000 ≤ s.tru.chalT → s.tru.cmd.isSome = true →
    GoesTo (exec (.challengeExpire) s) fun t =>
      t.tru.chalNext = some (s.freeBytes 16).1 ∧ t.tru.cmd = s.tru.cmd ∧ t.regs = s.regs)
  ∧ (∀ (s : State),
    s.islandUp .memory = true → s.bit F.TRU_STAT.DEBUG = true → s.get F.TRU_DBGLEFT = 0 →
    s.por.lost.contains (.irq 315) = false →
    GoesTo (exec (.debugSessionExpire) s) fun t =>
      t.bit F.TRU_STAT.DEBUG = false ∧ t.get (F.IRT_SRC.COUNT 315) = min 15 (s.get (F.IRT_SRC.COUNT 315) + 1) ∧ t.tru = s.tru)
  ∧ (∀ (s : State) (k : Fin 4),
    s.pcr.held = none → (s.pcr.watch = false ∨ 2 ≤ k.val) →
    GoesTo (exec (.tamperTrip k) s) fun t =>
      t.gal.nm = s.gal.nm ∧ t.gal.sk = none ∧ t.tru.chalOk = false ∧ (∀ i : Fin 8, t.get (F.TRU_CHAL i) = 0) ∧ bitOf (t.get F.TRU_TAMP.SENSOR) k = true
      ∧ t.get F.TRU_TAMP.COUNT = satAdd (s.get F.TRU_TAMP.COUNT) 1 (2 ^ F.TRU_TAMP.COUNT.len - 1) ∧ t.bit F.TRU_STAT.DEBUG = false ∧ (t.por.pulses.any fun p => p.src = 6) = true)

/-- The Porter: findings, capture, reactions, counting, severe sources, forcing, heartbeat and ALIVE. A finding of an enabled
source is captured when nothing is and CAPMIN allows, goes to be counted, and has its reaction: IRQ raises source 0; TRAP sets
PEND with the source while the memory island runs; CRESET below its limit resets the chip and counts it; SAFE enters safe state
with the source and no gate conducts. A masked finding and a standing condition already decided do nothing. A counted event adds
to TOTAL, and opens or fills its window; the N-th makes the source severe, raises source 1 and sends a notice, which has the
severe reaction. A window of age W closes. A heartbeat that does not come in its time is reported by source 1, and its time
begins anew. Forcing, the clears and ALIVE act as given. -/
def Obligations.FaultsAreDecidedCountedAndReacted : Prop :=
  (∀ (s : State) (k : Fin 128) (g : FaultSig),
    s.islandUp .safety = true → s.sevBit k = false → s.por.forced = [] → s.srcUp k = true → s.por.same.contains k.val = false →
    s.comes s.clrComes = false →
    s.por.pulses.find? (fun p => p.src = k.val) = some g → s.bit (F.POR_SRCA.EN k) = true → s.get (F.POR_SRCA.EVR k) = 1 →
    s.bit F.POR_FIRST.VALID = false → s.get F.POR_GCFG.CAPMIN ≤ 1 → s.islandUp .memory = true → s.por.lost.contains (.irq 0) = false →
    GoesTo (exec (.faultEvent [.error k]) s) fun t =>
      t.bit F.POR_FIRST.VALID = true ∧ t.get F.POR_FIRST.SRC = k ∧ t.get F.POR_FIRST.REACT = 1 ∧ t.bit F.POR_FIRST.SEV = false ∧ t.bit F.POR_FIRST.INTEG = false
      ∧ t.get F.POR_FDET.DET = g.det % 2 ^ F.POR_FDET.DET.len ∧ t.por.countQ = s.por.countQ ++ [⟨g, false, false⟩] ∧ t.por.pulses = s.por.pulses.erase g
      ∧ t.get (F.IRT_SRC.COUNT 0) = min 15 (s.get (F.IRT_SRC.COUNT 0) + 1) ∧ t.bit F.POR_STAT.SAFE = s.bit F.POR_STAT.SAFE)
  ∧ (∀ (s : State) (k : Fin 128) (g : FaultSig),
    s.islandUp .safety = true → s.sevBit k = false → s.por.forced = [] → s.srcUp k = true → s.por.same.contains k.val = false →
    s.comes s.clrComes = false →
    s.por.pulses.find? (fun p => p.src = k.val) = some g → s.bit (F.POR_SRCA.EN k) = true → s.get (F.POR_SRCA.EVR k) = 2 → s.islandUp .memory = true →
    GoesTo (exec (.faultEvent [.error k]) s) fun t =>
      t.bit F.IRT_TRAP.PEND = true ∧ t.get F.IRT_TRAP.PSRC = k ∧ t.htrap = true ∧ t.por.countQ = s.por.countQ ++ [⟨g, false, false⟩])
  ∧ (∀ (s : State) (k : Fin 128) (g : FaultSig),
    s.islandUp .safety = true → s.sevBit k = false → s.por.forced = [] → s.srcUp k = true → s.por.same.contains k.val = false →
    s.comes s.clrComes = false →
    s.por.pulses.find? (fun p => p.src = k.val) = some g → s.bit (F.POR_SRCA.EN k) = true → s.get (F.POR_SRCA.EVR k) = 4 →
    (s.get F.POR_GCFG.RSTLIM = 0 ∨ s.get F.POR_STAT.RSTCNT < s.get F.POR_GCFG.RSTLIM) → s.safe = false →
    GoesTo (exec (.faultEvent [.error k]) s) fun t =>
      t.pcr.held = some .porter ∧ t.get F.POR_STAT.RSTCNT = satAdd (s.get F.POR_STAT.RSTCNT) 1 (2 ^ F.POR_STAT.RSTCNT.len - 1)
      ∧ (s.hal.running = none → s.hal.waiting = [] → s.wvl.load = none → t.nvs = s.nvs))
  ∧ (∀ (s : State) (k : Fin 128) (g : FaultSig),
    s.islandUp .safety = true → s.sevBit k = false → s.por.forced = [] → s.srcUp k = true → s.por.same.contains k.val = false →
    s.comes s.clrComes = false →
    s.por.pulses.find? (fun p => p.src = k.val) = some g → s.bit (F.POR_SRCA.EN k) = true → s.get (F.POR_SRCA.EVR k) = 5 →
    s.safe = false →
    GoesTo (exec (.faultEvent [.error k]) s) fun t =>
      t.safe = true ∧ t.get F.POR_STAT.SSRC = k ∧ GatesOff t ∧ t.por.alive = false ∧ (s.islandUp .memory = true → t.bit F.IRT_TRAP.PEND = true))
  ∧ (∀ (s : State) (k : Fin 128) (g : FaultSig),
    s.islandUp .safety = true → s.por.forced = [] → s.por.pulses.find? (fun p => p.src = k.val) = some g →
    s.bit (F.POR_SRCA.EN k) = false →
    GoesTo (exec (.faultEvent [.error k]) s) fun t =>
      t.regs = s.regs ∧ t.por.countQ = s.por.countQ ∧ t.por.pulses = s.por.pulses.erase g)
  ∧ (∀ (s : State) (k : Fin 128),
    s.islandUp .safety = true → s.por.forced = [] → s.por.pulses.find? (fun p => p.src = k.val) = none →
    s.por.seen.contains k.val = true →
    exec (.faultEvent [.error k]) s = .next s)
  ∧ (∀ (s : State) (k : Fin 128) (c : CountItem) (l : List CountItem),
    s.islandUp .management = true → s.comes s.sevComes = false → s.por.countQ = c :: l → c.sig.src = k.val →
    s.por.ages.find? (fun e => e.1 = k.val) = none → s.get (F.POR_CNT.WCNT k) = 0 → 1 < s.get (F.POR_SRCA.N k) →
    GoesTo (exec (.faultCount) s) fun t =>
      t.get (F.POR_CNT.TOTAL k) = satAdd (s.get (F.POR_CNT.TOTAL k)) 1 (2 ^ (F.POR_CNT.TOTAL k).len - 1) ∧ t.get (F.POR_CNT.WCNT k) = 1
      ∧ (k.val, 0) ∈ t.por.ages ∧ t.por.countQ = l ∧ t.por.sevQ = s.por.sevQ ∧ SameRegs (fun a => a = R.POR_CNT k) s t)
  ∧ (∀ (s : State) (k : Fin 128) (c : CountItem) (l : List CountItem) (a : Nat),
    s.islandUp .management = true → s.comes s.sevComes = false → s.por.countQ = c :: l → c.sig.src = k.val →
    s.por.ages.find? (fun e => e.1 = k.val) = some (k.val, a) → a < s.porW k → s.get (F.POR_CNT.WCNT k) ≠ 0 →
    s.porN k ≤ s.get (F.POR_CNT.WCNT k) + 1 → s.get (F.POR_CNT.WCNT k) < 255 → s.sevBit k = false →
    s.islandUp .memory = true → s.por.lost.contains (.irq 1) = false →
    GoesTo (exec (.faultCount) s) fun t =>
      t.get (F.POR_CNT.WCNT k) = s.get (F.POR_CNT.WCNT k) + 1 ∧ t.sevBit k = true ∧ t.por.sevQ = s.por.sevQ ++ [c] ∧ t.por.countQ = l ∧ t.get (F.IRT_SRC.COUNT 1) = min 15 (s.get (F.IRT_SRC.COUNT 1) + 1))
  ∧ (∀ (s : State) (k : Fin 128) (c : CountItem) (l : List CountItem),
    s.islandUp .safety = true → s.por.sevQ = c :: l → c.sig.src = k.val → s.get (F.POR_SRCA.SEVR k) = 1 →
    s.bit F.POR_FIRST.VALID = false → s.get F.POR_GCFG.CAPMIN ≤ 1 → s.comes s.clrComes = false → s.islandUp .memory = true →
    s.por.lost.contains (.irq 0) = false →
    GoesTo (exec (.severeNotice) s) fun t =>
      t.por.sevQ = l ∧ t.por.countQ = s.por.countQ ∧ t.bit F.POR_FIRST.SEV = true ∧ t.get F.POR_FIRST.SRC = k ∧ t.get (F.IRT_SRC.COUNT 0) = min 15 (s.get (F.IRT_SRC.COUNT 0) + 1))
  ∧ (∀ (s : State) (k : Fin 128) (a : Nat),
    s.islandUp .management = true → s.por.ages.find? (fun e => e.1 = k.val) = some (k.val, a) → s.porW k ≤ a →
    s.sevBit k = false →
    GoesTo (exec (.porterWindowClose k) s) fun t =>
      t.get (F.POR_CNT.WCNT k) = 0 ∧ t.get (F.POR_CNT.TOTAL k) = s.get (F.POR_CNT.TOTAL k) ∧ SameRegs (fun a => a = R.POR_CNT k) s t ∧ ∀ e, e ∈ t.por.ages → e.1 ≠ k)
  ∧ (∀ (s : State) (i : Fin 8) (j : Fin 16) (src : Master) (v : Word),
    s.islandUp .management = true → bitOf (s.wlActs src (R.POR_FORCE i) v) j = true →
    GoesTo (exec (.faultForce i src v) s) fun t =>
      ((16 * i.val + j.val, s.bit F.POR_FCFG) : Nat × Bool) ∈ t.por.forced ∧ t.pairAct (16 * i + j) = s.pairAct (16 * i + j))
  ∧ (∀ (s : State) (i : Fin 8) (j : Fin 16) (v : Word),
    s.islandUp .management = true → bitOf v.toNat j = true → s.sevBit (16 * i + j) = true →
    bitOf (s.setNow (R.POR_SEV i)) j = false →
    GoesTo (exec (.severeClear i v) s) fun t =>
      t.sevBit (16 * i + j) = false ∧ t.get (F.POR_CNT.WCNT (16 * i + j)) = 0 ∧ SameStores s t)
  ∧ (∀ (s : State) (src : Master),
    s.islandUp .management = true → (s.porCmd src 0x96001).1 = 1 → s.por.clrT ≠ some s.fclk →
    GoesTo (exec (.capclr src) s) fun t =>
      t.bit F.POR_FIRST.VALID = false ∧ t.bit F.POR_SECOND.SECOND = false ∧ t.get F.POR_SECOND.COUNT = 0 ∧ t.get F.POR_FIRST.SRC = s.get F.POR_FIRST.SRC)
  ∧ (∀ (s : State),
    s.islandUp .management = true →
    GoesTo (exec (.heartbeatSend) s) fun t =>
      t.por = { s.por with beat := true, beatT := s.fclk } ∧ t.regs = s.regs)
  ∧ (∀ (s : State),
    s.islandUp .safety = true → s.comes (fun c => c = .heartbeatSend) = false → s.islandUp .angle = true → s.por.beatT + s.beatTime ≤ s.fclk →
    GoesTo (exec (.heartbeatTimeout) s) fun t =>
      (t.por.pulses.any fun p => p.src = 1) = true ∧ t.por.beatT = s.fclk ∧ t.regs = s.regs)
  ∧ (∀ (s : State),
    s.islandUp .angle = true → s.fclk < s.por.beatT + s.beatTime → exec (.heartbeatTimeout) s = .next s)
  ∧ (∀ (s : State),
    s.islandUp .safety = true → s.comes (fun c => c = .heartbeatSend) = false → s.islandUp .angle = false → s.por.beat = false →
    GoesTo (exec (.heartbeatTimeout) s) fun t =>
      (t.por.pulses.any fun p => p.src = 1) = true ∧ t.regs = s.regs)
  ∧ (∀ (s : State),
    s.islandUp .safety = true → s.comes (fun c => c = .heartbeatSend) = false → s.islandUp .angle = false → s.por.beat = true →
    GoesTo (exec (.heartbeatTimeout) s) fun t =>
      t.por = { s.por with beat := false } ∧ t.regs = s.regs)
  ∧ (∀ (s : State) (rb : Bool),
    s.pcr.held = none → rb = (s.aliveOn && !s.por.alive) →
    GoesTo (exec (.aliveToggle rb) s) fun t =>
      t.por.alive = rb ∧ (t.por.stand.any fun p => p.src = 0 && p.det = 4) = false ∧ t.regs = s.regs)
  ∧ (∀ (s : State) (rb : Bool),
    s.pcr.held = none → rb ≠ (s.aliveOn && !s.por.alive) →
    GoesTo (exec (.aliveToggle rb) s) fun t =>
      t.por.alive = !rb ∧ (t.por.stand.any fun p => p.src = 0 && p.det = 4) = true ∧ t.regs = s.regs)

/-- Self-test: hall regions, NVS pages, the rotations of compare units and edge timers, late tests. A region’s march that passes
moves on and changes no hall; one that fails records hall, region and bit, sets FAIL and raises source 80; one that is
incomplete stays and counts. The next NPPT pages of NVS are read. A step takes the next role; the spare that agrees 16 FCLK
takes it over in the next and frees the unit that held it; one that does not is kept out, with sources 81 and 85. An edge timer
slot passed over is served again. A freed unit that passes is the spare; one that fails is kept out; one whose test was
incomplete is tested again. A test later than its bound sets LATE and raises source 83. -/
def Obligations.SelfTestsRunRepairAndRotate : Prop :=
  (∀ (s : State),
    s.stcOn = true → s.stc.hallT ≤ s.fclk → s.hallErr = [] → s.bit (F.HAL_OWN.PWR (s.get F.STC_MPOS.HALL)) = true →
    s.get F.STC_MPOS.REGION + 1 < 2056 →
    GoesTo (exec (.hallRegionTest .pass false) s) fun t =>
      t.get F.STC_RES.MEM = 1 ∧ t.get F.STC_MPOS.HALL = s.get F.STC_MPOS.HALL ∧ t.get F.STC_MPOS.REGION = s.get F.STC_MPOS.REGION + 1 ∧ t.stc.hallT = s.fclk + s.mint ∧ SameStores s t)
  ∧ (∀ (s : State) (b : Fin 72),
    s.stcOn = true → s.stc.hallT ≤ s.fclk → s.hallErr = [] → s.bit (F.HAL_OWN.PWR (s.get F.STC_MPOS.HALL)) = true →
    s.get F.STC_MPOS.REGION + 1 < 2056 →
    GoesTo (exec (.hallRegionTest (.fail b) false) s) fun t =>
      t.get F.STC_RES.MEM = 2 ∧ t.bit F.STC_STAT.FAIL = true ∧ t.get F.STC_MFAIL0.HALL = s.get F.STC_MPOS.HALL ∧ t.get F.STC_MFAIL0.REGION = s.get F.STC_MPOS.REGION
      ∧ t.get F.STC_MFAIL1.BIT = b.val % 2 ^ F.STC_MFAIL1.BIT.len ∧ (t.por.pulses.any fun p => p.src = 80) = true ∧ t.get F.STC_MPOS.REGION = s.get F.STC_MPOS.REGION + 1)
  ∧ (∀ (s : State),
    s.stcOn = true → s.stc.hallT ≤ s.fclk → s.hallErr = [] → s.bit (F.HAL_OWN.PWR (s.get F.STC_MPOS.HALL)) = true →
    GoesTo (exec (.hallRegionTest .incomplete false) s) fun t =>
      t.get F.STC_RES.MEM = 3 ∧ t.bit F.STC_STAT.INC = true ∧ t.get F.STC_MPOS.HALL = s.get F.STC_MPOS.HALL ∧ t.get F.STC_MPOS.REGION = s.get F.STC_MPOS.REGION
      ∧ t.get F.STC_CNT.INCOMP = satAdd (s.get F.STC_CNT.INCOMP) 1 (2 ^ F.STC_CNT.INCOMP.len - 1))
  ∧ (∀ (s : State),
    s.stcOn = true → 0 < s.stc.nvDue → s.nvBusyPage = none →
    GoesTo (exec (.nvsBackgroundRead) s) fun t =>
      t.get F.STC_NPOS = (s.get F.STC_NPOS + max 1 (s.get F.STC_PACE0.NPPT)) % 65536 ∧ t.stc.nvDue = s.stc.nvDue - 1 ∧ t.halls = s.halls)
  ∧ (∀ (s : State) (k : Nat),
    s.rotReady 2 = true → s.stc.cmpu.wait = none → s.stc.cmpu.retry = none → s.stc.cmpu.next = k →
    GoesTo (exec (.compareUnitStep) s) fun t =>
      t.stc.cmpu.wait = some k ∧ t.stc.cmpu.next = (k + 1) % 128 ∧ t.stc.cmpu.stepT = s.fclk ∧ t.stc.cmpu.nextT = s.fclk + s.cStep ∧ t.regs = s.regs)
  ∧ (∀ (s : State) (k : Nat),
    s.stcOn = true → s.stc.cmpu.wait = some k → s.stc.cmpu.stepT + 17 ≤ s.fclk →
    GoesTo (exec (.compareUnitHandover true) s) fun t =>
      t.stc.cmpu.unit = s.stc.cmpu.unit.set k (s.get F.STC_STAT.CSPU) ∧ t.stc.cmpu.freed = some (s.stc.cmpu.unit.getD k 0) ∧ t.stc.cmpu.freedT = s.fclk
      ∧ t.stc.cmpu.wait = none ∧ t.regs = s.regs)
  ∧ (∀ (s : State) (k : Nat),
    s.stcOn = true → s.stc.cmpu.wait = some k →
    GoesTo (exec (.compareUnitHandover false) s) fun t =>
      t.bit F.STC_STAT.CSPARE = false ∧ t.get F.STC_RES.CMPU = 4 ∧ t.get F.STC_UFAIL.CMPU = s.get F.STC_STAT.CSPU ∧ t.stc.cmpu.unit = s.stc.cmpu.unit ∧ t.stc.cmpu.next = k
      ∧ t.stc.cmpu.wait = none ∧ (t.por.pulses.any fun p => p.src = 81) = true ∧ (t.por.pulses.any fun p => p.src = 85) = true)
  ∧ (∀ (s : State) (u : Nat),
    s.rotReady 2 = true → s.stc.cmpu.wait = none → s.stc.cmpu.retry = some u →
    GoesTo (exec (.compareUnitStep) s) fun t =>
      t.stc.cmpu.freed = some u ∧ t.stc.cmpu.wait = none ∧ t.stc.cmpu.nextT = s.fclk + s.cStep ∧ t.regs = s.regs)
  ∧ (∀ (s : State) (u : Fin 129),
    s.stcOn = true → s.stc.cmpu.freed = some u.val → s.stc.cmpu.freedT + 2048 ≤ s.fclk →
    GoesTo (exec (.compareUnitTestDone .pass) s) fun t =>
      t.get F.STC_STAT.CSPU = u ∧ t.get F.STC_RES.CMPU = 1 ∧ t.stc.cmpu.freed = none ∧ t.bit F.STC_STAT.CSPARE = s.bit F.STC_STAT.CSPARE)
  ∧ (∀ (s : State) (u : Fin 129),
    s.stcOn = true → s.stc.cmpu.freed = some u.val → s.stc.cmpu.freedT + 2048 ≤ s.fclk →
    GoesTo (exec (.compareUnitTestDone .fail) s) fun t =>
      t.bit F.STC_STAT.CSPARE = false ∧ t.get F.STC_RES.CMPU = 2 ∧ t.get F.STC_UFAIL.CMPU = u ∧ t.stc.cmpu.freed = none ∧ t.bit F.STC_STAT.FAIL = true ∧ (t.por.pulses.any fun p => p.src = 81) = true)
  ∧ (∀ (s : State) (u : Fin 129),
    s.stcOn = true → s.stc.cmpu.freed = some u.val →
    GoesTo (exec (.compareUnitTestDone .incomplete) s) fun t =>
      t.stc.cmpu.retry = some u.val ∧ t.stc.cmpu.freed = none ∧ t.get F.STC_RES.CMPU = 3 ∧ t.bit F.STC_STAT.INC = true ∧ t.bit F.STC_STAT.CSPARE = s.bit F.STC_STAT.CSPARE)
  ∧ (∀ (s : State) (u : Nat),
    s.rotReady 3 = true → s.stc.etmr.wait = none → s.stc.etmr.retry = some u →
    GoesTo (exec (.edgeTimerStep) s) fun t =>
      t.stc.etmr.freed = some u ∧ t.stc.etmr.wait = none ∧ t.stc.etmr.nextT = s.fclk + s.tStep ∧ t.regs = s.regs)
  ∧ (∀ (s : State) (u : Fin 25),
    s.stcOn = true → s.stc.etmr.freed = some u.val → s.stc.etmr.freedT + 4096 ≤ s.fclk →
    GoesTo (exec (.edgeTimerTestDone .pass) s) fun t =>
      t.get F.STC_STAT.TSPU = u ∧ t.get F.STC_RES.ETMR = 1 ∧ t.stc.etmr.freed = none ∧ t.bit F.STC_STAT.TSPARE = s.bit F.STC_STAT.TSPARE)
  ∧ (∀ (s : State) (u : Fin 25),
    s.stcOn = true → s.stc.etmr.freed = some u.val → s.stc.etmr.freedT + 4096 ≤ s.fclk →
    GoesTo (exec (.edgeTimerTestDone .fail) s) fun t =>
      t.bit F.STC_STAT.TSPARE = false ∧ t.get F.STC_RES.ETMR = 2 ∧ t.get F.STC_UFAIL.ETMR = u ∧ t.stc.etmr.freed = none ∧ t.bit F.STC_STAT.FAIL = true ∧ (t.por.pulses.any fun p => p.src = 82) = true)
  ∧ (∀ (s : State) (u : Fin 25),
    s.stcOn = true → s.stc.etmr.freed = some u.val →
    GoesTo (exec (.edgeTimerTestDone .incomplete) s) fun t =>
      t.stc.etmr.retry = some u.val ∧ t.stc.etmr.freed = none ∧ t.get F.STC_RES.ETMR = 3 ∧ t.bit F.STC_STAT.INC = true ∧ t.bit F.STC_STAT.TSPARE = s.bit F.STC_STAT.TSPARE)
  ∧ (∀ (s : State) (k : Nat),
    s.rotReady 3 = true → s.stc.etmr.wait = none → s.stc.etmr.retry = none → s.stc.etmr.again = [] → s.stc.etmr.next = k →
    GoesTo (exec (.edgeTimerStep) s) fun t =>
      t.stc.etmr.wait = some k ∧ t.stc.etmr.next = (k + 1) % 24 ∧ t.stc.etmr.nextT = s.fclk + s.tStep ∧ t.regs = s.regs)
  ∧ (∀ (s : State) (k : Nat) (n : Nat),
    s.rotReady 3 = true → s.stc.etmr.wait = some k → s.stc.etmr.again = [] → s.stc.etmr.next = n →
    GoesTo (exec (.edgeTimerStep) s) fun t =>
      t.stc.etmr.wait = some n ∧ t.stc.etmr.again = [k] ∧ t.regs = s.regs)
  ∧ (∀ (s : State) (k : Nat),
    s.stcOn = true → s.stc.etmr.wait = some k → s.timersBusy < 24 →
    GoesTo (exec (.edgeTimerSlotFree) s) fun t =>
      t.stc.etmr.unit = s.stc.etmr.unit.set k (s.get F.STC_STAT.TSPU) ∧ t.stc.etmr.freed = some (s.stc.etmr.unit.getD k 0) ∧ t.stc.etmr.wait = none ∧ t.regs = s.regs)
  ∧ (∀ (s : State) (k : Fin 5) (e : Nat × Nat),
    s.stcOn = true → (s.stcTimes k).find? (fun e => decide (e.2 + stcBound k < s.fclk)) = some e →
    GoesTo (exec (.testIntervalLate k) s) fun t =>
      t.bit F.STC_STAT.LATE = true ∧ (t.por.pulses.any fun p => p.src = 83) = true ∧ SameStores s t)

/-- CAN: frames received, sent, requested, withdrawn, the object view, errors, bus-off and recovery. A frame received without
error goes to the lowest valid receive object that it matches: its data bytes, status and stamp stand there and NEW sets, no other
object changes; one that matches none, or is a remote frame, changes no object. A request sets the bit of a valid transmit object;
a frame sent clears it and lowers TEC; a withdrawn request clears, or waits for its frame on the bus; a frame that lost
arbitration is sent again, with DAR not. OSEL brings an object to the view, OWR copies it back, or is rejected when that object’s
request is pending. Errors set LEC and raise the counters; above 255 the controller is bus-off; RECOVER lets it count, and
recovery clears the counters. -/
def Obligations.CanFramesObjectsAndErrors : Prop :=
  (∀ (s : State) (x : Fin 2) (o : Fin 32) (f : CanFrame),
    s.canLive x = true → (f.fdf = false ∨ s.bit (F.CAN_CFG.FDEN x) = true) → f.rtr = false → s.canMatch x f = some o.val →
    GoesTo (exec (.canFrameReceive x f) s) fun t =>
      (t.canObj x o).data = (f.data ++ List.replicate 64 0).take (dlcBytes f.fdf f.dlc.toNat) ++ (s.canObj x o).data.drop (dlcBytes f.fdf f.dlc.toNat)
      ∧ (t.canObj x o).stat = f.dlc.toNat + 16 * b2n f.fdf + 32 * b2n f.brs + 64 * b2n f.esi ∧ (t.canObj x o).ots = s.tb.toNat % 2 ^ 20
      ∧ bitOf (t.get (F.CAN_NEW x (o / 16))) (o % 16) = true ∧ ∀ q, q ≠ o.val → t.canObj x q = s.canObj x q)
  ∧ (∀ (s : State) (x : Fin 2) (f : CanFrame),
    s.canLive x = true → (f.rtr = true ∨ s.canMatch x f = none) →
    GoesTo (exec (.canFrameReceive x f) s) fun t =>
      ∀ q, t.canObj x q = s.canObj x q)
  ∧ (∀ (s : State) (x : Fin 2) (o : Fin 32),
    s.canSends x = true → s.canOnBus x = some o.val → s.bit (F.CAN_CFG.LBACK x) = false →
    GoesTo (exec (.canFrameSent x) s) fun t =>
      t.canPend x o = false ∧ (t.getCan x).tec = (s.getCan x).tec - 1 ∧ (t.getCan x).bus = none ∧ (t.getCan x).objs = (s.getCan x).objs)
  ∧ (∀ (s : State) (x : Fin 2) (o : Fin 32) (m : BitVec 32),
    s.canUp x = true → bitOf m.toNat o = true → (s.canObj x o).valid = true → (s.canObj x o).tx = true →
    GoesTo (exec (.canTxRequest x m) s) fun t =>
      t.canPend x o = true ∧ t.can = s.can)
  ∧ (∀ (s : State) (x : Fin 2) (o : Fin 32) (m : BitVec 32),
    s.canUp x = true → ((s.canObj x o).valid = false ∨ (s.canObj x o).tx = false) →
    GoesTo (exec (.canTxRequest x m) s) fun t =>
      t.canPend x o = s.canPend x o ∧ t.can = s.can)
  ∧ (∀ (s : State) (x : Fin 2) (o : Fin 32) (m : BitVec 32) (b : Option (Fin 32)),
    s.canUp x = true → bitOf m.toNat o = true → b ≠ some o →
    GoesTo (exec (.canTxAbort x m b) s) fun t =>
      t.canPend x o = false ∧ (t.getCan x).objs = (s.getCan x).objs)
  ∧ (∀ (s : State) (x : Fin 2) (o : Fin 32) (m : BitVec 32),
    s.canUp x = true → bitOf m.toNat o = true → s.canPend x o = true →
    GoesTo (exec (.canTxAbort x m (some o)) s) fun t =>
      t.canPend x o = true ∧ (t.getCan x).bus = some o.val)
  ∧ (∀ (s : State) (x : Fin 2) (o : Nat),
    s.canSends x = true → s.canOnBus x = some o → (s.getCan x).bus = none → s.bit (F.CAN_CFG.DAR x) = false →
    GoesTo (exec (.canArbitrationLost x) s) fun t =>
      t.regs = s.regs ∧ t.canOnBus x = some o)
  ∧ (∀ (s : State) (x : Fin 2) (o : Fin 32),
    s.canSends x = true → s.canOnBus x = some o.val → s.bit (F.CAN_CFG.DAR x) = true →
    GoesTo (exec (.canArbitrationLost x) s) fun t =>
      t.canPend x o = false ∧ (t.getCan x).bus = none)
  ∧ (∀ (s : State) (x : Fin 2) (o : Fin 32),
    s.canUp x = true →
    GoesTo (exec (.canObjectSelect x o) s) fun t =>
      t.get (F.CAN_OSEL x) = o ∧ t.reg (R.CAN_OCFG x) = BitVec.ofNat 20 (s.canObj x o).cfg ∧ t.get (F.CAN_OIDLO x) = (s.canObj x o).id % 2 ^ 16
      ∧ t.get (F.CAN_OIDHI x) = (s.canObj x o).id / 2 ^ 16 % 2 ^ (F.CAN_OIDHI x).len ∧ (∀ k : Fin 32, t.get (F.CAN_ODATA x k) = leAt (s.canObj x o).data (2 * k) 2) ∧ t.can = s.can)
  ∧ (∀ (s : State) (x : Fin 2) (o : Fin 32),
    s.canUp x = true → s.get (F.CAN_OSEL x) = o.val → (s.getCan x).objs.length = 32 →
    ((s.canObj x o).tx = false ∨ s.canPend x o = false) →
    GoesTo (exec (.canObjectWrite x) s) fun t =>
      t.canObj x o = s.canView x ∧ (∀ q, q ≠ o.val → t.canObj x q = s.canObj x q) ∧ t.regs = s.regs)
  ∧ (∀ (s : State) (x : Fin 2) (o : Fin 32),
    s.canUp x = true → s.get (F.CAN_OSEL x) = o.val → (s.canObj x o).tx = true → s.canPend x o = true →
    GoesTo (exec (.canObjectWrite x) s) fun t =>
      t.bit (F.CAN_STAT.OWREJ x) = true ∧ t.can = s.can)
  ∧ (∀ (s : State) (x : Fin 2) (l : Fin 6),
    s.canLive x = true → s.bit (F.CAN_CFG.MON x) = false → s.bit (F.CAN_CFG.EN x) = true → (s.getCan x).off = false →
    GoesTo (exec (.canBusError x true true l) s) fun t =>
      t.get (F.CAN_ERRCNT.LEC x) = l + 1 ∧ (t.getCan x).tec = (s.getCan x).tec + 8 ∧ (255 < (s.getCan x).tec + 8 → t.get (F.CAN_STAT.STATE x) = 2))
  ∧ (∀ (s : State) (x : Fin 2) (l : Fin 6) (g : Bool),
    s.canLive x = true →
    GoesTo (exec (.canBusError x false g l) s) fun t =>
      t.get (F.CAN_ERRCNT.LEC x) = l + 1 ∧ (t.getCan x).rec_ = min 255 ((s.getCan x).rec_ + if g then 8 else 1) ∧ (t.getCan x).tec = (s.getCan x).tec)
  ∧ (∀ (s : State) (x : Fin 2),
    s.canUp x = true → s.get (F.CAN_STAT.STATE x) = 2 →
    GoesTo (exec (.canRecover x) s) fun t =>
      t.getCan x = { s.getCan x with counting := true } ∧ t.regs = s.regs)
  ∧ (∀ (s : State) (x : Fin 2),
    s.canUp x = true → s.get (F.CAN_STAT.STATE x) = 2 → (s.bit (F.CAN_CFG.ABOR x) = true ∨ (s.getCan x).counting = true) →
    s.bit (F.CAN_CFG.EN x) = true →
    GoesTo (exec (.canBusOffRecovery x) s) fun t =>
      t.get (F.CAN_STAT.STATE x) = 0 ∧ t.get (F.CAN_ERRCNT.TEC x) = 0 ∧ t.get (F.CAN_ERRCNT.REC x) = 0 ∧ (t.getCan x).off = false ∧ (t.getCan x).objs = (s.getCan x).objs)

/-- SENT: fast frames, slow messages, rejections and silence. A fast frame that passes every check gives its channels, status
nibble and tick to the registers, and is the last one accepted. A frame that fails a check changes none of these; it gives its
cause, is counted and reported by source 93. The frame that completes a slow message whose CRC is right gives its identifier,
kind and data; one whose CRC is wrong is rejected with cause 6 and source 94. SILTO milliseconds without an accepted frame, nor
one in the FCLK of that limit, give cause 7 and source 95. -/
def Obligations.SentFramesAreCheckedAndTaken : Prop :=
  (∀ (s : State) (r : Fin 8) (p : SentPulses) (v : List Nat) (l : List Nat),
    s.sentUp r = true → s.sentCheck r p = 0 → v = (p.nibs.map fun n => (nibValue p.cal n).toNat) →
    slowNext (s.get (F.SENT_CFG2.SLOW r)) (s.getSent r).slow (v.headD 0) = (l, false) →
    GoesTo (exec (.sentFrameEnd r p) s) fun t =>
      t.get (F.SENT_CH1 r) = (sentChannels (s.get (F.SENT_CFG.FMT r)) (v.drop 1).dropLast).1 % 2 ^ 20
      ∧ t.get (F.SENT_CH2 r) = (sentChannels (s.get (F.SENT_CFG.FMT r)) (v.drop 1).dropLast).2 % 2 ^ (F.SENT_CH2 r).len
      ∧ t.get (F.SENT_STATUS r) = v.headD 0 % 2 ^ (F.SENT_STATUS r).len ∧ t.get (F.SENT_TICK r) = min (10 * p.cal / 168) 0xFFFFF
      ∧ (t.getSent r).accT = s.fclk ∧ (t.getSent r).cal = some p.cal ∧ (t.getSent r).slow = l ∧ t.get (F.SENT_ERR.COUNT r) = s.get (F.SENT_ERR.COUNT r))
  ∧ (∀ (s : State) (r : Fin 8) (p : SentPulses) (k : Fin 8),
    s.sentUp r = true → s.sentCheck r p = k.val → k.val ≠ 0 →
    GoesTo (exec (.sentFrameEnd r p) s) fun t =>
      t.get (F.SENT_ERR.LASTC r) = k ∧ t.get (F.SENT_ERR.COUNT r) = satAdd (s.get (F.SENT_ERR.COUNT r)) 1 (2 ^ ((F.SENT_ERR.COUNT r)).len - 1) ∧ (t.por.pulses.any fun p => p.src = 93) = true
      ∧ t.get (F.SENT_CH1 r) = s.get (F.SENT_CH1 r) ∧ (t.getSent r).accT = (s.getSent r).accT ∧ (t.getSent r).slow = [])
  ∧ (∀ (s : State) (r : Fin 8) (p : SentPulses) (v : List Nat) (l : List Nat) (id : Fin 256) (d : Nat) (k : Fin 4),
    s.sentUp r = true → s.sentCheck r p = 0 → v = (p.nibs.map fun n => (nibValue p.cal n).toNat) →
    slowNext (s.get (F.SENT_CFG2.SLOW r)) (s.getSent r).slow (v.headD 0) = (l, true) →
    slowParse (s.bit (F.SENT_CFG.LEGACY r)) l = (id.val, d, k.val, true) →
    GoesTo (exec (.sentFrameEnd r p) s) fun t =>
      t.get (F.SENT_SMSG r) = d % 2 ^ (F.SENT_SMSG r).len ∧ t.get (F.SENT_SMID.ID r) = id ∧ t.get (F.SENT_SMID.KIND r) = k ∧ (t.getSent r).slow = [] ∧ (t.getSent r).accT = s.fclk)
  ∧ (∀ (s : State) (r : Fin 8) (p : SentPulses) (v : List Nat) (l : List Nat) (id : Nat) (d : Nat) (k : Nat),
    s.sentUp r = true → s.sentCheck r p = 0 → v = (p.nibs.map fun n => (nibValue p.cal n).toNat) →
    slowNext (s.get (F.SENT_CFG2.SLOW r)) (s.getSent r).slow (v.headD 0) = (l, true) →
    slowParse (s.bit (F.SENT_CFG.LEGACY r)) l = (id, d, k, false) →
    GoesTo (exec (.sentFrameEnd r p) s) fun t =>
      t.get (F.SENT_ERR.LASTC r) = 6 ∧ t.get (F.SENT_ERR.COUNT r) = satAdd (s.get (F.SENT_ERR.COUNT r)) 1 (2 ^ ((F.SENT_ERR.COUNT r)).len - 1) ∧ (t.por.pulses.any fun p => p.src = 94) = true ∧ t.get (F.SENT_SMSG r) = s.get (F.SENT_SMSG r) ∧ (t.getSent r).slow = [])
  ∧ (∀ (s : State) (r : Fin 8),
    s.sentUp r = true → s.get (F.SENT_CFG2.SILTO r) ≠ 0 → (s.getSent r).silent = false →
    (s.getSent r).accT + 400000 * s.get (F.SENT_CFG2.SILTO r) ≤ s.fclk →
    s.comes (s.sentComes r) = false →
    GoesTo (exec (.sentSilence r) s) fun t =>
      t.get (F.SENT_ERR.LASTC r) = 7 ∧ t.get (F.SENT_ERR.COUNT r) = satAdd (s.get (F.SENT_ERR.COUNT r)) 1 (2 ^ ((F.SENT_ERR.COUNT r)).len - 1) ∧ (t.por.pulses.any fun p => p.src = 95) = true ∧ (t.getSent r).silent = true ∧ t.get (F.SENT_CH1 r) = s.get (F.SENT_CH1 r))

/-- Needle commands change registers of BED, INJ, interrupts and the reject record, and no other state than needles, injectors,
findings, the read word. Every command of the needles goes on in every state. It changes no register outside the blocks WVL (its
reject record), INJ, BED, and HOST and IRT, and no part of the state but the registers, the needles, the injector pads’
bookkeeping, the Porter’s findings, the word read, and the record of what events set in this clock. In particular no store, no
clock, no timer, no tracker and no stitch changes. -/
def Obligations.NeedleCommandsKeepTheRest : Prop :=
  (∀ (c : Instr) (s : State), needleCommand c = true → GoesTo (exec c s) fun t =>
      t = { s with regs := t.regs, ndl := t.ndl, inj := t.inj, por := t.por, rd := t.rd, marks := t.marks }
      ∧ RegsIn [(0x800, 0x1000), (0x3000, 0x3400), (0x4000, 0x4800), (0x6400, 0x6800)] s t)

/-- Timer commands change TMR and interrupt registers, and no state but timers, HOOK and window starts; a slew of TB changes TB
and its ticks, and what the end of an FCLK brings. Every command of the timers goes on in every state. It changes no register
outside WVL (its reject record), TMR and HOST and IRT, and no part of the state but registers, timers and the writes that wait
at them, the requests that a compare sends to HOOK and to windows, findings, the word read and the record of what events set in
this clock. A slew of TB also lets an FCLK pass, with what the blocks do at its end: it changes no register outside SU and
STITCH, CHT, HAL, HOST and IRT, and POR; where nothing is under way in those blocks it changes no register, and FCLK, TB with
its ticks due and its corrections, and the pads’ record alone. -/
def Obligations.TimerCommandsKeepTheRest : Prop :=
  (∀ (c : Instr) (s : State), timerCommand c = true → GoesTo (exec c s) fun t =>
      t = { s with regs := t.regs, tmr := t.tmr, tmrActs := t.tmrActs, hook := t.hook, cmp := t.cmp, por := t.por, rd := t.rd, marks := t.marks }
      ∧ RegsIn [(0x800, 0x1000), (0x4C00, 0x5000), (0x6400, 0x6800)] s t)
  ∧ (∀ (fast : Bool) (s : State), GoesTo (exec (.tbSlew fast) s) fun t =>
      t = { s with regs := t.regs, fclk := t.fclk, tb := t.tb, mtDue := t.mtDue, wrapDue := t.wrapDue, syncDue := t.syncDue, tick10 := t.tick10, corr := t.corr, slewT := t.slewT, tbLog := t.tbLog, marks := t.marks, pins := t.pins, halls := t.halls, hallErr := t.hallErr, hal := t.hal, inj := t.inj, cht := t.cht, hook := t.hook, gal := t.gal, irt := t.irt, por := t.por }
      ∧ RegsIn [(0x2000, 0x2800), (0x3400, 0x3800), (0x5000, 0x5400), (0x6400, 0x6800), (0x7000, 0x7400)] s t)
  ∧ (∀ (fast : Bool) (s : State), NothingUnderWay s → GoesTo (exec (.tbSlew fast) s) fun t =>
      t = { s with fclk := t.fclk, tb := t.tb, mtDue := t.mtDue, wrapDue := t.wrapDue, syncDue := t.syncDue, tick10 := t.tick10, corr := t.corr, slewT := t.slewT, tbLog := t.tbLog, pins := t.pins })

/-- Tracker, tread and stitch commands change STAIR, SU, stitch, variable and interrupt registers only, and no store, needle,
timer or link. Every command of the trackers, treads and beacons goes on, and changes no register outside WVL (its reject
record), STAIR, SU, the stitch sets and status, CHT and IRT; of the other state only the wheel inputs, trackers, stitches with
the scan position and the actions that wait there, variables’ and gauge queues, geometry saves, beacons and findings. A command
of the stitches changes no register outside WVL, SU, stitches and IRT, and of the other state only stitches, the path from the
chart engine, the scan position, the actions that wait, and findings. Both may add to the record of what events set in this
clock. -/
def Obligations.StairAndStitchCommandsKeepTheRest : Prop :=
  (∀ (c : Instr) (s : State), stairCommand c = true → GoesTo (exec c s) fun t =>
      t = { s with regs := t.regs, trk := t.trk, stitch := t.stitch, cht := t.cht, gau := t.gau, hal := t.hal, bcnIn := t.bcnIn, bcnOut := t.bcnOut, por := t.por, marks := t.marks, inp := t.inp, suActs := t.suActs, suPos := t.suPos, suT := t.suT }
      ∧ RegsIn [(0x800, 0x1000), (0x1000, 0x2800), (0x3400, 0x3800), (0x6400, 0x6800)] s t)
  ∧ (∀ (c : Instr) (s : State), stitchCommand c = true → GoesTo (exec c s) fun t =>
      t = { s with regs := t.regs, stitch := t.stitch, suPath := t.suPath, suPos := t.suPos, suActs := t.suActs, suT := t.suT, por := t.por, marks := t.marks }
      ∧ RegsIn [(0x800, 0x1000), (0x2000, 0x2800), (0x6400, 0x6800)] s t)

/-- Injector and pad commands change INJ, pad and interrupt registers only, and no store, needle, stitch occurrence or timer.
Every command of the injector channels and of the pads’ readback goes on, and changes no register outside PCR (its lockout
bits), the stitch flags, EO, INJ, the selection of a comparator and IRT; of the other state only the injector banks, findings,
the counter behind free values, and the record of what events set in this clock. -/
def Obligations.InjectorCommandsKeepTheRest : Prop :=
  (∀ (c : Instr) (s : State), injectorCommand c = true → GoesTo (exec c s) fun t =>
      t = { s with regs := t.regs, inj := t.inj, por := t.por, freeCtr := t.freeCtr, marks := t.marks }
      ∧ RegsIn [(0x400, 0x800), (0x2000, 0x3400), (0x4800, 0x4C00), (0x6400, 0x6800)] s t)

/-- Variable and recipe commands that read no hall change CHT and interrupt registers only, and no store. Every command of the
variables, and every recipe step that reads no hall, goes on, and changes no register outside CHT and IRT; of the other state
only the chart engine, the path to the stitch unit, findings, and the record of what events set in this clock. -/
def Obligations.ChartCommandsKeepTheRest : Prop :=
  (∀ (c : Instr) (s : State), chartCommand c = true → GoesTo (exec c s) fun t =>
      t = { s with regs := t.regs, cht := t.cht, suPath := t.suPath, por := t.por, marks := t.marks }
      ∧ RegsIn [(0x3400, 0x3800), (0x6400, 0x6800)] s t)

/-- Comparator, window and ladder commands change CMP, STC and interrupt registers and the reject record only. Every command of
the comparators, of the windows without a chip reset, and of the ladder without a forced hand-over goes on, and changes no
register outside WVL (its reject record), CMP, IRT and STC; of the other state only the windows and the ladder, the self-test’s
counts, findings, the counter behind free values, and the record of what events set in this clock. -/
def Obligations.WindowCommandsKeepTheRest : Prop :=
  (∀ (c : Instr) (s : State), windowCommand c = true → GoesTo (exec c s) fun t =>
      t = { s with regs := t.regs, cmp := t.cmp, por := t.por, stc := t.stc, freeCtr := t.freeCtr, marks := t.marks }
      ∧ RegsIn [(0x800, 0x1000), (0x4800, 0x4C00), (0x6400, 0x6800), (0x7400, 0x7800)] s t)

/-- HOOK commands that reach no other block, and requests of an owner or an NVS write, change no byte of any store. Every
command of the HOOK channels that itself reaches no other block goes on, and changes no register outside WVL (its reject
record), HOOK and IRT; of the other state only the channels, AWO’s outgoing words, findings, the counter behind free values and
the record of what events set in this clock. A burst’s time-out with no byte written, or of a CMP, changes the same registers,
and no AWO word. The MT tick of the budgets changes HOOK registers and channels; with a BUDGET section pending also what its
application changes: the image’s state, WVL, IRT and TRU registers, and trust’s and the store’s queues. A request for a hall’s
owner, an NVS write, its start, or a log entry changes no register outside WVL and HAL, and of the other state only the store’s
queues and that record: no byte of a hall or of NVS changes. -/
def Obligations.HookAndStoreRequestsKeepTheRest : Prop :=
  (∀ (c : Instr) (s : State), hookCommand c = true → GoesTo (exec c s) fun t =>
      t = { s with regs := t.regs, hook := t.hook, gau := t.gau, por := t.por, freeCtr := t.freeCtr, marks := t.marks }
      ∧ RegsIn [(0x800, 0x1000), (0x5400, 0x6000), (0x6400, 0x6800)] s t)
  ∧ (∀ (c : Fin 16) (wr : Fin 65) (s : State), wr.val = 0 ∨ ((s.getHk c).burst.head?.any fun b => dOp b.words = 2) = true → GoesTo (exec (.burstTimeout c wr) s) fun t =>
      t = { s with regs := t.regs, hook := t.hook, por := t.por, freeCtr := t.freeCtr, marks := t.marks }
      ∧ RegsIn [(0x800, 0x1000), (0x5400, 0x6000), (0x6400, 0x6800)] s t)
  ∧ (∀ s : State, GoesTo (exec .hookBudgetReset s) fun t =>
      t = { s with regs := t.regs, hook := t.hook, wvl := t.wvl, tru := t.tru, hal := t.hal, por := t.por, marks := t.marks }
      ∧ RegsIn [(0x800, 0x1000), (0x5400, 0x6000), (0x6400, 0x7000)] s t)
  ∧ (∀ s : State, (s.wvl.hot.any fun e => e.1 = 0x88) = false → GoesTo (exec .hookBudgetReset s) fun t =>
      t = { s with regs := t.regs, hook := t.hook } ∧ RegsIn [(0x5400, 0x6000)] s t)
  ∧ (∀ (c : Instr) (s : State), storeRequest c = true → GoesTo (exec c s) fun t =>
      t = { s with regs := t.regs, hal := t.hal, marks := t.marks }
      ∧ RegsIn [(0x800, 0x1000), (0x5000, 0x5400)] s t)

/-- Gallery and interrupt router commands change GAL, HOST, IRT, boot step and TB registers only, and no store. Every command of
the Gallery that carries out no request of another bay and resets nothing goes on, and changes no register outside PCR, TB, GAL
and HOST and IRT; of the other state only the Gallery, the router, the host port’s request, received beacons and stream words,
TB and its ticks, findings, the counter behind free values and the record of what events set in this clock. A command of the
interrupt router changes no register outside HOST and IRT, and of the other state only the router, the host port’s request, the
Gallery, findings and that record. -/
def Obligations.RingAndRouterCommandsKeepTheRest : Prop :=
  (∀ (c : Instr) (s : State), ringCommand c = true → GoesTo (exec c s) fun t =>
      t = { s with regs := t.regs, gal := t.gal, irt := t.irt, host := t.host, gau := t.gau, bcnIn := t.bcnIn, bcnOut := t.bcnOut, por := t.por, freeCtr := t.freeCtr, tb := t.tb, mtDue := t.mtDue, wrapDue := t.wrapDue, syncDue := t.syncDue, tick10 := t.tick10, corr := t.corr, tbLog := t.tbLog, marks := t.marks }
      ∧ RegsIn [(0x400, 0x800), (0x4C80, 0x4C84), (0x6000, 0x6800)] s t)
  ∧ (∀ (c : Instr) (s : State), routerCommand c = true → GoesTo (exec c s) fun t =>
      t = { s with regs := t.regs, irt := t.irt, host := t.host, gal := t.gal, por := t.por, marks := t.marks }
      ∧ RegsIn [(0x6400, 0x6800)] s t)

/-- Trust, Porter and power commands that reset nothing change their own and interrupt registers only, and no store. Every
command of trust goes on, and changes no register outside WVL, IRT and TRU, and no byte of a store: what it writes is asked for.
Every command of the Porter that reacts to nothing changes no register outside WVL (its reject record), IRT and POR, and of the
other state only the Porter’s and the record of what events set in this clock. Every command of power and clocks that resets
nothing changes no register outside PCR, IRT and POR. -/
def Obligations.TrustPorterAndPowerCommandsKeepTheRest : Prop :=
  (∀ (c : Instr) (s : State), trustCommand c = true → GoesTo (exec c s) fun t =>
      t = { s with regs := t.regs, tru := t.tru, hal := t.hal, gal := t.gal, por := t.por, freeCtr := t.freeCtr, marks := t.marks }
      ∧ RegsIn [(0x800, 0x1000), (0x6400, 0x7000)] s t)
  ∧ (∀ (c : Instr) (s : State), porterCommand c = true → GoesTo (exec c s) fun t =>
      t = { s with regs := t.regs, por := t.por, marks := t.marks }
      ∧ RegsIn [(0x800, 0x1000), (0x6400, 0x6800), (0x7000, 0x7400)] s t)
  ∧ (∀ (c : Instr) (s : State), powerCommand c = true → GoesTo (exec c s) fun t =>
      t = { s with regs := t.regs, pcr := t.pcr, por := t.por, marks := t.marks }
      ∧ RegsIn [(0x400, 0x800), (0x6400, 0x6800), (0x7000, 0x7400)] s t)

/-- Self-test rotations and link commands change STC, CAN, SENT, variable and interrupt registers only, and no store. Every
command of the compare unit and edge timer rotations goes on, and changes no register outside IRT and STC, and of the other
state only the self-test, the ladder’s times, findings and the record of what events set in this clock. Every command of the CAN
controllers and SENT receivers changes no register outside CHT (the variables fed), IRT, CAN and SENT. -/
def Obligations.SelfTestAndLinkCommandsKeepTheRest : Prop :=
  (∀ (c : Instr) (s : State), rotationCommand c = true → GoesTo (exec c s) fun t =>
      t = { s with regs := t.regs, stc := t.stc, cmp := t.cmp, por := t.por, marks := t.marks }
      ∧ RegsIn [(0x6400, 0x6800), (0x7400, 0x7800)] s t)
  ∧ (∀ (c : Instr) (s : State), linkCommand c = true → GoesTo (exec c s) fun t =>
      t = { s with regs := t.regs, can := t.can, sent := t.sent, por := t.por, freeCtr := t.freeCtr, marks := t.marks }
      ∧ RegsIn [(0x3400, 0x3800), (0x6400, 0x6800), (0x7800, 0x8000)] s t)

/-- A command of one needle changes no other needle and no register of one. An instruction, a start, a stop, an access of the
queues or of NPC, or a stall timeout of needle m leaves every other needle k as it was: its program counter, queues and pins, and
each of its twelve registers. -/
def Obligations.ANeedleCommandKeepsOtherNeedles : Prop :=
  ∀ (m k : Fin 16) (np : BitVec 32) (src : Master) (p : BitVec 6) (v : Word) (c : Instr) (s : State), m ≠ k →
    c ∈ [.needleSet m, .needleMov m np, .needleJmp m np, .needleWait m np, .needleIn m np, .needleOut m, .needlePush m, .needlePull m,
      .needleFlag m, .needleBadop m, .needleStart m src, .needleStop m src, .needlePcWrite m p, .needleTxWrite m v, .needleRxRead m,
      .needleStallTimeout m] →
    GoesTo (exec c s) fun t => t.getNdl k = s.getNdl k ∧ ∀ i : Fin 16, t.reg (R.BED_NCFG k + i) = s.reg (R.BED_NCFG k + i)

/-- An event line is high in an FCLK exactly when a stitch routed to it is within its pulse. Line l is high in FCLK f exactly when
some stitch that drives line l has started its pulse by f and not ended it; else it is low. Any number of stitches may do so. -/
def Obligations.EventLinesAreHighInAPulse : Prop :=
  ∀ (s : State) (l f : Nat),
    s.lineAt l f = true ↔ ∃ n : Fin 128, (s.getSt n).lineNo = l ∧ (s.getSt n).startT ≤ f ∧ f < (s.getSt n).endT

/-- In safe state and under gate lockout no gate conducts; in safe state EO and NP pins take their safe levels and ALIVE is low.
In safe state, and under gate lockout, no injector or bank gate is on. In safe state each EO pin drives its SAFE level whatever
EN and SRC say, once the image is applied, before which it drives nothing; each NP pin drives the safe level that the image
gives it, whatever its needle’s state, or nothing; ALIVE is low. -/
def Obligations.SafeStateHoldsTheOutputs : Prop :=
  (∀ s : State, s.safe = true ∨ s.lockout = true → GatesOff s)
  ∧ (∀ (s : State) (n : Nat), s.safe = true → s.eoPin n = if s.applied then driveOf (s.bit (F.EO_CFG.SAFE n)) else .hiZ)
  ∧ (∀ (s : State) (n : Nat), s.safe = true → s.applied = true →
    s.npPin n = match s.npSafe n with | some b => driveOf b | none => .hiZ)
  ∧ ∀ s : State, s.safe = true → s.alivePin = .low

/-- HTRAP is low while PEND is 1; a trap reaction sets PEND, a write of 1 clears it, nothing masks it; both pins are high in
reset. While the part runs, HTRAP is low exactly when IRT_TRAP.PEND is 1, whatever else the state holds. A finding whose
reaction is TRAP sets PEND while the memory island, whose register it is, runs. A write of 1, in a clock in which no reaction
has set it, clears PEND, and HTRAP is then high. While a reset is held, HIRQ and HTRAP are high. -/
def Obligations.HtrapFollowsPend : Prop :=
  (∀ s : State, s.running = true → (s.htrapPin = .low ↔ s.bit F.IRT_TRAP.PEND = true) ∧ (s.htrapPin = .high ↔ s.bit F.IRT_TRAP.PEND = false))
  ∧ (∀ (s : State) (k : Fin 128) (g : FaultSig),
    s.islandUp .safety = true → s.sevBit k = false → s.por.forced = [] → s.srcUp k = true → s.por.pulses.find? (fun p => p.src = k.val) = some g →
    s.bit (F.POR_SRCA.EN k) = true → s.get (F.POR_SRCA.EVR k) = 2 → s.por.same.contains k.val = false → s.islandUp .memory = true →
    GoesTo (exec (.faultEvent [.error k]) s) fun t => t.bit F.IRT_TRAP.PEND = true)
  ∧ (∀ s : State, s.irtUp = true → bitOf (s.setNow R.IRT_TRAP) 0 = false → GoesTo (exec .trapClear s) fun t => t.bit F.IRT_TRAP.PEND = false ∧ t.htrapPin = .high)
  ∧ ∀ s : State, s.pcr.held.isSome = true → s.hirqPin = .high ∧ s.htrapPin = .high

/-- A RESET frame taken with 0x5A starts a Gallery reset 1 µs after it acts, having passed on; another is discarded. A RESET
frame for all whose tag and sequence value are right waits to act and, the lanes being free, has been passed on with HOPS one
higher. With payload byte 0 at 0x5A it acts: 400 FCLK later the bay’s Gallery reset is held, and not before. With any other
payload it is discarded. -/
def Obligations.GalleryResetsComeFromTakenFrames : Prop :=
  (∀ (s : State) (rd : Bool) (ws : List (BitVec 20)) (f : Frame) (k : List Byte), s.galUp = true → laneFrame rd ws = some f →
    s.lanesFree = true → frLenOk f = true → f.hops.toNat < 63 → f.kind = 14 → f.dst = 63 → s.member = true →
    s.bay ≠ 0 → f.src.toNat ≠ s.bay → s.gal.sk = some k → f.tag = frTag f k → s.gal.lastSeq.find? (fun e => e.1 = f.src.toNat) = none →
    GoesTo (exec (.frameReceive rd ws) s) fun t =>
      t.gal.rx = s.gal.rx ++ [⟨f, s.tb.toNat, true, false⟩] ∧ t.gal.outP = some { f with hops := f.hops + 1 }
      ∧ t.gal.outC = some { f with hops := f.hops + 1 })
  ∧ (∀ (s : State) (r : RxFrame), s.galUp = true → s.rxFirst (fun r => r.act && r.f.kind = 14) = some r →
    GoesTo (exec .resetFrame s) fun t =>
      t.gal = { s.gal with rx := s.gal.rx.erase r, resetT := if leAt r.f.payload 0 1 = 0x5A then some s.fclk else s.gal.resetT })
  ∧ (∀ (s : State) (f : Nat), s.galUp = true → s.gal.resetT = some f → f + 400 ≤ s.fclk →
    GoesTo (exec .galleryReset s) fun t => t.pcr.held = some .gallery)
  ∧ ∀ (s : State) (f : Nat), s.gal.resetT = some f → s.fclk < f + 400 → exec .galleryReset s = .next s

/-- A step takes the command at the front of the queue and runs it with the queue’s rest. For every command c and state s, a step
of s with c at the front of its queue is exec of c on s with the queue’s rest. (The queue is the model’s interface; see the
assumption log, entry 1.) -/
def Obligations.AStepRunsTheFrontCommand : Prop :=
  ∀ (s : State) (c : Instr),
    step (s.withFront c) = exec c s ∧ ∀ l, s.pending = c :: l → step s = exec c { s with pending := l }

/-- With no command waiting an FCLK passes while the angle island is clocked, and TB counts with its ticks; else nothing
happens. With an empty queue and the angle island up, a step advances FCLK and TB by one; an MT tick becomes due exactly when TB
reaches a multiple of 1 000 000, the wrap to 0 included, and a SYNC frame when it reaches a multiple of 400 000; with that comes
what the blocks do at the end of an FCLK (hall ports grant, refusals, claims, counts and tests that waited end), and no register
outside SU and STITCH, CHT, HAL, HOST and IRT, and POR changes, nor NVS, trackers, stitches, needles, timers, windows, gauge,
image, trust, self-test and links. Where nothing is under way in those blocks, registers, stores and every unit stay. With the
island down nothing changes. (That an empty queue stands for one FCLK is the model’s choice: assumption log, entry 3.) -/
def Obligations.AnEmptyQueueLetsAnFclkPass : Prop :=
  (∀ s : State, s.pending = [] → s.islandUp .angle = true → GoesTo (step s) fun t =>
      t = { s with regs := t.regs, fclk := s.fclk + 1, tb := s.tb + 1, mtDue := t.mtDue, wrapDue := t.wrapDue, syncDue := t.syncDue, tick10 := t.tick10, marks := t.marks, pins := t.pins, halls := t.halls, hallErr := t.hallErr, hal := t.hal, inj := t.inj, cht := t.cht, hook := t.hook, gal := t.gal, irt := t.irt, por := t.por }
      ∧ RegsIn [(0x2000, 0x2800), (0x3400, 0x3800), (0x5000, 0x5400), (0x6400, 0x6800), (0x7000, 0x7400)] s t
      ∧ t.mtDue = s.mtDue + (if (s.tb.toNat + 1) % 1000000 = 0 ∨ s.tb.toNat + 1 = 2 ^ 60 then 1 else 0)
      ∧ t.syncDue = (s.syncDue || decide ((s.tb.toNat + 1) % 400000 = 0)) ∧ t.wrapDue = (s.wrapDue || decide (s.tb.toNat + 1 = 2 ^ 60)))
  ∧ (∀ s : State, s.pending = [] → s.islandUp .angle = true → NothingUnderWay s → GoesTo (step s) fun t =>
      t = { s with fclk := s.fclk + 1, tb := s.tb + 1, mtDue := t.mtDue, wrapDue := t.wrapDue, syncDue := t.syncDue, tick10 := t.tick10, pins := t.pins })
  ∧ ∀ s : State, s.pending = [] → s.islandUp .angle = false → step s = .next s

/-- Every command has an effect in every state, and a step always goes on. No command of the table ends in a fault or a refusal:
one whose condition does not hold, or that meets a stopped island, leaves the state as it stands. -/
def Obligations.EveryCommandGoesOn : Prop :=
  (∀ (c : Instr) (s : State), Goes (exec c s)) ∧ ∀ s : State, Goes (step s)

/-- A command changes everything but the queue: no command adds, removes or reorders the commands that wait. Whatever a command
does, a chip-level reset included, the commands that wait after it are the ones that waited before it, so that a step removes
exactly the one at the front. -/
def Obligations.CommandsKeepTheQueue : Prop :=
  (∀ (c : Instr) (s t : State), exec c s = .next t → t.pending = s.pending)
  ∧ ∀ s t : State, step s = .next t → t.pending = s.pending.tail

/-- Every step keeps the register file, the halls and NVS in their canonical form. From every state whose register file, halls and
NVS list their cells in rising order and none that equals what an unlisted one reads as, every step gives such a state. So equal
contents are equal states. -/
def Obligations.StoresStayCanonical : Prop :=
  ∀ s t : State, Memory.wf s = true → step s = .next t → Memory.wf t = true

/-- The machine at reset: canonical stores, every register at its table’s value, outputs off, the bypass closed. After power-on,
with internal reset held, the stores are canonical; every register reads the reset value of its table; TB is 0; no gate is on; EO
and NP pins drive nothing; ALIVE is low, HIRQ and HTRAP are high; the bypass is closed; no command waits; no MT tick is due; no
hall byte is set. (That the halls’ and NVS’s unlisted bytes read 0 and 0xFF, and where the tables give no value, is the model’s
choice: assumption log, entries 4 and 5.) -/
def Obligations.ResetIsCanonicalAndAsGiven : Prop :=
  Memory.wf State.reset = true ∧ (∀ a, State.reset.reg a = resetOf a) ∧ State.reset.tb = 0 ∧ GatesOff State.reset
  ∧ (∀ n, State.reset.eoPin n = .hiZ ∧ State.reset.npPin n = .hiZ ∧ State.reset.injPin n = .low) ∧ State.reset.alivePin = .low
  ∧ State.reset.hirqPin = .high ∧ State.reset.htrapPin = .high ∧ State.reset.bypass = true ∧ State.reset.pending = []
  ∧ State.reset.mtDue = 0 ∧ ∀ a, State.reset.hallByte a = 0
end

