-- ==== Sys2Proof/Laws/Cells.lean ====
section
/-! SUPPORT. Laws of the sparse lists: a read after a write, and the canonical form that every write keeps. -/

namespace Sys2Proof.Machine

variable {α : Type}

theorem cellGet_cellDel_self (d : Nat → α) (a : Nat) (l : List (Nat × α)) : cellGet d (cellDel a l) a = d a := by
  induction l with
  | nil => rfl
  | cons c t ih =>
    simp only [cellDel]
    split
    · exact ih
    · rename_i h
      simp [cellGet, h, ih]

theorem cellGet_cellDel_ne (d : Nat → α) {a b : Nat} (h : b ≠ a) (l : List (Nat × α)) : cellGet d (cellDel a l) b = cellGet d l b := by
  induction l with
  | nil => rfl
  | cons c t ih =>
    simp only [cellDel, cellGet]
    split
    · rename_i hk
      rw [ih, if_neg (by omega)]
    · simp only [cellGet, ih]

theorem cellGet_cellIns_ne (d : Nat → α) {a b : Nat} (h : b ≠ a) (v : α) (l : List (Nat × α)) :
    cellGet d (cellIns a v l) b = cellGet d l b := by
  induction l with
  | nil => simp [cellIns, cellGet, h.symm]
  | cons c t ih =>
    simp only [cellIns]
    split
    · simp [cellGet, h.symm]
    · simp only [cellGet, ih]

/-- No entry of the list is at `a`. -/
def cellFree (a : Nat) : List (Nat × α) → Prop
  | [] => True
  | (k, _) :: t => k ≠ a ∧ cellFree a t

theorem cellFree_cellDel (a : Nat) (l : List (Nat × α)) : cellFree a (cellDel a l) := by
  induction l with
  | nil => trivial
  | cons c t ih =>
    simp only [cellDel]
    split
    · exact ih
    · rename_i h
      exact ⟨h, ih⟩

theorem cellGet_cellIns_self (d : Nat → α) (a : Nat) (v : α) (l : List (Nat × α)) (h : cellFree a l) :
    cellGet d (cellIns a v l) a = v := by
  induction l with
  | nil => simp [cellIns, cellGet]
  | cons c t ih =>
    simp only [cellIns]
    split
    · simp [cellGet]
    · simp only [cellGet]
      rw [if_neg h.1, ih h.2]

/-- A read after a write: the value written at its address, what stood before at every other. -/
theorem cellGet_cellPut [DecidableEq α] (d : Nat → α) (l : List (Nat × α)) (a b : Nat) (v : α) :
    cellGet d (cellPut d l a v) b = if b = a then v else cellGet d l b := by
  unfold cellPut
  by_cases hb : b = a
  · subst hb
    rw [if_pos rfl]
    split
    · rename_i hv
      rw [cellGet_cellDel_self, hv]
    · exact cellGet_cellIns_self d b v _ (cellFree_cellDel b l)
  · rw [if_neg hb]
    split
    · exact cellGet_cellDel_ne d hb l
    · rw [cellGet_cellIns_ne d hb, cellGet_cellDel_ne d hb]

theorem cellsAbove_mono [DecidableEq α] (d : Nat → α) {b c : Nat} (h : c ≤ b) :
    ∀ l : List (Nat × α), cellsAbove d b l = true → cellsAbove d c l = true
  | [], _ => rfl
  | (k, v) :: t, hl => by
    simp only [cellsAbove, Bool.and_eq_true, decide_eq_true_eq] at hl ⊢
    exact ⟨⟨by omega, hl.1.2⟩, hl.2⟩

theorem cellsAbove_cellDel [DecidableEq α] (d : Nat → α) (a : Nat) :
    ∀ (l : List (Nat × α)) (b : Nat), cellsAbove d b l = true → cellsAbove d b (cellDel a l) = true
  | [], _, _ => rfl
  | (k, v) :: t, b, hl => by
    simp only [cellsAbove, Bool.and_eq_true, decide_eq_true_eq] at hl
    simp only [cellDel]
    split
    · exact cellsAbove_mono d (by omega) _ (cellsAbove_cellDel d a t (k + 1) hl.2)
    · simp only [cellsAbove, Bool.and_eq_true, decide_eq_true_eq]
      exact ⟨hl.1, cellsAbove_cellDel d a t (k + 1) hl.2⟩

theorem cellsAbove_cellIns [DecidableEq α] (d : Nat → α) (a : Nat) (v : α) (hv : v ≠ d a) :
    ∀ (l : List (Nat × α)) (b : Nat), b ≤ a → cellFree a l → cellsAbove d b l = true → cellsAbove d b (cellIns a v l) = true
  | [], b, hb, _, _ => by simp [cellIns, cellsAbove, hb, hv]
  | (k, w) :: t, b, hb, hf, hl => by
    simp only [cellsAbove, Bool.and_eq_true, decide_eq_true_eq] at hl
    have hk : k ≠ a := hf.1
    simp only [cellIns]
    split
    · rename_i hlt
      simp only [cellsAbove, Bool.and_eq_true, decide_eq_true_eq]
      exact ⟨⟨hb, hv⟩, ⟨by omega, hl.1.2⟩, hl.2⟩
    · rename_i hlt
      simp only [cellsAbove, Bool.and_eq_true, decide_eq_true_eq]
      exact ⟨hl.1, cellsAbove_cellIns d a v hv t (k + 1) (by omega) hf.2 hl.2⟩

/-- A write keeps the canonical form. -/
theorem cellsWf_cellPut [DecidableEq α] (d : Nat → α) (l : List (Nat × α)) (a : Nat) (v : α) (h : cellsWf d l = true) :
    cellsWf d (cellPut d l a v) = true := by
  unfold cellsWf at *
  have hd := cellsAbove_cellDel d a l 0 h
  unfold cellPut
  split
  · exact hd
  · exact cellsAbove_cellIns d a v (by assumption) _ 0 (by omega) (cellFree_cellDel a l) hd

/-- A canonical list stays canonical when entries are taken out of it. -/
theorem cellsAbove_filter [DecidableEq α] (d : Nat → α) (p : Nat × α → Bool) :
    ∀ (l : List (Nat × α)) (b : Nat), cellsAbove d b l = true → cellsAbove d b (l.filter p) = true
  | [], _, _ => rfl
  | c :: t, b, hl => by
    obtain ⟨k, v⟩ := c
    simp only [cellsAbove, Bool.and_eq_true, decide_eq_true_eq] at hl
    have ht := cellsAbove_filter d p t (k + 1) hl.2
    simp only [List.filter]
    split
    · simp only [cellsAbove, Bool.and_eq_true, decide_eq_true_eq]
      exact ⟨hl.1, ht⟩
    · exact cellsAbove_mono d (by omega) _ ht
theorem cellsWf_filter [DecidableEq α] (d : Nat → α) (p : Nat × α → Bool) (l : List (Nat × α)) (h : cellsWf d l = true) :
    cellsWf d (l.filter p) = true := cellsAbove_filter d p l 0 h

/-- The entry of an address taken out reads as unlisted. -/
theorem cellGet_filter (d : Nat → α) (p : Nat → Bool) (a : Nat) :
    ∀ l : List (Nat × α), cellGet d (l.filter fun c => p c.1) a = if p a then cellGet d l a else d a
  | [] => by simp [cellGet]
  | c :: t => by
    obtain ⟨k, v⟩ := c
    have ih := cellGet_filter d p a t
    by_cases hk : k = a
    · subst hk
      by_cases hp : p k = true
      · simp [List.filter, hp, cellGet]
      · simp [List.filter, hp] at ih ⊢
        simpa [hp] using ih
    · by_cases hp : p k = true
      · simp [List.filter, hp, cellGet, hk, ih]
      · simp [List.filter, hp, cellGet, hk, ih]

/-! ### Fixed tables -/

@[simp] theorem vget_vupd_self {n : Nat} (v : Vector α n) {i : Nat} (h : i < n) (f : α → α) (d : α) :
    vget (vupd v i f) i d = f (vget v i d) := by simp [vget, vupd, h]
theorem vget_vupd_ne {n : Nat} (v : Vector α n) {i j : Nat} (h : j ≠ i) (f : α → α) (d : α) :
    vget (vupd v i f) j d = vget v j d := by
  by_cases hj : j < n
  · by_cases hi : i < n
    · have hij : ¬ i = j := fun e => h e.symm
      simp [vget, vupd, hi, hj, hij]
    · simp [vupd, hi]
  · simp [vget, hj]

end Sys2Proof.Machine
end

