-- ==== Sys2Proof/Laws/State.lean ====
section
/-! SUPPORT. What each update leaves as it was: one lemma per field per update. -/

namespace Sys2Proof.Machine

/-! ### setReg -/

@[simp] theorem State.setReg_pending (s : State) (a : Nat) (v : Word) : (s.setReg a v).pending = s.pending := (rfl)
@[simp] theorem State.setReg_fclk (s : State) (a : Nat) (v : Word) : (s.setReg a v).fclk = s.fclk := (rfl)
@[simp] theorem State.setReg_tb (s : State) (a : Nat) (v : Word) : (s.setReg a v).tb = s.tb := (rfl)
@[simp] theorem State.setReg_mtDue (s : State) (a : Nat) (v : Word) : (s.setReg a v).mtDue = s.mtDue := (rfl)
@[simp] theorem State.setReg_wrapDue (s : State) (a : Nat) (v : Word) : (s.setReg a v).wrapDue = s.wrapDue := (rfl)
@[simp] theorem State.setReg_syncDue (s : State) (a : Nat) (v : Word) : (s.setReg a v).syncDue = s.syncDue := (rfl)
@[simp] theorem State.setReg_tick10 (s : State) (a : Nat) (v : Word) : (s.setReg a v).tick10 = s.tick10 := (rfl)
@[simp] theorem State.setReg_corr (s : State) (a : Nat) (v : Word) : (s.setReg a v).corr = s.corr := (rfl)
@[simp] theorem State.setReg_slewT (s : State) (a : Nat) (v : Word) : (s.setReg a v).slewT = s.slewT := (rfl)
@[simp] theorem State.setReg_tbLog (s : State) (a : Nat) (v : Word) : (s.setReg a v).tbLog = s.tbLog := (rfl)
@[simp] theorem State.setReg_rd (s : State) (a : Nat) (v : Word) : (s.setReg a v).rd = s.rd := (rfl)
@[simp] theorem State.setReg_freeCtr (s : State) (a : Nat) (v : Word) : (s.setReg a v).freeCtr = s.freeCtr := (rfl)
@[simp] theorem State.setReg_marks (s : State) (a : Nat) (v : Word) : (s.setReg a v).marks = s.marks := (rfl)
@[simp] theorem State.setReg_halls (s : State) (a : Nat) (v : Word) : (s.setReg a v).halls = s.halls := (rfl)
@[simp] theorem State.setReg_hallErr (s : State) (a : Nat) (v : Word) : (s.setReg a v).hallErr = s.hallErr := (rfl)
@[simp] theorem State.setReg_nvs (s : State) (a : Nat) (v : Word) : (s.setReg a v).nvs = s.nvs := (rfl)
@[simp] theorem State.setReg_nvsErr (s : State) (a : Nat) (v : Word) : (s.setReg a v).nvsErr = s.nvsErr := (rfl)
@[simp] theorem State.setReg_routes (s : State) (a : Nat) (v : Word) : (s.setReg a v).routes = s.routes := (rfl)
@[simp] theorem State.setReg_pcr (s : State) (a : Nat) (v : Word) : (s.setReg a v).pcr = s.pcr := (rfl)
@[simp] theorem State.setReg_wvl (s : State) (a : Nat) (v : Word) : (s.setReg a v).wvl = s.wvl := (rfl)
@[simp] theorem State.setReg_inp (s : State) (a : Nat) (v : Word) : (s.setReg a v).inp = s.inp := (rfl)
@[simp] theorem State.setReg_trk (s : State) (a : Nat) (v : Word) : (s.setReg a v).trk = s.trk := (rfl)
@[simp] theorem State.setReg_bcnOut (s : State) (a : Nat) (v : Word) : (s.setReg a v).bcnOut = s.bcnOut := (rfl)
@[simp] theorem State.setReg_bcnIn (s : State) (a : Nat) (v : Word) : (s.setReg a v).bcnIn = s.bcnIn := (rfl)
@[simp] theorem State.setReg_pins (s : State) (a : Nat) (v : Word) : (s.setReg a v).pins = s.pins := (rfl)
@[simp] theorem State.setReg_stitch (s : State) (a : Nat) (v : Word) : (s.setReg a v).stitch = s.stitch := (rfl)
@[simp] theorem State.setReg_suPos (s : State) (a : Nat) (v : Word) : (s.setReg a v).suPos = s.suPos := (rfl)
@[simp] theorem State.setReg_suPath (s : State) (a : Nat) (v : Word) : (s.setReg a v).suPath = s.suPath := (rfl)
@[simp] theorem State.setReg_suActs (s : State) (a : Nat) (v : Word) : (s.setReg a v).suActs = s.suActs := (rfl)
@[simp] theorem State.setReg_suT (s : State) (a : Nat) (v : Word) : (s.setReg a v).suT = s.suT := (rfl)
@[simp] theorem State.setReg_inj (s : State) (a : Nat) (v : Word) : (s.setReg a v).inj = s.inj := (rfl)
@[simp] theorem State.setReg_ndl (s : State) (a : Nat) (v : Word) : (s.setReg a v).ndl = s.ndl := (rfl)
@[simp] theorem State.setReg_ncl (s : State) (a : Nat) (v : Word) : (s.setReg a v).ncl = s.ncl := (rfl)
@[simp] theorem State.setReg_cht (s : State) (a : Nat) (v : Word) : (s.setReg a v).cht = s.cht := (rfl)
@[simp] theorem State.setReg_gau (s : State) (a : Nat) (v : Word) : (s.setReg a v).gau = s.gau := (rfl)
@[simp] theorem State.setReg_cmp (s : State) (a : Nat) (v : Word) : (s.setReg a v).cmp = s.cmp := (rfl)
@[simp] theorem State.setReg_tmr (s : State) (a : Nat) (v : Word) : (s.setReg a v).tmr = s.tmr := (rfl)
@[simp] theorem State.setReg_tmrActs (s : State) (a : Nat) (v : Word) : (s.setReg a v).tmrActs = s.tmrActs := (rfl)
@[simp] theorem State.setReg_hal (s : State) (a : Nat) (v : Word) : (s.setReg a v).hal = s.hal := (rfl)
@[simp] theorem State.setReg_hook (s : State) (a : Nat) (v : Word) : (s.setReg a v).hook = s.hook := (rfl)
@[simp] theorem State.setReg_gal (s : State) (a : Nat) (v : Word) : (s.setReg a v).gal = s.gal := (rfl)
@[simp] theorem State.setReg_irt (s : State) (a : Nat) (v : Word) : (s.setReg a v).irt = s.irt := (rfl)
@[simp] theorem State.setReg_host (s : State) (a : Nat) (v : Word) : (s.setReg a v).host = s.host := (rfl)
@[simp] theorem State.setReg_stc (s : State) (a : Nat) (v : Word) : (s.setReg a v).stc = s.stc := (rfl)
@[simp] theorem State.setReg_tru (s : State) (a : Nat) (v : Word) : (s.setReg a v).tru = s.tru := (rfl)
@[simp] theorem State.setReg_can (s : State) (a : Nat) (v : Word) : (s.setReg a v).can = s.can := (rfl)
@[simp] theorem State.setReg_sent (s : State) (a : Nat) (v : Word) : (s.setReg a v).sent = s.sent := (rfl)
@[simp] theorem State.setReg_por (s : State) (a : Nat) (v : Word) : (s.setReg a v).por = s.por := (rfl)

/-! ### set -/

@[simp] theorem State.set_pending (s : State) (f : Fld) (v : Nat) : (s.set f v).pending = s.pending := (rfl)
@[simp] theorem State.set_fclk (s : State) (f : Fld) (v : Nat) : (s.set f v).fclk = s.fclk := (rfl)
@[simp] theorem State.set_tb (s : State) (f : Fld) (v : Nat) : (s.set f v).tb = s.tb := (rfl)
@[simp] theorem State.set_mtDue (s : State) (f : Fld) (v : Nat) : (s.set f v).mtDue = s.mtDue := (rfl)
@[simp] theorem State.set_wrapDue (s : State) (f : Fld) (v : Nat) : (s.set f v).wrapDue = s.wrapDue := (rfl)
@[simp] theorem State.set_syncDue (s : State) (f : Fld) (v : Nat) : (s.set f v).syncDue = s.syncDue := (rfl)
@[simp] theorem State.set_tick10 (s : State) (f : Fld) (v : Nat) : (s.set f v).tick10 = s.tick10 := (rfl)
@[simp] theorem State.set_corr (s : State) (f : Fld) (v : Nat) : (s.set f v).corr = s.corr := (rfl)
@[simp] theorem State.set_slewT (s : State) (f : Fld) (v : Nat) : (s.set f v).slewT = s.slewT := (rfl)
@[simp] theorem State.set_tbLog (s : State) (f : Fld) (v : Nat) : (s.set f v).tbLog = s.tbLog := (rfl)
@[simp] theorem State.set_rd (s : State) (f : Fld) (v : Nat) : (s.set f v).rd = s.rd := (rfl)
@[simp] theorem State.set_freeCtr (s : State) (f : Fld) (v : Nat) : (s.set f v).freeCtr = s.freeCtr := (rfl)
@[simp] theorem State.set_marks (s : State) (f : Fld) (v : Nat) : (s.set f v).marks = s.marks := (rfl)
@[simp] theorem State.set_halls (s : State) (f : Fld) (v : Nat) : (s.set f v).halls = s.halls := (rfl)
@[simp] theorem State.set_hallErr (s : State) (f : Fld) (v : Nat) : (s.set f v).hallErr = s.hallErr := (rfl)
@[simp] theorem State.set_nvs (s : State) (f : Fld) (v : Nat) : (s.set f v).nvs = s.nvs := (rfl)
@[simp] theorem State.set_nvsErr (s : State) (f : Fld) (v : Nat) : (s.set f v).nvsErr = s.nvsErr := (rfl)
@[simp] theorem State.set_routes (s : State) (f : Fld) (v : Nat) : (s.set f v).routes = s.routes := (rfl)
@[simp] theorem State.set_pcr (s : State) (f : Fld) (v : Nat) : (s.set f v).pcr = s.pcr := (rfl)
@[simp] theorem State.set_wvl (s : State) (f : Fld) (v : Nat) : (s.set f v).wvl = s.wvl := (rfl)
@[simp] theorem State.set_inp (s : State) (f : Fld) (v : Nat) : (s.set f v).inp = s.inp := (rfl)
@[simp] theorem State.set_trk (s : State) (f : Fld) (v : Nat) : (s.set f v).trk = s.trk := (rfl)
@[simp] theorem State.set_bcnOut (s : State) (f : Fld) (v : Nat) : (s.set f v).bcnOut = s.bcnOut := (rfl)
@[simp] theorem State.set_bcnIn (s : State) (f : Fld) (v : Nat) : (s.set f v).bcnIn = s.bcnIn := (rfl)
@[simp] theorem State.set_pins (s : State) (f : Fld) (v : Nat) : (s.set f v).pins = s.pins := (rfl)
@[simp] theorem State.set_stitch (s : State) (f : Fld) (v : Nat) : (s.set f v).stitch = s.stitch := (rfl)
@[simp] theorem State.set_suPos (s : State) (f : Fld) (v : Nat) : (s.set f v).suPos = s.suPos := (rfl)
@[simp] theorem State.set_suPath (s : State) (f : Fld) (v : Nat) : (s.set f v).suPath = s.suPath := (rfl)
@[simp] theorem State.set_suActs (s : State) (f : Fld) (v : Nat) : (s.set f v).suActs = s.suActs := (rfl)
@[simp] theorem State.set_suT (s : State) (f : Fld) (v : Nat) : (s.set f v).suT = s.suT := (rfl)
@[simp] theorem State.set_inj (s : State) (f : Fld) (v : Nat) : (s.set f v).inj = s.inj := (rfl)
@[simp] theorem State.set_ndl (s : State) (f : Fld) (v : Nat) : (s.set f v).ndl = s.ndl := (rfl)
@[simp] theorem State.set_ncl (s : State) (f : Fld) (v : Nat) : (s.set f v).ncl = s.ncl := (rfl)
@[simp] theorem State.set_cht (s : State) (f : Fld) (v : Nat) : (s.set f v).cht = s.cht := (rfl)
@[simp] theorem State.set_gau (s : State) (f : Fld) (v : Nat) : (s.set f v).gau = s.gau := (rfl)
@[simp] theorem State.set_cmp (s : State) (f : Fld) (v : Nat) : (s.set f v).cmp = s.cmp := (rfl)
@[simp] theorem State.set_tmr (s : State) (f : Fld) (v : Nat) : (s.set f v).tmr = s.tmr := (rfl)
@[simp] theorem State.set_tmrActs (s : State) (f : Fld) (v : Nat) : (s.set f v).tmrActs = s.tmrActs := (rfl)
@[simp] theorem State.set_hal (s : State) (f : Fld) (v : Nat) : (s.set f v).hal = s.hal := (rfl)
@[simp] theorem State.set_hook (s : State) (f : Fld) (v : Nat) : (s.set f v).hook = s.hook := (rfl)
@[simp] theorem State.set_gal (s : State) (f : Fld) (v : Nat) : (s.set f v).gal = s.gal := (rfl)
@[simp] theorem State.set_irt (s : State) (f : Fld) (v : Nat) : (s.set f v).irt = s.irt := (rfl)
@[simp] theorem State.set_host (s : State) (f : Fld) (v : Nat) : (s.set f v).host = s.host := (rfl)
@[simp] theorem State.set_stc (s : State) (f : Fld) (v : Nat) : (s.set f v).stc = s.stc := (rfl)
@[simp] theorem State.set_tru (s : State) (f : Fld) (v : Nat) : (s.set f v).tru = s.tru := (rfl)
@[simp] theorem State.set_can (s : State) (f : Fld) (v : Nat) : (s.set f v).can = s.can := (rfl)
@[simp] theorem State.set_sent (s : State) (f : Fld) (v : Nat) : (s.set f v).sent = s.sent := (rfl)
@[simp] theorem State.set_por (s : State) (f : Fld) (v : Nat) : (s.set f v).por = s.por := (rfl)

/-! ### setB -/

@[simp] theorem State.setB_pending (s : State) (f : Fld) (b : Bool) : (s.setB f b).pending = s.pending := (rfl)
@[simp] theorem State.setB_fclk (s : State) (f : Fld) (b : Bool) : (s.setB f b).fclk = s.fclk := (rfl)
@[simp] theorem State.setB_tb (s : State) (f : Fld) (b : Bool) : (s.setB f b).tb = s.tb := (rfl)
@[simp] theorem State.setB_mtDue (s : State) (f : Fld) (b : Bool) : (s.setB f b).mtDue = s.mtDue := (rfl)
@[simp] theorem State.setB_wrapDue (s : State) (f : Fld) (b : Bool) : (s.setB f b).wrapDue = s.wrapDue := (rfl)
@[simp] theorem State.setB_syncDue (s : State) (f : Fld) (b : Bool) : (s.setB f b).syncDue = s.syncDue := (rfl)
@[simp] theorem State.setB_tick10 (s : State) (f : Fld) (b : Bool) : (s.setB f b).tick10 = s.tick10 := (rfl)
@[simp] theorem State.setB_corr (s : State) (f : Fld) (b : Bool) : (s.setB f b).corr = s.corr := (rfl)
@[simp] theorem State.setB_slewT (s : State) (f : Fld) (b : Bool) : (s.setB f b).slewT = s.slewT := (rfl)
@[simp] theorem State.setB_tbLog (s : State) (f : Fld) (b : Bool) : (s.setB f b).tbLog = s.tbLog := (rfl)
@[simp] theorem State.setB_rd (s : State) (f : Fld) (b : Bool) : (s.setB f b).rd = s.rd := (rfl)
@[simp] theorem State.setB_freeCtr (s : State) (f : Fld) (b : Bool) : (s.setB f b).freeCtr = s.freeCtr := (rfl)
@[simp] theorem State.setB_marks (s : State) (f : Fld) (b : Bool) : (s.setB f b).marks = s.marks := (rfl)
@[simp] theorem State.setB_halls (s : State) (f : Fld) (b : Bool) : (s.setB f b).halls = s.halls := (rfl)
@[simp] theorem State.setB_hallErr (s : State) (f : Fld) (b : Bool) : (s.setB f b).hallErr = s.hallErr := (rfl)
@[simp] theorem State.setB_nvs (s : State) (f : Fld) (b : Bool) : (s.setB f b).nvs = s.nvs := (rfl)
@[simp] theorem State.setB_nvsErr (s : State) (f : Fld) (b : Bool) : (s.setB f b).nvsErr = s.nvsErr := (rfl)
@[simp] theorem State.setB_routes (s : State) (f : Fld) (b : Bool) : (s.setB f b).routes = s.routes := (rfl)
@[simp] theorem State.setB_pcr (s : State) (f : Fld) (b : Bool) : (s.setB f b).pcr = s.pcr := (rfl)
@[simp] theorem State.setB_wvl (s : State) (f : Fld) (b : Bool) : (s.setB f b).wvl = s.wvl := (rfl)
@[simp] theorem State.setB_inp (s : State) (f : Fld) (b : Bool) : (s.setB f b).inp = s.inp := (rfl)
@[simp] theorem State.setB_trk (s : State) (f : Fld) (b : Bool) : (s.setB f b).trk = s.trk := (rfl)
@[simp] theorem State.setB_bcnOut (s : State) (f : Fld) (b : Bool) : (s.setB f b).bcnOut = s.bcnOut := (rfl)
@[simp] theorem State.setB_bcnIn (s : State) (f : Fld) (b : Bool) : (s.setB f b).bcnIn = s.bcnIn := (rfl)
@[simp] theorem State.setB_pins (s : State) (f : Fld) (b : Bool) : (s.setB f b).pins = s.pins := (rfl)
@[simp] theorem State.setB_stitch (s : State) (f : Fld) (b : Bool) : (s.setB f b).stitch = s.stitch := (rfl)
@[simp] theorem State.setB_suPos (s : State) (f : Fld) (b : Bool) : (s.setB f b).suPos = s.suPos := (rfl)
@[simp] theorem State.setB_suPath (s : State) (f : Fld) (b : Bool) : (s.setB f b).suPath = s.suPath := (rfl)
@[simp] theorem State.setB_suActs (s : State) (f : Fld) (b : Bool) : (s.setB f b).suActs = s.suActs := (rfl)
@[simp] theorem State.setB_suT (s : State) (f : Fld) (b : Bool) : (s.setB f b).suT = s.suT := (rfl)
@[simp] theorem State.setB_inj (s : State) (f : Fld) (b : Bool) : (s.setB f b).inj = s.inj := (rfl)
@[simp] theorem State.setB_ndl (s : State) (f : Fld) (b : Bool) : (s.setB f b).ndl = s.ndl := (rfl)
@[simp] theorem State.setB_ncl (s : State) (f : Fld) (b : Bool) : (s.setB f b).ncl = s.ncl := (rfl)
@[simp] theorem State.setB_cht (s : State) (f : Fld) (b : Bool) : (s.setB f b).cht = s.cht := (rfl)
@[simp] theorem State.setB_gau (s : State) (f : Fld) (b : Bool) : (s.setB f b).gau = s.gau := (rfl)
@[simp] theorem State.setB_cmp (s : State) (f : Fld) (b : Bool) : (s.setB f b).cmp = s.cmp := (rfl)
@[simp] theorem State.setB_tmr (s : State) (f : Fld) (b : Bool) : (s.setB f b).tmr = s.tmr := (rfl)
@[simp] theorem State.setB_tmrActs (s : State) (f : Fld) (b : Bool) : (s.setB f b).tmrActs = s.tmrActs := (rfl)
@[simp] theorem State.setB_hal (s : State) (f : Fld) (b : Bool) : (s.setB f b).hal = s.hal := (rfl)
@[simp] theorem State.setB_hook (s : State) (f : Fld) (b : Bool) : (s.setB f b).hook = s.hook := (rfl)
@[simp] theorem State.setB_gal (s : State) (f : Fld) (b : Bool) : (s.setB f b).gal = s.gal := (rfl)
@[simp] theorem State.setB_irt (s : State) (f : Fld) (b : Bool) : (s.setB f b).irt = s.irt := (rfl)
@[simp] theorem State.setB_host (s : State) (f : Fld) (b : Bool) : (s.setB f b).host = s.host := (rfl)
@[simp] theorem State.setB_stc (s : State) (f : Fld) (b : Bool) : (s.setB f b).stc = s.stc := (rfl)
@[simp] theorem State.setB_tru (s : State) (f : Fld) (b : Bool) : (s.setB f b).tru = s.tru := (rfl)
@[simp] theorem State.setB_can (s : State) (f : Fld) (b : Bool) : (s.setB f b).can = s.can := (rfl)
@[simp] theorem State.setB_sent (s : State) (f : Fld) (b : Bool) : (s.setB f b).sent = s.sent := (rfl)
@[simp] theorem State.setB_por (s : State) (f : Fld) (b : Bool) : (s.setB f b).por = s.por := (rfl)

/-! ### inc -/

@[simp] theorem State.inc_pending (s : State) (f : Fld) : (s.inc f).pending = s.pending := (rfl)
@[simp] theorem State.inc_fclk (s : State) (f : Fld) : (s.inc f).fclk = s.fclk := (rfl)
@[simp] theorem State.inc_tb (s : State) (f : Fld) : (s.inc f).tb = s.tb := (rfl)
@[simp] theorem State.inc_mtDue (s : State) (f : Fld) : (s.inc f).mtDue = s.mtDue := (rfl)
@[simp] theorem State.inc_wrapDue (s : State) (f : Fld) : (s.inc f).wrapDue = s.wrapDue := (rfl)
@[simp] theorem State.inc_syncDue (s : State) (f : Fld) : (s.inc f).syncDue = s.syncDue := (rfl)
@[simp] theorem State.inc_tick10 (s : State) (f : Fld) : (s.inc f).tick10 = s.tick10 := (rfl)
@[simp] theorem State.inc_corr (s : State) (f : Fld) : (s.inc f).corr = s.corr := (rfl)
@[simp] theorem State.inc_slewT (s : State) (f : Fld) : (s.inc f).slewT = s.slewT := (rfl)
@[simp] theorem State.inc_tbLog (s : State) (f : Fld) : (s.inc f).tbLog = s.tbLog := (rfl)
@[simp] theorem State.inc_rd (s : State) (f : Fld) : (s.inc f).rd = s.rd := (rfl)
@[simp] theorem State.inc_freeCtr (s : State) (f : Fld) : (s.inc f).freeCtr = s.freeCtr := (rfl)
@[simp] theorem State.inc_marks (s : State) (f : Fld) : (s.inc f).marks = s.marks := (rfl)
@[simp] theorem State.inc_halls (s : State) (f : Fld) : (s.inc f).halls = s.halls := (rfl)
@[simp] theorem State.inc_hallErr (s : State) (f : Fld) : (s.inc f).hallErr = s.hallErr := (rfl)
@[simp] theorem State.inc_nvs (s : State) (f : Fld) : (s.inc f).nvs = s.nvs := (rfl)
@[simp] theorem State.inc_nvsErr (s : State) (f : Fld) : (s.inc f).nvsErr = s.nvsErr := (rfl)
@[simp] theorem State.inc_routes (s : State) (f : Fld) : (s.inc f).routes = s.routes := (rfl)
@[simp] theorem State.inc_pcr (s : State) (f : Fld) : (s.inc f).pcr = s.pcr := (rfl)
@[simp] theorem State.inc_wvl (s : State) (f : Fld) : (s.inc f).wvl = s.wvl := (rfl)
@[simp] theorem State.inc_inp (s : State) (f : Fld) : (s.inc f).inp = s.inp := (rfl)
@[simp] theorem State.inc_trk (s : State) (f : Fld) : (s.inc f).trk = s.trk := (rfl)
@[simp] theorem State.inc_bcnOut (s : State) (f : Fld) : (s.inc f).bcnOut = s.bcnOut := (rfl)
@[simp] theorem State.inc_bcnIn (s : State) (f : Fld) : (s.inc f).bcnIn = s.bcnIn := (rfl)
@[simp] theorem State.inc_pins (s : State) (f : Fld) : (s.inc f).pins = s.pins := (rfl)
@[simp] theorem State.inc_stitch (s : State) (f : Fld) : (s.inc f).stitch = s.stitch := (rfl)
@[simp] theorem State.inc_suPos (s : State) (f : Fld) : (s.inc f).suPos = s.suPos := (rfl)
@[simp] theorem State.inc_suPath (s : State) (f : Fld) : (s.inc f).suPath = s.suPath := (rfl)
@[simp] theorem State.inc_suActs (s : State) (f : Fld) : (s.inc f).suActs = s.suActs := (rfl)
@[simp] theorem State.inc_suT (s : State) (f : Fld) : (s.inc f).suT = s.suT := (rfl)
@[simp] theorem State.inc_inj (s : State) (f : Fld) : (s.inc f).inj = s.inj := (rfl)
@[simp] theorem State.inc_ndl (s : State) (f : Fld) : (s.inc f).ndl = s.ndl := (rfl)
@[simp] theorem State.inc_ncl (s : State) (f : Fld) : (s.inc f).ncl = s.ncl := (rfl)
@[simp] theorem State.inc_cht (s : State) (f : Fld) : (s.inc f).cht = s.cht := (rfl)
@[simp] theorem State.inc_gau (s : State) (f : Fld) : (s.inc f).gau = s.gau := (rfl)
@[simp] theorem State.inc_cmp (s : State) (f : Fld) : (s.inc f).cmp = s.cmp := (rfl)
@[simp] theorem State.inc_tmr (s : State) (f : Fld) : (s.inc f).tmr = s.tmr := (rfl)
@[simp] theorem State.inc_tmrActs (s : State) (f : Fld) : (s.inc f).tmrActs = s.tmrActs := (rfl)
@[simp] theorem State.inc_hal (s : State) (f : Fld) : (s.inc f).hal = s.hal := (rfl)
@[simp] theorem State.inc_hook (s : State) (f : Fld) : (s.inc f).hook = s.hook := (rfl)
@[simp] theorem State.inc_gal (s : State) (f : Fld) : (s.inc f).gal = s.gal := (rfl)
@[simp] theorem State.inc_irt (s : State) (f : Fld) : (s.inc f).irt = s.irt := (rfl)
@[simp] theorem State.inc_host (s : State) (f : Fld) : (s.inc f).host = s.host := (rfl)
@[simp] theorem State.inc_stc (s : State) (f : Fld) : (s.inc f).stc = s.stc := (rfl)
@[simp] theorem State.inc_tru (s : State) (f : Fld) : (s.inc f).tru = s.tru := (rfl)
@[simp] theorem State.inc_can (s : State) (f : Fld) : (s.inc f).can = s.can := (rfl)
@[simp] theorem State.inc_sent (s : State) (f : Fld) : (s.inc f).sent = s.sent := (rfl)
@[simp] theorem State.inc_por (s : State) (f : Fld) : (s.inc f).por = s.por := (rfl)

/-! ### incW -/

@[simp] theorem State.incW_pending (s : State) (f : Fld) : (s.incW f).pending = s.pending := (rfl)
@[simp] theorem State.incW_fclk (s : State) (f : Fld) : (s.incW f).fclk = s.fclk := (rfl)
@[simp] theorem State.incW_tb (s : State) (f : Fld) : (s.incW f).tb = s.tb := (rfl)
@[simp] theorem State.incW_mtDue (s : State) (f : Fld) : (s.incW f).mtDue = s.mtDue := (rfl)
@[simp] theorem State.incW_wrapDue (s : State) (f : Fld) : (s.incW f).wrapDue = s.wrapDue := (rfl)
@[simp] theorem State.incW_syncDue (s : State) (f : Fld) : (s.incW f).syncDue = s.syncDue := (rfl)
@[simp] theorem State.incW_tick10 (s : State) (f : Fld) : (s.incW f).tick10 = s.tick10 := (rfl)
@[simp] theorem State.incW_corr (s : State) (f : Fld) : (s.incW f).corr = s.corr := (rfl)
@[simp] theorem State.incW_slewT (s : State) (f : Fld) : (s.incW f).slewT = s.slewT := (rfl)
@[simp] theorem State.incW_tbLog (s : State) (f : Fld) : (s.incW f).tbLog = s.tbLog := (rfl)
@[simp] theorem State.incW_rd (s : State) (f : Fld) : (s.incW f).rd = s.rd := (rfl)
@[simp] theorem State.incW_freeCtr (s : State) (f : Fld) : (s.incW f).freeCtr = s.freeCtr := (rfl)
@[simp] theorem State.incW_marks (s : State) (f : Fld) : (s.incW f).marks = s.marks := (rfl)
@[simp] theorem State.incW_halls (s : State) (f : Fld) : (s.incW f).halls = s.halls := (rfl)
@[simp] theorem State.incW_hallErr (s : State) (f : Fld) : (s.incW f).hallErr = s.hallErr := (rfl)
@[simp] theorem State.incW_nvs (s : State) (f : Fld) : (s.incW f).nvs = s.nvs := (rfl)
@[simp] theorem State.incW_nvsErr (s : State) (f : Fld) : (s.incW f).nvsErr = s.nvsErr := (rfl)
@[simp] theorem State.incW_routes (s : State) (f : Fld) : (s.incW f).routes = s.routes := (rfl)
@[simp] theorem State.incW_pcr (s : State) (f : Fld) : (s.incW f).pcr = s.pcr := (rfl)
@[simp] theorem State.incW_wvl (s : State) (f : Fld) : (s.incW f).wvl = s.wvl := (rfl)
@[simp] theorem State.incW_inp (s : State) (f : Fld) : (s.incW f).inp = s.inp := (rfl)
@[simp] theorem State.incW_trk (s : State) (f : Fld) : (s.incW f).trk = s.trk := (rfl)
@[simp] theorem State.incW_bcnOut (s : State) (f : Fld) : (s.incW f).bcnOut = s.bcnOut := (rfl)
@[simp] theorem State.incW_bcnIn (s : State) (f : Fld) : (s.incW f).bcnIn = s.bcnIn := (rfl)
@[simp] theorem State.incW_pins (s : State) (f : Fld) : (s.incW f).pins = s.pins := (rfl)
@[simp] theorem State.incW_stitch (s : State) (f : Fld) : (s.incW f).stitch = s.stitch := (rfl)
@[simp] theorem State.incW_suPos (s : State) (f : Fld) : (s.incW f).suPos = s.suPos := (rfl)
@[simp] theorem State.incW_suPath (s : State) (f : Fld) : (s.incW f).suPath = s.suPath := (rfl)
@[simp] theorem State.incW_suActs (s : State) (f : Fld) : (s.incW f).suActs = s.suActs := (rfl)
@[simp] theorem State.incW_suT (s : State) (f : Fld) : (s.incW f).suT = s.suT := (rfl)
@[simp] theorem State.incW_inj (s : State) (f : Fld) : (s.incW f).inj = s.inj := (rfl)
@[simp] theorem State.incW_ndl (s : State) (f : Fld) : (s.incW f).ndl = s.ndl := (rfl)
@[simp] theorem State.incW_ncl (s : State) (f : Fld) : (s.incW f).ncl = s.ncl := (rfl)
@[simp] theorem State.incW_cht (s : State) (f : Fld) : (s.incW f).cht = s.cht := (rfl)
@[simp] theorem State.incW_gau (s : State) (f : Fld) : (s.incW f).gau = s.gau := (rfl)
@[simp] theorem State.incW_cmp (s : State) (f : Fld) : (s.incW f).cmp = s.cmp := (rfl)
@[simp] theorem State.incW_tmr (s : State) (f : Fld) : (s.incW f).tmr = s.tmr := (rfl)
@[simp] theorem State.incW_tmrActs (s : State) (f : Fld) : (s.incW f).tmrActs = s.tmrActs := (rfl)
@[simp] theorem State.incW_hal (s : State) (f : Fld) : (s.incW f).hal = s.hal := (rfl)
@[simp] theorem State.incW_hook (s : State) (f : Fld) : (s.incW f).hook = s.hook := (rfl)
@[simp] theorem State.incW_gal (s : State) (f : Fld) : (s.incW f).gal = s.gal := (rfl)
@[simp] theorem State.incW_irt (s : State) (f : Fld) : (s.incW f).irt = s.irt := (rfl)
@[simp] theorem State.incW_host (s : State) (f : Fld) : (s.incW f).host = s.host := (rfl)
@[simp] theorem State.incW_stc (s : State) (f : Fld) : (s.incW f).stc = s.stc := (rfl)
@[simp] theorem State.incW_tru (s : State) (f : Fld) : (s.incW f).tru = s.tru := (rfl)
@[simp] theorem State.incW_can (s : State) (f : Fld) : (s.incW f).can = s.can := (rfl)
@[simp] theorem State.incW_sent (s : State) (f : Fld) : (s.incW f).sent = s.sent := (rfl)
@[simp] theorem State.incW_por (s : State) (f : Fld) : (s.incW f).por = s.por := (rfl)

/-! ### setBitAt -/

@[simp] theorem State.setBitAt_pending (s : State) (f : Fld) (i : Nat) (b : Bool) : (s.setBitAt f i b).pending = s.pending := (rfl)
@[simp] theorem State.setBitAt_fclk (s : State) (f : Fld) (i : Nat) (b : Bool) : (s.setBitAt f i b).fclk = s.fclk := (rfl)
@[simp] theorem State.setBitAt_tb (s : State) (f : Fld) (i : Nat) (b : Bool) : (s.setBitAt f i b).tb = s.tb := (rfl)
@[simp] theorem State.setBitAt_mtDue (s : State) (f : Fld) (i : Nat) (b : Bool) : (s.setBitAt f i b).mtDue = s.mtDue := (rfl)
@[simp] theorem State.setBitAt_wrapDue (s : State) (f : Fld) (i : Nat) (b : Bool) : (s.setBitAt f i b).wrapDue = s.wrapDue := (rfl)
@[simp] theorem State.setBitAt_syncDue (s : State) (f : Fld) (i : Nat) (b : Bool) : (s.setBitAt f i b).syncDue = s.syncDue := (rfl)
@[simp] theorem State.setBitAt_tick10 (s : State) (f : Fld) (i : Nat) (b : Bool) : (s.setBitAt f i b).tick10 = s.tick10 := (rfl)
@[simp] theorem State.setBitAt_corr (s : State) (f : Fld) (i : Nat) (b : Bool) : (s.setBitAt f i b).corr = s.corr := (rfl)
@[simp] theorem State.setBitAt_slewT (s : State) (f : Fld) (i : Nat) (b : Bool) : (s.setBitAt f i b).slewT = s.slewT := (rfl)
@[simp] theorem State.setBitAt_tbLog (s : State) (f : Fld) (i : Nat) (b : Bool) : (s.setBitAt f i b).tbLog = s.tbLog := (rfl)
@[simp] theorem State.setBitAt_rd (s : State) (f : Fld) (i : Nat) (b : Bool) : (s.setBitAt f i b).rd = s.rd := (rfl)
@[simp] theorem State.setBitAt_freeCtr (s : State) (f : Fld) (i : Nat) (b : Bool) : (s.setBitAt f i b).freeCtr = s.freeCtr := (rfl)
@[simp] theorem State.setBitAt_marks (s : State) (f : Fld) (i : Nat) (b : Bool) : (s.setBitAt f i b).marks = s.marks := (rfl)
@[simp] theorem State.setBitAt_halls (s : State) (f : Fld) (i : Nat) (b : Bool) : (s.setBitAt f i b).halls = s.halls := (rfl)
@[simp] theorem State.setBitAt_hallErr (s : State) (f : Fld) (i : Nat) (b : Bool) : (s.setBitAt f i b).hallErr = s.hallErr := (rfl)
@[simp] theorem State.setBitAt_nvs (s : State) (f : Fld) (i : Nat) (b : Bool) : (s.setBitAt f i b).nvs = s.nvs := (rfl)
@[simp] theorem State.setBitAt_nvsErr (s : State) (f : Fld) (i : Nat) (b : Bool) : (s.setBitAt f i b).nvsErr = s.nvsErr := (rfl)
@[simp] theorem State.setBitAt_routes (s : State) (f : Fld) (i : Nat) (b : Bool) : (s.setBitAt f i b).routes = s.routes := (rfl)
@[simp] theorem State.setBitAt_pcr (s : State) (f : Fld) (i : Nat) (b : Bool) : (s.setBitAt f i b).pcr = s.pcr := (rfl)
@[simp] theorem State.setBitAt_wvl (s : State) (f : Fld) (i : Nat) (b : Bool) : (s.setBitAt f i b).wvl = s.wvl := (rfl)
@[simp] theorem State.setBitAt_inp (s : State) (f : Fld) (i : Nat) (b : Bool) : (s.setBitAt f i b).inp = s.inp := (rfl)
@[simp] theorem State.setBitAt_trk (s : State) (f : Fld) (i : Nat) (b : Bool) : (s.setBitAt f i b).trk = s.trk := (rfl)
@[simp] theorem State.setBitAt_bcnOut (s : State) (f : Fld) (i : Nat) (b : Bool) : (s.setBitAt f i b).bcnOut = s.bcnOut := (rfl)
@[simp] theorem State.setBitAt_bcnIn (s : State) (f : Fld) (i : Nat) (b : Bool) : (s.setBitAt f i b).bcnIn = s.bcnIn := (rfl)
@[simp] theorem State.setBitAt_pins (s : State) (f : Fld) (i : Nat) (b : Bool) : (s.setBitAt f i b).pins = s.pins := (rfl)
@[simp] theorem State.setBitAt_stitch (s : State) (f : Fld) (i : Nat) (b : Bool) : (s.setBitAt f i b).stitch = s.stitch := (rfl)
@[simp] theorem State.setBitAt_suPos (s : State) (f : Fld) (i : Nat) (b : Bool) : (s.setBitAt f i b).suPos = s.suPos := (rfl)
@[simp] theorem State.setBitAt_suPath (s : State) (f : Fld) (i : Nat) (b : Bool) : (s.setBitAt f i b).suPath = s.suPath := (rfl)
@[simp] theorem State.setBitAt_suActs (s : State) (f : Fld) (i : Nat) (b : Bool) : (s.setBitAt f i b).suActs = s.suActs := (rfl)
@[simp] theorem State.setBitAt_suT (s : State) (f : Fld) (i : Nat) (b : Bool) : (s.setBitAt f i b).suT = s.suT := (rfl)
@[simp] theorem State.setBitAt_inj (s : State) (f : Fld) (i : Nat) (b : Bool) : (s.setBitAt f i b).inj = s.inj := (rfl)
@[simp] theorem State.setBitAt_ndl (s : State) (f : Fld) (i : Nat) (b : Bool) : (s.setBitAt f i b).ndl = s.ndl := (rfl)
@[simp] theorem State.setBitAt_ncl (s : State) (f : Fld) (i : Nat) (b : Bool) : (s.setBitAt f i b).ncl = s.ncl := (rfl)
@[simp] theorem State.setBitAt_cht (s : State) (f : Fld) (i : Nat) (b : Bool) : (s.setBitAt f i b).cht = s.cht := (rfl)
@[simp] theorem State.setBitAt_gau (s : State) (f : Fld) (i : Nat) (b : Bool) : (s.setBitAt f i b).gau = s.gau := (rfl)
@[simp] theorem State.setBitAt_cmp (s : State) (f : Fld) (i : Nat) (b : Bool) : (s.setBitAt f i b).cmp = s.cmp := (rfl)
@[simp] theorem State.setBitAt_tmr (s : State) (f : Fld) (i : Nat) (b : Bool) : (s.setBitAt f i b).tmr = s.tmr := (rfl)
@[simp] theorem State.setBitAt_tmrActs (s : State) (f : Fld) (i : Nat) (b : Bool) : (s.setBitAt f i b).tmrActs = s.tmrActs := (rfl)
@[simp] theorem State.setBitAt_hal (s : State) (f : Fld) (i : Nat) (b : Bool) : (s.setBitAt f i b).hal = s.hal := (rfl)
@[simp] theorem State.setBitAt_hook (s : State) (f : Fld) (i : Nat) (b : Bool) : (s.setBitAt f i b).hook = s.hook := (rfl)
@[simp] theorem State.setBitAt_gal (s : State) (f : Fld) (i : Nat) (b : Bool) : (s.setBitAt f i b).gal = s.gal := (rfl)
@[simp] theorem State.setBitAt_irt (s : State) (f : Fld) (i : Nat) (b : Bool) : (s.setBitAt f i b).irt = s.irt := (rfl)
@[simp] theorem State.setBitAt_host (s : State) (f : Fld) (i : Nat) (b : Bool) : (s.setBitAt f i b).host = s.host := (rfl)
@[simp] theorem State.setBitAt_stc (s : State) (f : Fld) (i : Nat) (b : Bool) : (s.setBitAt f i b).stc = s.stc := (rfl)
@[simp] theorem State.setBitAt_tru (s : State) (f : Fld) (i : Nat) (b : Bool) : (s.setBitAt f i b).tru = s.tru := (rfl)
@[simp] theorem State.setBitAt_can (s : State) (f : Fld) (i : Nat) (b : Bool) : (s.setBitAt f i b).can = s.can := (rfl)
@[simp] theorem State.setBitAt_sent (s : State) (f : Fld) (i : Nat) (b : Bool) : (s.setBitAt f i b).sent = s.sent := (rfl)
@[simp] theorem State.setBitAt_por (s : State) (f : Fld) (i : Nat) (b : Bool) : (s.setBitAt f i b).por = s.por := (rfl)

/-! ### mark -/

@[simp] theorem State.mark_pending (s : State) (a : Nat) (g : Word → Word) : (s.mark a g).pending = s.pending := by unfold State.mark; split <;> exact (rfl)
@[simp] theorem State.mark_fclk (s : State) (a : Nat) (g : Word → Word) : (s.mark a g).fclk = s.fclk := by unfold State.mark; split <;> exact (rfl)
@[simp] theorem State.mark_tb (s : State) (a : Nat) (g : Word → Word) : (s.mark a g).tb = s.tb := by unfold State.mark; split <;> exact (rfl)
@[simp] theorem State.mark_mtDue (s : State) (a : Nat) (g : Word → Word) : (s.mark a g).mtDue = s.mtDue := by unfold State.mark; split <;> exact (rfl)
@[simp] theorem State.mark_wrapDue (s : State) (a : Nat) (g : Word → Word) : (s.mark a g).wrapDue = s.wrapDue := by unfold State.mark; split <;> exact (rfl)
@[simp] theorem State.mark_syncDue (s : State) (a : Nat) (g : Word → Word) : (s.mark a g).syncDue = s.syncDue := by unfold State.mark; split <;> exact (rfl)
@[simp] theorem State.mark_tick10 (s : State) (a : Nat) (g : Word → Word) : (s.mark a g).tick10 = s.tick10 := by unfold State.mark; split <;> exact (rfl)
@[simp] theorem State.mark_corr (s : State) (a : Nat) (g : Word → Word) : (s.mark a g).corr = s.corr := by unfold State.mark; split <;> exact (rfl)
@[simp] theorem State.mark_slewT (s : State) (a : Nat) (g : Word → Word) : (s.mark a g).slewT = s.slewT := by unfold State.mark; split <;> exact (rfl)
@[simp] theorem State.mark_tbLog (s : State) (a : Nat) (g : Word → Word) : (s.mark a g).tbLog = s.tbLog := by unfold State.mark; split <;> exact (rfl)
@[simp] theorem State.mark_rd (s : State) (a : Nat) (g : Word → Word) : (s.mark a g).rd = s.rd := by unfold State.mark; split <;> exact (rfl)
@[simp] theorem State.mark_freeCtr (s : State) (a : Nat) (g : Word → Word) : (s.mark a g).freeCtr = s.freeCtr := by unfold State.mark; split <;> exact (rfl)
@[simp] theorem State.mark_regs (s : State) (a : Nat) (g : Word → Word) : (s.mark a g).regs = s.regs := by unfold State.mark; split <;> exact (rfl)
@[simp] theorem State.mark_halls (s : State) (a : Nat) (g : Word → Word) : (s.mark a g).halls = s.halls := by unfold State.mark; split <;> exact (rfl)
@[simp] theorem State.mark_hallErr (s : State) (a : Nat) (g : Word → Word) : (s.mark a g).hallErr = s.hallErr := by unfold State.mark; split <;> exact (rfl)
@[simp] theorem State.mark_nvs (s : State) (a : Nat) (g : Word → Word) : (s.mark a g).nvs = s.nvs := by unfold State.mark; split <;> exact (rfl)
@[simp] theorem State.mark_nvsErr (s : State) (a : Nat) (g : Word → Word) : (s.mark a g).nvsErr = s.nvsErr := by unfold State.mark; split <;> exact (rfl)
@[simp] theorem State.mark_routes (s : State) (a : Nat) (g : Word → Word) : (s.mark a g).routes = s.routes := by unfold State.mark; split <;> exact (rfl)
@[simp] theorem State.mark_pcr (s : State) (a : Nat) (g : Word → Word) : (s.mark a g).pcr = s.pcr := by unfold State.mark; split <;> exact (rfl)
@[simp] theorem State.mark_wvl (s : State) (a : Nat) (g : Word → Word) : (s.mark a g).wvl = s.wvl := by unfold State.mark; split <;> exact (rfl)
@[simp] theorem State.mark_inp (s : State) (a : Nat) (g : Word → Word) : (s.mark a g).inp = s.inp := by unfold State.mark; split <;> exact (rfl)
@[simp] theorem State.mark_trk (s : State) (a : Nat) (g : Word → Word) : (s.mark a g).trk = s.trk := by unfold State.mark; split <;> exact (rfl)
@[simp] theorem State.mark_bcnOut (s : State) (a : Nat) (g : Word → Word) : (s.mark a g).bcnOut = s.bcnOut := by unfold State.mark; split <;> exact (rfl)
@[simp] theorem State.mark_bcnIn (s : State) (a : Nat) (g : Word → Word) : (s.mark a g).bcnIn = s.bcnIn := by unfold State.mark; split <;> exact (rfl)
@[simp] theorem State.mark_pins (s : State) (a : Nat) (g : Word → Word) : (s.mark a g).pins = s.pins := by unfold State.mark; split <;> exact (rfl)
@[simp] theorem State.mark_stitch (s : State) (a : Nat) (g : Word → Word) : (s.mark a g).stitch = s.stitch := by unfold State.mark; split <;> exact (rfl)
@[simp] theorem State.mark_suPos (s : State) (a : Nat) (g : Word → Word) : (s.mark a g).suPos = s.suPos := by unfold State.mark; split <;> exact (rfl)
@[simp] theorem State.mark_suPath (s : State) (a : Nat) (g : Word → Word) : (s.mark a g).suPath = s.suPath := by unfold State.mark; split <;> exact (rfl)
@[simp] theorem State.mark_suActs (s : State) (a : Nat) (g : Word → Word) : (s.mark a g).suActs = s.suActs := by unfold State.mark; split <;> exact (rfl)
@[simp] theorem State.mark_suT (s : State) (a : Nat) (g : Word → Word) : (s.mark a g).suT = s.suT := by unfold State.mark; split <;> exact (rfl)
@[simp] theorem State.mark_inj (s : State) (a : Nat) (g : Word → Word) : (s.mark a g).inj = s.inj := by unfold State.mark; split <;> exact (rfl)
@[simp] theorem State.mark_ndl (s : State) (a : Nat) (g : Word → Word) : (s.mark a g).ndl = s.ndl := by unfold State.mark; split <;> exact (rfl)
@[simp] theorem State.mark_ncl (s : State) (a : Nat) (g : Word → Word) : (s.mark a g).ncl = s.ncl := by unfold State.mark; split <;> exact (rfl)
@[simp] theorem State.mark_cht (s : State) (a : Nat) (g : Word → Word) : (s.mark a g).cht = s.cht := by unfold State.mark; split <;> exact (rfl)
@[simp] theorem State.mark_gau (s : State) (a : Nat) (g : Word → Word) : (s.mark a g).gau = s.gau := by unfold State.mark; split <;> exact (rfl)
@[simp] theorem State.mark_cmp (s : State) (a : Nat) (g : Word → Word) : (s.mark a g).cmp = s.cmp := by unfold State.mark; split <;> exact (rfl)
@[simp] theorem State.mark_tmr (s : State) (a : Nat) (g : Word → Word) : (s.mark a g).tmr = s.tmr := by unfold State.mark; split <;> exact (rfl)
@[simp] theorem State.mark_tmrActs (s : State) (a : Nat) (g : Word → Word) : (s.mark a g).tmrActs = s.tmrActs := by unfold State.mark; split <;> exact (rfl)
@[simp] theorem State.mark_hal (s : State) (a : Nat) (g : Word → Word) : (s.mark a g).hal = s.hal := by unfold State.mark; split <;> exact (rfl)
@[simp] theorem State.mark_hook (s : State) (a : Nat) (g : Word → Word) : (s.mark a g).hook = s.hook := by unfold State.mark; split <;> exact (rfl)
@[simp] theorem State.mark_gal (s : State) (a : Nat) (g : Word → Word) : (s.mark a g).gal = s.gal := by unfold State.mark; split <;> exact (rfl)
@[simp] theorem State.mark_irt (s : State) (a : Nat) (g : Word → Word) : (s.mark a g).irt = s.irt := by unfold State.mark; split <;> exact (rfl)
@[simp] theorem State.mark_host (s : State) (a : Nat) (g : Word → Word) : (s.mark a g).host = s.host := by unfold State.mark; split <;> exact (rfl)
@[simp] theorem State.mark_stc (s : State) (a : Nat) (g : Word → Word) : (s.mark a g).stc = s.stc := by unfold State.mark; split <;> exact (rfl)
@[simp] theorem State.mark_tru (s : State) (a : Nat) (g : Word → Word) : (s.mark a g).tru = s.tru := by unfold State.mark; split <;> exact (rfl)
@[simp] theorem State.mark_can (s : State) (a : Nat) (g : Word → Word) : (s.mark a g).can = s.can := by unfold State.mark; split <;> exact (rfl)
@[simp] theorem State.mark_sent (s : State) (a : Nat) (g : Word → Word) : (s.mark a g).sent = s.sent := by unfold State.mark; split <;> exact (rfl)
@[simp] theorem State.mark_por (s : State) (a : Nat) (g : Word → Word) : (s.mark a g).por = s.por := by unfold State.mark; split <;> exact (rfl)

/-! ### evt -/

@[simp] theorem State.evt_pending (s : State) (f : Fld) : (s.evt f).pending = s.pending := by simp [State.evt]
@[simp] theorem State.evt_fclk (s : State) (f : Fld) : (s.evt f).fclk = s.fclk := by simp [State.evt]
@[simp] theorem State.evt_tb (s : State) (f : Fld) : (s.evt f).tb = s.tb := by simp [State.evt]
@[simp] theorem State.evt_mtDue (s : State) (f : Fld) : (s.evt f).mtDue = s.mtDue := by simp [State.evt]
@[simp] theorem State.evt_wrapDue (s : State) (f : Fld) : (s.evt f).wrapDue = s.wrapDue := by simp [State.evt]
@[simp] theorem State.evt_syncDue (s : State) (f : Fld) : (s.evt f).syncDue = s.syncDue := by simp [State.evt]
@[simp] theorem State.evt_tick10 (s : State) (f : Fld) : (s.evt f).tick10 = s.tick10 := by simp [State.evt]
@[simp] theorem State.evt_corr (s : State) (f : Fld) : (s.evt f).corr = s.corr := by simp [State.evt]
@[simp] theorem State.evt_slewT (s : State) (f : Fld) : (s.evt f).slewT = s.slewT := by simp [State.evt]
@[simp] theorem State.evt_tbLog (s : State) (f : Fld) : (s.evt f).tbLog = s.tbLog := by simp [State.evt]
@[simp] theorem State.evt_rd (s : State) (f : Fld) : (s.evt f).rd = s.rd := by simp [State.evt]
@[simp] theorem State.evt_freeCtr (s : State) (f : Fld) : (s.evt f).freeCtr = s.freeCtr := by simp [State.evt]
@[simp] theorem State.evt_halls (s : State) (f : Fld) : (s.evt f).halls = s.halls := by simp [State.evt]
@[simp] theorem State.evt_hallErr (s : State) (f : Fld) : (s.evt f).hallErr = s.hallErr := by simp [State.evt]
@[simp] theorem State.evt_nvs (s : State) (f : Fld) : (s.evt f).nvs = s.nvs := by simp [State.evt]
@[simp] theorem State.evt_nvsErr (s : State) (f : Fld) : (s.evt f).nvsErr = s.nvsErr := by simp [State.evt]
@[simp] theorem State.evt_routes (s : State) (f : Fld) : (s.evt f).routes = s.routes := by simp [State.evt]
@[simp] theorem State.evt_pcr (s : State) (f : Fld) : (s.evt f).pcr = s.pcr := by simp [State.evt]
@[simp] theorem State.evt_wvl (s : State) (f : Fld) : (s.evt f).wvl = s.wvl := by simp [State.evt]
@[simp] theorem State.evt_inp (s : State) (f : Fld) : (s.evt f).inp = s.inp := by simp [State.evt]
@[simp] theorem State.evt_trk (s : State) (f : Fld) : (s.evt f).trk = s.trk := by simp [State.evt]
@[simp] theorem State.evt_bcnOut (s : State) (f : Fld) : (s.evt f).bcnOut = s.bcnOut := by simp [State.evt]
@[simp] theorem State.evt_bcnIn (s : State) (f : Fld) : (s.evt f).bcnIn = s.bcnIn := by simp [State.evt]
@[simp] theorem State.evt_pins (s : State) (f : Fld) : (s.evt f).pins = s.pins := by simp [State.evt]
@[simp] theorem State.evt_stitch (s : State) (f : Fld) : (s.evt f).stitch = s.stitch := by simp [State.evt]
@[simp] theorem State.evt_suPos (s : State) (f : Fld) : (s.evt f).suPos = s.suPos := by simp [State.evt]
@[simp] theorem State.evt_suPath (s : State) (f : Fld) : (s.evt f).suPath = s.suPath := by simp [State.evt]
@[simp] theorem State.evt_suActs (s : State) (f : Fld) : (s.evt f).suActs = s.suActs := by simp [State.evt]
@[simp] theorem State.evt_suT (s : State) (f : Fld) : (s.evt f).suT = s.suT := by simp [State.evt]
@[simp] theorem State.evt_inj (s : State) (f : Fld) : (s.evt f).inj = s.inj := by simp [State.evt]
@[simp] theorem State.evt_ndl (s : State) (f : Fld) : (s.evt f).ndl = s.ndl := by simp [State.evt]
@[simp] theorem State.evt_ncl (s : State) (f : Fld) : (s.evt f).ncl = s.ncl := by simp [State.evt]
@[simp] theorem State.evt_cht (s : State) (f : Fld) : (s.evt f).cht = s.cht := by simp [State.evt]
@[simp] theorem State.evt_gau (s : State) (f : Fld) : (s.evt f).gau = s.gau := by simp [State.evt]
@[simp] theorem State.evt_cmp (s : State) (f : Fld) : (s.evt f).cmp = s.cmp := by simp [State.evt]
@[simp] theorem State.evt_tmr (s : State) (f : Fld) : (s.evt f).tmr = s.tmr := by simp [State.evt]
@[simp] theorem State.evt_tmrActs (s : State) (f : Fld) : (s.evt f).tmrActs = s.tmrActs := by simp [State.evt]
@[simp] theorem State.evt_hal (s : State) (f : Fld) : (s.evt f).hal = s.hal := by simp [State.evt]
@[simp] theorem State.evt_hook (s : State) (f : Fld) : (s.evt f).hook = s.hook := by simp [State.evt]
@[simp] theorem State.evt_gal (s : State) (f : Fld) : (s.evt f).gal = s.gal := by simp [State.evt]
@[simp] theorem State.evt_irt (s : State) (f : Fld) : (s.evt f).irt = s.irt := by simp [State.evt]
@[simp] theorem State.evt_host (s : State) (f : Fld) : (s.evt f).host = s.host := by simp [State.evt]
@[simp] theorem State.evt_stc (s : State) (f : Fld) : (s.evt f).stc = s.stc := by simp [State.evt]
@[simp] theorem State.evt_tru (s : State) (f : Fld) : (s.evt f).tru = s.tru := by simp [State.evt]
@[simp] theorem State.evt_can (s : State) (f : Fld) : (s.evt f).can = s.can := by simp [State.evt]
@[simp] theorem State.evt_sent (s : State) (f : Fld) : (s.evt f).sent = s.sent := by simp [State.evt]
@[simp] theorem State.evt_por (s : State) (f : Fld) : (s.evt f).por = s.por := by simp [State.evt]

/-! ### evtAt -/

@[simp] theorem State.evtAt_pending (s : State) (f : Fld) (i : Nat) : (s.evtAt f i).pending = s.pending := by simp [State.evtAt]
@[simp] theorem State.evtAt_fclk (s : State) (f : Fld) (i : Nat) : (s.evtAt f i).fclk = s.fclk := by simp [State.evtAt]
@[simp] theorem State.evtAt_tb (s : State) (f : Fld) (i : Nat) : (s.evtAt f i).tb = s.tb := by simp [State.evtAt]
@[simp] theorem State.evtAt_mtDue (s : State) (f : Fld) (i : Nat) : (s.evtAt f i).mtDue = s.mtDue := by simp [State.evtAt]
@[simp] theorem State.evtAt_wrapDue (s : State) (f : Fld) (i : Nat) : (s.evtAt f i).wrapDue = s.wrapDue := by simp [State.evtAt]
@[simp] theorem State.evtAt_syncDue (s : State) (f : Fld) (i : Nat) : (s.evtAt f i).syncDue = s.syncDue := by simp [State.evtAt]
@[simp] theorem State.evtAt_tick10 (s : State) (f : Fld) (i : Nat) : (s.evtAt f i).tick10 = s.tick10 := by simp [State.evtAt]
@[simp] theorem State.evtAt_corr (s : State) (f : Fld) (i : Nat) : (s.evtAt f i).corr = s.corr := by simp [State.evtAt]
@[simp] theorem State.evtAt_slewT (s : State) (f : Fld) (i : Nat) : (s.evtAt f i).slewT = s.slewT := by simp [State.evtAt]
@[simp] theorem State.evtAt_tbLog (s : State) (f : Fld) (i : Nat) : (s.evtAt f i).tbLog = s.tbLog := by simp [State.evtAt]
@[simp] theorem State.evtAt_rd (s : State) (f : Fld) (i : Nat) : (s.evtAt f i).rd = s.rd := by simp [State.evtAt]
@[simp] theorem State.evtAt_freeCtr (s : State) (f : Fld) (i : Nat) : (s.evtAt f i).freeCtr = s.freeCtr := by simp [State.evtAt]
@[simp] theorem State.evtAt_halls (s : State) (f : Fld) (i : Nat) : (s.evtAt f i).halls = s.halls := by simp [State.evtAt]
@[simp] theorem State.evtAt_hallErr (s : State) (f : Fld) (i : Nat) : (s.evtAt f i).hallErr = s.hallErr := by simp [State.evtAt]
@[simp] theorem State.evtAt_nvs (s : State) (f : Fld) (i : Nat) : (s.evtAt f i).nvs = s.nvs := by simp [State.evtAt]
@[simp] theorem State.evtAt_nvsErr (s : State) (f : Fld) (i : Nat) : (s.evtAt f i).nvsErr = s.nvsErr := by simp [State.evtAt]
@[simp] theorem State.evtAt_routes (s : State) (f : Fld) (i : Nat) : (s.evtAt f i).routes = s.routes := by simp [State.evtAt]
@[simp] theorem State.evtAt_pcr (s : State) (f : Fld) (i : Nat) : (s.evtAt f i).pcr = s.pcr := by simp [State.evtAt]
@[simp] theorem State.evtAt_wvl (s : State) (f : Fld) (i : Nat) : (s.evtAt f i).wvl = s.wvl := by simp [State.evtAt]
@[simp] theorem State.evtAt_inp (s : State) (f : Fld) (i : Nat) : (s.evtAt f i).inp = s.inp := by simp [State.evtAt]
@[simp] theorem State.evtAt_trk (s : State) (f : Fld) (i : Nat) : (s.evtAt f i).trk = s.trk := by simp [State.evtAt]
@[simp] theorem State.evtAt_bcnOut (s : State) (f : Fld) (i : Nat) : (s.evtAt f i).bcnOut = s.bcnOut := by simp [State.evtAt]
@[simp] theorem State.evtAt_bcnIn (s : State) (f : Fld) (i : Nat) : (s.evtAt f i).bcnIn = s.bcnIn := by simp [State.evtAt]
@[simp] theorem State.evtAt_pins (s : State) (f : Fld) (i : Nat) : (s.evtAt f i).pins = s.pins := by simp [State.evtAt]
@[simp] theorem State.evtAt_stitch (s : State) (f : Fld) (i : Nat) : (s.evtAt f i).stitch = s.stitch := by simp [State.evtAt]
@[simp] theorem State.evtAt_suPos (s : State) (f : Fld) (i : Nat) : (s.evtAt f i).suPos = s.suPos := by simp [State.evtAt]
@[simp] theorem State.evtAt_suPath (s : State) (f : Fld) (i : Nat) : (s.evtAt f i).suPath = s.suPath := by simp [State.evtAt]
@[simp] theorem State.evtAt_suActs (s : State) (f : Fld) (i : Nat) : (s.evtAt f i).suActs = s.suActs := by simp [State.evtAt]
@[simp] theorem State.evtAt_suT (s : State) (f : Fld) (i : Nat) : (s.evtAt f i).suT = s.suT := by simp [State.evtAt]
@[simp] theorem State.evtAt_inj (s : State) (f : Fld) (i : Nat) : (s.evtAt f i).inj = s.inj := by simp [State.evtAt]
@[simp] theorem State.evtAt_ndl (s : State) (f : Fld) (i : Nat) : (s.evtAt f i).ndl = s.ndl := by simp [State.evtAt]
@[simp] theorem State.evtAt_ncl (s : State) (f : Fld) (i : Nat) : (s.evtAt f i).ncl = s.ncl := by simp [State.evtAt]
@[simp] theorem State.evtAt_cht (s : State) (f : Fld) (i : Nat) : (s.evtAt f i).cht = s.cht := by simp [State.evtAt]
@[simp] theorem State.evtAt_gau (s : State) (f : Fld) (i : Nat) : (s.evtAt f i).gau = s.gau := by simp [State.evtAt]
@[simp] theorem State.evtAt_cmp (s : State) (f : Fld) (i : Nat) : (s.evtAt f i).cmp = s.cmp := by simp [State.evtAt]
@[simp] theorem State.evtAt_tmr (s : State) (f : Fld) (i : Nat) : (s.evtAt f i).tmr = s.tmr := by simp [State.evtAt]
@[simp] theorem State.evtAt_tmrActs (s : State) (f : Fld) (i : Nat) : (s.evtAt f i).tmrActs = s.tmrActs := by simp [State.evtAt]
@[simp] theorem State.evtAt_hal (s : State) (f : Fld) (i : Nat) : (s.evtAt f i).hal = s.hal := by simp [State.evtAt]
@[simp] theorem State.evtAt_hook (s : State) (f : Fld) (i : Nat) : (s.evtAt f i).hook = s.hook := by simp [State.evtAt]
@[simp] theorem State.evtAt_gal (s : State) (f : Fld) (i : Nat) : (s.evtAt f i).gal = s.gal := by simp [State.evtAt]
@[simp] theorem State.evtAt_irt (s : State) (f : Fld) (i : Nat) : (s.evtAt f i).irt = s.irt := by simp [State.evtAt]
@[simp] theorem State.evtAt_host (s : State) (f : Fld) (i : Nat) : (s.evtAt f i).host = s.host := by simp [State.evtAt]
@[simp] theorem State.evtAt_stc (s : State) (f : Fld) (i : Nat) : (s.evtAt f i).stc = s.stc := by simp [State.evtAt]
@[simp] theorem State.evtAt_tru (s : State) (f : Fld) (i : Nat) : (s.evtAt f i).tru = s.tru := by simp [State.evtAt]
@[simp] theorem State.evtAt_can (s : State) (f : Fld) (i : Nat) : (s.evtAt f i).can = s.can := by simp [State.evtAt]
@[simp] theorem State.evtAt_sent (s : State) (f : Fld) (i : Nat) : (s.evtAt f i).sent = s.sent := by simp [State.evtAt]
@[simp] theorem State.evtAt_por (s : State) (f : Fld) (i : Nat) : (s.evtAt f i).por = s.por := by simp [State.evtAt]

/-! ### evtAdd -/

@[simp] theorem State.evtAdd_pending (s : State) (f : Fld) (k : Nat) : (s.evtAdd f k).pending = s.pending := by simp [State.evtAdd]
@[simp] theorem State.evtAdd_fclk (s : State) (f : Fld) (k : Nat) : (s.evtAdd f k).fclk = s.fclk := by simp [State.evtAdd]
@[simp] theorem State.evtAdd_tb (s : State) (f : Fld) (k : Nat) : (s.evtAdd f k).tb = s.tb := by simp [State.evtAdd]
@[simp] theorem State.evtAdd_mtDue (s : State) (f : Fld) (k : Nat) : (s.evtAdd f k).mtDue = s.mtDue := by simp [State.evtAdd]
@[simp] theorem State.evtAdd_wrapDue (s : State) (f : Fld) (k : Nat) : (s.evtAdd f k).wrapDue = s.wrapDue := by simp [State.evtAdd]
@[simp] theorem State.evtAdd_syncDue (s : State) (f : Fld) (k : Nat) : (s.evtAdd f k).syncDue = s.syncDue := by simp [State.evtAdd]
@[simp] theorem State.evtAdd_tick10 (s : State) (f : Fld) (k : Nat) : (s.evtAdd f k).tick10 = s.tick10 := by simp [State.evtAdd]
@[simp] theorem State.evtAdd_corr (s : State) (f : Fld) (k : Nat) : (s.evtAdd f k).corr = s.corr := by simp [State.evtAdd]
@[simp] theorem State.evtAdd_slewT (s : State) (f : Fld) (k : Nat) : (s.evtAdd f k).slewT = s.slewT := by simp [State.evtAdd]
@[simp] theorem State.evtAdd_tbLog (s : State) (f : Fld) (k : Nat) : (s.evtAdd f k).tbLog = s.tbLog := by simp [State.evtAdd]
@[simp] theorem State.evtAdd_rd (s : State) (f : Fld) (k : Nat) : (s.evtAdd f k).rd = s.rd := by simp [State.evtAdd]
@[simp] theorem State.evtAdd_freeCtr (s : State) (f : Fld) (k : Nat) : (s.evtAdd f k).freeCtr = s.freeCtr := by simp [State.evtAdd]
@[simp] theorem State.evtAdd_halls (s : State) (f : Fld) (k : Nat) : (s.evtAdd f k).halls = s.halls := by simp [State.evtAdd]
@[simp] theorem State.evtAdd_hallErr (s : State) (f : Fld) (k : Nat) : (s.evtAdd f k).hallErr = s.hallErr := by simp [State.evtAdd]
@[simp] theorem State.evtAdd_nvs (s : State) (f : Fld) (k : Nat) : (s.evtAdd f k).nvs = s.nvs := by simp [State.evtAdd]
@[simp] theorem State.evtAdd_nvsErr (s : State) (f : Fld) (k : Nat) : (s.evtAdd f k).nvsErr = s.nvsErr := by simp [State.evtAdd]
@[simp] theorem State.evtAdd_routes (s : State) (f : Fld) (k : Nat) : (s.evtAdd f k).routes = s.routes := by simp [State.evtAdd]
@[simp] theorem State.evtAdd_pcr (s : State) (f : Fld) (k : Nat) : (s.evtAdd f k).pcr = s.pcr := by simp [State.evtAdd]
@[simp] theorem State.evtAdd_wvl (s : State) (f : Fld) (k : Nat) : (s.evtAdd f k).wvl = s.wvl := by simp [State.evtAdd]
@[simp] theorem State.evtAdd_inp (s : State) (f : Fld) (k : Nat) : (s.evtAdd f k).inp = s.inp := by simp [State.evtAdd]
@[simp] theorem State.evtAdd_trk (s : State) (f : Fld) (k : Nat) : (s.evtAdd f k).trk = s.trk := by simp [State.evtAdd]
@[simp] theorem State.evtAdd_bcnOut (s : State) (f : Fld) (k : Nat) : (s.evtAdd f k).bcnOut = s.bcnOut := by simp [State.evtAdd]
@[simp] theorem State.evtAdd_bcnIn (s : State) (f : Fld) (k : Nat) : (s.evtAdd f k).bcnIn = s.bcnIn := by simp [State.evtAdd]
@[simp] theorem State.evtAdd_pins (s : State) (f : Fld) (k : Nat) : (s.evtAdd f k).pins = s.pins := by simp [State.evtAdd]
@[simp] theorem State.evtAdd_stitch (s : State) (f : Fld) (k : Nat) : (s.evtAdd f k).stitch = s.stitch := by simp [State.evtAdd]
@[simp] theorem State.evtAdd_suPos (s : State) (f : Fld) (k : Nat) : (s.evtAdd f k).suPos = s.suPos := by simp [State.evtAdd]
@[simp] theorem State.evtAdd_suPath (s : State) (f : Fld) (k : Nat) : (s.evtAdd f k).suPath = s.suPath := by simp [State.evtAdd]
@[simp] theorem State.evtAdd_suActs (s : State) (f : Fld) (k : Nat) : (s.evtAdd f k).suActs = s.suActs := by simp [State.evtAdd]
@[simp] theorem State.evtAdd_suT (s : State) (f : Fld) (k : Nat) : (s.evtAdd f k).suT = s.suT := by simp [State.evtAdd]
@[simp] theorem State.evtAdd_inj (s : State) (f : Fld) (k : Nat) : (s.evtAdd f k).inj = s.inj := by simp [State.evtAdd]
@[simp] theorem State.evtAdd_ndl (s : State) (f : Fld) (k : Nat) : (s.evtAdd f k).ndl = s.ndl := by simp [State.evtAdd]
@[simp] theorem State.evtAdd_ncl (s : State) (f : Fld) (k : Nat) : (s.evtAdd f k).ncl = s.ncl := by simp [State.evtAdd]
@[simp] theorem State.evtAdd_cht (s : State) (f : Fld) (k : Nat) : (s.evtAdd f k).cht = s.cht := by simp [State.evtAdd]
@[simp] theorem State.evtAdd_gau (s : State) (f : Fld) (k : Nat) : (s.evtAdd f k).gau = s.gau := by simp [State.evtAdd]
@[simp] theorem State.evtAdd_cmp (s : State) (f : Fld) (k : Nat) : (s.evtAdd f k).cmp = s.cmp := by simp [State.evtAdd]
@[simp] theorem State.evtAdd_tmr (s : State) (f : Fld) (k : Nat) : (s.evtAdd f k).tmr = s.tmr := by simp [State.evtAdd]
@[simp] theorem State.evtAdd_tmrActs (s : State) (f : Fld) (k : Nat) : (s.evtAdd f k).tmrActs = s.tmrActs := by simp [State.evtAdd]
@[simp] theorem State.evtAdd_hal (s : State) (f : Fld) (k : Nat) : (s.evtAdd f k).hal = s.hal := by simp [State.evtAdd]
@[simp] theorem State.evtAdd_hook (s : State) (f : Fld) (k : Nat) : (s.evtAdd f k).hook = s.hook := by simp [State.evtAdd]
@[simp] theorem State.evtAdd_gal (s : State) (f : Fld) (k : Nat) : (s.evtAdd f k).gal = s.gal := by simp [State.evtAdd]
@[simp] theorem State.evtAdd_irt (s : State) (f : Fld) (k : Nat) : (s.evtAdd f k).irt = s.irt := by simp [State.evtAdd]
@[simp] theorem State.evtAdd_host (s : State) (f : Fld) (k : Nat) : (s.evtAdd f k).host = s.host := by simp [State.evtAdd]
@[simp] theorem State.evtAdd_stc (s : State) (f : Fld) (k : Nat) : (s.evtAdd f k).stc = s.stc := by simp [State.evtAdd]
@[simp] theorem State.evtAdd_tru (s : State) (f : Fld) (k : Nat) : (s.evtAdd f k).tru = s.tru := by simp [State.evtAdd]
@[simp] theorem State.evtAdd_can (s : State) (f : Fld) (k : Nat) : (s.evtAdd f k).can = s.can := by simp [State.evtAdd]
@[simp] theorem State.evtAdd_sent (s : State) (f : Fld) (k : Nat) : (s.evtAdd f k).sent = s.sent := by simp [State.evtAdd]
@[simp] theorem State.evtAdd_por (s : State) (f : Fld) (k : Nat) : (s.evtAdd f k).por = s.por := by simp [State.evtAdd]

/-! ### evtInc -/

@[simp] theorem State.evtInc_pending (s : State) (f : Fld) : (s.evtInc f).pending = s.pending := by simp [State.evtInc]
@[simp] theorem State.evtInc_fclk (s : State) (f : Fld) : (s.evtInc f).fclk = s.fclk := by simp [State.evtInc]
@[simp] theorem State.evtInc_tb (s : State) (f : Fld) : (s.evtInc f).tb = s.tb := by simp [State.evtInc]
@[simp] theorem State.evtInc_mtDue (s : State) (f : Fld) : (s.evtInc f).mtDue = s.mtDue := by simp [State.evtInc]
@[simp] theorem State.evtInc_wrapDue (s : State) (f : Fld) : (s.evtInc f).wrapDue = s.wrapDue := by simp [State.evtInc]
@[simp] theorem State.evtInc_syncDue (s : State) (f : Fld) : (s.evtInc f).syncDue = s.syncDue := by simp [State.evtInc]
@[simp] theorem State.evtInc_tick10 (s : State) (f : Fld) : (s.evtInc f).tick10 = s.tick10 := by simp [State.evtInc]
@[simp] theorem State.evtInc_corr (s : State) (f : Fld) : (s.evtInc f).corr = s.corr := by simp [State.evtInc]
@[simp] theorem State.evtInc_slewT (s : State) (f : Fld) : (s.evtInc f).slewT = s.slewT := by simp [State.evtInc]
@[simp] theorem State.evtInc_tbLog (s : State) (f : Fld) : (s.evtInc f).tbLog = s.tbLog := by simp [State.evtInc]
@[simp] theorem State.evtInc_rd (s : State) (f : Fld) : (s.evtInc f).rd = s.rd := by simp [State.evtInc]
@[simp] theorem State.evtInc_freeCtr (s : State) (f : Fld) : (s.evtInc f).freeCtr = s.freeCtr := by simp [State.evtInc]
@[simp] theorem State.evtInc_halls (s : State) (f : Fld) : (s.evtInc f).halls = s.halls := by simp [State.evtInc]
@[simp] theorem State.evtInc_hallErr (s : State) (f : Fld) : (s.evtInc f).hallErr = s.hallErr := by simp [State.evtInc]
@[simp] theorem State.evtInc_nvs (s : State) (f : Fld) : (s.evtInc f).nvs = s.nvs := by simp [State.evtInc]
@[simp] theorem State.evtInc_nvsErr (s : State) (f : Fld) : (s.evtInc f).nvsErr = s.nvsErr := by simp [State.evtInc]
@[simp] theorem State.evtInc_routes (s : State) (f : Fld) : (s.evtInc f).routes = s.routes := by simp [State.evtInc]
@[simp] theorem State.evtInc_pcr (s : State) (f : Fld) : (s.evtInc f).pcr = s.pcr := by simp [State.evtInc]
@[simp] theorem State.evtInc_wvl (s : State) (f : Fld) : (s.evtInc f).wvl = s.wvl := by simp [State.evtInc]
@[simp] theorem State.evtInc_inp (s : State) (f : Fld) : (s.evtInc f).inp = s.inp := by simp [State.evtInc]
@[simp] theorem State.evtInc_trk (s : State) (f : Fld) : (s.evtInc f).trk = s.trk := by simp [State.evtInc]
@[simp] theorem State.evtInc_bcnOut (s : State) (f : Fld) : (s.evtInc f).bcnOut = s.bcnOut := by simp [State.evtInc]
@[simp] theorem State.evtInc_bcnIn (s : State) (f : Fld) : (s.evtInc f).bcnIn = s.bcnIn := by simp [State.evtInc]
@[simp] theorem State.evtInc_pins (s : State) (f : Fld) : (s.evtInc f).pins = s.pins := by simp [State.evtInc]
@[simp] theorem State.evtInc_stitch (s : State) (f : Fld) : (s.evtInc f).stitch = s.stitch := by simp [State.evtInc]
@[simp] theorem State.evtInc_suPos (s : State) (f : Fld) : (s.evtInc f).suPos = s.suPos := by simp [State.evtInc]
@[simp] theorem State.evtInc_suPath (s : State) (f : Fld) : (s.evtInc f).suPath = s.suPath := by simp [State.evtInc]
@[simp] theorem State.evtInc_suActs (s : State) (f : Fld) : (s.evtInc f).suActs = s.suActs := by simp [State.evtInc]
@[simp] theorem State.evtInc_suT (s : State) (f : Fld) : (s.evtInc f).suT = s.suT := by simp [State.evtInc]
@[simp] theorem State.evtInc_inj (s : State) (f : Fld) : (s.evtInc f).inj = s.inj := by simp [State.evtInc]
@[simp] theorem State.evtInc_ndl (s : State) (f : Fld) : (s.evtInc f).ndl = s.ndl := by simp [State.evtInc]
@[simp] theorem State.evtInc_ncl (s : State) (f : Fld) : (s.evtInc f).ncl = s.ncl := by simp [State.evtInc]
@[simp] theorem State.evtInc_cht (s : State) (f : Fld) : (s.evtInc f).cht = s.cht := by simp [State.evtInc]
@[simp] theorem State.evtInc_gau (s : State) (f : Fld) : (s.evtInc f).gau = s.gau := by simp [State.evtInc]
@[simp] theorem State.evtInc_cmp (s : State) (f : Fld) : (s.evtInc f).cmp = s.cmp := by simp [State.evtInc]
@[simp] theorem State.evtInc_tmr (s : State) (f : Fld) : (s.evtInc f).tmr = s.tmr := by simp [State.evtInc]
@[simp] theorem State.evtInc_tmrActs (s : State) (f : Fld) : (s.evtInc f).tmrActs = s.tmrActs := by simp [State.evtInc]
@[simp] theorem State.evtInc_hal (s : State) (f : Fld) : (s.evtInc f).hal = s.hal := by simp [State.evtInc]
@[simp] theorem State.evtInc_hook (s : State) (f : Fld) : (s.evtInc f).hook = s.hook := by simp [State.evtInc]
@[simp] theorem State.evtInc_gal (s : State) (f : Fld) : (s.evtInc f).gal = s.gal := by simp [State.evtInc]
@[simp] theorem State.evtInc_irt (s : State) (f : Fld) : (s.evtInc f).irt = s.irt := by simp [State.evtInc]
@[simp] theorem State.evtInc_host (s : State) (f : Fld) : (s.evtInc f).host = s.host := by simp [State.evtInc]
@[simp] theorem State.evtInc_stc (s : State) (f : Fld) : (s.evtInc f).stc = s.stc := by simp [State.evtInc]
@[simp] theorem State.evtInc_tru (s : State) (f : Fld) : (s.evtInc f).tru = s.tru := by simp [State.evtInc]
@[simp] theorem State.evtInc_can (s : State) (f : Fld) : (s.evtInc f).can = s.can := by simp [State.evtInc]
@[simp] theorem State.evtInc_sent (s : State) (f : Fld) : (s.evtInc f).sent = s.sent := by simp [State.evtInc]
@[simp] theorem State.evtInc_por (s : State) (f : Fld) : (s.evtInc f).por = s.por := by simp [State.evtInc]

/-! ### clearRC -/

@[simp] theorem State.clearRC_pending (s : State) (a : Nat) : (s.clearRC a).pending = s.pending := by unfold State.clearRC; split <;> rfl
@[simp] theorem State.clearRC_fclk (s : State) (a : Nat) : (s.clearRC a).fclk = s.fclk := by unfold State.clearRC; split <;> rfl
@[simp] theorem State.clearRC_tb (s : State) (a : Nat) : (s.clearRC a).tb = s.tb := by unfold State.clearRC; split <;> rfl
@[simp] theorem State.clearRC_mtDue (s : State) (a : Nat) : (s.clearRC a).mtDue = s.mtDue := by unfold State.clearRC; split <;> rfl
@[simp] theorem State.clearRC_wrapDue (s : State) (a : Nat) : (s.clearRC a).wrapDue = s.wrapDue := by unfold State.clearRC; split <;> rfl
@[simp] theorem State.clearRC_syncDue (s : State) (a : Nat) : (s.clearRC a).syncDue = s.syncDue := by unfold State.clearRC; split <;> rfl
@[simp] theorem State.clearRC_tick10 (s : State) (a : Nat) : (s.clearRC a).tick10 = s.tick10 := by unfold State.clearRC; split <;> rfl
@[simp] theorem State.clearRC_corr (s : State) (a : Nat) : (s.clearRC a).corr = s.corr := by unfold State.clearRC; split <;> rfl
@[simp] theorem State.clearRC_slewT (s : State) (a : Nat) : (s.clearRC a).slewT = s.slewT := by unfold State.clearRC; split <;> rfl
@[simp] theorem State.clearRC_tbLog (s : State) (a : Nat) : (s.clearRC a).tbLog = s.tbLog := by unfold State.clearRC; split <;> rfl
@[simp] theorem State.clearRC_rd (s : State) (a : Nat) : (s.clearRC a).rd = s.rd := by unfold State.clearRC; split <;> rfl
@[simp] theorem State.clearRC_freeCtr (s : State) (a : Nat) : (s.clearRC a).freeCtr = s.freeCtr := by unfold State.clearRC; split <;> rfl
@[simp] theorem State.clearRC_marks (s : State) (a : Nat) : (s.clearRC a).marks = s.marks := by unfold State.clearRC; split <;> rfl
@[simp] theorem State.clearRC_halls (s : State) (a : Nat) : (s.clearRC a).halls = s.halls := by unfold State.clearRC; split <;> rfl
@[simp] theorem State.clearRC_hallErr (s : State) (a : Nat) : (s.clearRC a).hallErr = s.hallErr := by unfold State.clearRC; split <;> rfl
@[simp] theorem State.clearRC_nvs (s : State) (a : Nat) : (s.clearRC a).nvs = s.nvs := by unfold State.clearRC; split <;> rfl
@[simp] theorem State.clearRC_nvsErr (s : State) (a : Nat) : (s.clearRC a).nvsErr = s.nvsErr := by unfold State.clearRC; split <;> rfl
@[simp] theorem State.clearRC_routes (s : State) (a : Nat) : (s.clearRC a).routes = s.routes := by unfold State.clearRC; split <;> rfl
@[simp] theorem State.clearRC_pcr (s : State) (a : Nat) : (s.clearRC a).pcr = s.pcr := by unfold State.clearRC; split <;> rfl
@[simp] theorem State.clearRC_wvl (s : State) (a : Nat) : (s.clearRC a).wvl = s.wvl := by unfold State.clearRC; split <;> rfl
@[simp] theorem State.clearRC_inp (s : State) (a : Nat) : (s.clearRC a).inp = s.inp := by unfold State.clearRC; split <;> rfl
@[simp] theorem State.clearRC_trk (s : State) (a : Nat) : (s.clearRC a).trk = s.trk := by unfold State.clearRC; split <;> rfl
@[simp] theorem State.clearRC_bcnOut (s : State) (a : Nat) : (s.clearRC a).bcnOut = s.bcnOut := by unfold State.clearRC; split <;> rfl
@[simp] theorem State.clearRC_bcnIn (s : State) (a : Nat) : (s.clearRC a).bcnIn = s.bcnIn := by unfold State.clearRC; split <;> rfl
@[simp] theorem State.clearRC_pins (s : State) (a : Nat) : (s.clearRC a).pins = s.pins := by unfold State.clearRC; split <;> rfl
@[simp] theorem State.clearRC_stitch (s : State) (a : Nat) : (s.clearRC a).stitch = s.stitch := by unfold State.clearRC; split <;> rfl
@[simp] theorem State.clearRC_suPos (s : State) (a : Nat) : (s.clearRC a).suPos = s.suPos := by unfold State.clearRC; split <;> rfl
@[simp] theorem State.clearRC_suPath (s : State) (a : Nat) : (s.clearRC a).suPath = s.suPath := by unfold State.clearRC; split <;> rfl
@[simp] theorem State.clearRC_suActs (s : State) (a : Nat) : (s.clearRC a).suActs = s.suActs := by unfold State.clearRC; split <;> rfl
@[simp] theorem State.clearRC_suT (s : State) (a : Nat) : (s.clearRC a).suT = s.suT := by unfold State.clearRC; split <;> rfl
@[simp] theorem State.clearRC_inj (s : State) (a : Nat) : (s.clearRC a).inj = s.inj := by unfold State.clearRC; split <;> rfl
@[simp] theorem State.clearRC_ndl (s : State) (a : Nat) : (s.clearRC a).ndl = s.ndl := by unfold State.clearRC; split <;> rfl
@[simp] theorem State.clearRC_ncl (s : State) (a : Nat) : (s.clearRC a).ncl = s.ncl := by unfold State.clearRC; split <;> rfl
@[simp] theorem State.clearRC_cht (s : State) (a : Nat) : (s.clearRC a).cht = s.cht := by unfold State.clearRC; split <;> rfl
@[simp] theorem State.clearRC_gau (s : State) (a : Nat) : (s.clearRC a).gau = s.gau := by unfold State.clearRC; split <;> rfl
@[simp] theorem State.clearRC_cmp (s : State) (a : Nat) : (s.clearRC a).cmp = s.cmp := by unfold State.clearRC; split <;> rfl
@[simp] theorem State.clearRC_tmr (s : State) (a : Nat) : (s.clearRC a).tmr = s.tmr := by unfold State.clearRC; split <;> rfl
@[simp] theorem State.clearRC_tmrActs (s : State) (a : Nat) : (s.clearRC a).tmrActs = s.tmrActs := by unfold State.clearRC; split <;> rfl
@[simp] theorem State.clearRC_hal (s : State) (a : Nat) : (s.clearRC a).hal = s.hal := by unfold State.clearRC; split <;> rfl
@[simp] theorem State.clearRC_hook (s : State) (a : Nat) : (s.clearRC a).hook = s.hook := by unfold State.clearRC; split <;> rfl
@[simp] theorem State.clearRC_gal (s : State) (a : Nat) : (s.clearRC a).gal = s.gal := by unfold State.clearRC; split <;> rfl
@[simp] theorem State.clearRC_irt (s : State) (a : Nat) : (s.clearRC a).irt = s.irt := by unfold State.clearRC; split <;> rfl
@[simp] theorem State.clearRC_host (s : State) (a : Nat) : (s.clearRC a).host = s.host := by unfold State.clearRC; split <;> rfl
@[simp] theorem State.clearRC_stc (s : State) (a : Nat) : (s.clearRC a).stc = s.stc := by unfold State.clearRC; split <;> rfl
@[simp] theorem State.clearRC_tru (s : State) (a : Nat) : (s.clearRC a).tru = s.tru := by unfold State.clearRC; split <;> rfl
@[simp] theorem State.clearRC_can (s : State) (a : Nat) : (s.clearRC a).can = s.can := by unfold State.clearRC; split <;> rfl
@[simp] theorem State.clearRC_sent (s : State) (a : Nat) : (s.clearRC a).sent = s.sent := by unfold State.clearRC; split <;> rfl
@[simp] theorem State.clearRC_por (s : State) (a : Nat) : (s.clearRC a).por = s.por := by unfold State.clearRC; split <;> rfl

/-! ### recordReject -/

@[simp] theorem State.recordReject_pending (s : State) (a : Nat) : (s.recordReject a).pending = s.pending := by simp [State.recordReject]
@[simp] theorem State.recordReject_fclk (s : State) (a : Nat) : (s.recordReject a).fclk = s.fclk := by simp [State.recordReject]
@[simp] theorem State.recordReject_tb (s : State) (a : Nat) : (s.recordReject a).tb = s.tb := by simp [State.recordReject]
@[simp] theorem State.recordReject_mtDue (s : State) (a : Nat) : (s.recordReject a).mtDue = s.mtDue := by simp [State.recordReject]
@[simp] theorem State.recordReject_wrapDue (s : State) (a : Nat) : (s.recordReject a).wrapDue = s.wrapDue := by simp [State.recordReject]
@[simp] theorem State.recordReject_syncDue (s : State) (a : Nat) : (s.recordReject a).syncDue = s.syncDue := by simp [State.recordReject]
@[simp] theorem State.recordReject_tick10 (s : State) (a : Nat) : (s.recordReject a).tick10 = s.tick10 := by simp [State.recordReject]
@[simp] theorem State.recordReject_corr (s : State) (a : Nat) : (s.recordReject a).corr = s.corr := by simp [State.recordReject]
@[simp] theorem State.recordReject_slewT (s : State) (a : Nat) : (s.recordReject a).slewT = s.slewT := by simp [State.recordReject]
@[simp] theorem State.recordReject_tbLog (s : State) (a : Nat) : (s.recordReject a).tbLog = s.tbLog := by simp [State.recordReject]
@[simp] theorem State.recordReject_rd (s : State) (a : Nat) : (s.recordReject a).rd = s.rd := by simp [State.recordReject]
@[simp] theorem State.recordReject_freeCtr (s : State) (a : Nat) : (s.recordReject a).freeCtr = s.freeCtr := by simp [State.recordReject]
@[simp] theorem State.recordReject_halls (s : State) (a : Nat) : (s.recordReject a).halls = s.halls := by simp [State.recordReject]
@[simp] theorem State.recordReject_hallErr (s : State) (a : Nat) : (s.recordReject a).hallErr = s.hallErr := by simp [State.recordReject]
@[simp] theorem State.recordReject_nvs (s : State) (a : Nat) : (s.recordReject a).nvs = s.nvs := by simp [State.recordReject]
@[simp] theorem State.recordReject_nvsErr (s : State) (a : Nat) : (s.recordReject a).nvsErr = s.nvsErr := by simp [State.recordReject]
@[simp] theorem State.recordReject_routes (s : State) (a : Nat) : (s.recordReject a).routes = s.routes := by simp [State.recordReject]
@[simp] theorem State.recordReject_pcr (s : State) (a : Nat) : (s.recordReject a).pcr = s.pcr := by simp [State.recordReject]
@[simp] theorem State.recordReject_wvl (s : State) (a : Nat) : (s.recordReject a).wvl = s.wvl := by simp [State.recordReject]
@[simp] theorem State.recordReject_inp (s : State) (a : Nat) : (s.recordReject a).inp = s.inp := by simp [State.recordReject]
@[simp] theorem State.recordReject_trk (s : State) (a : Nat) : (s.recordReject a).trk = s.trk := by simp [State.recordReject]
@[simp] theorem State.recordReject_bcnOut (s : State) (a : Nat) : (s.recordReject a).bcnOut = s.bcnOut := by simp [State.recordReject]
@[simp] theorem State.recordReject_bcnIn (s : State) (a : Nat) : (s.recordReject a).bcnIn = s.bcnIn := by simp [State.recordReject]
@[simp] theorem State.recordReject_pins (s : State) (a : Nat) : (s.recordReject a).pins = s.pins := by simp [State.recordReject]
@[simp] theorem State.recordReject_stitch (s : State) (a : Nat) : (s.recordReject a).stitch = s.stitch := by simp [State.recordReject]
@[simp] theorem State.recordReject_suPos (s : State) (a : Nat) : (s.recordReject a).suPos = s.suPos := by simp [State.recordReject]
@[simp] theorem State.recordReject_suPath (s : State) (a : Nat) : (s.recordReject a).suPath = s.suPath := by simp [State.recordReject]
@[simp] theorem State.recordReject_suActs (s : State) (a : Nat) : (s.recordReject a).suActs = s.suActs := by simp [State.recordReject]
@[simp] theorem State.recordReject_suT (s : State) (a : Nat) : (s.recordReject a).suT = s.suT := by simp [State.recordReject]
@[simp] theorem State.recordReject_inj (s : State) (a : Nat) : (s.recordReject a).inj = s.inj := by simp [State.recordReject]
@[simp] theorem State.recordReject_ndl (s : State) (a : Nat) : (s.recordReject a).ndl = s.ndl := by simp [State.recordReject]
@[simp] theorem State.recordReject_ncl (s : State) (a : Nat) : (s.recordReject a).ncl = s.ncl := by simp [State.recordReject]
@[simp] theorem State.recordReject_cht (s : State) (a : Nat) : (s.recordReject a).cht = s.cht := by simp [State.recordReject]
@[simp] theorem State.recordReject_gau (s : State) (a : Nat) : (s.recordReject a).gau = s.gau := by simp [State.recordReject]
@[simp] theorem State.recordReject_cmp (s : State) (a : Nat) : (s.recordReject a).cmp = s.cmp := by simp [State.recordReject]
@[simp] theorem State.recordReject_tmr (s : State) (a : Nat) : (s.recordReject a).tmr = s.tmr := by simp [State.recordReject]
@[simp] theorem State.recordReject_tmrActs (s : State) (a : Nat) : (s.recordReject a).tmrActs = s.tmrActs := by simp [State.recordReject]
@[simp] theorem State.recordReject_hal (s : State) (a : Nat) : (s.recordReject a).hal = s.hal := by simp [State.recordReject]
@[simp] theorem State.recordReject_hook (s : State) (a : Nat) : (s.recordReject a).hook = s.hook := by simp [State.recordReject]
@[simp] theorem State.recordReject_gal (s : State) (a : Nat) : (s.recordReject a).gal = s.gal := by simp [State.recordReject]
@[simp] theorem State.recordReject_irt (s : State) (a : Nat) : (s.recordReject a).irt = s.irt := by simp [State.recordReject]
@[simp] theorem State.recordReject_host (s : State) (a : Nat) : (s.recordReject a).host = s.host := by simp [State.recordReject]
@[simp] theorem State.recordReject_stc (s : State) (a : Nat) : (s.recordReject a).stc = s.stc := by simp [State.recordReject]
@[simp] theorem State.recordReject_tru (s : State) (a : Nat) : (s.recordReject a).tru = s.tru := by simp [State.recordReject]
@[simp] theorem State.recordReject_can (s : State) (a : Nat) : (s.recordReject a).can = s.can := by simp [State.recordReject]
@[simp] theorem State.recordReject_sent (s : State) (a : Nat) : (s.recordReject a).sent = s.sent := by simp [State.recordReject]
@[simp] theorem State.recordReject_por (s : State) (a : Nat) : (s.recordReject a).por = s.por := by simp [State.recordReject]

/-! ### writeCodes -/

@[simp] theorem State.writeCodes_pending (s : State) (m : Master) (a : Nat) (v : Word) : (s.writeCodes m a v).pending = s.pending := by unfold State.writeCodes; dsimp only; split <;> simp
@[simp] theorem State.writeCodes_fclk (s : State) (m : Master) (a : Nat) (v : Word) : (s.writeCodes m a v).fclk = s.fclk := by unfold State.writeCodes; dsimp only; split <;> simp
@[simp] theorem State.writeCodes_tb (s : State) (m : Master) (a : Nat) (v : Word) : (s.writeCodes m a v).tb = s.tb := by unfold State.writeCodes; dsimp only; split <;> simp
@[simp] theorem State.writeCodes_mtDue (s : State) (m : Master) (a : Nat) (v : Word) : (s.writeCodes m a v).mtDue = s.mtDue := by unfold State.writeCodes; dsimp only; split <;> simp
@[simp] theorem State.writeCodes_wrapDue (s : State) (m : Master) (a : Nat) (v : Word) : (s.writeCodes m a v).wrapDue = s.wrapDue := by unfold State.writeCodes; dsimp only; split <;> simp
@[simp] theorem State.writeCodes_syncDue (s : State) (m : Master) (a : Nat) (v : Word) : (s.writeCodes m a v).syncDue = s.syncDue := by unfold State.writeCodes; dsimp only; split <;> simp
@[simp] theorem State.writeCodes_tick10 (s : State) (m : Master) (a : Nat) (v : Word) : (s.writeCodes m a v).tick10 = s.tick10 := by unfold State.writeCodes; dsimp only; split <;> simp
@[simp] theorem State.writeCodes_corr (s : State) (m : Master) (a : Nat) (v : Word) : (s.writeCodes m a v).corr = s.corr := by unfold State.writeCodes; dsimp only; split <;> simp
@[simp] theorem State.writeCodes_slewT (s : State) (m : Master) (a : Nat) (v : Word) : (s.writeCodes m a v).slewT = s.slewT := by unfold State.writeCodes; dsimp only; split <;> simp
@[simp] theorem State.writeCodes_tbLog (s : State) (m : Master) (a : Nat) (v : Word) : (s.writeCodes m a v).tbLog = s.tbLog := by unfold State.writeCodes; dsimp only; split <;> simp
@[simp] theorem State.writeCodes_rd (s : State) (m : Master) (a : Nat) (v : Word) : (s.writeCodes m a v).rd = s.rd := by unfold State.writeCodes; dsimp only; split <;> simp
@[simp] theorem State.writeCodes_freeCtr (s : State) (m : Master) (a : Nat) (v : Word) : (s.writeCodes m a v).freeCtr = s.freeCtr := by unfold State.writeCodes; dsimp only; split <;> simp
@[simp] theorem State.writeCodes_halls (s : State) (m : Master) (a : Nat) (v : Word) : (s.writeCodes m a v).halls = s.halls := by unfold State.writeCodes; dsimp only; split <;> simp
@[simp] theorem State.writeCodes_hallErr (s : State) (m : Master) (a : Nat) (v : Word) : (s.writeCodes m a v).hallErr = s.hallErr := by unfold State.writeCodes; dsimp only; split <;> simp
@[simp] theorem State.writeCodes_nvs (s : State) (m : Master) (a : Nat) (v : Word) : (s.writeCodes m a v).nvs = s.nvs := by unfold State.writeCodes; dsimp only; split <;> simp
@[simp] theorem State.writeCodes_nvsErr (s : State) (m : Master) (a : Nat) (v : Word) : (s.writeCodes m a v).nvsErr = s.nvsErr := by unfold State.writeCodes; dsimp only; split <;> simp
@[simp] theorem State.writeCodes_routes (s : State) (m : Master) (a : Nat) (v : Word) : (s.writeCodes m a v).routes = s.routes := by unfold State.writeCodes; dsimp only; split <;> simp
@[simp] theorem State.writeCodes_pcr (s : State) (m : Master) (a : Nat) (v : Word) : (s.writeCodes m a v).pcr = s.pcr := by unfold State.writeCodes; dsimp only; split <;> simp
@[simp] theorem State.writeCodes_wvl (s : State) (m : Master) (a : Nat) (v : Word) : (s.writeCodes m a v).wvl = s.wvl := by unfold State.writeCodes; dsimp only; split <;> simp
@[simp] theorem State.writeCodes_inp (s : State) (m : Master) (a : Nat) (v : Word) : (s.writeCodes m a v).inp = s.inp := by unfold State.writeCodes; dsimp only; split <;> simp
@[simp] theorem State.writeCodes_trk (s : State) (m : Master) (a : Nat) (v : Word) : (s.writeCodes m a v).trk = s.trk := by unfold State.writeCodes; dsimp only; split <;> simp
@[simp] theorem State.writeCodes_bcnOut (s : State) (m : Master) (a : Nat) (v : Word) : (s.writeCodes m a v).bcnOut = s.bcnOut := by unfold State.writeCodes; dsimp only; split <;> simp
@[simp] theorem State.writeCodes_bcnIn (s : State) (m : Master) (a : Nat) (v : Word) : (s.writeCodes m a v).bcnIn = s.bcnIn := by unfold State.writeCodes; dsimp only; split <;> simp
@[simp] theorem State.writeCodes_pins (s : State) (m : Master) (a : Nat) (v : Word) : (s.writeCodes m a v).pins = s.pins := by unfold State.writeCodes; dsimp only; split <;> simp
@[simp] theorem State.writeCodes_stitch (s : State) (m : Master) (a : Nat) (v : Word) : (s.writeCodes m a v).stitch = s.stitch := by unfold State.writeCodes; dsimp only; split <;> simp
@[simp] theorem State.writeCodes_suPos (s : State) (m : Master) (a : Nat) (v : Word) : (s.writeCodes m a v).suPos = s.suPos := by unfold State.writeCodes; dsimp only; split <;> simp
@[simp] theorem State.writeCodes_suPath (s : State) (m : Master) (a : Nat) (v : Word) : (s.writeCodes m a v).suPath = s.suPath := by unfold State.writeCodes; dsimp only; split <;> simp
@[simp] theorem State.writeCodes_suActs (s : State) (m : Master) (a : Nat) (v : Word) : (s.writeCodes m a v).suActs = s.suActs := by unfold State.writeCodes; dsimp only; split <;> simp
@[simp] theorem State.writeCodes_suT (s : State) (m : Master) (a : Nat) (v : Word) : (s.writeCodes m a v).suT = s.suT := by unfold State.writeCodes; dsimp only; split <;> simp
@[simp] theorem State.writeCodes_inj (s : State) (m : Master) (a : Nat) (v : Word) : (s.writeCodes m a v).inj = s.inj := by unfold State.writeCodes; dsimp only; split <;> simp
@[simp] theorem State.writeCodes_ndl (s : State) (m : Master) (a : Nat) (v : Word) : (s.writeCodes m a v).ndl = s.ndl := by unfold State.writeCodes; dsimp only; split <;> simp
@[simp] theorem State.writeCodes_ncl (s : State) (m : Master) (a : Nat) (v : Word) : (s.writeCodes m a v).ncl = s.ncl := by unfold State.writeCodes; dsimp only; split <;> simp
@[simp] theorem State.writeCodes_cht (s : State) (m : Master) (a : Nat) (v : Word) : (s.writeCodes m a v).cht = s.cht := by unfold State.writeCodes; dsimp only; split <;> simp
@[simp] theorem State.writeCodes_gau (s : State) (m : Master) (a : Nat) (v : Word) : (s.writeCodes m a v).gau = s.gau := by unfold State.writeCodes; dsimp only; split <;> simp
@[simp] theorem State.writeCodes_cmp (s : State) (m : Master) (a : Nat) (v : Word) : (s.writeCodes m a v).cmp = s.cmp := by unfold State.writeCodes; dsimp only; split <;> simp
@[simp] theorem State.writeCodes_tmr (s : State) (m : Master) (a : Nat) (v : Word) : (s.writeCodes m a v).tmr = s.tmr := by unfold State.writeCodes; dsimp only; split <;> simp
@[simp] theorem State.writeCodes_tmrActs (s : State) (m : Master) (a : Nat) (v : Word) : (s.writeCodes m a v).tmrActs = s.tmrActs := by unfold State.writeCodes; dsimp only; split <;> simp
@[simp] theorem State.writeCodes_hal (s : State) (m : Master) (a : Nat) (v : Word) : (s.writeCodes m a v).hal = s.hal := by unfold State.writeCodes; dsimp only; split <;> simp
@[simp] theorem State.writeCodes_hook (s : State) (m : Master) (a : Nat) (v : Word) : (s.writeCodes m a v).hook = s.hook := by unfold State.writeCodes; dsimp only; split <;> simp
@[simp] theorem State.writeCodes_gal (s : State) (m : Master) (a : Nat) (v : Word) : (s.writeCodes m a v).gal = s.gal := by unfold State.writeCodes; dsimp only; split <;> simp
@[simp] theorem State.writeCodes_irt (s : State) (m : Master) (a : Nat) (v : Word) : (s.writeCodes m a v).irt = s.irt := by unfold State.writeCodes; dsimp only; split <;> simp
@[simp] theorem State.writeCodes_host (s : State) (m : Master) (a : Nat) (v : Word) : (s.writeCodes m a v).host = s.host := by unfold State.writeCodes; dsimp only; split <;> simp
@[simp] theorem State.writeCodes_stc (s : State) (m : Master) (a : Nat) (v : Word) : (s.writeCodes m a v).stc = s.stc := by unfold State.writeCodes; dsimp only; split <;> simp
@[simp] theorem State.writeCodes_tru (s : State) (m : Master) (a : Nat) (v : Word) : (s.writeCodes m a v).tru = s.tru := by unfold State.writeCodes; dsimp only; split <;> simp
@[simp] theorem State.writeCodes_can (s : State) (m : Master) (a : Nat) (v : Word) : (s.writeCodes m a v).can = s.can := by unfold State.writeCodes; dsimp only; split <;> simp
@[simp] theorem State.writeCodes_sent (s : State) (m : Master) (a : Nat) (v : Word) : (s.writeCodes m a v).sent = s.sent := by unfold State.writeCodes; dsimp only; split <;> simp
@[simp] theorem State.writeCodes_por (s : State) (m : Master) (a : Nat) (v : Word) : (s.writeCodes m a v).por = s.por := by unfold State.writeCodes; dsimp only; split <;> simp

/-! ### lostMet -/

@[simp] theorem State.lostMet_pending (s : State) (x : LostItem) : (s.lostMet x).pending = s.pending := (rfl)
@[simp] theorem State.lostMet_fclk (s : State) (x : LostItem) : (s.lostMet x).fclk = s.fclk := (rfl)
@[simp] theorem State.lostMet_tb (s : State) (x : LostItem) : (s.lostMet x).tb = s.tb := (rfl)
@[simp] theorem State.lostMet_mtDue (s : State) (x : LostItem) : (s.lostMet x).mtDue = s.mtDue := (rfl)
@[simp] theorem State.lostMet_wrapDue (s : State) (x : LostItem) : (s.lostMet x).wrapDue = s.wrapDue := (rfl)
@[simp] theorem State.lostMet_syncDue (s : State) (x : LostItem) : (s.lostMet x).syncDue = s.syncDue := (rfl)
@[simp] theorem State.lostMet_tick10 (s : State) (x : LostItem) : (s.lostMet x).tick10 = s.tick10 := (rfl)
@[simp] theorem State.lostMet_corr (s : State) (x : LostItem) : (s.lostMet x).corr = s.corr := (rfl)
@[simp] theorem State.lostMet_slewT (s : State) (x : LostItem) : (s.lostMet x).slewT = s.slewT := (rfl)
@[simp] theorem State.lostMet_tbLog (s : State) (x : LostItem) : (s.lostMet x).tbLog = s.tbLog := (rfl)
@[simp] theorem State.lostMet_rd (s : State) (x : LostItem) : (s.lostMet x).rd = s.rd := (rfl)
@[simp] theorem State.lostMet_freeCtr (s : State) (x : LostItem) : (s.lostMet x).freeCtr = s.freeCtr := (rfl)
@[simp] theorem State.lostMet_regs (s : State) (x : LostItem) : (s.lostMet x).regs = s.regs := (rfl)
@[simp] theorem State.lostMet_marks (s : State) (x : LostItem) : (s.lostMet x).marks = s.marks := (rfl)
@[simp] theorem State.lostMet_halls (s : State) (x : LostItem) : (s.lostMet x).halls = s.halls := (rfl)
@[simp] theorem State.lostMet_hallErr (s : State) (x : LostItem) : (s.lostMet x).hallErr = s.hallErr := (rfl)
@[simp] theorem State.lostMet_nvs (s : State) (x : LostItem) : (s.lostMet x).nvs = s.nvs := (rfl)
@[simp] theorem State.lostMet_nvsErr (s : State) (x : LostItem) : (s.lostMet x).nvsErr = s.nvsErr := (rfl)
@[simp] theorem State.lostMet_routes (s : State) (x : LostItem) : (s.lostMet x).routes = s.routes := (rfl)
@[simp] theorem State.lostMet_pcr (s : State) (x : LostItem) : (s.lostMet x).pcr = s.pcr := (rfl)
@[simp] theorem State.lostMet_wvl (s : State) (x : LostItem) : (s.lostMet x).wvl = s.wvl := (rfl)
@[simp] theorem State.lostMet_inp (s : State) (x : LostItem) : (s.lostMet x).inp = s.inp := (rfl)
@[simp] theorem State.lostMet_trk (s : State) (x : LostItem) : (s.lostMet x).trk = s.trk := (rfl)
@[simp] theorem State.lostMet_bcnOut (s : State) (x : LostItem) : (s.lostMet x).bcnOut = s.bcnOut := (rfl)
@[simp] theorem State.lostMet_bcnIn (s : State) (x : LostItem) : (s.lostMet x).bcnIn = s.bcnIn := (rfl)
@[simp] theorem State.lostMet_pins (s : State) (x : LostItem) : (s.lostMet x).pins = s.pins := (rfl)
@[simp] theorem State.lostMet_stitch (s : State) (x : LostItem) : (s.lostMet x).stitch = s.stitch := (rfl)
@[simp] theorem State.lostMet_suPos (s : State) (x : LostItem) : (s.lostMet x).suPos = s.suPos := (rfl)
@[simp] theorem State.lostMet_suPath (s : State) (x : LostItem) : (s.lostMet x).suPath = s.suPath := (rfl)
@[simp] theorem State.lostMet_suActs (s : State) (x : LostItem) : (s.lostMet x).suActs = s.suActs := (rfl)
@[simp] theorem State.lostMet_suT (s : State) (x : LostItem) : (s.lostMet x).suT = s.suT := (rfl)
@[simp] theorem State.lostMet_inj (s : State) (x : LostItem) : (s.lostMet x).inj = s.inj := (rfl)
@[simp] theorem State.lostMet_ndl (s : State) (x : LostItem) : (s.lostMet x).ndl = s.ndl := (rfl)
@[simp] theorem State.lostMet_ncl (s : State) (x : LostItem) : (s.lostMet x).ncl = s.ncl := (rfl)
@[simp] theorem State.lostMet_cht (s : State) (x : LostItem) : (s.lostMet x).cht = s.cht := (rfl)
@[simp] theorem State.lostMet_gau (s : State) (x : LostItem) : (s.lostMet x).gau = s.gau := (rfl)
@[simp] theorem State.lostMet_cmp (s : State) (x : LostItem) : (s.lostMet x).cmp = s.cmp := (rfl)
@[simp] theorem State.lostMet_tmr (s : State) (x : LostItem) : (s.lostMet x).tmr = s.tmr := (rfl)
@[simp] theorem State.lostMet_tmrActs (s : State) (x : LostItem) : (s.lostMet x).tmrActs = s.tmrActs := (rfl)
@[simp] theorem State.lostMet_hal (s : State) (x : LostItem) : (s.lostMet x).hal = s.hal := (rfl)
@[simp] theorem State.lostMet_hook (s : State) (x : LostItem) : (s.lostMet x).hook = s.hook := (rfl)
@[simp] theorem State.lostMet_gal (s : State) (x : LostItem) : (s.lostMet x).gal = s.gal := (rfl)
@[simp] theorem State.lostMet_irt (s : State) (x : LostItem) : (s.lostMet x).irt = s.irt := (rfl)
@[simp] theorem State.lostMet_host (s : State) (x : LostItem) : (s.lostMet x).host = s.host := (rfl)
@[simp] theorem State.lostMet_stc (s : State) (x : LostItem) : (s.lostMet x).stc = s.stc := (rfl)
@[simp] theorem State.lostMet_tru (s : State) (x : LostItem) : (s.lostMet x).tru = s.tru := (rfl)
@[simp] theorem State.lostMet_can (s : State) (x : LostItem) : (s.lostMet x).can = s.can := (rfl)
@[simp] theorem State.lostMet_sent (s : State) (x : LostItem) : (s.lostMet x).sent = s.sent := (rfl)

/-! ### raise -/

@[simp] theorem State.raise_pending (s : State) (k : Nat) : (s.raise k).pending = s.pending := by unfold State.raise; split_ifs <;> simp
@[simp] theorem State.raise_fclk (s : State) (k : Nat) : (s.raise k).fclk = s.fclk := by unfold State.raise; split_ifs <;> simp
@[simp] theorem State.raise_tb (s : State) (k : Nat) : (s.raise k).tb = s.tb := by unfold State.raise; split_ifs <;> simp
@[simp] theorem State.raise_mtDue (s : State) (k : Nat) : (s.raise k).mtDue = s.mtDue := by unfold State.raise; split_ifs <;> simp
@[simp] theorem State.raise_wrapDue (s : State) (k : Nat) : (s.raise k).wrapDue = s.wrapDue := by unfold State.raise; split_ifs <;> simp
@[simp] theorem State.raise_syncDue (s : State) (k : Nat) : (s.raise k).syncDue = s.syncDue := by unfold State.raise; split_ifs <;> simp
@[simp] theorem State.raise_tick10 (s : State) (k : Nat) : (s.raise k).tick10 = s.tick10 := by unfold State.raise; split_ifs <;> simp
@[simp] theorem State.raise_corr (s : State) (k : Nat) : (s.raise k).corr = s.corr := by unfold State.raise; split_ifs <;> simp
@[simp] theorem State.raise_slewT (s : State) (k : Nat) : (s.raise k).slewT = s.slewT := by unfold State.raise; split_ifs <;> simp
@[simp] theorem State.raise_tbLog (s : State) (k : Nat) : (s.raise k).tbLog = s.tbLog := by unfold State.raise; split_ifs <;> simp
@[simp] theorem State.raise_rd (s : State) (k : Nat) : (s.raise k).rd = s.rd := by unfold State.raise; split_ifs <;> simp
@[simp] theorem State.raise_freeCtr (s : State) (k : Nat) : (s.raise k).freeCtr = s.freeCtr := by unfold State.raise; split_ifs <;> simp
@[simp] theorem State.raise_halls (s : State) (k : Nat) : (s.raise k).halls = s.halls := by unfold State.raise; split_ifs <;> simp
@[simp] theorem State.raise_hallErr (s : State) (k : Nat) : (s.raise k).hallErr = s.hallErr := by unfold State.raise; split_ifs <;> simp
@[simp] theorem State.raise_nvs (s : State) (k : Nat) : (s.raise k).nvs = s.nvs := by unfold State.raise; split_ifs <;> simp
@[simp] theorem State.raise_nvsErr (s : State) (k : Nat) : (s.raise k).nvsErr = s.nvsErr := by unfold State.raise; split_ifs <;> simp
@[simp] theorem State.raise_routes (s : State) (k : Nat) : (s.raise k).routes = s.routes := by unfold State.raise; split_ifs <;> simp
@[simp] theorem State.raise_pcr (s : State) (k : Nat) : (s.raise k).pcr = s.pcr := by unfold State.raise; split_ifs <;> simp
@[simp] theorem State.raise_wvl (s : State) (k : Nat) : (s.raise k).wvl = s.wvl := by unfold State.raise; split_ifs <;> simp
@[simp] theorem State.raise_inp (s : State) (k : Nat) : (s.raise k).inp = s.inp := by unfold State.raise; split_ifs <;> simp
@[simp] theorem State.raise_trk (s : State) (k : Nat) : (s.raise k).trk = s.trk := by unfold State.raise; split_ifs <;> simp
@[simp] theorem State.raise_bcnOut (s : State) (k : Nat) : (s.raise k).bcnOut = s.bcnOut := by unfold State.raise; split_ifs <;> simp
@[simp] theorem State.raise_bcnIn (s : State) (k : Nat) : (s.raise k).bcnIn = s.bcnIn := by unfold State.raise; split_ifs <;> simp
@[simp] theorem State.raise_pins (s : State) (k : Nat) : (s.raise k).pins = s.pins := by unfold State.raise; split_ifs <;> simp
@[simp] theorem State.raise_stitch (s : State) (k : Nat) : (s.raise k).stitch = s.stitch := by unfold State.raise; split_ifs <;> simp
@[simp] theorem State.raise_suPos (s : State) (k : Nat) : (s.raise k).suPos = s.suPos := by unfold State.raise; split_ifs <;> simp
@[simp] theorem State.raise_suPath (s : State) (k : Nat) : (s.raise k).suPath = s.suPath := by unfold State.raise; split_ifs <;> simp
@[simp] theorem State.raise_suActs (s : State) (k : Nat) : (s.raise k).suActs = s.suActs := by unfold State.raise; split_ifs <;> simp
@[simp] theorem State.raise_suT (s : State) (k : Nat) : (s.raise k).suT = s.suT := by unfold State.raise; split_ifs <;> simp
@[simp] theorem State.raise_inj (s : State) (k : Nat) : (s.raise k).inj = s.inj := by unfold State.raise; split_ifs <;> simp
@[simp] theorem State.raise_ndl (s : State) (k : Nat) : (s.raise k).ndl = s.ndl := by unfold State.raise; split_ifs <;> simp
@[simp] theorem State.raise_ncl (s : State) (k : Nat) : (s.raise k).ncl = s.ncl := by unfold State.raise; split_ifs <;> simp
@[simp] theorem State.raise_cht (s : State) (k : Nat) : (s.raise k).cht = s.cht := by unfold State.raise; split_ifs <;> simp
@[simp] theorem State.raise_gau (s : State) (k : Nat) : (s.raise k).gau = s.gau := by unfold State.raise; split_ifs <;> simp
@[simp] theorem State.raise_cmp (s : State) (k : Nat) : (s.raise k).cmp = s.cmp := by unfold State.raise; split_ifs <;> simp
@[simp] theorem State.raise_tmr (s : State) (k : Nat) : (s.raise k).tmr = s.tmr := by unfold State.raise; split_ifs <;> simp
@[simp] theorem State.raise_tmrActs (s : State) (k : Nat) : (s.raise k).tmrActs = s.tmrActs := by unfold State.raise; split_ifs <;> simp
@[simp] theorem State.raise_hal (s : State) (k : Nat) : (s.raise k).hal = s.hal := by unfold State.raise; split_ifs <;> simp
@[simp] theorem State.raise_hook (s : State) (k : Nat) : (s.raise k).hook = s.hook := by unfold State.raise; split_ifs <;> simp
@[simp] theorem State.raise_gal (s : State) (k : Nat) : (s.raise k).gal = s.gal := by unfold State.raise; split_ifs <;> simp
@[simp] theorem State.raise_irt (s : State) (k : Nat) : (s.raise k).irt = s.irt := by unfold State.raise; split_ifs <;> simp
@[simp] theorem State.raise_host (s : State) (k : Nat) : (s.raise k).host = s.host := by unfold State.raise; split_ifs <;> simp
@[simp] theorem State.raise_stc (s : State) (k : Nat) : (s.raise k).stc = s.stc := by unfold State.raise; split_ifs <;> simp
@[simp] theorem State.raise_tru (s : State) (k : Nat) : (s.raise k).tru = s.tru := by unfold State.raise; split_ifs <;> simp
@[simp] theorem State.raise_can (s : State) (k : Nat) : (s.raise k).can = s.can := by unfold State.raise; split_ifs <;> simp
@[simp] theorem State.raise_sent (s : State) (k : Nat) : (s.raise k).sent = s.sent := by unfold State.raise; split_ifs <;> simp

/-! ### raiseIf -/

@[simp] theorem State.raiseIf_pending (s : State) (c : Bool) (k : Nat) : (s.raiseIf c k).pending = s.pending := by unfold State.raiseIf; split <;> simp
@[simp] theorem State.raiseIf_fclk (s : State) (c : Bool) (k : Nat) : (s.raiseIf c k).fclk = s.fclk := by unfold State.raiseIf; split <;> simp
@[simp] theorem State.raiseIf_tb (s : State) (c : Bool) (k : Nat) : (s.raiseIf c k).tb = s.tb := by unfold State.raiseIf; split <;> simp
@[simp] theorem State.raiseIf_mtDue (s : State) (c : Bool) (k : Nat) : (s.raiseIf c k).mtDue = s.mtDue := by unfold State.raiseIf; split <;> simp
@[simp] theorem State.raiseIf_wrapDue (s : State) (c : Bool) (k : Nat) : (s.raiseIf c k).wrapDue = s.wrapDue := by unfold State.raiseIf; split <;> simp
@[simp] theorem State.raiseIf_syncDue (s : State) (c : Bool) (k : Nat) : (s.raiseIf c k).syncDue = s.syncDue := by unfold State.raiseIf; split <;> simp
@[simp] theorem State.raiseIf_tick10 (s : State) (c : Bool) (k : Nat) : (s.raiseIf c k).tick10 = s.tick10 := by unfold State.raiseIf; split <;> simp
@[simp] theorem State.raiseIf_corr (s : State) (c : Bool) (k : Nat) : (s.raiseIf c k).corr = s.corr := by unfold State.raiseIf; split <;> simp
@[simp] theorem State.raiseIf_slewT (s : State) (c : Bool) (k : Nat) : (s.raiseIf c k).slewT = s.slewT := by unfold State.raiseIf; split <;> simp
@[simp] theorem State.raiseIf_tbLog (s : State) (c : Bool) (k : Nat) : (s.raiseIf c k).tbLog = s.tbLog := by unfold State.raiseIf; split <;> simp
@[simp] theorem State.raiseIf_rd (s : State) (c : Bool) (k : Nat) : (s.raiseIf c k).rd = s.rd := by unfold State.raiseIf; split <;> simp
@[simp] theorem State.raiseIf_freeCtr (s : State) (c : Bool) (k : Nat) : (s.raiseIf c k).freeCtr = s.freeCtr := by unfold State.raiseIf; split <;> simp
@[simp] theorem State.raiseIf_halls (s : State) (c : Bool) (k : Nat) : (s.raiseIf c k).halls = s.halls := by unfold State.raiseIf; split <;> simp
@[simp] theorem State.raiseIf_hallErr (s : State) (c : Bool) (k : Nat) : (s.raiseIf c k).hallErr = s.hallErr := by unfold State.raiseIf; split <;> simp
@[simp] theorem State.raiseIf_nvs (s : State) (c : Bool) (k : Nat) : (s.raiseIf c k).nvs = s.nvs := by unfold State.raiseIf; split <;> simp
@[simp] theorem State.raiseIf_nvsErr (s : State) (c : Bool) (k : Nat) : (s.raiseIf c k).nvsErr = s.nvsErr := by unfold State.raiseIf; split <;> simp
@[simp] theorem State.raiseIf_routes (s : State) (c : Bool) (k : Nat) : (s.raiseIf c k).routes = s.routes := by unfold State.raiseIf; split <;> simp
@[simp] theorem State.raiseIf_pcr (s : State) (c : Bool) (k : Nat) : (s.raiseIf c k).pcr = s.pcr := by unfold State.raiseIf; split <;> simp
@[simp] theorem State.raiseIf_wvl (s : State) (c : Bool) (k : Nat) : (s.raiseIf c k).wvl = s.wvl := by unfold State.raiseIf; split <;> simp
@[simp] theorem State.raiseIf_inp (s : State) (c : Bool) (k : Nat) : (s.raiseIf c k).inp = s.inp := by unfold State.raiseIf; split <;> simp
@[simp] theorem State.raiseIf_trk (s : State) (c : Bool) (k : Nat) : (s.raiseIf c k).trk = s.trk := by unfold State.raiseIf; split <;> simp
@[simp] theorem State.raiseIf_bcnOut (s : State) (c : Bool) (k : Nat) : (s.raiseIf c k).bcnOut = s.bcnOut := by unfold State.raiseIf; split <;> simp
@[simp] theorem State.raiseIf_bcnIn (s : State) (c : Bool) (k : Nat) : (s.raiseIf c k).bcnIn = s.bcnIn := by unfold State.raiseIf; split <;> simp
@[simp] theorem State.raiseIf_pins (s : State) (c : Bool) (k : Nat) : (s.raiseIf c k).pins = s.pins := by unfold State.raiseIf; split <;> simp
@[simp] theorem State.raiseIf_stitch (s : State) (c : Bool) (k : Nat) : (s.raiseIf c k).stitch = s.stitch := by unfold State.raiseIf; split <;> simp
@[simp] theorem State.raiseIf_suPos (s : State) (c : Bool) (k : Nat) : (s.raiseIf c k).suPos = s.suPos := by unfold State.raiseIf; split <;> simp
@[simp] theorem State.raiseIf_suPath (s : State) (c : Bool) (k : Nat) : (s.raiseIf c k).suPath = s.suPath := by unfold State.raiseIf; split <;> simp
@[simp] theorem State.raiseIf_suActs (s : State) (c : Bool) (k : Nat) : (s.raiseIf c k).suActs = s.suActs := by unfold State.raiseIf; split <;> simp
@[simp] theorem State.raiseIf_suT (s : State) (c : Bool) (k : Nat) : (s.raiseIf c k).suT = s.suT := by unfold State.raiseIf; split <;> simp
@[simp] theorem State.raiseIf_inj (s : State) (c : Bool) (k : Nat) : (s.raiseIf c k).inj = s.inj := by unfold State.raiseIf; split <;> simp
@[simp] theorem State.raiseIf_ndl (s : State) (c : Bool) (k : Nat) : (s.raiseIf c k).ndl = s.ndl := by unfold State.raiseIf; split <;> simp
@[simp] theorem State.raiseIf_ncl (s : State) (c : Bool) (k : Nat) : (s.raiseIf c k).ncl = s.ncl := by unfold State.raiseIf; split <;> simp
@[simp] theorem State.raiseIf_cht (s : State) (c : Bool) (k : Nat) : (s.raiseIf c k).cht = s.cht := by unfold State.raiseIf; split <;> simp
@[simp] theorem State.raiseIf_gau (s : State) (c : Bool) (k : Nat) : (s.raiseIf c k).gau = s.gau := by unfold State.raiseIf; split <;> simp
@[simp] theorem State.raiseIf_cmp (s : State) (c : Bool) (k : Nat) : (s.raiseIf c k).cmp = s.cmp := by unfold State.raiseIf; split <;> simp
@[simp] theorem State.raiseIf_tmr (s : State) (c : Bool) (k : Nat) : (s.raiseIf c k).tmr = s.tmr := by unfold State.raiseIf; split <;> simp
@[simp] theorem State.raiseIf_tmrActs (s : State) (c : Bool) (k : Nat) : (s.raiseIf c k).tmrActs = s.tmrActs := by unfold State.raiseIf; split <;> simp
@[simp] theorem State.raiseIf_hal (s : State) (c : Bool) (k : Nat) : (s.raiseIf c k).hal = s.hal := by unfold State.raiseIf; split <;> simp
@[simp] theorem State.raiseIf_hook (s : State) (c : Bool) (k : Nat) : (s.raiseIf c k).hook = s.hook := by unfold State.raiseIf; split <;> simp
@[simp] theorem State.raiseIf_gal (s : State) (c : Bool) (k : Nat) : (s.raiseIf c k).gal = s.gal := by unfold State.raiseIf; split <;> simp
@[simp] theorem State.raiseIf_irt (s : State) (c : Bool) (k : Nat) : (s.raiseIf c k).irt = s.irt := by unfold State.raiseIf; split <;> simp
@[simp] theorem State.raiseIf_host (s : State) (c : Bool) (k : Nat) : (s.raiseIf c k).host = s.host := by unfold State.raiseIf; split <;> simp
@[simp] theorem State.raiseIf_stc (s : State) (c : Bool) (k : Nat) : (s.raiseIf c k).stc = s.stc := by unfold State.raiseIf; split <;> simp
@[simp] theorem State.raiseIf_tru (s : State) (c : Bool) (k : Nat) : (s.raiseIf c k).tru = s.tru := by unfold State.raiseIf; split <;> simp
@[simp] theorem State.raiseIf_can (s : State) (c : Bool) (k : Nat) : (s.raiseIf c k).can = s.can := by unfold State.raiseIf; split <;> simp
@[simp] theorem State.raiseIf_sent (s : State) (c : Bool) (k : Nat) : (s.raiseIf c k).sent = s.sent := by unfold State.raiseIf; split <;> simp

/-! ### reportSig -/

@[simp] theorem State.reportSig_pending (s : State) (g : FaultSig) : (s.reportSig g).pending = s.pending := by unfold State.reportSig; dsimp only; split_ifs <;> exact (rfl)
@[simp] theorem State.reportSig_fclk (s : State) (g : FaultSig) : (s.reportSig g).fclk = s.fclk := by unfold State.reportSig; dsimp only; split_ifs <;> exact (rfl)
@[simp] theorem State.reportSig_tb (s : State) (g : FaultSig) : (s.reportSig g).tb = s.tb := by unfold State.reportSig; dsimp only; split_ifs <;> exact (rfl)
@[simp] theorem State.reportSig_mtDue (s : State) (g : FaultSig) : (s.reportSig g).mtDue = s.mtDue := by unfold State.reportSig; dsimp only; split_ifs <;> exact (rfl)
@[simp] theorem State.reportSig_wrapDue (s : State) (g : FaultSig) : (s.reportSig g).wrapDue = s.wrapDue := by unfold State.reportSig; dsimp only; split_ifs <;> exact (rfl)
@[simp] theorem State.reportSig_syncDue (s : State) (g : FaultSig) : (s.reportSig g).syncDue = s.syncDue := by unfold State.reportSig; dsimp only; split_ifs <;> exact (rfl)
@[simp] theorem State.reportSig_tick10 (s : State) (g : FaultSig) : (s.reportSig g).tick10 = s.tick10 := by unfold State.reportSig; dsimp only; split_ifs <;> exact (rfl)
@[simp] theorem State.reportSig_corr (s : State) (g : FaultSig) : (s.reportSig g).corr = s.corr := by unfold State.reportSig; dsimp only; split_ifs <;> exact (rfl)
@[simp] theorem State.reportSig_slewT (s : State) (g : FaultSig) : (s.reportSig g).slewT = s.slewT := by unfold State.reportSig; dsimp only; split_ifs <;> exact (rfl)
@[simp] theorem State.reportSig_tbLog (s : State) (g : FaultSig) : (s.reportSig g).tbLog = s.tbLog := by unfold State.reportSig; dsimp only; split_ifs <;> exact (rfl)
@[simp] theorem State.reportSig_rd (s : State) (g : FaultSig) : (s.reportSig g).rd = s.rd := by unfold State.reportSig; dsimp only; split_ifs <;> exact (rfl)
@[simp] theorem State.reportSig_freeCtr (s : State) (g : FaultSig) : (s.reportSig g).freeCtr = s.freeCtr := by unfold State.reportSig; dsimp only; split_ifs <;> exact (rfl)
@[simp] theorem State.reportSig_regs (s : State) (g : FaultSig) : (s.reportSig g).regs = s.regs := by unfold State.reportSig; dsimp only; split_ifs <;> exact (rfl)
@[simp] theorem State.reportSig_marks (s : State) (g : FaultSig) : (s.reportSig g).marks = s.marks := by unfold State.reportSig; dsimp only; split_ifs <;> exact (rfl)
@[simp] theorem State.reportSig_halls (s : State) (g : FaultSig) : (s.reportSig g).halls = s.halls := by unfold State.reportSig; dsimp only; split_ifs <;> exact (rfl)
@[simp] theorem State.reportSig_hallErr (s : State) (g : FaultSig) : (s.reportSig g).hallErr = s.hallErr := by unfold State.reportSig; dsimp only; split_ifs <;> exact (rfl)
@[simp] theorem State.reportSig_nvs (s : State) (g : FaultSig) : (s.reportSig g).nvs = s.nvs := by unfold State.reportSig; dsimp only; split_ifs <;> exact (rfl)
@[simp] theorem State.reportSig_nvsErr (s : State) (g : FaultSig) : (s.reportSig g).nvsErr = s.nvsErr := by unfold State.reportSig; dsimp only; split_ifs <;> exact (rfl)
@[simp] theorem State.reportSig_routes (s : State) (g : FaultSig) : (s.reportSig g).routes = s.routes := by unfold State.reportSig; dsimp only; split_ifs <;> exact (rfl)
@[simp] theorem State.reportSig_pcr (s : State) (g : FaultSig) : (s.reportSig g).pcr = s.pcr := by unfold State.reportSig; dsimp only; split_ifs <;> exact (rfl)
@[simp] theorem State.reportSig_wvl (s : State) (g : FaultSig) : (s.reportSig g).wvl = s.wvl := by unfold State.reportSig; dsimp only; split_ifs <;> exact (rfl)
@[simp] theorem State.reportSig_inp (s : State) (g : FaultSig) : (s.reportSig g).inp = s.inp := by unfold State.reportSig; dsimp only; split_ifs <;> exact (rfl)
@[simp] theorem State.reportSig_trk (s : State) (g : FaultSig) : (s.reportSig g).trk = s.trk := by unfold State.reportSig; dsimp only; split_ifs <;> exact (rfl)
@[simp] theorem State.reportSig_bcnOut (s : State) (g : FaultSig) : (s.reportSig g).bcnOut = s.bcnOut := by unfold State.reportSig; dsimp only; split_ifs <;> exact (rfl)
@[simp] theorem State.reportSig_bcnIn (s : State) (g : FaultSig) : (s.reportSig g).bcnIn = s.bcnIn := by unfold State.reportSig; dsimp only; split_ifs <;> exact (rfl)
@[simp] theorem State.reportSig_pins (s : State) (g : FaultSig) : (s.reportSig g).pins = s.pins := by unfold State.reportSig; dsimp only; split_ifs <;> exact (rfl)
@[simp] theorem State.reportSig_stitch (s : State) (g : FaultSig) : (s.reportSig g).stitch = s.stitch := by unfold State.reportSig; dsimp only; split_ifs <;> exact (rfl)
@[simp] theorem State.reportSig_suPos (s : State) (g : FaultSig) : (s.reportSig g).suPos = s.suPos := by unfold State.reportSig; dsimp only; split_ifs <;> exact (rfl)
@[simp] theorem State.reportSig_suPath (s : State) (g : FaultSig) : (s.reportSig g).suPath = s.suPath := by unfold State.reportSig; dsimp only; split_ifs <;> exact (rfl)
@[simp] theorem State.reportSig_suActs (s : State) (g : FaultSig) : (s.reportSig g).suActs = s.suActs := by unfold State.reportSig; dsimp only; split_ifs <;> exact (rfl)
@[simp] theorem State.reportSig_suT (s : State) (g : FaultSig) : (s.reportSig g).suT = s.suT := by unfold State.reportSig; dsimp only; split_ifs <;> exact (rfl)
@[simp] theorem State.reportSig_inj (s : State) (g : FaultSig) : (s.reportSig g).inj = s.inj := by unfold State.reportSig; dsimp only; split_ifs <;> exact (rfl)
@[simp] theorem State.reportSig_ndl (s : State) (g : FaultSig) : (s.reportSig g).ndl = s.ndl := by unfold State.reportSig; dsimp only; split_ifs <;> exact (rfl)
@[simp] theorem State.reportSig_ncl (s : State) (g : FaultSig) : (s.reportSig g).ncl = s.ncl := by unfold State.reportSig; dsimp only; split_ifs <;> exact (rfl)
@[simp] theorem State.reportSig_cht (s : State) (g : FaultSig) : (s.reportSig g).cht = s.cht := by unfold State.reportSig; dsimp only; split_ifs <;> exact (rfl)
@[simp] theorem State.reportSig_gau (s : State) (g : FaultSig) : (s.reportSig g).gau = s.gau := by unfold State.reportSig; dsimp only; split_ifs <;> exact (rfl)
@[simp] theorem State.reportSig_cmp (s : State) (g : FaultSig) : (s.reportSig g).cmp = s.cmp := by unfold State.reportSig; dsimp only; split_ifs <;> exact (rfl)
@[simp] theorem State.reportSig_tmr (s : State) (g : FaultSig) : (s.reportSig g).tmr = s.tmr := by unfold State.reportSig; dsimp only; split_ifs <;> exact (rfl)
@[simp] theorem State.reportSig_tmrActs (s : State) (g : FaultSig) : (s.reportSig g).tmrActs = s.tmrActs := by unfold State.reportSig; dsimp only; split_ifs <;> exact (rfl)
@[simp] theorem State.reportSig_hal (s : State) (g : FaultSig) : (s.reportSig g).hal = s.hal := by unfold State.reportSig; dsimp only; split_ifs <;> exact (rfl)
@[simp] theorem State.reportSig_hook (s : State) (g : FaultSig) : (s.reportSig g).hook = s.hook := by unfold State.reportSig; dsimp only; split_ifs <;> exact (rfl)
@[simp] theorem State.reportSig_gal (s : State) (g : FaultSig) : (s.reportSig g).gal = s.gal := by unfold State.reportSig; dsimp only; split_ifs <;> exact (rfl)
@[simp] theorem State.reportSig_irt (s : State) (g : FaultSig) : (s.reportSig g).irt = s.irt := by unfold State.reportSig; dsimp only; split_ifs <;> exact (rfl)
@[simp] theorem State.reportSig_host (s : State) (g : FaultSig) : (s.reportSig g).host = s.host := by unfold State.reportSig; dsimp only; split_ifs <;> exact (rfl)
@[simp] theorem State.reportSig_stc (s : State) (g : FaultSig) : (s.reportSig g).stc = s.stc := by unfold State.reportSig; dsimp only; split_ifs <;> exact (rfl)
@[simp] theorem State.reportSig_tru (s : State) (g : FaultSig) : (s.reportSig g).tru = s.tru := by unfold State.reportSig; dsimp only; split_ifs <;> exact (rfl)
@[simp] theorem State.reportSig_can (s : State) (g : FaultSig) : (s.reportSig g).can = s.can := by unfold State.reportSig; dsimp only; split_ifs <;> exact (rfl)
@[simp] theorem State.reportSig_sent (s : State) (g : FaultSig) : (s.reportSig g).sent = s.sent := by unfold State.reportSig; dsimp only; split_ifs <;> exact (rfl)

/-! ### report -/

@[simp] theorem State.report_pending (s : State) (k d : Nat) : (s.report k d).pending = s.pending := by simp [State.report]
@[simp] theorem State.report_fclk (s : State) (k d : Nat) : (s.report k d).fclk = s.fclk := by simp [State.report]
@[simp] theorem State.report_tb (s : State) (k d : Nat) : (s.report k d).tb = s.tb := by simp [State.report]
@[simp] theorem State.report_mtDue (s : State) (k d : Nat) : (s.report k d).mtDue = s.mtDue := by simp [State.report]
@[simp] theorem State.report_wrapDue (s : State) (k d : Nat) : (s.report k d).wrapDue = s.wrapDue := by simp [State.report]
@[simp] theorem State.report_syncDue (s : State) (k d : Nat) : (s.report k d).syncDue = s.syncDue := by simp [State.report]
@[simp] theorem State.report_tick10 (s : State) (k d : Nat) : (s.report k d).tick10 = s.tick10 := by simp [State.report]
@[simp] theorem State.report_corr (s : State) (k d : Nat) : (s.report k d).corr = s.corr := by simp [State.report]
@[simp] theorem State.report_slewT (s : State) (k d : Nat) : (s.report k d).slewT = s.slewT := by simp [State.report]
@[simp] theorem State.report_tbLog (s : State) (k d : Nat) : (s.report k d).tbLog = s.tbLog := by simp [State.report]
@[simp] theorem State.report_rd (s : State) (k d : Nat) : (s.report k d).rd = s.rd := by simp [State.report]
@[simp] theorem State.report_freeCtr (s : State) (k d : Nat) : (s.report k d).freeCtr = s.freeCtr := by simp [State.report]
@[simp] theorem State.report_regs (s : State) (k d : Nat) : (s.report k d).regs = s.regs := by simp [State.report]
@[simp] theorem State.report_marks (s : State) (k d : Nat) : (s.report k d).marks = s.marks := by simp [State.report]
@[simp] theorem State.report_halls (s : State) (k d : Nat) : (s.report k d).halls = s.halls := by simp [State.report]
@[simp] theorem State.report_hallErr (s : State) (k d : Nat) : (s.report k d).hallErr = s.hallErr := by simp [State.report]
@[simp] theorem State.report_nvs (s : State) (k d : Nat) : (s.report k d).nvs = s.nvs := by simp [State.report]
@[simp] theorem State.report_nvsErr (s : State) (k d : Nat) : (s.report k d).nvsErr = s.nvsErr := by simp [State.report]
@[simp] theorem State.report_routes (s : State) (k d : Nat) : (s.report k d).routes = s.routes := by simp [State.report]
@[simp] theorem State.report_pcr (s : State) (k d : Nat) : (s.report k d).pcr = s.pcr := by simp [State.report]
@[simp] theorem State.report_wvl (s : State) (k d : Nat) : (s.report k d).wvl = s.wvl := by simp [State.report]
@[simp] theorem State.report_inp (s : State) (k d : Nat) : (s.report k d).inp = s.inp := by simp [State.report]
@[simp] theorem State.report_trk (s : State) (k d : Nat) : (s.report k d).trk = s.trk := by simp [State.report]
@[simp] theorem State.report_bcnOut (s : State) (k d : Nat) : (s.report k d).bcnOut = s.bcnOut := by simp [State.report]
@[simp] theorem State.report_bcnIn (s : State) (k d : Nat) : (s.report k d).bcnIn = s.bcnIn := by simp [State.report]
@[simp] theorem State.report_pins (s : State) (k d : Nat) : (s.report k d).pins = s.pins := by simp [State.report]
@[simp] theorem State.report_stitch (s : State) (k d : Nat) : (s.report k d).stitch = s.stitch := by simp [State.report]
@[simp] theorem State.report_suPos (s : State) (k d : Nat) : (s.report k d).suPos = s.suPos := by simp [State.report]
@[simp] theorem State.report_suPath (s : State) (k d : Nat) : (s.report k d).suPath = s.suPath := by simp [State.report]
@[simp] theorem State.report_suActs (s : State) (k d : Nat) : (s.report k d).suActs = s.suActs := by simp [State.report]
@[simp] theorem State.report_suT (s : State) (k d : Nat) : (s.report k d).suT = s.suT := by simp [State.report]
@[simp] theorem State.report_inj (s : State) (k d : Nat) : (s.report k d).inj = s.inj := by simp [State.report]
@[simp] theorem State.report_ndl (s : State) (k d : Nat) : (s.report k d).ndl = s.ndl := by simp [State.report]
@[simp] theorem State.report_ncl (s : State) (k d : Nat) : (s.report k d).ncl = s.ncl := by simp [State.report]
@[simp] theorem State.report_cht (s : State) (k d : Nat) : (s.report k d).cht = s.cht := by simp [State.report]
@[simp] theorem State.report_gau (s : State) (k d : Nat) : (s.report k d).gau = s.gau := by simp [State.report]
@[simp] theorem State.report_cmp (s : State) (k d : Nat) : (s.report k d).cmp = s.cmp := by simp [State.report]
@[simp] theorem State.report_tmr (s : State) (k d : Nat) : (s.report k d).tmr = s.tmr := by simp [State.report]
@[simp] theorem State.report_tmrActs (s : State) (k d : Nat) : (s.report k d).tmrActs = s.tmrActs := by simp [State.report]
@[simp] theorem State.report_hal (s : State) (k d : Nat) : (s.report k d).hal = s.hal := by simp [State.report]
@[simp] theorem State.report_hook (s : State) (k d : Nat) : (s.report k d).hook = s.hook := by simp [State.report]
@[simp] theorem State.report_gal (s : State) (k d : Nat) : (s.report k d).gal = s.gal := by simp [State.report]
@[simp] theorem State.report_irt (s : State) (k d : Nat) : (s.report k d).irt = s.irt := by simp [State.report]
@[simp] theorem State.report_host (s : State) (k d : Nat) : (s.report k d).host = s.host := by simp [State.report]
@[simp] theorem State.report_stc (s : State) (k d : Nat) : (s.report k d).stc = s.stc := by simp [State.report]
@[simp] theorem State.report_tru (s : State) (k d : Nat) : (s.report k d).tru = s.tru := by simp [State.report]
@[simp] theorem State.report_can (s : State) (k d : Nat) : (s.report k d).can = s.can := by simp [State.report]
@[simp] theorem State.report_sent (s : State) (k d : Nat) : (s.report k d).sent = s.sent := by simp [State.report]

/-! ### standOn -/

@[simp] theorem State.standOn_pending (s : State) (k d : Nat) : (s.standOn k d).pending = s.pending := by unfold State.standOn; split <;> exact (rfl)
@[simp] theorem State.standOn_fclk (s : State) (k d : Nat) : (s.standOn k d).fclk = s.fclk := by unfold State.standOn; split <;> exact (rfl)
@[simp] theorem State.standOn_tb (s : State) (k d : Nat) : (s.standOn k d).tb = s.tb := by unfold State.standOn; split <;> exact (rfl)
@[simp] theorem State.standOn_mtDue (s : State) (k d : Nat) : (s.standOn k d).mtDue = s.mtDue := by unfold State.standOn; split <;> exact (rfl)
@[simp] theorem State.standOn_wrapDue (s : State) (k d : Nat) : (s.standOn k d).wrapDue = s.wrapDue := by unfold State.standOn; split <;> exact (rfl)
@[simp] theorem State.standOn_syncDue (s : State) (k d : Nat) : (s.standOn k d).syncDue = s.syncDue := by unfold State.standOn; split <;> exact (rfl)
@[simp] theorem State.standOn_tick10 (s : State) (k d : Nat) : (s.standOn k d).tick10 = s.tick10 := by unfold State.standOn; split <;> exact (rfl)
@[simp] theorem State.standOn_corr (s : State) (k d : Nat) : (s.standOn k d).corr = s.corr := by unfold State.standOn; split <;> exact (rfl)
@[simp] theorem State.standOn_slewT (s : State) (k d : Nat) : (s.standOn k d).slewT = s.slewT := by unfold State.standOn; split <;> exact (rfl)
@[simp] theorem State.standOn_tbLog (s : State) (k d : Nat) : (s.standOn k d).tbLog = s.tbLog := by unfold State.standOn; split <;> exact (rfl)
@[simp] theorem State.standOn_rd (s : State) (k d : Nat) : (s.standOn k d).rd = s.rd := by unfold State.standOn; split <;> exact (rfl)
@[simp] theorem State.standOn_freeCtr (s : State) (k d : Nat) : (s.standOn k d).freeCtr = s.freeCtr := by unfold State.standOn; split <;> exact (rfl)
@[simp] theorem State.standOn_regs (s : State) (k d : Nat) : (s.standOn k d).regs = s.regs := by unfold State.standOn; split <;> exact (rfl)
@[simp] theorem State.standOn_marks (s : State) (k d : Nat) : (s.standOn k d).marks = s.marks := by unfold State.standOn; split <;> exact (rfl)
@[simp] theorem State.standOn_halls (s : State) (k d : Nat) : (s.standOn k d).halls = s.halls := by unfold State.standOn; split <;> exact (rfl)
@[simp] theorem State.standOn_hallErr (s : State) (k d : Nat) : (s.standOn k d).hallErr = s.hallErr := by unfold State.standOn; split <;> exact (rfl)
@[simp] theorem State.standOn_nvs (s : State) (k d : Nat) : (s.standOn k d).nvs = s.nvs := by unfold State.standOn; split <;> exact (rfl)
@[simp] theorem State.standOn_nvsErr (s : State) (k d : Nat) : (s.standOn k d).nvsErr = s.nvsErr := by unfold State.standOn; split <;> exact (rfl)
@[simp] theorem State.standOn_routes (s : State) (k d : Nat) : (s.standOn k d).routes = s.routes := by unfold State.standOn; split <;> exact (rfl)
@[simp] theorem State.standOn_pcr (s : State) (k d : Nat) : (s.standOn k d).pcr = s.pcr := by unfold State.standOn; split <;> exact (rfl)
@[simp] theorem State.standOn_wvl (s : State) (k d : Nat) : (s.standOn k d).wvl = s.wvl := by unfold State.standOn; split <;> exact (rfl)
@[simp] theorem State.standOn_inp (s : State) (k d : Nat) : (s.standOn k d).inp = s.inp := by unfold State.standOn; split <;> exact (rfl)
@[simp] theorem State.standOn_trk (s : State) (k d : Nat) : (s.standOn k d).trk = s.trk := by unfold State.standOn; split <;> exact (rfl)
@[simp] theorem State.standOn_bcnOut (s : State) (k d : Nat) : (s.standOn k d).bcnOut = s.bcnOut := by unfold State.standOn; split <;> exact (rfl)
@[simp] theorem State.standOn_bcnIn (s : State) (k d : Nat) : (s.standOn k d).bcnIn = s.bcnIn := by unfold State.standOn; split <;> exact (rfl)
@[simp] theorem State.standOn_pins (s : State) (k d : Nat) : (s.standOn k d).pins = s.pins := by unfold State.standOn; split <;> exact (rfl)
@[simp] theorem State.standOn_stitch (s : State) (k d : Nat) : (s.standOn k d).stitch = s.stitch := by unfold State.standOn; split <;> exact (rfl)
@[simp] theorem State.standOn_suPos (s : State) (k d : Nat) : (s.standOn k d).suPos = s.suPos := by unfold State.standOn; split <;> exact (rfl)
@[simp] theorem State.standOn_suPath (s : State) (k d : Nat) : (s.standOn k d).suPath = s.suPath := by unfold State.standOn; split <;> exact (rfl)
@[simp] theorem State.standOn_suActs (s : State) (k d : Nat) : (s.standOn k d).suActs = s.suActs := by unfold State.standOn; split <;> exact (rfl)
@[simp] theorem State.standOn_suT (s : State) (k d : Nat) : (s.standOn k d).suT = s.suT := by unfold State.standOn; split <;> exact (rfl)
@[simp] theorem State.standOn_inj (s : State) (k d : Nat) : (s.standOn k d).inj = s.inj := by unfold State.standOn; split <;> exact (rfl)
@[simp] theorem State.standOn_ndl (s : State) (k d : Nat) : (s.standOn k d).ndl = s.ndl := by unfold State.standOn; split <;> exact (rfl)
@[simp] theorem State.standOn_ncl (s : State) (k d : Nat) : (s.standOn k d).ncl = s.ncl := by unfold State.standOn; split <;> exact (rfl)
@[simp] theorem State.standOn_cht (s : State) (k d : Nat) : (s.standOn k d).cht = s.cht := by unfold State.standOn; split <;> exact (rfl)
@[simp] theorem State.standOn_gau (s : State) (k d : Nat) : (s.standOn k d).gau = s.gau := by unfold State.standOn; split <;> exact (rfl)
@[simp] theorem State.standOn_cmp (s : State) (k d : Nat) : (s.standOn k d).cmp = s.cmp := by unfold State.standOn; split <;> exact (rfl)
@[simp] theorem State.standOn_tmr (s : State) (k d : Nat) : (s.standOn k d).tmr = s.tmr := by unfold State.standOn; split <;> exact (rfl)
@[simp] theorem State.standOn_tmrActs (s : State) (k d : Nat) : (s.standOn k d).tmrActs = s.tmrActs := by unfold State.standOn; split <;> exact (rfl)
@[simp] theorem State.standOn_hal (s : State) (k d : Nat) : (s.standOn k d).hal = s.hal := by unfold State.standOn; split <;> exact (rfl)
@[simp] theorem State.standOn_hook (s : State) (k d : Nat) : (s.standOn k d).hook = s.hook := by unfold State.standOn; split <;> exact (rfl)
@[simp] theorem State.standOn_gal (s : State) (k d : Nat) : (s.standOn k d).gal = s.gal := by unfold State.standOn; split <;> exact (rfl)
@[simp] theorem State.standOn_irt (s : State) (k d : Nat) : (s.standOn k d).irt = s.irt := by unfold State.standOn; split <;> exact (rfl)
@[simp] theorem State.standOn_host (s : State) (k d : Nat) : (s.standOn k d).host = s.host := by unfold State.standOn; split <;> exact (rfl)
@[simp] theorem State.standOn_stc (s : State) (k d : Nat) : (s.standOn k d).stc = s.stc := by unfold State.standOn; split <;> exact (rfl)
@[simp] theorem State.standOn_tru (s : State) (k d : Nat) : (s.standOn k d).tru = s.tru := by unfold State.standOn; split <;> exact (rfl)
@[simp] theorem State.standOn_can (s : State) (k d : Nat) : (s.standOn k d).can = s.can := by unfold State.standOn; split <;> exact (rfl)
@[simp] theorem State.standOn_sent (s : State) (k d : Nat) : (s.standOn k d).sent = s.sent := by unfold State.standOn; split <;> exact (rfl)

/-! ### standOff -/

@[simp] theorem State.standOff_pending (s : State) (k d : Nat) : (s.standOff k d).pending = s.pending := (rfl)
@[simp] theorem State.standOff_fclk (s : State) (k d : Nat) : (s.standOff k d).fclk = s.fclk := (rfl)
@[simp] theorem State.standOff_tb (s : State) (k d : Nat) : (s.standOff k d).tb = s.tb := (rfl)
@[simp] theorem State.standOff_mtDue (s : State) (k d : Nat) : (s.standOff k d).mtDue = s.mtDue := (rfl)
@[simp] theorem State.standOff_wrapDue (s : State) (k d : Nat) : (s.standOff k d).wrapDue = s.wrapDue := (rfl)
@[simp] theorem State.standOff_syncDue (s : State) (k d : Nat) : (s.standOff k d).syncDue = s.syncDue := (rfl)
@[simp] theorem State.standOff_tick10 (s : State) (k d : Nat) : (s.standOff k d).tick10 = s.tick10 := (rfl)
@[simp] theorem State.standOff_corr (s : State) (k d : Nat) : (s.standOff k d).corr = s.corr := (rfl)
@[simp] theorem State.standOff_slewT (s : State) (k d : Nat) : (s.standOff k d).slewT = s.slewT := (rfl)
@[simp] theorem State.standOff_tbLog (s : State) (k d : Nat) : (s.standOff k d).tbLog = s.tbLog := (rfl)
@[simp] theorem State.standOff_rd (s : State) (k d : Nat) : (s.standOff k d).rd = s.rd := (rfl)
@[simp] theorem State.standOff_freeCtr (s : State) (k d : Nat) : (s.standOff k d).freeCtr = s.freeCtr := (rfl)
@[simp] theorem State.standOff_regs (s : State) (k d : Nat) : (s.standOff k d).regs = s.regs := (rfl)
@[simp] theorem State.standOff_marks (s : State) (k d : Nat) : (s.standOff k d).marks = s.marks := (rfl)
@[simp] theorem State.standOff_halls (s : State) (k d : Nat) : (s.standOff k d).halls = s.halls := (rfl)
@[simp] theorem State.standOff_hallErr (s : State) (k d : Nat) : (s.standOff k d).hallErr = s.hallErr := (rfl)
@[simp] theorem State.standOff_nvs (s : State) (k d : Nat) : (s.standOff k d).nvs = s.nvs := (rfl)
@[simp] theorem State.standOff_nvsErr (s : State) (k d : Nat) : (s.standOff k d).nvsErr = s.nvsErr := (rfl)
@[simp] theorem State.standOff_routes (s : State) (k d : Nat) : (s.standOff k d).routes = s.routes := (rfl)
@[simp] theorem State.standOff_pcr (s : State) (k d : Nat) : (s.standOff k d).pcr = s.pcr := (rfl)
@[simp] theorem State.standOff_wvl (s : State) (k d : Nat) : (s.standOff k d).wvl = s.wvl := (rfl)
@[simp] theorem State.standOff_inp (s : State) (k d : Nat) : (s.standOff k d).inp = s.inp := (rfl)
@[simp] theorem State.standOff_trk (s : State) (k d : Nat) : (s.standOff k d).trk = s.trk := (rfl)
@[simp] theorem State.standOff_bcnOut (s : State) (k d : Nat) : (s.standOff k d).bcnOut = s.bcnOut := (rfl)
@[simp] theorem State.standOff_bcnIn (s : State) (k d : Nat) : (s.standOff k d).bcnIn = s.bcnIn := (rfl)
@[simp] theorem State.standOff_pins (s : State) (k d : Nat) : (s.standOff k d).pins = s.pins := (rfl)
@[simp] theorem State.standOff_stitch (s : State) (k d : Nat) : (s.standOff k d).stitch = s.stitch := (rfl)
@[simp] theorem State.standOff_suPos (s : State) (k d : Nat) : (s.standOff k d).suPos = s.suPos := (rfl)
@[simp] theorem State.standOff_suPath (s : State) (k d : Nat) : (s.standOff k d).suPath = s.suPath := (rfl)
@[simp] theorem State.standOff_suActs (s : State) (k d : Nat) : (s.standOff k d).suActs = s.suActs := (rfl)
@[simp] theorem State.standOff_suT (s : State) (k d : Nat) : (s.standOff k d).suT = s.suT := (rfl)
@[simp] theorem State.standOff_inj (s : State) (k d : Nat) : (s.standOff k d).inj = s.inj := (rfl)
@[simp] theorem State.standOff_ndl (s : State) (k d : Nat) : (s.standOff k d).ndl = s.ndl := (rfl)
@[simp] theorem State.standOff_ncl (s : State) (k d : Nat) : (s.standOff k d).ncl = s.ncl := (rfl)
@[simp] theorem State.standOff_cht (s : State) (k d : Nat) : (s.standOff k d).cht = s.cht := (rfl)
@[simp] theorem State.standOff_gau (s : State) (k d : Nat) : (s.standOff k d).gau = s.gau := (rfl)
@[simp] theorem State.standOff_cmp (s : State) (k d : Nat) : (s.standOff k d).cmp = s.cmp := (rfl)
@[simp] theorem State.standOff_tmr (s : State) (k d : Nat) : (s.standOff k d).tmr = s.tmr := (rfl)
@[simp] theorem State.standOff_tmrActs (s : State) (k d : Nat) : (s.standOff k d).tmrActs = s.tmrActs := (rfl)
@[simp] theorem State.standOff_hal (s : State) (k d : Nat) : (s.standOff k d).hal = s.hal := (rfl)
@[simp] theorem State.standOff_hook (s : State) (k d : Nat) : (s.standOff k d).hook = s.hook := (rfl)
@[simp] theorem State.standOff_gal (s : State) (k d : Nat) : (s.standOff k d).gal = s.gal := (rfl)
@[simp] theorem State.standOff_irt (s : State) (k d : Nat) : (s.standOff k d).irt = s.irt := (rfl)
@[simp] theorem State.standOff_host (s : State) (k d : Nat) : (s.standOff k d).host = s.host := (rfl)
@[simp] theorem State.standOff_stc (s : State) (k d : Nat) : (s.standOff k d).stc = s.stc := (rfl)
@[simp] theorem State.standOff_tru (s : State) (k d : Nat) : (s.standOff k d).tru = s.tru := (rfl)
@[simp] theorem State.standOff_can (s : State) (k d : Nat) : (s.standOff k d).can = s.can := (rfl)
@[simp] theorem State.standOff_sent (s : State) (k d : Nat) : (s.standOff k d).sent = s.sent := (rfl)

/-! ### updTrk -/

@[simp] theorem State.updTrk_pending (s : State) (n : Nat) (f : Trk → Trk) : (s.updTrk n f).pending = s.pending := (rfl)
@[simp] theorem State.updTrk_fclk (s : State) (n : Nat) (f : Trk → Trk) : (s.updTrk n f).fclk = s.fclk := (rfl)
@[simp] theorem State.updTrk_tb (s : State) (n : Nat) (f : Trk → Trk) : (s.updTrk n f).tb = s.tb := (rfl)
@[simp] theorem State.updTrk_tbLog (s : State) (n : Nat) (f : Trk → Trk) : (s.updTrk n f).tbLog = s.tbLog := (rfl)
@[simp] theorem State.updTrk_rd (s : State) (n : Nat) (f : Trk → Trk) : (s.updTrk n f).rd = s.rd := (rfl)
@[simp] theorem State.updTrk_regs (s : State) (n : Nat) (f : Trk → Trk) : (s.updTrk n f).regs = s.regs := (rfl)
@[simp] theorem State.updTrk_marks (s : State) (n : Nat) (f : Trk → Trk) : (s.updTrk n f).marks = s.marks := (rfl)
@[simp] theorem State.updTrk_halls (s : State) (n : Nat) (f : Trk → Trk) : (s.updTrk n f).halls = s.halls := (rfl)
@[simp] theorem State.updTrk_nvs (s : State) (n : Nat) (f : Trk → Trk) : (s.updTrk n f).nvs = s.nvs := (rfl)
@[simp] theorem State.updTrk_inp (s : State) (n : Nat) (f : Trk → Trk) : (s.updTrk n f).inp = s.inp := (rfl)
@[simp] theorem State.updTrk_pins (s : State) (n : Nat) (f : Trk → Trk) : (s.updTrk n f).pins = s.pins := (rfl)
@[simp] theorem State.updTrk_stitch (s : State) (n : Nat) (f : Trk → Trk) : (s.updTrk n f).stitch = s.stitch := (rfl)
@[simp] theorem State.updTrk_suActs (s : State) (n : Nat) (f : Trk → Trk) : (s.updTrk n f).suActs = s.suActs := (rfl)
@[simp] theorem State.updTrk_suT (s : State) (n : Nat) (f : Trk → Trk) : (s.updTrk n f).suT = s.suT := (rfl)
@[simp] theorem State.updTrk_inj (s : State) (n : Nat) (f : Trk → Trk) : (s.updTrk n f).inj = s.inj := (rfl)
@[simp] theorem State.updTrk_ndl (s : State) (n : Nat) (f : Trk → Trk) : (s.updTrk n f).ndl = s.ndl := (rfl)
@[simp] theorem State.updTrk_ncl (s : State) (n : Nat) (f : Trk → Trk) : (s.updTrk n f).ncl = s.ncl := (rfl)
@[simp] theorem State.updTrk_tmrActs (s : State) (n : Nat) (f : Trk → Trk) : (s.updTrk n f).tmrActs = s.tmrActs := (rfl)
@[simp] theorem State.updTrk_hal (s : State) (n : Nat) (f : Trk → Trk) : (s.updTrk n f).hal = s.hal := (rfl)
@[simp] theorem State.updTrk_gal (s : State) (n : Nat) (f : Trk → Trk) : (s.updTrk n f).gal = s.gal := (rfl)
@[simp] theorem State.updTrk_can (s : State) (n : Nat) (f : Trk → Trk) : (s.updTrk n f).can = s.can := (rfl)
@[simp] theorem State.updTrk_por (s : State) (n : Nat) (f : Trk → Trk) : (s.updTrk n f).por = s.por := (rfl)

/-! ### updSt -/

@[simp] theorem State.updSt_pending (s : State) (n : Nat) (f : Stitch → Stitch) : (s.updSt n f).pending = s.pending := (rfl)
@[simp] theorem State.updSt_fclk (s : State) (n : Nat) (f : Stitch → Stitch) : (s.updSt n f).fclk = s.fclk := (rfl)
@[simp] theorem State.updSt_tb (s : State) (n : Nat) (f : Stitch → Stitch) : (s.updSt n f).tb = s.tb := (rfl)
@[simp] theorem State.updSt_tbLog (s : State) (n : Nat) (f : Stitch → Stitch) : (s.updSt n f).tbLog = s.tbLog := (rfl)
@[simp] theorem State.updSt_rd (s : State) (n : Nat) (f : Stitch → Stitch) : (s.updSt n f).rd = s.rd := (rfl)
@[simp] theorem State.updSt_regs (s : State) (n : Nat) (f : Stitch → Stitch) : (s.updSt n f).regs = s.regs := (rfl)
@[simp] theorem State.updSt_marks (s : State) (n : Nat) (f : Stitch → Stitch) : (s.updSt n f).marks = s.marks := (rfl)
@[simp] theorem State.updSt_halls (s : State) (n : Nat) (f : Stitch → Stitch) : (s.updSt n f).halls = s.halls := (rfl)
@[simp] theorem State.updSt_nvs (s : State) (n : Nat) (f : Stitch → Stitch) : (s.updSt n f).nvs = s.nvs := (rfl)
@[simp] theorem State.updSt_inp (s : State) (n : Nat) (f : Stitch → Stitch) : (s.updSt n f).inp = s.inp := (rfl)
@[simp] theorem State.updSt_trk (s : State) (n : Nat) (f : Stitch → Stitch) : (s.updSt n f).trk = s.trk := (rfl)
@[simp] theorem State.updSt_pins (s : State) (n : Nat) (f : Stitch → Stitch) : (s.updSt n f).pins = s.pins := (rfl)
@[simp] theorem State.updSt_suActs (s : State) (n : Nat) (f : Stitch → Stitch) : (s.updSt n f).suActs = s.suActs := (rfl)
@[simp] theorem State.updSt_suT (s : State) (n : Nat) (f : Stitch → Stitch) : (s.updSt n f).suT = s.suT := (rfl)
@[simp] theorem State.updSt_inj (s : State) (n : Nat) (f : Stitch → Stitch) : (s.updSt n f).inj = s.inj := (rfl)
@[simp] theorem State.updSt_ndl (s : State) (n : Nat) (f : Stitch → Stitch) : (s.updSt n f).ndl = s.ndl := (rfl)
@[simp] theorem State.updSt_ncl (s : State) (n : Nat) (f : Stitch → Stitch) : (s.updSt n f).ncl = s.ncl := (rfl)
@[simp] theorem State.updSt_tmrActs (s : State) (n : Nat) (f : Stitch → Stitch) : (s.updSt n f).tmrActs = s.tmrActs := (rfl)
@[simp] theorem State.updSt_hal (s : State) (n : Nat) (f : Stitch → Stitch) : (s.updSt n f).hal = s.hal := (rfl)
@[simp] theorem State.updSt_gal (s : State) (n : Nat) (f : Stitch → Stitch) : (s.updSt n f).gal = s.gal := (rfl)
@[simp] theorem State.updSt_can (s : State) (n : Nat) (f : Stitch → Stitch) : (s.updSt n f).can = s.can := (rfl)
@[simp] theorem State.updSt_por (s : State) (n : Nat) (f : Stitch → Stitch) : (s.updSt n f).por = s.por := (rfl)

/-! ### updBank -/

@[simp] theorem State.updBank_pending (s : State) (n : Nat) (f : Bank → Bank) : (s.updBank n f).pending = s.pending := (rfl)
@[simp] theorem State.updBank_fclk (s : State) (n : Nat) (f : Bank → Bank) : (s.updBank n f).fclk = s.fclk := (rfl)
@[simp] theorem State.updBank_tb (s : State) (n : Nat) (f : Bank → Bank) : (s.updBank n f).tb = s.tb := (rfl)
@[simp] theorem State.updBank_tbLog (s : State) (n : Nat) (f : Bank → Bank) : (s.updBank n f).tbLog = s.tbLog := (rfl)
@[simp] theorem State.updBank_rd (s : State) (n : Nat) (f : Bank → Bank) : (s.updBank n f).rd = s.rd := (rfl)
@[simp] theorem State.updBank_regs (s : State) (n : Nat) (f : Bank → Bank) : (s.updBank n f).regs = s.regs := (rfl)
@[simp] theorem State.updBank_marks (s : State) (n : Nat) (f : Bank → Bank) : (s.updBank n f).marks = s.marks := (rfl)
@[simp] theorem State.updBank_halls (s : State) (n : Nat) (f : Bank → Bank) : (s.updBank n f).halls = s.halls := (rfl)
@[simp] theorem State.updBank_nvs (s : State) (n : Nat) (f : Bank → Bank) : (s.updBank n f).nvs = s.nvs := (rfl)
@[simp] theorem State.updBank_inp (s : State) (n : Nat) (f : Bank → Bank) : (s.updBank n f).inp = s.inp := (rfl)
@[simp] theorem State.updBank_trk (s : State) (n : Nat) (f : Bank → Bank) : (s.updBank n f).trk = s.trk := (rfl)
@[simp] theorem State.updBank_pins (s : State) (n : Nat) (f : Bank → Bank) : (s.updBank n f).pins = s.pins := (rfl)
@[simp] theorem State.updBank_stitch (s : State) (n : Nat) (f : Bank → Bank) : (s.updBank n f).stitch = s.stitch := (rfl)
@[simp] theorem State.updBank_suActs (s : State) (n : Nat) (f : Bank → Bank) : (s.updBank n f).suActs = s.suActs := (rfl)
@[simp] theorem State.updBank_suT (s : State) (n : Nat) (f : Bank → Bank) : (s.updBank n f).suT = s.suT := (rfl)
@[simp] theorem State.updBank_ndl (s : State) (n : Nat) (f : Bank → Bank) : (s.updBank n f).ndl = s.ndl := (rfl)
@[simp] theorem State.updBank_ncl (s : State) (n : Nat) (f : Bank → Bank) : (s.updBank n f).ncl = s.ncl := (rfl)
@[simp] theorem State.updBank_tmrActs (s : State) (n : Nat) (f : Bank → Bank) : (s.updBank n f).tmrActs = s.tmrActs := (rfl)
@[simp] theorem State.updBank_hal (s : State) (n : Nat) (f : Bank → Bank) : (s.updBank n f).hal = s.hal := (rfl)
@[simp] theorem State.updBank_gal (s : State) (n : Nat) (f : Bank → Bank) : (s.updBank n f).gal = s.gal := (rfl)
@[simp] theorem State.updBank_can (s : State) (n : Nat) (f : Bank → Bank) : (s.updBank n f).can = s.can := (rfl)
@[simp] theorem State.updBank_por (s : State) (n : Nat) (f : Bank → Bank) : (s.updBank n f).por = s.por := (rfl)

/-! ### updNdl -/

@[simp] theorem State.updNdl_pending (s : State) (n : Nat) (f : Ndl → Ndl) : (s.updNdl n f).pending = s.pending := (rfl)
@[simp] theorem State.updNdl_fclk (s : State) (n : Nat) (f : Ndl → Ndl) : (s.updNdl n f).fclk = s.fclk := (rfl)
@[simp] theorem State.updNdl_tb (s : State) (n : Nat) (f : Ndl → Ndl) : (s.updNdl n f).tb = s.tb := (rfl)
@[simp] theorem State.updNdl_tbLog (s : State) (n : Nat) (f : Ndl → Ndl) : (s.updNdl n f).tbLog = s.tbLog := (rfl)
@[simp] theorem State.updNdl_rd (s : State) (n : Nat) (f : Ndl → Ndl) : (s.updNdl n f).rd = s.rd := (rfl)
@[simp] theorem State.updNdl_regs (s : State) (n : Nat) (f : Ndl → Ndl) : (s.updNdl n f).regs = s.regs := (rfl)
@[simp] theorem State.updNdl_marks (s : State) (n : Nat) (f : Ndl → Ndl) : (s.updNdl n f).marks = s.marks := (rfl)
@[simp] theorem State.updNdl_halls (s : State) (n : Nat) (f : Ndl → Ndl) : (s.updNdl n f).halls = s.halls := (rfl)
@[simp] theorem State.updNdl_nvs (s : State) (n : Nat) (f : Ndl → Ndl) : (s.updNdl n f).nvs = s.nvs := (rfl)
@[simp] theorem State.updNdl_inp (s : State) (n : Nat) (f : Ndl → Ndl) : (s.updNdl n f).inp = s.inp := (rfl)
@[simp] theorem State.updNdl_trk (s : State) (n : Nat) (f : Ndl → Ndl) : (s.updNdl n f).trk = s.trk := (rfl)
@[simp] theorem State.updNdl_pins (s : State) (n : Nat) (f : Ndl → Ndl) : (s.updNdl n f).pins = s.pins := (rfl)
@[simp] theorem State.updNdl_stitch (s : State) (n : Nat) (f : Ndl → Ndl) : (s.updNdl n f).stitch = s.stitch := (rfl)
@[simp] theorem State.updNdl_suActs (s : State) (n : Nat) (f : Ndl → Ndl) : (s.updNdl n f).suActs = s.suActs := (rfl)
@[simp] theorem State.updNdl_suT (s : State) (n : Nat) (f : Ndl → Ndl) : (s.updNdl n f).suT = s.suT := (rfl)
@[simp] theorem State.updNdl_inj (s : State) (n : Nat) (f : Ndl → Ndl) : (s.updNdl n f).inj = s.inj := (rfl)
@[simp] theorem State.updNdl_ncl (s : State) (n : Nat) (f : Ndl → Ndl) : (s.updNdl n f).ncl = s.ncl := (rfl)
@[simp] theorem State.updNdl_tmrActs (s : State) (n : Nat) (f : Ndl → Ndl) : (s.updNdl n f).tmrActs = s.tmrActs := (rfl)
@[simp] theorem State.updNdl_hal (s : State) (n : Nat) (f : Ndl → Ndl) : (s.updNdl n f).hal = s.hal := (rfl)
@[simp] theorem State.updNdl_gal (s : State) (n : Nat) (f : Ndl → Ndl) : (s.updNdl n f).gal = s.gal := (rfl)
@[simp] theorem State.updNdl_can (s : State) (n : Nat) (f : Ndl → Ndl) : (s.updNdl n f).can = s.can := (rfl)
@[simp] theorem State.updNdl_por (s : State) (n : Nat) (f : Ndl → Ndl) : (s.updNdl n f).por = s.por := (rfl)

/-! ### updTmr -/

@[simp] theorem State.updTmr_pending (s : State) (n : Nat) (f : Tmr → Tmr) : (s.updTmr n f).pending = s.pending := (rfl)
@[simp] theorem State.updTmr_fclk (s : State) (n : Nat) (f : Tmr → Tmr) : (s.updTmr n f).fclk = s.fclk := (rfl)
@[simp] theorem State.updTmr_tb (s : State) (n : Nat) (f : Tmr → Tmr) : (s.updTmr n f).tb = s.tb := (rfl)
@[simp] theorem State.updTmr_tbLog (s : State) (n : Nat) (f : Tmr → Tmr) : (s.updTmr n f).tbLog = s.tbLog := (rfl)
@[simp] theorem State.updTmr_rd (s : State) (n : Nat) (f : Tmr → Tmr) : (s.updTmr n f).rd = s.rd := (rfl)
@[simp] theorem State.updTmr_regs (s : State) (n : Nat) (f : Tmr → Tmr) : (s.updTmr n f).regs = s.regs := (rfl)
@[simp] theorem State.updTmr_marks (s : State) (n : Nat) (f : Tmr → Tmr) : (s.updTmr n f).marks = s.marks := (rfl)
@[simp] theorem State.updTmr_halls (s : State) (n : Nat) (f : Tmr → Tmr) : (s.updTmr n f).halls = s.halls := (rfl)
@[simp] theorem State.updTmr_nvs (s : State) (n : Nat) (f : Tmr → Tmr) : (s.updTmr n f).nvs = s.nvs := (rfl)
@[simp] theorem State.updTmr_inp (s : State) (n : Nat) (f : Tmr → Tmr) : (s.updTmr n f).inp = s.inp := (rfl)
@[simp] theorem State.updTmr_trk (s : State) (n : Nat) (f : Tmr → Tmr) : (s.updTmr n f).trk = s.trk := (rfl)
@[simp] theorem State.updTmr_pins (s : State) (n : Nat) (f : Tmr → Tmr) : (s.updTmr n f).pins = s.pins := (rfl)
@[simp] theorem State.updTmr_stitch (s : State) (n : Nat) (f : Tmr → Tmr) : (s.updTmr n f).stitch = s.stitch := (rfl)
@[simp] theorem State.updTmr_suActs (s : State) (n : Nat) (f : Tmr → Tmr) : (s.updTmr n f).suActs = s.suActs := (rfl)
@[simp] theorem State.updTmr_suT (s : State) (n : Nat) (f : Tmr → Tmr) : (s.updTmr n f).suT = s.suT := (rfl)
@[simp] theorem State.updTmr_inj (s : State) (n : Nat) (f : Tmr → Tmr) : (s.updTmr n f).inj = s.inj := (rfl)
@[simp] theorem State.updTmr_ndl (s : State) (n : Nat) (f : Tmr → Tmr) : (s.updTmr n f).ndl = s.ndl := (rfl)
@[simp] theorem State.updTmr_ncl (s : State) (n : Nat) (f : Tmr → Tmr) : (s.updTmr n f).ncl = s.ncl := (rfl)
@[simp] theorem State.updTmr_tmrActs (s : State) (n : Nat) (f : Tmr → Tmr) : (s.updTmr n f).tmrActs = s.tmrActs := (rfl)
@[simp] theorem State.updTmr_hal (s : State) (n : Nat) (f : Tmr → Tmr) : (s.updTmr n f).hal = s.hal := (rfl)
@[simp] theorem State.updTmr_gal (s : State) (n : Nat) (f : Tmr → Tmr) : (s.updTmr n f).gal = s.gal := (rfl)
@[simp] theorem State.updTmr_can (s : State) (n : Nat) (f : Tmr → Tmr) : (s.updTmr n f).can = s.can := (rfl)
@[simp] theorem State.updTmr_por (s : State) (n : Nat) (f : Tmr → Tmr) : (s.updTmr n f).por = s.por := (rfl)

/-! ### updHk -/

@[simp] theorem State.updHk_pending (s : State) (n : Nat) (f : Hk → Hk) : (s.updHk n f).pending = s.pending := (rfl)
@[simp] theorem State.updHk_fclk (s : State) (n : Nat) (f : Hk → Hk) : (s.updHk n f).fclk = s.fclk := (rfl)
@[simp] theorem State.updHk_tb (s : State) (n : Nat) (f : Hk → Hk) : (s.updHk n f).tb = s.tb := (rfl)
@[simp] theorem State.updHk_tbLog (s : State) (n : Nat) (f : Hk → Hk) : (s.updHk n f).tbLog = s.tbLog := (rfl)
@[simp] theorem State.updHk_rd (s : State) (n : Nat) (f : Hk → Hk) : (s.updHk n f).rd = s.rd := (rfl)
@[simp] theorem State.updHk_regs (s : State) (n : Nat) (f : Hk → Hk) : (s.updHk n f).regs = s.regs := (rfl)
@[simp] theorem State.updHk_marks (s : State) (n : Nat) (f : Hk → Hk) : (s.updHk n f).marks = s.marks := (rfl)
@[simp] theorem State.updHk_halls (s : State) (n : Nat) (f : Hk → Hk) : (s.updHk n f).halls = s.halls := (rfl)
@[simp] theorem State.updHk_nvs (s : State) (n : Nat) (f : Hk → Hk) : (s.updHk n f).nvs = s.nvs := (rfl)
@[simp] theorem State.updHk_inp (s : State) (n : Nat) (f : Hk → Hk) : (s.updHk n f).inp = s.inp := (rfl)
@[simp] theorem State.updHk_trk (s : State) (n : Nat) (f : Hk → Hk) : (s.updHk n f).trk = s.trk := (rfl)
@[simp] theorem State.updHk_pins (s : State) (n : Nat) (f : Hk → Hk) : (s.updHk n f).pins = s.pins := (rfl)
@[simp] theorem State.updHk_stitch (s : State) (n : Nat) (f : Hk → Hk) : (s.updHk n f).stitch = s.stitch := (rfl)
@[simp] theorem State.updHk_suActs (s : State) (n : Nat) (f : Hk → Hk) : (s.updHk n f).suActs = s.suActs := (rfl)
@[simp] theorem State.updHk_suT (s : State) (n : Nat) (f : Hk → Hk) : (s.updHk n f).suT = s.suT := (rfl)
@[simp] theorem State.updHk_inj (s : State) (n : Nat) (f : Hk → Hk) : (s.updHk n f).inj = s.inj := (rfl)
@[simp] theorem State.updHk_ndl (s : State) (n : Nat) (f : Hk → Hk) : (s.updHk n f).ndl = s.ndl := (rfl)
@[simp] theorem State.updHk_ncl (s : State) (n : Nat) (f : Hk → Hk) : (s.updHk n f).ncl = s.ncl := (rfl)
@[simp] theorem State.updHk_tmrActs (s : State) (n : Nat) (f : Hk → Hk) : (s.updHk n f).tmrActs = s.tmrActs := (rfl)
@[simp] theorem State.updHk_hal (s : State) (n : Nat) (f : Hk → Hk) : (s.updHk n f).hal = s.hal := (rfl)
@[simp] theorem State.updHk_gal (s : State) (n : Nat) (f : Hk → Hk) : (s.updHk n f).gal = s.gal := (rfl)
@[simp] theorem State.updHk_can (s : State) (n : Nat) (f : Hk → Hk) : (s.updHk n f).can = s.can := (rfl)
@[simp] theorem State.updHk_por (s : State) (n : Nat) (f : Hk → Hk) : (s.updHk n f).por = s.por := (rfl)

/-! ### updCht -/

@[simp] theorem State.updCht_pending (s : State) (f : Cht → Cht) : (s.updCht f).pending = s.pending := (rfl)
@[simp] theorem State.updCht_fclk (s : State) (f : Cht → Cht) : (s.updCht f).fclk = s.fclk := (rfl)
@[simp] theorem State.updCht_tb (s : State) (f : Cht → Cht) : (s.updCht f).tb = s.tb := (rfl)
@[simp] theorem State.updCht_tbLog (s : State) (f : Cht → Cht) : (s.updCht f).tbLog = s.tbLog := (rfl)
@[simp] theorem State.updCht_rd (s : State) (f : Cht → Cht) : (s.updCht f).rd = s.rd := (rfl)
@[simp] theorem State.updCht_regs (s : State) (f : Cht → Cht) : (s.updCht f).regs = s.regs := (rfl)
@[simp] theorem State.updCht_marks (s : State) (f : Cht → Cht) : (s.updCht f).marks = s.marks := (rfl)
@[simp] theorem State.updCht_halls (s : State) (f : Cht → Cht) : (s.updCht f).halls = s.halls := (rfl)
@[simp] theorem State.updCht_nvs (s : State) (f : Cht → Cht) : (s.updCht f).nvs = s.nvs := (rfl)
@[simp] theorem State.updCht_inp (s : State) (f : Cht → Cht) : (s.updCht f).inp = s.inp := (rfl)
@[simp] theorem State.updCht_trk (s : State) (f : Cht → Cht) : (s.updCht f).trk = s.trk := (rfl)
@[simp] theorem State.updCht_pins (s : State) (f : Cht → Cht) : (s.updCht f).pins = s.pins := (rfl)
@[simp] theorem State.updCht_stitch (s : State) (f : Cht → Cht) : (s.updCht f).stitch = s.stitch := (rfl)
@[simp] theorem State.updCht_suActs (s : State) (f : Cht → Cht) : (s.updCht f).suActs = s.suActs := (rfl)
@[simp] theorem State.updCht_suT (s : State) (f : Cht → Cht) : (s.updCht f).suT = s.suT := (rfl)
@[simp] theorem State.updCht_inj (s : State) (f : Cht → Cht) : (s.updCht f).inj = s.inj := (rfl)
@[simp] theorem State.updCht_ndl (s : State) (f : Cht → Cht) : (s.updCht f).ndl = s.ndl := (rfl)
@[simp] theorem State.updCht_ncl (s : State) (f : Cht → Cht) : (s.updCht f).ncl = s.ncl := (rfl)
@[simp] theorem State.updCht_tmrActs (s : State) (f : Cht → Cht) : (s.updCht f).tmrActs = s.tmrActs := (rfl)
@[simp] theorem State.updCht_hal (s : State) (f : Cht → Cht) : (s.updCht f).hal = s.hal := (rfl)
@[simp] theorem State.updCht_gal (s : State) (f : Cht → Cht) : (s.updCht f).gal = s.gal := (rfl)
@[simp] theorem State.updCht_can (s : State) (f : Cht → Cht) : (s.updCht f).can = s.can := (rfl)
@[simp] theorem State.updCht_por (s : State) (f : Cht → Cht) : (s.updCht f).por = s.por := (rfl)

/-! ### updGau -/

@[simp] theorem State.updGau_pending (s : State) (f : Gau → Gau) : (s.updGau f).pending = s.pending := (rfl)
@[simp] theorem State.updGau_fclk (s : State) (f : Gau → Gau) : (s.updGau f).fclk = s.fclk := (rfl)
@[simp] theorem State.updGau_tb (s : State) (f : Gau → Gau) : (s.updGau f).tb = s.tb := (rfl)
@[simp] theorem State.updGau_tbLog (s : State) (f : Gau → Gau) : (s.updGau f).tbLog = s.tbLog := (rfl)
@[simp] theorem State.updGau_rd (s : State) (f : Gau → Gau) : (s.updGau f).rd = s.rd := (rfl)
@[simp] theorem State.updGau_regs (s : State) (f : Gau → Gau) : (s.updGau f).regs = s.regs := (rfl)
@[simp] theorem State.updGau_marks (s : State) (f : Gau → Gau) : (s.updGau f).marks = s.marks := (rfl)
@[simp] theorem State.updGau_halls (s : State) (f : Gau → Gau) : (s.updGau f).halls = s.halls := (rfl)
@[simp] theorem State.updGau_nvs (s : State) (f : Gau → Gau) : (s.updGau f).nvs = s.nvs := (rfl)
@[simp] theorem State.updGau_inp (s : State) (f : Gau → Gau) : (s.updGau f).inp = s.inp := (rfl)
@[simp] theorem State.updGau_trk (s : State) (f : Gau → Gau) : (s.updGau f).trk = s.trk := (rfl)
@[simp] theorem State.updGau_pins (s : State) (f : Gau → Gau) : (s.updGau f).pins = s.pins := (rfl)
@[simp] theorem State.updGau_stitch (s : State) (f : Gau → Gau) : (s.updGau f).stitch = s.stitch := (rfl)
@[simp] theorem State.updGau_suActs (s : State) (f : Gau → Gau) : (s.updGau f).suActs = s.suActs := (rfl)
@[simp] theorem State.updGau_suT (s : State) (f : Gau → Gau) : (s.updGau f).suT = s.suT := (rfl)
@[simp] theorem State.updGau_inj (s : State) (f : Gau → Gau) : (s.updGau f).inj = s.inj := (rfl)
@[simp] theorem State.updGau_ndl (s : State) (f : Gau → Gau) : (s.updGau f).ndl = s.ndl := (rfl)
@[simp] theorem State.updGau_ncl (s : State) (f : Gau → Gau) : (s.updGau f).ncl = s.ncl := (rfl)
@[simp] theorem State.updGau_tmrActs (s : State) (f : Gau → Gau) : (s.updGau f).tmrActs = s.tmrActs := (rfl)
@[simp] theorem State.updGau_hal (s : State) (f : Gau → Gau) : (s.updGau f).hal = s.hal := (rfl)
@[simp] theorem State.updGau_gal (s : State) (f : Gau → Gau) : (s.updGau f).gal = s.gal := (rfl)
@[simp] theorem State.updGau_can (s : State) (f : Gau → Gau) : (s.updGau f).can = s.can := (rfl)
@[simp] theorem State.updGau_por (s : State) (f : Gau → Gau) : (s.updGau f).por = s.por := (rfl)

/-! ### updHal -/

@[simp] theorem State.updHal_pending (s : State) (f : Hal → Hal) : (s.updHal f).pending = s.pending := (rfl)
@[simp] theorem State.updHal_fclk (s : State) (f : Hal → Hal) : (s.updHal f).fclk = s.fclk := (rfl)
@[simp] theorem State.updHal_tb (s : State) (f : Hal → Hal) : (s.updHal f).tb = s.tb := (rfl)
@[simp] theorem State.updHal_tbLog (s : State) (f : Hal → Hal) : (s.updHal f).tbLog = s.tbLog := (rfl)
@[simp] theorem State.updHal_rd (s : State) (f : Hal → Hal) : (s.updHal f).rd = s.rd := (rfl)
@[simp] theorem State.updHal_regs (s : State) (f : Hal → Hal) : (s.updHal f).regs = s.regs := (rfl)
@[simp] theorem State.updHal_marks (s : State) (f : Hal → Hal) : (s.updHal f).marks = s.marks := (rfl)
@[simp] theorem State.updHal_halls (s : State) (f : Hal → Hal) : (s.updHal f).halls = s.halls := (rfl)
@[simp] theorem State.updHal_nvs (s : State) (f : Hal → Hal) : (s.updHal f).nvs = s.nvs := (rfl)
@[simp] theorem State.updHal_inp (s : State) (f : Hal → Hal) : (s.updHal f).inp = s.inp := (rfl)
@[simp] theorem State.updHal_trk (s : State) (f : Hal → Hal) : (s.updHal f).trk = s.trk := (rfl)
@[simp] theorem State.updHal_pins (s : State) (f : Hal → Hal) : (s.updHal f).pins = s.pins := (rfl)
@[simp] theorem State.updHal_stitch (s : State) (f : Hal → Hal) : (s.updHal f).stitch = s.stitch := (rfl)
@[simp] theorem State.updHal_suActs (s : State) (f : Hal → Hal) : (s.updHal f).suActs = s.suActs := (rfl)
@[simp] theorem State.updHal_suT (s : State) (f : Hal → Hal) : (s.updHal f).suT = s.suT := (rfl)
@[simp] theorem State.updHal_inj (s : State) (f : Hal → Hal) : (s.updHal f).inj = s.inj := (rfl)
@[simp] theorem State.updHal_ndl (s : State) (f : Hal → Hal) : (s.updHal f).ndl = s.ndl := (rfl)
@[simp] theorem State.updHal_ncl (s : State) (f : Hal → Hal) : (s.updHal f).ncl = s.ncl := (rfl)
@[simp] theorem State.updHal_tmrActs (s : State) (f : Hal → Hal) : (s.updHal f).tmrActs = s.tmrActs := (rfl)
@[simp] theorem State.updHal_gal (s : State) (f : Hal → Hal) : (s.updHal f).gal = s.gal := (rfl)
@[simp] theorem State.updHal_can (s : State) (f : Hal → Hal) : (s.updHal f).can = s.can := (rfl)
@[simp] theorem State.updHal_por (s : State) (f : Hal → Hal) : (s.updHal f).por = s.por := (rfl)

/-! ### updPor -/

@[simp] theorem State.updPor_pending (s : State) (f : Por → Por) : (s.updPor f).pending = s.pending := (rfl)
@[simp] theorem State.updPor_fclk (s : State) (f : Por → Por) : (s.updPor f).fclk = s.fclk := (rfl)
@[simp] theorem State.updPor_tb (s : State) (f : Por → Por) : (s.updPor f).tb = s.tb := (rfl)
@[simp] theorem State.updPor_tbLog (s : State) (f : Por → Por) : (s.updPor f).tbLog = s.tbLog := (rfl)
@[simp] theorem State.updPor_rd (s : State) (f : Por → Por) : (s.updPor f).rd = s.rd := (rfl)
@[simp] theorem State.updPor_regs (s : State) (f : Por → Por) : (s.updPor f).regs = s.regs := (rfl)
@[simp] theorem State.updPor_marks (s : State) (f : Por → Por) : (s.updPor f).marks = s.marks := (rfl)
@[simp] theorem State.updPor_halls (s : State) (f : Por → Por) : (s.updPor f).halls = s.halls := (rfl)
@[simp] theorem State.updPor_nvs (s : State) (f : Por → Por) : (s.updPor f).nvs = s.nvs := (rfl)
@[simp] theorem State.updPor_inp (s : State) (f : Por → Por) : (s.updPor f).inp = s.inp := (rfl)
@[simp] theorem State.updPor_trk (s : State) (f : Por → Por) : (s.updPor f).trk = s.trk := (rfl)
@[simp] theorem State.updPor_pins (s : State) (f : Por → Por) : (s.updPor f).pins = s.pins := (rfl)
@[simp] theorem State.updPor_stitch (s : State) (f : Por → Por) : (s.updPor f).stitch = s.stitch := (rfl)
@[simp] theorem State.updPor_suActs (s : State) (f : Por → Por) : (s.updPor f).suActs = s.suActs := (rfl)
@[simp] theorem State.updPor_suT (s : State) (f : Por → Por) : (s.updPor f).suT = s.suT := (rfl)
@[simp] theorem State.updPor_inj (s : State) (f : Por → Por) : (s.updPor f).inj = s.inj := (rfl)
@[simp] theorem State.updPor_ndl (s : State) (f : Por → Por) : (s.updPor f).ndl = s.ndl := (rfl)
@[simp] theorem State.updPor_ncl (s : State) (f : Por → Por) : (s.updPor f).ncl = s.ncl := (rfl)
@[simp] theorem State.updPor_tmrActs (s : State) (f : Por → Por) : (s.updPor f).tmrActs = s.tmrActs := (rfl)
@[simp] theorem State.updPor_hal (s : State) (f : Por → Por) : (s.updPor f).hal = s.hal := (rfl)
@[simp] theorem State.updPor_gal (s : State) (f : Por → Por) : (s.updPor f).gal = s.gal := (rfl)
@[simp] theorem State.updPor_can (s : State) (f : Por → Por) : (s.updPor f).can = s.can := (rfl)

/-! ### updPcr -/

@[simp] theorem State.updPcr_pending (s : State) (f : Pcr → Pcr) : (s.updPcr f).pending = s.pending := (rfl)
@[simp] theorem State.updPcr_fclk (s : State) (f : Pcr → Pcr) : (s.updPcr f).fclk = s.fclk := (rfl)
@[simp] theorem State.updPcr_tb (s : State) (f : Pcr → Pcr) : (s.updPcr f).tb = s.tb := (rfl)
@[simp] theorem State.updPcr_tbLog (s : State) (f : Pcr → Pcr) : (s.updPcr f).tbLog = s.tbLog := (rfl)
@[simp] theorem State.updPcr_rd (s : State) (f : Pcr → Pcr) : (s.updPcr f).rd = s.rd := (rfl)
@[simp] theorem State.updPcr_regs (s : State) (f : Pcr → Pcr) : (s.updPcr f).regs = s.regs := (rfl)
@[simp] theorem State.updPcr_marks (s : State) (f : Pcr → Pcr) : (s.updPcr f).marks = s.marks := (rfl)
@[simp] theorem State.updPcr_halls (s : State) (f : Pcr → Pcr) : (s.updPcr f).halls = s.halls := (rfl)
@[simp] theorem State.updPcr_nvs (s : State) (f : Pcr → Pcr) : (s.updPcr f).nvs = s.nvs := (rfl)
@[simp] theorem State.updPcr_inp (s : State) (f : Pcr → Pcr) : (s.updPcr f).inp = s.inp := (rfl)
@[simp] theorem State.updPcr_trk (s : State) (f : Pcr → Pcr) : (s.updPcr f).trk = s.trk := (rfl)
@[simp] theorem State.updPcr_pins (s : State) (f : Pcr → Pcr) : (s.updPcr f).pins = s.pins := (rfl)
@[simp] theorem State.updPcr_stitch (s : State) (f : Pcr → Pcr) : (s.updPcr f).stitch = s.stitch := (rfl)
@[simp] theorem State.updPcr_suActs (s : State) (f : Pcr → Pcr) : (s.updPcr f).suActs = s.suActs := (rfl)
@[simp] theorem State.updPcr_suT (s : State) (f : Pcr → Pcr) : (s.updPcr f).suT = s.suT := (rfl)
@[simp] theorem State.updPcr_inj (s : State) (f : Pcr → Pcr) : (s.updPcr f).inj = s.inj := (rfl)
@[simp] theorem State.updPcr_ndl (s : State) (f : Pcr → Pcr) : (s.updPcr f).ndl = s.ndl := (rfl)
@[simp] theorem State.updPcr_ncl (s : State) (f : Pcr → Pcr) : (s.updPcr f).ncl = s.ncl := (rfl)
@[simp] theorem State.updPcr_tmrActs (s : State) (f : Pcr → Pcr) : (s.updPcr f).tmrActs = s.tmrActs := (rfl)
@[simp] theorem State.updPcr_hal (s : State) (f : Pcr → Pcr) : (s.updPcr f).hal = s.hal := (rfl)
@[simp] theorem State.updPcr_gal (s : State) (f : Pcr → Pcr) : (s.updPcr f).gal = s.gal := (rfl)
@[simp] theorem State.updPcr_can (s : State) (f : Pcr → Pcr) : (s.updPcr f).can = s.can := (rfl)
@[simp] theorem State.updPcr_por (s : State) (f : Pcr → Pcr) : (s.updPcr f).por = s.por := (rfl)

/-! ### updWvl -/

@[simp] theorem State.updWvl_pending (s : State) (f : Wvl → Wvl) : (s.updWvl f).pending = s.pending := (rfl)
@[simp] theorem State.updWvl_fclk (s : State) (f : Wvl → Wvl) : (s.updWvl f).fclk = s.fclk := (rfl)
@[simp] theorem State.updWvl_tb (s : State) (f : Wvl → Wvl) : (s.updWvl f).tb = s.tb := (rfl)
@[simp] theorem State.updWvl_tbLog (s : State) (f : Wvl → Wvl) : (s.updWvl f).tbLog = s.tbLog := (rfl)
@[simp] theorem State.updWvl_rd (s : State) (f : Wvl → Wvl) : (s.updWvl f).rd = s.rd := (rfl)
@[simp] theorem State.updWvl_regs (s : State) (f : Wvl → Wvl) : (s.updWvl f).regs = s.regs := (rfl)
@[simp] theorem State.updWvl_marks (s : State) (f : Wvl → Wvl) : (s.updWvl f).marks = s.marks := (rfl)
@[simp] theorem State.updWvl_halls (s : State) (f : Wvl → Wvl) : (s.updWvl f).halls = s.halls := (rfl)
@[simp] theorem State.updWvl_nvs (s : State) (f : Wvl → Wvl) : (s.updWvl f).nvs = s.nvs := (rfl)
@[simp] theorem State.updWvl_inp (s : State) (f : Wvl → Wvl) : (s.updWvl f).inp = s.inp := (rfl)
@[simp] theorem State.updWvl_trk (s : State) (f : Wvl → Wvl) : (s.updWvl f).trk = s.trk := (rfl)
@[simp] theorem State.updWvl_pins (s : State) (f : Wvl → Wvl) : (s.updWvl f).pins = s.pins := (rfl)
@[simp] theorem State.updWvl_stitch (s : State) (f : Wvl → Wvl) : (s.updWvl f).stitch = s.stitch := (rfl)
@[simp] theorem State.updWvl_suActs (s : State) (f : Wvl → Wvl) : (s.updWvl f).suActs = s.suActs := (rfl)
@[simp] theorem State.updWvl_suT (s : State) (f : Wvl → Wvl) : (s.updWvl f).suT = s.suT := (rfl)
@[simp] theorem State.updWvl_inj (s : State) (f : Wvl → Wvl) : (s.updWvl f).inj = s.inj := (rfl)
@[simp] theorem State.updWvl_ndl (s : State) (f : Wvl → Wvl) : (s.updWvl f).ndl = s.ndl := (rfl)
@[simp] theorem State.updWvl_ncl (s : State) (f : Wvl → Wvl) : (s.updWvl f).ncl = s.ncl := (rfl)
@[simp] theorem State.updWvl_tmrActs (s : State) (f : Wvl → Wvl) : (s.updWvl f).tmrActs = s.tmrActs := (rfl)
@[simp] theorem State.updWvl_hal (s : State) (f : Wvl → Wvl) : (s.updWvl f).hal = s.hal := (rfl)
@[simp] theorem State.updWvl_gal (s : State) (f : Wvl → Wvl) : (s.updWvl f).gal = s.gal := (rfl)
@[simp] theorem State.updWvl_can (s : State) (f : Wvl → Wvl) : (s.updWvl f).can = s.can := (rfl)
@[simp] theorem State.updWvl_por (s : State) (f : Wvl → Wvl) : (s.updWvl f).por = s.por := (rfl)

/-! ### updGal -/

@[simp] theorem State.updGal_pending (s : State) (f : Gal → Gal) : (s.updGal f).pending = s.pending := (rfl)
@[simp] theorem State.updGal_fclk (s : State) (f : Gal → Gal) : (s.updGal f).fclk = s.fclk := (rfl)
@[simp] theorem State.updGal_tb (s : State) (f : Gal → Gal) : (s.updGal f).tb = s.tb := (rfl)
@[simp] theorem State.updGal_tbLog (s : State) (f : Gal → Gal) : (s.updGal f).tbLog = s.tbLog := (rfl)
@[simp] theorem State.updGal_rd (s : State) (f : Gal → Gal) : (s.updGal f).rd = s.rd := (rfl)
@[simp] theorem State.updGal_regs (s : State) (f : Gal → Gal) : (s.updGal f).regs = s.regs := (rfl)
@[simp] theorem State.updGal_marks (s : State) (f : Gal → Gal) : (s.updGal f).marks = s.marks := (rfl)
@[simp] theorem State.updGal_halls (s : State) (f : Gal → Gal) : (s.updGal f).halls = s.halls := (rfl)
@[simp] theorem State.updGal_nvs (s : State) (f : Gal → Gal) : (s.updGal f).nvs = s.nvs := (rfl)
@[simp] theorem State.updGal_inp (s : State) (f : Gal → Gal) : (s.updGal f).inp = s.inp := (rfl)
@[simp] theorem State.updGal_trk (s : State) (f : Gal → Gal) : (s.updGal f).trk = s.trk := (rfl)
@[simp] theorem State.updGal_pins (s : State) (f : Gal → Gal) : (s.updGal f).pins = s.pins := (rfl)
@[simp] theorem State.updGal_stitch (s : State) (f : Gal → Gal) : (s.updGal f).stitch = s.stitch := (rfl)
@[simp] theorem State.updGal_suActs (s : State) (f : Gal → Gal) : (s.updGal f).suActs = s.suActs := (rfl)
@[simp] theorem State.updGal_suT (s : State) (f : Gal → Gal) : (s.updGal f).suT = s.suT := (rfl)
@[simp] theorem State.updGal_inj (s : State) (f : Gal → Gal) : (s.updGal f).inj = s.inj := (rfl)
@[simp] theorem State.updGal_ndl (s : State) (f : Gal → Gal) : (s.updGal f).ndl = s.ndl := (rfl)
@[simp] theorem State.updGal_ncl (s : State) (f : Gal → Gal) : (s.updGal f).ncl = s.ncl := (rfl)
@[simp] theorem State.updGal_tmrActs (s : State) (f : Gal → Gal) : (s.updGal f).tmrActs = s.tmrActs := (rfl)
@[simp] theorem State.updGal_hal (s : State) (f : Gal → Gal) : (s.updGal f).hal = s.hal := (rfl)
@[simp] theorem State.updGal_can (s : State) (f : Gal → Gal) : (s.updGal f).can = s.can := (rfl)
@[simp] theorem State.updGal_por (s : State) (f : Gal → Gal) : (s.updGal f).por = s.por := (rfl)

/-! ### updIrt -/

@[simp] theorem State.updIrt_pending (s : State) (f : Irt → Irt) : (s.updIrt f).pending = s.pending := (rfl)
@[simp] theorem State.updIrt_fclk (s : State) (f : Irt → Irt) : (s.updIrt f).fclk = s.fclk := (rfl)
@[simp] theorem State.updIrt_tb (s : State) (f : Irt → Irt) : (s.updIrt f).tb = s.tb := (rfl)
@[simp] theorem State.updIrt_tbLog (s : State) (f : Irt → Irt) : (s.updIrt f).tbLog = s.tbLog := (rfl)
@[simp] theorem State.updIrt_rd (s : State) (f : Irt → Irt) : (s.updIrt f).rd = s.rd := (rfl)
@[simp] theorem State.updIrt_regs (s : State) (f : Irt → Irt) : (s.updIrt f).regs = s.regs := (rfl)
@[simp] theorem State.updIrt_marks (s : State) (f : Irt → Irt) : (s.updIrt f).marks = s.marks := (rfl)
@[simp] theorem State.updIrt_halls (s : State) (f : Irt → Irt) : (s.updIrt f).halls = s.halls := (rfl)
@[simp] theorem State.updIrt_nvs (s : State) (f : Irt → Irt) : (s.updIrt f).nvs = s.nvs := (rfl)
@[simp] theorem State.updIrt_inp (s : State) (f : Irt → Irt) : (s.updIrt f).inp = s.inp := (rfl)
@[simp] theorem State.updIrt_trk (s : State) (f : Irt → Irt) : (s.updIrt f).trk = s.trk := (rfl)
@[simp] theorem State.updIrt_pins (s : State) (f : Irt → Irt) : (s.updIrt f).pins = s.pins := (rfl)
@[simp] theorem State.updIrt_stitch (s : State) (f : Irt → Irt) : (s.updIrt f).stitch = s.stitch := (rfl)
@[simp] theorem State.updIrt_suActs (s : State) (f : Irt → Irt) : (s.updIrt f).suActs = s.suActs := (rfl)
@[simp] theorem State.updIrt_suT (s : State) (f : Irt → Irt) : (s.updIrt f).suT = s.suT := (rfl)
@[simp] theorem State.updIrt_inj (s : State) (f : Irt → Irt) : (s.updIrt f).inj = s.inj := (rfl)
@[simp] theorem State.updIrt_ndl (s : State) (f : Irt → Irt) : (s.updIrt f).ndl = s.ndl := (rfl)
@[simp] theorem State.updIrt_ncl (s : State) (f : Irt → Irt) : (s.updIrt f).ncl = s.ncl := (rfl)
@[simp] theorem State.updIrt_tmrActs (s : State) (f : Irt → Irt) : (s.updIrt f).tmrActs = s.tmrActs := (rfl)
@[simp] theorem State.updIrt_hal (s : State) (f : Irt → Irt) : (s.updIrt f).hal = s.hal := (rfl)
@[simp] theorem State.updIrt_gal (s : State) (f : Irt → Irt) : (s.updIrt f).gal = s.gal := (rfl)
@[simp] theorem State.updIrt_can (s : State) (f : Irt → Irt) : (s.updIrt f).can = s.can := (rfl)
@[simp] theorem State.updIrt_por (s : State) (f : Irt → Irt) : (s.updIrt f).por = s.por := (rfl)

/-! ### updHost -/

@[simp] theorem State.updHost_pending (s : State) (f : HostPort → HostPort) : (s.updHost f).pending = s.pending := (rfl)
@[simp] theorem State.updHost_fclk (s : State) (f : HostPort → HostPort) : (s.updHost f).fclk = s.fclk := (rfl)
@[simp] theorem State.updHost_tb (s : State) (f : HostPort → HostPort) : (s.updHost f).tb = s.tb := (rfl)
@[simp] theorem State.updHost_tbLog (s : State) (f : HostPort → HostPort) : (s.updHost f).tbLog = s.tbLog := (rfl)
@[simp] theorem State.updHost_rd (s : State) (f : HostPort → HostPort) : (s.updHost f).rd = s.rd := (rfl)
@[simp] theorem State.updHost_regs (s : State) (f : HostPort → HostPort) : (s.updHost f).regs = s.regs := (rfl)
@[simp] theorem State.updHost_marks (s : State) (f : HostPort → HostPort) : (s.updHost f).marks = s.marks := (rfl)
@[simp] theorem State.updHost_halls (s : State) (f : HostPort → HostPort) : (s.updHost f).halls = s.halls := (rfl)
@[simp] theorem State.updHost_nvs (s : State) (f : HostPort → HostPort) : (s.updHost f).nvs = s.nvs := (rfl)
@[simp] theorem State.updHost_inp (s : State) (f : HostPort → HostPort) : (s.updHost f).inp = s.inp := (rfl)
@[simp] theorem State.updHost_trk (s : State) (f : HostPort → HostPort) : (s.updHost f).trk = s.trk := (rfl)
@[simp] theorem State.updHost_pins (s : State) (f : HostPort → HostPort) : (s.updHost f).pins = s.pins := (rfl)
@[simp] theorem State.updHost_stitch (s : State) (f : HostPort → HostPort) : (s.updHost f).stitch = s.stitch := (rfl)
@[simp] theorem State.updHost_suActs (s : State) (f : HostPort → HostPort) : (s.updHost f).suActs = s.suActs := (rfl)
@[simp] theorem State.updHost_suT (s : State) (f : HostPort → HostPort) : (s.updHost f).suT = s.suT := (rfl)
@[simp] theorem State.updHost_inj (s : State) (f : HostPort → HostPort) : (s.updHost f).inj = s.inj := (rfl)
@[simp] theorem State.updHost_ndl (s : State) (f : HostPort → HostPort) : (s.updHost f).ndl = s.ndl := (rfl)
@[simp] theorem State.updHost_ncl (s : State) (f : HostPort → HostPort) : (s.updHost f).ncl = s.ncl := (rfl)
@[simp] theorem State.updHost_tmrActs (s : State) (f : HostPort → HostPort) : (s.updHost f).tmrActs = s.tmrActs := (rfl)
@[simp] theorem State.updHost_hal (s : State) (f : HostPort → HostPort) : (s.updHost f).hal = s.hal := (rfl)
@[simp] theorem State.updHost_gal (s : State) (f : HostPort → HostPort) : (s.updHost f).gal = s.gal := (rfl)
@[simp] theorem State.updHost_can (s : State) (f : HostPort → HostPort) : (s.updHost f).can = s.can := (rfl)
@[simp] theorem State.updHost_por (s : State) (f : HostPort → HostPort) : (s.updHost f).por = s.por := (rfl)

/-! ### updStc -/

@[simp] theorem State.updStc_pending (s : State) (f : Stc → Stc) : (s.updStc f).pending = s.pending := (rfl)
@[simp] theorem State.updStc_fclk (s : State) (f : Stc → Stc) : (s.updStc f).fclk = s.fclk := (rfl)
@[simp] theorem State.updStc_tb (s : State) (f : Stc → Stc) : (s.updStc f).tb = s.tb := (rfl)
@[simp] theorem State.updStc_tbLog (s : State) (f : Stc → Stc) : (s.updStc f).tbLog = s.tbLog := (rfl)
@[simp] theorem State.updStc_rd (s : State) (f : Stc → Stc) : (s.updStc f).rd = s.rd := (rfl)
@[simp] theorem State.updStc_regs (s : State) (f : Stc → Stc) : (s.updStc f).regs = s.regs := (rfl)
@[simp] theorem State.updStc_marks (s : State) (f : Stc → Stc) : (s.updStc f).marks = s.marks := (rfl)
@[simp] theorem State.updStc_halls (s : State) (f : Stc → Stc) : (s.updStc f).halls = s.halls := (rfl)
@[simp] theorem State.updStc_nvs (s : State) (f : Stc → Stc) : (s.updStc f).nvs = s.nvs := (rfl)
@[simp] theorem State.updStc_inp (s : State) (f : Stc → Stc) : (s.updStc f).inp = s.inp := (rfl)
@[simp] theorem State.updStc_trk (s : State) (f : Stc → Stc) : (s.updStc f).trk = s.trk := (rfl)
@[simp] theorem State.updStc_pins (s : State) (f : Stc → Stc) : (s.updStc f).pins = s.pins := (rfl)
@[simp] theorem State.updStc_stitch (s : State) (f : Stc → Stc) : (s.updStc f).stitch = s.stitch := (rfl)
@[simp] theorem State.updStc_suActs (s : State) (f : Stc → Stc) : (s.updStc f).suActs = s.suActs := (rfl)
@[simp] theorem State.updStc_suT (s : State) (f : Stc → Stc) : (s.updStc f).suT = s.suT := (rfl)
@[simp] theorem State.updStc_inj (s : State) (f : Stc → Stc) : (s.updStc f).inj = s.inj := (rfl)
@[simp] theorem State.updStc_ndl (s : State) (f : Stc → Stc) : (s.updStc f).ndl = s.ndl := (rfl)
@[simp] theorem State.updStc_ncl (s : State) (f : Stc → Stc) : (s.updStc f).ncl = s.ncl := (rfl)
@[simp] theorem State.updStc_tmrActs (s : State) (f : Stc → Stc) : (s.updStc f).tmrActs = s.tmrActs := (rfl)
@[simp] theorem State.updStc_hal (s : State) (f : Stc → Stc) : (s.updStc f).hal = s.hal := (rfl)
@[simp] theorem State.updStc_gal (s : State) (f : Stc → Stc) : (s.updStc f).gal = s.gal := (rfl)
@[simp] theorem State.updStc_can (s : State) (f : Stc → Stc) : (s.updStc f).can = s.can := (rfl)
@[simp] theorem State.updStc_por (s : State) (f : Stc → Stc) : (s.updStc f).por = s.por := (rfl)

/-! ### updTru -/

@[simp] theorem State.updTru_pending (s : State) (f : Tru → Tru) : (s.updTru f).pending = s.pending := (rfl)
@[simp] theorem State.updTru_fclk (s : State) (f : Tru → Tru) : (s.updTru f).fclk = s.fclk := (rfl)
@[simp] theorem State.updTru_tb (s : State) (f : Tru → Tru) : (s.updTru f).tb = s.tb := (rfl)
@[simp] theorem State.updTru_tbLog (s : State) (f : Tru → Tru) : (s.updTru f).tbLog = s.tbLog := (rfl)
@[simp] theorem State.updTru_rd (s : State) (f : Tru → Tru) : (s.updTru f).rd = s.rd := (rfl)
@[simp] theorem State.updTru_regs (s : State) (f : Tru → Tru) : (s.updTru f).regs = s.regs := (rfl)
@[simp] theorem State.updTru_marks (s : State) (f : Tru → Tru) : (s.updTru f).marks = s.marks := (rfl)
@[simp] theorem State.updTru_halls (s : State) (f : Tru → Tru) : (s.updTru f).halls = s.halls := (rfl)
@[simp] theorem State.updTru_nvs (s : State) (f : Tru → Tru) : (s.updTru f).nvs = s.nvs := (rfl)
@[simp] theorem State.updTru_inp (s : State) (f : Tru → Tru) : (s.updTru f).inp = s.inp := (rfl)
@[simp] theorem State.updTru_trk (s : State) (f : Tru → Tru) : (s.updTru f).trk = s.trk := (rfl)
@[simp] theorem State.updTru_pins (s : State) (f : Tru → Tru) : (s.updTru f).pins = s.pins := (rfl)
@[simp] theorem State.updTru_stitch (s : State) (f : Tru → Tru) : (s.updTru f).stitch = s.stitch := (rfl)
@[simp] theorem State.updTru_suActs (s : State) (f : Tru → Tru) : (s.updTru f).suActs = s.suActs := (rfl)
@[simp] theorem State.updTru_suT (s : State) (f : Tru → Tru) : (s.updTru f).suT = s.suT := (rfl)
@[simp] theorem State.updTru_inj (s : State) (f : Tru → Tru) : (s.updTru f).inj = s.inj := (rfl)
@[simp] theorem State.updTru_ndl (s : State) (f : Tru → Tru) : (s.updTru f).ndl = s.ndl := (rfl)
@[simp] theorem State.updTru_ncl (s : State) (f : Tru → Tru) : (s.updTru f).ncl = s.ncl := (rfl)
@[simp] theorem State.updTru_tmrActs (s : State) (f : Tru → Tru) : (s.updTru f).tmrActs = s.tmrActs := (rfl)
@[simp] theorem State.updTru_hal (s : State) (f : Tru → Tru) : (s.updTru f).hal = s.hal := (rfl)
@[simp] theorem State.updTru_gal (s : State) (f : Tru → Tru) : (s.updTru f).gal = s.gal := (rfl)
@[simp] theorem State.updTru_can (s : State) (f : Tru → Tru) : (s.updTru f).can = s.can := (rfl)
@[simp] theorem State.updTru_por (s : State) (f : Tru → Tru) : (s.updTru f).por = s.por := (rfl)

/-! ### updCan -/

@[simp] theorem State.updCan_pending (s : State) (n : Nat) (f : Can → Can) : (s.updCan n f).pending = s.pending := (rfl)
@[simp] theorem State.updCan_fclk (s : State) (n : Nat) (f : Can → Can) : (s.updCan n f).fclk = s.fclk := (rfl)
@[simp] theorem State.updCan_tb (s : State) (n : Nat) (f : Can → Can) : (s.updCan n f).tb = s.tb := (rfl)
@[simp] theorem State.updCan_tbLog (s : State) (n : Nat) (f : Can → Can) : (s.updCan n f).tbLog = s.tbLog := (rfl)
@[simp] theorem State.updCan_rd (s : State) (n : Nat) (f : Can → Can) : (s.updCan n f).rd = s.rd := (rfl)
@[simp] theorem State.updCan_regs (s : State) (n : Nat) (f : Can → Can) : (s.updCan n f).regs = s.regs := (rfl)
@[simp] theorem State.updCan_marks (s : State) (n : Nat) (f : Can → Can) : (s.updCan n f).marks = s.marks := (rfl)
@[simp] theorem State.updCan_halls (s : State) (n : Nat) (f : Can → Can) : (s.updCan n f).halls = s.halls := (rfl)
@[simp] theorem State.updCan_nvs (s : State) (n : Nat) (f : Can → Can) : (s.updCan n f).nvs = s.nvs := (rfl)
@[simp] theorem State.updCan_inp (s : State) (n : Nat) (f : Can → Can) : (s.updCan n f).inp = s.inp := (rfl)
@[simp] theorem State.updCan_trk (s : State) (n : Nat) (f : Can → Can) : (s.updCan n f).trk = s.trk := (rfl)
@[simp] theorem State.updCan_pins (s : State) (n : Nat) (f : Can → Can) : (s.updCan n f).pins = s.pins := (rfl)
@[simp] theorem State.updCan_stitch (s : State) (n : Nat) (f : Can → Can) : (s.updCan n f).stitch = s.stitch := (rfl)
@[simp] theorem State.updCan_suActs (s : State) (n : Nat) (f : Can → Can) : (s.updCan n f).suActs = s.suActs := (rfl)
@[simp] theorem State.updCan_suT (s : State) (n : Nat) (f : Can → Can) : (s.updCan n f).suT = s.suT := (rfl)
@[simp] theorem State.updCan_inj (s : State) (n : Nat) (f : Can → Can) : (s.updCan n f).inj = s.inj := (rfl)
@[simp] theorem State.updCan_ndl (s : State) (n : Nat) (f : Can → Can) : (s.updCan n f).ndl = s.ndl := (rfl)
@[simp] theorem State.updCan_ncl (s : State) (n : Nat) (f : Can → Can) : (s.updCan n f).ncl = s.ncl := (rfl)
@[simp] theorem State.updCan_tmrActs (s : State) (n : Nat) (f : Can → Can) : (s.updCan n f).tmrActs = s.tmrActs := (rfl)
@[simp] theorem State.updCan_hal (s : State) (n : Nat) (f : Can → Can) : (s.updCan n f).hal = s.hal := (rfl)
@[simp] theorem State.updCan_gal (s : State) (n : Nat) (f : Can → Can) : (s.updCan n f).gal = s.gal := (rfl)
@[simp] theorem State.updCan_por (s : State) (n : Nat) (f : Can → Can) : (s.updCan n f).por = s.por := (rfl)

/-! ### updSent -/

@[simp] theorem State.updSent_pending (s : State) (n : Nat) (f : SentRx → SentRx) : (s.updSent n f).pending = s.pending := (rfl)
@[simp] theorem State.updSent_fclk (s : State) (n : Nat) (f : SentRx → SentRx) : (s.updSent n f).fclk = s.fclk := (rfl)
@[simp] theorem State.updSent_tb (s : State) (n : Nat) (f : SentRx → SentRx) : (s.updSent n f).tb = s.tb := (rfl)
@[simp] theorem State.updSent_tbLog (s : State) (n : Nat) (f : SentRx → SentRx) : (s.updSent n f).tbLog = s.tbLog := (rfl)
@[simp] theorem State.updSent_rd (s : State) (n : Nat) (f : SentRx → SentRx) : (s.updSent n f).rd = s.rd := (rfl)
@[simp] theorem State.updSent_regs (s : State) (n : Nat) (f : SentRx → SentRx) : (s.updSent n f).regs = s.regs := (rfl)
@[simp] theorem State.updSent_marks (s : State) (n : Nat) (f : SentRx → SentRx) : (s.updSent n f).marks = s.marks := (rfl)
@[simp] theorem State.updSent_halls (s : State) (n : Nat) (f : SentRx → SentRx) : (s.updSent n f).halls = s.halls := (rfl)
@[simp] theorem State.updSent_nvs (s : State) (n : Nat) (f : SentRx → SentRx) : (s.updSent n f).nvs = s.nvs := (rfl)
@[simp] theorem State.updSent_inp (s : State) (n : Nat) (f : SentRx → SentRx) : (s.updSent n f).inp = s.inp := (rfl)
@[simp] theorem State.updSent_trk (s : State) (n : Nat) (f : SentRx → SentRx) : (s.updSent n f).trk = s.trk := (rfl)
@[simp] theorem State.updSent_pins (s : State) (n : Nat) (f : SentRx → SentRx) : (s.updSent n f).pins = s.pins := (rfl)
@[simp] theorem State.updSent_stitch (s : State) (n : Nat) (f : SentRx → SentRx) : (s.updSent n f).stitch = s.stitch := (rfl)
@[simp] theorem State.updSent_suActs (s : State) (n : Nat) (f : SentRx → SentRx) : (s.updSent n f).suActs = s.suActs := (rfl)
@[simp] theorem State.updSent_suT (s : State) (n : Nat) (f : SentRx → SentRx) : (s.updSent n f).suT = s.suT := (rfl)
@[simp] theorem State.updSent_inj (s : State) (n : Nat) (f : SentRx → SentRx) : (s.updSent n f).inj = s.inj := (rfl)
@[simp] theorem State.updSent_ndl (s : State) (n : Nat) (f : SentRx → SentRx) : (s.updSent n f).ndl = s.ndl := (rfl)
@[simp] theorem State.updSent_ncl (s : State) (n : Nat) (f : SentRx → SentRx) : (s.updSent n f).ncl = s.ncl := (rfl)
@[simp] theorem State.updSent_tmrActs (s : State) (n : Nat) (f : SentRx → SentRx) : (s.updSent n f).tmrActs = s.tmrActs := (rfl)
@[simp] theorem State.updSent_hal (s : State) (n : Nat) (f : SentRx → SentRx) : (s.updSent n f).hal = s.hal := (rfl)
@[simp] theorem State.updSent_gal (s : State) (n : Nat) (f : SentRx → SentRx) : (s.updSent n f).gal = s.gal := (rfl)
@[simp] theorem State.updSent_can (s : State) (n : Nat) (f : SentRx → SentRx) : (s.updSent n f).can = s.can := (rfl)
@[simp] theorem State.updSent_por (s : State) (n : Nat) (f : SentRx → SentRx) : (s.updSent n f).por = s.por := (rfl)

/-! ### updCmp -/

@[simp] theorem State.updCmp_pending (s : State) (f : CmpBlk → CmpBlk) : (s.updCmp f).pending = s.pending := (rfl)
@[simp] theorem State.updCmp_fclk (s : State) (f : CmpBlk → CmpBlk) : (s.updCmp f).fclk = s.fclk := (rfl)
@[simp] theorem State.updCmp_tb (s : State) (f : CmpBlk → CmpBlk) : (s.updCmp f).tb = s.tb := (rfl)
@[simp] theorem State.updCmp_tbLog (s : State) (f : CmpBlk → CmpBlk) : (s.updCmp f).tbLog = s.tbLog := (rfl)
@[simp] theorem State.updCmp_rd (s : State) (f : CmpBlk → CmpBlk) : (s.updCmp f).rd = s.rd := (rfl)
@[simp] theorem State.updCmp_regs (s : State) (f : CmpBlk → CmpBlk) : (s.updCmp f).regs = s.regs := (rfl)
@[simp] theorem State.updCmp_marks (s : State) (f : CmpBlk → CmpBlk) : (s.updCmp f).marks = s.marks := (rfl)
@[simp] theorem State.updCmp_halls (s : State) (f : CmpBlk → CmpBlk) : (s.updCmp f).halls = s.halls := (rfl)
@[simp] theorem State.updCmp_nvs (s : State) (f : CmpBlk → CmpBlk) : (s.updCmp f).nvs = s.nvs := (rfl)
@[simp] theorem State.updCmp_inp (s : State) (f : CmpBlk → CmpBlk) : (s.updCmp f).inp = s.inp := (rfl)
@[simp] theorem State.updCmp_trk (s : State) (f : CmpBlk → CmpBlk) : (s.updCmp f).trk = s.trk := (rfl)
@[simp] theorem State.updCmp_pins (s : State) (f : CmpBlk → CmpBlk) : (s.updCmp f).pins = s.pins := (rfl)
@[simp] theorem State.updCmp_stitch (s : State) (f : CmpBlk → CmpBlk) : (s.updCmp f).stitch = s.stitch := (rfl)
@[simp] theorem State.updCmp_suActs (s : State) (f : CmpBlk → CmpBlk) : (s.updCmp f).suActs = s.suActs := (rfl)
@[simp] theorem State.updCmp_suT (s : State) (f : CmpBlk → CmpBlk) : (s.updCmp f).suT = s.suT := (rfl)
@[simp] theorem State.updCmp_inj (s : State) (f : CmpBlk → CmpBlk) : (s.updCmp f).inj = s.inj := (rfl)
@[simp] theorem State.updCmp_ndl (s : State) (f : CmpBlk → CmpBlk) : (s.updCmp f).ndl = s.ndl := (rfl)
@[simp] theorem State.updCmp_ncl (s : State) (f : CmpBlk → CmpBlk) : (s.updCmp f).ncl = s.ncl := (rfl)
@[simp] theorem State.updCmp_tmrActs (s : State) (f : CmpBlk → CmpBlk) : (s.updCmp f).tmrActs = s.tmrActs := (rfl)
@[simp] theorem State.updCmp_hal (s : State) (f : CmpBlk → CmpBlk) : (s.updCmp f).hal = s.hal := (rfl)
@[simp] theorem State.updCmp_gal (s : State) (f : CmpBlk → CmpBlk) : (s.updCmp f).gal = s.gal := (rfl)
@[simp] theorem State.updCmp_can (s : State) (f : CmpBlk → CmpBlk) : (s.updCmp f).can = s.can := (rfl)
@[simp] theorem State.updCmp_por (s : State) (f : CmpBlk → CmpBlk) : (s.updCmp f).por = s.por := (rfl)

end Sys2Proof.Machine
end

