-- ==== Sys2Proof/Laws/Regs.lean ====
section
/-! SUPPORT. What the operations on registers do: a read after a write, fields, counting, interrupt sources, findings. -/

namespace Sys2Proof.Machine

/-! ### Registers -/

/-- A register after a register is set. -/
theorem State.reg_setReg (s : State) (a b : Nat) (v : Word) : (s.setReg a v).reg b = if b = a then v else s.reg b :=
  cellGet_cellPut resetOf s.regs a b v
@[simp] theorem State.reg_setReg_self (s : State) (a : Nat) (v : Word) : (s.setReg a v).reg a = v := by
  rw [State.reg_setReg, if_pos rfl]
theorem State.reg_setReg_ne (s : State) {a b : Nat} (h : b ≠ a) (v : Word) : (s.setReg a v).reg b = s.reg b := by
  rw [State.reg_setReg, if_neg h]

/-! ### Fields -/

theorem fldGet_lt (f : Fld) (w : Word) : fldGet f w < 2 ^ f.len := Nat.mod_lt _ (Nat.two_pow_pos _)

/-- The value of a word with a field replaced, when the field lies in the word. -/
theorem fldSet_toNat (f : Fld) (hf : f.lo + f.len ≤ 20) (w : Word) (v : Nat) :
    (fldSet f w v).toNat = w.toNat / 2 ^ (f.lo + f.len) * 2 ^ (f.lo + f.len) + v % 2 ^ f.len * 2 ^ f.lo + w.toNat % 2 ^ f.lo := by
  unfold fldSet
  rw [BitVec.toNat_ofNat]
  apply Nat.mod_eq_of_lt
  have hw := w.isLt
  have h1 : v % 2 ^ f.len * 2 ^ f.lo + w.toNat % 2 ^ f.lo < 2 ^ (f.lo + f.len) := by
    have hv : v % 2 ^ f.len < 2 ^ f.len := Nat.mod_lt _ (Nat.two_pow_pos _)
    have hr : w.toNat % 2 ^ f.lo < 2 ^ f.lo := Nat.mod_lt _ (Nat.two_pow_pos _)
    have hm : (v % 2 ^ f.len + 1) * 2 ^ f.lo ≤ 2 ^ f.len * 2 ^ f.lo := Nat.mul_le_mul_right _ hv
    rw [Nat.pow_add, Nat.mul_comm (2 ^ f.lo)]
    rw [Nat.add_mul] at hm
    omega
  have h2 : (w.toNat / 2 ^ (f.lo + f.len) + 1) * 2 ^ (f.lo + f.len) ≤ 2 ^ 20 := by
    obtain ⟨k, hk⟩ := Nat.le.dest hf
    have : w.toNat / 2 ^ (f.lo + f.len) < 2 ^ k := by
      rw [Nat.div_lt_iff_lt_mul (Nat.two_pow_pos _), ← Nat.pow_add, Nat.add_comm k, hk]
      exact hw
    calc (w.toNat / 2 ^ (f.lo + f.len) + 1) * 2 ^ (f.lo + f.len) ≤ 2 ^ k * 2 ^ (f.lo + f.len) := Nat.mul_le_mul_right _ this
      _ = 2 ^ 20 := by rw [← Nat.pow_add, Nat.add_comm k, hk]
  rw [Nat.add_mul] at h2
  omega

/-- A field reads the value it was set to. -/
theorem fldGet_fldSet_self (f : Fld) (hf : f.lo + f.len ≤ 20) (w : Word) (v : Nat) : fldGet f (fldSet f w v) = v % 2 ^ f.len := by
  unfold fldGet
  rw [fldSet_toNat f hf, Nat.pow_add]
  have hr : w.toNat % 2 ^ f.lo < 2 ^ f.lo := Nat.mod_lt _ (Nat.two_pow_pos _)
  have e : w.toNat / (2 ^ f.lo * 2 ^ f.len) * (2 ^ f.lo * 2 ^ f.len) + v % 2 ^ f.len * 2 ^ f.lo + w.toNat % 2 ^ f.lo
      = 2 ^ f.lo * (w.toNat / (2 ^ f.lo * 2 ^ f.len) * 2 ^ f.len + v % 2 ^ f.len) + w.toNat % 2 ^ f.lo := by ring
  rw [e, Nat.mul_add_div (Nat.two_pow_pos _), Nat.div_eq_of_lt hr, Nat.add_zero, Nat.mul_comm, Nat.mul_add_mod]
  exact Nat.mod_mod _ _

/-- Bits of a word below and above a field are not changed by setting it. -/
theorem fldSet_bit_out (f : Fld) (hf : f.lo + f.len ≤ 20) (w : Word) (v i : Nat) (hi : i < f.lo ∨ f.lo + f.len ≤ i) :
    (fldSet f w v).toNat.testBit i = w.toNat.testBit i := by
  rw [fldSet_toNat f hf]
  have hr : w.toNat % 2 ^ f.lo < 2 ^ f.lo := Nat.mod_lt _ (Nat.two_pow_pos _)
  have e : w.toNat / 2 ^ (f.lo + f.len) * 2 ^ (f.lo + f.len) + v % 2 ^ f.len * 2 ^ f.lo + w.toNat % 2 ^ f.lo
      = 2 ^ f.lo * (2 ^ f.len * (w.toNat / 2 ^ (f.lo + f.len)) + v % 2 ^ f.len) + w.toNat % 2 ^ f.lo := by rw [Nat.pow_add]; ring
  rw [e, Nat.testBit_two_pow_mul_add _ hr]
  rcases hi with hi | hi
  · rw [if_pos hi, Nat.testBit_mod_two_pow]
    simp [hi]
  · rw [if_neg (by omega), Nat.testBit_two_pow_mul_add _ (Nat.mod_lt _ (Nat.two_pow_pos _)), if_neg (by omega), Nat.testBit_div_two_pow]
    congr 1
    omega

theorem fldGet_testBit (f : Fld) (w : Word) (i : Nat) : (fldGet f w).testBit i = (decide (i < f.len) && w.toNat.testBit (f.lo + i)) := by
  unfold fldGet
  rw [Nat.testBit_mod_two_pow, Nat.testBit_div_two_pow, Nat.add_comm]

/-- A field of the same register that does not overlap keeps its value. -/
theorem fldGet_fldSet_disj (f g : Fld) (hf : f.lo + f.len ≤ 20) (h : f.lo + f.len ≤ g.lo ∨ g.lo + g.len ≤ f.lo) (w : Word) (v : Nat) :
    fldGet g (fldSet f w v) = fldGet g w := by
  apply Nat.eq_of_testBit_eq
  intro i
  rw [fldGet_testBit, fldGet_testBit]
  by_cases hi : i < g.len
  · rw [fldSet_bit_out f hf w v (g.lo + i) (by omega)]
  · simp [hi]

/-- A field after it is set. -/
theorem State.get_set_self (s : State) (f : Fld) (hf : f.lo + f.len ≤ 20) (v : Nat) : (s.set f v).get f = v % 2 ^ f.len := by
  unfold State.get State.set
  rw [State.reg_setReg_self]
  exact fldGet_fldSet_self f hf _ v

/-- A field of another register keeps its value. -/
theorem State.get_set_addr (s : State) (f g : Fld) (h : g.addr ≠ f.addr) (v : Nat) : (s.set f v).get g = s.get g := by
  unfold State.get State.set
  rw [State.reg_setReg_ne _ h]

/-- A field beside the one that is set keeps its value. -/
theorem State.get_set_disj (s : State) (f g : Fld) (ha : g.addr = f.addr) (hf : f.lo + f.len ≤ 20)
    (h : f.lo + f.len ≤ g.lo ∨ g.lo + g.len ≤ f.lo) (v : Nat) : (s.set f v).get g = s.get g := by
  unfold State.get State.set
  rw [ha, State.reg_setReg_self]
  exact fldGet_fldSet_disj f g hf h _ v

/-- A register whose address is not the field's keeps its value. -/
theorem State.reg_set (s : State) (f : Fld) (v a : Nat) (h : a ≠ f.addr) : (s.set f v).reg a = s.reg a := State.reg_setReg_ne s h _
theorem State.reg_inc (s : State) (f : Fld) (a : Nat) (h : a ≠ f.addr) : (s.inc f).reg a = s.reg a := State.reg_set s f _ a h
theorem State.reg_incW (s : State) (f : Fld) (a : Nat) (h : a ≠ f.addr) : (s.incW f).reg a = s.reg a := State.reg_set s f _ a h

theorem State.get_lt (s : State) (f : Fld) : s.get f < 2 ^ f.len := fldGet_lt f _

/-- A saturating count. -/
theorem State.get_inc (s : State) (f : Fld) (hf : f.lo + f.len ≤ 20) :
    (s.inc f).get f = if s.get f = 2 ^ f.len - 1 then 2 ^ f.len - 1 else s.get f + 1 := by
  have hl := s.get_lt f
  unfold State.inc
  rw [State.get_set_self s f hf]
  unfold satAdd
  have hp := Nat.two_pow_pos f.len
  split
  · rename_i h
    rw [if_pos (by omega), Nat.mod_eq_of_lt (by omega)]
  · rename_i h
    rw [if_neg (by omega), Nat.mod_eq_of_lt (by omega)]

/-! ### Events (R479) -/

@[simp] theorem State.reg_mark (s : State) (a b : Nat) (g : Word → Word) : (s.mark a g).reg b = s.reg b := by simp [State.reg]
@[simp] theorem State.get_mark (s : State) (a : Nat) (g : Word → Word) (f : Fld) : (s.mark a g).get f = s.get f := by simp [State.get]
theorem State.reg_evt (s : State) (f : Fld) (a : Nat) (h : a ≠ f.addr) : (s.evt f).reg a = s.reg a := by
  simp [State.evt, State.reg_set _ _ _ _ h]
theorem State.reg_evtAt (s : State) (f : Fld) (i a : Nat) (h : a ≠ f.addr) : (s.evtAt f i).reg a = s.reg a := by
  simp [State.evtAt, State.setBitAt, State.reg_set _ _ _ _ h]
theorem State.reg_evtAdd (s : State) (f : Fld) (k a : Nat) (h : a ≠ f.addr) : (s.evtAdd f k).reg a = s.reg a := by
  simp [State.evtAdd, State.reg_set _ _ _ _ h]
theorem State.reg_evtInc (s : State) (f : Fld) (a : Nat) (h : a ≠ f.addr) : (s.evtInc f).reg a = s.reg a := State.reg_evtAdd s f 1 a h
/-- An event counted, or its flag set, whatever else the clock holds. -/
theorem State.get_evtInc (s : State) (f : Fld) (hf : f.lo + f.len ≤ 20) :
    (s.evtInc f).get f = if s.get f = 2 ^ f.len - 1 then 2 ^ f.len - 1 else s.get f + 1 := by
  show ((s.mark f.addr _).set f _).get f = _
  rw [← State.get_inc s f hf, State.inc, State.get_set_self _ _ hf, State.get_set_self _ _ hf]
theorem State.get_evt (s : State) (f : Fld) (hf : f.lo + f.len ≤ 20) (h1 : 0 < f.len) : (s.evt f).get f = 1 := by
  rw [State.evt, State.get_set_self _ _ hf]
  exact Nat.mod_eq_of_lt (Nat.one_lt_two_pow (by omega))

/-! ### Interrupt sources and findings -/

/-- A raise reaches the source's register and, when it is lost, the count of lost raises. -/
theorem State.reg_raise (s : State) (k a : Nat) (h1 : a ≠ R.IRT_SRC k) (h2 : a ≠ R.IRT_STAT) : (s.raise k).reg a = s.reg a := by
  unfold State.raise
  split_ifs
  · rfl
  · rfl
  · exact State.reg_evtInc s _ a h2
  · exact State.reg_incW s _ a h1

/-- What a raise can do: nothing in a stopped memory island (R9); end a crossing failure that waited for it (R10); be lost and counted
at 15; count (R380). -/
theorem State.raise_cases (s : State) (k : Nat) :
    s.islandUp .memory = false ∧ s.raise k = s
    ∨ s.islandUp .memory = true ∧ s.por.lost.contains (.irq k) = true ∧ s.raise k = s.lostMet (.irq k)
    ∨ s.islandUp .memory = true ∧ s.por.lost.contains (.irq k) = false ∧ s.get (F.IRT_SRC.COUNT k) = 15 ∧ s.raise k = s.evtInc F.IRT_STAT.LOST
    ∨ s.islandUp .memory = true ∧ s.por.lost.contains (.irq k) = false ∧ s.get (F.IRT_SRC.COUNT k) ≠ 15 ∧ s.raise k = s.incW (F.IRT_SRC.COUNT k) := by
  unfold State.raise
  by_cases h1 : s.islandUp .memory = true
  · by_cases h2 : s.por.lost.contains (.irq k) = true
    · simp_all
    · by_cases h3 : s.get (F.IRT_SRC.COUNT k) = 15 <;> simp_all
  · simp_all

/-- With no crossing failure waiting for an item, a raise leaves the Porter as it was. -/
theorem State.raise_por (s : State) (k : Nat) (h : s.por.lost = []) : (s.raise k).por = s.por := by
  unfold State.raise
  rw [h]
  split_ifs <;> simp_all
theorem State.raiseIf_por (s : State) (c : Bool) (k : Nat) (h : s.por.lost = []) : (s.raiseIf c k).por = s.por := by
  unfold State.raiseIf
  split
  · exact State.raise_por s k h
  · rfl

/-- The count of a source after a raise that the memory island sees and no crossing failure takes (R380). -/
theorem State.count_raise (s : State) (k : Nat) (hk : k < 320) (hm : s.islandUp .memory = true) (hc : LostItem.irq k ∉ s.por.lost) :
    (s.raise k).get (F.IRT_SRC.COUNT k) = min 15 (s.get (F.IRT_SRC.COUNT k) + 1) := by
  have hl : s.get (F.IRT_SRC.COUNT k) < 16 := s.get_lt (F.IRT_SRC.COUNT k)
  have hx : s.por.lost.contains (.irq k) = false := by simpa using hc
  rcases s.raise_cases k with h | h | h | h
  · simp [hm] at h
  · rw [hx] at h; simp at h
  · rw [h.2.2.2, State.evtInc, State.evtAdd, State.get_set_addr _ _ _ (by simp [F.IRT_SRC.COUNT, F.IRT_STAT.LOST, R.IRT_SRC, R.IRT_STAT]; omega),
      State.get_mark, h.2.2.1]
    rfl
  · rw [h.2.2.2, State.incW, State.get_set_self _ _ (by simp [F.IRT_SRC.COUNT])]
    show (_ + 1) % 2 ^ 4 = _
    have := h.2.2.1
    omega

/-- A finding reported is on its pair (R405). -/
theorem State.report_pulse (s : State) (k d : Nat) : ((s.report k d).por.pulses.any fun p => p.src = k) = true := by
  unfold State.report State.reportSig
  dsimp only
  split_ifs with h
  · exact (Bool.and_eq_true _ _ ▸ h).2
  · simp [plainSig]
  · simp [plainSig]

end Sys2Proof.Machine
end

