-- ==== Sys2Proof/Laws/Stores.lean ====
section
/-! SUPPORT. The stores: a byte after a write, and the canonical form that every operation on registers, halls and NVS keeps. -/

namespace Sys2Proof.Machine

/-! ### Bytes -/

theorem State.hallByte_set (s : State) (a b : Nat) (v : Byte) :
    (s.setHallByte a v).hallByte b = if b = a then v else s.hallByte b := cellGet_cellPut hallDefault s.halls a b v
theorem State.nvByte_set (s : State) (a b : Nat) (v : Byte) :
    (s.setNvByte a v).nvByte b = if b = a then v else s.nvByte b := cellGet_cellPut nvsDefault s.nvs a b v

/-- A byte outside the bytes written keeps its value. -/
theorem State.hallByte_setBytes (l : List Byte) : ∀ (s : State) (a b : Nat), b < a ∨ a + l.length ≤ b →
    (s.setHallBytes a l).hallByte b = s.hallByte b := by
  induction l with
  | nil => intro s a b _; rfl
  | cons v t ih =>
    intro s a b h
    rw [List.length_cons] at h
    rw [State.setHallBytes, ih _ _ _ (by omega), State.hallByte_set, if_neg (by omega)]
theorem State.nvByte_setBytes (l : List Byte) : ∀ (s : State) (a b : Nat), b < a ∨ a + l.length ≤ b →
    (s.setNvBytes a l).nvByte b = s.nvByte b := by
  induction l with
  | nil => intro s a b _; rfl
  | cons v t ih =>
    intro s a b h
    rw [List.length_cons] at h
    rw [State.setNvBytes, ih _ _ _ (by omega), State.nvByte_set, if_neg (by omega)]

/-- A byte written reads as it was written. -/
theorem State.hallByte_setBytes_at (l : List Byte) : ∀ (s : State) (a i : Nat), (h : i < l.length) →
    (s.setHallBytes a l).hallByte (a + i) = l[i] := by
  induction l with
  | nil => intro s a i h; exact absurd h (by simp)
  | cons v t ih =>
    intro s a i h
    rw [State.setHallBytes]
    cases i with
    | zero =>
      rw [State.hallByte_setBytes t _ _ _ (by omega), State.hallByte_set]
      simp
    | succ k =>
      rw [List.length_cons] at h
      have := ih (s.setHallByte a v) (a + 1) k (by omega)
      rw [show a + (k + 1) = a + 1 + k by omega, this]
      rfl

/-! ### The canonical form -/

theorem Memory.wf_iff (s : State) : Memory.wf s = true ↔
    cellsWf resetOf s.regs = true ∧ cellsWf hallDefault s.halls = true ∧ cellsWf nvsDefault s.nvs = true := by
  unfold Memory.wf
  rw [Bool.and_eq_true, Bool.and_eq_true, and_assoc]

/-- The form depends on the three stores alone. -/
theorem Memory.wf_of_eq {s t : State} (hr : t.regs = s.regs) (hh : t.halls = s.halls) (hn : t.nvs = s.nvs) (h : Memory.wf s = true) :
    Memory.wf t = true := by
  rw [Memory.wf_iff] at *
  rw [hr, hh, hn]
  exact h

theorem Memory.wf_setReg {s : State} (a : Nat) (v : Word) (h : Memory.wf s = true) : Memory.wf (s.setReg a v) = true := by
  rw [Memory.wf_iff] at *
  exact ⟨cellsWf_cellPut resetOf s.regs a v h.1, h.2⟩
theorem Memory.wf_set {s : State} (f : Fld) (v : Nat) (h : Memory.wf s = true) : Memory.wf (s.set f v) = true := Memory.wf_setReg _ _ h
theorem Memory.wf_setB {s : State} (f : Fld) (b : Bool) (h : Memory.wf s = true) : Memory.wf (s.setB f b) = true := Memory.wf_set _ _ h
theorem Memory.wf_inc {s : State} (f : Fld) (h : Memory.wf s = true) : Memory.wf (s.inc f) = true := Memory.wf_set _ _ h
theorem Memory.wf_incW {s : State} (f : Fld) (h : Memory.wf s = true) : Memory.wf (s.incW f) = true := Memory.wf_set _ _ h
theorem Memory.wf_setBitAt {s : State} (f : Fld) (i : Nat) (b : Bool) (h : Memory.wf s = true) : Memory.wf (s.setBitAt f i b) = true :=
  Memory.wf_set _ _ h
theorem Memory.wf_clearRC {s : State} (a : Nat) (h : Memory.wf s = true) : Memory.wf (s.clearRC a) = true := by
  unfold State.clearRC
  split
  · exact h
  · exact Memory.wf_setReg _ _ h
theorem Memory.wf_mark {s : State} (a : Nat) (g : Word → Word) (h : Memory.wf s = true) : Memory.wf (s.mark a g) = true :=
  Memory.wf_of_eq (by simp) (by simp) (by simp) h
theorem Memory.wf_evt {s : State} (f : Fld) (h : Memory.wf s = true) : Memory.wf (s.evt f) = true := Memory.wf_set _ _ (Memory.wf_mark _ _ h)
theorem Memory.wf_evtAt {s : State} (f : Fld) (i : Nat) (h : Memory.wf s = true) : Memory.wf (s.evtAt f i) = true :=
  Memory.wf_setBitAt _ _ _ (Memory.wf_mark _ _ h)
theorem Memory.wf_evtAdd {s : State} (f : Fld) (k : Nat) (h : Memory.wf s = true) : Memory.wf (s.evtAdd f k) = true :=
  Memory.wf_set _ _ (Memory.wf_mark _ _ h)
theorem Memory.wf_evtInc {s : State} (f : Fld) (h : Memory.wf s = true) : Memory.wf (s.evtInc f) = true := Memory.wf_evtAdd f 1 h
theorem Memory.wf_recordReject {s : State} (a : Nat) (h : Memory.wf s = true) : Memory.wf (s.recordReject a) = true :=
  Memory.wf_evtInc _ (Memory.wf_set _ _ h)
theorem Memory.wf_writeCodes {s : State} (m : Master) (a : Nat) (v : Word) (h : Memory.wf s = true) :
    Memory.wf (s.writeCodes m a v) = true := by
  unfold State.writeCodes
  dsimp only
  split
  · exact Memory.wf_recordReject _ (Memory.wf_setReg _ _ h)
  · exact Memory.wf_setReg _ _ h
theorem Memory.wf_raise {s : State} (k : Nat) (h : Memory.wf s = true) : Memory.wf (s.raise k) = true := by
  rcases s.raise_cases k with e | e | e | e
  · rw [e.2]; exact h
  · rw [e.2.2]; exact h
  · rw [e.2.2.2]; exact Memory.wf_evtInc _ h
  · rw [e.2.2.2]; exact Memory.wf_incW _ h
theorem Memory.wf_raiseIf {s : State} (c : Bool) (k : Nat) (h : Memory.wf s = true) : Memory.wf (s.raiseIf c k) = true := by
  unfold State.raiseIf
  split
  · exact Memory.wf_raise _ h
  · exact h
theorem Memory.wf_report {s : State} (k d : Nat) (h : Memory.wf s = true) : Memory.wf (s.report k d) = true :=
  Memory.wf_of_eq (by simp) (by simp) (by simp) h
theorem Memory.wf_setHallByte {s : State} (a : Nat) (b : Byte) (h : Memory.wf s = true) : Memory.wf (s.setHallByte a b) = true := by
  rw [Memory.wf_iff] at *
  exact ⟨h.1, cellsWf_cellPut hallDefault s.halls a b h.2.1, h.2.2⟩
theorem Memory.wf_setNvByte {s : State} (a : Nat) (b : Byte) (h : Memory.wf s = true) : Memory.wf (s.setNvByte a b) = true := by
  rw [Memory.wf_iff] at *
  exact ⟨h.1, h.2.1, cellsWf_cellPut nvsDefault s.nvs a b h.2.2⟩
theorem Memory.wf_setHallBytes (l : List Byte) : ∀ {s : State} (a : Nat), Memory.wf s = true → Memory.wf (s.setHallBytes a l) = true := by
  induction l with
  | nil => intro s a h; exact h
  | cons v t ih => intro s a h; exact ih _ (Memory.wf_setHallByte a v h)
theorem Memory.wf_setNvBytes (l : List Byte) : ∀ {s : State} (a : Nat), Memory.wf s = true → Memory.wf (s.setNvBytes a l) = true := by
  induction l with
  | nil => intro s a h; exact h
  | cons v t ih => intro s a h; exact ih _ (Memory.wf_setNvByte a v h)

/-- A fold keeps what each of its steps keeps. -/
theorem State.each_keeps {α : Type} (p : State → Prop) (f : State → α → State) (hf : ∀ s x, p s → p (f s x)) :
    ∀ (l : List α) (s : State), p s → p (s.each l f)
  | [], _, h => h
  | x :: t, s, h => State.each_keeps p f hf t (f s x) (hf s x h)

theorem Memory.wf_free {s : State} (h : Memory.wf s = true) : Memory.wf s.free.2 = true := Memory.wf_of_eq (s := s) (rfl) (rfl) (rfl) h
theorem Memory.wf_freeBytes {s : State} (n : Nat) (h : Memory.wf s = true) : Memory.wf (s.freeBytes n).2 = true :=
  Memory.wf_of_eq (s := s) (rfl) (rfl) (rfl) h
theorem Memory.wf_tbAdvance {s : State} (k : Nat) (h : Memory.wf s = true) : Memory.wf (s.tbAdvance k) = true :=
  Memory.wf_of_eq (s := s) (rfl) (rfl) (rfl) h

end Sys2Proof.Machine
end

