-- ==== Sys2Proof/Laws/Step.lean ====
section
/-! SUPPORT. What a step does with the queue, and with none. -/

namespace Sys2Proof.Machine

/-- A step with a command in front runs it with the rest of the queue. -/
theorem step_cons (s : State) (c : Instr) (t : List Instr) (h : s.pending = c :: t) : step s = exec c { s with pending := t } := by
  unfold step
  rw [h]

/-- A step with no command waiting. -/
theorem step_nil (s : State) (h : s.pending = []) : step s = .next s.idle := by
  unfold step
  rw [h]

/-- A word spells no command, so nothing is put in front. -/
@[simp] theorem State.withFetchWord_eq (s : State) (nbits w : Nat) : s.withFetchWord nbits w = s := rfl

/-- A step idles for one FCLK, or stands still while the angle island has no clock. -/
theorem State.idle_cases (s : State) :
    s.islandUp .angle = true ∧ s.idle = s.passFclk 1 ∨ s.islandUp .angle = false ∧ s.idle = s := by
  unfold State.idle
  cases s.islandUp .angle <;> simp

end Sys2Proof.Machine
end

