-- ==== Sys2Proof/Tests/Slice0.lean ====
section
/-! SUPPORT. Tests: ill-formed commands that WellFormed refuses, states that meet the hypotheses of the statements, and values that the
spec's worked examples give. -/

set_option Elab.async false

namespace Sys2Proof.Tests

open Sys2Proof Sys2Proof.Machine

/-- The state of an answer that goes on. -/
def goOn (o : Out) : State := match o with | .next t => t | _ => State.reset

/-- A Karek out of reset, with both PLLs locked. -/
def up : State :=
  ((State.reset.updPcr fun p => { p with held := none }).set F.PCR_STAT.PLLA_LOCK 1).set F.PCR_STAT.PLLG_LOCK 1


/-- A Karek whose tracker `n` runs as a main tracker with a level input, in state `st`. -/
def inSync (n st : Nat) : State :=
  ((((up.set (F.STAIR_CTRL.RUN n) 1).set (F.STAIR_CFG.ROLE n) 1).set (F.STAIR_CFG.INTYPE n) 1).set (F.STAIR_CFG.EDGE n) 1).set
    (F.STAIR_STAT.STATE n) st
/-- The same in CYCLE_SYNC on a wheel of 36 even teeth, 9000 FCLK after the last tooth, with 10000 FCLK predicted and windows of 12 to
28 twentieths. -/
def tracking (n : Nat) : State :=
  let s := (((inSync n 2).set (F.STAIR_STAT.ARMED n) 1).set (F.STAIR_GEOM.NTM1 n) 35).set (F.STAIR_LEN n) 36863
  let s := ((s.set (F.STAIR_WIN.WMIN n) 12).set (F.STAIR_WIN.WMAX n) 28).set (F.STAIR_TPRED_LO n) 10000
  let s := (s.set (F.STAIR_TTA.LANDING n 35) 1).set (F.STAIR_CFG2.NOISELIM n) 3
  let s := (List.range 36).foldl (fun s k => s.set (F.STAIR_TTA.SPAN n k) 16) s
  { s.updTrk n (fun t => { t with last := some 91000, accT := 91004, tpred2 := 20000, n := 1024, tptLog := 10, m1 := some ⟨10000, 4194304⟩ })
    with fclk := 100004 }

/-- Tracker 2 follows tracker 1 of bay 3, from which one beacon has come. -/
def remoteTrk : State :=
  let s := ((up.set (F.STAIR_CTRL.RUN 2) 1).set (F.STAIR_CFG.ROLE 2) 3).set (F.STAIR_LEN 2) 1023
  let s := ((s.set (F.STAIR_RCFG.SRCBAY 2) 3).set (F.STAIR_RCFG.SRCTRK 2) 1).set (F.STAIR_RCFG.BLATMAX 2) 20
  { s with bcnIn := [(2, ⟨3, 1, 64, 50000, 2, 1024, 900⟩)], tb := 51000 }

/-- Stitch 9 is allocated to tracker 0, which tracks; its active set starts at angle 500 for 100 ticks on line 5. -/
def waiting : State :=
  let s := (((tracking 0).set (F.SU_ALLOC.EN 9) 1).set (F.SU_PLAN 9) 20000).set (F.STITCH_STATUS.STATE 9) 1
  { s.updSt 9 fun t => { t with setA := ⟨1 + 2 * 5, 500, 100, 0x1008, 0, 0⟩, accScan := true } with suPos := 1, fclk := 91010 }
/-- The same, running since FCLK 95000. -/
def pulsing : State :=
  ((waiting.set (F.STITCH_STATUS.STATE 9) 3).updSt 9 fun t =>
    { t with fz := some ⟨500, 100, 10000, 1024, 5, 0, false, 0, 64⟩, startT := 90000, endT := 91000, lineNo := 5, res := 1 })
/-- Line 7 is high and routed to slot 3 of injector 6, which is enabled with its bank; the line rose one FCLK before. -/
def slotUp : State :=
  let s := ((up.set F.PCR_VSTAT.LOCKOUT 0).set (F.INJ_CFG.EN 6) 1).set (F.INJ_BCFG.EN 1) 1
  { s.updSt 0 fun t => { t with startT := 3000, endT := 9000, lineNo := 7 } with routes := [(256 + 51, 7)] }
/-- A window of injector 6 is open in bank 1 for slot 3 since FCLK 3000. -/
def windowOpen : State :=
  ((((slotUp.set (F.INJ_BSTAT.BUSY 1) 1).set (F.INJ_BSTAT.CONDINJ 1) 2).set (F.INJ_BSTAT.CONDSLOT 1) 3).updBank 1 fun k =>
    { k with openT := 3000 }).setSeen 51 true

/-- Bytes of 32-bit words, low byte first. -/
def words (l : List Nat) : List Byte := l.flatMap fun w => leBytes 4 w
/-- Chart 3, one-dimensional on QV5 with breakpoints 0 and 100 and values 10 and 30, stands in hall 2, which the chart engine owns;
QV5 is 50. -/
def charted : State :=
  let s := ((up.set (F.HAL_OWN.PWR 2) 1).set (F.HAL_OWN.OWNER 2) 4).setHallBytes (2 * 524288 + 64) (words [0x101, 5, 0, 100, 5, 10 + 20 * 2 ^ 20])
  (s.set (F.CHT_QV 5) 50).updCht fun x => { x with charts := [(3, ⟨2, 64, 24⟩)] }
/-- A run of recipe 6 for cylinder 2 stands in context 1 at a step word. -/
def running (w : Nat) : State :=
  { charted.updCht (fun x =>
      { x with recipes := [(6, ⟨4, true, [], [w, 0]⟩)],
               ctx := vupd x.ctx 1 fun _ => some ⟨6, 2, 0, [1, -2, 3, 4, 5, 6, 7, 8], List.replicate 64 50, List.replicate 64 true, 12000, 12028, none⟩ })
    with fclk := 4200 }.set F.CHT_CTRL.RTMAX 255

/-- Output 1 follows tracker 0 with a table at the start of hall 4, which the gauge owns; the table holds 100, 300 and -5. -/
def waveform : State :=
  let s := (((tracking 0).set (F.HAL_OWN.PWR 4) 1).set (F.HAL_OWN.OWNER 4) 5).setHallBytes (4 * 524288) [100, 0, 44, 1, 251, 255]
  ((s.set (F.GAU_ACFG.AEN 1) 1).set (F.STAIR_ANGLE 0) 50).updGau fun g => { g with awoTab := vupd g.awoTab 1 fun _ => some (4, 0) }
/-- A record of tracker 0 at position 7, of a period of 900. -/
def gaugeRec : GauRec := ⟨0, ⟨900, 8, false, false⟩, 7, 5000, true, 0, false⟩

/-- Needle 5, running at address 0 of bed 1, where the word `w` stands. -/
def needle (w : Nat) : State := (up.set (F.BED_PS 1 0) w).set (F.BED_NSTAT.STATE 5) 1
def wd (op rest : Nat) : Nat := op * 65536 + rest

/-- Window 9 in force in mode `m`. -/
def win9 (m : Nat) : State := (up.set (F.CMP_WCFG.MODE 9) m).updWin 9 fun x => { x with eff := m }
/-- The spare serves role 3 since FCLK 1000, its output low; the unit `freed` is under test, or both agree since FCLK `agree`. -/
def ladder (freed agree : Option Nat) : State :=
  { (up.set F.STC_STAT.WSPARE 1).updCmp (fun c => { c with step := some ⟨3, freed, false, agree, false⟩, stepT := 1000, freedT := 1000 }) with fclk := 500000 }
/-- Line 2 rose in the FCLK before, and is routed to function `f` of timer 6. -/
def lineTo (f : Nat) : State :=
  { up.updSt 0 fun t => { t with startT := 4095, endT := 9000, lineNo := 2 } with routes := [(512 + 24 + f, 2)] }

/-- Hall 3 has power and belongs to the host. -/
def hall3 : State := ((up.set (F.HAL_OWN.PWR 3) 1).set (F.HAL_OWN.OWNER 3) 1).setHallBytes (3 * 524288 + 16) [1, 2, 3, 4]
/-- A host page write is under way. -/
def nvWriting : State := up.updHal fun x => { x with running := some ⟨.host, [(33500, List.replicate 32 7)]⟩ }

/-- Channel 2 has read the descriptor `d` at byte 0x100000, in hall 2, which HOOK owns. -/
def hooked (d : List Nat) : State :=
  let s := ((((up.set (F.HAL_OWN.PWR 2) 1).set (F.HAL_OWN.OWNER 2) 3).set (F.HK_STAT.STATE 2) 3).hkPcSet 2 0x100000).updHk 2 fun h => { h with desc := some d }
  s.setHallBytes 0x100040 [1, 2, 3, 4, 5, 6, 7, 8]
/-- The same with its data begun. -/
def moving : State := (hooked [2 ^ 31 + 2 ^ 9 + 2 ^ 10, 0x100040, 0x100083, 8]).updHk 2 fun h => { h with begun := true }
/-- A burst of it outstanding. -/
def bursting : State :=
  moving.updHk 2 fun h => { h with issued := 8, burst := [⟨[2 ^ 31 + 2 ^ 9 + 2 ^ 10, 0x100040, 0x100083, 8], false, 0, 8, 0x100040, 0x100083, [], false, 4000, 0, false⟩] }

/-- Bay 5 of a ring, a member with a key, synchronised. -/
def ringBay : State :=
  ((((up.set F.GAL_STAT.ROLE 1).set F.GAL_STAT.BAY 5).set F.TB_STAT.SYNC 1).set F.PCR_STAT.BOOTSTEP 6).updGal fun g => { g with sk := some (List.replicate 16 1), nm := some (List.replicate 16 2) }
/-- The same as master, in a pass. -/
def ringMaster (p : Option (EnumPass × Nat)) : State :=
  ((ringBay.set F.GAL_STAT.MASTER 1).set F.GAL_STAT.BAY 1).updGal fun g => { g with pass := p, step3 := some 0 }
/-- A taken frame of kind `k` from bay 9 with a payload. -/
def taken (k : BitVec 4) (p : List Byte) : RxFrame := ⟨⟨k, 0, 63, 9, 2, p, 77, 0⟩, 5000, true, false⟩
def withRx (s : State) (r : RxFrame) : State := s.updGal fun g => { g with rx := [r] }
/-- An event frame of bay 9. -/
def eventFrame : Frame := ⟨12, 0, 63, 9, 2, [3, 1, 0, 0, 0, 0, 0, 0, 0, 0], 77, 0⟩

/-- Hall 3 powered on a ring, owned by `o`. -/
def hall3Ring (o : Nat) : State := ((ringBay.set (F.HAL_OWN.PWR 3) 1).set (F.HAL_OWN.OWNER 3) o).setHallBytes (3 * 524288 + 16) [1, 2, 3, 4]

/-- A request frame with its CRC. -/
def framed (l : List Byte) : List Byte := l ++ [crc8 l]
/-- A source that a registered host may take: source 5, two counts; host 2 of this bay. -/
def irtPending : State :=
  (((((((up.set (F.IRT_SRC.COUNT 5) 2).set (F.IRT_SRC.EN 5) 1).set (F.IRT_SRC.HMASK 5) 4).set F.IRT_HOST.HID 2).set F.IRT_HOST.REG 1).set (F.IRT_HTAB.VALID 2) 1).set
    (F.IRT_HTAB.REG 2) 1)
/-- Host 2 with its slot in a state, and its offer or claim of source 5. -/
def irtSlot (k : Nat) : State := ((irtPending.set F.IRT_HSTAT.SLOT k).set F.IRT_HSLOT.SRC 5)
def irtMsg (s : State) (m : Nat × Nat × Nat) : State := s.updIrt fun r => { r with loc := [m] }

/-- TRU_BUF holds a block; the identity is one of zero bytes. -/
def withBuf (life : Nat) (l : List Byte) : State :=
  (((up.set F.TRU_STAT.LIFE life).set F.TRU_STAT.IDOK 1).set F.WVL_STAT.ENC 1).each (List.range 112) fun s k => s.set (F.TRU_BUF k) (leAt l (2 * k) 2)
/-- A CLAIM of the generator point's key. -/
def claimBlock : List Byte :=
  [1, 0, 0, 0] ++ List.replicate 16 0 ++ (sha256 (List.replicate 64 0)).take 8 ++ beBytes 32 g256.1 ++ beBytes 32 g256.2
/-- A LOCK with the signature of the key in slot 0. -/
def lockKey : List Byte := beBytes 64 2039282980530190011928875552650979180300691654861827518588299213779223227091203184670556717219343751565287795909820403524573476517664875631392417679331558
def lockBlock : List Byte :=
  [4, 0, 0, 0] ++ List.replicate 16 0 ++ (sha256 (List.replicate 64 0)).take 8 ++ List.replicate 68 0 ++ lockKey
    ++ beBytes 64 11795663650825052233327738740353242966663332090706844309342344043525403123215662280689385442945422032084798955850624769919789419366618609438625498904876998
def lockable : State :=
  (withBuf 1 lockBlock).updTru fun t => { t with chalOk := true, rec_ := { t.rec_ with mask := 1, digs := [sha256 lockKey, [], [], []] } }

/-- Source 81 is enabled, with its reactions, and a finding of it waits. -/
def finding (evr sevr : Nat) : State :=
  (((up.set (F.POR_SRCA.EN 81) 1).set (F.POR_SRCA.EVR 81) evr).set (F.POR_SRCA.SEVR 81) sevr).updPor fun p => { p with pulses := [⟨81, 4, 0, 15, 0⟩] }
def counting (n w tot : Nat) : State :=
  (((up.set (F.POR_SRCA.N 81) n).set (F.POR_CNT.WCNT 81) w).set (F.POR_CNT.TOTAL 81) tot).updPor fun p =>
    { p with countQ := [⟨⟨81, 4, 0, 15, 0⟩, false, false⟩], ages := if w = 0 then [] else [(81, 0)] }

/-- The self-tests run, in hall 3 at region 7. -/
def testing : State :=
  ((((((up.set F.PCR_STAT.BOOTSTEP 6).set (F.HAL_OWN.PWR 3) 1).set F.STC_MPOS.HALL 3).set F.STC_MPOS.REGION 7).set F.STC_STAT.CSPARE 1).set F.STC_STAT.TSPARE 1)
/-- A unit of a rotation is under test, or a role waits for the spare. -/
def rotating (kind : Nat) (f : Rot → Rot) : State := { testing.updRot kind f with fclk := 9000000 }

/-- Controller 1 takes part in bus traffic, with one object. -/
def canBus (o : Nat) (c : CanObj) : State :=
  (((up.set (F.CAN_CFG.EN 1) 1).set (F.CAN_CFG.FDEN 1) 1).set (F.CAN_STAT.STATE 1) 0).updObj 1 o fun _ => c
def rxObj : CanObj := ⟨1, 0x123, 0x7FF, 0, 0, List.replicate 64 0⟩
def txObj : CanObj := ⟨3 + 8 + 32 * 9, 0x123, 0, 0, 0, List.replicate 64 7⟩
def canFrm : CanFrame := ⟨false, 0x123, false, true, true, false, 9, List.replicate 12 5⟩
def canTx : State := (canBus 31 txObj).canPendSet 1 31 true

/-- Receiver 7 is on, at 6 µs a tick, with status nibbles of a slow message so far. -/
def sentOn (slow : List Nat) : State :=
  { (((up.set (F.SENT_CFG.EN 7) 1).set (F.SENT_CFG.TICKQ 7) 12).set (F.SENT_CFG2.SLOW 7) 1).updSent 7 fun x => { x with slow := slow } with fclk := 90000000 }
/-- A fast frame of a status nibble and six data nibbles, with a CRC off by `e`. -/
def sentFrm (st : Nat) (d : List Nat) (e : Nat) : SentPulses :=
  { cal := 100800, nibs := (st :: d ++ [(sentCrc false d + e) % 16]).map fun v => (12 + v) * 1800, pause := none }
/-- The status nibbles of a short slow message: its 16 bits in bit 2, its start in bit 3. -/
def slowShort (w : Nat) : List Nat := (List.range 16).map fun i => 4 * b2n (bitOf w (15 - i)) + if i = 0 then 8 else 0
def slowWord : Nat := 5 * 4096 + 0x9A * 16 + sentCrc false [5, 9, 10]

/-- The words of a frame on a lane, from running disparity minus. -/
def laned (f : Frame) : List (BitVec 20) := (laneCode false (frWords f)).1
/-- A running image of one empty section. -/
def oneSect (t g : Nat) : Image := ⟨1, false, false, 0, [⟨t, g, false, [], [], 0⟩]⟩
def withImage (s : State) (t g : Nat) : State := s.updWvl fun w => { w with run := some (oneSect t g) }
/-- A Karek in watch mode since 7 MT ticks. -/
def asleep : State := up.updPcr fun p => { p with watch := true, watchTicks := 7 }
/-- An IMAGE frame of two bytes at offset 0, final. -/
def imageFrame : RxFrame := ⟨⟨13, 0, 63, 1, 0, [1, 0, 0, 0, 0, 0, 0, 0, 0, 0, 0, 0, 0, 0, 0, 0, 0x45, 0x5A], 1, 0⟩, 0, true, false⟩
/-- The image that `swapReady` may install. -/
def swapImage : Image := ⟨2, false, false, 256, [⟨0x88, 0xFFFF, true, [2], List.replicate 64 0, 0⟩]⟩
/-- A candidate of VERSION 2 whose BUDGET section differs from the running image of VERSION 1. -/
def swapReady : State :=
  ((up.set F.PCR_STAT.BOOTSTEP 6).set F.WVL_RUNVER 1).updWvl fun w =>
    { w with run := some ⟨1, false, false, 256, [⟨0x88, 0xFFFF, true, [1], [], 0⟩]⟩, cand := some (swapImage, 1) }

/-! ### States that meet the hypotheses of the statements -/

theorem wit1RailExcursionsAndGateLockout :
    let s : State := up
    let rail : Fin 5 := 4
    let mv : Nat := 8500
    s.pcr.held = none ∧ s.railMasked rail = false ∧ bitOf (s.get F.PCR_VSTAT.BELOW) rail = false ∧ underLevel mv (warnLevel rail) = true := by decide +kernel
theorem wit2RailExcursionsAndGateLockout :
    let s : State := up
    let rail : Fin 5 := 2
    let mv : Nat := 4901
    s.pcr.held = none ∧ s.railMasked rail = false ∧ underLevel mv (warnLevel rail) = false := by decide +kernel
theorem wit3RailExcursionsAndGateLockout :
    let s : State := (up.set F.PCR_VSTAT.BELOW 8).standOn 4 3
    let rail : Fin 5 := 3
    s.railMasked rail = false := by decide +kernel
theorem wit4RailExcursionsAndGateLockout :
    let s : State := up
    let rail : Fin 4 := 3
    let mv : Nat := 1600
    s.railMasked rail = false ∧ underLevel mv (lowLevel rail) = true := by decide +kernel
theorem wit5RailExcursionsAndGateLockout :
    let s : State := up
    let mv : Nat := 7999
    s.pcr.held = none ∧ s.pcr.watch = false ∧ underLevel mv (lowLevel 4) = true := by decide +kernel
theorem wit6RailExcursionsAndGateLockout :
    let s : State := up.set F.PCR_VSTAT.LOCKOUT 1
    s.pcr.watch = false := by decide +kernel
theorem wit7RailExcursionsAndGateLockout :
    let s : State := up.set (F.PCR_VMIN 4) 9000
    s.islandUp .management = true := by decide +kernel

theorem wit1ResetsFromOutsideAndTheirRelease :
    let s : State := up
    s.pcr.held ≠ some .powerOn ∧ s.pcr.held ≠ some .porter := by decide +kernel
theorem wit3ResetsFromOutsideAndTheirRelease :
    let s : State := State.reset
    let k : ResetKind := .powerOn
    s.pcr.held = some k ∧ s.pcr.nrstLow = false ∧ s.pcr.drive = false := by decide +kernel
theorem wit4ResetsFromOutsideAndTheirRelease :
    let s : State := up.updGal fun g => { g with resetT := some 1 }
    let t0 : Nat := 1
    s.running = true ∧ s.gal.resetT = some t0 ∧ t0 + 400 ≤ s.fclk := by decide +kernel
theorem wit5ResetsFromOutsideAndTheirRelease :
    let s : State := up
    s.islandUp .management = true ∧ s.limitOf R.POR_CMD = none ∧ s.life < 2 := by decide +kernel

theorem wit1ClocksLockLoseAndReturn :
    let s : State := ((State.reset.updPcr fun p => { p with held := none, sosc := true }).set F.PCR_STAT.BOOTSTEP 1).set F.CHIP_STRAP.MSTR 1
    let n : Nat := 115
    s.running = true ∧ s.get F.PCR_STAT.BOOTSTEP = 1 ∧ s.get F.PCR_STAT.REFSRC = 0 ∧ s.bit F.CHIP_STRAP.MSTR = true ∧ 85 ≤ n ∧ n ≤ 115 := by decide +kernel
theorem wit2ClocksLockLoseAndReturn :
    let s : State := up.set F.PCR_STAT.REFSRC 1
    s.running = true ∧ s.get F.PCR_STAT.REFSRC ≠ 0 := by decide +kernel
theorem wit3ClocksLockLoseAndReturn :
    let s : State := up.set F.PCR_STAT.REFSRC 2
    s.running = true ∧ s.get F.PCR_STAT.REFSRC ≠ 0 := by decide +kernel
theorem wit4ClocksLockLoseAndReturn :
    let s : State := up.set F.PCR_STAT.BOOTSTEP 1
    s.running = true ∧ s.get F.PCR_STAT.BOOTSTEP = 1 ∧ s.bit F.PCR_STAT.PLLA_LOCK = true ∧ s.bit F.PCR_STAT.PLLG_LOCK = true := by decide +kernel
theorem wit5ClocksLockLoseAndReturn :
    let s : State := ((State.reset.updPcr fun p => { p with held := none, sosc := true }).set F.PCR_STAT.BOOTSTEP 1).set F.CHIP_STRAP.MSTR 1
    s.running = true ∧ s.pcr.sosc = true := by decide +kernel
theorem wit6ClocksLockLoseAndReturn :
    let s : State := up.set F.PCR_STAT.REFSRC 1
    s.running = true ∧ s.get F.PCR_STAT.REFSRC = 1 := by decide +kernel
theorem wit7ClocksLockLoseAndReturn :
    let s : State := up.set F.PCR_STAT.REFSRC 2
    s.running = true ∧ s.get F.PCR_STAT.REFSRC = 2 ∧ s.comes isValidGroup = false := by decide +kernel
theorem wit8ClocksLockLoseAndReturn :
    let s : State := (up.set F.PCR_STAT.HOLDOVER 1).standOn 3 1
    s.running = true ∧ s.bit F.PCR_STAT.HOLDOVER = true := by decide +kernel
theorem wit9ClocksLockLoseAndReturn :
    let s : State := up
    let f : Nat := 1359
    s.islandUp .angle = true ∧ (20 * f < 27200 ∨ 36800 < 20 * f) := by decide +kernel

theorem wit1BootRunsFromVerificationToCompletion :
    let s : State := (up.set F.PCR_STAT.BOOTSTEP 2).set F.TRU_STAT.LIFE 1
    s.running = true ∧ s.get F.PCR_STAT.BOOTSTEP = 2 ∧ s.wvl.verify = none ∧ s.wvl.load = none ∧ s.wvl.wait = false ∧ s.life ≠ 0 := by decide +kernel
theorem wit2BootRunsFromVerificationToCompletion :
    let s : State := ((up.set F.PCR_STAT.BOOTSTEP 2).set F.TRU_STAT.LIFE 1).updWvl fun w => { w with lastSlot := some 1 }
    let i : Fin 2 := 1
    s.running = true ∧ s.get F.PCR_STAT.BOOTSTEP = 2 ∧ s.wvl.verify = none ∧ s.wvl.load = none ∧ s.wvl.wait = false ∧ s.life ≠ 0 ∧ s.wvl.lastSlot = some i := by decide +kernel
theorem wit3BootRunsFromVerificationToCompletion :
    let s : State := ((up.set F.PCR_STAT.BOOTSTEP 2).set F.TRU_STAT.LIFE 1).set F.CHIP_STRAP.BOOT_EFF 1
    s.running = true ∧ s.get F.PCR_STAT.BOOTSTEP = 2 ∧ s.wvl.verify = none ∧ s.wvl.load = none ∧ s.wvl.wait = false ∧ s.life ≠ 0 ∧ s.wvl.lastSlot = none ∧ s.get F.CHIP_STRAP.BOOT_EFF ≠ 0 := by decide +kernel
theorem wit4BootRunsFromVerificationToCompletion :
    let s : State := ((((up.set F.PCR_STAT.BOOTSTEP 2).set F.TRU_STAT.LIFE 1).setNvBytes 0 imMagic).setNvBytes 524288 imMagic).setNvBytes (524288 + 16) [9]
    s.running = true ∧ s.get F.PCR_STAT.BOOTSTEP = 2 ∧ s.wvl.verify = none ∧ s.wvl.load = none ∧ s.wvl.wait = false ∧ s.life ≠ 0 ∧ s.get F.CHIP_STRAP.BOOT_EFF = 0 ∧ s.wvl.lastSlot = none ∧ s.slotValid 0 = true ∧ s.slotValid 1 = true := by decide +kernel
theorem wit5BootRunsFromVerificationToCompletion :
    let s : State := (up.set F.PCR_STAT.BOOTSTEP 2).set F.TRU_STAT.LIFE 1
    s.running = true ∧ s.get F.PCR_STAT.BOOTSTEP = 2 ∧ s.wvl.verify = none ∧ s.wvl.load = none ∧ s.wvl.wait = false ∧ s.life ≠ 0 ∧ s.get F.CHIP_STRAP.BOOT_EFF = 0 ∧ s.wvl.lastSlot = none ∧ s.slotValid 0 = false ∧ s.slotValid 1 = false := by decide +kernel
theorem wit6BootRunsFromVerificationToCompletion :
    let s : State := (up.set F.PCR_STAT.BOOTSTEP 2).updWvl fun w => { w with verify := some (.slot 0) }
    let src : ImgSrc := .slot 0
    s.islandUp .memory = true ∧ s.get F.PCR_STAT.BOOTSTEP ≠ 6 ∧ s.wvl.verify = some src := by decide +kernel
theorem wit7BootRunsFromVerificationToCompletion :
    let s : State := { (up.set F.PCR_STAT.BOOTSTEP 3).updGal fun g => { g with step3 := some 0 } with fclk := 20000000 }
    let t0 : Nat := 0
    s.gal.step3 = some t0 ∧ s.running = true ∧ s.galMaster = false ∧ s.gal.seen = false ∧ t0 + 20000000 ≤ s.fclk ∧ s.get F.PCR_STAT.BOOTSTEP = 3 ∧ s.comes isEnumFrame = false := by decide +kernel
theorem wit8BootRunsFromVerificationToCompletion :
    let s : State := up.set F.PCR_STAT.BOOTSTEP 4
    s.running = true ∧ s.get F.PCR_STAT.BOOTSTEP = 4 := by decide +kernel

theorem wit1BlockResetsHoldAndResume :
    let s : State := (withImage up 0x10 0).set (F.IRT_SRC.COUNT 20) 3
    let b : Fin 16 := 0
    s.running = true ∧ s.blockUsed b = true ∧ bitOf (s.get F.PCR_BRSTAT) b = false := by decide +kernel
theorem wit2BlockResetsHoldAndResume :
    let s : State := up.set F.PCR_BRSTAT 2
    let b : Fin 16 := 1
    (s.blockUsed b = false ∨ bitOf (s.get F.PCR_BRSTAT) b = true) := by decide +kernel
theorem wit3BlockResetsHoldAndResume :
    let s : State := { (withImage up 0x10 0).updPcr fun p => { p with brst := [(0, 5000)] } with fclk := 6000 }
    let b : Fin 16 := 0
    let e : Nat × Nat := (0, 5000)
    let im : Image := oneSect 0x10 0
    s.running = true ∧ s.wvl.run = some im ∧ (s.pcr.brst.find? (fun e => e.1 = b.val) = some e) ∧ 3 * e.2 + s.holdThirds b ≤ 3 * s.fclk := by decide +kernel

theorem wit1WatchModeEntersCountsAndWakes :
    let s : State := up
    s.running = true ∧ s.watchBarred = false := by decide +kernel
theorem wit2WatchModeEntersCountsAndWakes :
    let s : State := up.set (F.STITCH_STATUS.STATE 3) 2
    s.running = true ∧ s.watchBarred = true := by decide +kernel
theorem wit3WatchModeEntersCountsAndWakes :
    let s : State := asleep
    s.pcr.watch = true ∧ s.pcr.held = none := by decide +kernel
theorem wit4WatchModeEntersCountsAndWakes :
    let s : State := asleep.set F.PCR_WAKE.PIN_EN 1
    s.pcr.watch = true ∧ s.bit F.PCR_WAKE.PIN_EN = true := by decide +kernel
theorem wit5WatchModeEntersCountsAndWakes :
    let s : State := (asleep.set F.PCR_WAKE.TMR_EN 1).set F.PCR_WTIMER 7
    s.pcr.watch = true ∧ s.bit F.PCR_WAKE.TMR_EN = true ∧ s.get F.PCR_WTIMER ≠ 0 ∧ s.get F.PCR_WTIMER ≤ s.pcr.watchTicks := by decide +kernel

theorem wit1TicksAndWrapsAreTaken :
    let s : State := { up with tb := 999999 }
    s.pending = [] ∧ s.islandUp .angle = true := by decide +kernel
theorem wit2TicksAndWrapsAreTaken :
    let s : State := State.reset
    s.pending = [] ∧ s.islandUp .angle = false := by decide +kernel
theorem wit3TicksAndWrapsAreTaken :
    let s : State := { up with mtDue := 1 }
    s.mtDue ≠ 0 ∧ s.running = true := by decide +kernel
theorem wit4TicksAndWrapsAreTaken :
    let s : State := { up.set F.GAL_STAT.MASTER 1 with wrapDue := true }
    s.wrapDue = true := by decide +kernel

theorem wit1ImageLoadsBeginFillAndEnd :
    let s : State := (up.set F.PCR_STAT.BOOTSTEP 6).set F.TRU_STAT.LIFE 1
    s.islandUp .memory = true ∧ s.wvl.load = none ∧ s.wvl.verify = none ∧ s.bit F.WVL_STAT.HOTPEND = false ∧ s.get F.PCR_STAT.BOOTSTEP = 6 ∧ (s.life = 1 ∨ s.life = 2) := by decide +kernel
theorem wit2ImageLoadsBeginFillAndEnd :
    let s : State := (up.set F.PCR_STAT.BOOTSTEP 6).set F.TRU_STAT.LIFE 3
    s.islandUp .memory = true ∧ s.wvl.load = none ∧ s.wvl.verify = none ∧ s.bit F.WVL_STAT.HOTPEND = false ∧ s.get F.PCR_STAT.BOOTSTEP = 6 ∧ (s.life = 0 ∨ s.life = 3) := by decide +kernel
theorem wit3ImageLoadsBeginFillAndEnd :
    let s : State := (up.set F.PCR_STAT.BOOTSTEP 7).updWvl fun w => { w with wait := true }
    s.islandUp .memory = true ∧ s.wvl.load = none ∧ s.wvl.verify = none ∧ s.bit F.WVL_STAT.HOTPEND = false ∧ s.get F.PCR_STAT.BOOTSTEP = 7 ∧ s.wvl.wait = true := by decide +kernel
theorem wit4ImageLoadsBeginFillAndEnd :
    let s : State := up.updWvl fun w => { w with load := some .host }
    s.islandUp .memory = true ∧ s.wvl.load = some .host ∧ 2 * s.get F.WVL_OFS < 524288 := by decide +kernel
theorem wit5ImageLoadsBeginFillAndEnd :
    let s : State := up.updWvl fun w => { w with load := some (.slot 1), hi := 30 }
    let i : Fin 2 := 1
    s.islandUp .memory = true ∧ s.wvl.load = some (.slot i) := by decide +kernel
theorem wit6ImageLoadsBeginFillAndEnd :
    let s : State := (up.updWvl fun w => { w with load := some .host }).setHallBytes (hall15 + 12) [4]
    s.islandUp .memory = true ∧ s.wvl.load = some .host ∧ s.hallErr = [] ∧ 2 * s.wvl.hi + 1 < leNat (s.hallBytes (hall15 + 12) 4) := by decide +kernel
theorem wit7ImageLoadsBeginFillAndEnd :
    let s : State := up.updWvl fun w => { w with load := some .gallery }
    let src : ImgSrc := .gallery
    s.islandUp .memory = true ∧ s.wvl.load = some src := by decide +kernel
theorem wit8ImageLoadsBeginFillAndEnd :
    let s : State := { up.updWvl fun w => { w with load := some .host } with fclk := 400000000 }
    let src : ImgSrc := .host
    s.islandUp .memory = true ∧ s.wvl.load = some src ∧ src ≠ .gallery ∧ s.wvl.loadT + 400000000 ≤ s.fclk ∧ s.comes isLoadData = false := by decide +kernel
theorem wit9ImageLoadsBeginFillAndEnd :
    let s : State := ((up.set F.PCR_STAT.BOOTSTEP 7).updWvl fun w => { w with wait := true }).updGal fun g => { g with rx := [imageFrame] }
    let r : RxFrame := imageFrame
    s.galUp = true ∧ s.imageWait = true ∧ s.islandUp .memory = true ∧ (s.rxFirst (fun r => r.f.kind = 13) = some r) ∧ leNat (slice r.f.payload 8 8) = 0 := by decide +kernel

theorem wit1StoredImagesAreVerifiedAndSwapped :
    let s : State := (up.set F.PCR_STAT.BOOTSTEP 6).updWvl fun w => { w with verify := some (.slot 0) }
    let i : Fin 2 := 0
    s.islandUp .memory = true ∧ s.get F.PCR_STAT.BOOTSTEP = 6 ∧ s.wvl.verify = some (.slot i) ∧ s.nvHas .wvl = false ∧ s.wvl.hdr = none := by decide +kernel
theorem wit2StoredImagesAreVerifiedAndSwapped :
    let s : State := (up.updWvl fun w => { w with hdr := some (oneSect 0x10 0, 1) }).updHal fun x => { x with running := some ⟨.wvl, [(slotPage 1, List.replicate 32 7)]⟩ }
    let im : Image := oneSect 0x10 0
    let i : Fin 2 := 1
    let bs : List Byte := List.replicate 32 7
    s.islandUp .memory = true ∧ s.hal.running = some ⟨.wvl, [(slotPage i, bs)]⟩ ∧ s.wvl.hdr = some (im, i) := by decide +kernel
theorem wit3StoredImagesAreVerifiedAndSwapped :
    let s : State := ((up.set F.PCR_STAT.BOOTSTEP 6).updWvl fun w => { w with verify := some (.slot 1) }).updHal fun x => { x with running := some ⟨.wvl, [(slotPage 1, List.replicate 32 7)]⟩ }
    let i : Fin 2 := 1
    let p : Nat := slotPage 1
    let bs : List Byte := List.replicate 32 7
    let rest : List (Nat × List Byte) := []
    s.islandUp .memory = true ∧ s.hal.running = some ⟨.wvl, (p, bs) :: rest⟩ ∧ s.wvl.load = none ∧ s.wvl.verify = some (.slot i) ∧ s.get F.PCR_STAT.BOOTSTEP = 6 := by decide +kernel
theorem wit4StoredImagesAreVerifiedAndSwapped :
    let s : State := up.set F.PCR_STAT.BOOTSTEP 6
    s.islandUp .memory = true ∧ s.get F.PCR_STAT.BOOTSTEP = 6 ∧ s.hotCause ≠ 0 := by decide +kernel
theorem wit5StoredImagesAreVerifiedAndSwapped :
    let s : State := swapReady
    let im : Image := swapImage
    let run : Image := (swapReady.wvl.run).getD swapImage
    let i : Fin 2 := 1
    s.islandUp .memory = true ∧ s.get F.PCR_STAT.BOOTSTEP = 6 ∧ s.hotCause = 0 ∧ s.wvl.cand = some (im, i) ∧ s.wvl.run = some run ∧ hotDiff run.sects im.sects ≠ [] := by decide +kernel
theorem wit6StoredImagesAreVerifiedAndSwapped :
    let s : State := swapReady.updWvl fun w => { w with hot := [(0x88, 0xFFFF, none)], hotTick := true }
    let typ : Nat := 0x88
    let tgt : Nat := 0xFFFF
    let x : Option Sect := none
    s.islandUp .memory = true ∧ (typ, tgt, x) ∈ s.wvl.hot ∧ s.hotPoint typ tgt = true := by decide +kernel

theorem wit1RegisterAccessesFollowTheirCodes :
    let s : State := up.set F.TRU_STAT.LIFE 2
    let src : Master := .host
    s.islandUp .angle = true ∧ src.governed = true ∧ s.suActs = [] := by decide +kernel
theorem wit2RegisterAccessesFollowTheirCodes :
    let s : State := (up.set F.IRT_STAT.SPUR 3)
    s.islandUp .memory = true ∧ s.markOf R.IRT_STAT = none := by decide +kernel
theorem wit3RegisterAccessesFollowTheirCodes :
    let s : State := State.reset
    let a : BitVec 16 := 0x2800
    s.regUp a.toNat = false ∧ s.suActs = [] := by decide +kernel
theorem wit4RegisterAccessesFollowTheirCodes :
    let s : State := up
    let a : BitVec 16 := 0x8000
    0x8000 ≤ a.toNat ∧ s.suActs = [] := by decide +kernel

theorem wit1TrackerRunResyncAndCounts :
    let s : State := inSync 1 2
    let n : Fin 4 := 1
    s.angleOk n = true ∧ s.edgeWaits n = false ∧ s.bit (F.STAIR_CTRL.RUN n) = true ∧ (s.trkState n = 1 ∨ s.trkState n = 2) := by decide +kernel
theorem wit2TrackerRunResyncAndCounts :
    let s : State := inSync 1 3
    let n : Fin 4 := 1
    s.angleOk n = true ∧ s.edgeWaits n = false ∧ s.bit (F.STAIR_CTRL.RUN n) = true ∧ s.trkState n = 3 := by decide +kernel
theorem wit3TrackerRunResyncAndCounts :
    let s : State := { up.set (F.STAIR_CFG.INTYPE 2) 1 with inp := vupd up.inp 4 fun _ => ⟨true, 0⟩ }
    let n : Fin 4 := 2
    let src : Master := .host
    s.angleOk n = true ∧ s.edgeWaits n = false ∧ bitOf (s.wlAllow src (R.STAIR_CTRL n) 1) 0 = true ∧ s.bit (F.STAIR_CTRL.RUN n) = false := by decide +kernel
theorem wit4TrackerRunResyncAndCounts :
    let s : State := inSync 1 2
    let n : Fin 4 := 1
    let src : Master := .host
    s.angleOk n = true ∧ s.edgeWaits n = false ∧ bitOf (s.wlAllow src (R.STAIR_CTRL n) 0) 0 = true ∧ s.bit (F.STAIR_CTRL.RUN n) = true ∧ (s.trkState n = 1 ∨ s.trkState n = 2) := by decide +kernel
theorem wit5TrackerRunResyncAndCounts :
    let s : State := up.set F.TRU_STAT.LIFE 2
    let n : Fin 4 := 3
    let src : Master := .host
    let run : Bool := true
    s.angleOk n = true ∧ s.edgeWaits n = false ∧ bitOf (s.wlAllow src (R.STAIR_CTRL n) (b2n run)) 0 = false ∧ s.wlBlocked src (R.STAIR_CTRL n) (s.reg (R.STAIR_CTRL n)).toNat (b2n run) = true := by decide +kernel
theorem wit6TrackerRunResyncAndCounts :
    let s : State := (up.set (F.STAIR_ERRCNT.NOISE 1) 5).set (F.STAIR_HSTAT.OVF 1) 2
    let n : Fin 4 := 1
    s.angleOk n = true := by decide +kernel
theorem wit7TrackerRunResyncAndCounts :
    let s : State := up.updTrk 1 fun t => { t with fifo := [⟨5, 6, false, true⟩, ⟨7, 7, false, false⟩] }
    let n : Fin 4 := 1
    s.angleOk n = true := by decide +kernel
theorem wit8TrackerRunResyncAndCounts :
    let s : State := up
    let n : Fin 4 := 1
    s.angleOk n = true ∧ s.bit (F.STAIR_GCTL.LEARN n) = false ∧ s.get (F.STAIR_CFG.ROLE n) ≠ 3 := by decide +kernel
theorem wit9TrackerRunResyncAndCounts :
    let s : State := up.updTrk 1 fun t => { t with geo0 := [(3, 77)] }
    let n : Fin 4 := 1
    s.angleOk n = true ∧ s.get (F.STAIR_CFG.ROLE n) ≠ 3 := by decide +kernel
theorem wit10TrackerRunResyncAndCounts :
    let s : State := up
    let n : Fin 4 := 1
    s.angleOk n = true ∧ s.bit (F.STAIR_ISTAT.GBUSY n) = false ∧ s.get (F.STAIR_CFG.ROLE n) ≠ 3 ∧ s.nvHas (.trk n) = false := by decide +kernel
theorem wit11TrackerRunResyncAndCounts :
    let s : State := up.updHal fun x => { x with ended := [(.trk 1, true)] }
    let n : Fin 4 := 1
    let e : NvWho × Bool := (.trk 1, true)
    (s.hal.ended.find? (fun e => e.1 = .trk n) = some e) := by decide +kernel

theorem wit1TrackerEdgesAndWindows :
    let s : State := inSync 0 0
    let n : Fin 4 := 0
    let inp : Fin 12 := 4
    let age : Nat := s.accDelay 0
    let vpk : BitVec 10 := 0
    s.inputOf n = inp.val ∧ s.inputPass n true age vpk = true ∧ (s.getTrk n).acts = [] ∧ s.angleOk n = true ∧ s.trkOn n = true ∧ (s.getTrk n).pin = false ∧ s.bit (F.STAIR_STAT.ARMED n) = false := by decide +kernel
theorem wit2TrackerEdgesAndWindows :
    let s : State := (inSync 0 0).set (F.STAIR_STAT.ARMED 0) 1
    let n : Fin 4 := 0
    let inp : Fin 12 := 4
    let age : Nat := s.accDelay 0
    let vpk : BitVec 10 := 0
    s.inputOf n = inp.val ∧ s.inputPass n true age vpk = true ∧ (s.getTrk n).acts = [] ∧ s.angleOk n = true ∧ s.trkOn n = true ∧ s.get (F.STAIR_CFG.ROLE n) = 1 ∧ s.activeLevel n = true ∧ s.dirMode n = 0 ∧ (s.getTrk n).pin = false ∧ s.bit (F.STAIR_STAT.ARMED n) = true ∧ s.trkState n = 0 ∧ (s.getTrk n).last = none := by decide +kernel
theorem wit3TrackerEdgesAndWindows :
    let s : State := (tracking 0).updTrk 0 fun t => { t with last := some 96000 }
    let n : Fin 4 := 0
    let inp : Fin 12 := 4
    let age : Nat := s.accDelay 0
    let vpk : BitVec 10 := 0
    s.inputOf n = inp.val ∧ s.inputPass n true age vpk = true ∧ (s.getTrk n).acts = [] ∧ s.angleOk n = true ∧ s.trkOn n = true ∧ s.get (F.STAIR_CFG.ROLE n) = 1 ∧ s.activeLevel n = true ∧ s.dirMode n = 0 ∧ (s.getTrk n).pin = false ∧ s.bit (F.STAIR_STAT.ARMED n) = true ∧ s.trkState n = 2 ∧ s.bit (F.STAIR_TTA.LANDING n (s.get (F.STAIR_STAT.TIDX n))) = false ∧ (s.getTrk n).noise + 1 ≤ s.get (F.STAIR_CFG2.NOISELIM n) ∧ 20 * ((s.fclk - age) - (s.getTrk n).last.getD 0) < s.wmin n (s.get (F.STAIR_STAT.TIDX n)) * s.tpred n := by decide +kernel
theorem wit4TrackerEdgesAndWindows :
    let s : State := tracking 0
    let n : Fin 4 := 0
    let inp : Fin 12 := 4
    let age : Nat := s.accDelay 0
    let vpk : BitVec 10 := 0
    s.inputOf n = inp.val ∧ s.inputPass n true age vpk = true ∧ (s.getTrk n).acts = [] ∧ s.angleOk n = true ∧ s.trkOn n = true ∧ s.get (F.STAIR_CFG.ROLE n) = 1 ∧ s.activeLevel n = true ∧ s.dirMode n = 0 ∧ (s.getTrk n).pin = false ∧ s.bit (F.STAIR_STAT.ARMED n) = true ∧ s.trkState n = 2 ∧ s.wmin n (s.get (F.STAIR_STAT.TIDX n)) * s.tpred n ≤ 20 * ((s.fclk - age) - (s.getTrk n).last.getD 0) ∧ 20 * ((s.fclk - age) - (s.getTrk n).last.getD 0) ≤ s.wmax n (s.get (F.STAIR_STAT.TIDX n)) * s.tpred n := by decide +kernel
theorem wit5TrackerEdgesAndWindows :
    let s : State := (tracking 0).updTrk 0 fun t => { t with last := some 1000 }
    let n : Fin 4 := 0
    s.angleOk n = true ∧ (s.trkState n = 1 ∨ s.trkState n = 2) ∧ s.get (F.STAIR_CFG.ROLE n) = 1 ∧ (s.getTrk n).win = .expected ∧ s.wmax n (s.get (F.STAIR_STAT.TIDX n)) * s.tpred n < 20 * s.sinceLast n := by decide +kernel
theorem wit6TrackerEdgesAndWindows :
    let s : State := (tracking 0).updTrk 0 fun t => { t with last := some 1000, win := .two }
    let n : Fin 4 := 0
    s.angleOk n = true ∧ (s.trkState n = 1 ∨ s.trkState n = 2) ∧ s.get (F.STAIR_CFG.ROLE n) = 1 ∧ (s.getTrk n).win = .two ∧ s.wmax n ((s.get (F.STAIR_STAT.TIDX n) + 1) % s.nTeeth n) * (s.getTrk n).tpred2 < 20 * s.sinceLast n := by decide +kernel
theorem wit7TrackerEdgesAndWindows :
    let s : State := { (tracking 0) with fclk := 1000000000 }
    let n : Fin 4 := 0
    let d : Nat := (s.stallAt n).getD 0
    s.angleOk n = true ∧ s.edgeWaits n = false ∧ s.bit (F.STAIR_CTRL.RUN n) = true ∧ s.stallAt n = some d ∧ d + s.accDelay n ≤ s.fclk := by decide +kernel
theorem wit8TrackerEdgesAndWindows :
    let s : State := (((tracking 0).set (F.STAIR_CFG.INTYPE 0) 0).set (F.STAIR_VR.VRFLOOR 0) 20).updTrk 0 fun t => { t with varm := 30, accT := 80000 }
    let n : Fin 4 := 0
    s.angleOk n = true ∧ s.bit (F.STAIR_CFG.INTYPE n) = false ∧ s.get (F.STAIR_CFG.ROLE n) = 1 ∧ (s.trkState n = 1 ∨ s.trkState n = 2) ∧ (s.getTrk n).pin = false ∧ (s.getTrk n).vdrop = false ∧ s.tpred n ≤ s.fclk - (s.getTrk n).accT := by decide +kernel
theorem wit9TrackerEdgesAndWindows :
    let s : State := (((tracking 0).set (F.STAIR_CFG.DIRMODE 0) 1).set (F.STAIR_FILT.DIRW 0) 60).updTrk 0 fun t => { t with pin := true, pulse := some 70000 }
    let n : Fin 4 := 0
    let b : Nat := 70000
    s.angleOk n = true ∧ s.trkOn n = true ∧ s.dirMode n = 1 ∧ s.bit (F.STAIR_STAT.ARMED n) = true ∧ (s.getTrk n).pin = s.activeLevel n ∧ s.trkState n = 2 ∧ (s.getTrk n).pulse = some b ∧ 400 * s.get (F.STAIR_FILT.DIRW n) < s.stampNow n - b := by decide +kernel

theorem wit1TreadsAndBeacons :
    let s : State := { (tracking 0) with fclk := 91504 }
    let n : Fin 4 := 0
    s.angleOk n = true ∧ s.edgeWaits n = false ∧ s.trkState n = 2 ∧ (s.getTrk n).stepT ≠ s.fclk ∧ (s.getTrk n).catchC = none ∧ subMod (s.word n) (s.getTrk n).base (s.wordMod n) < s.treadsDue n := by decide +kernel
theorem wit2TreadsAndBeacons :
    let s : State := ({ (tracking 0) with fclk := 101504 }).set (F.STAIR_ANGLE 0) 1023
    let n : Fin 4 := 0
    s.angleOk n = true ∧ s.edgeWaits n = false ∧ s.trkState n = 2 ∧ (s.getTrk n).stepT ≠ s.fclk ∧ (s.getTrk n).catchC = none ∧ subMod (s.word n) (s.getTrk n).base (s.wordMod n) = s.treadCap n ∧ ((if s.get (F.STAIR_CFG.ROLE n) = 3 then 2 else 1) * s.tpred n ≤ s.elapsed n) := by decide +kernel
theorem wit3TreadsAndBeacons :
    let s : State := remoteTrk
    let n : Fin 4 := 2
    let b : Beacon := ⟨3, 1, 64, 50000, 2, 1024, 900⟩
    s.angleOk n = true ∧ (s.getTrk n).acts = [] ∧ s.bit (F.STAIR_CTRL.RUN n) = true ∧ s.get (F.STAIR_CFG.ROLE n) = 3 ∧ s.trkState n = 0 ∧ (s.getTrk n).beacons = 0 ∧ (s.bcnIn.find? (fun e => e.1 = n.val && e.2.bay = s.get (F.STAIR_RCFG.SRCBAY n) && e.2.trk = s.get (F.STAIR_RCFG.SRCTRK n)) = some (n.val, b)) ∧ s.tb.toNat - b.tb ≤ s.get (F.STAIR_RCFG.BLATMAX n) * 200 ∧ b.len = s.cycLen n ∧ (b.st = 1 ∨ b.st = 2) := by decide +kernel
theorem wit4TreadsAndBeacons :
    let s : State := { remoteTrk with tb := 900000 }
    let n : Fin 4 := 2
    let b : Beacon := ⟨3, 1, 64, 50000, 2, 1024, 900⟩
    s.angleOk n = true ∧ (s.getTrk n).acts = [] ∧ s.bit (F.STAIR_CTRL.RUN n) = true ∧ s.get (F.STAIR_CFG.ROLE n) = 3 ∧ (s.bcnIn.find? (fun e => e.1 = n.val && e.2.bay = s.get (F.STAIR_RCFG.SRCBAY n) && e.2.trk = s.get (F.STAIR_RCFG.SRCTRK n)) = some (n.val, b)) ∧ s.get (F.STAIR_RCFG.BLATMAX n) * 200 < s.tb.toNat - b.tb ∧ s.get (F.IRT_SRC.COUNT (26 + 16 * n.val)) ≠ 15 ∧ LostItem.irq (26 + 16 * n.val) ∉ s.por.lost := by decide +kernel

theorem wit1StitchesArmRunAndEnd :
    let s : State := waiting
    let n : Fin 128 := 9
    let trk : Nat := 0
    s.angleOk 4 = true ∧ s.suReady 6 = true ∧ s.suT ≠ some s.fclk ∧ n.val / 8 = s.suPos ∧ s.bit (F.SU_ALLOC.EN n) = true ∧ s.get (F.SU_ALLOC.TRK n) = trk ∧ s.trkState trk = 2 ∧ s.get (F.STITCH_STATUS.STATE n) = 1 ∧ (s.getSt n).accScan = true ∧ subMod (s.stClamped n trk).1 (s.getTrk trk).base (s.cycLen trk) < s.armReach trk (s.get (F.STAIR_STAT.TIDX trk)) (s.activeSet n).armLead ∧ lateWindow (s.cycLen trk) (s.activeSet n).guard ≤ subMod (s.word trk) (s.stClamped n trk).1 (s.cycLen trk) := by decide +kernel
theorem wit2StitchesArmRunAndEnd :
    let s : State := pulsing
    let n : Fin 128 := 9
    s.angleOk 4 = true ∧ s.get (F.STITCH_STATUS.STATE n) = 3 ∧ (s.getSt n).endT ≤ s.fclk := by decide +kernel
theorem wit3StitchesArmRunAndEnd :
    let s : State := waiting
    let n : Fin 128 := 9
    s.angleOk 4 = true ∧ s.suReady 5 = true ∧ s.suActs = [] ∧ s.bit (F.STITCH_STATUS.PEND n) = false ∧ (s.getSt n).hoT ≠ some s.fclk := by decide +kernel
theorem wit4StitchesArmRunAndEnd :
    let s : State := waiting.updSt 9 fun t => { t with hoT := some 91010 }
    let n : Fin 128 := 9
    s.angleOk 4 = true ∧ s.suReady 5 = true ∧ s.suActs = [] ∧ s.bit (F.STITCH_STATUS.PEND n) = false ∧ (s.getSt n).hoT = some s.fclk := by decide +kernel
theorem wit5StitchesArmRunAndEnd :
    let s : State := waiting.set (F.STITCH_STATUS.PEND 9) 1
    let n : Fin 128 := 9
    s.suReady 5 = true ∧ s.suActs = [] ∧ s.bit (F.STITCH_STATUS.PEND n) = true := by decide +kernel
theorem wit6StitchesArmRunAndEnd :
    let s : State := pulsing
    let n : Fin 128 := 9
    s.angleOk 4 = true ∧ s.suReady 4 = true ∧ s.suActs = [] ∧ (s.get (F.STITCH_STATUS.STATE n) = 2 ∨ s.get (F.STITCH_STATUS.STATE n) = 3) := by decide +kernel
theorem wit7StitchesArmRunAndEnd :
    let s : State := waiting
    let n : Fin 128 := 9
    s.angleOk 4 = true ∧ s.suReady 4 = true ∧ s.suActs = [] ∧ s.bit (F.SU_ALLOC.EN n) = true ∧ (s.getSt n).rcpW = none := by decide +kernel
theorem wit8StitchesArmRunAndEnd :
    let s : State := up
    let n : Fin 128 := 9
    s.suReady 4 = true ∧ s.suActs = [] ∧ s.bit (F.SU_ALLOC.EN n) = false := by decide +kernel
theorem wit9StitchesArmRunAndEnd :
    let s : State := { waiting with suPath := [.commit 9] }
    let n : Fin 128 := 9
    let rest : List SuItem := []
    s.angleOk 4 = true ∧ s.suReady 5 = true ∧ s.suActs = [] ∧ s.suPath = .commit n.val :: rest := by decide +kernel
theorem wit10StitchesArmRunAndEnd :
    let s : State := { waiting with suPath := [.write 9 2 77] }
    let n : Fin 128 := 9
    let w : Fin 6 := 2
    let v : Nat := 77
    let rest : List SuItem := []
    s.angleOk 4 = true ∧ s.suReady 4 = true ∧ s.suActs = [] ∧ s.bit (F.SU_ALLOC.EN n) = true ∧ s.suPath = .write n.val w.val v :: rest := by decide +kernel

theorem wit1InjectorWindowsOpenAndClose :
    let s : State := slotUp
    let k : Fin 128 := 51
    s.angleOk 5 = true ∧ s.slotLine k = true ∧ s.slotSeen k = false ∧ s.requestOk (k / 8) = true ∧ s.bit (F.INJ_BSTAT.BUSY (k / 32)) = false ∧ s.bit (F.INJ_BSTAT.DRAIN (k / 32)) = false ∧ (s.getBank (k / 32)).oc = false := by decide +kernel
theorem wit2InjectorWindowsOpenAndClose :
    let s : State := (slotUp.set (F.INJ_BSTAT.BUSY 1) 1)
    let k : Fin 128 := 51
    s.angleOk 5 = true ∧ s.slotLine k = true ∧ s.slotSeen k = false ∧ s.requestOk (k / 8) = true ∧ s.bit (F.INJ_BSTAT.BUSY (k / 32)) = true := by decide +kernel
theorem wit3InjectorWindowsOpenAndClose :
    let s : State := slotUp.set (F.INJ_STAT.DIS 6) 1
    let k : Fin 128 := 51
    s.angleOk 5 = true ∧ s.slotLine k = true ∧ s.slotSeen k = false ∧ s.requestOk (k / 8) = false := by decide +kernel
theorem wit4InjectorWindowsOpenAndClose :
    let s : State := { windowOpen with fclk := 9500 }
    let k : Fin 128 := 51
    s.angleOk 5 = true ∧ s.slotLine k = false ∧ s.slotSeen k = true ∧ s.slotRefused k = false ∧ s.bit (F.INJ_BSTAT.BUSY (k / 32)) = true ∧ s.condInj (k / 32) = k / 8 ∧ s.get (F.INJ_BSTAT.CONDSLOT (k / 32)) = k % 8 := by decide +kernel
theorem wit5InjectorWindowsOpenAndClose :
    let s : State := windowOpen.set (F.INJ_BSTAT.DRAIN 1) 1
    let b : Fin 4 := 1
    s.angleOk 5 = true ∧ s.bit (F.INJ_BSTAT.DRAIN b) = true ∧ (s.getBank b).offT + max 1 (40 * s.get (F.INJ_BCFG.BGAP b)) ≤ s.fclk := by decide +kernel
theorem wit6InjectorWindowsOpenAndClose :
    let s : State := windowOpen
    let b : Fin 4 := 1
    s.angleOk 5 = true ∧ s.bit (F.INJ_BSTAT.BUSY b) = true ∧ (s.getBank b).openT + 100 * s.get (F.INJ_BTIM b) ≤ s.fclk := by decide +kernel
theorem wit7InjectorWindowsOpenAndClose :
    let s : State := windowOpen.set (F.CMP_OUT 0) 0x80
    let b : Fin 4 := 1
    s.angleOk 5 = true ∧ s.bit (F.INJ_BCFG.EN b) = true ∧ s.bit (F.INJ_BSTAT.BUSY b) = true ∧ (s.getBank b).ndlOff = false ∧ bitOf (s.get (F.CMP_OUT 0)) (4 * b + 3) = true := by decide +kernel
theorem wit8InjectorWindowsOpenAndClose :
    let s : State := { windowOpen with fclk := 1000000 }
    let b : Fin 4 := 1
    s.angleOk 5 = true ∧ s.bit (F.INJ_BSTAT.BUSY b) = true ∧ (s.getBank b).limitDone = false ∧ (s.getBank b).rise = none ∧ (s.getBank b).ndlOff = false ∧ s.peakComes b = false ∧ (s.getBank b).openT + 200 * s.get (F.INJ_BDIAG.TPKMAX b) ≤ s.fclk := by decide +kernel
theorem wit9InjectorWindowsOpenAndClose :
    let s : State := ((windowOpen.updBank 1 fun k => { k with eoi := some (6, 4000), eoiLvl := true }).set (F.INJ_EOIF 6) 0xFFFFF).set (F.INJ_BEOI 1) 10
    let b : Fin 4 := 1
    let n : Fin 16 := 6
    let t0 : Nat := 4000
    s.angleOk 5 = true ∧ (s.getBank b).eoi = some (n.val, t0) ∧ (s.getBank b).eoiLvl = true ∧ bitOf (s.get (F.CMP_OUT ((16 + 2 * b) / 20))) ((16 + 2 * b) % 20) = false ∧ s.fclk ≤ t0 + 400 * s.get (F.INJ_BEOI b) ∧ s.get (F.INJ_EOIF n) = 0xFFFFF := by decide +kernel
theorem wit10InjectorWindowsOpenAndClose :
    let s : State := windowOpen.updBank 1 fun k => { k with eoi := some (6, 3000) }
    let b : Fin 4 := 1
    let n : Nat := 6
    let t0 : Nat := 3000
    s.angleOk 5 = true ∧ (s.getBank b).eoi = some (n, t0) ∧ t0 + 400 * s.get (F.INJ_BEOI b) ≤ s.fclk := by decide +kernel
theorem wit11InjectorWindowsOpenAndClose :
    let s : State := up.set (F.INJ_STAT.DIS 6) 1
    s.angleOk 5 = true := by decide +kernel

theorem wit1ReadbacksAndCrossingChecks :
    let s : State := { up with pins := ⟨up.padCodes, []⟩ }
    let pin : Fin 24 := 5
    let pad : Bool := true
    s.angleOk 5 = true ∧ s.padDiffers pin pad = true := by decide +kernel
theorem wit2ReadbacksAndCrossingChecks :
    let s : State := let s := (withImage up 0x10 0).set (F.EO_CFG.SAFE 7) 1; { s with pins := ⟨s.padCodes, []⟩ }
    let pin : Fin 24 := 7
    let pad : Bool := !((withImage up 0x10 0).set (F.EO_CFG.SAFE 7) 1).padCodes.getD 31 0 == 2
    s.islandUp .angle = true ∧ s.padDiffers (24 + pin) pad = true := by decide +kernel
theorem wit3ReadbacksAndCrossingChecks :
    let s : State := up.standOn 28 5
    s.islandUp .angle = true := by decide +kernel
theorem wit4ReadbacksAndCrossingChecks :
    let s : State := { up with suPath := [.commit 3, .commit 4] }
    let dest : Island := .angle
    s.islandUp dest = true := by decide +kernel

theorem wit1VariablesRequestsAndRunEnds :
    let s : State := up.updCht fun x => { x with qmap := [(4, ⟨1, 0, 0, 0, 0⟩)] }
    let q : Fin 64 := 4
    s.islandUp .memory = true ∧ s.blockFree 10 = true ∧ (s.qent q).kind = 1 ∧ s.cht.ageT ≠ s.fclk := by decide +kernel
theorem wit2VariablesRequestsAndRunEnds :
    let s : State := (up.updCht fun x => { x with qmap := [(4, ⟨1, 0, 0, 3, 99⟩)] }).set (F.CHT_QVS.AGECNT 4) 3
    let q : Fin 64 := 4
    s.islandUp .memory = true ∧ s.blockFree 10 = true ∧ s.waiting = [] ∧ 1 ≤ (s.qent q).kind ∧ (s.qent q).kind ≤ 7 ∧ (s.qent q).age ≠ 0 ∧ (s.qent q).age ≤ s.get (F.CHT_QVS.AGECNT q) ∧ s.bit (F.CHT_QVS.STALE q) = false := by decide +kernel
theorem wit3VariablesRequestsAndRunEnds :
    let s : State := (up.updCht fun x => { x with inbound := [⟨3, 1, 0⟩] }).set F.CHT_CTRL.EN 1
    let r : PlanReq := ⟨3, 1, 0⟩
    let rest : List PlanReq := []
    s.islandUp .memory = true ∧ s.blockFree 10 = true ∧ s.bit F.CHT_CTRL.EN = true ∧ s.cht.inbound = r :: rest ∧ s.cht.queue.length < 16 := by decide +kernel
theorem wit4VariablesRequestsAndRunEnds :
    let s : State := (up.updCht fun x => { x with inbound := [⟨3, 1, 2⟩], queue := List.replicate 16 ⟨0, 0, 0⟩ }).set F.CHT_CTRL.EN 1
    let r : Fin 64 := 3
    let cyl : Nat := 1
    let trk : Nat := 2
    let rest : List PlanReq := []
    s.islandUp .memory = true ∧ s.blockFree 10 = true ∧ s.bit F.CHT_CTRL.EN = true ∧ s.cht.inbound = ⟨r.val, cyl, trk⟩ :: rest ∧ 16 ≤ s.cht.queue.length := by decide +kernel
theorem wit5VariablesRequestsAndRunEnds :
    let s : State := charted.updCht fun x => { x with queue := [⟨6, 2, 0⟩] }
    let r : PlanReq := ⟨6, 2, 0⟩
    let rest : List PlanReq := []
    let i : Fin 4 := 0
    s.chtUp = true ∧ s.cht.queue = r :: rest ∧ ((List.range 4).find? (fun i => (s.ctx i).isNone) = some i.val) := by decide +kernel
theorem wit6VariablesRequestsAndRunEnds :
    let s : State := running 0
    let i : Fin 4 := 1
    let c : Ctx := (s.ctx 1).getD ⟨0, 0, 0, [], [], [], 0, 0, none⟩
    let w : Nat := 0
    let r : Recipe := (s.recipe 6).getD ⟨0, false, [], []⟩
    s.atStep i 0 1 = some (c, w, r) ∧ c.rcp < 64 := by decide +kernel
theorem wit7VariablesRequestsAndRunEnds :
    let s : State := { running 0 with fclk := 400000 }
    let i : Fin 4 := 1
    let c : Ctx := (s.ctx 1).getD ⟨0, 0, 0, [], [], [], 0, 0, none⟩
    s.ctx i = some c ∧ c.rcp < 64 ∧ s.chtUp = true ∧ s.runLimit c ≤ 3 * s.fclk ∧ (s.comes (fun x => x = .recipeEndStep i) = false) := by decide +kernel
theorem wit8VariablesRequestsAndRunEnds :
    let s : State := charted
    s.chtUp = true ∧ s.cht.test = none := by decide +kernel
theorem wit9VariablesRequestsAndRunEnds :
    let s : State := charted.updCht fun x => { x with test := some (3, ⟨List.replicate 64 50, 11000, some 11000⟩) }
    s.chtUp = true ∧ s.cht.test ≠ none := by decide +kernel
theorem wit10VariablesRequestsAndRunEnds :
    let s : State := charted.updCht fun x => { x with test := some (3, ⟨List.replicate 64 50, 11000, some 11000⟩) }
    let c : Nat := 3
    let a : Nat := 11000
    let l : LowLook := ⟨List.replicate 64 50, 11000, some 11000⟩
    let p : ChartPos := ⟨2, 64, 24⟩
    s.chtUp = true ∧ s.cht.test = some (c, l) ∧ l.acc = some a ∧ s.lookFirst = none ∧ s.lowFirst = none ∧ s.chartAt c = some p ∧ a + s.lookCost c l.snap ≤ 3 * s.fclk ∧ ((s.readWords .chart p.base (chartEval (s.chartWord p) (fun i => l.snap.getD i 0)).read).2 = true) := by decide +kernel
theorem wit11VariablesRequestsAndRunEnds :
    let s : State := up.updCht fun x => { x with test := some (9, ⟨List.replicate 64 50, 11000, none⟩) }
    let c : Nat := 9
    let l : LowLook := ⟨List.replicate 64 50, 11000, none⟩
    s.chtUp = true ∧ s.cht.test = some (c, l) ∧ s.chartAt c = none ∧ l.reqT + 4 ≤ 3 * s.fclk := by decide +kernel

theorem wit1RecipeStepsCompute :
    let s : State := running (1 + 2 * 16 + 1024 + 262143 * 16384)
    let i : Fin 4 := 1
    let c : Ctx := (s.ctx 1).getD ⟨0, 0, 0, [], [], [], 0, 0, none⟩
    let w : Nat := (1 + 2 * 16 + 1024 + 262143 * 16384)
    let r : Recipe := (s.recipe 6).getD ⟨0, false, [], []⟩
    s.atStep i 1 2 = some (c, w, r) := by decide +kernel
theorem wit2RecipeStepsCompute :
    let s : State := running (3 + 2 * 16 + 5 * 128 + 1 * 2048 + 16384)
    let i : Fin 4 := 1
    let c : Ctx := (s.ctx 1).getD ⟨0, 0, 0, [], [], [], 0, 0, none⟩
    let w : Nat := (3 + 2 * 16 + 5 * 128 + 1 * 2048 + 16384)
    let r : Recipe := (s.recipe 6).getD ⟨0, false, [], []⟩
    s.atStep i 3 2 = some (c, w, r) := by decide +kernel
theorem wit3RecipeStepsCompute :
    let s : State := running (4 + 2 * 16 + 5 * 128 + 1 * 2048 + 16384)
    let i : Fin 4 := 1
    let c : Ctx := (s.ctx 1).getD ⟨0, 0, 0, [], [], [], 0, 0, none⟩
    let w : Nat := (4 + 2 * 16 + 5 * 128 + 1 * 2048 + 16384)
    let r : Recipe := (s.recipe 6).getD ⟨0, false, [], []⟩
    s.atStep i 4 3 = some (c, w, r) := by decide +kernel
theorem wit4RecipeStepsCompute :
    let s : State := running (5 + 2 * 16 + 5 * 128 + 1 * 2048)
    let i : Fin 4 := 1
    let c : Ctx := (s.ctx 1).getD ⟨0, 0, 0, [], [], [], 0, 0, none⟩
    let w : Nat := (5 + 2 * 16 + 5 * 128 + 1 * 2048)
    let r : Recipe := (s.recipe 6).getD ⟨0, false, [], []⟩
    s.atStep i 5 2 = some (c, w, r) := by decide +kernel
theorem wit5RecipeStepsCompute :
    let s : State := running (6 + 2 * 16 + 5 * 128 + 1 * 2048 + 16384 * 2)
    let i : Fin 4 := 1
    let c : Ctx := (s.ctx 1).getD ⟨0, 0, 0, [], [], [], 0, 0, none⟩
    let w : Nat := (6 + 2 * 16 + 5 * 128 + 1 * 2048 + 16384 * 2)
    let r : Recipe := (s.recipe 6).getD ⟨0, false, [], []⟩
    s.atStep i 6 2 = some (c, w, r) := by decide +kernel
theorem wit6RecipeStepsCompute :
    let s : State := running (2 + 2 * 16 + 16384 * 3)
    let i : Fin 4 := 1
    let c : Ctx := (s.ctx 1).getD ⟨0, 0, 0, [], [], [], 0, 0, none⟩
    let w : Nat := (2 + 2 * 16 + 16384 * 3)
    let r : Recipe := (s.recipe 6).getD ⟨0, false, [], []⟩
    let p : ChartPos := ⟨2, 64, 24⟩
    s.atStep i 2 60 = some (c, w, r) ∧ s.chartAt (stIdx w c.cyl) = some p ∧ s.get (F.CHT_CHART.NDIM (stIdx w c.cyl)) ≠ 3 ∧ c.acc = none ∧ s.lowFirst = none ∧ (∀ j, j < 4 → j ≠ i.val → s.lookWaits j = none) ∧ s.cht.unitT ≤ c.beg ∧ (c.beg + 4 * (60 + 2 * (chartEval (s.chartWord p) (fun k => c.snap.getD k 0)).esc) ≤ 3 * s.fclk) ∧ (c.beg + 4 * (60 + 2 * (chartEval (s.chartWord p) (fun k => c.snap.getD k 0)).esc) ≤ s.runLimit c) ∧ ((s.readWords .chart p.base (chartEval (s.chartWord p) (fun k => c.snap.getD k 0)).read).2 = true) := by decide +kernel
theorem wit7RecipeStepsCompute :
    let s : State := (running (7 + 1 * 128 + 16384 * 9)).updCht fun x => { x with qmap := [(9, ⟨8, 0, 0, 0, 0⟩)] }
    let i : Fin 4 := 1
    let c : Ctx := (s.ctx 1).getD ⟨0, 0, 0, [], [], [], 0, 0, none⟩
    let w : Nat := (7 + 1 * 128 + 16384 * 9)
    let r : Recipe := (s.recipe 6).getD ⟨0, false, [], []⟩
    s.atStep i 7 2 = some (c, w, r) ∧ (s.qent (stImm w % 64)).kind = 8 := by decide +kernel
theorem wit8RecipeStepsCompute :
    let s : State := running (8 + 1 * 128 + 16384 * 9)
    let i : Fin 4 := 1
    let c : Ctx := (s.ctx 1).getD ⟨0, 0, 0, [], [], [], 0, 0, none⟩
    let w : Nat := (8 + 1 * 128 + 16384 * 9)
    let r : Recipe := (s.recipe 6).getD ⟨0, false, [], []⟩
    s.atStep i 8 2 = some (c, w, r) := by decide +kernel
theorem wit9RecipeStepsCompute :
    let s : State := running (9 + 1 * 128 + 16384 * 9)
    let i : Fin 4 := 1
    let c : Ctx := (s.ctx 1).getD ⟨0, 0, 0, [], [], [], 0, 0, none⟩
    let w : Nat := (9 + 1 * 128 + 16384 * 9)
    let r : Recipe := (s.recipe 6).getD ⟨0, false, [], []⟩
    s.atStep i 9 2 = some (c, w, r) := by decide +kernel

theorem wit1GaugeSegmentsCodersAndOutputs :
    let s : State := (up.set F.GAU_CFG.EN 1).updGau fun g => { g with inbound := [.record gaugeRec], seg := some (1, 50) }
    let r : GauRec := gaugeRec
    let rest : List GauItem := []
    let c : Fin 16 := 1
    let x : Nat := 50
    s.islandUp .memory = true ∧ s.blockFree 11 = true ∧ s.gau.inbound = .record r :: rest ∧ s.bit F.GAU_CFG.EN = true ∧ r.trk = s.get F.GAU_CFG.TRK ∧ r.cyc = true ∧ r.first = false ∧ s.bit (F.GAU_HCFG.HEN r.trk) = false ∧ s.gau.seg = some (c.val, x) ∧ s.gau.lastPos = none ∧ r.pos ≠ s.segEnd c ∧ (∀ k, k < s.nSeg → s.get (F.GAU_SEG k) ≠ r.pos) := by decide +kernel
theorem wit2GaugeSegmentsCodersAndOutputs :
    let s : State := (((up.set F.GAU_CFG.EN 1).set (F.STAIR_LEN 0) 99).set (F.GAU_SLEN 1) 7).updGau fun g => { g with inbound := [.record gaugeRec], seg := some (1, 50), prevT := [1000, 700] }
    let r : GauRec := gaugeRec
    let rest : List GauItem := []
    let c : Fin 16 := 1
    let x : Nat := 50
    let t1 : Nat := 1000
    let t2 : Nat := 700
    s.islandUp .memory = true ∧ s.blockFree 11 = true ∧ s.gau.inbound = .record r :: rest ∧ s.bit F.GAU_CFG.EN = true ∧ r.trk = s.get F.GAU_CFG.TRK ∧ r.cyc = true ∧ r.first = false ∧ s.gau.seg = some (c.val, x) ∧ s.gau.segBad = false ∧ r.pos = s.segEnd c ∧ ((s.gau.lastPos.all fun q => (List.range s.nSeg).all fun k => !between (s.positions r.trk) q r.pos (s.get (F.GAU_SEG k))) = true) ∧ x + r.rec_.per < 2 ^ 30 ∧ x + r.rec_.per ≠ 0 ∧ s.gau.prevT = [t1, t2] := by decide +kernel
theorem wit3GaugeSegmentsCodersAndOutputs :
    let s : State := (up.set (F.GAU_HCFG.HEN 0) 1).updGau fun g => { g with inbound := [.record gaugeRec] }
    let r : GauRec := gaugeRec
    let rest : List GauItem := []
    let n : Fin 4 := 0
    s.islandUp .memory = true ∧ s.blockFree 11 = true ∧ s.gau.inbound = .record r :: rest ∧ s.bit F.GAU_CFG.EN = false ∧ r.trk = n.val ∧ s.bit (F.GAU_HCFG.HEN n) = true ∧ (s.coder n).sync = true ∧ (s.coder n).buf.length + 15 ≤ 32 := by decide +kernel
theorem wit4GaugeSegmentsCodersAndOutputs :
    let s : State := ((up.set F.GAU_CFG.EN 1).set F.GAU_MFCFG.MFEN 1).updGau fun g => { g with inbound := [.zero 0], cycCand := 3 }
    let n : Nat := 0
    let rest : List GauItem := []
    s.islandUp .memory = true ∧ s.blockFree 11 = true ∧ s.gau.inbound = .zero n :: rest ∧ s.candNow = none ∧ s.bit F.GAU_CFG.EN = true ∧ n = s.get F.GAU_CFG.TRK ∧ s.bit F.GAU_MFCFG.MFEN = true := by decide +kernel
theorem wit5GaugeSegmentsCodersAndOutputs :
    let s : State := (charted.set F.GAU_MFCFG.MFCHART 3).updGau fun g => { g with lookup := some ⟨List.replicate 64 50, 11000, some 11000⟩ }
    let a : Nat := 11000
    let l : LowLook := ⟨List.replicate 64 50, 11000, some 11000⟩
    let p : ChartPos := ⟨2, 64, 24⟩
    s.gauUp = true ∧ s.chtUp = true ∧ s.gau.lookup = some l ∧ l.acc = some a ∧ s.lookFirst = none ∧ s.lowFirst = none ∧ s.chartAt (s.get F.GAU_MFCFG.MFCHART) = some p ∧ a + s.lookCost (s.get F.GAU_MFCFG.MFCHART) l.snap ≤ 3 * s.fclk ∧ ((s.readWords .chart p.base (chartEval (s.chartWord p) (fun i => l.snap.getD i 0)).read).2 = true) := by decide +kernel
theorem wit6GaugeSegmentsCodersAndOutputs :
    let s : State := waveform
    let a : Fin 2 := 1
    let h : Fin 15 := 4
    let o : Nat := 0
    s.gauUp = true ∧ s.bit (F.GAU_ACFG.REMOTE a) = false ∧ s.awoLive a = true ∧ s.bit (F.GAU_ACFG.INTERP a) = false ∧ s.awoStale a = true ∧ (∀ e ∈ s.wvl.hot, ¬ (e.1 = 0x59 ∧ e.2.1 = a.val)) ∧ vget s.gau.awoTab a none = some (h.val, o) ∧ o % 8 = 0 ∧ o + 2048 ≤ 524288 ∧ s.bit (F.HAL_OWN.PWR h) = true ∧ s.get (F.HAL_OWN.OWNER h) = 5 ∧ s.hallErr = [] := by decide +kernel
theorem wit7GaugeSegmentsCodersAndOutputs :
    let s : State := waveform.set (F.GAU_ACFG.INTERP 1) 1
    let a : Fin 2 := 1
    let h : Fin 15 := 4
    let o : Nat := 0
    s.gauUp = true ∧ s.bit (F.GAU_ACFG.REMOTE a) = false ∧ s.awoLive a = true ∧ s.bit (F.GAU_ACFG.INTERP a) = true ∧ 256 ≤ 3 * (s.fclk - vget s.gau.awoT a 0) ∧ vget s.gau.awoTab a none = some (h.val, o) ∧ o % 8 = 0 ∧ o + 2048 ≤ 524288 ∧ s.bit (F.HAL_OWN.PWR h) = true ∧ s.get (F.HAL_OWN.OWNER h) = 5 ∧ s.hallErr = [] := by decide +kernel
theorem wit8GaugeSegmentsCodersAndOutputs :
    let s : State := ((up.set (F.GAU_ACFG.AEN 0) 1).set (F.GAU_ACFG.REMOTE 0) 1).updGau fun g => { g with rx := [(0, 77)] }
    let sl : Fin 8 := 0
    let y : Nat := 77
    let rest : List (Nat × Nat) := []
    s.islandUp .memory = true ∧ s.blockFree 11 = true ∧ s.gau.rx = (sl.val, y) :: rest := by decide +kernel
theorem wit9GaugeSegmentsCodersAndOutputs :
    let s : State := { up.set (F.GAU_SRX.FRESH 2) 1 with fclk := 1000000000 }
    let sl : Fin 8 := 2
    s.gauUp = true ∧ s.bit (F.GAU_SRX.FRESH sl) = true ∧ vget s.gau.srxT sl 0 + 4000 * max 1 (s.get F.GAU_SRXTO) ≤ s.fclk ∧ (s.gau.rx.head?.map (·.1) = some sl.val → s.comes (fun c => c = .streamReceive) = false) := by decide +kernel
theorem wit10GaugeSegmentsCodersAndOutputs :
    let s : State := (up.set (F.GAU_APER 1) 1000).set (F.GAU_AIDLE 1) 0x4000
    let a : Fin 2 := 1
    s.islandUp .angle = true ∧ s.awoPer a ≠ 0 ∧ vget s.gau.phase a 0 + s.awoPer a ≤ s.fclk := by decide +kernel

theorem wit1NeedleInstructionsRun :
    let s : State := needle (wd 1 (77 * 16 + 3))
    let m : Fin 16 := 5
    s.ndlReady m (· = 1) = true ∧ s.ndlWord m / 16384 % 4 = 0 := by decide +kernel
theorem wit2NeedleInstructionsRun :
    let s : State := needle (wd 1 (3 * 16384 + 77 * 16))
    let m : Fin 16 := 5
    s.ndlReady m (· = 1) = true ∧ s.ndlWord m / 16384 % 4 = 3 := by decide +kernel
theorem wit3NeedleInstructionsRun :
    let s : State := needle (wd 2 (1 * 8192 + 1 * 1024 + 2 * 16))
    let m : Fin 16 := 5
    s.ndlReady m (· = 2) = true ∧ s.ndlWord m / 8192 % 8 = 1 := by decide +kernel
theorem wit4NeedleInstructionsRun :
    let s : State := needle (wd 2 (0 * 8192 + 1 * 1024 + 2 * 16))
    let m : Fin 16 := 5
    s.ndlReady m (· = 2) = true ∧ s.ndlWord m / 8192 % 8 = 0 := by decide +kernel
theorem wit5NeedleInstructionsRun :
    let s : State := needle (wd 2 (6 * 8192 + 1 * 1024 + 2 * 16))
    let m : Fin 16 := 5
    s.ndlReady m (· = 2) = true ∧ s.ndlWord m / 8192 % 8 = 6 := by decide +kernel
theorem wit6NeedleInstructionsRun :
    let s : State := needle (wd 3 (9 * 16))
    let m : Fin 16 := 5
    s.ndlReady m (· = 3) = true ∧ s.ndlWord m / 8192 % 8 = 0 := by decide +kernel
theorem wit7NeedleInstructionsRun :
    let s : State := needle (wd 3 (3 * 8192 + 9 * 16))
    let m : Fin 16 := 5
    s.ndlReady m (· = 3) = true ∧ s.ndlWord m / 8192 % 8 = 3 := by decide +kernel
theorem wit8NeedleInstructionsRun :
    let s : State := needle (wd 4 (3 * 8192 + 2 * 16))
    let m : Fin 16 := 5
    s.ndlReady m (· = 4) = true ∧ s.ndlWord m / 8192 % 4 = 3 := by decide +kernel
theorem wit9NeedleInstructionsRun :
    let s : State := needle (wd 5 (1 * 8192 + 4 * 16))
    let m : Fin 16 := 5
    s.ndlReady m (· = 5) = true := by decide +kernel
theorem wit10NeedleInstructionsRun :
    let s : State := (needle (wd 6 (1 * 4096 + 4 * 16))).set (F.BED_NCFG.OUTDIR 5) 1
    let m : Fin 16 := 5
    s.ndlReady m (· = 6) = true ∧ bitOf (s.ndlWord m) 15 = false ∧ s.ndlWord m / 4096 % 8 = 1 ∧ s.bit (F.BED_NCFG.OUTDIR m) = true := by decide +kernel
theorem wit11NeedleInstructionsRun :
    let s : State := needle (wd 6 (32768 + 5 * 16))
    let m : Fin 16 := 5
    s.ndlReady m (· = 6) = true ∧ bitOf (s.ndlWord m) 15 = true ∧ bitOf (s.ndlWord m) 14 = false := by decide +kernel
theorem wit12NeedleInstructionsRun :
    let s : State := needle (wd 7 (0))
    let m : Fin 16 := 5
    s.ndlReady m (· = 7) = true ∧ (s.getNdl m).rx.length < s.rxSize m := by decide +kernel
theorem wit13NeedleInstructionsRun :
    let s : State := (needle (wd 7 32768)).updNdl 5 fun n => { n with rx := [1, 2, 3, 4] }
    let m : Fin 16 := 5
    s.ndlReady m (· = 7) = true ∧ s.rxSize m ≤ (s.getNdl m).rx.length ∧ bitOf (s.ndlWord m) 15 = true := by decide +kernel
theorem wit14NeedleInstructionsRun :
    let s : State := (needle (wd 8 0)).updNdl 5 fun n => { n with tx := [7, 9] }
    let m : Fin 16 := 5
    let x : Nat := 7
    let rest : List Nat := [9]
    s.ndlReady m (· = 8) = true ∧ (s.getNdl m).tx = x :: rest := by decide +kernel
theorem wit15NeedleInstructionsRun :
    let s : State := needle (wd 8 (32768))
    let m : Fin 16 := 5
    s.ndlReady m (· = 8) = true ∧ (s.getNdl m).tx = [] ∧ bitOf (s.ndlWord m) 15 = true := by decide +kernel
theorem wit16NeedleInstructionsRun :
    let s : State := needle (wd 9 (16384 + 7 * 16))
    let m : Fin 16 := 5
    s.ndlReady m (· = 9) = true ∧ s.ndlWord m / 16384 % 4 = 1 := by decide +kernel
theorem wit17NeedleInstructionsRun :
    let s : State := needle (wd 9 (7 * 16))
    let m : Fin 16 := 5
    s.ndlReady m (· = 9) = true ∧ s.ndlWord m / 16384 % 4 = 0 := by decide +kernel
theorem wit18NeedleInstructionsRun :
    let s : State := needle (wd 12 (0))
    let m : Fin 16 := 5
    (s.ndlReady m (fun o => o = 0 || decide (10 ≤ o)) = true) := by decide +kernel

theorem wit1NeedlesStartStopAndServeQueues :
    let s : State := up.set (F.BED_NPC 5) 9
    let m : Fin 16 := 5
    let src : Master := .host
    s.bedOk (m / 4) = true ∧ s.ndlMay m src = true ∧ s.get (F.BED_NSTAT.STATE m) = 0 := by decide +kernel
theorem wit2NeedlesStartStopAndServeQueues :
    let s : State := (up.set (F.BED_NCFG.PROT 5) 1)
    let m : Fin 16 := 5
    let src : Master := .host
    s.ndlMay m src = false := by decide +kernel
theorem wit3NeedlesStartStopAndServeQueues :
    let s : State := needle 0
    let m : Fin 16 := 5
    let src : Master := .host
    s.bedOk (m / 4) = true ∧ s.ndlMay m src = true ∧ s.get (F.BED_NSTAT.STATE m) ≠ 0 := by decide +kernel
theorem wit4NeedlesStartStopAndServeQueues :
    let s : State := up
    s.islandUp .needle = true := by decide +kernel
theorem wit5NeedlesStartStopAndServeQueues :
    let s : State := up
    let m : Fin 16 := 5
    s.bedOk (m / 4) = true ∧ s.get (F.BED_NSTAT.STATE m) = 0 := by decide +kernel
theorem wit6NeedlesStartStopAndServeQueues :
    let s : State := needle 0
    let m : Fin 16 := 5
    s.get (F.BED_NSTAT.STATE m) ≠ 0 := by decide +kernel
theorem wit7NeedlesStartStopAndServeQueues :
    let s : State := up
    let m : Fin 16 := 5
    s.bedOk (m / 4) = true := by decide +kernel
theorem wit8NeedlesStartStopAndServeQueues :
    let s : State := up.updNdl 5 fun n => { n with rx := [4, 6] }
    let m : Fin 16 := 5
    let x : Nat := 4
    let rest : List Nat := [6]
    s.bedOk (m / 4) = true ∧ (s.getNdl m).rx = x :: rest := by decide +kernel
theorem wit9NeedlesStartStopAndServeQueues :
    let s : State := up
    let m : Fin 16 := 5
    s.bedOk (m / 4) = true ∧ (s.getNdl m).rx = [] := by decide +kernel
theorem wit10NeedlesStartStopAndServeQueues :
    let s : State := up
    let b : Fin 4 := 1
    s.bedOk b = true ∧ s.bedWasStopped b = true := by decide +kernel
theorem wit11NeedlesStartStopAndServeQueues :
    let s : State := needle 0
    let b : Fin 4 := 1
    s.bedOk b = true ∧ s.bedWasStopped b = false := by decide +kernel
theorem wit12NeedlesStartStopAndServeQueues :
    let s : State := up.set F.BED0_FLAGS 0xFF
    s.bedOk 0 = true ∧ (∀ n, n < 16 → s.flagNow n = none) := by decide +kernel
theorem wit13NeedlesStartStopAndServeQueues :
    let s : State := up.set F.BED0_FLAGS 0xFF
    s.bedOk 0 = true ∧ (∀ n, n < 16 → s.flagNow n = none) := by decide +kernel
theorem wit14NeedlesStartStopAndServeQueues :
    let s : State := { ((needle (wd 8 32768)).set (F.BED_NSTAT.STATE 5) 2).set (F.BED_NSTO 5) 3 with tick10 := 4 }
    let m : Fin 16 := 5
    s.bedOk (m / 4) = true ∧ s.get (F.BED_NSTAT.STATE m) = 2 ∧ s.get (F.BED_NSTO m) ≠ 0 ∧ (s.ndlWord m / 65536 ≠ 4 ∨ s.bit (F.BED_NCFG.WAITTO m) = true) ∧ s.get (F.BED_NSTO m) + 1 ≤ s.tick10 - (s.getNdl m).stallAt ∧ s.stallEnds m = false := by decide +kernel

theorem wit1WindowsFollowTheirInputs :
    let s : State := win9 1
    let k : Fin 24 := 18
    s.islandUp .management = true ∧ s.pcr.watch = false ∧ (s.getWin (k / 2)).eff = 1 := by decide +kernel
theorem wit2WindowsFollowTheirInputs :
    let s : State := (win9 2).updWin 9 fun x => { x with due := true }
    let w : Fin 12 := 9
    s.islandUp .management = true ∧ s.pcr.watch = false ∧ (s.getWin w).due = true ∧ (s.getWin w).eff = 2 ∧ (s.getWin w).sample = false := by decide +kernel
theorem wit3WindowsFollowTheirInputs :
    let s : State := (win9 0).set (F.CMP_WCFG.MODE 9) 2 |>.updWin 9 fun x => { x with due := true }
    let w : Fin 12 := 9
    s.islandUp .management = true ∧ s.pcr.watch = false ∧ (s.getWin w).due = true ∧ s.get (F.CMP_WCFG.MODE w) = 2 ∧ (s.getWin w).sample = false := by decide +kernel
theorem wit4WindowsFollowTheirInputs :
    let s : State := (win9 2).updWin 9 fun x => { x with sample := true }
    let w : Fin 12 := 9
    s.islandUp .management = true ∧ s.pcr.watch = false ∧ (s.getWin w).sample = true ∧ (s.getWin w).sampT + 800 ≤ s.fclk := by decide +kernel
theorem wit5WindowsFollowTheirInputs :
    let s : State := (win9 0)
    let w : Fin 12 := 9
    let src : Master := .host
    let v : Word := 1
    s.islandUp .management = true ∧ s.merged src (R.CMP_WCFG w) (s.reg (R.CMP_WCFG w)).toNat v.toNat % 4 = 1 ∧ (s.getWin w).eff = 0 := by decide +kernel
theorem wit6WindowsFollowTheirInputs :
    let s : State := (win9 1)
    let w : Fin 12 := 9
    let src : Master := .host
    let v : Word := 2
    s.islandUp .management = true ∧ s.merged src (R.CMP_WCFG w) (s.reg (R.CMP_WCFG w)).toNat v.toNat % 4 = 2 := by decide +kernel
theorem wit7WindowsFollowTheirInputs :
    let s : State := up
    let k : Fin 24 := 17
    s.islandUp .management = true ∧ 16 ≤ k.val ∧ (k.val % 2 = 1 ∨ s.bit (F.CMP_WCFG.EOI (k / 2)) = false) := by decide +kernel
theorem wit8WindowsFollowTheirInputs :
    let s : State := up.set (F.CMP_CFG.SEL 3) 1
    let k : Fin 24 := 3
    s.islandUp .management = true ∧ k.val < 16 := by decide +kernel

theorem wit1LadderRotationTestsEveryUnit :
    let s : State := { up.set F.STC_STAT.WSPARE 1 with fclk := 1000000000 }
    let lvl : Bool := true
    let out : Bool := false
    s.running = true ∧ s.cmp.cut = false ∧ s.cmp.step = none ∧ s.bit F.STC_STAT.WSPARE = true ∧ s.cmp.stepT + s.wStep ≤ s.fclk ∧ out = (lvl && decide ((s.getWin (s.cmp.nextRole / 2)).eff ≠ 0)) := by decide +kernel
theorem wit2LadderRotationTestsEveryUnit :
    let s : State := ladder none (some 5000)
    let r : Fin 24 := 3
    let x : LadderStep := (s.cmp.step).getD ⟨0, none, false, none, false⟩
    s.running = true ∧ s.cmp.step = some x ∧ x.role = r.val ∧ x.freed = none ∧ s.ladderAgreed x = true := by decide +kernel
theorem wit3LadderRotationTestsEveryUnit :
    let s : State := (ladder none none).updWin 1 fun x => { x with eff := 1 }
    let r : Fin 24 := 3
    let x : LadderStep := (s.cmp.step).getD ⟨0, none, false, none, false⟩
    s.running = true ∧ s.cmp.step = some x ∧ x.role = r.val ∧ x.freed = none ∧ s.cmp.stepT + 400000 ≤ s.fclk ∧ s.ladderAgreed x = false := by decide +kernel
theorem wit4LadderRotationTestsEveryUnit :
    let s : State := ladder (some 7) none
    let r : Fin 24 := 3
    let u : Nat := 7
    let sp : Bool := false
    let sm : Bool := false
    let ag : Option Nat := none
    s.running = true ∧ s.cmp.cut = false ∧ s.cmp.step = some ⟨r.val, some u, sp, ag, sm⟩ ∧ s.cmp.freedT + 64000 ≤ s.fclk := by decide +kernel
theorem wit5LadderRotationTestsEveryUnit :
    let s : State := ladder (some 7) none
    let r : Fin 24 := 3
    let u : Nat := 7
    let sp : Bool := false
    let sm : Bool := false
    let ag : Option Nat := none
    s.running = true ∧ s.cmp.cut = false ∧ s.cmp.step = some ⟨r.val, some u, sp, ag, sm⟩ ∧ s.cmp.freedT + 64000 ≤ s.fclk := by decide +kernel

theorem wit1TimersCountCompareAndCapture :
    let s : State := ((up.set (F.TMR_CTRL.RUN 6) 1).set (F.TMR_RELOAD 6) 9).set (F.TMR_CMP0 6) 1
    let n : Fin 16 := 6
    s.islandUp .angle = true ∧ s.tmrActs = [] ∧ s.tmrRise n 1 = false ∧ s.tmrRise n 3 = false ∧ s.bit (F.TMR_CTRL.RUN n) = true ∧ s.linkOdd n = false ∧ (s.getTmr n).phase + 2 ^ s.get (F.TMR_CFG.PRE n) ≤ s.fclk ∧ s.pairGet n F.TMR_CNT < s.pairGet n F.TMR_RELOAD := by decide +kernel
theorem wit2TimersCountCompareAndCapture :
    let s : State := ((up.set (F.TMR_CTRL.RUN 6) 1).set (F.TMR_RELOAD 6) 9).set (F.TMR_CNT 6) 9
    let n : Fin 16 := 6
    s.islandUp .angle = true ∧ s.tmrActs = [] ∧ s.tmrRise n 1 = false ∧ s.tmrRise n 3 = false ∧ s.bit (F.TMR_CTRL.RUN n) = true ∧ s.linkOdd n = false ∧ (s.getTmr n).phase + 2 ^ s.get (F.TMR_CFG.PRE n) ≤ s.fclk ∧ s.pairGet n F.TMR_RELOAD ≤ s.pairGet n F.TMR_CNT := by decide +kernel
theorem wit3TimersCountCompareAndCapture :
    let s : State := lineTo 0
    let n : Fin 16 := 6
    s.tmrActs = [] ∧ s.tmrRise n 0 = true ∧ s.tmrRise n 1 = false ∧ s.bit (F.TMR_CTRL.RUN n) = false := by decide +kernel
theorem wit4TimersCountCompareAndCapture :
    let s : State := (lineTo 1).set (F.TMR_CTRL.RUN 6) 1
    let n : Fin 16 := 6
    s.tmrActs = [] ∧ s.tmrRise n 1 = true := by decide +kernel
theorem wit5TimersCountCompareAndCapture :
    let s : State := (lineTo 2).set (F.TMR_CNT 6) 77
    let n : Fin 16 := 6
    s.tmrActs = [] ∧ s.bit (F.TMR_CFG.CAPEDGE n) = false ∧ s.tmrRise n 2 = true ∧ (s.getTmr n).capT ≠ s.fclk ∧ (s.getTmr n).chT ≠ s.fclk := by decide +kernel
theorem wit6TimersCountCompareAndCapture :
    let s : State := (lineTo 3).set (F.TMR_CNT 6) 77
    let n : Fin 16 := 6
    s.tmrActs = [] ∧ s.tmrRise n 3 = true := by decide +kernel
theorem wit7TimersCountCompareAndCapture :
    let s : State := up
    s.islandUp .angle = true ∧ s.tmrWaits = false := by decide +kernel
theorem wit8TimersCountCompareAndCapture :
    let s : State := up.set (F.TMR_CNT 6) 5
    s.islandUp .angle = true ∧ s.tmrWaits = false := by decide +kernel
theorem wit9TimersCountCompareAndCapture :
    let s : State := up
    s.islandUp .angle = true ∧ s.tmrWaits = false := by decide +kernel
theorem wit10TimersCountCompareAndCapture :
    let s : State := up
    let n : Fin 16 := 6
    s.islandUp .angle = true ∧ s.tmrWaits = false ∧ s.linkEven n = false ∧ s.linkOdd n = false := by decide +kernel
theorem wit11TimersCountCompareAndCapture :
    let s : State := up.set (F.TMR_CFG.LINK 6) 1
    let n : Fin 16 := 6
    s.islandUp .angle = true ∧ s.tmrWaits = false ∧ s.linkEven n = true := by decide +kernel
theorem wit12TimersCountCompareAndCapture :
    let s : State := (up.set (F.TMR_CFG.LINK 6) 1).updTmr 6 fun t => { t with heldReload := some 5 }
    let n : Fin 16 := 7
    let lo : Nat := 5
    s.islandUp .angle = true ∧ s.tmrWaits = false ∧ s.linkOdd n = true ∧ (s.getTmr (n - 1)).heldReload = some lo := by decide +kernel
theorem wit13TimersCountCompareAndCapture :
    let s : State := up.set (F.TMR_CNT 6) 5
    let n : Fin 16 := 6
    s.islandUp .angle = true ∧ s.tmrWaits = false ∧ s.linkEven n = false ∧ s.linkOdd n = false := by decide +kernel
theorem wit14TimersCountCompareAndCapture :
    let s : State := up
    s.islandUp .angle = true ∧ s.tmrWaits = false := by decide +kernel
theorem wit15TimersCountCompareAndCapture :
    let s : State := up.set (F.TMR_CNT 6) 5
    let n : Fin 16 := 6
    s.islandUp .angle = true ∧ s.linkEven n = false ∧ s.linkOdd n = false := by decide +kernel
theorem wit16TimersCountCompareAndCapture :
    let s : State := (up.set (F.TMR_CFG.LINK 6) 1).set (F.TMR_CNT 7) 5
    let n : Fin 16 := 6
    s.islandUp .angle = true ∧ s.linkEven n = true := by decide +kernel
theorem wit17TimersCountCompareAndCapture :
    let s : State := (up.set (F.TMR_CFG.LINK 6) 1).updTmr 7 fun t => { t with latch := some 9 }
    let n : Fin 16 := 7
    let v : Nat := 9
    s.islandUp .angle = true ∧ s.linkOdd n = true ∧ (s.getTmr n).latch = some v := by decide +kernel
theorem wit18TimersCountCompareAndCapture :
    let s : State := { up.set F.TB_STAT.SYNC 1 with corr := 3 }
    s.islandUp .angle = true ∧ s.get F.TB_STAT.SYNC = 1 ∧ s.slewT + 1024 ≤ s.fclk + 1 ∧ 0 < s.corr := by decide +kernel
theorem wit19TimersCountCompareAndCapture :
    let s : State := { up.set F.TB_STAT.SYNC 1 with corr := -3 }
    s.islandUp .angle = true ∧ s.get F.TB_STAT.SYNC = 1 ∧ s.slewT + 1024 ≤ s.fclk + 1 ∧ s.corr < 0 := by decide +kernel

theorem wit1HallAccessesReadAndWrite :
    let s : State := hall3
    s.islandUp .memory = true := by decide +kernel
theorem wit2HallAccessesReadAndWrite :
    let s : State := { hall3 with fclk := 9001 }.updHal fun x => { x with reqs := [⟨.host, 0x180012, 4, some [1, 2, 3, 4], ⟨0, 0⟩, [], 5000, 0⟩] }
    let r : HallReq := ⟨.host, 0x180012, 4, some [1, 2, 3, 4], ⟨0, 0⟩, [], 5000, 0⟩
    let p : Nat := (s.reqPort r).getD 99
    let bs : List Byte := [1, 2, 3, 4]
    s.pending = [] ∧ s.islandUp .angle = true ∧ s.fclk % 4 ≠ 0 ∧ s.hal.reqs = [r] ∧ r.t ≤ s.mclk ∧ r.lost < s.holdLimit ∧ s.reqPort r = some p ∧ s.portHeld p s.mclk = false ∧ r.err = ⟨0, 0⟩ ∧ s.hallErr = [] ∧ r.data = [] ∧ r.addr % 8 + r.len ≤ 8 ∧ r.wr = some bs ∧ bs.length = r.len := by decide +kernel
theorem wit3HallAccessesReadAndWrite :
    let s : State := { hall3 with fclk := 9001 }.updHal fun x => { x with reqs := [⟨.host, 0x180012, 4, none, ⟨0, 0⟩, [], 5000, 0⟩] }
    let r : HallReq := ⟨.host, 0x180012, 4, none, ⟨0, 0⟩, [], 5000, 0⟩
    let p : Nat := (s.reqPort r).getD 99
    s.pending = [] ∧ s.islandUp .angle = true ∧ s.fclk % 4 ≠ 0 ∧ s.hal.reqs = [r] ∧ r.t ≤ s.mclk ∧ r.lost < s.holdLimit ∧ s.reqPort r = some p ∧ s.portHeld p s.mclk = false ∧ r.err = ⟨0, 0⟩ ∧ s.hallErr = [] ∧ r.data = [] ∧ r.addr % 8 + r.len ≤ 8 ∧ r.wr = none ∧ r.addr < 15 * 524288 := by decide +kernel
theorem wit4HallAccessesReadAndWrite :
    let s : State := { hall3 with fclk := 9001 }.updHal fun x => { x with reqs := [⟨.host, 0x280012, 4, some [1, 2, 3, 4], ⟨0, 0⟩, [], 5000, 0⟩] }
    let r : HallReq := ⟨.host, 0x280012, 4, some [1, 2, 3, 4], ⟨0, 0⟩, [], 5000, 0⟩
    s.pending = [] ∧ s.islandUp .angle = true ∧ s.fclk % 4 ≠ 0 ∧ s.hal.reqs = [r] ∧ r.t ≤ s.mclk ∧ r.data = [] ∧ s.reqPort r = none := by decide +kernel
theorem wit5HallAccessesReadAndWrite :
    let s : State := { hall3 with fclk := 9001 }.updHal fun x => { x with reqs := [⟨.host, 0x180012, 4, none, ⟨2, 0⟩, [], 5000, 0⟩] }
    let r : HallReq := ⟨.host, 0x180012, 4, none, ⟨2, 0⟩, [], 5000, 0⟩
    let p : Nat := (s.reqPort r).getD 99
    s.pending = [] ∧ s.islandUp .angle = true ∧ s.fclk % 4 ≠ 0 ∧ s.hal.reqs = [r] ∧ r.t ≤ s.mclk ∧ r.lost < s.holdLimit ∧ s.reqPort r = some p ∧ s.portHeld p s.mclk = false ∧ r.err = ⟨2, 0⟩ ∧ r.data = [] ∧ r.addr % 8 + r.len ≤ 8 ∧ (r.wr.isNone = true ∨ r.len < 8) ∧ s.cht.test = none ∧ s.hal.eccT = none := by decide +kernel
theorem wit6HallAccessesReadAndWrite :
    let s : State := { hall3.set (F.HAL_OWN.OWNER 3) 3 with fclk := 9001 }.updHal fun x => { x with reqs := [⟨.host, 0x180012, 4, none, ⟨0, 0⟩, [], 5000, 0⟩, ⟨.gallery, 0x180012, 4, none, ⟨0, 0⟩, [], 5000, 0⟩] }
    let a : HallReq := ⟨.host, 0x180012, 4, none, ⟨0, 0⟩, [], 5000, 0⟩
    let b : HallReq := ⟨.gallery, 0x180012, 4, none, ⟨0, 0⟩, [], 5000, 0⟩
    let p : Nat := (s.reqPort a).getD 99
    s.pending = [] ∧ s.islandUp .angle = true ∧ s.fclk % 4 ≠ 0 ∧ s.hal.reqs = [a, b] ∧ a.t ≤ s.mclk ∧ b.t ≤ s.mclk ∧ a.lost < s.holdLimit ∧ b.lost < s.holdLimit ∧ s.reqPort a = some p ∧ s.reqPort b = some p ∧ s.portHeld p s.mclk = false ∧ s.reqRank b < s.reqRank a ∧ b.err = ⟨0, 0⟩ ∧ s.hallErr = [] ∧ b.addr % 8 + b.len ≤ 8 := by decide +kernel
theorem wit7HallAccessesReadAndWrite :
    let s : State := { hall3 with fclk := 9001 }.updHal fun x => { x with reqs := [⟨.host, 0x180012, 4, none, ⟨0, 0⟩, [], 5000, 0⟩, ⟨.host, 0x180012, 4, none, ⟨0, 0⟩, [], 5000, 4000⟩] }
    let h : Fin 16 := 3
    let r : HallReq := ⟨.host, 0x180012, 4, none, ⟨0, 0⟩, [], 5000, 4000⟩
    let portB : Bool := decide (s.reqPort r = some 7)
    s.islandUp .memory = true ∧ (s.hal.reqs.find? (fun r => decide (s.holdLimit ≤ r.lost) && s.reqPort r = some (2 * h.val + b2n portB)) = some r) ∧ r.err = ⟨0, 0⟩ ∧ s.hallErr = [] ∧ r.data = [] ∧ r.addr % 8 + r.len ≤ 8 ∧ r.wr = none ∧ r.addr < 15 * 524288 := by decide +kernel
theorem wit8HallAccessesReadAndWrite :
    let s : State := { up with hallErr := [(7, .single)] }.updHal fun x => { x with scrubQ := [7, 9] }
    let w : Nat := 7
    let rest : List Nat := [9]
    s.islandUp .memory = true ∧ s.hal.scrubQ = w :: rest ∧ s.portFree (2 * (w / 65536) + 1) = true ∧ errGet s.hallErr w = some .single := by decide +kernel
theorem wit9HallAccessesReadAndWrite :
    let s : State := (hall3.set (F.HAL_OWN.LOCKOWN 3) 1)
    let h : Fin 16 := 3
    let src : Master := .host
    let v : Word := 2
    s.islandUp .memory = true ∧ s.bit (F.HAL_OWN.LOCKOWN h) = true ∧ s.wlAllow src (R.HAL_OWN h) v.toNat % 16 ≠ 0 := by decide +kernel
theorem wit10HallAccessesReadAndWrite :
    let s : State := hall3
    let h : Fin 16 := 3
    let src : Master := .host
    let v : Word := 2
    s.islandUp .memory = true ∧ s.bit (F.HAL_OWN.LOCKOWN h) = false ∧ s.wlAllow src (R.HAL_OWN h) v.toNat % 16 ≠ 0 ∧ h.val ≠ 15 ∧ s.merged src (R.HAL_OWN h) (s.reg (R.HAL_OWN h)).toNat v.toNat % 16 < 10 ∧ (s.runPlaces.any (fun p => p.2.1 / 524288 = h.val) = false) := by decide +kernel
theorem wit11HallAccessesReadAndWrite :
    let s : State := hall3.updHal fun x => { x with handover := [(3, 2)] }
    let h : Fin 16 := 3
    let o : Nat := 2
    s.islandUp .memory = true ∧ s.portHeld (2 * h.val) s.mclk = false ∧ (s.hal.handover.find? (fun e => e.1 = h.val) = some (h.val, o)) := by decide +kernel

theorem wit1NvsPagesAndTheFaultLog :
    let s : State := up.setNvBytes 0x105000 [9, 8, 7, 6]
    let a : BitVec 21 := 0x105000
    let sz : AccSize := .b4
    s.islandUp .memory = true ∧ s.nvWaits a.toNat (accBytes sz) = false ∧ s.nvsErr = [] ∧ 0x102000 ≤ a.toNat ∧ a.toNat + accBytes sz ≤ 2097152 := by decide +kernel
theorem wit2NvsPagesAndTheFaultLog :
    let s : State := nvWriting
    let a : BitVec 21 := BitVec.ofNat 21 (32 * 33500 + 30)
    let sz : AccSize := .b4
    s.nvWaits a.toNat (accBytes sz) = true := by decide +kernel
theorem wit3NvsPagesAndTheFaultLog :
    let s : State := up.set F.HAL_NVPAGE 33500
    s.islandUp .memory = true ∧ s.nvHas .host = false ∧ 33408 ≤ s.get F.HAL_NVPAGE ∧ s.get F.HAL_NVPAGE ≤ 33791 := by decide +kernel
theorem wit4NvsPagesAndTheFaultLog :
    let s : State := up.set F.HAL_NVPAGE 33500
    s.islandUp .memory = true ∧ s.nvHas .host = false ∧ 33408 ≤ s.get F.HAL_NVPAGE ∧ s.get F.HAL_NVPAGE ≤ 33791 := by decide +kernel
theorem wit5NvsPagesAndTheFaultLog :
    let s : State := up
    s.islandUp .memory = true ∧ s.nvHas .host = false ∧ (s.get F.HAL_NVPAGE < 33408 ∨ 33791 < s.get F.HAL_NVPAGE) := by decide +kernel
theorem wit6NvsPagesAndTheFaultLog :
    let s : State := nvWriting
    s.islandUp .memory = true ∧ s.nvHas .host = true := by decide +kernel
theorem wit7NvsPagesAndTheFaultLog :
    let s : State := up.updHal fun x => { x with waiting := [⟨.host, []⟩, ⟨.log, []⟩] }
    s.islandUp .memory = true ∧ s.hal.running = none ∧ s.hal.waiting ≠ [] := by decide +kernel
theorem wit8NvsPagesAndTheFaultLog :
    let s : State := nvWriting
    let p : Nat := 33500
    let bs : List Byte := List.replicate 32 7
    s.islandUp .memory = true ∧ s.hal.running = some ⟨.host, [(p, bs)]⟩ ∧ bs.length = 32 := by decide +kernel
theorem wit9NvsPagesAndTheFaultLog :
    let s : State := nvWriting
    let p : Nat := 33500
    let bs : List Byte := List.replicate 32 7
    s.islandUp .memory = true ∧ s.hal.running = some ⟨.host, [(p, bs)]⟩ := by decide +kernel
theorem wit10NvsPagesAndTheFaultLog :
    let s : State := up.updHal fun x => { x with logQ := [⟨1, false, ⟨5, 0, 0, 15, 0⟩, 1, false, 1, 63, 900, 0⟩], logDue := true }
    let r : LogRec := ⟨1, false, ⟨5, 0, 0, 15, 0⟩, 1, false, 1, 63, 900, 0⟩
    let rest : List LogRec := []
    s.islandUp .memory = true ∧ s.hal.logDue = true ∧ s.nvHas .log = false ∧ s.hal.logQ = r :: rest := by decide +kernel

theorem wit1HookChannelsRunDescriptors :
    let s : State := up
    let c : Fin 16 := 2
    s.hkUp = true ∧ s.hkSt c = 0 := by decide +kernel
theorem wit2HookChannelsRunDescriptors :
    let s : State := hooked []
    let c : Fin 16 := 2
    s.hkUp = true ∧ s.hkSt c ≠ 0 := by decide +kernel
theorem wit3HookChannelsRunDescriptors :
    let s : State := hooked []
    let c : Fin 16 := 2
    s.hkUp = true ∧ s.hkSt c ≠ 0 ∧ (s.getHk c).burst = [] := by decide +kernel
theorem wit4HookChannelsRunDescriptors :
    let s : State := bursting
    let c : Fin 16 := 2
    s.hkUp = true ∧ s.hkSt c ≠ 0 ∧ (s.getHk c).burst ≠ [] := by decide +kernel
theorem wit5HookChannelsRunDescriptors :
    let s : State := up.set (F.HK_STAT.REQCNT 2) 3
    let c : Fin 16 := 2
    s.hkUp = true ∧ s.hkPulsesNow c = 0 := by decide +kernel
theorem wit6HookChannelsRunDescriptors :
    let s : State := up
    let c : Fin 16 := 2
    s.hkUp = true ∧ s.hkSt c = 0 := by decide +kernel
theorem wit7HookChannelsRunDescriptors :
    let s : State := up
    let c : Fin 16 := 2
    s.hkUp = true ∧ s.hkSt c = 0 := by decide +kernel
theorem wit8HookChannelsRunDescriptors :
    let s : State := (hooked []).set (F.HK_STAT.STATE 2) 1
    let c : Fin 16 := 2
    s.hkUp = true ∧ s.hkSt c = 1 ∧ (s.getHk c).stopping = false ∧ s.hkPc c % 16 = 0 ∧ s.hkPc c + 16 ≤ 15 * 524288 ∧ s.hallErr = [] ∧ s.bit (F.HAL_OWN.PWR (s.hkPc c / 524288)) = true ∧ bitOf (leNat (s.hallBytes (s.hkPc c) 4)) 31 = false := by decide +kernel
theorem wit9HookChannelsRunDescriptors :
    let s : State := ((hooked []).set (F.HK_STAT.STATE 2) 1).setHallBytes 0x100000 [5, 0, 0, 128, 9]
    let c : Fin 16 := 2
    s.hkUp = true ∧ s.hkSt c = 1 ∧ (s.getHk c).stopping = false ∧ s.hkPc c % 16 = 0 ∧ s.hkPc c + 16 ≤ 15 * 524288 ∧ s.hallErr = [] ∧ s.bit (F.HAL_OWN.PWR (s.hkPc c / 524288)) = true ∧ bitOf (leNat (s.hallBytes (s.hkPc c) 4)) 31 = true ∧ leNat (s.hallBytes (s.hkPc c) 4) % 16 < 6 := by decide +kernel
theorem wit10HookChannelsRunDescriptors :
    let s : State := hooked [2 ^ 31 + 3, 0x100020, 5, 0]
    let c : Fin 16 := 2
    s.hkAt c 3 = true ∧ (s.getHk c).loopAt = none ∧ s.hkWord c 1 % 16 = 0 ∧ s.hkWord c 1 < 2 ^ 32 ∧ 2 ≤ s.hkWord c 2 % 65536 := by decide +kernel
theorem wit11HookChannelsRunDescriptors :
    let s : State := ((hooked [2 ^ 31 + 3, 0x100020, 5, 0]).set (F.HK_LCNT 2) 1).updHk 2 fun h => { h with loopAt := some 0x100000 }
    let c : Fin 16 := 2
    s.hkAt c 3 = true ∧ (s.getHk c).loopAt = some (s.hkPc c) ∧ s.hkWord c 1 % 16 = 0 ∧ s.hkWord c 2 % 65536 ≠ 0 ∧ s.get (F.HK_LCNT c) ≤ 1 := by decide +kernel
theorem wit12HookChannelsRunDescriptors :
    let s : State := ((((hooked [2 ^ 31 + 4, 7, 2, 0]).set (F.HK_STAT.STATE 2) 2).set (F.HK_STAT.REQCNT 2) 3).set (F.HK_CFG.PSRC 2) 7).updHk 2 fun h => { h with need := 2 }
    let c : Fin 16 := 2
    s.hkAt c 4 = true ∧ 1 ≤ s.hkWord c 1 % 256 ∧ s.hkWord c 1 % 256 ≤ 32 ∧ s.hkSt c = 2 ∧ s.get (F.HK_CFG.PSRC c) = s.hkWord c 1 % 256 ∧ (s.getHk c).need ≤ s.get (F.HK_STAT.REQCNT c) := by decide +kernel
theorem wit13HookChannelsRunDescriptors :
    let s : State := hooked [2 ^ 31 + 5, 7, 0, 0]
    let c : Fin 16 := 2
    s.hkAt c 5 = true := by decide +kernel
theorem wit14HookChannelsRunDescriptors :
    let s : State := { up.set (F.HK_CFG.PSRC 2) 7 with hook := { Hook.reset with pulses := [(7, 4)] } }
    let c : Fin 16 := 2
    let code : Nat := 7
    let mask : Nat := 4
    let rest : List (Nat × Nat) := []
    s.islandUp .memory = true ∧ s.blockFree 12 = true ∧ s.hook.pulses = (code, mask) :: rest ∧ bitOf mask c = true ∧ s.get (F.HK_CFG.PSRC c) = code ∧ s.hkSt c ≠ 2 ∧ ((s.getHk c).usedT.any s.thisMclk) = false := by decide +kernel
theorem wit15HookChannelsRunDescriptors :
    let s : State := ((up.set (F.HK_CFG.PSRC 2) 54).set (F.HK_CFG.PEDGE 2) 1).updNdl 0 fun n => { n with rx := [1] }
    let c : Fin 16 := 2
    s.islandUp .memory = true ∧ s.blockFree 12 = true ∧ levelCode (s.get (F.HK_CFG.PSRC c)) = true ∧ s.bit (F.HK_CFG.PEDGE c) = true ∧ s.hkLevel c (s.get (F.HK_CFG.PSRC c)) = true ∧ s.hkSt c ≠ 2 ∧ s.get (F.HK_STAT.REQCNT c) ≠ 15 ∧ (s.getHk c).lvl = false ∧ ((s.getHk c).usedT.any s.thisMclk) = false := by decide +kernel
theorem wit16HookChannelsRunDescriptors :
    let s : State := (hooked [2 ^ 31, 0, 0, 0]).set (F.HK_STAT.STATE 2) 4
    let c : Fin 16 := 2
    s.hkUp = true ∧ s.hkWbReady c = true ∧ s.hkPc c % 16 = 0 ∧ s.hkPc c + 16 ≤ 15 * 524288 ∧ s.hallErr = [] ∧ s.bit (F.HAL_OWN.PWR (s.hkPc c / 524288)) = true ∧ s.get (F.HAL_OWN.OWNER (s.hkPc c / 524288)) = 3 ∧ s.hkWord c 0 % 16 ≠ 5 ∧ (s.getHk c).mism = false ∧ (((s.getHk c).burst.all fun b => b.late) = true) := by decide +kernel

theorem wit1HookDataMovesInBursts :
    let s : State := hooked [2 ^ 31 + 2 ^ 9 + 2 ^ 10 + 0, 0x100040, 0x100083, 8]
    let c : Fin 16 := 2
    let w : List Nat := (s.getHk 2).desc.getD []
    s.hkAt c 0 = true ∧ (s.getHk c).desc = some w ∧ w.getD 3 0 / 2 ^ 25 % 4 ≤ 1 ∧ dLen w ≠ 0 ∧ alignBad w = none := by decide +kernel
theorem wit2HookDataMovesInBursts :
    let s : State := hooked [2 ^ 31 + 2 ^ 9 + 2 ^ 10 + 1, 0x100040, 0x100083, 8]
    let c : Fin 16 := 2
    let w : List Nat := (s.getHk 2).desc.getD []
    s.hkAt c 1 = true ∧ (s.getHk c).desc = some w ∧ w.getD 0 0 % 16 = 1 ∧ dLen w ≠ 0 ∧ alignBad w = none := by decide +kernel
theorem wit3HookDataMovesInBursts :
    let s : State := hooked [2 ^ 31 + 2 ^ 9 + 2 ^ 10 + 2, 0x100040, 0x100083, 8]
    let c : Fin 16 := 2
    let w : List Nat := (s.getHk 2).desc.getD []
    s.hkAt c 2 = true ∧ (s.getHk c).desc = some w ∧ w.getD 0 0 % 16 = 2 ∧ dLen w ≠ 0 ∧ alignBad w = none := by decide +kernel
theorem wit4HookDataMovesInBursts :
    let s : State := hooked [2 ^ 31, 0x100041, 0x100083, 8]
    let c : Fin 16 := 2
    let w : List Nat := (s.getHk 2).desc.getD []
    let a : Nat := 0x100041
    s.hkAt c 0 = true ∧ (s.getHk c).desc = some w ∧ w.getD 3 0 / 2 ^ 25 % 4 ≤ 1 ∧ dLen w ≠ 0 ∧ alignBad w = some a ∧ (s.getHk c).bad = none := by decide +kernel
theorem wit5HookDataMovesInBursts :
    let s : State := moving
    let c : Fin 16 := 2
    let w : List Nat := (s.getHk 2).desc.getD []
    s.hkUp = true ∧ s.hkArbiter = some c.val ∧ (s.getHk c).desc = some w ∧ dCoder w = false ∧ dDinc w = true ∧ dSinc w = true := by decide +kernel
theorem wit6HookDataMovesInBursts :
    let s : State := bursting
    let c : Fin 16 := 2
    let b : Burst := (s.getHk 2).burst.headD ⟨[], false, 0, 0, 0, 0, [], false, 0, 0, false⟩
    let rest : List Burst := []
    s.hkUp = true ∧ (s.getHk c).burst = b :: rest ∧ (s.getHk c).stopping = false ∧ b.read = false ∧ dOp b.words = 0 ∧ dCoder b.words = false ∧ dSinc b.words = true ∧ dDinc b.words = true ∧ b.len ≤ 64 ∧ s.hallErr = [] ∧ b.src / 524288 < 15 ∧ b.src % 524288 + b.len ≤ 524288 ∧ s.bit (F.HAL_OWN.PWR (b.src / 524288)) = true ∧ b.dst / 524288 < 15 ∧ b.dst % 524288 + b.len ≤ 524288 ∧ s.bit (F.HAL_OWN.PWR (b.dst / 524288)) = true ∧ s.get (F.HAL_OWN.OWNER (b.dst / 524288)) = 3 := by decide +kernel
theorem wit7HookDataMovesInBursts :
    let s : State := { bursting with fclk := 100000000 }
    let c : Fin 16 := 2
    let b : Burst := (s.getHk 2).burst.headD ⟨[], false, 0, 0, 0, 0, [], false, 0, 0, false⟩
    let rest : List Burst := []
    s.hkUp = true ∧ (s.comes (fun x => x = .burstComplete c) = false) ∧ (s.getHk c).burst = b :: rest ∧ b.late = false ∧ (s.getHk c).stopping = false ∧ (s.getHk c).bad = none ∧ b.t + 400 * max 1 (s.get F.HK_GCFG) ≤ s.fclk := by decide +kernel
theorem wit8HookDataMovesInBursts :
    let s : State := { bursting with fclk := 100000000 }
    let c : Fin 16 := 2
    let b : Burst := (s.getHk 2).burst.headD ⟨[], false, 0, 0, 0, 0, [], false, 0, 0, false⟩
    let rest : List Burst := []
    s.hkUp = true ∧ (s.comes (fun x => x = .burstComplete c) = false) ∧ (s.getHk c).burst = b :: rest ∧ b.t + 400 * max 1 (s.get F.HK_GCFG) ≤ s.fclk ∧ b.read = false ∧ dOp b.words = 0 ∧ dCoder b.words = false ∧ dSinc b.words = true ∧ dDinc b.words = true ∧ b.len ≤ 64 ∧ s.hallErr = [] ∧ b.src / 524288 < 15 ∧ b.src % 524288 + b.len ≤ 524288 ∧ s.bit (F.HAL_OWN.PWR (b.src / 524288)) = true ∧ b.dst / 524288 < 15 ∧ b.dst % 524288 + b.len ≤ 524288 ∧ s.bit (F.HAL_OWN.PWR (b.dst / 524288)) = true ∧ s.get (F.HAL_OWN.OWNER (b.dst / 524288)) = 3 := by decide +kernel
theorem wit9HookDataMovesInBursts :
    let s : State := { up.set (F.HK_USED 3) 7 with hook := { Hook.reset with due := true } }
    s.hkUp = true ∧ s.hook.due = true ∧ s.wvl.hotTick = false ∧ ((s.hook.issT.any fun e => s.thisMclk e.1) = false) := by decide +kernel
theorem wit10HookDataMovesInBursts :
    let s : State := up
    s.hkUp = true := by decide +kernel

theorem wit1RingLanesAndFrames :
    let s : State := ((up.set F.GAL_STAT.CABLEOK 1).set F.GAL_STAT.PRIMOK 1)
    s.galUp = true ∧ s.bit F.GAL_STAT.ACTIVE = false ∧ s.bit F.GAL_STAT.CABLEOK = true ∧ s.comes primaryGroup = false := by decide +kernel
theorem wit2RingLanesAndFrames :
    let s : State := { (up.set F.GAL_STAT.ACTIVE 1).set F.GAL_STAT.PRIMOK 1 with fclk := 500000 }
    s.galUp = true ∧ s.bit F.GAL_STAT.ACTIVE = true ∧ s.bit F.GAL_STAT.PRIMOK = true ∧ s.gal.primT + 400000 ≤ s.fclk := by decide +kernel
theorem wit3RingLanesAndFrames :
    let s : State := up
    s.galUp = true ∧ s.bit F.GAL_STAT.ISOL = false ∧ s.comes isValidGroup = false := by decide +kernel
theorem wit4RingLanesAndFrames :
    let s : State := up.set F.GAL_STAT.ISOL 1
    s.galUp = true ∧ s.bit F.GAL_STAT.ISOL = true := by decide +kernel
theorem wit5RingLanesAndFrames :
    let s : State := ringBay
    let rd : Bool := false
    let ws : List (BitVec 20) := (laned eventFrame).set 3 0
    s.galUp = true ∧ ((laneFrame rd ws).any frLenOk) = false := by decide +kernel
theorem wit6RingLanesAndFrames :
    let s : State := ringBay
    let rd : Bool := false
    let ws : List (BitVec 20) := laned { eventFrame with hops := 63 }
    let f : Frame := { eventFrame with hops := 63 }
    s.galUp = true ∧ laneFrame rd ws = some f ∧ frLenOk f = true ∧ 63 ≤ f.hops.toNat := by decide +kernel
theorem wit7RingLanesAndFrames :
    let s : State := ringBay
    let rd : Bool := false
    let k : List Byte := List.replicate 16 1
    let f : Frame := { eventFrame with tag := frTag eventFrame k }
    let ws : List (BitVec 20) := laned f
    s.galUp = true ∧ laneFrame rd ws = some f ∧ s.lanesFree = true ∧ frLenOk f = true ∧ f.hops.toNat < 63 ∧ f.kind = 12 ∧ f.dst = 63 ∧ s.member = true ∧ s.bay ≠ 0 ∧ f.src.toNat ≠ s.bay ∧ s.gal.sk = some k ∧ f.tag = frTag f k ∧ (s.gal.lastSeq.find? (fun e => e.1 = f.src.toNat) = none) := by decide +kernel
theorem wit8RingLanesAndFrames :
    let s : State := ringBay
    let rd : Bool := false
    let f : Frame := { eventFrame with tag := 5 }
    let k : List Byte := List.replicate 16 1
    let ws : List (BitVec 20) := laned f
    s.galUp = true ∧ laneFrame rd ws = some f ∧ s.lanesFree = true ∧ frLenOk f = true ∧ f.hops.toNat < 63 ∧ f.kind = 12 ∧ f.dst = 63 ∧ s.member = true ∧ s.bay ≠ 0 ∧ f.src.toNat ≠ s.bay ∧ s.gal.sk = some k ∧ f.tag ≠ frTag f k := by decide +kernel
theorem wit9RingLanesAndFrames :
    let s : State := ringBay.updGal fun g => { g with ev := vupd g.ev 4 fun _ => some (true, 900) }
    let i : Fin 16 := 4
    let l : Bool := true
    let tb : Nat := 900
    let k : List Byte := List.replicate 16 1
    s.galUp = true ∧ s.lanesFree = true ∧ s.gal.ctlQ = [] ∧ s.bay ≠ 0 ∧ s.maySend = true ∧ s.gal.sk = some k ∧ s.gal.syncQ = false ∧ s.bcnOut = [] ∧ ((List.range 16).find? (fun i => (vget s.gal.ev i none).isSome) = some i.val) ∧ vget s.gal.ev i none = some (l, tb) := by decide +kernel
theorem wit10RingLanesAndFrames :
    let s : State := withRx ringBay (taken 14 [0x5A, 0])
    let r : RxFrame := taken 14 [0x5A, 0]
    s.galUp = true ∧ (s.rxFirst (fun r => r.act && r.f.kind = 14) = some r) ∧ leAt r.f.payload 0 1 = 0x5A := by decide +kernel
theorem wit11RingLanesAndFrames :
    let s : State := withRx ringBay (taken 14 [0x5B, 0])
    let r : RxFrame := taken 14 [0x5B, 0]
    s.galUp = true ∧ (s.rxFirst (fun r => r.act && r.f.kind = 14) = some r) ∧ leAt r.f.payload 0 1 ≠ 0x5A := by decide +kernel
theorem wit12RingLanesAndFrames :
    let s : State := withRx ringBay (taken 12 [3, 1])
    let r : RxFrame := taken 12 [3, 1]
    s.galUp = true ∧ (s.rxFirst (fun r => r.act && r.f.kind = 12) = some r) := by decide +kernel
theorem wit13RingLanesAndFrames :
    let s : State := { ((ringBay.set (F.GAL_EVTDST.EN 4) 1).updSt 0 fun t => { t with startT := 3000, endT := 9000, lineNo := 7 }) with routes := [(1280 + 4, 7)] }
    let sl : Fin 16 := 4
    s.galUp = true ∧ s.routedHigh 5 sl ≠ bitOf s.gal.evLvl sl ∧ s.bit (F.GAL_EVTDST.EN sl) = true ∧ s.bay ≠ 0 := by decide +kernel
theorem wit14RingLanesAndFrames :
    let s : State := up.set F.GAL_ERRCNT.CODE 3
    s.galUp = true := by decide +kernel

theorem wit1RingEnumeratesItsBays :
    let s : State := withRx ringBay (taken 1 (enumPay 0 0 (List.replicate 16 3) (List.replicate 8 0) 0 0))
    let r : RxFrame := taken 1 (enumPay 0 0 (List.replicate 16 3) (List.replicate 8 0) 0 0)
    s.galUp = true ∧ s.galMaster = false ∧ s.gal.req = [] ∧ (s.rxFirst (fun r => !r.own && r.f.kind = 1 && (frSub r.f = 0 || (s.galMaster && r.act))) = some r) ∧ r.act = true ∧ s.gal.nm ≠ some (slice r.f.payload 2 16) := by decide +kernel
theorem wit2RingEnumeratesItsBays :
    let s : State := { ringBay with fclk := 100000 }.updGal fun g => { g with hold := some (eventFrame, 5) }
    let f : Frame := eventFrame
    let t0 : Nat := 5
    s.galUp = true ∧ s.gal.hold = some (f, t0) ∧ t0 + 6400 ≤ s.fclk ∧ s.galMaster = false ∧ s.bypassOpen = true ∧ s.gal.transit = [] ∧ s.gal.outT ≤ s.fclk := by decide +kernel
theorem wit3RingEnumeratesItsBays :
    let s : State := withRx (ringBay.set F.GAL_STAT.BAY 0) (taken 1 (enumPay 1 4 (List.replicate 16 3) (List.replicate 8 0) 0 0))
    let r : RxFrame := taken 1 (enumPay 1 4 (List.replicate 16 3) (List.replicate 8 0) 0 0)
    s.galUp = true ∧ (s.rxFirst (fun r => !r.own && r.f.kind = 1 && frSub r.f = 1) = some r) ∧ s.lanesFree = true ∧ r.act = true ∧ r.f.payload.length = 38 ∧ leAt r.f.payload 1 1 ≤ 62 := by decide +kernel
theorem wit4RingEnumeratesItsBays :
    let s : State := (withRx ringBay (taken 1 (enumPay 2 9 (List.replicate 16 3) (List.replicate 8 0) 0 0))).set F.PCR_STAT.BOOTSTEP 3
    let r : RxFrame := taken 1 (enumPay 2 9 (List.replicate 16 3) (List.replicate 8 0) 0 0)
    s.galUp = true ∧ (s.rxFirst (fun r => !r.own && r.f.kind = 1 && frSub r.f = 2) = some r) ∧ s.lanesFree = true ∧ r.act = true ∧ s.bay ≠ 0 := by decide +kernel
theorem wit5RingEnumeratesItsBays :
    let s : State := withRx (ringBay.set F.GAL_STAT.BAY 0) (taken 2 (joinPay 0 0 (List.replicate 16 3) (List.replicate 8 0)))
    let r : RxFrame := taken 2 (joinPay 0 0 (List.replicate 16 3) (List.replicate 8 0))
    s.galUp = true ∧ (s.rxFirst (fun r => !r.own && r.f.kind = 2 && frSub r.f = 0) = some r) ∧ s.lanesFree = true ∧ r.act = true ∧ s.bay = 0 ∧ leAt r.f.payload 18 8 = 0 ∧ r.f.payload.length = 27 := by decide +kernel
theorem wit6RingEnumeratesItsBays :
    let s : State := withRx (ringBay.set F.GAL_STAT.BAY 0) (taken 2 (joinPay 1 8 (List.replicate 16 3) (List.replicate 8 0)))
    let r : RxFrame := taken 2 (joinPay 1 8 (List.replicate 16 3) (List.replicate 8 0))
    s.galUp = true ∧ (s.rxFirst (fun r => !r.own && r.f.kind = 2 && frSub r.f = 1) = some r) ∧ s.lanesFree = true ∧ r.act = true ∧ s.bay = 0 ∧ slice r.f.payload 18 8 = s.idBytes ∧ leAt r.f.payload 1 1 < 64 := by decide +kernel
theorem wit7RingEnumeratesItsBays :
    let s : State := (ringMaster none).updGal fun g => { g with ticks := 1000 }
    s.enumMay = true ∧ s.gal.step3.isSome = true ∧ s.gal.pass = none ∧ s.gal.complete = false ∧ s.get F.GAL_CFG.ENUMDLY ≤ s.gal.ticks := by decide +kernel
theorem wit8RingEnumeratesItsBays :
    let s : State := ringMaster none
    s.enumMay = true := by decide +kernel
theorem wit9RingEnumeratesItsBays :
    let s : State := { ringMaster (some (.assign, 0)) with fclk := 900000 }
    let t0 : Nat := 0
    s.enumMay = true ∧ s.gal.pass = some (.assign, t0) ∧ t0 + 800000 ≤ s.fclk ∧ s.backComes = false := by decide +kernel
theorem wit10RingEnumeratesItsBays :
    let s : State := { (ringMaster none).set F.PCR_STAT.BOOTSTEP 3 with fclk := 30000000 }
    let t0 : Nat := 0
    s.enumMay = true ∧ s.gal.complete = false ∧ s.gal.gaveUp = false ∧ s.gal.step3 = some t0 ∧ t0 + 20000000 ≤ s.fclk ∧ s.get F.PCR_STAT.BOOTSTEP = 3 := by decide +kernel
theorem wit11RingEnumeratesItsBays :
    let s : State := withRx (ringMaster (some (.measure, 7))) { taken 1 (enumPay 0 0 (List.replicate 16 3) (List.replicate 8 0) 0 0) with own := true }
    let r : RxFrame := { taken 1 (enumPay 0 0 (List.replicate 16 3) (List.replicate 8 0) 0 0) with own := true }
    let t0 : Nat := 7
    s.enumMay = true ∧ s.gal.pass = some (.measure, t0) ∧ (s.rxFirst (fun r => r.own) = some r) ∧ r.f.kind = 1 ∧ frSub r.f = 0 := by decide +kernel
theorem wit12RingEnumeratesItsBays :
    let s : State := withRx (ringMaster (some (.done, 7))) { taken 1 (enumPay 2 9 (List.replicate 16 3) (List.replicate 8 0) 0 0) with own := true }
    let r : RxFrame := { taken 1 (enumPay 2 9 (List.replicate 16 3) (List.replicate 8 0) 0 0) with own := true }
    let t0 : Nat := 7
    s.enumMay = true ∧ s.gal.pass = some (.done, t0) ∧ (s.rxFirst (fun r => r.own) = some r) ∧ r.f.kind = 1 ∧ frSub r.f = 2 := by decide +kernel
theorem wit13RingEnumeratesItsBays :
    let s : State := (ringMaster none).set F.GAL_STAT.ENUMERATED 1
    s.enumMay = true ∧ s.bit F.GAL_STAT.ENUMERATED = true := by decide +kernel
theorem wit14RingEnumeratesItsBays :
    let s : State := ((ringMaster none).set F.GAL_STAT.ENUMERATED 1).updGal fun g => { g with ticks := 1000 }
    s.enumMay = true ∧ s.bit F.GAL_STAT.ENUMERATED = true ∧ max 1 (s.get F.GAL_CFG.JOINP) ≤ s.gal.ticks := by decide +kernel

theorem wit1RingTimeAndTransactions :
    let s : State := withRx (ringBay.set F.TB_STAT.SYNC 0) (taken 9 (syncPay 4900 80 3))
    let r : RxFrame := taken 9 (syncPay 4900 80 3)
    s.galUp = true ∧ s.galMaster = false ∧ s.get F.TB_STAT.SYNC = 0 ∧ (s.rxFirst (fun r => !r.own && r.f.kind = 9) = some r) ∧ s.lanesFree = true ∧ r.act = true ∧ r.f.payload.length = 14 := by decide +kernel
theorem wit2RingTimeAndTransactions :
    let s : State := { (ringMaster none).updGal (fun g => { g with free := true }) with syncDue := true }
    s.galUp = true ∧ s.syncDue = true ∧ s.galMaster = true ∧ s.gal.free = true := by decide +kernel
theorem wit3RingTimeAndTransactions :
    let s : State := { ringBay with fclk := 9000000 }
    s.islandUp .angle = true ∧ s.galMaster = false ∧ s.get F.TB_STAT.SYNC = 1 ∧ s.gal.syncT + 3200000 ≤ s.fclk ∧ s.syncComes = false := by decide +kernel
theorem wit4RingTimeAndTransactions :
    let s : State := (withRx ringBay (taken 7 [3, 0, 1, 2, 3])).updGal fun g => { g with req := [⟨.host, 9, 5, [3], 0, true, 0⟩] }
    let r : RxFrame := taken 7 [3, 0, 1, 2, 3]
    let q : GalReq := ⟨.host, 9, 5, [3], 0, true, 0⟩
    s.galUp = true ∧ (s.rxFirst (fun r => r.act && r.f.kind = 7) = some r) ∧ (s.gal.req.find? (fun q => q.sent && q.bay = r.f.src.toNat && leAt q.body 0 1 % 16 = leAt r.f.payload 0 1 % 16) = some q) ∧ q.who = .host ∧ leAt r.f.payload 1 1 = 0 := by decide +kernel
theorem wit5RingTimeAndTransactions :
    let s : State := { ringBay.updGal (fun g => { g with req := [⟨.host, 9, 5, [3], 0, true, 0⟩] }) with fclk := 9000000 }.set F.GAL_CFG.RETRY 2
    let b : Fin 63 := 9
    let q : GalReq := ⟨.host, 9, 5, [3], 0, true, 0⟩
    s.galUp = true ∧ (s.gal.req.find? (fun q => q.sent && q.bay = b.val) = some q) ∧ q.t + s.replyTime ≤ s.fclk ∧ s.respComes q = false ∧ q.tries < s.get F.GAL_CFG.RETRY := by decide +kernel
theorem wit6RingTimeAndTransactions :
    let s : State := { ringBay.updGal (fun g => { g with req := [⟨.host, 9, 5, [3], 3, true, 0⟩] }) with fclk := 9000000 }.set F.GAL_CFG.RETRY 2
    let b : Fin 63 := 9
    let q : GalReq := ⟨.host, 9, 5, [3], 3, true, 0⟩
    s.galUp = true ∧ (s.gal.req.find? (fun q => q.sent && q.bay = b.val) = some q) ∧ q.t + s.replyTime ≤ s.fclk ∧ s.respComes q = false ∧ s.get F.GAL_CFG.RETRY ≤ q.tries ∧ q.who = .host := by decide +kernel
theorem wit7RingTimeAndTransactions :
    let s : State := withRx (ringBay.set (F.EO_CFG.LEVEL 3) 1) (taken 3 ([6, 1] ++ leBytes 2 (R.EO_CFG 3)))
    let n : Fin 24 := 3
    let r : RxFrame := taken 3 ([6, 1] ++ leBytes 2 (R.EO_CFG 3))
    let tid : Fin 16 := 6
    s.galUp = true ∧ s.islandUp .angle = true ∧ s.gal.kept = [] ∧ (s.rxFirst (fun r => r.act && r.f.kind.toNat = 3) = some r) ∧ r.f.payload = [byteOf tid, 1] ++ leBytes 2 (R.EO_CFG n) := by decide +kernel
theorem wit8RingTimeAndTransactions :
    let s : State := withRx ringBay (taken 4 ([6, 1] ++ leBytes 2 (R.EO_CFG 3) ++ leBytes 3 0x201))
    let n : Fin 24 := 3
    let v : Word := 0x201
    let r : RxFrame := taken 4 ([6, 1] ++ leBytes 2 (R.EO_CFG 3) ++ leBytes 3 0x201)
    let tid : Fin 16 := 6
    s.galUp = true ∧ s.islandUp .angle = true ∧ s.gal.kept = [] ∧ (s.rxFirst (fun r => r.act && r.f.kind.toNat = 4) = some r) ∧ r.f.payload = [byteOf tid, 1] ++ leBytes 2 (R.EO_CFG n) ++ leBytes 3 v.toNat := by decide +kernel
theorem wit9RingTimeAndTransactions :
    let s : State := withRx (hall3Ring 1) (taken 5 ([6, 4] ++ leBytes 4 0x180010))
    let a : Nat := 0x180010
    let n : Nat := 4
    let r : RxFrame := taken 5 ([6, 4] ++ leBytes 4 0x180010)
    let tid : Fin 16 := 6
    s.galUp = true ∧ s.islandUp .memory = true ∧ s.gal.kept = [] ∧ (s.rxFirst (fun r => r.act && r.f.kind = 5 && !s.memWaits (leAt r.f.payload 2 4) (leAt r.f.payload 1 1)) = some r) ∧ r.f.payload = [byteOf tid, byteOf n] ++ leBytes 4 a ∧ 1 ≤ n ∧ n ≤ 56 ∧ a / 524288 < 15 ∧ a % 524288 + n ≤ 524288 ∧ s.bit (F.HAL_OWN.PWR (a / 524288)) = true ∧ s.hallErr = [] := by decide +kernel
theorem wit10RingTimeAndTransactions :
    let s : State := withRx (hall3Ring 2) (taken 6 ([6, 2] ++ leBytes 4 0x180011 ++ [7, 8]))
    let a : Nat := 0x180011
    let d : List Byte := [7, 8]
    let r : RxFrame := taken 6 ([6, 2] ++ leBytes 4 0x180011 ++ [7, 8])
    let tid : Fin 16 := 6
    s.galUp = true ∧ s.islandUp .memory = true ∧ s.gal.kept = [] ∧ (s.rxFirst (fun r => r.act && r.f.kind.toNat = 6) = some r) ∧ r.f.payload = [byteOf tid, byteOf d.length] ++ leBytes 4 a ++ d ∧ 1 ≤ d.length ∧ d.length ≤ 56 ∧ a / 524288 < 15 ∧ a % 524288 + d.length ≤ 524288 ∧ s.bit (F.HAL_OWN.PWR (a / 524288)) = true ∧ s.get (F.HAL_OWN.OWNER (a / 524288)) = 2 ∧ s.hallErr = [] := by decide +kernel

theorem wit1HostFramesRequestAndFetch :
    let s : State := up.updHost fun h => { h with result := some (1, [3, 4]) }
    let d : List Byte := [0, 0xBD, 0, 0, 0, 0]
    let code : Nat := 1
    let l : List Byte := [3, 4]
    s.islandUp .memory = true ∧ d.take 2 = [0, 0xBD] ∧ s.host.result = some (code, l) ∧ d.length = l.length + 4 := by decide +kernel
theorem wit2HostFramesRequestAndFetch :
    let s : State := up.updHost fun h => { h with result := some (1, [3, 4]) }
    let d : List Byte := [0, 0xBD, 0, 0, 0]
    let code : Nat := 1
    let l : List Byte := [3, 4]
    s.islandUp .memory = true ∧ d.take 2 = [0, 0xBD] ∧ s.host.result = some (code, l) ∧ d.length < l.length + 4 := by decide +kernel
theorem wit3HostFramesRequestAndFetch :
    let s : State := up.set (F.EO_CFG.LEVEL 3) 1
    let n : Fin 24 := 3
    let f : List Byte := [0x20, 0, 0] ++ beBytes 2 (R.EO_CFG 3)
    s.islandUp .memory = true ∧ s.hostBusy = false ∧ s.islandUp .angle = true ∧ f = [0x20, 0, 0] ++ beBytes 2 (R.EO_CFG n) := by decide +kernel
theorem wit4HostFramesRequestAndFetch :
    let s : State := up
    let n : Fin 24 := 3
    let v : Word := 0x201
    let f : List Byte := [0x40, 0, 0] ++ beBytes 2 (R.EO_CFG 3) ++ beBytes 3 0x201
    s.islandUp .memory = true ∧ s.hostBusy = false ∧ s.islandUp .angle = true ∧ f = [0x40, 0, 0] ++ beBytes 2 (R.EO_CFG n) ++ beBytes 3 v.toNat := by decide +kernel
theorem wit5HostFramesRequestAndFetch :
    let s : State := hall3
    let a : Nat := 0x180010
    let n : Nat := 4
    let f : List Byte := [0x60, 0, 4] ++ beBytes 4 0x180010
    s.islandUp .memory = true ∧ s.hostBusy = false ∧ f = [0x60, 0, byteOf n] ++ beBytes 4 a ∧ 1 ≤ n ∧ n ≤ 56 ∧ a / 524288 < 15 ∧ a % 524288 + n ≤ 524288 ∧ s.bit (F.HAL_OWN.PWR (a / 524288)) = true ∧ s.hallErr = [] := by decide +kernel
theorem wit6HostFramesRequestAndFetch :
    let s : State := hall3
    let a : Nat := 0x180011
    let d : List Byte := [7, 8]
    let f : List Byte := [0x80, 0, 2] ++ beBytes 4 0x180011 ++ [7, 8]
    s.islandUp .memory = true ∧ s.hostBusy = false ∧ f = [0x80, 0, byteOf d.length] ++ beBytes 4 a ++ d ∧ 1 ≤ d.length ∧ d.length ≤ 56 ∧ a / 524288 < 15 ∧ a % 524288 + d.length ≤ 524288 ∧ s.bit (F.HAL_OWN.PWR (a / 524288)) = true ∧ s.get (F.HAL_OWN.OWNER (a / 524288)) = 1 ∧ s.hallErr = [] := by decide +kernel
theorem wit7HostFramesRequestAndFetch :
    let s : State := up.updHost fun h => { h with done := some (1, []) }
    let f : List Byte := [0x60, 0, 4, 0, 0, 0, 0]
    s.islandUp .memory = true ∧ s.hostBusy = true ∧ hostCheck (f ++ [crc8 f]) = 0 ∧ leAt f 0 1 / 32 = 3 := by decide +kernel
theorem wit8HostFramesRequestAndFetch :
    let s : State := up
    let d : List Byte := [0x60, 0, 4]
    let e : Nat := 2
    s.islandUp .memory = true ∧ hostCheck d = e ∧ e ≠ 0 ∧ leAt d 0 1 / 32 = 3 := by decide +kernel
theorem wit9HostFramesRequestAndFetch :
    let s : State := up.updHost fun h => { h with done := some (1, [3]), dlen := 2 }
    let code : Nat := 1
    let d : List Byte := [3]
    s.islandUp .memory = true ∧ s.host.nvRead = none ∧ s.host.done = some (code, d) := by decide +kernel
theorem wit10HostFramesRequestAndFetch :
    let s : State := up
    s.islandUp .memory = true ∧ s.comes isHostFrame = false := by decide +kernel

theorem wit1InterruptsAreOfferedAndClaimed :
    let s : State := up
    let h : Fin 8 := 3
    let p : Fin 16 := 4
    let v : Word := 8 + 3 + 64
    s.irtUp = true ∧ s.bit F.IRT_HOST.REG = false ∧ s.bit (F.IRT_HTAB.VALID h) = false ∧ v.toNat = h + 8 + 16 * p := by decide +kernel
theorem wit2InterruptsAreOfferedAndClaimed :
    let s : State := withRx ringBay (taken 10 ([7, 3] ++ leBytes 2 (1 + 2 * 5 + 32)))
    let h : Fin 8 := 3
    let p : Fin 16 := 5
    let k : Fin 4 := 1
    let r : RxFrame := taken 10 ([7, 3] ++ leBytes 2 (1 + 2 * 5 + 32))
    s.irtUp = true ∧ (s.rxFirst (fun r => r.act && r.f.kind = 10 && frSub r.f = 7) = some r) ∧ r.f.payload = [7, byteOf h] ++ leBytes 2 (1 + 2 * p + 32 * k) ∧ s.bit (F.IRT_HTAB.VALID h) = false := by decide +kernel
theorem wit3InterruptsAreOfferedAndClaimed :
    let s : State := irtPending
    let k : Fin 320 := 5
    s.irtUp = true ∧ s.irt.offer = none ∧ s.irt.evalT ≤ s.thirds ∧ s.hostsFor k ≠ [] ∧ (∀ j : Fin 320, j < k → s.hostsFor j = []) := by decide +kernel
theorem wit4InterruptsAreOfferedAndClaimed :
    let s : State := irtMsg (irtSlot 0) (0, 2, 5)
    let h : Nat := 2
    let x : Fin 320 := 5
    let rest : List (Nat × Nat × Nat) := []
    s.irtUp = true ∧ s.irt.loc = (0, h, x.val) :: rest ∧ s.slot = 0 ∧ s.bit F.IRT_HOST.REG = true ∧ s.hid = h ∧ s.bit F.IRT_HSTAT.HIDCONF = false := by decide +kernel
theorem wit5InterruptsAreOfferedAndClaimed :
    let s : State := irtMsg (irtSlot 3) (0, 2, 5)
    let h : Nat := 2
    let x : Nat := 5
    let rest : List (Nat × Nat × Nat) := []
    s.irtUp = true ∧ s.irt.loc = (0, h, x) :: rest ∧ s.slot ≠ 0 := by decide +kernel
theorem wit6InterruptsAreOfferedAndClaimed :
    let s : State := (irtMsg irtPending (1, 2, 5)).updIrt fun r => { r with offer := some ⟨0, 2, 5, 0, 9⟩ }
    let h : Nat := 2
    let x : Nat := 5
    let rest : List (Nat × Nat × Nat) := []
    let b : Nat := 0
    let n : Nat := 0
    let f : Nat := 9
    s.irtUp = true ∧ s.irt.loc = (1, h, x) :: rest ∧ s.irt.offer = some ⟨b, h, x, n, f⟩ ∧ s.isHere b = true := by decide +kernel
theorem wit7InterruptsAreOfferedAndClaimed :
    let s : State := (irtMsg irtPending (2, 2, 5)).updIrt fun r => { r with offer := some ⟨0, 2, 5, 0, 9⟩ }
    let h : Nat := 2
    let x : Nat := 5
    let rest : List (Nat × Nat × Nat) := []
    let b : Nat := 0
    let n : Nat := 0
    let f : Nat := 9
    s.irtUp = true ∧ s.irt.loc = (2, h, x) :: rest ∧ s.irt.offer = some ⟨b, h, x, n, f⟩ ∧ s.isHere b = true := by decide +kernel
theorem wit8InterruptsAreOfferedAndClaimed :
    let s : State := { irtPending.updIrt (fun r => { r with offer := some ⟨0, 2, 5, 0, 9⟩ }) with fclk := 9000000 }.set F.GAL_CFG.RETRY 1
    let o : IrqAsk := ⟨0, 2, 5, 0, 9⟩
    s.irtUp = true ∧ s.irt.offer = some o ∧ o.t + s.replyTime ≤ s.fclk ∧ s.comes (isReply false) = false ∧ o.tries < s.get F.GAL_CFG.RETRY := by decide +kernel
theorem wit9InterruptsAreOfferedAndClaimed :
    let s : State := { irtPending.updIrt (fun r => { r with offer := some ⟨0, 2, 5, 1, 9⟩ }) with fclk := 9000000 }.set F.GAL_CFG.RETRY 1
    let o : IrqAsk := ⟨0, 2, 5, 1, 9⟩
    s.irtUp = true ∧ s.irt.offer = some o ∧ o.t + s.replyTime ≤ s.fclk ∧ s.comes (isReply false) = false ∧ s.get F.GAL_CFG.RETRY ≤ o.tries := by decide +kernel
theorem wit10InterruptsAreOfferedAndClaimed :
    let s : State := { (irtSlot 2).updIrt (fun r => { r with claim := some ⟨0, 2, 0, 0, 9⟩ }) with fclk := 9000000 }.set F.GAL_CFG.RETRY 1
    let o : IrqAsk := ⟨0, 2, 0, 0, 9⟩
    s.irtUp = true ∧ s.irt.claim = some o ∧ o.t + s.replyTime ≤ s.fclk ∧ s.comes (isReply true) = false ∧ o.tries < s.get F.GAL_CFG.RETRY := by decide +kernel
theorem wit11InterruptsAreOfferedAndClaimed :
    let s : State := { (irtSlot 2).updIrt (fun r => { r with claim := some ⟨0, 2, 0, 1, 9⟩ }) with fclk := 9000000 }.set F.GAL_CFG.RETRY 1
    let o : IrqAsk := ⟨0, 2, 0, 1, 9⟩
    s.irtUp = true ∧ s.irt.claim = some o ∧ o.t + s.replyTime ≤ s.fclk ∧ s.comes (isReply true) = false ∧ s.get F.GAL_CFG.RETRY ≤ o.tries := by decide +kernel
theorem wit1InterruptsAreClaimedAndEnded :
    let s : State := (irtSlot 1).updHost fun h => { h with rest := some (7, 0) }
    s.irtUp = true ∧ s.host.rest.isSome = true ∧ s.host.begun = false ∧ s.slot = 1 ∧ s.isHere (s.get F.IRT_HSLOT.BAY) = true := by decide +kernel
theorem wit2InterruptsAreClaimedAndEnded :
    let s : State := (irtSlot 0).updHost fun h => { h with rest := some (7, 0) }
    s.irtUp = true ∧ s.host.rest.isSome = true ∧ s.host.begun = false ∧ s.slot ≠ 1 := by decide +kernel
theorem wit3InterruptsAreClaimedAndEnded :
    let s : State := irtMsg (irtSlot 2) (3, 2, 0)
    let h : Nat := 2
    let x : Nat := 0
    let rest : List (Nat × Nat × Nat) := []
    let k : Fin 320 := 5
    s.irtUp = true ∧ s.irt.loc = (3, h, x) :: rest ∧ s.waiting = [] ∧ s.irt.claims = [] ∧ s.srcFor k h = true ∧ (∀ j : Fin 320, j < k → s.srcFor j h = false) := by decide +kernel
theorem wit4InterruptsAreClaimedAndEnded :
    let s : State := irtMsg (irtSlot 2) (3, 6, 0)
    let h : Nat := 6
    let x : Nat := 0
    let rest : List (Nat × Nat × Nat) := []
    s.irtUp = true ∧ s.irt.loc = (3, h, x) :: rest ∧ s.waiting = [] ∧ s.irt.claims = [] ∧ (∀ j : Fin 320, s.srcFor j h = false) := by decide +kernel
theorem wit5InterruptsAreClaimedAndEnded :
    let s : State := { irtMsg (irtSlot 2) (3, 2, 0) with pending := [.trapClear] }
    let h : Nat := 2
    let x : Nat := 0
    let rest : List (Nat × Nat × Nat) := []
    s.irtUp = true ∧ s.irt.loc = (3, h, x) :: rest ∧ (s.waiting ≠ [] ∨ s.irt.claims ≠ []) := by decide +kernel
theorem wit6InterruptsAreClaimedAndEnded :
    let s : State := (irtSlot 2).updIrt fun r => { r with claims := [(0, 2)] }
    let h : Nat := 2
    let k : Fin 320 := 5
    s.irt.claims = [(s.bay, h)] ∧ s.srcFor k h = true ∧ (∀ j : Fin 320, j < k → s.srcFor j h = false) := by decide +kernel
theorem wit7InterruptsAreClaimedAndEnded :
    let s : State := (irtMsg (irtSlot 2) (4, 2, 5)).updIrt fun r => { r with claim := some ⟨0, 0, 0, 0, 9⟩ }
    let h : Nat := 2
    let x : Nat := 5
    let rest : List (Nat × Nat × Nat) := []
    let c : IrqAsk := ⟨0, 0, 0, 0, 9⟩
    s.irtUp = true ∧ s.irt.loc = (4, h, x) :: rest ∧ s.irt.claim = some c ∧ s.isHere c.bay = true ∧ s.slot = 2 ∧ x < 320 := by decide +kernel
theorem wit8InterruptsAreClaimedAndEnded :
    let s : State := (irtMsg (irtSlot 2) (4, 2, 1023)).updIrt fun r => { r with claim := some ⟨0, 0, 0, 0, 9⟩ }
    let h : Nat := 2
    let x : Nat := 1023
    let rest : List (Nat × Nat × Nat) := []
    let c : IrqAsk := ⟨0, 0, 0, 0, 9⟩
    s.irtUp = true ∧ s.irt.loc = (4, h, x) :: rest ∧ s.irt.claim = some c ∧ s.isHere c.bay = true ∧ s.slot = 2 ∧ x = 1023 := by decide +kernel
theorem wit9InterruptsAreClaimedAndEnded :
    let s : State := irtSlot 3
    let v : Word := 5
    s.irtUp = true ∧ s.slot = 3 ∧ s.irt.freeT = none ∧ v.toNat % 65536 = s.get F.IRT_HSLOT.SRC + 1024 * s.get F.IRT_HSLOT.BAY := by decide +kernel
theorem wit10InterruptsAreClaimedAndEnded :
    let s : State := irtSlot 3
    let v : Word := 6
    s.irtUp = true ∧ v.toNat % 65536 ≠ s.get F.IRT_HSLOT.SRC + 1024 * s.get F.IRT_HSLOT.BAY := by decide +kernel
theorem wit11InterruptsAreClaimedAndEnded :
    let s : State := (irtSlot 3).updIrt fun r => { r with freeT := some 30 }
    let f : Nat := 30
    s.irtUp = true ∧ s.irt.freeT = some f ∧ f ≤ s.thirds := by decide +kernel
theorem wit12InterruptsAreClaimedAndEnded :
    let s : State := irtMsg irtPending (5, 2, 5)
    let h : Nat := 2
    let x : Nat := 5
    let rest : List (Nat × Nat × Nat) := []
    s.irtUp = true ∧ s.irt.loc = (5, h, x) :: rest := by decide +kernel
theorem wit13InterruptsAreClaimedAndEnded :
    let s : State := irtMsg irtPending (6, 2, 5)
    let h : Nat := 2
    let x : Nat := 5
    let rest : List (Nat × Nat × Nat) := []
    s.irtUp = true ∧ s.irt.loc = (6, h, x) :: rest := by decide +kernel
theorem wit14InterruptsAreClaimedAndEnded :
    let s : State := { irtSlot 1 with fclk := 90000000 }
    s.irtUp = true ∧ s.slot = 1 ∧ s.irt.slotT + 400 * max 1 (s.get F.IRT_CFG.CLAIMT) ≤ s.fclk ∧ (s.comes (fun c => c = .irqClaimRead) = false) := by decide +kernel
theorem wit15InterruptsAreClaimedAndEnded :
    let s : State := { irtSlot 3 with fclk := 900000000 }
    s.irtUp = true ∧ s.slot = 3 ∧ s.irt.freeT = none ∧ s.irt.slotT + 400000 * max 1 (s.get F.IRT_CFG.HOLDT) ≤ s.fclk ∧ s.comes s.isDone = false := by decide +kernel
theorem wit16InterruptsAreClaimedAndEnded :
    let s : State := up.set F.IRT_TRAP.PEND 1
    s.irtUp = true ∧ bitOf (s.setNow R.IRT_TRAP) 0 = false := by decide +kernel
theorem wit17InterruptsAreClaimedAndEnded :
    let s : State := irtPending
    s.irtUp = true := by decide +kernel

theorem wit1TrustCommandsAreCheckedAndEnd :
    let s : State := withBuf 0 claimBlock
    s.islandUp .memory = true ∧ s.tru.cmd = none ∧ s.wvl.verify = none ∧ s.tru.job = none ∧ s.truFirst 1 s.truBuf = 0 ∧ s.truOwn 1 s.truBuf = 0 := by decide +kernel
theorem wit2TrustCommandsAreCheckedAndEnd :
    let s : State := lockable
    let n : Nat := 4
    let c : Instr := .trustLock
    s.islandUp .memory = true ∧ s.tru.cmd = none ∧ s.wvl.verify = none ∧ s.tru.job = none ∧ (n, c) ∈ ([(2, .trustAddkey), (3, .trustRevoke), (4, .trustLock), (5, .trustRetire), (6, .trustSetfloor), (7, .trustDebug)] : List (Nat × Instr)) ∧ s.truFirst n s.truBuf = 0 ∧ s.truSig s.truBuf = 0 ∧ s.truOwn n s.truBuf = 0 := by decide +kernel
theorem wit3TrustCommandsAreCheckedAndEnd :
    let s : State := withBuf 1 claimBlock
    let n : Nat := 1
    let c : Instr := .trustClaim
    let k : Nat := 1
    s.islandUp .memory = true ∧ s.tru.cmd = none ∧ s.wvl.verify = none ∧ s.tru.job = none ∧ (n, c) ∈ ([(0, .trustUnknownCommand), (1, .trustClaim), (2, .trustAddkey), (3, .trustRevoke), (4, .trustLock), (5, .trustRetire), (6, .trustSetfloor), (7, .trustDebug), (8, .trustAttest)] : List (Nat × Instr)) ∧ s.truFirst n s.truBuf = k ∧ k ≠ 0 := by decide +kernel
theorem wit4TrustCommandsAreCheckedAndEnd :
    let s : State := up
    s.islandUp .memory = true ∧ s.tru.cmd = none ∧ s.wvl.verify = none ∧ s.tru.job = none := by decide +kernel
theorem wit5TrustCommandsAreCheckedAndEnd :
    let s : State := withBuf 1 ([8, 0, 0, 0] ++ claimBlock.drop 4)
    s.islandUp .memory = true ∧ s.tru.cmd = none ∧ s.wvl.verify = none ∧ s.tru.job = none ∧ s.truFirst 8 s.truBuf = 0 := by decide +kernel
theorem wit6TrustCommandsAreCheckedAndEnd :
    let s : State := up.updTru fun t => { t with cmd := some ⟨4, true, true, none⟩ }
    let n : Nat := 6
    let c : Instr := .trustSetfloor
    s.islandUp .memory = true ∧ s.tru.cmd.isSome = true ∧ (n, c) ∈ ([(0, .trustUnknownCommand), (1, .trustClaim), (2, .trustAddkey), (3, .trustRevoke), (4, .trustLock), (5, .trustRetire), (6, .trustSetfloor), (7, .trustDebug), (8, .trustAttest)] : List (Nat × Instr)) := by decide +kernel
theorem wit7TrustCommandsAreCheckedAndEnd :
    let s : State := (up.set F.TRU_STAT.BUSY 1).updTru fun t => { t with cmd := some ⟨6, true, true, some 0⟩ }
    let n : Nat := 6
    s.islandUp .memory = true ∧ s.tru.cmd = some ⟨n, true, true, some 0⟩ ∧ (n = 2 ∨ n = 3 ∨ n = 4 ∨ n = 6) ∧ s.por.lost.contains (.irq 312) = false := by decide +kernel
theorem wit8TrustCommandsAreCheckedAndEnd :
    let s : State := (up.set F.TRU_STAT.BUSY 1).updTru fun t => { t with cmd := some ⟨6, true, false, some 7⟩ }
    let n : Nat := 6
    let k : Fin 16 := 7
    s.islandUp .memory = true ∧ s.tru.cmd = some ⟨n, true, false, some k.val⟩ ∧ k.val ≠ 0 ∧ s.tru.chalNext = none ∧ s.por.lost.contains (.irq 313) = false := by decide +kernel
theorem wit9TrustCommandsAreCheckedAndEnd :
    let s : State := ((up.set F.TRU_STAT.BUSY 1).set (F.TRU_BUF 46) 20).updTru fun t => { t with cmd := some ⟨7, true, true, some 0⟩ }
    s.islandUp .memory = true ∧ s.tru.cmd = some ⟨7, true, true, some 0⟩ ∧ leAt s.truBuf 92 2 ≠ 0 := by decide +kernel
theorem wit10TrustCommandsAreCheckedAndEnd :
    let s : State := up.updTru fun t => { t with chalT := 24000 }
    s.islandUp .memory = true ∧ 24000 ≤ s.tru.chalT ∧ s.tru.cmd = none := by decide +kernel
theorem wit11TrustCommandsAreCheckedAndEnd :
    let s : State := up.updTru fun t => { t with chalT := 24000, cmd := some ⟨6, true, false, some 7⟩ }
    s.islandUp .memory = true ∧ 24000 ≤ s.tru.chalT ∧ s.tru.cmd.isSome = true := by decide +kernel
theorem wit12TrustCommandsAreCheckedAndEnd :
    let s : State := up.set F.TRU_STAT.DEBUG 1
    s.islandUp .memory = true ∧ s.bit F.TRU_STAT.DEBUG = true ∧ s.get F.TRU_DBGLEFT = 0 ∧ s.por.lost.contains (.irq 315) = false := by decide +kernel
theorem wit13TrustCommandsAreCheckedAndEnd :
    let s : State := ringBay
    let k : Fin 4 := 2
    s.pcr.held = none ∧ (s.pcr.watch = false ∨ 2 ≤ k.val) := by decide +kernel

theorem wit1FaultsAreDecidedCountedAndReacted :
    let s : State := finding 1 1
    let k : Fin 128 := 81
    let g : FaultSig := ⟨81, 4, 0, 15, 0⟩
    s.islandUp .safety = true ∧ s.sevBit k = false ∧ s.por.forced = [] ∧ s.srcUp k = true ∧ s.por.same.contains k.val = false ∧ s.comes s.clrComes = false ∧ (s.por.pulses.find? (fun p => p.src = k.val) = some g) ∧ s.bit (F.POR_SRCA.EN k) = true ∧ s.get (F.POR_SRCA.EVR k) = 1 ∧ s.bit F.POR_FIRST.VALID = false ∧ s.get F.POR_GCFG.CAPMIN ≤ 1 ∧ s.islandUp .memory = true ∧ s.por.lost.contains (.irq 0) = false := by decide +kernel
theorem wit2FaultsAreDecidedCountedAndReacted :
    let s : State := finding 2 2
    let k : Fin 128 := 81
    let g : FaultSig := ⟨81, 4, 0, 15, 0⟩
    s.islandUp .safety = true ∧ s.sevBit k = false ∧ s.por.forced = [] ∧ s.srcUp k = true ∧ s.por.same.contains k.val = false ∧ s.comes s.clrComes = false ∧ (s.por.pulses.find? (fun p => p.src = k.val) = some g) ∧ s.bit (F.POR_SRCA.EN k) = true ∧ s.get (F.POR_SRCA.EVR k) = 2 ∧ s.islandUp .memory = true := by decide +kernel
theorem wit3FaultsAreDecidedCountedAndReacted :
    let s : State := finding 4 4
    let k : Fin 128 := 81
    let g : FaultSig := ⟨81, 4, 0, 15, 0⟩
    s.islandUp .safety = true ∧ s.sevBit k = false ∧ s.por.forced = [] ∧ s.srcUp k = true ∧ s.por.same.contains k.val = false ∧ s.comes s.clrComes = false ∧ (s.por.pulses.find? (fun p => p.src = k.val) = some g) ∧ s.bit (F.POR_SRCA.EN k) = true ∧ s.get (F.POR_SRCA.EVR k) = 4 ∧ (s.get F.POR_GCFG.RSTLIM = 0 ∨ s.get F.POR_STAT.RSTCNT < s.get F.POR_GCFG.RSTLIM) ∧ s.safe = false := by decide +kernel
theorem wit4FaultsAreDecidedCountedAndReacted :
    let s : State := finding 5 5
    let k : Fin 128 := 81
    let g : FaultSig := ⟨81, 4, 0, 15, 0⟩
    s.islandUp .safety = true ∧ s.sevBit k = false ∧ s.por.forced = [] ∧ s.srcUp k = true ∧ s.por.same.contains k.val = false ∧ s.comes s.clrComes = false ∧ (s.por.pulses.find? (fun p => p.src = k.val) = some g) ∧ s.bit (F.POR_SRCA.EN k) = true ∧ s.get (F.POR_SRCA.EVR k) = 5 ∧ s.safe = false := by decide +kernel
theorem wit5FaultsAreDecidedCountedAndReacted :
    let s : State := (finding 1 1).set (F.POR_SRCA.EN 81) 0
    let k : Fin 128 := 81
    let g : FaultSig := ⟨81, 4, 0, 15, 0⟩
    s.islandUp .safety = true ∧ s.por.forced = [] ∧ (s.por.pulses.find? (fun p => p.src = k.val) = some g) ∧ s.bit (F.POR_SRCA.EN k) = false := by decide +kernel
theorem wit6FaultsAreDecidedCountedAndReacted :
    let s : State := up.updPor fun p => { p with stand := [⟨10, 1, 0, 15, 0⟩], seen := [10] }
    let k : Fin 128 := 10
    s.islandUp .safety = true ∧ s.por.forced = [] ∧ (s.por.pulses.find? (fun p => p.src = k.val) = none) ∧ s.por.seen.contains k.val = true := by decide +kernel
theorem wit7FaultsAreDecidedCountedAndReacted :
    let s : State := counting 3 0 9
    let k : Fin 128 := 81
    let c : CountItem := ⟨⟨81, 4, 0, 15, 0⟩, false, false⟩
    let l : List CountItem := []
    s.islandUp .management = true ∧ s.comes s.sevComes = false ∧ s.por.countQ = c :: l ∧ c.sig.src = k.val ∧ (s.por.ages.find? (fun e => e.1 = k.val) = none) ∧ s.get (F.POR_CNT.WCNT k) = 0 ∧ 1 < s.get (F.POR_SRCA.N k) := by decide +kernel
theorem wit8FaultsAreDecidedCountedAndReacted :
    let s : State := counting 3 2 9
    let k : Fin 128 := 81
    let c : CountItem := ⟨⟨81, 4, 0, 15, 0⟩, false, false⟩
    let l : List CountItem := []
    let a : Nat := 0
    s.islandUp .management = true ∧ s.comes s.sevComes = false ∧ s.por.countQ = c :: l ∧ c.sig.src = k.val ∧ (s.por.ages.find? (fun e => e.1 = k.val) = some (k.val, a)) ∧ a < s.porW k ∧ s.get (F.POR_CNT.WCNT k) ≠ 0 ∧ s.porN k ≤ s.get (F.POR_CNT.WCNT k) + 1 ∧ s.get (F.POR_CNT.WCNT k) < 255 ∧ s.sevBit k = false ∧ s.islandUp .memory = true ∧ s.por.lost.contains (.irq 1) = false := by decide +kernel
theorem wit9FaultsAreDecidedCountedAndReacted :
    let s : State := ((finding 1 1).set F.POR_FIRST.VALID 0).updPor fun p => { p with pulses := [], sevQ := [⟨⟨81, 4, 0, 15, 0⟩, false, false⟩] }
    let k : Fin 128 := 81
    let c : CountItem := ⟨⟨81, 4, 0, 15, 0⟩, false, false⟩
    let l : List CountItem := []
    s.islandUp .safety = true ∧ s.por.sevQ = c :: l ∧ c.sig.src = k.val ∧ s.get (F.POR_SRCA.SEVR k) = 1 ∧ s.bit F.POR_FIRST.VALID = false ∧ s.get F.POR_GCFG.CAPMIN ≤ 1 ∧ s.comes s.clrComes = false ∧ s.islandUp .memory = true ∧ s.por.lost.contains (.irq 0) = false := by decide +kernel
theorem wit10FaultsAreDecidedCountedAndReacted :
    let s : State := (counting 3 2 9).updPor fun p => { p with ages := [(81, 4000)] }
    let k : Fin 128 := 81
    let a : Nat := 4000
    s.islandUp .management = true ∧ (s.por.ages.find? (fun e => e.1 = k.val) = some (k.val, a)) ∧ s.porW k ≤ a ∧ s.sevBit k = false := by decide +kernel
theorem wit11FaultsAreDecidedCountedAndReacted :
    let s : State := up
    let i : Fin 8 := 5
    let j : Fin 16 := 1
    let src : Master := .host
    let v : Word := 2
    s.islandUp .management = true ∧ bitOf (s.wlActs src (R.POR_FORCE i) v) j = true := by decide +kernel
theorem wit12FaultsAreDecidedCountedAndReacted :
    let s : State := (up.set (F.POR_SEV 5) 2).set (F.POR_CNT.WCNT 81) 4
    let i : Fin 8 := 5
    let j : Fin 16 := 1
    let v : Word := 2
    s.islandUp .management = true ∧ bitOf v.toNat j = true ∧ s.sevBit (16 * i + j) = true ∧ bitOf (s.setNow (R.POR_SEV i)) j = false := by decide +kernel
theorem wit13FaultsAreDecidedCountedAndReacted :
    let s : State := (up.set F.POR_FIRST.VALID 1).set F.POR_SECOND.COUNT 5
    let src : Master := .host
    s.islandUp .management = true ∧ (s.porCmd src 0x96001).1 = 1 ∧ s.por.clrT ≠ some s.fclk := by decide +kernel
theorem wit14FaultsAreDecidedCountedAndReacted :
    let s : State := up
    s.islandUp .management = true := by decide +kernel
theorem wit15FaultsAreDecidedCountedAndReacted :
    let s : State := { up with fclk := 900000000 }
    s.islandUp .safety = true ∧ (s.comes (fun c => c = .heartbeatSend) = false) ∧ s.islandUp .angle = true ∧ s.por.beatT + s.beatTime ≤ s.fclk := by decide +kernel
theorem wit16FaultsAreDecidedCountedAndReacted :
    let s : State := up
    s.islandUp .angle = true ∧ s.fclk < s.por.beatT + s.beatTime := by decide +kernel
theorem wit17FaultsAreDecidedCountedAndReacted :
    let s : State := (State.reset.updPcr fun p => { p with held := none }).updPor fun p => { p with beat := false }
    s.islandUp .safety = true ∧ (s.comes (fun c => c = .heartbeatSend) = false) ∧ s.islandUp .angle = false ∧ s.por.beat = false := by decide +kernel
theorem wit18FaultsAreDecidedCountedAndReacted :
    let s : State := (State.reset.updPcr fun p => { p with held := none }).updPor fun p => { p with beat := true }
    s.islandUp .safety = true ∧ (s.comes (fun c => c = .heartbeatSend) = false) ∧ s.islandUp .angle = false ∧ s.por.beat = true := by decide +kernel
theorem wit19FaultsAreDecidedCountedAndReacted :
    let s : State := up.set F.PCR_STAT.BOOTSTEP 6
    let rb : Bool := true
    s.pcr.held = none ∧ rb = (s.aliveOn && !s.por.alive) := by decide +kernel
theorem wit20FaultsAreDecidedCountedAndReacted :
    let s : State := up.set F.PCR_STAT.BOOTSTEP 6
    let rb : Bool := false
    s.pcr.held = none ∧ rb ≠ (s.aliveOn && !s.por.alive) := by decide +kernel

theorem wit1SelfTestsRunRepairAndRotate :
    let s : State := testing
    s.stcOn = true ∧ s.stc.hallT ≤ s.fclk ∧ s.hallErr = [] ∧ s.bit (F.HAL_OWN.PWR (s.get F.STC_MPOS.HALL)) = true ∧ s.get F.STC_MPOS.REGION + 1 < 2056 := by decide +kernel
theorem wit2SelfTestsRunRepairAndRotate :
    let s : State := testing
    s.stcOn = true ∧ s.stc.hallT ≤ s.fclk ∧ s.hallErr = [] ∧ s.bit (F.HAL_OWN.PWR (s.get F.STC_MPOS.HALL)) = true ∧ s.get F.STC_MPOS.REGION + 1 < 2056 := by decide +kernel
theorem wit3SelfTestsRunRepairAndRotate :
    let s : State := testing
    s.stcOn = true ∧ s.stc.hallT ≤ s.fclk ∧ s.hallErr = [] ∧ s.bit (F.HAL_OWN.PWR (s.get F.STC_MPOS.HALL)) = true := by decide +kernel
theorem wit4SelfTestsRunRepairAndRotate :
    let s : State := (testing.set F.STC_PACE0.NPPT 3).updStc fun x => { x with nvDue := 2 }
    s.stcOn = true ∧ 0 < s.stc.nvDue ∧ s.nvBusyPage = none := by decide +kernel
theorem wit5SelfTestsRunRepairAndRotate :
    let s : State := rotating 2 fun r => { r with next := 127 }
    let k : Nat := 127
    s.rotReady 2 = true ∧ s.stc.cmpu.wait = none ∧ s.stc.cmpu.retry = none ∧ s.stc.cmpu.next = k := by decide +kernel
theorem wit6SelfTestsRunRepairAndRotate :
    let s : State := rotating 2 fun r => { r with wait := some 5, stepT := 8000000 }
    let k : Nat := 5
    s.stcOn = true ∧ s.stc.cmpu.wait = some k ∧ s.stc.cmpu.stepT + 17 ≤ s.fclk := by decide +kernel
theorem wit7SelfTestsRunRepairAndRotate :
    let s : State := rotating 2 fun r => { r with wait := some 5, stepT := 8000000 }
    let k : Nat := 5
    s.stcOn = true ∧ s.stc.cmpu.wait = some k := by decide +kernel
theorem wit8SelfTestsRunRepairAndRotate :
    let s : State := rotating 2 fun r => { r with retry := some 4 }
    let u : Nat := 4
    s.rotReady 2 = true ∧ s.stc.cmpu.wait = none ∧ s.stc.cmpu.retry = some u := by decide +kernel
theorem wit9SelfTestsRunRepairAndRotate :
    let s : State := rotating 2 fun r => { r with freed := some 128 }
    let u : Fin 129 := 128
    s.stcOn = true ∧ s.stc.cmpu.freed = some u.val ∧ s.stc.cmpu.freedT + 2048 ≤ s.fclk := by decide +kernel
theorem wit10SelfTestsRunRepairAndRotate :
    let s : State := rotating 2 fun r => { r with freed := some 128 }
    let u : Fin 129 := 128
    s.stcOn = true ∧ s.stc.cmpu.freed = some u.val ∧ s.stc.cmpu.freedT + 2048 ≤ s.fclk := by decide +kernel
theorem wit11SelfTestsRunRepairAndRotate :
    let s : State := rotating 2 fun r => { r with freed := some 128 }
    let u : Fin 129 := 128
    s.stcOn = true ∧ s.stc.cmpu.freed = some u.val := by decide +kernel
theorem wit12SelfTestsRunRepairAndRotate :
    let s : State := rotating 3 fun r => { r with retry := some 4 }
    let u : Nat := 4
    s.rotReady 3 = true ∧ s.stc.etmr.wait = none ∧ s.stc.etmr.retry = some u := by decide +kernel
theorem wit13SelfTestsRunRepairAndRotate :
    let s : State := rotating 3 fun r => { r with freed := some 24 }
    let u : Fin 25 := 24
    s.stcOn = true ∧ s.stc.etmr.freed = some u.val ∧ s.stc.etmr.freedT + 4096 ≤ s.fclk := by decide +kernel
theorem wit14SelfTestsRunRepairAndRotate :
    let s : State := rotating 3 fun r => { r with freed := some 24 }
    let u : Fin 25 := 24
    s.stcOn = true ∧ s.stc.etmr.freed = some u.val ∧ s.stc.etmr.freedT + 4096 ≤ s.fclk := by decide +kernel
theorem wit15SelfTestsRunRepairAndRotate :
    let s : State := rotating 3 fun r => { r with freed := some 24 }
    let u : Fin 25 := 24
    s.stcOn = true ∧ s.stc.etmr.freed = some u.val := by decide +kernel
theorem wit16SelfTestsRunRepairAndRotate :
    let s : State := rotating 3 fun r => { r with next := 23 }
    let k : Nat := 23
    s.rotReady 3 = true ∧ s.stc.etmr.wait = none ∧ s.stc.etmr.retry = none ∧ s.stc.etmr.again = [] ∧ s.stc.etmr.next = k := by decide +kernel
theorem wit17SelfTestsRunRepairAndRotate :
    let s : State := rotating 3 fun r => { r with wait := some 9, next := 10 }
    let k : Nat := 9
    let n : Nat := 10
    s.rotReady 3 = true ∧ s.stc.etmr.wait = some k ∧ s.stc.etmr.again = [] ∧ s.stc.etmr.next = n := by decide +kernel
theorem wit18SelfTestsRunRepairAndRotate :
    let s : State := rotating 3 fun r => { r with wait := some 9 }
    let k : Nat := 9
    s.stcOn = true ∧ s.stc.etmr.wait = some k ∧ s.timersBusy < 24 := by decide +kernel
theorem wit19SelfTestsRunRepairAndRotate :
    let s : State := { testing.updStc (fun x => { x with done := [(200004, 10)] }) with fclk := 90000000 }
    let k : Fin 5 := 2
    let e : Nat × Nat := (200004, 10)
    s.stcOn = true ∧ ((s.stcTimes k).find? (fun e => decide (e.2 + stcBound k < s.fclk)) = some e) := by decide +kernel

theorem wit1CanFramesObjectsAndErrors :
    let s : State := canBus 31 rxObj
    let x : Fin 2 := 1
    let o : Fin 32 := 31
    let f : CanFrame := canFrm
    s.canLive x = true ∧ (f.fdf = false ∨ s.bit (F.CAN_CFG.FDEN x) = true) ∧ f.rtr = false ∧ s.canMatch x f = some o.val := by decide +kernel
theorem wit2CanFramesObjectsAndErrors :
    let s : State := canBus 31 rxObj
    let x : Fin 2 := 1
    let f : CanFrame := { canFrm with id := 0x124 }
    s.canLive x = true ∧ (f.rtr = true ∨ s.canMatch x f = none) := by decide +kernel
theorem wit3CanFramesObjectsAndErrors :
    let s : State := canTx
    let x : Fin 2 := 1
    let o : Fin 32 := 31
    s.canSends x = true ∧ s.canOnBus x = some o.val ∧ s.bit (F.CAN_CFG.LBACK x) = false := by decide +kernel
theorem wit4CanFramesObjectsAndErrors :
    let s : State := canBus 31 txObj
    let x : Fin 2 := 1
    let o : Fin 32 := 31
    let m : BitVec 32 := 0x80000000
    s.canUp x = true ∧ bitOf m.toNat o = true ∧ (s.canObj x o).valid = true ∧ (s.canObj x o).tx = true := by decide +kernel
theorem wit5CanFramesObjectsAndErrors :
    let s : State := canBus 31 rxObj
    let x : Fin 2 := 1
    let o : Fin 32 := 31
    s.canUp x = true ∧ ((s.canObj x o).valid = false ∨ (s.canObj x o).tx = false) := by decide +kernel
theorem wit6CanFramesObjectsAndErrors :
    let s : State := canTx
    let x : Fin 2 := 1
    let o : Fin 32 := 31
    let m : BitVec 32 := 0x80000000
    let b : Option (Fin 32) := none
    s.canUp x = true ∧ bitOf m.toNat o = true ∧ b ≠ some o := by decide +kernel
theorem wit7CanFramesObjectsAndErrors :
    let s : State := canTx
    let x : Fin 2 := 1
    let o : Fin 32 := 31
    let m : BitVec 32 := 0x80000000
    s.canUp x = true ∧ bitOf m.toNat o = true ∧ s.canPend x o = true := by decide +kernel
theorem wit8CanFramesObjectsAndErrors :
    let s : State := canTx
    let x : Fin 2 := 1
    let o : Nat := 31
    s.canSends x = true ∧ s.canOnBus x = some o ∧ (s.getCan x).bus = none ∧ s.bit (F.CAN_CFG.DAR x) = false := by decide +kernel
theorem wit9CanFramesObjectsAndErrors :
    let s : State := canTx.set (F.CAN_CFG.DAR 1) 1
    let x : Fin 2 := 1
    let o : Fin 32 := 31
    s.canSends x = true ∧ s.canOnBus x = some o.val ∧ s.bit (F.CAN_CFG.DAR x) = true := by decide +kernel
theorem wit10CanFramesObjectsAndErrors :
    let s : State := canBus 31 rxObj
    let x : Fin 2 := 1
    s.canUp x = true := by decide +kernel
theorem wit11CanFramesObjectsAndErrors :
    let s : State := ((canBus 31 rxObj).set (F.CAN_OSEL 1) 31).set (F.CAN_OIDLO 1) 0x77
    let x : Fin 2 := 1
    let o : Fin 32 := 31
    s.canUp x = true ∧ s.get (F.CAN_OSEL x) = o.val ∧ (s.getCan x).objs.length = 32 ∧ ((s.canObj x o).tx = false ∨ s.canPend x o = false) := by decide +kernel
theorem wit12CanFramesObjectsAndErrors :
    let s : State := canTx.set (F.CAN_OSEL 1) 31
    let x : Fin 2 := 1
    let o : Fin 32 := 31
    s.canUp x = true ∧ s.get (F.CAN_OSEL x) = o.val ∧ (s.canObj x o).tx = true ∧ s.canPend x o = true := by decide +kernel
theorem wit13CanFramesObjectsAndErrors :
    let s : State := canTx
    let x : Fin 2 := 1
    s.canLive x = true ∧ s.bit (F.CAN_CFG.MON x) = false ∧ s.bit (F.CAN_CFG.EN x) = true ∧ (s.getCan x).off = false := by decide +kernel
theorem wit14CanFramesObjectsAndErrors :
    let s : State := canTx
    let x : Fin 2 := 1
    s.canLive x = true := by decide +kernel
theorem wit15CanFramesObjectsAndErrors :
    let s : State := canTx.set (F.CAN_STAT.STATE 1) 2
    let x : Fin 2 := 1
    s.canUp x = true ∧ s.get (F.CAN_STAT.STATE x) = 2 := by decide +kernel
theorem wit16CanFramesObjectsAndErrors :
    let s : State := (canTx.set (F.CAN_STAT.STATE 1) 2).updCan 1 fun c => { c with tec := 256, off := true, counting := true }
    let x : Fin 2 := 1
    s.canUp x = true ∧ s.get (F.CAN_STAT.STATE x) = 2 ∧ (s.bit (F.CAN_CFG.ABOR x) = true ∨ (s.getCan x).counting = true) ∧ s.bit (F.CAN_CFG.EN x) = true := by decide +kernel

theorem wit1SentFramesAreCheckedAndTaken :
    let s : State := sentOn []
    let r : Fin 8 := 7
    let p : SentPulses := sentFrm 3 [1, 2, 3, 4, 5, 6] 0
    let v : List Nat := (sentFrm 3 [1, 2, 3, 4, 5, 6] 0).nibs.map fun n => (nibValue 100800 n).toNat
    let l : List Nat := []
    s.sentUp r = true ∧ s.sentCheck r p = 0 ∧ (v = (p.nibs.map fun n => (nibValue p.cal n).toNat)) ∧ slowNext (s.get (F.SENT_CFG2.SLOW r)) (s.getSent r).slow (v.headD 0) = (l, false) := by decide +kernel
theorem wit2SentFramesAreCheckedAndTaken :
    let s : State := sentOn []
    let r : Fin 8 := 7
    let p : SentPulses := sentFrm 3 [1, 2, 3, 4, 5, 6] 1
    let k : Fin 8 := 5
    s.sentUp r = true ∧ s.sentCheck r p = k.val ∧ k.val ≠ 0 := by decide +kernel
theorem wit3SentFramesAreCheckedAndTaken :
    let s : State := sentOn ((slowShort slowWord).take 15)
    let r : Fin 8 := 7
    let p : SentPulses := sentFrm ((slowShort slowWord).getD 15 0) [1, 2, 3, 4, 5, 6] 0
    let v : List Nat := (sentFrm ((slowShort slowWord).getD 15 0) [1, 2, 3, 4, 5, 6] 0).nibs.map fun n => (nibValue 100800 n).toNat
    let l : List Nat := slowShort slowWord
    let id : Fin 256 := 5
    let d : Nat := 0x9A
    let k : Fin 4 := 1
    s.sentUp r = true ∧ s.sentCheck r p = 0 ∧ (v = (p.nibs.map fun n => (nibValue p.cal n).toNat)) ∧ slowNext (s.get (F.SENT_CFG2.SLOW r)) (s.getSent r).slow (v.headD 0) = (l, true) ∧ slowParse (s.bit (F.SENT_CFG.LEGACY r)) l = (id.val, d, k.val, true) := by decide +kernel
theorem wit4SentFramesAreCheckedAndTaken :
    let s : State := sentOn ((slowShort (slowWord ^^^ 1)).take 15)
    let r : Fin 8 := 7
    let p : SentPulses := sentFrm ((slowShort (slowWord ^^^ 1)).getD 15 0) [1, 2, 3, 4, 5, 6] 0
    let v : List Nat := (sentFrm ((slowShort (slowWord ^^^ 1)).getD 15 0) [1, 2, 3, 4, 5, 6] 0).nibs.map fun n => (nibValue 100800 n).toNat
    let l : List Nat := slowShort (slowWord ^^^ 1)
    let id : Nat := 5
    let d : Nat := 0x9A
    let k : Nat := 1
    s.sentUp r = true ∧ s.sentCheck r p = 0 ∧ (v = (p.nibs.map fun n => (nibValue p.cal n).toNat)) ∧ slowNext (s.get (F.SENT_CFG2.SLOW r)) (s.getSent r).slow (v.headD 0) = (l, true) ∧ slowParse (s.bit (F.SENT_CFG.LEGACY r)) l = (id, d, k, false) := by decide +kernel
theorem wit5SentFramesAreCheckedAndTaken :
    let s : State := (sentOn []).set (F.SENT_CFG2.SILTO 7) 10
    let r : Fin 8 := 7
    s.sentUp r = true ∧ s.get (F.SENT_CFG2.SILTO r) ≠ 0 ∧ (s.getSent r).silent = false ∧ (s.getSent r).accT + 400000 * s.get (F.SENT_CFG2.SILTO r) ≤ s.fclk ∧ s.comes (s.sentComes r) = false := by decide +kernel

theorem wit1NeedleCommandsKeepTheRest : needleCommand (.needleBadop 15) = true := by decide

theorem wit1TimerCommandsKeepTheRest : timerCommand (.timerAdvance 15) = true := by decide
theorem wit3TimerCommandsKeepTheRest :
    let s : State := up
    NothingUnderWay s := by decide +kernel

theorem wit1StairAndStitchCommandsKeepTheRest : stairCommand (.geometrySave 3) = true := by decide
theorem wit2StairAndStitchCommandsKeepTheRest : stitchCommand (.stitchCommit 127) = true := by decide

theorem wit1InjectorCommandsKeepTheRest : injectorCommand (.bankDrainEnd 3) = true := by decide

theorem wit1ChartCommandsKeepTheRest : chartCommand (.hostQvWrite 63 .host 1) = true := by decide

theorem wit1WindowCommandsKeepTheRest : windowCommand (.comparatorSwitch 23 0) = true := by decide

theorem wit1HookAndStoreRequestsKeepTheRest : hookCommand (.hookMove 15) = true := by decide
theorem wit2HookAndStoreRequestsKeepTheRest :
    let c : Fin 16 := 15
    let wr : Fin 65 := 0
    let s : State := up
    (wr.val = 0 ∨ ((s.getHk c).burst.head?.any fun b => dOp b.words = 2) = true) := by decide +kernel
theorem wit4HookAndStoreRequestsKeepTheRest :
    let s : State := up
    ((s.wvl.hot.any fun e => e.1 = 0x88) = false) := by decide +kernel
theorem wit5HookAndStoreRequestsKeepTheRest : storeRequest (.nvsEraseCommand) = true := by decide

theorem wit1RingAndRouterCommandsKeepTheRest : ringCommand (.joinNow) = true := by decide
theorem wit2RingAndRouterCommandsKeepTheRest : routerCommand (.trapClear) = true := by decide

theorem wit1TrustPorterAndPowerCommandsKeepTheRest : trustCommand (.trustLock) = true := by decide
theorem wit2TrustPorterAndPowerCommandsKeepTheRest : porterCommand (.heartbeatSend) = true := by decide
theorem wit3TrustPorterAndPowerCommandsKeepTheRest : powerCommand (.vminClear) = true := by decide

theorem wit1SelfTestAndLinkCommandsKeepTheRest : rotationCommand (.edgeTimerStep) = true := by decide
theorem wit2SelfTestAndLinkCommandsKeepTheRest : linkCommand (.canRecover 1) = true := by decide

theorem wit1SafeStateHoldsTheOutputs :
    let s : State := ((withImage up 0x10 0).set F.POR_STAT.SAFE 1).set (F.BED_BIND.CLASS 15 15) 1
    (s.safe = true ∨ s.lockout = true) := by decide +kernel
theorem wit2SafeStateHoldsTheOutputs :
    let s : State := ((withImage up 0x10 0).set F.POR_STAT.SAFE 1).set (F.BED_BIND.CLASS 15 15) 1
    s.safe = true := by decide +kernel
theorem wit3SafeStateHoldsTheOutputs :
    let s : State := ((withImage up 0x10 0).set F.POR_STAT.SAFE 1).set (F.BED_BIND.CLASS 15 15) 1
    s.safe = true ∧ s.applied = true := by decide +kernel
theorem wit4SafeStateHoldsTheOutputs :
    let s : State := ((withImage up 0x10 0).set F.POR_STAT.SAFE 1).set (F.BED_BIND.CLASS 15 15) 1
    s.safe = true := by decide +kernel

theorem wit1HtrapFollowsPend :
    let s : State := up
    s.running = true := by decide +kernel
theorem wit2HtrapFollowsPend :
    let s : State := finding 2 2
    let k : Fin 128 := 81
    let g : FaultSig := ⟨81, 4, 0, 15, 0⟩
    s.islandUp .safety = true ∧ s.sevBit k = false ∧ s.por.forced = [] ∧ s.srcUp k = true ∧ (s.por.pulses.find? (fun p => p.src = k.val) = some g) ∧ s.bit (F.POR_SRCA.EN k) = true ∧ s.get (F.POR_SRCA.EVR k) = 2 ∧ s.por.same.contains k.val = false ∧ s.islandUp .memory = true := by decide +kernel
theorem wit3HtrapFollowsPend :
    let s : State := up.set F.IRT_TRAP.PEND 1
    s.irtUp = true ∧ bitOf (s.setNow R.IRT_TRAP) 0 = false := by decide +kernel
theorem wit4HtrapFollowsPend :
    let s : State := State.reset
    s.pcr.held.isSome = true := by decide +kernel

theorem wit1GalleryResetsComeFromTakenFrames :
    let s : State := ringBay
    let rd : Bool := false
    let k : List Byte := List.replicate 16 1
    let f : Frame := { eventFrame with kind := 14, payload := [0x5A, 0], tag := frTag { eventFrame with kind := 14, payload := [0x5A, 0] } k }
    let ws : List (BitVec 20) := laned f
    s.galUp = true ∧ laneFrame rd ws = some f ∧ s.lanesFree = true ∧ frLenOk f = true ∧ f.hops.toNat < 63 ∧ f.kind = 14 ∧ f.dst = 63 ∧ s.member = true ∧ s.bay ≠ 0 ∧ f.src.toNat ≠ s.bay ∧ s.gal.sk = some k ∧ f.tag = frTag f k ∧ (s.gal.lastSeq.find? (fun e => e.1 = f.src.toNat) = none) := by decide +kernel
theorem wit2GalleryResetsComeFromTakenFrames :
    let s : State := withRx ringBay (taken 14 [0x5A, 0])
    let r : RxFrame := taken 14 [0x5A, 0]
    s.galUp = true ∧ (s.rxFirst (fun r => r.act && r.f.kind = 14) = some r) := by decide +kernel
theorem wit3GalleryResetsComeFromTakenFrames :
    let s : State := { ringBay.updGal (fun g => { g with resetT := some 5000 }) with fclk := 5400 }
    let f : Nat := 5000
    s.galUp = true ∧ s.gal.resetT = some f ∧ f + 400 ≤ s.fclk := by decide +kernel
theorem wit4GalleryResetsComeFromTakenFrames :
    let s : State := { ringBay.updGal (fun g => { g with resetT := some 5000 }) with fclk := 5399 }
    let f : Nat := 5000
    s.gal.resetT = some f ∧ s.fclk < f + 400 := by decide +kernel

theorem wit1AnEmptyQueueLetsAnFclkPass :
    let s : State := up
    s.pending = [] ∧ s.islandUp .angle = true := by decide +kernel
theorem wit2AnEmptyQueueLetsAnFclkPass :
    let s : State := up
    s.pending = [] ∧ s.islandUp .angle = true ∧ NothingUnderWay s := by decide +kernel
theorem wit3AnEmptyQueueLetsAnFclkPass :
    let s : State := State.reset
    s.pending = [] ∧ s.islandUp .angle = false := by decide +kernel



theorem witANeedleCommandKeepsOtherNeedles : (0 : Fin 16) ≠ 15 ∧ Instr.needleBadop 0 ∈ [Instr.needleSet 0, .needleBadop 0] := by decide

theorem witEventLinesAreHighInAPulse :
    (up.updSt 127 fun t => { t with startT := 5, endT := 9, lineNo := 39 }).lineAt 39 8 = true
    ∧ (up.updSt 127 fun t => { t with startT := 5, endT := 9, lineNo := 39 }).lineAt 39 9 = false := by decide +kernel

theorem reset_wf : Memory.wf State.reset = true := by decide +kernel

/-! ### Single effects -/

/-- R48’s example: 0.731 V rounds down to 730 mV at 2 mV resolution. -/
theorem test_vmin_rounds : (goOn (exec (.railWarning 0 731) up)).get (F.PCR_VMIN 0) = 730 := by decide +kernel

/-- R35: two of three samples decide a strap. -/
theorem test_strap_majority : majority 5 = 1 ∧ majority 4 = 0 := by decide

/-- R13: the FCLK that brings TB to 1 000 000 makes a tick due. -/
theorem test_mt_tick_due : (({ up with tb := 999999 } : State).passFclk 1).mtDue = 1 := by decide +kernel

/-- R80’s example: an entry for EO_CFG3 with ALLOW, MASK, MIN 0 and MAX 0x200 lets the host change LEVEL alone. -/
theorem test_limit_example :
    (let s := up.updWvl fun w => { w with limits := [⟨R.EO_CFG 3, true, 0x200, 0, 0x200⟩] }
     let t := goOn (exec (.registerWrite .host (BitVec.ofNat 16 (R.EO_CFG 3)) 0xA00) s)
     (t.get (F.EO_CFG.LEVEL 3), t.get (F.EO_CFG.EN 3), t.get F.WVL_WLREJ.COUNT)) = (1, 0, 1) := by decide +kernel

/-- R210: 10 + (30 - 10) × 50 / 100, rounded down. -/
theorem test_lookup : ((goOn (exec (.recipeLookup 1) (running (2 + 2 * 16 + 16384 * 3)))).ctx 1 |>.map (fun c => c.v.getD 2 0)) = some 20 := by
  decide +kernel

/-- R340: the idle word from negative running disparity, K28.5 then D16.2, as IEEE 802.3 clause 36 codes them. -/
theorem test_idle_word : laneSend false .idle = (0b00111110101001000101, false) := by decide

/-! ### Ill-formed commands are refused, one for each check -/

theorem test_wf_governed :
    (([.blockResetRequest .wvl 1, .registerWrite .chart 0 0, .readClear .stc 0, .trackerRunWrite 0 .gauge true, .geometryWrite 0 0 .wvl 0,
      .hostQvWrite 0 .chart 0, .needleStart 0 .wvl, .needleStop 0 .wvl, .bedSyncStart 1 .wvl, .programStoreWrite 0 0 .wvl 0,
      .comparatorConfigWrite 0 .wvl 0, .windowModeWrite 0 .wvl 0, .hallOwnerWrite 0 .wvl 0, .hookBudgetWrite 0 .wvl 0, .irqDoneWrite .wvl 0,
      .faultForce 0 .wvl 0, .capclr .wvl, .chiprst .wvl, .stitchParamWrite 0 0 .wvl 0] : List Instr).all fun i => !i.wf) = true := by decide
theorem test_wf_hotTarget : (Instr.hotswapApply 0x10 0).wf = false := by decide
theorem test_wf_slots_empty : (Instr.slotLineRise []).wf = false := by decide
theorem test_wf_slots_twice : (Instr.slotLineRise [0, 0]).wf = false := by decide
theorem test_wf_crossing : (Instr.crossingCheckFail .angle .planRequest).wf = false := by decide
theorem test_wf_hallAccess : (Instr.hallAccess .host 0x7FFFFF .b2 none ⟨0, 0⟩).wf = false := by decide
theorem test_wf_nvsRead : (Instr.nvsRead .host 0x1FFFFE .b4 ⟨0, 0⟩).wf = false := by decide
theorem test_wf_frame : (Instr.frameReceive false (List.replicate 46 0)).wf = false := by decide
theorem test_wf_resid : (Instr.enumAssign (2 ^ 32)).wf = false ∧ (Instr.syncReceive 0 (2 ^ 32)).wf = false := by decide
theorem test_wf_can : (Instr.canFrameReceive 0 { canFrm with rtr := true }).wf = false := by decide
theorem test_wf_can_id : (Instr.canFrameReceive 0 { canFrm with id := 0x800 }).wf = false := by decide
theorem test_wf_can_data : (Instr.canFrameReceive 0 { canFrm with data := [] }).wf = false := by decide
theorem test_wf_can_classical : (Instr.canFrameReceive 0 { canFrm with fdf := false, dlc := 0, data := [] }).wf = false := by decide
theorem test_wf_sent : (Instr.sentFrameEnd 0 { cal := 1, nibs := List.replicate 17 1, pause := none }).wf = false := by decide
theorem test_wf_findings : (Instr.faultEvent []).wf = false ∧ (Instr.faultEvent [.error 3, .integ 3]).wf = false := by decide
theorem test_wf_host : (([.hostFetch [0x20] 0, .hostRegrd [0x40] 0, .hostRegwr [0x60] 0, .hostMemrd [0x80] 0, .hostMemwr [0] 0] : List Instr).all
    fun i => !i.wf) = true := by decide

/-! ### Values of the spec's tables and worked examples -/

/-- Table 17.1: the CRC of a FETCH. -/
theorem test_fetch_crc : crc8 [0x00] = 0xBD := by decide
/-- The worked example of chapter 17: the CRC of a REGRD of IRT_CLAIM. -/
theorem test_regrd_crc : crc8 [0x20, 0x00, 0x00, 0x64, 0x12] = 0x2B := by decide
/-- The worked example of chapter 21: the CRC and the channels of a SENT frame, and its configuration word. -/
theorem test_sent_crc : sentCrc false [0xC, 0xB, 0x2, 0xD, 0x4, 0x3] = 9 := by decide
theorem test_sent_channels : sentChannels 1 [0xC, 0xB, 0x2, 0xD, 0x4, 0x3] = (3250, 0x34D) := by decide
theorem test_sent_cfg : (((((up.set (F.SENT_CFG.EN 0) 1).set (F.SENT_CFG.TICKQ 0) 6).set (F.SENT_CFG.NNIB 0) 6).set (F.SENT_CFG.FMT 0) 1).set
    (F.SENT_CFG.SUCC 0) 1).reg (R.SENT_CFG 0) = 0x11C0D := by decide +kernel
/-- R1: CHIP_ID. -/
theorem test_chip_id : State.reset.reg R.CHIP_ID = 0x32A41 := by decide +kernel
/-- The spec gives commands no word of bits. -/
theorem test_no_word : Sys2Proof.decodeTableWord 8 0 = none := by decide

end Sys2Proof.Tests
end

section
/-! SUPPORT. Every operation of the model keeps the queue and the canonical form of the stores: one lemma per operation, in the order of
the model’s files, up to the dispatch and the step (O58). A proof follows its operation’s chain of updates. -/

set_option Elab.async false

namespace Sys2Proof.Machine

/-- What every operation of the model keeps, from a state `s₀` to a later state `s`: the commands that wait, and the canonical form of
the stores. -/
structure Keeps (s₀ s : State) : Prop where
  queue : s.pending = s₀.pending
  canon : Memory.wf s₀ = true → Memory.wf s = true

variable {s₀ s t : State}

/-! ### The rules that every proof is made of -/

theorem Keeps.refl (s : State) : Keeps s s := ⟨rfl, id⟩

/-- An update of other fields than the queue and the stores. -/
theorem Keeps.frame (h : Keeps s₀ s) (hq : t.pending = s.pending := by (try dsimp only) <;> rfl)
    (hr : t.regs = s.regs := by (try dsimp only) <;> rfl) (hh : t.halls = s.halls := by (try dsimp only) <;> rfl)
    (hn : t.nvs = s.nvs := by (try dsimp only) <;> rfl) : Keeps s₀ t :=
  ⟨hq.trans h.queue, fun w => Memory.wf_of_eq hr hh hn (h.canon w)⟩

/-- An update of the stores that keeps their canonical form, and the queue with it. -/
theorem Keeps.stores (h : Keeps s₀ s) (hw : Memory.wf s = true → Memory.wf t = true) (hq : t.pending = s.pending := by rfl) :
    Keeps s₀ t :=
  ⟨hq.trans h.queue, fun w => hw (h.canon w)⟩

theorem Keeps.ite {c : Prop} {_ : Decidable c} (hs : Keeps s₀ s) (ht : Keeps s₀ t) : Keeps s₀ (if c then s else t) := by
  split
  · exact hs
  · exact ht

/-- An answer that carries data beside the state, or before it. -/
theorem Keeps.pairFst {α : Type} {x : α} (h : Keeps s₀ s) : Keeps s₀ (s, x).1 := h
theorem Keeps.pairSnd {α : Type} {x : α} (h : Keeps s₀ s) : Keeps s₀ (x, s).2 := h

theorem Keeps.iteFst {α : Type} {c : Prop} {_ : Decidable c} {p q : State × α} (hp : Keeps s₀ p.1) (hq : Keeps s₀ q.1) :
    Keeps s₀ (if c then p else q).1 := by
  split
  · exact hp
  · exact hq

theorem Keeps.iteSnd {α : Type} {c : Prop} {_ : Decidable c} {p q : α × State} (hp : Keeps s₀ p.2) (hq : Keeps s₀ q.2) :
    Keeps s₀ (if c then p else q).2 := by
  split
  · exact hp
  · exact hq

/-- `if c then f s else s`, in a chain of updates. -/
theorem Keeps.when {c : Prop} {_ : Decidable c} (h : Keeps s₀ s) (hf : Keeps s₀ s → Keeps s₀ t) : Keeps s₀ (if c then t else s) :=
  .ite (hf h) h

/-- `if c then s else f s`, in a chain of updates. -/
theorem Keeps.unless {c : Prop} {_ : Decidable c} (h : Keeps s₀ s) (hf : Keeps s₀ s → Keeps s₀ t) : Keeps s₀ (if c then s else t) :=
  .ite h (hf h)

/-- `if c then f s else g s`, in a chain of updates. -/
theorem Keeps.branch {c : Prop} {_ : Decidable c} {u : State} (h : Keeps s₀ s) (hf : Keeps s₀ s → Keeps s₀ t)
    (hg : Keeps s₀ s → Keeps s₀ u) : Keeps s₀ (if c then t else u) :=
  .ite (hf h) (hg h)

theorem Keeps.each {α : Type} {l : List α} {f : State → α → State} (h : Keeps s₀ s) (hf : ∀ s x, Keeps s₀ s → Keeps s₀ (f s x)) :
    Keeps s₀ (s.each l f) :=
  State.each_keeps (Keeps s₀) f hf l s h

/-- Entries leave the register file and the halls. -/
theorem Keeps.taken {p : Nat × Word → Bool} {q : Host.Cell → Bool} (h : Keeps s₀ s) (hr : t.regs = s.regs.filter p)
    (hh : t.halls = s.halls.filter q) (hq : t.pending = s.pending := by rfl) (hn : t.nvs = s.nvs := by rfl) : Keeps s₀ t := by
  refine h.stores (fun w => ?_) hq
  rw [Memory.wf_iff] at *
  obtain ⟨wr, wh, wn⟩ := w
  rw [hr, hh, hn]
  exact ⟨cellsWf_filter resetOf p s.regs wr, cellsWf_filter hallDefault q s.halls wh, wn⟩

/-- Registers leave the file. -/
theorem Keeps.regsOut {p : Nat × Word → Bool} (h : Keeps s₀ s) (hr : t.regs = s.regs.filter p := by rfl)
    (hq : t.pending = s.pending := by rfl) (hh : t.halls = s.halls := by rfl) (hn : t.nvs = s.nvs := by rfl) : Keeps s₀ t :=
  h.taken hr (hh.trans (List.filter_true _).symm) hq hn

/-! ### Registers and fields -/

theorem Keeps.setReg (h : Keeps s₀ s) {a : Nat} {v : Word} : Keeps s₀ (s.setReg a v) :=
  h.stores (Memory.wf_setReg a v)

theorem Keeps.set (h : Keeps s₀ s) {f : Fld} {v : Nat} : Keeps s₀ (s.set f v) :=
  h.setReg

theorem Keeps.setB (h : Keeps s₀ s) {f : Fld} {b : Bool} : Keeps s₀ (s.setB f b) :=
  h.set

theorem Keeps.inc (h : Keeps s₀ s) {f : Fld} : Keeps s₀ (s.inc f) :=
  h.set

theorem Keeps.incW (h : Keeps s₀ s) {f : Fld} : Keeps s₀ (s.incW f) :=
  h.set

theorem Keeps.setBitAt (h : Keeps s₀ s) {f : Fld} {i : Nat} {b : Bool} : Keeps s₀ (s.setBitAt f i b) :=
  h.set

theorem Keeps.nclkDiv (h : Keeps s₀ s) {d : Nat} : Keeps s₀ (s.nclkDiv d) :=
  .ite h h.frame

theorem Keeps.mark (h : Keeps s₀ s) {a : Nat} {f : Word → Word} : Keeps s₀ (s.mark a f) :=
  .ite h.frame h

theorem Keeps.evt (h : Keeps s₀ s) {f : Fld} : Keeps s₀ (s.evt f) :=
  h.mark.set

theorem Keeps.evtAt (h : Keeps s₀ s) {f : Fld} {i : Nat} : Keeps s₀ (s.evtAt f i) :=
  h.mark.setBitAt

theorem Keeps.evtAdd (h : Keeps s₀ s) {f : Fld} {k : Nat} : Keeps s₀ (s.evtAdd f k) :=
  h.mark.set

theorem Keeps.evtInc (h : Keeps s₀ s) {f : Fld} : Keeps s₀ (s.evtInc f) :=
  h.evtAdd

theorem Keeps.recordReject (h : Keeps s₀ s) {a : Nat} : Keeps s₀ (s.recordReject a) :=
  h.set.evtInc

theorem Keeps.writeCodes (h : Keeps s₀ s) {src : Master} {a : Nat} {v : Word} : Keeps s₀ (s.writeCodes src a v) :=
  h.setReg.when (·.recordReject)

theorem Keeps.clearRC (h : Keeps s₀ s) {a : Nat} : Keeps s₀ (s.clearRC a) :=
  .ite h h.setReg

/-! ### Interrupt sources and findings -/

theorem Keeps.lostMet (h : Keeps s₀ s) {x : LostItem} : Keeps s₀ (s.lostMet x) :=
  h.frame

theorem Keeps.raise (h : Keeps s₀ s) {k : Nat} : Keeps s₀ (s.raise k) :=
  .ite h <| .ite h.lostMet <| .ite h.evtInc h.incW

theorem Keeps.raiseIf (h : Keeps s₀ s) {c : Bool} {k : Nat} : Keeps s₀ (s.raiseIf c k) :=
  .ite h.raise h

theorem Keeps.reportSig (h : Keeps s₀ s) {g : FaultSig} : Keeps s₀ (s.reportSig g) :=
  .ite h <| .ite h.frame h.frame

theorem Keeps.report (h : Keeps s₀ s) {src det : Nat} : Keeps s₀ (s.report src det) :=
  h.reportSig

theorem Keeps.standOn (h : Keeps s₀ s) {src det : Nat} : Keeps s₀ (s.standOn src det) :=
  .ite h h.frame

theorem Keeps.standOff (h : Keeps s₀ s) {src det : Nat} : Keeps s₀ (s.standOff src det) :=
  h.frame

/-! ### Time, bytes of the stores, entries of the tables -/

theorem Keeps.tbAdvance (h : Keeps s₀ s) {k : Nat} : Keeps s₀ (s.tbAdvance k) :=
  h.frame

theorem Keeps.tbStep (h : Keeps s₀ s) {v : Nat} : Keeps s₀ (s.tbStep v) :=
  h.frame

theorem Keeps.setHallByte (h : Keeps s₀ s) {a : Nat} {b : Byte} : Keeps s₀ (s.setHallByte a b) :=
  h.stores (Memory.wf_setHallByte a b)

theorem Keeps.setHallBytes (h : Keeps s₀ s) {a : Nat} {l : List Byte} : Keeps s₀ (s.setHallBytes a l) := by
  induction l generalizing s a with
  | nil => exact h
  | cons b t ih => exact ih h.setHallByte

theorem Keeps.setNvByte (h : Keeps s₀ s) {a : Nat} {b : Byte} : Keeps s₀ (s.setNvByte a b) :=
  h.stores (Memory.wf_setNvByte a b)

theorem Keeps.setNvBytes (h : Keeps s₀ s) {a : Nat} {l : List Byte} : Keeps s₀ (s.setNvBytes a l) := by
  induction l generalizing s a with
  | nil => exact h
  | cons b t ih => exact ih h.setNvByte

theorem Keeps.free (h : Keeps s₀ s) : Keeps s₀ s.free.2 :=
  h.frame

theorem Keeps.freeBytes (h : Keeps s₀ s) {n : Nat} : Keeps s₀ (s.freeBytes n).2 :=
  h.frame

theorem Keeps.updTrk (h : Keeps s₀ s) {n : Nat} {f : Trk → Trk} : Keeps s₀ (s.updTrk n f) :=
  h.frame

theorem Keeps.updSt (h : Keeps s₀ s) {n : Nat} {f : Stitch → Stitch} : Keeps s₀ (s.updSt n f) :=
  h.frame

theorem Keeps.updBank (h : Keeps s₀ s) {b : Nat} {f : Bank → Bank} : Keeps s₀ (s.updBank b f) :=
  h.frame

theorem Keeps.updNdl (h : Keeps s₀ s) {m : Nat} {f : Ndl → Ndl} : Keeps s₀ (s.updNdl m f) :=
  h.frame

theorem Keeps.updTmr (h : Keeps s₀ s) {n : Nat} {f : Tmr → Tmr} : Keeps s₀ (s.updTmr n f) :=
  h.frame

theorem Keeps.updHk (h : Keeps s₀ s) {c : Nat} {f : Hk → Hk} : Keeps s₀ (s.updHk c f) :=
  h.frame

theorem Keeps.updCht (h : Keeps s₀ s) {f : Cht → Cht} : Keeps s₀ (s.updCht f) :=
  h.frame

theorem Keeps.updGau (h : Keeps s₀ s) {f : Gau → Gau} : Keeps s₀ (s.updGau f) :=
  h.frame

theorem Keeps.updHal (h : Keeps s₀ s) {f : Hal → Hal} : Keeps s₀ (s.updHal f) :=
  h.frame

theorem Keeps.updPor (h : Keeps s₀ s) {f : Por → Por} : Keeps s₀ (s.updPor f) :=
  h.frame

theorem Keeps.updPcr (h : Keeps s₀ s) {f : Pcr → Pcr} : Keeps s₀ (s.updPcr f) :=
  h.frame

theorem Keeps.updWvl (h : Keeps s₀ s) {f : Wvl → Wvl} : Keeps s₀ (s.updWvl f) :=
  h.frame

theorem Keeps.updGal (h : Keeps s₀ s) {f : Gal → Gal} : Keeps s₀ (s.updGal f) :=
  h.frame

theorem Keeps.updIrt (h : Keeps s₀ s) {f : Irt → Irt} : Keeps s₀ (s.updIrt f) :=
  h.frame

theorem Keeps.updHost (h : Keeps s₀ s) {f : HostPort → HostPort} : Keeps s₀ (s.updHost f) :=
  h.frame

theorem Keeps.updStc (h : Keeps s₀ s) {f : Stc → Stc} : Keeps s₀ (s.updStc f) :=
  h.frame

theorem Keeps.updTru (h : Keeps s₀ s) {f : Tru → Tru} : Keeps s₀ (s.updTru f) :=
  h.frame

theorem Keeps.updCan (h : Keeps s₀ s) {x : Nat} {f : Can → Can} : Keeps s₀ (s.updCan x f) :=
  h.frame

theorem Keeps.updSent (h : Keeps s₀ s) {r : Nat} {f : SentRx → SentRx} : Keeps s₀ (s.updSent r f) :=
  h.frame

theorem Keeps.updCmp (h : Keeps s₀ s) {f : CmpBlk → CmpBlk} : Keeps s₀ (s.updCmp f) :=
  h.frame

/-! ### Stitches -/

theorem Keeps.stSetShadow (h : Keeps s₀ s) {n w v : Nat} : Keeps s₀ (s.stSetShadow n w v) :=
  h.updSt.set

theorem Keeps.stCommit (h : Keeps s₀ s) {n : Nat} : Keeps s₀ (s.stCommit n) :=
  .ite h (h.set.when (·.evt.raiseIf))

theorem Keeps.stFinish (h : Keeps s₀ s) {n res : Nat} {nxt : Option Nat} : Keeps s₀ (s.stFinish n res nxt) :=
  h.set.setB.setB.setB.incW.set.updSt.raiseIf

theorem Keeps.stCrowd (h : Keeps s₀ s) {n : Nat} : Keeps s₀ (s.stCrowd n) :=
  h.evt.evt.set.evtInc.report.raiseIf

theorem Keeps.stLoadStart (h : Keeps s₀ s) {n trk st : Nat} : Keeps s₀ (s.stLoadStart n trk st) :=
  .ite h <| .ite h.updSt h.updSt.stCrowd

theorem Keeps.stLoadEnd (h : Keeps s₀ s) {n : Nat} : Keeps s₀ (s.stLoadEnd n) :=
  .ite h <| .ite h.updSt h.updSt.stCrowd

theorem Keeps.stBegin (h : Keeps s₀ s) {n trk res d : Nat} : Keeps s₀ (s.stBegin n trk res d) :=
  h.set.set.updSt.raiseIf.when (·.stLoadEnd)

theorem Keeps.stLate (h : Keeps s₀ s) {n trk lam : Nat} : Keeps s₀ (s.stLate n trk lam) := by
  unfold State.stLate
  split
  · exact h
  · exact .ite h.stBegin <| .ite (.ite h.stBegin h.stFinish) h.stFinish

theorem Keeps.stArm (h : Keeps s₀ s) {n trk st : Nat} : Keeps s₀ (s.stArm n trk st) :=
  h.updSt.set.branch (fun h => .ite h.stBegin h.stLate) fun h => .ite h.stLoadStart h

theorem Keeps.stScan (h : Keeps s₀ s) {n : Nat} : Keeps s₀ (s.stScan n) := by
  refine .ite h <| .ite h.updSt ?_
  split
  · exact h.updSt.when (·.updSt.when (·.stArm))
  · split
    · exact h.updSt.when (·.stLoadStart)
    · exact h.updSt
  · exact h.updSt.when (·.stLoadEnd)
  · exact h.updSt

theorem Keeps.stPlan (h : Keeps s₀ s) {n : Nat} : Keeps s₀ (s.stPlan n) :=
  (h.when (·.updSt.setB.set)).updSt.branch (·.updSt) fun h => .ite h.set <| .ite h h.set.updSt

theorem Keeps.stMoveStart (h : Keeps s₀ s) {t old new : Nat} {mv : Move} {n : Nat} : Keeps s₀ (s.stMoveStart t old new mv n) := by
  unfold State.stMoveStart
  split
  · exact h
  · exact .ite h <| .ite h <| .ite h.stBegin h.updSt.stLate

theorem Keeps.stMovePlan (h : Keeps s₀ s) {t old new n : Nat} : Keeps s₀ (s.stMovePlan t old new n) :=
  .ite h h.stPlan

theorem Keeps.stWord (h : Keeps s₀ s) {t old new : Nat} {mv : Move} : Keeps s₀ (s.stWord t old new mv) :=
  .ite h ((h.each fun _ _ h => h.stMoveStart).each fun _ _ h => h.stMovePlan)

theorem Keeps.stEntry (h : Keeps s₀ s) {t : Nat} : Keeps s₀ (s.stEntry t) :=
  .ite (h.each fun _ _ h => h.stPlan) h

theorem Keeps.stTooth (h : Keeps s₀ s) {t : Nat} : Keeps s₀ (s.stTooth t) :=
  .ite (h.each fun _ _ h => h.updSt).frame h

theorem Keeps.stOnEvent (h : Keeps s₀ s) {e : TrkEvent} {n : Nat} : Keeps s₀ (s.stOnEvent e n) := by
  unfold State.stOnEvent
  split
  · exact h.stFinish
  · split
    · exact h.stFinish
    · exact .ite h h.stFinish
    · exact .ite h h.stFinish
  · exact h

theorem Keeps.stEvent (h : Keeps s₀ s) {t : Nat} {e : TrkEvent} : Keeps s₀ (s.stEvent t e) :=
  h.each fun _ _ h => h.stOnEvent

theorem Keeps.stCheck (h : Keeps s₀ s) {chk : Option (Fin 128)} : Keeps s₀ (s.stCheck chk) := by
  unfold State.stCheck
  split
  · exact h
  · exact h.evt.evt.set.set.evtInc.report.raiseIf

theorem Keeps.stCancel (h : Keeps s₀ s) {n : Nat} : Keeps s₀ (s.stCancel n) := by
  unfold State.stCancel
  split
  · exact h.stFinish
  · exact h.stFinish
  · exact h.stFinish
  · exact h

theorem Keeps.stParamWrite (h : Keeps s₀ s) {n w : Nat} {src : Master} {v : Word} : Keeps s₀ (s.stParamWrite n w src v) :=
  .ite h (h.stSetShadow.when (·.recordReject))

theorem Keeps.stItem (h : Keeps s₀ s) {i : SuItem} : Keeps s₀ (s.stItem i) := by
  unfold State.stItem
  split
  · exact .ite h h.stSetShadow.updSt
  · exact h.stCommit

theorem Keeps.suScan (h : Keeps s₀ s) {chk : Option (Fin 128)} : Keeps s₀ (s.suScan chk) :=
  .ite h.stCheck (h.each fun _ _ h => h.stScan).frame.stCheck

theorem Keeps.suDo (h : Keeps s₀ s) {a : SuAct} : Keeps s₀ (s.suDo a) := by
  unfold State.suDo
  split
  · exact h.stParamWrite
  · exact h.stItem
  · exact h.stCancel
  · exact h.stCommit
  · exact h.suScan

theorem Keeps.suAct (h : Keeps s₀ s) {a : SuAct} : Keeps s₀ (s.suAct a) :=
  .ite h.suDo h.frame

theorem Keeps.suStep (h : Keeps s₀ s) {k : Nat} : Keeps s₀ (s.suStep k) :=
  .ite (h.frame.each fun _ _ h => h.suDo) h

theorem Keeps.suFlush (h : Keeps s₀ s) : Keeps s₀ s.suFlush :=
  .ite h h.suStep.suStep.suStep

theorem Keeps.execStitchScan (h : Keeps s₀ s) {chk : Option (Fin 128)} : GoesTo (execStitchScan chk s) (Keeps s₀) :=
  ⟨_, rfl, .ite h.suAct h⟩

theorem Keeps.execStitchPulseEnd (h : Keeps s₀ s) {n : Fin 128} {chk : Option (Fin 128)} :
    GoesTo (execStitchPulseEnd n chk s) (Keeps s₀) :=
  ⟨_, rfl, .ite h.stFinish.stCheck h⟩

theorem Keeps.execStitchCommit (h : Keeps s₀ s) {n : Fin 128} : GoesTo (execStitchCommit n s) (Keeps s₀) :=
  ⟨_, rfl, .ite h.suAct.suFlush h⟩

theorem Keeps.execStitchCancel (h : Keeps s₀ s) {n : Fin 128} : GoesTo (execStitchCancel n s) (Keeps s₀) :=
  ⟨_, rfl, .ite h.suAct.suFlush h⟩

theorem Keeps.execStitchParamWrite (h : Keeps s₀ s) {n : Fin 128} {w : Fin 6} {src : Master} {v : Word} :
    GoesTo (execStitchParamWrite n w src v s) (Keeps s₀) :=
  ⟨_, rfl, .ite h.suAct.suFlush h⟩

theorem Keeps.execStitchItemArrive (h : Keeps s₀ s) : GoesTo (execStitchItemArrive s) (Keeps s₀) := by
  refine ⟨_, rfl, .ite ?_ h⟩
  split
  · exact h
  · exact h.frame.when (·.suAct.suFlush)

/-! ### Injector channels -/

theorem Keeps.injFlag (h : Keeps s₀ s) {n : Nat} {f : Fld} : Keeps s₀ (s.injFlag n f) :=
  h.evt.raise

theorem Keeps.setSeen (h : Keeps s₀ s) {k : Nat} {b : Bool} : Keeps s₀ (s.setSeen k b) :=
  h.frame

theorem Keeps.setRefused (h : Keeps s₀ s) {k : Nat} {b : Bool} : Keeps s₀ (s.setRefused k b) :=
  h.frame

theorem Keeps.bankClose (h : Keeps s₀ s) {b : Nat} : Keeps s₀ (s.bankClose b) :=
  (h.set.set.setB.set.set.when (·.set.set.set.set)).updBank

theorem Keeps.bankCut (h : Keeps s₀ s) {b cause : Nat} : Keeps s₀ (s.bankCut b cause) :=
  .ite h.bankClose.setRefused.set.injFlag h

theorem Keeps.cutAll (h : Keeps s₀ s) {cause : Nat} : Keeps s₀ (s.cutAll cause) :=
  h.each fun _ _ h => h.bankCut

theorem Keeps.loadFlag (h : Keeps s₀ s) {b code : Nat} : Keeps s₀ (s.loadFlag b code) :=
  h.injFlag.report

theorem Keeps.bankOnTime (h : Keeps s₀ s) {b t on : Nat} : Keeps s₀ (s.bankOnTime b t on) :=
  h.updBank.when (·.set.set.raiseIf)

theorem Keeps.batEval (h : Keeps s₀ s) {b : Nat} : Keeps s₀ (s.batEval b) :=
  .ite h (h.updBank.when (·.bankOnTime))

theorem Keeps.bankSees (h : Keeps s₀ s) {b : Nat} : Keeps s₀ (s.bankSees b) := by
  refine .ite h (.when ?_ fun h => (h.loadFlag.when (·.set)).bankCut)
  split
  · exact (((h.when (·.updBank)).when (·.loadFlag)).when (·.updBank)).when (·.bankOnTime)
  · exact ((h.when (·.updBank)).when (·.loadFlag)).when (·.updBank)

theorem Keeps.bankOpen (h : Keeps s₀ s) {n sl : Nat} : Keeps s₀ (s.bankOpen n sl) :=
  ((h.set.set.set.incW.updBank.when (·.evt.report)).when (·.set)).bankSees.batEval

theorem Keeps.refuse (h : Keeps s₀ s) {n sl reason : Nat} : Keeps s₀ (s.refuse n sl reason) := by
  unfold State.refuse
  dsimp only
  split
  · exact h.setRefused.set.set.set.evtInc.injFlag
  · exact h.setRefused.set.set.set.evtInc.injFlag.frame

theorem Keeps.bankConfs (h : Keeps s₀ s) : Keeps s₀ s.bankConfs := by
  refine .ite h (h.frame.each fun _ _ h => ?_)
  split
  · exact .ite h.evt h
  · exact h

theorem Keeps.request (h : Keeps s₀ s) {k : Nat} {free : Bool} : Keeps s₀ (s.request k free) :=
  h.setSeen.branch (·.setRefused.evtInc) fun h => .ite (.ite h.refuse h.bankOpen) <| .ite h.refuse h.refuse

theorem Keeps.execSlotLineRise (h : Keeps s₀ s) {slots : List (Fin 128)} : GoesTo (execSlotLineRise slots s) (Keeps s₀) :=
  ⟨_, rfl, .ite (h.each fun _ _ h => h.request) h⟩

theorem Keeps.execSlotLineFall (h : Keeps s₀ s) {slot : Fin 128} : GoesTo (execSlotLineFall slot s) (Keeps s₀) :=
  ⟨_, rfl, .ite (h.setSeen.setRefused.when (·.bankClose)) h⟩

theorem Keeps.execBankDrainEnd (h : Keeps s₀ s) {b : Fin 4} : GoesTo (execBankDrainEnd b s) (Keeps s₀) :=
  ⟨_, rfl, .ite h.set h⟩

theorem Keeps.execH1doneRise (h : Keeps s₀ s) {b : Fin 4} : GoesTo (execH1doneRise b s) (Keeps s₀) :=
  ⟨_, rfl, .ite h.updBank h⟩

theorem Keeps.execInjComparatorChange (h : Keeps s₀ s) {k : Fin 16} : GoesTo (execInjComparatorChange k s) (Keeps s₀) :=
  ⟨_, rfl, .ite h.updBank.bankSees h⟩

theorem Keeps.execPeakTimeLimit (h : Keeps s₀ s) {b : Fin 4} : GoesTo (execPeakTimeLimit b s) (Keeps s₀) :=
  ⟨_, rfl, .ite (h.updBank.when (·.loadFlag.bankCut)) h⟩

theorem Keeps.execEoiCrossing (h : Keeps s₀ s) {b : Fin 4} : GoesTo (execEoiCrossing b s) (Keeps s₀) := by
  refine ⟨_, rfl, ?_⟩
  split
  · exact h
  · exact .ite (h.updBank.when (·.set)).set.inc.setB h

theorem Keeps.execEoiObserveEnd (h : Keeps s₀ s) {b : Fin 4} : GoesTo (execEoiObserveEnd b s) (Keeps s₀) := by
  refine ⟨_, rfl, ?_⟩
  split
  · exact h
  · exact .ite h.updBank h

theorem Keeps.execInjReenable (h : Keeps s₀ s) {i : Fin 16} : GoesTo (execInjReenable i s) (Keeps s₀) :=
  ⟨_, rfl, .ite h.set h⟩

theorem Keeps.injReset (h : Keeps s₀ s) : Keeps s₀ s.injReset :=
  h.frame

/-! ### Needles -/

theorem Keeps.flagSet (h : Keeps s₀ s) {n : Nat} : Keeps s₀ (s.flagSet n) :=
  .ite h h.evtAt.raiseIf

theorem Keeps.flagClear (h : Keeps s₀ s) {n : Nat} : Keeps s₀ (s.flagClear n) :=
  h.setBitAt

theorem Keeps.ndlPins (h : Keeps s₀ s) {m : Nat} {dirs : Bool} {v cnt : Nat} : Keeps s₀ (s.ndlPins m dirs v cnt) :=
  h.updNdl.when (·.batEval)

theorem Keeps.ndlDone (h : Keeps s₀ s) {m w pc : Nat} : Keeps s₀ (s.ndlDone m w pc) :=
  h.set.set.updNdl

theorem Keeps.ndlStall (h : Keeps s₀ s) {m : Nat} : Keeps s₀ (s.ndlStall m) :=
  h.set.set.updNdl

theorem Keeps.ndlDest (h : Keeps s₀ s) {m code v cnt : Nat} {out : Bool} : Keeps s₀ (s.ndlDest m code v cnt out).1 := by
  unfold State.ndlDest
  split
  · exact h.ndlPins
  · exact h.set
  · exact h.set
  · exact h.set.updNdl
  · exact .ite h h.set.updNdl
  · exact h.ndlPins
  · exact h
  · exact h

theorem Keeps.execNeedleSet (h : Keeps s₀ s) {m : Fin 16} : GoesTo (execNeedleSet m s) (Keeps s₀) := by
  refine ⟨_, rfl, .ite (.ndlDone (?_)) h⟩
  split
  · exact h.set
  · exact h.set
  · exact h.set
  · exact h.set

theorem Keeps.execNeedleMov (h : Keeps s₀ s) {m : Fin 16} {np : BitVec 32} : GoesTo (execNeedleMov m np s) (Keeps s₀) :=
  ⟨_, rfl, .ite h.ndlDest.ndlDone h⟩

theorem Keeps.execNeedleJmp (h : Keeps s₀ s) {m : Fin 16} {np : BitVec 32} : GoesTo (execNeedleJmp m np s) (Keeps s₀) := by
  refine ⟨_, rfl, .ite (.ndlDone (?_)) h⟩
  split
  · exact h
  · exact h
  · exact h
  · exact h.set
  · exact h.set
  · exact h
  · exact h
  · exact h

theorem Keeps.execNeedleWait (h : Keeps s₀ s) {m : Fin 16} {np : BitVec 32} : GoesTo (execNeedleWait m np s) (Keeps s₀) :=
  ⟨_, rfl, .ite (.ite h.ndlDone h.ndlStall) h⟩

theorem Keeps.execNeedleIn (h : Keeps s₀ s) {m : Fin 16} {np : BitVec 32} : GoesTo (execNeedleIn m np s) (Keeps s₀) :=
  ⟨_, rfl, .ite h.set.updNdl.ndlDone h⟩

theorem Keeps.execNeedleOut (h : Keeps s₀ s) {m : Fin 16} : GoesTo (execNeedleOut m s) (Keeps s₀) :=
  ⟨_, rfl, .ite (.ite h.ndlPins.ndlDone h.set.updNdl.ndlDest.ndlDone) h⟩

theorem Keeps.execNeedlePush (h : Keeps s₀ s) {m : Fin 16} : GoesTo (execNeedlePush m s) (Keeps s₀) :=
  ⟨_, rfl, .ite (.ite h.ndlStall (Keeps.ite h.evt h.updNdl).set.updNdl.ndlDone) h⟩

theorem Keeps.execNeedlePull (h : Keeps s₀ s) {m : Fin 16} : GoesTo (execNeedlePull m s) (Keeps s₀) := by
  refine ⟨_, rfl, .ite ?_ h⟩
  split
  · exact .ite h.ndlStall h.ndlDone
  · exact h.set.updNdl.ndlDone

theorem Keeps.ndlFlag (h : Keeps s₀ s) {k : Nat} {on : Bool} : Keeps s₀ (s.ndlFlag k on) :=
  h.updNdl.branch (·.flagSet) (·.flagClear)

theorem Keeps.execNeedleFlag (h : Keeps s₀ s) {m : Fin 16} : GoesTo (execNeedleFlag m s) (Keeps s₀) := by
  refine ⟨_, rfl, .ite ?_ h⟩
  dsimp only
  split
  · exact h.ndlFlag.ndlDone
  · exact h.ndlFlag.ndlDone
  · exact .ite (.ite h.ndlStall h.ndlDone) h.ndlFlag.ndlStall.updNdl
  · exact .ite (.ite h.ndlDone h.ndlStall) h.ndlFlag.ndlStall.updNdl

theorem Keeps.execNeedleBadop (h : Keeps s₀ s) {m : Fin 16} : GoesTo (execNeedleBadop m s) (Keeps s₀) :=
  ⟨_, rfl, .ite h.evt.ndlDone h⟩

theorem Keeps.ndlChanged (h : Keeps s₀ s) {m : Nat} : Keeps s₀ (s.ndlChanged m) :=
  h.updNdl

theorem Keeps.ndlStart (h : Keeps s₀ s) {m : Nat} : Keeps s₀ (s.ndlStart m) :=
  .ite h.ndlChanged.set.updNdl h

theorem Keeps.ndlStop (h : Keeps s₀ s) {m cause : Nat} : Keeps s₀ (s.ndlStop m cause) :=
  .ite h h.ndlChanged.set.set.set.updNdl

theorem Keeps.execNeedleStart (h : Keeps s₀ s) {m : Fin 16} {src : Master} : GoesTo (execNeedleStart m src s) (Keeps s₀) :=
  ⟨_, rfl, .ite h.ndlStart h⟩

theorem Keeps.execNeedleStop (h : Keeps s₀ s) {m : Fin 16} {src : Master} : GoesTo (execNeedleStop m src s) (Keeps s₀) :=
  ⟨_, rfl, .ite h.ndlStop h⟩

theorem Keeps.bedSync (h : Keeps s₀ s) {mask : Nat} {src : Master} : Keeps s₀ (s.bedSync mask src) :=
  h.each fun _ _ h => .ite h.ndlStart h

theorem Keeps.execBedSyncStart (h : Keeps s₀ s) {mask : BitVec 16} {src : Master} :
    GoesTo (execBedSyncStart mask src s) (Keeps s₀) :=
  ⟨_, rfl, .ite h.bedSync h⟩

theorem Keeps.ndlPcWrite (h : Keeps s₀ s) {m v : Nat} : Keeps s₀ (s.ndlPcWrite m v) :=
  .ite h.set h

theorem Keeps.execNeedlePcWrite (h : Keeps s₀ s) {m : Fin 16} {v : BitVec 6} : GoesTo (execNeedlePcWrite m v s) (Keeps s₀) :=
  ⟨_, rfl, .ite h.ndlPcWrite h⟩

theorem Keeps.ndlTxWrite (h : Keeps s₀ s) {m v : Nat} : Keeps s₀ (s.ndlTxWrite m v) :=
  .ite h.updNdl h.evt

theorem Keeps.execNeedleTxWrite (h : Keeps s₀ s) {m : Fin 16} {v : Word} : GoesTo (execNeedleTxWrite m v s) (Keeps s₀) :=
  ⟨_, rfl, .ite h.ndlTxWrite h⟩

theorem Keeps.ndlRxRead (h : Keeps s₀ s) {m : Nat} : Keeps s₀ (s.ndlRxRead m) := by
  unfold State.ndlRxRead
  split
  · exact h.evt.frame
  · exact h.updNdl.frame

theorem Keeps.execNeedleRxRead (h : Keeps s₀ s) {m : Fin 16} : GoesTo (execNeedleRxRead m s) (Keeps s₀) :=
  ⟨_, rfl, .ite h.ndlRxRead h⟩

theorem Keeps.storeWrite (h : Keeps s₀ s) {b k : Nat} {src : Master} {v : Word} : Keeps s₀ (s.storeWrite b k src v) :=
  .ite h.writeCodes h.evt

theorem Keeps.execProgramStoreWrite (h : Keeps s₀ s) {b : Fin 4} {k : Fin 64} {src : Master} {v : Word} :
    GoesTo (execProgramStoreWrite b k src v s) (Keeps s₀) :=
  ⟨_, rfl, .ite h.storeWrite h⟩

theorem Keeps.flagHost (h : Keeps s₀ s) {n : Nat} {set : Bool} : Keeps s₀ (s.flagHost n set) := by
  unfold State.flagHost
  split
  · exact .ite h.flagSet h.flagClear
  · exact .ite h h.updNdl.raiseIf

theorem Keeps.flagsClear (h : Keeps s₀ s) {mask : Nat} : Keeps s₀ (s.flagsClear mask) :=
  h.each fun _ _ h => .ite h.flagHost h

theorem Keeps.flagsSet (h : Keeps s₀ s) {mask : Nat} : Keeps s₀ (s.flagsSet mask) :=
  h.each fun _ _ h => .ite h.flagHost h

theorem Keeps.execFlagClearWrite (h : Keeps s₀ s) {mask : BitVec 16} : GoesTo (execFlagClearWrite mask s) (Keeps s₀) :=
  ⟨_, rfl, .ite h.flagsClear h⟩

theorem Keeps.execFlagSetWrite (h : Keeps s₀ s) {mask : BitVec 16} : GoesTo (execFlagSetWrite mask s) (Keeps s₀) :=
  ⟨_, rfl, .ite h.flagsSet h⟩

theorem Keeps.execNeedleStallTimeout (h : Keeps s₀ s) {m : Fin 16} : GoesTo (execNeedleStallTimeout m s) (Keeps s₀) :=
  ⟨_, rfl, .ite h.ndlStop.report h⟩

theorem Keeps.ncfgWrite (h : Keeps s₀ s) {m : Nat} {src : Master} {v : Word} : Keeps s₀ (s.ncfgWrite m src v) :=
  h.writeCodes.unless (·.updNdl)

theorem Keeps.bedReset (h : Keeps s₀ s) {b : Nat} : Keeps s₀ (s.bedReset b) :=
  .ite ((h.each fun _ _ h => h.flagClear.updNdl).each fun _ _ h => h.batEval) (h.each fun _ _ h => h.flagClear.updNdl)

theorem Keeps.ndlInit (h : Keeps s₀ s) {m pc0 : Nat} : Keeps s₀ (s.ndlInit m pc0) :=
  h.set.updNdl.when (·.batEval)

/-! ### Halls and NVS -/

theorem Keeps.eccAddr (h : Keeps s₀ s) {unc : Bool} {addr code : Nat} {portB rmw : Bool} :
    Keeps s₀ (s.eccAddr unc addr code portB rmw) := by
  unfold State.eccAddr
  exact h.set.set.setB.set.setB.setB.updHal

theorem Keeps.eccRecord (h : Keeps s₀ s) {nvs unc : Bool} {addr code : Nat} {portB rmw : Bool} {acc det : Nat} :
    Keeps s₀ (s.eccRecord nvs unc addr code portB rmw acc det) :=
  ((Keeps.ite h.evtInc.evt h.evtInc.evt).unless (·.eccAddr)).reportSig

theorem Keeps.hallPut (h : Keeps s₀ s) {a : Nat} {bs : List Byte} : Keeps s₀ (s.hallPut a bs) :=
  h.setHallBytes.frame

theorem Keeps.hallWord (h : Keeps s₀ s) {m : Master} {a n : Nat} {wr : Option (List Byte)} {portB : Bool} {acc : Nat} :
    Keeps s₀ (s.hallWord m a n wr portB acc).1 := by
  unfold State.hallWord
  dsimp only
  split
  · exact h.eccRecord
  · split
    · exact (h.when (·.eccRecord)).hallPut
    · exact (h.when (·.eccRecord)).when (·.updHal)

theorem Keeps.hallOp (h : Keeps s₀ s) {m : Master} {a n : Nat} {wr : Option (List Byte)} {acc : Nat} :
    Keeps s₀ (s.hallOp m a n wr acc).1 := by
  unfold State.hallOp
  dsimp only
  split
  · exact h
  · split
    · exact h.hallWord
    · split
      · exact h.hallWord
      · split
        · exact h.hallWord
        · exact h.hallWord.hallWord

theorem Keeps.hallRead (h : Keeps s₀ s) {m : Master} {a acc k : Nat} : Keeps s₀ (s.hallRead m a acc k).1 := by
  induction k generalizing s a with
  | zero => exact h
  | succ k ih =>
    unfold State.hallRead
    dsimp only
    split
    · exact h.hallOp
    · exact ih h.hallOp

theorem Keeps.busEnd (h : Keeps s₀ s) {m : Master} {d : List Byte} {bad : Bool} : Keeps s₀ (s.busEnd m d bad) :=
  h.updHal

theorem Keeps.execHallAccess (h : Keeps s₀ s) {m : Master} {a : BitVec 23} {sz : AccSize} {wr : Option (BitVec 64)}
    {err : WordErrs} :
    GoesTo (execHallAccess m a sz wr err s) (Keeps s₀) :=
  ⟨_, rfl, .ite h.updHal h⟩

theorem Keeps.reqServe (h : Keeps s₀ s) {m : Nat} {r : HallReq} {p : Nat} : Keeps s₀ (s.reqServe m r p) :=
  ((h.updHal.unless (·.frame)).when (·.updHal)).branch (·.hallWord.busEnd) fun h => .ite h.hallWord.busEnd h.hallWord.updHal

theorem Keeps.reqsRefuse (h : Keeps s₀ s) {m : Nat} : Keeps s₀ (s.reqsRefuse m) :=
  h.each fun _ _ h => h.updHal.busEnd

theorem Keeps.hallMclk (h : Keeps s₀ s) {m : Nat} : Keeps s₀ (s.hallMclk m) :=
  .ite h (((h.reqsRefuse.updHal.each fun _ _ h => h.reqServe).each fun _ _ h => h.reqServe).each fun _ _ h => h.reqServe)

theorem Keeps.execHallHoldLimit (h : Keeps s₀ s) {hall : Fin 16} {portB : Bool} :
    GoesTo (execHallHoldLimit hall portB s) (Keeps s₀) := by
  refine ⟨_, rfl, .ite ?_ h⟩
  dsimp only
  split
  · exact h
  · exact h.evt.set.setB.set.evtInc.reportSig.updHal.reqServe

theorem Keeps.execScrubWriteback (h : Keeps s₀ s) : GoesTo (execScrubWriteback s) (Keeps s₀) := by
  refine ⟨_, rfl, .ite ?_ h⟩
  split
  · exact h
  · exact .ite h (h.updHal.when (·.frame))

theorem Keeps.ownerWrite (h : Keeps s₀ s) {hall : Nat} {src : Master} {v : Word} : Keeps s₀ (s.ownerWrite hall src v) :=
  (h.when (·.recordReject)).unless fun h => .ite h.evt h.set.updHal

theorem Keeps.execHallOwnerWrite (h : Keeps s₀ s) {hall : Fin 16} {src : Master} {v : Word} :
    GoesTo (execHallOwnerWrite hall src v s) (Keeps s₀) :=
  ⟨_, rfl, .ite h.ownerWrite h⟩

theorem Keeps.execHallOwnerHandover (h : Keeps s₀ s) {hall : Fin 16} : GoesTo (execHallOwnerHandover hall s) (Keeps s₀) := by
  refine ⟨_, rfl, ?_⟩
  split
  · exact h
  · exact .ite h.set.set.updHal h

theorem Keeps.nvOp (h : Keeps s₀ s) {code a n : Nat} : Keeps s₀ (s.nvOp code a n).1 := by
  unfold State.nvOp
  dsimp only
  split
  · exact h.eccRecord
  · exact h.eccRecord
  · exact h

theorem Keeps.nvSpace (h : Keeps s₀ s) {m : Master} {a n : Nat} : Keeps s₀ (s.nvSpace m a n).1 := by
  unfold State.nvSpace
  exact .iteFst h.nvOp <| .iteFst (.pairFst h.nvOp) <| .iteFst (.pairFst h) (.pairFst h.nvOp)

theorem Keeps.nvScan (h : Keeps s₀ s) {a b : Nat} : Keeps s₀ (s.nvScan a b) :=
  h.each fun _ _ h => h.eccRecord

theorem Keeps.execNvsRead (h : Keeps s₀ s) {m : Master} {a : BitVec 21} {sz : AccSize} {err : WordErrs} :
    GoesTo (execNvsRead m a sz err s) (Keeps s₀) :=
  ⟨_, rfl, .ite h.frame.nvSpace.busEnd h⟩

theorem Keeps.nvAsk (h : Keeps s₀ s) {w : NvWho} {todo : List (Nat × List Byte)} : Keeps s₀ (s.nvAsk w todo) :=
  h.updHal

theorem Keeps.nvPut (h : Keeps s₀ s) {p : Nat} {bs : List Byte} : Keeps s₀ (s.nvPut p bs) :=
  h.setNvBytes.frame

theorem Keeps.nvTorn (h : Keeps s₀ s) {p : Nat} {bs : List Byte} : Keeps s₀ (s.nvTorn p bs) := by
  unfold State.nvTorn
  dsimp only
  split
  · exact h.free
  · exact h.free.nvPut
  · exact h.free.frame

theorem Keeps.nvFailed (h : Keeps s₀ s) {p : Nat} : Keeps s₀ (s.nvFailed p) := by
  unfold State.nvFailed
  exact h.nvPut.frame

theorem Keeps.execNvsWriteStart (h : Keeps s₀ s) : GoesTo (execNvsWriteStart s) (Keeps s₀) := by
  refine ⟨_, rfl, .ite ?_ h⟩
  split
  · exact h
  · exact h.updHal

theorem Keeps.logDone (h : Keeps s₀ s) {ok : Bool} : Keeps s₀ (s.logDone ok) :=
  .ite h.set.updHal h.evtInc.raise

theorem Keeps.repairAsk (h : Keeps s₀ s) : Keeps s₀ s.repairAsk := by
  unfold State.repairAsk
  split
  · exact h
  · exact .ite h h.updStc.nvAsk

theorem Keeps.repairDone (h : Keeps s₀ s) {ok : Bool} : Keeps s₀ (s.repairDone ok) := by
  unfold State.repairDone
  dsimp only
  split
  · exact h
  · exact .ite (h.updStc.set.when (·.set)).raise h.updStc

theorem Keeps.truAsk (h : Keeps s₀ s) {r : TrustRec} {cmd : Bool} {before : List (Nat × List Byte)} :
    Keeps s₀ (s.truAsk r cmd before) :=
  h.updTru.nvAsk

theorem Keeps.floorRaise (h : Keeps s₀ s) {v : Nat} : Keeps s₀ (s.floorRaise v) :=
  .ite h <| .ite h.updTru h.truAsk

theorem Keeps.truShow (h : Keeps s₀ s) {r : TrustRec} : Keeps s₀ (s.truShow r) :=
  h.set.set.set

theorem Keeps.idShow (h : Keeps s₀ s) {pub : List Byte} : Keeps s₀ (s.idShow pub) :=
  ((h.each fun _ _ h => h.set).each fun _ _ h => h.set).set

theorem Keeps.truDone (h : Keeps s₀ s) {ok : Bool} : Keeps s₀ (s.truDone ok) := by
  unfold State.truDone
  dsimp only
  split
  · split
    · exact h.updTru
    · exact h.updTru.when (·.idShow)
    · exact (h.updTru.when (·.truShow.updTru)).when (·.updTru)
  · refine .floorRaise <| .updTru (?_)
    split
    · exact h.updTru
    · exact h.updTru.when (·.idShow)
    · exact (h.updTru.when (·.truShow.updTru)).when (·.updTru)

theorem Keeps.wvlAsk (h : Keeps s₀ s) {todo : List (Nat × List Byte)} : Keeps s₀ (s.wvlAsk todo) :=
  .ite h.updHal h.nvAsk

theorem Keeps.wvlDrop (h : Keeps s₀ s) : Keeps s₀ s.wvlDrop :=
  h.updHal

theorem Keeps.wvlFlag (h : Keeps s₀ s) {cause : Nat} : Keeps s₀ (s.wvlFlag cause) :=
  h.set.evt

theorem Keeps.slotErase (h : Keeps s₀ s) {i : Fin 2} : Keeps s₀ (s.slotErase i) :=
  h.wvlAsk

theorem Keeps.slotCut (h : Keeps s₀ s) : Keeps s₀ s.slotCut :=
  h.each fun _ _ h => .ite h.nvPut h

theorem Keeps.slotFail (h : Keeps s₀ s) {i : Fin 2} {cause : Nat} : Keeps s₀ (s.slotFail i cause) :=
  h.wvlFlag.set.set.set.set.updWvl.wvlDrop.slotErase

theorem Keeps.wvlProgFail (h : Keeps s₀ s) : Keeps s₀ s.wvlProgFail := by
  unfold State.wvlProgFail
  split
  · exact h.slotFail
  · exact .ite h.slotFail h
  · exact h

theorem Keeps.hdrDone (h : Keeps s₀ s) : Keeps s₀ s.hdrDone := by
  unfold State.hdrDone
  split
  · exact h.setReg.set.evt.updWvl
  · exact h

theorem Keeps.nvEnd (h : Keeps s₀ s) {w : NvWho} {ok : Bool} : Keeps s₀ (s.nvEnd w ok) := by
  unfold State.nvEnd
  split
  · exact h.logDone
  · exact h.repairDone.repairAsk
  · exact h.truDone
  · exact .ite h.evt h.evt
  · exact .ite h.hdrDone h.wvlProgFail
  · exact h.updHal

theorem Keeps.execNvsWriteDone (h : Keeps s₀ s) {ok : Bool} : GoesTo (execNvsWriteDone ok s) (Keeps s₀) := by
  refine ⟨_, rfl, ?_⟩
  dsimp only
  split
  · exact h
  · refine .ite ?_ h
    split
    · exact h.updHal.nvEnd
    · exact (h.updHal.branch (·.nvPut) (·.nvFailed)).branch (·.nvAsk) (·.nvEnd)

theorem Keeps.nvTake (h : Keeps s₀ s) {w : NvWho} {b : Bool} (e : s.nvTake w = some (b, t)) : Keeps s₀ t := by
  unfold State.nvTake at e
  split at e
  · exact absurd e (Option.some_ne_none _).symm
  · cases e
    exact h.updHal

theorem Keeps.nvHost (h : Keeps s₀ s) {bs : List Byte} : Keeps s₀ (s.nvHost bs) :=
  .ite h.evt <| .ite h.nvAsk h.evt

theorem Keeps.execNvsProgramCommand (h : Keeps s₀ s) : GoesTo (execNvsProgramCommand s) (Keeps s₀) :=
  ⟨_, rfl, .ite h.nvHost h⟩

theorem Keeps.execNvsEraseCommand (h : Keeps s₀ s) : GoesTo (execNvsEraseCommand s) (Keeps s₀) :=
  ⟨_, rfl, .ite h.nvHost h⟩

theorem Keeps.logOffer (h : Keeps s₀ s) {r : LogRec} : Keeps s₀ (s.logOffer r) :=
  .ite h.updHal h.evtInc.raise

theorem Keeps.execLogEntryWrite (h : Keeps s₀ s) : GoesTo (execLogEntryWrite s) (Keeps s₀) := by
  refine ⟨_, rfl, .ite ?_ h⟩
  split
  · exact h
  · exact h.updHal.nvAsk

theorem Keeps.logSearch (h : Keeps s₀ s) : Keeps s₀ s.logSearch := by
  unfold State.logSearch
  dsimp only
  split
  · exact h.nvScan.set.updHal
  · exact h.nvScan.set.updHal

theorem Keeps.repairMap (h : Keeps s₀ s) : Keeps s₀ s.repairMap :=
  h.nvScan.updHal.each fun _ _ h => h.set.set.set

theorem Keeps.hallFill (h : Keeps s₀ s) : Keeps s₀ s.hallFill :=
  h.taken (p := fun _ => true) (q := fun _ => false) (List.filter_true _).symm (List.filter_false _).symm

theorem Keeps.geoSave (h : Keeps s₀ s) {n : Nat} : Keeps s₀ (s.geoSave n) :=
  .ite h h.set.nvAsk

theorem Keeps.execGeometrySave (h : Keeps s₀ s) {n : Fin 4} : GoesTo (execGeometrySave n s) (Keeps s₀) :=
  ⟨_, rfl, .ite h.geoSave h⟩

theorem Keeps.execGeometrySaveDone (h : Keeps s₀ s) {n : Fin 4} : GoesTo (execGeometrySaveDone n s) (Keeps s₀) := by
  refine ⟨_, rfl, ?_⟩
  split
  next => exact h
  next ok s' e => exact (h.nvTake e).set.branch (·.set) (·.evt)

theorem Keeps.geoLoad (h : Keeps s₀ s) {n nt : Nat} {dig : List Byte} : Keeps s₀ (s.geoLoad n nt dig) := by
  unfold State.geoLoad
  dsimp only
  split
  · exact ((h.nvScan.nvScan.when (·.evt)).each fun _ _ h => h.set).set
  · exact ((h.nvScan.nvScan.when (·.evt)).each fun _ _ h => h.set).set.set.set

/-! ### The variable file -/

theorem Keeps.qvUpdate (h : Keeps s₀ s) {q : Nat} {v : Int} : Keeps s₀ (s.qvUpdate q v) :=
  h.set.set.set

theorem Keeps.qvFeed (h : Keeps s₀ s) {kind idx : Nat} {raw : Int} {shift : Bool} : Keeps s₀ (s.qvFeed kind idx raw shift) :=
  .ite h.lostMet <| .ite (h.each fun _ _ h => .ite h.qvUpdate h) h

theorem Keeps.planTake (h : Keeps s₀ s) {r : PlanReq} : Keeps s₀ (s.planTake r) :=
  .ite h <| .ite h.updCht h.evt.set.raise

theorem Keeps.plansArrive (h : Keeps s₀ s) {n : Nat} : Keeps s₀ (s.plansArrive n) :=
  h.updCht.each fun _ _ h => h.planTake

/-! ### Charts and recipes -/

theorem Keeps.qvWrite (h : Keeps s₀ s) {q : Nat} {src : Master} {v : Word} : Keeps s₀ (s.qvWrite q src v) := by
  unfold State.qvWrite
  split
  · exact .ite h.qvUpdate h
  · exact .ite h.qvUpdate h
  · exact .ite h.qvUpdate h
  · exact h

theorem Keeps.execHostQvWrite (h : Keeps s₀ s) {q : Fin 64} {src : Master} {v : Word} :
    GoesTo (execHostQvWrite q src v s) (Keeps s₀) :=
  ⟨_, rfl, .ite h.qvWrite h⟩

theorem Keeps.qvTick (h : Keeps s₀ s) : Keeps s₀ s.qvTick := by
  unfold State.qvTick
  exact (h.each fun _ _ h => .ite h.inc h).updCht

theorem Keeps.qvStale (h : Keeps s₀ s) {q : Nat} : Keeps s₀ (s.qvStale q) :=
  .ite h.set.set.raise h

theorem Keeps.execQvStale (h : Keeps s₀ s) {q : Fin 64} : GoesTo (execQvStale q s) (Keeps s₀) :=
  ⟨_, rfl, .ite h.qvStale h.updCht⟩

theorem Keeps.qvStaleRun (h : Keeps s₀ s) : Keeps s₀ s.qvStaleRun := by
  unfold State.qvStaleRun
  split
  · exact h
  · exact h.updCht.each fun _ _ h => h.qvStale

theorem Keeps.readWords (h : Keeps s₀ s) {m : Master} {b : Nat} {l : List Nat} : Keeps s₀ (s.readWords m b l).1 := by
  induction l generalizing s with
  | nil => exact h
  | cons i t ih =>
    unfold State.readWords
    dsimp only
    split
    · exact h.hallOp
    · exact ih h.hallOp

theorem Keeps.chartLookup (h : Keeps s₀ s) {m : Master} {c : Nat} {snap : List Int} : Keeps s₀ (s.chartLookup m c snap).1 := by
  unfold State.chartLookup
  split
  · exact h
  · exact h.readWords.evtAdd

theorem Keeps.setCtx (h : Keeps s₀ s) {i : Nat} {c : Option Ctx} : Keeps s₀ (s.setCtx i c) :=
  h.updCht

theorem Keeps.execRecipeRequestArrive (h : Keeps s₀ s) : GoesTo (execRecipeRequestArrive s) (Keeps s₀) := by
  refine ⟨_, rfl, .ite ?_ h⟩
  split
  · exact h
  · exact h.updCht.planTake

theorem Keeps.execRecipeStart (h : Keeps s₀ s) : GoesTo (execRecipeStart s) (Keeps s₀) := by
  refine ⟨_, rfl, .ite ?_ h⟩
  split
  · exact h.updCht.setCtx
  · exact h

theorem Keeps.runRecord (h : Keeps s₀ s) {c : Ctx} {res : Nat} : Keeps s₀ (s.runRecord c res) :=
  h.set.set.incW.branch (·.raiseIf) (·.set.set.set.set.evt.raise.when (·.report))

theorem Keeps.runEnd (h : Keeps s₀ s) {i res : Nat} : Keeps s₀ (s.runEnd i res) := by
  unfold State.runEnd
  split
  · exact h
  · exact h.setCtx.runRecord

theorem Keeps.execRecipeRunTimeout (h : Keeps s₀ s) {i : Fin 4} : GoesTo (execRecipeRunTimeout i s) (Keeps s₀) := by
  refine ⟨_, rfl, ?_⟩
  split
  · exact h
  · exact .ite h.runEnd h

theorem Keeps.stepTo (h : Keeps s₀ s) {i : Nat} {c : Ctx} {cost : Nat} : Keeps s₀ (s.stepTo i c cost) :=
  h.setCtx

theorem Keeps.valueStep (h : Keeps s₀ s) {i op cost : Nat} {f : Ctx → Nat → Int} : Keeps s₀ (s.valueStep i op cost f) := by
  unfold State.valueStep
  split
  · exact h
  · exact h.stepTo

theorem Keeps.execRecipeEndStep (h : Keeps s₀ s) {i : Fin 4} : GoesTo (execRecipeEndStep i s) (Keeps s₀) := by
  refine ⟨_, rfl, ?_⟩
  split
  · exact h
  · exact h.runEnd

theorem Keeps.execRecipeLoad (h : Keeps s₀ s) {i : Fin 4} : GoesTo (execRecipeLoad i s) (Keeps s₀) :=
  ⟨_, rfl, h.valueStep⟩

theorem Keeps.lookTake (h : Keeps s₀ s) {i b c : Nat} : Keeps s₀ (s.lookTake i b c) := by
  unfold State.lookTake
  exact h.updCht

theorem Keeps.lowTake (h : Keeps s₀ s) {a : Nat} {tst : Bool} {c : Nat} : Keeps s₀ (s.lowTake a tst c) :=
  h.updCht.branch (·.updCht) (·.updGau)

theorem Keeps.lookAccept (h : Keeps s₀ s) {k : Nat} : Keeps s₀ (s.lookAccept k) := by
  induction k generalizing s with
  | zero => exact h
  | succ k ih =>
    unfold State.lookAccept
    split
    · exact .ite (ih h.lowTake) (ih h.lookTake)
    · exact ih h.lookTake
    · exact .ite (ih h.lowTake) h
    · exact h

theorem Keeps.lookupStep (h : Keeps s₀ s) {i : Nat} : Keeps s₀ (s.lookupStep i) := by
  unfold State.lookupStep
  dsimp only
  split
  · exact h.lookAccept
  · split
    · exact h.lookAccept
    · refine .ite ?_ h.lookAccept
      split
      · exact h.lookAccept.chartLookup.setCtx
      · exact h.lookAccept.chartLookup.runEnd
      · exact h.lookAccept.chartLookup.free.setCtx

theorem Keeps.execRecipeLookup (h : Keeps s₀ s) {i : Fin 4} : GoesTo (execRecipeLookup i s) (Keeps s₀) :=
  ⟨_, rfl, h.lookupStep⟩

theorem Keeps.execRecipeAdd (h : Keeps s₀ s) {i : Fin 4} : GoesTo (execRecipeAdd i s) (Keeps s₀) :=
  ⟨_, rfl, h.valueStep⟩

theorem Keeps.execRecipeScale (h : Keeps s₀ s) {i : Fin 4} : GoesTo (execRecipeScale i s) (Keeps s₀) :=
  ⟨_, rfl, h.valueStep⟩

theorem Keeps.execRecipeClamp (h : Keeps s₀ s) {i : Fin 4} : GoesTo (execRecipeClamp i s) (Keeps s₀) :=
  ⟨_, rfl, h.valueStep⟩

theorem Keeps.execRecipeSelect (h : Keeps s₀ s) {i : Fin 4} : GoesTo (execRecipeSelect i s) (Keeps s₀) :=
  ⟨_, rfl, h.valueStep⟩

theorem Keeps.execRecipeWrqv (h : Keeps s₀ s) {i : Fin 4} : GoesTo (execRecipeWrqv i s) (Keeps s₀) := by
  refine ⟨_, rfl, ?_⟩
  split
  · exact h
  · exact (h.when (·.qvUpdate)).stepTo

theorem Keeps.sendItem (h : Keeps s₀ s) {x : SuItem} : Keeps s₀ (s.sendItem x) :=
  h.frame

theorem Keeps.execRecipeWrstitch (h : Keeps s₀ s) {i : Fin 4} : GoesTo (execRecipeWrstitch i s) (Keeps s₀) := by
  refine ⟨_, rfl, ?_⟩
  split
  · exact h
  · exact h.sendItem.stepTo

theorem Keeps.execRecipeCommit (h : Keeps s₀ s) {i : Fin 4} : GoesTo (execRecipeCommit i s) (Keeps s₀) := by
  refine ⟨_, rfl, ?_⟩
  split
  · exact h
  · exact h.sendItem.stepTo

theorem Keeps.testLookup (h : Keeps s₀ s) {c : Nat} : Keeps s₀ (s.testLookup c) :=
  .ite h h.updCht.set

theorem Keeps.testEnd (h : Keeps s₀ s) {c : Nat} {snap : List Int} : Keeps s₀ (s.testEnd c snap) := by
  unfold State.testEnd
  dsimp only
  split
  · exact h.chartLookup.updCht.set.set.evt
  · exact h.chartLookup.updCht.set.evt

theorem Keeps.testRun (h : Keeps s₀ s) : Keeps s₀ s.testRun := by
  unfold State.testRun
  dsimp only
  split
  · exact h
  · refine .ite h <| .ite (.ite h.testEnd h) ?_
    split
    · exact h.lookAccept.when (·.testEnd)
    · exact h.lookAccept

theorem Keeps.execChartTestLookup (h : Keeps s₀ s) {c : Fin 64} : GoesTo (execChartTestLookup c s) (Keeps s₀) :=
  ⟨_, rfl, .ite h.testLookup h⟩

theorem Keeps.qvInit (h : Keeps s₀ s) {q : Nat} {e : QEnt} : Keeps s₀ (s.qvInit q e) :=
  h.setReg.set

theorem Keeps.qvmapApply (h : Keeps s₀ s) {b : List Byte} : Keeps s₀ (s.qvmapApply b) :=
  h.updCht.each fun _ _ h => h.qvInit

theorem Keeps.chartApply (h : Keeps s₀ s) {c : Nat} {b : List Byte} : Keeps s₀ (s.chartApply c b) :=
  h.setHallBytes.frame.updCht.set.set.setB.set.set

theorem Keeps.chartRemove (h : Keeps s₀ s) {c : Nat} : Keeps s₀ (s.chartRemove c) :=
  h.updCht.setReg

theorem Keeps.recipeApply (h : Keeps s₀ s) {r : Nat} {b : List Byte} : Keeps s₀ (s.recipeApply r b) :=
  h.updCht

theorem Keeps.recipeRemove (h : Keeps s₀ s) {r : Nat} : Keeps s₀ (s.recipeRemove r) :=
  h.updCht

theorem Keeps.chtReset (h : Keeps s₀ s) : Keeps s₀ s.chtReset := by
  unfold State.chtReset
  exact h.regsOut.updCht

theorem Keeps.chtResume (h : Keeps s₀ s) : Keeps s₀ s.chtResume :=
  (h.each fun _ _ h => h.runRecord).updCht

/-! ### Tooth tables, prediction and learning -/

theorem Keeps.predict (h : Keeps s₀ s) {n k f : Nat} : Keeps s₀ (s.predict n k f) := by
  unfold State.predict
  dsimp only
  split
  · exact h
  · exact h.set.set.set.setB.updTrk

theorem Keeps.tplUpdate (h : Keeps s₀ s) {n k f p : Nat} : Keeps s₀ (s.tplUpdate n k f p) := by
  unfold State.tplUpdate
  split
  · exact h
  · exact h.updTrk.setB

theorem Keeps.setGeo (h : Keeps s₀ s) {n k v : Nat} : Keeps s₀ (s.setGeo n k v) :=
  .ite h h.set.set

theorem Keeps.geoCount (h : Keeps s₀ s) {n : Nat} : Keeps s₀ (s.geoCount n) := by
  unfold State.geoCount
  split
  · exact h
  · exact .ite (h.each fun _ _ h => h.setGeo).updTrk h.updTrk

theorem Keeps.flightClose (h : Keeps s₀ s) {n st : Nat} : Keeps s₀ (s.flightClose n st) := by
  refine .updTrk (?_)
  split
  · refine .ite ?_ h
    split
    · exact h
    · exact h.inc.updTrk
  · exact h

theorem Keeps.flightTooth (h : Keeps s₀ s) {n st : Nat} : Keeps s₀ (s.flightTooth n st) :=
  h.updTrk

theorem Keeps.flightBad (h : Keeps s₀ s) {n : Nat} : Keeps s₀ (s.flightBad n) :=
  h.updTrk

/-! ### Gauge -/

theorem Keeps.blockCount (h : Keeps s₀ s) {c : Nat} : Keeps s₀ (s.blockCount c) :=
  (Keeps.ite h.set h.free.set).updGau.when (·.evt.raise.report.updGau)

theorem Keeps.candidate (h : Keeps s₀ s) {c : Nat} : Keeps s₀ (s.candidate c) :=
  h.evtInc.updGau.raise.blockCount

theorem Keeps.candUndo (h : Keeps s₀ s) : Keeps s₀ s.candUndo := by
  unfold State.candUndo
  split
  · exact h.setB.set.frame
  · exact h

theorem Keeps.thrSet (h : Keeps s₀ s) {v : Nat} : Keeps s₀ (s.thrSet v) :=
  h.updGau.set

theorem Keeps.segValid (h : Keeps s₀ s) {c t : Nat} : Keeps s₀ (s.segValid c t) := by
  unfold State.segValid
  dsimp only
  split
  · exact (h.set.qvFeed.updGau.when (·.free)).set.set.qvFeed.when (·.candidate)
  · exact h.set.qvFeed.updGau.set

theorem Keeps.segInvalid (h : Keeps s₀ s) {c : Nat} : Keeps s₀ (s.segInvalid c) :=
  h.evt.set.updGau

theorem Keeps.segClose (h : Keeps s₀ s) {c t : Nat} {bad : Bool} : Keeps s₀ (s.segClose c t bad) :=
  h.updGau.branch (·.segInvalid) fun h => .ite h.segValid h.free.free.segValid

theorem Keeps.segSum (h : Keeps s₀ s) {r : GauRec} : Keeps s₀ (s.segSum r) := by
  unfold State.segSum
  split
  · exact h
  · exact .ite h.segClose <| .ite h.segClose h.updGau

theorem Keeps.segStart (h : Keeps s₀ s) {r : GauRec} : Keeps s₀ (s.segStart r) := by
  unfold State.segStart
  dsimp only
  split
  · refine .updGau (?_)
    split
    · exact .ite h.segInvalid h.updGau
    · exact h
  · split
    · exact .ite h.segInvalid h.updGau
    · exact h

theorem Keeps.segRecord (h : Keeps s₀ s) {r : GauRec} : Keeps s₀ (s.segRecord r) := by
  refine .ite h.updGau <| .ite h (.unless (.ite (.updGau (?_)) h) (·.segSum.segStart.updGau))
  split
  · exact h.segClose
  · exact h

theorem Keeps.updCoder (h : Keeps s₀ s) {n : Nat} {f : Coder → Coder} : Keeps s₀ (s.updCoder n f) :=
  h.updGau

theorem Keeps.coderRecord (h : Keeps s₀ s) {n : Nat} {r : GauRec} : Keeps s₀ (s.coderRecord n r) :=
  .ite h <| .ite (h.updCoder.set.when (·.setB)) h.evtInc.evt.raise.updCoder

theorem Keeps.execGaugeRecordArrive (h : Keeps s₀ s) : GoesTo (execGaugeRecordArrive s) (Keeps s₀) := by
  refine ⟨_, rfl, .ite ?_ h⟩
  split
  · exact h.updGau.when (·.segRecord.coderRecord)
  · exact h

theorem Keeps.gauZero (h : Keeps s₀ s) : Keeps s₀ s.gauZero := by
  refine .when (.updGau <| .qvFeed (.ite (.set (?_)) h.set)) fun h => (h.when fun h => h.evt).updGau
  split
  · exact (h.candUndo.each fun _ _ h => h.set).updGau.blockCount
  · exact (h.candUndo.each fun _ _ h => h.set).updGau

theorem Keeps.execGaugeTreadZero (h : Keeps s₀ s) : GoesTo (execGaugeTreadZero s) (Keeps s₀) := by
  refine ⟨_, rfl, .ite ?_ h⟩
  split
  · exact h.updGau.when (·.gauZero)
  · exact h

theorem Keeps.thrEnd (h : Keeps s₀ s) {snap : List Int} : Keeps s₀ (s.thrEnd snap) := by
  unfold State.thrEnd
  dsimp only
  split
  · exact h.chartLookup.updGau.thrSet
  · exact h.chartLookup.updGau.evt
  · exact h.chartLookup.updGau.free.thrSet

theorem Keeps.execThresholdLookupDone (h : Keeps s₀ s) : GoesTo (execThresholdLookupDone s) (Keeps s₀) := by
  refine ⟨_, rfl, .ite ?_ h⟩
  dsimp only
  split
  · exact h.lookAccept
  · split
    · exact h.lookAccept.when (·.thrEnd)
    · exact h.lookAccept

theorem Keeps.awoVal (h : Keeps s₀ s) {a i : Nat} : Keeps s₀ (s.awoVal a i).1 := by
  unfold State.awoVal
  split
  · exact h
  · exact h.hallOp

theorem Keeps.awoMove (h : Keeps s₀ s) {a idx : Nat} : Keeps s₀ (s.awoMove a idx) :=
  h.set.unless (·.updGau)

theorem Keeps.awoTake (h : Keeps s₀ s) {a old idx : Nat} {y : Int} : Keeps s₀ (s.awoTake a old idx y) :=
  h.set.set.updGau.when (·.updGau)

theorem Keeps.awoEval (h : Keeps s₀ s) {a : Nat} : Keeps s₀ (s.awoEval a) := by
  refine .ite (.awoTake (?_)) (.updGau <| .set <| .raise <| .evt (?_))
  · split
    · exact h.updGau.awoMove.awoVal.awoVal
    · exact h.updGau.awoMove.awoVal
  · split
    · exact h.updGau.awoMove.awoVal.awoVal
    · exact h.updGau.awoMove.awoVal

theorem Keeps.awoDrop (h : Keeps s₀ s) {a : Nat} : Keeps s₀ (s.awoDrop a) :=
  h.set.updGau

theorem Keeps.awoLocal (h : Keeps s₀ s) {a : Nat} {k : State → State} (hk : ∀ s, Keeps s₀ s → Keeps s₀ (k s)) :
    Keeps s₀ (s.awoLocal a k) :=
  .ite h <| .ite (hk s h) h.awoDrop

theorem Keeps.execAwoInterpRefresh (h : Keeps s₀ s) {a : Fin 2} : GoesTo (execAwoInterpRefresh a s) (Keeps s₀) :=
  ⟨_, rfl, h.awoLocal fun _ h => .ite h.awoEval h⟩

theorem Keeps.execStreamReceive (h : Keeps s₀ s) : GoesTo (execStreamReceive s) (Keeps s₀) := by
  refine ⟨_, rfl, .ite ?_ h⟩
  split
  · exact h
  · exact h.updGau.unless (·.set.set.updGau)

theorem Keeps.execStreamSlotTimeout (h : Keeps s₀ s) {sl : Fin 8} : GoesTo (execStreamSlotTimeout sl s) (Keeps s₀) :=
  ⟨_, rfl, .ite h.set.raise h⟩

theorem Keeps.execAwoPwmPeriod (h : Keeps s₀ s) {a : Fin 2} : GoesTo (execAwoPwmPeriod a s) (Keeps s₀) :=
  ⟨_, rfl, .ite h.updGau h⟩

theorem Keeps.hcfgWritten (h : Keeps s₀ s) {n : Nat} {old : Word} : Keeps s₀ (s.hcfgWritten n old) :=
  (h.unless (·.updCoder)).when (·.updCoder)

theorem Keeps.awoCfgd (h : Keeps s₀ s) {a : Nat} {old : Word} : Keeps s₀ (s.awoCfgd a old) :=
  .ite h.awoDrop <| .ite h h.updGau

theorem Keeps.gaugeApply (h : Keeps s₀ s) {b : List Byte} : Keeps s₀ (s.gaugeApply b) := by
  unfold State.gaugeApply
  exact (h.setReg.setReg.each fun _ _ h => h.setReg.setReg).set.updGau

theorem Keeps.awoApply (h : Keeps s₀ s) {a : Nat} {b : List Byte} : Keeps s₀ (s.awoApply a b) :=
  h.setReg.setReg.setReg.setReg.awoCfgd.branch (·.updGau) (·.setHallBytes.frame.updGau)

theorem Keeps.awoRemove (h : Keeps s₀ s) {a : Nat} : Keeps s₀ (s.awoRemove a) :=
  h.setReg.setReg.setReg.setReg.awoDrop.updGau

theorem Keeps.gaugeRemove (h : Keeps s₀ s) : Keeps s₀ s.gaugeRemove := by
  unfold State.gaugeRemove
  exact (h.setReg.setReg.each fun _ _ h => h.setReg.setReg).updGau

theorem Keeps.gauReset (h : Keeps s₀ s) : Keeps s₀ s.gauReset := by
  unfold State.gauReset
  exact h.regsOut.updGau

theorem Keeps.gauResume (h : Keeps s₀ s) : Keeps s₀ s.gauResume :=
  h.updGau

/-! ### Gallery frames -/

theorem Keeps.rxTake (h : Keeps s₀ s) {p : RxFrame → Bool} {r : RxFrame} (e : s.rxTake p = some (r, t)) : Keeps s₀ t := by
  obtain ⟨r', -, e⟩ := Option.map_eq_some_iff.mp e
  cases e
  exact h.updGal

theorem Keeps.onFrame (h : Keeps s₀ s) {p : RxFrame → Bool} {k : State → RxFrame → State}
    (hk : ∀ s r, Keeps s₀ s → Keeps s₀ (k s r)) :
    Keeps s₀ (s.onFrame p k) := by
  refine .ite ?_ h
  split
  next => exact h
  next r s' e => exact hk s' r (h.rxTake e)

theorem Keeps.leave (h : Keeps s₀ s) {i : LaneItem} {d : Nat} : Keeps s₀ (s.leave i d) := by
  unfold State.leave
  exact h.updGal

theorem Keeps.pass (h : Keeps s₀ s) {i : LaneItem} : Keeps s₀ (s.pass i) :=
  .ite h <| .ite h.leave h.updGal

theorem Keeps.transitRun (h : Keeps s₀ s) : Keeps s₀ s.transitRun := by
  unfold State.transitRun
  split
  · exact h
  · exact .ite h.updGal <| .ite h.leave.updGal h

theorem Keeps.forward (h : Keeps s₀ s) {f : Frame} : Keeps s₀ (s.forward f) :=
  h.pass

theorem Keeps.irqSend (h : Keeps s₀ s) {dst sub hid x : Nat} : Keeps s₀ (s.irqSend dst sub hid x) :=
  h.updGal

/-! ### Interrupt router -/

theorem Keeps.irqTo (h : Keeps s₀ s) {b sub hid x : Nat} : Keeps s₀ (s.irqTo b sub hid x) :=
  .ite h.updIrt h.irqSend

theorem Keeps.irqMsg (h : Keeps s₀ s) {here : Bool} {sub : Nat} {k : State → Nat → Nat → Nat → State}
    (hk : ∀ s b i x, Keeps s₀ s → Keeps s₀ (k s b i x)) :
    Keeps s₀ (s.irqMsg here sub k) := by
  refine .ite h (.ite ?_ ?_)
  · split
    next => exact h
    next => exact .ite (hk _ _ _ _ h.updIrt) h
  · split
    next => exact h
    next r s' e => exact hk _ _ _ _ (h.rxTake e)

theorem Keeps.htabSet (h : Keeps s₀ s) {hall b reg prio slot : Nat} : Keeps s₀ (s.htabSet hall b reg prio slot) :=
  h.set.set.set.set.set

theorem Keeps.htabTake (h : Keeps s₀ s) {hall b reg prio slot : Nat} : Keeps s₀ (s.htabTake hall b reg prio slot) :=
  .ite (.ite h <| .ite h.htabSet h.setReg) <| .ite (h.when (·.updIrt)).htabSet h

theorem Keeps.hostShow (h : Keeps s₀ s) {hall reg : Nat} : Keeps s₀ (s.hostShow hall reg) :=
  (h.htabTake.when (·.set)).unless (·.irqSend)

theorem Keeps.hostTell (h : Keeps s₀ s) : Keeps s₀ s.hostTell :=
  .ite h.hostShow h

theorem Keeps.hostNumbered (h : Keeps s₀ s) {old : Nat} : Keeps s₀ (s.hostNumbered old) :=
  (h.when (·.setReg)).branch (·.hostShow) fun h => .ite h.hostShow h

theorem Keeps.slotSet (h : Keeps s₀ s) {k : Nat} : Keeps s₀ (s.slotSet k) :=
  h.set.hostTell

theorem Keeps.claimDone (h : Keeps s₀ s) : Keeps s₀ s.claimDone := by
  unfold State.claimDone
  exact h.irqTo.updIrt

theorem Keeps.withdraw (h : Keeps s₀ s) : Keeps s₀ s.withdraw :=
  h.irqTo.set.evtInc

theorem Keeps.hostDrop (h : Keeps s₀ s) : Keeps s₀ s.hostDrop :=
  .ite h.withdraw <| .ite h.claimDone h

theorem Keeps.hostWrite (h : Keeps s₀ s) {v : Word} : Keeps s₀ (s.hostWrite v) :=
  .ite h ((((h.when (·.hostDrop.hostShow)).when (·.setReg)).setReg.when (·.set)).branch (·.htabSet) (·.hostTell))

theorem Keeps.execHostRegister (h : Keeps s₀ s) {v : Word} : GoesTo (execHostRegister v s) (Keeps s₀) :=
  ⟨_, rfl, .ite h.hostWrite h⟩

theorem Keeps.hoststate (h : Keeps s₀ s) {b hall x : Nat} : Keeps s₀ (s.hoststate b hall x) :=
  h.htabTake.when (·.set)

theorem Keeps.execHoststateReceive (h : Keeps s₀ s) : GoesTo (execHoststateReceive s) (Keeps s₀) :=
  ⟨_, rfl, h.irqMsg fun _ _ _ _ h => h.hoststate⟩

theorem Keeps.irqEvaluate (h : Keeps s₀ s) : Keeps s₀ s.irqEvaluate := by
  unfold State.irqEvaluate
  split
  · exact h.updIrt
  · split
    · exact h
    · exact h.irqTo.updIrt

theorem Keeps.execIrqEvaluate (h : Keeps s₀ s) : GoesTo (execIrqEvaluate s) (Keeps s₀) :=
  ⟨_, rfl, .ite h.irqEvaluate h⟩

theorem Keeps.offerTake (h : Keeps s₀ s) {b hall x : Nat} : Keeps s₀ (s.offerTake b hall x) :=
  .ite h.set.set.updIrt.irqTo.slotSet h.irqTo

theorem Keeps.execIrqOfferReceive (h : Keeps s₀ s) {here : Bool} : GoesTo (execIrqOfferReceive here s) (Keeps s₀) :=
  ⟨_, rfl, h.irqMsg fun _ _ _ _ h => h.offerTake⟩

theorem Keeps.offerAnswer (h : Keeps s₀ s) {refuse : Bool} {b hall x : Nat} : Keeps s₀ (s.offerAnswer refuse b hall x) :=
  .ite h.updIrt h

theorem Keeps.execIrqAcceptReceive (h : Keeps s₀ s) {here : Bool} : GoesTo (execIrqAcceptReceive here s) (Keeps s₀) :=
  ⟨_, rfl, h.irqMsg fun _ _ _ _ h => h.offerAnswer⟩

theorem Keeps.execIrqRefuseReceive (h : Keeps s₀ s) {here : Bool} : GoesTo (execIrqRefuseReceive here s) (Keeps s₀) :=
  ⟨_, rfl, h.irqMsg fun _ _ _ _ h => h.offerAnswer⟩

theorem Keeps.claimEmpty (h : Keeps s₀ s) : Keeps s₀ s.claimEmpty :=
  h.setReg.evtInc.updIrt.updHost.slotSet

theorem Keeps.claimRead (h : Keeps s₀ s) : Keeps s₀ s.claimRead :=
  h.updHost.branch (·.irqTo.updIrt.slotSet) (·.updHost)

theorem Keeps.execIrqClaimRead (h : Keeps s₀ s) : GoesTo (execIrqClaimRead s) (Keeps s₀) :=
  ⟨_, rfl, .ite h.claimRead h⟩

theorem Keeps.claimServe (h : Keeps s₀ s) {b hall : Nat} : Keeps s₀ (s.claimServe b hall) := by
  unfold State.claimServe
  split
  · exact h.set.irqTo
  · exact h.irqTo

theorem Keeps.claimTake (h : Keeps s₀ s) {b hall : Nat} : Keeps s₀ (s.claimTake b hall) :=
  .ite h.claimServe h.updIrt

theorem Keeps.execIrqClaimReceive (h : Keeps s₀ s) {here : Bool} : GoesTo (execIrqClaimReceive here s) (Keeps s₀) :=
  ⟨_, rfl, h.irqMsg fun _ _ _ _ h => h.claimTake⟩

theorem Keeps.claimsRun (h : Keeps s₀ s) : Keeps s₀ s.claimsRun := by
  unfold State.claimsRun
  split
  · exact h
  · exact h.updIrt.each fun _ _ h => h.claimServe

theorem Keeps.claimedTake (h : Keeps s₀ s) {b x : Nat} : Keeps s₀ (s.claimedTake b x) := by
  unfold State.claimedTake
  split
  · exact .ite (.ite h.claimEmpty h.setReg.updIrt.set.set.updHost.slotSet) h
  · exact h

theorem Keeps.execIrqClaimedReceive (h : Keeps s₀ s) {here : Bool} : GoesTo (execIrqClaimedReceive here s) (Keeps s₀) :=
  ⟨_, rfl, h.irqMsg fun _ _ _ _ h => h.claimedTake⟩

theorem Keeps.execIrqFrameNoReply (h : Keeps s₀ s) {claim : Bool} : GoesTo (execIrqFrameNoReply claim s) (Keeps s₀) := by
  refine ⟨_, rfl, ?_⟩
  split
  · exact h
  · exact .ite (.ite (.ite h.irqTo.updIrt h.irqTo.updIrt) <| .ite h.claimEmpty h.updIrt) h

theorem Keeps.doneWrite (h : Keeps s₀ s) {src : Master} {v : Nat} : Keeps s₀ (s.doneWrite src v) :=
  .ite (.ite h.claimDone h.evt) h

theorem Keeps.execIrqDoneWrite (h : Keeps s₀ s) {src : Master} {v : Word} : GoesTo (execIrqDoneWrite src v s) (Keeps s₀) :=
  ⟨_, rfl, .ite h.doneWrite h⟩

theorem Keeps.execIrqSlotRelease (h : Keeps s₀ s) : GoesTo (execIrqSlotRelease s) (Keeps s₀) := by
  refine ⟨_, rfl, ?_⟩
  split
  · exact h
  · exact .ite h.updIrt.slotSet h

theorem Keeps.execIrqDoneReceive (h : Keeps s₀ s) {here : Bool} : GoesTo (execIrqDoneReceive here s) (Keeps s₀) :=
  ⟨_, rfl, h.irqMsg fun _ _ _ _ h => h.updIrt⟩

theorem Keeps.execIrqWithdrawReceive (h : Keeps s₀ s) {here : Bool} : GoesTo (execIrqWithdrawReceive here s) (Keeps s₀) :=
  ⟨_, rfl, h.irqMsg fun _ _ _ _ h => h.updIrt⟩

theorem Keeps.execIrqClaimTimeout (h : Keeps s₀ s) : GoesTo (execIrqClaimTimeout s) (Keeps s₀) :=
  ⟨_, rfl, .ite h.withdraw.hostTell.report h⟩

theorem Keeps.execIrqHoldTimeout (h : Keeps s₀ s) : GoesTo (execIrqHoldTimeout s) (Keeps s₀) :=
  ⟨_, rfl, .ite h.claimDone.report h⟩

theorem Keeps.execTrapClear (h : Keeps s₀ s) : GoesTo (execTrapClear s) (Keeps s₀) :=
  ⟨_, rfl, .ite h.set h⟩

theorem Keeps.execSourceCountClear (h : Keeps s₀ s) {k : Fin 320} : GoesTo (execSourceCountClear k s) (Keeps s₀) :=
  ⟨_, rfl, .ite h.set h⟩

/-! ### The Gallery ring -/

theorem Keeps.syncSet (h : Keeps s₀ s) {k : Nat} : Keeps s₀ (s.syncSet k) :=
  .ite h h.set.raise

theorem Keeps.ringHoldover (h : Keeps s₀ s) : Keeps s₀ s.ringHoldover :=
  .ite h h.set

theorem Keeps.laneSet (h : Keeps s₀ s) {cable : Bool} : Keeps s₀ (s.laneSet cable) :=
  h.setB.evtInc.raise.ringHoldover

theorem Keeps.execLaneSwitchToCable (h : Keeps s₀ s) : GoesTo (execLaneSwitchToCable s) (Keeps s₀) :=
  ⟨_, rfl, .ite h.set.laneSet h⟩

theorem Keeps.execLaneReturnToPrimary (h : Keeps s₀ s) : GoesTo (execLaneReturnToPrimary s) (Keeps s₀) :=
  ⟨_, rfl, .ite h.laneSet h⟩

theorem Keeps.execRingIsolation (h : Keeps s₀ s) : GoesTo (execRingIsolation s) (Keeps s₀) :=
  ⟨_, rfl, .ite h.set.set.set.raise.ringHoldover.report h⟩

theorem Keeps.execValidCodeGroupArrival (h : Keeps s₀ s) {cable : Bool} : GoesTo (execValidCodeGroupArrival cable s) (Keeps s₀) :=
  ⟨_, rfl, .ite ((Keeps.ite h.set h.set.updGal).when (·.set.setB)) h⟩

theorem Keeps.authFail (h : Keeps s₀ s) {f : Frame} {cause : Nat} : Keeps s₀ (s.authFail f cause) :=
  h.set.set.set.evtInc.raise.report

theorem Keeps.rxPut (h : Keeps s₀ s) {f : Frame} {act own : Bool} : Keeps s₀ (s.rxPut f act own) := by
  unfold State.rxPut
  exact h.updGal

theorem Keeps.deliver (h : Keeps s₀ s) {f : Frame} : Keeps s₀ (s.deliver f) := by
  unfold State.deliver
  split
  · exact h.frame
  · exact h.updGau
  · exact h.rxPut

theorem Keeps.check (h : Keeps s₀ s) {f : Frame} : Keeps s₀ (s.check f).2 := by
  unfold State.check
  split
  · exact h
  · refine .iteSnd (.pairSnd h.authFail) <| .iteSnd (.pairSnd h) ?_
    split
    · exact .iteSnd (.pairSnd h.updGal) (.pairSnd h.authFail)
    · exact .pairSnd h.updGal

theorem Keeps.imageIn (h : Keeps s₀ s) {f : Frame} : Keeps s₀ (s.imageIn f) :=
  .ite h.rxPut h

theorem Keeps.frameIn (h : Keeps s₀ s) {f : Frame} : Keeps s₀ (s.frameIn f) :=
  (h.when (·.updGal)).branch (·.imageIn) fun h => .ite (.ite h.rxPut h) <| .ite h.imageIn.forward <| .ite (.ite h h.forward) <|
      .ite (.ite h.check.rxPut h.rxPut) ((h.unless fun h => h.forward).when fun h => .ite h.check.deliver h.check)

theorem Keeps.frameBad (h : Keeps s₀ s) {ws : List LaneWord} : Keeps s₀ (s.frameBad ws) :=
  h.evtInc.when (·.pass)

theorem Keeps.execFrameReceive (h : Keeps s₀ s) {rd : Bool} {ws : List (BitVec 20)} :
    GoesTo (execFrameReceive rd ws s) (Keeps s₀) := by
  refine ⟨_, rfl, .ite ?_ h⟩
  split
  · exact h.frameBad
  · exact .ite h.evtInc <| .ite h h.frameIn

theorem Keeps.send (h : Keeps s₀ s) {a b : Frame} : Keeps s₀ (s.send a b) :=
  h.leave

theorem Keeps.emit (h : Keeps s₀ s) {kind dst : Nat} {p : List Byte} : Keeps s₀ (s.emit kind dst p) :=
  h.send

theorem Keeps.emitSync (h : Keeps s₀ s) {phase : Nat} : Keeps s₀ (s.emitSync phase) := by
  unfold State.emitSync
  exact h.send.updGal

theorem Keeps.reqSend (h : Keeps s₀ s) {r : GalReq} : Keeps s₀ (s.reqSend r) := by
  unfold State.reqSend
  exact h.emit.updGal

theorem Keeps.transmit (h : Keeps s₀ s) {phase : Nat} : Keeps s₀ (s.transmit phase) := by
  unfold State.transmit
  split
  · exact .ite h.emit.updGal h
  · refine .ite h.updGal.frame <| .ite h <| .ite h.emitSync ?_
    split
    · exact h.emit.frame
    · split
      · split
        · exact h.emit.updGal
        · exact h
      · split
        · split
          · exact h.emit.updGau
          · exact h
        · split
          · exact h.emit.updGal
          · split
            · exact h.emit.updGal
            · split
              · exact h.reqSend
              · exact h

theorem Keeps.execOwnFrameTransmit (h : Keeps s₀ s) {phase : Fin 40} : GoesTo (execOwnFrameTransmit phase s) (Keeps s₀) :=
  ⟨_, rfl, .ite h.transmit h⟩

theorem Keeps.hostAnswer (h : Keeps s₀ s) {code : Nat} {d : List Byte} : Keeps s₀ (s.hostAnswer code d) :=
  h.updHost

theorem Keeps.reqDead (h : Keeps s₀ s) {r : GalReq} : Keeps s₀ (s.reqDead r) :=
  h.evtInc.raise.report.updGal.when (·.hostAnswer)

theorem Keeps.respTake (h : Keeps s₀ s) {r : RxFrame} : Keeps s₀ (s.respTake r) := by
  unfold State.respTake
  dsimp only
  split
  · exact h
  · split
    · exact h.updGal.hostAnswer
    · exact h.updGal.when (·.updGal)

theorem Keeps.execRespReceive (h : Keeps s₀ s) : GoesTo (execRespReceive s) (Keeps s₀) :=
  ⟨_, rfl, h.onFrame fun _ _ h => h.respTake⟩

theorem Keeps.execTransactionTimeout (h : Keeps s₀ s) {b : Fin 63} : GoesTo (execTransactionTimeout b s) (Keeps s₀) := by
  refine ⟨_, rfl, ?_⟩
  split
  · exact h
  · exact .ite (.ite h.updGal h.reqDead) h

theorem Keeps.reqAdd (h : Keeps s₀ s) {who : ReqWho} {bay kind : Nat} {rest : List Byte} : Keeps s₀ (s.reqAdd who bay kind rest) :=
  h.updGal

theorem Keeps.step3End (h : Keeps s₀ s) : Keeps s₀ s.step3End :=
  .ite h.set.updGal h

theorem Keeps.bayTake (h : Keeps s₀ s) {n : Nat} : Keeps s₀ (s.bayTake n) :=
  .ite h h.set.hostNumbered

theorem Keeps.nmTake (h : Keeps s₀ s) {nm : List Byte} : Keeps s₀ (s.nmTake nm) := by
  unfold State.nmTake
  exact (h.each fun _ _ h => h.reqDead).updGal

theorem Keeps.passBegin (h : Keeps s₀ s) {p : EnumPass} {k : Nat} {body : List Byte} : Keeps s₀ (s.passBegin p k body) := by
  unfold State.passBegin
  exact h.updGal

theorem Keeps.fullEnum (h : Keeps s₀ s) : Keeps s₀ s.fullEnum :=
  h.freeBytes.bayTake.nmTake.set.updGal.passBegin

theorem Keeps.execEnumStart (h : Keeps s₀ s) : GoesTo (execEnumStart s) (Keeps s₀) :=
  ⟨_, rfl, .ite h.fullEnum h⟩

theorem Keeps.execFullEnumeration (h : Keeps s₀ s) : GoesTo (execFullEnumeration s) (Keeps s₀) :=
  ⟨_, rfl, .ite h.fullEnum h⟩

theorem Keeps.execEnumPassTimeout (h : Keeps s₀ s) : GoesTo (execEnumPassTimeout s) (Keeps s₀) := by
  refine ⟨_, rfl, ?_⟩
  split
  · exact h
  · exact .ite h.evtInc.fullEnum h

theorem Keeps.execEnumRetryTimer (h : Keeps s₀ s) : GoesTo (execEnumRetryTimer s) (Keeps s₀) := by
  refine ⟨_, rfl, .ite (.ite ?_ ?_) h⟩
  · split
    · exact h
    · exact .ite h.updGal.step3End.fullEnum h
  · split
    · exact .ite h.updGal.fullEnum h
    · exact h

theorem Keeps.masterConflict (h : Keeps s₀ s) : Keeps s₀ s.masterConflict :=
  h.evt.raise.report

theorem Keeps.holdFrame (h : Keeps s₀ s) {f : Frame} : Keeps s₀ (s.holdFrame f) := by
  unfold State.holdFrame
  exact h.updGal

theorem Keeps.measureTake (h : Keeps s₀ s) {r : RxFrame} : Keeps s₀ (s.measureTake r) :=
  (Keeps.ite h.nmTake.bayTake.set <| .ite h.updGal h).holdFrame

theorem Keeps.enumMeasure (h : Keeps s₀ s) {r : RxFrame} : Keeps s₀ (s.enumMeasure r) :=
  .ite (h.masterConflict.branch (·.set.updGal.branch (·.measureTake) (·.forward)) (·.fullEnum)) h.measureTake

theorem Keeps.execEnumMeasure (h : Keeps s₀ s) : GoesTo (execEnumMeasure s) (Keeps s₀) :=
  ⟨_, rfl, h.onFrame fun _ _ h => h.enumMeasure⟩

theorem Keeps.execMeasureHoldEnd (h : Keeps s₀ s) {dlyP dlyC : Word} : GoesTo (execMeasureHoldEnd dlyP dlyC s) (Keeps s₀) := by
  refine ⟨_, rfl, ?_⟩
  split
  · exact h
  · exact .ite (h.setReg.setReg.updGal.branch (·.emit) (·.forward)) h

theorem Keeps.assignTake (h : Keeps s₀ s) {r : RxFrame} {resid : Nat} : Keeps s₀ (s.assignTake r resid) :=
  (h.when (·.bayTake)).forward

theorem Keeps.execEnumAssign (h : Keeps s₀ s) {resid : Nat} : GoesTo (execEnumAssign resid s) (Keeps s₀) :=
  ⟨_, rfl, h.onFrame fun _ _ h => h.assignTake⟩

theorem Keeps.enumerated (h : Keeps s₀ s) : Keeps s₀ s.enumerated :=
  h.set.set.raise.step3End.hostTell

theorem Keeps.doneTake (h : Keeps s₀ s) {r : RxFrame} : Keeps s₀ (s.doneTake r) :=
  (h.when (·.set.when (·.enumerated))).forward

theorem Keeps.execEnumDone (h : Keeps s₀ s) : GoesTo (execEnumDone s) (Keeps s₀) :=
  ⟨_, rfl, h.onFrame fun _ _ h => h.doneTake⟩

theorem Keeps.offerPass (h : Keeps s₀ s) {r : RxFrame} : Keeps s₀ (s.offerPass r) :=
  .ite h.updGal.forward h.forward

theorem Keeps.execJoinOffer (h : Keeps s₀ s) : GoesTo (execJoinOffer s) (Keeps s₀) :=
  ⟨_, rfl, h.onFrame fun _ _ h => h.offerPass⟩

theorem Keeps.grantTake (h : Keeps s₀ s) {r : RxFrame} : Keeps s₀ (s.grantTake r) :=
  (h.when (·.bayTake.enumerated)).forward

theorem Keeps.execJoinGrant (h : Keeps s₀ s) : GoesTo (execJoinGrant s) (Keeps s₀) :=
  ⟨_, rfl, h.onFrame fun _ _ h => h.grantTake⟩

theorem Keeps.joinSend (h : Keeps s₀ s) : Keeps s₀ s.joinSend :=
  .ite h.updGal h

theorem Keeps.execJoinNow (h : Keeps s₀ s) : GoesTo (execJoinNow s) (Keeps s₀) :=
  ⟨_, rfl, .ite h.joinSend h⟩

theorem Keeps.execJoinOfferTimer (h : Keeps s₀ s) : GoesTo (execJoinOfferTimer s) (Keeps s₀) :=
  ⟨_, rfl, .ite h.joinSend h⟩

theorem Keeps.offerBack (h : Keeps s₀ s) {r : RxFrame} : Keeps s₀ (s.offerBack r) := by
  refine .ite h ?_
  split
  · exact h.set
  · exact h.updGal.passBegin

theorem Keeps.assignBack (h : Keeps s₀ s) {r : RxFrame} {wanted : Bool} : Keeps s₀ (s.assignBack r wanted) := by
  unfold State.assignBack
  exact ((h.when (·.tbStep.inc)).when (·.set)).updGal

theorem Keeps.doneBack (h : Keeps s₀ s) : Keeps s₀ s.doneBack :=
  h.set.syncSet.updGal.enumerated.each fun _ _ h => h.reqAdd

theorem Keeps.frameBack (h : Keeps s₀ s) {r : RxFrame} {wanted : Bool} : Keeps s₀ (s.frameBack r wanted) := by
  refine .ite (.ite h.offerBack h) ?_
  split
  · exact .ite h.passBegin h
  · exact .ite h.assignBack h
  · exact .ite h.passBegin h
  · exact .ite h.doneBack h
  · refine .ite ?_ h
    split
    · exact h.updGal.raise
    · exact h.updGal
  · exact h

theorem Keeps.execEnumFrameReturn (h : Keeps s₀ s) {wanted : Bool} : GoesTo (execEnumFrameReturn wanted s) (Keeps s₀) :=
  ⟨_, rfl, .ite (h.onFrame fun _ _ h => h.frameBack) h⟩

theorem Keeps.execEnumWaitTimeout (h : Keeps s₀ s) : GoesTo (execEnumWaitTimeout s) (Keeps s₀) := by
  refine ⟨_, rfl, ?_⟩
  split
  · exact h
  · exact .ite h.set.report.step3End h

theorem Keeps.syncTake (h : Keeps s₀ s) {r : RxFrame} {phase : Nat} : Keeps s₀ (s.syncTake r phase) :=
  (Keeps.ite h.set h.free.set).set.updGal.branch (·.tbStep.inc.syncSet.updGal.frame) (·.syncSet.updGal.frame)

theorem Keeps.syncPass (h : Keeps s₀ s) {r : RxFrame} {phase resid : Nat} : Keeps s₀ (s.syncPass r phase resid) :=
  (h.when (·.syncTake)).pass

theorem Keeps.execSyncReceive (h : Keeps s₀ s) {phase : Fin 40} {resid : Nat} : GoesTo (execSyncReceive phase resid s) (Keeps s₀) :=
  ⟨_, rfl, h.onFrame fun _ _ h => h.syncPass⟩

theorem Keeps.execSyncSend (h : Keeps s₀ s) : GoesTo (execSyncSend s) (Keeps s₀) :=
  ⟨_, rfl, .ite (h.frame.when (·.updGal)) h⟩

theorem Keeps.execSyncTimeout (h : Keeps s₀ s) : GoesTo (execSyncTimeout s) (Keeps s₀) :=
  ⟨_, rfl, .ite h.syncSet h⟩

theorem Keeps.execEventSlotChange (h : Keeps s₀ s) {sl : Fin 16} : GoesTo (execEventSlotChange sl s) (Keeps s₀) :=
  ⟨_, rfl, .ite (h.updGal.when (·.updGal)) h⟩

theorem Keeps.eventTake (h : Keeps s₀ s) {r : RxFrame} : Keeps s₀ (s.eventTake r) :=
  h.setBitAt.evtAt.raise

theorem Keeps.execEventReceive (h : Keeps s₀ s) : GoesTo (execEventReceive s) (Keeps s₀) :=
  ⟨_, rfl, h.onFrame fun _ _ h => h.eventTake⟩

theorem Keeps.execResetFrame (h : Keeps s₀ s) : GoesTo (execResetFrame s) (Keeps s₀) :=
  ⟨_, rfl, h.onFrame fun _ _ h => .ite h.updGal h⟩

theorem Keeps.galClr (h : Keeps s₀ s) : Keeps s₀ s.galClr :=
  h.setReg.setReg

theorem Keeps.execGalleryCountClear (h : Keeps s₀ s) : GoesTo (execGalleryCountClear s) (Keeps s₀) :=
  ⟨_, rfl, .ite h.galClr h⟩

theorem Keeps.galCtrl (h : Keeps s₀ s) {v : Nat} : Keeps s₀ (s.galCtrl v) :=
  .ite (((h.when (·.galClr)).when (·.joinSend)).when (·.fullEnum)) h

theorem Keeps.step3Begin (h : Keeps s₀ s) : Keeps s₀ s.step3Begin :=
  h.set.branch (·.set.updGal) (·.set)

theorem Keeps.galApply (h : Keeps s₀ s) {b : List Byte} : Keeps s₀ (s.galApply b) :=
  h.set.setReg.updGal.each fun _ _ h => h.setReg

/-! ### Timers -/

theorem Keeps.pairSet (h : Keeps s₀ s) {n : Nat} {f : Nat → Fld} {v : Nat} : Keeps s₀ (s.pairSet n f v) :=
  .ite h.set.set h.set

theorem Keeps.paceSend (h : Keeps s₀ s) {code mask : Nat} : Keeps s₀ (s.paceSend code mask) :=
  h.frame

theorem Keeps.tmrMatch (h : Keeps s₀ s) {n v k : Nat} : Keeps s₀ (s.tmrMatch n v k) :=
  .ite h.evt.set.raiseIf.paceSend h

theorem Keeps.tmrChange (h : Keeps s₀ s) {n v : Nat} : Keeps s₀ (s.tmrChange n v) :=
  h.updTmr.pairSet.tmrMatch.tmrMatch

theorem Keeps.winDue (h : Keeps s₀ s) {w : Nat} : Keeps s₀ (s.winDue w) :=
  h.updCmp

theorem Keeps.winTimerTick (h : Keeps s₀ s) {n : Nat} : Keeps s₀ (s.winTimerTick n) :=
  h.each fun _ _ h => .ite h.winDue h

theorem Keeps.tmrPhase (h : Keeps s₀ s) {n : Nat} : Keeps s₀ (s.tmrPhase n) :=
  h.updTmr

theorem Keeps.tmrRun (h : Keeps s₀ s) {n : Nat} {run : Bool} : Keeps s₀ (s.tmrRun n run) :=
  .ite h.set.tmrPhase h.setB

theorem Keeps.tmrClear (h : Keeps s₀ s) {n : Nat} : Keeps s₀ (s.tmrClear n) :=
  h.pairSet.tmrPhase

theorem Keeps.tmrCount (h : Keeps s₀ s) {n v : Nat} : Keeps s₀ (s.tmrCount n v) :=
  h.pairSet

theorem Keeps.tmrReload (h : Keeps s₀ s) {n v : Nat} : Keeps s₀ (s.tmrReload n v) :=
  .ite h.updTmr <| .ite h.set.set.updTmr h.set

theorem Keeps.tmrPast (h : Keeps s₀ s) {n k : Nat} : Keeps s₀ (s.tmrPast n k) :=
  h.setB

theorem Keeps.tmrCompare (h : Keeps s₀ s) {n k v : Nat} : Keeps s₀ (s.tmrCompare n k v) :=
  .ite h.updTmr <| .ite h.set.set.updTmr.tmrPast h.set.tmrPast

theorem Keeps.tmrGroup (h : Keeps s₀ s) {mask : Nat} : Keeps s₀ (s.tmrGroup mask) :=
  h.each fun _ _ h => .ite h.tmrRun h

theorem Keeps.tmrCfg (h : Keeps s₀ s) {n : Nat} {src : Master} {v : Word} : Keeps s₀ (s.tmrCfg n src v) :=
  ((h.writeCodes.when (·.set)).when (·.updTmr.updTmr)).unless (·.tmrPhase)

theorem Keeps.tmrDo (h : Keeps s₀ s) {a : TmrAct} : Keeps s₀ (s.tmrDo a) := by
  unfold State.tmrDo
  split
  · exact h.tmrRun
  · exact h.tmrClear
  · exact h.tmrCount
  · exact h.tmrReload
  · exact h.tmrCompare
  · exact h.tmrGroup
  · exact h.tmrCfg

theorem Keeps.tmrAct (h : Keeps s₀ s) {a : TmrAct} : Keeps s₀ (s.tmrAct a) :=
  .ite h.frame h.tmrDo

theorem Keeps.tmrFlush (h : Keeps s₀ s) : Keeps s₀ s.tmrFlush :=
  .ite h (h.frame.each fun _ _ h => h.tmrDo)

theorem Keeps.execTimerAdvance (h : Keeps s₀ s) {n : Fin 16} : GoesTo (execTimerAdvance n s) (Keeps s₀) :=
  ⟨_, rfl, (h.when (·.updTmr.branch (·.evt.raiseIf.tmrChange.winTimerTick) (·.tmrChange))).tmrFlush⟩

theorem Keeps.execTimerLineStart (h : Keeps s₀ s) {n : Fin 16} : GoesTo (execTimerLineStart n s) (Keeps s₀) :=
  ⟨_, rfl, (h.when (·.tmrRun)).tmrFlush⟩

theorem Keeps.execTimerLineStop (h : Keeps s₀ s) {n : Fin 16} : GoesTo (execTimerLineStop n s) (Keeps s₀) :=
  ⟨_, rfl, (h.when (·.tmrRun)).tmrFlush⟩

theorem Keeps.execTimerLineCapture (h : Keeps s₀ s) {n : Fin 16} : GoesTo (execTimerLineCapture n s) (Keeps s₀) :=
  ⟨_, rfl, (Keeps.ite (h.updTmr.when (·.evt)).pairSet.evt.raiseIf h).tmrFlush⟩

theorem Keeps.execTimerLineClear (h : Keeps s₀ s) {n : Fin 16} : GoesTo (execTimerLineClear n s) (Keeps s₀) :=
  ⟨_, rfl, (h.when (·.tmrPhase.unless (·.tmrChange))).tmrFlush⟩

theorem Keeps.execTimerRunWrite (h : Keeps s₀ s) {n : Fin 16} {run : Bool} : GoesTo (execTimerRunWrite n run s) (Keeps s₀) :=
  ⟨_, rfl, .ite h.tmrAct h⟩

theorem Keeps.execTimerClearCommand (h : Keeps s₀ s) {n : Fin 16} : GoesTo (execTimerClearCommand n s) (Keeps s₀) :=
  ⟨_, rfl, .ite h.tmrAct h⟩

theorem Keeps.execTimerCountWrite (h : Keeps s₀ s) {n : Fin 16} {v : Word} : GoesTo (execTimerCountWrite n v s) (Keeps s₀) :=
  ⟨_, rfl, .ite h.tmrAct h⟩

theorem Keeps.execTimerReloadWrite (h : Keeps s₀ s) {n : Fin 16} {v : Word} : GoesTo (execTimerReloadWrite n v s) (Keeps s₀) :=
  ⟨_, rfl, .ite h.tmrAct h⟩

theorem Keeps.execTimerCompareWrite (h : Keeps s₀ s) {n : Fin 16} {k : Fin 2} {v : Word} :
    GoesTo (execTimerCompareWrite n k v s) (Keeps s₀) :=
  ⟨_, rfl, .ite h.tmrAct h⟩

theorem Keeps.execTimerGroupRun (h : Keeps s₀ s) {mask : BitVec 16} : GoesTo (execTimerGroupRun mask s) (Keeps s₀) :=
  ⟨_, rfl, .ite h.tmrAct h⟩

theorem Keeps.tmrRead (h : Keeps s₀ s) {n : Nat} : Keeps s₀ (s.tmrRead n).2 := by
  unfold State.tmrRead
  split
  · exact h.updTmr
  · split
    · split
      · exact h.updTmr
      · exact h
    · exact h

theorem Keeps.execTimerPairCountRead (h : Keeps s₀ s) {n : Fin 16} : GoesTo (execTimerPairCountRead n s) (Keeps s₀) :=
  ⟨_, rfl, .ite h.tmrRead.frame h⟩

/-! ### HOOK -/

theorem Keeps.hkSet (h : Keeps s₀ s) {c st : Nat} : Keeps s₀ (s.hkSet c st) :=
  h.set

theorem Keeps.hkPcSet (h : Keeps s₀ s) {c a : Nat} : Keeps s₀ (s.hkPcSet c a) :=
  h.set.set

theorem Keeps.hkStop (h : Keeps s₀ s) {c cause : Nat} : Keeps s₀ (s.hkStop c cause) :=
  h.hkSet.set.updHk.raiseIf

theorem Keeps.hkErr (h : Keeps s₀ s) {c cause addr : Nat} : Keeps s₀ (s.hkErr c cause addr) :=
  h.set.set.evtInc.set.set.evtInc.raiseIf

theorem Keeps.freeAddr (h : Keeps s₀ s) : Keeps s₀ s.freeAddr.2 :=
  h.free.free

theorem Keeps.hkBad (h : Keeps s₀ s) {c cause addr : Nat} : Keeps s₀ (s.hkBad c cause addr) :=
  .ite h h.hkErr.updHk.hkSet

theorem Keeps.hkStart (h : Keeps s₀ s) {c : Nat} : Keeps s₀ (s.hkStart c) :=
  .ite h.hkSet.updHk h

theorem Keeps.hkHalt (h : Keeps s₀ s) {c : Nat} : Keeps s₀ (s.hkHalt c) :=
  .ite h <| .ite h.hkStop h.updHk

theorem Keeps.execHookStart (h : Keeps s₀ s) {c : Fin 16} : GoesTo (execHookStart c s) (Keeps s₀) :=
  ⟨_, rfl, .ite h.hkStart h⟩

theorem Keeps.execHookStop (h : Keeps s₀ s) {c : Fin 16} : GoesTo (execHookStop c s) (Keeps s₀) :=
  ⟨_, rfl, .ite h.hkHalt h⟩

theorem Keeps.hkClr (h : Keeps s₀ s) {c : Nat} : Keeps s₀ (s.hkClr c) :=
  h.set.set

theorem Keeps.execHookClearRequests (h : Keeps s₀ s) {c : Fin 16} : GoesTo (execHookClearRequests c s) (Keeps s₀) :=
  ⟨_, rfl, .ite h.hkClr h⟩

theorem Keeps.hkCtrl (h : Keeps s₀ s) {c v : Nat} : Keeps s₀ (s.hkCtrl c v) :=
  (Keeps.ite h.hkHalt <| .ite h.hkStart h).when (·.hkClr)

theorem Keeps.hkPcWrite (h : Keeps s₀ s) {c : Nat} {hi : Bool} {v : Nat} : Keeps s₀ (s.hkPcWrite c hi v) :=
  .ite (.ite h.set h.set) h

theorem Keeps.execHookPcWrite (h : Keeps s₀ s) {c : Fin 16} {hi : Bool} {v : Word} : GoesTo (execHookPcWrite c hi v s) (Keeps s₀) :=
  ⟨_, rfl, .ite h.hkPcWrite h⟩

theorem Keeps.hkConsume (h : Keeps s₀ s) {c : Nat} : Keeps s₀ (s.hkConsume c) :=
  .ite h.set h

theorem Keeps.waitTest (h : Keeps s₀ s) {c : Nat} : Keeps s₀ (s.waitTest c) :=
  .ite h.hkSet h

theorem Keeps.hkCount (h : Keeps s₀ s) {c : Nat} : Keeps s₀ (s.hkCount c) :=
  h.updHk.branch (·.evt) (·.incW)

theorem Keeps.hkPulse (h : Keeps s₀ s) {c code : Nat} : Keeps s₀ (s.hkPulse c code) :=
  .ite h.updHk.waitTest <| .ite h.hkCount h

theorem Keeps.hkLook (h : Keeps s₀ s) {c : Nat} : Keeps s₀ (s.hkLook c) :=
  h.updHk

theorem Keeps.hkFalls (h : Keeps s₀ s) : Keeps s₀ s.hkFalls :=
  h.each fun _ _ h => .ite h.updHk h

theorem Keeps.execPacingPulse (h : Keeps s₀ s) {edge : Option (Fin 16)} : GoesTo (execPacingPulse edge s) (Keeps s₀) := by
  refine ⟨_, rfl, .ite ?_ h⟩
  split
  · split
    · exact h
    · exact .ite (h.frame.each fun _ _ h => .ite h.hkPulse h) h.frame
  · exact .ite h.hkLook.hkPulse h

theorem Keeps.hkLoop (h : Keeps s₀ s) {c : Nat} : Keeps s₀ (s.hkLoop c) :=
  .ite h.freeAddr.hkBad <|
      .ite h.hkBad ((h.when (·.set.updHk)).branch (·.hkPcSet.hkSet.updHk) fun h => .ite h.set.hkPcSet.hkSet.updHk h.set.updHk.hkSet)

theorem Keeps.execHookLoop (h : Keeps s₀ s) {c : Fin 16} : GoesTo (execHookLoop c s) (Keeps s₀) :=
  ⟨_, rfl, .ite h.hkLoop h⟩

theorem Keeps.hkWait (h : Keeps s₀ s) {c : Nat} : Keeps s₀ (s.hkWait c) :=
  .ite h.updHk.hkSet <| .ite (h.unless (·.set)).updHk.waitTest <| .ite h.updHk.hkSet h

theorem Keeps.execHookWait (h : Keeps s₀ s) {c : Fin 16} : GoesTo (execHookWait c s) (Keeps s₀) :=
  ⟨_, rfl, .ite h.hkWait h⟩

theorem Keeps.execHookSignal (h : Keeps s₀ s) {c : Fin 16} : GoesTo (execHookSignal c s) (Keeps s₀) :=
  ⟨_, rfl, .ite h.updHk.hkSet h⟩

theorem Keeps.hkBegin (h : Keeps s₀ s) {c : Nat} : Keeps s₀ (s.hkBegin c) := by
  refine .ite h.set.set.set.freeAddr.hkBad <| .ite h.set.set.set.updHk.hkSet ?_
  split
  · exact h.set.set.set.hkBad
  · exact h.set.set.set.updHk

theorem Keeps.execHookMove (h : Keeps s₀ s) {c : Fin 16} : GoesTo (execHookMove c s) (Keeps s₀) :=
  ⟨_, rfl, .ite h.hkBegin h⟩

theorem Keeps.execHookFill (h : Keeps s₀ s) {c : Fin 16} : GoesTo (execHookFill c s) (Keeps s₀) :=
  ⟨_, rfl, .ite h.hkBegin h⟩

theorem Keeps.execHookCmp (h : Keeps s₀ s) {c : Fin 16} : GoesTo (execHookCmp c s) (Keeps s₀) :=
  ⟨_, rfl, .ite h.hkBegin h⟩

theorem Keeps.hkUse (h : Keeps s₀ s) {c : Nat} : Keeps s₀ (s.hkUse c) :=
  .ite h.set h.free.set

theorem Keeps.hkIssue (h : Keeps s₀ s) {c : Nat} : Keeps s₀ (s.hkIssue c) :=
  ((h.when (·.updCoder)).unless (·.hkConsume.updHk)).frame.hkUse.updHk.set.set.set.when (·.hkSet)

theorem Keeps.execBurstIssue (h : Keeps s₀ s) : GoesTo (execBurstIssue s) (Keeps s₀) := by
  refine ⟨_, rfl, .ite ?_ h⟩
  split
  · exact h.hkIssue
  · exact h

theorem Keeps.hkDrained (h : Keeps s₀ s) {c : Nat} : Keeps s₀ (s.hkDrained c) :=
  .ite h.hkStop h

theorem Keeps.burstBad (h : Keeps s₀ s) {c : Nat} {b : Burst} {cause addr : Nat} : Keeps s₀ (s.burstBad c b cause addr) :=
  .ite (.ite h h.hkErr.updHk) <| .ite (.ite h h.hkErr.updHk) h.hkBad

theorem Keeps.hkTick (h : Keeps s₀ s) : Keeps s₀ s.hkTick :=
  h.frame.each fun _ _ h => h.set

theorem Keeps.execHookBudgetWrite (h : Keeps s₀ s) {c : Fin 16} {src : Master} {v : Word} :
    GoesTo (execHookBudgetWrite c src v s) (Keeps s₀) :=
  ⟨_, rfl, .ite h.writeCodes h⟩

theorem Keeps.hookApply (h : Keeps s₀ s) {n : Nat} {b : List Byte} : Keeps s₀ (s.hookApply n b) := by
  unfold State.hookApply
  dsimp only
  exact h.setHallBytes.frame.setReg.hkPcSet.hkLook.unless fun h => .ite h.frame h.frame

theorem Keeps.hookRemove (h : Keeps s₀ s) {n : Nat} : Keeps s₀ (s.hookRemove n) :=
  h.setReg.hkPcSet.when (·.frame)

theorem Keeps.hookAuto (h : Keeps s₀ s) : Keeps s₀ s.hookAuto :=
  h.each fun _ _ h => .ite h.hkStart h

theorem Keeps.budgetRemove (h : Keeps s₀ s) : Keeps s₀ s.budgetRemove :=
  h.each fun _ _ h => h.setReg

theorem Keeps.budgetApply (h : Keeps s₀ s) {b : List Byte} : Keeps s₀ (s.budgetApply b) :=
  h.each fun _ _ h => h.set

theorem Keeps.hookReset (h : Keeps s₀ s) : Keeps s₀ s.hookReset := by
  unfold State.hookReset
  dsimp only
  exact h.regsOut.each fun _ _ h => h.set

/-! ### CAN FD and SENT -/

theorem Keeps.canShow (h : Keeps s₀ s) {x : Nat} : Keeps s₀ (s.canShow x) :=
  (h.set.set.set.raiseIf.when (·.report)).when (·.report)

theorem Keeps.canRxOk (h : Keeps s₀ s) {x : Nat} : Keeps s₀ (s.canRxOk x) :=
  .ite h.free.updCan.canShow h.updCan.canShow

theorem Keeps.canCfg (h : Keeps s₀ s) {x : Nat} : Keeps s₀ (s.canCfg x) :=
  (h.unless (·.updCan)).canShow

theorem Keeps.updObj (h : Keeps s₀ s) {x o : Nat} {f : CanObj → CanObj} : Keeps s₀ (s.updObj x o f) :=
  h.updCan

theorem Keeps.canSignals (h : Keeps s₀ s) {x o n : Nat} : Keeps s₀ (s.canSignals x o n) :=
  h.each fun _ _ h => .ite (.ite h.qvFeed h) h

theorem Keeps.canStore (h : Keeps s₀ s) {x o : Nat} {f : CanFrame} : Keeps s₀ (s.canStore x o f) :=
  (h.updObj.evtAt.when (·.evtAt.report)).raiseIf.canSignals

theorem Keeps.canTake (h : Keeps s₀ s) {x : Nat} {f : CanFrame} : Keeps s₀ (s.canTake x f) := by
  refine .ite h ?_
  split
  · exact h.canStore
  · exact h

theorem Keeps.execCanFrameReceive (h : Keeps s₀ s) {x : Fin 2} {f : CanFrame} : GoesTo (execCanFrameReceive x f s) (Keeps s₀) :=
  ⟨_, rfl, .ite h.canRxOk.canTake h⟩

theorem Keeps.canPendSet (h : Keeps s₀ s) {x o : Nat} {b : Bool} : Keeps s₀ (s.canPendSet x o b) :=
  h.setBitAt

theorem Keeps.canSent (h : Keeps s₀ s) {x o : Nat} : Keeps s₀ (s.canSent x o) :=
  h.canPendSet.updCan.raiseIf.canShow.when (·.canTake)

theorem Keeps.execCanFrameSent (h : Keeps s₀ s) {x : Fin 2} : GoesTo (execCanFrameSent x s) (Keeps s₀) := by
  refine ⟨_, rfl, .ite ?_ h⟩
  split
  · exact h.canSent
  · exact h

theorem Keeps.canAgain (h : Keeps s₀ s) {x : Nat} : Keeps s₀ (s.canAgain x) := by
  unfold State.canAgain
  split
  · exact h
  · exact h.updCan.when (·.canPendSet)

theorem Keeps.execCanArbitrationLost (h : Keeps s₀ s) {x : Fin 2} : GoesTo (execCanArbitrationLost x s) (Keeps s₀) :=
  ⟨_, rfl, .ite h.canAgain h⟩

theorem Keeps.canRequest (h : Keeps s₀ s) {x v : Nat} : Keeps s₀ (s.canRequest x v) :=
  h.each fun _ _ h => .ite h.canPendSet h

theorem Keeps.execCanTxRequest (h : Keeps s₀ s) {x : Fin 2} {mask : BitVec 32} : GoesTo (execCanTxRequest x mask s) (Keeps s₀) :=
  ⟨_, rfl, .ite h.canRequest h⟩

theorem Keeps.canAbort (h : Keeps s₀ s) {x v : Nat} {onBus : Option Nat} : Keeps s₀ (s.canAbort x v onBus) :=
  h.each fun _ _ h => .ite (.ite h.updCan h.canPendSet) h

theorem Keeps.execCanTxAbort (h : Keeps s₀ s) {x : Fin 2} {mask : BitVec 32} {onBus : Option (Fin 32)} :
    GoesTo (execCanTxAbort x mask onBus s) (Keeps s₀) :=
  ⟨_, rfl, .ite h.canAbort h⟩

theorem Keeps.canSelect (h : Keeps s₀ s) {x o : Nat} : Keeps s₀ (s.canSelect x o) :=
  h.set.setReg.set.set.set.set.set.set.each fun _ _ h => h.set

theorem Keeps.execCanObjectSelect (h : Keeps s₀ s) {x : Fin 2} {o : Fin 32} : GoesTo (execCanObjectSelect x o s) (Keeps s₀) :=
  ⟨_, rfl, .ite h.canSelect h⟩

theorem Keeps.canOwr (h : Keeps s₀ s) {x : Nat} : Keeps s₀ (s.canOwr x) :=
  .ite h.evt h.updObj

theorem Keeps.execCanObjectWrite (h : Keeps s₀ s) {x : Fin 2} : GoesTo (execCanObjectWrite x s) (Keeps s₀) :=
  ⟨_, rfl, .ite h.canOwr h⟩

theorem Keeps.canError (h : Keeps s₀ s) {x : Nat} {tx strong : Bool} {lec : Nat} : Keeps s₀ (s.canError x tx strong lec) :=
  (h.set.updCan.when (·.canAgain)).canShow

theorem Keeps.execCanBusError (h : Keeps s₀ s) {x : Fin 2} {tx strong : Bool} {lec : Fin 6} :
    GoesTo (execCanBusError x tx strong lec s) (Keeps s₀) :=
  ⟨_, rfl, .ite h.canError h⟩

theorem Keeps.canRecover (h : Keeps s₀ s) {x : Nat} : Keeps s₀ (s.canRecover x) :=
  .ite h.updCan h

theorem Keeps.execCanRecover (h : Keeps s₀ s) {x : Fin 2} : GoesTo (execCanRecover x s) (Keeps s₀) :=
  ⟨_, rfl, .ite h.canRecover h⟩

theorem Keeps.execCanBusOffRecovery (h : Keeps s₀ s) {x : Fin 2} : GoesTo (execCanBusOffRecovery x s) (Keeps s₀) :=
  ⟨_, rfl, .ite h.updCan.canShow h⟩

theorem Keeps.sentReject (h : Keeps s₀ s) {r cause psrc det : Nat} : Keeps s₀ (s.sentReject r cause psrc det) :=
  h.set.evtInc.updSent.raiseIf.report

theorem Keeps.slowTake (h : Keeps s₀ s) {r id data kind : Nat} : Keeps s₀ (s.slowTake r id data kind) :=
  (h.set.set.set.each fun _ _ h => .ite h.set.qvFeed h).raiseIf

theorem Keeps.sentTake (h : Keeps s₀ s) {r : Nat} {p : SentPulses} {v : List Nat} : Keeps s₀ (s.sentTake r p v) :=
  h.updSent.set.set.set.set.set.qvFeed.qvFeed.raiseIf

theorem Keeps.sentFrame (h : Keeps s₀ s) {r : Nat} {p : SentPulses} : Keeps s₀ (s.sentFrame r p) :=
  .ite h.sentReject <| .ite (.ite h.updSent.sentTake.slowTake h.sentReject) h.updSent.sentTake

theorem Keeps.execSentFrameEnd (h : Keeps s₀ s) {r : Fin 8} {p : SentPulses} : GoesTo (execSentFrameEnd r p s) (Keeps s₀) :=
  ⟨_, rfl, .ite h.sentFrame h⟩

theorem Keeps.execSentSilence (h : Keeps s₀ s) {r : Fin 8} : GoesTo (execSentSilence r s) (Keeps s₀) :=
  ⟨_, rfl, .ite h.updSent.sentReject h⟩

theorem Keeps.putRegs (h : Keeps s₀ s) {b : List Byte} {o : Nat} {rs : List Nat} : Keeps s₀ (s.putRegs b o rs) :=
  h.each fun _ _ h => h.setReg

theorem Keeps.linkCan (h : Keeps s₀ s) {b : List Byte} {x : Nat} : Keeps s₀ (s.linkCan b x) :=
  ((h.putRegs.each fun _ _ h => h.updObj).when (·.putRegs)).canCfg

theorem Keeps.linkSent (h : Keeps s₀ s) {b : List Byte} : Keeps s₀ (s.linkSent b) := by
  unfold State.linkSent
  exact h.putRegs.putRegs.frame

theorem Keeps.linkApply (h : Keeps s₀ s) {b : List Byte} : Keeps s₀ (s.linkApply b) := by
  unfold State.linkApply
  exact h.linkCan.linkCan.linkSent

theorem Keeps.canReset (h : Keeps s₀ s) {x : Nat} : Keeps s₀ (s.canReset x) :=
  h.updCan

theorem Keeps.sentReset (h : Keeps s₀ s) : Keeps s₀ s.sentReset :=
  h.frame

/-! ### The Porter -/

theorem Keeps.sample (h : Keeps s₀ s) {e : PairEvt} : Keeps s₀ (s.sample e).2 := by
  unfold State.sample
  split
  · exact h
  · exact .iteSnd (.pairSnd h.updPor) <| .iteSnd (.pairSnd h) (.pairSnd h)
  · refine .iteSnd (.pairSnd h.free.updPor) ?_
    split
    · exact .pairSnd h.updPor
    · split
      · exact .iteSnd (.pairSnd h.updPor) (.pairSnd h)
      · exact h

theorem Keeps.sampleAll (h : Keeps s₀ s) {l : List PairEvt} {seen : List Nat} : Keeps s₀ (s.sampleAll l seen).2 := by
  induction l generalizing s seen with
  | nil => exact h
  | cons e t ih =>
    unfold State.sampleAll
    dsimp only
    split
    · exact ih h
    · split
      · exact ih h.sample
      · split
        · exact ih h.sample
        · exact ih h.sample

theorem Keeps.captureTake (h : Keeps s₀ s) {d : Decided} : Keeps s₀ (s.captureTake d) :=
  h.setReg.set.set.setB.setB.set.setB.setReg.set.set.set.set.set.set.set.set

theorem Keeps.secondSet (h : Keeps s₀ s) : Keeps s₀ s.secondSet :=
  h.raiseIf.set

theorem Keeps.capture (h : Keeps s₀ s) {d : Decided} : Keeps s₀ (s.capture d) :=
  .ite h.captureTake.secondSet <| .ite (.ite h.secondSet.inc.set h.captureTake) h

theorem Keeps.logEvent (h : Keeps s₀ s) {d : Decided} : Keeps s₀ (s.logEvent d) :=
  .ite h.logOffer h

theorem Keeps.logReset (h : Keeps s₀ s) : Keeps s₀ s.logReset :=
  h.logOffer

theorem Keeps.porCmd (h : Keeps s₀ s) {src : Master} {v : Word} : Keeps s₀ (s.porCmd src v).2 :=
  .ite h.recordReject h

theorem Keeps.capClear (h : Keeps s₀ s) : Keeps s₀ s.capClear :=
  .ite h h.set.set.set

theorem Keeps.safeEnter (h : Keeps s₀ s) {k : Nat} : Keeps s₀ (s.safeEnter k) :=
  .ite h h.set.set.raise.cutAll.updPor

theorem Keeps.perform (h : Keeps s₀ s) {d : Decided} {r : Nat} {first : Bool} : Keeps s₀ (s.perform d r first) :=
  h.raiseIf.when fun h => .ite h (h.evt.when (·.set))

theorem Keeps.performAll (h : Keeps s₀ s) {l : List (Decided × Nat)} {b : Bool} :
    Keeps s₀ (l.foldl (fun (a : State × Bool) e => (a.1.perform e.1 e.2 a.2, a.2 && !(e.2 = 2 || e.2 = 5))) (s, b)).1 := by
  induction l generalizing s b with
  | nil => exact h
  | cons e t ih => exact ih h.perform

theorem Keeps.reactAll (h : Keeps s₀ s) {ds : List Decided} : Keeps s₀ (s.reactAll ds).1 := by
  unfold State.reactAll
  extract_lets eff s' anySafe creset s'' r
  have hs : Keeps s₀ s' := h.when (·.set)
  have hs' : Keeps s₀ s'' := by
    unfold s''
    split
    · exact hs.safeEnter
    · exact hs
  split
  · exact hs.inc
  · exact hs'.performAll

theorem Keeps.decide_ (h : Keeps s₀ s) {ds : List Decided} : Keeps s₀ (s.decide_ ds).1 :=
  (((h.when (·.capClear.updPor)).each fun _ _ h => h.capture).each fun _ _ h => h.logEvent.unless (·.updPor)).reactAll

theorem Keeps.winClose (h : Keeps s₀ s) {k : Nat} : Keeps s₀ (s.winClose k) := by
  unfold State.winClose
  split
  · exact h
  · exact .ite h.set.updPor h

theorem Keeps.count (h : Keeps s₀ s) {c : CountItem} : Keeps s₀ (s.count c) :=
  (h.winClose.evtInc.branch (·.set.updPor) (·.inc)).when (·.evtAt.raise.updPor)

theorem Keeps.countNext (h : Keeps s₀ s) : Keeps s₀ s.countNext := by
  unfold State.countNext
  split
  · exact h
  · exact h.updPor.count

theorem Keeps.execFaultCount (h : Keeps s₀ s) : GoesTo (execFaultCount s) (Keeps s₀) :=
  ⟨_, rfl, .ite (.ite h.updPor h.countNext) h⟩

theorem Keeps.execPorterWindowClose (h : Keeps s₀ s) {k : Fin 128} : GoesTo (execPorterWindowClose k s) (Keeps s₀) :=
  ⟨_, rfl, .ite h.winClose h⟩

theorem Keeps.agesTick (h : Keeps s₀ s) : Keeps s₀ s.agesTick :=
  h.updPor

theorem Keeps.porTick (h : Keeps s₀ s) : Keeps s₀ s.porTick :=
  .ite h.updPor h.agesTick

theorem Keeps.countsRun (h : Keeps s₀ s) : Keeps s₀ s.countsRun :=
  .ite h ((h.updPor.each fun _ _ h => h.countNext).when (·.agesTick))

theorem Keeps.sevClear (h : Keeps s₀ s) {i v : Nat} : Keeps s₀ (s.sevClear i v) :=
  h.each fun _ _ h => .ite h.setBitAt.set.updPor h

theorem Keeps.execSevereClear (h : Keeps s₀ s) {i : Fin 8} {v : Word} : GoesTo (execSevereClear i v s) (Keeps s₀) :=
  ⟨_, rfl, .ite h.sevClear h⟩

theorem Keeps.forceWrite (h : Keeps s₀ s) {i : Nat} {src : Master} {v : Word} : Keeps s₀ (s.forceWrite i src v) :=
  (h.when (·.recordReject)).each fun _ _ h => .ite h.updPor h

theorem Keeps.execFaultForce (h : Keeps s₀ s) {i : Fin 8} {src : Master} {v : Word} :
    GoesTo (execFaultForce i src v s) (Keeps s₀) :=
  ⟨_, rfl, .ite h.forceWrite h⟩

theorem Keeps.execCapclr (h : Keeps s₀ s) {src : Master} : GoesTo (execCapclr src s) (Keeps s₀) :=
  ⟨_, rfl, .ite (.ite h.porCmd.capClear h.porCmd) h⟩

theorem Keeps.execHeartbeatSend (h : Keeps s₀ s) : GoesTo (execHeartbeatSend s) (Keeps s₀) :=
  ⟨_, rfl, .ite h.updPor h⟩

theorem Keeps.execHeartbeatTimeout (h : Keeps s₀ s) : GoesTo (execHeartbeatTimeout s) (Keeps s₀) :=
  ⟨_, rfl, .ite (.ite (.ite h.updPor.report h) <| .ite h.updPor h.report) h⟩

theorem Keeps.execAliveToggle (h : Keeps s₀ s) {readback : Bool} : GoesTo (execAliveToggle readback s) (Keeps s₀) :=
  ⟨_, rfl, .ite (h.updPor.branch (·.standOff) (·.standOn)) h⟩

theorem Keeps.porterApply (h : Keeps s₀ s) {b : List Byte} : Keeps s₀ (s.porterApply b) :=
  h.each fun _ _ h => h.setReg.setReg

theorem Keeps.safetyApply (h : Keeps s₀ s) {b : List Byte} : Keeps s₀ (s.safetyApply b) :=
  h.setReg.set

/-! ### Self-test -/

theorem Keeps.stcFail (h : Keeps s₀ s) : Keeps s₀ s.stcFail :=
  h.evt.evtInc.raise

theorem Keeps.stcDone (h : Keeps s₀ s) {kind u : Nat} : Keeps s₀ (s.stcDone kind u) := by
  unfold State.stcDone
  exact h.updStc

theorem Keeps.stcInc (h : Keeps s₀ s) {kind : Nat} : Keeps s₀ (s.stcInc kind) :=
  h.evt.evtInc.raise.updStc.when (·.report)

theorem Keeps.regionWords (h : Keeps s₀ s) {hall row : Nat} : Keeps s₀ (s.regionWords hall row) :=
  h.each fun _ _ h => h.hallWord.when (·.frame)

theorem Keeps.marchFail (h : Keeps s₀ s) {hall g bit : Nat} : Keeps s₀ (s.marchFail hall g bit) := by
  unfold State.marchFail
  dsimp only
  split
  · exact h.set.set.setReg.set.report.stcFail.when (·.updStc)
  · split
    · exact (h.set.set.setReg.set.report.stcFail.when (·.updStc)).set.updStc.updStc.repairAsk
    · exact ((h.set.set.setReg.set.report.stcFail.when (·.updStc)).when (·.set)).report

theorem Keeps.regionNext (h : Keeps s₀ s) {hall g : Nat} : Keeps s₀ (s.regionNext hall g) :=
  .ite h.set.set (h.set.set.when (·.set.updStc.raise))

theorem Keeps.bufTest (h : Keeps s₀ s) {bad : Bool} : Keeps s₀ (s.bufTest bad) :=
  .ite h <| .ite h.set.updStc.stcFail.report h.set

theorem Keeps.regionTest (h : Keeps s₀ s) {res : MarchRes} {bufFail : Bool} : Keeps s₀ (s.regionTest res bufFail) := by
  unfold State.regionTest
  dsimp only
  split
  · exact h
  · split
    · refine .stcInc <| .set <| .set <| .set <| .updStc <| .bufTest (?_)
      split
      · exact h.updStc.regionWords
      · exact h.updStc
    · refine .regionNext <| .stcDone <| .when (.set <| .updStc <| .bufTest (?_)) (·.updStc)
      split
      · exact h.updStc.regionWords
      · exact h.updStc
    · refine .regionNext <| .stcDone <| .marchFail <| .set <| .updStc <| .bufTest (?_)
      split
      · exact h.updStc.regionWords
      · exact h.updStc

theorem Keeps.execHallRegionTest (h : Keeps s₀ s) {res : MarchRes} {bufFail : Bool} :
    GoesTo (execHallRegionTest res bufFail s) (Keeps s₀) :=
  ⟨_, rfl, .ite h.regionTest h⟩

theorem Keeps.pageRead (h : Keeps s₀ s) {p : Nat} : Keeps s₀ (s.pageRead p) :=
  (h.each fun _ _ h => h.nvOp).stcDone

theorem Keeps.execNvsBackgroundRead (h : Keeps s₀ s) : GoesTo (execNvsBackgroundRead s) (Keeps s₀) := by
  refine ⟨_, rfl, .ite ?_ h⟩
  split
  · exact .ite h (h.each fun _ _ h => h.pageRead).set.updStc
  · exact (h.each fun _ _ h => h.pageRead).set.updStc

theorem Keeps.updRot (h : Keeps s₀ s) {kind : Nat} {f : Rot → Rot} : Keeps s₀ (s.updRot kind f) :=
  h.updStc

theorem Keeps.rotLose (h : Keeps s₀ s) {kind u res : Nat} : Keeps s₀ (s.rotLose kind u res) :=
  h.set.set.set.stcFail.report.report

theorem Keeps.rotTest (h : Keeps s₀ s) {kind u : Nat} : Keeps s₀ (s.rotTest kind u) := by
  unfold State.rotTest
  exact h.updRot

theorem Keeps.rotHand (h : Keeps s₀ s) {kind k : Nat} : Keeps s₀ (s.rotHand kind k) :=
  h.updRot.rotTest

theorem Keeps.rotDone (h : Keeps s₀ s) {kind len : Nat} {res : TestRes} : Keeps s₀ (s.rotDone kind len res) := by
  unfold State.rotDone
  split
  · exact h
  · split
    · exact h.updRot.set.stcInc
    · exact .ite h.updRot.set.set.stcDone h
    · exact .ite h.updRot.rotLose.stcDone h

theorem Keeps.rotStep (h : Keeps s₀ s) {kind k pace n : Nat} {adv : Bool} : Keeps s₀ (s.rotStep kind k pace n adv) := by
  unfold State.rotStep
  exact h.updRot

theorem Keeps.rotRetry (h : Keeps s₀ s) {kind u pace : Nat} : Keeps s₀ (s.rotRetry kind u pace) :=
  h.updRot.rotTest

theorem Keeps.execCompareUnitStep (h : Keeps s₀ s) : GoesTo (execCompareUnitStep s) (Keeps s₀) := by
  refine ⟨_, rfl, .ite ?_ h⟩
  split
  · exact h.rotRetry
  · exact h.rotStep

theorem Keeps.execCompareUnitHandover (h : Keeps s₀ s) {agree : Bool} : GoesTo (execCompareUnitHandover agree s) (Keeps s₀) := by
  refine ⟨_, rfl, ?_⟩
  split
  · exact h
  · exact .ite (.ite (.ite h.rotHand h) h.updRot.rotLose) h

theorem Keeps.execCompareUnitTestDone (h : Keeps s₀ s) {res : TestRes} : GoesTo (execCompareUnitTestDone res s) (Keeps s₀) :=
  ⟨_, rfl, .ite h.rotDone h⟩

theorem Keeps.execEdgeTimerStep (h : Keeps s₀ s) : GoesTo (execEdgeTimerStep s) (Keeps s₀) := by
  refine ⟨_, rfl, .ite ?_ h⟩
  dsimp only
  split
  · exact h.rotRetry
  · split
    · exact h.updRot.rotStep
    · exact h.updRot.rotStep

theorem Keeps.execEdgeTimerSlotFree (h : Keeps s₀ s) : GoesTo (execEdgeTimerSlotFree s) (Keeps s₀) := by
  refine ⟨_, rfl, ?_⟩
  split
  · exact h
  · exact .ite h.rotHand h

theorem Keeps.execEdgeTimerTestDone (h : Keeps s₀ s) {res : TestRes} : GoesTo (execEdgeTimerTestDone res s) (Keeps s₀) :=
  ⟨_, rfl, .ite h.rotDone h⟩

theorem Keeps.execTestIntervalLate (h : Keeps s₀ s) {kind : Fin 5} : GoesTo (execTestIntervalLate kind s) (Keeps s₀) := by
  refine ⟨_, rfl, .ite ?_ h⟩
  split
  · exact h
  · exact h.evt.report.branch (·.updCmp) (·.updStc)

theorem Keeps.rotCut (h : Keeps s₀ s) {kind : Nat} : Keeps s₀ (s.rotCut kind) := by
  unfold State.rotCut
  refine .rotDone (?_)
  split
  · exact h.updRot
  · exact h

theorem Keeps.stcStart (h : Keeps s₀ s) : Keeps s₀ s.stcStart := by
  unfold State.stcStart
  exact h.setReg.updStc

theorem Keeps.paceSet (h : Keeps s₀ s) {a b : Nat} : Keeps s₀ (s.paceSet a b) :=
  h.setReg.setReg.setB

theorem Keeps.paceApply (h : Keeps s₀ s) {b : List Byte} : Keeps s₀ (s.paceApply b) :=
  h.paceSet

theorem Keeps.paceRemove (h : Keeps s₀ s) : Keeps s₀ s.paceRemove :=
  h.paceSet

/-! ### Window comparators -/

theorem Keeps.updWin (h : Keeps s₀ s) {w : Nat} {f : Win → Win} : Keeps s₀ (s.updWin w f) :=
  h.updCmp

theorem Keeps.zoneNote (h : Keeps s₀ s) : Keeps s₀ s.zoneNote := by
  unfold State.zoneNote
  exact h.updCmp

theorem Keeps.zoneUpdate (h : Keeps s₀ s) {w : Nat} : Keeps s₀ (s.zoneUpdate w) :=
  .ite h ((h.zoneNote.set.when (·.evtAt.raise)).when (·.standOn)).standOff

theorem Keeps.winOutputs (h : Keeps s₀ s) {w : Nat} {lo hi : Bool} : Keeps s₀ (s.winOutputs w lo hi) :=
  h.setBitAt.setBitAt.zoneUpdate

theorem Keeps.ladderSpare (h : Keeps s₀ s) {r : Nat} {out sample : Bool} : Keeps s₀ (s.ladderSpare r out sample) := by
  unfold State.ladderSpare
  exact h.updCmp

theorem Keeps.ladderInput (h : Keeps s₀ s) {r : Nat} {uv : Int} {sample : Bool} : Keeps s₀ (s.ladderInput r uv sample) := by
  unfold State.ladderInput
  split
  · exact .ite h.ladderSpare h
  · exact h

theorem Keeps.winMode (h : Keeps s₀ s) {w m : Nat} : Keeps s₀ (s.winMode w m) :=
  h.updWin.unless fun h => .ite h.updWin.winOutputs.ladderSpare.ladderSpare h

theorem Keeps.winWrite (h : Keeps s₀ s) {w : Nat} {src : Master} {v : Word} : Keeps s₀ (s.winWrite w src v) :=
  (h.writeCodes.unless (·.standOff)).unless (·.winMode)

theorem Keeps.execWindowModeWrite (h : Keeps s₀ s) {w : Fin 12} {src : Master} {v : Word} :
    GoesTo (execWindowModeWrite w src v s) (Keeps s₀) :=
  ⟨_, rfl, .ite h.winWrite h⟩

theorem Keeps.cmpWrite (h : Keeps s₀ s) {k : Nat} {src : Master} {v : Word} : Keeps s₀ (s.cmpWrite k src v) :=
  h.writeCodes.when (·.set)

theorem Keeps.execComparatorConfigWrite (h : Keeps s₀ s) {k : Fin 24} {src : Master} {v : Word} :
    GoesTo (execComparatorConfigWrite k src v s) (Keeps s₀) :=
  ⟨_, rfl, .ite h.cmpWrite h⟩

theorem Keeps.execComparatorSwitch (h : Keeps s₀ s) {k : Fin 24} {uv : Int} : GoesTo (execComparatorSwitch k uv s) (Keeps s₀) :=
  ⟨_, rfl, .ite h.setBitAt.zoneUpdate.ladderInput h⟩

theorem Keeps.winSample (h : Keeps s₀ s) {w : Nat} : Keeps s₀ (s.winSample w) :=
  h.updWin

theorem Keeps.execWindowSampleTick (h : Keeps s₀ s) {w : Fin 12} : GoesTo (execWindowSampleTick w s) (Keeps s₀) :=
  ⟨_, rfl, .ite (h.updWin.branch (fun h => .ite h.winSample h) fun h => (h.when fun h => h.winMode).when (·.winSample)) h⟩

theorem Keeps.winLatch (h : Keeps s₀ s) {w : Nat} {lo hi : Int} : Keeps s₀ (s.winLatch w lo hi).1 := by
  unfold State.winLatch
  split
  · exact h.updWin.winOutputs.ladderInput.ladderInput
  · exact h

theorem Keeps.execLadderStepStart (h : Keeps s₀ s) {lvl : Bool} : GoesTo (execLadderStepStart lvl s) (Keeps s₀) :=
  ⟨_, rfl, .ite h.updCmp <| .ite h.set.updCmp h⟩

theorem Keeps.ladderHand (h : Keeps s₀ s) {r : Nat} : Keeps s₀ (s.ladderHand r) := by
  unfold State.ladderHand
  exact h.updCmp

theorem Keeps.execLadderHandover (h : Keeps s₀ s) : GoesTo (execLadderHandover s) (Keeps s₀) := by
  refine ⟨_, rfl, ?_⟩
  split
  · exact .ite h.ladderHand h
  · exact h

theorem Keeps.execLadderHandoverForced (h : Keeps s₀ s) : GoesTo (execLadderHandoverForced s) (Keeps s₀) := by
  refine ⟨_, rfl, ?_⟩
  split
  · exact .ite h.ladderHand.inc.setBitAt.zoneUpdate h
  · exact h

theorem Keeps.execLadderTestDone (h : Keeps s₀ s) {fail : Option (Fin 8)} : GoesTo (execLadderTestDone fail s) (Keeps s₀) := by
  refine ⟨_, rfl, ?_⟩
  split
  · refine .ite ?_ h
    split
    · exact h.updStc.incW.updCmp.set
    · exact h.updStc.incW.updCmp.set.set.evt.updCmp.set.report.report
  · exact h

/-! ### Image sections -/

theorem Keeps.imgSet (h : Keeps s₀ s) {b : List Byte} {o a : Nat} : Keeps s₀ (imgSet s b o a) :=
  h.setReg

theorem Keeps.wheelApply (h : Keeps s₀ s) {n : Nat} {b dig : List Byte} : Keeps s₀ (s.wheelApply n b dig) :=
  .ite h.imgSet.imgSet.imgSet ((h.imgSet.imgSet.imgSet.imgSet.imgSet.imgSet.set.set.set.setReg.setReg.each
      fun _ _ h => h.setReg.setReg).updTrk.when (·.geoLoad))

theorem Keeps.stitchApply (h : Keeps s₀ s) {b : List Byte} : Keeps s₀ (s.stitchApply b) :=
  h.each fun _ _ h => h.setReg.setReg.updSt

theorem Keeps.routeApply (h : Keeps s₀ s) {b : List Byte} {keep : Nat → Nat → Bool} : Keeps s₀ (s.routeApply b keep) :=
  h.each fun _ _ h => .ite h <| .ite h.set.set.set h.frame

theorem Keeps.winSettle (h : Keeps s₀ s) : Keeps s₀ s.winSettle :=
  h.each fun _ _ h => .ite h h.winMode

theorem Keeps.winApply (h : Keeps s₀ s) {b : List Byte} : Keeps s₀ (s.winApply b) :=
  (h.each fun _ _ h => h.imgSet).each fun _ _ h => h.imgSet

theorem Keeps.injApply (h : Keeps s₀ s) {p : List Byte} : Keeps s₀ (s.injApply p) :=
  (h.each fun _ _ h => h.imgSet.imgSet.imgSet.imgSet.imgSet).each fun _ _ h => h.imgSet

theorem Keeps.bedApply (h : Keeps s₀ s) {b : Nat} {p : List Byte} : Keeps s₀ (s.bedApply b p) :=
  ((h.when (·.setReg.nclkDiv)).each fun _ _ h => h.imgSet).each
      fun _ _ h => (h.imgSet.imgSet.each fun _ _ h => h.setReg.setReg).updWvl.ndlInit

theorem Keeps.bedAuto (h : Keeps s₀ s) {b : Nat} {p : List Byte} : Keeps s₀ (s.bedAuto b p) :=
  h.each fun _ _ h => .ite h.ndlStart h

theorem Keeps.hallApply (h : Keeps s₀ s) {b : List Byte} : Keeps s₀ (s.hallApply b) :=
  (h.each fun _ _ h => h.set.set.set).imgSet

/-! ### Trust -/

theorem Keeps.identDraw (h : Keeps s₀ s) : Keeps s₀ s.identDraw :=
  .ite h.freeBytes.updTru.nvAsk h

theorem Keeps.chalSet (h : Keeps s₀ s) {c : List Byte} : Keeps s₀ (s.chalSet c) :=
  (h.each fun _ _ h => h.set).updTru

theorem Keeps.chalDraw (h : Keeps s₀ s) : Keeps s₀ s.chalDraw :=
  .ite h.freeBytes.updTru h.freeBytes.chalSet

theorem Keeps.execChallengeExpire (h : Keeps s₀ s) : GoesTo (execChallengeExpire s) (Keeps s₀) :=
  ⟨_, rfl, .ite h.chalDraw h⟩

theorem Keeps.truBoot (h : Keeps s₀ s) {rootOk : Bool} : Keeps s₀ (s.truBoot rootOk) := by
  refine .chalDraw (?_)
  split
  · refine .idShow <| .unless (.updTru <| .setB (?_)) (·.report)
    split
    · exact h.nvScan.truShow.updTru
    · exact h.nvScan.truShow.updTru
  · refine .when (.unless (.updTru <| .setB (?_)) (·.report)) (·.report)
    split
    · exact h.nvScan.truShow.updTru
    · exact h.nvScan.truShow.updTru

theorem Keeps.truTry (h : Keeps s₀ s) : Keeps s₀ s.truTry := by
  unfold State.truTry
  split
  · exact h
  · refine .ite h <| .ite h.updTru ?_
    split
    · exact h.updTru.truAsk
    · exact h.updTru

theorem Keeps.truStart (h : Keeps s₀ s) {code : Nat} : Keeps s₀ (s.truStart code) :=
  .ite h <| .ite h.evt.set.raise h.set.updTru.truTry

theorem Keeps.execTrustClaim (h : Keeps s₀ s) : GoesTo (execTrustClaim s) (Keeps s₀) :=
  ⟨_, rfl, h.truStart⟩

theorem Keeps.execTrustAddkey (h : Keeps s₀ s) : GoesTo (execTrustAddkey s) (Keeps s₀) :=
  ⟨_, rfl, h.truStart⟩

theorem Keeps.execTrustRevoke (h : Keeps s₀ s) : GoesTo (execTrustRevoke s) (Keeps s₀) :=
  ⟨_, rfl, h.truStart⟩

theorem Keeps.execTrustLock (h : Keeps s₀ s) : GoesTo (execTrustLock s) (Keeps s₀) :=
  ⟨_, rfl, h.truStart⟩

theorem Keeps.execTrustRetire (h : Keeps s₀ s) : GoesTo (execTrustRetire s) (Keeps s₀) :=
  ⟨_, rfl, h.truStart⟩

theorem Keeps.execTrustSetfloor (h : Keeps s₀ s) : GoesTo (execTrustSetfloor s) (Keeps s₀) :=
  ⟨_, rfl, h.truStart⟩

theorem Keeps.execTrustDebug (h : Keeps s₀ s) : GoesTo (execTrustDebug s) (Keeps s₀) :=
  ⟨_, rfl, h.truStart⟩

theorem Keeps.execTrustAttest (h : Keeps s₀ s) : GoesTo (execTrustAttest s) (Keeps s₀) :=
  ⟨_, rfl, h.truStart⟩

theorem Keeps.execTrustUnknownCommand (h : Keeps s₀ s) : GoesTo (execTrustUnknownCommand s) (Keeps s₀) :=
  ⟨_, rfl, h.truStart⟩

theorem Keeps.truCmdWrite (h : Keeps s₀ s) {v : Nat} : Keeps s₀ (s.truCmdWrite v) :=
  .ite h.truStart h

theorem Keeps.debugEnd (h : Keeps s₀ s) : Keeps s₀ s.debugEnd :=
  .ite h.set.set.raise h

theorem Keeps.truEffect (h : Keeps s₀ s) {code : Nat} : Keeps s₀ (s.truEffect code) := by
  unfold State.truEffect
  split
  · exact h.debugEnd.each fun _ _ h => h.setReg.setReg
  · exact .ite h.debugEnd h.set.set
  · split
    · exact h
    · exact h.freeBytes.each fun _ _ h => h.set
  · exact h

theorem Keeps.truFinish (h : Keeps s₀ s) {c : TruCmd} {cause : Nat} : Keeps s₀ (s.truFinish c cause) := by
  refine .ite ((h.when (·.truEffect)).set.updTru.branch (·.evt.set.raise) (·.evt.set.raise)).chalDraw ?_
  split
  · exact ((h.when (·.truEffect)).set.updTru.branch (·.evt.set.raise) (·.evt.set.raise)).chalSet
  · exact (h.when (·.truEffect)).set.updTru.branch (·.evt.set.raise) (·.evt.set.raise)

theorem Keeps.execTrustCommandEnd (h : Keeps s₀ s) : GoesTo (execTrustCommandEnd s) (Keeps s₀) := by
  refine ⟨_, rfl, .ite ?_ h⟩
  dsimp only
  split
  · exact h.truTry
  · split
    · exact h.truTry.truFinish
    · exact h.truTry

theorem Keeps.execDebugSessionExpire (h : Keeps s₀ s) : GoesTo (execDebugSessionExpire s) (Keeps s₀) :=
  ⟨_, rfl, .ite h.debugEnd h⟩

theorem Keeps.tamper (h : Keeps s₀ s) {k : Nat} : Keeps s₀ (s.tamper k) :=
  (h.updGal.each fun _ _ h => h.set).updTru.debugEnd.evtAt.evtInc.raise.report

theorem Keeps.execTamperTrip (h : Keeps s₀ s) {sensor : Fin 4} : GoesTo (execTamperTrip sensor s) (Keeps s₀) :=
  ⟨_, rfl, .ite h.tamper h⟩

theorem Keeps.truTick (h : Keeps s₀ s) : Keeps s₀ s.truTick :=
  h.updTru.when (·.set)

/-! ### The weave image -/

theorem Keeps.wvlRead (h : Keeps s₀ s) {a n : Nat} : Keeps s₀ (s.wvlRead a n).1 :=
  h.nvScan

theorem Keeps.hall15Read (h : Keeps s₀ s) {o n : Nat} : Keeps s₀ (s.hall15Read o n).1 :=
  h.each fun _ _ h => h.hallWord

theorem Keeps.slotsShow (h : Keeps s₀ s) : Keeps s₀ s.slotsShow :=
  h.each fun _ _ h => h.nvScan.branch (·.setReg.set) (·.setReg.set)

theorem Keeps.verifySrc (h : Keeps s₀ s) {src : ImgSrc} : Keeps s₀ (s.verifySrc src).1 := by
  unfold State.verifySrc
  extract_lets boot
  split
  · exact .pairFst h.wvlRead
  · exact .pairFst h.hall15Read

theorem Keeps.retain (h : Keeps s₀ s) {p : List Byte} : Keeps s₀ (s.retain p) :=
  h.setHallBytes.frame

theorem Keeps.bootStop (h : Keeps s₀ s) : Keeps s₀ s.bootStop :=
  h.set.set.updWvl

theorem Keeps.loadFail (h : Keeps s₀ s) {src : ImgSrc} {cause : Nat} : Keeps s₀ (s.loadFail src cause) := by
  unfold State.loadFail
  split
  · exact h.slotFail
  · exact h.wvlFlag.bootStop

theorem Keeps.hall15Drop (h : Keeps s₀ s) : Keeps s₀ s.hall15Drop :=
  h.taken (p := fun _ => true) (List.filter_true _).symm rfl

theorem Keeps.loadBegin (h : Keeps s₀ s) : Keeps s₀ s.loadBegin :=
  .ite h.wvlFlag <| .ite (.ite h.set.set.slotErase.set.updWvl h.wvlFlag) <| .ite h.hall15Drop.set.set.updWvl h

theorem Keeps.execWvlLoadBegin (h : Keeps s₀ s) : GoesTo (execWvlLoadBegin s) (Keeps s₀) :=
  ⟨_, rfl, .ite h.loadBegin h⟩

theorem Keeps.pageFlush (h : Keeps s₀ s) : Keeps s₀ s.pageFlush := by
  unfold State.pageFlush
  split
  · exact h
  · exact h.updWvl.wvlAsk

theorem Keeps.slotData (h : Keeps s₀ s) {i : Fin 2} {o : Nat} {bs : List Byte} : Keeps s₀ (s.slotData i o bs) := by
  refine .ite h.updWvl <| .ite h (.updWvl (?_))
  split
  · exact .ite h h.pageFlush
  · exact h

theorem Keeps.loadData (h : Keeps s₀ s) {v : Nat} : Keeps s₀ (s.loadData v) := by
  unfold State.loadData
  split
  · exact (h.when (·.setHallBytes.frame)).incW.updWvl
  · exact h.slotData.incW.updWvl
  · exact h

theorem Keeps.execWvlDataWrite (h : Keeps s₀ s) {v : BitVec 16} : GoesTo (execWvlDataWrite v s) (Keeps s₀) :=
  ⟨_, rfl, .ite h.loadData h⟩

theorem Keeps.ofsWrite (h : Keeps s₀ s) {src : Master} {v : Word} : Keeps s₀ (s.ofsWrite src v) := by
  unfold State.ofsWrite
  exact h.writeCodes.updWvl

theorem Keeps.loadEnd (h : Keeps s₀ s) : Keeps s₀ s.loadEnd := by
  unfold State.loadEnd
  split
  · exact .ite h.hall15Read.set.updWvl h.hall15Read.loadFail
  · exact h.pageFlush.set.updWvl
  · exact h

theorem Keeps.execWvlLoadEnd (h : Keeps s₀ s) : GoesTo (execWvlLoadEnd s) (Keeps s₀) :=
  ⟨_, rfl, .ite h.loadEnd h⟩

theorem Keeps.execLoadVerifyDone (h : Keeps s₀ s) : GoesTo (execLoadVerifyDone s) (Keeps s₀) := by
  refine ⟨_, rfl, ?_⟩
  dsimp only
  split
  · refine .ite ?_ h
    split
    · exact h.verifySrc.slotFail
    · exact h.verifySrc.updWvl.wvlAsk
  · exact h

theorem Keeps.loadAbort (h : Keeps s₀ s) : Keeps s₀ s.loadAbort := by
  unfold State.loadAbort
  dsimp only
  split
  · exact h.updWvl.loadFail
  · exact h.updWvl

theorem Keeps.execWvlAbort (h : Keeps s₀ s) : GoesTo (execWvlAbort s) (Keeps s₀) :=
  ⟨_, rfl, .ite h.loadAbort h⟩

theorem Keeps.execWvlLoadTimeout (h : Keeps s₀ s) : GoesTo (execWvlLoadTimeout s) (Keeps s₀) := by
  refine ⟨_, rfl, ?_⟩
  split
  · exact .ite h.loadFail h
  · exact h

theorem Keeps.execImageFrameReceive (h : Keeps s₀ s) : GoesTo (execImageFrameReceive s) (Keeps s₀) :=
  ⟨_, rfl, h.onFrame fun _ _ h => .ite (h.setHallBytes.frame.branch (·.set.updWvl) (·.set.updWvl)) h⟩

theorem Keeps.retPut (h : Keeps s₀ s) {x : Sect} : Keeps s₀ (s.retPut x) :=
  h.setHallBytes.frame

theorem Keeps.retRoom (h : Keeps s₀ s) {k : Nat} : Keeps s₀ (s.retRoom k) := by
  unfold State.retRoom
  split
  · exact .ite h (h.updWvl.each fun _ _ h => h.retPut)
  · exact h

theorem Keeps.hotDone (h : Keeps s₀ s) : Keeps s₀ s.hotDone := by
  unfold State.hotDone
  split
  · exact h.set.evt.set.set.setB.updWvl.when (·.floorRaise)
  · exact h

theorem Keeps.hotSwap (h : Keeps s₀ s) : Keeps s₀ s.hotSwap := by
  refine .ite h.wvlFlag ?_
  split
  · refine ((h.retRoom.set.updWvl.each fun _ _ h => h.retPut).each fun _ _ h => ?_).when (·.hotDone)
    split
    · exact .ite h.setHallBytes h
    · exact h
  · exact h

theorem Keeps.execWvlHotswap (h : Keeps s₀ s) : GoesTo (execWvlHotswap s) (Keeps s₀) :=
  ⟨_, rfl, .ite h.hotSwap h⟩

theorem Keeps.hotOne (h : Keeps s₀ s) {e : Nat × Nat × Option Sect} : Keeps s₀ (s.hotOne e) := by
  unfold State.hotOne
  split
  · exact h.updWvl.chartApply
  · exact h.updWvl.chartRemove
  · exact h.updWvl.recipeApply
  · exact h.updWvl.recipeRemove
  · exact h.updWvl.gaugeApply
  · exact h.updWvl.gaugeRemove
  · exact h.updWvl.awoApply
  · exact h.updWvl.awoRemove
  · exact h.updWvl.hookApply
  · exact h.updWvl.hookRemove
  · exact h.updWvl.budgetApply
  · exact h.updWvl.budgetRemove
  · exact h.updWvl.paceApply
  · exact h.updWvl.paceRemove
  · exact h.updWvl

theorem Keeps.hotTake (h : Keeps s₀ s) {p : Nat × Nat × Option Sect → Bool} : Keeps s₀ (s.hotTake p) :=
  .ite h (((h.each fun _ _ h => h.hotOne).each fun _ _ h => h.hotOne).when (·.hotDone))

theorem Keeps.execAwoWordArrive (h : Keeps s₀ s) {a : Fin 2} : GoesTo (execAwoWordArrive a s) (Keeps s₀) :=
  ⟨_, rfl, h.awoLocal fun _ h => (h.when (·.hotTake)).when (·.awoEval)⟩

theorem Keeps.budgetTick (h : Keeps s₀ s) : Keeps s₀ s.budgetTick :=
  (h.when (·.hotTake)).hkTick

theorem Keeps.execHookBudgetReset (h : Keeps s₀ s) : GoesTo (execHookBudgetReset s) (Keeps s₀) :=
  ⟨_, rfl, .ite h.budgetTick h⟩

theorem Keeps.execHotswapApply (h : Keeps s₀ s) {typ tgt : Nat} : GoesTo (execHotswapApply typ tgt s) (Keeps s₀) :=
  ⟨_, rfl, .ite h.budgetTick <| .ite h.hotTake h⟩

theorem Keeps.wvlCmd (h : Keeps s₀ s) {v : Nat} : Keeps s₀ (s.wvlCmd v) := by
  refine .ite h ?_
  split
  · exact h.loadBegin
  · exact h.loadEnd
  · exact .ite h.hotSwap h
  · exact h.loadAbort
  · exact h

/-! ### Supplies, clocks, resets, watch mode -/

theorem Keeps.nvCut (h : Keeps s₀ s) : Keeps s₀ s.nvCut := by
  unfold State.nvCut
  split
  · exact h.nvTorn
  · exact h

theorem Keeps.chipReset (h : Keeps s₀ s) {k : ResetKind} : Keeps s₀ (s.chipReset k) := by
  unfold State.chipReset
  dsimp only
  refine (Keeps.taken (q := fun _ => false) h.nvCut.slotCut rfl (List.filter_false _).symm).set.unless fun h => ?_
  exact .ite (h.each fun _ _ h => h.set) (h.set.set.unless (·.set.set))

theorem Keeps.vmin (h : Keeps s₀ s) {rail mv : Nat} : Keeps s₀ (s.vmin rail mv) :=
  h.set

theorem Keeps.execRailWarning (h : Keeps s₀ s) {rail : Fin 5} {mv : Nat} : GoesTo (execRailWarning rail mv s) (Keeps s₀) :=
  ⟨_, rfl, .ite h (h.vmin.unless (·.evtAt.setBitAt.standOn))⟩

theorem Keeps.execRailWarningEnd (h : Keeps s₀ s) {rail : Fin 5} : GoesTo (execRailWarningEnd rail s) (Keeps s₀) :=
  ⟨_, rfl, .ite h h.setBitAt.standOff⟩

theorem Keeps.execRailReset (h : Keeps s₀ s) {rail : Fin 4} {mv : Nat} : GoesTo (execRailReset rail mv s) (Keeps s₀) :=
  ⟨_, rfl, .ite h <| .ite h.vmin h.vmin.chipReset.set⟩

theorem Keeps.execGateLockoutBegin (h : Keeps s₀ s) {mv : Nat} : GoesTo (execGateLockoutBegin mv s) (Keeps s₀) :=
  ⟨_, rfl, .ite h <| .ite h.vmin (h.vmin.set.setBitAt.unless (·.cutAll.standOn))⟩

theorem Keeps.execGateLockoutEnd (h : Keeps s₀ s) : GoesTo (execGateLockoutEnd s) (Keeps s₀) :=
  ⟨_, rfl, .ite h h.set.standOff⟩

theorem Keeps.vminClear (h : Keeps s₀ s) : Keeps s₀ s.vminClear :=
  h.each fun _ _ h => h.set

theorem Keeps.execVminClear (h : Keeps s₀ s) : GoesTo (execVminClear s) (Keeps s₀) :=
  ⟨_, rfl, .ite h.vminClear h⟩

theorem Keeps.execNrstAssert (h : Keeps s₀ s) : GoesTo (execNrstAssert s) (Keeps s₀) := by
  refine ⟨_, rfl, ?_⟩
  dsimp only
  split
  · exact h.updPcr
  · exact h.updPcr
  · exact h.updPcr.chipReset

theorem Keeps.execNrstRelease (h : Keeps s₀ s) : GoesTo (execNrstRelease s) (Keeps s₀) :=
  ⟨_, rfl, h.updPcr⟩

theorem Keeps.bootEff (h : Keeps s₀ s) : Keeps s₀ s.bootEff :=
  h.set

theorem Keeps.xinCheck (h : Keeps s₀ s) {count : Nat} : Keeps s₀ (s.xinCheck count) :=
  .ite h.set <| .ite h h.updPcr

theorem Keeps.execInternalResetRelease (h : Keeps s₀ s) {mstr boot1 boot0 : BitVec 3} {xin : Nat} {rootOk : Bool} :
    GoesTo (execInternalResetRelease mstr boot1 boot0 xin rootOk s) (Keeps s₀) := by
  refine ⟨_, rfl, ?_⟩
  split
  · exact h
  · exact .ite h (h.when (·.set.set.setB)).updPcr.set.hallFill.repairMap.logSearch.truBoot.bootEff.slotsShow.xinCheck

theorem Keeps.execXinRecheck (h : Keeps s₀ s) {count : Nat} : GoesTo (execXinRecheck count s) (Keeps s₀) :=
  ⟨_, rfl, .ite h.xinCheck h⟩

theorem Keeps.execPllLock (h : Keeps s₀ s) {pll : Pll} : GoesTo (execPllLock pll s) (Keeps s₀) :=
  ⟨_, rfl, .ite h.set h⟩

theorem Keeps.execBootStep1End (h : Keeps s₀ s) : GoesTo (execBootStep1End s) (Keeps s₀) :=
  ⟨_, rfl, .ite h.set h⟩

theorem Keeps.execRingReferenceLock (h : Keeps s₀ s) : GoesTo (execRingReferenceLock s) (Keeps s₀) :=
  ⟨_, rfl, .ite h.set.updPcr h⟩

theorem Keeps.execXinEdgeLoss (h : Keeps s₀ s) : GoesTo (execXinEdgeLoss s) (Keeps s₀) :=
  ⟨_, rfl, .ite h.set.standOn h⟩

theorem Keeps.execRingStreamLoss (h : Keeps s₀ s) : GoesTo (execRingStreamLoss s) (Keeps s₀) :=
  ⟨_, rfl, .ite h.set.standOn h⟩

theorem Keeps.execHoldoverEnd (h : Keeps s₀ s) : GoesTo (execHoldoverEnd s) (Keeps s₀) :=
  ⟨_, rfl, .ite h.set.standOff.standOff h⟩

theorem Keeps.clockCheck (h : Keeps s₀ s) {k : Nat} {compared : Bool} {count num den : Nat} :
    Keeps s₀ (s.clockCheck k compared count num den) :=
  .ite h.standOn h.standOff

theorem Keeps.execClockMonitorCount (h : Keeps s₀ s) {f m n g mg : Nat} : GoesTo (execClockMonitorCount f m n g mg s) (Keeps s₀) :=
  ⟨_, rfl, .ite h h.clockCheck.clockCheck.clockCheck.clockCheck.clockCheck⟩

theorem Keeps.ladderCut (h : Keeps s₀ s) : Keeps s₀ s.ladderCut := by
  unfold State.ladderCut
  split
  · exact .ite h.updCmp h.updCmp.stcInc
  · exact h

theorem Keeps.watchEnter (h : Keeps s₀ s) : Keeps s₀ s.watchEnter :=
  h.debugEnd.rotCut.rotCut.frame.ladderCut.set.updPcr.each fun _ _ h => h.winMode

theorem Keeps.modeWrite (h : Keeps s₀ s) {src : Master} {v : Word} : Keeps s₀ (s.modeWrite src v) :=
  .ite h (h.writeCodes.when fun h => .ite h.evt h.watchEnter)

theorem Keeps.execWatchRequest (h : Keeps s₀ s) {v : Word} : GoesTo (execWatchRequest v s) (Keeps s₀) :=
  ⟨_, rfl, .ite h.modeWrite h⟩

theorem Keeps.execWatchMtTick (h : Keeps s₀ s) : GoesTo (execWatchMtTick s) (Keeps s₀) :=
  ⟨_, rfl, .ite (h.updPcr.porTick.each fun _ _ h => .ite h.winDue h) h⟩

theorem Keeps.wake (h : Keeps s₀ s) {cause : Nat} : Keeps s₀ (s.wake cause) := by
  unfold State.wake
  exact (h.set.each fun _ _ h => h.winMode.winMode).chipReset

theorem Keeps.execWakePin (h : Keeps s₀ s) : GoesTo (execWakePin s) (Keeps s₀) :=
  ⟨_, rfl, .ite h.wake h⟩

theorem Keeps.execWakeTimer (h : Keeps s₀ s) : GoesTo (execWakeTimer s) (Keeps s₀) :=
  ⟨_, rfl, .ite h.wake h⟩

theorem Keeps.execWindowSampleLatch (h : Keeps s₀ s) {w : Fin 12} {lo hi : Int} :
    GoesTo (execWindowSampleLatch w lo hi s) (Keeps s₀) :=
  ⟨_, rfl, .ite h.winLatch.wake h.winLatch⟩

theorem Keeps.execMtTick (h : Keeps s₀ s) : GoesTo (execMtTick s) (Keeps s₀) := by
  refine ⟨_, rfl, .ite h ?_⟩
  extract_lets s1 s2 s3 hk s4 s5
  have h1 : Keeps s₀ s1 := h.frame
  have h3 : Keeps s₀ s3 := (h1.each fun _ _ h => .ite h.winDue h).qvTick.updHal.updStc
  have h4 : Keeps s₀ s4 := h3.frame
  exact (h4.unless (·.updWvl)).porTick.truTick.updGal

theorem Keeps.execTbWrap (h : Keeps s₀ s) : GoesTo (execTbWrap s) (Keeps s₀) :=
  ⟨_, rfl, .ite (h.frame.when (·.fullEnum)) h⟩

theorem Keeps.execGalleryReset (h : Keeps s₀ s) : GoesTo (execGalleryReset s) (Keeps s₀) := by
  refine ⟨_, rfl, ?_⟩
  split
  · exact .ite h.chipReset h
  · exact h

theorem Keeps.regsClear (h : Keeps s₀ s) {b : Nat} : Keeps s₀ (s.regsClear b) :=
  h.regsOut

theorem Keeps.unitReset (h : Keeps s₀ s) {b : Nat} : Keeps s₀ (s.unitReset b) :=
  .ite h.stEvent.regsClear.updTrk <| .ite h.rotCut.rotCut.regsClear.frame <| .ite h.regsClear.injReset <|
      .ite h.regsClear.bedReset <| .ite h.chtReset <| .ite h.gauReset <| .ite h.hookReset <|
      .ite h.regsClear.canReset h.regsClear.sentReset

theorem Keeps.blockReset (h : Keeps s₀ s) {b : Nat} : Keeps s₀ (s.blockReset b) :=
  .ite h (h.setBitAt.updPcr.unitReset.each fun _ _ h => h.set)

theorem Keeps.blockRequests (h : Keeps s₀ s) {v : Nat} : Keeps s₀ (s.blockRequests v) :=
  h.each fun _ _ h => .ite h.blockReset h

theorem Keeps.execBlockResetRequest (h : Keeps s₀ s) {src : Master} {v : BitVec 16} :
    GoesTo (execBlockResetRequest src v s) (Keeps s₀) :=
  ⟨_, rfl, .ite h.blockRequests h⟩

/-! ### Stair trackers -/

theorem Keeps.sendBeacon (h : Keeps s₀ s) {n : Nat} : Keeps s₀ (s.sendBeacon n) :=
  .ite h.frame h

theorem Keeps.multNow (h : Keeps s₀ s) {n : Nat} : Keeps s₀ (s.multNow n) :=
  h.updTrk

theorem Keeps.beaconOnMove (h : Keeps s₀ s) {n old new : Nat} : Keeps s₀ (s.beaconOnMove n old new) :=
  .ite h.multNow.sendBeacon h

theorem Keeps.leaveSync (h : Keeps s₀ s) {n : Nat} {e : TrkEvent} : Keeps s₀ (s.leaveSync n e) :=
  h.stEvent.set.set.updTrk

theorem Keeps.enterLoss (h : Keeps s₀ s) {n st cause : Nat} {e : TrkEvent} {src : Nat} : Keeps s₀ (s.enterLoss n st cause e src) :=
  h.leaveSync.set.set.raise.report.sendBeacon

theorem Keeps.enterLost (h : Keeps s₀ s) {n cause : Nat} : Keeps s₀ (s.enterLost n cause) :=
  h.enterLoss.inc

theorem Keeps.enterReversed (h : Keeps s₀ s) {n cause : Nat} : Keeps s₀ (s.enterReversed n cause) :=
  h.enterLoss

theorem Keeps.enterStalled (h : Keeps s₀ s) {n cause : Nat} : Keeps s₀ (s.enterStalled n cause) :=
  h.enterLoss.plansArrive.qvFeed.qvFeed

theorem Keeps.enterSearch (h : Keeps s₀ s) {n : Nat} : Keeps s₀ (s.enterSearch n) :=
  (h.set.set.set.set.set.set.set.when (·.set)).updTrk.unless (·.multNow.sendBeacon)

theorem Keeps.enterGap (h : Keeps s₀ s) {n : Nat} : Keeps s₀ (s.enterGap n) :=
  h.set.raise.updTrk

theorem Keeps.enterCycle (h : Keeps s₀ s) {n : Nat} : Keeps s₀ (s.enterCycle n) :=
  h.set.raise.updTrk

theorem Keeps.gauZeroSend (h : Keeps s₀ s) {n : Nat} : Keeps s₀ (s.gauZeroSend n) :=
  h.updGau

theorem Keeps.entryZero (h : Keeps s₀ s) {n a : Nat} : Keeps s₀ (s.entryZero n a) :=
  .ite h.gauZeroSend h

theorem Keeps.moveWord (h : Keeps s₀ s) {n new : Nat} {mv : Move} {stitches : Bool} : Keeps s₀ (s.moveWord n new mv stitches) :=
  .ite h (((h.set.when (·.updTrk)).when (·.setB.when (·.incW.gauZeroSend))).when (·.stWord)).beaconOnMove

theorem Keeps.appendRecord (h : Keeps s₀ s) {n : Nat} {r : ToothRec} {stampTb : Nat} : Keeps s₀ (s.appendRecord n r stampTb) :=
  (Keeps.ite h.updTrk h.inc.raise).updGau.updTrk

theorem Keeps.speedUpdate (h : Keeps s₀ s) {n treads p : Nat} : Keeps s₀ (s.speedUpdate n treads p) :=
  h.plansArrive.qvFeed.qvFeed

theorem Keeps.firePlans (h : Keeps s₀ s) {n : Nat} {pos : List Nat} : Keeps s₀ (s.firePlans n pos) :=
  .ite h h.updCht

theorem Keeps.showPeriod (h : Keeps s₀ s) {n p : Nat} : Keeps s₀ (s.showPeriod n p) :=
  h.set.set

theorem Keeps.vrTooth (h : Keeps s₀ s) {n : Nat} {vpk : BitVec 10} : Keeps s₀ (s.vrTooth n vpk) :=
  .ite h h.set.updTrk

theorem Keeps.phaseCount (h : Keeps s₀ s) {n : Nat} : Keeps s₀ (s.phaseCount n).2 :=
  h.set.set

theorem Keeps.phaseError (h : Keeps s₀ s) {n : Nat} : Keeps s₀ (s.phaseError n) :=
  h.inc.raise.flightBad

theorem Keeps.beginInterval (h : Keeps s₀ s) {n k a st : Nat} : Keeps s₀ (s.beginInterval n k a st) :=
  h.set.updTrk.predict

theorem Keeps.holdStamp (h : Keeps s₀ s) {n k st : Nat} {skip : Option Nat} : Keeps s₀ (s.holdStamp n k st skip) :=
  h.updTrk

theorem Keeps.toothDelivers (h : Keeps s₀ s) {n k p treads : Nat} {missed noise land : Bool} {pos : List Nat} :
    Keeps s₀ (s.toothDelivers n k p treads missed noise land pos) :=
  h.appendRecord.speedUpdate.raiseIf.raiseIf.raiseIf.firePlans.stTooth

theorem Keeps.holdRun (h : Keeps s₀ s) {n le : Nat} : Keeps s₀ (s.holdRun n le) :=
  h.each fun _ _ h => h.holdStamp

theorem Keeps.syncFromSearch (h : Keeps s₀ s) {n st p pr : Nat} : Keeps s₀ (s.syncFromSearch n st p pr) := by
  refine .toothDelivers <| .sendBeacon <| .when (.holdStamp <| .beginInterval <| .holdRun <| .multNow <|
      .when ?_ (·.entryZero)) (·.stEntry)
  split
  · exact (h.updTrk.phaseCount.updTrk.when (·.enterGap)).enterCycle.set.setB
  · exact (h.updTrk.phaseCount.updTrk.when (·.enterGap)).set

theorem Keeps.wordToTooth (h : Keeps s₀ s) {n a : Nat} {missed stitches : Bool} : Keeps s₀ (s.wordToTooth n a missed stitches) :=
  h.set.set.updTrk.branch (·.moveWord) fun h => .ite h.moveWord <| .ite h.set.updTrk h.moveWord

theorem Keeps.acceptTooth (h : Keeps s₀ s) {n st p : Nat} {missed : Bool} : Keeps s₀ (s.acceptTooth n st p missed) := by
  unfold State.acceptTooth
  extract_lets t nt j k1 k le land noise fl treads m a posMissed e s1 s2 s3 s4 measured cnt r
  have h1 : Keeps s₀ measured := (((h.when (·.tplUpdate)).showPeriod.updTrk.when (·.inc)).when (·.flightBad)).geoCount
  split
  rename_i v counted hp
  have h2 : Keeps s₀ counted := by
    split at hp <;> cases hp
    · exact h1.phaseCount
    · exact h1
  extract_lets gap counting resolve f badGap badCyc s5 resolved lost
  have h3 : Keeps s₀ resolved := (h2.when (·.phaseError)).branch (·.flightClose) (·.flightTooth)
  clear_value resolve
  split
  · exact .toothDelivers <| .sendBeacon <| .stEntry <| .beginInterval <| .holdStamp <|
      (h3.enterCycle.unless (·.tplUpdate)).set.setB.set.set.updTrk.entryZero.multNow
  · exact ((h3.holdStamp.beginInterval.branch (·.moveWord) (·.wordToTooth)).when (·.updTrk)).toothDelivers.when (·.enterLost)

theorem Keeps.searchEdge (h : Keeps s₀ s) {n st : Nat} : Keeps s₀ (s.searchEdge n st) := by
  unfold State.searchEdge
  dsimp only
  split
  · exact h.updTrk
  · split
    · exact h.showPeriod.updTrk.updTrk
    · exact h.showPeriod.updTrk.branch (·.syncFromSearch) fun h => .ite h.updTrk h.updTrk

theorem Keeps.syncEdge (h : Keeps s₀ s) {n st : Nat} : Keeps s₀ (s.syncEdge n st) :=
  .ite h.enterReversed <| .ite (h.inc.updTrk.branch (·.enterLost) fun h => .ite h.enterLost h) <| .ite h.acceptTooth <|
      .ite (.ite h.enterLost <| .ite h.enterLost h.acceptTooth) h.enterLost

theorem Keeps.mainEdge (h : Keeps s₀ s) {n st : Nat} : Keeps s₀ (s.mainEdge n st) := by
  unfold State.mainEdge
  dsimp only
  split
  · exact h.updTrk.searchEdge
  · exact h.updTrk.syncEdge
  · exact h.updTrk.syncEdge
  · exact h.updTrk.when (·.enterSearch.searchEdge)
  · exact h.updTrk.enterSearch.searchEdge
  · exact h.updTrk.when (·.enterLost)
  · exact h.updTrk

theorem Keeps.phaseEdge (h : Keeps s₀ s) {n : Nat} : Keeps s₀ (s.phaseEdge n) :=
  h.each fun _ _ h => .ite (h.unless (·.inc)).updTrk h

theorem Keeps.dirEnd (h : Keeps s₀ s) {n st : Nat} : Keeps s₀ (s.dirEnd n st) := by
  unfold State.dirEnd
  dsimp only
  split
  · exact h
  · split
    · exact h.setB.updTrk.when (·.updTrk)
    · exact h.setB.updTrk.when (·.enterReversed)
    · exact h.setB.updTrk.when (·.enterReversed)
    · exact h.setB.updTrk.unless (·.enterLost)
    · exact h.setB.updTrk

theorem Keeps.inputEdge (h : Keeps s₀ s) {n : Nat} {lvl : Bool} {age : Nat} {vpk : BitVec 10} :
    Keeps s₀ (s.inputEdge n lvl age vpk) :=
  .ite h (h.updTrk.branch (fun h => .ite h.set.set h)
      (·.setB.branch (fun h => (h.vrTooth.when (·.updTrk)).branch (·.phaseEdge) (·.mainEdge)) fun h => .ite h.dirEnd h))

theorem Keeps.enableInput (h : Keeps s₀ s) {n : Nat} : Keeps s₀ (s.enableInput n) :=
  h.setB.setB.updTrk

theorem Keeps.cfgWrite (h : Keeps s₀ s) {n : Nat} {src : Master} {v : Word} : Keeps s₀ (s.cfgWrite n src v) :=
  .ite (h.writeCodes.when (·.enableInput)) ((h.when (·.enterLost)).writeCodes.enterSearch.when (·.enableInput))

theorem Keeps.trkRun (h : Keeps s₀ s) {n : Nat} {run : Bool} : Keeps s₀ (s.trkRun n run) :=
  h.setB.branch (·.enterSearch.enableInput) fun h => .ite (h.when fun h => h.enterLost).enterSearch h

theorem Keeps.haltCheck (h : Keeps s₀ s) {n : Nat} : Keeps s₀ (s.haltCheck n) :=
  .ite h.set h

theorem Keeps.treadTake (h : Keeps s₀ s) {n : Nat} : Keeps s₀ (s.treadTake n) :=
  h.moveWord.updTrk

theorem Keeps.treadStep (h : Keeps s₀ s) {n : Nat} : Keeps s₀ (s.treadStep n) := by
  unfold State.treadStep
  dsimp only
  refine .ite h ?_
  split
  · exact (h.when (·.treadTake)).when (·.set.updTrk.haltCheck)
  · exact .ite ((h.treadTake.when (·.evt)).when (·.set)).haltCheck h.haltCheck

theorem Keeps.remoteState (h : Keeps s₀ s) {n st : Nat} : Keeps s₀ (s.remoteState n st) := by
  refine .ite h ?_
  split
  · exact h.enterGap.sendBeacon
  · exact h.enterCycle.setB.stEntry.sendBeacon
  · exact h.enterLost
  · exact h.enterStalled
  · exact h.enterReversed
  · exact h

theorem Keeps.wordToBeacon (h : Keeps s₀ s) {n : Nat} : Keeps s₀ (s.wordToBeacon n) :=
  h.set.set.updTrk.branch (·.moveWord) fun h => .ite h.set <| .ite h.set.updTrk h.moveWord

theorem Keeps.acceptBeacon (h : Keeps s₀ s) {n : Nat} {b : Beacon} {p : Nat} {missed : Bool} :
    Keeps s₀ (s.acceptBeacon n b p missed) :=
  (((h.showPeriod.updTrk.when (·.inc.raise)).updTrk.when (·.enterCycle)).predict.branch
      (·.set.set.updTrk.set.setB.entryZero.stEntry) fun h => .ite h.set.set.updTrk.moveWord.updTrk
      h.wordToBeacon).speedUpdate.firePlans.stTooth

theorem Keeps.beaconSync (h : Keeps s₀ s) {n : Nat} {b : Beacon} {p : Nat} : Keeps s₀ (s.beaconSync n b p) :=
  (h.updTrk.showPeriod.updTrk.predict.set.remoteState.when (·.entryZero)).speedUpdate.firePlans.stTooth

theorem Keeps.searchBeacon (h : Keeps s₀ s) {n : Nat} {b : Beacon} : Keeps s₀ (s.searchBeacon n b) :=
  .ite h.set <| .ite h.remoteState <| .ite h.beaconSync h.updTrk

theorem Keeps.syncBeacon (h : Keeps s₀ s) {n : Nat} {b : Beacon} : Keeps s₀ (s.syncBeacon n b) :=
  .ite h.enterLost <| .ite h.remoteState <| .ite h.remoteState <| .ite (.ite (h.inc.updTrk.when (·.enterLost)) <|
      .ite h.acceptBeacon.remoteState h.enterLost) <| .ite (.ite h.enterLost h.acceptBeacon.remoteState) h.enterLost

theorem Keeps.takeBeacon (h : Keeps s₀ s) {n : Nat} {b : Beacon} : Keeps s₀ (s.takeBeacon n b) := by
  refine .ite h <| .ite h.raise <| .ite h.updTrk.remoteState ?_
  split
  · exact h.updTrk.searchBeacon
  · exact h.updTrk.syncBeacon
  · exact h.updTrk.syncBeacon
  · exact h.updTrk.when (·.enterSearch.searchBeacon)
  · exact h.updTrk.enterSearch.searchBeacon
  · exact h.updTrk.enterSearch.searchBeacon
  · exact h.updTrk

theorem Keeps.execVrArmDrop (h : Keeps s₀ s) {n : Fin 4} : GoesTo (execVrArmDrop n s) (Keeps s₀) :=
  ⟨_, rfl, .ite h.updTrk h⟩

theorem Keeps.execToothWindowExpire (h : Keeps s₀ s) {n : Fin 4} : GoesTo (execToothWindowExpire n s) (Keeps s₀) :=
  ⟨_, rfl, .ite h.updTrk.raiseIf h⟩

theorem Keeps.execTwoToothWindowExpire (h : Keeps s₀ s) {n : Fin 4} : GoesTo (execTwoToothWindowExpire n s) (Keeps s₀) :=
  ⟨_, rfl, .ite (.ite h.raise.enterLost h.updTrk) h⟩

theorem Keeps.stallTake (h : Keeps s₀ s) {n : Nat} : Keeps s₀ (s.stallTake n) := by
  unfold State.stallTake
  split
  · exact .ite h.enterStalled h
  · exact h

theorem Keeps.execDirectionPulseEnd (h : Keeps s₀ s) {n : Fin 4} : GoesTo (execDirectionPulseEnd n s) (Keeps s₀) :=
  ⟨_, rfl, .ite h.frame.updTrk.setB.dirEnd h⟩

theorem Keeps.resync (h : Keeps s₀ s) {n : Nat} : Keeps s₀ (s.resync n) := by
  refine .ite ?_ h
  split
  · exact h.enterSearch
  · exact h.enterLost
  · exact h.enterLost
  · exact h

theorem Keeps.clearCounts (h : Keeps s₀ s) {n : Nat} : Keeps s₀ (s.clearCounts n) :=
  h.set.set.set.set.set

theorem Keeps.runWrite (h : Keeps s₀ s) {n : Nat} {src : Master} {v : Word} : Keeps s₀ (s.runWrite n src v) :=
  (h.when (·.trkRun)).when (·.recordReject)

theorem Keeps.trkDo (h : Keeps s₀ s) {n : Nat} {a : TrkAct} : Keeps s₀ (s.trkDo n a) := by
  unfold State.trkDo
  split
  · exact h.stallTake
  · exact h.resync
  · exact h.runWrite
  · exact h.treadStep.stCheck

theorem Keeps.trkAct (h : Keeps s₀ s) {n : Nat} {a : TrkAct} : Keeps s₀ (s.trkAct n a) :=
  .ite h.updTrk h.trkDo

theorem Keeps.trkActs (h : Keeps s₀ s) {n : Nat} : Keeps s₀ (s.trkActs n) :=
  .ite h (h.updTrk.each fun _ _ h => h.trkDo)

theorem Keeps.execWheelEdge (h : Keeps s₀ s) {inp : Fin 12} {lvl : Bool} {age : Nat} {vpk : BitVec 10} :
    GoesTo (execWheelEdge inp lvl age vpk s) (Keeps s₀) :=
  ⟨_, rfl, (h.frame.each fun _ _ h => .ite (h.when (·.inputEdge)).trkActs h).suFlush⟩

theorem Keeps.execTrackerStall (h : Keeps s₀ s) {n : Fin 4} : GoesTo (execTrackerStall n s) (Keeps s₀) :=
  ⟨_, rfl, .ite h.trkAct h⟩

theorem Keeps.execTrackerResync (h : Keeps s₀ s) {n : Fin 4} : GoesTo (execTrackerResync n s) (Keeps s₀) :=
  ⟨_, rfl, .ite h.trkAct h⟩

theorem Keeps.execTrackerRunWrite (h : Keeps s₀ s) {n : Fin 4} {src : Master} {run : Bool} :
    GoesTo (execTrackerRunWrite n src run s) (Keeps s₀) :=
  ⟨_, rfl, .ite h.trkAct h⟩

theorem Keeps.execTrackerClearCounts (h : Keeps s₀ s) {n : Fin 4} : GoesTo (execTrackerClearCounts n s) (Keeps s₀) :=
  ⟨_, rfl, .ite h.clearCounts h⟩

theorem Keeps.execHistoryRecordRead (h : Keeps s₀ s) {n : Fin 4} : GoesTo (execHistoryRecordRead n s) (Keeps s₀) :=
  ⟨_, rfl, .ite h.updTrk h⟩

theorem Keeps.execTreadStep (h : Keeps s₀ s) {n : Fin 4} {chk : Option (Fin 128)} : GoesTo (execTreadStep n chk s) (Keeps s₀) :=
  ⟨_, rfl, (h.when (·.trkAct)).suFlush⟩

theorem Keeps.execBeaconReceive (h : Keeps s₀ s) {n : Fin 4} : GoesTo (execBeaconReceive n s) (Keeps s₀) := by
  refine ⟨_, rfl, .suFlush (.ite ?_ h)⟩
  split
  · exact h.trkActs
  · exact h.frame.takeBeacon.trkActs

theorem Keeps.geoWrite (h : Keeps s₀ s) {n k : Nat} {src : Master} {v : Word} : Keeps s₀ (s.geoWrite n k src v) :=
  .ite (h.setGeo.when (·.recordReject)) h

theorem Keeps.execGeometryWrite (h : Keeps s₀ s) {n : Fin 4} {k : Fin 256} {src : Master} {v : Word} :
    GoesTo (execGeometryWrite n k src v s) (Keeps s₀) :=
  ⟨_, rfl, .ite h.geoWrite h⟩

theorem Keeps.geoAll (h : Keeps s₀ s) {n : Nat} : Keeps s₀ (s.geoAll n) :=
  .ite (h.each fun _ _ h => h.setGeo) h

theorem Keeps.execGeometryReset (h : Keeps s₀ s) {n : Fin 4} : GoesTo (execGeometryReset n s) (Keeps s₀) :=
  ⟨_, rfl, .ite h.geoAll h⟩

/-! ### Register and memory space -/

theorem Keeps.regRead (h : Keeps s₀ s) {a : Nat} : Keeps s₀ (s.regRead a).1 := by
  unfold State.regRead
  exact .iteFst (.pairFst h.updTrk) <| .iteFst (.pairFst h.ndlRxRead) <| .iteFst (.pairFst h.tmrRead) <|
    .iteFst (.pairFst h) (.pairFst h.clearRC)

theorem Keeps.readReg (h : Keeps s₀ s) {a : Nat} : Keeps s₀ (s.readReg a).1 := by
  unfold State.readReg
  split
  · exact h
  · exact h.regRead

theorem Keeps.wrStair (h : Keeps s₀ s) {n o : Nat} {src : Master} {a : Nat} {v : Word} : Keeps s₀ (s.wrStair n o src a v) :=
  .ite h.cfgWrite <| .ite ((h.trkAct.when (·.trkAct)).when (·.clearCounts)) <| .ite h <|
      .ite ((h.writeCodes.when (·.geoAll)).when (·.geoSave)) <| .ite h.geoWrite h.writeCodes

theorem Keeps.wrSu (h : Keeps s₀ s) {src : Master} {a : Nat} {v : Word} : Keeps s₀ (s.wrSu src a v) :=
  .ite h.suAct <| .ite (.ite h.suAct h) <| .ite h.suAct h.writeCodes

theorem Keeps.wrBed (h : Keeps s₀ s) {src : Master} {a : Nat} {v : Word} : Keeps s₀ (s.wrBed src a v) := by
  refine .ite h.bedSync <| .ite h.flagsClear <| .ite h.flagsSet <| .ite h.storeWrite <| .ite ?_ h.writeCodes
  split
  · exact h.ncfgWrite
  · exact .ite h <| .ite h.ndlStop <| .ite h.ndlStart h
  · exact h.ndlPcWrite
  · exact h.ndlTxWrite
  · exact h.writeCodes

theorem Keeps.wrTmr (h : Keeps s₀ s) {src : Master} {a : Nat} {v : Word} : Keeps s₀ (s.wrTmr src a v) := by
  refine .ite h.tmrAct <| .ite ?_ h.writeCodes
  split
  · exact h.tmrAct
  · exact h.tmrAct.when (·.tmrAct)
  · exact h.tmrAct
  · exact h.tmrAct
  · exact h.tmrAct
  · exact h.tmrAct
  · exact h.writeCodes

theorem Keeps.wrHal (h : Keeps s₀ s) {src : Master} {a : Nat} {v : Word} : Keeps s₀ (s.wrHal src a v) := by
  refine .ite h.ownerWrite <| .ite (.ite ?_ h) h.writeCodes
  split
  · exact h.nvHost
  · exact h.nvHost
  · exact h

theorem Keeps.wrHook (h : Keeps s₀ s) {src : Master} {a : Nat} {v : Word} : Keeps s₀ (s.wrHook src a v) := by
  refine .ite ?_ h.writeCodes
  split
  · exact h.writeCodes.hkLook
  · exact h.hkCtrl
  · exact h.hkPcWrite
  · exact h.hkPcWrite
  · exact h.writeCodes

theorem Keeps.wrHost (h : Keeps s₀ s) {src : Master} {a : Nat} {v : Word} : Keeps s₀ (s.wrHost src a v) :=
  .ite h.hostWrite <| .ite h.doneWrite <| .ite (h.writeCodes.when (·.set)) h.writeCodes

theorem Keeps.wrPor (h : Keeps s₀ s) {src : Master} {a : Nat} {v : Word} : Keeps s₀ (s.wrPor src a v) := by
  unfold State.wrPor
  dsimp only
  refine .ite ?_ <| .ite h.forceWrite <| .ite h.sevClear h.writeCodes
  split
  · exact h.porCmd.capClear
  · exact h.porCmd.chipReset
  · exact h.porCmd

theorem Keeps.canAbortReg (h : Keeps s₀ s) {x m : Nat} : Keeps s₀ (s.canAbortReg x m) :=
  h.free.canAbort

theorem Keeps.wrLink (h : Keeps s₀ s) {src : Master} {a : Nat} {v : Word} : Keeps s₀ (s.wrLink src a v) :=
  .ite (h.writeCodes.when (·.updSent)) <| .ite h.writeCodes.canCfg <| .ite ((h.when (·.canOwr)).when (·.canRecover)) <|
      .ite h.canRequest <| .ite h.canRequest <| .ite h.canAbortReg <| .ite h.canAbortReg <| .ite h.canSelect h.writeCodes

theorem Keeps.regWrite (h : Keeps s₀ s) {src : Master} {a : Nat} {v : Word} : Keeps s₀ (s.regWrite src a v) :=
  .ite h <| .ite (.ite h.blockRequests <| .ite (h.writeCodes.when (·.vminClear)) <| .ite (.ite h.modeWrite h) h.writeCodes) <|
      .ite (.ite h.wvlCmd <| .ite h.loadData <| .ite h.ofsWrite h.writeCodes) <| .ite h.wrStair <| .ite h.wrSu <|
      .ite (.ite (.ite h.set h) h.writeCodes) <| .ite (.ite h.qvWrite <| .ite (.ite h.testLookup h) h.writeCodes) <|
      .ite (.ite h.writeCodes.hcfgWritten <| .ite h.writeCodes.awoCfgd h.writeCodes) <| .ite h.wrBed <| .ite h <|
      .ite (.ite h.cmpWrite <| .ite h.winWrite h.writeCodes) <| .ite h.wrTmr <| .ite h.wrHal <| .ite h.wrHook <|
      .ite (.ite h.galCtrl h.writeCodes) <| .ite h.wrHost <| .ite (.ite h.truCmdWrite h.writeCodes) <| .ite h.wrPor <|
      .ite h.writeCodes <| .ite h.wrLink h

theorem Keeps.writeReg (h : Keeps s₀ s) {src : Master} {a : Nat} {v : Word} : Keeps s₀ (s.writeReg src a v).1 := by
  unfold State.writeReg
  split
  · exact h
  · split
    · exact h
    · exact h.regWrite

theorem Keeps.execRegisterWrite (h : Keeps s₀ s) {src : Master} {a : BitVec 16} {v : Word} :
    GoesTo (execRegisterWrite src a v s) (Keeps s₀) :=
  ⟨_, rfl, h.writeReg.suFlush⟩

theorem Keeps.execReadClear (h : Keeps s₀ s) {src : Master} {a : BitVec 16} : GoesTo (execReadClear src a s) (Keeps s₀) :=
  ⟨_, rfl, h.readReg.frame⟩

theorem Keeps.memRead (h : Keeps s₀ s) {m : Master} {a n acc : Nat} : Keeps s₀ (s.memRead m a n acc).1 := by
  unfold State.memRead
  exact .iteFst h.hallOp <| .iteFst h.nvSpace <| .iteFst (.pairFst h.readReg) (.pairFst h)

theorem Keeps.memWrite (h : Keeps s₀ s) {m : Master} {a : Nat} {bs : List Byte} : Keeps s₀ (s.memWrite m a bs).1 := by
  unfold State.memWrite
  exact .iteFst (.pairFst h.hallOp) <| .iteFst (.pairFst h.writeReg) (.pairFst h)

theorem Keeps.memReads (h : Keeps s₀ s) {m : Master} {acc k a r : Nat} : Keeps s₀ (s.memReads m acc k a r).1 := by
  induction k generalizing s a r with
  | zero => exact h
  | succ k ih =>
    cases r with
    | zero => exact h
    | succ r =>
      unfold State.memReads
      dsimp only
      split
      · exact h.memRead
      · exact ih h.memRead

theorem Keeps.memWrites (h : Keeps s₀ s) {m : Master} {k a : Nat} {l : List Byte} : Keeps s₀ (s.memWrites m k a l).1 := by
  induction k generalizing s a l with
  | zero => exact h
  | succ k ih =>
    cases l with
    | nil => exact h
    | cons b bs =>
      unfold State.memWrites
      dsimp only
      split
      · exact h.memWrite
      · exact ih h.memWrite

/-! ### What WVL applies -/

theorem Keeps.regsEntry (h : Keeps s₀ s) {e : Nat × Nat} : Keeps s₀ (s.regsEntry e) := by
  refine .ite (h.unless (·.regWrite)).set <| .ite ?_ <| .ite h h.regWrite
  split
  · exact (h.unless (·.regWrite)).set.set.updHal
  · exact .ite h h.regWrite

theorem Keeps.sectApply (h : Keeps s₀ s) {x : Sect} : Keeps s₀ (s.sectApply x) := by
  unfold State.sectApply
  split
  · exact h.each fun _ _ h => h.regsEntry
  · exact h.updWvl
  · exact h.wheelApply
  · exact h.stitchApply
  · exact h.routeApply
  · exact h.injApply
  · exact h.bedApply
  · exact h.chartApply
  · exact h.recipeApply
  · exact h.qvmapApply
  · exact h.gaugeApply
  · exact h.awoApply
  · exact h.hallApply
  · exact h.hookApply
  · exact h.winApply
  · exact h.galApply
  · exact h.linkApply
  · exact h.porterApply
  · exact h.safetyApply
  · exact h.budgetApply
  · exact h.paceApply
  · exact h

theorem Keeps.timersOut {p : Nat × Word → Bool} (h : Keeps s₀ s) :
    Keeps s₀ { s with regs := s.regs.filter p, tmr := .replicate 16 Tmr.reset, routes := [] } :=
  h.regsOut

theorem Keeps.blocksReset (h : Keeps s₀ s) : Keeps s₀ s.blocksReset :=
  (h.each fun _ _ h => h.unitReset).timersOut.updHal.each fun _ _ h => h.setReg

theorem Keeps.imageApply (h : Keeps s₀ s) {src : ImgSrc} {im : Image} {plain : List Byte} :
    Keeps s₀ (s.imageApply src im plain) := by
  refine ((((h.blocksReset.retain.each fun _ _ h => h.sectApply).when (·.floorRaise)).set.setB.setB.set.when
      (·.evt)).updWvl.winSettle.each fun _ _ h => ?_).hookAuto.stcStart.step3Begin
  split
  · exact h.bedAuto
  · exact h

theorem Keeps.verifyBegin (h : Keeps s₀ s) {i : Fin 2} {nxt : Option (Fin 2)} : Keeps s₀ (s.verifyBegin i nxt) :=
  h.updWvl

theorem Keeps.execImageSlotLoad (h : Keeps s₀ s) : GoesTo (execImageSlotLoad s) (Keeps s₀) := by
  refine ⟨_, rfl, .ite ?_ h⟩
  dsimp only
  split
  · exact h.identDraw.verifyBegin
  · refine .ite h.identDraw.updWvl ?_
    split
    · exact h.identDraw.branch (·.verifyBegin) (·.verifyBegin)
    · exact h.identDraw.verifyBegin
    · exact h.identDraw.verifyBegin
    · exact h.identDraw.wvlFlag.bootStop

theorem Keeps.verifyFail (h : Keeps s₀ s) {src : ImgSrc} {c : Nat} : Keeps s₀ (s.verifyFail src c) := by
  unfold State.verifyFail
  dsimp only
  split
  · split
    · exact h.wvlFlag.set.set.verifyBegin
    · exact h.wvlFlag.set.set.bootStop
  · exact h.wvlFlag.bootStop

theorem Keeps.execImageVerifyDone (h : Keeps s₀ s) : GoesTo (execImageVerifyDone s) (Keeps s₀) := by
  refine ⟨_, rfl, ?_⟩
  dsimp only
  split
  · refine .ite ?_ h
    split
    · exact h.verifySrc.verifyFail
    · exact h.verifySrc.imageApply
  · exact h

theorem Keeps.execBootStep4 (h : Keeps s₀ s) : GoesTo (execBootStep4 s) (Keeps s₀) :=
  ⟨_, rfl, .ite ((h.each fun _ _ h => .ite h h.trkRun).when (·.logReset.updPcr)).set h⟩

theorem Keeps.blockSects (h : Keeps s₀ s) {l : List Sect} {b : Nat} : Keeps s₀ (s.blockSects l b) := by
  unfold State.blockSects
  exact .ite (h.each fun _ _ h => h.sectApply) <| .ite (h.each fun _ _ h => h.sectApply) <|
      .ite (h.routeApply.each fun _ _ h => h.sectApply) <| .ite (h.routeApply.each fun _ _ h => h.sectApply) <|
      .ite (h.each fun _ _ h => h.sectApply) <| .ite (h.each fun _ _ h => h.sectApply) <|
      .ite (h.routeApply.each fun _ _ h => h.sectApply) <| .ite h.linkCan h.linkSent

theorem Keeps.blockGo (h : Keeps s₀ s) {l : List Sect} {b : Nat} : Keeps s₀ (s.blockGo l b) := by
  refine .ite (.ite h h.trkRun) <| .ite ?_ <| .ite h.chtResume <| .ite h.gauResume <| .ite h.hookAuto h
  split
  · exact h.bedAuto
  · exact h

theorem Keeps.retained (h : Keeps s₀ s) {x : Sect} : Keeps s₀ (s.retained x).1 := by
  unfold State.retained
  dsimp only
  split
  · exact h
  · exact h.each fun _ _ h => h.hallWord

theorem Keeps.retainedFor (h : Keeps s₀ s) {b : Nat} {l : List Sect} : Keeps s₀ (s.retainedFor b l).1 := by
  induction l generalizing s with
  | nil => exact h
  | cons x t ih =>
    unfold State.retainedFor
    refine ih ?_
    split
    · exact h.retained
    · exact h

theorem Keeps.execBlockResetResume (h : Keeps s₀ s) {blk : Fin 16} : GoesTo (execBlockResetResume blk s) (Keeps s₀) := by
  refine ⟨_, rfl, ?_⟩
  split
  · exact .ite (h.retainedFor.each fun _ _ h => h.regsEntry).blockSects.setBitAt.updPcr.blockGo h
  · exact h

theorem Keeps.execCrossingCheckFail (h : Keeps s₀ s) {dest : Island} {path : CrossPath} :
    GoesTo (execCrossingCheckFail dest path s) (Keeps s₀) := by
  refine ⟨_, rfl, .ite h (.report (?_))⟩
  split
  · exact h.updCht
  · exact h.frame
  · exact h.updGau
  · exact h.updGau
  · exact .ite h.frame h.frame
  · exact .ite h.updPor h.updPor
  · exact h.frame
  · exact h.updGau
  · exact h.updPor
  · exact h.updPor
  · exact h.updPor
  · exact h

/-! ### HOOK’s memory accesses -/

theorem Keeps.hkFetch (h : Keeps s₀ s) {c : Fin 16} : Keeps s₀ (s.hkFetch c) := by
  unfold State.hkFetch
  exact .ite h.hkStop (h.memReads.branch (·.hkStop) fun h => .ite h.hkStop (h.set.updHk.branch (·.freeAddr.hkBad) (·.hkSet)))

theorem Keeps.execDescriptorFetch (h : Keeps s₀ s) {c : Fin 16} : GoesTo (execDescriptorFetch c s) (Keeps s₀) :=
  ⟨_, rfl, .ite h.hkFetch h⟩

theorem Keeps.unitReads (h : Keeps s₀ s) {c : Fin 16} {inc : Bool} {k a : Nat} : Keeps s₀ (s.unitReads c inc k a).1 := by
  induction k generalizing s a with
  | zero => exact h
  | succ k ih =>
    unfold State.unitReads
    dsimp only
    split
    · exact h.memRead
    · exact ih h.memRead

theorem Keeps.srcRead (h : Keeps s₀ s) {c : Fin 16} {b : Burst} : Keeps s₀ (s.srcRead c b).1 := by
  unfold State.srcRead
  exact .iteFst h.memReads <| .iteFst h.unitReads (.pairFst h.unitReads.updHk)

theorem Keeps.dstRead (h : Keeps s₀ s) {c : Fin 16} {b : Burst} : Keeps s₀ (s.dstRead c b).1 := by
  unfold State.dstRead
  dsimp only
  split
  · exact h.unitReads
  · exact h.memReads

theorem Keeps.sideWords (h : Keeps s₀ s) {c : Fin 16} {a : Nat} {bs : List Byte} {e : MemRes × Nat} {l : List Nat} :
    Keeps s₀ (l.foldl (fun r i =>
      if r.2.1 ≠ .ok then r
      else
        let q := r.1.memWrite (.hook c) a (slice bs (4 * i) 4)
        (q.1, q.2, a)) (s, e)).1 := by
  induction l generalizing s e with
  | nil => exact h
  | cons i t ih =>
    rw [List.foldl_cons]
    split
    · exact ih h
    · exact ih h.memWrite

theorem Keeps.sideWrite (h : Keeps s₀ s) {c : Fin 16} {inc : Bool} {a : Nat} {bs : List Byte} :
    Keeps s₀ (s.sideWrite c inc a bs).1 := by
  unfold State.sideWrite
  split
  · exact h.memWrites
  · exact h.sideWords

theorem Keeps.cmpFound (h : Keeps s₀ s) {c : Nat} {b : Burst} {i : Nat} : Keeps s₀ (s.cmpFound c b i) :=
  .ite h (h.set.updHk.when (·.hkSet))

theorem Keeps.burstData (h : Keeps s₀ s) {c : Fin 16} {b : Burst} : Keeps s₀ (s.burstData c b).1 := by
  unfold State.burstData
  dsimp only
  split
  · exact h
  · split
    · exact h
    · split
      · exact h.srcRead.burstBad
      · exact h.srcRead

theorem Keeps.burstRun (h : Keeps s₀ s) {c : Fin 16} {b : Burst} : Keeps s₀ (s.burstRun c b) := by
  unfold State.burstRun
  dsimp only
  refine .ite (.ite h.srcRead.burstBad <| .ite h.srcRead.dstRead.burstBad ?_) ?_
  · split
    · exact h.srcRead.dstRead.cmpFound
    · exact h.srcRead.dstRead
  · split
    · exact h.burstData
    · exact .ite h.burstData.sideWrite.burstBad h.burstData.sideWrite

theorem Keeps.execBurstComplete (h : Keeps s₀ s) {c : Fin 16} : GoesTo (execBurstComplete c s) (Keeps s₀) := by
  refine ⟨_, rfl, ?_⟩
  split
  · exact h
  · exact .ite h.updHk.burstRun.hkDrained h

theorem Keeps.execBurstTimeout (h : Keeps s₀ s) {c : Fin 16} {wr : Fin 65} : GoesTo (execBurstTimeout c wr s) (Keeps s₀) := by
  refine ⟨_, rfl, ?_⟩
  dsimp only
  split
  · exact h
  · refine .ite (.hkDrained <| .reportSig (.ite h.updHk.freeAddr.burstBad ?_)) h
    split
    · exact h.updHk.freeAddr.burstBad.burstData
    · exact h.updHk.freeAddr.burstBad.burstData.sideWrite

theorem Keeps.sendBursts (h : Keeps s₀ s) {c : Fin 16} {l : List Burst} : Keeps s₀ (s.sendBursts c l).1 := by
  induction l generalizing s with
  | nil => exact h
  | cons b t ih =>
    unfold State.sendBursts
    split
    · exact ih h
    · exact ih h.burstData

theorem Keeps.hkWriteback (h : Keeps s₀ s) {c : Fin 16} : Keeps s₀ (s.hkWriteback c) := by
  refine .ite h.sendBursts.updHk.memWrite.hkStop <| .ite (.hkStop (?_)) (.when (.hkSet <| .updHk <| .when (.raiseIf <|
      .hkPcSet (?_)) (·.frame)) (·.hkStop))
  · split
    · exact h.sendBursts.updHk.memWrite
    · exact h.sendBursts.updHk.memWrite.memWrite
  · split
    · exact h.sendBursts.updHk.memWrite
    · exact h.sendBursts.updHk.memWrite.memWrite

theorem Keeps.execDescriptorStatusWrite (h : Keeps s₀ s) {c : Fin 16} : GoesTo (execDescriptorStatusWrite c s) (Keeps s₀) :=
  ⟨_, rfl, .ite h.hkWriteback h⟩

/-! ### Requests of other bays -/

theorem Keeps.regReads (h : Keeps s₀ s) {n a : Nat} : Keeps s₀ (s.regReads n a).1 := by
  induction n generalizing s a with
  | zero => exact h
  | succ n ih =>
    unfold State.regReads
    dsimp only
    split
    · exact h.readReg
    · exact ih h.readReg

theorem Keeps.regWrites (h : Keeps s₀ s) {m : Master} {a : Nat} {l : List Nat} : Keeps s₀ (s.regWrites m a l).1 := by
  induction l generalizing s a with
  | nil => exact h
  | cons v t ih =>
    unfold State.regWrites
    dsimp only
    split
    · exact h.writeReg
    · exact ih h.writeReg

theorem Keeps.respPut (h : Keeps s₀ s) {src tid status : Nat} {d : List Byte} : Keeps s₀ (s.respPut src tid status d) := by
  unfold State.respPut
  exact h.updGal

theorem Keeps.remote (h : Keeps s₀ s) {r : RxFrame} {k : State → List Byte → State × Bool × List Byte}
    (hk : ∀ s l, Keeps s₀ s → Keeps s₀ (k s l).1) :
    Keeps s₀ (s.remote r k) := by
  unfold State.remote
  dsimp only
  split
  · exact h.updGal
  · exact (hk s _ h).respPut

theorem Keeps.onRequest (h : Keeps s₀ s) {kind : Nat} {k : State → List Byte → State × Bool × List Byte}
    (hk : ∀ s l, Keeps s₀ s → Keeps s₀ (k s l).1) :
    Keeps s₀ (s.onRequest kind k) :=
  h.onFrame fun _ _ h => h.remote hk

theorem Keeps.answer (h : Keeps s₀ s) {ok : Bool} {n : Nat} {d : List Byte} : Keeps s₀ (s.answer ok n d).1 := by
  unfold State.answer
  split
  · exact h
  · exact h.freeBytes

theorem Keeps.remRegrd (h : Keeps s₀ s) {p : List Byte} : Keeps s₀ (s.remRegrd p).1 := by
  unfold State.remRegrd
  dsimp only
  split
  · exact h
  · exact h.regReads.answer

theorem Keeps.execRemoteRegrd (h : Keeps s₀ s) : GoesTo (execRemoteRegrd s) (Keeps s₀) :=
  ⟨_, rfl, h.onRequest fun _ _ h => h.remRegrd⟩

theorem Keeps.remRegwr (h : Keeps s₀ s) {p : List Byte} : Keeps s₀ (s.remRegwr p).1 :=
  h.regWrites

theorem Keeps.execRemoteRegwr (h : Keeps s₀ s) : GoesTo (execRemoteRegwr s) (Keeps s₀) :=
  ⟨_, rfl, h.onRequest fun _ _ h => h.remRegwr⟩

theorem Keeps.remMemrd (h : Keeps s₀ s) {p : List Byte} : Keeps s₀ (s.remMemrd p).1 := by
  unfold State.remMemrd
  dsimp only
  split
  · exact h
  · split
    · exact h.answer
    · exact h.memReads.answer

theorem Keeps.execRemoteMemrd (h : Keeps s₀ s) : GoesTo (execRemoteMemrd s) (Keeps s₀) :=
  ⟨_, rfl, h.onFrame fun _ _ h => h.remote fun _ _ h => h.remMemrd⟩

theorem Keeps.remMemwr (h : Keeps s₀ s) {p : List Byte} : Keeps s₀ (s.remMemwr p).1 := by
  unfold State.remMemwr
  dsimp only
  split
  · exact h
  · exact h.memWrites

theorem Keeps.execRemoteMemwr (h : Keeps s₀ s) : GoesTo (execRemoteMemwr s) (Keeps s₀) :=
  ⟨_, rfl, h.onRequest fun _ _ h => h.remMemwr⟩

/-! ### The host port -/

theorem Keeps.hostErr (h : Keeps s₀ s) {e : Nat} : Keeps s₀ (s.hostErr e) := by
  unfold State.hostErr
  exact h.set.evtInc.updHost

theorem Keeps.hostSdo (h : Keeps s₀ s) {d : List Byte} : Keeps s₀ (s.hostSdo d) :=
  .ite h.updHost h.updHost

theorem Keeps.hostOpen (h : Keeps s₀ s) {d : List Byte} : Keeps s₀ (s.hostOpen d) :=
  h.updHost.hostSdo

theorem Keeps.hostEnd (h : Keeps s₀ s) {code : Nat} {d : List Byte} : Keeps s₀ (s.hostEnd code d) :=
  .ite h.updHost h

theorem Keeps.hostRegs (h : Keeps s₀ s) {mem : Bool} {a n : Nat} : Keeps s₀ (s.hostRegs mem a n) := by
  unfold State.hostRegs
  exact .ite (.ite h.regReads.updHost h.regReads.hostEnd) h.regReads.hostEnd

theorem Keeps.hostMem (h : Keeps s₀ s) {a x : Nat} : Keeps s₀ (s.hostMem a x) := by
  unfold State.hostMem
  exact h.memReads.hostEnd

theorem Keeps.hostLocal (h : Keeps s₀ s) {op x : Nat} {d : List Byte} : Keeps s₀ (s.hostLocal op x d) := by
  unfold State.hostLocal
  split
  · exact h.hostRegs
  · exact h.regWrites.hostEnd
  · exact .ite h.hostEnd <| .ite h.hostRegs <| .ite h.updHost h.hostMem
  · exact .ite h.hostEnd h.memWrites.hostEnd

theorem Keeps.hostRequest (h : Keeps s₀ s) {d : List Byte} : Keeps s₀ (s.hostRequest d) :=
  .ite h.set.updHost (h.updHost.branch (·.hostEnd) fun h => .ite h.hostLocal <| .ite h.hostEnd h.updHost.reqAdd)

theorem Keeps.hostFrame (h : Keeps s₀ s) {op : Nat} {d : List Byte} {bits : Nat} : Keeps s₀ (s.hostFrame op d bits) :=
  .ite h (h.hostOpen.branch (·.hostErr) fun h => .ite h.hostErr <| .ite h h.hostRequest)

theorem Keeps.execHostFetch (h : Keeps s₀ s) {sdi : List Byte} {bits : Fin 8} : GoesTo (execHostFetch sdi bits s) (Keeps s₀) :=
  ⟨_, rfl, h.hostFrame⟩

theorem Keeps.execHostRegrd (h : Keeps s₀ s) {sdi : List Byte} {bits : Fin 8} : GoesTo (execHostRegrd sdi bits s) (Keeps s₀) :=
  ⟨_, rfl, h.hostFrame⟩

theorem Keeps.execHostRegwr (h : Keeps s₀ s) {sdi : List Byte} {bits : Fin 8} : GoesTo (execHostRegwr sdi bits s) (Keeps s₀) :=
  ⟨_, rfl, h.hostFrame⟩

theorem Keeps.execHostMemrd (h : Keeps s₀ s) {sdi : List Byte} {bits : Fin 8} : GoesTo (execHostMemrd sdi bits s) (Keeps s₀) :=
  ⟨_, rfl, h.hostFrame⟩

theorem Keeps.execHostMemwr (h : Keeps s₀ s) {sdi : List Byte} {bits : Fin 8} : GoesTo (execHostMemwr sdi bits s) (Keeps s₀) :=
  ⟨_, rfl, h.hostFrame⟩

theorem Keeps.execHostFrameTimeout (h : Keeps s₀ s) {sdi : List Byte} : GoesTo (execHostFrameTimeout sdi s) (Keeps s₀) :=
  ⟨_, rfl, .ite h.hostOpen.hostErr.report h⟩

theorem Keeps.hostReady (h : Keeps s₀ s) {code : Nat} {d : List Byte} : Keeps s₀ (s.hostReady code d) :=
  h.updHost

theorem Keeps.hostResult (h : Keeps s₀ s) : Keeps s₀ (match s.host.nvRead with
    | some (a, x) => if s.memWaits a x then s else (s.updHost fun h => { h with nvRead := none, done := some (1, []) }).hostMem a x
    | none => s) := by
  split
  · exact .ite h h.updHost.hostMem
  · exact h

theorem Keeps.execHostResultReady (h : Keeps s₀ s) : GoesTo (execHostResultReady s) (Keeps s₀) := by
  refine ⟨_, rfl, .ite h ?_⟩
  extract_lets s'
  have hs : Keeps s₀ s' := h.hostResult
  split
  · exact hs.hostReady
  · exact hs.regReads.hostReady
  · exact hs

/-! ### Pads -/

theorem Keeps.padsNote (h : Keeps s₀ s) : Keeps s₀ s.padsNote :=
  .ite h h.frame

theorem Keeps.execGateReadbackMismatch (h : Keeps s₀ s) {pin : Fin 24} {pad : Bool} :
    GoesTo (execGateReadbackMismatch pin pad s) (Keeps s₀) :=
  ⟨_, rfl, .ite h.evt.standOn.raiseIf h⟩

theorem Keeps.execEoReadbackMismatch (h : Keeps s₀ s) {pin : Fin 24} {pad : Bool} :
    GoesTo (execEoReadbackMismatch pin pad s) (Keeps s₀) :=
  ⟨_, rfl, .ite h.evt.standOn h⟩

theorem Keeps.execPadReadbackMatch (h : Keeps s₀ s) {gate : Bool} {pin : Fin 24} :
    GoesTo (execPadReadbackMatch gate pin s) (Keeps s₀) :=
  ⟨_, rfl, .ite h.standOff h⟩

/-! ### The Porter’s decisions -/

theorem Keeps.decided (h : Keeps s₀ s) {ds : List Decided} : Keeps s₀ (s.decided ds) :=
  (h.decide_.each fun _ _ h => h.blockReset).when (·.chipReset)

theorem Keeps.execFaultEvent (h : Keeps s₀ s) {evs : List PairEvt} : GoesTo (execFaultEvent evs s) (Keeps s₀) :=
  ⟨_, rfl, .ite h.sampleAll.decided h⟩

theorem Keeps.execSevereNotice (h : Keeps s₀ s) : GoesTo (execSevereNotice s) (Keeps s₀) := by
  refine ⟨_, rfl, .ite ?_ h⟩
  split
  · exact h
  · exact h.updPor.decided

theorem Keeps.execChiprst (h : Keeps s₀ s) {src : Master} : GoesTo (execChiprst src s) (Keeps s₀) :=
  ⟨_, rfl, .ite (.ite h.porCmd.chipReset h.porCmd) h⟩

/-! ### An FCLK -/

theorem Keeps.hallTick (h : Keeps s₀ s) : Keeps s₀ s.hallTick :=
  .ite h h.hallMclk

theorem Keeps.passFclk (h : Keeps s₀ s) {k : Nat} : Keeps s₀ (s.passFclk k) :=
  h.qvStaleRun.padsNote.tbAdvance.frame.bankConfs.hallTick.testRun.hkFalls.transitRun.claimsRun.countsRun

theorem Keeps.idle (h : Keeps s₀ s) : Keeps s₀ s.idle :=
  .ite h.passFclk h

theorem Keeps.execTbSlew (h : Keeps s₀ s) {fast : Bool} : GoesTo (execTbSlew fast s) (Keeps s₀) :=
  ⟨_, rfl, .ite h.frame.passFclk h⟩

/-! ### The dispatch and the step -/

/-- Every command goes on, and keeps the queue and the form of the stores. -/
theorem Keeps.exec (h : Keeps s₀ s) (c : Instr) : GoesTo (exec c s) (Keeps s₀) := by
  cases c with
  | railWarning => exact h.execRailWarning
  | railReset => exact h.execRailReset
  | gateLockoutBegin => exact h.execGateLockoutBegin
  | gateLockoutEnd => exact h.execGateLockoutEnd
  | nrstAssert => exact h.execNrstAssert
  | nrstRelease => exact h.execNrstRelease
  | internalResetRelease => exact h.execInternalResetRelease
  | xinRecheck => exact h.execXinRecheck
  | pllLock => exact h.execPllLock
  | bootStep1End => exact h.execBootStep1End
  | ringReferenceLock => exact h.execRingReferenceLock
  | xinEdgeLoss => exact h.execXinEdgeLoss
  | ringStreamLoss => exact h.execRingStreamLoss
  | holdoverEnd => exact h.execHoldoverEnd
  | clockMonitorCount => exact h.execClockMonitorCount
  | imageSlotLoad => exact h.execImageSlotLoad
  | imageVerifyDone => exact h.execImageVerifyDone
  | enumWaitTimeout => exact h.execEnumWaitTimeout
  | bootStep4 => exact h.execBootStep4
  | blockResetRequest src => exact h.execBlockResetRequest (src := src)
  | blockResetResume => exact h.execBlockResetResume
  | vminClear => exact h.execVminClear
  | watchRequest => exact h.execWatchRequest
  | watchMtTick => exact h.execWatchMtTick
  | wakePin => exact h.execWakePin
  | wakeTimer => exact h.execWakeTimer
  | mtTick => exact h.execMtTick
  | tbWrap => exact h.execTbWrap
  | wvlLoadBegin => exact h.execWvlLoadBegin
  | wvlDataWrite => exact h.execWvlDataWrite
  | wvlLoadEnd => exact h.execWvlLoadEnd
  | loadVerifyDone => exact h.execLoadVerifyDone
  | wvlAbort => exact h.execWvlAbort
  | wvlLoadTimeout => exact h.execWvlLoadTimeout
  | wvlHotswap => exact h.execWvlHotswap
  | hotswapApply => exact h.execHotswapApply
  | registerWrite => exact h.execRegisterWrite
  | readClear src => exact h.execReadClear (src := src)
  | wheelEdge => exact h.execWheelEdge
  | vrArmDrop => exact h.execVrArmDrop
  | toothWindowExpire => exact h.execToothWindowExpire
  | twoToothWindowExpire => exact h.execTwoToothWindowExpire
  | trackerStall => exact h.execTrackerStall
  | directionPulseEnd => exact h.execDirectionPulseEnd
  | trackerResync => exact h.execTrackerResync
  | trackerRunWrite => exact h.execTrackerRunWrite
  | trackerClearCounts => exact h.execTrackerClearCounts
  | historyRecordRead => exact h.execHistoryRecordRead
  | treadStep => exact h.execTreadStep
  | geometrySave => exact h.execGeometrySave
  | geometrySaveDone => exact h.execGeometrySaveDone
  | geometryReset => exact h.execGeometryReset
  | geometryWrite => exact h.execGeometryWrite
  | beaconReceive => exact h.execBeaconReceive
  | stitchScan => exact h.execStitchScan
  | stitchPulseEnd => exact h.execStitchPulseEnd
  | stitchCommit => exact h.execStitchCommit
  | stitchCancel => exact h.execStitchCancel
  | stitchParamWrite => exact h.execStitchParamWrite
  | stitchItemArrive => exact h.execStitchItemArrive
  | slotLineRise => exact h.execSlotLineRise
  | slotLineFall => exact h.execSlotLineFall
  | bankDrainEnd => exact h.execBankDrainEnd
  | h1doneRise => exact h.execH1doneRise
  | injComparatorChange => exact h.execInjComparatorChange
  | peakTimeLimit => exact h.execPeakTimeLimit
  | eoiCrossing => exact h.execEoiCrossing
  | eoiObserveEnd => exact h.execEoiObserveEnd
  | gateReadbackMismatch => exact h.execGateReadbackMismatch
  | injReenable => exact h.execInjReenable
  | eoReadbackMismatch => exact h.execEoReadbackMismatch
  | crossingCheckFail => exact h.execCrossingCheckFail
  | hostQvWrite => exact h.execHostQvWrite
  | recipeRequestArrive => exact h.execRecipeRequestArrive
  | recipeStart => exact h.execRecipeStart
  | recipeEndStep => exact h.execRecipeEndStep
  | recipeLoad => exact h.execRecipeLoad
  | recipeLookup => exact h.execRecipeLookup
  | recipeAdd => exact h.execRecipeAdd
  | recipeScale => exact h.execRecipeScale
  | recipeClamp => exact h.execRecipeClamp
  | recipeSelect => exact h.execRecipeSelect
  | recipeWrqv => exact h.execRecipeWrqv
  | recipeWrstitch => exact h.execRecipeWrstitch
  | recipeCommit => exact h.execRecipeCommit
  | recipeRunTimeout => exact h.execRecipeRunTimeout
  | chartTestLookup => exact h.execChartTestLookup
  | qvStale => exact h.execQvStale
  | gaugeRecordArrive => exact h.execGaugeRecordArrive
  | gaugeTreadZero => exact h.execGaugeTreadZero
  | thresholdLookupDone => exact h.execThresholdLookupDone
  | awoWordArrive => exact h.execAwoWordArrive
  | awoInterpRefresh => exact h.execAwoInterpRefresh
  | streamReceive => exact h.execStreamReceive
  | streamSlotTimeout => exact h.execStreamSlotTimeout
  | awoPwmPeriod => exact h.execAwoPwmPeriod
  | needleSet => exact h.execNeedleSet
  | needleMov => exact h.execNeedleMov
  | needleJmp => exact h.execNeedleJmp
  | needleWait => exact h.execNeedleWait
  | needleIn => exact h.execNeedleIn
  | needleOut => exact h.execNeedleOut
  | needlePush => exact h.execNeedlePush
  | needlePull => exact h.execNeedlePull
  | needleFlag => exact h.execNeedleFlag
  | needleBadop => exact h.execNeedleBadop
  | needleStart => exact h.execNeedleStart
  | needleStop => exact h.execNeedleStop
  | bedSyncStart => exact h.execBedSyncStart
  | needlePcWrite => exact h.execNeedlePcWrite
  | needleTxWrite => exact h.execNeedleTxWrite
  | needleRxRead => exact h.execNeedleRxRead
  | programStoreWrite => exact h.execProgramStoreWrite
  | flagClearWrite => exact h.execFlagClearWrite
  | flagSetWrite => exact h.execFlagSetWrite
  | needleStallTimeout => exact h.execNeedleStallTimeout
  | comparatorSwitch => exact h.execComparatorSwitch
  | windowSampleTick => exact h.execWindowSampleTick
  | windowSampleLatch => exact h.execWindowSampleLatch
  | comparatorConfigWrite => exact h.execComparatorConfigWrite
  | windowModeWrite => exact h.execWindowModeWrite
  | ladderStepStart => exact h.execLadderStepStart
  | ladderHandover => exact h.execLadderHandover
  | ladderHandoverForced => exact h.execLadderHandoverForced
  | ladderTestDone => exact h.execLadderTestDone
  | timerAdvance => exact h.execTimerAdvance
  | timerLineStart => exact h.execTimerLineStart
  | timerLineStop => exact h.execTimerLineStop
  | timerLineCapture => exact h.execTimerLineCapture
  | timerLineClear => exact h.execTimerLineClear
  | timerRunWrite => exact h.execTimerRunWrite
  | timerClearCommand => exact h.execTimerClearCommand
  | timerCountWrite => exact h.execTimerCountWrite
  | timerReloadWrite => exact h.execTimerReloadWrite
  | timerCompareWrite => exact h.execTimerCompareWrite
  | timerGroupRun => exact h.execTimerGroupRun
  | timerPairCountRead => exact h.execTimerPairCountRead
  | tbSlew => exact h.execTbSlew
  | hallAccess => exact h.execHallAccess
  | hallHoldLimit => exact h.execHallHoldLimit
  | scrubWriteback => exact h.execScrubWriteback
  | hallOwnerWrite => exact h.execHallOwnerWrite
  | hallOwnerHandover => exact h.execHallOwnerHandover
  | nvsProgramCommand => exact h.execNvsProgramCommand
  | nvsEraseCommand => exact h.execNvsEraseCommand
  | nvsWriteStart => exact h.execNvsWriteStart
  | nvsWriteDone => exact h.execNvsWriteDone
  | nvsRead => exact h.execNvsRead
  | logEntryWrite => exact h.execLogEntryWrite
  | hookStart => exact h.execHookStart
  | hookStop => exact h.execHookStop
  | hookClearRequests => exact h.execHookClearRequests
  | hookPcWrite => exact h.execHookPcWrite
  | descriptorFetch => exact h.execDescriptorFetch
  | hookMove => exact h.execHookMove
  | hookFill => exact h.execHookFill
  | hookCmp => exact h.execHookCmp
  | hookLoop => exact h.execHookLoop
  | hookWait => exact h.execHookWait
  | hookSignal => exact h.execHookSignal
  | pacingPulse => exact h.execPacingPulse
  | burstIssue => exact h.execBurstIssue
  | burstComplete => exact h.execBurstComplete
  | descriptorStatusWrite => exact h.execDescriptorStatusWrite
  | burstTimeout => exact h.execBurstTimeout
  | hookBudgetReset => exact h.execHookBudgetReset
  | hookBudgetWrite => exact h.execHookBudgetWrite
  | laneSwitchToCable => exact h.execLaneSwitchToCable
  | laneReturnToPrimary => exact h.execLaneReturnToPrimary
  | ringIsolation => exact h.execRingIsolation
  | frameReceive => exact h.execFrameReceive
  | enumMeasure => exact h.execEnumMeasure
  | measureHoldEnd => exact h.execMeasureHoldEnd
  | enumAssign => exact h.execEnumAssign
  | enumDone => exact h.execEnumDone
  | joinOffer => exact h.execJoinOffer
  | joinGrant => exact h.execJoinGrant
  | remoteRegrd => exact h.execRemoteRegrd
  | remoteRegwr => exact h.execRemoteRegwr
  | remoteMemrd => exact h.execRemoteMemrd
  | remoteMemwr => exact h.execRemoteMemwr
  | respReceive => exact h.execRespReceive
  | syncReceive => exact h.execSyncReceive
  | eventReceive => exact h.execEventReceive
  | imageFrameReceive => exact h.execImageFrameReceive
  | resetFrame => exact h.execResetFrame
  | galleryReset => exact h.execGalleryReset
  | enumStart => exact h.execEnumStart
  | fullEnumeration => exact h.execFullEnumeration
  | enumFrameReturn => exact h.execEnumFrameReturn
  | enumPassTimeout => exact h.execEnumPassTimeout
  | enumRetryTimer => exact h.execEnumRetryTimer
  | joinNow => exact h.execJoinNow
  | joinOfferTimer => exact h.execJoinOfferTimer
  | galleryCountClear => exact h.execGalleryCountClear
  | syncSend => exact h.execSyncSend
  | syncTimeout => exact h.execSyncTimeout
  | transactionTimeout => exact h.execTransactionTimeout
  | ownFrameTransmit => exact h.execOwnFrameTransmit
  | eventSlotChange => exact h.execEventSlotChange
  | hostFetch => exact h.execHostFetch
  | hostRegrd => exact h.execHostRegrd
  | hostRegwr => exact h.execHostRegwr
  | hostMemrd => exact h.execHostMemrd
  | hostMemwr => exact h.execHostMemwr
  | hostResultReady => exact h.execHostResultReady
  | hostFrameTimeout => exact h.execHostFrameTimeout
  | hostRegister => exact h.execHostRegister
  | hoststateReceive => exact h.execHoststateReceive
  | irqEvaluate => exact h.execIrqEvaluate
  | irqOfferReceive => exact h.execIrqOfferReceive
  | irqAcceptReceive => exact h.execIrqAcceptReceive
  | irqRefuseReceive => exact h.execIrqRefuseReceive
  | irqFrameNoReply => exact h.execIrqFrameNoReply
  | irqClaimRead => exact h.execIrqClaimRead
  | irqClaimReceive => exact h.execIrqClaimReceive
  | irqClaimedReceive => exact h.execIrqClaimedReceive
  | irqDoneWrite => exact h.execIrqDoneWrite
  | irqSlotRelease => exact h.execIrqSlotRelease
  | irqDoneReceive => exact h.execIrqDoneReceive
  | irqWithdrawReceive => exact h.execIrqWithdrawReceive
  | irqClaimTimeout => exact h.execIrqClaimTimeout
  | irqHoldTimeout => exact h.execIrqHoldTimeout
  | trapClear => exact h.execTrapClear
  | sourceCountClear => exact h.execSourceCountClear
  | trustClaim => exact h.execTrustClaim
  | trustAddkey => exact h.execTrustAddkey
  | trustRevoke => exact h.execTrustRevoke
  | trustLock => exact h.execTrustLock
  | trustRetire => exact h.execTrustRetire
  | trustSetfloor => exact h.execTrustSetfloor
  | trustDebug => exact h.execTrustDebug
  | trustAttest => exact h.execTrustAttest
  | trustUnknownCommand => exact h.execTrustUnknownCommand
  | trustCommandEnd => exact h.execTrustCommandEnd
  | challengeExpire => exact h.execChallengeExpire
  | debugSessionExpire => exact h.execDebugSessionExpire
  | tamperTrip => exact h.execTamperTrip
  | faultEvent => exact h.execFaultEvent
  | faultCount => exact h.execFaultCount
  | severeNotice => exact h.execSevereNotice
  | porterWindowClose => exact h.execPorterWindowClose
  | faultForce => exact h.execFaultForce
  | severeClear => exact h.execSevereClear
  | capclr => exact h.execCapclr
  | chiprst => exact h.execChiprst
  | heartbeatSend => exact h.execHeartbeatSend
  | heartbeatTimeout => exact h.execHeartbeatTimeout
  | aliveToggle => exact h.execAliveToggle
  | hallRegionTest => exact h.execHallRegionTest
  | nvsBackgroundRead => exact h.execNvsBackgroundRead
  | compareUnitStep => exact h.execCompareUnitStep
  | compareUnitHandover => exact h.execCompareUnitHandover
  | compareUnitTestDone => exact h.execCompareUnitTestDone
  | edgeTimerStep => exact h.execEdgeTimerStep
  | edgeTimerSlotFree => exact h.execEdgeTimerSlotFree
  | edgeTimerTestDone => exact h.execEdgeTimerTestDone
  | testIntervalLate => exact h.execTestIntervalLate
  | canFrameReceive => exact h.execCanFrameReceive
  | canFrameSent => exact h.execCanFrameSent
  | canTxRequest => exact h.execCanTxRequest
  | canTxAbort => exact h.execCanTxAbort
  | canObjectSelect => exact h.execCanObjectSelect
  | canObjectWrite => exact h.execCanObjectWrite
  | canRecover => exact h.execCanRecover
  | canBusOffRecovery => exact h.execCanBusOffRecovery
  | sentFrameEnd => exact h.execSentFrameEnd
  | sentSilence => exact h.execSentSilence
  | railWarningEnd => exact h.execRailWarningEnd
  | padReadbackMatch => exact h.execPadReadbackMatch
  | validCodeGroupArrival => exact h.execValidCodeGroupArrival
  | canBusError => exact h.execCanBusError
  | canArbitrationLost => exact h.execCanArbitrationLost

/-- A step from a canonical state gives one: with no command waiting an FCLK passes at most, else the command in front acts. -/
theorem step_canonical {s t : State} (hw : Memory.wf s = true) (hs : step s = .next t) : Memory.wf t = true := by
  cases hp : s.pending with
  | nil =>
    rw [step_nil s hp] at hs
    cases hs
    exact (Keeps.refl s).idle.canon hw
  | cons c l =>
    obtain ⟨u, hu, hk⟩ := (Keeps.refl { s with pending := l }).exec c
    rw [step_cons s c l hp, hu] at hs
    cases hs
    exact hk.canon hw

/-- Settles O58: one lemma for every operation of the model says that it keeps the canonical form, from the writes of single cells up to
the dispatch. -/
theorem storesStayCanonical : Obligations.StoresStayCanonical := by
  unfold Obligations.StoresStayCanonical
  exact fun _ _ => step_canonical

end Sys2Proof.Machine
end

section
/-! SUPPORT. A register access by its address: an address whose island is stopped, one that no block holds, and one whose write goes by
the access codes alone (O10). -/

set_option Elab.async false

namespace Sys2Proof.Machine

/-! ### What a write by the access codes leaves -/

theorem State.get_setReg_ne (s : State) {f : Fld} {a : Nat} (h : f.addr ≠ a) (v : Word) : (s.setReg a v).get f = s.get f := by
  rw [State.get, State.reg_setReg_ne s h v, State.get]

theorem State.reg_recordReject (s : State) (a : Nat) {b : Nat} (h : b ≠ R.WVL_WLREJ) : (s.recordReject a).reg b = s.reg b := by
  unfold State.recordReject
  rw [State.reg_evtInc _ _ _ h, State.reg_set _ _ _ _ h]

theorem State.get_recordReject_addr (s : State) {a : Nat} (h : a < 2 ^ 16) : (s.recordReject a).get F.WVL_WLREJ.ADDR = a := by
  unfold State.recordReject State.evtInc State.evtAdd
  rw [State.get_set_disj _ F.WVL_WLREJ.COUNT F.WVL_WLREJ.ADDR rfl (by decide) (by decide), State.get_mark,
    State.get_set_self _ _ (by decide)]
  exact Nat.mod_eq_of_lt h

theorem State.get_recordReject_count (s : State) (a : Nat) :
    (s.recordReject a).get F.WVL_WLREJ.COUNT = min 15 (s.get F.WVL_WLREJ.COUNT + 1) := by
  unfold State.recordReject
  rw [State.get_evtInc _ _ (by decide), State.get_set_disj _ F.WVL_WLREJ.ADDR F.WVL_WLREJ.COUNT rfl (by decide) (by decide)]
  have hc : s.get F.WVL_WLREJ.COUNT < 16 := s.get_lt _
  change (if s.get F.WVL_WLREJ.COUNT = 15 then 15 else s.get F.WVL_WLREJ.COUNT + 1) = _
  split <;> omega

theorem State.writeCodes_of_blocked (s : State) (src : Master) (a : Nat) (v : Word)
    (h : s.wlBlocked src a (s.reg a).toNat v.toNat = true) :
    s.writeCodes src a v = (s.setReg a (BitVec.ofNat 20 (s.merged src a (s.reg a).toNat v.toNat))).recordReject a := by
  simp only [State.writeCodes, h, if_true]

theorem State.writeCodes_of_not_blocked (s : State) (src : Master) (a : Nat) (v : Word)
    (h : s.wlBlocked src a (s.reg a).toNat v.toNat = false) :
    s.writeCodes src a v = s.setReg a (BitVec.ofNat 20 (s.merged src a (s.reg a).toNat v.toNat)) := by
  simp only [State.writeCodes, h, Bool.false_eq_true, if_false]

theorem State.reg_writeCodes (s : State) (src : Master) (a : Nat) (v : Word) {b : Nat} (hb : b ≠ R.WVL_WLREJ) :
    (s.writeCodes src a v).reg b = if b = a then BitVec.ofNat 20 (s.merged src a (s.reg a).toNat v.toNat) else s.reg b := by
  cases h : s.wlBlocked src a (s.reg a).toNat v.toNat with
  | true => rw [s.writeCodes_of_blocked src a v h, State.reg_recordReject _ _ hb, State.reg_setReg]
  | false => rw [s.writeCodes_of_not_blocked src a v h, State.reg_setReg]

theorem State.sameStores_writeCodes (s : State) (src : Master) (a : Nat) (v : Word) : SameStores s (s.writeCodes src a v) := by
  cases h : s.wlBlocked src a (s.reg a).toNat v.toNat with
  | true => simp [SameStores, s.writeCodes_of_blocked src a v h, State.recordReject, State.evtInc]
  | false => simp [SameStores, s.writeCodes_of_not_blocked src a v h]

/-! ### The commands by the accesses they make -/

/-- With nothing of the FCLK waiting at the stitch unit, REGISTER_WRITE is the write alone. -/
theorem exec_registerWrite_of_write {s t : State} {src : Master} {a : BitVec 16} {v : Word} {e : Bool}
    (h : s.writeReg src a.toNat v = (t, e)) (ht : t.suActs = []) : exec (.registerWrite src a v) s = .next t := by
  change Host.Outcome.next (s.writeReg src a.toNat v).1.suFlush = _
  rw [h]
  simp [State.suFlush, ht]

theorem exec_readClear_of_read {s t : State} {src : Master} {a : BitVec 16} {w : Nat} {e : Bool}
    (h : s.readReg a.toNat = (t, w, e)) : exec (.readClear src a) s = .next { t with rd := BitVec.ofNat 20 w } := by
  change Host.Outcome.next { (s.readReg a.toNat).1 with rd := BitVec.ofNat 20 (s.readReg a.toNat).2.1 } = _
  rw [h]

/-! ### A stopped island (R9) -/

theorem State.writeReg_of_down {s : State} {a : Nat} (h : s.regUp a = false) (src : Master) (v : Word) :
    s.writeReg src a v = (s, true) := by
  simp [State.writeReg, h]

theorem State.readReg_of_down {s : State} {a : Nat} (h : s.regUp a = false) : s.readReg a = (s, 0, true) := by
  simp [State.readReg, h]

/-! ### An address above the blocks (Table 1.4, R23) -/

theorem regIsland_above {a : Nat} (h : 0x8000 ≤ a) : regIsland a = none := by
  unfold regIsland
  repeat rw [if_neg (by omega)]

theorem blockOf_above {a : Nat} (h : 0x8000 ≤ a) : blockOf a = none := by
  unfold blockOf
  repeat rw [if_neg (by omega)]

theorem fieldsOf_above {a : Nat} (h : 0x8000 ≤ a) : fieldsOf a = [] := by
  simp only [fieldsOf, rowOf, blockOf_above h]

theorem State.peek_above (s : State) {a : Nat} (h : 0x8000 ≤ a) : s.peek a = 0 := by
  have hm : readMask a = 0 := by simp [readMask, fieldsOf_above h]
  simp only [State.peek, hm, Nat.and_zero, Bool.and_eq_true, Bool.or_eq_true, decide_eq_true_eq]
  have hb : R.CHT_STAT < 0x8000 ∧ R.CMP_ZONE 0 < 0x8000 ∧ R.CMP_ZONE 1 < 0x8000 ∧ R.HAL_NVSTAT < 0x8000 ∧ R.HAL_LOGSTAT < 0x8000
      ∧ R.GAL_RSTAT < 0x8000 ∧ R.HOST_STAT < 0x8000 ∧ R.POR_STAT < 0x8000 := by decide
  repeat rw [if_neg (by omega)]

theorem State.regRead_above (s : State) {a : Nat} (h : 0x8000 ≤ a) : s.regRead a = (s, 0) := by
  have hm : s.markOf a = none := by simp [State.markOf, State.sameClock, regIsland_above h]
  have hc : s.clearRC a = s := by simp [State.clearRC, accMask, fieldsOf_above h]
  have hr : s.rcShow a 0 = 0 := by simp only [State.rcShow, hm]
  simp only [State.regRead, s.peek_above h, hc, hr, Bool.and_eq_true, decide_eq_true_eq, R.IRT_CLAIM]
  repeat rw [if_neg (by omega)]

theorem State.readReg_above (s : State) {a : Nat} (h : 0x8000 ≤ a) : s.readReg a = (s, 0, false) := by
  simp [State.readReg, State.regUp, regIsland_above h, s.regRead_above h]

theorem State.regWrite_above (s : State) {a : Nat} (h : 0x8000 ≤ a) (src : Master) (v : Word) : s.regWrite src a v = s := by
  unfold State.regWrite
  repeat rw [if_neg (by omega)]

theorem State.writeReg_above (s : State) {a : Nat} (h : 0x8000 ≤ a) (src : Master) (v : Word) : s.writeReg src a v = (s, false) := by
  simp [State.writeReg, State.regUp, regIsland_above h, s.regWrite_above h]

/-! ### A write of EO_CFGn and a read of IRT_STAT -/


theorem regIsland_eoCfg (n : Fin 24) : regIsland (R.EO_CFG n) = some .angle := by
  revert n
  decide

theorem regBlock_eoCfg (n : Fin 24) : regBlock (R.EO_CFG n) = none := by
  revert n
  decide

theorem State.regWrite_eoCfg (s : State) (n : Fin 24) (src : Master) (v : Word) :
    s.regWrite src (R.EO_CFG n) v = s.writeCodes src (R.EO_CFG n) v := by
  have ha : 0x2800 ≤ R.EO_CFG n ∧ R.EO_CFG n < 0x2818 := by simp only [R.EO_CFG]; omega
  unfold State.regWrite
  repeat rw [if_neg (by omega)]
  rw [if_pos (by omega), if_neg (by simp only [R.INJ_CMD]; omega)]

theorem State.writeReg_eoCfg {s : State} (n : Fin 24) (h : s.islandUp .angle = true) (src : Master) (v : Word) :
    s.writeReg src (R.EO_CFG n) v = (s.writeCodes src (R.EO_CFG n) v, false) := by
  simp [State.writeReg, State.regUp, State.regFree, regIsland_eoCfg, regBlock_eoCfg, h, s.regWrite_eoCfg]

theorem State.peek_irtStat (s : State) : s.peek R.IRT_STAT = (s.reg R.IRT_STAT).toNat := by
  have hm : readMask R.IRT_STAT = 0xFFFFF := by decide
  have hw : (s.reg R.IRT_STAT).toNat &&& 0xFFFFF = (s.reg R.IRT_STAT).toNat :=
    Nat.and_two_pow_sub_one_of_lt_two_pow (s.reg R.IRT_STAT).isLt
  have hp : s.peek R.IRT_STAT = (s.reg R.IRT_STAT).toNat &&& readMask R.IRT_STAT := rfl
  rw [hp, hm, hw]

theorem State.clearRC_irtStat {s : State} (h : s.markOf R.IRT_STAT = none) : s.clearRC R.IRT_STAT = s.setReg R.IRT_STAT 0 := by
  have hm : accMask R.IRT_STAT .rc = 0xFFFFF := by decide
  have hp : ∀ w : Word, pick 0xFFFFF 0 w.toNat = 0 := by simp [pick]
  simp [State.clearRC, hm, hp, State.setNow, h]

theorem State.readReg_irtStat {s : State} (h : s.islandUp .memory = true) (hm : s.markOf R.IRT_STAT = none) :
    s.readReg R.IRT_STAT = (s.setReg R.IRT_STAT 0, (s.reg R.IRT_STAT).toNat, false) := by
  have hup : s.regUp R.IRT_STAT = true := h
  have hr : s.rcShow R.IRT_STAT (s.reg R.IRT_STAT).toNat = (s.reg R.IRT_STAT).toNat := by simp only [State.rcShow, hm]
  have hread : s.regRead R.IRT_STAT = (s.clearRC R.IRT_STAT, s.rcShow R.IRT_STAT (s.peek R.IRT_STAT)) := rfl
  simp only [State.readReg, hup, hread, State.clearRC_irtStat hm, s.peek_irtStat, hr, Bool.not_true, Bool.false_eq_true, if_false]

/-- A governed write of EO_CFGn: R3 for the register, R80 for what the limits keep from changing. -/
theorem exec_registerWrite_eoCfg {s : State} (src : Master) (n : Fin 24) (v : Word) (h : s.islandUp .angle = true) (hs : s.suActs = []) :
    exec (.registerWrite src (BitVec.ofNat 16 (R.EO_CFG n)) v) s = .next (s.writeCodes src (R.EO_CFG n) v) := by
  have ha : (BitVec.ofNat 16 (R.EO_CFG n)).toNat = R.EO_CFG n := Nat.mod_eq_of_lt (by simp only [R.EO_CFG]; omega)
  refine exec_registerWrite_of_write (e := false) ?_ (by rw [State.writeCodes_suActs, hs])
  rw [ha]
  exact State.writeReg_eoCfg n h src v

/-- Settles O10: a write of EO_CFGn is a write by the access codes, a read of IRT_STAT returns and clears the whole register, and an
access to a stopped island or to an address above the blocks is none. -/
theorem registerAccessesFollowTheirCodes : Obligations.RegisterAccessesFollowTheirCodes := by
  unfold Obligations.RegisterAccessesFollowTheirCodes
  refine ⟨fun s src n v h _ hs => ?_, fun s src h hm => ?_, fun s src a v h hs => ?_, fun s src a v h hs => ?_⟩
  · have hne : R.EO_CFG n ≠ R.WVL_WLREJ := by simp only [R.EO_CFG, R.WVL_WLREJ]; omega
    refine ⟨_, exec_registerWrite_eoCfg src n v h hs, ?_, fun a hna hnr => ?_, fun hb => ⟨?_, ?_⟩, fun hb => ?_,
      s.sameStores_writeCodes src _ v⟩
    · rw [s.reg_writeCodes src _ v hne, if_pos rfl]
    · rw [s.reg_writeCodes src _ v hnr, if_neg hna]
    · rw [s.writeCodes_of_blocked src _ v hb, State.get_recordReject_addr _ (by simp only [R.EO_CFG]; omega)]
    · rw [s.writeCodes_of_blocked src _ v hb, State.get_recordReject_count, State.get_setReg_ne _ hne.symm]
    · rw [s.writeCodes_of_not_blocked src _ v hb, State.reg_setReg_ne _ hne.symm]
  · refine ⟨_, exec_readClear_of_read (State.readReg_irtStat h hm), ?_, ?_, fun a ha => ?_⟩
    · exact BitVec.ofNat_toNat _ _
    · exact State.reg_setReg_self s R.IRT_STAT 0
    · exact State.reg_setReg_ne s ha 0
  · exact ⟨exec_registerWrite_of_write (State.writeReg_of_down h src v) hs, exec_readClear_of_read (State.readReg_of_down h)⟩
  · exact ⟨exec_registerWrite_of_write (s.writeReg_above h src v) hs, exec_readClear_of_read (s.readReg_above h)⟩

end Sys2Proof.Machine
end

section
/-! SUPPORT. The machine at reset, in internal reset of cause power-on with gate lockout active (O59). -/

namespace Sys2Proof.Machine

/-! ### Gate lockout holds every gate off (R47) -/

theorem State.bankLive_of_lockout {s : State} (h : s.lockout = true) (b : Nat) : s.bankLive b = false := by
  simp [State.bankLive, h]

theorem gatesOff_of_lockout {s : State} (h : s.lockout = true) : GatesOff s :=
  ⟨fun n => by simp [State.gateINJ, State.bankLive_of_lockout h], fun b => by simp [State.gateBST, State.bankLive_of_lockout h],
    fun b => by simp [State.gateBAT, State.bankLive_of_lockout h]⟩

/-! ### Internal reset holds the part and its outputs (R29, R30) -/

section
variable {s : State} {k : ResetKind} (h : s.pcr.held = some k)
include h

theorem State.running_of_held : s.running = false := by simp [State.running, h]

theorem State.applied_of_held : s.applied = false := by simp [State.applied, h]

theorem State.eoPin_of_held (n : Nat) : s.eoPin n = .hiZ := by simp [State.eoPin, State.applied_of_held h]

theorem State.npPin_of_held (n : Nat) : s.npPin n = .hiZ := by simp [State.npPin, State.applied_of_held h]

theorem State.injPin_of_held (n : Nat) : s.injPin n = .low := by simp [State.injPin, State.applied_of_held h, driveOf]

theorem State.alivePin_of_held : s.alivePin = .low := by simp [State.alivePin, State.aliveOn, State.running_of_held h, driveOf]

theorem State.hirqPin_of_held : s.hirqPin = .high := by simp [State.hirqPin, State.running_of_held h, driveOf]

theorem State.htrapPin_of_held : s.htrapPin = .high := by simp [State.htrapPin, State.running_of_held h, driveOf]

theorem State.bypass_of_held : s.bypass = true := by simp [State.bypass, State.bypassOpen, State.running_of_held h]

end

/-! ### The state at power-on -/

theorem State.reset_held : State.reset.pcr.held = some .powerOn := rfl

theorem State.reset_reg (a : Nat) : State.reset.reg a = resetOf a := rfl

/-- Table 3.10: LOCKOUT reads 1 from power-on. -/
theorem State.reset_lockout : State.reset.lockout = true := by decide

/-- Settles O59: the stores list no cell, so that each reads as an unlisted one; internal reset holds the outputs, and gate lockout
the gates. -/
theorem resetIsCanonicalAndAsGiven : Obligations.ResetIsCanonicalAndAsGiven := by
  unfold Obligations.ResetIsCanonicalAndAsGiven
  have h := State.reset_held
  exact ⟨by decide, State.reset_reg, rfl, gatesOff_of_lockout State.reset_lockout,
    fun n => ⟨State.eoPin_of_held h n, State.npPin_of_held h n, State.injPin_of_held h n⟩, State.alivePin_of_held h,
    State.hirqPin_of_held h, State.htrapPin_of_held h, State.bypass_of_held h, rfl, rfl, fun _ => rfl⟩

end Sys2Proof.Machine
end

section
/-! SUPPORT. What a step does with the queue: the command in front goes on, and the commands behind it stay as they wait (O54, O56, O57). -/

set_option Elab.async false

namespace Sys2Proof.Machine

/-- Settles O54: the front command runs on the state whose queue is the rest. -/
theorem aStepRunsTheFrontCommand : Obligations.AStepRunsTheFrontCommand := by
  unfold Obligations.AStepRunsTheFrontCommand
  exact fun s c => ⟨step_cons (s.withFront c) c s.pending rfl, fun l hl => step_cons s c l hl⟩

/-- Every command goes on. -/
theorem exec_goes (c : Instr) (s : State) : Goes (exec c s) := by
  obtain ⟨t, ht, -⟩ := (Keeps.refl s).exec c
  exact ⟨t, ht⟩

/-- A command leaves the commands that wait as they are. -/
theorem pending_of_exec {c : Instr} {s t : State} (h : exec c s = .next t) : t.pending = s.pending := by
  obtain ⟨u, hu, hk⟩ := (Keeps.refl s).exec c
  cases hu.symm.trans h
  exact hk.queue

/-- A step takes away the command in front, if one waits, and no other. -/
theorem pending_of_step {s t : State} (h : step s = .next t) : t.pending = s.pending.tail := by
  cases hp : s.pending with
  | nil =>
    cases (step_nil s hp).symm.trans h
    exact (Keeps.refl s).idle.queue.trans hp
  | cons c l =>
    rw [step_cons s c l hp] at h
    exact pending_of_exec h

/-- Settles O56: with a command in front a step is that command, with none an FCLK at most. -/
theorem everyCommandGoesOn : Obligations.EveryCommandGoesOn := by
  unfold Obligations.EveryCommandGoesOn
  refine ⟨exec_goes, fun s => ?_⟩
  cases hp : s.pending with
  | nil => exact ⟨s.idle, step_nil s hp⟩
  | cons c l =>
    rw [step_cons s c l hp]
    exact exec_goes c _

/-- Settles O57: every operation of the model keeps the queue, so a command does, and a step takes its front. -/
theorem commandsKeepTheQueue : Obligations.CommandsKeepTheQueue := by
  unfold Obligations.CommandsKeepTheQueue
  exact ⟨fun _ _ _ => pending_of_exec, fun _ _ => pending_of_step⟩

end Sys2Proof.Machine
end

section
/-! SUPPORT. Event lines and outputs as functions of the state: the pulses that make a line high (O50), and what safe state makes of the
pins (O51). -/

set_option Elab.async false

namespace Sys2Proof.Machine

/-! ### Event lines (R16) -/

theorem Stitch.highAt_iff (t : Stitch) (f : Nat) : t.highAt f = true ↔ t.startT ≤ f ∧ f < t.endT := by
  simp [Stitch.highAt]

theorem vget_of_lt {α : Type} {n : Nat} (v : Vector α n) {i : Nat} (h : i < n) (d : α) : vget v i d = v[i] := by
  simp [vget, h]

/-- Some stitch satisfies a test when one of the 128 does by its number. -/
theorem State.any_stitch (s : State) (p : Stitch → Bool) :
    s.stitch.toList.any p = true ↔ ∃ n : Fin 128, p (s.getSt n) = true := by
  simp only [List.any_eq_true, Vector.mem_toList_iff, Vector.mem_iff_getElem]
  constructor
  · rintro ⟨_, ⟨i, hi, rfl⟩, hp⟩
    exact ⟨⟨i, hi⟩, by rwa [State.getSt, vget_of_lt _ hi]⟩
  · rintro ⟨n, hp⟩
    exact ⟨_, ⟨n, n.isLt, rfl⟩, by rwa [State.getSt, vget_of_lt _ n.isLt] at hp⟩

/-- Settles O50: the line is the OR of the pulses routed to it. -/
theorem eventLinesAreHighInAPulse : Obligations.EventLinesAreHighInAPulse := by
  unfold Obligations.EventLinesAreHighInAPulse
  intro s l f
  rw [State.lineAt, State.any_stitch]
  simp only [Bool.and_eq_true, decide_eq_true_eq, Stitch.highAt_iff, and_comm (a := (s.getSt _).lineNo = l)]

/-! ### Safe state (R19, R29, R47, R180, R421) -/

theorem State.bankLive_of_safe {s : State} (h : s.safe = true) (b : Nat) : s.bankLive b = false := by
  simp [State.bankLive, h]

/-- With no bank live no gate conducts. -/
theorem gatesOff_of_bankLive {s : State} (h : ∀ b, s.bankLive b = false) : GatesOff s := by
  simp [GatesOff, State.gateINJ, State.gateBST, State.gateBAT, h]

theorem gatesOff_of_safe {s : State} (h : s.safe = true) : GatesOff s := gatesOff_of_bankLive (State.bankLive_of_safe h)

section

variable {s : State} (h : s.safe = true)
include h

theorem State.safeLevels_of_safe : s.safeLevels = true := by simp [State.safeLevels, h]

theorem State.eoLevel_of_safe (n : Nat) : s.eoLevel n = s.bit (F.EO_CFG.SAFE n) := by
  simp [State.eoLevel, State.safeLevels_of_safe h]

theorem State.npPin_of_safe (ha : s.applied = true) (n : Nat) : s.npPin n = ((s.npSafe n).map driveOf).getD .hiZ := by
  rw [State.npPin, ha, State.safeLevels_of_safe h]
  cases s.npSafe n <;> rfl

theorem State.alivePin_of_safe : s.alivePin = .low := by simp [State.alivePin, State.aliveOn, h, driveOf]

end

/-- Settles O51: no bank is live in safe state or under lockout, and safe state gives the pins their safe levels before anything else. -/
theorem safeStateHoldsTheOutputs : Obligations.SafeStateHoldsTheOutputs := by
  unfold Obligations.SafeStateHoldsTheOutputs
  refine ⟨fun s h => h.elim gatesOff_of_safe gatesOff_of_lockout, fun s n h => ?_, fun s n h ha => ?_,
    fun s h => State.alivePin_of_safe h⟩
  · rw [State.eoPin, State.eoLevel_of_safe h]
  · rw [State.npPin_of_safe h ha]
    cases s.npSafe n <;> rfl

end Sys2Proof.Machine
end

section
/-! SUPPORT. Readbacks of pads and items that fail their check between islands: what stands at the Porter after each (O16). -/

set_option Elab.async false

namespace Sys2Proof.Machine

/-! ### Conditions that stand at the Porter (R405) -/

theorem State.stand_standOn (s : State) (src det : Nat) :
    ((s.standOn src det).por.stand.any fun p => p.src = src && p.det = det) = true := by
  unfold State.standOn
  split
  · assumption
  · simp [plainSig]

theorem State.stand_standOff (s : State) (src det : Nat) :
    ((s.standOff src det).por.stand.any fun p => p.src = src && p.det = det) = false := by
  rw [List.any_eq_false]
  intro p hp
  have hf : (!(decide (p.src = src) && decide (p.det = det))) = true := (List.mem_filter.1 hp).2
  grind

/-- A source on which nothing stands any more counts as fine. -/
theorem State.seen_standOff (s : State) (src det : Nat)
    (h : ((s.standOff src det).por.stand.any fun p => p.src = src) = false) : src ∉ (s.standOff src det).por.seen := by
  change src ∉ if (s.standOff src det).por.stand.any (fun p => p.src = src) then s.por.seen else s.por.seen.filter (fun k => k ≠ src)
  simp [h]

/-- A raise ends a crossing failure at most; what stands at the Porter stays. -/
theorem State.stand_raise (s : State) (k : Nat) : (s.raise k).por.stand = s.por.stand := by
  rcases s.raise_cases k with ⟨-, e⟩ | ⟨-, -, e⟩ | ⟨-, -, -, e⟩ | ⟨-, -, -, e⟩
  · rw [e]
  · rw [e, State.lostMet]
  · rw [e, State.evtInc_por]
  · rw [e, State.incW_por]

theorem State.stand_raiseIf (s : State) (c : Bool) (k : Nat) : (s.raiseIf c k).por.stand = s.por.stand := by
  cases c with
  | false => rfl
  | true => exact s.stand_raise k

/-! ### Flags beside them -/

theorem State.bit_raiseIf (s : State) (c : Bool) (k : Nat) {f : Fld} (h : f.addr < R.IRT_STAT) : (s.raiseIf c k).bit f = s.bit f := by
  have hs : f.addr ≠ R.IRT_SRC k := by
    unfold R.IRT_STAT at h
    unfold R.IRT_SRC
    omega
  cases c with
  | false => rfl
  | true => exact congrArg (fun w => decide (fldGet f w ≠ 0)) (s.reg_raise k f.addr hs h.ne)

theorem State.reg_standOn (s : State) (src det a : Nat) : (s.standOn src det).reg a = s.reg a := by
  rw [State.reg, State.standOn_regs, State.reg]

/-- A finding sets its flag and stands. -/
theorem State.bit_standOn_evt (s : State) (f : Fld) (src det : Nat) (hf : f.lo + f.len ≤ 20) (h1 : 0 < f.len) :
    ((s.evt f).standOn src det).bit f = true := by
  rw [State.bit, State.get, State.reg_standOn, ← State.get, s.get_evt f hf h1]
  rfl

/-! ### Readbacks (R20, R193) -/

/-- The bank of gate pin `pin`: the pins of the injectors come first, then one BST and one BAT gate for each bank. -/
def gateBank (pin : Nat) : Nat := if pin < 16 then pin / 4 else pin % 4

theorem gateBank_lt {pin : Nat} (h : pin < 24) : gateBank pin < 4 := by
  unfold gateBank
  split <;> omega

/-- A gate pin that differs sets the flag of its bank and stands on its source; an interrupt may follow. -/
theorem exec_gateReadbackMismatch {s : State} {pin : Fin 24} {pad : Bool} (h : s.angleOk 5 = true) (hd : s.padDiffers pin pad = true) :
    ∃ new n, exec (.gateReadbackMismatch pin pad) s = .next (((s.evt (F.INJ_BSTAT.GMIS (gateBank pin))).standOn 28 pin).raiseIf new n) := by
  change ∃ new n, execGateReadbackMismatch pin pad s = _
  unfold execGateReadbackMismatch
  rw [h, hd]
  exact ⟨_, _, rfl⟩

theorem exec_eoReadbackMismatch {s : State} {pin : Fin 24} {pad : Bool} (h : s.islandUp .angle = true)
    (hd : s.padDiffers (24 + pin) pad = true) :
    exec (.eoReadbackMismatch pin pad) s = .next ((s.evt (F.EO_CFG.MISMATCH pin)).standOn 18 pin) := by
  change execEoReadbackMismatch pin pad s = _
  unfold execEoReadbackMismatch
  rw [h, hd]
  rfl

theorem exec_padReadbackMatch {s : State} {gate : Bool} {pin : Fin 24} (h : s.islandUp .angle = true) :
    exec (.padReadbackMatch gate pin) s = .next (s.standOff (if gate then 28 else 18) pin) := by
  change execPadReadbackMatch gate pin s = _
  unfold execPadReadbackMatch
  rw [h]
  rfl

/-! ### Crossings (R10) -/

/-- Settles O16: a finding of a readback stands at the Porter, and a failing item leaves the front of its path before the report. -/
theorem readbacksAndCrossingChecks : Obligations.ReadbacksAndCrossingChecks := by
  unfold Obligations.ReadbacksAndCrossingChecks
  refine ⟨fun s pin pad h hd => ?_, fun s pin pad h hd => ?_, fun s gate pin h => ?_, fun s dest path h => ?_⟩
  · obtain ⟨new, n, e⟩ := exec_gateReadbackMismatch h hd
    refine ⟨_, e, ?_, ?_, by simp⟩
    · rw [State.bit_raiseIf]
      · exact State.bit_standOn_evt s _ 28 pin (show 10 + 1 ≤ 20 by decide) Nat.one_pos
      · have hb := gateBank_lt pin.isLt
        change 0x3000 + 0x14 + 1 * gateBank pin < 0x6400 + 0x17
        omega
    · rw [State.stand_raiseIf]
      exact State.stand_standOn _ 28 pin
  · refine ⟨_, exec_eoReadbackMismatch h hd, ?_, State.stand_standOn _ 18 pin, fun a ha => ?_⟩
    · exact State.bit_standOn_evt s _ 18 pin (show 12 + 1 ≤ 20 by decide) Nat.one_pos
    · rw [State.reg_standOn, State.reg_evt _ _ _ ha]
  · exact ⟨_, exec_padReadbackMatch h, State.stand_standOff _ _ _, rfl, State.seen_standOff _ _ _⟩
  · change GoesTo (execCrossingCheckFail dest path s) _
    unfold execCrossingCheckFail
    rw [h]
    refine ⟨_, rfl, State.report_pulse _ _ _, ?_⟩
    cases path with
    | beacon => by_cases hd : dest = .gallery <;> simp [hd]
    | faultCount => by_cases hd : dest = .safety <;> simp [hd, State.updPor]
    | _ => simp [State.updCht, State.updGau, State.updPor]

end Sys2Proof.Machine
end

section
/-! SUPPORT. An FCLK of an empty queue can change the gauge: a test lookup under way makes the lookup unit accept what waits for it, the
gauge’s threshold lookup included (R214, R221, R227; against O55). -/

set_option Elab.async false

namespace Sys2Proof.Machine

/-- The part runs with chart 0 in place; a threshold lookup of the gauge and a test lookup of chart 0 have both been asked for, and no
recipe runs. -/
def lookupsMeet : State :=
  { State.reset with
    regs := [(R.PCR_STAT, fldSet F.PCR_STAT.PLLA_LOCK 0 1)]
    pcr := { Pcr.reset with held := none }
    cht := { Cht.reset with charts := [(0, ⟨0, 0, 64⟩)], test := some (0, ⟨List.replicate 64 0, 3 * 4096, none⟩) }
    gau := { Gau.reset with lookup := some ⟨List.replicate 64 0, 3 * 4096, none⟩ } }

theorem lookupsMeet_up : lookupsMeet.islandUp .angle = true := by decide

/-- Before the FCLK the unit has not accepted the threshold lookup. -/
theorem lookupsMeet_waits : lookupsMeet.gau.lookup.bind (·.acc) = none := rfl

/-- The FCLK has it accepted. -/
theorem lookupsMeet_accepted : lookupsMeet.idle.gau.lookup.bind (·.acc) = some (3 * 4096) := by decide +kernel

/-- Refutes O55: an FCLK on an empty queue in which the lookup unit accepts the gauge’s threshold lookup changes the gauge, which the
statement has stay as it is. -/
theorem not_anEmptyQueueLetsAnFclkPass : ¬ Obligations.AnEmptyQueueLetsAnFclkPass := by
  unfold Obligations.AnEmptyQueueLetsAnFclkPass
  rintro ⟨h, -⟩
  obtain ⟨t, ht, hframe, -⟩ := h lookupsMeet rfl lookupsMeet_up
  have hidle : lookupsMeet.idle = t := Host.Outcome.next.inj ((step_nil lookupsMeet rfl).symm.trans ht)
  have hgau : t.gau = lookupsMeet.gau := by simpa only using congrArg State.gau hframe
  have hacc := lookupsMeet_accepted
  rw [hidle, hgau, lookupsMeet_waits] at hacc
  exact Option.some_ne_none _ hacc.symm

end Sys2Proof.Machine
end

section
/-! SUPPORT. What the operations of the blocks leave alone: the clocks, and PCR with its registers. One lemma per operation that an FCLK, a
window, the entry into watch mode or an enumeration calls (for O6 and O7). -/

set_option Elab.async false

namespace Sys2Proof.Machine

/-- What other blocks leave as it was, from a state `s₀` to a later state `s`: the clocks, and the registers of CHIP and PCR (Table 1.4)
with what stands behind them. -/
structure Beside (s₀ s : State) : Prop where
  time : SameTime s₀ s
  pcr : s.pcr = s₀.pcr
  low : ∀ a, a < 0x800 → s.reg a = s₀.reg a

variable {s₀ s t : State}

/-! ### The rules that every proof is made of -/

theorem Beside.refl (s : State) : Beside s s := ⟨⟨rfl, rfl, rfl, rfl, rfl, rfl⟩, rfl, fun _ _ => rfl⟩

theorem SameTime.trans {s t u : State} (h : SameTime s t) (h' : SameTime t u) : SameTime s u := by
  obtain ⟨h1, h2, h3, h4, h5, h6⟩ := h
  obtain ⟨k1, k2, k3, k4, k5, k6⟩ := h'
  exact ⟨k1.trans h1, k2.trans h2, k3.trans h3, k4.trans h4, k5.trans h5, k6.trans h6⟩

theorem Beside.trans {s t u : State} (h : Beside s t) (h' : Beside t u) : Beside s u :=
  ⟨SameTime.trans h.time h'.time, h'.pcr.trans h.pcr, fun a ha => (h'.low a ha).trans (h.low a ha)⟩

/-- An update of other fields. -/
theorem Beside.frame (h : Beside s₀ s) (ht : SameTime s t := by exact ⟨rfl, rfl, rfl, rfl, rfl, rfl⟩) (hp : t.pcr = s.pcr := by rfl)
    (hr : t.regs = s.regs := by rfl) : Beside s₀ t :=
  h.trans ⟨ht, hp, fun a _ => congrArg (cellGet resetOf · a) hr⟩

theorem Beside.get (h : Beside s₀ s) {f : Fld} (hf : f.addr < 0x800) : s.get f = s₀.get f :=
  congrArg (fldGet f) (h.low _ hf)

theorem Beside.ite {c : Prop} {_ : Decidable c} (hs : Beside s₀ s) (ht : Beside s₀ t) : Beside s₀ (if c then s else t) := by
  split
  · exact hs
  · exact ht

/-- `if c then f s else s`, in a chain of updates. -/
theorem Beside.when {c : Prop} {_ : Decidable c} (h : Beside s₀ s) (hf : Beside s₀ s → Beside s₀ t) : Beside s₀ (if c then t else s) :=
  .ite (hf h) h

/-- `if c then s else f s`, in a chain of updates. -/
theorem Beside.unless {c : Prop} {_ : Decidable c} (h : Beside s₀ s) (hf : Beside s₀ s → Beside s₀ t) : Beside s₀ (if c then s else t) :=
  .ite h (hf h)

/-- `if c then f s else g s`, in a chain of updates. -/
theorem Beside.branch {c : Prop} {_ : Decidable c} {u : State} (h : Beside s₀ s) (hf : Beside s₀ s → Beside s₀ t)
    (hg : Beside s₀ s → Beside s₀ u) : Beside s₀ (if c then t else u) :=
  .ite (hf h) (hg h)

theorem Beside.each {α : Type} {l : List α} {f : State → α → State} (h : Beside s₀ s) (hf : ∀ s x, Beside s₀ s → Beside s₀ (f s x)) :
    Beside s₀ (s.each l f) :=
  State.each_keeps (Beside s₀) f hf l s h

/-! ### Registers above PCR -/

/-- A register of a table above PCR. -/
theorem above_pcr {a b : Nat} (h : 0x800 ≤ a) : 0x800 ≤ a + b := Nat.le_add_right_of_le h

theorem Beside.setReg (h : Beside s₀ s) {a : Nat} {v : Word} (ha : 0x800 ≤ a := by decide) : Beside s₀ (s.setReg a v) :=
  h.trans ⟨⟨rfl, rfl, rfl, rfl, rfl, rfl⟩, rfl, fun _ hb => s.reg_setReg_ne (hb.trans_le ha).ne v⟩

theorem Beside.set (h : Beside s₀ s) {f : Fld} {v : Nat} (hf : 0x800 ≤ f.addr := by decide) : Beside s₀ (s.set f v) :=
  h.setReg hf

theorem Beside.mark (h : Beside s₀ s) {a : Nat} {g : Word → Word} : Beside s₀ (s.mark a g) :=
  .ite h.frame h

theorem Beside.evt (h : Beside s₀ s) {f : Fld} (hf : 0x800 ≤ f.addr := by decide) : Beside s₀ (s.evt f) :=
  h.mark.set hf

theorem Beside.evtAt (h : Beside s₀ s) {f : Fld} {i : Nat} (hf : 0x800 ≤ f.addr := by decide) : Beside s₀ (s.evtAt f i) :=
  h.mark.set hf

theorem Beside.evtAdd (h : Beside s₀ s) {f : Fld} {k : Nat} (hf : 0x800 ≤ f.addr := by decide) : Beside s₀ (s.evtAdd f k) :=
  h.mark.set hf

theorem Beside.setBitAt (h : Beside s₀ s) {f : Fld} {i : Nat} {b : Bool} (hf : 0x800 ≤ f.addr := by decide) :
    Beside s₀ (s.setBitAt f i b) :=
  h.set hf

theorem Beside.raise (h : Beside s₀ s) {k : Nat} : Beside s₀ (s.raise k) :=
  .ite h <| .ite h.frame <| .ite h.evtAdd (h.set (above_pcr (by decide)))

theorem Beside.reportSig (h : Beside s₀ s) {g : FaultSig} : Beside s₀ (s.reportSig g) :=
  .ite h <| .ite h.frame h.frame

theorem Beside.standOn (h : Beside s₀ s) {src det : Nat} : Beside s₀ (s.standOn src det) :=
  .ite h h.frame

/-! ### The parts behind the registers -/

theorem Beside.updCht (h : Beside s₀ s) {f : Cht → Cht} : Beside s₀ (s.updCht f) :=
  h.frame

theorem Beside.updGau (h : Beside s₀ s) {f : Gau → Gau} : Beside s₀ (s.updGau f) :=
  h.frame

theorem Beside.updHal (h : Beside s₀ s) {f : Hal → Hal} : Beside s₀ (s.updHal f) :=
  h.frame

theorem Beside.updPor (h : Beside s₀ s) {f : Por → Por} : Beside s₀ (s.updPor f) :=
  h.frame

theorem Beside.updGal (h : Beside s₀ s) {f : Gal → Gal} : Beside s₀ (s.updGal f) :=
  h.frame

theorem Beside.updIrt (h : Beside s₀ s) {f : Irt → Irt} : Beside s₀ (s.updIrt f) :=
  h.frame

theorem Beside.updHost (h : Beside s₀ s) {f : HostPort → HostPort} : Beside s₀ (s.updHost f) :=
  h.frame

theorem Beside.updStc (h : Beside s₀ s) {f : Stc → Stc} : Beside s₀ (s.updStc f) :=
  h.frame

theorem Beside.updTru (h : Beside s₀ s) {f : Tru → Tru} : Beside s₀ (s.updTru f) :=
  h.frame

theorem Beside.updCmp (h : Beside s₀ s) {f : CmpBlk → CmpBlk} : Beside s₀ (s.updCmp f) :=
  h.frame

theorem Beside.report (h : Beside s₀ s) {src det : Nat} : Beside s₀ (s.report src det) :=
  h.reportSig

theorem Beside.standOff (h : Beside s₀ s) {src det : Nat} : Beside s₀ (s.standOff src det) :=
  h.frame

theorem Beside.updHk (h : Beside s₀ s) {c : Nat} {f : Hk → Hk} : Beside s₀ (s.updHk c f) :=
  h.frame

theorem Beside.setHallByte (h : Beside s₀ s) {a : Nat} {b : Byte} : Beside s₀ (s.setHallByte a b) :=
  h.frame

theorem Beside.setHallBytes (h : Beside s₀ s) {a : Nat} {l : List Byte} : Beside s₀ (s.setHallBytes a l) := by
  induction l generalizing s a with
  | nil => exact h
  | cons b t ih => exact ih h.setHallByte

theorem Beside.setNvByte (h : Beside s₀ s) {a : Nat} {b : Byte} : Beside s₀ (s.setNvByte a b) :=
  h.frame

theorem Beside.setNvBytes (h : Beside s₀ s) {a : Nat} {l : List Byte} : Beside s₀ (s.setNvBytes a l) := by
  induction l generalizing s a with
  | nil => exact h
  | cons b t ih => exact ih h.setNvByte

theorem Beside.free (h : Beside s₀ s) : Beside s₀ s.free.2 :=
  h.frame

theorem Beside.freeBytes (h : Beside s₀ s) {n : Nat} : Beside s₀ (s.freeBytes n).2 :=
  h.frame

/-! ### The halls and NVS -/

theorem Beside.eccAddr (h : Beside s₀ s) {unc : Bool} {addr code : Nat} {portB rmw : Bool} :
    Beside s₀ (s.eccAddr unc addr code portB rmw) := by
  unfold State.eccAddr
  exact h.set.set.set.set.set.set.updHal

theorem Beside.eccRecord (h : Beside s₀ s) {nvs unc : Bool} {addr code : Nat} {portB rmw : Bool} {acc det : Nat} :
    Beside s₀ (s.eccRecord nvs unc addr code portB rmw acc det) :=
  ((Beside.ite h.evtAdd.evt h.evtAdd.evt).unless (·.eccAddr)).reportSig

theorem Beside.hallPut (h : Beside s₀ s) {a : Nat} {bs : List Byte} : Beside s₀ (s.hallPut a bs) :=
  h.setHallBytes.frame

theorem Beside.hallWord (h : Beside s₀ s) {m : Master} {a n : Nat} {wr : Option (List Byte)} {portB : Bool} {acc : Nat} :
    Beside s₀ (s.hallWord m a n wr portB acc).1 := by
  unfold State.hallWord
  dsimp only
  split
  · exact h.eccRecord
  · split
    · exact (h.when (·.eccRecord)).hallPut
    · exact (h.when (·.eccRecord)).when (·.updHal)

theorem Beside.hallOp (h : Beside s₀ s) {m : Master} {a n : Nat} {wr : Option (List Byte)} {acc : Nat} :
    Beside s₀ (s.hallOp m a n wr acc).1 := by
  unfold State.hallOp
  dsimp only
  split
  · exact h
  · split
    · exact h.hallWord
    · split
      · exact h.hallWord
      · split
        · exact h.hallWord
        · exact h.hallWord.hallWord

theorem Beside.busEnd (h : Beside s₀ s) {m : Master} {d : List Byte} {bad : Bool} : Beside s₀ (s.busEnd m d bad) :=
  h.updHal

theorem Beside.reqServe (h : Beside s₀ s) {m : Nat} {r : HallReq} {p : Nat} : Beside s₀ (s.reqServe m r p) :=
  ((h.updHal.unless (·.frame)).when (·.updHal)).branch (·.hallWord.busEnd) fun h => .ite h.hallWord.busEnd h.hallWord.updHal

theorem Beside.reqsRefuse (h : Beside s₀ s) {m : Nat} : Beside s₀ (s.reqsRefuse m) :=
  h.each fun _ _ h => h.updHal.busEnd

theorem Beside.hallMclk (h : Beside s₀ s) {m : Nat} : Beside s₀ (s.hallMclk m) :=
  .ite h (((h.reqsRefuse.updHal.each fun _ _ h => h.reqServe).each fun _ _ h => h.reqServe).each fun _ _ h => h.reqServe)

theorem Beside.hallTick (h : Beside s₀ s) : Beside s₀ s.hallTick :=
  .ite h h.hallMclk

theorem Beside.nvPut (h : Beside s₀ s) {p : Nat} {bs : List Byte} : Beside s₀ (s.nvPut p bs) :=
  h.setNvBytes.frame

theorem Beside.nvCut (h : Beside s₀ s) : Beside s₀ s.nvCut := by
  unfold State.nvCut
  split
  · unfold State.nvTorn
    dsimp only
    split
    · exact h.free
    · exact h.free.nvPut
    · exact h.free.frame
  · exact h

theorem Beside.slotCut (h : Beside s₀ s) : Beside s₀ s.slotCut :=
  h.each fun _ _ h => .ite h.nvPut h

/-! ### Variables, charts and the lookup unit -/

theorem Beside.qvStale (h : Beside s₀ s) {q : Nat} : Beside s₀ (s.qvStale q) :=
  .ite ((h.set (above_pcr (by decide))).set (above_pcr (by decide))).raise h

theorem Beside.qvStaleRun (h : Beside s₀ s) : Beside s₀ s.qvStaleRun := by
  unfold State.qvStaleRun
  split
  · exact h
  · exact h.updCht.each fun _ _ h => h.qvStale

theorem Beside.readWords (h : Beside s₀ s) {m : Master} {b : Nat} {l : List Nat} : Beside s₀ (s.readWords m b l).1 := by
  induction l generalizing s with
  | nil => exact h
  | cons i t ih =>
    unfold State.readWords
    dsimp only
    split
    · exact h.hallOp
    · exact ih h.hallOp

theorem Beside.chartLookup (h : Beside s₀ s) {m : Master} {c : Nat} {snap : List Int} : Beside s₀ (s.chartLookup m c snap).1 := by
  unfold State.chartLookup
  split
  · exact h
  · exact h.readWords.evtAdd

theorem Beside.lookTake (h : Beside s₀ s) {i b c : Nat} : Beside s₀ (s.lookTake i b c) := by
  unfold State.lookTake
  exact h.updCht

theorem Beside.lowTake (h : Beside s₀ s) {a : Nat} {tst : Bool} {c : Nat} : Beside s₀ (s.lowTake a tst c) :=
  h.updCht.branch (·.updCht) (·.updGau)

theorem Beside.lookAccept (h : Beside s₀ s) {k : Nat} : Beside s₀ (s.lookAccept k) := by
  induction k generalizing s with
  | zero => exact h
  | succ k ih =>
    unfold State.lookAccept
    split
    · exact .ite (ih h.lowTake) (ih h.lookTake)
    · exact ih h.lookTake
    · exact .ite (ih h.lowTake) h
    · exact h

theorem Beside.testEnd (h : Beside s₀ s) {c : Nat} {snap : List Int} : Beside s₀ (s.testEnd c snap) := by
  unfold State.testEnd
  dsimp only
  split
  · exact h.chartLookup.updCht.set.set.evt
  · exact h.chartLookup.updCht.set.evt

theorem Beside.testRun (h : Beside s₀ s) : Beside s₀ s.testRun := by
  unfold State.testRun
  dsimp only
  split
  · exact h
  · refine .ite h <| .ite (.ite h.testEnd h) ?_
    split
    · exact h.lookAccept.when (·.testEnd)
    · exact h.lookAccept

/-! ### The end of an FCLK in the other blocks -/

theorem Beside.padsNote (h : Beside s₀ s) : Beside s₀ s.padsNote :=
  .ite h h.frame

theorem Beside.bankConfs (h : Beside s₀ s) : Beside s₀ s.bankConfs := by
  refine .ite h (Beside.each h.frame fun _ _ h => ?_)
  split
  · exact h.when (·.evt (above_pcr (above_pcr (by decide))))
  · exact h

theorem Beside.hkFalls (h : Beside s₀ s) : Beside s₀ s.hkFalls :=
  h.each fun _ _ h => h.when (·.updHk)

theorem Beside.leave (h : Beside s₀ s) {i : LaneItem} {d : Nat} : Beside s₀ (s.leave i d) := by
  unfold State.leave
  exact h.updGal

theorem Beside.transitRun (h : Beside s₀ s) : Beside s₀ s.transitRun := by
  unfold State.transitRun
  split
  · exact h
  · exact .ite h.updGal <| .ite h.leave.updGal h

theorem Beside.irqSend (h : Beside s₀ s) {dst sub hid x : Nat} : Beside s₀ (s.irqSend dst sub hid x) :=
  h.updGal

theorem Beside.irqTo (h : Beside s₀ s) {b sub hid x : Nat} : Beside s₀ (s.irqTo b sub hid x) :=
  .ite h.updIrt h.irqSend

theorem Beside.claimServe (h : Beside s₀ s) {b hid : Nat} : Beside s₀ (s.claimServe b hid) := by
  unfold State.claimServe
  split
  · exact (h.set (above_pcr (by decide))).irqTo
  · exact h.irqTo

theorem Beside.claimsRun (h : Beside s₀ s) : Beside s₀ s.claimsRun := by
  unfold State.claimsRun
  split
  · exact h
  · exact h.updIrt.each fun _ _ h => h.claimServe

theorem Beside.winClose (h : Beside s₀ s) {k : Nat} : Beside s₀ (s.winClose k) := by
  unfold State.winClose
  split
  · exact h
  · exact .ite (h.set (above_pcr (by decide))).updPor h

theorem Beside.count (h : Beside s₀ s) {c : CountItem} : Beside s₀ (s.count c) :=
  have hk {k : Nat} : 0x800 ≤ R.POR_CNT k := above_pcr (by decide)
  ((h.winClose.evtAdd hk).branch (·.set hk |>.updPor) (·.set hk)).when (·.evtAt (above_pcr (by decide)) |>.raise.updPor)

theorem Beside.countNext (h : Beside s₀ s) : Beside s₀ s.countNext := by
  unfold State.countNext
  split
  · exact h
  · exact h.updPor.count

theorem Beside.countsRun (h : Beside s₀ s) : Beside s₀ s.countsRun :=
  .ite h ((h.updPor.each fun _ _ h => h.countNext).when (·.updPor))

end Sys2Proof.Machine
end

section
/-! SUPPORT. Watch mode: its windows and rotations, the entry, the count of its ticks, and the wakes (O6). -/

set_option Elab.async false

namespace Sys2Proof.Machine

variable {s₀ s t : State}

/-! ### Windows, rotations and a debug session -/

theorem Beside.updWin (h : Beside s₀ s) {w : Nat} {f : Win → Win} : Beside s₀ (s.updWin w f) :=
  h.updCmp

theorem Beside.zoneNote (h : Beside s₀ s) : Beside s₀ s.zoneNote := by
  unfold State.zoneNote
  exact h.updCmp

theorem Beside.zoneUpdate (h : Beside s₀ s) {w : Nat} : Beside s₀ (s.zoneUpdate w) :=
  .ite h (((h.zoneNote.set (above_pcr (by decide))).when (·.evtAt.raise)).when (·.standOn)).standOff

theorem Beside.winOutputs (h : Beside s₀ s) {w : Nat} {lo hi : Bool} : Beside s₀ (s.winOutputs w lo hi) :=
  ((h.setBitAt (above_pcr (by decide))).setBitAt (above_pcr (by decide))).zoneUpdate

theorem Beside.ladderSpare (h : Beside s₀ s) {r : Nat} {out sample : Bool} : Beside s₀ (s.ladderSpare r out sample) := by
  unfold State.ladderSpare
  exact h.updCmp

theorem Beside.winMode (h : Beside s₀ s) {w m : Nat} : Beside s₀ (s.winMode w m) :=
  h.updWin.unless fun h => .ite h.updWin.winOutputs.ladderSpare.ladderSpare h

theorem Beside.stcInc (h : Beside s₀ s) {kind : Nat} : Beside s₀ (s.stcInc kind) :=
  h.evt.evtAdd.raise.updStc.when (·.report)

theorem Beside.updRot (h : Beside s₀ s) {kind : Nat} {f : Rot → Rot} : Beside s₀ (s.updRot kind f) :=
  h.updStc

theorem Beside.rotIncomplete (h : Beside s₀ s) {kind len : Nat} : Beside s₀ (s.rotDone kind len .incomplete) := by
  have hr : 0x800 ≤ (rotRes kind).addr := by
    unfold rotRes
    split <;> decide
  unfold State.rotDone
  split
  · exact h
  · exact (h.updRot.set hr).stcInc

theorem Beside.rotCut (h : Beside s₀ s) {kind : Nat} : Beside s₀ (s.rotCut kind) := by
  unfold State.rotCut
  refine .rotIncomplete ?_
  split
  · exact h.updRot
  · exact h

theorem Beside.ladderCut (h : Beside s₀ s) : Beside s₀ s.ladderCut := by
  unfold State.ladderCut
  split
  · exact .ite h.updCmp h.updCmp.stcInc
  · exact h

theorem Beside.debugEnd (h : Beside s₀ s) : Beside s₀ s.debugEnd :=
  h.when (·.set.set.raise)

/-! ### Watch mode (R14, R64 to R67) -/

/-- What bars watch mode lies above PCR and in HAL. -/
theorem State.watchBarred_congr (hr : ∀ a, 0x2000 ≤ a → t.reg a = s.reg a) (hh : t.hal = s.hal) : t.watchBarred = s.watchBarred := by
  have hst (n : Nat) : t.get (F.STITCH_STATUS.STATE n) = s.get (F.STITCH_STATUS.STATE n) :=
    congrArg (fldGet _) (hr _ (show 0x2000 ≤ 0x2400 + 8 * n + 6 by omega))
  have hinj (b : Nat) : t.bit (F.INJ_BSTAT.BUSY b) = s.bit (F.INJ_BSTAT.BUSY b) :=
    congrArg (fun w => decide (fldGet (F.INJ_BSTAT.BUSY b) w ≠ 0)) (hr _ (show 0x2000 ≤ 0x3000 + 0x14 + 1 * b by omega))
  simp only [State.watchBarred, State.nvAny, hst, hinj, hh]

/-- The write of PCR_MODE itself bars and frees nothing. -/
theorem State.watchBarred_writeMode (s : State) (src : Master) (v : Word) :
    (s.writeCodes src R.PCR_MODE v).watchBarred = s.watchBarred := by
  refine State.watchBarred_congr (fun a ha => ?_) (by simp)
  have h1 : R.WVL_WLREJ < 0x2000 := by decide
  have h2 : R.PCR_MODE < 0x2000 := by decide
  rw [State.reg_writeCodes _ _ _ _ (h1.trans_le ha).ne', if_neg (h2.trans_le ha).ne']

theorem State.watch_of_running (h : s.running = true) : s.pcr.watch = false := by
  simp [State.running] at h
  exact h.2

theorem exec_watchRequest (h : s.running = true) :
    exec (.watchRequest 0x5A001) s = .next
      (if s.watchBarred then (s.writeCodes .host R.PCR_MODE 0x5A001).evt F.PCR_MODE.REFUSED
        else (s.writeCodes .host R.PCR_MODE 0x5A001).watchEnter) := by
  change Host.Outcome.next (if s.running then s.modeWrite .host 0x5A001 else s) = _
  have hb := s.watchBarred_writeMode .host 0x5A001
  have hw : (s.writeCodes .host R.PCR_MODE 0x5A001).pcr.watch = false := by simp [State.watch_of_running h]
  have hk : (0x5A001 : Word).toNat / 4096 = 0x5A := by decide
  have h0 : bitOf (0x5A001 : Word).toNat 0 = true := by decide
  simp only [h, State.modeWrite, hk, h0, hw, hb, if_true, ne_eq, not_true_eq_false, if_false, Bool.not_false, Bool.and_true]

/-- At the entry windows and rotations change beside PCR, and PCR saves TB and clears the cause. -/
theorem State.watchEnter_beside (s : State) : ∃ u, Beside s u ∧
    Beside ((u.set F.PCR_WAKE.CAUSE 0).updPcr fun p => { p with watch := true, tbSave := u.tb.toNat, watchTicks := 0 }) s.watchEnter :=
  ⟨_, (Beside.refl s).debugEnd.rotCut.rotCut.frame.ladderCut, (Beside.refl _).each fun _ _ h => h.winMode⟩

theorem State.watchEnter_enters (s : State) :
    s.watchEnter.pcr.watch = true ∧ s.watchEnter.pcr.tbSave = s.tb.toNat ∧ s.watchEnter.get F.PCR_WAKE.CAUSE = 0 := by
  obtain ⟨u, hu, ht⟩ := s.watchEnter_beside
  obtain ⟨-, htb, -⟩ := hu.time
  refine ⟨by rw [ht.pcr]; rfl, by rw [ht.pcr, ← htb]; rfl, ?_⟩
  rw [ht.get (by decide)]
  exact u.get_set_self F.PCR_WAKE.CAUSE (by decide) 0

theorem State.islandUp_of_watch (h : s.pcr.watch = true) : s.islandUp .angle = false := by
  simp [State.islandUp, State.running, h]

theorem Beside.porTick (h : Beside s₀ s) : Beside s₀ s.porTick :=
  .ite h.updPor h.updPor

theorem Beside.winDue (h : Beside s₀ s) {w : Nat} : Beside s₀ (s.winDue w) :=
  h.updCmp

theorem exec_watchMtTick (hw : s.pcr.watch = true) (hh : s.pcr.held = none) :
    GoesTo (exec .watchMtTick s) (Beside (s.updPcr fun p => { p with watchTicks := p.watchTicks + 1 })) := by
  change GoesTo (execWatchMtTick s) _
  unfold execWatchMtTick
  rw [hw, hh]
  exact ⟨_, rfl, (Beside.refl _).porTick.each fun _ _ h => h.when (·.winDue)⟩

/-! ### Wakes (R67) -/

/-- A wake is a reset that is held with cause WAKE: TB goes on from the latch, and the wake's own register stays. -/
theorem State.chipReset_wake (s : State) : ∃ t : State, Beside (t.set F.PCR_RSTCAUSE.WAKE 1) (s.chipReset .wake)
    ∧ t.pcr.held = some .wake ∧ t.pcr.watch = false ∧ t.tb = BitVec.ofNat 60 (s.pcr.tbSave + 1000000 * s.pcr.watchTicks)
    ∧ t.reg R.PCR_WAKE = s.reg R.PCR_WAKE := by
  have hcut := (Beside.refl s).nvCut.slotCut
  refine ⟨_, (Beside.refl _).set.set.set.set.set, rfl, rfl, ?_, ?_⟩
  · rw [← hcut.pcr]
    rfl
  · rw [← hcut.low _ (by decide)]
    exact (cellGet_filter resetOf (keptReg .wake) R.PCR_WAKE _).trans (if_pos (by decide))

theorem State.wake_wakes (s : State) {cause : Nat} (hc : cause < 4) :
    (s.wake cause).pcr.held = some .wake ∧ (s.wake cause).pcr.watch = false ∧ (s.wake cause).get F.PCR_WAKE.CAUSE = cause
      ∧ (s.wake cause).get F.PCR_RSTCAUSE.WAKE = 1
      ∧ (s.wake cause).tb = BitVec.ofNat 60 (s.pcr.tbSave + 1000000 * s.pcr.watchTicks) := by
  obtain ⟨w, hw, e⟩ : ∃ w, Beside (s.set F.PCR_WAKE.CAUSE cause) w ∧ s.wake cause = w.chipReset .wake :=
    ⟨_, (Beside.refl _).each fun _ _ h => h.winMode.winMode, rfl⟩
  obtain ⟨t, ht, hheld, hwatch, htb, hreg⟩ := w.chipReset_wake
  obtain ⟨-, htime, -⟩ := ht.time
  rw [e]
  refine ⟨by rw [ht.pcr]; exact hheld, by rw [ht.pcr]; exact hwatch, ?_, ?_, ?_⟩
  · rw [ht.get (by decide), State.get_set_addr _ _ _ (by decide)]
    calc t.get F.PCR_WAKE.CAUSE = w.get F.PCR_WAKE.CAUSE := congrArg (fldGet F.PCR_WAKE.CAUSE) hreg
      _ = (s.set F.PCR_WAKE.CAUSE cause).get F.PCR_WAKE.CAUSE := hw.get (by decide)
      _ = cause % 4 := s.get_set_self F.PCR_WAKE.CAUSE (by decide) cause
      _ = cause := Nat.mod_eq_of_lt hc
  · rw [ht.get (by decide)]
    exact t.get_set_self F.PCR_RSTCAUSE.WAKE (by decide) 1
  · rw [htime]
    exact htb.trans (by rw [hw.pcr]; rfl)

theorem exec_wakePin (hw : s.pcr.watch = true) (hp : s.bit F.PCR_WAKE.PIN_EN = true) : exec .wakePin s = .next (s.wake 1) := by
  change execWakePin s = _
  simp only [execWakePin, hw, hp, Bool.and_self, if_true]

theorem exec_wakeTimer (hw : s.pcr.watch = true) (hen : s.bit F.PCR_WAKE.TMR_EN = true) (hn : s.get F.PCR_WTIMER ≠ 0)
    (hd : s.get F.PCR_WTIMER ≤ s.pcr.watchTicks) : exec .wakeTimer s = .next (s.wake 3) := by
  change execWakeTimer s = _
  simp only [execWakeTimer, hw, hen, hn, hd, decide_true, ne_eq, not_false_eq_true, Bool.and_self, if_true]

/-- Settles O6: beside what PCR itself does, entry, tick and wake change other blocks only. -/
theorem watchModeEntersCountsAndWakes : Obligations.WatchModeEntersCountsAndWakes := by
  unfold Obligations.WatchModeEntersCountsAndWakes
  refine ⟨fun s hr hb => ?_, fun s hr hb => ?_, fun s hw hh => ?_, fun s hw hp => ?_, fun s hw hen hn hd => ?_⟩
  · obtain ⟨hwatch, htb, hcause⟩ := (s.writeCodes .host R.PCR_MODE 0x5A001).watchEnter_enters
    rw [exec_watchRequest hr, if_neg (by simp [hb])]
    exact ⟨_, rfl, hwatch, htb.trans (by simp), hcause, State.islandUp_of_watch hwatch⟩
  · rw [exec_watchRequest hr, if_pos hb]
    exact ⟨_, rfl, by simp [State.watch_of_running hr], State.get_evt _ F.PCR_MODE.REFUSED (by decide) (by decide)⟩
  · obtain ⟨t, e, ht⟩ := exec_watchMtTick hw hh
    exact ⟨t, e, by rw [ht.pcr]; rfl, by rw [ht.pcr]; exact hw⟩
  · obtain ⟨hheld, hwatch, hcause, hrst, htb⟩ := s.wake_wakes (cause := 1) (by decide)
    exact ⟨_, exec_wakePin hw hp, hheld, hwatch, hcause, hrst, htb⟩
  · obtain ⟨hheld, -, hcause, hrst, -⟩ := s.wake_wakes (cause := 3) (by decide)
    exact ⟨_, exec_wakeTimer hw hen hn hd, hheld, hcause, hrst⟩

end Sys2Proof.Machine
end

section
/-! SUPPORT. Time: an FCLK of an empty queue, the MT tick that every island takes, and the wrap of TB (O7). -/

set_option Elab.async false

namespace Sys2Proof.Machine

variable {s₀ s t : State}

/-! ### An FCLK (R13, R291) -/

theorem State.tb_tbAdvance_one (s : State) : (s.tbAdvance 1).tb = s.tb + 1 := by
  apply BitVec.eq_of_toNat_eq
  simp [State.tbAdvance]

/-- A tick becomes due where TB comes to a multiple of the tick's period, its wrap included. -/
theorem State.mtDue_tbAdvance_one (s : State) :
    (s.tbAdvance 1).mtDue = s.mtDue + if (s.tb.toNat + 1) % 1000000 = 0 ∨ s.tb.toNat + 1 = 2 ^ 60 then 1 else 0 := by
  have hlt := s.tb.isLt
  have hdue : ((decide ((s.tb.toNat + 1) / 1000000 ≠ s.tb.toNat / 1000000) || decide (2 ^ 60 ≤ s.tb.toNat + 1)) = true)
      ↔ ((s.tb.toNat + 1) % 1000000 = 0 ∨ s.tb.toNat + 1 = 2 ^ 60) := by
    rw [Bool.or_eq_true, decide_eq_true_eq, decide_eq_true_eq]
    omega
  exact (if_congr hdue rfl rfl).trans (by split <;> rfl)

/-- What an FCLK brings: TB advances, FCLK counts, and the rest happens beside the clocks. -/
theorem State.passFclk_beside (s : State) (k : Nat) :
    ∃ u, Beside s u ∧ Beside { u.tbAdvance k with fclk := s.fclk + 1 } (s.passFclk k) :=
  ⟨_, (Beside.refl s).qvStaleRun.padsNote,
    (Beside.refl _).bankConfs.hallTick.testRun.hkFalls.transitRun.claimsRun.countsRun⟩

theorem State.time_passFclk_one (s : State) :
    (s.passFclk 1).fclk = s.fclk + 1 ∧ (s.passFclk 1).tb = s.tb + 1
      ∧ (s.passFclk 1).mtDue = s.mtDue + if (s.tb.toNat + 1) % 1000000 = 0 ∨ s.tb.toNat + 1 = 2 ^ 60 then 1 else 0 := by
  obtain ⟨u, hu, ht⟩ := s.passFclk_beside 1
  obtain ⟨-, htb, hmt, -⟩ := hu.time
  obtain ⟨tfclk, ttb, tmt, -⟩ := ht.time
  refine ⟨tfclk, ttb.trans ?_, tmt.trans ?_⟩
  · rw [← htb]
    exact u.tb_tbAdvance_one
  · rw [← htb, ← hmt]
    exact u.mtDue_tbAdvance_one

theorem step_of_idle_up (hp : s.pending = []) (h : s.islandUp .angle = true) : step s = .next (s.passFclk 1) := by
  rw [step_nil s hp, State.idle, if_pos h]

theorem step_of_idle_down (hp : s.pending = []) (h : s.islandUp .angle = false) : step s = .next s := by
  rw [step_nil s hp, State.idle, if_neg (by simp [h])]

/-! ### The MT tick (R13) -/

/-- Two states hold the same parts of those that take an MT tick last: HOOK, halls, self-test, Gallery, and TB with its ticks due. -/
structure SameTickers (s t : State) : Prop where
  hook : t.hook = s.hook
  hal : t.hal = s.hal
  stc : t.stc = s.stc
  gal : t.gal = s.gal
  tb : t.tb = s.tb
  mtDue : t.mtDue = s.mtDue

theorem SameTickers.refl (s : State) : SameTickers s s := ⟨rfl, rfl, rfl, rfl, rfl, rfl⟩

theorem SameTickers.winDue (h : SameTickers s₀ s) {w : Nat} : SameTickers s₀ (s.winDue w) :=
  ⟨h.hook, h.hal, h.stc, h.gal, h.tb, h.mtDue⟩

theorem SameTickers.inc (h : SameTickers s₀ s) {f : Fld} : SameTickers s₀ (s.inc f) :=
  ⟨h.hook, h.hal, h.stc, h.gal, h.tb, h.mtDue⟩

/-- A fold in which each element acts or does nothing. -/
theorem SameTickers.each {α : Type} {l : List α} {c : State → α → Bool} {f : State → α → State} (h : SameTickers s₀ s)
    (hf : ∀ s x, SameTickers s₀ s → SameTickers s₀ (f s x)) : SameTickers s₀ (s.each l fun s x => if c s x then f s x else s) := by
  refine State.each_keeps (SameTickers s₀) _ (fun s x hs => ?_) l s h
  split
  · exact hf s x hs
  · exact hs

theorem SameTickers.qvTick (h : SameTickers s₀ s) : SameTickers s₀ s.qvTick :=
  have ⟨h1, h2, h3, h4, h5, h6⟩ := h.each (l := s.cht.qmap)
    (c := fun _ e => decide (1 ≤ e.2.kind) && decide (e.2.kind ≤ 7) && e.2.age ≠ 0) fun _ e h => h.inc (f := F.CHT_QVS.AGECNT (e.1 % 64))
  ⟨h1, h2, h3, h4, h5, h6⟩

theorem SameTickers.porTick (h : SameTickers s₀ s) : SameTickers s₀ s.porTick := by
  unfold State.porTick
  split
  · exact ⟨h.hook, h.hal, h.stc, h.gal, h.tb, h.mtDue⟩
  · exact ⟨h.hook, h.hal, h.stc, h.gal, h.tb, h.mtDue⟩

theorem SameTickers.set (h : SameTickers s₀ s) {f : Fld} {x : Nat} : SameTickers s₀ (s.set f x) :=
  ⟨h.hook, h.hal, h.stc, h.gal, h.tb, h.mtDue⟩

theorem SameTickers.updTru (h : SameTickers s₀ s) {f : Tru → Tru} : SameTickers s₀ (s.updTru f) :=
  ⟨h.hook, h.hal, h.stc, h.gal, h.tb, h.mtDue⟩

theorem SameTickers.truTick (h : SameTickers s₀ s) : SameTickers s₀ s.truTick := by
  unfold State.truTick
  dsimp only
  split
  · exact h.updTru.set
  · exact h.updTru

/-- The windows whose source is MT come due and the variables age. -/
def State.tickWindows (s : State) : State :=
  (s.each (List.range 12) fun s w => if !s.bit (F.CMP_WCFG.TSRC w) && s.winSampled w then s.winDue w else s).qvTick

theorem SameTickers.tickWindows (h : SameTickers s₀ s) : SameTickers s₀ s.tickWindows :=
  (h.each (c := fun s w => !s.bit (F.CMP_WCFG.TSRC w) && s.winSampled w) (f := State.winDue) fun _ _ h => h.winDue).qvTick

/-- The log writer and the NVS reading note a tick, then the budgets. -/
def State.tickNoted (s : State) : State :=
  let t := (s.updHal fun h => { h with logDue := true }).updStc fun x => { x with nvDue := x.nvDue + 1 }
  { t with hook := { t.hook with due := true } }

/-- The pending section, Porter and trust see the tick. -/
def State.tickLate (s : State) : State :=
  (if s.wvl.hot.isEmpty then s else s.updWvl fun w => { w with hotTick := true }).porTick.truTick

theorem SameTickers.tickLate (h : SameTickers s₀ s) : SameTickers s₀ s.tickLate := by
  refine SameTickers.truTick (SameTickers.porTick ?_)
  split
  · exact h
  · exact ⟨h.hook, h.hal, h.stc, h.gal, h.tb, h.mtDue⟩

/-- What stands of a tick once all have seen it. -/
theorem SameTickers.noted {u v : State} (hu : SameTickers s u) (hv : SameTickers u.tickNoted v) :
    v.mtDue = s.mtDue ∧ v.hook.due = true ∧ v.hal.logDue = true ∧ v.stc.nvDue = s.stc.nvDue + 1 ∧ v.gal = s.gal ∧ v.tb = s.tb := by
  simp [State.tickNoted, State.updHal, State.updStc, hv.mtDue, hv.hook, hv.hal, hv.stc, hv.gal, hv.tb, hu.mtDue, hu.stc, hu.gal, hu.tb]

/-- A tick that is due is taken by every island in turn. -/
theorem exec_mtTick (hd : s.mtDue ≠ 0) (hr : s.running = true) :
    exec .mtTick s = .next ((State.tickWindows { s with mtDue := s.mtDue - 1 }).tickNoted.tickLate.updGal
      fun g => { g with ticks := g.ticks + 1 }) := by
  change execMtTick s = _
  unfold execMtTick
  rw [if_neg (by simp [hd, hr])]
  rfl

/-! ### The wrap (R353, R460) -/

theorem Beside.hostAnswer (h : Beside s₀ s) {code : Nat} {d : List Byte} : Beside s₀ (s.hostAnswer code d) :=
  h.updHost

theorem Beside.reqDead (h : Beside s₀ s) {r : GalReq} : Beside s₀ (s.reqDead r) :=
  h.evtAdd.raise.report.updGal.when (·.hostAnswer)

theorem Beside.nmTake (h : Beside s₀ s) {nm : List Byte} : Beside s₀ (s.nmTake nm) := by
  unfold State.nmTake
  exact (h.each fun _ _ h => h.reqDead).updGal

theorem Beside.htabSet (h : Beside s₀ s) {hid b reg prio slot : Nat} : Beside s₀ (s.htabSet hid b reg prio slot) :=
  have ha : 0x800 ≤ R.IRT_HTAB hid := above_pcr (by decide)
  ((((h.set ha).set ha).set ha).set ha).set ha

theorem Beside.htabTake (h : Beside s₀ s) {hid b reg prio slot : Nat} : Beside s₀ (s.htabTake hid b reg prio slot) :=
  .ite (.ite h <| .ite h.htabSet (h.setReg (above_pcr (by decide)))) <| .ite (h.when (·.updIrt)).htabSet h

theorem Beside.hostShow (h : Beside s₀ s) {hid reg : Nat} : Beside s₀ (s.hostShow hid reg) :=
  (h.htabTake.when (·.set)).unless (·.irqSend)

theorem Beside.hostNumbered (h : Beside s₀ s) {old : Nat} : Beside s₀ (s.hostNumbered old) :=
  (h.when (·.setReg (above_pcr (by decide)))).branch (·.hostShow) fun h => .ite h.hostShow h

theorem Beside.bayTake (h : Beside s₀ s) {n : Nat} : Beside s₀ (s.bayTake n) :=
  .ite h h.set.hostNumbered

theorem Beside.passBegin (h : Beside s₀ s) {p : EnumPass} {k : Nat} {body : List Byte} : Beside s₀ (s.passBegin p k body) := by
  unfold State.passBegin
  exact h.updGal

/-- A full enumeration begins its MEASURE pass in the present FCLK. -/
theorem State.fullEnum_begins (s : State) : Beside s s.fullEnum ∧ s.fullEnum.gal.pass = some (.measure, s.fclk) := by
  obtain ⟨u, body, hu, e⟩ : ∃ u body, Beside s u ∧ s.fullEnum = u.passBegin .measure 1 body :=
    ⟨_, _, (Beside.refl s).freeBytes.bayTake.nmTake.set.updGal, rfl⟩
  obtain ⟨hfclk, -⟩ := hu.time
  rw [e]
  exact ⟨hu.passBegin, congrArg (fun f => some (EnumPass.measure, f)) hfclk⟩

theorem exec_tbWrap (h : s.wrapDue = true) :
    exec .tbWrap s = .next (if s.enumMay then State.fullEnum { s with wrapDue := false } else { s with wrapDue := false }) := by
  change execTbWrap s = _
  unfold execTbWrap
  rw [if_pos h]
  rfl

/-- Settles O7: an FCLK counts TB beside all it brings, and the tick and the wrap are each taken once. -/
theorem ticksAndWrapsAreTaken : Obligations.TicksAndWrapsAreTaken := by
  unfold Obligations.TicksAndWrapsAreTaken
  refine ⟨fun s hp h => ⟨_, step_of_idle_up hp h, s.time_passFclk_one⟩, fun s hp h => step_of_idle_down hp h, fun s hd hr => ?_,
    fun s h => ?_⟩
  · obtain ⟨hmt, hhook, hlog, hnv, hgal, htb⟩ := (SameTickers.refl { s with mtDue := s.mtDue - 1 }).tickWindows.noted (SameTickers.refl _).tickLate
    exact ⟨_, exec_mtTick hd hr, hmt, hhook, hlog, hnv, congrArg (·.ticks + 1) hgal, htb⟩
  · rw [exec_tbWrap h]
    by_cases hm : s.enumMay = true
    · obtain ⟨hb, hpass⟩ := State.fullEnum_begins { s with wrapDue := false }
      obtain ⟨-, -, -, hwrap, -⟩ := hb.time
      rw [if_pos hm]
      exact ⟨_, rfl, hwrap, fun _ => hpass⟩
    · rw [if_neg hm]
      exact ⟨_, rfl, rfl, fun hm' => absurd hm' hm⟩

end Sys2Proof.Machine
end

section
/-! SUPPORT. Chip-level resets and the boot step that a release begins: what a reset keeps, and what boot step 1 leaves alone (O2). -/

set_option Elab.async false

namespace Sys2Proof.Machine

variable {s₀ s : State}

/-- A field keeps its value when one that it does not overlap is set. -/
theorem State.get_set_apart (s : State) (f g : Fld) (hf : f.lo + f.len ≤ 20)
    (h : g.addr = f.addr → f.lo + f.len ≤ g.lo ∨ g.lo + g.len ≤ f.lo) (v : Nat) : (s.set f v).get g = s.get g := by
  by_cases ha : g.addr = f.addr
  · exact s.get_set_disj f g ha hf (h ha) v
  · exact s.get_set_addr f g ha v

/-! ### What a chip-level reset keeps (R56, Table 3.3) -/

@[simp] theorem State.setNvBytes_regs (s : State) (a : Nat) (l : List Byte) : (s.setNvBytes a l).regs = s.regs := by
  induction l generalizing s a with
  | nil => rfl
  | cons b l ih => exact ih (s.setNvByte a b) (a + 1)

@[simp] theorem State.nvPut_regs (s : State) (p : Nat) (bs : List Byte) : (s.nvPut p bs).regs = s.regs :=
  s.setNvBytes_regs (32 * p) bs

@[simp] theorem State.nvCut_regs (s : State) : s.nvCut.regs = s.regs := by
  unfold State.nvCut State.nvTorn
  split
  · dsimp only
    split
    · rfl
    · exact State.nvPut_regs _ _ _
    · rfl
  · rfl

@[simp] theorem State.slotCut_regs (s : State) : s.slotCut.regs = s.regs := by
  refine State.each_keeps (fun t => t.regs = s.regs) _ (fun t i ht => ?_) _ s rfl
  split
  · rw [State.nvPut_regs, ht]
  · exact ht

/-- A reset that is held says its kind; NRST from outside stays as it was, and the Karek drives NRST at a Porter reset alone (R32). -/
theorem State.pcr_chipReset (s : State) (k : ResetKind) :
    (s.chipReset k).pcr.held = some k ∧ (s.chipReset k).pcr.nrstLow = s.pcr.nrstLow
      ∧ (s.chipReset k).pcr.drive = decide (k = .porter) := by
  have hcut := (Beside.refl s).nvCut.slotCut.pcr
  have hlow : s.nvCut.slotCut.pcr.nrstLow = s.pcr.nrstLow := by rw [hcut]
  cases k <;> exact ⟨rfl, hlow, rfl⟩

theorem State.reg_nvCut_slotCut (s : State) (a : Nat) : s.nvCut.slotCut.reg a = s.reg a := by
  simp [State.reg]

/-- Beside its cause and the supplies' levels, a reset other than power-on and wake leaves in the kept registers what stood there, and
puts the Porter's count back except at NRST. -/
theorem State.chipReset_eq (s : State) {k : ResetKind} (hp : k ≠ .powerOn) (hw : k ≠ .wake) :
    ∃ (t : State) (below lock lim : Nat),
      s.chipReset k =
        (let u := ((t.set (causeFld k) 1).set F.PCR_VSTAT.BELOW below).set F.PCR_VSTAT.LOCKOUT lock
         if k = .nrst then u else (u.set F.POR_STAT.RSTCNT (s.get F.POR_STAT.RSTCNT)).set F.POR_STAT.LIMIT lim)
      ∧ ∀ a, keptReg k a = true → t.reg a = s.reg a := by
  have hrst : s.nvCut.slotCut.get F.POR_STAT.RSTCNT = s.get F.POR_STAT.RSTCNT :=
    congrArg (fldGet F.POR_STAT.RSTCNT) (s.reg_nvCut_slotCut _)
  rw [← hrst]
  exact ⟨_, _, _, _, (if_neg hp).trans (if_neg hw), fun a ha =>
    ((cellGet_filter resetOf (keptReg k) a _).trans (if_pos ha)).trans (s.reg_nvCut_slotCut a)⟩

theorem causeFld_addr (k : ResetKind) : (causeFld k).addr = R.PCR_RSTCAUSE := by
  cases k <;> rfl

theorem causeFld_fits (k : ResetKind) : (causeFld k).lo + (causeFld k).len ≤ 20 := by
  cases k <;> decide

theorem causeFld_len (k : ResetKind) : (causeFld k).len = 1 := by
  cases k <;> rfl

theorem keptReg_rstcause {k : ResetKind} (hp : k ≠ .powerOn) : keptReg k R.PCR_RSTCAUSE = true := by
  simp [keptReg, hp]

/-- PCR_RSTCAUSE takes the reset's own bit and keeps the others (R56, Table 3.8). -/
theorem State.reg_rstcause_chipReset (s : State) {k : ResetKind} (hp : k ≠ .powerOn) (hw : k ≠ .wake) :
    (s.chipReset k).reg R.PCR_RSTCAUSE = fldSet (causeFld k) (s.reg R.PCR_RSTCAUSE) 1 := by
  obtain ⟨t, below, lock, lim, e, hkept⟩ := s.chipReset_eq hp hw
  have hset : (t.set (causeFld k) 1).reg R.PCR_RSTCAUSE = fldSet (causeFld k) (s.reg R.PCR_RSTCAUSE) 1 := by
    rw [State.set, causeFld_addr, State.reg_setReg_self, hkept _ (keptReg_rstcause hp)]
  have hb : R.PCR_RSTCAUSE ≠ F.PCR_VSTAT.BELOW.addr := by decide
  have hl : R.PCR_RSTCAUSE ≠ F.PCR_VSTAT.LOCKOUT.addr := by decide
  rw [e]
  dsimp only
  split
  · rw [State.reg_set _ _ _ _ hl, State.reg_set _ _ _ _ hb, hset]
  · rw [State.reg_set _ F.POR_STAT.LIMIT _ _ (by decide), State.reg_set _ F.POR_STAT.RSTCNT _ _ (by decide),
      State.reg_set _ _ _ _ hl, State.reg_set _ _ _ _ hb, hset]

theorem State.get_causeFld_chipReset (s : State) (k : ResetKind) (hp : k ≠ .powerOn := by decide) (hw : k ≠ .wake := by decide) :
    (s.chipReset k).get (causeFld k) = 1 := by
  rw [State.get, causeFld_addr, s.reg_rstcause_chipReset hp hw, fldGet_fldSet_self _ (causeFld_fits k), causeFld_len]
  rfl

theorem State.get_otherCause_chipReset (s : State) (k : ResetKind) {f : Fld} (ha : f.addr = R.PCR_RSTCAUSE)
    (h : (causeFld k).lo + (causeFld k).len ≤ f.lo ∨ f.lo + f.len ≤ (causeFld k).lo) (hp : k ≠ .powerOn := by decide)
    (hw : k ≠ .wake := by decide) : (s.chipReset k).get f = s.get f := by
  rw [State.get, State.get, ha, s.reg_rstcause_chipReset hp hw, fldGet_fldSet_disj _ _ (causeFld_fits k) h]

/-- A Porter reset begins without counting itself: the count is raised by the reaction that calls for it (R414, R419). -/
theorem State.get_rstcnt_chipReset_porter (s : State) : (s.chipReset .porter).get F.POR_STAT.RSTCNT = s.get F.POR_STAT.RSTCNT := by
  obtain ⟨t, below, lock, lim, e, -⟩ := s.chipReset_eq (k := .porter) (by decide) (by decide)
  rw [e, if_neg (by decide), State.get_set_disj _ F.POR_STAT.LIMIT F.POR_STAT.RSTCNT rfl (by decide) (by decide),
    State.get_set_self _ _ (by decide)]
  exact Nat.mod_eq_of_lt (s.get_lt F.POR_STAT.RSTCNT)

/-! ### Commands that begin a reset (R32, R49, R366, R419) -/

theorem exec_nrstAssert (hp : s.pcr.held ≠ some .powerOn) (hq : s.pcr.held ≠ some .porter) :
    exec .nrstAssert s = .next ((s.updPcr fun p => { p with nrstLow := true }).chipReset .nrst) := by
  change execNrstAssert s = _
  unfold execNrstAssert
  dsimp only
  split
  case h_1 h => exact absurd h hp
  case h_2 h => exact absurd h hq
  case h_3 => rfl

theorem exec_galleryReset {f : Nat} (hr : s.running = true) (hf : s.gal.resetT = some f) (hd : f + 400 ≤ s.fclk) :
    exec .galleryReset s = .next (s.chipReset .gallery) := by
  change execGalleryReset s = _
  simp only [execGalleryReset, hf, hr, hd, decide_true, Bool.and_self, if_true]

/-- Without an entry of its own, and before LOCKED, a register takes every WL bit (R79, Table 18.1). -/
theorem State.wlAllow_of_open {a : Nat} (hl : s.limitOf a = none) (h : s.life < 2) (src : Master) (v : Nat) :
    s.wlAllow src a v = 0xFFFFF := by
  cases src <;> simp [State.wlAllow, hl, h]

theorem State.porCmd_chiprst (hl : s.limitOf R.POR_CMD = none) (h : s.life < 2) (src : Master) : s.porCmd src 0x96002 = (2, s) := by
  simp [State.porCmd, State.wlActs, State.wlBlocked, State.wlAllow_of_open hl h]

theorem exec_chiprst (hm : s.islandUp .management = true) (hl : s.limitOf R.POR_CMD = none) (h : s.life < 2) (src : Master) :
    exec (.chiprst src) s = .next (s.chipReset .porter) := by
  change execChiprst src s = _
  simp only [execChiprst, hm, State.porCmd_chiprst hl h, if_true]

/-! ### Boot step 1 beside CHIP and PCR (R59, R306, R307, R316, R390) -/

theorem Beside.nvScan (h : Beside s₀ s) {a b : Nat} : Beside s₀ (s.nvScan a b) :=
  h.each fun _ _ h => h.eccRecord

theorem Beside.hallFill (h : Beside s₀ s) : Beside s₀ s.hallFill :=
  h.frame

theorem Beside.repairMap (h : Beside s₀ s) : Beside s₀ s.repairMap :=
  h.nvScan.updHal.each fun _ _ h =>
    ((h.set (above_pcr (by decide))).set (above_pcr (by decide))).set (above_pcr (by decide))

theorem Beside.logSearch (h : Beside s₀ s) : Beside s₀ s.logSearch := by
  unfold State.logSearch
  dsimp only
  split
  · exact h.nvScan.set.updHal
  · exact h.nvScan.set.updHal

theorem Beside.truShow (h : Beside s₀ s) {r : TrustRec} : Beside s₀ (s.truShow r) :=
  h.set.set.set

theorem Beside.idShow (h : Beside s₀ s) {pub : List Byte} : Beside s₀ (s.idShow pub) :=
  ((h.each fun _ _ h => h.set (above_pcr (by decide))).each fun _ _ h => h.set (above_pcr (by decide))).set

theorem Beside.chalDraw (h : Beside s₀ s) : Beside s₀ s.chalDraw :=
  .ite h.freeBytes.updTru (h.freeBytes.each fun _ _ h => h.set (above_pcr (by decide))).updTru

theorem Beside.truBoot (h : Beside s₀ s) {rootOk : Bool} : Beside s₀ (s.truBoot rootOk) := by
  unfold State.truBoot
  extract_lets s1 s2 s3 s4 s5
  have h2 : Beside s₀ s2 := by
    unfold s2
    split
    · exact h.nvScan.truShow.updTru
    · exact h.nvScan.truShow.updTru
  have h4 : Beside s₀ s4 := (h2.set.updTru).unless (·.report)
  have h5 : Beside s₀ s5 := by
    unfold s5
    split
    · exact h4.idShow
    · exact h4.when (·.report)
  exact h5.chalDraw

theorem Beside.slotsShow (h : Beside s₀ s) : Beside s₀ s.slotsShow :=
  h.each fun _ _ h => h.nvScan.branch (fun h => (h.setReg (above_pcr (by decide))).set (above_pcr (by decide)))
    fun h => (h.setReg (above_pcr (by decide))).set (above_pcr (by decide))

/-! ### After the fill no operation of boot step 1 writes a hall (R306) -/

theorem State.each_halls {α : Type} {f : State → α → State} (hf : ∀ s x, (f s x).halls = s.halls) (s : State) (l : List α) :
    (s.each l f).halls = s.halls :=
  State.each_keeps (fun t => t.halls = s.halls) f (fun t x h => (hf t x).trans h) l s rfl

@[simp] theorem State.eccAddr_halls (s : State) (unc : Bool) (addr code : Nat) (portB rmw : Bool) :
    (s.eccAddr unc addr code portB rmw).halls = s.halls := by
  unfold State.eccAddr
  simp only [State.updHal_halls, State.setB_halls, State.set_halls]

@[simp] theorem State.eccRecord_halls (s : State) (nvs unc : Bool) (addr code : Nat) (portB rmw : Bool) (acc det : Nat) :
    (s.eccRecord nvs unc addr code portB rmw acc det).halls = s.halls := by
  simp [State.eccRecord, apply_ite State.halls]

@[simp] theorem State.nvScan_halls (s : State) (a b : Nat) : (s.nvScan a b).halls = s.halls :=
  State.each_halls (fun s e => by simp) s _

@[simp] theorem State.repairMap_halls (s : State) : s.repairMap.halls = s.halls :=
  (State.each_halls (fun s h => by simp) _ _).trans (by simp)

@[simp] theorem State.logSearch_halls (s : State) : s.logSearch.halls = s.halls := by
  unfold State.logSearch
  dsimp only
  split
  · simp
  · simp

@[simp] theorem State.truShow_halls (s : State) (r : TrustRec) : (s.truShow r).halls = s.halls := by
  simp only [State.truShow, State.set_halls]

@[simp] theorem State.idShow_halls (s : State) (pub : List Byte) : (s.idShow pub).halls = s.halls := by
  simp [State.idShow, State.each_halls]

@[simp] theorem State.chalDraw_halls (s : State) : s.chalDraw.halls = s.halls := by
  unfold State.chalDraw
  split
  · rfl
  · simp [State.chalSet, State.each_halls, State.freeBytes]

@[simp] theorem State.truBoot_halls (s : State) (rootOk : Bool) : (s.truBoot rootOk).halls = s.halls := by
  unfold State.truBoot
  extract_lets s1 s2 s3 s4 s5
  have h2 : s2.halls = s.halls := by
    unfold s2
    split
    · simp [s1]
    · simp [s1]
  have h3 : s3.halls = s.halls := by simp [s3, h2]
  have h4 : s4.halls = s.halls := by
    unfold s4
    split
    · exact h3
    · simp [h3]
  have h5 : s5.halls = s.halls := by
    unfold s5
    split
    · simp [h4]
    · split
      · simp [h4]
      · exact h4
  simp [h5]

@[simp] theorem State.slotsShow_halls (s : State) : s.slotsShow.halls = s.halls := by
  refine State.each_halls (fun s i => ?_) s _
  dsimp only
  split
  · simp
  · simp

@[simp] theorem State.xinCheck_halls (s : State) (count : Nat) : (s.xinCheck count).halls = s.halls := by
  unfold State.xinCheck
  split_ifs <;> rfl

/-! ### The release of the internal reset (R35, R49, R59) -/

/-- The straps after a release from a reset of kind `k` with the samples `m`, `b1` and `b0`: power-on and NRST sample them (R35). -/
def State.strapsLatched (s : State) (k : ResetKind) (m b1 b0 : BitVec 3) : State :=
  if k = .powerOn || k = .nrst then
    ((s.set F.CHIP_STRAP.MSTR (majority m)).set F.CHIP_STRAP.BOOT (2 * majority b1 + majority b0)).setB F.CHIP_STRAP.SRC_NRST (k = .nrst)
  else s

/-- What boot step 1 does once it has begun: fill, repairs, log, trust, slots and the reference check (R59). -/
def State.bootStep1 (s : State) (xin : Nat) (root : Bool) : State :=
  (((s.hallFill.repairMap.logSearch.truBoot root).bootEff).slotsShow).xinCheck xin

theorem exec_internalResetRelease {k : ResetKind} (hk : s.pcr.held = some k) (hn : s.pcr.nrstLow = false) (hd : s.pcr.drive = false)
    (m b1 b0 : BitVec 3) (xin : Nat) (root : Bool) :
    exec (.internalResetRelease m b1 b0 xin root) s
      = .next ((((s.strapsLatched k m b1 b0).updPcr fun p => { p with held := none }).set F.PCR_STAT.BOOTSTEP 1).bootStep1 xin root) := by
  change execInternalResetRelease m b1 b0 xin root s = _
  simp only [execInternalResetRelease, hk, hn, hd, Bool.or_self, Bool.false_eq_true, if_false]
  rfl

theorem majority_le_one (b : BitVec 3) : majority b ≤ 1 := by
  unfold majority
  split
  · exact le_refl 1
  · exact Nat.zero_le 1

theorem State.straps_of_latched (s : State) {k : ResetKind} (hk : k = .powerOn ∨ k = .nrst) (m b1 b0 : BitVec 3) :
    (s.strapsLatched k m b1 b0).get F.CHIP_STRAP.MSTR = majority m
      ∧ (s.strapsLatched k m b1 b0).get F.CHIP_STRAP.BOOT = 2 * majority b1 + majority b0 := by
  have hm := majority_le_one m
  have hb1 := majority_le_one b1
  have hb0 := majority_le_one b0
  rw [State.strapsLatched, if_pos (by simpa using hk), State.setB]
  constructor
  · rw [State.get_set_disj _ F.CHIP_STRAP.SRC_NRST F.CHIP_STRAP.MSTR rfl (by decide) (by decide),
      State.get_set_disj _ F.CHIP_STRAP.BOOT F.CHIP_STRAP.MSTR rfl (by decide) (by decide), State.get_set_self _ _ (by decide)]
    exact Nat.mod_eq_of_lt (show majority m < 2 by omega)
  · rw [State.get_set_disj _ F.CHIP_STRAP.SRC_NRST F.CHIP_STRAP.BOOT rfl (by decide) (by decide), State.get_set_self _ _ (by decide)]
    exact Nat.mod_eq_of_lt (show 2 * majority b1 + majority b0 < 4 by omega)

/-- The reference check names the reference in PCR_STAT, and waits on SOSC at most. -/
theorem State.get_xinCheck (s : State) (count : Nat) {f : Fld} (h : f.addr = R.PCR_STAT → 2 ≤ f.lo) :
    (s.xinCheck count).get f = s.get f := by
  unfold State.xinCheck
  split_ifs
  · exact s.get_set_apart F.PCR_STAT.REFSRC f (by decide) (fun ha => .inl (h ha)) 1
  · rfl
  · rfl

theorem State.held_xinCheck (s : State) (count : Nat) : (s.xinCheck count).pcr.held = s.pcr.held := by
  unfold State.xinCheck
  split_ifs <;> rfl

theorem State.get_bootEff (s : State) {f : Fld} (h : f.addr = R.CHIP_STRAP → f.lo + f.len ≤ 3) : s.bootEff.get f = s.get f :=
  s.get_set_apart F.CHIP_STRAP.BOOT_EFF f (by decide) (fun ha => .inr (h ha)) _

/-- In CHIP and PCR boot step 1 writes BOOT_EFF and the reference alone; it holds no reset, and leaves every hall filled. -/
theorem State.bootStep1_keeps (s : State) (xin : Nat) (root : Bool) :
    (s.bootStep1 xin root).pcr.held = s.pcr.held ∧ (s.bootStep1 xin root).halls = []
      ∧ ∀ f : Fld, f.addr < 0x800 → (f.addr = R.CHIP_STRAP → f.lo + f.len ≤ 3) → (f.addr = R.PCR_STAT → 2 ≤ f.lo) →
        (s.bootStep1 xin root).get f = s.get f := by
  have htru : Beside s (s.hallFill.repairMap.logSearch.truBoot root) := (Beside.refl s).hallFill.repairMap.logSearch.truBoot
  have hslots {t : State} : Beside t t.slotsShow := (Beside.refl t).slotsShow
  refine ⟨?_, ?_, fun f hf hb hx => ?_⟩
  · rw [State.bootStep1, State.held_xinCheck, hslots.pcr]
    exact congrArg Pcr.held htru.pcr
  · simp [State.bootStep1, State.bootEff, State.hallFill]
  · rw [State.bootStep1, State.get_xinCheck _ _ hx, hslots.get hf, State.get_bootEff _ hb, htru.get hf]

/-- Settles O2: each reset keeps its other cause bits and the Porter's count, and boot step 1 keeps what the release has latched. -/
theorem resetsFromOutsideAndTheirRelease : Obligations.ResetsFromOutsideAndTheirRelease := by
  unfold Obligations.ResetsFromOutsideAndTheirRelease
  refine ⟨fun s hp hq => ?_, fun s => ⟨_, rfl, rfl, rfl, rfl⟩, fun s m b1 b0 xin root k hk hn hd => ?_, fun s f hr hf hd => ?_,
    fun s hm hl hlife => ?_⟩
  · obtain ⟨hheld, hlow, -⟩ := (s.updPcr fun p => { p with nrstLow := true }).pcr_chipReset .nrst
    refine ⟨_, exec_nrstAssert hp hq, hheld, hlow, State.get_causeFld_chipReset _ .nrst, ?_, ?_⟩
    · exact State.get_otherCause_chipReset _ .nrst rfl (.inr (by decide))
    · exact State.get_otherCause_chipReset _ .nrst rfl (.inl (by decide))
  · obtain ⟨hheld, hhalls, hget⟩ :=
      State.bootStep1_keeps (((s.strapsLatched k m b1 b0).updPcr fun p => { p with held := none }).set F.PCR_STAT.BOOTSTEP 1) xin root
    refine ⟨_, exec_internalResetRelease hk hn hd m b1 b0 xin root, hheld, ?_, hhalls, fun hsamp => ?_⟩
    · rw [hget _ (by decide) (by decide) (by decide)]
      exact State.get_set_self _ F.PCR_STAT.BOOTSTEP (by decide) 1
    · obtain ⟨hmstr, hboot⟩ := s.straps_of_latched hsamp m b1 b0
      rw [hget _ (by decide) (by decide) (by decide), hget _ (by decide) (by decide) (by decide),
        State.get_set_addr _ _ _ (by decide), State.get_set_addr _ _ _ (by decide)]
      exact ⟨hmstr, hboot⟩
  · obtain ⟨hheld, -⟩ := s.pcr_chipReset .gallery
    exact ⟨_, exec_galleryReset hr hf hd, hheld, s.get_causeFld_chipReset .gallery⟩
  · obtain ⟨hheld, -, hdrive⟩ := s.pcr_chipReset .porter
    exact ⟨_, exec_chiprst hm hl hlife .host, hheld, by simp [State.nrstPin, hdrive], s.get_causeFld_chipReset .porter,
      s.get_rstcnt_chipReset_porter⟩

end Sys2Proof.Machine
end

section
/-! SUPPORT. Supplies: the bits of PCR_VSTAT, the lowest values, the power-on reset of a rail, and the cut of the windows at gate lockout
(O1). -/

set_option Elab.async false

namespace Sys2Proof.Machine

variable {s₀ s : State}

/-! ### A bit of a field, and the same field of several registers -/

theorem bitOf_eq_testBit (x i : Nat) : bitOf x i = x.testBit i :=
  Nat.testBit_eq_decide_div_mod_eq.symm

theorem bitOf_mod_two_pow (x : Nat) {i n : Nat} (h : i < n) : bitOf (x % 2 ^ n) i = bitOf x i := by
  simp [bitOf_eq_testBit, h]

theorem bitOf_add_two_pow {x i : Nat} (h : bitOf x i = false) : bitOf (x + 2 ^ i) i = true := by
  simp only [bitOf, decide_eq_false_iff_not, decide_eq_true_eq] at h ⊢
  rw [Nat.add_div_right _ (Nat.two_pow_pos i)]
  omega

theorem bitOf_sub_two_pow {x i : Nat} (h : bitOf x i = true) : bitOf (x - 2 ^ i) i = false := by
  simp only [bitOf, decide_eq_false_iff_not, decide_eq_true_eq] at h ⊢
  have hd := Nat.sub_mul_div x (2 ^ i) 1
  rw [Nat.mul_one] at hd
  rw [hd]
  omega

/-- A bit of a field reads the value it was set to. -/
theorem State.bitOf_setBitAt (s : State) (f : Fld) {i : Nat} (b : Bool) (hf : f.lo + f.len ≤ 20) (hi : i < f.len) :
    bitOf ((s.setBitAt f i b).get f) i = b := by
  rw [State.setBitAt, State.get_set_self _ f hf, bitOf_mod_two_pow _ hi]
  split
  case isTrue h => exact h
  case isFalse h =>
    cases b with
    | true => exact bitOf_add_two_pow (Bool.eq_false_iff.2 h)
    | false => exact bitOf_sub_two_pow ((Bool.not_eq_false _).mp h)

/-- A field beside the one whose bit is set keeps its value. -/
theorem State.get_setBitAt_apart (s : State) (f g : Fld) (i : Nat) (b : Bool) (hf : f.lo + f.len ≤ 20)
    (h : g.addr = f.addr → f.lo + f.len ≤ g.lo ∨ g.lo + g.len ≤ f.lo) : (s.setBitAt f i b).get g = s.get g :=
  s.get_set_apart f g hf h _

theorem State.bitOf_evtAt (s : State) (f : Fld) {i : Nat} (hf : f.lo + f.len ≤ 20) (hi : i < f.len) :
    bitOf ((s.evtAt f i).get f) i = true :=
  State.bitOf_setBitAt _ f true hf hi

/-- A field of each of several registers, all set to one value. -/
theorem State.get_each_set (s : State) {f : Nat → Fld} (v : Nat) (hf : ∀ i, (f i).lo + (f i).len ≤ 20)
    (hne : ∀ i j, i ≠ j → (f i).addr ≠ (f j).addr) {i n : Nat} (hi : i < n) :
    (s.each (List.range n) fun s k => s.set (f k) v).get (f i) = v % 2 ^ (f i).len := by
  induction n with
  | zero => omega
  | succ n ih =>
    rw [State.each, List.range_succ, List.foldl_append]
    by_cases h : i = n
    · rw [h]
      exact State.get_set_self _ (f n) (hf n) v
    · exact (State.get_set_addr _ (f n) (f i) (hne i n h) v).trans (ih (by omega))

/-! ### Conditions that stand at the Porter, by their source (R405) -/

theorem State.get_standOn (s : State) (src det : Nat) (f : Fld) : (s.standOn src det).get f = s.get f := by
  rw [State.get, State.reg_standOn, State.get]

theorem State.get_standOff (s : State) (src det : Nat) (f : Fld) : (s.standOff src det).get f = s.get f := by
  rw [State.get, State.reg, State.standOff_regs, State.get, State.reg]

theorem State.stand_standOn_src (s : State) (src det : Nat) : ((s.standOn src det).por.stand.any fun p => p.src = src) = true := by
  obtain ⟨p, hp, h⟩ := List.any_eq_true.1 (s.stand_standOn src det)
  obtain ⟨hsrc, -⟩ := Bool.and_eq_true_iff.1 h
  exact List.any_eq_true.2 ⟨p, hp, hsrc⟩

/-! ### The lowest values (R48) -/

theorem State.get_vmin_self (s : State) (rail mv : Nat) :
    (s.vmin rail mv).get (F.PCR_VMIN rail) = min (s.get (F.PCR_VMIN rail)) (mv / vminRes rail * vminRes rail) := by
  rw [State.vmin, State.get_set_self _ (F.PCR_VMIN rail) (Nat.le_refl 20)]
  exact Nat.mod_eq_of_lt ((Nat.min_le_left _ _).trans_lt (s.get_lt (F.PCR_VMIN rail)))

/-- A sample for the lowest value reaches no other register, and not the Porter. -/
theorem State.vmin_keeps (s : State) (rail mv : Nat) :
    SameRegs (fun a => a = R.PCR_VMIN rail) s (s.vmin rail mv) ∧ (s.vmin rail mv).por = s.por := by
  unfold State.vmin
  exact ⟨fun a ha => s.reg_set (F.PCR_VMIN rail) _ a ha, s.set_por _ _⟩

theorem vmin_ne_vstat (rail : Nat) : R.PCR_VMIN rail ≠ R.PCR_VSTAT := by
  simp only [R.PCR_VMIN, R.PCR_VSTAT]
  omega

theorem State.get_vmin_vstat (s : State) (rail mv : Nat) {f : Fld} (h : f.addr = R.PCR_VSTAT) : (s.vmin rail mv).get f = s.get f :=
  s.get_set_addr (F.PCR_VMIN rail) f (h ▸ (vmin_ne_vstat rail).symm) _

theorem State.get_vminClear (s : State) {i : Nat} (hi : i < 5) : s.vminClear.get (F.PCR_VMIN i) = 0xFFFFF :=
  s.get_each_set (f := F.PCR_VMIN) 0xFFFFF (fun _ => Nat.le_refl 20) (fun i j h => by simp only [F.PCR_VMIN, R.PCR_VMIN]; omega) hi

/-! ### Rails (R45, R46) -/

theorem railSrc_fst (rail : Fin 5) : (railSrc rail).1 = if rail = 4 then 10 else 4 := by
  revert rail
  decide

/-- A value below the warning level outside an excursion begins one. -/
theorem exec_railWarning_begins {rail : Fin 5} {mv : Nat} (hh : s.pcr.held = none) (hm : s.railMasked rail = false)
    (hb : bitOf (s.get F.PCR_VSTAT.BELOW) rail = false) (hu : underLevel mv (warnLevel rail) = true) :
    exec (.railWarning rail mv) s = .next
      ((((s.vmin rail mv).evtAt F.PCR_VSTAT.WARN rail).setBitAt F.PCR_VSTAT.BELOW rail true).standOn (railSrc rail).1 (railSrc rail).2) := by
  have hb' : bitOf ((s.vmin rail mv).get F.PCR_VSTAT.BELOW) rail = false := by rw [s.get_vmin_vstat rail mv rfl, hb]
  change execRailWarning rail mv s = _
  unfold execRailWarning
  rw [hh, hm]
  dsimp only
  rw [hb', hu]
  rfl

/-- A value above the warning level is a sample only. -/
theorem exec_railWarning_above {rail : Fin 5} {mv : Nat} (hh : s.pcr.held = none) (hm : s.railMasked rail = false)
    (hu : underLevel mv (warnLevel rail) = false) : exec (.railWarning rail mv) s = .next (s.vmin rail mv) := by
  change execRailWarning rail mv s = _
  unfold execRailWarning
  simp [hh, hm, hu]

theorem exec_railWarningEnd {rail : Fin 5} (hm : s.railMasked rail = false) :
    exec (.railWarningEnd rail) s
      = .next ((s.setBitAt F.PCR_VSTAT.BELOW rail false).standOff (railSrc rail).1 (railSrc rail).2) := by
  change execRailWarningEnd rail s = _
  rw [execRailWarningEnd, hm]
  rfl

theorem exec_railReset {rail : Fin 4} {mv : Nat} (hm : s.railMasked rail = false) (hu : underLevel mv (lowLevel rail) = true) :
    exec (.railReset rail mv) s = .next (((s.vmin rail mv).chipReset .powerOn).set F.PCR_RSTCAUSE.RAIL (rail.val + 1)) := by
  change execRailReset rail mv s = _
  rw [execRailReset, hm, hu]
  rfl

/-- A power-on reset begins PCR_RSTCAUSE anew: its own bit and no other (Table 3.8). -/
theorem State.get_rstcause_chipReset_powerOn (s : State) {f : Fld} (hf : f.addr = R.PCR_RSTCAUSE) :
    (s.chipReset .powerOn).get f = fldGet f (fldSet F.PCR_RSTCAUSE.POR (resetOf R.PCR_RSTCAUSE) 1) := by
  rw [State.get, hf]
  refine congrArg (fldGet f) ((State.reg_setReg_self _ R.PCR_RSTCAUSE _).trans (congrArg (fldSet F.PCR_RSTCAUSE.POR · 1) ?_))
  exact (cellGet_filter resetOf (keptReg .powerOn) R.PCR_RSTCAUSE _).trans (if_neg (by decide))

/-- Beside RAIL, the reset of a rail leaves in PCR_RSTCAUSE what a power-on reset leaves (R46). -/
theorem State.get_rstcause_railReset (s : State) (rail : Nat) {f : Fld} (hf : f.addr = R.PCR_RSTCAUSE) (h : 7 ≤ f.lo ∨ f.lo + f.len ≤ 4) :
    ((s.chipReset .powerOn).set F.PCR_RSTCAUSE.RAIL rail).get f
      = fldGet f (fldSet F.PCR_RSTCAUSE.POR (resetOf R.PCR_RSTCAUSE) 1) := by
  rw [State.get_set_disj _ F.PCR_RSTCAUSE.RAIL f hf (by decide) h, State.get_rstcause_chipReset_powerOn s hf]

/-! ### Gate lockout (R47, R194) -/

/-- A field of a register of several, in a block above PCR. -/
theorem Beside.setAt (h : Beside s₀ s) {a b c lo len v : Nat} (ha : 0x800 ≤ a := by decide) : Beside s₀ (s.set ⟨a + b + c, lo, len⟩ v) :=
  h.set (above_pcr (above_pcr ha))

theorem Beside.injFlag (h : Beside s₀ s) {n : Nat} {f : Fld} (hf : 0x800 ≤ f.addr) : Beside s₀ (s.injFlag n f) :=
  (h.evt hf).raise

theorem Beside.updBank (h : Beside s₀ s) {b : Nat} {f : Bank → Bank} : Beside s₀ (s.updBank b f) :=
  h.frame

theorem Beside.setRefused (h : Beside s₀ s) {k : Nat} {b : Bool} : Beside s₀ (s.setRefused k b) :=
  h.frame

theorem Beside.bankClose (h : Beside s₀ s) {b : Nat} : Beside s₀ (s.bankClose b) := by
  unfold State.bankClose
  exact (h.setAt.setAt.setAt.setAt.setAt.when (·.setAt.setAt.setAt.setAt)).updBank

theorem Beside.bankCut (h : Beside s₀ s) {b cause : Nat} : Beside s₀ (s.bankCut b cause) :=
  .ite (h.bankClose.setRefused.setAt.injFlag (above_pcr (by decide))) h

theorem Beside.cutAll (h : Beside s₀ s) {cause : Nat} : Beside s₀ (s.cutAll cause) :=
  h.each fun _ _ h => h.bankCut

/-- What the beginning of gate lockout records in PCR. -/
def State.lockoutNoted (s : State) (mv : Nat) : State := ((s.vmin 4 mv).set F.PCR_VSTAT.LOCKOUT 1).setBitAt F.PCR_VSTAT.BELOW 4 true

theorem exec_gateLockoutBegin {mv : Nat} (hh : s.pcr.held = none) (hw : s.pcr.watch = false) (hu : underLevel mv (lowLevel 4) = true) :
    exec (.gateLockoutBegin mv) s = .next (((s.lockoutNoted mv).cutAll 1).standOn 5 0) := by
  change execGateLockoutBegin mv s = _
  simp [execGateLockoutBegin, State.railMasked, hw, hu, hh, State.lockoutNoted, State.vmin]

theorem exec_gateLockoutEnd (hw : s.pcr.watch = false) :
    exec .gateLockoutEnd s = .next ((s.set F.PCR_VSTAT.LOCKOUT 0).standOff 5 0) := by
  change execGateLockoutEnd s = _
  simp [execGateLockoutEnd, State.railMasked, hw]

theorem exec_vminClear (h : s.islandUp .management = true) : exec .vminClear s = .next s.vminClear := by
  change execVminClear s = _
  rw [execVminClear, if_pos h]

/-- Settles O1: each record stands where its command writes it, and the cut of the windows at gate lockout leaves PCR alone. -/
theorem railExcursionsAndGateLockout : Obligations.RailExcursionsAndGateLockout := by
  unfold Obligations.RailExcursionsAndGateLockout
  refine ⟨fun s rail mv hh hm hb hu => ?_, fun s rail mv hh hm hu => ?_, fun s rail hm => ?_, fun s rail mv hm hu => ?_,
    fun s mv hh hw hu => ?_, fun s hw => ?_, fun s h => ⟨_, exec_vminClear h, fun i hi => s.get_vminClear hi⟩⟩
  · refine ⟨_, exec_railWarning_begins hh hm hb hu, ?_, ?_, ?_, ?_⟩
    · rw [State.get_standOn]
      exact State.bitOf_setBitAt _ _ _ (by decide) rail.isLt
    · rw [State.get_standOn, State.get_setBitAt_apart _ _ _ _ _ (by decide) (fun _ => .inr (by decide))]
      exact State.bitOf_evtAt _ _ (by decide) rail.isLt
    · rw [State.get_standOn, State.get_setBitAt_apart _ _ _ _ _ (by decide) (fun h => absurd h (vmin_ne_vstat rail)),
        State.evtAt, State.get_setBitAt_apart _ _ _ _ _ (by decide) (fun h => absurd h (vmin_ne_vstat rail)), State.get_mark,
        State.get_vmin_self]
    · rw [← railSrc_fst]
      exact State.stand_standOn_src _ _ _
  · exact ⟨_, exec_railWarning_above hh hm hu, s.get_vmin_self rail mv, s.vmin_keeps rail mv⟩
  · refine ⟨_, exec_railWarningEnd hm, ?_, State.stand_standOff _ _ _⟩
    rw [State.get_standOff]
    exact State.bitOf_setBitAt _ _ _ (by decide) rail.isLt
  · obtain ⟨hheld, -, -⟩ := (s.vmin rail mv).pcr_chipReset .powerOn
    refine ⟨_, exec_railReset hm hu, hheld, ?_, ?_, ?_, ?_⟩
    · exact (State.get_rstcause_railReset _ _ (f := F.PCR_RSTCAUSE.POR) rfl (by decide)).trans (by decide)
    · rw [State.get_set_self _ F.PCR_RSTCAUSE.RAIL (by decide)]
      exact Nat.mod_eq_of_lt (show rail.val + 1 < 8 by omega)
    · exact (State.get_rstcause_railReset _ _ (f := F.PCR_RSTCAUSE.NRST) rfl (by decide)).trans (by decide)
    · exact (State.get_rstcause_railReset _ _ (f := F.PCR_RSTCAUSE.PCHIP) rfl (by decide)).trans (by decide)
  · have hb : Beside (s.lockoutNoted mv) (((s.lockoutNoted mv).cutAll 1).standOn 5 0) := (Beside.refl _).cutAll.standOn
    have hl : (s.lockoutNoted mv).get F.PCR_VSTAT.LOCKOUT = 1 := by
      rw [State.lockoutNoted, State.get_setBitAt_apart _ _ _ _ _ (by decide) (fun _ => .inl (by decide))]
      exact State.get_set_self _ F.PCR_VSTAT.LOCKOUT (by decide) 1
    have hlock := (hb.get (f := F.PCR_VSTAT.LOCKOUT) (by decide)).trans hl
    refine ⟨_, exec_gateLockoutBegin hh hw hu, hlock, ?_, gatesOff_of_lockout ?_, State.stand_standOn_src _ 5 0⟩
    · rw [hb.get (by decide)]
      exact State.bitOf_setBitAt _ _ _ (by decide) (by decide)
    · rw [State.lockout, State.bit, hlock]
      rfl
  · refine ⟨_, exec_gateLockoutEnd hw, ?_, State.stand_standOff _ 5 0⟩
    rw [State.get_standOff]
    exact s.get_set_self F.PCR_VSTAT.LOCKOUT (by decide) 0

end Sys2Proof.Machine
end

section
/-! SUPPORT. Clocks: the reference, the PLLs’ locks, holdover, and the clock monitor (O3). -/

set_option Elab.async false

namespace Sys2Proof.Machine

variable {s : State}

/-! ### References and PLLs (R50 to R53) -/

theorem exec_xinRecheck {n : Nat} (hr : s.running = true) (hb : s.get F.PCR_STAT.BOOTSTEP = 1) (h0 : s.get F.PCR_STAT.REFSRC = 0)
    (hm : s.bit F.CHIP_STRAP.MSTR = true) (hlo : 85 ≤ n) (hhi : n ≤ 115) :
    exec (.xinRecheck n) s = .next (s.set F.PCR_STAT.REFSRC 1) := by
  change execXinRecheck n s = _
  simp [execXinRecheck, State.xinCheck, hr, hb, h0, hm, hlo, hhi]

/-- The bit of PCR_STAT that shows a PLL’s lock. -/
def lockFld (pll : Pll) : Fld :=
  match pll with
  | .a => F.PCR_STAT.PLLA_LOCK
  | .g => F.PCR_STAT.PLLG_LOCK

theorem exec_pllLock (pll : Pll) (hr : s.running = true) (h0 : s.get F.PCR_STAT.REFSRC ≠ 0) :
    exec (.pllLock pll) s = .next (s.set (lockFld pll) 1) := by
  have hmay : (s.running && (s.pcr.sosc || decide (s.get F.PCR_STAT.REFSRC ≠ 0))) = true := by simp [hr, h0]
  change execPllLock pll s = _
  unfold execPllLock
  rw [if_pos hmay]
  cases pll <;> rfl

theorem exec_bootStep1End (hr : s.running = true) (hb : s.get F.PCR_STAT.BOOTSTEP = 1) (ha : s.bit F.PCR_STAT.PLLA_LOCK = true)
    (hg : s.bit F.PCR_STAT.PLLG_LOCK = true) : exec .bootStep1End s = .next (s.set F.PCR_STAT.BOOTSTEP 2) := by
  change execBootStep1End s = _
  simp [execBootStep1End, hr, hb, ha, hg]

theorem exec_ringReferenceLock (hr : s.running = true) (hs : s.pcr.sosc = true) :
    exec .ringReferenceLock s = .next ((s.set F.PCR_STAT.REFSRC 2).updPcr fun p => { p with sosc := false }) := by
  change execRingReferenceLock s = _
  simp [execRingReferenceLock, hr, hs]

/-- A one-bit field that is set reads as true. -/
theorem State.bit_set_one (s : State) (f : Fld) (hf : f.lo + f.len ≤ 20) (h1 : 0 < f.len) : (s.set f 1).bit f = true := by
  have h : 1 < 2 ^ f.len := Nat.one_lt_two_pow (by omega)
  rw [State.bit, s.get_set_self f hf, Nat.mod_eq_of_lt h]
  rfl

/-- PLLA clocks the angle, needle and memory islands of a part that runs, PLLG the Gallery island (R53). -/
theorem State.islandUp_of_lock (hr : s.running = true) :
    (s.set F.PCR_STAT.PLLA_LOCK 1).islandUp .angle = true ∧ (s.set F.PCR_STAT.PLLA_LOCK 1).islandUp .needle = true
      ∧ (s.set F.PCR_STAT.PLLA_LOCK 1).islandUp .memory = true ∧ (s.set F.PCR_STAT.PLLG_LOCK 1).islandUp .gallery = true := by
  have hrun (f : Fld) : (s.set f 1).running = true := by rw [State.running, State.set_pcr, ← State.running, hr]
  simp only [State.islandUp, hrun, s.bit_set_one F.PCR_STAT.PLLA_LOCK (by decide) (by decide),
    s.bit_set_one F.PCR_STAT.PLLG_LOCK (by decide) (by decide), Bool.and_self, and_self]

/-! ### Holdover (R52, R55, R480) -/

theorem exec_xinEdgeLoss (hr : s.running = true) (h1 : s.get F.PCR_STAT.REFSRC = 1) :
    exec .xinEdgeLoss s = .next ((s.set F.PCR_STAT.HOLDOVER 1).standOn 3 0) := by
  change execXinEdgeLoss s = _
  simp [execXinEdgeLoss, hr, h1]

theorem exec_ringStreamLoss (hr : s.running = true) (h2 : s.get F.PCR_STAT.REFSRC = 2) (hc : s.comes isValidGroup = false) :
    exec .ringStreamLoss s = .next ((s.set F.PCR_STAT.HOLDOVER 1).standOn 3 1) := by
  change execRingStreamLoss s = _
  simp [execRingStreamLoss, hr, h2, hc]

theorem exec_holdoverEnd (hr : s.running = true) (hh : s.bit F.PCR_STAT.HOLDOVER = true) :
    exec .holdoverEnd s = .next (((s.set F.PCR_STAT.HOLDOVER 0).standOff 3 0).standOff 3 1) := by
  change execHoldoverEnd s = _
  simp [execHoldoverEnd, hr, hh]

theorem State.get_holdover_set_standOn (s : State) (det : Nat) :
    ((s.set F.PCR_STAT.HOLDOVER 1).standOn 3 det).get F.PCR_STAT.HOLDOVER = 1 := by
  rw [State.get_standOn]
  exact s.get_set_self F.PCR_STAT.HOLDOVER (by decide) 1

/-- What stands after a condition has ended stood before. -/
theorem State.mem_stand_of_standOff {src det : Nat} {p : FaultSig} (h : p ∈ (s.standOff src det).por.stand) : p ∈ s.por.stand :=
  List.mem_of_mem_filter h

/-- With both of its conditions ended, nothing of a source stands under their detail codes. -/
theorem State.stand_standOff_both (s : State) (src d e : Nat) :
    (((s.standOff src d).standOff src e).por.stand.any fun p => p.src = src && (p.det = d || p.det = e)) = false := by
  have hd := List.any_eq_false.1 (s.stand_standOff src d)
  have he := List.any_eq_false.1 ((s.standOff src d).stand_standOff src e)
  refine List.any_eq_false.2 fun p hp => ?_
  have hpd := hd p (State.mem_stand_of_standOff hp)
  have hpe := he p hp
  simp only [Bool.and_eq_true, Bool.or_eq_true, decide_eq_true_eq] at hpd hpe ⊢
  tauto

/-! ### The clock monitor (R54) -/

/-- A condition with another detail code stands through a check. -/
theorem State.stand_clockCheck {d : Nat} (h : (s.por.stand.any fun p => p.src = 2 && p.det = d) = true) {k : Nat} (hk : d ≠ k)
    (compared : Bool) (count num den : Nat) :
    ((s.clockCheck k compared count num den).por.stand.any fun p => p.src = 2 && p.det = d) = true := by
  obtain ⟨p, hp, hpd⟩ := List.any_eq_true.1 h
  refine List.any_eq_true.2 ⟨p, ?_, hpd⟩
  simp only [Bool.and_eq_true, decide_eq_true_eq] at hpd
  unfold State.clockCheck
  split
  · unfold State.standOn
    split
    · exact hp
    · exact List.mem_append_left _ hp
  · refine List.mem_filter.2 ⟨hp, ?_⟩
    simp [hpd, hk]

theorem State.stand_clockCheck_off {f : Nat} (h : 20 * f < 27200 ∨ 36800 < 20 * f) :
    ((s.clockCheck 0 true f 1600 1).por.stand.any fun p => p.src = 2 && p.det = 0) = true := by
  have hoff : clockOff f 1600 1 = true := by
    simp only [clockOff, Bool.or_eq_true, decide_eq_true_eq]
    omega
  rw [State.clockCheck, hoff]
  exact s.stand_standOn 2 0

theorem State.held_of_islandUp {i : Island} (h : s.islandUp i = true) : s.pcr.held = none := by
  cases i <;> simp_all [State.islandUp, State.running]

theorem exec_clockMonitorCount {f m n g mg : Nat} (h : s.islandUp .angle = true) :
    ∃ a d w, exec (.clockMonitorCount f m n g mg) s = .next
      (((((s.clockCheck 0 true f 1600 1).clockCheck 1 true m 1200 1).clockCheck 2 true n 1600 d).clockCheck 3 a g 1000 1).clockCheck 4 true
        mg w 1) := by
  change ∃ a d w, execClockMonitorCount f m n g mg s = _
  simp only [execClockMonitorCount, State.held_of_islandUp h, h]
  exact ⟨_, _, _, rfl⟩

/-- Settles O3: each clock event writes its own field of PCR_STAT and ends or begins its own condition. -/
theorem clocksLockLoseAndReturn : Obligations.ClocksLockLoseAndReturn := by
  unfold Obligations.ClocksLockLoseAndReturn
  refine ⟨fun s n hr hb h0 hm hlo hhi => ?_, fun s hr h0 => ?_, fun s hr hb ha hg => ?_, fun s hr hs => ?_, fun s hr h1 => ?_,
    fun s hr h2 hc => ?_, fun s hr hh => ?_, fun s f m n g mg h hf => ?_⟩
  · refine ⟨_, exec_xinRecheck hr hb h0 hm hlo hhi, s.get_set_self F.PCR_STAT.REFSRC (by decide) 1, ?_⟩
    rw [s.get_set_disj F.PCR_STAT.REFSRC F.PCR_STAT.BOOTSTEP rfl (by decide) (by decide), hb]
  · obtain ⟨hangle, hneedle, hmem, hgal⟩ := State.islandUp_of_lock hr
    exact ⟨⟨_, exec_pllLock .a hr h0, hangle, hneedle, hmem⟩, _, exec_pllLock .g hr h0, hgal⟩
  · exact ⟨_, exec_bootStep1End hr hb ha hg, s.get_set_self F.PCR_STAT.BOOTSTEP (by decide) 2⟩
  · exact ⟨_, exec_ringReferenceLock hr hs, s.get_set_self F.PCR_STAT.REFSRC (by decide) 2, rfl⟩
  · exact ⟨_, exec_xinEdgeLoss hr h1, s.get_holdover_set_standOn 0, State.stand_standOn _ 3 0⟩
  · exact ⟨_, exec_ringStreamLoss hr h2 hc, s.get_holdover_set_standOn 1, State.stand_standOn _ 3 1⟩
  · refine ⟨_, exec_holdoverEnd hr hh, ?_, State.stand_standOff_both _ 3 0 1⟩
    rw [State.get_standOff, State.get_standOff]
    exact s.get_set_self F.PCR_STAT.HOLDOVER (by decide) 0
  · obtain ⟨a, d, w, e⟩ := exec_clockMonitorCount (f := f) (m := m) (n := n) (g := g) (mg := mg) h
    have h0 := State.stand_clockCheck_off (s := s) hf
    have h1 := State.stand_clockCheck h0 (k := 1) (by decide) true m 1200 1
    have h2 := State.stand_clockCheck h1 (k := 2) (by decide) true n 1600 d
    have h3 := State.stand_clockCheck h2 (k := 3) (by decide) a g 1000 1
    exact ⟨_, e, State.stand_clockCheck h3 (k := 4) (by decide) true mg w 1⟩

end Sys2Proof.Machine
end

section
/-! SUPPORT. Block resets: what a reset of a block and its resumption leave alone, the block’s interrupt counts, and the end of the hold
(O5). -/

set_option Elab.async false

namespace Sys2Proof.Machine

variable {s₀ s t : State}

/-! ### The parts that a block reset reaches, beside PCR -/

theorem cellGet_filter_kept {α : Type} (d : Nat → α) {p : Nat × α → Bool} {a : Nat} (hp : ∀ v, p (a, v) = true) (l : List (Nat × α)) :
    cellGet d (l.filter p) a = cellGet d l a := by
  induction l with
  | nil => rfl
  | cons c l ih =>
    obtain ⟨k, v⟩ := c
    by_cases hk : k = a
    · subst hk
      rw [List.filter_cons_of_pos (hp v)]
      simp [cellGet]
    · rw [List.filter_cons]
      split <;> simp [cellGet, hk, ih]

/-- Registers above PCR leave the file. -/
theorem Beside.regsOut (h : Beside s₀ s) {p : Nat × Word → Bool} (hp : ∀ a v, a < 0x800 → p (a, v) = true) (hr : t.regs = s.regs.filter p)
    (ht : SameTime s t := by exact ⟨rfl, rfl, rfl, rfl, rfl, rfl⟩) (hq : t.pcr = s.pcr := by rfl) : Beside s₀ t :=
  h.trans ⟨ht, hq, fun a ha => by rw [State.reg, hr, cellGet_filter_kept _ fun v => hp a v ha, State.reg]⟩

theorem Beside.updSt (h : Beside s₀ s) {n : Nat} {f : Stitch → Stitch} : Beside s₀ (s.updSt n f) :=
  h.frame

theorem Beside.updTrk (h : Beside s₀ s) {n : Nat} {f : Trk → Trk} : Beside s₀ (s.updTrk n f) :=
  h.frame

theorem Beside.updNdl (h : Beside s₀ s) {m : Nat} {f : Ndl → Ndl} : Beside s₀ (s.updNdl m f) :=
  h.frame

theorem Beside.raiseIf (h : Beside s₀ s) {c : Bool} {k : Nat} : Beside s₀ (s.raiseIf c k) :=
  .ite h.raise h

theorem Beside.stFinish (h : Beside s₀ s) {n res : Nat} {nxt : Option Nat} : Beside s₀ (s.stFinish n res nxt) :=
  h.setAt.setAt.setAt.setAt.setAt.setAt.updSt.raiseIf

theorem Beside.stOnEvent (h : Beside s₀ s) {e : TrkEvent} {n : Nat} : Beside s₀ (s.stOnEvent e n) := by
  unfold State.stOnEvent
  split
  · exact h.stFinish
  · split
    · exact h.stFinish
    · exact .ite h h.stFinish
    · exact .ite h h.stFinish
  · exact h

theorem Beside.stEvent (h : Beside s₀ s) {n : Nat} {e : TrkEvent} : Beside s₀ (s.stEvent n e) :=
  h.each fun _ _ h => h.stOnEvent

/-- Every block of Table 3.9 stands above PCR. -/
theorem blockRange_above (b : Nat) : 0x800 ≤ (blockRange b).1 := by
  unfold blockRange
  repeat' split
  all_goals omega

theorem Beside.regsClear (h : Beside s₀ s) {b : Nat} : Beside s₀ (s.regsClear b) := by
  refine h.regsOut (fun a v ha => ?_) rfl
  have hb := blockRange_above b
  simp [show ¬ (blockRange b).1 ≤ a by omega]

theorem Beside.bankOnTime (h : Beside s₀ s) {b t on : Nat} : Beside s₀ (s.bankOnTime b t on) := by
  unfold State.bankOnTime
  exact h.updBank.when (·.setAt.setAt.raiseIf)

theorem Beside.batEval (h : Beside s₀ s) {b : Nat} : Beside s₀ (s.batEval b) :=
  .ite h (h.updBank.when (·.bankOnTime))

theorem Beside.flagClear (h : Beside s₀ s) {n : Nat} : Beside s₀ (s.flagClear n) :=
  h.setBitAt

theorem Beside.bedReset (h : Beside s₀ s) {b : Nat} : Beside s₀ (s.bedReset b) := by
  unfold State.bedReset
  exact (h.each fun _ _ h => h.flagClear.updNdl).when (·.each fun _ _ h => h.batEval)

/-- A filter of registers by their address, that keeps what stands below PCR's end. -/
theorem kept_below {lo hi a : Nat} (hlo : 0x800 ≤ lo) (ha : a < 0x800) : (!(decide (lo ≤ a) && decide (a < hi))) = true := by
  simp [show ¬ lo ≤ a by omega]

theorem Beside.chtReset (h : Beside s₀ s) : Beside s₀ s.chtReset :=
  h.regsOut (fun _ _ => kept_below (by decide)) rfl

theorem Beside.gauReset (h : Beside s₀ s) : Beside s₀ s.gauReset :=
  h.regsOut (fun _ _ => kept_below (by decide)) rfl

theorem Beside.hookReset (h : Beside s₀ s) : Beside s₀ s.hookReset := by
  unfold State.hookReset
  dsimp only
  exact (h.regsOut (fun _ _ => kept_below (by decide)) rfl).each fun _ _ h => h.setAt

/-- The reset of a block reaches what lies behind the block, and other blocks, but not PCR. -/
theorem Beside.unitReset (h : Beside s₀ s) {b : Nat} : Beside s₀ (s.unitReset b) :=
  .ite h.stEvent.regsClear.updTrk <| .ite h.rotCut.rotCut.regsClear.frame <| .ite h.regsClear.frame <| .ite h.regsClear.bedReset <|
    .ite h.chtReset <| .ite h.gauReset <| .ite h.hookReset <| .ite h.regsClear.frame h.regsClear.frame

/-! ### A block reset begins -/

/-- What the beginning of a block reset records in PCR. -/
def State.blockHeld (s : State) (b : Nat) : State :=
  (s.setBitAt F.PCR_BRSTAT b true).updPcr fun p => { p with brst := (b, s.fclk) :: p.brst.filter fun e => e.1 ≠ b }

theorem State.get_updPcr (s : State) (g : Pcr → Pcr) (f : Fld) : (s.updPcr g).get f = s.get f := rfl

theorem State.blockHeld_holds (s : State) (b : Fin 16) :
    bitOf ((s.blockHeld b).get F.PCR_BRSTAT) b = true ∧ (b.val, s.fclk) ∈ (s.blockHeld b).pcr.brst := by
  rw [State.blockHeld, State.get_updPcr]
  exact ⟨s.bitOf_setBitAt F.PCR_BRSTAT true (by decide) b.isLt, List.mem_cons_self⟩

theorem State.blockReset_starts {b : Nat} (hr : s.running = true) (hu : s.blockUsed b = true)
    (hb : bitOf (s.get F.PCR_BRSTAT) b = false) :
    s.blockReset b = ((s.blockHeld b).unitReset b).each (List.range (blockSrcs b).2)
      fun s i => s.set (F.IRT_SRC.COUNT ((blockSrcs b).1 + i)) 0 := by
  rw [State.blockReset, hb, hu, hr]
  rfl

theorem State.blockReset_refused {b : Nat} (h : s.blockUsed b = false ∨ bitOf (s.get F.PCR_BRSTAT) b = true) : s.blockReset b = s := by
  refine if_pos ?_
  rcases h with h | h <;> simp [h]

theorem irtSrc_ne {i j : Nat} (h : i ≠ j) : R.IRT_SRC i ≠ R.IRT_SRC j := by
  simp only [R.IRT_SRC]
  omega

/-- The counts of a range of interrupt sources, all cleared. -/
theorem State.get_counts_cleared (s : State) (k : Nat) {i n : Nat} (hi : i < n) :
    (s.each (List.range n) fun s i => s.set (F.IRT_SRC.COUNT (k + i)) 0).get (F.IRT_SRC.COUNT (k + i)) = 0 :=
  s.get_each_set (f := fun i => F.IRT_SRC.COUNT (k + i)) 0 (fun _ => show 9 + 4 ≤ 20 by decide) (fun i j h => irtSrc_ne (by omega)) hi

/-- A value of one bit asks for one block. -/
theorem State.blockRequests_one (s : State) (b : Fin 16) : s.blockRequests (BitVec.ofNat 16 (2 ^ b.val)).toNat = s.blockReset b := by
  have hone : (List.range 16).filter (bitOf (BitVec.ofNat 16 (2 ^ b.val)).toNat) = [b.val] := by
    revert b
    decide
  rw [State.blockRequests, State.each, ← List.foldl_filter, hone]
  rfl

theorem State.islandUp_management_of_running (h : s.running = true) : s.islandUp .management = true :=
  (Bool.and_eq_true_iff.1 h).1

theorem exec_blockResetRequest_one (src : Master) (b : Fin 16) (h : s.islandUp .management = true) :
    exec (.blockResetRequest src (BitVec.ofNat 16 (2 ^ b.val))) s = .next (s.blockReset b) := by
  change execBlockResetRequest src _ s = _
  rw [execBlockResetRequest, if_pos h, s.blockRequests_one b]

theorem exec_blockResetRequest_down (src : Master) (v : BitVec 16) (h : s.islandUp .management = false) :
    exec (.blockResetRequest src v) s = .next s := by
  change execBlockResetRequest src v s = _
  rw [execBlockResetRequest, if_neg (by simp [h])]

/-! ### The resumption -/

theorem Beside.ndlStart (h : Beside s₀ s) {m : Nat} : Beside s₀ (s.ndlStart m) :=
  .ite ((h.updNdl.set (above_pcr (above_pcr (above_pcr (by decide))))).updNdl) h

theorem Beside.bedAuto (h : Beside s₀ s) {b : Nat} {p : List Byte} : Beside s₀ (s.bedAuto b p) :=
  h.each fun _ _ h => .ite h.ndlStart h

theorem Beside.hkStart (h : Beside s₀ s) {c : Nat} : Beside s₀ (s.hkStart c) :=
  .ite (Beside.updHk h.setAt) h

theorem Beside.hookAuto (h : Beside s₀ s) : Beside s₀ s.hookAuto :=
  h.each fun _ _ h => .ite h.hkStart h

theorem Beside.runRecord (h : Beside s₀ s) {c : Ctx} {res : Nat} : Beside s₀ (s.runRecord c res) :=
  h.setAt.setAt.setAt.branch (·.raiseIf) (·.set.set.set.set.evt.raise.when (·.report))

theorem Beside.chtResume (h : Beside s₀ s) : Beside s₀ s.chtResume :=
  (h.each fun _ _ h => h.runRecord).updCht

theorem Beside.multNow (h : Beside s₀ s) {n : Nat} : Beside s₀ (s.multNow n) :=
  h.updTrk

theorem Beside.sendBeacon (h : Beside s₀ s) {n : Nat} : Beside s₀ (s.sendBeacon n) :=
  .ite h.frame h

theorem Beside.enterSearch (h : Beside s₀ s) {n : Nat} : Beside s₀ (s.enterSearch n) := by
  unfold State.enterSearch
  exact (h.setAt.setAt.setAt.setAt.setAt.setAt.setAt.when (·.setAt)).updTrk.unless (·.multNow.sendBeacon)

theorem Beside.trackerRuns (h : Beside s₀ s) {n : Nat} : Beside s₀ (s.trkRun n true) :=
  h.setAt.branch (·.enterSearch.setAt.setAt.updTrk) id

/-- What a block does when it resumes leaves PCR alone. -/
theorem Beside.blockGo (h : Beside s₀ s) {l : List Sect} {b : Nat} : Beside s₀ (s.blockGo l b) := by
  refine .ite (.ite h h.trackerRuns) <| .ite ?_ <| .ite h.chtResume <| .ite h.updGau <| .ite h.hookAuto h
  split
  · exact h.bedAuto
  · exact h

/-- A block leaves its reset. -/
def State.blockFreed (s : State) (b : Nat) : State :=
  (s.setBitAt F.PCR_BRSTAT b false).updPcr fun p => { p with brst := p.brst.filter fun x => x.1 ≠ b }

theorem State.blockFreed_free (s : State) (b : Fin 16) :
    bitOf ((s.blockFreed b).get F.PCR_BRSTAT) b = false ∧ ∀ x ∈ (s.blockFreed b).pcr.brst, x.1 ≠ b := by
  rw [State.blockFreed, State.get_updPcr]
  exact ⟨s.bitOf_setBitAt F.PCR_BRSTAT false (by decide) b.isLt, fun x hx => of_decide_eq_true (List.mem_filter.1 hx).2⟩

theorem exec_blockResetResume {b : Fin 16} {e : Nat × Nat} {im : Image} (hr : s.running = true) (hrun : s.wvl.run = some im)
    (he : s.pcr.brst.find? (fun e => e.1 = b.val) = some e) (ht : 3 * e.2 + s.holdThirds b ≤ 3 * s.fclk) :
    ∃ u l, exec (.blockResetResume b) s = .next ((State.blockFreed u b).blockGo l b) := by
  change ∃ u l, execBlockResetResume b s = _
  simp only [execBlockResetResume, he, hrun, hr, ht]
  exact ⟨_, _, rfl⟩

/-- Settles O5: the reset of the block and its resumption act beside PCR, which holds the block from the one to the other. -/
theorem blockResetsHoldAndResume : Obligations.BlockResetsHoldAndResume := by
  unfold Obligations.BlockResetsHoldAndResume
  refine ⟨fun s src b hr hu hb => ?_, fun s src b h => ?_, fun s b e im hr hrun he ht => ?_⟩
  · have hbes : Beside (s.blockHeld b) (s.blockReset b) := by
      rw [State.blockReset_starts hr hu hb]
      exact (Beside.refl _).unitReset.each fun _ _ h => h.setAt
    obtain ⟨hbit, hmem⟩ := s.blockHeld_holds b
    refine ⟨_, exec_blockResetRequest_one src b (State.islandUp_management_of_running hr), ?_, ?_, fun i hi => ?_⟩
    · rw [hbes.get (by decide), hbit]
    · rw [hbes.pcr]
      exact hmem
    · rw [State.blockReset_starts hr hu hb]
      exact State.get_counts_cleared _ _ hi
  · cases hm : s.islandUp .management with
    | true => rw [exec_blockResetRequest_one src b hm, State.blockReset_refused h]
    | false => exact exec_blockResetRequest_down src _ hm
  · obtain ⟨u, l, hexec⟩ := exec_blockResetResume hr hrun he ht
    have hbes : Beside (u.blockFreed b) ((u.blockFreed b).blockGo l b) := (Beside.refl _).blockGo
    obtain ⟨hbit, hmem⟩ := u.blockFreed_free b
    refine ⟨_, hexec, ?_, ?_⟩
    · rw [hbes.get (by decide), hbit]
    · rw [hbes.pcr]
      exact hmem

end Sys2Proof.Machine
end

section
/-! SUPPORT. Boot steps 2 to 4: the candidate slot, the end of its verification, the wait for enumeration, and completion (O4). -/

set_option Elab.async false

namespace Sys2Proof.Machine

variable {s₀ s t : State}

/-! ### The blocks start beside WVL (R59, R85) -/

/-- What the start of the blocks leaves as it was: all that stands in WVL behind its registers. -/
def SameWvl (s₀ s : State) : Prop := s.wvl = s₀.wvl

theorem SameWvl.refl (s : State) : SameWvl s s := rfl

theorem SameWvl.next (h : SameWvl s₀ s) (ht : t.wvl = s.wvl := by rfl) : SameWvl s₀ t :=
  Eq.trans ht h

theorem SameWvl.ite {c : Prop} {_ : Decidable c} (hs : SameWvl s₀ s) (ht : SameWvl s₀ t) : SameWvl s₀ (if c then s else t) := by
  split
  · exact hs
  · exact ht

/-- `if c then f s else s`, in a chain of updates. -/
theorem SameWvl.when {c : Prop} {_ : Decidable c} (h : SameWvl s₀ s) (hf : SameWvl s₀ s → SameWvl s₀ t) :
    SameWvl s₀ (if c then t else s) :=
  .ite (hf h) h

/-- `if c then s else f s`, in a chain of updates. -/
theorem SameWvl.unless {c : Prop} {_ : Decidable c} (h : SameWvl s₀ s) (hf : SameWvl s₀ s → SameWvl s₀ t) :
    SameWvl s₀ (if c then s else t) :=
  .ite h (hf h)

theorem SameWvl.each {α : Type} {l : List α} {f : State → α → State} (h : SameWvl s₀ s)
    (hf : ∀ s x, SameWvl s₀ s → SameWvl s₀ (f s x)) : SameWvl s₀ (s.each l f) :=
  State.each_keeps (SameWvl s₀) f hf l s h

theorem SameWvl.set (h : SameWvl s₀ s) {f : Fld} {v : Nat} : SameWvl s₀ (s.set f v) :=
  h.next (s.set_wvl f v)

theorem SameWvl.setBitAt (h : SameWvl s₀ s) {f : Fld} {i : Nat} {b : Bool} : SameWvl s₀ (s.setBitAt f i b) :=
  h.next (s.setBitAt_wvl f i b)

theorem SameWvl.evtAt (h : SameWvl s₀ s) {f : Fld} {i : Nat} : SameWvl s₀ (s.evtAt f i) :=
  h.next (s.evtAt_wvl f i)

theorem SameWvl.raise (h : SameWvl s₀ s) {k : Nat} : SameWvl s₀ (s.raise k) :=
  h.next (s.raise_wvl k)

theorem SameWvl.standOn (h : SameWvl s₀ s) {src det : Nat} : SameWvl s₀ (s.standOn src det) :=
  h.next (s.standOn_wvl src det)

theorem SameWvl.standOff (h : SameWvl s₀ s) {src det : Nat} : SameWvl s₀ (s.standOff src det) :=
  h.next (s.standOff_wvl src det)

theorem SameWvl.updCmp (h : SameWvl s₀ s) {f : CmpBlk → CmpBlk} : SameWvl s₀ (s.updCmp f) :=
  h.next

theorem SameWvl.updNdl (h : SameWvl s₀ s) {m : Nat} {f : Ndl → Ndl} : SameWvl s₀ (s.updNdl m f) :=
  h.next

theorem SameWvl.updHk (h : SameWvl s₀ s) {c : Nat} {f : Hk → Hk} : SameWvl s₀ (s.updHk c f) :=
  h.next

theorem SameWvl.updGal (h : SameWvl s₀ s) {f : Gal → Gal} : SameWvl s₀ (s.updGal f) :=
  h.next

theorem SameWvl.updStc (h : SameWvl s₀ s) {f : Stc → Stc} : SameWvl s₀ (s.updStc f) :=
  h.next

theorem SameWvl.updWin (h : SameWvl s₀ s) {w : Nat} {f : Win → Win} : SameWvl s₀ (s.updWin w f) :=
  h.updCmp

theorem SameWvl.zoneNote (h : SameWvl s₀ s) : SameWvl s₀ s.zoneNote := by
  unfold State.zoneNote
  exact h.updCmp

theorem SameWvl.zoneUpdate (h : SameWvl s₀ s) {w : Nat} : SameWvl s₀ (s.zoneUpdate w) :=
  .ite h ((h.zoneNote.set.when (·.evtAt.raise)).when (·.standOn)).standOff

theorem SameWvl.winOutputs (h : SameWvl s₀ s) {w : Nat} {lo hi : Bool} : SameWvl s₀ (s.winOutputs w lo hi) :=
  h.setBitAt.setBitAt.zoneUpdate

theorem SameWvl.ladderSpare (h : SameWvl s₀ s) {r : Nat} {out sample : Bool} : SameWvl s₀ (s.ladderSpare r out sample) := by
  unfold State.ladderSpare
  exact h.updCmp

theorem SameWvl.winMode (h : SameWvl s₀ s) {w m : Nat} : SameWvl s₀ (s.winMode w m) :=
  h.updWin.unless fun h => .ite h.updWin.winOutputs.ladderSpare.ladderSpare h

theorem SameWvl.winSettle (h : SameWvl s₀ s) : SameWvl s₀ s.winSettle :=
  h.each fun _ _ h => .ite h h.winMode

theorem SameWvl.ndlStart (h : SameWvl s₀ s) {m : Nat} : SameWvl s₀ (s.ndlStart m) :=
  .ite h.updNdl.set.updNdl h

theorem SameWvl.bedAuto (h : SameWvl s₀ s) {b : Nat} {p : List Byte} : SameWvl s₀ (s.bedAuto b p) :=
  h.each fun _ _ h => .ite h.ndlStart h

theorem SameWvl.hkStart (h : SameWvl s₀ s) {c : Nat} : SameWvl s₀ (s.hkStart c) :=
  .ite (SameWvl.updHk h.set) h

theorem SameWvl.hookAuto (h : SameWvl s₀ s) : SameWvl s₀ s.hookAuto :=
  h.each fun _ _ h => .ite h.hkStart h

theorem SameWvl.stcStart (h : SameWvl s₀ s) : SameWvl s₀ s.stcStart := by
  unfold State.stcStart
  exact SameWvl.updStc (h.next (State.setReg_wvl _ _ _))

theorem SameWvl.step3Begin (h : SameWvl s₀ s) : SameWvl s₀ s.step3Begin :=
  .ite h.set.set.updGal h.set.set

theorem State.get_updGal (s : State) (g : Gal → Gal) (f : Fld) : (s.updGal g).get f = s.get f := rfl

/-- Boot step 3 begins, and ends at once on a relay (R352). -/
theorem State.bootstep_step3Begin (s : State) : s.step3Begin.get F.PCR_STAT.BOOTSTEP = 3 ∨ s.step3Begin.get F.PCR_STAT.BOOTSTEP = 4 := by
  unfold State.step3Begin
  extract_lets f u
  split
  · left
    rw [State.get_updGal, State.get_set_addr _ F.GAL_STAT.MASTER F.PCR_STAT.BOOTSTEP (by decide)]
    exact s.get_set_self F.PCR_STAT.BOOTSTEP (by decide) 3
  · exact .inr (u.get_set_self F.PCR_STAT.BOOTSTEP (by decide) 4)

/-- WVL holds an image that runs, last applied from slot `last` if from any, and no verification or wait (R85). -/
def State.imageRuns (s : State) (im : Image) (last : Option (Fin 2)) : State :=
  s.updWvl fun w => { w with run := some im, verify := none, next := none, wait := false, lastSlot := last }

/-- Once an image is applied only step 3 follows, and the start of the blocks on the way to it. -/
theorem State.imageApply_applies (s : State) (src : ImgSrc) (im : Image) (plain : List Byte) :
    ∃ u last v, s.imageApply src im plain = v.step3Begin ∧ SameWvl (State.imageRuns u im last) v := by
  refine ⟨_, _, _, rfl, SameWvl.stcStart (SameWvl.hookAuto (SameWvl.each (SameWvl.winSettle (SameWvl.refl _)) fun s b h => ?_))⟩
  cases sectGet im.sects 0x40 b with
  | some p => exact h.bedAuto
  | none => exact h

/-! ### Boot step 2 (R61, R81, R84) -/

/-- Only a BLANK device draws its identity (R389). -/
theorem State.identDraw_of_life (s : State) (h : s.life ≠ 0) : s.identDraw = s := by
  unfold State.identDraw
  rw [if_neg]
  simp only [h, decide_false, Bool.false_and, Bool.false_eq_true, not_false_eq_true]

theorem State.get_updWvl (s : State) (g : Wvl → Wvl) (f : Fld) : (s.updWvl g).get f = s.get f := rfl

/-- A boot that stops reads step 7; the cause stays. -/
theorem State.get_bootStop (s : State) :
    s.bootStop.get F.PCR_STAT.BOOTSTEP = 7 ∧ s.bootStop.get F.WVL_STAT.CAUSE = s.get F.WVL_STAT.CAUSE := by
  rw [State.bootStop, State.get_updWvl, State.get_updWvl]
  refine ⟨State.get_set_self _ F.PCR_STAT.BOOTSTEP (by decide) 7, ?_⟩
  rw [State.get_set_addr _ F.PCR_STAT.BOOTSTEP F.WVL_STAT.CAUSE (by decide),
    State.get_set_disj _ F.WVL_STAT.LOADING F.WVL_STAT.CAUSE rfl (by decide) (by decide)]

section

variable (hr : s.running = true) (hb : s.get F.PCR_STAT.BOOTSTEP = 2) (hv : s.wvl.verify = none) (hl : s.wvl.load = none)
  (hw : s.wvl.wait = false) (hlife : s.life ≠ 0)
include hr hb hv hl hw

/-- Boot step 2 has no verification, load or wait under way. -/
theorem State.slotLoad_due :
    (s.running && s.get F.PCR_STAT.BOOTSTEP = 2 && s.wvl.verify.isNone && s.wvl.load.isNone && !s.wvl.wait) = true := by
  simp [hr, hb, hv, hl, hw]

include hlife

/-- A wake takes the slot last applied, whatever the straps say. -/
theorem exec_imageSlotLoad_last {i : Fin 2} (h : s.wvl.lastSlot = some i) : exec .imageSlotLoad s = .next (s.verifyBegin i none) := by
  change execImageSlotLoad s = _
  simp only [execImageSlotLoad, if_pos (State.slotLoad_due hr hb hv hl hw), s.identDraw_of_life hlife, h]

theorem exec_imageSlotLoad_port (h : s.wvl.lastSlot = none) (he : s.get F.CHIP_STRAP.BOOT_EFF ≠ 0) :
    exec .imageSlotLoad s = .next (s.updWvl fun w => { w with wait := true }) := by
  change execImageSlotLoad s = _
  simp only [execImageSlotLoad, if_pos (State.slotLoad_due hr hb hv hl hw), s.identDraw_of_life hlife, h, if_pos he]

/-- Of two valid slots the one of the higher VERSION is verified first, slot A on equal ones. -/
theorem exec_imageSlotLoad_both (h : s.wvl.lastSlot = none) (he : s.get F.CHIP_STRAP.BOOT_EFF = 0) (h0 : s.slotValid 0 = true)
    (h1 : s.slotValid 1 = true) :
    exec .imageSlotLoad s = .next
      (s.verifyBegin (if s.slotVer 0 < s.slotVer 1 then 1 else 0) (some (if s.slotVer 0 < s.slotVer 1 then 0 else 1))) := by
  change execImageSlotLoad s = _
  simp only [execImageSlotLoad, if_pos (State.slotLoad_due hr hb hv hl hw), s.identDraw_of_life hlife, h, if_neg (not_not.2 he), h0, h1]
  split <;> rfl

theorem exec_imageSlotLoad_none (h : s.wvl.lastSlot = none) (he : s.get F.CHIP_STRAP.BOOT_EFF = 0) (h0 : s.slotValid 0 = false)
    (h1 : s.slotValid 1 = false) : exec .imageSlotLoad s = .next (s.wvlFlag 1).bootStop := by
  change execImageSlotLoad s = _
  simp only [execImageSlotLoad, if_pos (State.slotLoad_due hr hb hv hl hw), s.identDraw_of_life hlife, h, if_neg (not_not.2 he), h0, h1]

end

/-! ### The end of a verification (R84, R86) -/

section

variable {src : ImgSrc} (hm : s.islandUp .memory = true) (hb : s.get F.PCR_STAT.BOOTSTEP ≠ 6) (hv : s.wvl.verify = some src)
include hm hb hv

theorem exec_imageVerifyDone_error {c : Nat} (h : (s.verifySrc src).2 = .error c) :
    exec .imageVerifyDone s = .next ((s.verifySrc src).1.verifyFail src c) := by
  have hmay : (s.islandUp .memory && decide (s.get F.PCR_STAT.BOOTSTEP ≠ 6)) = true := by simp [hm, hb]
  change execImageVerifyDone s = _
  simp only [execImageVerifyDone, hv, hmay, h, if_true]

theorem exec_imageVerifyDone_ok {r : Image × List Byte} (h : (s.verifySrc src).2 = .ok r) :
    exec .imageVerifyDone s = .next ((s.verifySrc src).1.imageApply src r.1 r.2) := by
  have hmay : (s.islandUp .memory && decide (s.get F.PCR_STAT.BOOTSTEP ≠ 6)) = true := by simp [hm, hb]
  change execImageVerifyDone s = _
  simp only [execImageVerifyDone, hv, hmay, h, if_true]

end

theorem State.cause_wvlFlag (s : State) {c : Nat} (hc : c ≤ 15) : (s.wvlFlag c).get F.WVL_STAT.CAUSE = c := by
  rw [State.wvlFlag, State.evt, State.get_set_disj _ F.WVL_STAT.FAIL F.WVL_STAT.CAUSE rfl (by decide) (by decide), State.get_mark,
    State.get_set_self _ F.WVL_STAT.CAUSE (by decide)]
  exact Nat.mod_eq_of_lt (show c < 32 by omega)

theorem wvlStat_ne_wvlSlot (i : Nat) : R.WVL_STAT ≠ R.WVL_SLOT i := by
  simp only [R.WVL_STAT, R.WVL_SLOT]
  omega

/-- The slot shows the cause beside WVL_STAT. -/
def State.slotShowsCause (s : State) (i : Fin 2) (c : Nat) : State := (s.set (F.WVL_SLOT.STATE i) 2).set (F.WVL_SLOT.CAUSE i) c

theorem State.get_slotShowsCause (s : State) (i : Fin 2) (c : Nat) :
    (s.slotShowsCause i c).get F.WVL_STAT.CAUSE = s.get F.WVL_STAT.CAUSE := by
  rw [State.slotShowsCause, State.get_set_addr _ (F.WVL_SLOT.CAUSE i) F.WVL_STAT.CAUSE (wvlStat_ne_wvlSlot i),
    State.get_set_addr _ (F.WVL_SLOT.STATE i) F.WVL_STAT.CAUSE (wvlStat_ne_wvlSlot i)]

/-- What a failed verification comes to: the next candidate of a slot, or the stop. -/
theorem State.verifyFail_cases (s : State) (src : ImgSrc) (c : Nat) : ∃ u : State,
    u.get F.WVL_STAT.CAUSE = (s.wvlFlag c).get F.WVL_STAT.CAUSE
      ∧ ((∃ j, s.wvl.next = some j ∧ s.verifyFail src c = u.verifyBegin j none) ∨ s.verifyFail src c = u.bootStop) := by
  cases src with
  | slot i =>
    refine ⟨(s.wvlFlag c).slotShowsCause i c, State.get_slotShowsCause _ i c, ?_⟩
    have hwvl : (s.wvlFlag c).wvl = s.wvl := by rw [State.wvlFlag, State.evt_wvl, State.set_wvl]
    by_cases hc : c = 5
    · exact .inr (by simp only [State.verifyFail, State.slotShowsCause, if_pos hc])
    · cases hn : s.wvl.next with
      | none => exact .inr (by simp only [State.verifyFail, State.slotShowsCause, if_neg hc, State.set_wvl, hwvl, hn])
      | some j => exact .inl ⟨j, rfl, by simp only [State.verifyFail, State.slotShowsCause, if_neg hc, State.set_wvl, hwvl, hn]⟩
  | host => exact ⟨_, rfl, .inr rfl⟩
  | gallery => exact ⟨_, rfl, .inr rfl⟩

theorem State.verifyFail_fails (s : State) (src : ImgSrc) {c : Nat} :
    (s.wvl.next = none → (s.verifyFail src c).get F.PCR_STAT.BOOTSTEP = 7)
      ∧ (c ≤ 15 → (s.verifyFail src c).get F.WVL_STAT.CAUSE = c) := by
  obtain ⟨u, hu, ⟨j, hj, e⟩ | e⟩ := s.verifyFail_cases src c
  · refine ⟨fun hn => absurd (hj.symm.trans hn) (Option.some_ne_none j), fun hc => ?_⟩
    rw [e, State.verifyBegin, State.get_updWvl, hu, State.cause_wvlFlag _ hc]
  · obtain ⟨hstep, hcause⟩ := u.get_bootStop
    rw [e]
    exact ⟨fun _ => hstep, fun hc => by rw [hcause, hu, State.cause_wvlFlag _ hc]⟩

/-! ### Boot steps 3 and 4 (R59, R62, R353) -/

theorem State.get_report (s : State) (k d : Nat) (f : Fld) : (s.report k d).get f = s.get f := by
  rw [State.get, State.reg, State.report_regs, State.get, State.reg]

theorem State.step3End_of_step3 (h : s.get F.PCR_STAT.BOOTSTEP = 3) :
    s.step3End = (s.set F.PCR_STAT.BOOTSTEP 4).updGal fun g => { g with step3 := none } := by
  rw [State.step3End, if_pos h]

/-- The limit of step 3 is noted and reported, and step 4 begins. -/
theorem exec_enumWaitTimeout {t0 : Nat} (h : s.gal.step3 = some t0) (hr : s.running = true) (hm : s.galMaster = false)
    (hs : s.gal.seen = false) (ht : t0 + 20000000 ≤ s.fclk) (hb : s.get F.PCR_STAT.BOOTSTEP = 3) (hc : s.comes isEnumFrame = false) :
    exec .enumWaitTimeout s = .next ((((s.set F.GAL_STAT.ENUM_WAIT 1).report 9 0).set F.PCR_STAT.BOOTSTEP 4).updGal fun g =>
      { g with step3 := none }) := by
  have h3 : ((s.set F.GAL_STAT.ENUM_WAIT 1).report 9 0).get F.PCR_STAT.BOOTSTEP = 3 := by
    rw [State.get_report, State.get_set_addr _ F.GAL_STAT.ENUM_WAIT F.PCR_STAT.BOOTSTEP (by decide), hb]
  change execEnumWaitTimeout s = _
  rw [← State.step3End_of_step3 h3]
  simp [execEnumWaitTimeout, h, hr, hm, hs, ht, hc]

/-- Boot step 4 ends with the boot complete. -/
theorem exec_bootStep4 (hr : s.running = true) (hb : s.get F.PCR_STAT.BOOTSTEP = 4) :
    ∃ u : State, exec .bootStep4 s = .next (u.set F.PCR_STAT.BOOTSTEP 6) := by
  change ∃ u : State, execBootStep4 s = _
  unfold execBootStep4
  rw [hr, hb]
  exact ⟨_, rfl⟩

/-- Settles O4: boot step 2 takes its candidate, what starts the blocks leaves an applied image in WVL, and each later step ends into the
next. -/
theorem bootRunsFromVerificationToCompletion : Obligations.BootRunsFromVerificationToCompletion := by
  unfold Obligations.BootRunsFromVerificationToCompletion
  refine ⟨fun s hr hb hv hl hw hlife => ?_, fun s src hm hb hv => ?_, fun s t0 h hr hm hs ht hb hc => ?_, fun s hr hb => ?_⟩
  · refine ⟨exec_goes _ s, fun i hi => ?_, fun hn he => ?_, fun he hn h0 h1 => ?_, fun he hn h0 h1 => ?_⟩
    · exact ⟨_, exec_imageSlotLoad_last hr hb hv hl hw hlife hi, rfl, hw⟩
    · exact ⟨_, exec_imageSlotLoad_port hr hb hv hl hw hlife hn he, rfl⟩
    · exact ⟨_, exec_imageSlotLoad_both hr hb hv hl hw hlife hn he h0 h1, rfl, rfl⟩
    · obtain ⟨hstep, -⟩ := (s.wvlFlag 1).get_bootStop
      exact ⟨_, exec_imageSlotLoad_none hr hb hv hl hw hlife hn he h0 h1, hstep⟩
  · cases hres : (s.verifySrc src).2 with
    | error c => exact ⟨_, exec_imageVerifyDone_error hm hb hv hres, State.verifyFail_fails _ src⟩
    | ok r =>
      obtain ⟨u, last, v, e, hwvl⟩ := (s.verifySrc src).1.imageApply_applies src r.1 r.2
      have hexec := exec_imageVerifyDone_ok hm hb hv hres
      have hrun : v.step3Begin.wvl = (u.imageRuns r.1 last).wvl := hwvl.step3Begin
      rw [e] at hexec
      exact ⟨_, hexec, congrArg (·.run) hrun, congrArg (·.verify) hrun, congrArg (·.wait) hrun, v.bootstep_step3Begin⟩
  · refine ⟨_, exec_enumWaitTimeout h hr hm hs ht hb hc, ?_, ?_, State.report_pulse _ 9 0⟩
    · rw [State.get_updGal]
      exact State.get_set_self _ F.PCR_STAT.BOOTSTEP (by decide) 4
    · rw [State.get_updGal, State.get_set_addr _ F.PCR_STAT.BOOTSTEP F.GAL_STAT.ENUM_WAIT (by decide), State.get_report]
      exact s.get_set_self F.GAL_STAT.ENUM_WAIT (by decide) 1
  · obtain ⟨u, e⟩ := exec_bootStep4 hr hb
    exact ⟨_, e, u.get_set_self F.PCR_STAT.BOOTSTEP (by decide) 6⟩

end Sys2Proof.Machine
end

section
/-! SUPPORT. Image loads: how a load opens, takes its data and closes, what its failure shows, and the bytes of an IMAGE frame (O8). -/

namespace Sys2Proof.Machine

variable {s : State}

/-! ### What WVL asks of NVS changes neither registers nor WVL (R87, R312) -/

theorem State.wvlAsk_beside (s : State) (todo : List (Nat × List Byte)) : (s.wvlAsk todo).wvl = s.wvl ∧ (s.wvlAsk todo).regs = s.regs := by
  unfold State.wvlAsk
  split
  · exact ⟨rfl, rfl⟩
  · exact ⟨rfl, rfl⟩

theorem State.get_of_regs {s t : State} (h : t.regs = s.regs) (f : Fld) : t.get f = s.get f := by
  rw [State.get, State.reg, h, State.get, State.reg]

theorem State.wvl_slotErase (s : State) (i : Fin 2) : (s.slotErase i).wvl = s.wvl :=
  (s.wvlAsk_beside [(slotPage i, erased)]).1

theorem State.get_slotErase (s : State) (i : Fin 2) (f : Fld) : (s.slotErase i).get f = s.get f :=
  State.get_of_regs (s.wvlAsk_beside [(slotPage i, erased)]).2 f

/-! ### A load that fails, or a command that is refused (R82, R88, R92) -/

theorem State.wvl_wvlFlag (s : State) (c : Nat) : (s.wvlFlag c).wvl = s.wvl := by
  rw [State.wvlFlag, State.evt_wvl, State.set_wvl]

theorem State.fail_wvlFlag (s : State) (c : Nat) : (s.wvlFlag c).get F.WVL_STAT.FAIL = 1 :=
  State.get_evt _ F.WVL_STAT.FAIL (by decide) (by decide)

/-- Every cause of Table 4.9 fits CAUSE, those of loads above 15 too. -/
theorem State.get_cause_wvlFlag (s : State) {c : Nat} (hc : c < 32) : (s.wvlFlag c).get F.WVL_STAT.CAUSE = c := by
  rw [State.wvlFlag, State.evt, State.get_set_disj _ F.WVL_STAT.FAIL F.WVL_STAT.CAUSE rfl (by decide) (by decide), State.get_mark,
    State.get_set_self _ F.WVL_STAT.CAUSE (by decide)]
  exact Nat.mod_eq_of_lt hc

section

variable {f : Fld} (hf : f.addr = R.WVL_STAT) (hl : f.lo + f.len ≤ 10 ∨ 11 ≤ f.lo)
include hf hl

/-- Beside LOADING, a stopped boot leaves WVL_STAT as it was. -/
theorem State.get_bootStop_stat (s : State) : s.bootStop.get f = s.get f := by
  have hp : f.addr ≠ F.PCR_STAT.BOOTSTEP.addr := by rw [hf]; decide
  rw [State.bootStop, State.get_updWvl, State.get_set_addr _ _ _ hp]
  exact State.get_set_disj _ F.WVL_STAT.LOADING f hf (by decide) hl.symm 0

/-- Beside LOADING, a slot that fails leaves WVL_STAT as its cause has set it. -/
theorem State.get_slotFail_stat (s : State) (i : Fin 2) (c : Nat) : (s.slotFail i c).get f = (s.wvlFlag c).get f := by
  have hs : f.addr ≠ R.WVL_SLOT i := by rw [hf]; exact wvlStat_ne_wvlSlot i
  have hv : f.addr ≠ R.WVL_VER i := by rw [hf]; simp only [R.WVL_STAT, R.WVL_VER]; omega
  rw [State.slotFail, State.get_slotErase, State.wvlDrop, State.get_of_regs (State.updHal_regs _ _), State.get_updWvl,
    State.get_set_disj _ F.WVL_STAT.LOADING f hf (by decide) hl.symm, State.get_set_addr _ (F.WVL_VER i) f hv,
    State.get_set_addr _ (F.WVL_SLOT.CAUSE i) f hs, State.get_set_addr _ (F.WVL_SLOT.STATE i) f hs]

theorem State.get_loadFail_stat (s : State) (src : ImgSrc) (c : Nat) : (s.loadFail src c).get f = (s.wvlFlag c).get f := by
  cases src with
  | slot i => exact s.get_slotFail_stat hf hl i c
  | host => exact State.get_bootStop_stat hf hl _
  | gallery => exact State.get_bootStop_stat hf hl _

end

theorem State.load_loadFail (s : State) (src : ImgSrc) (c : Nat) : (s.loadFail src c).wvl.load = none := by
  cases src with
  | slot i => rw [State.loadFail, State.slotFail, State.wvl_slotErase]; rfl
  | host => rfl
  | gallery => rfl

theorem State.cand_loadFail (h : s.wvl.cand = none) (src : ImgSrc) (c : Nat) : (s.loadFail src c).wvl.cand = none := by
  have hstop : (s.wvlFlag c).bootStop.wvl.cand = none := (congrArg (·.cand) (s.wvl_wvlFlag c)).trans h
  cases src with
  | slot i => rw [State.loadFail, State.slotFail, State.wvl_slotErase]; rfl
  | host => exact hstop
  | gallery => exact hstop

/-- A failed load shows its cause. -/
theorem State.loadFail_shows (s : State) (src : ImgSrc) {c : Nat} (hc : c < 32) :
    (s.loadFail src c).get F.WVL_STAT.CAUSE = c ∧ (s.loadFail src c).get F.WVL_STAT.FAIL = 1 := by
  rw [State.get_loadFail_stat rfl (by decide), State.get_loadFail_stat rfl (by decide)]
  exact ⟨s.get_cause_wvlFlag hc, s.fail_wvlFlag c⟩

/-! ### LOAD_BEGIN (R82, R87) -/

/-- A load from `src` stands open, its limit counted from FCLK `f`. -/
def State.loadOpen (s : State) (src : ImgSrc) (f : Nat) : State :=
  (s.set F.WVL_STAT.LOADING 1).updWvl fun w =>
    { w with load := some src, hi := 0, loadT := f, cand := none, page := none, hdr := none, head := List.replicate 32 0xFF }

theorem State.loading_loadOpen (s : State) (src : ImgSrc) (f : Nat) : (s.loadOpen src f).get F.WVL_STAT.LOADING = 1 :=
  s.get_set_self F.WVL_STAT.LOADING (by decide) 1

theorem State.get_loadOpen (s : State) (src : ImgSrc) (f : Nat) {g : Fld} (hg : g.addr ≠ R.WVL_STAT) :
    (s.loadOpen src f).get g = s.get g :=
  s.get_set_addr F.WVL_STAT.LOADING g hg 1

/-- Slot `i` shows that it is being loaded, and its header page is to be erased. -/
def State.slotOpen (s : State) (i : Fin 2) : State := ((s.set (F.WVL_SLOT.STATE i) 3).set (F.WVL_VER i) 0).slotErase i

theorem State.state_slotOpen (s : State) (i : Fin 2) : (s.slotOpen i).get (F.WVL_SLOT.STATE i) = 3 := by
  have hv : R.WVL_SLOT i ≠ R.WVL_VER i := by simp only [R.WVL_SLOT, R.WVL_VER]; omega
  rw [State.slotOpen, State.get_slotErase, State.get_set_addr _ (F.WVL_VER i) _ hv]
  exact s.get_set_self (F.WVL_SLOT.STATE i) (by simp [F.WVL_SLOT.STATE]) 3

section

variable (hm : s.islandUp .memory = true) (hl : s.wvl.load = none) (hv : s.wvl.verify = none) (hh : s.bit F.WVL_STAT.HOTPEND = false)
include hm hl hv hh

theorem exec_wvlLoadBegin_slot (hb : s.get F.PCR_STAT.BOOTSTEP = 6) (hlife : s.life = 1 ∨ s.life = 2) :
    exec .wvlLoadBegin s = .next ((s.slotOpen s.loadTarget).loadOpen (.slot s.loadTarget) s.fclk) := by
  change execWvlLoadBegin s = _
  simp [execWvlLoadBegin, State.loadBegin, State.slotOpen, State.loadOpen, hm, hl, hv, hh, hb, hlife]

theorem exec_wvlLoadBegin_refused (hb : s.get F.PCR_STAT.BOOTSTEP = 6) (hlife : s.life = 0 ∨ s.life = 3) :
    exec .wvlLoadBegin s = .next (s.wvlFlag 5) := by
  have hno : ¬ (s.life = 1 ∨ s.life = 2) := by omega
  change execWvlLoadBegin s = _
  simp [execWvlLoadBegin, State.loadBegin, hm, hl, hv, hh, hb, hno]

theorem exec_wvlLoadBegin_host (hb : s.get F.PCR_STAT.BOOTSTEP = 7) (hw : s.wvl.wait = true) :
    exec .wvlLoadBegin s = .next ((s.hall15Drop.set F.PCR_STAT.BOOTSTEP 2).loadOpen .host s.fclk) := by
  change execWvlLoadBegin s = _
  simp [execWvlLoadBegin, State.loadBegin, State.loadOpen, hm, hl, hv, hh, hb, hw]

end

/-! ### WVL_DATA (R82) -/

/-- Two bytes stand at offset `o` of HALL15, and the words there are sound. -/
def State.hall15Put (s : State) (o : Nat) (bs : List Byte) : State :=
  { s.setHallBytes (hall15 + o) bs with hallErr := errPut s.hallErr ((hall15 + o) / 8) none }

theorem State.setHallBytes_regs (s : State) (a : Nat) (l : List Byte) : (s.setHallBytes a l).regs = s.regs := by
  induction l generalizing s a with
  | nil => rfl
  | cons b l ih => exact ih (s.setHallByte a b) (a + 1)

theorem State.get_hall15Put (s : State) (o : Nat) (bs : List Byte) (f : Fld) : (s.hall15Put o bs).get f = s.get f :=
  State.get_of_regs (s.setHallBytes_regs (hall15 + o) bs) f

theorem State.hallByte_hall15Put (s : State) (o : Nat) (bs : List Byte) {i : Nat} (hi : i < bs.length) :
    (s.hall15Put o bs).hallByte (hall15 + o + i) = bs[i] :=
  s.hallByte_setBytes_at bs (hall15 + o) i hi

/-- Bytes taken in FCLK `f` move the offset on, and count as reached. -/
def State.dataTaken (s : State) (f : Nat) : State :=
  (s.incW F.WVL_OFS).updWvl fun w => { w with hi := max w.hi ((s.incW F.WVL_OFS).get F.WVL_OFS), loadT := f }

theorem State.hallByte_dataTaken (s : State) (f a : Nat) : (s.dataTaken f).hallByte a = s.hallByte a := by
  rw [State.hallByte, State.dataTaken, State.updWvl_halls, State.incW_halls, State.hallByte]

theorem exec_wvlDataWrite_host (v : BitVec 16) (hm : s.islandUp .memory = true) (hl : s.wvl.load = some .host)
    (ho : 2 * s.get F.WVL_OFS < 524288) :
    exec (.wvlDataWrite v) s = .next ((s.hall15Put (2 * s.get F.WVL_OFS) (leBytes 2 v.toNat)).dataTaken s.fclk) := by
  change execWvlDataWrite v s = _
  simp [execWvlDataWrite, State.loadData, State.hall15Put, State.dataTaken, hm, hl, ho]

/-! ### LOAD_END (R82, R87) -/

/-- The load is closed, and the `n` bytes that came from `src` are to be verified. -/
def State.loadClose (s : State) (src : ImgSrc) (n : Nat) : State :=
  (s.set F.WVL_STAT.LOADING 0).updWvl fun w => { w with load := none, verify := some src, recv := n }

theorem exec_wvlLoadEnd_slot {i : Fin 2} (hm : s.islandUp .memory = true) (hl : s.wvl.load = some (.slot i)) :
    exec .wvlLoadEnd s = .next (s.pageFlush.loadClose (.slot i) (2 * s.wvl.hi)) := by
  change execWvlLoadEnd s = _
  simp [execWvlLoadEnd, State.loadEnd, State.loadClose, hm, hl]

/-- With no error in the halls, WVL reads HALL15 as it stands and changes nothing. -/
theorem State.hall15Read_clean (h : s.hallErr = []) (o n : Nat) : s.hall15Read o n = (s, s.hallBytes (hall15 + o) n) := by
  simp [State.hall15Read, State.hallBytes, State.each, errGet, h]

/-- A padding byte accounts for one byte too many, and for no missing one. -/
theorem padLen_ne_of_short {len recv : Nat} (h : recv + 1 < len) (pad : Byte) : len ≠ padLen len recv pad := by
  unfold padLen
  rw [if_neg (by simp only [Bool.and_eq_true, decide_eq_true_eq]; omega)]
  omega

theorem exec_wvlLoadEnd_short (hm : s.islandUp .memory = true) (hl : s.wvl.load = some .host) (he : s.hallErr = [])
    (hn : 2 * s.wvl.hi + 1 < leNat (s.hallBytes (hall15 + 12) 4)) : exec .wvlLoadEnd s = .next (s.loadFail .host 4) := by
  change execWvlLoadEnd s = _
  simp [execWvlLoadEnd, State.loadEnd, hm, hl, State.hall15Read_clean he, padLen_ne_of_short hn]

/-! ### ABORT and the time-out (R88) -/

theorem exec_wvlAbort_load {src : ImgSrc} (hm : s.islandUp .memory = true) (hl : s.wvl.load = some src) :
    exec .wvlAbort s = .next ((s.updWvl fun w => { w with cand := none }).loadFail src 21) := by
  change execWvlAbort s = _
  simp [execWvlAbort, State.loadAbort, State.updWvl, hm, hl]

theorem exec_wvlLoadTimeout_load {src : ImgSrc} (hm : s.islandUp .memory = true) (hl : s.wvl.load = some src) (hg : src ≠ .gallery)
    (ht : s.wvl.loadT + 400000000 ≤ s.fclk) (hc : s.comes isLoadData = false) :
    exec .wvlLoadTimeout s = .next (s.loadFail src 16) := by
  change execWvlLoadTimeout s = _
  simp [execWvlLoadTimeout, hm, hl, hg, ht, hc]

/-! ### IMAGE frames (R365) -/

/-- The bytes of the IMAGE frame `r` stand at their offset of HALL15, as far as it reaches, the words there are sound, and `r` waits no
longer. -/
def State.imageTaken (s : State) (r : RxFrame) : State :=
  let o := leAt r.f.payload 4 4
  let bs := (r.f.payload.drop 16).take (524288 - o)
  { (s.updGal fun g => { g with rx := g.rx.erase r }).setHallBytes (hall15 + o) bs with
    hallErr := s.hallErr.filter fun e => !(decide (hall15 + o < 8 * e.1 + 8) && decide (8 * e.1 < hall15 + o + bs.length)) }

/-- An image over the Gallery goes on. -/
def State.imageGoesOn (s : State) : State := (s.set F.WVL_STAT.LOADING 1).updWvl fun w => { w with load := some .gallery }

theorem exec_imageFrameReceive_all {r : RxFrame} (hg : s.galUp = true) (hw : s.imageWait = true) (hm : s.islandUp .memory = true)
    (hr : s.rxFirst (fun r => r.f.kind = 13) = some r) (hid : leNat (slice r.f.payload 8 8) = 0) :
    exec .imageFrameReceive s = .next
      (if bitOf (leAt r.f.payload 0 1) 0 then
        (s.imageTaken r).loadClose .gallery (leAt r.f.payload 4 4 + (r.f.payload.length - 16))
      else (s.imageTaken r).imageGoesOn) := by
  have hwait : (s.updGal fun g => { g with rx := g.rx.erase r }).imageWait = true := hw
  have hup : (s.updGal fun g => { g with rx := g.rx.erase r }).islandUp .memory = true := hm
  change execImageFrameReceive s = _
  simp only [execImageFrameReceive, State.onFrame, State.rxTake, hg, hr, Option.map_some, if_true, hwait, hup, hid, decide_true,
    Bool.true_or, Bool.and_true, List.length_drop]
  rfl

/-- Settles O8: each command leaves the state that its equation above names, and every failure of a load goes through `State.loadFail`. -/
theorem imageLoadsBeginFillAndEnd : Obligations.ImageLoadsBeginFillAndEnd := by
  unfold Obligations.ImageLoadsBeginFillAndEnd
  refine ⟨fun s hm hl hv hh => ⟨fun hb hlife => ?_, fun hb hlife => ?_, fun hb hw => ?_⟩, fun s v hm hl ho => ?_, fun s i hm hl => ?_,
    fun s hm hl he hn => ?_, fun s src hm hl => ⟨?_, fun hg ht hc => ?_⟩, fun s r hg hw hm hr hid => ?_⟩
  · refine ⟨_, exec_wvlLoadBegin_slot hm hl hv hh hb hlife, rfl, State.loading_loadOpen _ _ _, ?_, rfl, rfl⟩
    rw [State.get_loadOpen _ _ _ (wvlStat_ne_wvlSlot _).symm, State.state_slotOpen]
  · refine ⟨_, exec_wvlLoadBegin_refused hm hl hv hh hb hlife, ?_, s.get_cause_wvlFlag (by decide), s.fail_wvlFlag 5⟩
    rw [State.wvl_wvlFlag, hl]
  · refine ⟨_, exec_wvlLoadBegin_host hm hl hv hh hb hw, rfl, ?_, State.loading_loadOpen _ _ _⟩
    rw [State.get_loadOpen _ _ _ (by decide)]
    exact State.get_set_self _ F.PCR_STAT.BOOTSTEP (by decide) 2
  · have hbyte (i : Nat) (hi : i < 2) := s.hallByte_hall15Put (2 * s.get F.WVL_OFS) (leBytes 2 v.toNat) hi
    refine ⟨_, exec_wvlDataWrite_host v hm hl ho, ?_, ?_, ?_, rfl⟩
    · rw [State.hallByte_dataTaken]
      exact hbyte 0 (by decide)
    · rw [State.hallByte_dataTaken]
      exact hbyte 1 (by decide)
    rw [State.dataTaken, State.get_updWvl, State.incW, State.get_set_self _ F.WVL_OFS (by decide), State.get_hall15Put]
  · exact ⟨_, exec_wvlLoadEnd_slot hm hl, rfl, rfl, rfl, s.pageFlush.get_set_self F.WVL_STAT.LOADING (by decide) 0⟩
  · obtain ⟨hstep, -⟩ := (s.wvlFlag 4).get_bootStop
    obtain ⟨hcause, -⟩ := s.loadFail_shows .host (c := 4) (by decide)
    exact ⟨_, exec_wvlLoadEnd_short hm hl he hn, hstep, hcause, s.load_loadFail .host 4⟩
  · exact ⟨_, exec_wvlAbort_load hm hl, State.load_loadFail _ src 21, State.cand_loadFail rfl src 21,
      State.loadFail_shows _ src (by decide)⟩
  · obtain ⟨hcause, -⟩ := s.loadFail_shows src (c := 16) (by decide)
    exact ⟨_, exec_wvlLoadTimeout_load hm hl hg ht hc, s.load_loadFail src 16, hcause⟩
  · refine ⟨_, exec_imageFrameReceive_all hg hw hm hr hid, ?_⟩
    split
    · exact ⟨rfl, rfl⟩
    · rfl

end Sys2Proof.Machine
end

section
/-! SUPPORT. What the stitch unit leaves alone of the trackers: their registers, what stands behind them, the beacons on their way, the
counts of their source BLATE; and the findings it adds to. One lemma per operation that a tracker calls or that waits in the unit (for O11
and O13). -/

set_option Elab.async false

namespace Sys2Proof.Machine

/-- The registers of the trackers (Table 1.4), and the registers of their sources BLATE, 26 + 16 n (Table 5.10). -/
abbrev TrkReg (a : Nat) : Prop := (0x1000 ≤ a ∧ a < 0x2000) ∨ (0x6500 ≤ a ∧ a < 0x6550 ∧ a % 16 = 10)

/-- What the stitch unit leaves of the trackers, from a state `s₀` to a later state `s`. -/
structure StairKept (s₀ s : State) : Prop where
  reg : ∀ a, TrkReg a → s.reg a = s₀.reg a
  trk : s.trk = s₀.trk
  bcnIn : s.bcnIn = s₀.bcnIn
  pulses : ∀ g ∈ s₀.por.pulses, g ∈ s.por.pulses

variable {s₀ s t : State}

/-! ### The rules that every proof is made of -/

theorem StairKept.refl (s : State) : StairKept s s := ⟨fun _ _ => rfl, rfl, rfl, fun _ hg => hg⟩

theorem StairKept.trans {s t u : State} (h : StairKept s t) (h' : StairKept t u) : StairKept s u :=
  ⟨fun a ha => (h'.reg a ha).trans (h.reg a ha), h'.trk.trans h.trk, h'.bcnIn.trans h.bcnIn, fun g hg => h'.pulses g (h.pulses g hg)⟩

/-- An update of other fields. -/
theorem StairKept.frame (h : StairKept s₀ s) (hr : t.regs = s.regs := by rfl) (hk : t.trk = s.trk := by rfl)
    (hb : t.bcnIn = s.bcnIn := by rfl) (hp : t.por.pulses = s.por.pulses := by rfl) : StairKept s₀ t :=
  h.trans ⟨fun a _ => congrArg (cellGet resetOf · a) hr, hk, hb, fun _ hg => hp ▸ hg⟩

theorem StairKept.get (h : StairKept s₀ s) {f : Fld} (hf : TrkReg f.addr) : s.get f = s₀.get f :=
  congrArg (fldGet f) (h.reg _ hf)

theorem StairKept.getTrk (h : StairKept s₀ s) (n : Nat) : s.getTrk n = s₀.getTrk n :=
  congrArg (vget · n Trk.reset) h.trk

theorem StairKept.ite {c : Prop} {_ : Decidable c} (hs : StairKept s₀ s) (ht : StairKept s₀ t) :
    StairKept s₀ (if c then s else t) := by
  split
  · exact hs
  · exact ht

/-- `if c then f s else s`, in a chain of updates. -/
theorem StairKept.when {c : Prop} {_ : Decidable c} (h : StairKept s₀ s) (hf : StairKept s₀ s → StairKept s₀ t) :
    StairKept s₀ (if c then t else s) :=
  .ite (hf h) h

/-- `if c then f s else g s`, in a chain of updates. -/
theorem StairKept.branch {c : Prop} {_ : Decidable c} {u : State} (h : StairKept s₀ s) (hf : StairKept s₀ s → StairKept s₀ t)
    (hg : StairKept s₀ s → StairKept s₀ u) : StairKept s₀ (if c then t else u) :=
  .ite (hf h) (hg h)

theorem StairKept.each {α : Type} {l : List α} {f : State → α → State} (h : StairKept s₀ s)
    (hf : ∀ s x, StairKept s₀ s → StairKept s₀ (f s x)) : StairKept s₀ (s.each l f) :=
  State.each_keeps (StairKept s₀) f hf l s h

/-! ### Registers of other blocks -/

theorem StairKept.setReg (h : StairKept s₀ s) {a : Nat} {v : Word} (ha : ¬ TrkReg a := by decide) : StairKept s₀ (s.setReg a v) :=
  h.trans ⟨fun _ hb => s.reg_setReg_ne (by rintro rfl; exact ha hb) v, rfl, rfl, fun _ hg => hg⟩

theorem StairKept.set (h : StairKept s₀ s) {f : Fld} {v : Nat} (hf : ¬ TrkReg f.addr := by decide) : StairKept s₀ (s.set f v) :=
  h.setReg hf

theorem StairKept.mark (h : StairKept s₀ s) {a : Nat} {g : Word → Word} : StairKept s₀ (s.mark a g) :=
  .ite h.frame h

theorem StairKept.evt (h : StairKept s₀ s) {f : Fld} (hf : ¬ TrkReg f.addr := by decide) : StairKept s₀ (s.evt f) :=
  h.mark.set hf

theorem StairKept.evtInc (h : StairKept s₀ s) {f : Fld} (hf : ¬ TrkReg f.addr := by decide) : StairKept s₀ (s.evtInc f) :=
  h.mark.set hf

theorem StairKept.recordReject (h : StairKept s₀ s) {a : Nat} : StairKept s₀ (s.recordReject a) :=
  h.set.evtInc

theorem not_trkReg_stitchStatus (n : Nat) : ¬ TrkReg (R.STITCH_STATUS n) := by
  simp only [R.STITCH_STATUS]
  omega

/-- A field of W6 of a stitch is set. -/
theorem StairKept.status (h : StairKept s₀ s) {f : Fld} {v : Nat} (hf : ∃ n, f.addr = R.STITCH_STATUS n := by exact ⟨_, rfl⟩) :
    StairKept s₀ (s.set f v) := by
  obtain ⟨n, hn⟩ := hf
  exact h.set (hn ▸ not_trkReg_stitchStatus n)

/-- An event sets a flag in W6 of a stitch. -/
theorem StairKept.statusEvt (h : StairKept s₀ s) {f : Fld} (hf : ∃ n, f.addr = R.STITCH_STATUS n := by exact ⟨_, rfl⟩) :
    StairKept s₀ (s.evt f) :=
  h.mark.status hf

theorem StairKept.stitchLast (h : StairKept s₀ s) {n v : Nat} : StairKept s₀ (s.set (F.STITCH_LAST n) v) :=
  h.set (by simp only [F.STITCH_LAST, R.STITCH_LAST]; omega)

/-! ### Findings, and the sources of the stitches -/

theorem StairKept.reportSig (h : StairKept s₀ s) {g : FaultSig} : StairKept s₀ (s.reportSig g) :=
  .ite h <| .ite (h.trans ⟨fun _ _ => rfl, rfl, rfl, fun _ => List.mem_append_left _⟩)
    (h.trans ⟨fun _ _ => rfl, rfl, rfl, fun _ => List.mem_append_left _⟩)

theorem StairKept.report (h : StairKept s₀ s) {src det : Nat} : StairKept s₀ (s.report src det) :=
  h.reportSig

theorem StairKept.raise (h : StairKept s₀ s) {k : Nat} (hk : ¬ TrkReg (R.IRT_SRC k)) : StairKept s₀ (s.raise k) :=
  .ite h <| .ite h.frame <| .ite h.evtInc (h.set hk)

theorem not_trkReg_stitchSrc (n : Nat) : ¬ TrkReg (R.IRT_SRC (80 + n)) := by
  simp only [R.IRT_SRC]
  omega

theorem StairKept.stitchRaise (h : StairKept s₀ s) {c : Bool} {n : Nat} : StairKept s₀ (s.raiseIf c (80 + n)) :=
  .ite (h.raise (not_trkReg_stitchSrc n)) h

/-! ### Stitches (R153 to R178) -/

theorem StairKept.updSt (h : StairKept s₀ s) {n : Nat} {f : Stitch → Stitch} : StairKept s₀ (s.updSt n f) :=
  h.frame

theorem StairKept.stSetShadow (h : StairKept s₀ s) {n w v : Nat} : StairKept s₀ (s.stSetShadow n w v) :=
  h.updSt.status

theorem StairKept.stCommit (h : StairKept s₀ s) {n : Nat} : StairKept s₀ (s.stCommit n) :=
  .ite h (h.status.when (·.statusEvt.stitchRaise))

theorem StairKept.stFinish (h : StairKept s₀ s) {n res : Nat} {nxt : Option Nat} : StairKept s₀ (s.stFinish n res nxt) :=
  h.status.status.status.status.status.status.updSt.stitchRaise

theorem StairKept.stCrowd (h : StairKept s₀ s) {n : Nat} : StairKept s₀ (s.stCrowd n) :=
  h.statusEvt.evt.set.evtInc.report.stitchRaise

theorem StairKept.stLoadStart (h : StairKept s₀ s) {n trk st : Nat} : StairKept s₀ (s.stLoadStart n trk st) :=
  .ite h <| .ite h.updSt h.updSt.stCrowd

theorem StairKept.stLoadEnd (h : StairKept s₀ s) {n : Nat} : StairKept s₀ (s.stLoadEnd n) :=
  .ite h <| .ite h.updSt h.updSt.stCrowd

theorem StairKept.stBegin (h : StairKept s₀ s) {n trk res d : Nat} : StairKept s₀ (s.stBegin n trk res d) :=
  h.status.stitchLast.updSt.stitchRaise.when (·.stLoadEnd)

theorem StairKept.stLate (h : StairKept s₀ s) {n trk lam : Nat} : StairKept s₀ (s.stLate n trk lam) := by
  unfold State.stLate
  split
  · exact h
  · exact .ite h.stBegin <| .ite (.ite h.stBegin h.stFinish) h.stFinish

theorem StairKept.stArm (h : StairKept s₀ s) {n trk st : Nat} : StairKept s₀ (s.stArm n trk st) :=
  h.updSt.status.branch (fun h => .ite h.stBegin h.stLate) fun h => .ite h.stLoadStart h

theorem StairKept.stScan (h : StairKept s₀ s) {n : Nat} : StairKept s₀ (s.stScan n) := by
  refine .ite h <| .ite h.updSt ?_
  split
  · exact h.updSt.when (·.updSt.when (·.stArm))
  · split
    · exact h.updSt.when (·.stLoadStart)
    · exact h.updSt
  · exact h.updSt.when (·.stLoadEnd)
  · exact h.updSt

theorem StairKept.stPlan (h : StairKept s₀ s) {n : Nat} : StairKept s₀ (s.stPlan n) :=
  (h.when (·.updSt.status.status)).updSt.branch (·.updSt) fun h => .ite h.status <| .ite h h.status.updSt

theorem StairKept.stMoveStart (h : StairKept s₀ s) {t old new : Nat} {mv : Move} {n : Nat} :
    StairKept s₀ (s.stMoveStart t old new mv n) := by
  unfold State.stMoveStart
  split
  · exact h
  · exact .ite h <| .ite h <| .ite h.stBegin h.updSt.stLate

theorem StairKept.stMovePlan (h : StairKept s₀ s) {t old new n : Nat} : StairKept s₀ (s.stMovePlan t old new n) :=
  .ite h h.stPlan

theorem StairKept.stWord (h : StairKept s₀ s) {t old new : Nat} {mv : Move} : StairKept s₀ (s.stWord t old new mv) :=
  .ite h ((h.each fun _ _ h => h.stMoveStart).each fun _ _ h => h.stMovePlan)

theorem StairKept.stOnEvent (h : StairKept s₀ s) {e : TrkEvent} {n : Nat} : StairKept s₀ (s.stOnEvent e n) := by
  unfold State.stOnEvent
  split
  · exact h.stFinish
  · split
    · exact h.stFinish
    · exact .ite h h.stFinish
    · exact .ite h h.stFinish
  · exact h

theorem StairKept.stEvent (h : StairKept s₀ s) {t : Nat} {e : TrkEvent} : StairKept s₀ (s.stEvent t e) :=
  h.each fun _ _ h => h.stOnEvent

theorem StairKept.stCheck (h : StairKept s₀ s) {chk : Option (Fin 128)} : StairKept s₀ (s.stCheck chk) := by
  unfold State.stCheck
  split
  · exact h
  · exact h.statusEvt.evt.set.set.evtInc.report.stitchRaise

/-! ### What waits in the unit for the steps of an FCLK (R167) -/

theorem StairKept.stCancel (h : StairKept s₀ s) {n : Nat} : StairKept s₀ (s.stCancel n) := by
  unfold State.stCancel
  split
  · exact h.stFinish
  · exact h.stFinish
  · exact h.stFinish
  · exact h

theorem StairKept.stParamWrite (h : StairKept s₀ s) {n w : Nat} {src : Master} {v : Word} :
    StairKept s₀ (s.stParamWrite n w src v) :=
  .ite h (h.stSetShadow.when (·.recordReject))

theorem StairKept.stItem (h : StairKept s₀ s) {i : SuItem} : StairKept s₀ (s.stItem i) := by
  unfold State.stItem
  split
  · exact .ite h h.stSetShadow.updSt
  · exact h.stCommit

theorem StairKept.suScan (h : StairKept s₀ s) {chk : Option (Fin 128)} : StairKept s₀ (s.suScan chk) :=
  .ite h.stCheck (h.each fun _ _ h => h.stScan).frame.stCheck

theorem StairKept.suDo (h : StairKept s₀ s) {a : SuAct} : StairKept s₀ (s.suDo a) := by
  unfold State.suDo
  split
  · exact h.stParamWrite
  · exact h.stItem
  · exact h.stCancel
  · exact h.stCommit
  · exact h.suScan

theorem StairKept.suStep (h : StairKept s₀ s) {k : Nat} : StairKept s₀ (s.suStep k) :=
  .ite (h.frame.each fun _ _ h => h.suDo) h

theorem StairKept.suFlush (h : StairKept s₀ s) : StairKept s₀ s.suFlush :=
  .ite h h.suStep.suStep.suStep

end Sys2Proof.Machine
end

section
/-! SUPPORT. A tracker's commands outside an edge: RESYNC, RUN, the counts, the history FIFO and the geometry registers (O11). -/

set_option Elab.async false

namespace Sys2Proof.Machine

/-! ### What updates beside a field leave of it -/

@[simp] theorem State.get_updTrk (s : State) (n : Nat) (g : Trk → Trk) (f : Fld) : (s.updTrk n g).get f = s.get f := rfl

@[simp] theorem State.getTrk_set (s : State) (f : Fld) (v n : Nat) : (s.set f v).getTrk n = s.getTrk n := rfl

@[simp] theorem State.getTrk_updTrk (s : State) (n : Fin 4) (g : Trk → Trk) : (s.updTrk n g).getTrk n = g (s.getTrk n) :=
  vget_vupd_self s.trk n.isLt g Trk.reset

theorem State.get_raise_below (s : State) (k : Nat) {f : Fld} (h : f.addr < R.IRT_STAT) : (s.raise k).get f = s.get f := by
  have hsrc : f.addr ≠ R.IRT_SRC k := by
    simp only [R.IRT_STAT, R.IRT_SRC] at *
    omega
  rw [State.get, State.reg_raise s k _ hsrc h.ne, State.get]

/-- The record of a rejected write stands below the registers of the trackers. -/
theorem State.get_recordReject_above (s : State) (a : Nat) {f : Fld} (h : 0x1000 ≤ f.addr) : (s.recordReject a).get f = s.get f :=
  congrArg (fldGet f) (s.reg_recordReject a (Nat.ne_of_gt (Nat.lt_of_lt_of_le (by decide : R.WVL_WLREJ < 0x1000) h)))

/-- A register of a tracker by its offset. -/
theorem stair_above (n c : Nat) : 0x1000 ≤ 0x1000 + 0x400 * n + c := by omega

@[simp] theorem State.regs_sendBeacon (s : State) (n : Nat) : (s.sendBeacon n).regs = s.regs := by
  unfold State.sendBeacon
  split <;> rfl

@[simp] theorem State.get_sendBeacon (s : State) (n : Nat) (f : Fld) : (s.sendBeacon n).get f = s.get f :=
  State.get_of_regs (s.regs_sendBeacon n) f

@[simp] theorem State.por_sendBeacon (s : State) (n : Nat) : (s.sendBeacon n).por = s.por := by
  unfold State.sendBeacon
  split <;> rfl

@[simp] theorem State.inp_sendBeacon (s : State) (n : Nat) : (s.sendBeacon n).inp = s.inp := by
  unfold State.sendBeacon
  split <;> rfl

@[simp] theorem State.getTrk_sendBeacon (s : State) (n m : Nat) : (s.sendBeacon n).getTrk m = s.getTrk m := by
  unfold State.sendBeacon
  split <;> rfl

/-! ### A loss of sync (R121, R122) -/

theorem State.get_leaveSync (s : State) (n : Fin 4) (e : TrkEvent) {f : Fld} (hf : TrkReg f.addr) (h : f.addr ≠ R.STAIR_ISTAT n) :
    (s.leaveSync n e).get f = s.get f := by
  unfold State.leaveSync
  rw [State.get_updTrk, State.get_set_addr _ _ _ h, State.get_set_addr _ _ _ h]
  exact (StairKept.refl s).stEvent.get hf

/-- What a loss shows in the registers of its tracker: the state and the cause given, and beside STAT and ISTAT what stood before. -/
theorem State.get_enterLoss (s : State) (n : Fin 4) (st cause : Nat) (e : TrkEvent) (src : Nat) {f : Fld}
    (hf : 0x1000 ≤ f.addr ∧ f.addr < 0x2000) :
    (s.enterLoss n st cause e src).get f
      = (((s.leaveSync n e).set (F.STAIR_STAT.STATE n) st).set (F.STAIR_STAT.CAUSE n) cause).get f := by
  unfold State.enterLoss
  rw [State.get_sendBeacon, State.get_report, State.get_raise_below _ _ (by simp only [R.IRT_STAT]; omega)]

theorem State.trkState_enterLoss (s : State) (n : Fin 4) {st : Nat} (hst : st < 8) (cause : Nat) (e : TrkEvent) (src : Nat) :
    (s.enterLoss n st cause e src).trkState n = st := by
  rw [State.trkState, State.get_enterLoss _ _ _ _ _ _ (by decide +revert),
    State.get_set_apart _ _ _ (show 3 + 4 ≤ 20 by decide) (fun _ => .inr (by exact le_refl 3)),
    State.get_set_self _ _ (show 0 + 3 ≤ 20 by decide)]
  exact Nat.mod_eq_of_lt hst

theorem State.cause_enterLoss (s : State) (n : Fin 4) (st : Nat) {cause : Nat} (hc : cause < 16) (e : TrkEvent) (src : Nat) :
    (s.enterLoss n st cause e src).get (F.STAIR_STAT.CAUSE n) = cause := by
  rw [State.get_enterLoss _ _ _ _ _ _ (by decide +revert), State.get_set_self _ _ (show 3 + 4 ≤ 20 by decide)]
  exact Nat.mod_eq_of_lt hc

/-- A field of another register of the trackers. -/
theorem State.get_enterLoss_ne (s : State) (n : Fin 4) (st cause : Nat) (e : TrkEvent) (src : Nat) {f : Fld}
    (hf : 0x1000 ≤ f.addr ∧ f.addr < 0x2000) (h1 : f.addr ≠ R.STAIR_STAT n) (h2 : f.addr ≠ R.STAIR_ISTAT n) :
    (s.enterLoss n st cause e src).get f = s.get f := by
  rw [State.get_enterLoss _ _ _ _ _ _ hf, State.get_set_addr _ _ _ h1, State.get_set_addr _ _ _ h1,
    State.get_leaveSync _ _ _ (.inl hf) h2]

theorem State.pulse_enterLoss (s : State) (n st cause : Nat) (e : TrkEvent) (src : Nat) :
    ((s.enterLoss n st cause e src).por.pulses.any fun p => p.src = 12 + n) = true := by
  unfold State.enterLoss
  rw [State.por_sendBeacon]
  exact State.report_pulse _ _ _

theorem State.get_inc_ne (s : State) {f g : Fld} (h : g.addr ≠ f.addr) : (s.inc f).get g = s.get g :=
  s.get_set_addr f g h _

theorem State.trkState_enterLost (s : State) (n : Fin 4) (cause : Nat) : (s.enterLost n cause).trkState n = 3 := by
  rw [State.trkState, State.enterLost, State.get_inc_ne _ (by decide +revert)]
  exact s.trkState_enterLoss n (by decide) cause _ _

theorem State.cause_enterLost (s : State) (n : Fin 4) {cause : Nat} (hc : cause < 16) :
    (s.enterLost n cause).get (F.STAIR_STAT.CAUSE n) = cause := by
  rw [State.enterLost, State.get_inc_ne _ (by decide +revert)]
  exact s.cause_enterLoss n 3 hc _ _

theorem State.get_enterLost_ne (s : State) (n : Fin 4) (cause : Nat) {f : Fld} (hf : 0x1000 ≤ f.addr ∧ f.addr < 0x2000)
    (h1 : f.addr ≠ R.STAIR_STAT n) (h2 : f.addr ≠ R.STAIR_ISTAT n) (h3 : f.addr ≠ R.STAIR_SYNCCNT n) :
    (s.enterLost n cause).get f = s.get f := by
  rw [State.enterLost, State.get_inc_ne _ h3, State.get_enterLoss_ne _ _ _ _ _ _ hf h1 h2]

theorem State.word_enterLost (s : State) (n : Fin 4) (cause : Nat) : (s.enterLost n cause).word n = s.word n :=
  s.get_enterLost_ne n cause (f := F.STAIR_ANGLE n) (by decide +revert) (by decide +revert) (by decide +revert) (by decide +revert)

theorem State.pulse_enterLost (s : State) (n cause : Nat) :
    ((s.enterLost n cause).por.pulses.any fun p => p.src = 12 + n) = true :=
  s.pulse_enterLoss n 3 cause .lost 2

/-! ### Entry to SEARCH (R123) -/

/-- The registers that an entry to SEARCH clears, LEN apart, which takes the cycle length of a written TPTLOG. -/
def State.searchCleared (s : State) (n : Nat) : State :=
  let s := (s.set (F.STAIR_STAT.STATE n) 0).set (F.STAIR_STAT.FLIGHT n) 0
  let s := (s.set (F.STAIR_ANGLE n) 0).set (F.STAIR_CYCNT n) 0
  ((s.set (F.STAIR_ISTAT.QOK n) 0).set (F.STAIR_ISTAT.TPLFULL n) 0).set (F.STAIR_ISTAT.PACT n) 0

theorem State.inp_searchCleared (s : State) (n : Nat) : (s.searchCleared n).inp = s.inp := by
  simp only [State.searchCleared, State.set_inp]

theorem State.por_searchCleared (s : State) (n : Nat) : (s.searchCleared n).por = s.por := by
  simp only [State.searchCleared, State.set_por]

/-- An entry to SEARCH clears registers, sets LEN where the tracker has a cycle, discards the held stamps, and sends a beacon where the
state changes. -/
theorem State.enterSearch_eq (s : State) (n : Nat) : ∃ (u : State) (g : Trk → Trk),
    (u = s.searchCleared n ∨ ∃ v, u = (s.searchCleared n).set (F.STAIR_LEN n) v) ∧ (∀ t, (g t).last = none)
      ∧ s.enterSearch n = if s.trkState n = 0 then u.updTrk n g else ((u.updTrk n g).multNow n).sendBeacon n := by
  refine ⟨_, _, ?_, fun _ => ?_, rfl⟩
  · exact (ite_eq_or_eq _ _ _).symm.imp id fun h => ⟨_, h⟩
  · rfl

/-- What an entry to SEARCH leaves in the registers, at the inputs and at the Porter, and of the held stamps. -/
theorem State.enterSearch_leaves (s : State) (n : Fin 4) :
    (∃ u : State, (u = s.searchCleared n ∨ ∃ v, u = (s.searchCleared n).set (F.STAIR_LEN n) v) ∧ (s.enterSearch n).regs = u.regs)
      ∧ (s.enterSearch n).inp = s.inp ∧ (s.enterSearch n).por = s.por ∧ ((s.enterSearch n).getTrk n).last = none := by
  obtain ⟨u, g, hu, hg, he⟩ := s.enterSearch_eq n
  have hinp : u.inp = s.inp := by
    obtain rfl | ⟨v, rfl⟩ := hu
    · exact s.inp_searchCleared n
    · rw [State.set_inp, State.inp_searchCleared]
  have hpor : u.por = s.por := by
    obtain rfl | ⟨v, rfl⟩ := hu
    · exact s.por_searchCleared n
    · rw [State.set_por, State.por_searchCleared]
  rw [he]
  split
  · exact ⟨⟨u, hu, rfl⟩, hinp, hpor, by rw [State.getTrk_updTrk, hg]⟩
  · refine ⟨⟨u, hu, State.regs_sendBeacon _ _⟩, ?_, ?_, ?_⟩
    · rw [State.inp_sendBeacon]
      exact hinp
    · rw [State.por_sendBeacon]
      exact hpor
    · rw [State.getTrk_sendBeacon, State.multNow, State.getTrk_updTrk, State.getTrk_updTrk, hg]

/-- A field beside LEN after an entry to SEARCH. -/
theorem State.get_enterSearch (s : State) (n : Fin 4) {f : Fld} (hf : f.addr ≠ R.STAIR_LEN n) :
    (s.enterSearch n).get f = (s.searchCleared n).get f := by
  obtain ⟨⟨u, hu, hr⟩, -⟩ := s.enterSearch_leaves n
  rw [State.get_of_regs hr]
  obtain rfl | ⟨v, rfl⟩ := hu
  · rfl
  · exact State.get_set_addr _ _ _ hf v

theorem State.trkState_enterSearch (s : State) (n : Fin 4) : (s.enterSearch n).trkState n = 0 := by
  rw [State.trkState, State.get_enterSearch _ _ (by decide +revert), State.searchCleared]
  simp (disch := decide +revert) only [State.get_set_addr, State.get_set_apart, State.get_set_self, Nat.zero_mod]

theorem State.word_enterSearch (s : State) (n : Fin 4) : (s.enterSearch n).word n = 0 := by
  rw [State.word, State.get_enterSearch _ _ (by decide +revert), State.searchCleared]
  simp (disch := decide +revert) only [State.get_set_addr, State.get_set_self, Nat.zero_mod]

theorem State.cycnt_enterSearch (s : State) (n : Fin 4) : (s.enterSearch n).get (F.STAIR_CYCNT n) = 0 := by
  rw [State.get_enterSearch _ _ (by decide +revert), State.searchCleared]
  simp (disch := decide +revert) only [State.get_set_addr, State.get_set_self, Nat.zero_mod]

theorem State.get_enterSearch_ne (s : State) (n : Fin 4) {f : Fld} (h : f.addr ∉
    [R.STAIR_STAT n, R.STAIR_ANGLE n, R.STAIR_CYCNT n, R.STAIR_ISTAT n, R.STAIR_LEN n]) : (s.enterSearch n).get f = s.get f := by
  simp only [List.mem_cons, List.not_mem_nil, or_false, not_or] at h
  obtain ⟨h1, h2, h3, h4, h5⟩ := h
  rw [State.get_enterSearch _ _ h5, State.searchCleared, State.get_set_addr _ _ _ h4, State.get_set_addr _ _ _ h4,
    State.get_set_addr _ _ _ h4, State.get_set_addr _ _ _ h3, State.get_set_addr _ _ _ h2, State.get_set_addr _ _ _ h1,
    State.get_set_addr _ _ _ h1]

/-! ### RESYNC and RUN (R99, R121) -/

/-- With no edge of the FCLK to come first, what the rules put after it takes place at once (R124). -/
theorem State.trkAct_of_no_edge {s : State} {n : Nat} (h : s.edgeWaits n = false) (a : TrkAct) : s.trkAct n a = s.trkDo n a := by
  simp [State.trkAct, h]

section

variable {s : State} {n : Fin 4}

theorem exec_trackerResync (hu : s.angleOk n = true) (hw : s.edgeWaits n = false) :
    exec (.trackerResync n) s = .next (s.resync n) := by
  change Host.Outcome.next (if s.angleOk n then s.trkAct n .resync else s) = _
  rw [if_pos hu, State.trkAct_of_no_edge hw, State.trkDo]

theorem exec_trackerRunWrite (src : Master) (run : Bool) (hu : s.angleOk n = true) (hw : s.edgeWaits n = false) :
    exec (.trackerRunWrite n src run) s = .next (s.runWrite n src (BitVec.ofNat 20 (b2n run))) := by
  change Host.Outcome.next (if s.angleOk n then s.trkAct n (.run src (BitVec.ofNat 20 (b2n run))) else s) = _
  rw [if_pos hu, State.trkAct_of_no_edge hw, State.trkDo]

theorem State.resync_of_sync (hr : s.bit (F.STAIR_CTRL.RUN n) = true) (h : s.trkState n = 1 ∨ s.trkState n = 2) :
    s.resync n = s.enterLost n 8 := by
  obtain h | h := h <;> simp only [State.resync, hr, h, if_true]

theorem State.resync_of_lost (hr : s.bit (F.STAIR_CTRL.RUN n) = true) (h : s.trkState n = 3) : s.resync n = s.enterSearch n := by
  simp only [State.resync, hr, h, if_true]

/-- Where the limits allow the bit, a write of RUN is the change of RUN; the record of another rejected bit stands in WVL alone. -/
theorem State.runWrite_allowed (src : Master) (run : Bool) (h : bitOf (s.wlAllow src (R.STAIR_CTRL n) (b2n run)) 0 = true) :
    (∀ f : Fld, 0x1000 ≤ f.addr → (s.runWrite n src (BitVec.ofNat 20 (b2n run))).get f = (s.trkRun n run).get f)
      ∧ (s.runWrite n src (BitVec.ofNat 20 (b2n run))).por = (s.trkRun n run).por := by
  have hv : (BitVec.ofNat 20 (b2n run)).toNat = b2n run := by cases run <;> rfl
  have hb : bitOf (b2n run) 0 = run := by cases run <;> rfl
  simp only [State.runWrite, hv, h, hb, if_true]
  split
  · exact ⟨fun f hf => State.get_recordReject_above _ _ hf, State.recordReject_por _ _⟩
  · exact ⟨fun _ _ => rfl, rfl⟩

theorem State.runWrite_forbidden (src : Master) (run : Bool) (h : bitOf (s.wlAllow src (R.STAIR_CTRL n) (b2n run)) 0 = false)
    (hb : s.wlBlocked src (R.STAIR_CTRL n) (s.reg (R.STAIR_CTRL n)).toNat (b2n run) = true) :
    s.runWrite n src (BitVec.ofNat 20 (b2n run)) = s.recordReject (R.STAIR_CTRL n) := by
  have hv : (BitVec.ofNat 20 (b2n run)).toNat = b2n run := by cases run <;> rfl
  simp only [State.runWrite, hv, h, hb, if_true, Bool.false_eq_true, if_false]

theorem State.bit_setB_self (s : State) (f : Fld) (hf : f.lo + f.len ≤ 20) (h1 : 0 < f.len) (b : Bool) : (s.setB f b).bit f = b := by
  cases b with
  | true => exact s.bit_set_one f hf h1
  | false => simp [State.bit, State.setB, b2n, State.get_set_self _ _ hf]

theorem State.bit_eq_of_get {s t : State} {f : Fld} (h : t.get f = s.get f) : t.bit f = s.bit f := by
  rw [State.bit, State.bit, h]

theorem State.trkRun_starts (h : s.bit (F.STAIR_CTRL.RUN n) = false) :
    s.trkRun n true = ((s.setB (F.STAIR_CTRL.RUN n) true).enterSearch n).enableInput n := by
  simp [State.trkRun, h]

theorem State.trkState_setRun (s : State) (n : Fin 4) (b : Bool) : (s.setB (F.STAIR_CTRL.RUN n) b).trkState n = s.trkState n :=
  s.get_set_addr (F.STAIR_CTRL.RUN n) (F.STAIR_STAT.STATE n) (by decide +revert) _

theorem State.trkRun_ends (h : s.bit (F.STAIR_CTRL.RUN n) = true) (hs : s.trkState n = 1 ∨ s.trkState n = 2) :
    s.trkRun n false = ((s.setB (F.STAIR_CTRL.RUN n) false).enterLost n 8).enterSearch n := by
  have hs' : (decide (s.trkState n = 1) || decide (s.trkState n = 2)) = true := by simpa using hs
  simp [State.trkRun, h, State.trkState_setRun, hs']

/-! ### An input that is enabled (R97, R99) -/

/-- The input of tracker `n` reads high when it is enabled. -/
def State.inputHigh (s : State) (n : Nat) : Bool :=
  (s.getInp (s.inputOf n)).lvl && (s.bit (F.STAIR_CFG.INTYPE n) || decide (s.get (F.STAIR_VR.VRSTART n) ≤ (s.getInp (s.inputOf n)).pk))

theorem State.inputHigh_congr {s t : State} (hi : t.inp = s.inp)
    (hg : ∀ f : Fld, f.addr = R.STAIR_CFG n ∨ f.addr = R.STAIR_VR n → t.get f = s.get f) : t.inputHigh n = s.inputHigh n := by
  have htyp := State.bit_eq_of_get (hg (F.STAIR_CFG.INTYPE n) (.inl rfl))
  have hof : t.inputOf n = s.inputOf n := by rw [State.inputOf, htyp, hg (F.STAIR_CFG.WHLSEL n) (.inl rfl), State.inputOf]
  rw [State.inputHigh, hof, htyp, hg (F.STAIR_VR.VRSTART n) (.inr rfl), State.getInp, hi, State.inputHigh, State.getInp]

theorem State.regs_enableInput (s : State) (n : Nat) :
    (s.enableInput n).regs = ((s.setB (F.STAIR_STAT.ARMED n) (s.inputHigh n)).setB (F.STAIR_STAT.INLVL n) (s.inputHigh n)).regs := rfl

theorem State.armed_enableInput (s : State) (n : Fin 4) : (s.enableInput n).bit (F.STAIR_STAT.ARMED n) = s.inputHigh n := by
  have hg : (s.enableInput n).get (F.STAIR_STAT.ARMED n) = (s.setB (F.STAIR_STAT.ARMED n) (s.inputHigh n)).get (F.STAIR_STAT.ARMED n) := by
    rw [State.get_of_regs (s.regs_enableInput n)]
    exact State.get_set_apart _ _ _ (show 8 + 1 ≤ 20 by decide) (fun _ => .inl (by exact le_refl 9)) _
  rw [State.bit_eq_of_get hg, State.bit_setB_self _ _ (show 9 + 1 ≤ 20 by decide) Nat.one_pos]

theorem State.trkState_enableInput (s : State) (n : Fin 4) : (s.enableInput n).trkState n = s.trkState n := by
  rw [State.trkState, State.get_of_regs (s.regs_enableInput n), State.setB, State.setB]
  simp (disch := decide +revert) only [State.get_set_apart, State.trkState]

theorem State.get_enableInput_ne (s : State) (n : Fin 4) {f : Fld} (h : f.addr ≠ R.STAIR_STAT n) :
    (s.enableInput n).get f = s.get f := by
  rw [State.get_of_regs (s.regs_enableInput n), State.setB, State.setB, State.get_set_addr _ _ _ h, State.get_set_addr _ _ _ h]

/-- RUN set to 1, SEARCH entered, the input enabled: what a tracker that starts shows (R99, R121, R123). -/
theorem State.started_shows (s : State) (n : Fin 4) :
    (((s.setB (F.STAIR_CTRL.RUN n) true).enterSearch n).enableInput n).bit (F.STAIR_CTRL.RUN n) = true
      ∧ (((s.setB (F.STAIR_CTRL.RUN n) true).enterSearch n).enableInput n).trkState n = 0
      ∧ (((s.setB (F.STAIR_CTRL.RUN n) true).enterSearch n).enableInput n).word n = 0
      ∧ (((s.setB (F.STAIR_CTRL.RUN n) true).enterSearch n).enableInput n).bit (F.STAIR_STAT.ARMED n) = s.inputHigh n := by
  have hcfg : R.STAIR_CFG n ∉ [R.STAIR_CTRL n, R.STAIR_STAT n, R.STAIR_ANGLE n, R.STAIR_CYCNT n, R.STAIR_ISTAT n, R.STAIR_LEN n] := by
    decide +revert
  have hvr : R.STAIR_VR n ∉ [R.STAIR_CTRL n, R.STAIR_STAT n, R.STAIR_ANGLE n, R.STAIR_CYCNT n, R.STAIR_ISTAT n, R.STAIR_LEN n] := by
    decide +revert
  refine ⟨?_, ?_, ?_, ?_⟩
  · rw [State.bit_eq_of_get (s := s.setB (F.STAIR_CTRL.RUN n) true)]
    · exact s.bit_set_one _ (show 0 + 1 ≤ 20 by decide) Nat.one_pos
    · rw [State.get_enableInput_ne _ _ (by decide +revert), State.get_enterSearch_ne _ _ (by decide +revert)]
  · rw [State.trkState_enableInput, State.trkState_enterSearch]
  · rw [State.word, State.get_enableInput_ne _ _ (by decide +revert)]
    exact State.word_enterSearch _ n
  · obtain ⟨-, hinp, -⟩ := (s.setB (F.STAIR_CTRL.RUN n) true).enterSearch_leaves n
    rw [State.armed_enableInput]
    refine State.inputHigh_congr (hinp.trans (s.setB_inp _ _)) fun f hf => ?_
    have hn : f.addr ∉ [R.STAIR_CTRL n, R.STAIR_STAT n, R.STAIR_ANGLE n, R.STAIR_CYCNT n, R.STAIR_ISTAT n, R.STAIR_LEN n] := by
      obtain hf | hf := hf
      · exact hf ▸ hcfg
      · exact hf ▸ hvr
    obtain ⟨hctrl, hsearch⟩ := not_or.1 (mt List.mem_cons.2 hn)
    rw [State.get_enterSearch_ne _ _ hsearch, State.setB, State.get_set_addr _ _ _ hctrl]

/-- Sync lost, SEARCH entered: what a tracker that runs in sync shows when RUN is cleared (R121 to R123). -/
theorem State.ended_shows (s : State) (n : Fin 4) :
    (((s.setB (F.STAIR_CTRL.RUN n) false).enterLost n 8).enterSearch n).bit (F.STAIR_CTRL.RUN n) = false
      ∧ (((s.setB (F.STAIR_CTRL.RUN n) false).enterLost n 8).enterSearch n).trkState n = 0
      ∧ (((s.setB (F.STAIR_CTRL.RUN n) false).enterLost n 8).enterSearch n).word n = 0
      ∧ ((((s.setB (F.STAIR_CTRL.RUN n) false).enterLost n 8).enterSearch n).por.pulses.any fun p => p.src = 12 + n.val) = true := by
  refine ⟨?_, State.trkState_enterSearch _ n, State.word_enterSearch _ n, ?_⟩
  · rw [State.bit_eq_of_get (s := s.setB (F.STAIR_CTRL.RUN n) false)]
    · exact s.bit_setB_self _ (show 0 + 1 ≤ 20 by decide) Nat.one_pos false
    · rw [State.get_enterSearch_ne _ _ (by decide +revert), State.get_enterLost_ne _ _ _ (by decide +revert) (by decide +revert)
        (by decide +revert) (by decide +revert)]
  · obtain ⟨-, -, hpor, -⟩ := ((s.setB (F.STAIR_CTRL.RUN n) false).enterLost n 8).enterSearch_leaves n
    rw [hpor]
    exact State.pulse_enterLost _ _ _

/-! ### The counts (R130) -/

theorem exec_trackerClearCounts (hu : s.angleOk n = true) : exec (.trackerClearCounts n) s = .next (s.clearCounts n) := by
  change Host.Outcome.next (if s.angleOk n then s.clearCounts n else s) = _
  rw [if_pos hu]

theorem State.clearCounts_clears (s : State) (n : Fin 4) :
    (s.clearCounts n).get (F.STAIR_ERRCNT.NOISE n) = 0 ∧ (s.clearCounts n).get (F.STAIR_ERRCNT.MISSED n) = 0
      ∧ (s.clearCounts n).get (F.STAIR_SYNCCNT.LOSTS n) = 0 ∧ (s.clearCounts n).get (F.STAIR_SYNCCNT.PHERR n) = 0
      ∧ (s.clearCounts n).get (F.STAIR_HSTAT.OVF n) = 0 := by
  unfold State.clearCounts
  refine ⟨?_, ?_, ?_, ?_, ?_⟩ <;>
    simp (disch := decide +revert) only [State.get_set_apart, State.get_set_self, Nat.zero_mod]

theorem State.reg_clearCounts (s : State) (n a : Nat) (h : ¬ (a = R.STAIR_ERRCNT n ∨ a = R.STAIR_SYNCCNT n ∨ a = R.STAIR_HSTAT n)) :
    (s.clearCounts n).reg a = s.reg a := by
  obtain ⟨h1, h2, h3⟩ := not_or.1 h |>.imp_right not_or.1
  rw [State.clearCounts, State.reg_set _ _ _ _ h3, State.reg_set _ _ _ _ h2, State.reg_set _ _ _ _ h2, State.reg_set _ _ _ _ h1,
    State.reg_set _ _ _ _ h1]

theorem State.trk_clearCounts (s : State) (n : Nat) : (s.clearCounts n).trk = s.trk := by
  simp only [State.clearCounts, State.set_trk]

/-! ### The history FIFO (R128) -/

theorem exec_historyRecordRead (hu : s.angleOk n = true) :
    exec (.historyRecordRead n) s = .next (s.updTrk n fun t => { t with fifo := t.fifo.drop 1 }) := by
  change Host.Outcome.next (if s.angleOk n then s.updTrk n fun t => { t with fifo := t.fifo.drop 1 } else s) = _
  rw [if_pos hu]

/-! ### Geometry (R151) -/

theorem stairGeo_ne_istat (n k : Nat) : R.STAIR_ISTAT n ≠ R.STAIR_GEO n k := by
  simp only [R.STAIR_ISTAT, R.STAIR_GEO]
  omega

theorem State.get_setGeo (s : State) (n k v : Nat) : (s.setGeo n k v).get (F.STAIR_GEO n k) = v % 65536 := by
  unfold State.setGeo
  split
  · assumption
  · rw [State.get_set_addr _ _ _ (stairGeo_ne_istat n k).symm]
    exact State.get_set_self s (F.STAIR_GEO n k) (show 0 + 16 ≤ 20 by decide) v

theorem State.get_setGeo_ne (s : State) (n v : Nat) {k j : Nat} (h : j ≠ k) : (s.setGeo n k v).get (F.STAIR_GEO n j) = s.get (F.STAIR_GEO n j) := by
  have hne : R.STAIR_GEO n j ≠ R.STAIR_GEO n k := by
    simp only [R.STAIR_GEO]
    omega
  unfold State.setGeo
  split
  · rfl
  · rw [State.get_set_addr _ _ _ (stairGeo_ne_istat n j).symm, State.get_set_addr _ _ _ hne]

/-- A value that changes leaves GDIRTY set. -/
theorem State.gdirty_setGeo (s : State) (n k v : Nat) (h : (s.setGeo n k v).get (F.STAIR_GEO n k) ≠ s.get (F.STAIR_GEO n k)) :
    (s.setGeo n k v).get (F.STAIR_ISTAT.GDIRTY n) = 1 := by
  rw [State.get_setGeo] at h
  rw [State.setGeo, if_neg h.symm]
  exact State.get_set_self _ (F.STAIR_ISTAT.GDIRTY n) (show 8 + 1 ≤ 20 by decide) 1

theorem State.getTrk_setGeo (s : State) (n k v m : Nat) : (s.setGeo n k v).getTrk m = s.getTrk m := by
  unfold State.setGeo
  split <;> rfl

theorem exec_geometryWrite {k : Fin 256} (src : Master) (v : Word) (hu : s.angleOk n = true) :
    exec (.geometryWrite n k src v) s = .next (s.geoWrite n k src v) := by
  change Host.Outcome.next (if s.angleOk n then s.geoWrite n k src v else s) = _
  rw [if_pos hu]

/-- A write of G_k outside LEARN sets the value that the access codes give; a rejected bit is recorded in WVL alone. -/
theorem State.get_geoWrite (src : Master) (k : Nat) (v : Word) (hl : s.bit (F.STAIR_GCTL.LEARN n) = false)
    (hr : s.get (F.STAIR_CFG.ROLE n) ≠ 3) {f : Fld} (hf : 0x1000 ≤ f.addr) :
    (s.geoWrite n k src v).get f
      = (s.setGeo n k (s.merged src (R.STAIR_GEO n k) (s.reg (R.STAIR_GEO n k)).toNat v.toNat)).get f := by
  have hc : (!s.bit (F.STAIR_GCTL.LEARN n) && decide (s.get (F.STAIR_CFG.ROLE n) ≠ 3)) = true := by simp [hl, hr]
  rw [State.geoWrite, if_pos hc]
  dsimp only
  split
  · exact State.get_recordReject_above _ _ hf
  · rfl

/-- Every G_k set in turn, from the values of the image. -/
theorem State.geo_each_setGeo (s : State) (n m : Nat) :
    let t := s.each (List.range m) fun s k => s.setGeo n k (cellGet (fun _ => 0) (s.getTrk n).geo0 k)
    t.getTrk n = s.getTrk n ∧ ∀ k, k < m → t.get (F.STAIR_GEO n k) = cellGet (fun _ => 0) (s.getTrk n).geo0 k % 65536 := by
  induction m with
  | zero => exact ⟨rfl, fun k hk => absurd hk (Nat.not_lt_zero k)⟩
  | succ m ih =>
    obtain ⟨htrk, hgeo⟩ := ih
    simp only [State.each, List.range_succ, List.foldl_append, List.foldl_cons, List.foldl_nil] at htrk hgeo ⊢
    refine ⟨(State.getTrk_setGeo _ _ _ _ _).trans htrk, fun k hk => ?_⟩
    obtain rfl | hlt := Nat.eq_or_lt_of_le (Nat.lt_succ_iff.1 hk)
    · rw [State.get_setGeo, htrk]
    · rw [State.get_setGeo_ne _ _ _ hlt.ne, hgeo k hlt]

theorem exec_geometryReset (hu : s.angleOk n = true) (hr : s.get (F.STAIR_CFG.ROLE n) ≠ 3) :
    exec (.geometryReset n) s
      = .next (s.each (List.range 256) fun s k => s.setGeo n k (cellGet (fun _ => 0) (s.getTrk n).geo0 k)) := by
  change Host.Outcome.next (if s.angleOk n then s.geoAll n else s) = _
  rw [if_pos hu, State.geoAll, if_pos hr]

theorem State.geoSave_eq (s : State) (n : Nat) : ∃ pages, s.geoSave n =
    if s.nvHas (.trk (Fin.ofNat 4 n)) then s else (s.set (F.STAIR_ISTAT.GBUSY n) 1).nvAsk (.trk (Fin.ofNat 4 n)) pages :=
  ⟨_, rfl⟩

/-- A save sets GBUSY and asks for its pages (R314). -/
theorem exec_geometrySave (hu : s.angleOk n = true) (hb : s.bit (F.STAIR_ISTAT.GBUSY n) = false)
    (hr : s.get (F.STAIR_CFG.ROLE n) ≠ 3) (hn : s.nvHas (.trk n) = false) :
    ∃ pages, exec (.geometrySave n) s = .next ((s.set (F.STAIR_ISTAT.GBUSY n) 1).nvAsk (.trk n) pages) := by
  have hc : (s.angleOk n && !s.bit (F.STAIR_ISTAT.GBUSY n) && decide (s.get (F.STAIR_CFG.ROLE n) ≠ 3)) = true := by simp [hu, hb, hr]
  obtain ⟨pages, he⟩ := s.geoSave_eq n
  rw [Fin.ofNat_val_eq_self, hn, if_neg Bool.false_ne_true] at he
  refine ⟨pages, ?_⟩
  change execGeometrySave n s = _
  rw [execGeometrySave, if_pos hc, he]

theorem State.nvHas_nvAsk (s : State) (w : NvWho) (pages : List (Nat × List Byte)) : (s.nvAsk w pages).nvHas w = true := by
  simp [State.nvHas, State.nvAsk, State.updHal]

/-- The end of a save is taken: GBUSY clears, and GDIRTY clears or GERR is set. -/
theorem exec_geometrySaveDone {e : NvWho × Bool} (h : s.hal.ended.find? (fun e => e.1 = .trk n) = some e) :
    exec (.geometrySaveDone n) s = .next
      (let t := (s.updHal fun x => { x with ended := x.ended.erase e }).set (F.STAIR_ISTAT.GBUSY n) 0
       if e.2 then t.set (F.STAIR_ISTAT.GDIRTY n) 0 else t.evt (F.STAIR_ISTAT.GERR n)) := by
  have ht : s.nvTake (.trk n) = some (e.2, s.updHal fun x => { x with ended := x.ended.erase e }) := by
    rw [State.nvTake, h]
  change execGeometrySaveDone n s = _
  rw [execGeometrySaveDone, ht]

theorem State.gbusy_saveDone (s : State) (n : Fin 4) (ok : Bool) :
    (if ok then (s.set (F.STAIR_ISTAT.GBUSY n) 0).set (F.STAIR_ISTAT.GDIRTY n) 0
      else (s.set (F.STAIR_ISTAT.GBUSY n) 0).evt (F.STAIR_ISTAT.GERR n)).get (F.STAIR_ISTAT.GBUSY n) = 0 := by
  cases ok with
  | true =>
    rw [if_pos rfl]
    simp (disch := decide +revert) only [State.get_set_apart, State.get_set_self, Nat.zero_mod]
  | false =>
    rw [if_neg Bool.false_ne_true, State.evt]
    simp (disch := decide +revert) only [State.get_set_apart, State.get_mark, State.get_set_self, Nat.zero_mod]

end

/-- Settles O11: each command leaves the state that its equation above names, and a loss or an entry to SEARCH shows what the laws of
`enterLost` and `enterSearch` say. -/
theorem trackerRunResyncAndCounts : Obligations.TrackerRunResyncAndCounts := by
  unfold Obligations.TrackerRunResyncAndCounts
  refine ⟨fun s n hu hw hr hs => ?_, fun s n hu hw hr hs => ?_, fun s n src hu hw ha hr => ?_, fun s n src hu hw ha hr hs => ?_,
    fun s n src run hu hw ha hb => ?_, fun s n hu => ?_, fun s n hu => ?_, fun s n k src v hu hl hr => ?_, fun s n hu hr => ?_,
    fun s n hu hb hr hn => ?_, fun s n e he => ?_⟩
  · refine ⟨_, (exec_trackerResync hu hw).trans (congrArg _ (State.resync_of_sync hr hs)), s.trkState_enterLost n 8,
      s.cause_enterLost n (by decide), s.word_enterLost n 8, s.pulse_enterLost n 8⟩
  · obtain ⟨-, -, -, hlast⟩ := s.enterSearch_leaves n
    exact ⟨_, (exec_trackerResync hu hw).trans (congrArg _ (State.resync_of_lost hr hs)), s.trkState_enterSearch n,
      s.word_enterSearch n, s.cycnt_enterSearch n, hlast⟩
  · obtain ⟨hget, -⟩ := State.runWrite_allowed src true ha
    obtain ⟨hrun, hstate, hword, harmed⟩ := s.started_shows n
    rw [← State.trkRun_starts hr] at hrun hstate hword harmed
    exact ⟨_, exec_trackerRunWrite src true hu hw, (State.bit_eq_of_get (hget _ (stair_above n _))).trans hrun,
      (hget _ (stair_above n _)).trans hstate, (hget _ (stair_above n _)).trans hword,
      (State.bit_eq_of_get (hget _ (stair_above n _))).trans harmed⟩
  · obtain ⟨hget, hpor⟩ := State.runWrite_allowed src false ha
    obtain ⟨hrun, hstate, hword, hpulse⟩ := s.ended_shows n
    rw [← State.trkRun_ends hr hs] at hrun hstate hword hpulse
    exact ⟨_, exec_trackerRunWrite src false hu hw, (State.bit_eq_of_get (hget _ (stair_above n _))).trans hrun,
      (hget _ (stair_above n _)).trans hstate, (hget _ (stair_above n _)).trans hword, hpor ▸ hpulse⟩
  · refine ⟨_, (exec_trackerRunWrite src run hu hw).trans (congrArg _ (State.runWrite_forbidden src run ha hb)), ?_,
      fun a h => s.reg_recordReject _ h⟩
    exact s.get_recordReject_addr (by simp only [R.STAIR_CTRL]; omega)
  · obtain ⟨hnoise, hmissed, hlosts, hpherr, hovf⟩ := s.clearCounts_clears n
    exact ⟨_, exec_trackerClearCounts hu, hnoise, hmissed, hlosts, hpherr, hovf, fun a h => s.reg_clearCounts n a h, s.trk_clearCounts n⟩
  · exact ⟨_, exec_historyRecordRead hu, by rw [State.getTrk_updTrk], rfl, rfl, rfl, rfl, rfl⟩
  · have hget := fun f => State.get_geoWrite src k v hl hr (f := f)
    refine ⟨_, exec_geometryWrite src v hu, ?_, fun hne => ?_⟩
    · rw [hget _ (Nat.le_add_right_of_le (stair_above n _)), State.get_setGeo]
    · rw [hget _ (Nat.le_add_right_of_le (stair_above n _))] at hne
      rw [hget _ (stair_above n _)]
      exact s.gdirty_setGeo n k _ hne
  · obtain ⟨-, hgeo⟩ := s.geo_each_setGeo n 256
    exact ⟨_, exec_geometryReset hu hr, hgeo⟩
  · obtain ⟨pages, hrun⟩ := exec_geometrySave hu hb hr hn
    refine ⟨_, hrun, ?_, State.nvHas_nvAsk _ _ _, rfl, rfl, rfl, rfl⟩
    exact s.get_set_self (F.STAIR_ISTAT.GBUSY n) (show 9 + 1 ≤ 20 by decide) 1
  · refine ⟨_, exec_geometrySaveDone he, State.gbusy_saveDone _ n e.2, ?_⟩
    cases e.2 with
    | true => exact State.get_set_self _ (F.STAIR_ISTAT.GDIRTY n) (show 8 + 1 ≤ 20 by decide) 0
    | false => exact State.get_evt _ (F.STAIR_ISTAT.GERR n) (show 10 + 1 ≤ 20 by decide) Nat.one_pos

end Sys2Proof.Machine
end

section
/-! SUPPORT. What the statements on the trackers’ edges and on their frame do not rule out: a learned value for an entry that no tooth
table has, and a commit for a stitch that the unit does not have. Either lands in a register of a neighbour (against O12 and O41). -/

set_option Elab.async false

namespace Sys2Proof.Machine

/-! ### A learned value beyond the tooth table (R101, R150) -/

/-- Trackers 0 and 1 run on WHL0; tracker 0 is in CYCLE_SYNC, where its next edge is accepted and brings a learned value into force, for
entry 263 of a table of at most 256: the word at that place is STAIR1_STAT. -/
def strayLearned : State :=
  { State.reset with
    regs := [(R.PCR_STAT, fldSet F.PCR_STAT.PLLA_LOCK 0 1), (R.STAIR_CFG 0, 0x45), (R.STAIR_CTRL 0, 1),
      (R.STAIR_STAT 0, fldSet (F.STAIR_STAT.STATE 0) (fldSet (F.STAIR_STAT.ARMED 0) 0 1) 2), (R.STAIR_CFG 1, 0x45), (R.STAIR_CTRL 1, 1)]
    pcr := { Pcr.reset with held := none }
    trk := vupd State.reset.trk 0 fun t => { t with last := some 4092, geoNew := some (1, [(263, 3)]) } }

theorem strayLearned_place : R.STAIR_GEO 0 263 = R.STAIR_STAT 1 := rfl

/-- Tracker 1 meets what the clause on a first high level asks. -/
theorem strayLearned_meets :
    strayLearned.inputOf 1 = 4 ∧ strayLearned.inputPass 1 true 4 0 = true ∧ (strayLearned.getTrk 1).acts = []
      ∧ strayLearned.angleOk 1 = true ∧ strayLearned.trkOn 1 = true ∧ (strayLearned.getTrk 1).pin = false
      ∧ strayLearned.bit (F.STAIR_STAT.ARMED 1) = false ∧ strayLearned.trkState 1 = 0 := by
  decide +kernel

/-- The edge leaves tracker 1 in the state that the stray value spells. -/
theorem strayLearned_edge : ∃ t, exec (.wheelEdge 4 true 4 0) strayLearned = .next t ∧ t.trkState 1 = 3 :=
  ⟨_, rfl, by decide +kernel⟩

/-- Refutes O12: in `strayLearned` the first high level of tracker 1 changes its state, since tracker 0, which takes the same input, brings
a learned value for entry 263 into force. -/
theorem not_trackerEdgesAndWindows : ¬ Obligations.TrackerEdgesAndWindows := by
  unfold Obligations.TrackerEdgesAndWindows
  rintro ⟨h, -⟩
  obtain ⟨hinp, hpass, hacts, hup, hon, hpin, harmed, hsearch⟩ := strayLearned_meets
  obtain ⟨t, ht, -, -, -, -, hkept⟩ := h strayLearned 1 4 4 0 hinp hpass hacts hup hon hpin harmed
  obtain ⟨u, hu, hlost⟩ := strayLearned_edge
  obtain rfl : u = t := Host.Outcome.next.inj (hu.symm.trans ht)
  have hsame : u.trkState 1 = strayLearned.trkState 1 := hkept
  rw [hlost, hsearch] at hsame
  exact absurd hsame (by decide)

/-! ### A commit beyond the stitches (R153, R166) -/

/-- The part runs, and a commit of stitch 128 waits at the stitch unit, which has stitches 0 to 127: W6 of a stitch 128 would be EO_CFG6. -/
def strayCommit : State :=
  { State.reset with
    regs := [(R.PCR_STAT, fldSet F.PCR_STAT.PLLA_LOCK 0 1)]
    pcr := { Pcr.reset with held := none }
    suActs := [.commit 128] }

theorem strayCommit_place : R.STITCH_STATUS 128 = R.EO_CFG 6 := rfl

/-- A commit of stitch 0 lets the waiting one take place. -/
theorem strayCommit_commit : ∃ t, exec (.stitchCommit 0) strayCommit = .next t ∧ t.reg (R.EO_CFG 6) ≠ strayCommit.reg (R.EO_CFG 6) :=
  ⟨_, rfl, by decide +kernel⟩

/-- Refutes O41: in `strayCommit` a commit changes EO_CFG6, which is no register of the stitch unit. -/
theorem not_stairAndStitchCommandsKeepTheRest : ¬ Obligations.StairAndStitchCommandsKeepTheRest := by
  unfold Obligations.StairAndStitchCommandsKeepTheRest
  rintro ⟨-, h⟩
  obtain ⟨t, ht, -, hregs⟩ := h (.stitchCommit 0) strayCommit rfl
  obtain ⟨u, hu, hchanged⟩ := strayCommit_commit
  obtain rfl : u = t := Host.Outcome.next.inj (hu.symm.trans ht)
  exact hchanged (hregs (R.EO_CFG 6) (by decide))

end Sys2Proof.Machine
end

section
/-! SUPPORT. A tread of the word, the halt at the end of an interval, and a beacon of a remote tracker (O13). -/

set_option Elab.async false

namespace Sys2Proof.Machine

/-! ### The word (R115, R132) -/

/-- The word of tracker `n` stands at `w`; the lemmas below take it through a chain of updates. -/
def WordAt (n : Fin 4) (w : Nat) (s : State) : Prop := s.word n = w

section

variable {n : Fin 4} {w : Nat} {s t : State}

theorem WordAt.ite {c : Prop} {_ : Decidable c} (hs : c → WordAt n w s) (ht : ¬ c → WordAt n w t) : WordAt n w (if c then s else t) := by
  split
  · exact hs ‹_›
  · exact ht ‹_›

theorem WordAt.when {c : Prop} {_ : Decidable c} (h : WordAt n w s) (hf : WordAt n w s → WordAt n w t) :
    WordAt n w (if c then t else s) :=
  .ite (fun _ => hf h) fun _ => h

theorem WordAt.set_ne (h : WordAt n w s) {f : Fld} {v : Nat} (hf : R.STAIR_ANGLE n ≠ f.addr) : WordAt n w (s.set f v) :=
  (s.get_set_addr f (F.STAIR_ANGLE n) hf v).trans h

theorem stairAngle_ne_stat (n : Nat) : R.STAIR_ANGLE n ≠ R.STAIR_STAT n := by
  simp only [R.STAIR_ANGLE, R.STAIR_STAT]
  omega

theorem stairAngle_ne_istat (n : Nat) : R.STAIR_ANGLE n ≠ R.STAIR_ISTAT n := by
  simp only [R.STAIR_ANGLE, R.STAIR_ISTAT]
  omega

theorem stairAngle_ne_cycnt (n : Nat) : R.STAIR_ANGLE n ≠ R.STAIR_CYCNT n := by
  simp only [R.STAIR_ANGLE, R.STAIR_CYCNT]
  omega

theorem WordAt.updTrk (h : WordAt n w s) {m : Nat} {g : Trk → Trk} : WordAt n w (s.updTrk m g) := h

theorem WordAt.gauZeroSend (h : WordAt n w s) {m : Nat} : WordAt n w (s.gauZeroSend m) := h

theorem WordAt.setFlight (h : WordAt n w s) {b : Bool} : WordAt n w (s.setB (F.STAIR_STAT.FLIGHT n) b) :=
  .set_ne h (stairAngle_ne_stat n)

theorem WordAt.incCycnt (h : WordAt n w s) : WordAt n w (s.incW (F.STAIR_CYCNT n)) :=
  .set_ne h (stairAngle_ne_cycnt n)

theorem WordAt.setHalt (h : WordAt n w s) {v : Nat} : WordAt n w (s.set (F.STAIR_ISTAT.HALT n) v) :=
  h.set_ne (stairAngle_ne_istat n)

theorem WordAt.evtOvsp (h : WordAt n w s) : WordAt n w (s.evt (F.STAIR_ISTAT.OVSP n)) :=
  .set_ne ((s.get_mark _ _ _).trans h) (stairAngle_ne_istat n)

theorem stairAngle_trkReg (n : Fin 4) : TrkReg (R.STAIR_ANGLE n) := by decide +revert

theorem stairStat_trkReg (n : Fin 4) : TrkReg (R.STAIR_STAT n) := by decide +revert

theorem stairIstat_trkReg (n : Fin 4) : TrkReg (R.STAIR_ISTAT n) := by decide +revert

theorem WordAt.kept (h : WordAt n w s) (hk : StairKept s t) : WordAt n w t :=
  (hk.get (stairAngle_trkReg n)).trans h

theorem WordAt.beaconOnMove (h : WordAt n w s) {old new : Nat} : WordAt n w (s.beaconOnMove n old new) :=
  h.when fun h => (State.get_sendBeacon _ _ _).trans h

theorem WordAt.set (s : State) (n : Fin 4) (v : Nat) : WordAt n (v % 2 ^ 20) (s.set (F.STAIR_ANGLE n) v) :=
  s.get_set_self (F.STAIR_ANGLE n) (show 0 + 20 ≤ 20 by decide) v

theorem WordAt.self (s : State) (n : Fin 4) : WordAt n (s.word n % 2 ^ 20) s :=
  (Nat.mod_eq_of_lt (s.get_lt (F.STAIR_ANGLE n))).symm

/-- What a step or a jump does beside the word leaves it at its new value. -/
theorem WordAt.moveWord (s : State) (n : Fin 4) (new : Nat) (mv : Move) (stitches : Bool) :
    WordAt n (new % 2 ^ 20) (s.moveWord n new mv stitches) :=
  .ite (fun h => h ▸ WordAt.self s n) fun _ =>
    ((((WordAt.set s n new).when fun h => h.updTrk).when fun h => h.setFlight.when (·.incCycnt.gauZeroSend)).when fun h =>
      h.kept (StairKept.refl _).stWord).beaconOnMove

/-! ### A tread, and the halt (R133, R143) -/

theorem WordAt.treadTake (s : State) (n : Fin 4) : WordAt n ((s.word n + 1) % s.wordMod n % 2 ^ 20) (s.treadTake n) :=
  WordAt.moveWord s n _ .step true

theorem WordAt.haltCheck (h : WordAt n w s) : WordAt n w (s.haltCheck n) :=
  h.when (·.setHalt)

/-- A tread step in CYCLE_SYNC, in an FCLK that has taken no tread and without a catch-up. -/
theorem State.treadStep_of_cycle (hs : s.trkState n = 2) (ht : (s.getTrk n).stepT ≠ s.fclk) (hc : (s.getTrk n).catchC = none) :
    s.treadStep n =
      let t := s.getTrk n
      let pos := subMod (s.word n) t.base (s.wordMod n)
      let due := s.treadsDue n
      if pos < due then
        let s := s.treadTake n
        let s := if pos + 1 < due && s.tpred n < t.n then s.evt (F.STAIR_ISTAT.OVSP n) else s
        (if s.get (F.STAIR_CFG.ROLE n) = 3 then s.set (F.STAIR_ISTAT.HALT n) 0 else s).haltCheck n
      else s.haltCheck n := by
  have hgo : ((decide (s.trkState n ≠ 1) && decide (s.trkState n ≠ 2)) || decide ((s.getTrk n).stepT = s.fclk)) = false := by
    simp [hs, ht]
  rw [State.treadStep, if_neg (by rw [hgo]; exact Bool.false_ne_true)]
  dsimp only
  rw [hc]

/-- The word is behind the treads that are due: it takes one. -/
theorem WordAt.treadStep (hs : s.trkState n = 2) (ht : (s.getTrk n).stepT ≠ s.fclk) (hc : (s.getTrk n).catchC = none)
    (hd : subMod (s.word n) (s.getTrk n).base (s.wordMod n) < s.treadsDue n) :
    WordAt n ((s.word n + 1) % s.wordMod n % 2 ^ 20) (s.treadStep n) := by
  rw [State.treadStep_of_cycle hs ht hc]
  dsimp only
  rw [if_pos hd]
  exact (((WordAt.treadTake s n).when (·.evtOvsp)).when (·.setHalt)).haltCheck

/-- The word stands at the last tread of an interval whose time has come: HALT shows it. -/
theorem State.treadStep_of_end (hs : s.trkState n = 2) (ht : (s.getTrk n).stepT ≠ s.fclk) (hc : (s.getTrk n).catchC = none)
    (hp : subMod (s.word n) (s.getTrk n).base (s.wordMod n) = s.treadCap n)
    (he : (if s.get (F.STAIR_CFG.ROLE n) = 3 then 2 else 1) * s.tpred n ≤ s.elapsed n) :
    s.treadStep n = s.set (F.STAIR_ISTAT.HALT n) 1 := by
  have hcap : ¬ s.treadCap n < s.treadsDue n := Nat.not_lt.2 (Nat.min_le_left _ _)
  have hhalt : s.haltCheck n = s.set (F.STAIR_ISTAT.HALT n) 1 :=
    if_pos (by rw [hc, decide_eq_true hp, decide_eq_true he]; rfl)
  rw [State.treadStep_of_cycle hs ht hc]
  dsimp only
  rw [hp, if_neg hcap, hhalt]

theorem exec_treadStep (chk : Option (Fin 128)) (hu : s.angleOk n = true) (hw : s.edgeWaits n = false) :
    exec (.treadStep n chk) s = .next ((s.treadStep n).stCheck chk).suFlush := by
  change execTreadStep n chk s = _
  rw [execTreadStep, if_pos hu, State.trkAct_of_no_edge hw, State.trkDo]

/-! ### A beacon (R126, R460) -/

theorem State.trkActs_of_nil (h : (s.getTrk n).acts = []) : s.trkActs n = s := by
  rw [State.trkActs, h]
  rfl

/-- A beacon of the source tracker that waits is taken. -/
theorem exec_beaconReceive {b : Beacon} (hu : s.angleOk n = true)
    (hf : s.bcnIn.find? (fun e => e.1 = n.val && e.2.bay = s.get (F.STAIR_RCFG.SRCBAY n) && e.2.trk = s.get (F.STAIR_RCFG.SRCTRK n))
      = some (n.val, b)) {t : State} (ht : ({ s with bcnIn := s.bcnIn.erase (n.val, b) } : State).takeBeacon n b = t)
    (ha : (t.getTrk n).acts = []) : exec (.beaconReceive n) s = .next t.suFlush := by
  change execBeaconReceive n s = _
  rw [execBeaconReceive, if_pos hu, hf]
  dsimp only
  rw [ht, State.trkActs_of_nil ha]

/-- A beacon older than BLATMAX raises the source of its tracker and does no more. -/
theorem State.takeBeacon_late {b : Beacon} (hr : s.bit (F.STAIR_CTRL.RUN n) = true) (ho : s.get (F.STAIR_CFG.ROLE n) = 3)
    (hl : s.get (F.STAIR_RCFG.BLATMAX n) * 200 < s.tb.toNat - b.tb) : s.takeBeacon n b = s.raise (26 + 16 * n) := by
  have hsrc : trkSrc n 10 = 26 + 16 * n := by
    unfold trkSrc
    omega
  simp [State.takeBeacon, hr, ho, hl, hsrc]

/-- The tracker has seen a beacon at `f`. -/
def Trk.heardAt (f : Nat) (t : Trk) : Trk := { t with lastAny := some f }

/-- The tracker holds a beacon as the first of its search. -/
def Trk.holdBeacon (b : Beacon) (t : Trk) : Trk := { t with beacons := 1, mult := some b.mult, last := some b.tb }

/-- Tracker `n` holds the first beacon of its search, in the FCLK in which it sees it. -/
def State.holdFirst (s : State) (n : Nat) (b : Beacon) : State := (s.updTrk n (Trk.heardAt s.fclk)).updTrk n (Trk.holdBeacon b)

theorem State.getTrk_holdFirst (s : State) (n : Fin 4) (b : Beacon) :
    (s.holdFirst n b).getTrk n = ((s.getTrk n).heardAt s.fclk).holdBeacon b := by
  rw [State.holdFirst, State.getTrk_updTrk, State.getTrk_updTrk]

/-- A remote tracker in SEARCH whose count of beacons is 0 holds the next one that is its own. -/
theorem State.searchBeacon_first {b : Beacon} (hb : (s.getTrk n).beacons = 0) (hlen : b.len = s.cycLen n) (hst : b.st = 1 ∨ b.st = 2) :
    s.searchBeacon n b = s.updTrk n (Trk.holdBeacon b) := by
  have hsync : ¬ ((decide (b.st ≠ 1) && decide (b.st ≠ 2)) = true) := by
    obtain h | h := hst <;> simp [h]
  unfold State.searchBeacon
  dsimp only
  rw [if_neg (not_not.2 hlen), if_neg hsync, hb, if_neg (by simp)]
  rfl

theorem State.takeBeacon_first {b : Beacon} (hr : s.bit (F.STAIR_CTRL.RUN n) = true) (ho : s.get (F.STAIR_CFG.ROLE n) = 3)
    (hs : s.trkState n = 0) (hl : s.tb.toNat - b.tb ≤ s.get (F.STAIR_RCFG.BLATMAX n) * 200) (hst : b.st = 1 ∨ b.st = 2)
    (hb : (s.getTrk n).beacons = 0) (hlen : b.len = s.cycLen n) :
    s.takeBeacon n b = s.holdFirst n b := by
  have hb' : ((s.updTrk n (Trk.heardAt s.fclk)).getTrk n).beacons = 0 := by rwa [State.getTrk_updTrk]
  have hrun : ¬ ((!s.bit (F.STAIR_CTRL.RUN n) || decide (s.get (F.STAIR_CFG.ROLE n) ≠ 3)) = true) := by simp [hr, ho]
  have hloss : (decide (b.st = 3) || decide (b.st = 4) || decide (b.st = 5)) = false := by
    obtain h | h := hst <;> simp [h]
  unfold State.takeBeacon
  rw [if_neg hrun, if_neg (Nat.not_lt.2 hl)]
  dsimp only
  rw [hloss, Bool.false_and, if_neg Bool.false_ne_true]
  simp only [State.trkState, State.get_updTrk] at hs ⊢
  rw [hs]
  exact State.searchBeacon_first hb' hlen hst

/-- What stands of a beacon held as the first of its search, when the FCLK's steps of the stitches have followed. -/
theorem State.firstBeacon_shows (s : State) (n : Fin 4) (b : Beacon) :
    ((s.holdFirst n b).suFlush.getTrk n).mult = some b.mult ∧ ((s.holdFirst n b).suFlush.getTrk n).beacons = 1
      ∧ ((s.holdFirst n b).suFlush.getTrk n).last = some b.tb ∧ (s.holdFirst n b).suFlush.bcnIn = s.bcnIn
      ∧ (s.holdFirst n b).suFlush.trkState n = s.trkState n := by
  have hk := (StairKept.refl (s.holdFirst n b)).suFlush
  rw [hk.getTrk n, State.getTrk_holdFirst]
  exact ⟨rfl, rfl, rfl, hk.bcnIn, hk.get (stairStat_trkReg n)⟩

/-- The source BLATE of tracker `n` (Table 5.10). -/
theorem blate_trkReg (n : Fin 4) : TrkReg (R.IRT_SRC (26 + 16 * n)) := by decide +revert

theorem stairStat_below (n : Fin 4) : R.STAIR_STAT n < R.IRT_STAT := by decide +revert

theorem stairAngle_below (n : Fin 4) : R.STAIR_ANGLE n < R.IRT_STAT := by decide +revert

/-- The memory island runs whenever the angle island does: one clock serves both (Table 1.1). -/
theorem State.memory_of_angleOk {b : Nat} (hu : s.angleOk b = true) : s.islandUp .memory = true :=
  (Bool.and_eq_true_iff.1 hu).1

/-- What stands after the source of a late beacon is raised, when the FCLK's steps of the stitches have followed. -/
theorem State.lateBeacon_shows (s : State) (n : Fin 4) (hm : s.islandUp .memory = true)
    (hc : s.get (F.IRT_SRC.COUNT (26 + 16 * n.val)) ≠ 15) (hx : LostItem.irq (26 + 16 * n.val) ∉ s.por.lost) :
    (s.raise (26 + 16 * n)).suFlush.trkState n = s.trkState n
      ∧ (s.raise (26 + 16 * n)).suFlush.word n = s.word n
      ∧ (s.raise (26 + 16 * n)).suFlush.bcnIn = s.bcnIn
      ∧ (s.raise (26 + 16 * n)).suFlush.get (F.IRT_SRC.COUNT (26 + 16 * n.val)) = s.get (F.IRT_SRC.COUNT (26 + 16 * n.val)) + 1 := by
  have hk := (StairKept.refl (s.raise (26 + 16 * n))).suFlush
  have hlt : s.get (F.IRT_SRC.COUNT (26 + 16 * n.val)) < 16 := s.get_lt _
  have hcount := s.count_raise (26 + 16 * n) (by omega) hm hx
  refine ⟨(hk.get (stairStat_trkReg n)).trans (s.get_raise_below _ (stairStat_below n)),
    (hk.get (stairAngle_trkReg n)).trans (s.get_raise_below _ (stairAngle_below n)), hk.bcnIn.trans (s.raise_bcnIn _), ?_⟩
  rw [hk.get (blate_trkReg n), hcount]
  omega

end

/-- Settles O13: the equations above say what a tread and a beacon do; what follows them in their FCLK leaves the trackers alone. -/
theorem treadsAndBeacons : Obligations.TreadsAndBeacons := by
  unfold Obligations.TreadsAndBeacons
  refine ⟨fun s n chk hu hw hs ht hc hd => ?_, fun s n chk hu hw hs ht hc hp he => ?_,
    fun s n b hu ha hr ho hs hb hf hl hlen hst => ?_, fun s n b hu ha hr ho hf hl hc hx => ?_⟩
  · exact ⟨_, exec_treadStep chk hu hw, (WordAt.treadStep hs ht hc hd).kept (StairKept.refl _).stCheck.suFlush⟩
  · have hk := (StairKept.refl (s.treadStep n)).stCheck (chk := chk) |>.suFlush
    have hrun := exec_treadStep chk hu hw
    rw [State.treadStep_of_end hs ht hc hp he] at hk hrun
    exact ⟨_, hrun, WordAt.kept (WordAt.setHalt rfl) hk,
      (hk.get (stairIstat_trkReg n)).trans (s.get_set_self _ (show 0 + 1 ≤ 20 by decide) 1)⟩
  · obtain ⟨hmult, hcount, hlast, hin, hstate⟩ := State.firstBeacon_shows { s with bcnIn := s.bcnIn.erase (n.val, b) } n b
    have hacts : ((({ s with bcnIn := s.bcnIn.erase (n.val, b) } : State).holdFirst n b).getTrk n).acts = [] := by
      rw [State.getTrk_holdFirst]
      exact ha
    exact ⟨_, exec_beaconReceive hu hf (State.takeBeacon_first hr ho hs hl hst hb hlen) hacts, hmult, hcount, hlast, hin, hstate.trans hs⟩
  · obtain ⟨hstate, hword, hin, hcount⟩ := State.lateBeacon_shows { s with bcnIn := s.bcnIn.erase (n.val, b) } n
      (State.memory_of_angleOk hu) hc hx
    refine ⟨_, exec_beaconReceive hu hf (State.takeBeacon_late hr ho hl) ?_, hstate, hword, hin, hcount⟩
    exact (congrArg (fun v => (vget v n Trk.reset).acts) (State.raise_trk _ _)).trans ha

end Sys2Proof.Machine
end

section
/-! SUPPORT. Stitches: a scan that arms, the end of an occurrence, commits, cancels, writes of parameters and items from the chart engine
(O14). -/

set_option Elab.async false

namespace Sys2Proof.Machine

/-! ### One stitch, and the fields of its W6, after an update -/

theorem State.getSt_updSt (s : State) (n : Fin 128) (g : Stitch → Stitch) : (s.updSt n g).getSt n = g (s.getSt n) :=
  vget_vupd_self s.stitch n.isLt g Stitch.reset

theorem State.getSt_updSt_ne (s : State) {m n : Nat} (h : n ≠ m) (g : Stitch → Stitch) : (s.updSt m g).getSt n = s.getSt n :=
  vget_vupd_ne s.stitch h g Stitch.reset

theorem State.getSt_of_stitch {s t : State} (h : t.stitch = s.stitch) (n : Nat) : t.getSt n = s.getSt n := by
  rw [State.getSt, h, State.getSt]

@[simp] theorem State.get_updSt (s : State) (n : Nat) (g : Stitch → Stitch) (f : Fld) : (s.updSt n g).get f = s.get f := rfl

theorem State.get_evt_apart (s : State) (f g : Fld) (hf : f.lo + f.len ≤ 20)
    (h : g.addr = f.addr → f.lo + f.len ≤ g.lo ∨ g.lo + g.len ≤ f.lo) : (s.evt f).get g = s.get g := by
  rw [State.evt, State.get_set_apart _ _ _ hf h, State.get_mark]

theorem State.get_evtInc_addr (s : State) (f g : Fld) (h : g.addr ≠ f.addr) : (s.evtInc f).get g = s.get g :=
  congrArg (fldGet g) (s.reg_evtInc f g.addr h)

theorem State.get_raiseIf_below (s : State) (c : Bool) (k : Nat) {f : Fld} (h : f.addr < R.IRT_STAT) :
    (s.raiseIf c k).get f = s.get f := by
  cases c with
  | false => rfl
  | true => exact s.get_raise_below k h

theorem stitchStatus_below (n : Fin 128) : R.STITCH_STATUS n < R.IRT_STAT := by
  simp only [R.STITCH_STATUS, R.IRT_STAT]
  omega

/-- W6 of a stitch stands above the registers that all stitches share. -/
theorem stitchStatus_ne {a : Nat} (ha : a < 0x2400) (n : Nat) : R.STITCH_STATUS n ≠ a := by
  simp only [R.STITCH_STATUS]
  omega

/-- A field of W6 of stitch `n` beside the flags that crowding, a check and a bank conflict set (Table 7.11). -/
structure StatusFld (n : Nat) (f : Fld) : Prop where
  addr : f.addr = R.STITCH_STATUS n
  apart : f.lo + f.len ≤ 13 ∨ 16 ≤ f.lo

theorem statusFld_state (n : Nat) : StatusFld n (F.STITCH_STATUS.STATE n) := ⟨rfl, .inl (show 0 + 3 ≤ 13 by decide)⟩

theorem statusFld_result (n : Nat) : StatusFld n (F.STITCH_STATUS.RESULT n) := ⟨rfl, .inl (show 3 + 4 ≤ 13 by decide)⟩

theorem statusFld_occ (n : Nat) : StatusFld n (F.STITCH_STATUS.OCC n) := ⟨rfl, .inr (show 16 ≤ 16 by decide)⟩

section

variable {n : Fin 128} {f : Fld}

theorem StatusFld.below (hf : StatusFld n f) : f.addr < R.IRT_STAT := hf.addr ▸ stitchStatus_below n

theorem StatusFld.ne_unit (hf : StatusFld n f) {a : Nat} (ha : a < 0x2400 := by decide) : f.addr ≠ a := hf.addr ▸ stitchStatus_ne ha n

/-- A flag of bits 13 to 15 is set in W6 of some stitch. -/
theorem StatusFld.get_evt (hf : StatusFld n f) (s : State) {g : Fld} (hg : 13 ≤ g.lo ∧ g.lo + g.len ≤ 16) : (s.evt g).get f = s.get f :=
  s.get_evt_apart g f (hg.2.trans (by decide)) fun _ => hf.apart.symm.imp (hg.2.trans ·) (·.trans hg.1)

theorem StatusFld.get_stCrowd (hf : StatusFld n f) (s : State) (m : Nat) : (s.stCrowd m).get f = s.get f := by
  unfold State.stCrowd
  dsimp only
  rw [State.get_raiseIf_below _ _ _ hf.below, State.get_report, State.get_evtInc_addr _ _ _ hf.ne_unit,
    State.get_set_addr _ _ _ hf.ne_unit, hf.get_evt _ (by decide), hf.get_evt _ ⟨Nat.le_refl 13, show 13 + 1 ≤ 16 by decide⟩]

theorem StatusFld.get_stCheck (hf : StatusFld n f) (s : State) (chk : Option (Fin 128)) : (s.stCheck chk).get f = s.get f := by
  cases chk with
  | none => rfl
  | some m =>
    unfold State.stCheck
    dsimp only
    rw [State.get_raiseIf_below _ _ _ hf.below, State.get_report, State.get_evtInc_addr _ _ _ hf.ne_unit,
      State.get_set_addr _ _ _ hf.ne_unit, State.get_set_addr _ _ _ hf.ne_unit, hf.get_evt _ (by decide),
      hf.get_evt _ ⟨show 13 ≤ 14 by decide, show 14 + 1 ≤ 16 by decide⟩]

end

@[simp] theorem State.stitch_stCrowd (s : State) (n : Nat) : (s.stCrowd n).stitch = s.stitch := by simp [State.stCrowd]

@[simp] theorem State.stitch_stCheck (s : State) (chk : Option (Fin 128)) : (s.stCheck chk).stitch = s.stitch := by
  cases chk with
  | none => rfl
  | some m => simp [State.stCheck]

@[simp] theorem State.suPos_stCheck (s : State) (chk : Option (Fin 128)) : (s.stCheck chk).suPos = s.suPos := by
  cases chk with
  | none => rfl
  | some m => simp [State.stCheck]

/-! ### What arrives when nothing waits (R167) -/

theorem State.suAct_of_ready {s : State} {a : SuAct} (h : s.suReady a.phase = true) : s.suAct a = s.suDo a := if_pos h

theorem State.suFlush_of_nil {s : State} (h : s.suActs = []) : s.suFlush = s := if_pos (by rw [h]; rfl)

section

variable {s t : State} {n : Fin 128}

theorem exec_stitchScan {chk : Option (Fin 128)} (hu : s.angleOk 4 = true) (hr : s.suReady 6 = true) :
    exec (.stitchScan chk) s = .next (s.suScan chk) := by
  change execStitchScan chk s = _
  rw [execStitchScan, if_pos hu, State.suAct_of_ready hr, State.suDo]

theorem exec_stitchPulseEnd {chk : Option (Fin 128)} (hu : s.angleOk 4 = true) (hs : s.get (F.STITCH_STATUS.STATE n) = 3)
    (he : (s.getSt n).endT ≤ s.fclk) : exec (.stitchPulseEnd n chk) s = .next ((s.stFinish n (s.getSt n).res none).stCheck chk) := by
  change execStitchPulseEnd n chk s = _
  rw [execStitchPulseEnd, if_pos (by simp [hu, hs, he])]

/-- A step that acts at once, in an FCLK in which nothing waits. -/
theorem State.suAct_suFlush (s : State) {a : SuAct} (hr : s.suReady a.phase = true) (ht : (s.suDo a).suActs = []) :
    (s.suAct a).suFlush = s.suDo a := by
  rw [State.suAct_of_ready hr, State.suFlush_of_nil ht]

theorem exec_stitchCommit (hu : s.angleOk 4 = true) (hr : s.suReady 5 = true) (ht : (s.stCommit n).suActs = []) :
    exec (.stitchCommit n) s = .next (s.stCommit n) := by
  change execStitchCommit n s = _
  rw [execStitchCommit, if_pos hu, s.suAct_suFlush (a := .commit n) hr ht, State.suDo]

theorem exec_stitchCancel (hu : s.angleOk 4 = true) (hr : s.suReady 4 = true) (ht : (s.stCancel n).suActs = []) :
    exec (.stitchCancel n) s = .next (s.stCancel n) := by
  change execStitchCancel n s = _
  rw [execStitchCancel, if_pos hu, s.suAct_suFlush (a := .cancel n) hr ht, State.suDo]

theorem exec_stitchParamWrite {w : Fin 6} {src : Master} {v : Word} (hu : s.angleOk 4 = true) (hr : s.suReady 4 = true)
    (ht : (s.stParamWrite n w src v).suActs = []) : exec (.stitchParamWrite n w src v) s = .next (s.stParamWrite n w src v) := by
  change execStitchParamWrite n w src v s = _
  rw [execStitchParamWrite, if_pos hu, s.suAct_suFlush (a := .write n w src v) hr ht, State.suDo]

/-- The path from the chart engine holds `rest` (R21). -/
def State.pathHolds (s : State) (rest : List SuItem) : State := { s with suPath := rest }

/-- The item in front of the path from the chart engine arrives. -/
theorem exec_stitchItemArrive {i : SuItem} {rest : List SuItem} (hu : s.angleOk 4 = true) (hp : s.suPath = i :: rest)
    (hr : s.suReady (SuAct.item i).phase = true) (ht : ((s.pathHolds rest).stItem i).suActs = []) :
    exec .stitchItemArrive s = .next ((s.pathHolds rest).stItem i) := by
  obtain ⟨hup, hfree⟩ := Bool.and_eq_true_iff.1 hu
  change execStitchItemArrive s = _
  rw [execStitchItemArrive, if_pos hup, hp]
  exact congrArg Host.Outcome.next ((if_pos hfree).trans ((s.pathHolds rest).suAct_suFlush (a := .item i) hr ht))

/-! ### Commits (R166, R167) -/

theorem State.stCommit_of_pend (h : s.bit (F.STITCH_STATUS.PEND n) = true) : s.stCommit n = s := if_pos h

theorem State.stCommit_in_time (h : s.bit (F.STITCH_STATUS.PEND n) = false) (ht : (s.getSt n).hoT ≠ some s.fclk) :
    s.stCommit n = s.set (F.STITCH_STATUS.PEND n) 1 := by
  rw [State.stCommit, h, if_neg Bool.false_ne_true]
  exact if_neg ht

theorem State.stCommit_late (h : s.bit (F.STITCH_STATUS.PEND n) = false) (ht : (s.getSt n).hoT = some s.fclk) :
    s.stCommit n = ((s.set (F.STITCH_STATUS.PEND n) 1).evt (F.STITCH_STATUS.COMMIT_LATE n)).raiseIf
      ((s.set (F.STITCH_STATUS.PEND n) 1).stIrq n = 3) (80 + n) := by
  rw [State.stCommit, h, if_neg Bool.false_ne_true]
  exact if_pos ht

/-- A commit where one stands changes nothing, whether the unit runs or not. -/
theorem exec_stitchCommit_of_pend (hr : s.suReady 5 = true) (hn : s.suActs = []) (hp : s.bit (F.STITCH_STATUS.PEND n) = true) :
    exec (.stitchCommit n) s = .next s := by
  have hkept := State.stCommit_of_pend hp
  cases hu : s.angleOk 4 with
  | true => rw [exec_stitchCommit hu hr (by rw [hkept, hn]), hkept]
  | false =>
    change execStitchCommit n s = _
    rw [execStitchCommit, hu]
    rfl

@[simp] theorem State.suActs_stCommit (s : State) (n : Nat) : (s.stCommit n).suActs = s.suActs := by
  unfold State.stCommit
  dsimp only
  split_ifs <;> simp

@[simp] theorem State.suPath_stCommit (s : State) (n : Nat) : (s.stCommit n).suPath = s.suPath := by
  unfold State.stCommit
  dsimp only
  split_ifs <;> simp

theorem State.pend_set (s : State) (n : Nat) : (s.set (F.STITCH_STATUS.PEND n) 1).bit (F.STITCH_STATUS.PEND n) = true :=
  s.bit_set_one _ (show 10 + 1 ≤ 20 by decide) Nat.one_pos

/-- A commit leaves PEND set, whatever stood. -/
theorem State.pend_stCommit (s : State) (n : Fin 128) : (s.stCommit n).bit (F.STITCH_STATUS.PEND n) = true := by
  cases h : s.bit (F.STITCH_STATUS.PEND n) with
  | true => rwa [State.stCommit_of_pend h]
  | false =>
    by_cases ht : (s.getSt n).hoT = some s.fclk
    · rw [State.stCommit_late h ht, State.bit_raiseIf _ _ _ (stitchStatus_below n)]
      refine (State.bit_eq_of_get (State.get_evt_apart _ _ _ (show 12 + 1 ≤ 20 by decide) fun _ => ?_)).trans (s.pend_set n)
      exact .inr (show 10 + 1 ≤ 12 by decide)
    · rw [State.stCommit_in_time h ht]
      exact s.pend_set n

theorem State.commitLate_stCommit (h : s.bit (F.STITCH_STATUS.PEND n) = false) (ht : (s.getSt n).hoT = some s.fclk) :
    (s.stCommit n).bit (F.STITCH_STATUS.COMMIT_LATE n) = true := by
  rw [State.stCommit_late h ht, State.bit_raiseIf _ _ _ (stitchStatus_below n), State.bit,
    State.get_evt _ _ (show 12 + 1 ≤ 20 by decide) Nat.one_pos]
  rfl

/-! ### The end of an occurrence (R155, R164, Table 7.1) -/

/-- The state that follows an occurrence (Table 7.1). -/
def State.stateAfter (s : State) (n : Nat) : Nat :=
  if !(s.activeSet n).en then 0
  else if (s.activeSet n).once then (if (s.getSt n).newSet then 1 else 5)
  else if (s.getSt n).planSeen then 1 else 4

theorem State.stateAfter_mem (s : State) (n : Nat) : s.stateAfter n ∈ [0, 1, 4, 5] := by
  unfold State.stateAfter
  split_ifs <;> decide

theorem State.state_stFinish (s : State) (n : Fin 128) (res : Nat) :
    (s.stFinish n res none).get (F.STITCH_STATUS.STATE n) = s.stateAfter n := by
  have hlt : s.stateAfter n < 2 ^ 3 := by
    have h := s.stateAfter_mem n
    simp only [List.mem_cons, List.not_mem_nil, or_false] at h
    omega
  unfold State.stFinish
  dsimp only
  rw [State.get_raiseIf_below _ _ _ (stitchStatus_below n), State.get_updSt, State.get_set_self _ _ (show 0 + 3 ≤ 20 by decide)]
  exact Nat.mod_eq_of_lt hlt

/-- A stitch whose occurrence has ended is neither armed nor running. -/
theorem State.state_stFinish_ne (s : State) (n : Fin 128) (res : Nat) :
    (s.stFinish n res none).get (F.STITCH_STATUS.STATE n) ≠ 2 ∧ (s.stFinish n res none).get (F.STITCH_STATUS.STATE n) ≠ 3 := by
  have h := s.stateAfter_mem n
  rw [State.state_stFinish]
  simp only [List.mem_cons, List.not_mem_nil, or_false] at h
  omega

/-- RESULT and OCC of an occurrence that has ended: the other fields of W6 are set beside them. -/
theorem State.result_occ_stFinish (s : State) (n : Fin 128) (res : Nat) (nxt : Option Nat) :
    (s.stFinish n res nxt).get (F.STITCH_STATUS.RESULT n) = res % 2 ^ (F.STITCH_STATUS.RESULT n).len
      ∧ (s.stFinish n res nxt).get (F.STITCH_STATUS.OCC n) = (s.get (F.STITCH_STATUS.OCC n) + 1) % 2 ^ (F.STITCH_STATUS.OCC n).len := by
  unfold State.stFinish
  dsimp only
  constructor
  all_goals
    rw [State.get_raiseIf_below _ _ _ (stitchStatus_below n), State.get_updSt]
    simp [State.setB, State.incW, State.get_set_apart, State.get_set_self, F.STITCH_STATUS.RESULT, F.STITCH_STATUS.MISSED,
      F.STITCH_STATUS.JUMPED, F.STITCH_STATUS.CLAMPED, F.STITCH_STATUS.OCC, F.STITCH_STATUS.STATE]

@[simp] theorem State.fclk_stFinish (s : State) (n res : Nat) (nxt : Option Nat) : (s.stFinish n res nxt).fclk = s.fclk := by
  simp [State.stFinish]

@[simp] theorem State.suActs_stFinish (s : State) (n res : Nat) (nxt : Option Nat) : (s.stFinish n res nxt).suActs = s.suActs := by
  simp [State.stFinish]

/-- What an end leaves behind the status word: nothing frozen, and no high level from now on. -/
theorem State.getSt_stFinish (s : State) (n : Fin 128) (res : Nat) (nxt : Option Nat) :
    ((s.stFinish n res nxt).getSt n).fz = none ∧ ((s.stFinish n res nxt).getSt n).endT ≤ s.fclk := by
  unfold State.stFinish
  dsimp only
  rw [State.getSt_of_stitch (State.raiseIf_stitch _ _ _), State.getSt_updSt]
  refine ⟨rfl, (Nat.min_le_right _ _).trans ?_⟩
  simp

theorem State.stCancel_of_run (h : s.get (F.STITCH_STATUS.STATE n) = 2 ∨ s.get (F.STITCH_STATUS.STATE n) = 3) :
    s.stCancel n = s.stFinish n 9 none := by
  unfold State.stCancel
  obtain h | h := h
  · rw [h]
    rfl
  · rw [h]
    rfl

/-! ### Parameter sets (R153, R165) -/

theorem PSet.word_setWord (p : PSet) (i v : Nat) : (p.setWord i v).word i = v := by
  match i with
  | 0 | 1 | 2 | 3 | 4 | _ + 5 => rfl

/-- The active set goes with the stitch and its ACTSET. -/
theorem State.activeSet_congr (hg : t.get (F.STITCH_STATUS.ACTSET n) = s.get (F.STITCH_STATUS.ACTSET n)) (hs : t.getSt n = s.getSt n) :
    t.activeSet n = s.activeSet n := by
  rw [State.activeSet, State.bit_eq_of_get hg, hs, State.activeSet]

theorem State.shadowSet_congr (hg : t.get (F.STITCH_STATUS.ACTSET n) = s.get (F.STITCH_STATUS.ACTSET n)) (hs : t.getSt n = s.getSt n) :
    t.shadowSet n = s.shadowSet n := by
  rw [State.shadowSet, State.bit_eq_of_get hg, hs, State.shadowSet]

theorem State.pend_stSetShadow (s : State) (n w v : Nat) : (s.stSetShadow n w v).get (F.STITCH_STATUS.PEND n) = 0 :=
  State.get_set_self _ _ (show 10 + 1 ≤ 20 by decide) 0

theorem State.actset_stSetShadow (s : State) (n w v : Nat) :
    (s.stSetShadow n w v).get (F.STITCH_STATUS.ACTSET n) = s.get (F.STITCH_STATUS.ACTSET n) := by
  unfold State.stSetShadow
  exact State.get_set_disj _ (F.STITCH_STATUS.PEND n) (F.STITCH_STATUS.ACTSET n) rfl (show 10 + 1 ≤ 20 by decide)
    (.inl (show 10 + 1 ≤ 11 by decide)) 0

/-- Stitch `n` with word `w` of its shadow set replaced: set A is the shadow while ACTSET stands. -/
def Stitch.setShadow (b : Bool) (w v : Nat) (t : Stitch) : Stitch :=
  if b then { t with setA := t.setA.setWord w v } else { t with setB := t.setB.setWord w v }

theorem State.getSt_stSetShadow (s : State) (n : Fin 128) (w v : Nat) :
    (s.stSetShadow n w v).getSt n = (s.getSt n).setShadow (s.bit (F.STITCH_STATUS.ACTSET n)) w v :=
  s.getSt_updSt n (Stitch.setShadow (s.bit (F.STITCH_STATUS.ACTSET n)) w v)

theorem State.activeSet_stSetShadow (s : State) (n : Fin 128) (w v : Nat) : (s.stSetShadow n w v).activeSet n = s.activeSet n := by
  rw [State.activeSet, State.bit_eq_of_get (s.actset_stSetShadow n w v), s.getSt_stSetShadow, State.activeSet]
  cases s.bit (F.STITCH_STATUS.ACTSET n) <;> rfl

theorem State.shadowSet_stSetShadow (s : State) (n : Fin 128) (w v : Nat) :
    (s.stSetShadow n w v).shadowSet n = (s.shadowSet n).setWord w v := by
  rw [State.shadowSet, State.bit_eq_of_get (s.actset_stSetShadow n w v), s.getSt_stSetShadow, State.shadowSet]
  cases s.bit (F.STITCH_STATUS.ACTSET n) <;> rfl

/-! ### Writes and items (R165, R167, R218) -/

theorem State.stParamWrite_unallocated {w : Nat} {src : Master} {v : Word} (he : s.bit (F.SU_ALLOC.EN n) = false) :
    s.stParamWrite n w src v = s := by
  rw [State.stParamWrite, he]
  rfl

/-- A write to a stitch that is not allocated changes nothing, whether the unit runs or not. -/
theorem exec_stitchParamWrite_unallocated {w : Fin 6} {src : Master} {v : Word} (hr : s.suReady 4 = true) (hn : s.suActs = [])
    (he : s.bit (F.SU_ALLOC.EN n) = false) : exec (.stitchParamWrite n w src v) s = .next s := by
  have hkept := State.stParamWrite_unallocated (w := w) (src := src) (v := v) he
  cases hu : s.angleOk 4 with
  | true => rw [exec_stitchParamWrite hu hr (by rw [hkept, hn]), hkept]
  | false =>
    change execStitchParamWrite n w src v s = _
    rw [execStitchParamWrite, hu]
    rfl

/-- What a write of a parameter, or the item of one, comes to: word `w` of the shadow set of stitch `n` is `x`, no commit stands, the
active set is as it was. -/
structure ShadowWritten (n w x : Nat) (s t : State) : Prop where
  word : (t.shadowSet n).word w = x
  pend : t.get (F.STITCH_STATUS.PEND n) = 0
  active : t.activeSet n = s.activeSet n

theorem ShadowWritten.stSetShadow (s : State) (n : Fin 128) (w x : Nat) : ShadowWritten n w x s (s.stSetShadow n w x) :=
  ⟨by rw [State.shadowSet_stSetShadow, PSet.word_setWord], s.pend_stSetShadow n w x, s.activeSet_stSetShadow n w x⟩

/-- The record of a rejected write is none of the stitch's. -/
theorem ShadowWritten.recordReject {w x : Nat} (h : ShadowWritten n w x s t) (a : Nat) : ShadowWritten n w x s (t.recordReject a) := by
  have hget {f : Fld} (hf : f.addr = R.STITCH_STATUS n) : (t.recordReject a).get f = t.get f :=
    t.get_recordReject_above a (by simp only [hf, R.STITCH_STATUS]; omega)
  have hst := State.getSt_of_stitch (State.recordReject_stitch t a) n
  exact ⟨by rw [State.shadowSet_congr (hget rfl) hst, h.word], (hget rfl).trans h.pend,
    (State.activeSet_congr (hget rfl) hst).trans h.active⟩

/-- What stands of the recipe's last write is none of the sets. -/
theorem ShadowWritten.rcpW {w x : Nat} (h : ShadowWritten n w x s t) (r : Option (Nat × Nat)) :
    ShadowWritten n w x s (t.updSt n fun u => { u with rcpW := r }) := by
  have hst := t.getSt_updSt n fun u => { u with rcpW := r }
  refine ⟨?_, h.pend, ?_⟩
  · rw [← h.word, State.shadowSet, hst]
    rfl
  · rw [← h.active, State.activeSet, hst]
    rfl

theorem ShadowWritten.stParamWrite {w : Fin 6} {src : Master} {v : Word} (he : s.bit (F.SU_ALLOC.EN n) = true)
    (hr : (s.getSt n).rcpW = none) :
    ShadowWritten n w (s.merged src (0x2400 + 8 * n + w) ((s.shadowSet n).word w) v.toNat) s (s.stParamWrite n w src v) := by
  rw [State.stParamWrite, he, hr, if_neg (by simp)]
  dsimp only
  split
  · exact (ShadowWritten.stSetShadow s n w _).recordReject _
  · exact ShadowWritten.stSetShadow s n w _

theorem ShadowWritten.stItem {w v : Nat} (he : s.bit (F.SU_ALLOC.EN n) = true) :
    ShadowWritten n w (v &&& (accMask (0x2400 + 8 * n + w) .rw ||| accMask (0x2400 + 8 * n + w) .wl)) s
      (s.stItem (.write n w v)) := by
  unfold State.stItem
  dsimp only
  rw [Nat.mod_eq_of_lt n.isLt, he, if_neg (by simp)]
  exact (ShadowWritten.stSetShadow s n w _).rcpW _

theorem State.stItem_commit (s : State) (n : Fin 128) : s.stItem (.commit n) = s.stCommit n :=
  congrArg s.stCommit (Nat.mod_eq_of_lt n.isLt)

@[simp] theorem State.suActs_stParamWrite (s : State) (n w : Nat) (src : Master) (v : Word) :
    (s.stParamWrite n w src v).suActs = s.suActs := by
  unfold State.stParamWrite State.stSetShadow
  dsimp only
  split_ifs <;> simp

@[simp] theorem State.suActs_stItem (s : State) (i : SuItem) : (s.stItem i).suActs = s.suActs := by
  cases i with
  | write n w v =>
    unfold State.stItem State.stSetShadow
    dsimp only
    split_ifs <;> simp
  | commit n => exact s.suActs_stCommit _

@[simp] theorem State.suPath_stItem (s : State) (i : SuItem) : (s.stItem i).suPath = s.suPath := by
  cases i with
  | write n w v =>
    unfold State.stItem State.stSetShadow
    dsimp only
    split_ifs <;> rfl
  | commit n => exact s.suPath_stCommit _

end

/-! ### What an operation on one stitch can change (R158 to R164, R171 to R173) -/

/-- The registers that an operation on stitch `m` reaches: its W6 and W7, the records of crowding and checks, its source. -/
abbrev StitchReg (m a : Nat) : Prop :=
  a = R.STITCH_STATUS m ∨ a = R.STITCH_LAST m ∨ (R.SU_STAT ≤ a ∧ a ≤ R.SU_CHK) ∨ a = R.IRT_SRC (80 + m) ∨ a = R.IRT_STAT

/-- From `s₀` to `s`, nothing has changed of the other stitches and of the registers that stitch `m` does not reach. -/
structure OnlyStitch (m : Nat) (s₀ s : State) : Prop where
  reg : ∀ a, ¬ StitchReg m a → s.reg a = s₀.reg a
  st : ∀ n, n ≠ m → s.getSt n = s₀.getSt n

section

variable {m : Nat} {s₀ s t : State}

theorem OnlyStitch.refl (m : Nat) (s : State) : OnlyStitch m s s := ⟨fun _ _ => rfl, fun _ _ => rfl⟩

theorem OnlyStitch.trans {u : State} (h : OnlyStitch m s t) (h' : OnlyStitch m t u) : OnlyStitch m s u :=
  ⟨fun a ha => (h'.reg a ha).trans (h.reg a ha), fun n hn => (h'.st n hn).trans (h.st n hn)⟩

/-- An update of other fields. -/
theorem OnlyStitch.frame (h : OnlyStitch m s₀ s) (hr : t.regs = s.regs := by rfl) (hs : t.stitch = s.stitch := by rfl) :
    OnlyStitch m s₀ t :=
  h.trans ⟨fun a _ => congrArg (cellGet resetOf · a) hr, fun n _ => State.getSt_of_stitch hs n⟩

theorem OnlyStitch.ite {c : Prop} {_ : Decidable c} (hs : OnlyStitch m s₀ s) (ht : OnlyStitch m s₀ t) :
    OnlyStitch m s₀ (if c then s else t) := by
  split
  · exact hs
  · exact ht

/-- `if c then f s else s`, in a chain of updates. -/
theorem OnlyStitch.when {c : Prop} {_ : Decidable c} (h : OnlyStitch m s₀ s) (hf : OnlyStitch m s₀ s → OnlyStitch m s₀ t) :
    OnlyStitch m s₀ (if c then t else s) :=
  .ite (hf h) h

theorem OnlyStitch.set (h : OnlyStitch m s₀ s) {f : Fld} {v : Nat} (hf : StitchReg m f.addr) : OnlyStitch m s₀ (s.set f v) :=
  h.trans ⟨fun _ ha => s.reg_set f v _ fun e => ha (e ▸ hf), fun _ _ => rfl⟩

theorem OnlyStitch.mark (h : OnlyStitch m s₀ s) {a : Nat} {g : Word → Word} : OnlyStitch m s₀ (s.mark a g) :=
  .ite h.frame h

/-- A field of W6 is set, or a flag there by an event. -/
theorem OnlyStitch.status (h : OnlyStitch m s₀ s) {f : Fld} {v : Nat} (hf : f.addr = R.STITCH_STATUS m := by rfl) :
    OnlyStitch m s₀ (s.set f v) :=
  h.set (.inl hf)

theorem OnlyStitch.statusEvt (h : OnlyStitch m s₀ s) {f : Fld} (hf : f.addr = R.STITCH_STATUS m := by rfl) : OnlyStitch m s₀ (s.evt f) :=
  h.mark.status hf

/-- A record of the unit is set, or an event noted or counted there. -/
theorem OnlyStitch.unit (h : OnlyStitch m s₀ s) {f : Fld} {v : Nat} (hf : R.SU_STAT ≤ f.addr ∧ f.addr ≤ R.SU_CHK := by decide) :
    OnlyStitch m s₀ (s.set f v) :=
  h.set (.inr (.inr (.inl hf)))

theorem OnlyStitch.unitEvt (h : OnlyStitch m s₀ s) {f : Fld} (hf : R.SU_STAT ≤ f.addr ∧ f.addr ≤ R.SU_CHK := by decide) :
    OnlyStitch m s₀ (s.evt f) :=
  h.mark.unit hf

theorem OnlyStitch.unitInc (h : OnlyStitch m s₀ s) {f : Fld} (hf : R.SU_STAT ≤ f.addr ∧ f.addr ≤ R.SU_CHK := by decide) :
    OnlyStitch m s₀ (s.evtInc f) :=
  h.mark.unit hf

theorem OnlyStitch.report (h : OnlyStitch m s₀ s) {src det : Nat} : OnlyStitch m s₀ (s.report src det) :=
  h.frame (State.report_regs _ _ _) (State.report_stitch _ _ _)

theorem OnlyStitch.raise (h : OnlyStitch m s₀ s) {c : Bool} : OnlyStitch m s₀ (s.raiseIf c (80 + m)) :=
  h.when fun h => .ite h <| .ite h.frame <| .ite (h.mark.set (.inr (.inr (.inr (.inr rfl))))) (h.set (.inr (.inr (.inr (.inl rfl)))))

theorem OnlyStitch.updSt (h : OnlyStitch m s₀ s) {g : Stitch → Stitch} : OnlyStitch m s₀ (s.updSt m g) :=
  h.trans ⟨fun _ _ => rfl, fun _ hn => s.getSt_updSt_ne hn g⟩

theorem OnlyStitch.stFinish (h : OnlyStitch m s₀ s) {res : Nat} {nxt : Option Nat} : OnlyStitch m s₀ (s.stFinish m res nxt) :=
  h.status.status.status.status.status.status.updSt.raise

theorem OnlyStitch.stCrowd (h : OnlyStitch m s₀ s) : OnlyStitch m s₀ (s.stCrowd m) :=
  h.statusEvt.unitEvt.unit.unitInc.report.raise

theorem OnlyStitch.stLoadStart (h : OnlyStitch m s₀ s) {trk st : Nat} : OnlyStitch m s₀ (s.stLoadStart m trk st) :=
  .ite h <| .ite h.updSt h.updSt.stCrowd

theorem OnlyStitch.stLoadEnd (h : OnlyStitch m s₀ s) : OnlyStitch m s₀ (s.stLoadEnd m) :=
  .ite h <| .ite h.updSt h.updSt.stCrowd

theorem OnlyStitch.stBegin (h : OnlyStitch m s₀ s) {trk res d : Nat} : OnlyStitch m s₀ (s.stBegin m trk res d) :=
  (h.status.set (.inr (.inl rfl))).updSt.raise.when (·.stLoadEnd)

theorem OnlyStitch.stLate (h : OnlyStitch m s₀ s) {trk lam : Nat} : OnlyStitch m s₀ (s.stLate m trk lam) := by
  unfold State.stLate
  split
  · exact h
  · exact .ite h.stBegin <| .ite (.ite h.stBegin h.stFinish) h.stFinish

theorem OnlyStitch.stArm (h : OnlyStitch m s₀ s) {trk st : Nat} : OnlyStitch m s₀ (s.stArm m trk st) :=
  have h := h.updSt.status
  .ite (.ite h.stBegin h.stLate) (h.when (·.stLoadStart))

theorem OnlyStitch.stScan (h : OnlyStitch m s₀ s) : OnlyStitch m s₀ (s.stScan m) := by
  refine .ite h <| .ite h.updSt ?_
  split
  · exact h.updSt.when (·.updSt.when (·.stArm))
  · split
    · exact h.updSt.when (·.stLoadStart)
    · exact h.updSt
  · exact h.updSt.when (·.stLoadEnd)
  · exact h.updSt

end

/-! ### What a stitch is planned by (R157 to R160) -/

/-- The registers of the trackers, of the allocation and the plan points (Tables 5.11, 7.9), and W6 of stitch `n`. -/
abbrev PlanReg (n a : Nat) : Prop := (0x1000 ≤ a ∧ a < 0x2100) ∨ a = R.STITCH_STATUS n

/-- States that agree on what stitch `n` is planned by: those registers, the trackers, its active set. -/
structure SamePlan (n : Nat) (s t : State) : Prop where
  reg : ∀ a, PlanReg n a → t.reg a = s.reg a
  trk : t.trk = s.trk
  set : t.activeSet n = s.activeSet n

theorem not_stitchReg_of_plan {n : Fin 128} {m a : Nat} (hm : n.val ≠ m) (ha : PlanReg n a) : ¬ StitchReg m a := by
  simp only [StitchReg, PlanReg, R.STITCH_STATUS, R.STITCH_LAST, R.SU_STAT, R.SU_CHK, R.IRT_SRC, R.IRT_STAT] at *
  omega

section

variable {n : Fin 128} {k : Nat} {s t : State}

theorem SamePlan.get (h : SamePlan n s t) {f : Fld} (hf : PlanReg n f.addr) : t.get f = s.get f :=
  congrArg (fldGet f) (h.reg _ hf)

theorem SamePlan.getTrk (h : SamePlan n s t) (k : Nat) : t.getTrk k = s.getTrk k :=
  congrArg (vget · k Trk.reset) h.trk

theorem planReg_alloc (n : Fin 128) : PlanReg n (R.SU_ALLOC n) := by
  simp only [R.SU_ALLOC]
  omega

theorem planReg_plan (n : Fin 128) : PlanReg n (R.SU_PLAN n) := by
  simp only [R.SU_PLAN]
  omega

/-- A register of tracker `k` by its offset. -/
theorem planReg_stair (hk : k < 4) {c : Nat} (hc : c < 0x400) : PlanReg n (0x1000 + 0x400 * k + c) := by
  omega

section

variable (h : SamePlan n s t) (hk : k < 4)

include h hk

theorem SamePlan.word : t.word k = s.word k := h.get (planReg_stair hk (c := 0x8) (by decide))

theorem SamePlan.trkState : t.trkState k = s.trkState k := h.get (planReg_stair hk (c := 0x7) (by decide))

theorem SamePlan.tidx : t.get (F.STAIR_STAT.TIDX k) = s.get (F.STAIR_STAT.TIDX k) := h.get (planReg_stair hk (c := 0x7) (by decide))

theorem SamePlan.cycLen : t.cycLen k = s.cycLen k :=
  congrArg (· + 1) (h.get (planReg_stair hk (c := 0x17) (by decide)))

theorem SamePlan.tpred : t.tpred k = s.tpred k := by
  rw [State.tpred, h.get (planReg_stair hk (c := 0x1B) (by decide)), h.get (planReg_stair hk (c := 0x1C) (by decide)), State.tpred]

theorem SamePlan.nTeeth : t.nTeeth k = s.nTeeth k :=
  congrArg (· + 1) (h.get (planReg_stair hk (c := 0x15) (by decide)))

theorem SamePlan.treadsOf (j : Nat) : t.treadsOf k j = s.treadsOf k j := by
  have hj : j % s.nTeeth k < 256 := by
    have hmod : j % s.nTeeth k < s.nTeeth k := Nat.mod_lt _ (Nat.succ_pos _)
    have hn : s.nTeeth k ≤ 256 := s.get_lt (F.STAIR_GEOM.NTM1 k)
    omega
  have hspan : t.span k (j % s.nTeeth k) = s.span k (j % s.nTeeth k) :=
    h.get (.inl (by simp only [F.STAIR_TTA.SPAN, R.STAIR_TTA]; omega))
  have hrole : t.get (F.STAIR_CFG.ROLE k) = s.get (F.STAIR_CFG.ROLE k) := h.get (planReg_stair hk (c := 0) (by decide))
  have hstep : t.get (F.STAIR_RCFG.BSTEPLOG k) = s.get (F.STAIR_RCFG.BSTEPLOG k) :=
    h.get (planReg_stair hk (c := 0x13) (by decide))
  rw [State.treadsOf, hrole, hstep, h.getTrk, h.nTeeth hk, hspan, State.treadsOf]

theorem SamePlan.armReach (j l : Nat) : t.armReach k j l = s.armReach k j l := by
  induction l with
  | zero => exact h.treadsOf hk j
  | succ l ih => rw [State.armReach, ih, h.treadsOf hk, State.armReach]

theorem SamePlan.stStart : t.stStart n k = s.stStart n k := by
  rw [State.stStart, h.set, h.getTrk, h.cycLen hk, h.tpred hk, State.stStart]

theorem SamePlan.stClamped : t.stClamped n k = s.stClamped n k := by
  have hplan : t.get (F.SU_PLAN n) = s.get (F.SU_PLAN n) := h.get (planReg_plan n)
  rw [State.stClamped, h.stStart hk, h.set, h.cycLen hk, hplan, State.stClamped]

end

/-- Another stitch than `n` has been scanned, or several: what `n` is planned by is as it was, and so is all that lies behind its W6. -/
structure StitchKept (n : Nat) (s t : State) : Prop extends SamePlan n s t where
  st : t.getSt n = s.getSt n

theorem StitchKept.refl (n : Nat) (s : State) : StitchKept n s s := ⟨⟨fun _ _ => rfl, rfl, rfl⟩, rfl⟩

theorem StitchKept.stScan (h : StitchKept n s t) {m : Nat} (hm : n.val ≠ m) : StitchKept n s (t.stScan m) := by
  have ho := (OnlyStitch.refl m t).stScan
  have hreg (a : Nat) (ha : PlanReg n a) : (t.stScan m).reg a = t.reg a := ho.reg a (not_stitchReg_of_plan hm ha)
  have hst : (t.stScan m).getSt n = t.getSt n := ho.st n hm
  have hset : (t.stScan m).activeSet n = t.activeSet n := State.activeSet_congr (congrArg (fldGet _) (hreg _ (.inr rfl))) hst
  exact ⟨⟨fun a ha => (hreg a ha).trans (h.reg a ha), (StairKept.refl t).stScan.trk.trans h.trk, hset.trans h.set⟩, hst.trans h.st⟩

theorem StitchKept.scans (h : StitchKept n s t) (k : Nat) (l : List Nat) (hl : ∀ i ∈ l, n.val ≠ 8 * k + i) :
    StitchKept n s (t.each l fun s i => s.stScan (8 * k + i)) :=
  List.foldlRecOn l _ h fun _ h i hi => h.stScan (hl i hi)

/-! ### A scan that arms (R158 to R161) -/

/-- What arming with start `st` freezes of stitch `n` on tracker `k` (R160). -/
def State.frozenAt (s : State) (n k st : Nat) : Frozen :=
  ⟨st, (s.activeSet n).len, s.tpred k, (s.getTrk k).n, (s.activeSet n).line, (s.activeSet n).policy, (s.activeSet n).runOn,
    (s.activeSet n).irq, (s.activeSet n).guard⟩

/-- Stitch `n` waits on tracker `k`, owes an acceptance scan, and its start is within reach and not late. -/
structure DueToArm (s : State) (n : Fin 128) (k : Nat) : Prop where
  en : s.bit (F.SU_ALLOC.EN n) = true
  trk : s.get (F.SU_ALLOC.TRK n) = k
  cycle : s.trkState k = 2
  waits : s.get (F.STITCH_STATUS.STATE n) = 1
  owed : (s.getSt n).accScan = true
  reach : subMod (s.stClamped n k).1 (s.getTrk k).base (s.cycLen k)
    < s.armReach k (s.get (F.STAIR_STAT.TIDX k)) (s.activeSet n).armLead
  early : lateWindow (s.cycLen k) (s.activeSet n).guard ≤ subMod (s.word k) (s.stClamped n k).1 (s.cycLen k)

/-- Stitch `n` is armed with `f` frozen. -/
structure ArmedWith (n : Nat) (f : Frozen) (s : State) : Prop where
  state : s.get (F.STITCH_STATUS.STATE n) = 2
  fz : (s.getSt n).fz = some f

theorem DueToArm.trk_lt (d : DueToArm s n k) : k < 4 := d.trk ▸ s.get_lt (F.SU_ALLOC.TRK n)

theorem SamePlan.frozenAt (h : SamePlan n s t) (hk : k < 4) (st : Nat) : t.frozenAt n k st = s.frozenAt n k st := by
  rw [State.frozenAt, h.set, h.tpred hk, h.getTrk, State.frozenAt]

theorem DueToArm.kept (d : DueToArm s n k) (h : StitchKept n s t) : DueToArm t n k where
  en := (State.bit_eq_of_get (h.get (planReg_alloc n))).trans d.en
  trk := (h.get (planReg_alloc n)).trans d.trk
  cycle := (h.trkState d.trk_lt).trans d.cycle
  waits := (h.get (.inr rfl)).trans d.waits
  owed := h.st ▸ d.owed
  reach := by
    rw [h.stClamped d.trk_lt, h.getTrk, h.cycLen d.trk_lt, h.tidx d.trk_lt, h.set, h.armReach d.trk_lt]
    exact d.reach
  early := by
    rw [h.stClamped d.trk_lt, h.cycLen d.trk_lt, h.word d.trk_lt, h.set]
    exact d.early

theorem ArmedWith.kept {f : Frozen} (a : ArmedWith n f s) (h : StitchKept n s t) : ArmedWith n f t :=
  ⟨(h.get (.inr rfl)).trans a.state, h.st ▸ a.fz⟩

/-- A timer given to the start, or the start crowded, leaves a stitch armed (R171, R172). -/
theorem ArmedWith.stLoadStart {f : Frozen} (a : ArmedWith n f s) (st : Nat) : ArmedWith n f (s.stLoadStart n k st) := by
  have hupd (g : Stitch → Stitch) (hg : (g (s.getSt n)).fz = (s.getSt n).fz) : ArmedWith n f (s.updSt n g) :=
    ⟨a.state, by rw [State.getSt_updSt, hg, a.fz]⟩
  unfold State.stLoadStart
  dsimp only
  split_ifs
  · exact a
  · exact hupd _ rfl
  · have hc := hupd (fun t => { t with crS := true }) rfl
    exact ⟨((statusFld_state n).get_stCrowd _ n).trans hc.state, by
      rw [State.getSt_of_stitch (State.stitch_stCrowd _ _), hc.fz]⟩

theorem ArmedWith.freeze (s : State) {g : Stitch → Stitch} {f : Frozen} (hg : (g (s.getSt n)).fz = some f) :
    ArmedWith n f ((s.updSt n g).set (F.STITCH_STATUS.STATE n) 2) :=
  ⟨State.get_set_self _ _ (show 0 + 3 ≤ 20 by decide) 2, (congrArg Stitch.fz (s.getSt_updSt n g)).trans hg⟩

/-- Arming with a start that is not late: no pulse begins in this FCLK (R161). -/
theorem ArmedWith.stArm {st : Nat} (h : lateWindow (s.cycLen k) (s.activeSet n).guard ≤ subMod (s.word k) st (s.cycLen k)) :
    ArmedWith n (s.frozenAt n k st) (s.stArm n k st) := by
  unfold State.stArm
  dsimp only
  rw [decide_eq_false (Nat.not_lt.2 h), Bool.false_and, if_neg Bool.false_ne_true]
  split
  · exact (ArmedWith.freeze s rfl).stLoadStart st
  · exact ArmedWith.freeze s rfl

/-- Flags of the scan, and of its clamps, are none of what a stitch is planned by. -/
theorem SamePlan.updSt (h : SamePlan n s t) {g : Stitch → Stitch} (hA : (g (t.getSt n)).setA = (t.getSt n).setA)
    (hB : (g (t.getSt n)).setB = (t.getSt n).setB) : SamePlan n s (t.updSt n g) := by
  refine ⟨h.reg, h.trk, Eq.trans ?_ h.set⟩
  unfold State.activeSet
  rw [State.getSt_updSt, hA, hB]
  rfl

/-- A scan takes up the acceptance scan that was owed. -/
def Stitch.scanned (t : Stitch) : Stitch := { t with accScan := false, fresh := false }

/-- The clamps have, or have not, changed the start (R159). -/
def Stitch.noteClamp (hit : Bool) (t : Stitch) : Stitch := { t with oClamped := hit }

theorem SamePlan.scanned (n : Fin 128) (s : State) : SamePlan n s (s.updSt n Stitch.scanned) :=
  .updSt (StitchKept.refl n s).toSamePlan rfl rfl

theorem SamePlan.noteClamp (h : SamePlan n s t) (hit : Bool) : SamePlan n s (t.updSt n (Stitch.noteClamp hit)) :=
  h.updSt rfl rfl

/-- The scan of a stitch that waits on a tracker in CYCLE_SYNC and owes an acceptance scan. -/
theorem State.stScan_of_waiting (he : s.bit (F.SU_ALLOC.EN n) = true) (ht : s.get (F.SU_ALLOC.TRK n) = k) (hc : s.trkState k = 2)
    (hw : s.get (F.STITCH_STATUS.STATE n) = 1) (ho : (s.getSt n).accScan = true) :
    s.stScan n =
      let u := s.updSt n Stitch.scanned
      let v := u.updSt n (Stitch.noteClamp (u.stClamped n k).2)
      if subMod (u.stClamped n k).1 (v.getTrk k).base (v.cycLen k)
        < v.armReach k (v.get (F.STAIR_STAT.TIDX k)) (v.activeSet n).armLead
      then v.stArm n k (u.stClamped n k).1
      else v := by
  unfold State.stScan
  rw [he, if_neg (by simp), ht]
  refine Eq.trans (if_neg (not_not.2 hc)) ?_
  simp only [State.get_updSt, hw, ho, Bool.true_or, if_true]
  rfl

/-- The scan of a stitch that is due is its arming. -/
theorem DueToArm.stScan_eq (d : DueToArm s n k) :
    s.stScan n = ((s.updSt n Stitch.scanned).updSt n (Stitch.noteClamp (s.stClamped n k).2)).stArm n k (s.stClamped n k).1 := by
  have hs := SamePlan.scanned n s
  have hu := hs.noteClamp (s.stClamped n k).2
  rw [State.stScan_of_waiting d.en d.trk d.cycle d.waits d.owed]
  dsimp only
  rw [hs.stClamped d.trk_lt, hu.getTrk, hu.cycLen d.trk_lt, hu.tidx d.trk_lt, hu.set, hu.armReach d.trk_lt, if_pos d.reach]

/-- The scan of a stitch that is due arms it. -/
theorem DueToArm.stScan (d : DueToArm s n k) : ArmedWith n (s.frozenAt n k (s.stClamped n k).1) (s.stScan n) := by
  have hu := (SamePlan.scanned n s).noteClamp (s.stClamped n k).2
  rw [d.stScan_eq, ← hu.frozenAt d.trk_lt]
  refine ArmedWith.stArm ?_
  rw [hu.cycLen d.trk_lt, hu.set, hu.word d.trk_lt]
  exact d.early

/-- The scan of a group reaches each of its stitches once. -/
theorem DueToArm.scans (d : DueToArm s n k) :
    ArmedWith n (s.frozenAt n k (s.stClamped n k).1) (s.each (List.range 8) fun s i => s.stScan (8 * (n / 8) + i)) := by
  have hn : 8 * (n.val / 8) + n % 8 = n := Nat.div_add_mod n 8
  obtain ⟨l₁, l₂, hl⟩ := List.append_of_mem (List.mem_range.2 (Nat.mod_lt n.val (by decide : 0 < 8)))
  obtain ⟨-, hnd, hne⟩ := List.nodup_append.1 (hl ▸ List.nodup_range (n := 8))
  have h₁ : ∀ i ∈ l₁, n.val ≠ 8 * (n.val / 8) + i := fun i hi e => hne i hi (n.val % 8) (by simp) (by omega)
  have h₂ : ∀ i ∈ l₂, n.val ≠ 8 * (n.val / 8) + i := fun i hi e => (List.nodup_cons.1 hnd).1 (by rwa [show n.val % 8 = i by omega])
  have hb := (StitchKept.refl n s).scans (n / 8) l₁ h₁
  have ha := (d.kept hb).stScan
  rw [hb.frozenAt d.trk_lt, hb.stClamped d.trk_lt] at ha
  rw [hl, State.each, List.foldl_append, List.foldl_cons, hn]
  exact ha.kept ((StitchKept.refl n _).scans (n / 8) l₂ h₂)

/-- Group `g` has been scanned, and the pass stands at the next one (R158). -/
def State.groupScanned (s : State) (g : Nat) : State :=
  let u := s.each (List.range 8) fun s i => s.stScan (8 * g + i)
  { u with suPos := (g + 1) % 16, suT := some u.fclk }

theorem State.suScan_eq {g : Nat} (ht : s.suT ≠ some s.fclk) (hg : s.suPos = g) (hlt : g < 16) (chk : Option (Fin 128)) :
    s.suScan chk = (s.groupScanned g).stCheck chk := by
  subst hg
  rw [State.suScan, if_neg ht, Nat.mod_eq_of_lt hlt, State.groupScanned]

theorem ArmedWith.stCheck {f : Frozen} (a : ArmedWith n f s) (chk : Option (Fin 128)) : ArmedWith n f (s.stCheck chk) :=
  ⟨((statusFld_state n).get_stCheck s chk).trans a.state, by rw [State.getSt_of_stitch (s.stitch_stCheck chk), a.fz]⟩

theorem DueToArm.suScan (d : DueToArm s n k) (ht : s.suT ≠ some s.fclk) (hg : n.val / 8 = s.suPos) (chk : Option (Fin 128)) :
    (s.suScan chk).suPos = (s.suPos + 1) % 16 ∧ ArmedWith n (s.frozenAt n k (s.stClamped n k).1) (s.suScan chk) := by
  rw [State.suScan_eq ht hg.symm (by omega), ← hg]
  have ha : ArmedWith n (s.frozenAt n k (s.stClamped n k).1) (s.groupScanned (n / 8)) := ⟨d.scans.state, d.scans.fz⟩
  exact ⟨State.suPos_stCheck _ _, ha.stCheck chk⟩

end

/-- Settles O14: the scan of a group reaches each of its stitches once and leaves to the others what they are planned by, so that one that
is due is armed as it stood; the equations above say what an end, a commit, a cancel and a write come to. -/
theorem stitchesArmRunAndEnd : Obligations.StitchesArmRunAndEnd := by
  unfold Obligations.StitchesArmRunAndEnd
  refine ⟨fun s n k chk hu hr ht hg he hk hc hw ho hreach hearly => ?_, fun s n chk hu hs he => ?_, fun s n hu hr hn hp ht => ?_,
    fun s n hu hr hn hp ht => ?_, fun s n hr hn hp => ?_, fun s n hu hr hn hs => ?_, fun s n w src v hu hr hn he hw => ?_,
    fun s n w src v hr hn he => ?_, fun s n rest hu hr hn hp => ?_, fun s n w v rest hu hr hn he hp => ?_⟩
  · obtain ⟨hpos, harmed⟩ := DueToArm.suScan ⟨he, hk, hc, hw, ho, hreach, hearly⟩ ht hg chk
    exact ⟨_, exec_stitchScan hu hr, hpos, harmed.state, harmed.fz⟩
  · obtain ⟨hfz, -⟩ := s.getSt_stFinish n (s.getSt n).res none
    obtain ⟨hres, hocc⟩ := s.result_occ_stFinish n (s.getSt n).res none
    refine ⟨_, exec_stitchPulseEnd hu hs he, ?_, ?_, ?_, ?_⟩
    · rw [(statusFld_result n).get_stCheck, hres]
    · rw [State.getSt_of_stitch (State.stitch_stCheck _ _), hfz]
    · rw [(statusFld_occ n).get_stCheck, hocc]
    · rw [(statusFld_state n).get_stCheck, State.state_stFinish, State.stateAfter]
  · refine ⟨_, exec_stitchCommit hu hr (by simp [hn]), s.pend_stCommit n, ?_⟩
    rw [State.stCommit_in_time hp ht]
    exact ⟨fun a ha => s.reg_set _ _ a ha, rfl, State.get_set_disj _ (F.STITCH_STATUS.PEND n) (F.STITCH_STATUS.COMMIT_LATE n) rfl
      (show 10 + 1 ≤ 20 by decide) (.inl (show 10 + 1 ≤ 12 by decide)) 1⟩
  · exact ⟨_, exec_stitchCommit hu hr (by simp [hn]), s.pend_stCommit n, State.commitLate_stCommit hp ht⟩
  · exact exec_stitchCommit_of_pend hr hn hp
  · have hrun := exec_stitchCancel (n := n) hu hr
    rw [State.stCancel_of_run hs] at hrun
    obtain ⟨hfz, hend⟩ := s.getSt_stFinish n 9 none
    exact ⟨_, hrun (by simp [hn]), (s.result_occ_stFinish n 9 none).1, hfz, by simpa using hend, s.state_stFinish_ne n 9⟩
  · obtain ⟨hword, hpend, hactive⟩ := ShadowWritten.stParamWrite (w := w) (src := src) (v := v) he hw
    exact ⟨_, exec_stitchParamWrite hu hr (by simp [hn]), hword, hpend, hactive⟩
  · exact exec_stitchParamWrite_unallocated hr hn he
  · refine ⟨_, exec_stitchItemArrive hu hp hr ((State.suActs_stItem _ _).trans hn), State.suPath_stItem _ _, ?_⟩
    rw [State.stItem_commit]
    exact State.pend_stCommit _ n
  · obtain ⟨hword, hpend, hactive⟩ := ShadowWritten.stItem (s := s.pathHolds rest) (w := w) (v := v) he
    exact ⟨_, exec_stitchItemArrive hu hp hr ((State.suActs_stItem _ _).trans hn), State.suPath_stItem _ _, hpend, hactive, hword⟩

end Sys2Proof.Machine
end

section
/-! SUPPORT. What the statement on the frame of the injector commands does not rule out: an end-of-injection observation of an injector that
the part does not have. Its crossing lands in a register of a neighbour (against O42). -/

set_option Elab.async false

namespace Sys2Proof.Machine

/-- The part runs, and bank 0 observes the end of injection of injector 0x390, where injectors 0 to 15 exist: its INJ_EOIL would be QV0. The
comparator has fallen since the level last observed, 6 FCLK after the close and within EOIWIN. -/
def strayObservation : State :=
  { State.reset with
    regs := [(R.PCR_STAT, fldSet F.PCR_STAT.PLLA_LOCK 0 1), (R.INJ_BEOI 0, 1)]
    pcr := { Pcr.reset with held := none }
    inj := { Inj.reset with bank := vupd Inj.reset.bank 0 fun k => { k with eoi := some (0x390, 4090), eoiLvl := true } } }

theorem strayObservation_place : R.INJ_EOIL 0x390 = R.CHT_QV 0 := rfl

/-- The crossing writes its time to QV0. -/
theorem strayObservation_crossing :
    ∃ t, exec (.eoiCrossing 0) strayObservation = .next t ∧ t.reg (R.CHT_QV 0) ≠ strayObservation.reg (R.CHT_QV 0) :=
  ⟨_, rfl, by decide +kernel⟩

/-- Refutes O42: in `strayObservation` a crossing of the end-of-injection comparator changes QV0, which is no register of the injectors. -/
theorem not_injectorCommandsKeepTheRest : ¬ Obligations.InjectorCommandsKeepTheRest := by
  unfold Obligations.InjectorCommandsKeepTheRest
  intro h
  obtain ⟨t, ht, -, hregs⟩ := h (.eoiCrossing 0) strayObservation rfl
  obtain ⟨u, hu, hchanged⟩ := strayObservation_crossing
  obtain rfl : u = t := Host.Outcome.next.inj (hu.symm.trans ht)
  exact hchanged (hregs (R.CHT_QV 0) (by decide))

end Sys2Proof.Machine
end

section
/-! SUPPORT. The windows of the injector banks: requests, closes, the diagnosis of the load with its cuts, and the observation of the end of
injection (O15). -/

set_option Elab.async false

namespace Sys2Proof.Machine

variable {s₀ s t : State} {b n : Nat}

/-! ### Flags and counts of an injector -/

theorem State.get_evtInc_apart (s : State) (f g : Fld) (hf : f.lo + f.len ≤ 20)
    (h : g.addr = f.addr → f.lo + f.len ≤ g.lo ∨ g.lo + g.len ≤ f.lo) : (s.evtInc f).get g = s.get g := by
  rw [State.evtInc, State.evtAdd, State.get_set_apart _ _ _ hf h, State.get_mark]

theorem State.get_set_satAdd (s t : State) (f : Fld) (hf : f.lo + f.len ≤ 20) (k : Nat) :
    (t.set f (satAdd (s.get f) k (2 ^ f.len - 1))).get f = satAdd (s.get f) k (2 ^ f.len - 1) := by
  rw [State.get_set_self _ f hf]
  refine Nat.mod_eq_of_lt ?_
  have hlt := s.get_lt f
  unfold satAdd
  split <;> omega

theorem State.condInj_lt (s : State) (hb : b < 4) : s.condInj b < 16 := by
  have h : s.get (F.INJ_BSTAT.CONDINJ b) < 4 := s.get_lt _
  simp only [State.condInj]
  omega

theorem injBstat_below (hb : b < 4) : R.INJ_BSTAT b < R.IRT_STAT := by
  simp only [R.INJ_BSTAT, R.IRT_STAT]
  omega

theorem injBstat_lt_stat (hb : b < 4) : R.INJ_BSTAT b < R.INJ_STAT 0 := by
  simp only [R.INJ_BSTAT, R.INJ_STAT]
  omega

theorem injStat_below (hn : n < 16) : R.INJ_STAT n < R.IRT_STAT := by
  simp only [R.INJ_STAT, R.IRT_STAT]
  omega

theorem State.get_injFlag_apart (s : State) (n : Nat) (f g : Fld) (hg : g.addr < R.IRT_STAT) (hf : f.lo + f.len ≤ 20)
    (h : g.addr = f.addr → f.lo + f.len ≤ g.lo ∨ g.lo + g.len ≤ f.lo) : (s.injFlag n f).get g = s.get g := by
  rw [State.injFlag, State.get_raise_below _ _ hg, State.get_evt_apart _ _ _ hf h]

theorem State.bit_injFlag (s : State) (n : Nat) {f : Fld} (hf : f.addr < R.IRT_STAT) (h20 : f.lo + f.len ≤ 20) (h1 : 0 < f.len) :
    (s.injFlag n f).bit f = true := by
  rw [State.bit, State.injFlag, State.get_raise_below _ _ hf, State.get_evt _ _ h20 h1]
  rfl

/-- A raise ends a crossing failure at most; the findings stay. -/
theorem State.pulses_raise (s : State) (k : Nat) : (s.raise k).por.pulses = s.por.pulses := by
  rcases s.raise_cases k with ⟨-, e⟩ | ⟨-, -, e⟩ | ⟨-, -, -, e⟩ | ⟨-, -, -, e⟩
  · rw [e]
  · rw [e, State.lostMet]
  · rw [e, State.evtInc_por]
  · rw [e, State.incW_por]

@[simp] theorem State.pulses_injFlag (s : State) (n : Nat) (f : Fld) : (s.injFlag n f).por.pulses = s.por.pulses := by
  rw [State.injFlag, State.pulses_raise, State.evt_por]

@[simp] theorem State.inj_injFlag (s : State) (n : Nat) (f : Fld) : (s.injFlag n f).inj = s.inj := by simp [State.injFlag]

@[simp] theorem State.bit_updBank (s : State) (b : Nat) (g : Bank → Bank) (f : Fld) : (s.updBank b g).bit f = s.bit f := (rfl)

@[simp] theorem State.condInj_updBank (s : State) (b : Nat) (g : Bank → Bank) (c : Nat) : (s.updBank b g).condInj c = s.condInj c := (rfl)

@[simp] theorem State.get_updBank (s : State) (b : Nat) (g : Bank → Bank) (f : Fld) : (s.updBank b g).get f = s.get f := (rfl)

theorem State.getBank_updBank (s : State) (hb : b < 4) (g : Bank → Bank) : (s.updBank b g).getBank b = g (s.getBank b) :=
  vget_vupd_self s.inj.bank hb g Bank.reset

@[simp] theorem State.getBank_set (s : State) (f : Fld) (v b : Nat) : (s.set f v).getBank b = s.getBank b := (rfl)

theorem State.getBank_of_inj (h : t.inj = s.inj) (b : Nat) : t.getBank b = s.getBank b := by
  rw [State.getBank, h, State.getBank]

/-! ### Slots seen and refused (R181, R183) -/

theorem bitOf_setBitN (x k : Nat) (v : Bool) : bitOf (setBitN x k v) k = v := by
  unfold setBitN
  split
  case isTrue h => exact h
  case isFalse h =>
    cases v with
    | true => exact bitOf_add_two_pow (Bool.eq_false_iff.2 h)
    | false => exact bitOf_sub_two_pow ((Bool.not_eq_false _).mp h)

theorem State.slotSeen_setSeen (s : State) (k : Nat) (v : Bool) : (s.setSeen k v).slotSeen k = v := bitOf_setBitN _ k v

theorem State.slotRefused_setRefused (s : State) (k : Nat) (v : Bool) : (s.setRefused k v).slotRefused k = v := bitOf_setBitN _ k v

@[simp] theorem State.get_setSeen (s : State) (k : Nat) (v : Bool) (f : Fld) : (s.setSeen k v).get f = s.get f := (rfl)

@[simp] theorem State.get_setRefused (s : State) (k : Nat) (v : Bool) (f : Fld) : (s.setRefused k v).get f = s.get f := (rfl)

@[simp] theorem State.por_setRefused (s : State) (k : Nat) (v : Bool) : (s.setRefused k v).por = s.por := (rfl)

@[simp] theorem State.bit_setSeen (s : State) (k : Nat) (v : Bool) (f : Fld) : (s.setSeen k v).bit f = s.bit f := (rfl)

@[simp] theorem State.bit_setRefused (s : State) (k : Nat) (v : Bool) (f : Fld) : (s.setRefused k v).bit f = s.bit f := (rfl)

@[simp] theorem State.requestOk_setSeen (s : State) (k : Nat) (v : Bool) (n : Nat) : (s.setSeen k v).requestOk n = s.requestOk n := (rfl)

@[simp] theorem State.condInj_setSeen (s : State) (k : Nat) (v : Bool) (b : Nat) : (s.setSeen k v).condInj b = s.condInj b := (rfl)

@[simp] theorem State.condInj_setRefused (s : State) (k : Nat) (v : Bool) (b : Nat) : (s.setRefused k v).condInj b = s.condInj b := (rfl)

@[simp] theorem State.fclk_setSeen (s : State) (k : Nat) (v : Bool) : (s.setSeen k v).fclk = s.fclk := (rfl)

@[simp] theorem State.fclk_setRefused (s : State) (k : Nat) (v : Bool) : (s.setRefused k v).fclk = s.fclk := (rfl)

@[simp] theorem State.getBank_setSeen (s : State) (k : Nat) (v : Bool) (b : Nat) : (s.setSeen k v).getBank b = s.getBank b := (rfl)

@[simp] theorem State.slotSeen_setRefused (s : State) (j k : Nat) (v : Bool) : (s.setRefused j v).slotSeen k = s.slotSeen k := (rfl)

@[simp] theorem State.slotSeen_set (s : State) (f : Fld) (v k : Nat) : (s.set f v).slotSeen k = s.slotSeen k := (rfl)

@[simp] theorem State.slotSeen_updBank (s : State) (b : Nat) (g : Bank → Bank) (k : Nat) :
    (s.updBank b g).slotSeen k = s.slotSeen k := (rfl)

theorem State.slotSeen_of_seen (h : t.inj.seen = s.inj.seen) (k : Nat) : t.slotSeen k = s.slotSeen k := by
  rw [State.slotSeen, h, State.slotSeen]

/-! ### What the measurements of a pulse leave of its window -/

/-- What is kept of bank `b`'s window, from a state `s₀` to a later state `s`: every register below INJ_STAT, INJ_BSTAT and the settings of
the banks among them; bits `lo` to `hi` - 1 of each INJ_STAT; the slots seen; the time of the opening; and I_OC. -/
structure WindowKept (lo hi b : Nat) (s₀ s : State) : Prop where
  low : ∀ a, a < R.INJ_STAT 0 → s.reg a = s₀.reg a
  stat : ∀ n f, n < 16 → f.addr = R.INJ_STAT n → lo ≤ f.lo → f.lo + f.len ≤ hi → s.get f = s₀.get f
  seen : s.inj.seen = s₀.inj.seen
  openT : (s.getBank b).openT = (s₀.getBank b).openT
  oc : (s.getBank b).oc = (s₀.getBank b).oc

section

variable {lo hi : Nat}

theorem WindowKept.refl (s : State) : WindowKept lo hi b s s := ⟨fun _ _ => rfl, fun _ _ _ _ _ _ => rfl, rfl, rfl, rfl⟩

theorem WindowKept.trans {s t u : State} (h : WindowKept lo hi b s t) (h' : WindowKept lo hi b t u) : WindowKept lo hi b s u :=
  ⟨fun a ha => (h'.low a ha).trans (h.low a ha), fun n f hn hf hl hh => (h'.stat n f hn hf hl hh).trans (h.stat n f hn hf hl hh),
    h'.seen.trans h.seen, h'.openT.trans h.openT, h'.oc.trans h.oc⟩

/-- An update of other fields. -/
theorem WindowKept.frame (h : WindowKept lo hi b s₀ s) (hr : t.regs = s.regs := by rfl) (hj : t.inj = s.inj := by rfl) :
    WindowKept lo hi b s₀ t :=
  h.trans ⟨fun a _ => congrArg (cellGet resetOf · a) hr, fun _ f _ _ _ _ => State.get_of_regs hr f, congrArg Inj.seen hj,
    congrArg Bank.openT (State.getBank_of_inj hj b), congrArg Bank.oc (State.getBank_of_inj hj b)⟩

theorem WindowKept.get (h : WindowKept lo hi b s₀ s) {f : Fld} (hf : f.addr < R.INJ_STAT 0) : s.get f = s₀.get f :=
  congrArg (fldGet f) (h.low _ hf)

theorem WindowKept.ite {c : Prop} {_ : Decidable c} (hs : WindowKept lo hi b s₀ s) (ht : WindowKept lo hi b s₀ t) :
    WindowKept lo hi b s₀ (if c then s else t) := by
  split
  · exact hs
  · exact ht

/-- `if c then f s else s`, in a chain of updates. -/
theorem WindowKept.when {c : Prop} {_ : Decidable c} (h : WindowKept lo hi b s₀ s)
    (hf : WindowKept lo hi b s₀ s → WindowKept lo hi b s₀ t) : WindowKept lo hi b s₀ (if c then t else s) :=
  .ite (hf h) h

/-- A field is set above the registers of INJ_STAT, or in one of them beside the bits kept. -/
theorem WindowKept.set (h : WindowKept lo hi b s₀ s) {f : Fld} {v : Nat} (hf : f.lo + f.len ≤ 20)
    (ha : (f.lo + f.len ≤ lo ∨ hi ≤ f.lo) ∧ R.INJ_STAT 0 ≤ f.addr ∨ R.INJ_STAT 16 ≤ f.addr) : WindowKept lo hi b s₀ (s.set f v) := by
  refine h.trans ⟨fun a hlow => s.reg_set f v a ?_, fun n g hn hg hl hh => s.get_set_apart f g hf (fun he => ?_) v, rfl, rfl, rfl⟩
  · have : R.INJ_STAT 0 ≤ R.INJ_STAT 16 := by decide
    omega
  · simp only [R.INJ_STAT] at ha hg
    omega

/-- A field of a register of the block at offset `c`, of several. -/
theorem WindowKept.setAt (h : WindowKept lo hi b s₀ s) {c m l k v : Nat} (hf : l + k ≤ 20 := by decide)
    (hc : (l + k ≤ lo ∨ hi ≤ l) ∧ 0x30 ≤ c ∨ 0x40 ≤ c := by decide) : WindowKept lo hi b s₀ (s.set ⟨0x3000 + c + 1 * m, l, k⟩ v) :=
  h.set hf (by simp only [R.INJ_STAT]; omega)

/-- The same field of the bank's own register is set on both sides. -/
theorem WindowKept.setBoth (h : WindowKept lo hi b s₀ s) (hb : b < 4) {f : Fld} {v : Nat} (hf : f.addr = R.INJ_BSTAT b := by rfl) :
    WindowKept lo hi b (s₀.set f v) (s.set f v) := by
  have hlow : f.addr < R.INJ_STAT 0 := hf ▸ injBstat_lt_stat hb
  refine ⟨fun a ha => ?_, fun n g hn hg hl hh => ?_, h.seen, h.openT, h.oc⟩
  · simp only [State.set, State.reg_setReg, h.low _ hlow, h.low _ ha]
  · have hne : g.addr ≠ f.addr := by
      simp only [R.INJ_STAT] at hlow hg
      omega
    rw [State.get_set_addr _ _ _ hne, State.get_set_addr _ _ _ hne, h.stat n g hn hg hl hh]

theorem WindowKept.mark (h : WindowKept lo hi b s₀ s) {a : Nat} {g : Word → Word} : WindowKept lo hi b s₀ (s.mark a g) :=
  .ite h.frame h

theorem injStat_le_irtSrc (k : Nat) : R.INJ_STAT 16 ≤ R.IRT_SRC k := by
  simp only [R.INJ_STAT, R.IRT_SRC]
  omega

theorem WindowKept.raise (h : WindowKept lo hi b s₀ s) {k : Nat} : WindowKept lo hi b s₀ (s.raise k) :=
  .ite h <| .ite h.frame <| .ite (h.mark.set (by decide) (.inr (by decide)))
    (h.set (show 9 + 4 ≤ 20 by decide) (.inr (injStat_le_irtSrc k)))

theorem WindowKept.raiseIf (h : WindowKept lo hi b s₀ s) {c : Bool} {k : Nat} : WindowKept lo hi b s₀ (s.raiseIf c k) :=
  .ite h.raise h

theorem WindowKept.report (h : WindowKept lo hi b s₀ s) {k d : Nat} : WindowKept lo hi b s₀ (s.report k d) :=
  .ite h <| .ite h.frame h.frame

theorem WindowKept.updBank (h : WindowKept lo hi b s₀ s) (hb : b < 4) {g : Bank → Bank}
    (hg : ∀ k, (g k).openT = k.openT := by exact fun _ => rfl) (hc : ∀ k, (g k).oc = k.oc := by exact fun _ => rfl) :
    WindowKept lo hi b s₀ (s.updBank b g) :=
  h.trans ⟨fun _ _ => rfl, fun _ _ _ _ _ _ => rfl, rfl, by rw [s.getBank_updBank hb, hg], by rw [s.getBank_updBank hb, hc]⟩

end

/-! ### A window closes (R182, R188) -/

/-- A close clears BUSY, sets DRAIN and records what was measured. -/
theorem WindowKept.bankClose (s : State) (hb : b < 4) :
    WindowKept 0 7 b ((s.set (F.INJ_BSTAT.BUSY b) 0).set (F.INJ_BSTAT.DRAIN b) 1) (s.bankClose b) := by
  unfold State.bankClose
  exact (((((WindowKept.refl s).setAt.setAt.setAt).setBoth hb).setBoth hb).when (·.setAt.setAt.setAt.setAt)).updBank hb

theorem State.bit_of_get_zero {f : Fld} (h : s.get f = 0) : s.bit f = false := by
  rw [State.bit, h]
  rfl

theorem State.bit_of_get_one {f : Fld} (h : s.get f = 1) : s.bit f = true := by
  rw [State.bit, h]
  rfl

theorem State.busy_bankClose (s : State) (hb : b < 4) : (s.bankClose b).bit (F.INJ_BSTAT.BUSY b) = false := by
  refine State.bit_of_get_zero ?_
  rw [(WindowKept.bankClose s hb).get (injBstat_lt_stat hb), State.get_set_disj _ (F.INJ_BSTAT.DRAIN b) (F.INJ_BSTAT.BUSY b) rfl
    (show 6 + 1 ≤ 20 by decide) (.inr (show 0 + 1 ≤ 6 by decide)), State.get_set_self _ _ (show 0 + 1 ≤ 20 by decide)]
  rfl

theorem State.drain_bankClose (s : State) (hb : b < 4) : (s.bankClose b).bit (F.INJ_BSTAT.DRAIN b) = true :=
  (State.bit_eq_of_get ((WindowKept.bankClose s hb).get (injBstat_lt_stat hb))).trans
    (State.bit_set_one _ _ (show 6 + 1 ≤ 20 by decide) Nat.one_pos)

theorem State.offT_bankClose (s : State) (hb : b < 4) : ((s.bankClose b).getBank b).offT = s.fclk := by
  unfold State.bankClose
  rw [State.getBank_updBank _ hb]

@[simp] theorem State.por_bankClose (s : State) (b : Nat) : (s.bankClose b).por = s.por := by
  simp [State.bankClose, apply_ite State.por]

/-! ### A cut for a fault of the load (R188, R189) -/

theorem State.bankCut_of_busy (h : s.bit (F.INJ_BSTAT.BUSY b) = true) (cause : Nat) :
    s.bankCut b cause = (((s.bankClose b).setRefused (8 * s.condInj b + s.get (F.INJ_BSTAT.CONDSLOT b)) true).set
      (F.INJ_BSTAT.CUTCAUSE b) cause).injFlag (s.condInj b) (F.INJ_STAT.CUT (s.condInj b)) :=
  if_pos h

/-- The flag of a load fault in INJ_STAT by its code in Table 19.1: OPEN, SHORT, LOWR, SLOW. -/
theorem State.loadFlag_eq (s : State) (b : Nat) {code : Nat} (hc : code < 4) :
    s.loadFlag b code = (s.injFlag (s.condInj b) ⟨R.INJ_STAT (s.condInj b), code, 1⟩).report (20 + b) (4 * (s.condInj b % 4) + code) := by
  interval_cases code <;> rfl

/-- A load fault of the pulse in bank `b` has been found: the window is open for injector `n`, whose flag of that code is set, and source
20 + `b` reports it. -/
structure LoadFault (b n code : Nat) (s : State) : Prop where
  busy : s.bit (F.INJ_BSTAT.BUSY b) = true
  inj : s.condInj b = n
  flag : s.bit ⟨R.INJ_STAT n, code, 1⟩ = true
  reported : (s.por.pulses.any fun p => p.src = 20 + b) = true

/-- The window of bank `b` has been cut for it. -/
structure FaultCut (b n code : Nat) (s : State) : Prop where
  closed : s.bit (F.INJ_BSTAT.BUSY b) = false
  cause : s.get (F.INJ_BSTAT.CUTCAUSE b) = 3
  flag : s.bit ⟨R.INJ_STAT n, code, 1⟩ = true
  cut : s.bit (F.INJ_STAT.CUT n) = true
  reported : (s.por.pulses.any fun p => p.src = 20 + b) = true

theorem WindowKept.busy {lo hi : Nat} (h : WindowKept lo hi b s₀ s) (hb : b < 4) :
    s.bit (F.INJ_BSTAT.BUSY b) = s₀.bit (F.INJ_BSTAT.BUSY b) :=
  State.bit_eq_of_get (h.get (injBstat_lt_stat hb))

theorem WindowKept.condInj {lo hi : Nat} (h : WindowKept lo hi b s₀ s) (hb : b < 4) : s.condInj b = s₀.condInj b :=
  congrArg (4 * b + ·) (h.get (f := F.INJ_BSTAT.CONDINJ b) (injBstat_lt_stat hb))

theorem LoadFault.kept {code : Nat} (h : LoadFault b n code s) (hb : b < 4) (hc : code < 4) (hk : WindowKept 0 6 b s t)
    (hp : t.por = s.por := by rfl) : LoadFault b n code t := by
  have hn : n < 16 := h.inj ▸ s.condInj_lt hb
  have hflag : t.get ⟨R.INJ_STAT n, code, 1⟩ = s.get ⟨R.INJ_STAT n, code, 1⟩ :=
    hk.stat n _ hn rfl (Nat.zero_le _) (show code + 1 ≤ 6 by omega)
  exact ⟨(hk.busy hb).trans h.busy, (hk.condInj hb).trans h.inj, (State.bit_eq_of_get hflag).trans h.flag, hp ▸ h.reported⟩

theorem LoadFault.bankCut {code : Nat} (h : LoadFault b n code s) (hb : b < 4) (hc : code < 4) : FaultCut b n code (s.bankCut b 3) := by
  have hn : n < 16 := h.inj ▸ s.condInj_lt hb
  have hbelow := injBstat_below hb
  have hne : R.INJ_BSTAT b ≠ R.INJ_STAT n := by
    simp only [R.INJ_BSTAT, R.INJ_STAT]
    omega
  rw [State.bankCut_of_busy h.busy, h.inj]
  refine ⟨?_, ?_, ?_, State.bit_injFlag _ _ (injStat_below hn) (show 5 + 1 ≤ 20 by decide) Nat.one_pos, ?_⟩
  · rw [← s.busy_bankClose hb]
    refine State.bit_eq_of_get ?_
    rw [State.get_injFlag_apart _ _ _ _ hbelow (show 5 + 1 ≤ 20 by decide) fun h => absurd h hne,
      State.get_set_disj _ (F.INJ_BSTAT.CUTCAUSE b) (F.INJ_BSTAT.BUSY b) rfl (show 8 + 2 ≤ 20 by decide)
        (.inr (show 0 + 1 ≤ 8 by decide)), State.get_setRefused]
  · rw [State.get_injFlag_apart _ _ _ _ hbelow (show 5 + 1 ≤ 20 by decide) fun h => absurd h hne,
      State.get_set_self _ _ (show 8 + 2 ≤ 20 by decide)]
    rfl
  · rw [← h.flag]
    refine State.bit_eq_of_get ?_
    rw [State.get_injFlag_apart _ _ _ _ (injStat_below hn) (show 5 + 1 ≤ 20 by decide) fun _ => .inr (show code + 1 ≤ 5 by omega),
      State.get_set_addr _ (F.INJ_BSTAT.CUTCAUSE b) _ hne.symm, State.get_setRefused,
      (WindowKept.bankClose s hb).stat n _ hn rfl (Nat.zero_le _) (show code + 1 ≤ 7 by omega),
      State.get_set_addr _ (F.INJ_BSTAT.DRAIN b) _ hne.symm, State.get_set_addr _ (F.INJ_BSTAT.BUSY b) _ hne.symm]
  · rw [State.pulses_injFlag, State.set_por, State.por_setRefused, State.por_bankClose]
    exact h.reported

/-! ### The diagnosis of the load (R188, R191) -/

theorem WindowKept.loadFlag (h : WindowKept 13 20 b s₀ s) {code : Nat} (hc : code < 4) : WindowKept 13 20 b s₀ (s.loadFlag b code) := by
  rw [State.loadFlag_eq s b hc]
  exact (h.mark.set (f := ⟨R.INJ_STAT (s.condInj b), code, 1⟩) (show code + 1 ≤ 20 by omega)
    (.inl ⟨.inl (show code + 1 ≤ 13 by omega), by simp only [R.INJ_STAT]; omega⟩)).raise.report

/-- A fault that is flagged in an open window is a load fault of its injector. -/
theorem LoadFault.of_loadFlag (hbusy : s.bit (F.INJ_BSTAT.BUSY b) = true) (hb : b < 4) {code : Nat} (hc : code < 4) :
    LoadFault b (s.condInj b) code (s.loadFlag b code) := by
  have hk := (WindowKept.refl (b := b) s).loadFlag hc
  refine ⟨(hk.busy hb).trans hbusy, hk.condInj hb, ?_, ?_⟩
  · rw [State.loadFlag_eq s b hc, State.bit_eq_of_get (State.get_report _ _ _ _)]
    exact State.bit_injFlag _ _ (injStat_below (s.condInj_lt hb)) (show code + 1 ≤ 20 by omega) Nat.one_pos
  · rw [State.loadFlag_eq s b hc]
    exact State.report_pulse _ _ _

theorem WindowKept.bankOnTime (h : WindowKept 13 20 b s₀ s) (hb : b < 4) {t on : Nat} : WindowKept 13 20 b s₀ (s.bankOnTime b t on) := by
  unfold State.bankOnTime
  exact (h.updBank hb).when (·.setAt.setAt.raiseIf)

theorem WindowKept.batEval (h : WindowKept 13 20 b s₀ s) (hb : b < 4) : WindowKept 13 20 b s₀ (s.batEval b) :=
  .ite h ((h.updBank hb).when (·.bankOnTime hb))

/-- What an open window’s comparators are measured for before a short is looked at: the time of I_PK with LOWR, I_H2, and the on-time that
I_H1 ends. -/
def State.bankMeasure (s : State) (b : Nat) : State :=
  let k := s.getBank b
  let cnt := s.fclk - k.openT
  let first := k.pk && k.rise.isNone
  let s := if first then s.updBank b fun k => { k with rise := some cnt } else s
  let s := if first && !k.ndlOff && decide (cnt < 200 * s.get (F.INJ_BDIAG.TPKMIN b)) then s.loadFlag b 2 else s
  let s := if k.h2 then s.updBank b fun k => { k with h2seen := true } else s
  match k.batOn with
  | some on => if k.h1 then s.bankOnTime b (s.fclk - on) on else s
  | none => s

/-- A SHORT is flagged, may disable the injector, and cuts the window. -/
def State.shortCut (s : State) (b : Nat) : State :=
  let n := s.condInj b
  let s := s.loadFlag b 1
  let s := if s.bit (F.INJ_BCFG.AUTODIS b) then s.set (F.INJ_STAT.DIS n) 1 else s
  s.bankCut b 3

theorem State.bankSees_eq (s : State) (b : Nat) :
    s.bankSees b = if !s.bit (F.INJ_BSTAT.BUSY b) then s
      else if (s.getBank b).oc && !(s.getBank b).ndlOff then (s.bankMeasure b).shortCut b else s.bankMeasure b := by
  rfl

theorem WindowKept.bankMeasure (s : State) (hb : b < 4) : WindowKept 13 20 b s (s.bankMeasure b) := by
  have h : WindowKept 13 20 b s s := .refl s
  unfold State.bankMeasure
  dsimp only
  split
  · exact (((h.when (·.updBank hb)).when (·.loadFlag (by decide))).when (·.updBank hb)).when (·.bankOnTime hb)
  · exact ((h.when (·.updBank hb)).when (·.loadFlag (by decide))).when (·.updBank hb)

theorem WindowKept.bankSees (hb : b < 4) (hoc : (s.getBank b).oc = false) : WindowKept 13 20 b s (s.bankSees b) := by
  rw [State.bankSees_eq, hoc, Bool.false_and, if_neg Bool.false_ne_true]
  exact .ite (.refl s) (.bankMeasure s hb)

theorem faultCut_shortCut (hb : b < 4) (hbusy : s.bit (F.INJ_BSTAT.BUSY b) = true) : FaultCut b (s.condInj b) 1 (s.shortCut b) := by
  have h : LoadFault b (s.condInj b) 1 (s.loadFlag b 1) := .of_loadFlag hbusy hb (by decide)
  unfold State.shortCut
  dsimp only
  split
  · exact (h.kept hb (by decide) (WindowKept.refl _).setAt).bankCut hb (by decide)
  · exact h.bankCut hb (by decide)

/-- I_OC in an open window whose needle runs. -/
theorem faultCut_bankSees (hb : b < 4) (hbusy : s.bit (F.INJ_BSTAT.BUSY b) = true) (hoc : (s.getBank b).oc = true)
    (hndl : (s.getBank b).ndlOff = false) : FaultCut b (s.condInj b) 1 (s.bankSees b) := by
  have hk : WindowKept 13 20 b s (s.bankMeasure b) := .bankMeasure s hb
  rw [State.bankSees_eq, hbusy, hoc, hndl, ← hk.condInj hb]
  exact faultCut_shortCut hb ((hk.busy hb).trans hbusy)

theorem faultCut_overcurrent (hb : b < 4) (hbusy : s.bit (F.INJ_BSTAT.BUSY b) = true) (hndl : (s.getBank b).ndlOff = false) :
    FaultCut b (s.condInj b) 1 ((s.updBank b fun k => { k with oc := true }).bankSees b) := by
  rw [← s.condInj_updBank b fun k => { k with oc := true }]
  apply faultCut_bankSees hb
  · rw [State.bit_updBank, hbusy]
  · rw [s.getBank_updBank hb]
  · rw [s.getBank_updBank hb, hndl]

theorem faultCut_noPeak {code : Nat} (hb : b < 4) (hc : code < 4) (hbusy : s.bit (F.INJ_BSTAT.BUSY b) = true) :
    FaultCut b (s.condInj b) code (((s.updBank b fun k => { k with limitDone := true }).loadFlag b code).bankCut b 3) := by
  rw [← s.condInj_updBank b fun k => { k with limitDone := true }]
  exact (LoadFault.of_loadFlag (by rw [State.bit_updBank, hbusy]) hb hc).bankCut hb hc

/-! ### A window opens (R181 to R183) -/

/-- The window of injector `n` is open for slot `sl` since FCLK `f`, the slot has seen its line rise, PULSES is `p`, and I_OC is low. -/
structure WindowShown (n sl f p : Nat) (s : State) : Prop where
  busy : s.get (F.INJ_BSTAT.BUSY (n / 4)) = 1
  inj : s.get (F.INJ_BSTAT.CONDINJ (n / 4)) = n % 4
  slot : s.get (F.INJ_BSTAT.CONDSLOT (n / 4)) = sl
  seen : s.slotSeen (8 * n + sl) = true
  openT : (s.getBank (n / 4)).openT = f
  oc : (s.getBank (n / 4)).oc = false
  pulses : s.get (F.INJ_STAT.PULSES n) = p

section

variable {sl f p : Nat}

/-- INJ_BSTAT and PULSES are set, and the bank’s record starts anew. -/
theorem windowShown_begun (s : State) (hn : n < 16) (hsl : sl < 8) (hs : s.slotSeen (8 * n + sl) = true)
    (hoc : (s.getBank (n / 4)).oc = false) {g : Bank → Bank} (hf : ∀ k, (g k).openT = f := by exact fun _ => rfl)
    (hc : ∀ k, (g k).oc = k.oc := by exact fun _ => rfl) :
    WindowShown n sl f ((s.get (F.INJ_STAT.PULSES n) + 1) % 2 ^ 7)
      (((((s.set (F.INJ_BSTAT.BUSY (n / 4)) 1).set (F.INJ_BSTAT.CONDINJ (n / 4)) (n % 4)).set (F.INJ_BSTAT.CONDSLOT (n / 4)) sl).incW
        (F.INJ_STAT.PULSES n)).updBank (n / 4) g) := by
  have hb : n / 4 < 4 := by omega
  constructor
  all_goals
    simp [State.incW, State.get_set_apart, State.get_set_self, State.getBank_updBank, F.INJ_BSTAT.BUSY, F.INJ_BSTAT.CONDINJ,
      F.INJ_BSTAT.CONDSLOT, F.INJ_STAT.PULSES, Nat.mod_eq_of_lt hsl, hb, hs, hf, hc, hoc]

theorem WindowShown.kept (h : WindowShown n sl f p s) (hn : n < 16) (hk : WindowKept 13 20 (n / 4) s t) : WindowShown n sl f p t := by
  have hlow := injBstat_lt_stat (show n / 4 < 4 by omega)
  exact ⟨(hk.get hlow).trans h.busy, (hk.get hlow).trans h.inj, (hk.get hlow).trans h.slot, (State.slotSeen_of_seen hk.seen _).trans h.seen,
    hk.openT.trans h.openT, hk.oc.trans h.oc, (hk.stat n (F.INJ_STAT.PULSES n) hn rfl (Nat.le_refl 13) (Nat.le_refl 20)).trans h.pulses⟩

/-- The needle does not run at the opening (R190). -/
theorem WindowShown.needleOff (h : WindowShown n sl f p s) {k d : Nat} :
    WindowShown n sl f p ((s.evt (F.INJ_BSTAT.NDLOFF (n / 4))).report k d) := by
  have hget {g : Fld} (hg : g.lo + g.len ≤ 7 ∨ 7 + 1 ≤ g.lo) : ((s.evt (F.INJ_BSTAT.NDLOFF (n / 4))).report k d).get g = s.get g := by
    rw [State.get_report, State.get_evt_apart _ _ _ (show 7 + 1 ≤ 20 by decide) fun _ => hg.symm]
  have hinj : ((s.evt (F.INJ_BSTAT.NDLOFF (n / 4))).report k d).inj = s.inj := by simp
  exact ⟨(hget (.inl (show 0 + 1 ≤ 7 by decide))).trans h.busy, (hget (.inl (show 1 + 2 ≤ 7 by decide))).trans h.inj,
    (hget (.inl (show 3 + 3 ≤ 7 by decide))).trans h.slot, (State.slotSeen_of_seen (congrArg Inj.seen hinj) _).trans h.seen,
    (congrArg Bank.openT (State.getBank_of_inj hinj _)).trans h.openT, (congrArg Bank.oc (State.getBank_of_inj hinj _)).trans h.oc,
    (hget (.inr (show 7 + 1 ≤ 13 by decide))).trans h.pulses⟩

/-- The EOI comparator takes the input of the injector (R192). -/
theorem WindowShown.select (h : WindowShown n sl f p s) (hn : n < 16) {i v : Nat} : WindowShown n sl f p (s.set (F.CMP_CFG.SEL i) v) :=
  h.kept hn ((WindowKept.refl s).set (show 12 + 5 ≤ 20 by decide) (.inr (by simp only [R.INJ_STAT, F.CMP_CFG.SEL, R.CMP_CFG]; omega)))

theorem WindowShown.ite {c : Prop} {_ : Decidable c} (hs : WindowShown n sl f p s) (ht : WindowShown n sl f p t) :
    WindowShown n sl f p (if c then s else t) := by
  split
  · exact hs
  · exact ht

theorem WindowShown.when {c : Prop} {_ : Decidable c} (h : WindowShown n sl f p s)
    (hf : WindowShown n sl f p s → WindowShown n sl f p t) : WindowShown n sl f p (if c then t else s) :=
  .ite (hf h) h

theorem WindowShown.looked (h : WindowShown n sl f p s) (hn : n < 16) :
    WindowShown n sl f p ((s.bankSees (n / 4)).batEval (n / 4)) := by
  have hb : n / 4 < 4 := by omega
  exact h.kept hn ((WindowKept.bankSees hb h.oc).batEval hb)

theorem windowShown_bankOpen (s : State) (hn : n < 16) (hsl : sl < 8) (hs : s.slotSeen (8 * n + sl) = true)
    (hoc : (s.getBank (n / 4)).oc = false) :
    WindowShown n sl s.fclk ((s.get (F.INJ_STAT.PULSES n) + 1) % 2 ^ 7) (s.bankOpen n sl) := by
  unfold State.bankOpen
  exact (((windowShown_begun s hn hsl hs hoc).when (·.needleOff)).when (·.select hn)).looked hn

end

/-! ### Refusals (R183) -/

/-- What a refusal shows: the slot stays refused, INJ_CONF names it, and CONF of the injector is set. -/
def State.refusalShown (s : State) (n sl reason : Nat) : State :=
  let s := s.setRefused (8 * n + sl) true
  let s := (((s.set F.INJ_CONF.INJ n).set F.INJ_CONF.SLOT sl).set F.INJ_CONF.REASON reason).evtInc F.INJ_CONF.COUNT
  s.injFlag n (F.INJ_STAT.CONF n)

/-- BANKCONF is left for the next FCLK; nothing else follows. -/
theorem State.refuse_keeps (s : State) (n sl reason : Nat) :
    (s.refuse n sl reason).regs = (s.refusalShown n sl reason).regs
      ∧ (s.refuse n sl reason).inj.refused = (s.refusalShown n sl reason).inj.refused
      ∧ (s.refuse n sl reason).inj.bank = (s.refusalShown n sl reason).inj.bank := by
  unfold State.refuse
  dsimp only
  split
  · exact ⟨rfl, rfl, rfl⟩
  · exact ⟨rfl, rfl, rfl⟩

/-- The slot `sl` of injector `n` has been refused for `reason`. -/
structure RefusalShown (n sl reason : Nat) (s₀ s : State) : Prop where
  refused : s.slotRefused (8 * n + sl) = true
  inj : s.get F.INJ_CONF.INJ = n
  slot : s.get F.INJ_CONF.SLOT = sl
  conf : s.bit (F.INJ_STAT.CONF n) = true
  reason : s.get F.INJ_CONF.REASON = reason
  bank : s.inj.bank = s₀.inj.bank

theorem refusalShown_refuse (s : State) {sl reason : Nat} (hn : n < 16) (hsl : sl < 8) (hr : reason < 8) :
    RefusalShown n sl reason s (s.refuse n sl reason) := by
  obtain ⟨hregs, href, hbank⟩ := s.refuse_keeps n sl reason
  have hget (f : Fld) (hf : f.addr = R.INJ_CONF) (h10 : f.lo + f.len ≤ 10) : (s.refuse n sl reason).get f
      = ((((s.setRefused (8 * n + sl) true).set F.INJ_CONF.INJ n).set F.INJ_CONF.SLOT sl).set F.INJ_CONF.REASON reason).get f := by
    have hne : R.INJ_CONF ≠ R.INJ_STAT n := by
      simp only [R.INJ_CONF, R.INJ_STAT]
      omega
    rw [State.get_of_regs hregs, State.refusalShown, State.get_injFlag_apart _ _ _ _ (hf ▸ by decide) (show 4 + 1 ≤ 20 by decide)
      fun h => absurd (hf ▸ h) hne, State.get_evtInc_apart _ _ _ (by decide) fun _ => .inr h10]
  refine ⟨?_, ?_, ?_, ?_, ?_, ?_⟩
  · rw [State.slotRefused, href, State.refusalShown, State.inj_injFlag, State.evtInc_inj, State.set_inj, State.set_inj, State.set_inj]
    exact s.slotRefused_setRefused _ true
  · rw [hget _ rfl (by decide)]
    simp [State.get_set_apart, State.get_set_self, F.INJ_CONF.INJ, F.INJ_CONF.SLOT, F.INJ_CONF.REASON, Nat.mod_eq_of_lt hn]
  · rw [hget _ rfl (by decide)]
    simp [State.get_set_apart, State.get_set_self, F.INJ_CONF.SLOT, F.INJ_CONF.REASON, Nat.mod_eq_of_lt hsl]
  · rw [State.bit_eq_of_get (State.get_of_regs hregs _)]
    exact State.bit_injFlag _ _ (injStat_below hn) (show 4 + 1 ≤ 20 by decide) Nat.one_pos
  · rw [hget _ rfl (by decide), State.get_set_self _ _ (by decide)]
    exact Nat.mod_eq_of_lt hr
  · rw [hbank, State.refusalShown, State.inj_injFlag, State.evtInc_inj, State.set_inj, State.set_inj, State.set_inj]
    rfl

/-! ### The first crossing of an end of injection (R192) -/

/-- The first fall of the EOI comparator gives its time to INJ_EOIF and INJ_EOIL, and is counted. -/
def State.firstCrossing (s : State) (b n t0 : Nat) : State :=
  let c := min (s.fclk - t0) 0xFFFFE
  let s := (((s.updBank b fun k => { k with eoiLvl := false }).set (F.INJ_EOIF n) c).set (F.INJ_EOIL n) c).inc (F.INJ_STAT.EOIN n)
  s.setB (F.INJ_STAT.EOIOK n) (3 ≤ s.get (F.INJ_STAT.EOIN n))

theorem State.firstCrossing_shows (s : State) (hb : b < 4) (n t0 : Nat) :
    (s.firstCrossing b n t0).get (F.INJ_EOIF n) = min (s.fclk - t0) 0xFFFFE
      ∧ (s.firstCrossing b n t0).get (F.INJ_EOIL n) = min (s.fclk - t0) 0xFFFFE
      ∧ ((s.firstCrossing b n t0).getBank b).eoiLvl = false
      ∧ (s.firstCrossing b n t0).get (F.INJ_STAT.EOIN n) = satAdd (s.get (F.INJ_STAT.EOIN n)) 1 (2 ^ (F.INJ_STAT.EOIN n).len - 1) := by
  have hlt : min (s.fclk - t0) 0xFFFFE % 2 ^ 20 = min (s.fclk - t0) 0xFFFFE := Nat.mod_eq_of_lt (by omega)
  have hFS : R.INJ_EOIF n ≠ R.INJ_STAT n := by simp only [R.INJ_EOIF, R.INJ_STAT]; omega
  have hLS : R.INJ_EOIL n ≠ R.INJ_STAT n := by simp only [R.INJ_EOIL, R.INJ_STAT]; omega
  have hFL : R.INJ_EOIF n ≠ R.INJ_EOIL n := by simp only [R.INJ_EOIF, R.INJ_EOIL]; omega
  unfold State.firstCrossing
  dsimp only [State.setB, State.inc]
  refine ⟨?_, ?_, ?_, ?_⟩
  · rw [State.get_set_addr _ _ _ hFS, State.get_set_addr _ _ _ hFS, State.get_set_addr _ _ _ hFL,
      State.get_set_self _ _ (show 0 + 20 ≤ 20 by decide)]
    exact hlt
  · rw [State.get_set_addr _ _ _ hLS, State.get_set_addr _ _ _ hLS, State.get_set_self _ _ (show 0 + 20 ≤ 20 by decide)]
    exact hlt
  · rw [State.getBank_set, State.getBank_set, State.getBank_set, State.getBank_set, s.getBank_updBank hb]
  · rw [State.get_set_disj _ (F.INJ_STAT.EOIOK n) (F.INJ_STAT.EOIN n) rfl (show 8 + 1 ≤ 20 by decide)
      (.inl (show 8 + 1 ≤ 9 by decide)), State.get_set_satAdd _ _ _ (show 9 + 4 ≤ 20 by decide), State.get_set_addr _ _ _ hLS.symm,
      State.get_set_addr _ _ _ hFS.symm, State.get_updBank]

/-! ### The commands -/

theorem filter_range_eq_singleton {p : Nat → Bool} {k n : Nat} (hk : k < n) (hp : ∀ j, p j = decide (j = k)) :
    (List.range n).filter p = [k] := by
  rw [funext hp, List.filter_eq, List.count_eq_one_of_mem List.nodup_range (List.mem_range.2 hk)]
  rfl

/-- A rise of one slot is its request. -/
theorem exec_slotLineRise_one {k : Fin 128} (hu : s.angleOk 5 = true) (hl : s.slotLine k = true) (hs : s.slotSeen k = false) :
    exec (.slotLineRise [k]) s
      = .next (s.request k (!s.bit (F.INJ_BSTAT.BUSY (k / 32)) && !s.bit (F.INJ_BSTAT.DRAIN (k / 32)))) := by
  have hone : ((List.range 128).filter fun j => [k].any (fun x => x.val = j) && s.slotLine j && !s.slotSeen j) = [k.val] := by
    refine filter_range_eq_singleton k.isLt fun j => ?_
    by_cases hj : j = k.val
    · simp [hj, hl, hs]
    · simp [hj, Ne.symm hj]
  change execSlotLineRise [k] s = _
  rw [execSlotLineRise, if_pos hu, hone]
  rfl

theorem div_eight_div_four (k : Nat) : k / 8 / 4 = k / 32 := Nat.div_div_eq_div_mul k 8 4

theorem slot_of_injector (k : Fin 128) : 8 * (k.val / 8) + k % 8 = k := Nat.div_add_mod k.val 8

section

variable {k : Fin 128}

theorem exec_slotLineRise_free (hu : s.angleOk 5 = true) (hl : s.slotLine k = true) (hs : s.slotSeen k = false)
    (hok : s.requestOk (k / 8) = true) (hbusy : s.bit (F.INJ_BSTAT.BUSY (k / 32)) = false)
    (hdrain : s.bit (F.INJ_BSTAT.DRAIN (k / 32)) = false) :
    exec (.slotLineRise [k]) s = .next ((s.setSeen k true).bankOpen (k / 8) (k % 8)) := by
  rw [exec_slotLineRise_one hu hl hs, hbusy, hdrain]
  simp [State.request, hok, hbusy, hdrain, div_eight_div_four]

theorem exec_slotLineRise_busy (hu : s.angleOk 5 = true) (hl : s.slotLine k = true) (hs : s.slotSeen k = false)
    (hok : s.requestOk (k / 8) = true) (hbusy : s.bit (F.INJ_BSTAT.BUSY (k / 32)) = true) :
    exec (.slotLineRise [k]) s
      = .next ((s.setSeen k true).refuse (k / 8) (k % 8) (if s.condInj (k / 32) = k / 8 then 2 else 1)) := by
  rw [exec_slotLineRise_one hu hl hs, hbusy]
  simp [State.request, hok, hbusy, div_eight_div_four]

theorem exec_slotLineRise_lost (hu : s.angleOk 5 = true) (hl : s.slotLine k = true) (hs : s.slotSeen k = false)
    (hok : s.requestOk (k / 8) = false) :
    exec (.slotLineRise [k]) s = .next (((s.setSeen k true).setRefused k true).evtInc (F.INJ_BSTAT.LOST (k / 32))) := by
  rw [exec_slotLineRise_one hu hl hs]
  simp [State.request, hok, div_eight_div_four]

/-- The fall of the slot that holds the window closes it. -/
theorem exec_slotLineFall_holding (hu : s.angleOk 5 = true) (hl : s.slotLine k = false) (hs : s.slotSeen k = true)
    (hr : s.slotRefused k = false) (hbusy : s.bit (F.INJ_BSTAT.BUSY (k / 32)) = true) (hinj : s.condInj (k / 32) = k / 8)
    (hslot : s.get (F.INJ_BSTAT.CONDSLOT (k / 32)) = k % 8) :
    exec (.slotLineFall k) s = .next (((s.setSeen k false).setRefused k false).bankClose (k / 32)) := by
  change execSlotLineFall k s = _
  simp [execSlotLineFall, hu, hl, hs, hr, hbusy, hinj, hslot, div_eight_div_four]

end

section

variable {b : Fin 4}

theorem exec_bankDrainEnd (hu : s.angleOk 5 = true) (hd : s.bit (F.INJ_BSTAT.DRAIN b) = true)
    (ht : (s.getBank b).offT + max 1 (40 * s.get (F.INJ_BCFG.BGAP b)) ≤ s.fclk) :
    exec (.bankDrainEnd b) s = .next (s.set (F.INJ_BSTAT.DRAIN b) 0) := by
  change execBankDrainEnd b s = _
  rw [execBankDrainEnd, hu, hd, decide_eq_true ht]
  rfl

theorem exec_h1doneRise (hu : s.angleOk 5 = true) (hbusy : s.bit (F.INJ_BSTAT.BUSY b) = true)
    (ht : (s.getBank b).openT + 100 * s.get (F.INJ_BTIM b) ≤ s.fclk) :
    exec (.h1doneRise b) s = .next (s.updBank b fun k => { k with h1done := true }) := by
  change execH1doneRise b s = _
  rw [execH1doneRise, hu, hbusy, decide_eq_true ht]
  rfl

/-- A high I_OC reaches the block. -/
theorem exec_injComparatorChange_oc (hu : s.angleOk 5 = true) (hen : s.bit (F.INJ_BCFG.EN b) = true)
    (hoc : bitOf (s.get (F.CMP_OUT 0)) (4 * b + 3) = true) :
    exec (.injComparatorChange (Fin.ofNat 16 (4 * b + 3))) s = .next ((s.updBank b fun k => { k with oc := true }).bankSees b) := by
  have hval : (Fin.ofNat 16 (4 * b + 3)).val = 4 * b + 3 := Nat.mod_eq_of_lt (by omega)
  have hdiv : (4 * b.val + 3) / 4 = b := by omega
  have hmod : (4 * b.val + 3) % 4 = 3 := by omega
  change execInjComparatorChange _ s = _
  simp only [execInjComparatorChange, hval, hdiv, hmod, hu, hen, hoc, Bool.and_self, if_true]

/-- No I_PK by TPKMAX: OPEN, or SLOW when I_H2 was seen, and a cut. -/
theorem exec_peakTimeLimit (hu : s.angleOk 5 = true) (hbusy : s.bit (F.INJ_BSTAT.BUSY b) = true) (hlim : (s.getBank b).limitDone = false)
    (hrise : (s.getBank b).rise = none) (hndl : (s.getBank b).ndlOff = false) (hpk : s.peakComes b = false)
    (ht : (s.getBank b).openT + 200 * s.get (F.INJ_BDIAG.TPKMAX b) ≤ s.fclk) :
    exec (.peakTimeLimit b) s = .next (((s.updBank b fun k => { k with limitDone := true }).loadFlag b
      (if (s.getBank b).h2seen then 3 else 0)).bankCut b 3) := by
  change execPeakTimeLimit b s = _
  simp [execPeakTimeLimit, hu, hbusy, hlim, hrise, hndl, hpk, ht]

/-- A fall of the EOI comparator within EOIWIN, the first that is seen. -/
theorem exec_eoiCrossing_first {t0 : Nat} (hu : s.angleOk 5 = true) (he : (s.getBank b).eoi = some (n, t0))
    (hl : (s.getBank b).eoiLvl = true) (hc : bitOf (s.get (F.CMP_OUT ((16 + 2 * b) / 20))) ((16 + 2 * b) % 20) = false)
    (ht : s.fclk ≤ t0 + 400 * s.get (F.INJ_BEOI b)) (hf : s.get (F.INJ_EOIF n) = 0xFFFFF) :
    exec (.eoiCrossing b) s = .next (s.firstCrossing b n t0) := by
  change execEoiCrossing b s = _
  simp [execEoiCrossing, State.firstCrossing, he, hl, hc, hu, ht, hf]

theorem exec_eoiObserveEnd {t0 : Nat} (hu : s.angleOk 5 = true) (he : (s.getBank b).eoi = some (n, t0))
    (ht : t0 + 400 * s.get (F.INJ_BEOI b) ≤ s.fclk) :
    exec (.eoiObserveEnd b) s = .next (s.updBank b fun k => { k with eoi := none }) := by
  change execEoiObserveEnd b s = _
  simp [execEoiObserveEnd, he, hu, ht]

end

theorem exec_injReenable {i : Fin 16} (hu : s.angleOk 5 = true) : exec (.injReenable i) s = .next (s.set (F.INJ_STAT.DIS i) 0) := by
  change execInjReenable i s = _
  rw [execInjReenable, if_pos hu]

/-- A bank without an open window conducts through no gate (R182). -/
theorem State.bankLive_of_free (h : s.bit (F.INJ_BSTAT.BUSY b) = false) : s.bankLive b = false := by
  simp [State.bankLive, h]

/-- Settles O15: an opening is what INJ_BSTAT and PULSES show whatever the comparators are, a close clears BUSY beside its measurements, and
each load fault is flagged and reported before the cut. -/
theorem injectorWindowsOpenAndClose : Obligations.InjectorWindowsOpenAndClose := by
  unfold Obligations.InjectorWindowsOpenAndClose
  refine ⟨fun s k hu hl hs hok hbusy hdrain hoc => ?_, fun s k hu hl hs hok hbusy => ?_, fun s k hu hl hs hok => ?_,
    fun s k hu hl hs hr hbusy hinj hslot => ?_, fun s b hu hd ht => ?_, fun s b hu hbusy ht => ?_,
    fun s b hu hen hbusy hndl hoc => ?_, fun s b hu hbusy hlim hrise hndl hpk ht => ?_, fun s b n t0 hu he hlv hc ht hf => ?_,
    fun s b n t0 hu he ht => ?_, fun s i hu => ?_⟩
  · have h := windowShown_bankOpen (s.setSeen k true) (n := k / 8) (sl := k % 8) (by omega) (by omega)
      (by rw [slot_of_injector, State.slotSeen_setSeen]) (by rw [State.getBank_setSeen, div_eight_div_four, hoc])
    obtain ⟨hB, hI, hS, hseen, hT, -, hP⟩ := h
    rw [div_eight_div_four] at hB hI hS hT
    rw [State.fclk_setSeen] at hT
    rw [State.get_setSeen] at hP
    rw [slot_of_injector] at hseen
    exact ⟨_, exec_slotLineRise_free hu hl hs hok hbusy hdrain, State.bit_of_get_one hB, hI, hS, hseen, hT, hP⟩
  · have h := refusalShown_refuse (s.setSeen k true) (n := k / 8) (sl := k % 8)
      (reason := if s.condInj (k / 32) = k / 8 then 2 else 1) (by omega) (by omega) (by split <;> decide)
    obtain ⟨hR, hI, hS, hC, hW, hB⟩ := h
    rw [slot_of_injector] at hR
    exact ⟨_, exec_slotLineRise_busy hu hl hs hok hbusy, hR, hI, hS, hC, hW, hB⟩
  · refine ⟨_, exec_slotLineRise_lost hu hl hs hok, ?_, ?_, ?_⟩
    · rw [State.slotRefused, State.evtInc_inj]
      exact State.slotRefused_setRefused _ _ true
    · rw [State.get_evtInc_apart _ _ _ (show 11 + 8 ≤ 20 by decide) fun _ => .inr (show 0 + 1 ≤ 11 by decide), State.get_setRefused,
        State.get_setSeen]
    · exact State.get_set_satAdd _ _ _ (show 11 + 8 ≤ 20 by decide) 1
  · have hb : k.val / 32 < 4 := by omega
    have hfree := State.busy_bankClose ((s.setSeen k false).setRefused k false) hb
    have hlive := State.bankLive_of_free hfree
    have hoff := State.offT_bankClose ((s.setSeen k false).setRefused k false) hb
    rw [State.fclk_setRefused, State.fclk_setSeen] at hoff
    refine ⟨_, exec_slotLineFall_holding hu hl hs hr hbusy hinj hslot, hfree, State.drain_bankClose _ hb, hoff, ?_, ?_⟩
    · rw [State.slotSeen_of_seen (WindowKept.bankClose _ hb).seen, State.slotSeen_set, State.slotSeen_set, State.slotSeen_setRefused,
        State.slotSeen_setSeen]
    · simp [State.gateINJ, State.gateBST, State.gateBAT, div_eight_div_four, hlive]
  · refine ⟨_, exec_bankDrainEnd hu hd ht, State.bit_of_get_zero ?_, fun a ha => s.reg_set _ _ a ha, rfl⟩
    exact s.get_set_self (F.INJ_BSTAT.DRAIN b) (show 6 + 1 ≤ 20 by decide) 0
  · exact ⟨_, exec_h1doneRise hu hbusy ht, by rw [s.getBank_updBank b.isLt], rfl⟩
  · obtain ⟨hB, hC, hF, hT, hR⟩ := faultCut_overcurrent b.isLt hbusy hndl
    exact ⟨_, exec_injComparatorChange_oc hu hen hoc, hB, hC, hF, hT, hR⟩
  · obtain ⟨hB, hC, hF, -, hR⟩ := faultCut_noPeak (code := if (s.getBank b).h2seen then 3 else 0) b.isLt (by split <;> decide) hbusy
    refine ⟨_, exec_peakTimeLimit hu hbusy hlim hrise hndl hpk ht, hB, hC, hR, ?_⟩
    split
    case isTrue h => rwa [if_pos h] at hF
    case isFalse h => rwa [if_neg h] at hF
  · exact ⟨_, exec_eoiCrossing_first hu he hlv hc ht hf, s.firstCrossing_shows b.isLt n t0⟩
  · exact ⟨_, exec_eoiObserveEnd hu he ht, by rw [s.getBank_updBank b.isLt], rfl⟩
  · exact ⟨_, exec_injReenable hu, State.bit_of_get_zero (s.get_set_self (F.INJ_STAT.DIS i) (show 6 + 1 ≤ 20 by decide) 0),
      fun a ha => s.reg_set _ _ a ha, rfl⟩

end Sys2Proof.Machine
end

section
/-! SUPPORT. What the commands of the variables, and the recipe steps that read no hall, leave alone: one lemma per operation (O43). -/

namespace Sys2Proof.Machine

/-- The registers of CHT and IRT (Table 1.4). -/
abbrev ChtReg (a : Nat) : Prop := (0x3400 ≤ a ∧ a < 0x3800) ∨ (0x6400 ≤ a ∧ a < 0x6800)

/-- A state with everything blanked that these commands may change. -/
def State.sansCht (s : State) : State :=
  { s with regs := [], cht := Cht.reset, suPath := [], por := Por.reset, marks := [] }

/-- What these commands leave as it was, from a state `s₀` to a later state `s`. -/
structure ChtKept (s₀ s : State) : Prop where
  sans : s.sansCht = s₀.sansCht
  reg : ∀ a, ¬ ChtReg a → s.reg a = s₀.reg a

variable {s₀ s t : State}

/-! ### The rules that every proof is made of -/

theorem ChtKept.refl (s : State) : ChtKept s s := ⟨rfl, fun _ _ => rfl⟩

theorem ChtKept.trans {s t u : State} (h : ChtKept s t) (h' : ChtKept t u) : ChtKept s u :=
  ⟨h'.sans.trans h.sans, fun a ha => (h'.reg a ha).trans (h.reg a ha)⟩

/-- An update of the parts behind the registers. -/
theorem ChtKept.frame (h : ChtKept s₀ s) (hs : t.sansCht = s.sansCht := by rfl) (hr : t.regs = s.regs := by rfl) : ChtKept s₀ t :=
  h.trans ⟨hs, fun a _ => congrArg (cellGet resetOf · a) hr⟩

theorem ChtKept.ite {c : Prop} {_ : Decidable c} (hs : ChtKept s₀ s) (ht : ChtKept s₀ t) : ChtKept s₀ (if c then s else t) := by
  split
  · exact hs
  · exact ht

/-- `if c then f s else s`, in a chain of updates. -/
theorem ChtKept.when {c : Prop} {_ : Decidable c} (h : ChtKept s₀ s) (hf : ChtKept s₀ s → ChtKept s₀ t) :
    ChtKept s₀ (if c then t else s) :=
  .ite (hf h) h

/-- `if c then f s else g s`, in a chain of updates. -/
theorem ChtKept.branch {c : Prop} {_ : Decidable c} {u : State} (h : ChtKept s₀ s) (hf : ChtKept s₀ s → ChtKept s₀ t)
    (hg : ChtKept s₀ s → ChtKept s₀ u) : ChtKept s₀ (if c then t else u) :=
  .ite (hf h) (hg h)

/-- The frame as a statement writes it. -/
theorem ChtKept.eq_update (h : ChtKept s t) :
    t = { s with regs := t.regs, cht := t.cht, suPath := t.suPath, por := t.por, marks := t.marks } :=
  congrArg (fun u : State => { u with regs := t.regs, cht := t.cht, suPath := t.suPath, por := t.por, marks := t.marks }) h.sans

theorem ChtKept.regsIn (h : ChtKept s t) : RegsIn [(0x3400, 0x3800), (0x6400, 0x6800)] s t :=
  fun a ha => h.reg a fun hc => ha (by simpa using hc)

/-! ### Registers, sources, findings -/

theorem ChtKept.set (h : ChtKept s₀ s) {f : Fld} {v : Nat} (hf : ChtReg f.addr := by decide) : ChtKept s₀ (s.set f v) :=
  h.trans ⟨rfl, fun _ ha => s.reg_set f v _ fun e => ha (e ▸ hf)⟩

theorem ChtKept.mark (h : ChtKept s₀ s) {a : Nat} {g : Word → Word} : ChtKept s₀ (s.mark a g) :=
  .ite h.frame h

theorem ChtKept.evt (h : ChtKept s₀ s) {f : Fld} (hf : ChtReg f.addr := by decide) : ChtKept s₀ (s.evt f) :=
  h.mark.set hf

theorem ChtKept.raise (h : ChtKept s₀ s) {k : Nat} (hk : ChtReg (R.IRT_SRC k) := by decide) : ChtKept s₀ (s.raise k) :=
  .ite h <| .ite h.frame <| .ite h.mark.set (h.set hk)

theorem ChtKept.report (h : ChtKept s₀ s) {src det : Nat} : ChtKept s₀ (s.report src det) :=
  .ite h <| .ite h.frame h.frame

theorem chtReg_qv (q : Fin 64) : ChtReg (R.CHT_QV q) := by
  simp only [R.CHT_QV]
  omega

theorem chtReg_qvs (q : Fin 64) : ChtReg (R.CHT_QVS q) := by
  simp only [R.CHT_QVS]
  omega

theorem chtReg_rcp (r : Nat) : ChtReg (R.CHT_RCP (r % 64)) := by
  simp only [R.CHT_RCP]
  omega

/-! ### The variable file, requests and runs -/

theorem ChtKept.updCht (h : ChtKept s₀ s) {f : Cht → Cht} : ChtKept s₀ (s.updCht f) :=
  h.frame

theorem ChtKept.setCtx (h : ChtKept s₀ s) {i : Nat} {c : Option Ctx} : ChtKept s₀ (s.setCtx i c) :=
  h.updCht

theorem ChtKept.sendItem (h : ChtKept s₀ s) {x : SuItem} : ChtKept s₀ (s.sendItem x) :=
  h.frame

theorem ChtKept.qvUpdate (h : ChtKept s₀ s) (q : Fin 64) {v : Int} : ChtKept s₀ (s.qvUpdate q v) :=
  ((h.set (chtReg_qv q)).set (chtReg_qvs q)).set (chtReg_qvs q)

theorem ChtKept.qvWrite (h : ChtKept s₀ s) (q : Fin 64) {src : Master} {v : Word} : ChtKept s₀ (s.qvWrite q src v) := by
  unfold State.qvWrite
  split
  · exact h.when (·.qvUpdate q)
  · exact h.when (·.qvUpdate q)
  · exact h.when (·.qvUpdate q)
  · exact h

theorem ChtKept.qvStale (h : ChtKept s₀ s) (q : Fin 64) : ChtKept s₀ (s.qvStale q) :=
  h.when fun h => ((h.set (chtReg_qv q)).set (chtReg_qvs q)).raise

theorem ChtKept.planTake (h : ChtKept s₀ s) {r : PlanReq} : ChtKept s₀ (s.planTake r) :=
  .ite h <| .ite h.updCht (h.evt.set (chtReg_rcp r.rcp)).raise

theorem ChtKept.runRecord (h : ChtKept s₀ s) {c : Ctx} {res : Nat} : ChtKept s₀ (s.runRecord c res) :=
  have hr := chtReg_rcp c.rcp
  (((h.set hr).set hr).set hr).branch (·.when (·.raise)) (·.set.set.set.set.evt.raise.when (·.report))

theorem ChtKept.runEnd (h : ChtKept s₀ s) {i res : Nat} : ChtKept s₀ (s.runEnd i res) := by
  unfold State.runEnd
  split
  · exact h
  · exact h.setCtx.runRecord

theorem ChtKept.stepTo (h : ChtKept s₀ s) {i : Nat} {c : Ctx} {cost : Nat} : ChtKept s₀ (s.stepTo i c cost) :=
  h.setCtx

theorem ChtKept.valueStep (h : ChtKept s₀ s) {i op cost : Nat} {f : Ctx → Nat → Int} : ChtKept s₀ (s.valueStep i op cost f) := by
  unfold State.valueStep
  split
  · exact h
  · exact h.stepTo

/-! ### The commands -/

theorem ChtKept.execHostQvWrite (h : ChtKept s₀ s) {q : Fin 64} {src : Master} {v : Word} :
    GoesTo (execHostQvWrite q src v s) (ChtKept s₀) :=
  ⟨_, rfl, h.when (·.qvWrite q)⟩

theorem ChtKept.execQvStale (h : ChtKept s₀ s) {q : Fin 64} : GoesTo (execQvStale q s) (ChtKept s₀) :=
  ⟨_, rfl, h.branch (·.qvStale q) (·.updCht)⟩

theorem ChtKept.execRecipeRequestArrive (h : ChtKept s₀ s) : GoesTo (execRecipeRequestArrive s) (ChtKept s₀) := by
  refine ⟨_, rfl, .ite ?_ h⟩
  split
  · exact h
  · exact h.updCht.planTake

theorem ChtKept.execRecipeStart (h : ChtKept s₀ s) : GoesTo (execRecipeStart s) (ChtKept s₀) := by
  refine ⟨_, rfl, .ite ?_ h⟩
  split
  · exact h.updCht.setCtx
  · exact h

theorem ChtKept.execRecipeEndStep (h : ChtKept s₀ s) {i : Fin 4} : GoesTo (execRecipeEndStep i s) (ChtKept s₀) := by
  refine ⟨_, rfl, ?_⟩
  split
  · exact h
  · exact h.runEnd

theorem ChtKept.execRecipeRunTimeout (h : ChtKept s₀ s) {i : Fin 4} : GoesTo (execRecipeRunTimeout i s) (ChtKept s₀) := by
  refine ⟨_, rfl, ?_⟩
  split
  · exact h
  · exact h.when (·.runEnd)

theorem ChtKept.execRecipeWrqv (h : ChtKept s₀ s) {i : Fin 4} : GoesTo (execRecipeWrqv i s) (ChtKept s₀) := by
  refine ⟨_, rfl, ?_⟩
  split
  · exact h
  case h_2 w _ _ => exact (h.when (·.qvUpdate ⟨stImm w % 64, Nat.mod_lt _ (by decide)⟩)).stepTo

theorem ChtKept.execRecipeWrstitch (h : ChtKept s₀ s) {i : Fin 4} : GoesTo (execRecipeWrstitch i s) (ChtKept s₀) := by
  refine ⟨_, rfl, ?_⟩
  split
  · exact h
  · exact h.sendItem.stepTo

theorem ChtKept.execRecipeCommit (h : ChtKept s₀ s) {i : Fin 4} : GoesTo (execRecipeCommit i s) (ChtKept s₀) := by
  refine ⟨_, rfl, ?_⟩
  split
  · exact h
  · exact h.sendItem.stepTo

/-- A command of the family goes on, and leaves the rest as it was. -/
theorem ChtKept.exec (h : ChtKept s₀ s) {c : Instr} (hc : chartCommand c = true) : GoesTo (exec c s) (ChtKept s₀) := by
  unfold chartCommand at hc
  split at hc
  · exact h.execHostQvWrite
  · exact h.execRecipeRequestArrive
  · exact h.execRecipeStart
  · exact h.execRecipeEndStep
  · exact ⟨_, rfl, h.valueStep⟩
  · exact ⟨_, rfl, h.valueStep⟩
  · exact ⟨_, rfl, h.valueStep⟩
  · exact ⟨_, rfl, h.valueStep⟩
  · exact ⟨_, rfl, h.valueStep⟩
  · exact h.execRecipeWrqv
  · exact h.execRecipeWrstitch
  · exact h.execRecipeCommit
  · exact h.execRecipeRunTimeout
  · exact h.execQvStale
  · cases hc

/-- Settles O43: every operation that these commands are made of reaches CHT and IRT, the chart engine, the path to the stitch unit,
findings and the events of the clock at most. -/
theorem chartCommandsKeepTheRest : Obligations.ChartCommandsKeepTheRest := by
  unfold Obligations.ChartCommandsKeepTheRest
  intro c s hc
  obtain ⟨t, ht, hk⟩ := (ChtKept.refl s).exec hc
  exact ⟨t, ht, hk.eq_update, hk.regsIn⟩

end Sys2Proof.Machine
end

section
/-! SUPPORT. Recipe steps: the values of the variable file, the run that takes a step, and a LOOKUP that the unit serves at once (O18). -/

namespace Sys2Proof.Machine

variable {s : State} {i : Fin 4} {c : Ctx} {w : Nat} {r : Recipe}

/-! ### Values of 20 bits -/

theorem sat20_mem (x : Int) : -524288 ≤ sat20 x ∧ sat20 x ≤ 524287 := by
  unfold sat20 clampI
  omega

theorem sat20_of_mem {x : Int} (hlo : -524288 ≤ x) (hhi : x ≤ 524287) : sat20 x = x := by
  unfold sat20 clampI
  omega

theorem sgn_mem (n : Nat) : -524288 ≤ sgn 20 n ∧ sgn 20 n ≤ 524287 := by
  unfold sgn
  dsimp only
  omega

theorem toW_mod (x : Int) : toW 20 x % 2 ^ 20 = toW 20 x := by
  unfold toW
  omega

theorem sgn_toW {x : Int} (hlo : -524288 ≤ x) (hhi : x ≤ 524287) : sgn 20 (toW 20 x) = x := by
  unfold sgn toW
  dsimp only
  omega

theorem toW_sgn (n : Nat) : toW 20 (sgn 20 n) = n % 2 ^ 20 := by
  unfold sgn toW
  dsimp only
  omega

/-! ### The variable file (R199, R202) -/

theorem qv_ne_qvs (q : Nat) : R.CHT_QV q ≠ R.CHT_QVS q := by
  simp only [R.CHT_QV, R.CHT_QVS]
  omega

theorem State.get_qvUpdate_qv (s : State) (q : Nat) (v : Int) : (s.qvUpdate q v).get (F.CHT_QV q) = toW 20 (sat20 v) := by
  rw [State.qvUpdate, State.get_set_addr _ _ _ (qv_ne_qvs q), State.get_set_addr _ _ _ (qv_ne_qvs q),
    State.get_set_self _ (F.CHT_QV q) (Nat.le_refl 20)]
  exact toW_mod _

theorem State.get_qvUpdate_stale (s : State) (q : Nat) (v : Int) : (s.qvUpdate q v).get (F.CHT_QVS.STALE q) = 0 := by
  rw [State.qvUpdate, State.get_set_disj _ (F.CHT_QVS.AGECNT q) (F.CHT_QVS.STALE q) rfl (show 5 + 8 ≤ 20 by decide)
    (.inr (show 4 + 1 ≤ 5 by decide)), State.get_set_self _ _ (show 4 + 1 ≤ 20 by decide)]
  rfl

theorem State.qv_qvUpdate (s : State) (q : Nat) (v : Int) : (s.qvUpdate q v).qv q = sat20 v := by
  obtain ⟨hlo, hhi⟩ := sat20_mem v
  rw [State.qv, State.get_qvUpdate_qv, sgn_toW hlo hhi]

/-! ### Runs (R212, R213) -/

theorem State.ctx_setCtx (s : State) (i : Fin 4) (c : Option Ctx) : (s.setCtx i c).ctx i = c :=
  vget_vupd_self s.cht.ctx i.isLt _ none

@[simp] theorem State.ctx_stepTo (s : State) (i : Fin 4) (c : Ctx) (cost : Nat) :
    (s.stepTo i c cost).ctx i = some { c with step := c.step + 1, beg := c.beg + 4 * cost } :=
  s.ctx_setCtx i _

@[simp] theorem State.regs_stepTo (s : State) (i : Nat) (c : Ctx) (cost : Nat) : (s.stepTo i c cost).regs = s.regs := (rfl)

@[simp] theorem State.suPath_stepTo (s : State) (i : Nat) (c : Ctx) (cost : Nat) : (s.stepTo i c cost).suPath = s.suPath := (rfl)

@[simp] theorem State.unitT_setCtx (s : State) (i : Nat) (c : Option Ctx) : (s.setCtx i c).cht.unitT = s.cht.unitT := (rfl)

theorem State.atStep_eq_some {i op cost : Nat} :
    s.atStep i op cost = some (c, w, r) ↔ s.ctx i = some c ∧ s.recipe c.rcp = some r ∧ r.steps[c.step]? = some w ∧ s.chtUp = true
      ∧ stOp w = op ∧ c.beg + 4 * cost ≤ 3 * s.fclk ∧ c.beg + 4 * cost ≤ s.runLimit c := by
  unfold State.atStep
  constructor
  · intro h
    split at h
    case h_1 => cases h
    case h_2 hc =>
      split at h
      case h_1 => cases h
      case h_2 hr =>
        split at h
        case h_1 => cases h
        case h_2 hw =>
          split at h
          case isFalse => cases h
          case isTrue hok =>
            cases h
            simp only [Bool.and_eq_true, decide_eq_true_eq] at hok
            obtain ⟨⟨⟨hup, hop⟩, ht⟩, hl⟩ := hok
            exact ⟨hc, hr, hw, hup, hop, ht, hl⟩
  · rintro ⟨hc, hr, hw, hup, hop, ht, hl⟩
    simp [hc, hr, hw, hup, hop, ht, hl]

/-- A step that makes a working value puts it into the destination and goes on to the next step. -/
theorem State.valueStep_takes {op cost : Nat} (f : Ctx → Nat → Int) (h : s.atStep i op cost = some (c, w, r)) :
    (s.valueStep i op cost f).ctx i = some { c with v := c.v.set (stDst w) (f c w), step := c.step + 1, beg := c.beg + 4 * cost }
      ∧ (s.valueStep i op cost f).regs = s.regs ∧ (s.valueStep i op cost f).suPath = s.suPath := by
  rw [State.valueStep, h]
  exact ⟨s.ctx_stepTo i _ cost, rfl, rfl⟩

/-- The state after a WRQV to a RECIPE entry. -/
theorem exec_recipeWrqv (h : s.atStep i 7 2 = some (c, w, r)) (hk : (s.qent (stImm w % 64)).kind = 8) :
    exec (.recipeWrqv i) s = .next ((s.qvUpdate (stImm w % 64) (c.val (stA w))).stepTo i c 2) := by
  change execRecipeWrqv i s = _
  simp only [execRecipeWrqv, h, hk, if_true]

theorem exec_recipeWrstitch (h : s.atStep i 8 2 = some (c, w, r)) :
    exec (.recipeWrstitch i) s
      = .next ((s.sendItem (.write (stStitch w c.cyl r.stride) (stImm w / 256 % 8) (toW 20 (c.val (stA w))))).stepTo i c 2) := by
  change execRecipeWrstitch i s = _
  simp only [execRecipeWrstitch, h]

theorem exec_recipeCommit (h : s.atStep i 9 2 = some (c, w, r)) :
    exec (.recipeCommit i) s = .next ((s.sendItem (.commit (stStitch w c.cyl r.stride))).stepTo i c 2) := by
  change execRecipeCommit i s = _
  simp only [execRecipeCommit, h]

/-! ### A chart is read in the halls whatever the chart engine holds (R204, R305) -/

section

variable (s) (g : Cht → Cht)

theorem State.mark_updCht (a : Nat) (f : Word → Word) : (s.updCht g).mark a f = (s.mark a f).updCht g :=
  (apply_ite (State.updCht · g) (s.islandUp .angle = true) { s with marks := _ } s).symm

theorem State.evt_updCht (f : Fld) : (s.updCht g).evt f = (s.evt f).updCht g := by
  rw [State.evt, State.mark_updCht]
  rfl

theorem State.evtInc_updCht (f : Fld) : (s.updCht g).evtInc f = (s.evtInc f).updCht g := by
  rw [State.evtInc, State.evtAdd, State.mark_updCht]
  rfl

theorem State.reportSig_updCht (x : FaultSig) : (s.updCht g).reportSig x = (s.reportSig x).updCht g := by
  unfold State.reportSig
  dsimp only
  rw [apply_ite (State.updCht · g), apply_ite (State.updCht · g)]
  rfl

theorem State.set_updCht (f : Fld) (v : Nat) : (s.updCht g).set f v = (s.set f v).updCht g := (rfl)

theorem State.updHal_updCht (f : Hal → Hal) : (s.updCht g).updHal f = (s.updHal f).updCht g := (rfl)

theorem State.mclk_updCht : (s.updCht g).mclk = s.mclk := (rfl)

theorem State.eccAddr_updCht (unc : Bool) (addr code : Nat) (portB rmw : Bool) :
    (s.updCht g).eccAddr unc addr code portB rmw = (s.eccAddr unc addr code portB rmw).updCht g := by
  unfold State.eccAddr State.setB
  simp only [State.set_updCht, State.updHal_updCht, State.mclk_updCht]

theorem State.eccYields_updCht (unc portB : Bool) : (s.updCht g).eccYields unc portB = s.eccYields unc portB := (rfl)

theorem State.eccRecord_updCht (nvs unc : Bool) (addr code : Nat) (portB rmw : Bool) (acc det : Nat) :
    (s.updCht g).eccRecord nvs unc addr code portB rmw acc det = (s.eccRecord nvs unc addr code portB rmw acc det).updCht g := by
  unfold State.eccRecord
  cases unc with
  | true =>
    simp only [if_true, State.evtInc_updCht, State.evt_updCht, State.eccYields_updCht, State.eccAddr_updCht]
    rw [← State.reportSig_updCht, apply_ite (State.updCht · g)]
  | false =>
    simp only [Bool.false_eq_true, if_false, State.evtInc_updCht, State.evt_updCht, State.eccYields_updCht, State.eccAddr_updCht]
    rw [← State.reportSig_updCht, apply_ite (State.updCht · g)]

theorem State.bit_updCht (f : Fld) : (s.updCht g).bit f = s.bit f := (rfl)

theorem State.life_updCht : (s.updCht g).life = s.life := (rfl)

theorem State.hallBytes_updCht (a n : Nat) : (s.updCht g).hallBytes a n = s.hallBytes a n := (rfl)

theorem State.masterCode_updCht (m : Master) (h : Nat) : (s.updCht g).masterCode m h = s.masterCode m h := (rfl)

/-- A read of a word, and its answer. -/
theorem State.hallWord_updCht (m : Master) (a n : Nat) (portB : Bool) (acc : Nat) :
    (s.updCht g).hallWord m a n none portB acc
      = ((s.hallWord m a n none portB acc).1.updCht g, (s.hallWord m a n none portB acc).2) := by
  have he : (s.updCht g).hallErr = s.hallErr := rfl
  rcases h : errGet s.hallErr (a / 8) with - | - | -
  · simp [State.hallWord, he, h, State.life_updCht, State.hallBytes_updCht]
  · simp only [State.hallWord, he, h, Option.isNone_none, Option.isSome_none, Bool.false_and, Bool.true_or, Bool.false_eq_true, if_true,
      if_false, decide_true, Bool.true_and, State.eccRecord_updCht, State.masterCode_updCht, State.bit_updCht]
    generalize s.eccRecord _ _ _ _ _ _ _ _ = u
    have hhal : (u.updCht g).hal = u.hal := rfl
    rw [hhal]
    split
    · rfl
    · rfl
  · simp [State.hallWord, he, h, State.eccRecord_updCht, State.masterCode_updCht]

theorem State.hallPort_updCht (m : Master) (a n : Nat) (write : Bool) : (s.updCht g).hallPort m a n write = s.hallPort m a n write := (rfl)

theorem State.hallOp_updCht (m : Master) (a n acc : Nat) :
    (s.updCht g).hallOp m a n none acc = ((s.hallOp m a n none acc).1.updCht g, (s.hallOp m a n none acc).2) := by
  unfold State.hallOp
  rw [State.hallPort_updCht]
  cases s.hallPort m a n (none : Option (List Byte)).isSome with
  | none => rfl
  | some pb =>
    simp only [Option.map_none, State.hallWord_updCht, State.hallPort_updCht]
    split
    · rfl
    · split
      · rfl
      · split
        · rfl
        · rfl

theorem State.readWords_updCht (m : Master) (b : Nat) (l : List Nat) :
    (s.updCht g).readWords m b l = ((s.readWords m b l).1.updCht g, (s.readWords m b l).2) := by
  induction l generalizing s with
  | nil => rfl
  | cons k t ih =>
    simp only [State.readWords, State.hallOp_updCht, ih]
    split
    · rfl
    · rfl

end

/-- A read of a chart leaves the chart engine as it is. -/
theorem State.cht_readWords (s : State) (m : Master) (b : Nat) (l : List Nat) : (s.readWords m b l).1.cht = s.cht :=
  congrArg (fun x => x.1.cht) (s.readWords_updCht (fun _ => s.cht) m b l)

/-! ### Lookups (R210, R214) -/

/-- What the chart at a place gives on a snapshot. -/
abbrev State.lookupAt (s : State) (p : ChartPos) (snap : List Int) : Lookup := chartEval (s.chartWord p) fun k => snap.getD k 0

/-- A lookup of a chart in place, all of whose words read well. -/
theorem State.chartLookup_read {m : Master} {ch : Nat} {snap : List Int} {p : ChartPos} (hp : s.chartAt ch = some p)
    (hr : (s.readWords m p.base (s.lookupAt p snap).read).2 = true) :
    s.chartLookup m ch snap = ((s.readWords m p.base (s.lookupAt p snap).read).1.evtAdd F.CHT_CLIP (s.lookupAt p snap).clip,
      some (s.lookupAt p snap)) := by
  simp only [State.chartLookup, hp, hr, if_true]

theorem State.lookFirst_of_none (h : ∀ j, j < 4 → s.lookWaits j = none) : s.lookFirst = none := by
  simp [State.lookFirst, List.range_succ, h]

/-- One LOOKUP waits. -/
theorem State.lookFirst_of_only {b ch : Nat} (hi : s.lookWaits i = some (b, ch))
    (ho : ∀ j, j < 4 → j ≠ i.val → s.lookWaits j = none) : s.lookFirst = some (i.val, b, ch) := by
  have hj (j : Fin 4) (h : j ≠ i) : s.lookWaits j = none := ho j j.isLt fun e => h (Fin.ext e)
  have h0 := hj 0
  have h1 := hj 1
  have h2 := hj 2
  have h3 := hj 3
  fin_cases i <;> simp_all [State.lookFirst, List.range_succ]

/-- Nothing waits for the unit. -/
theorem State.lookAccept_of_none (hf : s.lookFirst = none) (hl : s.lowFirst = none) (k : Nat) : s.lookAccept k = s := by
  cases k with
  | zero => rfl
  | succ k => simp only [State.lookAccept, hf, hl]

theorem State.ctx_lookTake_self (s : State) (i : Fin 4) (b ch : Nat) :
    (s.lookTake i b ch).ctx i = (s.ctx i).map fun y => { y with acc := some (max b s.cht.unitT) } :=
  vget_vupd_self s.cht.ctx i.isLt _ none

theorem State.unitT_lookTake (s : State) (i b ch : Nat) :
    (s.lookTake i b ch).cht.unitT = max b s.cht.unitT + s.unitHold ch := (rfl)

theorem State.lookupAt_lookTake (s : State) (i b ch : Nat) (p : ChartPos) (snap : List Int) :
    (s.lookTake i b ch).lookupAt p snap = s.lookupAt p snap := (rfl)

theorem State.fclk_lookTake (s : State) (i b ch : Nat) : (s.lookTake i b ch).fclk = s.fclk := (rfl)

theorem State.runLimit_lookTake (s : State) (i b ch : Nat) (a : Option Nat) (c : Ctx) :
    (s.lookTake i b ch).runLimit { c with acc := a } = s.runLimit c := (rfl)

theorem State.ctx_lookTake_ne (s : State) {i j : Nat} (h : j ≠ i) (b ch : Nat) : (s.lookTake i b ch).ctx j = s.ctx j :=
  vget_vupd_ne s.cht.ctx h _ none

theorem State.lookWaits_of_atStep {n : Nat} (h : s.atStep i 2 n = some (c, w, r)) (ha : c.acc = none) :
    s.lookWaits i = some (c.beg, stIdx w c.cyl) := by
  obtain ⟨hc, hr, hw, -, hop, ht, -⟩ := State.atStep_eq_some.1 h
  have hb : c.beg ≤ 3 * s.fclk := by omega
  simp [State.lookWaits, hc, hr, hw, hop, ha, hb]

/-- The unit takes a LOOKUP: no other waits in its context any more, and the others wait as before. -/
theorem State.lookWaits_lookTake {b ch : Nat} (ho : ∀ j, j < 4 → j ≠ i.val → s.lookWaits j = none) (j : Nat) (hj : j < 4) :
    (s.lookTake i b ch).lookWaits j = none := by
  by_cases h : j = i.val
  · subst h
    unfold State.lookWaits
    rw [State.ctx_lookTake_self]
    cases s.ctx i with
    | none => rfl
    | some y =>
      simp only [Option.map_some, Option.isNone_some, Bool.and_false, Bool.false_and, Bool.false_eq_true, if_false]
      split
      · rfl
      · rfl
  · have hs := ho j hj h
    unfold State.lookWaits at hs ⊢
    rw [State.ctx_lookTake_ne s h]
    exact hs

theorem State.lowFirst_lookTake {b ch : Nat} (h : s.lowFirst = none) (k : Nat) : (s.lookTake k b ch).lowFirst = none := by
  unfold State.lowFirst at h ⊢
  rw [Option.map_eq_none_iff] at h ⊢
  exact h

/-- The unit accepts the only LOOKUP that waits, and then nothing more. -/
theorem State.lookAccept_of_only {b ch : Nat} (hi : s.lookWaits i = some (b, ch)) (hl : s.lowFirst = none)
    (ho : ∀ j, j < 4 → j ≠ i.val → s.lookWaits j = none) (k : Nat) : s.lookAccept (k + 1) = s.lookTake i b ch := by
  simp only [State.lookAccept, State.lookFirst_of_only hi ho, hl]
  exact State.lookAccept_of_none (State.lookFirst_of_none (State.lookWaits_lookTake ho)) (State.lowFirst_lookTake hl i) k

/-- A LOOKUP that the unit has accepted ends with the chart’s value when its cost has passed, within the run’s limit. -/
theorem State.lookupStep_ends {u v : State} {a : Nat} {l : Lookup} (hu : s.lookAccept 6 = u) (h : u.atStep i 2 60 = some (c, w, r))
    (ha : c.acc = some a) (ht : a + u.lookCost (stIdx w c.cyl) c.snap ≤ 3 * u.fclk)
    (hlim : a + u.lookCost (stIdx w c.cyl) c.snap ≤ u.runLimit c)
    (hv : u.chartLookup .chart (stIdx w c.cyl) c.snap = (v, some l)) :
    s.lookupStep i = v.setCtx i (some { c with
      v := c.v.set (stDst w) l.val, step := c.step + 1, acc := none,
      beg := max (a + u.lookCost (stIdx w c.cyl) c.snap) (3 * u.fclk - 2) }) := by
  simp only [State.lookupStep, hu, h, ha, ht, hlim, hv, decide_true, Bool.and_self, if_true]
  rfl

/-- What a LOOKUP costs that is not of a 3-D chart: 60 MCLK, and 2 for each escape. -/
theorem State.lookCost_flat {ch : Nat} {p : ChartPos} (hp : s.chartAt ch = some p) (hd : s.get (F.CHT_CHART.NDIM ch) ≠ 3)
    (snap : List Int) : s.lookCost ch snap = 4 * (60 + 2 * (s.lookupAt p snap).esc) := by
  simp only [State.lookCost, hp, hd, if_false]

/-- A LOOKUP that is served at once: it is accepted when its step begins, and keeps the unit for 12 MCLK. -/
theorem State.lookupStep_takes {p : ChartPos} (h : s.atStep i 2 60 = some (c, w, r)) (hp : s.chartAt (stIdx w c.cyl) = some p)
    (hd : s.get (F.CHT_CHART.NDIM (stIdx w c.cyl)) ≠ 3) (ha : c.acc = none) (hl : s.lowFirst = none)
    (ho : ∀ j, j < 4 → j ≠ i.val → s.lookWaits j = none) (hunit : s.cht.unitT ≤ c.beg)
    (ht : c.beg + 4 * (60 + 2 * (s.lookupAt p c.snap).esc) ≤ 3 * s.fclk)
    (hlim : c.beg + 4 * (60 + 2 * (s.lookupAt p c.snap).esc) ≤ s.runLimit c)
    (hread : (s.readWords .chart p.base (s.lookupAt p c.snap).read).2 = true) :
    ∃ c', (s.lookupStep i).ctx i = some c' ∧ c'.v = c.v.set (stDst w) (s.lookupAt p c.snap).val
      ∧ c'.step = c.step + 1 ∧ c'.snap = c.snap ∧ (s.lookupStep i).cht.unitT = c.beg + 48 := by
  have hacc : s.lookAccept 6 = s.lookTake i c.beg (stIdx w c.cyl) := State.lookAccept_of_only (State.lookWaits_of_atStep h ha) hl ho 5
  have hmax : max c.beg s.cht.unitT = c.beg := max_eq_left hunit
  have hat : (s.lookTake i c.beg (stIdx w c.cyl)).atStep i 2 60 = some ({ c with acc := some c.beg }, w, r) := by
    rw [State.atStep_eq_some] at h ⊢
    obtain ⟨hc, hrest⟩ := h
    exact ⟨by rw [State.ctx_lookTake_self, hc, hmax, Option.map_some], hrest⟩
  have hval := s.lookupAt_lookTake i c.beg (stIdx w c.cyl) p c.snap
  have hcost := State.lookCost_flat (s := s.lookTake i c.beg (stIdx w c.cyl)) hp hd c.snap
  rw [hval] at hcost
  have hlook := State.chartLookup_read (s := s.lookTake i c.beg (stIdx w c.cyl)) (m := .chart) (snap := c.snap) hp
    (by rw [hval, State.lookTake, State.readWords_updCht, hread])
  rw [hval] at hlook
  have hend := State.lookupStep_ends hacc hat rfl (by rw [hcost, State.fclk_lookTake]; exact ht)
    (by rw [hcost, State.runLimit_lookTake]; exact hlim) hlook
  rw [hend]
  refine ⟨_, State.ctx_setCtx _ i _, rfl, rfl, rfl, ?_⟩
  rw [State.unitT_setCtx, State.evtAdd_cht, State.cht_readWords, State.unitT_lookTake, hmax, State.unitHold, if_neg hd]

/-- Settles O18: a run that stands at a step takes it, and a LOOKUP that alone waits for the unit is accepted when its step begins. -/
theorem recipeStepsCompute : Obligations.RecipeStepsCompute := by
  unfold Obligations.RecipeStepsCompute
  refine ⟨fun s i c w r h => ⟨_, rfl, State.valueStep_takes loadVal h⟩, fun s i c w r h => ⟨_, rfl, State.valueStep_takes addVal h⟩,
    fun s i c w r h => ⟨_, rfl, State.valueStep_takes scaleVal h⟩, fun s i c w r h => ⟨_, rfl, State.valueStep_takes clampVal h⟩,
    fun s i c w r h => ⟨_, rfl, State.valueStep_takes selectVal h⟩,
    fun s i c w r p h hp hd ha hl ho hunit ht hlim hread => ⟨_, rfl, State.lookupStep_takes h hp hd ha hl ho hunit ht hlim hread⟩,
    fun s i c w r h hk => ?_, fun s i c w r h => ?_, fun s i c w r h => ?_⟩
  · refine ⟨_, exec_recipeWrqv h hk, ?_, State.ctx_stepTo _ i c 2, State.bit_of_get_zero ?_⟩
    · rw [State.qv, State.get_of_regs (State.regs_stepTo _ i c 2), ← State.qv, State.qv_qvUpdate]
    · rw [State.get_of_regs (State.regs_stepTo _ i c 2), State.get_qvUpdate_stale]
  · exact ⟨_, exec_recipeWrstitch h, State.suPath_stepTo _ i c 2, State.regs_stepTo _ i c 2, State.ctx_stepTo _ i c 2⟩
  · exact ⟨_, exec_recipeCommit h, State.suPath_stepTo _ i c 2, State.regs_stepTo _ i c 2, State.ctx_stepTo _ i c 2⟩

end Sys2Proof.Machine
end

section
/-! SUPPORT. Updates of the variable file, recipe requests, the start and the ends of runs, and the test lookup (O17). -/

namespace Sys2Proof.Machine

variable {s : State}

/-! ### The variable file (R202, R203) -/

theorem State.get_qvUpdate_ageCnt (s : State) (q : Nat) (v : Int) :
    (s.qvUpdate q v).get (F.CHT_QVS.AGECNT q) = b2n (decide (s.cht.ageT = s.fclk) && s.qvAges q) := by
  rw [State.qvUpdate, State.get_set_self _ (F.CHT_QVS.AGECNT q) (show 5 + 8 ≤ 20 by decide)]
  exact Nat.mod_eq_of_lt (show b2n _ < 2 ^ 8 by unfold b2n; split <;> decide)

theorem State.qvUpdate_sameRegs (s : State) (q : Nat) (v : Int) :
    SameRegs (fun a => a = R.CHT_QV q ∨ a = R.CHT_QVS q) s (s.qvUpdate q v) := by
  intro a ha
  obtain ⟨hqv, hqvs⟩ := not_or.1 ha
  rw [State.qvUpdate, State.reg_set _ (F.CHT_QVS.AGECNT q) _ a hqvs, State.reg_set _ (F.CHT_QVS.STALE q) _ a hqvs,
    State.reg_set _ (F.CHT_QV q) _ a hqv]

/-- A write of a word from the host port to a HOST entry. -/
theorem exec_hostQvWrite_host {q : Fin 64} (v : Word) (hu : s.islandUp .memory = true) (hb : s.blockFree 10 = true)
    (hk : (s.qent q).kind = 1) : exec (.hostQvWrite q .host v) s = .next (s.qvUpdate q (sgn 20 v.toNat)) := by
  change execHostQvWrite q .host v s = _
  simp [execHostQvWrite, State.qvWrite, hu, hb, hk]

theorem qv_below (q : Fin 64) : R.CHT_QV q < R.IRT_STAT := by
  simp only [R.CHT_QV, R.IRT_STAT]
  omega

theorem qvs_below (q : Fin 64) : R.CHT_QVS q < R.IRT_STAT := by
  simp only [R.CHT_QVS, R.IRT_STAT]
  omega

/-- An entry whose age counter has reached AGE, with nothing more to come in its FCLK. -/
theorem exec_qvStale_reached {q : Fin 64} (hu : s.islandUp .memory = true) (hb : s.blockFree 10 = true) (hw : s.waiting = [])
    (hlo : 1 ≤ (s.qent q).kind) (hhi : (s.qent q).kind ≤ 7) (h0 : (s.qent q).age ≠ 0)
    (ha : (s.qent q).age ≤ s.get (F.CHT_QVS.AGECNT q)) (hs : s.bit (F.CHT_QVS.STALE q) = false) :
    exec (.qvStale q) s = .next (((s.set (F.CHT_QV q) (s.qent q).fall).set (F.CHT_QVS.STALE q) 1).raise 306) := by
  change execQvStale q s = _
  simp [execQvStale, State.qvStale, State.qvAges, hu, hb, hw, hlo, hhi, h0, ha, hs]

/-- The entry takes its FALLBACK and is STALE, whatever the raise of its source does. -/
theorem State.stale_shows (s : State) (q : Fin 64) (v k : Nat) :
    (((s.set (F.CHT_QV q) v).set (F.CHT_QVS.STALE q) 1).raise k).get (F.CHT_QV q) = v % 2 ^ 20
      ∧ (((s.set (F.CHT_QV q) v).set (F.CHT_QVS.STALE q) 1).raise k).bit (F.CHT_QVS.STALE q) = true := by
  constructor
  · rw [State.get_raise_below _ _ (qv_below q), State.get_set_addr _ _ _ (qv_ne_qvs q),
      State.get_set_self _ (F.CHT_QV q) (Nat.le_refl 20)]
    rfl
  · rw [State.bit_eq_of_get (State.get_raise_below _ _ (qvs_below q))]
    exact State.bit_set_one _ _ (show 4 + 1 ≤ 20 by decide) (show 0 < 1 by decide)

/-! ### Requests (R216, R217) -/

theorem rcp_below (r : Fin 64) : R.CHT_RCP r < R.IRT_STAT := by
  simp only [R.CHT_RCP, R.IRT_STAT]
  omega

theorem err_lt_rcp (r : Nat) : R.CHT_ERR < R.CHT_RCP r := by
  simp only [R.CHT_RCP, R.CHT_ERR]
  omega

theorem stat_lt_rcp (r : Nat) : R.CHT_STAT < R.CHT_RCP r :=
  (by decide : R.CHT_STAT < R.CHT_ERR).trans (err_lt_rcp r)

section

variable {r : PlanReq} {rest : List PlanReq}

/-- The oldest request on its way leaves the path. -/
theorem exec_recipeRequestArrive_cons (hu : s.islandUp .memory = true) (hi : s.cht.inbound = r :: rest) :
    exec .recipeRequestArrive s = .next ((s.updCht fun c => { c with inbound := rest }).planTake r) := by
  change execRecipeRequestArrive s = _
  simp only [execRecipeRequestArrive, hu, hi, if_true]

theorem State.planTake_joins (hb : s.blockFree 10 = true) (he : s.bit F.CHT_CTRL.EN = true) (hq : s.cht.queue.length < 16) :
    s.planTake r = s.updCht fun c => { c with queue := c.queue ++ [r] } := by
  simp [State.planTake, hb, he, hq]

/-- A full queue drops a request of recipe `n` with QOVF and result 4. -/
theorem State.planTake_drops {n : Fin 64} {cyl trk : Nat} (hb : s.blockFree 10 = true) (he : s.bit F.CHT_CTRL.EN = true)
    (hq : 16 ≤ s.cht.queue.length) :
    (s.planTake ⟨n, cyl, trk⟩).cht = s.cht ∧ (s.planTake ⟨n, cyl, trk⟩).bit F.CHT_STAT.QOVF = true
      ∧ (s.planTake ⟨n, cyl, trk⟩).get (F.CHT_RCP.LASTRES n) = 4 := by
  have h : s.planTake ⟨n, cyl, trk⟩ = ((s.evt F.CHT_STAT.QOVF).set (F.CHT_RCP.LASTRES n) 4).raise 305 := by
    simp [State.planTake, hb, he, Nat.not_lt.2 hq, Nat.mod_eq_of_lt n.isLt]
  rw [h]
  refine ⟨by rw [State.raise_cht, State.set_cht, State.evt_cht], ?_, ?_⟩
  · rw [State.bit, State.get_raise_below _ _ (by decide), State.get_set_addr _ _ _ (stat_lt_rcp n).ne,
      State.get_evt _ _ (by decide) (by decide)]
    rfl
  · rw [State.get_raise_below _ _ (rcp_below n), State.get_set_self _ _ (show 4 + 3 ≤ 20 by decide)]
    rfl

/-- The oldest request in the queue starts in the lowest free context. -/
theorem exec_recipeStart_takes {i : Nat} (hu : s.chtUp = true) (hq : s.cht.queue = r :: rest)
    (hi : (List.range 4).find? (fun i => (s.ctx i).isNone) = some i) :
    exec .recipeStart s = .next ((s.updCht fun x => { x with queue := rest }).setCtx i (some
      { rcp := r.rcp, cyl := r.cyl, step := 0, v := List.replicate 7 0 ++ [(r.cyl : Int)], snap := s.snapshot,
        stale := (List.range 64).map fun q => s.bit (F.CHT_QVS.STALE q), t0 := 3 * s.fclk, beg := 3 * s.fclk + 28, acc := none })) := by
  change execRecipeStart s = _
  simp only [execRecipeStart, hu, hq, hi, if_true]

end

/-! ### The end of a run (R219, Table 9.8) -/

theorem State.cht_runRecord (s : State) (c : Ctx) (res : Nat) : (s.runRecord c res).cht = s.cht := by
  unfold State.runRecord
  dsimp only
  split
  · simp
  · split
    · simp
    · simp

theorem State.ctx_runEnd (s : State) (i : Fin 4) (res : Nat) : (s.runEnd i res).ctx i = none := by
  unfold State.runEnd
  split
  case h_1 h => exact h
  case h_2 c _ =>
    rw [State.ctx, State.cht_runRecord, ← State.ctx, State.ctx_setCtx]

/-- What the record of an end writes to the recipe's register. -/
def State.rcpRecord (s : State) (c : Ctx) (res : Nat) : State :=
  ((s.set (F.CHT_RCP.LASTCYL (c.rcp % 64)) c.cyl).set (F.CHT_RCP.LASTRES (c.rcp % 64)) res).incW (F.CHT_RCP.RUNS (c.rcp % 64))

theorem State.runRecord_completed (s : State) (c : Ctx) :
    s.runRecord c 1 = (s.rcpRecord c 1).raiseIf (((s.rcpRecord c 1).recipe c.rcp).map (·.irq) |>.getD false) 307 := (rfl)

theorem State.runRecord_timeout (s : State) (c : Ctx) :
    s.runRecord c 2 = ((((((s.rcpRecord c 2).set F.CHT_ERR.RECIPE c.rcp).set F.CHT_ERR.CYL c.cyl).set F.CHT_ERR.STEP c.step).set
      F.CHT_ERR.CAUSE 1).evt F.CHT_STAT.RUNERR |>.raise 304).report 70 c.rcp := (rfl)

section

variable {c : Ctx} (hr : c.rcp < 64)

include hr

theorem State.lastres_rcpRecord (s : State) {res : Nat} (hres : res < 8) : (s.rcpRecord c res).get (F.CHT_RCP.LASTRES c.rcp) = res := by
  rw [State.rcpRecord, Nat.mod_eq_of_lt hr, State.incW, State.get_set_disj _ (F.CHT_RCP.RUNS c.rcp) (F.CHT_RCP.LASTRES c.rcp) rfl
    (show 7 + 13 ≤ 20 by decide) (.inr (show 4 + 3 ≤ 7 by decide)), State.get_set_self _ _ (show 4 + 3 ≤ 20 by decide)]
  exact Nat.mod_eq_of_lt hres

theorem State.runs_rcpRecord (s : State) (res : Nat) :
    (s.rcpRecord c res).get (F.CHT_RCP.RUNS c.rcp)
      = (s.get (F.CHT_RCP.RUNS c.rcp) + 1) % 2 ^ (F.CHT_RCP.RUNS c.rcp).len := by
  rw [State.rcpRecord, Nat.mod_eq_of_lt hr, State.incW, State.get_set_self _ (F.CHT_RCP.RUNS c.rcp) (show 7 + 13 ≤ 20 by decide),
    State.get_set_disj _ (F.CHT_RCP.LASTRES c.rcp) (F.CHT_RCP.RUNS c.rcp) rfl (show 4 + 3 ≤ 20 by decide) (.inl (show 4 + 3 ≤ 7 by decide)),
    State.get_set_disj _ (F.CHT_RCP.LASTCYL c.rcp) (F.CHT_RCP.RUNS c.rcp) rfl (show 0 + 4 ≤ 20 by decide) (.inl (show 0 + 4 ≤ 7 by decide))]

/-- A completed run is recorded with result 1 and counted. -/
theorem State.runRecord_completed_shows (s : State) :
    (s.runRecord c 1).get (F.CHT_RCP.LASTRES c.rcp) = 1
      ∧ (s.runRecord c 1).get (F.CHT_RCP.RUNS c.rcp)
        = (s.get (F.CHT_RCP.RUNS c.rcp) + 1) % 2 ^ (F.CHT_RCP.RUNS c.rcp).len := by
  have hbelow := rcp_below ⟨c.rcp, hr⟩
  rw [State.runRecord_completed, State.get_raiseIf_below _ _ _ hbelow, State.get_raiseIf_below _ _ _ hbelow]
  exact ⟨s.lastres_rcpRecord hr (by decide), s.runs_rcpRecord hr 1⟩

/-- A run past its limit is recorded with result 2, flagged with cause 1, and reported by source 70. -/
theorem State.runRecord_timeout_shows (s : State) :
    (s.runRecord c 2).get (F.CHT_RCP.LASTRES c.rcp) = 2 ∧ (s.runRecord c 2).bit F.CHT_STAT.RUNERR = true
      ∧ (s.runRecord c 2).get F.CHT_ERR.CAUSE = 1 ∧ ((s.runRecord c 2).por.pulses.any fun p => p.src = 70) = true := by
  have herr := (err_lt_rcp c.rcp).ne'
  rw [State.runRecord_timeout]
  refine ⟨?_, ?_, ?_, State.report_pulse _ 70 _⟩
  · rw [State.get_report, State.get_raise_below _ _ (rcp_below ⟨c.rcp, hr⟩),
      State.get_evt_apart _ _ _ (by decide) fun e => absurd e (stat_lt_rcp c.rcp).ne', State.get_set_addr _ _ _ herr,
      State.get_set_addr _ _ _ herr, State.get_set_addr _ _ _ herr, State.get_set_addr _ _ _ herr]
    exact s.lastres_rcpRecord hr (by decide)
  · rw [State.bit, State.get_report, State.get_raise_below _ _ (by decide), State.get_evt _ _ (by decide) (by decide)]
    rfl
  · rw [State.get_report, State.get_raise_below _ _ (by decide), State.get_evt_apart _ _ _ (by decide) (by decide),
      State.get_set_self _ _ (by decide)]
    rfl

end

theorem exec_recipeEndStep {i : Fin 4} {c : Ctx} {w : Nat} {r : Recipe} (h : s.atStep i 0 1 = some (c, w, r)) :
    exec (.recipeEndStep i) s = .next (s.runEnd i 1) := by
  change execRecipeEndStep i s = _
  simp only [execRecipeEndStep, h]

theorem exec_recipeRunTimeout {i : Fin 4} {c : Ctx} (hc : s.ctx i = some c) (hu : s.chtUp = true) (hl : s.runLimit c ≤ 3 * s.fclk)
    (he : s.comes (fun x => x = .recipeEndStep i) = false) : exec (.recipeRunTimeout i) s = .next (s.runEnd i 2) := by
  change execRecipeRunTimeout i s = _
  simp [execRecipeRunTimeout, hc, hu, hl, he]

theorem State.runEnd_of_ctx {i : Nat} {c : Ctx} (hc : s.ctx i = some c) (res : Nat) :
    s.runEnd i res = (s.setCtx i none).runRecord c res := by
  simp only [State.runEnd, hc]

/-! ### The test lookup (R221) -/

theorem exec_chartTestLookup_free {c : Fin 64} (hu : s.chtUp = true) (ht : s.cht.test = none) :
    exec (.chartTestLookup c) s
      = .next ((s.updCht fun x => { x with test := some (c.val, ⟨s.snapshot, 3 * s.fclk, none⟩) }).set F.CHT_TSTAT.BUSY 1) := by
  change execChartTestLookup c s = _
  simp [execChartTestLookup, State.testLookup, hu, ht]

theorem exec_chartTestLookup_busy {c : Fin 64} (hu : s.chtUp = true) (ht : s.cht.test ≠ none) : exec (.chartTestLookup c) s = .next s := by
  change execChartTestLookup c s = _
  simp [execChartTestLookup, State.testLookup, hu, Option.isSome_iff_ne_none.2 ht]

/-- A test lookup that the unit has accepted ends after its time, when nothing else waits for the unit. -/
theorem State.testRun_ends {c a : Nat} {l : LowLook} {p : ChartPos} (hu : s.chtUp = true) (ht : s.cht.test = some (c, l))
    (ha : l.acc = some a) (hf : s.lookFirst = none) (hl : s.lowFirst = none) (hp : s.chartAt c = some p)
    (hd : a + s.lookCost c l.snap ≤ 3 * s.fclk) : s.testRun = s.testEnd c l.snap := by
  simp [State.testRun, ht, hu, hp, State.lookAccept_of_none hf hl, ha, hd]

/-- A test lookup of an absent chart ends after one MCLK. -/
theorem State.testRun_absent {c : Nat} {l : LowLook} (hu : s.chtUp = true) (ht : s.cht.test = some (c, l)) (hp : s.chartAt c = none)
    (hd : l.reqT + 4 ≤ 3 * s.fclk) : s.testRun = s.testEnd c l.snap := by
  simp [State.testRun, ht, hu, hp, hd]

/-- The chart’s value is the result, with DONE. -/
theorem State.testEnd_done {u : State} {c : Nat} {snap : List Int} {l : Lookup} (h : s.chartLookup .chart c snap = (u, some l)) :
    (s.testEnd c snap).get F.CHT_TRES = toW 20 l.val ∧ (s.testEnd c snap).bit F.CHT_TSTAT.DONE = true
      ∧ (s.testEnd c snap).bit F.CHT_TSTAT.BUSY = false ∧ (s.testEnd c snap).cht.test = none := by
  have hend : s.testEnd c snap = (((u.updCht fun x => { x with test := none }).set F.CHT_TSTAT.BUSY 0).set F.CHT_TRES
      (toW 20 l.val)).evt F.CHT_TSTAT.DONE := by
    simp only [State.testEnd, h]
  rw [hend]
  refine ⟨?_, ?_, ?_, ?_⟩
  · rw [State.get_evt_apart _ _ _ (by decide) (by decide), State.get_set_self _ _ (by decide)]
    exact toW_mod _
  · exact State.bit_of_get_one (State.get_evt _ _ (by decide) (by decide))
  · refine State.bit_of_get_zero ?_
    rw [State.get_evt_apart _ _ _ (by decide) (by decide), State.get_set_addr _ _ _ (by decide), State.get_set_self _ _ (by decide)]
    rfl
  · rw [State.evt_cht, State.set_cht, State.set_cht]
    rfl

/-- ERR for a chart that is absent, and the result of before. -/
theorem State.testEnd_absent {c : Nat} (snap : List Int) (hp : s.chartAt c = none) :
    (s.testEnd c snap).bit F.CHT_TSTAT.ERR = true ∧ (s.testEnd c snap).get F.CHT_TRES = s.get F.CHT_TRES
      ∧ (s.testEnd c snap).cht.test = none := by
  have hend : s.testEnd c snap = ((s.updCht fun x => { x with test := none }).set F.CHT_TSTAT.BUSY 0).evt F.CHT_TSTAT.ERR := by
    simp only [State.testEnd, State.chartLookup, hp]
  rw [hend]
  refine ⟨State.bit_of_get_one (State.get_evt _ _ (by decide) (by decide)), ?_, ?_⟩
  · rw [State.get_evt_apart _ _ _ (by decide) (by decide), State.get_set_addr _ _ _ (by decide)]
    exact State.get_of_regs (State.updCht_regs _ _) _
  · rw [State.evt_cht, State.set_cht]
    rfl

/-- Settles O17: each command is the update that its rule names, and a field of the variable file or of a recipe's record is read back
through the updates that follow it. -/
theorem variablesRequestsAndRunEnds : Obligations.VariablesRequestsAndRunEnds := by
  unfold Obligations.VariablesRequestsAndRunEnds
  refine ⟨fun s q v hu hb hk ht => ?_, fun s q hu hb hw hlo hhi h0 ha hs => ?_, fun s r rest hu hb he hi hq => ?_,
    fun s r cyl trk rest hu hb he hi hq => ?_, fun s r rest i hu hq hi => ?_, fun s i c w r h hr => ?_,
    fun s i c hc hr hu hl he => ?_, fun s c hu ht => ?_, fun s c hu ht => exec_chartTestLookup_busy hu ht,
    fun s c a l p hu ht ha hf hl hp hd hread => ?_, fun s c l hu ht hp hd => ?_⟩
  · refine ⟨_, exec_hostQvWrite_host v hu hb hk, ?_, s.get_qvUpdate_stale _ _, ?_, s.qvUpdate_sameRegs _ _⟩
    · obtain ⟨hlo, hhi⟩ := sgn_mem v.toNat
      rw [State.get_qvUpdate_qv, sat20_of_mem hlo hhi, toW_sgn, Nat.mod_eq_of_lt v.isLt]
    · rw [State.get_qvUpdate_ageCnt, decide_eq_false ht]
      rfl
  · exact ⟨_, exec_qvStale_reached hu hb hw hlo hhi h0 ha hs, s.stale_shows q _ 306⟩
  · have hj := State.planTake_joins (s := s.updCht fun c => { c with inbound := rest }) (r := r) hb he hq
    exact ⟨_, (exec_recipeRequestArrive_cons hu hi).trans (congrArg _ hj), rfl, rfl, rfl⟩
  · obtain ⟨hcht, hovf, hres⟩ := State.planTake_drops (s := s.updCht fun c => { c with inbound := rest }) (n := r) (cyl := cyl)
      (trk := trk) hb he hq
    exact ⟨_, exec_recipeRequestArrive_cons hu hi, by rw [hcht]; rfl, by rw [hcht]; rfl, hovf, hres⟩
  · exact ⟨_, exec_recipeStart_takes hu hq hi, rfl, rfl, _, State.ctx_setCtx _ i _, rfl, rfl, rfl, rfl, rfl, rfl⟩
  · obtain ⟨hc, -⟩ := State.atStep_eq_some.1 h
    refine ⟨_, exec_recipeEndStep h, s.ctx_runEnd i 1, ?_⟩
    rw [State.runEnd_of_ctx hc]
    exact (s.setCtx i none).runRecord_completed_shows hr
  · refine ⟨_, exec_recipeRunTimeout hc hu hl he, s.ctx_runEnd i 2, ?_⟩
    rw [State.runEnd_of_ctx hc]
    exact (s.setCtx i none).runRecord_timeout_shows hr
  · exact ⟨_, exec_chartTestLookup_free hu ht, State.bit_set_one _ _ (by decide) (by decide), rfl, fun a ha => State.reg_set _ _ _ a ha⟩
  · rw [State.testRun_ends hu ht ha hf hl hp hd]
    exact State.testEnd_done (State.chartLookup_read hp hread)
  · rw [State.testRun_absent hu ht hp hd]
    exact State.testEnd_absent l.snap hp

end Sys2Proof.Machine
end

section
/-! SUPPORT. The gauge: what its operations leave of a segment that has ended, records within a segment and at its end, coders, the
threshold, waveform outputs, streams and the carrier (O19). -/

namespace Sys2Proof.Machine

variable {s s₀ t : State}

/-! ### What the gauge's operations leave alone -/

theorem State.updGau_gau (s : State) (f : Gau → Gau) : (s.updGau f).gau = f s.gau := (rfl)

theorem State.reg_updGau (s : State) (f : Gau → Gau) (b : Nat) : (s.updGau f).reg b = s.reg b := (rfl)

theorem ChtKept.each {α : Type} {l : List α} {f : State → α → State} (h : ChtKept s₀ s)
    (hf : ∀ s x, ChtKept s₀ s → ChtKept s₀ (f s x)) : ChtKept s₀ (s.each l f) :=
  State.each_keeps (ChtKept s₀) f hf l s h

/-- What the gauge feeds to the variable file reaches the chart engine's registers at most. -/
theorem ChtKept.qvFeed (h : ChtKept s₀ s) {kind idx : Nat} {raw : Int} {shift : Bool} : ChtKept s₀ (s.qvFeed kind idx raw shift) :=
  .ite h.frame <| .ite (h.each fun _ e h => h.when (·.qvUpdate ⟨e.1 % 64, Nat.mod_lt _ (by decide)⟩)) h

theorem ChtKept.gau (h : ChtKept s t) : t.gau = s.gau :=
  show t.sansCht.gau = s.sansCht.gau from congrArg State.gau h.sans

theorem ChtKept.get (h : ChtKept s t) {f : Fld} (hf : ¬ ChtReg f.addr := by decide) : t.get f = s.get f :=
  congrArg (fldGet f) (h.reg _ hf)

/-- The registers that say where segments stand: those of the trackers, and the gauge's up to GAU_SLEN (Table 10.7). -/
abbrev PlaceReg (a : Nat) : Prop := a < 0x3400 ∨ (0x3800 ≤ a ∧ a < 0x3830)

/-- From `s` to `t` segments stand where they stood, and so does the last record. -/
structure SamePlaces (s t : State) : Prop where
  place : ∀ a, PlaceReg a → t.reg a = s.reg a
  trk : t.trk = s.trk
  lastPos : t.gau.lastPos = s.gau.lastPos

/-- From `s₀` to `s` what segment `c` shows has stayed as well: its time, roughness and VALID, and the times before it. -/
structure SegKept (c : Fin 16) (s₀ s : State) : Prop extends SamePlaces s₀ s where
  tseg : s.reg (R.GAU_TSEG c) = s₀.reg (R.GAU_TSEG c)
  rough : s.reg (R.GAU_ROUGH c) = s₀.reg (R.GAU_ROUGH c)
  valid : s.get (F.GAU_MF.VALID c) = s₀.get (F.GAU_MF.VALID c)
  prevT : s.gau.prevT = s₀.gau.prevT

theorem SamePlaces.trans {s t u : State} (h : SamePlaces s t) (h' : SamePlaces t u) : SamePlaces s u :=
  ⟨fun a ha => (h'.place a ha).trans (h.place a ha), h'.trk.trans h.trk, h'.lastPos.trans h.lastPos⟩

/-- An update of other fields. -/
theorem SamePlaces.frame (h : SamePlaces s₀ s) (hr : t.regs = s.regs := by rfl) (hk : t.trk = s.trk := by rfl)
    (hl : t.gau.lastPos = s.gau.lastPos := by rfl) : SamePlaces s₀ t :=
  h.trans ⟨fun a _ => congrArg (cellGet resetOf · a) hr, hk, hl⟩

theorem SamePlaces.set (h : SamePlaces s₀ s) {f : Fld} {v : Nat} (hf : ¬ PlaceReg f.addr) : SamePlaces s₀ (s.set f v) :=
  h.trans ⟨fun _ ha => s.reg_set f v _ fun e => hf (e ▸ ha), rfl, rfl⟩

variable {c : Fin 16}

theorem SegKept.refl (s : State) : SegKept c s s := ⟨⟨fun _ _ => rfl, rfl, rfl⟩, rfl, rfl, rfl, rfl⟩

theorem SegKept.trans {s t u : State} (h : SegKept c s t) (h' : SegKept c t u) : SegKept c s u :=
  ⟨h.toSamePlaces.trans h'.toSamePlaces, h'.tseg.trans h.tseg, h'.rough.trans h.rough, h'.valid.trans h.valid, h'.prevT.trans h.prevT⟩

/-- An update of other fields. -/
theorem SegKept.frame (h : SegKept c s₀ s) (hr : t.regs = s.regs := by rfl) (hk : t.trk = s.trk := by rfl)
    (hl : t.gau.lastPos = s.gau.lastPos := by rfl) (hp : t.gau.prevT = s.gau.prevT := by rfl) : SegKept c s₀ t :=
  h.trans ⟨.frame (SegKept.refl (c := c) s).toSamePlaces hr hk hl, congrArg (cellGet resetOf · _) hr, congrArg (cellGet resetOf · _) hr,
    State.get_of_regs hr _, hp⟩

/-- An update that leaves the gauge's state and the registers of the segments as they are. -/
theorem SegKept.ofRegs (h : SegKept c s₀ s) (hr : ∀ a, a < 0x3400 ∨ (0x3800 ≤ a ∧ a < 0x3860) → t.reg a = s.reg a)
    (hk : t.trk = s.trk) (hg : t.gau = s.gau) : SegKept c s₀ t := by
  refine h.trans ⟨⟨fun a ha => hr a (by omega), hk, by rw [hg]⟩, hr _ ?_, hr _ ?_, congrArg (fldGet _) (hr _ ?_), by rw [hg]⟩
  · simp only [R.GAU_TSEG]
    omega
  · simp only [R.GAU_ROUGH]
    omega
  · simp only [F.GAU_MF.VALID, R.GAU_MF]
    omega

/-- What reaches the registers of CHT and IRT at most. -/
theorem SegKept.beside (h : SegKept c s₀ s) (hc : ChtKept s t) : SegKept c s₀ t := by
  have htrk : t.sansCht.trk = s.sansCht.trk := congrArg State.trk hc.sans
  exact h.ofRegs (fun a ha => hc.reg a (by omega)) htrk hc.gau

theorem SegKept.ite {p : Prop} {_ : Decidable p} (hs : SegKept c s₀ s) (ht : SegKept c s₀ t) : SegKept c s₀ (if p then s else t) := by
  split
  · exact hs
  · exact ht

/-- `if p then f s else s`, in a chain of updates. -/
theorem SegKept.when {p : Prop} {_ : Decidable p} (h : SegKept c s₀ s) (hf : SegKept c s₀ s → SegKept c s₀ t) :
    SegKept c s₀ (if p then t else s) :=
  .ite (hf h) h

theorem SegKept.mark (h : SegKept c s₀ s) {a : Nat} {g : Word → Word} : SegKept c s₀ (s.mark a g) :=
  .ite h.frame h

/-- A register above the segments' is written. -/
theorem SegKept.setAbove (h : SegKept c s₀ s) {f : Fld} {v : Nat} (hf : 0x3860 ≤ f.addr) : SegKept c s₀ (s.set f v) :=
  h.ofRegs (fun a ha => s.reg_set f v a (by omega)) rfl (s.set_gau f v)

/-- A field of the segment's own GAU_MF, below VALID, is written. -/
theorem SegKept.setMf (h : SegKept c s₀ s) {f : Fld} {v : Nat} (ha : f.addr = R.GAU_MF c) (hl : f.lo + f.len ≤ 14) :
    SegKept c s₀ (s.set f v) := by
  have hr (a : Nat) (hlt : a < 0x3850) : (s.set f v).reg a = s.reg a := s.reg_set f v a (by simp only [ha, R.GAU_MF]; omega)
  refine h.trans ⟨⟨fun a ha => hr a (by omega), rfl, rfl⟩, hr _ ?_, hr _ ?_, ?_, rfl⟩
  · simp only [R.GAU_TSEG]
    omega
  · simp only [R.GAU_ROUGH]
    omega
  · exact State.get_set_disj s f _ ha.symm (by omega) (.inl hl) v

theorem SegKept.raise (h : SegKept c s₀ s) {k : Nat} (hk : ChtReg (R.IRT_SRC k) := by decide) : SegKept c s₀ (s.raise k) :=
  h.beside ((ChtKept.refl s).raise hk)

theorem SegKept.report (h : SegKept c s₀ s) {src det : Nat} : SegKept c s₀ (s.report src det) :=
  h.beside (ChtKept.refl s).report

theorem SegKept.qvFeed (h : SegKept c s₀ s) {kind idx : Nat} {raw : Int} {shift : Bool} : SegKept c s₀ (s.qvFeed kind idx raw shift) :=
  h.beside (ChtKept.refl s).qvFeed

/-- A candidate counts in its segment, and shows nothing of the segment otherwise (R228). -/
theorem SegKept.blockCount (h : SegKept c s₀ s) : SegKept c s₀ (s.blockCount c) := by
  have hcount (u : State) (v : Nat) : SegKept c u (u.set (F.GAU_MF.BLKCNT c) v) :=
    (SegKept.refl u).setMf rfl (show 8 + 5 ≤ 14 by decide)
  have hlimit (u : State) : SegKept c u (u.evt (F.GAU_MF.LIMIT c)) := (SegKept.refl u).mark.setMf rfl (show 13 + 1 ≤ 14 by decide)
  unfold State.blockCount
  dsimp only
  exact (SegKept.ite (h.trans (hcount _ _)) (h.frame.trans (hcount s.free.2 _))).frame.when fun h =>
    ((h.trans (hlimit _)).raise (k := 309)).report.frame

theorem SegKept.candidate (h : SegKept c s₀ s) : SegKept c s₀ (s.candidate c) := by
  have hcand : SegKept c s₀ (s.evtInc (F.GAU_MF.CAND c)) := h.mark.setMf rfl (show 0 + 8 ≤ 14 by decide)
  unfold State.candidate
  exact (hcand.frame.raise (k := 308)).blockCount

/-- A record for a coder, whatever the coder makes of it (R231 to R235). -/
theorem SegKept.coderRecord (h : SegKept c s₀ s) {n : Nat} {r : GauRec} : SegKept c s₀ (s.coderRecord n r) := by
  have hstat : 0x3860 ≤ R.GAU_HSTAT n := by
    simp only [R.GAU_HSTAT]
    omega
  have hbytes : 0x3860 ≤ R.GAU_HBYTES n := by
    simp only [R.GAU_HBYTES]
    omega
  unfold State.coderRecord
  dsimp only
  exact .ite h <| .ite ((h.frame.setAbove hbytes).when (·.setAbove hstat))
    (((h.mark.setAbove hstat).mark.setAbove hstat).raise (k := 310)).frame

/-! ### A record for the segments (R224 to R226) -/

section

variable {r : GauRec} {rest : List GauItem}

/-- Items stay on the path to the gauge. -/
def State.onPath (s : State) (rest : List GauItem) : State := s.updGau fun g => { g with inbound := rest }

/-- A record in front of the path reaches segments and coder. -/
theorem exec_gaugeRecordArrive_head (hu : s.islandUp .memory = true) (hb : s.blockFree 11 = true) (hi : s.gau.inbound = .record r :: rest) :
    exec .gaugeRecordArrive s = .next (((s.onPath rest).segRecord r).coderRecord r.trk r) := by
  have hb' : (s.onPath rest).blockFree 11 = true := hb
  have htake : (s.updGau fun g => { g with inbound := g.inbound.erase (.record r) }) = s.onPath rest := by
    simp only [State.onPath, State.updGau, hi, List.erase_cons_head]
  change execGaugeRecordArrive s = _
  simp [execGaugeRecordArrive, hu, hi, gauFirst, GauItem.isZero, hb', htake]

/-- A record of the tracker followed, within CYCLE_SYNC. -/
theorem State.segRecord_followed (he : s.bit F.GAU_CFG.EN = true) (ht : r.trk = s.get F.GAU_CFG.TRK) (hc : r.cyc = true)
    (hf : r.first = false) : s.segRecord r = ((s.segSum r).segStart r).updGau fun g => { g with lastPos := some r.pos } := by
  simp [State.segRecord, he, ht, hc, hf]

/-- A record within a segment adds its period. -/
theorem State.segSum_within {c x : Nat} (hs : s.gau.seg = some (c, x)) (hl : s.gau.lastPos = none) (he : r.pos ≠ s.segEnd c) :
    s.segSum r = s.updGau fun g => { g with seg := some (c, x + r.rec_.per) } := by
  simp [State.segSum, hs, hl, he]

/-- A record at the end position ends a segment that no gap has spoilt. -/
theorem State.segSum_end {c x : Nat} (hs : s.gau.seg = some (c, x)) (hb : s.gau.segBad = false) (he : r.pos = s.segEnd c)
    (hx : x + r.rec_.per < 2 ^ 30) :
    s.segSum r = (s.updGau fun g => { g with seg := none, segBad := false }).segValid c (x + r.rec_.per) := by
  simp only [State.segSum, hs, if_pos he, State.segClose, hb, Bool.false_eq_true, if_false, if_pos hx]

/-- No segment begins at a position between the last record's and the record's. -/
def State.noStartPassed (s : State) (r : GauRec) : Bool :=
  s.gau.lastPos.all fun q => (List.range s.nSeg).all fun k => !between (s.positions r.trk) q r.pos (s.get (F.GAU_SEG k))

/-- With none passed over, a record starts the segment that begins at its position, if there is one. -/
theorem State.segStart_of_none_passed (h : s.noStartPassed r = true) :
    s.segStart r = ((List.range s.nSeg).find? fun c => s.get (F.GAU_SEG c) = r.pos).elim s fun c =>
      s.updGau fun g => { g with seg := some (c, 0), segBad := false } := by
  have hpassed (q : Nat) (hl : s.gau.lastPos = some q) :
      ((List.range s.nSeg).find? fun k => between (s.positions r.trk) q r.pos (s.get (F.GAU_SEG k))) = none := by
    simpa [State.noStartPassed, hl] using h
  unfold State.segStart
  cases hl : s.gau.lastPos with
  | none =>
    cases (List.range s.nSeg).find? fun c => s.get (F.GAU_SEG c) = r.pos with
    | none => rfl
    | some c => rfl
  | some q =>
    simp only [hpassed q hl]
    cases (List.range s.nSeg).find? fun c => s.get (F.GAU_SEG c) = r.pos with
    | none => rfl
    | some c => rfl

theorem State.segStart_of_no_start (h : s.noStartPassed r = true) (hk : ∀ k, k < s.nSeg → s.get (F.GAU_SEG k) ≠ r.pos) :
    s.segStart r = s := by
  have hnone : ((List.range s.nSeg).find? fun c => s.get (F.GAU_SEG c) = r.pos) = none := by simpa using hk
  rw [State.segStart_of_none_passed h, hnone, Option.elim_none]

theorem SegKept.segStart (h : SegKept c s₀ s) (hp : s.noStartPassed r = true) : SegKept c s₀ (s.segStart r) := by
  rw [State.segStart_of_none_passed hp]
  cases (List.range s.nSeg).find? fun c => s.get (F.GAU_SEG c) = r.pos with
  | none => exact h
  | some c => exact h.frame

theorem SamePlaces.get (h : SamePlaces s t) {f : Fld} (hf : PlaceReg f.addr) : t.get f = s.get f :=
  congrArg (fldGet f) (h.place _ hf)

theorem SamePlaces.positions (h : SamePlaces s t) {n : Nat} (hn : n < 4) : t.positions n = s.positions n := by
  have hlen : t.get (F.STAIR_LEN n) = s.get (F.STAIR_LEN n) := h.get (by simp only [F.STAIR_LEN, R.STAIR_LEN]; omega)
  simp only [State.positions, State.cycLen, State.getTrk, hlen, h.trk]

theorem SamePlaces.nSeg (h : SamePlaces s t) : t.nSeg = s.nSeg :=
  congrArg (· + 1) (h.get (by decide))

theorem SamePlaces.noStartPassed (h : SamePlaces s t) (hn : r.trk < 4) : t.noStartPassed r = s.noStartPassed r := by
  have hseg (k : Nat) (hk : k < s.nSeg) : t.get (F.GAU_SEG k) = s.get (F.GAU_SEG k) := by
    have hlt : s.get F.GAU_CFG.NSEGM1 < 16 := s.get_lt F.GAU_CFG.NSEGM1
    have hk' : k < s.get F.GAU_CFG.NSEGM1 + 1 := hk
    exact h.get (by simp only [F.GAU_SEG, R.GAU_SEG]; omega)
  unfold State.noStartPassed
  rw [h.lastPos, h.positions hn, h.nSeg]
  congr 1
  funext q
  rw [Bool.eq_iff_iff]
  simp only [List.all_eq_true, List.mem_range]
  exact forall₂_congr fun k hk => by rw [hseg k hk]

end

/-! ### A segment ends valid (R226, R230) -/

/-- The roughness of a time `x` after `t1` and, before it, `t2` (R226). -/
def roughness (x t1 t2 : Nat) : Int := sat20 (rndDiv (65536 * ((x : Int) - 2 * t1 + t2)) x)

/-- Segment `c` shows the time `x`, valid, with its roughness after `t1` and `t2`. -/
structure SegmentShown (c : Fin 16) (x t1 t2 : Nat) (s : State) : Prop where
  time : s.get (F.GAU_TSEG c) = min (x / 64) 0xFFFFF
  valid : s.bit (F.GAU_MF.VALID c) = true
  times : s.gau.prevT = [x, t1]
  rough : s.get (F.GAU_ROUGH c) = toW 20 (roughness x t1 t2)

theorem SegmentShown.kept {x t1 t2 : Nat} (h : SegmentShown c x t1 t2 s) (hk : SegKept c s t) : SegmentShown c x t1 t2 t :=
  ⟨(congrArg (fldGet _) hk.tseg).trans h.time, (State.bit_eq_of_get hk.valid).trans h.valid, hk.prevT.trans h.times,
    (congrArg (fldGet _) hk.rough).trans h.rough⟩

/-- The end of a segment as its registers take it: its time, fed to the variable file beside it, then its roughness. -/
def State.segFed (s : State) (c x : Nat) : State :=
  (s.set (F.GAU_TSEG c) (min (x / 64) 0xFFFFF)).qvFeed 7 (16 + c) (min (x / 64) 524287 : Nat) true

def State.segTimed (s : State) (c x : Nat) : State := (s.segFed c x).updGau fun g => { g with prevT := (x :: g.prevT).take 2 }

def State.segRough (s : State) (c x t1 t2 : Nat) : State :=
  ((s.segTimed c x).set (F.GAU_ROUGH c) (toW 20 (roughness x t1 t2))).set (F.GAU_MF.VALID c) 1

section

variable {x t1 t2 : Nat}

theorem State.segFed_beside (s : State) (c : Fin 16) (x : Nat) :
    ChtKept (s.set (F.GAU_TSEG c) (min (x / 64) 0xFFFFF)) (s.segFed c x) :=
  (ChtKept.refl _).qvFeed

theorem State.prevT_segFed (s : State) (c : Fin 16) (x : Nat) : (s.segFed c x).gau.prevT = s.gau.prevT := by
  rw [(s.segFed_beside c x).gau, State.set_gau]

/-- The third valid segment of a sequence, and each after it, has a roughness, which is compared with the threshold. -/
theorem State.segValid_third (hp : s.gau.prevT = [t1, t2]) (hx : x ≠ 0) :
    s.segValid c x = (let u := (s.segRough c x t1 t2).qvFeed 7 c (roughness x t1 t2) true
      if sgn 20 u.thrOld < roughness x t1 t2 then u.candidate c else u) := by
  have hq : ((s.set (F.GAU_TSEG c) (min (x / 64) 0xFFFFF)).qvFeed 7 (16 + c) (min (x / 64) 524287 : Nat) true).gau.prevT = [t1, t2] := by
    rw [← hp, ← s.prevT_segFed c x, State.segFed]
  unfold State.segValid
  simp only [hq, if_neg hx]
  rfl

/-- The threshold is compared and the variable file fed after all that the segment shows. -/
theorem SegKept.segValid (hp : s.gau.prevT = [t1, t2]) (hx : x ≠ 0) : SegKept c (s.segRough c x t1 t2) (s.segValid c x) := by
  rw [State.segValid_third hp hx]
  exact (SegKept.refl _).qvFeed.when (·.candidate)

theorem not_placeReg_results (c : Fin 16) : ¬ PlaceReg (R.GAU_MF c) ∧ ¬ PlaceReg (R.GAU_ROUGH c) ∧ ¬ PlaceReg (R.GAU_TSEG c) := by
  simp only [R.GAU_MF, R.GAU_ROUGH, R.GAU_TSEG]
  omega

theorem SamePlaces.segRough : SamePlaces s (s.segRough c x t1 t2) := by
  obtain ⟨hmf, hrough, htseg⟩ := not_placeReg_results c
  have htime : SamePlaces s (s.set (F.GAU_TSEG c) (min (x / 64) 0xFFFFF)) := (SegKept.refl (c := c) s).toSamePlaces.set htseg
  have hfed := (SegKept.refl (c := c) _).beside (s.segFed_beside c x)
  exact (((htime.trans hfed.toSamePlaces).frame (t := s.segTimed c x)).set hrough).set hmf

theorem State.segRough_shows (hp : s.gau.prevT = [t1, t2]) : SegmentShown c x t1 t2 (s.segRough c x t1 t2) := by
  have hreg : (s.segTimed c x).get (F.GAU_TSEG c) = (s.set (F.GAU_TSEG c) (min (x / 64) 0xFFFFF)).get (F.GAU_TSEG c) :=
    (s.segFed_beside c x).get (by simp only [F.GAU_TSEG, R.GAU_TSEG]; omega)
  constructor
  · rw [State.segRough, State.get_set_addr _ _ _ (by simp only [F.GAU_TSEG, F.GAU_MF.VALID, R.GAU_TSEG, R.GAU_MF]; omega),
      State.get_set_addr _ _ _ (by simp only [F.GAU_TSEG, F.GAU_ROUGH, R.GAU_TSEG, R.GAU_ROUGH]; omega), hreg,
      State.get_set_self _ _ (show 0 + 20 ≤ 20 by decide)]
    exact Nat.mod_eq_of_lt (show min (x / 64) 0xFFFFF < 2 ^ 20 by omega)
  · exact State.bit_set_one _ _ (show 14 + 1 ≤ 20 by decide) (show 0 < 1 by decide)
  · change (x :: (s.segFed c x).gau.prevT).take 2 = _
    rw [s.prevT_segFed, hp]
    rfl
  · rw [State.segRough, State.get_set_addr _ _ _ (by simp only [F.GAU_ROUGH, F.GAU_MF.VALID, R.GAU_ROUGH, R.GAU_MF]; omega),
      State.get_set_self _ _ (show 0 + 20 ≤ 20 by decide)]
    exact toW_mod _

end

/-! ### Records: within a segment, at its end, for a coder -/

section

variable {r : GauRec} {rest : List GauItem}

theorem State.coderRecord_off {n : Nat} (h : s.bit (F.GAU_HCFG.HEN n) = false) : s.coderRecord n r = s := by
  simp [State.coderRecord, h]

/-- A record that neither ends nor starts a segment. -/
theorem State.segRecord_within {x : Nat} (he : s.bit F.GAU_CFG.EN = true) (ht : r.trk = s.get F.GAU_CFG.TRK) (hc : r.cyc = true)
    (hf : r.first = false) (hs : s.gau.seg = some (c.val, x)) (hl : s.gau.lastPos = none) (hp : r.pos ≠ s.segEnd c)
    (hk : ∀ k, k < s.nSeg → s.get (F.GAU_SEG k) ≠ r.pos) :
    s.segRecord r = (s.updGau fun g => { g with seg := some (c.val, x + r.rec_.per) }).updGau fun g =>
      { g with lastPos := some r.pos } := by
  have hnone : (s.updGau fun g => { g with seg := some (c.val, x + r.rec_.per) }).noStartPassed r = true := by
    simp [State.noStartPassed, State.updGau, hl]
  rw [State.segRecord_followed he ht hc hf, State.segSum_within hs hl hp, State.segStart_of_no_start hnone hk]

/-- A record at the end position, with no segment boundary passed over, shows the segment's time and roughness. -/
theorem State.segRecord_ends {x t1 t2 : Nat} (he : s.bit F.GAU_CFG.EN = true) (ht : r.trk = s.get F.GAU_CFG.TRK) (hc : r.cyc = true)
    (hf : r.first = false) (hs : s.gau.seg = some (c.val, x)) (hbad : s.gau.segBad = false) (hp : r.pos = s.segEnd c)
    (hnone : s.noStartPassed r = true) (hx : x + r.rec_.per < 2 ^ 30) (h0 : x + r.rec_.per ≠ 0) (hprev : s.gau.prevT = [t1, t2]) :
    SegmentShown c (x + r.rec_.per) t1 t2 (s.segRecord r) := by
  rw [State.segRecord_followed he ht hc hf, State.segSum_end hs hbad hp hx]
  generalize hv : (s.updGau fun g => { g with seg := none, segBad := false }) = v
  have hvprev : v.gau.prevT = [t1, t2] := by
    rw [← hv]
    exact hprev
  have hkept : SegKept c (v.segRough c (x + r.rec_.per) t1 t2) (v.segValid c (x + r.rec_.per)) := .segValid hvprev h0
  have hplaces : SamePlaces v (v.segValid c (x + r.rec_.per)) := SamePlaces.segRough.trans hkept.toSamePlaces
  have hvnone : (v.segValid c (x + r.rec_.per)).noStartPassed r = true := by
    rw [hplaces.noStartPassed (ht ▸ s.get_lt F.GAU_CFG.TRK), ← hv]
    exact hnone
  obtain ⟨htime, hvalid, htimes, hrough⟩ := (State.segRough_shows hvprev).kept (hkept.segStart hvnone)
  exact ⟨htime, hvalid, htimes, hrough⟩

theorem length_leBytes (n v : Nat) : (leBytes n v).length = n := by
  induction n generalizing v with
  | zero => rfl
  | succ n ih => simp [leBytes, ih]

theorem length_syncBytes (r : GauRec) (lost coarse : Bool) : (syncBytes r lost coarse).length = 15 := by
  simp [syncBytes, length_leBytes]

/-- A coder that owes a sync block, with room for it, codes the record as one (R234). -/
theorem State.coderRecord_sync {n : Nat} (hh : s.bit (F.GAU_HCFG.HEN n) = true) (hs : (s.coder n).sync = true)
    (hl : (s.coder n).buf.length + 15 ≤ 32) :
    s.coderRecord n r = ((s.updCoder n fun c => c.after true (s.bit (F.GAU_HCFG.COARSE n)) r.rec_ (s.recSpan n r.rec_)
      (syncBytes r (s.coder n).lost (s.bit (F.GAU_HCFG.COARSE n)))).set (F.GAU_HBYTES n) (s.get (F.GAU_HBYTES n) + 15)).setB
        (F.GAU_HSTAT.CACT n) (s.bit (F.GAU_HCFG.COARSE n)) := by
  simp [State.coderRecord, hh, hs, length_syncBytes, hl]

theorem State.segRecord_off (he : s.bit F.GAU_CFG.EN = false) :
    s.segRecord r = s.updGau fun g => { g with seg := none, segBad := false, prevT := [], lastPos := none } := by
  simp [State.segRecord, he]

theorem State.coder_updCoder (s : State) (n : Fin 4) (f : Coder → Coder) : (s.updCoder n f).coder n = f (s.coder n) :=
  vget_vupd_self s.gau.coders n.isLt f Coder.reset

theorem State.coder_set (s : State) (f : Fld) (v n : Nat) : (s.set f v).coder n = s.coder n := (rfl)

/-- A sync block stands in the buffer and is counted (R233 to R235). -/
theorem State.coderRecord_sync_shows (n : Fin 4) (hh : s.bit (F.GAU_HCFG.HEN n) = true) (hs : (s.coder n).sync = true)
    (hl : (s.coder n).buf.length + 15 ≤ 32) :
    ((s.coderRecord n r).coder n).buf = (s.coder n).buf ++ syncBytes r (s.coder n).lost (s.bit (F.GAU_HCFG.COARSE n))
      ∧ ((s.coderRecord n r).coder n).sync = false ∧ ((s.coderRecord n r).coder n).since = 1
      ∧ (s.coderRecord n r).get (F.GAU_HBYTES n) = (s.get (F.GAU_HBYTES n) + 15) % 2 ^ (F.GAU_HBYTES n).len
      ∧ (s.coderRecord n r).bit (F.GAU_HSTAT.CACT n) = s.bit (F.GAU_HCFG.COARSE n) := by
  have hne : (F.GAU_HBYTES n).addr ≠ (F.GAU_HSTAT.CACT n).addr := by
    simp only [F.GAU_HBYTES, F.GAU_HSTAT.CACT, R.GAU_HBYTES, R.GAU_HSTAT]
    omega
  rw [State.coderRecord_sync hh hs hl]
  have hcoder (f : Coder → Coder) (v : Nat) (b : Bool) :
      (((s.updCoder n f).set (F.GAU_HBYTES n) v).setB (F.GAU_HSTAT.CACT n) b).coder n = f (s.coder n) := by
    rw [State.setB, State.coder_set, State.coder_set, State.coder_updCoder]
  rw [hcoder]
  refine ⟨rfl, rfl, rfl, ?_, State.bit_setB_self _ _ (show 12 + 1 ≤ 20 by decide) (show 0 < 1 by decide) _⟩
  rw [State.setB, State.get_set_addr _ _ _ hne, State.get_set_self _ _ (show 0 + 20 ≤ 20 by decide)]

end

/-! ### A tread 0 and the threshold (R227, R228) -/

theorem exec_gaugeTreadZero_head {n : Nat} {rest : List GauItem} (hu : s.islandUp .memory = true) (hb : s.blockFree 11 = true)
    (hi : s.gau.inbound = .zero n :: rest) (he : s.bit F.GAU_CFG.EN = true) (hn : n = s.get F.GAU_CFG.TRK) :
    exec .gaugeTreadZero s = .next (s.onPath rest).gauZero := by
  have hb' : (s.onPath rest).blockFree 11 = true := hb
  have he' : (s.onPath rest).bit F.GAU_CFG.EN = true := he
  have hn' : n = (s.onPath rest).get F.GAU_CFG.TRK := hn
  have htake : (s.updGau fun g => { g with inbound := g.inbound.erase (.zero n) }) = s.onPath rest := by
    simp only [State.onPath, State.updGau, hi, List.erase_cons_head]
  change execGaugeTreadZero s = _
  simp [execGaugeTreadZero, hu, hi, gauFirst, GauItem.isZero, htake, hb', he', ← hn']

/-- A block of cycles begins with no candidate counted in any segment. -/
def State.blockBegun (s : State) : State :=
  (s.each (List.range 16) fun s c => s.set (F.GAU_MF.BLKCNT c) 0).updGau fun g => { g with mfHit := 0 }

/-- The cycle is counted, and after MFWIN of them a block begins. -/
def State.cycleCounted (s : State) : State :=
  if max 1 (s.get F.GAU_MFCFG.MFWIN) ≤ s.get F.GAU_STAT.BLKCYC + 1 then s.blockBegun.set F.GAU_STAT.BLKCYC 0
  else s.set F.GAU_STAT.BLKCYC (s.get F.GAU_STAT.BLKCYC + 1)

/-- The candidates of the cycle are fed to the variable file, and their count begins again. -/
def State.cycleFed (s : State) : State :=
  (s.qvFeed 7 32 s.gau.cycCand true).updGau fun g => { g with cycCand := 0 }

/-- The threshold lookup is asked for; one that still runs is late. -/
def State.thresholdAsked (s : State) : State :=
  let u := if s.gau.lookup.isSome then s.evt F.GAU_STAT.THRLATE else s
  u.updGau fun g => { g with lookup := some ⟨u.snapshot, 3 * u.fclk, none⟩ }

theorem State.blockBegun_keeps (s : State) :
    s.blockBegun.gau.inbound = s.gau.inbound ∧ s.blockBegun.get F.GAU_MFCFG.MFEN = s.get F.GAU_MFCFG.MFEN := by
  have hset (u : State) (c : Nat) : (u.set (F.GAU_MF.BLKCNT c) 0).get F.GAU_MFCFG.MFEN = u.get F.GAU_MFCFG.MFEN :=
    State.get_set_addr _ _ _ (by simp only [F.GAU_MFCFG.MFEN, F.GAU_MF.BLKCNT, R.GAU_MFCFG, R.GAU_MF]; omega) _
  obtain ⟨hgau, hmfen⟩ := State.each_keeps (fun u => u.gau = s.gau ∧ u.get F.GAU_MFCFG.MFEN = s.get F.GAU_MFCFG.MFEN)
    (fun s c => s.set (F.GAU_MF.BLKCNT c) 0) (fun u c ⟨hg, hm⟩ => ⟨hg, (hset u c).trans hm⟩) (List.range 16) s ⟨rfl, rfl⟩
  constructor
  · rw [State.blockBegun, State.updGau_gau, hgau]
  · exact (State.get_of_regs (State.updGau_regs _ _) _).trans hmfen

theorem State.cycleCounted_shows (s : State) :
    s.cycleCounted.gau.inbound = s.gau.inbound ∧ s.cycleCounted.get F.GAU_MFCFG.MFEN = s.get F.GAU_MFCFG.MFEN
      ∧ s.cycleCounted.get F.GAU_STAT.BLKCYC
        = if max 1 (s.get F.GAU_MFCFG.MFWIN) ≤ s.get F.GAU_STAT.BLKCYC + 1 then 0 else s.get F.GAU_STAT.BLKCYC + 1 := by
  unfold State.cycleCounted
  split
  · obtain ⟨hinbound, hmfen⟩ := s.blockBegun_keeps
    refine ⟨hinbound, (State.get_set_addr _ _ _ (by decide) _).trans hmfen, ?_⟩
    rw [State.get_set_self _ _ (by decide)]
    rfl
  case isFalse hlt =>
    refine ⟨rfl, State.get_set_addr _ _ _ (by decide) _, ?_⟩
    have hwin : s.get F.GAU_MFCFG.MFWIN < 256 := s.get_lt F.GAU_MFCFG.MFWIN
    rw [State.get_set_self _ _ (by decide)]
    exact Nat.mod_eq_of_lt (show _ < 256 by omega)

/-- With no candidate in its MCLK, a tread 0 counts the cycle, feeds its candidates and asks for the threshold. -/
theorem State.gauZero_of_no_candidate (hc : s.candNow = none) (hm : s.bit F.GAU_MFCFG.MFEN = true) :
    s.gauZero = s.cycleCounted.cycleFed.thresholdAsked := by
  have hfed : s.cycleCounted.cycleFed.bit F.GAU_MFCFG.MFEN = true := by
    obtain ⟨-, hcounted, -⟩ := s.cycleCounted_shows
    have hget : s.cycleCounted.cycleFed.get F.GAU_MFCFG.MFEN = s.cycleCounted.get F.GAU_MFCFG.MFEN := (ChtKept.refl _).qvFeed.get
    rw [State.bit_eq_of_get (hget.trans hcounted), hm]
  have hundo : s.candUndo = s := by simp only [State.candUndo, hc]
  have hzero : s.gauZero = if s.cycleCounted.cycleFed.bit F.GAU_MFCFG.MFEN then s.cycleCounted.cycleFed.thresholdAsked
      else s.cycleCounted.cycleFed := by
    simp only [State.gauZero, hc, hundo]
    rfl
  rw [hzero, if_pos hfed]

theorem State.thresholdAsked_shows (s : State) :
    s.thresholdAsked.gau.inbound = s.gau.inbound ∧ s.thresholdAsked.gau.lookup.isSome = true
      ∧ s.thresholdAsked.gau.cycCand = s.gau.cycCand ∧ s.thresholdAsked.get F.GAU_STAT.BLKCYC = s.get F.GAU_STAT.BLKCYC := by
  unfold State.thresholdAsked
  dsimp only
  split
  · refine ⟨?_, rfl, ?_, ?_⟩
    · rw [State.updGau_gau, State.evt_gau]
    · rw [State.updGau_gau, State.evt_gau]
    · exact (State.get_of_regs (State.updGau_regs _ _) _).trans (State.get_evt_apart _ _ _ (by decide) (by decide))
  · exact ⟨rfl, rfl, rfl, rfl⟩

theorem State.gauZero_shows (hc : s.candNow = none) (hm : s.bit F.GAU_MFCFG.MFEN = true) :
    s.gauZero.gau.inbound = s.gau.inbound ∧ s.gauZero.gau.lookup.isSome = true ∧ s.gauZero.gau.cycCand = 0
      ∧ s.gauZero.get F.GAU_STAT.BLKCYC
        = if max 1 (s.get F.GAU_MFCFG.MFWIN) ≤ s.get F.GAU_STAT.BLKCYC + 1 then 0 else s.get F.GAU_STAT.BLKCYC + 1 := by
  obtain ⟨hinbound, -, hcyc⟩ := s.cycleCounted_shows
  obtain ⟨hask, hlook, hcand, hblk⟩ := s.cycleCounted.cycleFed.thresholdAsked_shows
  have hfeed := (ChtKept.refl s.cycleCounted).qvFeed (kind := 7) (idx := 32) (raw := s.cycleCounted.gau.cycCand) (shift := true)
  rw [State.gauZero_of_no_candidate hc hm]
  refine ⟨hask.trans ?_, hlook, hcand, hblk.trans (Eq.trans ?_ hcyc)⟩
  · exact (congrArg Gau.inbound hfeed.gau).trans hinbound
  · exact hfeed.get

/-- A threshold lookup that the unit has accepted ends after its time, when nothing else waits for the unit. -/
theorem exec_thresholdLookupDone_served {a : Nat} {l : LowLook} (hg : s.gauUp = true) (hu : s.chtUp = true)
    (hk : s.gau.lookup = some l) (ha : l.acc = some a) (hf : s.lookFirst = none) (hl : s.lowFirst = none)
    (hd : a + s.lookCost (s.get F.GAU_MFCFG.MFCHART) l.snap ≤ 3 * s.fclk) :
    exec .thresholdLookupDone s = .next (s.thrEnd l.snap) := by
  change execThresholdLookupDone s = _
  simp [execThresholdLookupDone, hg, hu, State.lookAccept_of_none hf hl, hk, ha, hd]

/-- The chart's value is the threshold. -/
theorem State.thrEnd_takes {u : State} {snap : List Int} {l : Lookup}
    (h : s.chartLookup .chart (s.get F.GAU_MFCFG.MFCHART) snap = (u, some l)) :
    (s.thrEnd snap).get F.GAU_MFTHR = toW 20 l.val ∧ (s.thrEnd snap).gau.lookup = none := by
  have hend : s.thrEnd snap = (u.updGau fun g => { g with lookup := none }).thrSet (toW 20 l.val) := by
    simp only [State.thrEnd, h]
  rw [hend]
  constructor
  · rw [State.thrSet, State.get_set_self _ _ (by decide)]
    exact toW_mod _
  · rw [State.thrSet, State.set_gau]
    rfl

/-! ### Angle waveform outputs (R236 to R238) -/

/-- The table of output `a` stands whole in hall `h` at offset `o`, in a powered hall of the gauge's, and no word holds an error. -/
structure TableStands (a : Fin 2) (h : Fin 15) (o : Nat) (s : State) : Prop where
  tab : vget s.gau.awoTab a none = some (h.val, o)
  aligned : o % 8 = 0
  fits : o + 2048 ≤ 524288
  powered : s.bit (F.HAL_OWN.PWR h) = true
  owner : s.get (F.HAL_OWN.OWNER h) = 5
  clean : s.hallErr = []

/-- Value `i` of the table at offset `o` of hall `h`. -/
def State.tableValue (s : State) (h o i : Nat) : Int := sgn 16 (leNat (s.hallBytes (524288 * h + o + 2 * (i % 1024)) 2))

section

variable {a : Fin 2} {h : Fin 15} {o : Nat}

/-- A read of the table is one word of port A (R297, R298). -/
theorem TableStands.awoVal (ht : TableStands a h o s) (i : Nat) : s.awoVal a i = (s, s.tableValue h o i, true) := by
  obtain ⟨htab, haligned, hfits, hpowered, howner, hclean⟩ := ht
  have hhall : (524288 * h.val + o + 2 * (i % 1024)) / 524288 = h := by omega
  have hhigh : ¬ 16 ≤ h.val := by omega
  have hport : s.hallPort .gauge (524288 * h + o + 2 * (i % 1024)) 2 false = some false := by
    simp [State.hallPort, State.ownsHall, hhall, hhigh, hpowered, howner]
  have hword : min 2 (8 - (524288 * h.val + o + 2 * (i % 1024)) % 8) = 2 := by omega
  have hop : s.hallOp .gauge (524288 * h + o + 2 * (i % 1024)) 2 none 1
      = (s, s.hallBytes (524288 * h + o + 2 * (i % 1024)) 2, .ok) := by
    simp [State.hallOp, hport, hword, State.hallWord, hclean, errGet]
  simp [State.awoVal, htab, hop, State.tableValue]

/-- A move of the index reaches GAU_AIDX and the note of the last move. -/
structure IndexMoved (a : Fin 2) (idx : Nat) (s t : State) : Prop where
  reg : ∀ b, b ≠ R.GAU_AIDX a → t.reg b = s.reg b
  index : t.get (F.GAU_AIDX a) = idx % 1024
  halls : t.halls = s.halls
  hallErr : t.hallErr = s.hallErr
  awoTab : t.gau.awoTab = s.gau.awoTab
  awoT : t.gau.awoT = s.gau.awoT

theorem State.awoMove_moves (s : State) (a : Fin 2) (idx : Nat) : IndexMoved a idx s (s.awoMove a idx) := by
  have hself : (s.set (F.GAU_AIDX a) idx).get (F.GAU_AIDX a) = idx % 1024 := State.get_set_self _ _ (show 0 + 10 ≤ 20 by decide) _
  have hset : IndexMoved a idx s (s.set (F.GAU_AIDX a) idx) := ⟨fun b hb => State.reg_set _ _ _ b hb, hself, rfl, rfl, rfl, rfl⟩
  unfold State.awoMove
  dsimp only
  split
  · exact hset
  · exact ⟨fun b hb => (State.reg_updGau _ _ b).trans (hset.reg b hb), (State.get_of_regs (State.updGau_regs _ _) _).trans hself,
      rfl, rfl, rfl, rfl⟩

theorem TableStands.moved {idx : Nat} (ht : TableStands a h o s) (hm : IndexMoved a idx s t) : TableStands a h o t := by
  obtain ⟨htab, haligned, hfits, hpowered, howner, hclean⟩ := ht
  have hown : t.reg (R.HAL_OWN h) = s.reg (R.HAL_OWN h) := hm.reg _ (by simp only [R.HAL_OWN, R.GAU_AIDX]; omega)
  exact ⟨hm.awoTab ▸ htab, haligned, hfits, (State.bit_eq_of_get (congrArg (fldGet _) hown)).trans hpowered,
    (congrArg (fldGet _) hown).trans howner, hm.hallErr.trans hclean⟩

/-- The time of an evaluation is noted. -/
def State.awoNoted (s : State) (a : Nat) : State := s.updGau fun g => { g with awoT := vupd g.awoT a fun _ => s.fclk }

theorem State.awoT_awoNoted (s : State) (a : Fin 2) : vget (s.awoNoted a).gau.awoT a 0 = s.fclk :=
  vget_vupd_self s.gau.awoT a.isLt _ 0

theorem TableStands.noted (ht : TableStands a h o s) : TableStands a h o (s.awoNoted a) := by
  obtain ⟨htab, haligned, hfits, hpowered, howner, hclean⟩ := ht
  exact ⟨htab, haligned, hfits, hpowered, howner, hclean⟩

/-- What an evaluation at index `idx` and remainder `rem` gives (R236): the table's value, or with INTERP the interpolated one. -/
def State.awoY (s : State) (a h o : Nat) (idx rem : Nat) : Int :=
  if s.bit (F.GAU_ACFG.INTERP a) then
    s.tableValue h o idx + (s.tableValue h o (idx + 1) - s.tableValue h o idx) * rem / s.cycLen (s.get (F.GAU_ACFG.ATRK a))
  else s.tableValue h o idx

theorem IndexMoved.tableValue {idx : Nat} (hm : IndexMoved a idx s t) (h o i : Nat) : t.tableValue h o i = s.tableValue h o i := by
  simp only [State.tableValue, State.hallBytes, State.hallByte, hm.halls]

theorem IndexMoved.acfg {idx : Nat} (hm : IndexMoved a idx s t) {f : Fld} (hf : f.addr = R.GAU_ACFG a) : t.get f = s.get f :=
  congrArg (fldGet f) (hm.reg _ (by simp only [hf, R.GAU_ACFG, R.GAU_AIDX]; omega))

theorem IndexMoved.awoY {idx : Nat} (hm : IndexMoved a idx s t) (h o i rem : Nat) : t.awoY a h o i rem = s.awoY a h o i rem := by
  have hatrk : t.get (F.GAU_ACFG.ATRK a) = s.get (F.GAU_ACFG.ATRK a) := hm.acfg rfl
  have hinterp : t.bit (F.GAU_ACFG.INTERP a) = s.bit (F.GAU_ACFG.INTERP a) := State.bit_eq_of_get (hm.acfg rfl)
  have hlen : t.cycLen (s.get (F.GAU_ACFG.ATRK a)) = s.cycLen (s.get (F.GAU_ACFG.ATRK a)) := by
    have htrk : s.get (F.GAU_ACFG.ATRK a) < 4 := s.get_lt (F.GAU_ACFG.ATRK a)
    exact congrArg (fldGet _ · + 1) (hm.reg _ (by simp only [F.STAIR_LEN, R.STAIR_LEN, R.GAU_AIDX]; omega))
  simp only [State.awoY, hm.tableValue, hatrk, hinterp, hlen]

/-- An evaluation from index `old` to `idx`, once the index has moved. -/
def State.awoRead (s : State) (a old idx rem : Nat) : State :=
  let r0 := s.awoVal a idx
  let r1 := if s.bit (F.GAU_ACFG.INTERP a) then r0.1.awoVal a (idx + 1) else (r0.1, r0.2.1, true)
  if r0.2.2 && r1.2.2 then
    r1.1.awoTake a old idx (r0.2.1 + (r1.2.1 - r0.2.1) * rem / s.cycLen (s.get (F.GAU_ACFG.ATRK a)))
  else (((r1.1.evt F.GAU_STAT.ECC).raise 311).set (F.GAU_AOUT.VALID a) 0).updGau fun g => { g with awoBad := vupd g.awoBad a fun _ => true }

theorem State.awoEval_at {idx rem : Nat} (hi : s.awoIdx a = (idx, rem)) :
    s.awoEval a = ((s.awoNoted a).awoMove a idx).awoRead a (s.get (F.GAU_AIDX a)) idx rem := by
  simp only [State.awoEval, hi]
  rfl

/-- An evaluation whose table stands takes its value. -/
theorem TableStands.awoEval (ht : TableStands a h o s) :
    s.awoEval a = ((s.awoNoted a).awoMove a (s.awoIdx a).1).awoTake a (s.get (F.GAU_AIDX a)) (s.awoIdx a).1
      (s.awoY a h o (s.awoIdx a).1 (s.awoIdx a).2) := by
  obtain ⟨idx, rem, hi⟩ : ∃ idx rem, s.awoIdx a = (idx, rem) := ⟨_, _, rfl⟩
  have hm := (s.awoNoted a).awoMove_moves a idx
  have hval := fun i => (ht.noted.moved hm).awoVal i
  have hy : ((s.awoNoted a).awoMove a idx).awoY a h o idx rem = s.awoY a h o idx rem := hm.awoY h o idx rem
  rw [State.awoEval_at hi, hi, ← hy]
  generalize (s.awoNoted a).awoMove a idx = u at hval ⊢
  cases hinterp : u.bit (F.GAU_ACFG.INTERP a) with
  | true => simp [State.awoRead, State.awoY, hval, hinterp]
  | false => simp [State.awoRead, State.awoY, hval, hinterp]

theorem toW_lt (w : Nat) (x : Int) : toW w x < 2 ^ w := by
  have hpos : (0 : Int) < (2 ^ w : Nat) := by exact_mod_cast Nat.two_pow_pos w
  have hlt := Int.emod_lt_of_pos x hpos
  have hge := Int.emod_nonneg x hpos.ne'
  unfold toW
  omega

/-- An evaluation shows its value, VALID and the index, whatever of it goes into a frame (R237, R239). -/
theorem State.awoTake_shows (s : State) (a : Fin 2) (old idx : Nat) (y : Int) :
    (s.awoTake a old idx y).bit (F.GAU_AOUT.VALID a) = true ∧ (s.awoTake a old idx y).get (F.GAU_AOUT.Y a) = toW 16 y
      ∧ (s.awoTake a old idx y).get (F.GAU_AIDX a) = s.get (F.GAU_AIDX a) ∧ (s.awoTake a old idx y).gau.awoT = s.gau.awoT := by
  have hregs : (s.awoTake a old idx y).regs = ((s.set (F.GAU_AOUT.Y a) (toW 16 y)).set (F.GAU_AOUT.VALID a) 1).regs := by
    unfold State.awoTake
    dsimp only
    split
    · rfl
    · rfl
  have hne : (F.GAU_AIDX a).addr ≠ R.GAU_AOUT a := by
    simp only [F.GAU_AIDX, R.GAU_AIDX, R.GAU_AOUT]
    omega
  refine ⟨?_, ?_, ?_, ?_⟩
  · exact (State.bit_eq_of_get (State.get_of_regs hregs _)).trans
      (State.bit_set_one _ _ (show 16 + 1 ≤ 20 by decide) (show 0 < 1 by decide))
  · rw [State.get_of_regs hregs, State.get_set_disj _ (F.GAU_AOUT.VALID a) (F.GAU_AOUT.Y a) rfl (show 16 + 1 ≤ 20 by decide)
      (.inr (show 0 + 16 ≤ 16 by decide)), State.get_set_self _ _ (show 0 + 16 ≤ 20 by decide)]
    exact Nat.mod_eq_of_lt (toW_lt 16 y)
  · rw [State.get_of_regs hregs, State.get_set_addr _ _ _ hne, State.get_set_addr _ _ _ hne]
  · unfold State.awoTake
    dsimp only
    split
    · rw [State.updGau_gau, State.updGau_gau, State.set_gau, State.set_gau]
    · rw [State.updGau_gau, State.set_gau, State.set_gau]

/-- An evaluation of an output whose table stands. -/
theorem TableStands.awoEval_shows (ht : TableStands a h o s) :
    (s.awoEval a).bit (F.GAU_AOUT.VALID a) = true ∧ (s.awoEval a).get (F.GAU_AIDX a) = (s.awoIdx a).1 % 1024
      ∧ vget (s.awoEval a).gau.awoT a 0 = s.fclk
      ∧ (s.awoEval a).get (F.GAU_AOUT.Y a) = toW 16 (s.awoY a h o (s.awoIdx a).1 (s.awoIdx a).2) := by
  have hm := (s.awoNoted a).awoMove_moves a (s.awoIdx a).1
  obtain ⟨hvalid, hy, hidx, htime⟩ := ((s.awoNoted a).awoMove a (s.awoIdx a).1).awoTake_shows a (s.get (F.GAU_AIDX a)) (s.awoIdx a).1
    (s.awoY a h o (s.awoIdx a).1 (s.awoIdx a).2)
  rw [ht.awoEval]
  refine ⟨hvalid, hidx.trans hm.index, ?_, hy⟩
  rw [htime, hm.awoT, State.awoT_awoNoted]

/-- A local output in CYCLE_SYNC whose evaluation is due after a move of the word, with no section of its own to take effect. -/
theorem exec_awoWordArrive_stale (hu : s.gauUp = true) (hr : s.bit (F.GAU_ACFG.REMOTE a) = false) (hl : s.awoLive a = true)
    (hs : s.awoStale a = true) (hh : ∀ e ∈ s.wvl.hot, ¬ (e.1 = 0x59 ∧ e.2.1 = a.val)) :
    exec (.awoWordArrive a) s = .next (s.awoEval a) := by
  have hhot : s.hotTake (fun e => e.1 = 0x59 && e.2.1 = a.val) = s := by
    have hnone : (s.wvl.hot.filter fun e => e.1 = 0x59 && e.2.1 = a.val) = [] := by
      simpa [List.filter_eq_nil_iff] using hh
    simp [State.hotTake, hnone]
  change execAwoWordArrive a s = _
  simp [execAwoWordArrive, State.awoLocal, hu, hr, hl, hs, hhot]

theorem exec_awoInterpRefresh_due (hu : s.gauUp = true) (hr : s.bit (F.GAU_ACFG.REMOTE a) = false) (hl : s.awoLive a = true)
    (hi : s.bit (F.GAU_ACFG.INTERP a) = true) (hd : 256 ≤ 3 * (s.fclk - vget s.gau.awoT a 0)) :
    exec (.awoInterpRefresh a) s = .next (s.awoEval a) := by
  change execAwoInterpRefresh a s = _
  simp [execAwoInterpRefresh, State.awoLocal, hu, hr, hl, hi, hd]

end

/-! ### Streams and the carrier (R237, R240, R241) -/

/-- A frame stands in its slot. -/
def State.slotTaken (s : State) (sl y : Nat) : State :=
  ((s.set (F.GAU_SRX.VALUE sl) y).set (F.GAU_SRX.FRESH sl) 1).updGau fun g => { g with srxT := vupd g.srxT sl fun _ => s.fclk }

theorem exec_streamReceive_cons {sl y : Nat} {rest : List (Nat × Nat)} (hu : s.islandUp .memory = true) (hb : s.blockFree 11 = true)
    (hr : s.gau.rx = (sl, y) :: rest) : exec .streamReceive s = .next ((s.updGau fun g => { g with rx := rest }).slotTaken sl y) := by
  have hb' : (s.updGau fun g => { g with rx := rest }).blockFree 11 = true := hb
  change execStreamReceive s = _
  simp [execStreamReceive, hu, hr, hb', State.slotTaken]

theorem State.slotTaken_shows (s : State) (sl : Fin 8) (y : Nat) :
    (s.slotTaken sl y).get (F.GAU_SRX.VALUE sl) = y % 65536 ∧ (s.slotTaken sl y).bit (F.GAU_SRX.FRESH sl) = true
      ∧ vget (s.slotTaken sl y).gau.srxT sl 0 = s.fclk ∧ (s.slotTaken sl y).gau.rx = s.gau.rx := by
  have hregs : (s.slotTaken sl y).regs = ((s.set (F.GAU_SRX.VALUE sl) y).set (F.GAU_SRX.FRESH sl) 1).regs := State.updGau_regs _ _
  have hgau : (s.slotTaken sl y).gau = { s.gau with srxT := vupd s.gau.srxT sl fun _ => s.fclk } := by
    rw [State.slotTaken, State.updGau_gau, State.set_gau, State.set_gau]
  rw [hgau]
  refine ⟨?_, ?_, vget_vupd_self s.gau.srxT sl.isLt _ 0, rfl⟩
  · rw [State.get_of_regs hregs, State.get_set_disj _ (F.GAU_SRX.FRESH sl) (F.GAU_SRX.VALUE sl) rfl (show 16 + 1 ≤ 20 by decide)
      (.inr (show 0 + 16 ≤ 16 by decide)), State.get_set_self _ _ (show 0 + 16 ≤ 20 by decide)]
    rfl
  · exact (State.bit_eq_of_get (State.get_of_regs hregs _)).trans
      (State.bit_set_one _ _ (show 16 + 1 ≤ 20 by decide) (show 0 < 1 by decide))

/-- An output that takes a slot shows its frame (R237). -/
theorem State.awoOut_remote {a sl : Nat} (ha : s.bit (F.GAU_ACFG.AEN a) = true) (hr : s.bit (F.GAU_ACFG.REMOTE a) = true)
    (hs : s.get (F.GAU_ACFG.RXSLOT a) = sl) (hf : s.bit (F.GAU_SRX.FRESH sl) = true) :
    s.awoOut a = (s.get (F.GAU_SRX.VALUE sl), true) := by
  have hlive : s.awoLive a = true := by simp [State.awoLive, ha, hr, hs, hf]
  simp [State.awoOut, hlive, hr, hs]

/-- A frame leaves the configuration of the outputs as it is. -/
theorem State.slotTaken_acfg (s : State) (sl : Fin 8) (y : Nat) {a : Nat} (ha : a < 2) {f : Fld} (hf : f.addr = R.GAU_ACFG a) :
    (s.slotTaken sl y).get f = s.get f := by
  have hne : f.addr ≠ R.GAU_SRX sl := by
    simp only [hf, R.GAU_ACFG, R.GAU_SRX]
    omega
  exact (State.get_of_regs (State.updGau_regs _ _) f).trans ((State.get_set_addr _ _ _ hne _).trans (State.get_set_addr _ _ _ hne _))

theorem exec_streamSlotTimeout_due {sl : Fin 8} (hu : s.gauUp = true) (hf : s.bit (F.GAU_SRX.FRESH sl) = true)
    (hd : vget s.gau.srxT sl 0 + 4000 * max 1 (s.get F.GAU_SRXTO) ≤ s.fclk)
    (hn : s.gau.rx.head?.map (·.1) = some sl.val → s.comes (fun c => c = .streamReceive) = false) :
    exec (.streamSlotTimeout sl) s = .next ((s.set (F.GAU_SRX.FRESH sl) 0).raise 311) := by
  change execStreamSlotTimeout sl s = _
  have hwait : (!(s.gau.rx.head?.map (·.1) = some sl.val && s.comes (fun c => c = .streamReceive))) = true := by
    by_cases hhead : s.gau.rx.head?.map (·.1) = some sl.val
    · simp [hn hhead]
    · simp [hhead]
  simp only [execStreamSlotTimeout, hu, hf, hd, hwait, decide_true, Bool.and_self, if_true]

/-- The slot is not FRESH any more and keeps its value, whatever the raise of its source does. -/
theorem State.slotStale_shows (s : State) (sl : Fin 8) :
    ((s.set (F.GAU_SRX.FRESH sl) 0).raise 311).bit (F.GAU_SRX.FRESH sl) = false
      ∧ ((s.set (F.GAU_SRX.FRESH sl) 0).raise 311).get (F.GAU_SRX.VALUE sl) = s.get (F.GAU_SRX.VALUE sl) := by
  have hbelow : R.GAU_SRX sl < R.IRT_STAT := by
    simp only [R.GAU_SRX, R.IRT_STAT]
    omega
  constructor
  · refine State.bit_of_get_zero ?_
    rw [State.get_raise_below _ _ hbelow, State.get_set_self _ _ (show 16 + 1 ≤ 20 by decide)]
    rfl
  · rw [State.get_raise_below _ _ hbelow, State.get_set_disj _ (F.GAU_SRX.FRESH sl) (F.GAU_SRX.VALUE sl) rfl
      (show 16 + 1 ≤ 20 by decide) (.inr (show 0 + 16 ≤ 16 by decide))]

/-- The carrier at count 0 latches its duty. -/
theorem exec_awoPwmPeriod_due {a : Fin 2} (hu : s.islandUp .angle = true) (hp : s.awoPer a ≠ 0)
    (hd : vget s.gau.phase a 0 + s.awoPer a ≤ s.fclk) :
    exec (.awoPwmPeriod a) s = .next (s.updGau fun g =>
      { g with duty := vupd g.duty a fun _ => ((sgn 16 (s.awoOut a).1 + 32768) * s.awoPer a / 65536).toNat
               phase := vupd g.phase a fun _ => s.fclk }) := by
  change execAwoPwmPeriod a s = _
  simp [execAwoPwmPeriod, hu, hp, hd]

/-- Settles O19: a record at a segment's end shows it through all that the gauge makes of it afterwards, an evaluation reads its table in
one word of port A, and the other commands are the updates that their rules name. -/
theorem gaugeSegmentsCodersAndOutputs : Obligations.GaugeSegmentsCodersAndOutputs := by
  unfold Obligations.GaugeSegmentsCodersAndOutputs
  refine ⟨fun s r rest c x hu hb hi he ht hc hf hh hs hl hp hk => ?_,
    fun s r rest c x t1 t2 hu hb hi he ht hc hf hs hbad hp hnone hx h0 hprev => ?_,
    fun s r rest n hu hb hi he hn hh hs hl => ?_, fun s n rest hu hb hi hc he hn hm => ?_,
    fun s a l p hg hu hk ha hf hl hp hd hread => ?_, fun s a h o hu hr hl hi hs hh htab ho hfit hpwr hown hclean => ?_,
    fun s a h o hu hr hl hi hd htab ho hfit hpwr hown hclean => ?_, fun s sl y rest hu hb hr => ?_, fun s sl hu hf hd hn => ?_,
    fun s a hu hp hd => ?_⟩
  · have hoff (u : State) (hr : u.regs = s.regs) : u.coderRecord r.trk r = u :=
      State.coderRecord_off ((State.bit_eq_of_get (State.get_of_regs hr _)).trans hh)
    refine ⟨_, exec_gaugeRecordArrive_head hu hb hi, ?_⟩
    rw [State.segRecord_within (s := s.onPath rest) he ht hc hf hs hl hp hk, hoff]
    · exact ⟨rfl, rfl, rfl, rfl⟩
    · rfl
  · obtain ⟨htime, hvalid, htimes, hrough⟩ := (State.segRecord_ends (s := s.onPath rest) he ht hc hf hs hbad hp hnone hx h0 hprev).kept
      (SegKept.refl _).coderRecord
    exact ⟨_, exec_gaugeRecordArrive_head hu hb hi, htime, hvalid, htimes, hrough⟩
  · refine ⟨_, exec_gaugeRecordArrive_head hu hb hi, ?_⟩
    rw [State.segRecord_off (s := s.onPath rest) he, hn]
    exact State.coderRecord_sync_shows n hh hs hl
  · exact ⟨_, exec_gaugeTreadZero_head hu hb hi he hn, State.gauZero_shows (s := s.onPath rest) hc hm⟩
  · exact ⟨_, exec_thresholdLookupDone_served hg hu hk ha hf hl hd, State.thrEnd_takes (State.chartLookup_read hp hread)⟩
  · obtain ⟨hvalid, hidx, htime, hy⟩ := TableStands.awoEval_shows ⟨htab, ho, hfit, hpwr, hown, hclean⟩
    rw [State.awoY, hi] at hy
    exact ⟨_, exec_awoWordArrive_stale hu hr hl hs hh, hvalid, hidx, htime, hy⟩
  · obtain ⟨hvalid, hidx, htime, hy⟩ := TableStands.awoEval_shows ⟨htab, ho, hfit, hpwr, hown, hclean⟩
    rw [State.awoY, hi] at hy
    exact ⟨_, exec_awoInterpRefresh_due hu hr hl hi hd, hvalid, hidx, htime, hy⟩
  · obtain ⟨hvalue, hfresh, htime, hrx⟩ := (s.updGau fun g => { g with rx := rest }).slotTaken_shows sl y
    refine ⟨_, exec_streamReceive_cons hu hb hr, hvalue, hfresh, htime, hrx, fun a ha hen hrem hslot => ?_⟩
    have hcfg {f : Fld} (hf : f.addr = R.GAU_ACFG a) := (s.updGau fun g => { g with rx := rest }).slotTaken_acfg sl y ha hf
    rw [State.awoOut_remote ((State.bit_eq_of_get (hcfg rfl)).trans hen) ((State.bit_eq_of_get (hcfg rfl)).trans hrem)
      ((hcfg rfl).trans hslot) hfresh, hvalue]
  · exact ⟨_, exec_streamSlotTimeout_due hu hf hd hn, s.slotStale_shows sl⟩
  · exact ⟨_, exec_awoPwmPeriod_due hu hp hd, vget_vupd_self s.gau.phase a.isLt _ 0, vget_vupd_self s.gau.duty a.isLt _ 0, rfl⟩

end Sys2Proof.Machine
end

section
/-! SUPPORT. What the commands of the needles leave alone: one lemma per operation (O39). -/

namespace Sys2Proof.Machine

variable {s₀ s t : State}

/-! ### The BAT gate of a bank, and interrupt sources, beside the needles -/

/-- The registers of INJ and IRT (Table 1.4). -/
abbrev InjReg (a : Nat) : Prop := (0x3000 ≤ a ∧ a < 0x3400) ∨ (0x6400 ≤ a ∧ a < 0x6800)

/-- A state with everything blanked that an injector bank may change. -/
def State.sansInj (s : State) : State :=
  { s with regs := [], inj := Inj.reset, por := Por.reset, marks := [] }

/-- What a raise or a bank’s BAT gate leaves as it was, from a state `s₀` to a later state `s`: the needles and their registers among it. -/
structure InjKept (s₀ s : State) : Prop where
  sans : s.sansInj = s₀.sansInj
  reg : ∀ a, ¬ InjReg a → s.reg a = s₀.reg a

theorem InjKept.refl (s : State) : InjKept s s := ⟨rfl, fun _ _ => rfl⟩

theorem InjKept.trans {s t u : State} (h : InjKept s t) (h' : InjKept t u) : InjKept s u :=
  ⟨h'.sans.trans h.sans, fun a ha => (h'.reg a ha).trans (h.reg a ha)⟩

theorem InjKept.frame (h : InjKept s₀ s) (hs : t.sansInj = s.sansInj := by rfl) (hr : t.regs = s.regs := by rfl) : InjKept s₀ t :=
  h.trans ⟨hs, fun a _ => congrArg (cellGet resetOf · a) hr⟩

theorem InjKept.ite {c : Prop} {_ : Decidable c} (hs : InjKept s₀ s) (ht : InjKept s₀ t) : InjKept s₀ (if c then s else t) := by
  split
  · exact hs
  · exact ht

/-- `if c then f s else s`, in a chain of updates. -/
theorem InjKept.when {c : Prop} {_ : Decidable c} (h : InjKept s₀ s) (hf : InjKept s₀ s → InjKept s₀ t) :
    InjKept s₀ (if c then t else s) :=
  .ite (hf h) h

theorem InjKept.get (h : InjKept s₀ s) {f : Fld} (hf : ¬ InjReg f.addr) : s.get f = s₀.get f :=
  congrArg (fldGet f) (h.reg _ hf)

theorem InjKept.ndl (h : InjKept s₀ s) : s.ndl = s₀.ndl :=
  (congrArg State.ndl h.sans : s.sansInj.ndl = s₀.sansInj.ndl)

theorem InjKept.getNdl (h : InjKept s₀ s) (m : Nat) : s.getNdl m = s₀.getNdl m :=
  congrArg (vget · m Ndl.reset) h.ndl

theorem InjKept.nclk (h : InjKept s₀ s) : s.nclk = s₀.nclk :=
  (congrArg State.nclk h.sans : s.sansInj.nclk = s₀.sansInj.nclk)

theorem InjKept.set (h : InjKept s₀ s) {f : Fld} {v : Nat} (hf : InjReg f.addr := by decide) : InjKept s₀ (s.set f v) :=
  h.trans ⟨rfl, fun _ ha => s.reg_set f v _ fun e => ha (e ▸ hf)⟩

theorem InjKept.mark (h : InjKept s₀ s) {a : Nat} {g : Word → Word} : InjKept s₀ (s.mark a g) :=
  .ite h.frame h

theorem injReg_source {k : Nat} (hk : k < 320) : InjReg (R.IRT_SRC k) := by
  simp only [R.IRT_SRC]
  omega

theorem injReg_open {n : Nat} (hn : n < 16) : InjReg (R.INJ_OPEN n) := by
  simp only [R.INJ_OPEN]
  omega

theorem injReg_stat {n : Nat} (hn : n < 16) : InjReg (R.INJ_STAT n) := by
  simp only [R.INJ_STAT]
  omega

theorem InjKept.raise (h : InjKept s₀ s) {k : Nat} (hk : k < 320) : InjKept s₀ (s.raise k) :=
  .ite h <| .ite h.frame <| .ite h.mark.set (h.set (injReg_source hk))

theorem InjKept.raiseIf (h : InjKept s₀ s) {c : Bool} {k : Nat} (hk : k < 320) : InjKept s₀ (s.raiseIf c k) :=
  h.when (·.raise hk)

theorem InjKept.updBank (h : InjKept s₀ s) {b : Nat} {f : Bank → Bank} : InjKept s₀ (s.updBank b f) :=
  h.frame

theorem InjKept.bankOnTime (h : InjKept s₀ s) {b x on : Nat} (hb : b < 4) : InjKept s₀ (s.bankOnTime b x on) := by
  have hn : s.condInj b < 16 := s.condInj_lt hb
  unfold State.bankOnTime
  exact h.updBank.when fun h => ((h.set (injReg_open hn)).set (injReg_stat hn)).raiseIf (Nat.add_lt_add_left hn 208 |>.trans (by decide))

theorem InjKept.batEval (h : InjKept s₀ s) {b : Nat} (hb : b < 4) : InjKept s₀ (s.batEval b) :=
  .ite h (h.updBank.when (·.bankOnTime hb))

/-! ### What the commands of the needles keep -/

/-- The registers of WVL, INJ, BED, HOST and IRT (Table 1.4). -/
abbrev NdlReg (a : Nat) : Prop :=
  (0x800 ≤ a ∧ a < 0x1000) ∨ (0x3000 ≤ a ∧ a < 0x3400) ∨ (0x4000 ≤ a ∧ a < 0x4800) ∨ (0x6400 ≤ a ∧ a < 0x6800)

/-- A state with everything blanked that these commands may change. -/
def State.sansNdl (s : State) : State :=
  { s with regs := [], ndl := .replicate 16 Ndl.reset, inj := Inj.reset, por := Por.reset, rd := 0, marks := [] }

/-- What these commands leave as it was, from a state `s₀` to a later state `s`. -/
structure NdlKept (s₀ s : State) : Prop where
  sans : s.sansNdl = s₀.sansNdl
  reg : ∀ a, ¬ NdlReg a → s.reg a = s₀.reg a

theorem NdlKept.refl (s : State) : NdlKept s s := ⟨rfl, fun _ _ => rfl⟩

theorem NdlKept.trans {s t u : State} (h : NdlKept s t) (h' : NdlKept t u) : NdlKept s u :=
  ⟨h'.sans.trans h.sans, fun a ha => (h'.reg a ha).trans (h.reg a ha)⟩

/-- An update of the parts behind the registers. -/
theorem NdlKept.frame (h : NdlKept s₀ s) (hs : t.sansNdl = s.sansNdl := by rfl) (hr : t.regs = s.regs := by rfl) : NdlKept s₀ t :=
  h.trans ⟨hs, fun a _ => congrArg (cellGet resetOf · a) hr⟩

/-- What an injector bank or a raise does. -/
theorem NdlKept.inj (h : NdlKept s₀ s) (hi : InjKept s t) : NdlKept s₀ t :=
  h.trans ⟨(congrArg State.sansNdl hi.sans : t.sansInj.sansNdl = s.sansInj.sansNdl), fun a ha => hi.reg a fun hc => ha (by omega)⟩

theorem NdlKept.ite {c : Prop} {_ : Decidable c} (hs : NdlKept s₀ s) (ht : NdlKept s₀ t) : NdlKept s₀ (if c then s else t) := by
  split
  · exact hs
  · exact ht

/-- `if c then f s else s`, in a chain of updates. -/
theorem NdlKept.when {c : Prop} {_ : Decidable c} (h : NdlKept s₀ s) (hf : NdlKept s₀ s → NdlKept s₀ t) :
    NdlKept s₀ (if c then t else s) :=
  .ite (hf h) h

/-- `if c then f s else g s`, in a chain of updates. -/
theorem NdlKept.branch {c : Prop} {_ : Decidable c} {u : State} (h : NdlKept s₀ s) (hf : NdlKept s₀ s → NdlKept s₀ t)
    (hg : NdlKept s₀ s → NdlKept s₀ u) : NdlKept s₀ (if c then t else u) :=
  .ite (hf h) (hg h)

/-- A loop over needles, each of which exists. -/
theorem NdlKept.each {f : State → Nat → State} (h : NdlKept s₀ s)
    (hf : ∀ s n, n < 16 → NdlKept s₀ s → NdlKept s₀ (f s n)) : NdlKept s₀ (s.each (List.range 16) f) := by
  have hl : ∀ l : List Nat, (∀ n ∈ l, n < 16) → ∀ s, NdlKept s₀ s → NdlKept s₀ (s.each l f) := by
    intro l
    induction l with
    | nil => exact fun _ _ h => h
    | cons n l ih => exact fun hn s h => ih (fun k hk => hn k (.tail _ hk)) _ (hf s n (hn n (.head _)) h)
  exact hl _ (fun n hn => List.mem_range.1 hn) s h

/-- The frame as a statement writes it. -/
theorem NdlKept.eq_update (h : NdlKept s t) :
    t = { s with regs := t.regs, ndl := t.ndl, inj := t.inj, por := t.por, rd := t.rd, marks := t.marks } :=
  congrArg (fun u : State => { u with regs := t.regs, ndl := t.ndl, inj := t.inj, por := t.por, rd := t.rd, marks := t.marks }) h.sans

theorem NdlKept.regsIn (h : NdlKept s t) : RegsIn [(0x800, 0x1000), (0x3000, 0x3400), (0x4000, 0x4800), (0x6400, 0x6800)] s t :=
  fun a ha => h.reg a fun hc => ha (by simpa using hc)

/-! ### Registers, flags, findings -/

theorem NdlKept.setReg (h : NdlKept s₀ s) {a : Nat} {v : Word} (ha : NdlReg a := by decide) : NdlKept s₀ (s.setReg a v) :=
  h.trans ⟨rfl, fun b hb => s.reg_setReg_ne (a := a) (b := b) (fun e => hb (e ▸ ha)) v⟩

theorem NdlKept.set (h : NdlKept s₀ s) {f : Fld} {v : Nat} (hf : NdlReg f.addr := by decide) : NdlKept s₀ (s.set f v) :=
  h.setReg hf

theorem NdlKept.mark (h : NdlKept s₀ s) {a : Nat} {g : Word → Word} : NdlKept s₀ (s.mark a g) :=
  .ite h.frame h

theorem NdlKept.evt (h : NdlKept s₀ s) {f : Fld} (hf : NdlReg f.addr := by decide) : NdlKept s₀ (s.evt f) :=
  h.mark.set hf

theorem NdlKept.report (h : NdlKept s₀ s) {src det : Nat} : NdlKept s₀ (s.report src det) :=
  .ite h <| .ite h.frame h.frame

theorem NdlKept.writeCodes (h : NdlKept s₀ s) {src : Master} {a : Nat} {v : Word} (ha : NdlReg a) : NdlKept s₀ (s.writeCodes src a v) :=
  (h.setReg ha).when fun h => h.set.mark.set

/-- The registers of a needle, from NCFG on (Table 11.7). -/
theorem ndlReg_own {m i : Nat} (hm : m < 16) (hi : i < 16) : NdlReg (R.BED_NCFG m + i) := by
  simp only [R.BED_NCFG]
  omega

theorem NdlKept.setOwn (h : NdlKept s₀ s) {m i : Nat} {f : Fld} {v : Nat} (hm : m < 16) (hi : i < 16)
    (hf : f.addr = R.BED_NCFG m + i := by rfl) : NdlKept s₀ (s.set f v) :=
  h.set (hf ▸ ndlReg_own hm hi)

theorem NdlKept.updNdl (h : NdlKept s₀ s) {n : Nat} {f : Ndl → Ndl} : NdlKept s₀ (s.updNdl n f) :=
  h.frame

theorem NdlKept.raiseIf (h : NdlKept s₀ s) {c : Bool} {n : Nat} (hn : n < 16) : NdlKept s₀ (s.raiseIf c (240 + n)) :=
  h.inj ((InjKept.refl s).raiseIf (by omega))

theorem NdlKept.flagSet (h : NdlKept s₀ s) {n : Nat} (hn : n < 16) : NdlKept s₀ (s.flagSet n) :=
  .ite h (NdlKept.raiseIf h.mark.set hn)

theorem NdlKept.flagClear (h : NdlKept s₀ s) {n : Nat} : NdlKept s₀ (s.flagClear n) :=
  h.set

/-! ### Operations of a needle -/

section

variable {m : Fin 16}

theorem NdlKept.ndlPins (h : NdlKept s₀ s) {dirs : Bool} {v cnt : Nat} : NdlKept s₀ (s.ndlPins m dirs v cnt) :=
  h.updNdl.when fun h => h.inj ((InjKept.refl _).batEval (by omega))

theorem NdlKept.ndlDone (h : NdlKept s₀ s) {w pc : Nat} : NdlKept s₀ (s.ndlDone m w pc) :=
  ((h.setOwn (i := 3) m.isLt (by decide)).setOwn (i := 2) m.isLt (by decide)).updNdl

theorem NdlKept.ndlStall (h : NdlKept s₀ s) : NdlKept s₀ (s.ndlStall m) :=
  ((h.setOwn (i := 3) m.isLt (by decide)).setOwn (i := 2) m.isLt (by decide)).updNdl

theorem NdlKept.setU (h : NdlKept s₀ s) {v : Nat} : NdlKept s₀ (s.set (F.BED_NU m) v) := h.setOwn (i := 4) m.isLt (by decide)
theorem NdlKept.setV (h : NdlKept s₀ s) {v : Nat} : NdlKept s₀ (s.set (F.BED_NV m) v) := h.setOwn (i := 5) m.isLt (by decide)
theorem NdlKept.setSin (h : NdlKept s₀ s) {v : Nat} : NdlKept s₀ (s.set (F.BED_NSIN m) v) := h.setOwn (i := 6) m.isLt (by decide)
theorem NdlKept.setSout (h : NdlKept s₀ s) {v : Nat} : NdlKept s₀ (s.set (F.BED_NSOUT m) v) := h.setOwn (i := 7) m.isLt (by decide)

theorem NdlKept.ndlDest (h : NdlKept s₀ s) {code v cnt : Nat} {out : Bool} : NdlKept s₀ (s.ndlDest m code v cnt out).1 := by
  unfold State.ndlDest
  split
  · exact h.ndlPins
  · exact h.setU
  · exact h.setV
  · exact h.setSin.updNdl
  · exact .ite h h.setSout.updNdl
  · exact h.ndlPins
  · exact h
  · exact h

theorem NdlKept.ndlFlag (h : NdlKept s₀ s) {k : Nat} {on : Bool} (hk : k < 16) : NdlKept s₀ (s.ndlFlag k on) :=
  h.updNdl.branch (·.flagSet hk) (·.flagClear)

theorem NdlKept.ndlStart (h : NdlKept s₀ s) : NdlKept s₀ (s.ndlStart m) :=
  .ite ((h.updNdl (n := m)).setOwn (i := 3) m.isLt (by decide)).updNdl h

theorem NdlKept.ndlStop (h : NdlKept s₀ s) {cause : Nat} : NdlKept s₀ (s.ndlStop m cause) :=
  .ite h ((((h.updNdl (n := m)).setOwn (i := 3) m.isLt (by decide)).setOwn (i := 3) m.isLt (by decide)).setOwn (i := 2) m.isLt (by decide)).updNdl

theorem NdlKept.flagHost (h : NdlKept s₀ s) {n : Nat} {set : Bool} (hn : n < 16) : NdlKept s₀ (s.flagHost n set) := by
  unfold State.flagHost
  split
  · exact .ite (h.flagSet hn) h.flagClear
  · exact .ite h (h.updNdl.raiseIf hn)

theorem NdlKept.ndlTxWrite (h : NdlKept s₀ s) {v : Nat} : NdlKept s₀ (s.ndlTxWrite m v) :=
  .ite h.updNdl (h.evt (ndlReg_own (i := 10) m.isLt (by decide)))

theorem NdlKept.ndlRxRead (h : NdlKept s₀ s) : NdlKept s₀ (s.ndlRxRead m) := by
  unfold State.ndlRxRead
  split
  · exact (h.evt (ndlReg_own (i := 10) m.isLt (by decide))).frame
  · exact h.frame

theorem ndlReg_program (b : Fin 4) (k : Fin 64) : NdlReg (R.BED_PS b k) := by
  simp only [R.BED_PS]
  omega

theorem ndlReg_bedStat (b : Fin 4) : NdlReg (R.BED_STAT b) := by
  simp only [R.BED_STAT]
  omega

theorem NdlKept.storeWrite (h : NdlKept s₀ s) {b : Fin 4} {k : Fin 64} {src : Master} {v : Word} :
    NdlKept s₀ (s.storeWrite b k src v) :=
  .ite (h.writeCodes (ndlReg_program b k)) (h.evt (ndlReg_bedStat b))

/-! ### The commands -/

theorem NdlKept.execNeedleSet (h : NdlKept s₀ s) : GoesTo (execNeedleSet m s) (NdlKept s₀) := by
  refine ⟨_, rfl, .ite (.ndlDone (?_)) h⟩
  split
  · exact h.setU
  · exact h.setV
  · exact h.setU
  · exact h.setV

theorem NdlKept.execNeedleMov (h : NdlKept s₀ s) {np : BitVec 32} : GoesTo (execNeedleMov m np s) (NdlKept s₀) :=
  ⟨_, rfl, .ite h.ndlDest.ndlDone h⟩

theorem NdlKept.execNeedleJmp (h : NdlKept s₀ s) {np : BitVec 32} : GoesTo (execNeedleJmp m np s) (NdlKept s₀) := by
  refine ⟨_, rfl, .ite (.ndlDone (?_)) h⟩
  split
  · exact h
  · exact h
  · exact h
  · exact h.setU
  · exact h.setV
  · exact h
  · exact h
  · exact h

theorem NdlKept.execNeedleWait (h : NdlKept s₀ s) {np : BitVec 32} : GoesTo (execNeedleWait m np s) (NdlKept s₀) :=
  ⟨_, rfl, .ite (.ite h.ndlDone h.ndlStall) h⟩

theorem NdlKept.execNeedleIn (h : NdlKept s₀ s) {np : BitVec 32} : GoesTo (execNeedleIn m np s) (NdlKept s₀) :=
  ⟨_, rfl, .ite h.setSin.updNdl.ndlDone h⟩

theorem NdlKept.execNeedleOut (h : NdlKept s₀ s) : GoesTo (execNeedleOut m s) (NdlKept s₀) :=
  ⟨_, rfl, .ite (.ite h.ndlPins.ndlDone h.setSout.updNdl.ndlDest.ndlDone) h⟩

theorem NdlKept.execNeedlePush (h : NdlKept s₀ s) : GoesTo (execNeedlePush m s) (NdlKept s₀) :=
  ⟨_, rfl, .ite (.ite h.ndlStall
    (NdlKept.ite (h.evt (ndlReg_own (i := 10) m.isLt (by decide))) h.updNdl).setSin.updNdl.ndlDone) h⟩

theorem NdlKept.execNeedlePull (h : NdlKept s₀ s) : GoesTo (execNeedlePull m s) (NdlKept s₀) := by
  refine ⟨_, rfl, .ite ?_ h⟩
  split
  · exact .ite h.ndlStall h.ndlDone
  · exact h.setSout.updNdl.ndlDone

theorem NdlKept.execNeedleFlag (h : NdlKept s₀ s) : GoesTo (execNeedleFlag m s) (NdlKept s₀) := by
  have hk : s.ndlWord m / 16 % 16 < 16 := Nat.mod_lt _ (by decide)
  refine ⟨_, rfl, .ite ?_ h⟩
  dsimp only
  split
  · exact (h.ndlFlag hk).ndlDone
  · exact (h.ndlFlag hk).ndlDone
  · exact .ite (.ite h.ndlStall h.ndlDone) (h.ndlFlag hk).ndlStall.updNdl
  · exact .ite (.ite h.ndlDone h.ndlStall) (h.ndlFlag hk).ndlStall.updNdl

theorem NdlKept.execNeedleBadop (h : NdlKept s₀ s) : GoesTo (execNeedleBadop m s) (NdlKept s₀) :=
  ⟨_, rfl, .ite (h.evt (ndlReg_own (i := 3) m.isLt (by decide))).ndlDone h⟩

theorem NdlKept.execBedSyncStart (h : NdlKept s₀ s) {mask : BitVec 16} {src : Master} :
    GoesTo (execBedSyncStart mask src s) (NdlKept s₀) :=
  ⟨_, rfl, .ite (h.each fun _ n hn h => .ite (h.ndlStart (m := ⟨n, hn⟩)) h) h⟩

theorem NdlKept.execNeedlePcWrite (h : NdlKept s₀ s) {v : BitVec 6} : GoesTo (execNeedlePcWrite m v s) (NdlKept s₀) :=
  ⟨_, rfl, .ite (.ite (h.setOwn (i := 2) m.isLt (by decide)) h) h⟩

theorem NdlKept.execFlagClearWrite (h : NdlKept s₀ s) {mask : BitVec 16} : GoesTo (execFlagClearWrite mask s) (NdlKept s₀) :=
  ⟨_, rfl, .ite (h.each fun _ _ hn h => .ite (h.flagHost hn) h) h⟩

theorem NdlKept.execFlagSetWrite (h : NdlKept s₀ s) {mask : BitVec 16} : GoesTo (execFlagSetWrite mask s) (NdlKept s₀) :=
  ⟨_, rfl, .ite (h.each fun _ _ hn h => .ite (h.flagHost hn) h) h⟩

theorem NdlKept.execNeedleStallTimeout (h : NdlKept s₀ s) : GoesTo (execNeedleStallTimeout m s) (NdlKept s₀) :=
  ⟨_, rfl, .ite h.ndlStop.report h⟩

end

/-- A command of the family goes on, and leaves the rest as it was. -/
theorem NdlKept.exec (h : NdlKept s₀ s) {c : Instr} (hc : needleCommand c = true) : GoesTo (exec c s) (NdlKept s₀) := by
  unfold needleCommand at hc
  split at hc
  · exact h.execNeedleSet
  · exact h.execNeedleMov
  · exact h.execNeedleJmp
  · exact h.execNeedleWait
  · exact h.execNeedleIn
  · exact h.execNeedleOut
  · exact h.execNeedlePush
  · exact h.execNeedlePull
  · exact h.execNeedleFlag
  · exact h.execNeedleBadop
  · exact ⟨_, rfl, .ite h.ndlStart h⟩
  · exact ⟨_, rfl, .ite h.ndlStop h⟩
  · exact h.execBedSyncStart
  · exact h.execNeedlePcWrite
  · exact ⟨_, rfl, .ite h.ndlTxWrite h⟩
  · exact ⟨_, rfl, .ite h.ndlRxRead h⟩
  · exact ⟨_, rfl, .ite h.storeWrite h⟩
  · exact h.execFlagClearWrite
  · exact h.execFlagSetWrite
  · exact h.execNeedleStallTimeout
  · cases hc

/-- Settles O39: every operation that these commands are made of reaches the reject record, INJ, BED and IRT, the needles and the banks,
findings, the word read and the events of the clock at most. -/
theorem needleCommandsKeepTheRest : Obligations.NeedleCommandsKeepTheRest := by
  unfold Obligations.NeedleCommandsKeepTheRest
  intro c s hc
  obtain ⟨t, ht, hk⟩ := (NdlKept.refl s).exec hc
  exact ⟨t, ht, hk.eq_update, hk.regsIn⟩

end Sys2Proof.Machine
end

section
/-! SUPPORT. What the statement on the other needles does not rule out: a FLAG instruction, which acts on any needle’s flag and notes so at
that needle (R256, R268; against O49). -/

set_option Elab.async false

namespace Sys2Proof.Machine

/-- The part runs, and so does needle 0; the word at its PC is a FLAG instruction that sets flag 1. -/
def flagOfNeighbour : State :=
  { State.reset with
    regs := [(R.PCR_STAT, fldSet F.PCR_STAT.PLLA_LOCK 0 1), (R.BED_PS 0 0, 9 * 65536 + 16384 + 1 * 16), (R.BED_NSTAT 0, 1)]
    pcr := { Pcr.reset with held := none } }

/-- The instruction is noted at needle 1. -/
theorem flagOfNeighbour_noted : ∃ t, exec (.needleFlag 0) flagOfNeighbour = .next t ∧ (t.getNdl 1).flg.isSome = true :=
  ⟨_, rfl, by decide +kernel⟩

/-- Refutes O49: in `flagOfNeighbour` needle 0 sets flag 1, and needle 1 then holds the NCLK of that change, which it did not before. -/
theorem not_aNeedleCommandKeepsOtherNeedles : ¬ Obligations.ANeedleCommandKeepsOtherNeedles := by
  unfold Obligations.ANeedleCommandKeepsOtherNeedles
  intro h
  obtain ⟨t, ht, hkept, -⟩ := h 0 1 0 .host 0 0 (.needleFlag 0) flagOfNeighbour (by decide) (by simp)
  obtain ⟨u, hu, hnoted⟩ := flagOfNeighbour_noted
  obtain rfl : u = t := Host.Outcome.next.inj (hu.symm.trans ht)
  have hnone : (flagOfNeighbour.getNdl 1).flg = none := rfl
  rw [show u.getNdl 1 = flagOfNeighbour.getNdl 1 from hkept, hnone] at hnoted
  cases hnoted

end Sys2Proof.Machine
end

section
/-! SUPPORT. The instructions of a needle: what each leaves of the needle’s place in time until it completes, completion and stall, and
the state that each instruction answers (O20). -/

namespace Sys2Proof.Machine

variable {s₀ s t : State} {m : Fin 16}

/-! ### A needle and its registers -/

@[simp] theorem State.getNdl_set (s : State) (f : Fld) (v n : Nat) : (s.set f v).getNdl n = s.getNdl n := (rfl)

@[simp] theorem State.get_updNdl (s : State) (n : Nat) (g : Ndl → Ndl) (f : Fld) : (s.updNdl n g).get f = s.get f := (rfl)

@[simp] theorem State.getNdl_updNdl (s : State) (m : Fin 16) (g : Ndl → Ndl) : (s.updNdl m g).getNdl m = g (s.getNdl m) :=
  vget_vupd_self s.ndl m.isLt g Ndl.reset

theorem State.getNdl_updNdl_ne (s : State) {n k : Nat} (h : k ≠ n) (g : Ndl → Ndl) : (s.updNdl n g).getNdl k = s.getNdl k :=
  vget_vupd_ne s.ndl h g Ndl.reset

/-- The registers of one needle differ by their offset from NCFG. -/
theorem own_ne {m i j : Nat} (h : i ≠ j) : R.BED_NCFG m + i ≠ R.BED_NCFG m + j := by omega

theorem own_ne_cfg {m i : Nat} (h : i ≠ 0) : R.BED_NCFG m + i ≠ R.BED_NCFG m := by omega

/-- The flags stand beside the registers of the needles (Table 11.7). -/
theorem flags_ne_own (m : Fin 16) {i : Nat} (hi : i < 16) : R.BED0_FLAGS ≠ R.BED_NCFG m + i := by
  simp only [R.BED0_FLAGS, R.BED_NCFG]
  omega

theorem flags_ne_cfg (m : Fin 16) : R.BED0_FLAGS ≠ R.BED_NCFG m := flags_ne_own m (i := 0) (by decide)

/-- The registers of the needles are none of INJ or IRT. -/
theorem not_injReg_own (m : Fin 16) {i : Nat} (hi : i < 16) : ¬ InjReg (R.BED_NCFG m + i) := by
  simp only [R.BED_NCFG]
  omega

/-! ### Until an instruction completes -/

/-- What an instruction of needle `m` leaves until it completes, from a state `s₀` to a later state `s`: the PC, the needle’s place in
time, and its divider. -/
structure UnderWay (m : Fin 16) (s₀ s : State) : Prop where
  pc : (s.getNdl m).pc = (s₀.getNdl m).pc
  next : (s.getNdl m).next = (s₀.getNdl m).next
  nclk : s.nclk = s₀.nclk
  cfg : s.reg (R.BED_NCFG m) = s₀.reg (R.BED_NCFG m)

theorem UnderWay.refl (m : Fin 16) (s : State) : UnderWay m s s := ⟨rfl, rfl, rfl, rfl⟩

theorem UnderWay.ite {c : Prop} {_ : Decidable c} (hs : UnderWay m s₀ s) (ht : UnderWay m s₀ t) : UnderWay m s₀ (if c then s else t) := by
  split
  · exact hs
  · exact ht

theorem UnderWay.set (h : UnderWay m s₀ s) {f : Fld} {v : Nat} (hf : f.addr ≠ R.BED_NCFG m := by exact own_ne_cfg (by decide)) :
    UnderWay m s₀ (s.set f v) :=
  ⟨h.pc, h.next, h.nclk, (s.reg_set f v _ hf.symm).trans h.cfg⟩

theorem UnderWay.updNdl (h : UnderWay m s₀ s) {n : Nat} {g : Ndl → Ndl} (hp : ∀ x, (g x).pc = x.pc := by exact fun _ => rfl)
    (hn : ∀ x, (g x).next = x.next := by exact fun _ => rfl) : UnderWay m s₀ (s.updNdl n g) := by
  have hkept : ((s.updNdl n g).getNdl m).pc = (s.getNdl m).pc ∧ ((s.updNdl n g).getNdl m).next = (s.getNdl m).next := by
    by_cases hm : m.val = n
    · subst hm
      rw [State.getNdl_updNdl]
      exact ⟨hp _, hn _⟩
    · rw [s.getNdl_updNdl_ne hm]
      exact ⟨rfl, rfl⟩
  exact ⟨hkept.1.trans h.pc, hkept.2.trans h.next, h.nclk, h.cfg⟩

theorem UnderWay.inj (h : UnderWay m s₀ s) (hi : InjKept s t) : UnderWay m s₀ t :=
  ⟨(congrArg Ndl.pc (hi.getNdl m)).trans h.pc, (congrArg Ndl.next (hi.getNdl m)).trans h.next, hi.nclk.trans h.nclk,
    (hi.reg _ (not_injReg_own m (i := 0) (by decide))).trans h.cfg⟩

theorem UnderWay.mark (h : UnderWay m s₀ s) {a : Nat} {g : Word → Word} : UnderWay m s₀ (s.mark a g) :=
  h.inj (InjKept.refl s).mark

theorem UnderWay.flagSet (h : UnderWay m s₀ s) {n : Nat} (hn : n < 16) : UnderWay m s₀ (s.flagSet n) :=
  .ite h ((h.mark.set (flags_ne_cfg m)).inj ((InjKept.refl _).raiseIf (by omega)))

theorem UnderWay.flagChange (h : UnderWay m s₀ s) {k : Nat} {on : Bool} (hk : k < 16) :
    UnderWay m s₀ (if on then s.flagSet k else s.flagClear k) :=
  .ite (h.flagSet hk) (h.set (flags_ne_cfg m))

theorem UnderWay.ndlFlag (h : UnderWay m s₀ s) {k : Nat} {on : Bool} (hk : k < 16) : UnderWay m s₀ (s.ndlFlag k on) := by
  unfold State.ndlFlag
  exact (h.updNdl (fun n => by split; (split <;> rfl); rfl) (fun n => by split; (split <;> rfl); rfl)).flagChange hk

/-- The BAT gate that a bank needle may move (R180). -/
theorem UnderWay.bankGate (h : UnderWay m s₀ s) : UnderWay m s₀ (if 12 ≤ m.val then s.batEval (m - 12) else s) :=
  .ite (h.inj ((InjKept.refl s).batEval (by omega))) h

theorem UnderWay.ndlPins (h : UnderWay m s₀ s) {dirs : Bool} {v cnt : Nat} : UnderWay m s₀ (s.ndlPins m dirs v cnt) := by
  unfold State.ndlPins
  exact (h.updNdl (fun n => by cases dirs <;> rfl) (fun n => by cases dirs <;> rfl)).bankGate

theorem UnderWay.ndlNext (h : UnderWay m s₀ s) : s.ndlNext m = s₀.ndlNext m :=
  congrArg (· + 1) h.pc

theorem UnderWay.ndlDiv (h : UnderWay m s₀ s) : s.ndlDiv m = s₀.ndlDiv m :=
  congrArg (fldGet (F.BED_NCFG.DIVM1 m) · + 1) h.cfg

theorem UnderWay.ndlCycle (h : UnderWay m s₀ s) : s.ndlCycle m = s₀.ndlCycle m := by
  simp only [State.ndlCycle, h.next, h.nclk, h.ndlDiv]

/-! ### Completion and stall (R249) -/

theorem State.getNdl_ndlDone (s : State) (m : Fin 16) (w pc : Nat) : (s.ndlDone m w pc).getNdl m =
    { s.getNdl m with pc := pc % 64, next := s.ndlCycle m + s.ndlDiv m * (1 + w % 16), flagDone := false } :=
  State.getNdl_updNdl _ m _

theorem State.get_ndlDone_eq (s : State) (m : Fin 16) (w pc : Nat) (f : Fld) :
    (s.ndlDone m w pc).get f = ((s.set (F.BED_NSTAT.STATE m) 1).set (F.BED_NPC m) (s.getNdl m).pc).get f := (rfl)

/-- A completion changes NSTAT and NPC only. -/
theorem State.get_ndlDone (s : State) (m : Fin 16) (w pc : Nat) (f : Fld)
    (hs : f.addr ≠ R.BED_NSTAT m := by exact own_ne (by decide)) (hp : f.addr ≠ R.BED_NPC m := by exact own_ne (by decide)) :
    (s.ndlDone m w pc).get f = s.get f := by
  rw [State.get_ndlDone_eq]
  exact (State.get_set_addr _ (F.BED_NPC m) f hp _).trans (s.get_set_addr (F.BED_NSTAT.STATE m) f hs _)

/-- An instruction that completes lets its needle go on. -/
theorem UnderWay.goes (h : UnderWay m s t) {pc : Nat} : NeedleGoes s (t.ndlDone m (s.ndlWord m) pc) m pc := by
  rw [NeedleGoes, State.getNdl_ndlDone]
  refine ⟨?_, ?_, rfl, ?_⟩
  · rw [State.get_ndlDone_eq]
    exact (State.get_set_addr _ (F.BED_NPC m) (F.BED_NSTAT.STATE m) (own_ne (by decide)) _).trans
      (t.get_set_self (F.BED_NSTAT.STATE m) (show 0 + 2 ≤ 20 by decide) 1)
  · rw [State.get_ndlDone_eq]
    exact (State.get_set_self _ (F.BED_NPC m) (show 0 + 6 ≤ 20 by decide) _).trans (congrArg (· % 64) h.pc)
  · rw [h.ndlCycle, h.ndlDiv]

theorem State.get_ndlStall_eq (s : State) (m : Fin 16) (f : Fld) :
    (s.ndlStall m).get f = ((s.set (F.BED_NSTAT.STATE m) 2).set (F.BED_NPC m) (s.getNdl m).pc).get f := (rfl)

/-- A stall changes NSTAT and NPC only. -/
theorem State.get_ndlStall (s : State) (m : Fin 16) {f : Fld}
    (hs : f.addr ≠ R.BED_NSTAT m := by exact own_ne (by decide)) (hp : f.addr ≠ R.BED_NPC m := by exact own_ne (by decide)) :
    (s.ndlStall m).get f = s.get f := by
  rw [State.get_ndlStall_eq]
  exact (State.get_set_addr _ (F.BED_NPC m) f hp _).trans (s.get_set_addr (F.BED_NSTAT.STATE m) f hs _)

theorem State.getNdl_ndlStall (s : State) (m : Fin 16) : ∃ x, (s.ndlStall m).getNdl m =
    { s.getNdl m with next := s.ndlCycle m + s.ndlDiv m, stallAt := x } :=
  ⟨_, State.getNdl_updNdl _ m _⟩

theorem State.ndlStall_stalls (s : State) (m : Fin 16) : NeedleStalls s (s.ndlStall m) m := by
  obtain ⟨x, hx⟩ := s.getNdl_ndlStall m
  rw [NeedleStalls, hx, State.get_ndlStall_eq]
  exact ⟨(State.get_set_addr _ (F.BED_NPC m) (F.BED_NSTAT.STATE m) (own_ne (by decide)) _).trans
    (s.get_set_self (F.BED_NSTAT.STATE m) (show 0 + 2 ≤ 20 by decide) 2), rfl, rfl⟩

/-! ### Pins and flags -/

theorem State.pin_ndlPins (s : State) (m : Fin 16) (v : Nat) :
    ((s.ndlPins m false v 8).getNdl m).pin = v % 256 + (s.getNdl m).pin / 256 * 256 := by
  unfold State.ndlPins
  dsimp only
  split
  · rw [((InjKept.refl _).batEval (by omega)).getNdl, State.getNdl_updNdl]
    rfl
  · rw [State.getNdl_updNdl]
    rfl

theorem State.get_ndlPins (s : State) (m : Fin 16) (dirs : Bool) (v cnt : Nat) {f : Fld} (hf : ¬ InjReg f.addr) :
    (s.ndlPins m dirs v cnt).get f = s.get f := by
  unfold State.ndlPins
  dsimp only
  split
  · rw [((InjKept.refl _).batEval (by omega)).get hf, State.get_updNdl]
  · rw [State.get_updNdl]

theorem State.flag_flagSet (s : State) {n : Nat} (hn : n < 16) : (s.flagSet n).flag n = true := by
  unfold State.flagSet
  split
  case isTrue h => exact h
  case isFalse =>
    rw [State.flag, State.get_raiseIf_below _ _ _ (show R.BED0_FLAGS < R.IRT_STAT by decide)]
    exact s.bitOf_evtAt F.BED0_FLAGS (show 0 + 16 ≤ 20 by decide) hn

theorem State.flag_flagClear (s : State) {n : Nat} (hn : n < 16) : (s.flagClear n).flag n = false :=
  s.bitOf_setBitAt F.BED0_FLAGS false (show 0 + 16 ≤ 20 by decide) hn

theorem State.flag_ndlFlag (s : State) {n : Nat} (hn : n < 16) (on : Bool) : (s.ndlFlag n on).flag n = on := by
  cases on with
  | true => exact State.flag_flagSet _ hn
  | false => exact State.flag_flagClear _ hn

theorem State.flag_ndlDone (s : State) (m : Fin 16) (w pc n : Nat) : (s.ndlDone m w pc).flag n = s.flag n :=
  congrArg (bitOf · n) (s.get_ndlDone m w pc _ (flags_ne_own m (i := 3) (by decide)) (flags_ne_own m (i := 2) (by decide)))

/-! ### The answer of each instruction (R251 to R257) -/

variable {np : BitVec 32}

theorem exec_needleSet_low (hr : s.ndlReady m (· = 1) = true) (hw : s.ndlWord m / 16384 % 4 = 0) :
    exec (.needleSet m) s = .next ((s.set (F.BED_NU m) (s.ndlWord m / 16 % 1024)).ndlDone m (s.ndlWord m) (s.ndlNext m)) := by
  change execNeedleSet m s = _
  simp only [execNeedleSet, hr, hw, if_true]

theorem exec_needleSet_high (hr : s.ndlReady m (· = 1) = true) (hw : s.ndlWord m / 16384 % 4 = 3) :
    exec (.needleSet m) s = .next ((s.set (F.BED_NV m) (1024 * (s.ndlWord m / 16 % 1024) + s.get (F.BED_NV m) % 1024)).ndlDone m
      (s.ndlWord m) (s.ndlNext m)) := by
  change execNeedleSet m s = _
  simp only [execNeedleSet, hr, hw, if_true]

/-- The value that MOV passes on (R254). -/
def State.movValue (s : State) (m : Fin 16) (np : BitVec 32) : Nat :=
  movOp (s.ndlWord m / 1024 % 8) (s.ndlSource m np (s.ndlWord m / 16 % 8))

theorem exec_needleMov_ready {code : Nat} (hr : s.ndlReady m (· = 2) = true) (hw : s.ndlWord m / 8192 % 8 = code) :
    exec (.needleMov m np) s = .next ((s.ndlDest m code (s.movValue m np) 8 false).1.ndlDone m (s.ndlWord m)
      (s.ndlDest m code (s.movValue m np) 8 false).2) := by
  subst hw
  exact congrArg Host.Outcome.next (if_pos hr)

theorem exec_needleJmp_always (hr : s.ndlReady m (· = 3) = true) (hw : s.ndlWord m / 8192 % 8 = 0) :
    exec (.needleJmp m np) s = .next (s.ndlDone m (s.ndlWord m) (s.ndlWord m / 16 % 64)) := by
  change execNeedleJmp m np s = _
  simp only [execNeedleJmp, hr, hw, if_true]

theorem exec_needleJmp_decU (hr : s.ndlReady m (· = 3) = true) (hw : s.ndlWord m / 8192 % 8 = 3) :
    exec (.needleJmp m np) s = .next ((s.set (F.BED_NU m) ((s.get (F.BED_NU m) + 1048575) % 1048576)).ndlDone m (s.ndlWord m)
      (if (s.get (F.BED_NU m) + 1048575) % 1048576 ≠ 0 then s.ndlWord m / 16 % 64 else s.ndlNext m)) := by
  change execNeedleJmp m np s = _
  simp only [execNeedleJmp, hr, hw, if_true, decide_eq_true_eq]

theorem exec_needleWait_flag (hr : s.ndlReady m (· = 4) = true) (hw : s.ndlWord m / 8192 % 4 = 3) :
    exec (.needleWait m np) s = .next (if s.flag (s.ndlWord m / 16 % 16) = bitOf (s.ndlWord m) 15
      then s.ndlDone m (s.ndlWord m) (s.ndlNext m) else s.ndlStall m) := by
  have hidx : s.ndlWord m / 16 % 64 % 16 = s.ndlWord m / 16 % 16 := by omega
  change execNeedleWait m np s = _
  simp only [execNeedleWait, hr, hw, hidx, if_true]

/-- SIN with the low COUNT bits of IN’s source shifted in (R253). -/
def State.sinShifted (s : State) (m : Fin 16) (np : BitVec 32) : Nat :=
  let c := shiftCount (s.ndlWord m)
  let v := s.ndlSource m np (s.ndlWord m / 8192 % 8) % 2 ^ c
  let x := s.get (F.BED_NSIN m)
  if s.bit (F.BED_NCFG.INDIR m) then x / 2 ^ c + v * 2 ^ (20 - c) else x * 2 ^ c % 1048576 + v

theorem exec_needleIn_ready (hr : s.ndlReady m (· = 5) = true) :
    exec (.needleIn m np) s = .next (((s.set (F.BED_NSIN m) (s.sinShifted m np)).updNdl m fun n =>
      { n with sinN := min 20 (n.sinN + shiftCount (s.ndlWord m)) }).ndlDone m (s.ndlWord m) (s.ndlNext m)) :=
  congrArg Host.Outcome.next (if_pos hr)

/-- SOUT loses the low COUNT bits, which OUT passes on (R253). -/
def State.soutShifted (s : State) (m : Fin 16) : State :=
  (s.set (F.BED_NSOUT m) (s.get (F.BED_NSOUT m) / 2 ^ shiftCount (s.ndlWord m))).updNdl m fun n =>
    { n with soutN := min 20 (n.soutN + shiftCount (s.ndlWord m)) }

theorem UnderWay.soutShifted (m : Fin 16) (s : State) : UnderWay m s (s.soutShifted m) :=
  (UnderWay.refl m s).set.updNdl

theorem exec_needleOut_u (hr : s.ndlReady m (· = 6) = true) (hi : bitOf (s.ndlWord m) 15 = false)
    (hw : s.ndlWord m / 4096 % 8 = 1) (hd : s.bit (F.BED_NCFG.OUTDIR m) = true) :
    exec (.needleOut m) s = .next (((s.soutShifted m).set (F.BED_NU m) (s.get (F.BED_NSOUT m) % 2 ^ shiftCount (s.ndlWord m))).ndlDone m
      (s.ndlWord m) (s.ndlNext m)) := by
  change execNeedleOut m s = _
  rw [← (UnderWay.soutShifted m s).ndlNext]
  simp only [execNeedleOut, hr, hi, hw, hd, if_true, State.ndlDest, Bool.false_eq_true, if_false]
  rfl

theorem exec_needleOut_pins (hr : s.ndlReady m (· = 6) = true) (hi : bitOf (s.ndlWord m) 15 = true)
    (hd : bitOf (s.ndlWord m) 14 = false) :
    exec (.needleOut m) s = .next ((s.ndlPins m false (s.ndlWord m / 16 % 256) 8).ndlDone m (s.ndlWord m) (s.ndlNext m)) := by
  change execNeedleOut m s = _
  simp only [execNeedleOut, hr, hi, hd, if_true]

/-- SIN goes to the receive queue, and is cleared (R255). -/
def State.sinPushed (s : State) (m : Fin 16) : State :=
  ((s.updNdl m fun n => { n with rx := n.rx ++ [s.get (F.BED_NSIN m)] }).set (F.BED_NSIN m) 0).updNdl m fun n => { n with sinN := 0 }

theorem exec_needlePush_room (hr : s.ndlReady m (· = 7) = true) (hl : (s.getNdl m).rx.length < s.rxSize m) :
    exec (.needlePush m) s = .next ((s.sinPushed m).ndlDone m (s.ndlWord m) (s.ndlNext m)) := by
  have hfull : decide (s.rxSize m ≤ (s.getNdl m).rx.length) = false := decide_eq_false (Nat.not_le.2 hl)
  change execNeedlePush m s = _
  simp only [execNeedlePush, hr, hfull, Bool.false_and, Bool.false_eq_true, if_true, if_false]
  rfl

theorem exec_needlePush_full (hr : s.ndlReady m (· = 7) = true) (hl : s.rxSize m ≤ (s.getNdl m).rx.length)
    (hb : bitOf (s.ndlWord m) 15 = true) : exec (.needlePush m) s = .next (s.ndlStall m) := by
  change execNeedlePush m s = _
  simp only [execNeedlePush, hr, hl, hb, decide_true, Bool.and_self, if_true]

/-- The head of the transmit queue becomes SOUT (R255). -/
def State.soutPulled (s : State) (m : Fin 16) (x : Nat) (rest : List Nat) : State :=
  (s.set (F.BED_NSOUT m) x).updNdl m fun n => { n with tx := rest, soutN := 0 }

theorem exec_needlePull_cons {x : Nat} {rest : List Nat} (hr : s.ndlReady m (· = 8) = true) (hq : (s.getNdl m).tx = x :: rest) :
    exec (.needlePull m) s = .next ((s.soutPulled m x rest).ndlDone m (s.ndlWord m) (s.ndlNext m)) := by
  change execNeedlePull m s = _
  simp only [execNeedlePull, hr, hq, if_true]
  rfl

theorem exec_needlePull_empty (hr : s.ndlReady m (· = 8) = true) (hq : (s.getNdl m).tx = []) (hb : bitOf (s.ndlWord m) 15 = true) :
    exec (.needlePull m) s = .next (s.ndlStall m) := by
  change execNeedlePull m s = _
  simp only [execNeedlePull, hr, hq, hb, if_true]

theorem exec_needleFlag_clear (hr : s.ndlReady m (· = 9) = true) (hw : s.ndlWord m / 16384 % 4 = 0) :
    exec (.needleFlag m) s = .next ((s.ndlFlag (s.ndlWord m / 16 % 16) false).ndlDone m (s.ndlWord m) (s.ndlNext m)) := by
  change execNeedleFlag m s = _
  simp only [execNeedleFlag, hr, hw, if_true]

theorem exec_needleFlag_set (hr : s.ndlReady m (· = 9) = true) (hw : s.ndlWord m / 16384 % 4 = 1) :
    exec (.needleFlag m) s = .next ((s.ndlFlag (s.ndlWord m / 16 % 16) true).ndlDone m (s.ndlWord m) (s.ndlNext m)) := by
  change execNeedleFlag m s = _
  simp only [execNeedleFlag, hr, hw, if_true]

theorem exec_needleBadop_ready (hr : s.ndlReady m (fun o => o = 0 || decide (10 ≤ o)) = true) :
    exec (.needleBadop m) s = .next ((s.evt (F.BED_NSTAT.BADOP m)).ndlDone m (s.ndlWord m) (s.ndlNext m)) :=
  congrArg Host.Outcome.next (if_pos hr)

/-! ### The registers that an instruction writes -/

/-- A register of 20 bits that the instruction has just written, after its completion. -/
theorem State.get_set_ndlDone (s : State) (m : Fin 16) {f : Fld} (v w pc : Nat) (hf : f.lo + f.len ≤ 20)
    (hs : f.addr ≠ R.BED_NSTAT m := by exact own_ne (by decide)) (hp : f.addr ≠ R.BED_NPC m := by exact own_ne (by decide)) :
    ((s.set f v).ndlDone m w pc).get f = v % 2 ^ f.len := by
  rw [State.get_ndlDone _ _ _ _ _ hs hp, State.get_set_self _ _ hf]

/-- Settles O20: each instruction’s answer is its update with a completion or a stall after it, and no update on the way moves the PC, the
needle’s place in time or its divider. -/
theorem needleInstructionsRun : Obligations.NeedleInstructionsRun := by
  unfold Obligations.NeedleInstructionsRun
  refine ⟨fun s m hr hw => ?_, fun s m hr hw => ?_, fun s m np hr hw => ?_, fun s m np hr hw => ?_, fun s m np hr hw => ?_,
    fun s m np hr hw => ?_, fun s m np hr hw => ?_, fun s m np hr hw => ?_, fun s m np hr => ?_, fun s m hr hi hw hd => ?_,
    fun s m hr hi hd => ?_, fun s m hr hl => ?_, fun s m hr hl hb => ?_, fun s m x rest hr hq => ?_, fun s m hr hq hb => ?_,
    fun s m hr hw => ?_, fun s m hr hw => ?_, fun s m hr => ?_⟩
  · refine ⟨_, exec_needleSet_low hr hw, (UnderWay.refl m s).set.goes, ?_, ?_⟩
    · rw [State.get_set_ndlDone _ m _ _ _ (show 0 + 20 ≤ 20 by decide)]
      exact Nat.mod_eq_of_lt (by simp only [F.BED_NU]; omega)
    · rw [State.get_ndlDone _ m _ _ (F.BED_NV m), State.get_set_addr _ _ _ (own_ne (by decide))]
  · refine ⟨_, exec_needleSet_high hr hw, (UnderWay.refl m s).set.goes, ?_, ?_⟩
    · rw [State.get_ndlDone _ m _ _ (F.BED_NU m), State.get_set_addr _ _ _ (own_ne (by decide))]
    · rw [State.get_set_ndlDone _ m _ _ _ (show 0 + 20 ≤ 20 by decide)]
      exact Nat.mod_eq_of_lt (by simp only [F.BED_NV]; omega)
  · refine ⟨_, exec_needleMov_ready hr hw, (UnderWay.refl m s).set.goes, ?_, ?_⟩
    · exact State.get_set_ndlDone s m _ _ _ (show 0 + 20 ≤ 20 by decide)
    · exact (State.get_ndlDone _ m _ _ (F.BED_NV m)).trans (s.get_set_addr _ _ (own_ne (by decide)) _)
  · refine ⟨_, exec_needleMov_ready hr hw, (UnderWay.refl m s).ndlPins.goes, ?_⟩
    rw [State.getNdl_ndlDone]
    exact s.pin_ndlPins m _
  · obtain ⟨hstate, hnpc, hpc, hnext⟩ := (UnderWay.refl m s).goes (pc := s.movValue m np % 64)
    exact ⟨_, exec_needleMov_ready hr hw, hstate, hnpc, hpc.trans (Nat.mod_mod _ 64), hnext⟩
  · exact ⟨_, exec_needleJmp_always hr hw, (UnderWay.refl m s).goes, s.get_ndlDone m _ _ (F.BED_NU m)⟩
  · refine ⟨_, exec_needleJmp_decU hr hw, ?_, ?_⟩
    · rw [State.get_set_ndlDone _ m _ _ _ (show 0 + 20 ≤ 20 by decide)]
      exact Nat.mod_mod _ _
    · have hu : s.get (F.BED_NU m) < 1048576 := s.get_lt _
      by_cases h1 : s.get (F.BED_NU m) = 1
      · rw [if_pos h1, if_neg (by omega)]
        exact (UnderWay.refl m s).set.goes
      · rw [if_neg h1, if_pos (by omega)]
        exact (UnderWay.refl m s).set.goes
  · rw [exec_needleWait_flag hr hw]
    refine ⟨_, rfl, ?_⟩
    split
    · exact (UnderWay.refl m s).goes
    · exact s.ndlStall_stalls m
  · refine ⟨_, exec_needleIn_ready hr, (UnderWay.refl m s).set.updNdl.goes, ?_, fun hd => ?_⟩
    · rw [State.getNdl_ndlDone, State.getNdl_updNdl, State.getNdl_set]
    · rw [State.get_ndlDone _ m _ _ (F.BED_NSIN m), State.get_updNdl, State.get_set_self _ _ (show 0 + 20 ≤ 20 by decide), State.sinShifted, hd]
      exact Nat.mod_add_mod _ _ _
  · refine ⟨_, exec_needleOut_u hr hi hw hd, (UnderWay.soutShifted m s).set.goes, ?_, ?_, ?_⟩
    · rw [State.get_set_ndlDone _ m _ _ _ (show 0 + 20 ≤ 20 by decide)]
      exact Nat.mod_eq_of_lt ((Nat.mod_le _ _).trans_lt (s.get_lt _))
    · rw [State.get_ndlDone _ m _ _ (F.BED_NSOUT m), State.get_set_addr _ _ _ (own_ne (by decide)), State.soutShifted, State.get_updNdl,
        State.get_set_self _ _ (show 0 + 20 ≤ 20 by decide)]
      exact Nat.mod_eq_of_lt ((Nat.div_le_self _ _).trans_lt (s.get_lt _))
    · rw [State.getNdl_ndlDone, State.getNdl_set, State.soutShifted, State.getNdl_updNdl, State.getNdl_set]
  · refine ⟨_, exec_needleOut_pins hr hi hd, (UnderWay.refl m s).ndlPins.goes, ?_, ?_⟩
    · rw [State.getNdl_ndlDone]
      exact (s.pin_ndlPins m _).trans (congrArg (· + _) (Nat.mod_mod _ 256))
    · rw [State.get_ndlDone _ m _ _ (F.BED_NSOUT m), State.get_ndlPins _ _ _ _ _ (not_injReg_own m (i := 7) (by decide))]
  · refine ⟨_, exec_needlePush_room hr hl, ((UnderWay.refl m s).updNdl.set).updNdl.goes, ?_, ?_⟩
    · rw [State.getNdl_ndlDone, State.sinPushed, State.getNdl_updNdl, State.getNdl_set, State.getNdl_updNdl]
    · rw [State.get_ndlDone _ m _ _ (F.BED_NSIN m), State.sinPushed, State.get_updNdl, State.get_set_self _ _ (show 0 + 20 ≤ 20 by decide)]
      rfl
  · refine ⟨_, exec_needlePush_full hr hl hb, s.ndlStall_stalls m, ?_⟩
    obtain ⟨x, hx⟩ := s.getNdl_ndlStall m
    rw [hx]
  · refine ⟨_, exec_needlePull_cons hr hq, (UnderWay.refl m s).set.updNdl.goes, ?_, ?_, ?_⟩
    · rw [State.get_ndlDone _ m _ _ (F.BED_NSOUT m), State.soutPulled, State.get_updNdl, State.get_set_self _ _ (show 0 + 20 ≤ 20 by decide)]
      rfl
    · rw [State.getNdl_ndlDone, State.soutPulled, State.getNdl_updNdl]
    · rw [State.getNdl_ndlDone, State.soutPulled, State.getNdl_updNdl]
  · exact ⟨_, exec_needlePull_empty hr hq hb, s.ndlStall_stalls m, s.get_ndlStall m⟩
  · have hk : s.ndlWord m / 16 % 16 < 16 := Nat.mod_lt _ (by decide)
    exact ⟨_, exec_needleFlag_set hr hw, ((UnderWay.refl m s).ndlFlag hk).goes,
      (State.flag_ndlDone _ m _ _ _).trans (s.flag_ndlFlag hk true)⟩
  · have hk : s.ndlWord m / 16 % 16 < 16 := Nat.mod_lt _ (by decide)
    exact ⟨_, exec_needleFlag_clear hr hw, ((UnderWay.refl m s).ndlFlag hk).goes,
      (State.flag_ndlDone _ m _ _ _).trans (s.flag_ndlFlag hk false)⟩
  · refine ⟨_, exec_needleBadop_ready hr, (UnderWay.refl m s).mark.set.goes, ?_, ?_⟩
    · refine State.bit_of_get_one ?_
      rw [State.get_ndlDone_eq, State.get_set_addr _ (F.BED_NPC m) (F.BED_NSTAT.BADOP m) (own_ne (by decide)),
        State.get_set_disj _ (F.BED_NSTAT.STATE m) (F.BED_NSTAT.BADOP m) rfl (show 0 + 2 ≤ 20 by decide)
          (.inl (show 0 + 2 ≤ 5 by decide)),
        State.get_evt _ _ (show 5 + 1 ≤ 20 by decide) (show 0 < 1 by decide)]
    · rw [State.get_ndlDone _ m _ _ (F.BED_NU m)]
      exact s.get_evt_apart _ _ (show 5 + 1 ≤ 20 by decide) fun h => absurd h (own_ne (by decide))

end Sys2Proof.Machine
end

section
/-! SUPPORT. Needles from outside: starts and stops, writes of NPC, the queues, the program store, the flags, and the stall limit (O21). -/

namespace Sys2Proof.Machine

variable {s₀ s t : State} {m : Fin 16}

/-! ### What other needles keep -/

theorem NdlKept.nclk (h : NdlKept s₀ s) : s.nclk = s₀.nclk :=
  (congrArg State.nclk h.sans : s.sansNdl.nclk = s₀.sansNdl.nclk)

theorem NdlKept.get (h : NdlKept s₀ s) {f : Fld} (hf : ¬ NdlReg f.addr := by decide) : s.get f = s₀.get f :=
  congrArg (fldGet f) (h.reg _ hf)

theorem NdlKept.bedOk (h : NdlKept s₀ s) (b : Nat) : s.bedOk b = s₀.bedOk b := by
  have hpcr : s.pcr = s₀.pcr := (congrArg State.pcr h.sans : s.sansNdl.pcr = s₀.sansNdl.pcr)
  have hlock : s.get F.PCR_STAT.PLLA_LOCK = s₀.get F.PCR_STAT.PLLA_LOCK := h.get
  have hheld : s.get F.PCR_BRSTAT = s₀.get F.PCR_BRSTAT := h.get
  simp only [State.bedOk, State.islandUp, State.running, State.blockFree, State.bit, hpcr, hlock, hheld]

/-- What a command leaves of needle `m` that reaches other needles, from a state `s₀` to a later state `s`. -/
structure NdlApart (m : Fin 16) (s₀ s : State) : Prop where
  kept : NdlKept s₀ s
  ndl : s.getNdl m = s₀.getNdl m
  own : ∀ i, i < 16 → s.reg (R.BED_NCFG m + i) = s₀.reg (R.BED_NCFG m + i)

theorem NdlApart.refl (m : Fin 16) (s : State) : NdlApart m s s := ⟨.refl s, rfl, fun _ _ => rfl⟩

theorem NdlApart.trans {u : State} (h : NdlApart m s t) (h' : NdlApart m t u) : NdlApart m s u :=
  ⟨h.kept.trans h'.kept, h'.ndl.trans h.ndl, fun i hi => (h'.own i hi).trans (h.own i hi)⟩

theorem NdlApart.ndlMay (h : NdlApart m s₀ s) (src : Master) : s.ndlMay m src = s₀.ndlMay m src := by
  have hprot : s.get (F.BED_NCFG.PROT m) = s₀.get (F.BED_NCFG.PROT m) := congrArg (fldGet _) (h.own 0 (by decide))
  simp only [State.ndlMay, State.bit, hprot]

theorem NdlApart.state (h : NdlApart m s₀ s) : s.get (F.BED_NSTAT.STATE m) = s₀.get (F.BED_NSTAT.STATE m) :=
  congrArg (fldGet _) (h.own 3 (by decide))

/-- The registers of two needles (Table 11.7). -/
theorem own_ne_other {m n i j : Nat} (h : m ≠ n) (hi : i < 16) (hj : j < 16) : R.BED_NCFG m + i ≠ R.BED_NCFG n + j := by
  simp only [R.BED_NCFG]
  omega

theorem NdlApart.ndlStart (s : State) {m n : Fin 16} (h : m ≠ n) : NdlApart m s (s.ndlStart n) := by
  have hval : m.val ≠ n.val := fun e => h (Fin.ext e)
  refine ⟨(NdlKept.refl s).ndlStart, ?_, fun i hi => ?_⟩
  · unfold State.ndlStart
    split
    · exact (State.getNdl_updNdl_ne _ hval _).trans (s.getNdl_updNdl_ne hval _)
    · rfl
  · unfold State.ndlStart
    split
    · exact State.reg_set (s.ndlChanged n) (F.BED_NSTAT.STATE n) 1 _ (own_ne_other hval hi (by decide : 3 < 16))
    · rfl

/-- A loop over the needles, seen from one of them: what goes before and after its own step leaves it. -/
theorem State.each_seen_from {K : State → State → Prop} (hrefl : ∀ s, K s s) (htrans : ∀ {s t u}, K s t → K t u → K s u) (m : Fin 16)
    {f : State → Nat → State} (hf : ∀ s (n : Fin 16), m ≠ n → K s (f s n)) (s : State) :
    ∃ u, K s u ∧ K (f u m) (s.each (List.range 16) f) := by
  have hothers : ∀ l : List Nat, (∀ n ∈ l, n < 16 ∧ m.val ≠ n) → ∀ s, K s (s.each l f) := by
    intro l
    induction l with
    | nil => exact fun _ s => hrefl s
    | cons n l ih =>
      intro hl s
      obtain ⟨hn, hne⟩ := hl n (.head _)
      exact htrans (hf s ⟨n, hn⟩ fun e => hne (congrArg Fin.val e)) (ih (fun k hk => hl k (.tail _ hk)) _)
  obtain ⟨l, r, hlr⟩ := List.append_of_mem (List.mem_range.2 m.isLt)
  have hnodup : (l ++ m.val :: r).Nodup := hlr ▸ List.nodup_range
  have hlt : ∀ n ∈ l ++ m.val :: r, n < 16 := fun n hn => List.mem_range.1 (hlr ▸ hn)
  obtain ⟨hml, hmr⟩ : m.val ∉ l ∧ m.val ∉ r := by
    rw [List.nodup_middle, List.nodup_cons, List.mem_append, not_or] at hnodup
    exact hnodup.1
  refine ⟨s.each l f, hothers l (fun n hn => ⟨hlt n (by simp [hn]), fun e => hml (e ▸ hn)⟩) s, ?_⟩
  rw [hlr]
  change K (f (l.foldl f s) m) ((l ++ m.val :: r).foldl f s)
  rw [List.foldl_append, List.foldl_cons]
  exact hothers r (fun n hn => ⟨hlt n (by simp [hn]), fun e => hmr (e ▸ hn)⟩) _

/-! ### Starts and stops (R262 to R264) -/

/-- A needle that has started: it runs from NPC, and its divider starts at zero in this NCLK. -/
theorem State.ndlStart_shows (hs : s.get (F.BED_NSTAT.STATE m) = 0) :
    (s.ndlStart m).get (F.BED_NSTAT.STATE m) = 1 ∧ ((s.ndlStart m).getNdl m).pc = s.get (F.BED_NPC m)
      ∧ ((s.ndlStart m).getNdl m).start = s.nclk ∧ ((s.ndlStart m).getNdl m).next = s.nclk ∧ ((s.ndlStart m).getNdl m).live = true := by
  rw [State.ndlStart, if_pos hs]
  dsimp only
  rw [State.getNdl_updNdl, State.get_updNdl]
  exact ⟨State.get_set_self _ (F.BED_NSTAT.STATE m) (show 0 + 2 ≤ 20 by decide) 1, rfl, rfl, rfl, rfl⟩

/-- A needle that has stopped: its cause, and the PC that would follow. -/
theorem State.ndlStop_shows (hs : s.get (F.BED_NSTAT.STATE m) ≠ 0) (cause : Fin 8) :
    (s.ndlStop m cause).get (F.BED_NSTAT.STATE m) = 0 ∧ (s.ndlStop m cause).get (F.BED_NSTAT.CAUSE m) = cause
      ∧ (s.ndlStop m cause).get (F.BED_NPC m) = (s.getNdl m).pc % 64 := by
  rw [State.ndlStop, if_neg hs]
  dsimp only
  simp only [State.get_updNdl]
  refine ⟨?_, ?_, State.get_set_self _ (F.BED_NPC m) (show 0 + 6 ≤ 20 by decide) _⟩
  · rw [State.get_set_addr _ (F.BED_NPC m) (F.BED_NSTAT.STATE m) (own_ne (by decide)),
      State.get_set_disj _ (F.BED_NSTAT.CAUSE m) (F.BED_NSTAT.STATE m) rfl (show 2 + 3 ≤ 20 by decide) (.inr (show 0 + 2 ≤ 2 by decide)),
      State.get_set_self _ (F.BED_NSTAT.STATE m) (show 0 + 2 ≤ 20 by decide)]
    rfl
  · rw [State.get_set_addr _ (F.BED_NPC m) (F.BED_NSTAT.CAUSE m) (own_ne (by decide)),
      State.get_set_self _ (F.BED_NSTAT.CAUSE m) (show 2 + 3 ≤ 20 by decide)]
    exact Nat.mod_eq_of_lt cause.isLt

/-- One needle’s part in a write of BED0_SYNC (R262). -/
def State.syncStart (mask : Nat) (src : Master) (s : State) (n : Nat) : State :=
  if bitOf mask n && s.bedOk (n / 4) && s.ndlMay n src then s.ndlStart n else s

theorem NdlApart.syncStart (mask : Nat) (src : Master) (s : State) (n : Fin 16) (h : m ≠ n) : NdlApart m s (s.syncStart mask src n) := by
  unfold State.syncStart
  split
  · exact .ndlStart s h
  · exact .refl m s

theorem State.bedSync_seen_from (s : State) (mask : Nat) (src : Master) (m : Fin 16) :
    ∃ u, NdlApart m s u ∧ NdlApart m (u.syncStart mask src m) (s.bedSync mask src) :=
  State.each_seen_from (NdlApart.refl m) NdlApart.trans m (NdlApart.syncStart mask src) s

/-- A needle that BED0_SYNC names starts as by its own command, in the same NCLK. -/
theorem State.bedSync_starts {mask : Nat} {src : Master} (hm : bitOf mask m = true) (hb : s.bedOk (m / 4) = true)
    (hp : s.ndlMay m src = true) (hs : s.get (F.BED_NSTAT.STATE m) = 0) :
    (s.bedSync mask src).get (F.BED_NSTAT.STATE m) = 1 ∧ ((s.bedSync mask src).getNdl m).start = s.nclk
      ∧ ((s.bedSync mask src).getNdl m).pc = s.get (F.BED_NPC m) := by
  obtain ⟨u, hu, ht⟩ := s.bedSync_seen_from mask src m
  have hstart : u.syncStart mask src m = u.ndlStart m := by
    rw [State.syncStart, hm, hu.kept.bedOk, hb, hu.ndlMay, hp]
    rfl
  rw [hstart] at ht
  obtain ⟨hstate, hpc, hclock, -, -⟩ := State.ndlStart_shows (hu.state.trans hs)
  rw [ht.state, ht.ndl, hstate, hclock, hpc, hu.kept.nclk]
  exact ⟨rfl, rfl, congrArg (fldGet _) (hu.own 2 (by decide))⟩

theorem State.bedSync_spares {mask : Nat} (src : Master) (hm : bitOf mask m = false) :
    (s.bedSync mask src).getNdl m = s.getNdl m
      ∧ (s.bedSync mask src).get (F.BED_NSTAT.STATE m) = s.get (F.BED_NSTAT.STATE m) := by
  obtain ⟨u, hu, ht⟩ := s.bedSync_seen_from mask src m
  have hstays : u.syncStart mask src m = u := by
    rw [State.syncStart, hm]
    rfl
  rw [hstays] at ht
  exact ⟨(hu.trans ht).ndl, (hu.trans ht).state⟩

/-! ### The flags (R268) -/

/-- A bit that is set where it was clear leaves the others. -/
theorem bitOf_add_two_pow_ne {x i j : Nat} (h : bitOf x i = false) (hj : j ≠ i) : bitOf (x + 2 ^ i) j = bitOf x j := by
  unfold bitOf
  rcases Nat.lt_or_gt_of_ne hj with hlt | hgt
  · obtain ⟨k, rfl⟩ := Nat.exists_eq_add_of_lt hlt
    rw [show 2 ^ (j + k + 1) = 2 ^ j * (2 * 2 ^ k) by ring, Nat.add_mul_div_left _ _ (Nat.two_pow_pos j), Nat.add_mul_mod_self_left]
  · obtain ⟨k, rfl⟩ := Nat.exists_eq_add_of_lt hgt
    have heven : x / 2 ^ i % 2 = 0 := by simpa [bitOf] using h
    rw [show 2 ^ (i + k + 1) = 2 ^ i * 2 * 2 ^ k by ring, ← Nat.div_div_eq_div_mul, ← Nat.div_div_eq_div_mul, ← Nat.div_div_eq_div_mul,
      ← Nat.div_div_eq_div_mul, Nat.add_div_right _ (Nat.two_pow_pos i), show (x / 2 ^ i).succ / 2 = x / 2 ^ i / 2 by omega]

/-- A bit that is cleared where it was set leaves the others. -/
theorem bitOf_sub_two_pow_ne {x i j : Nat} (h : bitOf x i = true) (hj : j ≠ i) : bitOf (x - 2 ^ i) j = bitOf x j := by
  have hle : 2 ^ i ≤ x := Nat.ge_two_pow_of_testBit (bitOf_eq_testBit x i ▸ h)
  rw [← bitOf_add_two_pow_ne (bitOf_sub_two_pow h) hj, Nat.sub_add_cancel hle]

theorem State.bitOf_setBitAt_ne (s : State) (f : Fld) {i j : Nat} (b : Bool) (hf : f.lo + f.len ≤ 20) (hi : j < f.len) (hj : j ≠ i) :
    bitOf ((s.setBitAt f i b).get f) j = bitOf (s.get f) j := by
  rw [State.setBitAt, State.get_set_self _ f hf, bitOf_mod_two_pow _ hi]
  split
  case isTrue => rfl
  case isFalse h =>
    cases b with
    | true => exact bitOf_add_two_pow_ne (Bool.eq_false_iff.2 h) hj
    | false => exact bitOf_sub_two_pow_ne ((Bool.not_eq_false _).mp h) hj

/-- What a change of another flag leaves of flag `m`, and of what FLAG instructions did to it. -/
structure FlagApart (m : Fin 16) (s₀ s : State) : Prop where
  kept : NdlKept s₀ s
  ndl : s.getNdl m = s₀.getNdl m
  flag : s.flag m = s₀.flag m

theorem FlagApart.refl (m : Fin 16) (s : State) : FlagApart m s s := ⟨.refl s, rfl, rfl⟩

theorem FlagApart.trans {u : State} (h : FlagApart m s t) (h' : FlagApart m t u) : FlagApart m s u :=
  ⟨h.kept.trans h'.kept, h'.ndl.trans h.ndl, h'.flag.trans h.flag⟩

theorem FlagApart.flagNow (h : FlagApart m s₀ s) : s.flagNow m = s₀.flagNow m := by
  simp only [State.flagNow, h.ndl, h.kept.nclk]

theorem FlagApart.raiseIf (s : State) (c : Bool) (n : Fin 16) : FlagApart m s (s.raiseIf c (240 + n)) :=
  ⟨(NdlKept.refl s).raiseIf n.isLt, ((InjKept.refl s).raiseIf (by omega)).getNdl m,
    congrArg (bitOf · m) (s.get_raiseIf_below c _ (f := F.BED0_FLAGS) (by decide))⟩

theorem FlagApart.flagSet (s : State) {n : Fin 16} (h : m.val ≠ n.val) : FlagApart m s (s.flagSet n) := by
  have hevt : FlagApart m s (s.evtAt F.BED0_FLAGS n) := by
    refine ⟨(NdlKept.refl s).mark.set, congrArg (vget · m.val Ndl.reset) (s.evtAt_ndl F.BED0_FLAGS n), ?_⟩
    rw [State.flag, State.evtAt, State.bitOf_setBitAt_ne _ _ _ (by decide) m.isLt h, State.get_mark, State.flag]
  unfold State.flagSet
  split
  · exact .refl m s
  · exact hevt.trans (.raiseIf _ _ n)

theorem FlagApart.flagClear (s : State) {n : Fin 16} (h : m.val ≠ n.val) : FlagApart m s (s.flagClear n) :=
  ⟨(NdlKept.refl s).flagClear, rfl, s.bitOf_setBitAt_ne F.BED0_FLAGS false (by decide) m.isLt h⟩

theorem FlagApart.flagHost (s : State) {n : Fin 16} (h : m.val ≠ n.val) (set : Bool) : FlagApart m s (s.flagHost n set) := by
  unfold State.flagHost
  split
  · split
    · exact .flagSet s h
    · exact .flagClear s h
  · split
    · exact .refl m s
    · exact .trans ⟨(NdlKept.refl s).updNdl, s.getNdl_updNdl_ne h _, rfl⟩ (.raiseIf _ _ n)

/-- One flag’s part in a write of BED0_FLAGS or BED0_FSET (R268). -/
def State.flagMasked (set : Bool) (mask : Nat) (s : State) (n : Nat) : State := if bitOf mask n then s.flagHost n set else s

theorem FlagApart.flagMasked (set : Bool) (mask : Nat) (s : State) (n : Fin 16) (h : m ≠ n) :
    FlagApart m s (s.flagMasked set mask n) := by
  unfold State.flagMasked
  split
  · exact .flagHost s (fun e => h (Fin.ext e)) set
  · exact .refl m s

theorem State.flag_flagMasked (set : Bool) (mask : Nat) (hn : s.flagNow m = none) :
    (s.flagMasked set mask m).flag m = if bitOf mask m then set else s.flag m := by
  unfold State.flagMasked
  split
  · unfold State.flagHost
    rw [hn]
    cases set with
    | true => exact s.flag_flagSet m.isLt
    | false => exact s.flag_flagClear m.isLt
  · rfl

/-- A flag after a write of its mask, in an NCLK in which no FLAG instruction has acted on it. -/
theorem State.flag_each_masked (set : Bool) (mask : Nat) (hn : s.flagNow m = none) :
    (s.each (List.range 16) (State.flagMasked set mask)).flag m = if bitOf mask m then set else s.flag m := by
  obtain ⟨u, hu, ht⟩ := State.each_seen_from (FlagApart.refl m) FlagApart.trans m (FlagApart.flagMasked set mask) s
  rw [ht.flag, State.flag_flagMasked set mask (hu.flagNow.trans hn), hu.flag]

/-! ### The commands -/

theorem exec_needleRxRead_cons {x : Nat} {rest : List Nat} (hb : s.bedOk (m / 4) = true) (hq : (s.getNdl m).rx = x :: rest) :
    exec (.needleRxRead m) s = .next { s.updNdl m fun n => { n with rx := rest } with rd := BitVec.ofNat 20 x } := by
  change execNeedleRxRead m s = _
  rw [execNeedleRxRead, if_pos hb, State.ndlRxRead, hq]

theorem exec_needleRxRead_empty (hb : s.bedOk (m / 4) = true) (hq : (s.getNdl m).rx = []) :
    exec (.needleRxRead m) s = .next { s.evt (F.BED_NQSTAT.RXUNF m) with rd := 0 } := by
  change execNeedleRxRead m s = _
  rw [execNeedleRxRead, if_pos hb, State.ndlRxRead, hq]

theorem exec_programStoreWrite_stopped {b : Fin 4} {k : Fin 64} (src : Master) (v : Word) (hb : s.bedOk b = true)
    (hs : s.bedWasStopped b = true) : exec (.programStoreWrite b k src v) s = .next (s.writeCodes src (R.BED_PS b k) v) := by
  change execProgramStoreWrite b k src v s = _
  rw [execProgramStoreWrite, if_pos hb, State.storeWrite, if_pos hs]

theorem exec_programStoreWrite_busy {b : Fin 4} {k : Fin 64} (src : Master) (v : Word) (hb : s.bedOk b = true)
    (hs : s.bedWasStopped b = false) : exec (.programStoreWrite b k src v) s = .next (s.evt (F.BED_STAT.PSTORE_BUSY b)) := by
  change execProgramStoreWrite b k src v s = _
  rw [execProgramStoreWrite, if_pos hb, State.storeWrite, hs]
  rfl

theorem exec_needleStallTimeout_due (hb : s.bedOk (m / 4) = true) (hs : s.get (F.BED_NSTAT.STATE m) = 2) (h0 : s.get (F.BED_NSTO m) ≠ 0)
    (hw : s.ndlWord m / 65536 ≠ 4 ∨ s.bit (F.BED_NCFG.WAITTO m) = true)
    (ht : s.get (F.BED_NSTO m) + 1 ≤ s.tick10 - (s.getNdl m).stallAt) (he : s.stallEnds m = false) :
    exec (.needleStallTimeout m) s = .next ((s.ndlStop m 2).report (48 + m) (s.getNdl m).pc) := by
  change execNeedleStallTimeout m s = _
  have hw' : (decide (s.ndlWord m / 65536 ≠ 4) || s.bit (F.BED_NCFG.WAITTO m)) = true := by simpa using hw
  refine congrArg Host.Outcome.next (if_pos ?_)
  simp only [hb, hs, h0, hw', ht, he, ne_eq, not_false_eq_true, decide_true, Bool.not_false, Bool.and_self]

/-- Settles O21: a start, a stop or a flag of one needle leaves the others, so a write of BED0_SYNC, BED0_FLAGS or BED0_FSET does with each
what its own step does; the other commands are the updates that their rules name. -/
theorem needlesStartStopAndServeQueues : Obligations.NeedlesStartStopAndServeQueues := by
  unfold Obligations.NeedlesStartStopAndServeQueues
  refine ⟨fun s m src hb hp hs => ?_, fun s m src hp => ?_, fun s m src hb hp hs => ?_, fun s mask src hu => ?_, fun s m v hb hs => ?_,
    fun s m v hs => ?_, fun s m v hb => ?_, fun s m x rest hb hq => ?_, fun s m hb hq => ?_, fun s b k src v hb hs => ?_,
    fun s b k src v hb hs => ?_, fun s mask hb hn => ?_, fun s mask hb hn => ?_, fun s m hb hs h0 hw ht he => ?_⟩
  · exact ⟨_, congrArg Host.Outcome.next (if_pos (by rw [hb, hp]; rfl)), State.ndlStart_shows hs⟩
  · exact congrArg Host.Outcome.next (if_neg (by simp [hp]))
  · exact ⟨_, congrArg Host.Outcome.next (if_pos (by rw [hb, hp]; rfl)), State.ndlStop_shows hs 1⟩
  · refine ⟨_, congrArg Host.Outcome.next (if_pos hu), fun m hm => ⟨fun hbit hb hp hs => ?_, fun hbit => ?_⟩⟩
    · exact State.bedSync_starts (m := ⟨m, hm⟩) hbit hb hp hs
    · exact State.bedSync_spares (m := ⟨m, hm⟩) src hbit
  · refine ⟨_, congrArg Host.Outcome.next ((if_pos hb).trans (if_pos hs)), ?_, fun a ha => s.reg_set _ _ a ha⟩
    exact (s.get_set_self (F.BED_NPC m) (show 0 + 6 ≤ 20 by decide) _).trans (Nat.mod_eq_of_lt v.isLt)
  · refine congrArg Host.Outcome.next ?_
    rw [State.ndlPcWrite, if_neg hs, ite_self]
  · refine ⟨_, congrArg Host.Outcome.next (if_pos hb), ?_⟩
    dsimp only
    unfold State.ndlTxWrite
    by_cases hl : (s.getNdl m).tx.length < s.txSize m
    · rw [if_pos hl, if_pos hl, State.getNdl_updNdl]
      exact ⟨rfl, rfl⟩
    · rw [if_neg hl, if_neg hl]
      exact ⟨State.bit_of_get_one (s.get_evt _ (show 8 + 1 ≤ 20 by decide) (show 0 < 1 by decide)), s.evt_ndl _⟩
  · exact ⟨_, exec_needleRxRead_cons hb hq, rfl, congrArg Ndl.rx (s.getNdl_updNdl m _), rfl⟩
  · exact ⟨_, exec_needleRxRead_empty hb hq, rfl,
      State.bit_of_get_one (s.get_evt (F.BED_NQSTAT.RXUNF m) (show 10 + 1 ≤ 20 by decide) (show 0 < 1 by decide))⟩
  · have hreject : R.BED_PS b k ≠ R.WVL_WLREJ := by
      simp only [R.BED_PS, R.WVL_WLREJ]
      omega
    exact ⟨_, exec_programStoreWrite_stopped src v hb hs, (s.reg_writeCodes src _ v hreject).trans (if_pos rfl)⟩
  · have hstat : R.BED_PS b k ≠ R.BED_STAT b := by
      simp only [R.BED_PS, R.BED_STAT]
      omega
    exact ⟨_, exec_programStoreWrite_busy src v hb hs,
      State.bit_of_get_one (s.get_evt _ (show 0 + 1 ≤ 20 by decide) (show 0 < 1 by decide)), s.reg_evt _ _ hstat⟩
  · refine ⟨_, congrArg Host.Outcome.next (if_pos hb), fun n h16 => ?_⟩
    refine (State.flag_each_masked (m := ⟨n, h16⟩) false mask.toNat (hn n h16)).trans ?_
    cases bitOf mask.toNat n <;> simp
  · refine ⟨_, congrArg Host.Outcome.next (if_pos hb), fun n h16 => ?_⟩
    refine (State.flag_each_masked (m := ⟨n, h16⟩) true mask.toNat (hn n h16)).trans ?_
    cases bitOf mask.toNat n <;> simp
  · obtain ⟨hstate, hcause, -⟩ := State.ndlStop_shows (s := s) (m := m) (by rw [hs]; decide) 2
    have hregs := (s.ndlStop m 2).report_regs (48 + m) (s.getNdl m).pc
    exact ⟨_, exec_needleStallTimeout_due hb hs h0 hw ht he, (State.get_of_regs hregs _).trans hstate,
      (State.get_of_regs hregs _).trans hcause, State.report_pulse _ _ _⟩

end Sys2Proof.Machine
end

section
/-! SUPPORT. What an operation reaches: the fields of the state that it may change, and the ranges of the register file. One lemma per
operation gives its footprint; a chain of operations stays within every footprint that holds each of theirs. -/

set_option Elab.async false

namespace Sys2Proof.Machine

/-- A field of the state. -/
inductive Part where
  | pending | fclk | tb | mtDue | wrapDue | syncDue | tick10 | corr | slewT | tbLog | rd | freeCtr | regs | marks | halls
  | hallErr | nvs | nvsErr | routes | pcr | wvl | inp | trk | bcnOut | bcnIn | pins | stitch | suPos | suPath | suActs | suT
  | inj | ndl | ncl | cht | gau | cmp | tmr | tmrActs | hal | hook | gal | irt | host | stc | tru | can | sent | por
deriving DecidableEq

/-- A footprint: fields of the state, and ranges of register addresses, each from its first address to the one before its end; a range
that ends at 0 has no end. -/
structure Foot where
  parts : List Part
  regs : List (Nat × Nat)

def Foot.has (F : Foot) (p : Part) : Bool := F.parts.contains p

/-- The register at an address is within the footprint. -/
def Foot.holds (F : Foot) (a : Nat) : Bool := F.regs.any fun r => decide (r.1 ≤ a) && (decide (r.2 = 0) || decide (a < r.2))

/-- A footprint within another. -/
def Foot.le (G F : Foot) : Bool :=
  G.parts.all F.has
    && G.regs.all fun r => F.regs.any fun q => decide (q.1 ≤ r.1) && (decide (q.2 = 0) || decide (r.2 ≠ 0) && decide (r.2 ≤ q.2))

/-- The state `s` with the fields of the footprint as `t` has them. -/
def Foot.put (F : Foot) (s t : State) : State :=
  { pending := bif F.has .pending then t.pending else s.pending, fclk := bif F.has .fclk then t.fclk else s.fclk,
    tb := bif F.has .tb then t.tb else s.tb, mtDue := bif F.has .mtDue then t.mtDue else s.mtDue,
    wrapDue := bif F.has .wrapDue then t.wrapDue else s.wrapDue, syncDue := bif F.has .syncDue then t.syncDue else s.syncDue,
    tick10 := bif F.has .tick10 then t.tick10 else s.tick10, corr := bif F.has .corr then t.corr else s.corr,
    slewT := bif F.has .slewT then t.slewT else s.slewT, tbLog := bif F.has .tbLog then t.tbLog else s.tbLog,
    rd := bif F.has .rd then t.rd else s.rd, freeCtr := bif F.has .freeCtr then t.freeCtr else s.freeCtr,
    regs := bif F.has .regs then t.regs else s.regs, marks := bif F.has .marks then t.marks else s.marks,
    halls := bif F.has .halls then t.halls else s.halls, hallErr := bif F.has .hallErr then t.hallErr else s.hallErr,
    nvs := bif F.has .nvs then t.nvs else s.nvs, nvsErr := bif F.has .nvsErr then t.nvsErr else s.nvsErr,
    routes := bif F.has .routes then t.routes else s.routes, pcr := bif F.has .pcr then t.pcr else s.pcr,
    wvl := bif F.has .wvl then t.wvl else s.wvl, inp := bif F.has .inp then t.inp else s.inp,
    trk := bif F.has .trk then t.trk else s.trk, bcnOut := bif F.has .bcnOut then t.bcnOut else s.bcnOut,
    bcnIn := bif F.has .bcnIn then t.bcnIn else s.bcnIn, pins := bif F.has .pins then t.pins else s.pins,
    stitch := bif F.has .stitch then t.stitch else s.stitch, suPos := bif F.has .suPos then t.suPos else s.suPos,
    suPath := bif F.has .suPath then t.suPath else s.suPath, suActs := bif F.has .suActs then t.suActs else s.suActs,
    suT := bif F.has .suT then t.suT else s.suT, inj := bif F.has .inj then t.inj else s.inj,
    ndl := bif F.has .ndl then t.ndl else s.ndl, ncl := bif F.has .ncl then t.ncl else s.ncl,
    cht := bif F.has .cht then t.cht else s.cht, gau := bif F.has .gau then t.gau else s.gau,
    cmp := bif F.has .cmp then t.cmp else s.cmp, tmr := bif F.has .tmr then t.tmr else s.tmr,
    tmrActs := bif F.has .tmrActs then t.tmrActs else s.tmrActs, hal := bif F.has .hal then t.hal else s.hal,
    hook := bif F.has .hook then t.hook else s.hook, gal := bif F.has .gal then t.gal else s.gal,
    irt := bif F.has .irt then t.irt else s.irt, host := bif F.has .host then t.host else s.host,
    stc := bif F.has .stc then t.stc else s.stc, tru := bif F.has .tru then t.tru else s.tru,
    can := bif F.has .can then t.can else s.can, sent := bif F.has .sent then t.sent else s.sent,
    por := bif F.has .por then t.por else s.por }

theorem Foot.put_self (F : Foot) (s : State) : F.put s s = s := by
  simp only [Foot.put, Bool.cond_self]

theorem Foot.put_put (F : Foot) (s t u : State) : F.put (F.put s t) u = F.put s u := by
  have hc {α : Type} (b : Bool) (x y z : α) : (bif b then x else bif b then y else z) = bif b then x else z := by cases b <;> rfl
  simp only [Foot.put, hc]

/-- What a footprint keeps is kept by a larger one. -/
theorem Foot.put_of_le {G F : Foot} (h : ∀ p, G.has p = true → F.has p = true) (s t : State) : F.put s (G.put s t) = G.put s t := by
  have hc {α : Type} (p : Part) (x y : α) :
      (bif F.has p then (bif G.has p then x else y) else y) = bif G.has p then x else y := by
    have := h p
    cases hG : G.has p <;> cases hF : F.has p <;> simp_all
  simp only [Foot.put, hc]

theorem Foot.le_iff {G F : Foot} : G.le F = true ↔ (∀ p, G.has p = true → F.has p = true)
    ∧ ∀ r ∈ G.regs, ∃ q ∈ F.regs, q.1 ≤ r.1 ∧ (q.2 = 0 ∨ r.2 ≠ 0 ∧ r.2 ≤ q.2) := by
  simp [Foot.le, Foot.has]

theorem Foot.holds_iff {F : Foot} {a : Nat} : F.holds a = true ↔ ∃ r ∈ F.regs, r.1 ≤ a ∧ (r.2 = 0 ∨ a < r.2) := by
  simp [Foot.holds]

theorem Foot.holds_false_iff {F : Foot} {a : Nat} : F.holds a = false ↔ ∀ r ∈ F.regs, r.1 ≤ a → r.2 ≠ 0 ∧ r.2 ≤ a := by
  simp [Foot.holds]

theorem Foot.holds_of_le {G F : Foot} (h : G.le F = true) {a : Nat} (ha : G.holds a = true) : F.holds a = true := by
  obtain ⟨-, hr⟩ := Foot.le_iff.1 h
  obtain ⟨r, hr', h1, h2⟩ := Foot.holds_iff.1 ha
  obtain ⟨q, hq, h3, h4⟩ := hr r hr'
  exact Foot.holds_iff.2 ⟨q, hq, h3.trans h1, by omega⟩

/-- A register of a range of the footprint. -/
theorem Foot.holds_range {F : Foot} (lo hi : Nat) {a : Nat} (ha : lo ≤ a ∧ a < hi)
    (hr : (F.regs.any fun q => decide (q.1 ≤ lo) && decide (hi ≤ q.2)) = true := by decide) : F.holds a = true := by
  obtain ⟨q, hq, h'⟩ := List.any_eq_true.1 hr
  simp only [Bool.and_eq_true, decide_eq_true_eq] at h'
  exact Foot.holds_iff.2 ⟨q, hq, by omega⟩

/-- From `s` to `t` nothing changes outside the footprint. -/
structure Reach (F : Foot) (s t : State) : Prop where
  parts : t = F.put s t
  reg : ∀ a, F.holds a = false → t.reg a = s.reg a

variable {F G : Foot} {s₀ s t : State}

/-! ### The rules that every proof is made of -/

theorem Reach.refl (s : State) : Reach F s s := ⟨(F.put_self s).symm, fun _ _ => rfl⟩

theorem Reach.mono (h : Reach G s t) (hle : G.le F = true) : Reach F s t where
  parts := by
    have hp := Foot.put_of_le (Foot.le_iff.1 hle).1 s t
    rwa [← h.parts, eq_comm] at hp
  reg a ha := h.reg a (Bool.eq_false_iff.2 fun hG => by rw [Foot.holds_of_le hle hG] at ha; cases ha)

theorem Reach.trans {s t u : State} (h : Reach F s t) (h' : Reach F t u) : Reach F s u where
  parts := by
    have hp := F.put_put s t u
    rwa [← h.parts, ← h'.parts] at hp
  reg a ha := (h'.reg a ha).trans (h.reg a ha)

/-- An operation at the end of a chain. -/
theorem Reach.then (h : Reach F s₀ s) (h' : Reach G s t) (hle : G.le F = true := by decide) : Reach F s₀ t :=
  h.trans (h'.mono hle)

/-- An update of fields behind the registers. -/
theorem Reach.frame (h : Reach F s₀ s) (hp : t = F.put s t := by rfl) (hr : t.regs = s.regs := by rfl) : Reach F s₀ t :=
  h.trans ⟨hp, fun a _ => congrArg (cellGet resetOf · a) hr⟩

theorem Reach.ite {c : Prop} {_ : Decidable c} (hs : Reach F s₀ s) (ht : Reach F s₀ t) : Reach F s₀ (if c then s else t) := by
  split
  · exact hs
  · exact ht

/-- `if c then f s else s`, in a chain of updates. -/
theorem Reach.when {c : Prop} {_ : Decidable c} (h : Reach F s₀ s) (hf : Reach F s₀ s → Reach F s₀ t) :
    Reach F s₀ (if c then t else s) :=
  .ite (hf h) h

/-- `if c then s else f s`, in a chain of updates. -/
theorem Reach.unless {c : Prop} {_ : Decidable c} (h : Reach F s₀ s) (hf : Reach F s₀ s → Reach F s₀ t) :
    Reach F s₀ (if c then s else t) :=
  .ite h (hf h)

/-- `if c then f s else g s`, in a chain of updates. -/
theorem Reach.branch {c : Prop} {_ : Decidable c} {u : State} (h : Reach F s₀ s) (hf : Reach F s₀ s → Reach F s₀ t)
    (hg : Reach F s₀ s → Reach F s₀ u) : Reach F s₀ (if c then t else u) :=
  .ite (hf h) (hg h)

/-- A loop, each step of which stays within the footprint. -/
theorem Reach.each {α : Type} {l : List α} {f : State → α → State} (h : Reach F s₀ s) (hf : ∀ s x, x ∈ l → Reach F s (f s x)) :
    Reach F s₀ (s.each l f) := by
  induction l generalizing s with
  | nil => exact h
  | cons x l ih => exact ih (h.trans (hf s x (.head _))) fun s y hy => hf s y (.tail _ hy)

theorem Reach.get (h : Reach F s t) {f : Fld} (hf : F.holds f.addr = false := by decide) : t.get f = s.get f :=
  congrArg (fldGet f) (h.reg _ hf)

theorem Reach.bit (h : Reach F s t) {f : Fld} (hf : F.holds f.addr = false := by decide) : t.bit f = s.bit f :=
  State.bit_eq_of_get (h.get hf)

theorem Reach.pcr (h : Reach F s t) (hp : F.has .pcr = false := by decide) : t.pcr = s.pcr := by
  have he := congrArg State.pcr h.parts
  rwa [Foot.put, hp] at he

theorem Reach.cmp (h : Reach F s t) (hp : F.has .cmp = false := by decide) : t.cmp = s.cmp := by
  have he := congrArg State.cmp h.parts
  rwa [Foot.put, hp] at he

/-- The registers outside the ranges, as a statement writes it. -/
theorem Reach.regsIn (h : Reach F s t) (hF : (F.regs.all fun r => decide (r.2 ≠ 0)) = true := by decide) : RegsIn F.regs s t := by
  refine fun a ha => h.reg a (Foot.holds_false_iff.2 fun r hr h1 => ⟨by simpa using List.all_eq_true.1 hF r hr, ?_⟩)
  by_contra h2
  exact ha (List.any_eq_true.2 ⟨r, hr, by simp [h1]; omega⟩)

/-! ### Registers and fields -/

theorem Foot.le_of_has {p : Part} (h : F.has p = true) : (⟨[p], []⟩ : Foot).le F = true := by
  simp [Foot.le, h]

theorem Reach.setReg (h : Reach F s₀ s) {a : Nat} {v : Word} (ha : F.holds a = true := by decide)
    (hp : F.has .regs = true := by decide) : Reach F s₀ (s.setReg a v) :=
  h.trans
    { parts := (Foot.put_of_le (G := ⟨[.regs], []⟩) (Foot.le_iff.1 (Foot.le_of_has hp)).1 s (s.setReg a v)).symm
      reg := fun b hb => s.reg_setReg_ne (fun e => by rw [e, ha] at hb; cases hb) v }

theorem Reach.set (h : Reach F s₀ s) {f : Fld} {v : Nat} (hf : F.holds f.addr = true := by decide)
    (hp : F.has .regs = true := by decide) : Reach F s₀ (s.set f v) :=
  h.setReg hf hp

theorem State.mark_reach {a : Nat} {g : Word → Word} : Reach ⟨[.marks], []⟩ s (s.mark a g) :=
  (Reach.refl s).when fun h => h.frame

theorem Reach.mark (h : Reach F s₀ s) {a : Nat} {g : Word → Word} (hm : F.has .marks = true := by decide) : Reach F s₀ (s.mark a g) :=
  h.then State.mark_reach (Foot.le_of_has hm)

theorem Reach.evt (h : Reach F s₀ s) {f : Fld} (hf : F.holds f.addr = true := by decide) (hp : F.has .regs = true := by decide)
    (hm : F.has .marks = true := by decide) : Reach F s₀ (s.evt f) :=
  (h.mark hm).set hf hp

theorem Reach.evtAt (h : Reach F s₀ s) {f : Fld} {i : Nat} (hf : F.holds f.addr = true := by decide)
    (hp : F.has .regs = true := by decide) (hm : F.has .marks = true := by decide) : Reach F s₀ (s.evtAt f i) :=
  (h.mark hm).set hf hp

theorem Reach.evtAdd (h : Reach F s₀ s) {f : Fld} {k : Nat} (hf : F.holds f.addr = true := by decide)
    (hp : F.has .regs = true := by decide) (hm : F.has .marks = true := by decide) : Reach F s₀ (s.evtAdd f k) :=
  (h.mark hm).set hf hp

/-- A write by the access codes, with its record when it is rejected (R80). -/
theorem Reach.writeCodes (h : Reach F s₀ s) {src : Master} {a : Nat} {v : Word} (ha : F.holds a = true := by decide)
    (hr : F.holds R.WVL_WLREJ = true := by decide) (hp : F.has .regs = true := by decide) (hm : F.has .marks = true := by decide) :
    Reach F s₀ (s.writeCodes src a v) :=
  (h.setReg ha hp).when fun h => (h.set hr hp).evtAdd hr hp hm

theorem Reach.clearRC (h : Reach F s₀ s) {a : Nat} (ha : F.holds a = true := by decide) (hp : F.has .regs = true := by decide) :
    Reach F s₀ (s.clearRC a) :=
  h.unless (·.setReg ha hp)

/-! ### Interrupt sources and findings -/

/-- What a raise reaches: the counts of the sources, the count of lost raises, and a crossing failure that waits (R10, R380). -/
abbrev raiseFoot : Foot := ⟨[.regs, .marks, .por], [(0x6417, 0x6418), (0x6500, 0x6640)]⟩

theorem State.raise_reach {k : Nat} (hk : k < 320) : Reach raiseFoot s (s.raise k) :=
  have hs : raiseFoot.holds (R.IRT_SRC k) = true := Foot.holds_range 0x6500 0x6640 (by simp only [R.IRT_SRC]; omega)
  .ite (.refl s) <| .ite (.frame (.refl s)) <| .ite (.evtAdd (.refl s)) (.set (.refl s) hs)

theorem State.raiseIf_reach {c : Bool} {k : Nat} (hk : k < 320) : Reach raiseFoot s (s.raiseIf c k) :=
  (Reach.refl s).when (·.then (State.raise_reach hk))

theorem State.reportSig_reach {g : FaultSig} : Reach ⟨[.por], []⟩ s (s.reportSig g) :=
  .ite (.refl s) <| .ite (.frame (.refl s)) (.frame (.refl s))

theorem State.report_reach {src det : Nat} : Reach ⟨[.por], []⟩ s (s.report src det) :=
  State.reportSig_reach

theorem State.standOn_reach {src det : Nat} : Reach ⟨[.por], []⟩ s (s.standOn src det) :=
  .ite (.refl s) (.frame (.refl s))

theorem State.standOff_reach {src det : Nat} : Reach ⟨[.por], []⟩ s (s.standOff src det) :=
  .frame (.refl s)

end Sys2Proof.Machine
end

section
/-! SUPPORT. Window comparators: what each operation reaches, and the outputs and zones it leaves (O22, O44). -/

set_option Elab.async false

namespace Sys2Proof.Machine

variable {s₀ s t : State} {w k : Nat}

/-! ### What the operations reach -/

/-- What a change of zone reaches: the zones, their events, their sources and level faults, and the zones noted. -/
abbrev zoneFoot : Foot := ⟨[.regs, .marks, .por, .cmp], [(0x4842, 0x4845), (0x6417, 0x6418), (0x6500, 0x6640)]⟩

/-- The same with the outputs. -/
abbrev winFoot : Foot := ⟨[.regs, .marks, .por, .cmp], [(0x4840, 0x4845), (0x6417, 0x6418), (0x6500, 0x6640)]⟩

/-- What tells of a change of zone: events, sources and level faults. -/
abbrev tellFoot : Foot := ⟨[.regs, .marks, .por], [(0x4844, 0x4845), (0x6417, 0x6418), (0x6500, 0x6640)]⟩

/-- The windows and the ladder behind the registers. -/
abbrev cmpFoot : Foot := ⟨[.cmp], []⟩

theorem State.updCmp_reach {f : CmpBlk → CmpBlk} : Reach cmpFoot s (s.updCmp f) :=
  .frame (.refl s)

theorem State.zoneNote_reach : Reach cmpFoot s s.zoneNote := by
  unfold State.zoneNote
  exact State.updCmp_reach

theorem zoneReg_lt (hw : w < 12) : 0x4842 ≤ R.CMP_ZONE (w / 10) ∧ R.CMP_ZONE (w / 10) < 0x4844 := by
  simp only [R.CMP_ZONE]
  omega

theorem outReg_lt (hk : k < 24) : 0x4840 ≤ R.CMP_OUT (k / 20) ∧ R.CMP_OUT (k / 20) < 0x4842 := by
  simp only [R.CMP_OUT]
  omega

/-- The zone that the outputs of a window give. -/
def State.zoneDue (s : State) (w : Nat) : Nat := zoneOf (s.cmpOut (2 * w)) (s.cmpOut (2 * w + 1))

/-- The zone's register takes the zone due. -/
def State.zoneMoved (s : State) (w : Nat) : State :=
  s.zoneNote.set (F.CMP_ZONE (w / 10)) (s.zoneNote.get (F.CMP_ZONE (w / 10)) + s.zoneDue w * 4 ^ (w % 10) - s.zone w * 4 ^ (w % 10))

/-- The event, the source and the level fault of a change from zone `old` to `z` (R277). -/
def State.zoneTell (s : State) (w old z : Nat) : State :=
  let ev := match s.get (F.CMP_WCFG.IRQ w) with | 0 => false | 1 => true | 2 => z ≠ 1 | _ => z = 1
  let s := if ev then (s.evtAt F.CMP_EVT w).raise (272 + w) else s
  let s := if s.bit (F.CMP_WCFG.PFLT w) && z ≠ 1 then s.standOn (32 + w) z else s
  s.standOff (32 + w) old

theorem State.zoneUpdate_eq : s.zoneUpdate w =
    if s.zoneDue w = s.zone w then s else (s.zoneMoved w).zoneTell w (s.zone w) (s.zoneDue w) := rfl

theorem State.zoneTell_reach (hw : w < 12) {old z : Nat} : Reach tellFoot s (s.zoneTell w old z) := by
  unfold State.zoneTell
  dsimp only
  exact (((Reach.refl s).when fun h => h.evtAt.then (State.raise_reach (by omega))).when (·.then State.standOn_reach)).then
    State.standOff_reach

theorem State.zoneMoved_reach (hw : w < 12) : Reach zoneFoot s (s.zoneMoved w) :=
  have hr : zoneFoot.holds (R.CMP_ZONE (w / 10)) = true := Foot.holds_range 0x4842 0x4844 (zoneReg_lt hw)
  ((Reach.refl s).then State.zoneNote_reach).set hr

theorem State.zoneUpdate_reach (hw : w < 12) : Reach zoneFoot s (s.zoneUpdate w) := by
  rw [State.zoneUpdate_eq]
  exact (Reach.refl s).unless fun _ => (State.zoneMoved_reach hw).then (State.zoneTell_reach hw)

theorem winOut_holds (hk : k < 24) : winFoot.holds (R.CMP_OUT (k / 20)) = true :=
  Foot.holds_range 0x4840 0x4842 (outReg_lt hk)

theorem State.winOutputs_reach (hw : w < 12) {lo hi : Bool} : Reach winFoot s (s.winOutputs w lo hi) :=
  (((Reach.refl s).set (winOut_holds (k := 2 * w) (by omega))).set (winOut_holds (k := 2 * w + 1) (by omega))).then
    (State.zoneUpdate_reach hw)

theorem State.ladderSpare_reach {r : Nat} {out sample : Bool} : Reach cmpFoot s (s.ladderSpare r out sample) := by
  unfold State.ladderSpare
  exact State.updCmp_reach

theorem State.ladderInput_reach {r : Nat} {uv : Int} {sample : Bool} : Reach cmpFoot s (s.ladderInput r uv sample) := by
  unfold State.ladderInput
  split
  · exact (Reach.refl s).when (·.then State.ladderSpare_reach)
  · exact .refl s

theorem State.updWin_reach {f : Win → Win} : Reach cmpFoot s (s.updWin w f) :=
  State.updCmp_reach

theorem State.winSample_reach : Reach cmpFoot s (s.winSample w) :=
  State.updWin_reach

theorem State.winMode_reach (hw : w < 12) {m : Nat} : Reach winFoot s (s.winMode w m) := by
  have h : Reach winFoot s (s.updWin w fun x => { x with eff := m }) := (Reach.refl s).then State.updWin_reach
  exact .ite h (h.when fun h => (((h.then State.updWin_reach).then (State.winOutputs_reach hw)).then State.ladderSpare_reach).then
    State.ladderSpare_reach)

/-! ### The commands leave the rest alone -/

/-- What the commands of comparators, windows and ladder reach. -/
abbrev windowFoot : Foot :=
  ⟨[.regs, .cmp, .por, .stc, .freeCtr, .marks], [(0x800, 0x1000), (0x4800, 0x4C00), (0x6400, 0x6800), (0x7400, 0x7800)]⟩

theorem window_holds {a : Nat} (h : 0x4800 ≤ a ∧ a < 0x4C00) : windowFoot.holds a = true :=
  Foot.holds_range 0x4800 0x4C00 h

theorem cmpCfg_lt (hk : k < 24) : 0x4800 ≤ R.CMP_CFG k ∧ R.CMP_CFG k < 0x4C00 := by
  simp only [R.CMP_CFG]
  omega

theorem wCfg_lt (hw : w < 12) : 0x4800 ≤ R.CMP_WCFG w ∧ R.CMP_WCFG w < 0x4C00 := by
  simp only [R.CMP_WCFG]
  omega

theorem State.winWrite_reach (hw : w < 12) {src : Master} {v : Word} : Reach windowFoot s (s.winWrite w src v) := by
  have h : Reach windowFoot s (s.writeCodes src (R.CMP_WCFG w) v) := (Reach.refl s).writeCodes (window_holds (wCfg_lt hw))
  unfold State.winWrite
  exact (h.unless (·.then State.standOff_reach)).unless (·.then (State.winMode_reach hw))

theorem State.cmpWrite_reach (hk : k < 24) {src : Master} {v : Word} : Reach windowFoot s (s.cmpWrite k src v) := by
  have h : Reach windowFoot s (s.writeCodes src (R.CMP_CFG k) v) := (Reach.refl s).writeCodes (window_holds (cmpCfg_lt hk))
  unfold State.cmpWrite
  exact h.when (·.set (window_holds (cmpCfg_lt hk)))

theorem execComparatorSwitch_reach {k : Fin 24} {uv : Int} : GoesTo (execComparatorSwitch k uv s) (Reach windowFoot s) := by
  have hr : windowFoot.holds (R.CMP_OUT (k / 20)) = true := window_holds ⟨(outReg_lt k.isLt).1.trans' (by decide), (outReg_lt k.isLt).2.trans (by decide)⟩
  exact ⟨_, rfl, (Reach.refl s).when fun h => ((h.set hr).then (State.zoneUpdate_reach (by omega))).then State.ladderInput_reach⟩

theorem execWindowSampleTick_reach {w : Fin 12} : GoesTo (execWindowSampleTick w s) (Reach windowFoot s) := by
  refine ⟨_, rfl, (Reach.refl s).when fun h => ?_⟩
  exact (h.then State.updWin_reach).branch (·.when (·.then State.winSample_reach))
    fun h => (h.when (·.then (State.winMode_reach w.isLt))).when (·.then State.winSample_reach)

theorem execLadderStepStart_reach {lvl : Bool} : GoesTo (execLadderStepStart lvl s) (Reach windowFoot s) :=
  ⟨_, rfl, .ite (.then (.refl s) State.updCmp_reach) ((Reach.refl s).when fun h => h.set.then State.updCmp_reach)⟩

theorem State.ladderHand_reach {r : Nat} : Reach cmpFoot s (s.ladderHand r) := by
  unfold State.ladderHand
  exact State.updCmp_reach

theorem execLadderHandover_reach : GoesTo (execLadderHandover s) (Reach windowFoot s) := by
  refine ⟨_, rfl, ?_⟩
  split
  · exact (Reach.refl s).when (·.then State.ladderHand_reach)
  · exact .refl s

theorem execLadderTestDone_reach {fail : Option (Fin 8)} : GoesTo (execLadderTestDone fail s) (Reach windowFoot s) := by
  refine ⟨_, rfl, ?_⟩
  split
  · refine (Reach.refl s).when fun h => ?_
    have h : Reach windowFoot s ((s.updStc fun x => { x with inc := vupd x.inc 4 fun _ => 0 }).incW F.CMP_CHKCNT.STEPS) :=
      (h.frame (t := s.updStc _)).set
    split
    · exact (h.then State.updCmp_reach).set
    · exact ((((((h.then State.updCmp_reach).set).set).evt.then State.updCmp_reach).set).then State.report_reach).then State.report_reach
  · exact .refl s

/-- A command of the family goes on, within the family's footprint. -/
theorem windowCommand_reach {c : Instr} (hc : windowCommand c = true) : GoesTo (exec c s) (Reach windowFoot s) := by
  unfold windowCommand at hc
  split at hc
  · exact execComparatorSwitch_reach
  · exact execWindowSampleTick_reach
  · exact ⟨_, rfl, (Reach.refl s).when (·.then (State.cmpWrite_reach (Fin.isLt _)))⟩
  · exact ⟨_, rfl, (Reach.refl s).when (·.then (State.winWrite_reach (Fin.isLt _)))⟩
  · exact execLadderStepStart_reach
  · exact execLadderHandover_reach
  · exact execLadderTestDone_reach
  · cases hc

/-- Settles O44: every operation that these commands are made of stays within CMP, STC, IRT and the reject record, and the windows, the
self-test's counts, findings and the events of the clock. -/
theorem windowCommandsKeepTheRest : Obligations.WindowCommandsKeepTheRest := by
  unfold Obligations.WindowCommandsKeepTheRest
  intro c s hc
  obtain ⟨t, ht, h⟩ := windowCommand_reach hc
  exact ⟨t, ht, h.parts, h.regsIn⟩

end Sys2Proof.Machine
end

section
/-! SUPPORT. Window comparators: the outputs, zones, samples, modes and settings that the commands leave (O22). -/

set_option Elab.async false

namespace Sys2Proof.Machine

variable {s t : State}

/-! ### Outputs and zones (R272, R276) -/

/-- An output after one of the outputs is set. -/
theorem State.cmpOut_setBitAt (s : State) {k j : Nat} (b : Bool) :
    (s.setBitAt (F.CMP_OUT (k / 20)) (k % 20) b).cmpOut j = if j = k then b else s.cmpOut j := by
  unfold State.cmpOut
  by_cases h : j = k
  · subst h
    rw [if_pos rfl]
    exact State.bitOf_setBitAt s _ b (by decide : 0 + 20 ≤ 20) (Nat.mod_lt _ (by decide))
  · rw [if_neg h]
    by_cases hd : j / 20 = k / 20
    · rw [hd]
      exact State.bitOf_setBitAt_ne s _ b (by decide : 0 + 20 ≤ 20) (Nat.mod_lt _ (by decide)) (by omega)
    · rw [State.get_setBitAt_apart s _ _ _ b (by decide : 0 + 20 ≤ 20) (fun e => absurd e (by simp only [F.CMP_OUT, R.CMP_OUT]; omega))]

/-- An output keeps its level where its register does. -/
theorem Reach.cmpOut {f : Foot} (h : Reach f s t) (hf : f.holds 0x4840 = false ∧ f.holds 0x4841 = false := by decide) {k : Nat}
    (hk : k < 24) : t.cmpOut k = s.cmpOut k := by
  have hr : f.holds (R.CMP_OUT (k / 20)) = false := by
    obtain ⟨h0, h1⟩ := hf
    rcases (by omega : k / 20 = 0 ∨ k / 20 = 1) with e | e <;> rw [e]
    · exact h0
    · exact h1
  exact congrArg (bitOf · (k % 20)) (h.get (f := F.CMP_OUT (k / 20)) hr)

theorem Reach.zone {f : Foot} (h : Reach f s t) (hf : f.holds 0x4842 = false ∧ f.holds 0x4843 = false := by decide) {w : Nat}
    (hw : w < 12) : t.zone w = s.zone w := by
  have hr : f.holds (R.CMP_ZONE (w / 10)) = false := by
    obtain ⟨h0, h1⟩ := hf
    rcases (by omega : w / 10 = 0 ∨ w / 10 = 1) with e | e <;> rw [e]
    · exact h0
    · exact h1
  exact congrArg (· / 4 ^ (w % 10) % 4) (h.get (f := F.CMP_ZONE (w / 10)) hr)

theorem zoneOf_lt (a b : Bool) : zoneOf a b < 4 := by
  cases a <;> cases b <;> decide

/-- A digit of base 4 of a 20-bit value, replaced. -/
theorem digit_replaced {x z p : Nat} (hp : p < 10) (hz : z < 4) :
    (x + z * 4 ^ p - x / 4 ^ p % 4 * 4 ^ p) % 2 ^ 20 / 4 ^ p % 4 = z := by
  have hpos : 0 < 4 ^ p := Nat.pow_pos (by decide)
  obtain ⟨m, hm⟩ : ∃ m, (2 : Nat) ^ 20 = 4 ^ p * (4 * m) := by
    refine ⟨4 ^ (9 - p), ?_⟩
    rw [← Nat.pow_succ', ← Nat.pow_add, show p + (9 - p).succ = 10 by omega]
    rfl
  have hdiv : (x + z * 4 ^ p - x / 4 ^ p % 4 * 4 ^ p) / 4 ^ p = x / 4 ^ p + z - x / 4 ^ p % 4 := by
    rw [Nat.mul_comm (_ % 4), Nat.sub_mul_div, Nat.add_mul_div_right _ _ hpos]
  rw [hm, Nat.mod_mul_right_div_self, Nat.mod_mul_right_mod, hdiv]
  generalize x / 4 ^ p = q
  omega

theorem State.zone_zoneMoved (s : State) {w : Nat} : (s.zoneMoved w).zone w = s.zoneDue w := by
  rw [State.zoneMoved, State.zone, State.get_set_self _ (F.CMP_ZONE (w / 10)) (by decide : 0 + 20 ≤ 20)]
  have hg : s.zoneNote.get (F.CMP_ZONE (w / 10)) = s.get (F.CMP_ZONE (w / 10)) := State.zoneNote_reach.get rfl
  rw [hg]
  exact digit_replaced (Nat.mod_lt _ (by decide)) (zoneOf_lt _ _)

/-- A window’s zone follows its outputs. -/
theorem State.zone_zoneUpdate (s : State) {w : Nat} (hw : w < 12) : (s.zoneUpdate w).zone w = s.zoneDue w := by
  rw [State.zoneUpdate_eq]
  split
  case isTrue h => exact h.symm
  case isFalse h => rw [(State.zoneTell_reach hw).zone (by decide) hw, s.zone_zoneMoved]

theorem Reach.zoneDue {f : Foot} (h : Reach f s t) (hf : f.holds 0x4840 = false ∧ f.holds 0x4841 = false := by decide) {w : Nat}
    (hw : w < 12) : t.zoneDue w = s.zoneDue w := by
  rw [State.zoneDue, State.zoneDue, h.cmpOut hf (by omega), h.cmpOut hf (by omega)]

/-! ### Windows behind the registers -/

theorem State.getWin_updWin (s : State) {w : Nat} (hw : w < 12) (f : Win → Win) : (s.updWin w f).getWin w = f (s.getWin w) :=
  vget_vupd_self s.cmp.win hw f Win.reset

/-- The table of the windows is the same in both states. -/
def SameWin (s t : State) : Prop := t.cmp.win = s.cmp.win

theorem SameWin.getWin (h : SameWin s t) (w : Nat) : t.getWin w = s.getWin w :=
  congrArg (vget · w Win.reset) h

theorem Reach.sameWin {f : Foot} (h : Reach f s t) (hc : f.has .cmp = false := by decide) : SameWin s t :=
  congrArg CmpBlk.win (h.cmp hc)

theorem State.sameWin_zoneUpdate (s : State) {w : Nat} (hw : w < 12) : SameWin s (s.zoneUpdate w) := by
  rw [State.zoneUpdate_eq]
  split
  · rfl
  · have hn : SameWin s s.zoneNote := rfl
    have hm : SameWin s.zoneNote (s.zoneMoved w) := congrArg CmpBlk.win (State.set_cmp _ _ _)
    exact (State.zoneTell_reach hw).sameWin.trans (hm.trans hn)

theorem State.sameWin_ladderInput (s : State) (r : Nat) (uv : Int) (b : Bool) : SameWin s (s.ladderInput r uv b) := by
  unfold State.ladderInput
  split
  · split <;> rfl
  · rfl

/-- Both outputs of a window, its zone, and what stands behind them, when it takes levels. -/
theorem State.winOutputs_shows (s : State) {w : Nat} (hw : w < 12) (lo hi : Bool) :
    (s.winOutputs w lo hi).cmpOut (2 * w) = lo ∧ (s.winOutputs w lo hi).cmpOut (2 * w + 1) = hi
    ∧ (s.winOutputs w lo hi).zone w = zoneOf lo hi ∧ SameWin s (s.winOutputs w lo hi) := by
  set u := (s.setBitAt (F.CMP_OUT (2 * w / 20)) (2 * w % 20) lo).setBitAt (F.CMP_OUT ((2 * w + 1) / 20)) ((2 * w + 1) % 20) hi with hu
  have he : s.winOutputs w lo hi = u.zoneUpdate w := rfl
  have hlo : u.cmpOut (2 * w) = lo := by
    rw [hu, State.cmpOut_setBitAt, if_neg (by omega), State.cmpOut_setBitAt, if_pos rfl]
  have hhi : u.cmpOut (2 * w + 1) = hi := by rw [hu, State.cmpOut_setBitAt, if_pos rfl]
  have hs : SameWin s u := by rw [SameWin, hu, State.setBitAt_cmp, State.setBitAt_cmp]
  have hz := State.zoneUpdate_reach (s := u) hw
  rw [he]
  refine ⟨(hz.cmpOut (by decide) (by omega)).trans hlo, (hz.cmpOut (by decide) (by omega)).trans hhi, ?_, (u.sameWin_zoneUpdate hw).trans hs⟩
  rw [u.zone_zoneUpdate hw, State.zoneDue, hlo, hhi]

/-! ### Modes (R274, R278) -/

theorem State.sameWin_ladderSpare (s : State) (r : Nat) (out b : Bool) : SameWin s (s.ladderSpare r out b) := rfl

/-- A change of mode that neither enters nor leaves off changes the mode alone. -/
theorem State.winMode_within (s : State) {w m : Nat} (h : (s.getWin w).eff = m ∨ (s.getWin w).eff ≠ 0 ∧ m ≠ 0) :
    s.winMode w m = s.updWin w fun x => { x with eff := m } := by
  unfold State.winMode
  dsimp only
  split
  case isTrue => rfl
  case isFalse hne =>
    obtain ⟨h0, hm⟩ := h.resolve_left hne
    rw [if_neg (by simp [h0, hm])]

/-- One that enters or leaves off makes both outputs low, and ends a sample. -/
theorem State.winMode_across (s : State) {w m : Nat} (hw : w < 12) (h : (s.getWin w).eff ≠ m) (h0 : (s.getWin w).eff = 0 ∨ m = 0) :
    (s.winMode w m).getWin w = { s.getWin w with eff := m, sample := false, due := false } ∧ (s.winMode w m).cmpOut (2 * w) = false
    ∧ (s.winMode w m).cmpOut (2 * w + 1) = false ∧ (s.winMode w m).zone w = 0 := by
  unfold State.winMode
  dsimp only
  rw [if_neg h, if_pos (by simpa using h0)]
  set u := (s.updWin w fun x => { x with eff := m }).updWin w fun x => { x with sample := false, due := false } with hu
  have hwin : u.getWin w = { s.getWin w with eff := m, sample := false, due := false } := by
    rw [hu, State.getWin_updWin _ hw, State.getWin_updWin _ hw]
  obtain ⟨hlo, hhi, hz, hsame⟩ := u.winOutputs_shows hw false false
  set v := u.winOutputs w false false
  have hr : Reach cmpFoot v ((v.ladderSpare (2 * w) false false).ladderSpare (2 * w + 1) false false) :=
    ((Reach.refl v).then State.ladderSpare_reach).then State.ladderSpare_reach
  have hs : SameWin v ((v.ladderSpare (2 * w) false false).ladderSpare (2 * w + 1) false false) :=
    (State.sameWin_ladderSpare _ _ _ _).trans (v.sameWin_ladderSpare _ _ _)
  exact ⟨(hs.getWin w).trans ((hsame.getWin w).trans hwin), (hr.cmpOut (by decide) (by omega)).trans hlo,
    (hr.cmpOut (by decide) (by omega)).trans hhi, (hr.zone (by decide) hw).trans hz⟩

/-! ### Settings by the access codes -/

theorem mod_word_div_mod (x : Nat) {lo len : Nat} (h : lo + len ≤ 20) : x % 2 ^ 20 / 2 ^ lo % 2 ^ len = x / 2 ^ lo % 2 ^ len := by
  obtain ⟨k, hk⟩ := Nat.le.dest h
  rw [← hk, Nat.pow_add, Nat.pow_add, Nat.mul_assoc, Nat.mod_mul_right_div_self, Nat.mod_mul_right_mod]

/-- A field of a register that is written by the access codes. -/
theorem State.get_writeCodes_self (s : State) (src : Master) (v : Word) (f : Fld) (hf : f.lo + f.len ≤ 20) (ha : f.addr ≠ R.WVL_WLREJ) :
    (s.writeCodes src f.addr v).get f = s.merged src f.addr (s.reg f.addr).toNat v.toNat / 2 ^ f.lo % 2 ^ f.len := by
  rw [State.get, State.reg_writeCodes s src f.addr v ha, if_pos rfl, fldGet, BitVec.toNat_ofNat, mod_word_div_mod _ hf]

theorem wCfg_ne_reject (w : Nat) : R.CMP_WCFG w ≠ R.WVL_WLREJ := by
  simp only [R.CMP_WCFG, R.WVL_WLREJ]
  omega

theorem cmpCfg_ne_reject (k : Nat) : R.CMP_CFG k ≠ R.WVL_WLREJ := by
  simp only [R.CMP_CFG, R.WVL_WLREJ]
  omega

/-- The settings and the fault that a write of CMP_WCFGw leaves, before its mode comes into force. -/
def State.winSet (s : State) (w : Nat) (src : Master) (v : Word) : State :=
  let u := s.writeCodes src (R.CMP_WCFG w) v
  if u.bit (F.CMP_WCFG.PFLT w) then u else u.standOff (32 + w) (u.zone w)

theorem State.mode_writeCodes (s : State) (w : Nat) (src : Master) (v : Word) :
    (s.writeCodes src (R.CMP_WCFG w) v).get (F.CMP_WCFG.MODE w) = s.merged src (R.CMP_WCFG w) (s.reg (R.CMP_WCFG w)).toNat v.toNat % 4 :=
  (s.get_writeCodes_self src v (F.CMP_WCFG.MODE w) (by decide : 0 + 2 ≤ 20) (wCfg_ne_reject w)).trans (congrArg (· % 4) (Nat.div_one _))

theorem winFoot_cfg {w : Nat} (hw : w < 12) : winFoot.holds (R.CMP_WCFG w) = false := by
  simp [Foot.holds_false_iff, R.CMP_WCFG]
  omega

theorem State.winSet_shows (s : State) {w : Nat} (hw : w < 12) (src : Master) (v : Word) :
    (s.winSet w src v).get (F.CMP_WCFG.MODE w) = s.merged src (R.CMP_WCFG w) (s.reg (R.CMP_WCFG w)).toNat v.toNat % 4
    ∧ SameWin s (s.winSet w src v) ∧ (s.winSet w src v).get (F.CMP_OUT 0) = s.get (F.CMP_OUT 0) := by
  have ha : (⟨[.regs, .marks], [(0x80A, 0x80B), (0x4820, 0x4840)]⟩ : Foot).holds (R.CMP_WCFG w) = true :=
    Foot.holds_range 0x4820 0x4840 (by simp only [R.CMP_WCFG]; omega)
  have hu : Reach ⟨[.regs, .marks], [(0x80A, 0x80B), (0x4820, 0x4840)]⟩ s (s.writeCodes src (R.CMP_WCFG w) v) := (Reach.refl s).writeCodes ha
  have hr : Reach ⟨[.por], []⟩ (s.writeCodes src (R.CMP_WCFG w) v) (s.winSet w src v) := (Reach.refl _).unless (·.then State.standOff_reach)
  exact ⟨(hr.get rfl).trans (s.mode_writeCodes w src v), hr.sameWin.trans hu.sameWin, hr.get.trans hu.get⟩

/-! ### The commands -/

theorem exec_comparatorSwitch {k : Fin 24} {uv : Int} (hi : s.islandUp .management = true) (hp : s.pcr.watch = false)
    (he : (s.getWin (k / 2)).eff = 1) :
    exec (.comparatorSwitch k uv) s =
      .next (((s.setBitAt (F.CMP_OUT (k / 20)) (k % 20) (s.cmpEval k uv)).zoneUpdate (k / 2)).ladderInput k uv false) :=
  congrArg Host.Outcome.next (if_pos (by simp [hi, hp, he]))

/-- The window as a tick that is taken leaves it, before its sample (R274). -/
def State.winTicked (s : State) (w : Nat) : State :=
  if (s.updWin w fun x => { x with due := false }).get (F.CMP_WCFG.MODE w) = 2 then (s.updWin w fun x => { x with due := false }).winMode w 2
  else s.updWin w fun x => { x with due := false }

theorem State.winTicked_shows (s : State) {w : Nat} (hw : w < 12) (hs : (s.getWin w).sample = false)
    (h : (s.getWin w).eff = 2 ∨ s.get (F.CMP_WCFG.MODE w) = 2) :
    ((s.winTicked w).getWin w).eff = 2 ∧ ((s.winTicked w).getWin w).sample = false ∧ ((s.winTicked w).getWin w).due = false := by
  have hg : (s.updWin w fun x => { x with due := false }).getWin w = { s.getWin w with due := false } := s.getWin_updWin hw _
  unfold State.winTicked
  split
  case isTrue =>
    by_cases h0 : (s.getWin w).eff = 0
    · obtain ⟨hwin, -⟩ := (s.updWin w fun x => { x with due := false }).winMode_across (m := 2) hw (by rw [hg, h0]; decide)
        (.inl (by rw [hg, h0]))
      rw [hwin]
      exact ⟨rfl, rfl, rfl⟩
    · rw [State.winMode_within _ (.inr ⟨by rwa [hg], by decide⟩), State.getWin_updWin _ hw, hg]
      exact ⟨rfl, hs, rfl⟩
  case isFalse hm =>
    rw [hg]
    exact ⟨h.resolve_right hm, hs, rfl⟩

/-- A tick of a window that is sampled already writes no register. -/
theorem State.winTicked_regs (s : State) {w : Nat} (hw : w < 12) (h : (s.getWin w).eff = 2) : (s.winTicked w).regs = s.regs := by
  unfold State.winTicked
  rw [State.winMode_within _ (.inl ((congrArg Win.eff (s.getWin_updWin hw _)).trans h))]
  split <;> rfl

theorem exec_windowSampleTick {w : Fin 12} (hi : s.islandUp .management = true) (hp : s.pcr.watch = false)
    (hd : (s.getWin w).due = true) (hs : (s.getWin w).sample = false) (h : (s.getWin w).eff = 2 ∨ s.get (F.CMP_WCFG.MODE w) = 2) :
    exec (.windowSampleTick w) s = .next ((s.winTicked w).winSample w) := by
  obtain ⟨heff, hsmp, -⟩ := s.winTicked_shows w.isLt hs h
  refine congrArg Host.Outcome.next ((if_pos (by simp [hi, hd])).trans ((if_neg (Bool.eq_false_iff.1 hp)).trans (if_pos ?_)))
  change (decide (((s.winTicked w).getWin w).eff = 2) && !((s.winTicked w).getWin w).sample) = true
  rw [heff, hsmp]
  rfl

theorem State.getWin_winSample (s : State) {w : Nat} (hw : w < 12) :
    (s.winSample w).getWin w = { s.getWin w with sample := true, sampT := s.fclk } :=
  s.getWin_updWin hw _

/-- What the latch of a sample leaves: both levels, the zone that they give, and the spare’s output with them. -/
def State.winLatched (s : State) (w : Nat) (lo hi : Int) : State :=
  (((s.updWin w fun x => { x with sample := false }).winOutputs w (s.cmpEval (2 * w) lo) (s.cmpEval (2 * w + 1) hi)).ladderInput
    (2 * w) lo true).ladderInput (2 * w + 1) hi true

theorem State.winLatch_eq (s : State) (w : Nat) (lo hi : Int) : s.winLatch w lo hi =
    if s.islandUp .management && (s.getWin w).sample && (s.pcr.watch || decide ((s.getWin w).sampT + 800 ≤ s.fclk)) then
      (s.winLatched w lo hi, (s.winLatched w lo hi).pcr.watch && (s.winLatched w lo hi).bit (F.CMP_WCFG.WAKE w)
        && (s.winLatched w lo hi).winEvent w (s.zone w) ((s.winLatched w lo hi).zone w))
    else (s, false) := rfl

theorem State.winLatched_reach {w : Nat} (hw : w < 12) {lo hi : Int} : Reach winFoot s (s.winLatched w lo hi) :=
  ((((Reach.refl s).then State.updWin_reach).then (State.winOutputs_reach hw)).then State.ladderInput_reach).then State.ladderInput_reach

theorem State.winLatched_shows (s : State) {w : Nat} (hw : w < 12) (lo hi : Int) :
    (s.winLatched w lo hi).cmpOut (2 * w) = s.cmpEval (2 * w) lo ∧ (s.winLatched w lo hi).cmpOut (2 * w + 1) = s.cmpEval (2 * w + 1) hi
    ∧ ((s.winLatched w lo hi).getWin w).sample = false
    ∧ (s.winLatched w lo hi).zone w = zoneOf (s.cmpEval (2 * w) lo) (s.cmpEval (2 * w + 1) hi) := by
  obtain ⟨hlo, hhi, hz, hs⟩ :=
    (s.updWin w fun x => { x with sample := false }).winOutputs_shows hw (s.cmpEval (2 * w) lo) (s.cmpEval (2 * w + 1) hi)
  have hl {u : State} : Reach cmpFoot u ((u.ladderInput (2 * w) lo true).ladderInput (2 * w + 1) hi true) :=
    ((Reach.refl u).then State.ladderInput_reach).then State.ladderInput_reach
  have hw' : SameWin (s.updWin w fun x => { x with sample := false }) (s.winLatched w lo hi) :=
    (State.sameWin_ladderInput _ (2 * w + 1) hi true).trans ((State.sameWin_ladderInput _ (2 * w) lo true).trans hs)
  refine ⟨(hl.cmpOut (by decide) (by omega)).trans hlo, (hl.cmpOut (by decide) (by omega)).trans hhi, ?_,
    (hl.zone (by decide) hw).trans hz⟩
  exact (congrArg Win.sample (hw'.getWin w)).trans (congrArg Win.sample (s.getWin_updWin hw _))

theorem exec_windowSampleLatch {w : Fin 12} {lo hi : Int} (hu : s.islandUp .management = true) (hp : s.pcr.watch = false)
    (hs : (s.getWin w).sample = true) (ht : (s.getWin w).sampT + 800 ≤ s.fclk) :
    exec (.windowSampleLatch w lo hi) s = .next (s.winLatched w lo hi) := by
  have hq : (s.winLatched w lo hi).pcr.watch = false := (congrArg Pcr.watch (State.winLatched_reach w.isLt).pcr).trans hp
  have hl : s.winLatch w lo hi = (s.winLatched w lo hi, false) := by
    rw [State.winLatch_eq, if_pos (by simp [hu, hs, ht]), hq, Bool.false_and, Bool.false_and]
  change execWindowSampleLatch w lo hi s = _
  rw [execWindowSampleLatch, hl]
  exact congrArg Host.Outcome.next (if_neg (by simp))

theorem exec_windowModeWrite {w : Fin 12} {src : Master} {v : Word} (hu : s.islandUp .management = true) {m : Nat}
    (hm : s.merged src (R.CMP_WCFG w) (s.reg (R.CMP_WCFG w)).toNat v.toNat % 4 = m) :
    exec (.windowModeWrite w src v) s = .next (if m % 3 = 2 then s.winSet w src v else (s.winSet w src v).winMode w (m % 3)) := by
  rw [← hm, ← s.mode_writeCodes w src v]
  exact congrArg Host.Outcome.next (if_pos hu)

/-- A write of a setting of which the fixed wiring owns SEL. -/
theorem State.cmpWrite_wired (s : State) {k : Nat} (src : Master) (v : Word) (hk : k < 16) :
    s.cmpWrite k src v = (s.writeCodes src (R.CMP_CFG k) v).set (F.CMP_CFG.SEL k) (s.get (F.CMP_CFG.SEL k)) :=
  if_pos (by simp [hk])

/-- A write of a setting that nothing else owns. -/
theorem State.cmpWrite_free (s : State) {k : Nat} (src : Master) (v : Word) (hk : k < 24) (hi : 16 ≤ k)
    (he : k % 2 = 1 ∨ s.bit (F.CMP_WCFG.EOI (k / 2)) = false) : s.cmpWrite k src v = s.writeCodes src (R.CMP_CFG k) v := by
  have hr : (s.writeCodes src (R.CMP_CFG k) v).reg (R.CMP_WCFG (k / 2)) = s.reg (R.CMP_WCFG (k / 2)) := by
    rw [State.reg_writeCodes _ _ _ _ (wCfg_ne_reject _), if_neg (by simp only [R.CMP_WCFG, R.CMP_CFG]; omega)]
  have hb : (s.writeCodes src (R.CMP_CFG k) v).bit (F.CMP_WCFG.EOI (k / 2)) = s.bit (F.CMP_WCFG.EOI (k / 2)) :=
    State.bit_eq_of_get (congrArg (fldGet (F.CMP_WCFG.EOI (k / 2))) hr)
  refine if_neg ?_
  rw [hb]
  rcases he with h | h <;> simp [h, hi]

theorem exec_comparatorConfigWrite {k : Fin 24} {src : Master} {v : Word} (hu : s.islandUp .management = true) :
    exec (.comparatorConfigWrite k src v) s = .next (s.cmpWrite k src v) :=
  congrArg Host.Outcome.next (if_pos hu)

/-- Settles O22: a change of an output, a sample’s latch and a change of mode all end in the update of the zone, which replaces the window’s
digit of CMP_ZONE; beside it nothing of the windows changes. -/
theorem windowsFollowTheirInputs : Obligations.WindowsFollowTheirInputs := by
  unfold Obligations.WindowsFollowTheirInputs
  refine ⟨fun s k uv hi hp he => ?_, fun s w hi hp hd he hs => ?_, fun s w hi hp hd hm hs => ?_, fun s w lo hi hi' hp hs ht => ?_,
    fun s w src v hi hm h0 => ?_, fun s w src v hi hm => ?_, fun s k src v hi hk he => ?_, fun s k src v hi hk => ?_⟩
  · refine ⟨_, exec_comparatorSwitch hi hp he, ?_⟩
    set u := s.setBitAt (F.CMP_OUT (k / 20)) (k % 20) (s.cmpEval k uv) with hu
    have hz := State.zoneUpdate_reach (s := u) (w := k / 2) (by omega)
    have hl : Reach cmpFoot (u.zoneUpdate (k / 2)) ((u.zoneUpdate (k / 2)).ladderInput k uv false) := State.ladderInput_reach
    have hout (j : Nat) (hj : j < 24) : ((u.zoneUpdate (k / 2)).ladderInput k uv false).cmpOut j = u.cmpOut j :=
      (hl.cmpOut (by decide) hj).trans (hz.cmpOut (by decide) hj)
    refine ⟨?_, fun j hj hne => ?_, ?_⟩
    · rw [hout k k.isLt, hu, State.cmpOut_setBitAt, if_pos rfl]
    · rw [hout j hj, hu, State.cmpOut_setBitAt, if_neg hne]
    · rw [hl.zone (by decide) (by omega), u.zone_zoneUpdate (by omega), hout _ (by omega), hout _ (by omega), State.zoneDue]
  · obtain ⟨-, -, hdue⟩ := s.winTicked_shows w.isLt hs (.inl he)
    refine ⟨_, exec_windowSampleTick hi hp hd hs (.inl he), ?_, ?_, s.winTicked_regs w.isLt he⟩ <;> rw [State.getWin_winSample _ w.isLt]
    exact hdue
  · obtain ⟨heff, -⟩ := s.winTicked_shows w.isLt hs (.inr hm)
    refine ⟨_, exec_windowSampleTick hi hp hd hs (.inr hm), ?_, ?_⟩ <;> rw [State.getWin_winSample _ w.isLt]
    exact heff
  · exact ⟨_, exec_windowSampleLatch hi' hp hs ht, s.winLatched_shows w.isLt lo hi⟩
  · obtain ⟨hmode, hsame, -⟩ := s.winSet_shows w.isLt src v
    rw [hm] at hmode
    obtain ⟨hwin, hlo, hhi, hz⟩ := (s.winSet w src v).winMode_across (m := 1) w.isLt (by rw [hsame.getWin, h0]; decide)
      (.inl ((congrArg Win.eff (hsame.getWin w)).trans h0))
    have hcfg : winFoot.holds (R.CMP_WCFG w) = false := winFoot_cfg w.isLt
    exact ⟨_, exec_windowModeWrite hi hm, ((State.winMode_reach w.isLt).get hcfg).trans hmode, congrArg Win.eff hwin, hlo, hhi, hz⟩
  · obtain ⟨hmode, hsame, hout⟩ := s.winSet_shows w.isLt src v
    rw [hm] at hmode
    exact ⟨_, exec_windowModeWrite hi hm, hmode, congrArg Win.eff (hsame.getWin w), hout⟩
  · exact ⟨_, (exec_comparatorConfigWrite hi).trans (congrArg _ (s.cmpWrite_free src v k.isLt hk he)),
      (State.reg_writeCodes _ _ _ _ (cmpCfg_ne_reject k)).trans (if_pos rfl)⟩
  · refine ⟨_, (exec_comparatorConfigWrite hi).trans (congrArg _ (s.cmpWrite_wired src v hk)), ?_, ?_⟩
    · rw [State.get_set_self _ (F.CMP_CFG.SEL k) (by decide : 12 + 5 ≤ 20)]
      exact Nat.mod_eq_of_lt (s.get_lt (F.CMP_CFG.SEL k))
    · rw [State.get_set_disj _ (F.CMP_CFG.SEL k) (F.CMP_CFG.THR k) rfl (by decide : 12 + 5 ≤ 20) (.inr (by decide : 0 + 10 ≤ 12))]
      exact s.get_writeCodes_self src v (F.CMP_CFG.THR k) (by decide : 0 + 10 ≤ 20) (cmpCfg_ne_reject k)

end Sys2Proof.Machine
end

section
/-! SUPPORT. The reference-ladder rotation: a step’s start, the hand-over, and the test of the freed unit (O23). -/

set_option Elab.async false

namespace Sys2Proof.Machine

variable {s t : State}

/-! ### Findings that are reported one after the other -/

/-- A finding on its pair stays there when another is reported. -/
theorem State.pulse_report (s : State) {k : Nat} (a d : Nat) (h : (s.por.pulses.any fun p => p.src = k) = true) :
    ((s.report a d).por.pulses.any fun p => p.src = k) = true := by
  unfold State.report State.reportSig
  dsimp only
  split_ifs
  · exact h
  · simp [List.any_append, h]
  · simp [List.any_append, h]

/-! ### A step starts -/

theorem exec_ladderStepStart {lvl : Bool} (hr : s.running = true) (hc : s.cmp.cut = false) (hn : s.cmp.step = none)
    (hsp : s.bit F.STC_STAT.WSPARE = true) (ht : s.cmp.stepT + s.wStep ≤ s.fclk) {out : Bool}
    (ho : out = (lvl && decide ((s.getWin (s.cmp.nextRole / 2)).eff ≠ 0))) :
    exec (.ladderStepStart lvl) s = .next ((s.set F.CMP_CHK.ROLE s.cmp.nextRole).updCmp fun c =>
      { c with step := some ⟨s.cmp.nextRole, none, out, if out = s.cmpOut s.cmp.nextRole then some s.fclk else none, false⟩
               stepT := s.fclk }) := by
  subst ho
  change Host.Outcome.next _ = _
  rw [if_neg (by simp [hc]), if_pos (by simp [hr, hn, hsp, ht])]
  simp only [decide_eq_true_eq]

/-! ### Hand-over -/

theorem State.cmp_ladderHand (s : State) (r : Nat) : (s.ladderHand r).cmp = { s.cmp with
    unit := vupd s.cmp.unit r fun _ => s.get F.CMP_CHK.SPARE
    step := some ⟨r, some (vget s.cmp.unit r 0), false, none, false⟩
    freedT := s.fclk } := rfl

theorem State.unit_ladderHand (s : State) {r : Nat} (hr : r < 24) : vget (s.ladderHand r).cmp.unit r 0 = s.get F.CMP_CHK.SPARE :=
  vget_vupd_self s.cmp.unit hr _ 0

theorem exec_ladderHandover {x : LadderStep} (hr : s.running = true) (hs : s.cmp.step = some x) (hf : x.freed = none)
    (ha : s.ladderAgreed x = true) : exec .ladderHandover s = .next (s.ladderHand x.role) := by
  change Host.Outcome.next _ = _
  rw [hs]
  exact congrArg _ (if_pos (by simp [hr, hf, ha]))

theorem exec_ladderHandoverForced {x : LadderStep} (hr : s.running = true) (hs : s.cmp.step = some x) (hf : x.freed = none)
    (ht : s.cmp.stepT + 400000 ≤ s.fclk) (ha : s.ladderAgreed x = false) :
    exec .ladderHandoverForced s = .next ((((s.ladderHand x.role).inc F.CMP_CHKCNT.FORCED).setBitAt (F.CMP_OUT (x.role / 20)) (x.role % 20)
      x.spare).zoneUpdate (x.role / 2)) := by
  change Host.Outcome.next _ = _
  rw [hs]
  exact congrArg _ (if_pos (by simp [hr, hf, ht, ha]))

/-- An update of a zone notes the zones before it, and leaves the rest of the windows as it was. -/
theorem State.cmp_zoneUpdate (s : State) {w : Nat} (hw : w < 12) : ∃ z, (s.zoneUpdate w).cmp = { s.cmp with zPrev := z } := by
  rw [State.zoneUpdate_eq]
  split
  · exact ⟨s.cmp.zPrev, rfl⟩
  · have hm : (s.zoneMoved w).cmp = s.zoneNote.cmp := State.set_cmp _ _ _
    exact ⟨s.zoneNote.cmp.zPrev, (State.zoneTell_reach hw).cmp.trans hm⟩

theorem chkcnt_ne_out {k : Nat} (hk : k < 24) : R.CMP_CHKCNT ≠ R.CMP_OUT (k / 20) := by
  simp only [R.CMP_CHKCNT, R.CMP_OUT]
  omega

theorem satAdd_le (x k m : Nat) : satAdd x k m ≤ m := by
  unfold satAdd
  split <;> omega

/-! ### The test of the freed unit ends -/

/-- The step ends and is counted (R279). -/
def State.ladderTested (s : State) (r u : Nat) : State :=
  ((s.updStc fun x => { x with inc := vupd x.inc 4 fun _ => 0 }).incW F.CMP_CHKCNT.STEPS).updCmp fun c =>
    { c with step := none, nextRole := (r + 1) % 24, done := cellIns u s.fclk (cellDel u c.done) }

theorem State.steps_ladderTested (s : State) (r u : Nat) :
    (s.ladderTested r u).get F.CMP_CHKCNT.STEPS = (s.get F.CMP_CHKCNT.STEPS + 1) % 1024 :=
  (s.updStc fun x => { x with inc := vupd x.inc 4 fun _ => 0 }).get_set_self F.CMP_CHKCNT.STEPS (by decide) _

theorem exec_ladderTestDone {r u : Nat} {sp sm : Bool} {ag : Option Nat} (hr : s.running = true) (hc : s.cmp.cut = false)
    (hs : s.cmp.step = some ⟨r, some u, sp, ag, sm⟩) (ht : s.cmp.freedT + 64000 ≤ s.fclk) (fail : Option (Fin 8)) :
    exec (.ladderTestDone fail) s = .next (match fail with
      | none => (s.ladderTested r u).set F.CMP_CHK.SPARE u
      | some p => ((((((s.ladderTested r u).set F.CMP_CHK.FROLE r).set F.CMP_CHK.FPOINT p).evt F.CMP_CHK.FAIL).updCmp fun c =>
          { c with noSpare := true }).set F.STC_STAT.WSPARE 0 |>.report 44 r).report 85 4) := by
  change Host.Outcome.next _ = _
  rw [hs]
  exact congrArg _ (if_pos (by simp [hr, hc, ht]))

/-- Settles O23: the start, the hand-over and the end of a test are single updates; a forced hand-over is one followed by the update of the
zone, which leaves the units alone. -/
theorem ladderRotationTestsEveryUnit : Obligations.LadderRotationTestsEveryUnit := by
  unfold Obligations.LadderRotationTestsEveryUnit
  refine ⟨fun s lvl out hr hc hn hsp ht ho => ?_, fun s r x hr hs hrole hf ha => ?_, fun s r x hr hs hrole hf ht ha => ?_,
    fun s r u sp sm ag hr hc hs ht => ?_, fun s r u sp sm ag p hr hc hs ht => ?_⟩
  · exact ⟨_, exec_ladderStepStart hr hc hn hsp ht ho, rfl, State.get_set_self s F.CMP_CHK.ROLE (by decide) _, rfl, rfl⟩
  · refine ⟨_, exec_ladderHandover hr hs hf ha, ?_, ?_, ?_, ?_⟩ <;> rw [hrole]
    · rfl
    · exact s.unit_ladderHand r.isLt
    · rfl
    · rfl
  · refine ⟨_, exec_ladderHandoverForced hr hs hf ht ha, ?_⟩
    rw [hrole]
    set u := (s.ladderHand r).inc F.CMP_CHKCNT.FORCED with hu
    set v := u.setBitAt (F.CMP_OUT (r / 20)) (r % 20) x.spare with hv
    have hz : Reach zoneFoot v (v.zoneUpdate (r / 2)) := State.zoneUpdate_reach (by omega)
    obtain ⟨z, hcmp⟩ := v.cmp_zoneUpdate (w := r / 2) (by omega)
    have hforced : u.get F.CMP_CHKCNT.FORCED = satAdd (s.get F.CMP_CHKCNT.FORCED) 1 1023 := by
      rw [hu, State.inc, State.get_set_self _ F.CMP_CHKCNT.FORCED (by decide)]
      exact Nat.mod_eq_of_lt (Nat.lt_succ_of_le (satAdd_le _ 1 1023))
    refine ⟨?_, ?_, ?_, ?_⟩
    · rw [hz.cmpOut (by decide) r.isLt, hv, State.cmpOut_setBitAt, if_pos rfl]
    · have hunit : (v.zoneUpdate (r / 2)).cmp.unit = v.cmp.unit := by rw [hcmp]
      rw [hunit, hv, State.setBitAt_cmp, hu, State.inc_cmp, s.unit_ladderHand r.isLt]
    · rw [v.zone_zoneUpdate (by omega), hz.cmpOut (by decide) (by omega), hz.cmpOut (by decide) (by omega), State.zoneDue]
    · rw [hz.get (f := F.CMP_CHKCNT.FORCED), hv, State.get_setBitAt_apart _ _ _ _ _ (by decide : 0 + 20 ≤ 20)
        fun e => (chkcnt_ne_out r.isLt e).elim, hforced]
  · refine ⟨_, exec_ladderTestDone hr hc hs ht none, rfl, rfl, State.get_set_self _ F.CMP_CHK.SPARE (by decide) _, ?_⟩
    rw [State.get_set_addr _ F.CMP_CHK.SPARE F.CMP_CHKCNT.STEPS (by decide)]
    exact s.steps_ladderTested r u
  · refine ⟨_, exec_ladderTestDone hr hc hs ht (some p), ?_⟩
    dsimp only
    set q := s.ladderTested r u
    set v := (q.set F.CMP_CHK.FROLE r).set F.CMP_CHK.FPOINT p with hv
    set z := ((v.evt F.CMP_CHK.FAIL).updCmp fun c => { c with noSpare := true }).set F.STC_STAT.WSPARE 0 with hz
    have hrep : Reach ⟨[.por], []⟩ z ((z.report 44 r).report 85 4) := ((Reach.refl z).then State.report_reach).then State.report_reach
    have hchk (f : Fld) (hf : f.addr = R.CMP_CHK) : ((z.report 44 r).report 85 4).get f = (v.evt F.CMP_CHK.FAIL).get f :=
      (hrep.get rfl).trans (State.get_set_addr _ F.STC_STAT.WSPARE f (by rw [hf]; decide) 0)
    refine ⟨?_, ?_, ?_, ?_, ?_, State.pulse_report _ 85 4 (State.report_pulse z 44 r), State.report_pulse _ 85 4⟩
    · rw [hchk _ rfl, State.evt, State.get_set_disj _ F.CMP_CHK.FAIL F.CMP_CHK.FROLE rfl (by decide) (by decide), State.get_mark, hv,
        State.get_set_disj _ F.CMP_CHK.FPOINT F.CMP_CHK.FROLE rfl (by decide) (by decide), State.get_set_self _ F.CMP_CHK.FROLE (by decide)]
      exact Nat.mod_eq_of_lt (r.isLt.trans (by decide))
    · rw [hchk _ rfl, State.evt, State.get_set_disj _ F.CMP_CHK.FAIL F.CMP_CHK.FPOINT rfl (by decide) (by decide), State.get_mark, hv,
        State.get_set_self _ F.CMP_CHK.FPOINT (by decide)]
      exact Nat.mod_eq_of_lt p.isLt
    · exact State.bit_of_get_one ((hchk _ rfl).trans (State.get_evt v F.CMP_CHK.FAIL (by decide) (by decide)))
    · refine State.bit_of_get_zero ((hrep.get rfl).trans (State.get_set_self _ F.STC_STAT.WSPARE (by decide) 0))
    · rw [hrep.cmp, hz, State.set_cmp]
      rfl

end Sys2Proof.Machine
end

section
/-! SUPPORT. A slew of TB lets an FCLK pass, and with it the lookup unit may accept the gauge’s threshold lookup (R214, R227, R293; against
O40). -/

set_option Elab.async false

namespace Sys2Proof.Machine

/-- The state in which a threshold lookup of the gauge waits behind a test lookup, with a correction of TB due while it is LOCKED. -/
def lookupsMeetSlew : State :=
  { lookupsMeet with
    regs := [(R.PCR_STAT, fldSet F.PCR_STAT.PLLA_LOCK 0 1), (R.TB_STAT, fldSet F.TB_STAT.SYNC 0 1)]
    corr := 1 }

/-- The slew has the threshold lookup accepted. -/
theorem lookupsMeetSlew_accepted : ∃ t, exec (.tbSlew true) lookupsMeetSlew = .next t ∧ t.gau.lookup.bind (·.acc) = some (3 * 4096) :=
  ⟨_, rfl, by decide +kernel⟩

/-- Refutes O40: a slew of TB in whose FCLK the lookup unit accepts the gauge’s threshold lookup changes the gauge, which the statement
has stay as it is. -/
theorem not_timerCommandsKeepTheRest : ¬ Obligations.TimerCommandsKeepTheRest := by
  unfold Obligations.TimerCommandsKeepTheRest
  rintro ⟨-, h, -⟩
  obtain ⟨t, ht, hframe, -⟩ := h true lookupsMeetSlew
  obtain ⟨u, hu, hacc⟩ := lookupsMeetSlew_accepted
  obtain rfl : u = t := Host.Outcome.next.inj (hu.symm.trans ht)
  have hgau : u.gau = lookupsMeetSlew.gau := by simpa only using congrArg State.gau hframe
  rw [hgau] at hacc
  exact Option.some_ne_none _ hacc.symm

end Sys2Proof.Machine
end

section
/-! SUPPORT. What the statement on the halls does not rule out: an entry of the variable file beyond QV63 that waits to become stale, whose
value would stand in a register of the halls (R202, R299; against O25). -/

set_option Elab.async false

namespace Sys2Proof.Machine

/-- The number of an entry beyond the variable file: CHT_QV of it would be HAL_OWN0. -/
def strayEntry : Nat := 0x1C00

/-- The host reads the first word of hall 0, which it owns. -/
def strayEntryRead : HallReq := ⟨.host, 0, 8, none, ⟨0, 0⟩, [], 0, 0⟩

/-- The part runs, the host’s read competes for port A of hall 0, and an entry beyond the variable file, of age 1, waits to be tested. -/
def strayEntryWaits : State :=
  { State.reset with
    regs := [(R.PCR_STAT, fldSet F.PCR_STAT.PLLA_LOCK 0 1), (R.HAL_OWN 0, fldSet (F.HAL_OWN.PWR 0) (fldSet (F.HAL_OWN.OWNER 0) 0 1) 1),
      (R.HAL_NVBUF 0, fldSet (F.CHT_QVS.AGECNT strayEntry) 0 1)]
    fclk := 4097
    pcr := { Pcr.reset with held := none }
    cht := { Cht.reset with qmap := [(strayEntry, ⟨1, 0, 0, 1, 0⟩)], staleQ := [strayEntry] }
    hal := { Hal.reset with reqs := [strayEntryRead] } }

/-- At the end of the FCLK the read is refused, since the stray entry’s default has taken the hall’s power. -/
theorem strayEntryWaits_refuses : strayEntryWaits.idle.busRes .host = some (List.replicate 8 0, true) := by decide +kernel

/-- Refutes O25: in `strayEntryWaits` a read that its port would grant is refused, since another register write comes before it in the same
FCLK. -/
theorem not_hallAccessesReadAndWrite : ¬ Obligations.HallAccessesReadAndWrite := by
  unfold Obligations.HallAccessesReadAndWrite
  rintro ⟨-, -, h, -⟩
  obtain ⟨t, ht, hres, -⟩ := h strayEntryWaits strayEntryRead 0 rfl (by decide) (by decide) rfl (by decide) (by decide) (by decide) (by decide) rfl
    rfl rfl (by decide) rfl (by decide)
  have hidle : strayEntryWaits.idle = t := Host.Outcome.next.inj ((step_nil strayEntryWaits rfl).symm.trans ht)
  rw [← hidle] at hres
  have hbad : some (List.replicate 8 (0 : Byte), true) = some (strayEntryWaits.hallBytes 0 8, false) := strayEntryWaits_refuses.symm.trans hres
  simp at hbad

end Sys2Proof.Machine
end

section
/-! SUPPORT. The end of an FCLK: what each of its operations reaches (R300, R214, R341, R383, R410). -/

set_option Elab.async false

namespace Sys2Proof.Machine

variable {s₀ s t : State}

/-! ### Bytes and words of the halls and of NVS -/

theorem State.updHal_reach {f : Hal → Hal} : Reach ⟨[.hal], []⟩ s (s.updHal f) :=
  .frame (.refl s)

theorem State.updPor_reach {f : Por → Por} : Reach ⟨[.por], []⟩ s (s.updPor f) :=
  .frame (.refl s)

theorem State.updCht_reach {f : Cht → Cht} : Reach ⟨[.cht], []⟩ s (s.updCht f) :=
  .frame (.refl s)

theorem State.updGau_reach {f : Gau → Gau} : Reach ⟨[.gau], []⟩ s (s.updGau f) :=
  .frame (.refl s)

theorem State.updGal_reach {f : Gal → Gal} : Reach ⟨[.gal], []⟩ s (s.updGal f) :=
  .frame (.refl s)

theorem State.updIrt_reach {f : Irt → Irt} : Reach ⟨[.irt], []⟩ s (s.updIrt f) :=
  .frame (.refl s)

theorem State.updHk_reach {c : Nat} {f : Hk → Hk} : Reach ⟨[.hook], []⟩ s (s.updHk c f) :=
  .frame (.refl s)

theorem State.setHallBytes_reach {a : Nat} {l : List Byte} : Reach ⟨[.halls], []⟩ s (s.setHallBytes a l) := by
  induction l generalizing s a with
  | nil => exact .refl s
  | cons b l ih => exact (Reach.frame (t := s.setHallByte a b) (.refl s)).trans ih

theorem State.setNvBytes_reach {a : Nat} {l : List Byte} : Reach ⟨[.nvs], []⟩ s (s.setNvBytes a l) := by
  induction l generalizing s a with
  | nil => exact .refl s
  | cons b l ih => exact (Reach.frame (t := s.setNvByte a b) (.refl s)).trans ih

theorem State.hallPut_reach {a : Nat} {l : List Byte} : Reach ⟨[.halls, .hallErr], []⟩ s (s.hallPut a l) :=
  ((Reach.refl s).then State.setHallBytes_reach).frame

/-- What the record of an error reaches: the status, the counts and the address of HAL (R305). -/
abbrev eccFoot : Foot := ⟨[.regs, .marks, .por, .hal], [(0x5011, 0x5015)]⟩

theorem State.eccAddr_reach {unc portB rmw : Bool} {addr code : Nat} : Reach eccFoot s (s.eccAddr unc addr code portB rmw) := by
  unfold State.eccAddr
  exact ((((((Reach.refl s).set).set).set.set).set).set).then State.updHal_reach

theorem State.eccRecord_reach {nvs unc portB rmw : Bool} {addr code acc det : Nat} :
    Reach eccFoot s (s.eccRecord nvs unc addr code portB rmw acc det) := by
  unfold State.eccRecord
  exact (((Reach.refl s).branch (·.evtAdd.evt) (·.evtAdd.evt)).unless (·.then State.eccAddr_reach)).then State.reportSig_reach

/-- What an access of the halls reaches. -/
abbrev hallFoot : Foot := ⟨[.regs, .marks, .por, .hal, .halls, .hallErr], [(0x5011, 0x5015)]⟩

/-- What a read of the halls reaches: the record of an error, and a word to be scrubbed. -/
theorem State.hallWord_reads {m : Master} {a n acc : Nat} {portB : Bool} : Reach eccFoot s (s.hallWord m a n none portB acc).1 := by
  unfold State.hallWord
  dsimp only
  split
  · exact State.eccRecord_reach
  · exact ((Reach.refl s).when (·.then State.eccRecord_reach)).when (·.then State.updHal_reach)

theorem State.hallWord_reach {m : Master} {a n acc : Nat} {wr : Option (List Byte)} {portB : Bool} :
    Reach hallFoot s (s.hallWord m a n wr portB acc).1 := by
  cases wr with
  | none => exact (Reach.refl s).then State.hallWord_reads
  | some l =>
    unfold State.hallWord
    dsimp only
    split
    · exact (Reach.refl s).then State.eccRecord_reach
    · exact ((Reach.refl s).when (·.then State.eccRecord_reach)).then State.hallPut_reach

theorem State.hallOp_reads {m : Master} {a n acc : Nat} : Reach eccFoot s (s.hallOp m a n none acc).1 := by
  unfold State.hallOp
  dsimp only [Option.map_none]
  split
  · exact .refl s
  · split
    · exact State.hallWord_reads
    · split
      · exact State.hallWord_reads
      · split
        · exact State.hallWord_reads
        · exact State.hallWord_reads.trans State.hallWord_reads

theorem State.hallOp_reach {m : Master} {a n acc : Nat} {wr : Option (List Byte)} : Reach hallFoot s (s.hallOp m a n wr acc).1 := by
  unfold State.hallOp
  dsimp only
  split
  · exact .refl s
  · split
    · exact State.hallWord_reach
    · split
      · exact State.hallWord_reach
      · split
        · exact State.hallWord_reach
        · exact State.hallWord_reach.trans State.hallWord_reach

/-! ### The arbiter -/

theorem State.busEnd_reach {m : Master} {d : List Byte} {bad : Bool} : Reach ⟨[.hal], []⟩ s (s.busEnd m d bad) :=
  State.updHal_reach

theorem State.reqServe_reach {m p : Nat} {r : HallReq} : Reach hallFoot s (s.reqServe m r p) := by
  unfold State.reqServe
  exact ((((Reach.refl s).then State.updHal_reach).unless (·.frame)).when (·.then State.updHal_reach)).branch
    (fun h => (h.trans State.hallWord_reach).then State.busEnd_reach)
    fun h => .ite ((h.trans State.hallWord_reach).then State.busEnd_reach) ((h.trans State.hallWord_reach).then State.updHal_reach)

theorem State.reqsRefuse_reach {m : Nat} : Reach ⟨[.hal], []⟩ s (s.reqsRefuse m) :=
  (Reach.refl s).each fun s _ _ => ((Reach.refl s).then State.updHal_reach).then State.busEnd_reach

theorem State.hallMclk_reach {m : Nat} : Reach hallFoot s (s.hallMclk m) := by
  unfold State.hallMclk
  refine (Reach.refl s).unless fun h => ?_
  exact ((((h.then State.reqsRefuse_reach).then State.updHal_reach).each fun _ _ _ => State.reqServe_reach).each
    fun _ _ _ => State.reqServe_reach).each fun _ _ _ => State.reqServe_reach

theorem State.hallTick_reach : Reach hallFoot s s.hallTick :=
  (Reach.refl s).unless fun h => h.then State.hallMclk_reach

/-! ### Variables, the lookup unit, pads and lines -/

/-- What an entry that becomes stale reaches; the queue of such entries may name any. -/
abbrev staleFoot : Foot := ⟨[.regs, .marks, .por, .cht], [(0x3400, 0)]⟩

theorem State.qvStale_reach {q : Nat} : Reach staleFoot s (s.qvStale q) :=
  have h (a : Nat) (ha : 0x3400 ≤ a) : staleFoot.holds a = true := Foot.holds_iff.2 ⟨_, .head _, ha, .inl rfl⟩
  (Reach.refl s).when fun hs => ((hs.set (h _ (by simp only [R.CHT_QV, F.CHT_QV]; omega))).set
    (h _ (by simp only [R.CHT_QVS, F.CHT_QVS.STALE]; omega))).then (State.raise_reach (by decide))

theorem State.qvStaleRun_reach : Reach staleFoot s s.qvStaleRun := by
  unfold State.qvStaleRun
  split
  · exact .refl s
  · exact ((Reach.refl s).then State.updCht_reach).each fun _ _ _ => State.qvStale_reach

theorem State.padsNote_reach : Reach ⟨[.pins], []⟩ s s.padsNote :=
  (Reach.refl s).unless fun h => h.frame

theorem State.tbAdvance_reach {k : Nat} : Reach ⟨[.tb, .mtDue, .syncDue, .tick10, .wrapDue], []⟩ s (s.tbAdvance k) :=
  .frame (.refl s)

theorem State.bankConfs_reach : Reach ⟨[.regs, .marks, .inj], [(0x2400, 0x2800)]⟩ s s.bankConfs := by
  unfold State.bankConfs
  refine (Reach.refl s).unless fun h => Reach.each (Reach.frame h) fun s i hi => ?_
  have hi : i < 128 := List.mem_range.1 hi
  split
  · exact (Reach.refl s).when fun h => h.evt (Foot.holds_range 0x2400 0x2800 (by simp only [F.STITCH_STATUS.BANKCONF, R.STITCH_STATUS]; omega))
  · exact .refl s

theorem State.readWords_reach {m : Master} {b : Nat} {l : List Nat} : Reach eccFoot s (s.readWords m b l).1 := by
  induction l generalizing s with
  | nil => exact .refl s
  | cons i l ih =>
    unfold State.readWords
    dsimp only
    split
    · exact State.hallOp_reads
    · exact State.hallOp_reads.trans ih

/-- What a lookup reaches: the halls' record of an error, and the count of clipped inputs. -/
abbrev lookFoot : Foot := ⟨[.regs, .marks, .por, .hal, .cht, .gau], [(0x3400, 0x3800), (0x5011, 0x5015)]⟩

theorem State.chartLookup_reach {m : Master} {c : Nat} {snap : List Int} : Reach lookFoot s (s.chartLookup m c snap).1 := by
  unfold State.chartLookup
  split
  · exact .refl s
  · exact ((Reach.refl s).then State.readWords_reach).evtAdd

theorem State.lookTake_reach {i b c : Nat} : Reach ⟨[.cht], []⟩ s (s.lookTake i b c) := by
  unfold State.lookTake
  exact State.updCht_reach

theorem State.lowTake_reach {a c : Nat} {tst : Bool} : Reach ⟨[.cht, .gau], []⟩ s (s.lowTake a tst c) := by
  unfold State.lowTake
  exact ((Reach.refl s).then State.updCht_reach).branch (·.then State.updCht_reach) (·.then State.updGau_reach)

theorem State.lookAccept_reach {k : Nat} : Reach ⟨[.cht, .gau], []⟩ s (s.lookAccept k) := by
  induction k generalizing s with
  | zero => exact .refl s
  | succ k ih =>
    unfold State.lookAccept
    split
    · exact .ite (State.lowTake_reach.trans ih) (((Reach.refl s).then State.lookTake_reach).trans ih)
    · exact ((Reach.refl s).then State.lookTake_reach).trans ih
    · exact .ite (State.lowTake_reach.trans ih) (.refl s)
    · exact .refl s

theorem State.testEnd_reach {c : Nat} {snap : List Int} : Reach lookFoot s (s.testEnd c snap) := by
  unfold State.testEnd
  dsimp only
  split
  · exact (((State.chartLookup_reach.then State.updCht_reach).set).set).evt
  · exact ((State.chartLookup_reach.then State.updCht_reach).set).evt

theorem State.testRun_reach : Reach lookFoot s s.testRun := by
  unfold State.testRun
  split
  · exact .refl s
  · refine (Reach.refl s).unless fun h => .ite (h.when fun h => h.trans State.testEnd_reach) ?_
    dsimp only
    have h : Reach lookFoot s (s.lookAccept 6) := h.then State.lookAccept_reach
    split
    · exact h.when fun h => h.trans State.testEnd_reach
    · exact h

end Sys2Proof.Machine
end

section
/-! SUPPORT. Links and self-test rotations: what each operation reaches (O48). -/

set_option Elab.async false

namespace Sys2Proof.Machine

variable {s₀ s t : State}

/-! ### Variables fed -/

/-- What a delivery to the variables reaches: QV and QVS, and the crossings lost. -/
abbrev feedFoot : Foot := ⟨[.regs, .por], [(0x3400, 0x3480)]⟩

theorem State.qvUpdate_reach {q : Nat} (hq : q < 64) {v : Int} : Reach feedFoot s (s.qvUpdate q v) := by
  have h1 : feedFoot.holds (R.CHT_QV q) = true := Foot.holds_range 0x3400 0x3480 (by simp only [R.CHT_QV]; omega)
  have h2 : feedFoot.holds (R.CHT_QVS q) = true := Foot.holds_range 0x3400 0x3480 (by simp only [R.CHT_QVS]; omega)
  exact (((Reach.refl s).set h1).set h2).set h2

theorem State.qvFeed_reach {kind idx : Nat} {raw : Int} {shift : Bool} : Reach feedFoot s (s.qvFeed kind idx raw shift) := by
  unfold State.qvFeed
  refine .ite ((Reach.refl s).frame) (.ite ((Reach.refl s).each fun s e _ => (Reach.refl s).when fun h => h.trans ?_) (.refl s))
  exact State.qvUpdate_reach (Nat.mod_lt _ (by decide))

/-! ### CAN -/

/-- What the commands of the links reach. -/
abbrev linkFoot : Foot :=
  ⟨[.regs, .can, .sent, .por, .freeCtr, .marks], [(0x3400, 0x3800), (0x6400, 0x6800), (0x7800, 0x8000)]⟩

/-- What the counters and the error state of a CAN controller show. -/
abbrev showFoot : Foot :=
  ⟨[.regs, .marks, .por], [(0x7804, 0x7806), (0x7A04, 0x7A06), (0x6417, 0x6418), (0x6500, 0x6640)]⟩

variable {x : Nat}

theorem canReg_holds (hx : x < 2) {k : Nat} (hk : k < 0x200) : linkFoot.holds (0x7800 + 0x200 * x + k) = true :=
  Foot.holds_range 0x7800 0x8000 (by omega)

theorem canIdx_holds (hx : x < 2) {k i : Nat} (hk : k + i < 0x200) : linkFoot.holds (0x7800 + 0x200 * x + k + 1 * i) = true :=
  Foot.holds_range 0x7800 0x8000 (by omega)

theorem State.updCan_reach {f : Can → Can} : Reach ⟨[.can], []⟩ s (s.updCan x f) :=
  .frame (.refl s)

theorem State.updObj_reach {o : Nat} {f : CanObj → CanObj} : Reach ⟨[.can], []⟩ s (s.updObj x o f) :=
  State.updCan_reach

theorem State.canShow_reach (hx : x < 2) : Reach showFoot s (s.canShow x) := by
  have h1 : showFoot.holds (R.CAN_STAT x) = true := Foot.holds_iff.2 (by simp [R.CAN_STAT]; omega)
  have h2 : showFoot.holds (R.CAN_ERRCNT x) = true := Foot.holds_iff.2 (by simp [R.CAN_ERRCNT]; omega)
  unfold State.canShow
  dsimp only
  exact ((((((Reach.refl s).set h1).set h2).set h2).then (State.raiseIf_reach (by omega))).when (·.then State.report_reach)).when
    (·.then State.report_reach)

theorem State.canRxOk_reach (hx : x < 2) : Reach linkFoot s (s.canRxOk x) := by
  unfold State.canRxOk
  refine .ite ?_ (((Reach.refl s).then State.updCan_reach).then (State.canShow_reach hx))
  exact (((Reach.refl s).frame (t := s.free.2)).then State.updCan_reach).then (State.canShow_reach hx)

theorem State.canSignals_reach {o n : Nat} : Reach feedFoot s (s.canSignals x o n) :=
  (Reach.refl s).each fun s _ _ => (Reach.refl s).when fun h => h.when (·.trans State.qvFeed_reach)

theorem canBit_holds (hx : x < 2) {o : Nat} (ho : o < 32) :
    linkFoot.holds (R.CAN_NEW x (o / 16)) = true ∧ linkFoot.holds (R.CAN_LOST x (o / 16)) = true
      ∧ linkFoot.holds (R.CAN_TXRQ x (o / 16)) = true :=
  ⟨canIdx_holds hx (by omega), canIdx_holds hx (by omega), canIdx_holds hx (by omega)⟩

theorem State.canStore_reach (hx : x < 2) {o : Nat} (ho : o < 32) {f : CanFrame} : Reach linkFoot s (s.canStore x o f) := by
  obtain ⟨h1, h2, -⟩ := canBit_holds hx ho
  unfold State.canStore
  exact (((((Reach.refl s).then State.updObj_reach).evtAt h1).when fun h => (h.evtAt h2).then State.report_reach).then
    (State.raiseIf_reach (by omega))).then State.canSignals_reach

theorem State.canMatch_lt {f : CanFrame} {o : Nat} (h : s.canMatch x f = some o) : o < 32 :=
  List.mem_range.1 (List.mem_of_find?_eq_some h)

theorem State.canTake_reach (hx : x < 2) {f : CanFrame} : Reach linkFoot s (s.canTake x f) := by
  unfold State.canTake
  refine .ite (.refl s) ?_
  split
  · next o ho => exact State.canStore_reach hx (State.canMatch_lt ho)
  · exact .refl s

theorem State.canPendSet_reach (hx : x < 2) {o : Nat} (ho : o < 32) {b : Bool} : Reach linkFoot s (s.canPendSet x o b) :=
  (Reach.refl s).set (canBit_holds hx ho).2.2

theorem State.canSent_reach (hx : x < 2) {o : Nat} (ho : o < 32) : Reach linkFoot s (s.canSent x o) := by
  unfold State.canSent
  exact (((((Reach.refl s).trans (State.canPendSet_reach hx ho)).then State.updCan_reach).then (State.raiseIf_reach (by omega))).then
    (State.canShow_reach hx)).when (·.trans (State.canTake_reach hx))

/-- A fold that keeps what it has or takes the element gives what it had or an element of the list. -/
theorem foldl_keep_or_take {α : Type} {f : Option α → α → Option α} (hf : ∀ b q, f b q = b ∨ f b q = some q) (l : List α) (b : Option α) :
    l.foldl f b = b ∨ ∃ q ∈ l, l.foldl f b = some q := by
  induction l generalizing b with
  | nil => exact .inl rfl
  | cons q l ih =>
    rcases ih (f b q) with h | ⟨w, hw, h⟩
    · exact (hf b q).imp h.trans fun h' => ⟨q, .head _, h.trans h'⟩
    · exact .inr ⟨w, .tail _ hw, h⟩

/-- The object that wins the bus is one of the 32. -/
theorem State.canWinner_lt {o : Nat} (h : s.canWinner x = some o) : o < 32 := by
  rcases foldl_keep_or_take (l := List.range 32) (b := none) (f := fun b o =>
      if s.canPend x o && (s.canObj x o).valid && (s.canObj x o).tx then
        match b with
        | none => some o
        | some w => if (s.canObj x o).arb < (s.canObj x w).arb then some o else b
      else b) (fun b q => by cases b <;> grind) with hn | ⟨q, hq, he⟩
  · cases hn.symm.trans h
  · exact Option.some.inj (he.symm.trans h) ▸ List.mem_range.1 hq

theorem State.canOnBus_lt {o : Nat} (h : s.canOnBus x = some o) : o < 32 := by
  unfold State.canOnBus at h
  split at h
  · exact Option.some.inj h ▸ Nat.mod_lt _ (by decide)
  · exact State.canWinner_lt h

theorem State.canAgain_reach (hx : x < 2) : Reach linkFoot s (s.canAgain x) := by
  unfold State.canAgain
  split
  · exact .refl s
  · next ho => exact ((Reach.refl s).then State.updCan_reach).when (·.trans (State.canPendSet_reach hx (State.canOnBus_lt ho)))

theorem State.canRequest_reach (hx : x < 2) {v : Nat} : Reach linkFoot s (s.canRequest x v) :=
  (Reach.refl s).each fun s _ ho => (Reach.refl s).when (·.trans (State.canPendSet_reach hx (List.mem_range.1 ho)))

theorem State.canAbort_reach (hx : x < 2) {v : Nat} {b : Option Nat} : Reach linkFoot s (s.canAbort x v b) :=
  (Reach.refl s).each fun s o ho => (Reach.refl s).when fun h =>
    h.branch (·.then State.updCan_reach) (·.trans (State.canPendSet_reach hx (List.mem_range.1 ho)))

theorem State.canSelect_reach (hx : x < 2) {o : Nat} : Reach linkFoot s (s.canSelect x o) := by
  have h (k : Nat) (hk : k < 0x200) := canReg_holds hx hk
  unfold State.canSelect
  exact (((((((((Reach.refl s).set (h 0xF (by decide))).setReg (h 0x10 (by decide))).set (h 0x11 (by decide))).set (h 0x12 (by decide))).set
    (h 0x13 (by decide))).set (h 0x14 (by decide))).set (h 0x15 (by decide))).set (h 0x16 (by decide))).each
    fun s k hk => (Reach.refl s).set (canIdx_holds hx (by have := List.mem_range.1 hk; omega))

theorem State.canOwr_reach (hx : x < 2) : Reach linkFoot s (s.canOwr x) :=
  .ite ((Reach.refl s).evt (canReg_holds hx (k := 4) (by decide))) ((Reach.refl s).then State.updObj_reach)

theorem State.canError_reach (hx : x < 2) {tx strong : Bool} {lec : Nat} : Reach linkFoot s (s.canError x tx strong lec) := by
  unfold State.canError
  exact ((((Reach.refl s).set (canReg_holds hx (k := 5) (by decide))).then State.updCan_reach).when
    (·.trans (State.canAgain_reach hx))).then (State.canShow_reach hx)

/-! ### SENT -/

variable {r : Nat}

theorem sentReg_holds (hr : r < 8) {k : Nat} (hk : k < 16) : linkFoot.holds (0x7C00 + 0x10 * r + k) = true :=
  Foot.holds_range 0x7800 0x8000 (by omega)

theorem State.updSent_reach {f : SentRx → SentRx} : Reach ⟨[.sent], []⟩ s (s.updSent r f) :=
  .frame (.refl s)

theorem State.sentReject_reach (hr : r < 8) {c p d : Nat} : Reach linkFoot s (s.sentReject r c p d) := by
  have h := sentReg_holds hr (k := 6) (by decide)
  unfold State.sentReject
  exact (((((Reach.refl s).set h).evtAdd h).then State.updSent_reach).then (State.raiseIf_reach (by omega))).then State.report_reach

theorem State.slowTake_reach (hr : r < 8) {id d k : Nat} : Reach linkFoot s (s.slowTake r id d k) := by
  have h := sentReg_holds hr (k := 9) (by decide)
  unfold State.slowTake
  refine (Reach.each ((((Reach.refl s).set (sentReg_holds hr (k := 8) (by decide))).set h).set h) fun s i hi =>
    (Reach.refl s).when fun h => (h.set ?_).then State.qvFeed_reach).then (State.raiseIf_reach (by omega))
  have := List.mem_range.1 hi
  exact Foot.holds_range 0x7800 0x8000 (by simp only [F.SENT_SLOTV, R.SENT_SLOTV]; omega)

theorem State.sentTake_reach (hr : r < 8) {p : SentPulses} {v : List Nat} : Reach linkFoot s (s.sentTake r p v) := by
  have h (k : Nat) (hk : k < 16) := sentReg_holds hr hk
  unfold State.sentTake
  exact (((((((((Reach.refl s).then State.updSent_reach).set (h 2 (by decide))).set (h 3 (by decide))).set (h 4 (by decide))).set
    (h 5 (by decide))).set (h 7 (by decide))).then State.qvFeed_reach).then State.qvFeed_reach).then (State.raiseIf_reach (by omega))

theorem State.sentFrame_reach (hr : r < 8) {p : SentPulses} : Reach linkFoot s (s.sentFrame r p) := by
  have h : Reach linkFoot s s := .refl s
  unfold State.sentFrame
  exact .ite (State.sentReject_reach hr) (.ite (.ite (((h.then State.updSent_reach).trans (State.sentTake_reach hr)).trans
    (State.slowTake_reach hr)) (State.sentReject_reach hr)) ((h.then State.updSent_reach).trans (State.sentTake_reach hr)))

/-- A command of the links goes on, within their footprint. -/
theorem linkCommand_reach {c : Instr} (hc : linkCommand c = true) : GoesTo (exec c s) (Reach linkFoot s) := by
  have h : Reach linkFoot s s := .refl s
  unfold linkCommand at hc
  split at hc
  · exact ⟨_, rfl, h.when fun h => (h.trans (State.canRxOk_reach (Fin.isLt _))).trans (State.canTake_reach (Fin.isLt _))⟩
  · refine ⟨_, rfl, h.when fun h => ?_⟩
    split
    · next o ho => exact State.canSent_reach (Fin.isLt _) (State.canOnBus_lt ho)
    · exact h
  · exact ⟨_, rfl, h.when fun _ => State.canRequest_reach (Fin.isLt _)⟩
  · exact ⟨_, rfl, h.when fun _ => State.canAbort_reach (Fin.isLt _)⟩
  · exact ⟨_, rfl, h.when fun _ => State.canSelect_reach (Fin.isLt _)⟩
  · exact ⟨_, rfl, h.when fun _ => State.canOwr_reach (Fin.isLt _)⟩
  · exact ⟨_, rfl, h.when (·.when (·.then State.updCan_reach))⟩
  · exact ⟨_, rfl, h.when fun h => (h.then State.updCan_reach).then (State.canShow_reach (Fin.isLt _))⟩
  · exact ⟨_, rfl, h.when fun _ => State.canError_reach (Fin.isLt _)⟩
  · exact ⟨_, rfl, h.when fun _ => State.canAgain_reach (Fin.isLt _)⟩
  · exact ⟨_, rfl, h.when fun _ => State.sentFrame_reach (Fin.isLt _)⟩
  · exact ⟨_, rfl, h.when fun h => (h.then State.updSent_reach).trans (State.sentReject_reach (Fin.isLt _))⟩
  · cases hc

/-! ### Self-test rotations -/

/-- What the commands of the rotations reach. -/
abbrev rotationFoot : Foot := ⟨[.regs, .stc, .cmp, .por, .marks], [(0x6400, 0x6800), (0x7400, 0x7800)]⟩

variable {kind k u : Nat}

theorem State.updStc_reach {f : Stc → Stc} : Reach ⟨[.stc], []⟩ s (s.updStc f) :=
  .frame (.refl s)

theorem State.updRot_reach {f : Rot → Rot} : Reach ⟨[.stc], []⟩ s (s.updRot kind f) :=
  State.updStc_reach

theorem State.stcFail_reach : Reach rotationFoot s s.stcFail :=
  (Reach.refl s).evt.evtAdd.then (State.raise_reach (by decide))

theorem State.stcInc_reach : Reach rotationFoot s (s.stcInc kind) := by
  unfold State.stcInc
  exact (((Reach.refl s).evt.evtAdd.then (State.raise_reach (by decide))).then State.updStc_reach).when (·.then State.report_reach)

theorem State.stcDone_reach : Reach ⟨[.stc], []⟩ s (s.stcDone kind u) := by
  unfold State.stcDone
  exact State.updStc_reach

theorem rotFld_holds : rotationFoot.holds (rotRes kind).addr = true ∧ rotationFoot.holds (rotBad kind).addr = true
    ∧ rotationFoot.holds (rotHas kind).addr = true ∧ rotationFoot.holds (rotSpare kind).addr = true := by
  unfold rotRes rotBad rotHas rotSpare
  by_cases h : kind = 2
  · simp only [if_pos h]
    decide
  · simp only [if_neg h]
    decide

theorem State.rotLose_reach {res : Nat} : Reach rotationFoot s (s.rotLose kind u res) := by
  obtain ⟨h1, h2, h3, -⟩ := rotFld_holds (kind := kind)
  unfold State.rotLose
  exact ((((((Reach.refl s).set h1).set h2).set h3).trans State.stcFail_reach).then State.report_reach).then State.report_reach

theorem State.rotTest_reach : Reach ⟨[.stc], []⟩ s (s.rotTest kind u) := by
  unfold State.rotTest
  exact State.updRot_reach

theorem State.rotHand_reach : Reach ⟨[.stc], []⟩ s (s.rotHand kind k) := by
  unfold State.rotHand
  exact State.updRot_reach.trans State.rotTest_reach

theorem State.rotDone_reach {len : Nat} {res : TestRes} : Reach rotationFoot s (s.rotDone kind len res) := by
  obtain ⟨h1, -, -, h4⟩ := rotFld_holds (kind := kind)
  have h : Reach rotationFoot s s := .refl s
  unfold State.rotDone
  split
  · exact h
  · cases res with
    | incomplete => exact ((h.then State.updRot_reach).set h1).trans State.stcInc_reach
    | pass => exact h.when fun h => (((h.then State.updRot_reach).set h1).set h4).then State.stcDone_reach
    | fail => exact h.when fun h => ((h.then State.updRot_reach).trans State.rotLose_reach).then State.stcDone_reach

theorem State.rotStep_reach {p n : Nat} {adv : Bool} : Reach ⟨[.stc], []⟩ s (s.rotStep kind k p n adv) := by
  unfold State.rotStep
  exact State.updRot_reach

theorem State.rotRetry_reach {p : Nat} : Reach ⟨[.stc], []⟩ s (s.rotRetry kind u p) := by
  unfold State.rotRetry
  exact State.updRot_reach.trans State.rotTest_reach

theorem execCompareUnitHandover_reach {agree : Bool} : GoesTo (execCompareUnitHandover agree s) (Reach rotationFoot s) := by
  have h : Reach rotationFoot s s := .refl s
  refine ⟨_, rfl, ?_⟩
  split
  · exact h
  · exact h.when (·.branch (·.when (·.then State.rotHand_reach)) fun h => (h.then State.updRot_reach).trans State.rotLose_reach)

theorem execEdgeTimerStep_reach : GoesTo (execEdgeTimerStep s) (Reach rotationFoot s) := by
  refine ⟨_, rfl, (Reach.refl s).when fun h => ?_⟩
  dsimp only
  split
  · exact h.then State.rotRetry_reach
  · split
    · exact (h.then State.updRot_reach).then State.rotStep_reach
    · exact (h.then State.updRot_reach).then State.rotStep_reach

theorem execTestIntervalLate_reach {j : Fin 5} : GoesTo (execTestIntervalLate j s) (Reach rotationFoot s) := by
  refine ⟨_, rfl, (Reach.refl s).when fun h => ?_⟩
  split
  · exact h
  · exact (h.evt.then State.report_reach).branch (·.then State.updCmp_reach) (·.then State.updStc_reach)

/-- A command of the rotations goes on, within their footprint. -/
theorem rotationCommand_reach {c : Instr} (hc : rotationCommand c = true) : GoesTo (exec c s) (Reach rotationFoot s) := by
  have h : Reach rotationFoot s s := .refl s
  unfold rotationCommand at hc
  split at hc
  · refine ⟨_, rfl, h.when fun h => ?_⟩
    split
    · exact h.then State.rotRetry_reach
    · exact h.then State.rotStep_reach
  · exact execCompareUnitHandover_reach
  · exact ⟨_, rfl, h.when fun _ => State.rotDone_reach⟩
  · exact execEdgeTimerStep_reach
  · refine ⟨_, rfl, ?_⟩
    split
    · exact h
    · exact h.when (·.then State.rotHand_reach)
  · exact ⟨_, rfl, h.when fun _ => State.rotDone_reach⟩
  · exact execTestIntervalLate_reach
  · cases hc

/-- Settles O48: every operation of the rotations stays within STC and IRT, and every one of the links within CHT's variables, CAN, SENT
and IRT. -/
theorem selfTestAndLinkCommandsKeepTheRest : Obligations.SelfTestAndLinkCommandsKeepTheRest := by
  unfold Obligations.SelfTestAndLinkCommandsKeepTheRest
  refine ⟨fun c s hc => ?_, fun c s hc => ?_⟩
  · obtain ⟨t, ht, h⟩ := rotationCommand_reach hc
    exact ⟨t, ht, h.parts, h.regsIn⟩
  · obtain ⟨t, ht, h⟩ := linkCommand_reach hc
    exact ⟨t, ht, h.parts, h.regsIn⟩

end Sys2Proof.Machine
end

section
/-! SUPPORT. Trust, Porter and power: what each operation reaches (O47). -/

set_option Elab.async false

namespace Sys2Proof.Machine

variable {s₀ s t : State} {k : Nat}

/-! ### The Porter -/

/-- What the counters of the Porter reach: POR, and the sources that it raises (R410, R411). -/
abbrev countFoot : Foot := ⟨[.regs, .marks, .por], [(0x6417, 0x6418), (0x6500, 0x6640), (0x7000, 0x7400)]⟩

theorem count_holds {a : Nat} (h : 0x7000 ≤ a ∧ a < 0x7400) : countFoot.holds a = true :=
  Foot.holds_range 0x7000 0x7400 h

theorem porCnt_holds (hk : k < 128) : countFoot.holds (R.POR_CNT k) = true :=
  count_holds (by simp only [R.POR_CNT]; omega)

theorem porSev_holds (hk : k < 8) : countFoot.holds (R.POR_SEV k) = true :=
  count_holds (by simp only [R.POR_SEV]; omega)

theorem State.winClose_reach (hk : k < 128) : Reach countFoot s (s.winClose k) := by
  unfold State.winClose
  split
  · exact .refl s
  · exact (Reach.refl s).when fun h => (h.set (porCnt_holds hk)).then State.updPor_reach

theorem State.count_reach {c : CountItem} : Reach countFoot s (s.count c) := by
  have hk : c.sig.src % 128 < 128 := Nat.mod_lt _ (by decide)
  have hc := porCnt_holds hk
  have h : Reach countFoot s ((s.winClose (c.sig.src % 128)).evtInc (F.POR_CNT.TOTAL (c.sig.src % 128))) :=
    (State.winClose_reach hk).evtAdd hc
  unfold State.count
  exact (h.branch (fun h => (h.set hc).then State.updPor_reach) (·.set hc)).when fun h =>
    ((h.evtAt (porSev_holds (by omega))).then (State.raise_reach (by decide))).then State.updPor_reach

theorem State.countNext_reach : Reach countFoot s s.countNext := by
  unfold State.countNext
  split
  · exact .refl s
  · exact ((Reach.refl s).then State.updPor_reach).trans State.count_reach

theorem State.agesTick_reach : Reach ⟨[.por], []⟩ s s.agesTick :=
  State.updPor_reach

theorem State.countsRun_reach : Reach countFoot s s.countsRun := by
  unfold State.countsRun
  exact (Reach.refl s).unless fun h =>
    ((h.then State.updPor_reach).each fun _ _ _ => State.countNext_reach).when (·.then State.agesTick_reach)

/-- What the commands of the Porter reach. -/
abbrev porterFoot : Foot := ⟨[.regs, .por, .marks], [(0x800, 0x1000), (0x6400, 0x6800), (0x7000, 0x7400)]⟩

theorem State.recordReject_reach {a : Nat} : Reach ⟨[.regs, .marks], [(0x800, 0x1000)]⟩ s (s.recordReject a) :=
  ((Reach.refl s).set).evtAdd

theorem State.sevClear_reach {i v : Nat} (hi : i < 8) : Reach porterFoot s (s.sevClear i v) := by
  refine (Reach.refl s).each fun s j hj => (Reach.refl s).when fun h => ?_
  have hj := List.mem_range.1 hj
  exact ((h.set (Foot.holds_of_le (by decide) (porSev_holds hi))).set
    (Foot.holds_of_le (by decide) (porCnt_holds (by omega)))).then State.updPor_reach

theorem State.forceWrite_reach {i : Nat} {src : Master} {v : Word} : Reach porterFoot s (s.forceWrite i src v) := by
  unfold State.forceWrite
  exact ((Reach.refl s).when (·.then State.recordReject_reach)).each fun s _ _ => (Reach.refl s).when (·.then State.updPor_reach)

theorem State.porCmd_reach {src : Master} {v : Word} : Reach porterFoot s (s.porCmd src v).2 :=
  (Reach.refl s).when (·.then State.recordReject_reach)

theorem State.capClear_reach : Reach porterFoot s s.capClear :=
  (Reach.refl s).unless fun h => ((h.set).set).set

theorem execCapclr_reach {src : Master} : GoesTo (execCapclr src s) (Reach porterFoot s) := by
  have h : Reach porterFoot s (s.porCmd src 0x96001).2 := State.porCmd_reach
  exact ⟨_, rfl, (Reach.refl s).when fun _ => .ite (h.trans State.capClear_reach) h⟩

theorem execHeartbeatTimeout_reach : GoesTo (execHeartbeatTimeout s) (Reach porterFoot s) :=
  ⟨_, rfl, (Reach.refl s).when (·.branch (·.when fun h => (h.then State.updPor_reach).then State.report_reach)
    (·.branch (·.then State.updPor_reach) (·.then State.report_reach)))⟩

theorem execAliveToggle_reach {b : Bool} : GoesTo (execAliveToggle b s) (Reach porterFoot s) :=
  ⟨_, rfl, (Reach.refl s).when fun h => (h.then State.updPor_reach).branch (·.then State.standOff_reach) (·.then State.standOn_reach)⟩

/-- A command of the Porter that reacts to nothing goes on, within its footprint. -/
theorem porterCommand_reach {c : Instr} (hc : porterCommand c = true) : GoesTo (exec c s) (Reach porterFoot s) := by
  have h : Reach porterFoot s s := .refl s
  cases c <;> try cases hc
  case faultCount => exact ⟨_, rfl, h.when (·.branch (·.then State.updPor_reach) (·.then State.countNext_reach))⟩
  case porterWindowClose => exact ⟨_, rfl, h.when (·.then (State.winClose_reach (Fin.isLt _)))⟩
  case faultForce => exact ⟨_, rfl, h.when fun _ => State.forceWrite_reach⟩
  case severeClear => exact ⟨_, rfl, h.when fun _ => State.sevClear_reach (Fin.isLt _)⟩
  case capclr => exact execCapclr_reach
  case heartbeatSend => exact ⟨_, rfl, h.when (·.then State.updPor_reach)⟩
  case heartbeatTimeout => exact execHeartbeatTimeout_reach
  case aliveToggle => exact execAliveToggle_reach

/-! ### Power and clocks -/

/-- What the commands of power and clocks reach. -/
abbrev powerFoot : Foot := ⟨[.regs, .pcr, .por, .marks], [(0x400, 0x800), (0x6400, 0x6800), (0x7000, 0x7400)]⟩

theorem State.updPcr_reach {f : Pcr → Pcr} : Reach ⟨[.pcr], []⟩ s (s.updPcr f) :=
  .frame (.refl s)

theorem State.clockCheck_reach {b : Bool} {n num den : Nat} : Reach ⟨[.por], []⟩ s (s.clockCheck k b n num den) :=
  (Reach.refl s).branch (·.then State.standOn_reach) (·.then State.standOff_reach)

theorem vmin_holds (hk : k < 5) : powerFoot.holds (R.PCR_VMIN k) = true :=
  Foot.holds_range 0x400 0x800 (by simp only [R.PCR_VMIN]; omega)

theorem execRailWarning_reach {rail : Fin 5} {mv : Nat} : GoesTo (execRailWarning rail mv s) (Reach powerFoot s) :=
  ⟨_, rfl, (Reach.refl s).unless fun h => (h.set (vmin_holds rail.isLt)).unless fun h => ((h.evtAt).set).then State.standOn_reach⟩

theorem execClockMonitorCount_reach {f m n g mg : Nat} : GoesTo (execClockMonitorCount f m n g mg s) (Reach powerFoot s) :=
  ⟨_, rfl, (Reach.refl s).unless fun h => ((((h.then State.clockCheck_reach).then State.clockCheck_reach).then
    State.clockCheck_reach).then State.clockCheck_reach).then State.clockCheck_reach⟩

theorem execPllLock_reach {pll : Pll} : GoesTo (execPllLock pll s) (Reach powerFoot s) := by
  refine ⟨_, rfl, (Reach.refl s).when fun h => ?_⟩
  cases pll
  · exact h.set
  · exact h.set

/-- A command of power and clocks that resets nothing goes on, within its footprint. -/
theorem powerCommand_reach {c : Instr} (hc : powerCommand c = true) : GoesTo (exec c s) (Reach powerFoot s) := by
  have h : Reach powerFoot s s := .refl s
  unfold powerCommand at hc
  split at hc
  · exact execRailWarning_reach
  · exact ⟨_, rfl, h.unless fun h => (h.set).then State.standOff_reach⟩
  · exact ⟨_, rfl, h.unless fun h => (h.set).then State.standOff_reach⟩
  · exact ⟨_, rfl, h.then State.updPcr_reach⟩
  · exact execPllLock_reach
  · exact ⟨_, rfl, h.when (·.set)⟩
  · exact ⟨_, rfl, h.when fun h => (h.set).then State.updPcr_reach⟩
  · exact ⟨_, rfl, h.when fun h => (h.set).then State.standOn_reach⟩
  · exact ⟨_, rfl, h.when fun h => (h.set).then State.standOn_reach⟩
  · exact ⟨_, rfl, h.when fun h => ((h.set).then State.standOff_reach).then State.standOff_reach⟩
  · exact execClockMonitorCount_reach
  · exact ⟨_, rfl, h.when fun h => h.each fun s i hi => (Reach.refl s).set (vmin_holds (List.mem_range.1 hi))⟩
  · cases hc

/-! ### Trust -/

/-- What the commands of trust reach. -/
abbrev trustFoot : Foot := ⟨[.regs, .tru, .hal, .gal, .por, .freeCtr, .marks], [(0x800, 0x1000), (0x6400, 0x7000)]⟩

theorem State.updTru_reach {f : Tru → Tru} : Reach ⟨[.tru], []⟩ s (s.updTru f) :=
  .frame (.refl s)

theorem State.nvAsk_reach {w : NvWho} {l : List (Nat × List Byte)} : Reach ⟨[.hal], []⟩ s (s.nvAsk w l) :=
  State.updHal_reach

theorem State.truAsk_reach {r : TrustRec} {c : Bool} {l : List (Nat × List Byte)} : Reach ⟨[.tru, .hal], []⟩ s (s.truAsk r c l) := by
  unfold State.truAsk
  exact ((Reach.refl s).then State.updTru_reach).then State.nvAsk_reach

theorem State.freeBytes_reach {n : Nat} : Reach ⟨[.freeCtr], []⟩ s (s.freeBytes n).2 :=
  .frame (.refl s)

theorem State.chalSet_reach {c : List Byte} : Reach trustFoot s (s.chalSet c) := by
  refine (Reach.each (.refl s) fun s i hi => (Reach.refl s).set ?_).then State.updTru_reach
  have hi := List.mem_range.1 hi
  exact Foot.holds_range 0x6400 0x7000 (by simp only [F.TRU_CHAL, R.TRU_CHAL]; omega)

theorem State.chalDraw_reach : Reach trustFoot s s.chalDraw := by
  have h : Reach trustFoot s (s.freeBytes 16).2 := (Reach.refl s).then State.freeBytes_reach
  exact .ite (h.then State.updTru_reach) (h.trans State.chalSet_reach)

theorem State.truTry_reach : Reach trustFoot s s.truTry := by
  have h : Reach trustFoot s s := .refl s
  unfold State.truTry
  split
  · exact h
  · refine h.unless fun h => h.branch (·.then State.updTru_reach) fun h => ?_
    split
    · exact (h.then State.updTru_reach).then State.truAsk_reach
    · exact h.then State.updTru_reach

theorem State.truStart_reach {code : Nat} : Reach trustFoot s (s.truStart code) :=
  (Reach.refl s).unless (·.branch (fun h => (h.evt.set).then (State.raise_reach (by decide)))
    fun h => ((h.set).then State.updTru_reach).trans State.truTry_reach)

theorem State.debugEnd_reach : Reach trustFoot s s.debugEnd :=
  (Reach.refl s).when fun h => ((h.set).set).then (State.raise_reach (by decide))

theorem State.truEffect_reach {code : Nat} : Reach trustFoot s (s.truEffect code) := by
  have h : Reach trustFoot s s := .refl s
  have hw {i : Nat} (hi : i ∈ List.range 2) : trustFoot.holds (R.WVL_SLOT i) = true ∧ trustFoot.holds (R.WVL_VER i) = true := by
    have hi := List.mem_range.1 hi
    exact ⟨Foot.holds_range 0x800 0x1000 (by simp only [R.WVL_SLOT]; omega), Foot.holds_range 0x800 0x1000 (by simp only [R.WVL_VER]; omega)⟩
  unfold State.truEffect
  split
  · exact State.debugEnd_reach.each fun s i hi => ((Reach.refl s).setReg (hw hi).1).setReg (hw hi).2
  · exact h.branch (fun _ => State.debugEnd_reach) fun h => (h.set).set
  · split
    · exact h
    · refine (h.then State.freeBytes_reach).each fun s i hi => (Reach.refl s).set ?_
      have hi := List.mem_range.1 hi
      exact Foot.holds_range 0x6400 0x7000 (by simp only [F.TRU_BUF, R.TRU_BUF]; omega)
  · exact h

theorem State.truFinish_reach {c : TruCmd} {cause : Nat} : Reach trustFoot s (s.truFinish c cause) := by
  have h : Reach trustFoot s s := .refl s
  unfold State.truFinish
  refine ((((h.when fun _ => State.truEffect_reach).set).then State.updTru_reach).branch
    (fun h => (h.evt.set).then (State.raise_reach (by decide))) fun h => (h.evt.set).then (State.raise_reach (by decide))).branch
    (·.trans State.chalDraw_reach) fun h => ?_
  split
  · exact h.trans State.chalSet_reach
  · exact h

theorem execTrustCommandEnd_reach : GoesTo (execTrustCommandEnd s) (Reach trustFoot s) := by
  refine ⟨_, rfl, (Reach.refl s).when fun _ => ?_⟩
  dsimp only
  have h : Reach trustFoot s s.truTry := State.truTry_reach
  split
  · exact h
  · split
    · exact h.trans State.truFinish_reach
    · exact h

theorem State.tamper_reach : Reach trustFoot s (s.tamper k) := by
  unfold State.tamper
  refine ((((((Reach.each (((Reach.refl s).then State.updGal_reach)) fun s i hi => (Reach.refl s).set ?_).then State.updTru_reach).trans
    State.debugEnd_reach).evtAt).evtAdd).then (State.raise_reach (by decide))).then State.report_reach
  have hi := List.mem_range.1 hi
  exact Foot.holds_range 0x6400 0x7000 (by simp only [F.TRU_CHAL, R.TRU_CHAL]; omega)

/-- A command of trust goes on, within its footprint. -/
theorem trustCommand_reach {c : Instr} (hc : trustCommand c = true) : GoesTo (exec c s) (Reach trustFoot s) := by
  have h : Reach trustFoot s s := .refl s
  unfold trustCommand at hc
  split at hc
  · exact ⟨_, rfl, State.truStart_reach⟩
  · exact ⟨_, rfl, State.truStart_reach⟩
  · exact ⟨_, rfl, State.truStart_reach⟩
  · exact ⟨_, rfl, State.truStart_reach⟩
  · exact ⟨_, rfl, State.truStart_reach⟩
  · exact ⟨_, rfl, State.truStart_reach⟩
  · exact ⟨_, rfl, State.truStart_reach⟩
  · exact ⟨_, rfl, State.truStart_reach⟩
  · exact ⟨_, rfl, State.truStart_reach⟩
  · exact execTrustCommandEnd_reach
  · exact ⟨_, rfl, h.when fun _ => State.chalDraw_reach⟩
  · exact ⟨_, rfl, h.when fun _ => State.debugEnd_reach⟩
  · exact ⟨_, rfl, h.when fun _ => State.tamper_reach⟩
  · cases hc

/-- Settles O47: every operation of the three families stays within its family's registers and parts; what trust writes to NVS is asked
for only. -/
theorem trustPorterAndPowerCommandsKeepTheRest : Obligations.TrustPorterAndPowerCommandsKeepTheRest := by
  unfold Obligations.TrustPorterAndPowerCommandsKeepTheRest
  refine ⟨fun c s hc => ?_, fun c s hc => ?_, fun c s hc => ?_⟩
  · obtain ⟨t, ht, h⟩ := trustCommand_reach hc
    exact ⟨t, ht, h.parts, h.regsIn⟩
  · obtain ⟨t, ht, h⟩ := porterCommand_reach hc
    exact ⟨t, ht, h.parts, h.regsIn⟩
  · obtain ⟨t, ht, h⟩ := powerCommand_reach hc
    exact ⟨t, ht, h.parts, h.regsIn⟩

end Sys2Proof.Machine
end

section
/-! SUPPORT. The interrupt router and the Gallery: what each operation reaches (O46). -/

set_option Elab.async false

namespace Sys2Proof.Machine

variable {s₀ s t : State} {h k b x : Nat}

/-! ### Frames -/

/-- The parts that an exchange between bays reaches. -/
abbrev sendFoot : Foot := ⟨[.irt, .gal], []⟩

theorem State.leave_reach {i : LaneItem} {d : Nat} : Reach ⟨[.gal], []⟩ s (s.leave i d) := by
  unfold State.leave
  exact State.updGal_reach

theorem State.pass_reach {i : LaneItem} : Reach ⟨[.gal], []⟩ s (s.pass i) :=
  (Reach.refl s).unless (·.branch (·.trans State.leave_reach) (·.trans State.updGal_reach))

theorem State.transitRun_reach : Reach ⟨[.gal], []⟩ s s.transitRun := by
  unfold State.transitRun
  split
  · exact .refl s
  · exact (Reach.refl s).branch (·.trans State.updGal_reach) (·.when fun h => (h.trans State.leave_reach).trans State.updGal_reach)

theorem State.forward_reach {f : Frame} : Reach ⟨[.gal], []⟩ s (s.forward f) :=
  State.pass_reach

theorem State.irqSend_reach {d sub : Nat} : Reach ⟨[.gal], []⟩ s (s.irqSend d sub h x) :=
  State.updGal_reach

theorem State.irqTo_reach {sub : Nat} : Reach sendFoot s (s.irqTo b sub h x) :=
  (Reach.refl s).branch (·.then State.updIrt_reach) (·.then State.irqSend_reach)

theorem State.updHost_reach {f : HostPort → HostPort} : Reach ⟨[.host], []⟩ s (s.updHost f) :=
  .frame (.refl s)

/-! ### The host table -/

/-- What the showing of a host's state reaches: the host table, and a conflict of HID. -/
abbrev shownFoot : Foot := ⟨[.regs, .irt, .gal], [(0x6414, 0x6415), (0x6420, 0x6428)]⟩

theorem htab_holds (hh : h < 8) : shownFoot.holds (R.IRT_HTAB h) = true :=
  Foot.holds_range 0x6420 0x6428 (by simp only [R.IRT_HTAB]; omega)

theorem State.hid_lt : s.hid < 8 :=
  s.get_lt F.IRT_HOST.HID

theorem State.htabSet_reach (hh : h < 8) {r p q : Nat} : Reach shownFoot s (s.htabSet h b r p q) := by
  have hr := htab_holds hh
  exact (((((Reach.refl s).set hr).set hr).set hr).set hr).set hr

theorem State.htabTake_reach (hh : h < 8) {r p q : Nat} : Reach shownFoot s (s.htabTake h b r p q) :=
  (Reach.refl s).branch (·.unless (·.branch (·.trans (State.htabSet_reach hh)) (·.setReg (htab_holds hh))))
    (·.when fun e => (e.when (·.then State.updIrt_reach)).trans (State.htabSet_reach hh))

theorem State.hostShow_reach (hh : h < 8) {r : Nat} : Reach shownFoot s (s.hostShow h r) := by
  unfold State.hostShow
  exact ((State.htabTake_reach hh).when (·.set)).unless (·.then State.irqSend_reach)

theorem State.hostTell_reach : Reach shownFoot s s.hostTell :=
  (Reach.refl s).when (·.trans (State.hostShow_reach State.hid_lt))

theorem State.slotSet_reach : Reach shownFoot s (s.slotSet k) :=
  ((Reach.refl s).set).trans State.hostTell_reach

theorem State.hostNumbered_reach : Reach shownFoot s (s.hostNumbered k) := by
  unfold State.hostNumbered
  exact ((Reach.refl s).when (·.setReg (htab_holds State.hid_lt))).branch (·.trans (State.hostShow_reach State.hid_lt))
    (·.when (·.trans (State.hostShow_reach State.hid_lt)))

/-! ### The interrupt router -/

/-- What the commands of the interrupt router reach. -/
abbrev routerFoot : Foot := ⟨[.regs, .irt, .host, .gal, .por, .marks], [(0x6400, 0x6800)]⟩

theorem router_holds {a : Nat} (ha : 0x6400 ≤ a ∧ a < 0x6800) : routerFoot.holds a = true :=
  Foot.holds_range 0x6400 0x6800 ha

theorem State.claimDone_reach : Reach sendFoot s s.claimDone := by
  unfold State.claimDone
  exact State.irqTo_reach.then State.updIrt_reach

theorem State.withdraw_reach : Reach routerFoot s s.withdraw := by
  unfold State.withdraw
  exact (((Reach.refl s).then State.irqTo_reach).set).evtAdd

theorem State.hostDrop_reach : Reach routerFoot s s.hostDrop :=
  (Reach.refl s).branch (·.trans State.withdraw_reach) (·.when (·.then State.claimDone_reach))

theorem State.hostWrite_reach {v : Word} : Reach routerFoot s (s.hostWrite v) := by
  have ht {g : Nat} (hg : g < 8) : routerFoot.holds (R.IRT_HTAB g) = true := router_holds (by simp only [R.IRT_HTAB]; omega)
  unfold State.hostWrite
  exact (Reach.refl s).unless fun e => ((((e.when fun e => (e.trans State.hostDrop_reach).then (State.hostShow_reach State.hid_lt)).when
    (·.setReg (ht State.hid_lt))).setReg).when (·.set)).branch (·.then (State.htabSet_reach (Nat.mod_lt _ (by decide))))
    (·.then State.hostTell_reach)

theorem State.rxTake_reach {p : RxFrame → Bool} {r : RxFrame} (e : s.rxTake p = some (r, t)) : Reach ⟨[.gal], []⟩ s t := by
  obtain ⟨q, -, hq⟩ := Option.map_eq_some_iff.1 e
  exact (Prod.mk.inj hq).2 ▸ State.updGal_reach

/-- A message of the router is taken within the footprint that the router's own step keeps to. -/
theorem Reach.irqMsg {F : Foot} (e : Reach F s₀ s) {here : Bool} {sub : Nat} {f : State → Nat → Nat → Nat → State}
    (hf : ∀ s b h x, Reach F s (f s b h x)) (hi : F.has .irt = true := by decide) (hg : F.has .gal = true := by decide) :
    Reach F s₀ (s.irqMsg here sub f) := by
  unfold State.irqMsg
  refine e.unless (·.branch (fun e => ?_) fun e => ?_)
  · split
    · exact e
    · exact e.when fun e => (e.then State.updIrt_reach (Foot.le_of_has hi)).trans (hf _ _ _ _)
  · split
    · exact e
    · next r s' hr => exact (e.then (State.rxTake_reach hr) (Foot.le_of_has hg)).trans (hf _ _ _ _)

theorem State.hoststate_reach : Reach routerFoot s (s.hoststate b h x) := by
  unfold State.hoststate
  exact ((Reach.refl s).then (State.htabTake_reach (Nat.mod_lt _ (by decide)))).when (·.set)

theorem State.irqEvaluate_reach : Reach sendFoot s s.irqEvaluate := by
  unfold State.irqEvaluate
  split
  · exact (Reach.refl s).then State.updIrt_reach
  · split
    · exact .refl s
    · exact State.irqTo_reach.then State.updIrt_reach

theorem State.offerTake_reach : Reach routerFoot s (s.offerTake b h x) :=
  (Reach.refl s).branch (fun e => (((e.set.set).then State.updIrt_reach).then State.irqTo_reach).then State.slotSet_reach)
    (·.then State.irqTo_reach)

theorem State.offerAnswer_reach {refuse : Bool} : Reach ⟨[.irt], []⟩ s (s.offerAnswer refuse b h x) :=
  (Reach.refl s).when (·.trans State.updIrt_reach)

theorem State.claimEmpty_reach : Reach routerFoot s s.claimEmpty := by
  unfold State.claimEmpty
  exact (((((Reach.refl s).setReg).evtAdd).then State.updIrt_reach).then State.updHost_reach).then State.slotSet_reach

theorem State.claimRead_reach : Reach routerFoot s s.claimRead := by
  unfold State.claimRead
  exact ((Reach.refl s).then State.updHost_reach).branch
    (fun e => ((e.then State.irqTo_reach).then State.updIrt_reach).then State.slotSet_reach) (·.then State.updHost_reach)

/-- What an answered claim reaches: the counts of the sources. -/
abbrev serveFoot : Foot := ⟨[.regs, .irt, .gal], [(0x6500, 0x6640)]⟩

theorem State.claimServe_reach : Reach serveFoot s (s.claimServe b h) := by
  unfold State.claimServe
  split
  · next k hk =>
    have hk : k < 320 := List.mem_range.1 (List.mem_of_find?_eq_some hk)
    exact ((Reach.refl s).set (Foot.holds_range 0x6500 0x6640 (by simp only [F.IRT_SRC.COUNT, R.IRT_SRC]; omega))).then State.irqTo_reach
  · exact (Reach.refl s).then State.irqTo_reach

theorem State.claimTake_reach : Reach routerFoot s (s.claimTake b h) :=
  (Reach.refl s).branch (·.then State.claimServe_reach) (·.then State.updIrt_reach)

theorem State.claimsRun_reach : Reach serveFoot s s.claimsRun := by
  unfold State.claimsRun
  split
  · exact .refl s
  · exact ((Reach.refl s).then State.updIrt_reach).each fun _ _ _ => State.claimServe_reach

theorem State.claimedTake_reach : Reach routerFoot s (s.claimedTake b x) := by
  have e : Reach routerFoot s s := .refl s
  unfold State.claimedTake
  split
  · refine e.when fun e => .ite State.claimEmpty_reach ?_
    exact (((((e.setReg).then State.updIrt_reach).set.set).then State.updHost_reach).then State.slotSet_reach)
  · exact e

theorem execIrqFrameNoReply_reach {claim : Bool} : GoesTo (execIrqFrameNoReply claim s) (Reach routerFoot s) := by
  have e : Reach routerFoot s s := .refl s
  refine ⟨_, rfl, ?_⟩
  dsimp only
  split
  · exact e
  · exact e.when (·.branch (·.branch (fun e => (e.then State.irqTo_reach).then State.updIrt_reach)
      fun e => (e.then State.irqTo_reach).then State.updIrt_reach) (·.branch (·.trans State.claimEmpty_reach) (·.then State.updIrt_reach)))

theorem State.doneWrite_reach {src : Master} : Reach routerFoot s (s.doneWrite src x) :=
  (Reach.refl s).when (·.branch (·.then State.claimDone_reach) (·.evt))

theorem execIrqSlotRelease_reach : GoesTo (execIrqSlotRelease s) (Reach routerFoot s) := by
  have e : Reach routerFoot s s := .refl s
  refine ⟨_, rfl, ?_⟩
  split
  · exact e
  · exact e.when fun e => (e.then State.updIrt_reach).then State.slotSet_reach

/-- What a frame of the host port without a request reaches. -/
theorem State.hostErr_reach {e : Nat} : Reach ⟨[.regs, .host, .marks], [(0x6401, 0x6403)]⟩ s (s.hostErr e) := by
  unfold State.hostErr
  refine (((Reach.refl s).set).evtAdd ?_).then State.updHost_reach
  by_cases he : e = 1
  · simp only [if_pos he]
    decide
  · simp only [if_neg he]
    decide

theorem State.hostSdo_reach {d : List Byte} : Reach ⟨[.host], []⟩ s (s.hostSdo d) :=
  (Reach.refl s).branch (·.trans State.updHost_reach) (·.trans State.updHost_reach)

theorem State.hostOpen_reach {d : List Byte} : Reach ⟨[.host], []⟩ s (s.hostOpen d) := by
  unfold State.hostOpen
  exact State.updHost_reach.trans State.hostSdo_reach

/-- A command of the interrupt router goes on, within its footprint. -/
theorem routerCommand_reach {c : Instr} (hc : routerCommand c = true) : GoesTo (exec c s) (Reach routerFoot s) := by
  have e : Reach routerFoot s s := .refl s
  cases c <;> try cases hc
  case hostRegister => exact ⟨_, rfl, e.when fun _ => State.hostWrite_reach⟩
  case hoststateReceive => exact ⟨_, rfl, e.irqMsg fun _ _ _ _ => State.hoststate_reach⟩
  case irqEvaluate => exact ⟨_, rfl, e.when (·.then State.irqEvaluate_reach)⟩
  case irqOfferReceive => exact ⟨_, rfl, e.irqMsg fun _ _ _ _ => State.offerTake_reach⟩
  case irqAcceptReceive => exact ⟨_, rfl, e.irqMsg fun s _ _ _ => (Reach.refl s).then State.offerAnswer_reach⟩
  case irqRefuseReceive => exact ⟨_, rfl, e.irqMsg fun s _ _ _ => (Reach.refl s).then State.offerAnswer_reach⟩
  case irqFrameNoReply => exact execIrqFrameNoReply_reach
  case irqClaimRead => exact ⟨_, rfl, e.when fun _ => State.claimRead_reach⟩
  case irqClaimReceive => exact ⟨_, rfl, e.irqMsg fun _ _ _ _ => State.claimTake_reach⟩
  case irqClaimedReceive => exact ⟨_, rfl, e.irqMsg fun _ _ _ _ => State.claimedTake_reach⟩
  case irqDoneWrite => exact ⟨_, rfl, e.when fun _ => State.doneWrite_reach⟩
  case irqSlotRelease => exact execIrqSlotRelease_reach
  case irqDoneReceive => exact ⟨_, rfl, e.irqMsg fun s _ _ _ => (Reach.refl s).then State.updIrt_reach⟩
  case irqWithdrawReceive => exact ⟨_, rfl, e.irqMsg fun s _ _ _ => (Reach.refl s).then State.updIrt_reach⟩
  case irqClaimTimeout => exact ⟨_, rfl, e.when fun _ => (State.withdraw_reach.then State.hostTell_reach).then State.report_reach⟩
  case irqHoldTimeout => exact ⟨_, rfl, e.when fun e => (e.then State.claimDone_reach).then State.report_reach⟩
  case trapClear => exact ⟨_, rfl, e.when (·.set)⟩
  case sourceCountClear k => exact ⟨_, rfl, e.when (·.set (router_holds (by simp only [F.IRT_SRC.COUNT, R.IRT_SRC]; omega)))⟩
  case hostFrameTimeout => exact ⟨_, rfl, e.when fun e => ((e.then State.hostOpen_reach).then State.hostErr_reach).then State.report_reach⟩

end Sys2Proof.Machine
end

section
/-! SUPPORT. The Gallery: what each operation reaches (O46). -/

set_option Elab.async false

namespace Sys2Proof.Machine

variable {s₀ s t : State} {k : Nat}

/-- What the commands of the Gallery reach. -/
abbrev ringFoot : Foot :=
  ⟨[.regs, .gal, .irt, .host, .gau, .bcnIn, .bcnOut, .por, .freeCtr, .tb, .mtDue, .wrapDue, .syncDue, .tick10, .corr, .tbLog, .marks],
    [(0x400, 0x800), (0x4C80, 0x4C84), (0x6000, 0x6800)]⟩

theorem ring_holds {a : Nat} (ha : 0x6000 ≤ a ∧ a < 0x6800) : ringFoot.holds a = true :=
  Foot.holds_range 0x6000 0x6800 ha

/-! ### Lanes and frames -/

theorem State.syncSet_reach : Reach ringFoot s (s.syncSet k) :=
  (Reach.refl s).unless fun e => (e.set).then (State.raise_reach (by decide))

theorem State.ringHoldover_reach : Reach ringFoot s s.ringHoldover :=
  (Reach.refl s).unless (·.set)

theorem State.laneSet_reach {c : Bool} : Reach ringFoot s (s.laneSet c) := by
  unfold State.laneSet
  exact ((((Reach.refl s).set).evtAdd).then (State.raise_reach (by decide))).trans State.ringHoldover_reach

theorem execValidCodeGroupArrival_reach {c : Bool} : GoesTo (execValidCodeGroupArrival c s) (Reach ringFoot s) :=
  ⟨_, rfl, (Reach.refl s).when fun e => (e.branch (·.set) fun e => (e.set).then State.updGal_reach).when (·.set.set)⟩

theorem State.authFail_reach {f : Frame} {c : Nat} : Reach ringFoot s (s.authFail f c) := by
  unfold State.authFail
  exact ((((((Reach.refl s).set).set).set).evtAdd).then (State.raise_reach (by decide))).then State.report_reach

theorem State.rxPut_reach {f : Frame} {act own : Bool} : Reach ⟨[.gal], []⟩ s (s.rxPut f act own) := by
  unfold State.rxPut
  exact State.updGal_reach

theorem State.deliver_reach {f : Frame} : Reach ringFoot s (s.deliver f) := by
  unfold State.deliver
  dsimp only
  split
  · exact .frame (.refl s)
  · exact (Reach.refl s).then State.updGau_reach
  · exact (Reach.refl s).then State.rxPut_reach

theorem State.check_reach {f : Frame} : Reach ringFoot s (s.check f).2 := by
  have e : Reach ringFoot s s := .refl s
  unfold State.check
  split
  · exact e
  · split
    · exact State.authFail_reach
    · split
      · exact e
      · split
        · split
          · exact e.frame
          · exact State.authFail_reach
        · exact e.frame

theorem State.imageIn_reach {f : Frame} : Reach ⟨[.gal], []⟩ s (s.imageIn f) :=
  (Reach.refl s).when (·.trans State.rxPut_reach)

theorem State.frameIn_reach {f : Frame} : Reach ringFoot s (s.frameIn f) := by
  unfold State.frameIn
  refine ((Reach.refl s).when (·.then State.updGal_reach)).branch (·.then State.imageIn_reach) fun e =>
    e.branch (·.when (·.then State.rxPut_reach)) fun e => e.branch (fun e => (e.then State.imageIn_reach).then State.forward_reach) fun e =>
    e.branch (·.unless (·.then State.forward_reach)) fun e => e.branch (·.branch (fun e => ?_) (·.then State.rxPut_reach)) fun e =>
    (e.unless (·.then State.forward_reach)).when fun e => .ite ?_ (e.trans State.check_reach)
  · exact (e.trans State.check_reach).then State.rxPut_reach
  · exact (e.trans State.check_reach).trans State.deliver_reach

theorem State.frameBad_reach {ws : List LaneWord} : Reach ringFoot s (s.frameBad ws) := by
  unfold State.frameBad
  exact ((Reach.refl s).evtAdd).when (·.then State.pass_reach)

theorem execFrameReceive_reach {rd : Bool} {ws : List (BitVec 20)} : GoesTo (execFrameReceive rd ws s) (Reach ringFoot s) := by
  refine ⟨_, rfl, (Reach.refl s).when fun e => ?_⟩
  split
  · exact State.frameBad_reach
  · exact e.branch (·.evtAdd) (·.unless fun _ => State.frameIn_reach)

theorem State.emit_reach {a b : Nat} {p : List Byte} : Reach ⟨[.gal], []⟩ s (s.emit a b p) := by
  unfold State.emit State.send
  exact State.leave_reach

theorem State.emitSync_reach : Reach ⟨[.gal], []⟩ s (s.emitSync k) := by
  unfold State.emitSync
  exact Reach.trans (State.leave_reach (i := .whole _ _)) State.updGal_reach

theorem State.reqSend_reach {r : GalReq} : Reach ⟨[.gal], []⟩ s (s.reqSend r) := by
  unfold State.reqSend
  exact State.emit_reach.trans State.updGal_reach

theorem State.transmit_reach : Reach ringFoot s (s.transmit k) := by
  have e : Reach ringFoot s s := .refl s
  have em {a b : Nat} {p : List Byte} : Reach ringFoot s (s.emit a b p) := e.then State.emit_reach
  unfold State.transmit
  split
  · exact e.when fun _ => em.then State.updGal_reach
  · refine .ite ((e.then State.updGal_reach).frame) (e.unless fun _ => .ite (e.then State.emitSync_reach) ?_)
    split
    · exact em.frame
    · split
      · split
        · exact em.then State.updGal_reach
        · exact e
      · split
        · split
          · exact em.then State.updGau_reach
          · exact e
        · split
          · exact em.then State.updGal_reach
          · split
            · exact em.then State.updGal_reach
            · split
              · exact e.then State.reqSend_reach
              · exact e

/-! ### Requests -/

theorem State.hostAnswer_reach {d : List Byte} : Reach ⟨[.host], []⟩ s (s.hostAnswer k d) :=
  State.updHost_reach

theorem State.reqDead_reach {r : GalReq} : Reach ringFoot s (s.reqDead r) := by
  unfold State.reqDead
  exact (((((Reach.refl s).evtAdd).then (State.raise_reach (by decide))).then State.report_reach).then State.updGal_reach).when
    (·.then State.hostAnswer_reach)

theorem State.respTake_reach {r : RxFrame} : Reach ringFoot s (s.respTake r) := by
  have e : Reach ringFoot s s := .refl s
  unfold State.respTake
  dsimp only
  split
  · exact e
  · split
    · exact (e.then State.updGal_reach).then State.hostAnswer_reach
    · exact (e.then State.updGal_reach).when (·.then State.updGal_reach)

/-- A frame is taken within the footprint that what it does keeps to. -/
theorem Reach.onFrame {F : Foot} (e : Reach F s₀ s) {p : RxFrame → Bool} {f : State → RxFrame → State} (hf : ∀ s r, Reach F s (f s r))
    (hg : F.has .gal = true := by decide) : Reach F s₀ (s.onFrame p f) := by
  unfold State.onFrame
  refine e.when fun e => ?_
  split
  · exact e
  · next r s' hr => exact (e.then (State.rxTake_reach hr) (Foot.le_of_has hg)).trans (hf _ _)

theorem execTransactionTimeout_reach {b : Fin 63} : GoesTo (execTransactionTimeout b s) (Reach ringFoot s) := by
  have e : Reach ringFoot s s := .refl s
  refine ⟨_, rfl, ?_⟩
  split
  · exact e
  · exact e.when (·.branch (·.then State.updGal_reach) fun _ => State.reqDead_reach)

theorem State.reqAdd_reach {w : ReqWho} {b : Nat} {l : List Byte} : Reach ⟨[.gal], []⟩ s (s.reqAdd w b k l) :=
  State.updGal_reach

/-! ### Enumeration -/

theorem State.step3End_reach : Reach ringFoot s s.step3End :=
  (Reach.refl s).when fun e => (e.set).then State.updGal_reach

theorem State.bayTake_reach : Reach ringFoot s (s.bayTake k) :=
  (Reach.refl s).unless fun e => (e.set).then State.hostNumbered_reach

theorem State.nmTake_reach {nm : List Byte} : Reach ringFoot s (s.nmTake nm) := by
  unfold State.nmTake
  exact ((Reach.refl s).each fun _ _ _ => State.reqDead_reach).then State.updGal_reach

theorem State.passBegin_reach {p : EnumPass} {l : List Byte} : Reach ⟨[.gal], []⟩ s (s.passBegin p k l) := by
  unfold State.passBegin
  exact State.updGal_reach

theorem State.fullEnum_reach : Reach ringFoot s s.fullEnum := by
  unfold State.fullEnum
  exact ((((((Reach.refl s).then State.freeBytes_reach).trans State.bayTake_reach).trans State.nmTake_reach).set).then
    State.updGal_reach).then State.passBegin_reach

theorem execEnumPassTimeout_reach : GoesTo (execEnumPassTimeout s) (Reach ringFoot s) := by
  have e : Reach ringFoot s s := .refl s
  refine ⟨_, rfl, ?_⟩
  split
  · exact e
  · exact e.when fun e => (e.evtAdd).trans State.fullEnum_reach

theorem execEnumRetryTimer_reach : GoesTo (execEnumRetryTimer s) (Reach ringFoot s) := by
  have e : Reach ringFoot s s := .refl s
  refine ⟨_, rfl, e.when fun e => e.branch (fun e => ?_) fun e => ?_⟩
  · split
    · exact e
    · exact e.when fun e => ((e.then State.updGal_reach).trans State.step3End_reach).trans State.fullEnum_reach
  · split
    · exact e.when fun e => (e.then State.updGal_reach).trans State.fullEnum_reach
    · exact e

theorem State.masterConflict_reach : Reach ringFoot s s.masterConflict :=
  (((Reach.refl s).evt).then (State.raise_reach (by decide))).then State.report_reach

theorem State.holdFrame_reach {f : Frame} : Reach ⟨[.gal], []⟩ s (s.holdFrame f) := by
  unfold State.holdFrame
  exact State.updGal_reach

theorem State.measureTake_reach {r : RxFrame} : Reach ringFoot s (s.measureTake r) := by
  unfold State.measureTake
  exact ((Reach.refl s).branch (fun e => ((e.trans State.nmTake_reach).trans State.bayTake_reach).set)
    (·.when (·.then State.updGal_reach))).then State.holdFrame_reach

theorem State.enumMeasure_reach {r : RxFrame} : Reach ringFoot s (s.enumMeasure r) := by
  unfold State.enumMeasure
  refine .ite (.ite ?_ (State.masterConflict_reach.trans State.fullEnum_reach)) State.measureTake_reach
  exact ((State.masterConflict_reach.set).then State.updGal_reach).branch (·.trans State.measureTake_reach) (·.then State.forward_reach)

theorem execMeasureHoldEnd_reach {p c : Word} : GoesTo (execMeasureHoldEnd p c s) (Reach ringFoot s) := by
  have e : Reach ringFoot s s := .refl s
  refine ⟨_, rfl, ?_⟩
  split
  · exact e
  · exact e.when fun e => ((e.setReg.setReg).then State.updGal_reach).branch (·.then State.emit_reach) (·.then State.forward_reach)

theorem State.assignTake_reach {r : RxFrame} : Reach ringFoot s (s.assignTake r k) := by
  unfold State.assignTake
  exact ((Reach.refl s).when fun _ => State.bayTake_reach).then State.forward_reach

theorem State.enumerated_reach : Reach ringFoot s s.enumerated := by
  unfold State.enumerated
  exact ((((Reach.refl s).set.set).then (State.raise_reach (by decide))).trans State.step3End_reach).then State.hostTell_reach

theorem State.doneTake_reach {r : RxFrame} : Reach ringFoot s (s.doneTake r) := by
  unfold State.doneTake
  exact ((Reach.refl s).when fun e => (e.set).when (·.trans State.enumerated_reach)).then State.forward_reach

theorem State.offerPass_reach {r : RxFrame} : Reach ⟨[.gal], []⟩ s (s.offerPass r) := by
  unfold State.offerPass
  exact .ite (State.updGal_reach.trans State.forward_reach) State.forward_reach

theorem State.grantTake_reach {r : RxFrame} : Reach ringFoot s (s.grantTake r) := by
  unfold State.grantTake
  exact ((Reach.refl s).when fun _ => State.bayTake_reach.trans State.enumerated_reach).then State.forward_reach

theorem State.joinSend_reach : Reach ⟨[.gal], []⟩ s s.joinSend :=
  (Reach.refl s).when (·.trans State.updGal_reach)

theorem State.offerBack_reach {r : RxFrame} : Reach ringFoot s (s.offerBack r) := by
  unfold State.offerBack
  refine (Reach.refl s).unless fun e => ?_
  dsimp only
  split
  · exact e.set
  · exact (e.then State.updGal_reach).then State.passBegin_reach

theorem State.tbStep_reach : Reach ⟨[.tb, .tbLog, .mtDue, .tick10], []⟩ s (s.tbStep k) :=
  .frame (.refl s)

theorem State.assignBack_reach {r : RxFrame} {w : Bool} : Reach ringFoot s (s.assignBack r w) := by
  unfold State.assignBack
  exact (((Reach.refl s).when fun e => (e.then State.tbStep_reach).set).when (·.set)).then State.updGal_reach

theorem State.doneBack_reach : Reach ringFoot s s.doneBack := by
  unfold State.doneBack
  exact (((((Reach.refl s).set).trans State.syncSet_reach).then State.updGal_reach).trans State.enumerated_reach).each
    fun s _ _ => (Reach.refl s).then State.reqAdd_reach

theorem State.frameBack_reach {r : RxFrame} {w : Bool} : Reach ringFoot s (s.frameBack r w) := by
  have e : Reach ringFoot s s := .refl s
  unfold State.frameBack
  refine e.branch (·.when fun _ => State.offerBack_reach) fun e => ?_
  split
  · exact e.when (·.then State.passBegin_reach)
  · exact e.when fun _ => State.assignBack_reach
  · exact e.when (·.then State.passBegin_reach)
  · exact e.when fun _ => State.doneBack_reach
  · refine e.when fun e => ?_
    split
    · exact (e.then State.updGal_reach).then (State.raise_reach (by decide))
    · exact e.then State.updGal_reach
  · exact e

/-! ### Time, events -/

theorem State.syncTake_reach {r : RxFrame} : Reach ringFoot s (s.syncTake r k) := by
  have hv (c : Bool) (v w : Nat) : Reach ringFoot s (if c then s.set F.GAL_SYNCERR v else s.free.2.set F.GAL_SYNCERR w) :=
    .ite ((Reach.refl s).set) ((Reach.frame (t := s.free.2) (.refl s)).set)
  have he (c : Bool) (v w n : Nat) (g : Gal → Gal) := ((hv c v w).set (f := F.GAL_SYNC) (v := n)).then (State.updGal_reach (f := g))
  unfold State.syncTake
  refine .ite ?_ ?_
  · exact (((((he _ _ _ _ _).then State.tbStep_reach).set (f := F.TB_STAT.STEPS)).trans State.syncSet_reach).then State.updGal_reach).frame
  · exact (((he _ _ _ _ _).trans State.syncSet_reach).then State.updGal_reach).frame

theorem State.syncPass_reach {r : RxFrame} {n : Nat} : Reach ringFoot s (s.syncPass r k n) := by
  unfold State.syncPass
  exact ((Reach.refl s).when fun _ => State.syncTake_reach).then State.pass_reach

theorem State.eventTake_reach {r : RxFrame} : Reach ringFoot s (s.eventTake r) := by
  unfold State.eventTake
  exact (((Reach.refl s).set).evtAt).then (State.raise_reach (by decide))

theorem execEventSlotChange_reach {i : Fin 16} : GoesTo (execEventSlotChange i s) (Reach ringFoot s) :=
  ⟨_, rfl, (Reach.refl s).when fun e => (e.then State.updGal_reach).when (·.then State.updGal_reach)⟩

/-- A command of the Gallery goes on, within its footprint. -/
theorem ringCommand_reach {c : Instr} (hc : ringCommand c = true) : GoesTo (exec c s) (Reach ringFoot s) := by
  have e : Reach ringFoot s s := .refl s
  cases c <;> try cases hc
  case laneSwitchToCable => exact ⟨_, rfl, e.when fun e => (e.set).trans State.laneSet_reach⟩
  case laneReturnToPrimary => exact ⟨_, rfl, e.when fun _ => State.laneSet_reach⟩
  case ringIsolation =>
    exact ⟨_, rfl, e.when fun e => (((e.set.set.set).then (State.raise_reach (by decide))).trans State.ringHoldover_reach).then State.report_reach⟩
  case validCodeGroupArrival => exact execValidCodeGroupArrival_reach
  case frameReceive => exact execFrameReceive_reach
  case enumMeasure => exact ⟨_, rfl, e.onFrame fun _ _ => State.enumMeasure_reach⟩
  case measureHoldEnd => exact execMeasureHoldEnd_reach
  case enumAssign => exact ⟨_, rfl, e.onFrame fun _ _ => State.assignTake_reach⟩
  case enumDone => exact ⟨_, rfl, e.onFrame fun _ _ => State.doneTake_reach⟩
  case joinOffer => exact ⟨_, rfl, e.onFrame fun s _ => (Reach.refl s).then State.offerPass_reach⟩
  case joinGrant => exact ⟨_, rfl, e.onFrame fun _ _ => State.grantTake_reach⟩
  case respReceive => exact ⟨_, rfl, e.onFrame fun _ _ => State.respTake_reach⟩
  case syncReceive => exact ⟨_, rfl, e.onFrame fun _ _ => State.syncPass_reach⟩
  case eventReceive => exact ⟨_, rfl, e.onFrame fun _ _ => State.eventTake_reach⟩
  case resetFrame => exact ⟨_, rfl, e.onFrame fun s _ => (Reach.refl s).when (·.then State.updGal_reach)⟩
  case enumStart => exact ⟨_, rfl, e.when fun _ => State.fullEnum_reach⟩
  case fullEnumeration => exact ⟨_, rfl, e.when fun _ => State.fullEnum_reach⟩
  case enumFrameReturn => exact ⟨_, rfl, e.when fun e => e.onFrame fun _ _ => State.frameBack_reach⟩
  case enumPassTimeout => exact execEnumPassTimeout_reach
  case enumRetryTimer => exact execEnumRetryTimer_reach
  case joinNow => exact ⟨_, rfl, e.when (·.then State.joinSend_reach)⟩
  case joinOfferTimer => exact ⟨_, rfl, e.when (·.then State.joinSend_reach)⟩
  case galleryCountClear => exact ⟨_, rfl, e.when (·.setReg.setReg)⟩
  case syncSend => exact ⟨_, rfl, e.when fun e => (e.frame (t := { s with syncDue := false })).when (·.then State.updGal_reach)⟩
  case syncTimeout => exact ⟨_, rfl, e.when fun _ => State.syncSet_reach⟩
  case transactionTimeout => exact execTransactionTimeout_reach
  case ownFrameTransmit => exact ⟨_, rfl, e.when fun _ => State.transmit_reach⟩
  case eventSlotChange => exact execEventSlotChange_reach

/-- Settles O46: every operation of the Gallery and of the router stays within its family's registers and parts. -/
theorem ringAndRouterCommandsKeepTheRest : Obligations.RingAndRouterCommandsKeepTheRest := by
  unfold Obligations.RingAndRouterCommandsKeepTheRest
  refine ⟨fun c s hc => ?_, fun c s hc => ?_⟩
  · obtain ⟨t, ht, h⟩ := ringCommand_reach hc
    exact ⟨t, ht, h.parts, h.regsIn⟩
  · obtain ⟨t, ht, h⟩ := routerCommand_reach hc
    exact ⟨t, ht, h.parts, h.regsIn⟩

end Sys2Proof.Machine
end

section
/-! SUPPORT. HOOK and the requests of the store: what each operation reaches (O45). -/

set_option Elab.async false

namespace Sys2Proof.Machine

variable {s₀ s t : State} {c k : Nat}

/-! ### Channels -/

/-- What the operations of a channel reach by themselves: HOOK, its sources, and free values. -/
abbrev hkFoot : Foot := ⟨[.regs, .hook, .por, .freeCtr, .marks], [(0x5400, 0x5800), (0x6417, 0x6418), (0x6500, 0x6640)]⟩

theorem hkReg_holds (hc : c < 16) (hk : k < 16) : hkFoot.holds (0x5400 + 0x10 * c + k) = true :=
  Foot.holds_range 0x5400 0x5800 (by omega)

theorem hkCfg_holds (hc : c < 16) : hkFoot.holds (R.HK_CFG c) = true :=
  Foot.holds_range 0x5400 0x5800 (by simp only [R.HK_CFG]; omega)

theorem State.hkSet_reach (hc : c < 16) {st : Nat} : Reach hkFoot s (s.hkSet c st) :=
  (Reach.refl s).set (hkReg_holds hc (k := 4) (by decide))

theorem State.hkPcSet_reach (hc : c < 16) {a : Nat} : Reach hkFoot s (s.hkPcSet c a) :=
  ((Reach.refl s).set (hkReg_holds hc (k := 2) (by decide))).set (hkReg_holds hc (k := 3) (by decide))

theorem State.freeAddr_reach : Reach ⟨[.freeCtr], []⟩ s s.freeAddr.2 :=
  .frame (.refl s)

theorem State.hkStop_reach (hc : c < 16) {cause : Nat} : Reach hkFoot s (s.hkStop c cause) := by
  unfold State.hkStop
  exact (((State.hkSet_reach hc).set (hkReg_holds hc (k := 4) (by decide))).then State.updHk_reach).then (State.raiseIf_reach (by omega))

theorem State.hkErr_reach (hc : c < 16) {cause addr : Nat} : Reach hkFoot s (s.hkErr c cause addr) := by
  unfold State.hkErr
  exact (((((((Reach.refl s).set).set).evtAdd).set).set).evtAdd (hkReg_holds hc (k := 12) (by decide))).then (State.raiseIf_reach (by omega))

theorem State.hkBad_reach (hc : c < 16) {cause addr : Nat} : Reach hkFoot s (s.hkBad c cause addr) :=
  (Reach.refl s).unless fun _ => ((State.hkErr_reach hc).then State.updHk_reach).trans (State.hkSet_reach hc)

theorem State.hkBadFree_reach (hc : c < 16) {cause addr : Nat} : Reach hkFoot s ((s.freeAddr.2).hkBad c cause addr) :=
  ((Reach.refl s).then State.freeAddr_reach).trans (State.hkBad_reach hc)

theorem State.hkStart_reach (hc : c < 16) : Reach hkFoot s (s.hkStart c) :=
  (Reach.refl s).when fun _ => (State.hkSet_reach hc).then State.updHk_reach

theorem State.hkHalt_reach (hc : c < 16) : Reach hkFoot s (s.hkHalt c) :=
  (Reach.refl s).unless (·.branch (fun _ => State.hkStop_reach hc) (·.then State.updHk_reach))

theorem State.hkClr_reach (hc : c < 16) : Reach hkFoot s (s.hkClr c) :=
  have h := hkReg_holds hc (k := 4) (by decide)
  ((Reach.refl s).set h).set h

theorem State.hkPcWrite_reach (hc : c < 16) {hi : Bool} {v : Nat} : Reach hkFoot s (s.hkPcWrite c hi v) :=
  (Reach.refl s).when (·.branch (·.set (hkReg_holds hc (k := 3) (by decide))) (·.set (hkReg_holds hc (k := 2) (by decide))))

theorem State.hkConsume_reach (hc : c < 16) : Reach hkFoot s (s.hkConsume c) :=
  (Reach.refl s).when (·.set (hkReg_holds hc (k := 4) (by decide)))

theorem State.waitTest_reach (hc : c < 16) : Reach hkFoot s (s.waitTest c) :=
  (Reach.refl s).when fun _ => State.hkSet_reach hc

theorem State.hkCount_reach (hc : c < 16) : Reach hkFoot s (s.hkCount c) := by
  have h := hkReg_holds hc (k := 4) (by decide)
  unfold State.hkCount
  exact ((Reach.refl s).then State.updHk_reach).branch (·.evt h) (·.set h)

theorem State.hkPulse_reach (hc : c < 16) : Reach hkFoot s (s.hkPulse c k) :=
  (Reach.refl s).branch (fun e => (e.then State.updHk_reach).trans (State.waitTest_reach hc)) (·.when fun _ => State.hkCount_reach hc)

theorem State.hkLook_reach : Reach ⟨[.hook], []⟩ s (s.hkLook c) := by
  unfold State.hkLook
  exact State.updHk_reach

theorem State.hkFalls_reach : Reach ⟨[.hook], []⟩ s s.hkFalls :=
  (Reach.refl s).each fun s _ _ => (Reach.refl s).when (·.trans State.updHk_reach)

theorem execPacingPulse_reach {edge : Option (Fin 16)} : GoesTo (execPacingPulse edge s) (Reach hkFoot s) := by
  refine ⟨_, rfl, (Reach.refl s).when fun e => ?_⟩
  split
  · split
    · exact e
    · next code mask t _ =>
      have e : Reach hkFoot s { s with hook := { s.hook with pulses := t } } := e.frame
      exact e.when (·.each fun s i hi => (Reach.refl s).when fun _ => State.hkPulse_reach (List.mem_range.1 hi))
  · exact e.when fun e => (e.then State.hkLook_reach).trans (State.hkPulse_reach (Fin.isLt _))

theorem State.hkLoop_reach (hc : c < 16) : Reach hkFoot s (s.hkLoop c) := by
  have hl := hkReg_holds hc (k := 8) (by decide)
  have jump {u v : State} {a : Nat} (e : Reach hkFoot u v) :
      Reach hkFoot u (((v.hkPcSet c a).hkSet c 1).updHk c fun h => { h with desc := none }) :=
    ((e.trans (State.hkPcSet_reach hc)).trans (State.hkSet_reach hc)).then State.updHk_reach
  unfold State.hkLoop
  refine .ite (State.hkBadFree_reach hc) (.ite (State.hkBad_reach hc) ?_)
  exact ((Reach.refl s).when fun e => (e.set hl).then State.updHk_reach).branch jump
    (·.branch (fun e => jump (e.set hl)) fun e => ((e.set hl).then State.updHk_reach).trans (State.hkSet_reach hc))

theorem State.hkWait_reach (hc : c < 16) : Reach hkFoot s (s.hkWait c) := by
  have up {f : Hk → Hk} : Reach hkFoot s (s.updHk c f) := (Reach.refl s).then State.updHk_reach
  unfold State.hkWait
  refine .ite (up.trans (State.hkSet_reach hc)) (.ite ?_ ((Reach.refl s).when fun _ => up.trans (State.hkSet_reach hc)))
  exact (((Reach.refl s).unless (·.set (hkReg_holds hc (k := 4) (by decide)))).then State.updHk_reach).trans (State.waitTest_reach hc)

theorem State.hkBegin_reach (hc : c < 16) : Reach hkFoot s (s.hkBegin c) := by
  have e : Reach hkFoot s s := .refl s
  unfold State.hkBegin
  refine (((e.set (hkReg_holds hc (k := 5) (by decide))).set (hkReg_holds hc (k := 6) (by decide))).set
    (hkReg_holds hc (k := 7) (by decide))).branch (·.trans (State.hkBadFree_reach hc))
    (·.branch (fun e => (e.then State.updHk_reach).trans (State.hkSet_reach hc)) fun e => ?_)
  split
  · exact e.trans (State.hkBad_reach hc)
  · exact e.then State.updHk_reach

theorem State.hkUse_reach (hc : c < 16) : Reach hkFoot s (s.hkUse c) := by
  have h := hkReg_holds hc (k := 10) (by decide)
  unfold State.hkUse
  exact (Reach.refl s).branch (·.set h) fun e => (e.frame (t := s.free.2)).set h

/-- What the commands of HOOK that reach no other block reach. -/
abbrev hookFoot : Foot := ⟨[.regs, .hook, .gau, .por, .freeCtr, .marks], [(0x800, 0x1000), (0x5400, 0x6000), (0x6400, 0x6800)]⟩

theorem State.updCoder_reach {f : Coder → Coder} : Reach ⟨[.gau], []⟩ s (s.updCoder c f) :=
  State.updGau_reach

theorem State.hkIssue_reach (hc : c < 16) : Reach hookFoot s (s.hkIssue c) := by
  have h {k : Nat} (hk : k < 16) : hookFoot.holds (0x5400 + 0x10 * c + k) = true :=
    Foot.holds_of_le (by decide) (hkReg_holds hc hk)
  have e : Reach hookFoot s s := .refl s
  unfold State.hkIssue
  exact ((((((((e.when (·.then State.updCoder_reach)).unless fun e => (e.then (State.hkConsume_reach hc)).then State.updHk_reach).frame).then
    (State.hkUse_reach hc)).then State.updHk_reach).set (h (k := 5) (by decide))).set (h (k := 6) (by decide))).set
    (h (k := 7) (by decide))).when (·.then (State.hkSet_reach hc))

theorem State.hkArbiter_lt (h : s.hkArbiter = some c) : c < 16 := by
  have hm := List.mem_of_mem_head? (Option.mem_def.2 h)
  simp only [List.mem_append, List.mem_filterMap, Option.ite_none_right_eq_some, Option.some.injEq] at hm
  obtain ((⟨k, -, -, h⟩ | ⟨k, -, -, h⟩) | ⟨k, -, -, h⟩) | ⟨k, -, -, h⟩ := hm <;> exact h ▸ Nat.mod_lt _ (by decide)

/-- A command of the HOOK channels goes on, within their footprint. -/
theorem hookCommand_reach {i : Instr} (hi : hookCommand i = true) : GoesTo (exec i s) (Reach hookFoot s) := by
  have e : Reach hookFoot s s := .refl s
  cases i <;> try cases hi
  case hookStart => exact ⟨_, rfl, e.when (·.then (State.hkStart_reach (Fin.isLt _)))⟩
  case hookStop => exact ⟨_, rfl, e.when (·.then (State.hkHalt_reach (Fin.isLt _)))⟩
  case hookClearRequests => exact ⟨_, rfl, e.when (·.then (State.hkClr_reach (Fin.isLt _)))⟩
  case hookPcWrite => exact ⟨_, rfl, e.when (·.then (State.hkPcWrite_reach (Fin.isLt _)))⟩
  case hookMove => exact ⟨_, rfl, e.when (·.then (State.hkBegin_reach (Fin.isLt _)))⟩
  case hookFill => exact ⟨_, rfl, e.when (·.then (State.hkBegin_reach (Fin.isLt _)))⟩
  case hookCmp => exact ⟨_, rfl, e.when (·.then (State.hkBegin_reach (Fin.isLt _)))⟩
  case hookLoop => exact ⟨_, rfl, e.when (·.then (State.hkLoop_reach (Fin.isLt _)))⟩
  case hookWait => exact ⟨_, rfl, e.when (·.then (State.hkWait_reach (Fin.isLt _)))⟩
  case hookSignal => exact ⟨_, rfl, e.when fun e => (e.then State.updHk_reach).then (State.hkSet_reach (Fin.isLt _))⟩
  case pacingPulse =>
    obtain ⟨t, ht, h⟩ := execPacingPulse_reach
    exact ⟨t, ht, e.then h⟩
  case burstIssue =>
    refine ⟨_, rfl, e.when fun e => ?_⟩
    split
    · next c hc => exact State.hkIssue_reach (State.hkArbiter_lt hc)
    · exact e
  case hookBudgetWrite c _ _ =>
    exact ⟨_, rfl, e.when (·.writeCodes (Foot.holds_of_le (by decide) (hkReg_holds c.isLt (k := 9) (by decide))))⟩

/-! ### A burst's time-out, the tick of the budgets -/

theorem State.hkDrained_reach (hc : c < 16) : Reach hkFoot s (s.hkDrained c) :=
  (Reach.refl s).when fun _ => State.hkStop_reach hc

theorem State.burstBad_reach (hc : c < 16) {b : Burst} {cause addr : Nat} : Reach hkFoot s (s.burstBad c b cause addr) :=
  (Reach.refl s).branch (·.unless fun _ => (State.hkErr_reach hc).then State.updHk_reach)
    (·.branch (·.unless fun _ => (State.hkErr_reach hc).then State.updHk_reach) fun _ => State.hkBad_reach hc)

theorem execBurstTimeout_reach {c : Fin 16} {wr : Fin 65}
    (hw : wr.val = 0 ∨ ((s.getHk c).burst.head?.any fun b => dOp b.words = 2) = true) :
    GoesTo (execBurstTimeout c wr s) (Reach hkFoot s) := by
  refine ⟨_, rfl, ?_⟩
  split
  · exact .refl s
  · next b t hb =>
    have hw : (decide (dOp b.words = 2) || decide (wr.val = 0)) = true := by
      rw [hb] at hw
      simpa [or_comm] using hw
    refine (Reach.refl s).when fun e => ?_
    dsimp only
    rw [if_pos hw]
    exact ((((e.then State.updHk_reach).then State.freeAddr_reach).trans (State.burstBad_reach c.isLt)).then State.reportSig_reach).trans
      (State.hkDrained_reach c.isLt)

/-- What the reset of the budgets reaches. -/
abbrev tickFoot : Foot := ⟨[.regs, .hook], [(0x5400, 0x6000)]⟩

/-- The same with a BUDGET section that takes effect. -/
abbrev budgetFoot : Foot := ⟨[.regs, .hook, .wvl, .tru, .hal, .por, .marks], [(0x800, 0x1000), (0x5400, 0x6000), (0x6400, 0x7000)]⟩

theorem State.hkTick_reach : Reach tickFoot s s.hkTick := by
  unfold State.hkTick
  refine (Reach.frame (.refl s)).each fun s i hi => (Reach.refl s).set ?_
  exact Foot.holds_range 0x5400 0x6000 (by have := List.mem_range.1 hi; simp only [F.HK_USED, R.HK_USED]; omega)

theorem State.updWvl_reach {f : Wvl → Wvl} : Reach ⟨[.wvl], []⟩ s (s.updWvl f) :=
  .frame (.refl s)

theorem State.floorRaise_reach {v : Nat} : Reach ⟨[.tru, .hal], []⟩ s (s.floorRaise v) :=
  (Reach.refl s).unless (·.branch (·.then State.updTru_reach) (·.trans State.truAsk_reach))

theorem State.hotDone_reach : Reach budgetFoot s s.hotDone := by
  unfold State.hotDone
  split
  · exact (((((((Reach.refl s).set).evt).set).set).set).then State.updWvl_reach).when (·.then State.floorRaise_reach)
  · exact .refl s

theorem budget_holds {i : Nat} (hi : i ∈ List.range 16) : budgetFoot.holds (R.HK_BUDGET i) = true :=
  Foot.holds_range 0x5400 0x6000 (by have := List.mem_range.1 hi; simp only [R.HK_BUDGET]; omega)

theorem State.budgetApply_reach {b : List Byte} : Reach budgetFoot s (s.budgetApply b) :=
  (Reach.refl s).each fun s _ hi => (Reach.refl s).set (budget_holds hi)

theorem State.budgetRemove_reach : Reach budgetFoot s s.budgetRemove :=
  (Reach.refl s).each fun s _ hi => (Reach.refl s).setReg (budget_holds hi)

/-- A BUDGET section takes effect. -/
theorem State.hotOne_reach {e : Nat × Nat × Option Sect} (he : e.1 = 0x88) : Reach budgetFoot s (s.hotOne e) := by
  obtain ⟨t, g, x⟩ := e
  subst he
  cases x with
  | none => exact ((Reach.refl s).then (State.updWvl_reach (f := _))).trans State.budgetRemove_reach
  | some x => exact ((Reach.refl s).then (State.updWvl_reach (f := _))).trans State.budgetApply_reach

theorem State.hotTake_reach : Reach budgetFoot s (s.hotTake fun e => e.1 = 0x88) := by
  have one (p : Nat × Nat × Option Sect → Bool) {u : State} :
      Reach budgetFoot u (u.each ((s.wvl.hot.filter fun e => e.1 = 0x88).filter p) State.hotOne) :=
    (Reach.refl u).each fun u e he => State.hotOne_reach (by simpa using (List.mem_filter.1 (List.mem_filter.1 he).1).2)
  unfold State.hotTake
  exact (Reach.refl s).unless fun _ => ((one _).trans (one _)).when (·.trans State.hotDone_reach)

theorem execHookBudgetReset_reach : GoesTo (execHookBudgetReset s) (Reach budgetFoot s) :=
  ⟨_, rfl, (Reach.refl s).when fun e => (e.when fun _ => State.hotTake_reach).then State.hkTick_reach⟩

/-- Without a BUDGET section pending nothing takes effect. -/
theorem State.hotTake_none (hn : (s.wvl.hot.any fun e => e.1 = 0x88) = false) : (s.hotTake fun e => e.1 = 0x88) = s := by
  have he : (s.wvl.hot.filter fun e => decide (e.1 = 0x88)) = [] :=
    List.filter_eq_nil_iff.2 fun e he => by simpa using List.any_eq_false.1 hn e he
  unfold State.hotTake
  rw [he]
  rfl

theorem execHookBudgetReset_none_reach (hn : (s.wvl.hot.any fun e => e.1 = 0x88) = false) :
    GoesTo (execHookBudgetReset s) (Reach tickFoot s) := by
  refine ⟨_, rfl, (Reach.refl s).when fun _ => ?_⟩
  unfold State.budgetTick
  rw [State.hotTake_none hn, ite_self]
  exact State.hkTick_reach

/-! ### Requests of the store -/

/-- What a request of the store reaches. -/
abbrev storeFoot : Foot := ⟨[.regs, .hal, .marks], [(0x800, 0x1000), (0x5000, 0x5400)]⟩

theorem halOwn_holds (hh : k < 16) : storeFoot.holds (R.HAL_OWN k) = true :=
  Foot.holds_range 0x5000 0x5400 (by simp only [R.HAL_OWN]; omega)

theorem State.ownerWrite_reach (hh : k < 16) {src : Master} {v : Word} : Reach storeFoot s (s.ownerWrite k src v) := by
  unfold State.ownerWrite
  exact ((Reach.refl s).when (·.then State.recordReject_reach)).unless
    (·.branch (·.evt) fun e => (e.set (halOwn_holds hh)).then State.updHal_reach)

theorem execHallOwnerHandover_reach {h : Fin 16} : GoesTo (execHallOwnerHandover h s) (Reach storeFoot s) := by
  have e : Reach storeFoot s s := .refl s
  refine ⟨_, rfl, ?_⟩
  split
  · exact e
  · exact e.when fun e => ((e.set (halOwn_holds h.isLt)).set (halOwn_holds h.isLt)).then State.updHal_reach

theorem State.nvHost_reach {l : List Byte} : Reach storeFoot s (s.nvHost l) :=
  (Reach.refl s).branch (·.evt) (·.branch (·.then State.nvAsk_reach) (·.evt))

/-- A request of the store goes on, within the footprint of all of them. -/
theorem storeRequest_reach {i : Instr} (hi : storeRequest i = true) : GoesTo (exec i s) (Reach storeFoot s) := by
  have e : Reach storeFoot s s := .refl s
  cases i <;> try cases hi
  case hallOwnerWrite => exact ⟨_, rfl, e.when fun _ => State.ownerWrite_reach (Fin.isLt _)⟩
  case hallOwnerHandover => exact execHallOwnerHandover_reach
  case nvsProgramCommand => exact ⟨_, rfl, e.when fun _ => State.nvHost_reach⟩
  case nvsEraseCommand => exact ⟨_, rfl, e.when fun _ => State.nvHost_reach⟩
  case nvsWriteStart =>
    refine ⟨_, rfl, e.when fun e => ?_⟩
    split
    · exact e
    · exact e.then State.updHal_reach
  case logEntryWrite =>
    refine ⟨_, rfl, e.when fun e => ?_⟩
    split
    · exact e
    · exact (e.then State.updHal_reach).then State.nvAsk_reach

/-- Settles O45: every operation stays within the registers and parts that its clause names. -/
theorem hookAndStoreRequestsKeepTheRest : Obligations.HookAndStoreRequestsKeepTheRest := by
  unfold Obligations.HookAndStoreRequestsKeepTheRest
  refine ⟨fun c s hc => ?_, fun c wr s hw => ?_, fun s => ?_, fun s hn => ?_, fun c s hc => ?_⟩
  · obtain ⟨t, ht, h⟩ := hookCommand_reach hc
    exact ⟨t, ht, h.parts, h.regsIn⟩
  · obtain ⟨t, ht, h⟩ := execBurstTimeout_reach hw
    have h : Reach ⟨[.regs, .hook, .por, .freeCtr, .marks], [(0x800, 0x1000), (0x5400, 0x6000), (0x6400, 0x6800)]⟩ s t :=
      h.mono (by decide)
    exact ⟨t, ht, h.parts, h.regsIn⟩
  · obtain ⟨t, ht, h⟩ := execHookBudgetReset_reach (s := s)
    exact ⟨t, ht, h.parts, h.regsIn⟩
  · obtain ⟨t, ht, h⟩ := execHookBudgetReset_none_reach hn
    exact ⟨t, ht, h.parts, h.regsIn⟩
  · obtain ⟨t, ht, h⟩ := storeRequest_reach hc
    exact ⟨t, ht, h.parts, h.regsIn⟩

end Sys2Proof.Machine
end

section
/-! SUPPORT. Timers: counts and compares, event lines, writes, linked pairs, and the slews of TB (O24). -/

set_option Elab.async false

namespace Sys2Proof.Machine

variable {s₀ s t : State}

/-! ### The end of an FCLK -/

/-- What the end of an FCLK reaches: any register, for items wait at any variable, and of the other state what the blocks keep of what is
under way. -/
abbrev passFoot : Foot :=
  ⟨[.regs, .marks, .por, .cht, .gau, .hal, .halls, .hallErr, .hook, .gal, .irt, .inj, .pins, .fclk, .tb, .mtDue, .wrapDue, .syncDue, .tick10],
    [(0, 0)]⟩

theorem State.passFclk_reach {k : Nat} : Reach passFoot s (s.passFclk k) := by
  have h : Reach passFoot s ({ s.qvStaleRun.padsNote.tbAdvance k with fclk := s.fclk + 1 } : State) :=
    (((Reach.refl s).then State.qvStaleRun_reach).then State.padsNote_reach).then State.tbAdvance_reach |>.frame
  unfold State.passFclk
  exact ((((((h.then State.bankConfs_reach).then State.hallTick_reach).then State.testRun_reach).then State.hkFalls_reach).then
    State.transitRun_reach).then State.claimsRun_reach).then State.countsRun_reach

theorem Reach.corr {F : Foot} (h : Reach F s t) (hp : F.has .corr = false := by decide) : t.corr = s.corr := by
  have he := congrArg State.corr h.parts
  rwa [Foot.put, hp] at he

theorem Reach.slewT {F : Foot} (h : Reach F s t) (hp : F.has .slewT = false := by decide) : t.slewT = s.slewT := by
  have he := congrArg State.slewT h.parts
  rwa [Foot.put, hp] at he

theorem Reach.tmr {F : Foot} (h : Reach F s t) (hp : F.has .tmr = false := by decide) : t.tmr = s.tmr := by
  have he := congrArg State.tmr h.parts
  rwa [Foot.put, hp] at he

theorem Reach.tmrActs {F : Foot} (h : Reach F s t) (hp : F.has .tmrActs = false := by decide) : t.tmrActs = s.tmrActs := by
  have he := congrArg State.tmrActs h.parts
  rwa [Foot.put, hp] at he

/-- A slew moves TB by two counts, or by none, in its FCLK, and takes one off the correction. -/
theorem exec_tbSlew {fast : Bool} (ha : s.islandUp .angle = true) (hsync : s.get F.TB_STAT.SYNC = 1) (ht : s.slewT + 1024 ≤ s.fclk + 1)
    (hc : (if fast then decide (0 < s.corr) else decide (s.corr < 0)) = true) :
    GoesTo (exec (.tbSlew fast) s) fun t => ∃ u : State, u.tb = s.tb ∧ u.mtDue = s.mtDue ∧ u.fclk = s.fclk
      ∧ SameTime { u.tbAdvance (if fast then 2 else 0) with fclk := s.fclk + 1 } t
      ∧ t.corr = (if fast then s.corr - 1 else s.corr + 1) ∧ t.slewT = s.fclk + 1 := by
  let v : State := { s with tbLog := s.tbLogged (s.fclk + 1) (s.tb.toNat + 1), slewT := s.fclk + 1,
                            corr := if fast then s.corr - 1 else s.corr + 1 }
  have hp : Reach passFoot v (v.passFclk (if fast then 2 else 0)) := State.passFclk_reach
  obtain ⟨u, hu, hv⟩ := v.passFclk_beside (if fast then 2 else 0)
  obtain ⟨ufclk, utb, umt, -⟩ := hu.time
  exact ⟨_, congrArg Host.Outcome.next (if_pos (by rw [ha, hc]; simp [hsync, ht])), u, utb, umt, ufclk, hv.time, hp.corr, hp.slewT⟩

theorem State.tb_tbAdvance_two (s : State) : (s.tbAdvance 2).tb = s.tb + 2 := by
  apply BitVec.eq_of_toNat_eq
  simp [State.tbAdvance]

theorem State.tb_tbAdvance_zero (s : State) : (s.tbAdvance 0).tb = s.tb := by
  apply BitVec.eq_of_toNat_eq
  simp [State.tbAdvance]

theorem State.mtDue_tbAdvance_zero (s : State) : (s.tbAdvance 0).mtDue = s.mtDue := by
  have hlt := s.tb.isLt
  simp [State.tbAdvance]
  omega

/-! ### Values of one timer and of a linked pair -/

/-- Value register `k` of timer `n`: its count, reload and compare values, and the captured count. -/
def tmrVal (k n : Nat) : Fld := ⟨0x4C00 + 8 * n + k, 0, 20⟩

theorem State.linkEven_of_get {n : Nat} (h : t.get (F.TMR_CFG.LINK n) = s.get (F.TMR_CFG.LINK n)) : t.linkEven n = s.linkEven n := by
  rw [State.linkEven, State.linkEven, State.bit_eq_of_get h]

theorem State.pairGet_of_get {n k : Nat} (hl : t.get (F.TMR_CFG.LINK n) = s.get (F.TMR_CFG.LINK n))
    (h0 : t.get (tmrVal k n) = s.get (tmrVal k n)) (h1 : t.get (tmrVal k (n + 1)) = s.get (tmrVal k (n + 1))) :
    t.pairGet n (tmrVal k) = s.pairGet n (tmrVal k) := by
  rw [State.pairGet, State.pairGet, State.linkEven_of_get hl, h0, h1]

theorem State.get_set_val {m k : Nat} {f : Fld} (hf : f.addr ≠ (tmrVal k m).addr) {v : Nat} : (s.set (tmrVal k m) v).get f = s.get f :=
  s.get_set_addr _ _ hf v

theorem State.get_set_val_self {m k v : Nat} : (s.set (tmrVal k m) v).get (tmrVal k m) = v % 2 ^ 20 :=
  s.get_set_self _ (by decide : 0 + 20 ≤ 20) v

theorem tmrVal_ne_cfg {k m n : Nat} (hk : 0 < k ∧ k < 8) : (F.TMR_CFG.LINK n).addr ≠ (tmrVal k m).addr := by
  simp only [F.TMR_CFG.LINK, R.TMR_CFG, tmrVal]
  omega

theorem tmrVal_ne_next {k n : Nat} : (tmrVal k n).addr ≠ (tmrVal k (n + 1)).addr := by
  simp only [tmrVal]
  omega

/-- The value of a timer, and of a linked pair, after it is set. -/
theorem State.pairGet_pairSet {n k v : Nat} (hk : 0 < k ∧ k < 8) :
    (s.pairSet n (tmrVal k) v).pairGet n (tmrVal k) = if s.linkEven n then v % 2 ^ 40 else v % 2 ^ 20 := by
  have hl : (s.pairSet n (tmrVal k) v).linkEven n = s.linkEven n := by
    refine State.linkEven_of_get ?_
    unfold State.pairSet
    split
    · rw [State.get_set_val (tmrVal_ne_cfg hk), State.get_set_val (tmrVal_ne_cfg hk)]
    · rw [State.get_set_val (tmrVal_ne_cfg hk)]
  rw [State.pairGet, hl]
  split
  case isTrue h =>
    rw [State.pairSet, if_pos h, State.get_set_val tmrVal_ne_next, State.get_set_val_self, State.get_set_val_self]
    omega
  case isFalse h => rw [State.pairSet, if_neg h, State.get_set_val_self]

theorem State.pairGet_lt {n k : Nat} : s.pairGet n (tmrVal k) < if s.linkEven n then 2 ^ 40 else 2 ^ 20 := by
  have h0 : s.get (tmrVal k n) < 2 ^ 20 := s.get_lt _
  have h1 : s.get (tmrVal k (n + 1)) < 2 ^ 20 := s.get_lt _
  unfold State.pairGet
  split <;> omega

end Sys2Proof.Machine
end

section
/-! SUPPORT. Timers: what a count's change does (O24). -/

set_option Elab.async false

namespace Sys2Proof.Machine

variable {s₀ s t : State} {n k v : Nat}

/-! ### What the operations reach -/

/-- What a compare of timer `n` reaches: its flags, its source, and the pacing pulses on their way. -/
abbrev matchFoot (n : Nat) : Foot :=
  ⟨[.regs, .marks, .por, .hook], [(0x4C00 + 8 * n + 7, 0x4C00 + 8 * n + 8), (0x6417, 0x6418), (0x6500, 0x6640)]⟩

theorem cmpFlag_eq (hk : k < 2) : cmpFlag k n = ⟨R.TMR_STAT n, k, 1⟩ := by
  interval_cases k <;> rfl

theorem cmpPast_eq (hk : k < 2) : cmpPast k n = ⟨R.TMR_STAT n, 5 + k, 1⟩ := by
  interval_cases k <;> rfl

theorem cmpFld_eq (hk : k < 2) : cmpFld k = tmrVal (4 + k) := by
  interval_cases k <;> rfl

theorem stat_holds : (matchFoot n).holds (R.TMR_STAT n) = true :=
  Foot.holds_iff.2 ⟨_, .head _, by simp only [R.TMR_STAT]; omega⟩

theorem raise_le_match : raiseFoot.le (matchFoot n) = true :=
  Foot.le_iff.2 ⟨fun p (h : [Part.regs, .marks, .por].contains p = true) =>
    show [Part.regs, .marks, .por, .hook].contains p = true by revert h; cases p <;> decide, fun r hr => ⟨r, .tail _ hr, le_rfl, by rcases List.mem_pair.1 hr with rfl | rfl <;> decide⟩⟩

theorem State.tmrMatch_reach (hn : n < 16) (hk : k < 2) : Reach (matchFoot n) s (s.tmrMatch n v k) := by
  have h1 : (matchFoot n).holds (cmpFlag k n).addr = true := cmpFlag_eq hk ▸ stat_holds
  have h2 : (matchFoot n).holds (cmpPast k n).addr = true := cmpPast_eq hk ▸ stat_holds
  exact (Reach.refl s).when fun h =>
    (((h.evt h1 rfl rfl).set h2 rfl).then (State.raiseIf_reach (k := 256 + n) (by omega)) raise_le_match).frame

theorem val_apart {m : Nat} (hm : m < 17) (hk : k < 7) : (matchFoot n).holds (tmrVal k m).addr = false :=
  Foot.holds_false_iff.2 (by simp [tmrVal]; omega)

theorem link_apart (hn : n < 16) : (matchFoot n).holds (F.TMR_CFG.LINK n).addr = false :=
  Foot.holds_false_iff.2 (by simp [F.TMR_CFG.LINK, R.TMR_CFG]; omega)

/-- A compare leaves the values of timers. -/
theorem Reach.pairGet (h : Reach (matchFoot n) s t) (hn : n < 16) (hk : k < 7) : t.pairGet n (tmrVal k) = s.pairGet n (tmrVal k) :=
  State.pairGet_of_get (h.get (link_apart hn)) (h.get (val_apart (by omega) hk)) (h.get (val_apart (by omega) hk))

/-- Flag `b` of timer `n`. -/
def tmrFlg (n b : Nat) : Fld := ⟨R.TMR_STAT n, b, 1⟩

theorem State.get_set_flg {b c : Nat} (hb : b < 20) (hc : c ≠ b) {x : Nat} : (s.set (tmrFlg n b) x).get (tmrFlg n c) = s.get (tmrFlg n c) :=
  s.get_set_apart _ _ (by simp only [tmrFlg]; omega) (fun _ => by simp only [tmrFlg]; omega) x

theorem State.get_evt_flg {b c : Nat} (hb : b < 20) (hc : c ≠ b) : (s.evt (tmrFlg n b)).get (tmrFlg n c) = s.get (tmrFlg n c) :=
  (State.get_set_flg hb hc).trans (State.get_mark _ _ _ _)

theorem flg_apart (hn : n < 16) {b : Nat} : raiseFoot.holds (tmrFlg n b).addr = false :=
  Foot.holds_false_iff.2 (by simp [tmrFlg, R.TMR_STAT]; omega)

/-- A compare leaves the flags of the timer that are not its own. -/
theorem State.flg_tmrMatch (hn : n < 16) (hk : k < 2) {b : Nat} (hb : b ≠ k) (hp : b ≠ 5 + k) :
    (s.tmrMatch n v k).get (tmrFlg n b) = s.get (tmrFlg n b) := by
  unfold State.tmrMatch
  split
  · have hr : ∀ u : State, (u.raiseIf (u.bit (cmpIE k n)) (256 + n)).get (tmrFlg n b) = u.get (tmrFlg n b) := fun u =>
      (State.raiseIf_reach (by omega)).get (flg_apart hn)
    refine (hr _).trans ?_
    rw [cmpFlag_eq hk, cmpPast_eq hk]
    exact (State.get_set_flg (by omega) hp).trans (State.get_evt_flg (by omega) hb)
  · rfl

/-- A compare value that is reached sets its flag (R285). -/
theorem State.flg_tmrMatch_self (hn : n < 16) (hk : k < 2) (hv : s.pairGet n (cmpFld k) = v) :
    (s.tmrMatch n v k).get (tmrFlg n k) = 1 := by
  have hr : ∀ u : State, (u.raiseIf (u.bit (cmpIE k n)) (256 + n)).get (tmrFlg n k) = u.get (tmrFlg n k) := fun u =>
    (State.raiseIf_reach (by omega)).get (flg_apart hn)
  unfold State.tmrMatch
  rw [if_pos hv]
  refine (hr _).trans ?_
  rw [cmpFlag_eq hk, cmpPast_eq hk]
  exact (State.get_set_flg (by omega) (by omega)).trans (State.get_evt _ _ (by simp only; omega) Nat.one_pos)

/-! ### A count that changes -/

/-- The state with the count changed, before its compares. -/
def State.tmrCounted (s : State) (n v : Nat) : State :=
  (s.updTmr n fun t => { t with prev := if t.chT = s.fclk then t.prev else s.pairGet n F.TMR_CNT, chT := s.fclk }).pairSet n F.TMR_CNT v

theorem State.tmrChange_eq : s.tmrChange n v = ((s.tmrCounted n v).tmrMatch n v 0).tmrMatch n v 1 := rfl

theorem State.tmrChange_matched (hn : n < 16) : Reach (matchFoot n) (s.tmrCounted n v) (s.tmrChange n v) :=
  (State.tmrMatch_reach hn (by decide)).trans (State.tmrMatch_reach hn (by decide))

theorem State.pairSet_reach {g : Nat → Fld} : Reach ⟨[.regs], [((g n).addr, (g n).addr + 1), ((g (n + 1)).addr, (g (n + 1)).addr + 1)]⟩ s
    (s.pairSet n g v) := by
  have h0 : ∀ a, (⟨[.regs], [(a, a + 1), ((g (n + 1)).addr, (g (n + 1)).addr + 1)]⟩ : Foot).holds a = true := fun a =>
    Foot.holds_iff.2 ⟨_, .head _, by simp⟩
  have h1 : ∀ a, (⟨[.regs], [((g n).addr, (g n).addr + 1), (a, a + 1)]⟩ : Foot).holds a = true := fun a =>
    Foot.holds_iff.2 ⟨_, .tail _ (.head _), by simp⟩
  exact (Reach.refl s).branch (fun h => (h.set (h0 _) rfl).set (h1 _) rfl) (·.set (h0 _) rfl)

/-- A timer's count after a change of it, for a value that its width holds. -/
theorem State.pairGet_tmrChange (hn : n < 16) (hv : v < if s.linkEven n then 2 ^ 40 else 2 ^ 20) :
    (s.tmrChange n v).pairGet n F.TMR_CNT = v := by
  have hm : (s.tmrChange n v).pairGet n (tmrVal 2) = (s.tmrCounted n v).pairGet n (tmrVal 2) :=
    (State.tmrChange_matched hn).pairGet hn (by decide)
  refine hm.trans ((State.pairGet_pairSet (k := 2) (by decide)).trans ?_)
  have hl : (s.updTmr n fun t => { t with prev := if t.chT = s.fclk then t.prev else s.pairGet n F.TMR_CNT, chT := s.fclk }).linkEven n
      = s.linkEven n := rfl
  rw [hl]
  split at hv
  · next h => rw [if_pos h, Nat.mod_eq_of_lt hv]
  · next h => rw [if_neg h, Nat.mod_eq_of_lt hv]

/-- The compare values stand while the count changes. -/
theorem State.cmp_tmrCounted (hk : k < 2) : (s.tmrCounted n v).pairGet n (cmpFld k) = s.pairGet n (cmpFld k) := by
  have hs : Reach _ (s.updTmr n fun t => { t with prev := if t.chT = s.fclk then t.prev else s.pairGet n F.TMR_CNT, chT := s.fclk })
    (s.tmrCounted n v) := State.pairSet_reach (g := F.TMR_CNT)
  rw [cmpFld_eq hk]
  refine (State.pairGet_of_get (hs.get ?_) (hs.get ?_) (hs.get ?_)).trans rfl
  all_goals exact Foot.holds_false_iff.2 (by simp [F.TMR_CNT, R.TMR_CNT, F.TMR_CFG.LINK, R.TMR_CFG, tmrVal]; omega)

theorem State.flg_tmrCounted {b : Nat} : (s.tmrCounted n v).get (tmrFlg n b) = s.get (tmrFlg n b) :=
  (State.pairSet_reach (g := F.TMR_CNT)).get (Foot.holds_false_iff.2 (by simp [F.TMR_CNT, R.TMR_CNT, tmrFlg, R.TMR_STAT]; omega))

/-- A change to a compare value sets its flag. -/
theorem State.flg_tmrChange (hn : n < 16) (hk : k < 2) (hv : s.pairGet n (cmpFld k) = v) : (s.tmrChange n v).get (tmrFlg n k) = 1 := by
  have hc : (s.tmrCounted n v).pairGet n (cmpFld k) = v := (State.cmp_tmrCounted hk).trans hv
  rw [State.tmrChange_eq]
  obtain rfl | rfl : k = 0 ∨ k = 1 := by omega
  · exact (State.flg_tmrMatch hn (by decide) (by decide) (by decide)).trans (State.flg_tmrMatch_self hn (by decide) hc)
  · have hp : ((s.tmrCounted n v).tmrMatch n v 0).pairGet n (tmrVal 5) = (s.tmrCounted n v).pairGet n (tmrVal 5) :=
      (State.tmrMatch_reach hn (by decide)).pairGet hn (by decide)
    exact State.flg_tmrMatch_self hn (by decide) (hp.trans hc)

/-- A change of the count leaves the flags that are not its compares'. -/
theorem State.flg_tmrChange_other (hn : n < 16) {b : Nat} (hb : 2 ≤ b ∧ b < 5) : (s.tmrChange n v).get (tmrFlg n b) = s.get (tmrFlg n b) :=
  ((State.flg_tmrMatch hn (by decide) (by omega) (by omega)).trans
    (State.flg_tmrMatch hn (by decide) (by omega) (by omega))).trans State.flg_tmrCounted

theorem State.tmr_tmrChange (hn : n < 16) : (s.tmrChange n v).tmr
    = (s.updTmr n fun t => { t with prev := if t.chT = s.fclk then t.prev else s.pairGet n F.TMR_CNT, chT := s.fclk }).tmr :=
  ((State.tmrChange_matched hn).tmr rfl).trans ((State.pairSet_reach (g := F.TMR_CNT)).tmr rfl)

theorem State.getTmr_updTmr (hn : n < 16) {f : Tmr → Tmr} : (s.updTmr n f).getTmr n = f (s.getTmr n) :=
  vget_vupd_self _ hn _ _

/-- The prescaler's phase stands while the count changes. -/
theorem State.phase_tmrChange (hn : n < 16) : ((s.tmrChange n v).getTmr n).phase = (s.getTmr n).phase := by
  have h := congrArg (fun x => (vget x n Tmr.reset).phase) (State.tmr_tmrChange (s := s) (v := v) hn)
  refine h.trans ?_
  change ((s.updTmr n _).getTmr n).phase = _
  rw [State.getTmr_updTmr hn]

theorem State.tmrActs_tmrChange (hn : n < 16) : (s.tmrChange n v).tmrActs = s.tmrActs :=
  ((State.tmrChange_matched hn).tmrActs rfl).trans ((State.pairSet_reach (g := F.TMR_CNT)).tmrActs rfl)

/-! ### Writes -/

/-- Step 4 with nothing waiting (R284). -/
theorem State.tmrFlush_of_nil (h : s.tmrActs = []) : s.tmrFlush = s := by
  rw [State.tmrFlush, h]
  rfl

/-- A write applies at once when nothing of steps 1 to 3 is to come in the FCLK (R284). -/
theorem State.tmrAct_of_free {a : TmrAct} (h : s.tmrWaits = false) : s.tmrAct a = s.tmrDo a :=
  if_neg (by rw [h]; decide)

/-- What a start or a stop reaches. -/
theorem State.tmrRun_reach {run : Bool} : Reach ⟨[.regs, .tmr], [(R.TMR_CTRL n, R.TMR_CTRL n + 1)]⟩ s (s.tmrRun n run) := by
  have h : (⟨[.regs, .tmr], [(R.TMR_CTRL n, R.TMR_CTRL n + 1)]⟩ : Foot).holds (R.TMR_CTRL n) = true :=
    Foot.holds_iff.2 ⟨_, .head _, by simp⟩
  exact (Reach.refl s).branch (fun e => (e.set h rfl).frame) (·.set h rfl)

theorem State.run_tmrRun {run : Bool} : (s.tmrRun n run).bit (F.TMR_CTRL.RUN n) = run := by
  have hs (w : Nat) (hw : w < 2) : (s.set (F.TMR_CTRL.RUN n) w).get (F.TMR_CTRL.RUN n) = w :=
    (s.get_set_self _ (by decide : 0 + 1 ≤ 20) w).trans (Nat.mod_eq_of_lt hw)
  unfold State.tmrRun
  split
  · next h => exact (State.bit_of_get_one (hs 1 (by decide))).trans (Bool.and_eq_true_iff.1 h).1.symm
  · cases run
    · exact State.bit_of_get_zero (hs 0 (by decide))
    · exact State.bit_of_get_one (hs 1 (by decide))

end Sys2Proof.Machine
end

section
/-! SUPPORT. Timers: their commands, and O24. -/

set_option Elab.async false

namespace Sys2Proof.Machine

variable {s₀ s t : State} {n k v : Nat}

/-! ### Advances -/

/-- An advance that no line stops or clears. -/
theorem exec_timerAdvance {n : Fin 16} (ha : s.islandUp .angle = true) (h1 : s.tmrRise n 1 = false) (h3 : s.tmrRise n 3 = false)
    (hrun : s.bit (F.TMR_CTRL.RUN n) = true) (hodd : s.linkOdd n = false) (hdue : (s.getTmr n).phase + 2 ^ s.get (F.TMR_CFG.PRE n) ≤ s.fclk)
    {u : State} (hu : (s.updTmr n fun t => { t with phase := (s.getTmr n).phase + 2 ^ s.get (F.TMR_CFG.PRE n) }) = u) :
    exec (.timerAdvance n) s = .next (State.tmrFlush (if u.pairGet n F.TMR_RELOAD ≤ s.pairGet n F.TMR_CNT then
        (((u.evt (F.TMR_STAT.WRAPF n)).raiseIf (u.bit (F.TMR_CFG.WIE n)) (256 + n)).tmrChange n 0).winTimerTick n
      else u.tmrChange n (s.pairGet n F.TMR_CNT + 1))) := by
  subst hu
  exact congrArg Host.Outcome.next (congrArg State.tmrFlush (if_pos (by rw [ha, h1, h3, hrun, hodd, decide_eq_true hdue]; rfl)))

/-- The phase of a timer restarted. -/
theorem State.phase_updTmr (hn : n < 16) {p : Nat} : ((s.updTmr n fun t => { t with phase := p }).getTmr n).phase = p := by
  rw [State.getTmr_updTmr hn]

theorem State.phase_tmrPhase (hn : n < 16) : ((s.tmrPhase n).getTmr n).phase = s.fclk :=
  State.phase_updTmr hn

theorem State.winTimerTick_reach : Reach ⟨[.cmp], []⟩ s (s.winTimerTick n) :=
  (Reach.refl s).each fun s _ _ => (Reach.refl s).when (·.trans State.updCmp_reach)

/-- An advance below RELOAD counts on. -/
theorem timerAdvance_counts {n : Fin 16} (ha : s.islandUp .angle = true) (hq : s.tmrActs = []) (h1 : s.tmrRise n 1 = false)
    (h3 : s.tmrRise n 3 = false) (hrun : s.bit (F.TMR_CTRL.RUN n) = true) (hodd : s.linkOdd n = false)
    (hdue : (s.getTmr n).phase + 2 ^ s.get (F.TMR_CFG.PRE n) ≤ s.fclk) (hlt : s.pairGet n F.TMR_CNT < s.pairGet n F.TMR_RELOAD) :
    GoesTo (exec (.timerAdvance n) s) fun t =>
      t.pairGet n F.TMR_CNT = s.pairGet n F.TMR_CNT + 1 ∧ (t.getTmr n).phase = (s.getTmr n).phase + 2 ^ s.get (F.TMR_CFG.PRE n)
      ∧ (s.pairGet n F.TMR_CMP0 = s.pairGet n F.TMR_CNT + 1 → t.bit (F.TMR_STAT.C0F n) = true)
      ∧ (s.pairGet n F.TMR_CMP1 = s.pairGet n F.TMR_CNT + 1 → t.bit (F.TMR_STAT.C1F n) = true)
      ∧ t.get (F.TMR_STAT.WRAPF n) = s.get (F.TMR_STAT.WRAPF n) := by
  obtain ⟨u, hu⟩ : ∃ u, (s.updTmr n fun t => { t with phase := (s.getTmr n).phase + 2 ^ s.get (F.TMR_CFG.PRE n) }) = u := ⟨_, rfl⟩
  have hregs : u.regs = s.regs := hu ▸ rfl
  have hg (f : Fld) : u.get f = s.get f := State.get_of_regs hregs f
  have hp (g : Nat → Fld) : u.pairGet n g = s.pairGet n g := hu ▸ rfl
  have hacts : (u.tmrChange n (s.pairGet n F.TMR_CNT + 1)).tmrActs = [] := (State.tmrActs_tmrChange n.isLt).trans (hu ▸ hq)
  have hwidth : s.pairGet n F.TMR_CNT + 1 < if u.linkEven n then 2 ^ 40 else 2 ^ 20 := by
    have hle : u.linkEven n = s.linkEven n := hu ▸ rfl
    have hb : s.pairGet n F.TMR_RELOAD < if s.linkEven n then 2 ^ 40 else 2 ^ 20 := State.pairGet_lt (k := 3)
    rw [hle]
    omega
  refine ⟨_, (exec_timerAdvance ha h1 h3 hrun hodd hdue hu).trans (congrArg Host.Outcome.next ?_), State.pairGet_tmrChange n.isLt hwidth,
    ?_, fun h => ?_, fun h => ?_, ?_⟩
  · exact (congrArg State.tmrFlush (if_neg (by rw [hp]; omega))).trans (State.tmrFlush_of_nil hacts)
  · exact (State.phase_tmrChange n.isLt).trans (hu ▸ State.phase_updTmr n.isLt)
  · exact State.bit_of_get_one (State.flg_tmrChange (k := 0) n.isLt (by decide) ((hp _).trans h))
  · exact State.bit_of_get_one (State.flg_tmrChange (k := 1) n.isLt (by decide) ((hp _).trans h))
  · exact (State.flg_tmrChange_other (b := 2) n.isLt (by decide)).trans (hg _)

/-- An advance at RELOAD wraps to 0. -/
theorem timerAdvance_wraps {n : Fin 16} (ha : s.islandUp .angle = true) (hq : s.tmrActs = []) (h1 : s.tmrRise n 1 = false)
    (h3 : s.tmrRise n 3 = false) (hrun : s.bit (F.TMR_CTRL.RUN n) = true) (hodd : s.linkOdd n = false)
    (hdue : (s.getTmr n).phase + 2 ^ s.get (F.TMR_CFG.PRE n) ≤ s.fclk) (hle : s.pairGet n F.TMR_RELOAD ≤ s.pairGet n F.TMR_CNT) :
    GoesTo (exec (.timerAdvance n) s) fun t => t.pairGet n F.TMR_CNT = 0 ∧ t.bit (F.TMR_STAT.WRAPF n) = true := by
  obtain ⟨u, hu⟩ : ∃ u, (s.updTmr n fun t => { t with phase := (s.getTmr n).phase + 2 ^ s.get (F.TMR_CFG.PRE n) }) = u := ⟨_, rfl⟩
  obtain ⟨w, hw⟩ : ∃ w, (u.evt (F.TMR_STAT.WRAPF n)).raiseIf (u.bit (F.TMR_CFG.WIE n)) (256 + n) = w := ⟨_, rfl⟩
  have hp (g : Nat → Fld) : u.pairGet n g = s.pairGet n g := hu ▸ rfl
  have hr : Reach raiseFoot (u.evt (F.TMR_STAT.WRAPF n)) w := hw ▸ State.raiseIf_reach (by omega)
  have hwrap : w.get (tmrFlg n 2) = 1 := (hr.get (flg_apart n.isLt)).trans (State.get_evt _ _ (by decide : 2 + 1 ≤ 20) Nat.one_pos)
  have hwacts : w.tmrActs = [] := hr.tmrActs.trans (by simp only [State.evt_tmrActs, ← hu]; exact hq)
  have hwin : Reach ⟨[.cmp], []⟩ (w.tmrChange n 0) ((w.tmrChange n 0).winTimerTick n) := State.winTimerTick_reach
  have hacts : ((w.tmrChange n 0).winTimerTick n).tmrActs = [] := hwin.tmrActs.trans ((State.tmrActs_tmrChange n.isLt).trans hwacts)
  have hcnt : (w.tmrChange n 0).pairGet n F.TMR_CNT = 0 := State.pairGet_tmrChange n.isLt (by split <;> decide)
  refine ⟨(w.tmrChange n 0).winTimerTick n, (exec_timerAdvance ha h1 h3 hrun hodd hdue hu).trans (congrArg Host.Outcome.next ?_), ?_, ?_⟩
  · exact (congrArg State.tmrFlush ((if_pos (by rw [hp]; exact hle)).trans (by rw [hw]))).trans (State.tmrFlush_of_nil hacts)
  · exact (State.pairGet_of_get (k := 2) (hwin.get rfl) (hwin.get rfl) (hwin.get rfl)).trans hcnt
  · exact State.bit_of_get_one ((hwin.get rfl).trans ((State.flg_tmrChange_other (b := 2) n.isLt (by decide)).trans hwrap))

/-! ### Event lines -/

theorem timerLineStart_runs {n : Fin 16} (hq : s.tmrActs = []) (h0 : s.tmrRise n 0 = true) (h1 : s.tmrRise n 1 = false)
    (hrun : s.bit (F.TMR_CTRL.RUN n) = false) :
    GoesTo (exec (.timerLineStart n) s) fun t => t.bit (F.TMR_CTRL.RUN n) = true ∧ (t.getTmr n).phase = s.fclk := by
  have hacts : (s.tmrRun n true).tmrActs = [] := (State.tmrRun_reach.tmrActs rfl).trans hq
  have hph : ((s.tmrRun n true).getTmr n).phase = s.fclk := by
    rw [State.tmrRun, if_pos (by rw [hrun]; rfl)]
    exact State.phase_tmrPhase n.isLt
  refine ⟨_, congrArg Host.Outcome.next ((congrArg State.tmrFlush (if_pos ?_)).trans (State.tmrFlush_of_nil hacts)), State.run_tmrRun, hph⟩
  rw [h0, h1]
  rfl

theorem timerLineStop_stops {n : Fin 16} (hq : s.tmrActs = []) (h1 : s.tmrRise n 1 = true) :
    GoesTo (exec (.timerLineStop n) s) fun t => t.bit (F.TMR_CTRL.RUN n) = false := by
  have hacts : (s.tmrRun n false).tmrActs = [] := (State.tmrRun_reach.tmrActs rfl).trans hq
  exact ⟨_, congrArg Host.Outcome.next ((congrArg State.tmrFlush (if_pos h1)).trans (State.tmrFlush_of_nil hacts)), State.run_tmrRun⟩

/-- A flag of timer `n` sets, with its source. -/
def State.tmrTell (s : State) (n b : Nat) (c : Bool) : State := (s.evt (tmrFlg n b)).raiseIf c (256 + n)

theorem State.tmrTell_reach (hn : n < 16) {b : Nat} {c : Bool} : Reach (matchFoot n) s (s.tmrTell n b c) :=
  ((Reach.refl s).evt (f := tmrFlg n b) stat_holds rfl rfl).then (State.raiseIf_reach (k := 256 + n) (by omega)) raise_le_match

theorem State.flg_tmrTell (hn : n < 16) {b : Nat} (hb : b < 20) {c : Bool} : (s.tmrTell n b c).get (tmrFlg n b) = 1 :=
  ((State.raiseIf_reach (by omega)).get (flg_apart hn)).trans (State.get_evt _ _ (by simp only [tmrFlg]; omega) Nat.one_pos)

theorem State.flg_tmrTell_ne (hn : n < 16) {b d : Nat} (hb : b < 20) (hd : d ≠ b) {c : Bool} :
    (s.tmrTell n b c).get (tmrFlg n d) = s.get (tmrFlg n d) :=
  ((State.raiseIf_reach (by omega)).get (flg_apart hn)).trans (State.get_evt_flg hb hd)

/-- The overrun of a capture. -/
def State.tmrOverrun (s : State) (n : Nat) : State :=
  let s := s.updTmr n fun t => { t with capT := s.fclk }
  if s.bit (tmrFlg n 3) then s.evt (tmrFlg n 4) else s

/-- Timer `n` captures the value `v`. -/
def State.tmrCaptured (s : State) (n v : Nat) : State := (s.tmrOverrun n).pairSet n F.TMR_CAP v

theorem exec_timerLineCapture {n : Fin 16} (hedge : s.bit (F.TMR_CFG.CAPEDGE n) = false) (h2 : s.tmrRise n 2 = true)
    (hcap : (s.getTmr n).capT ≠ s.fclk) (hch : (s.getTmr n).chT ≠ s.fclk) {v : State} (hv : s.tmrCaptured n (s.pairGet n F.TMR_CNT) = v) :
    exec (.timerLineCapture n) s = .next (v.tmrTell n 3 ((v.evt (tmrFlg n 3)).bit (F.TMR_CFG.CIE n))).tmrFlush := by
  have hval : (if (s.getTmr n).chT = s.fclk then (s.getTmr n).prev else s.pairGet n F.TMR_CNT) = s.pairGet n F.TMR_CNT := if_neg hch
  have hc : ((if s.bit (F.TMR_CFG.CAPEDGE n) = true then s.tmrFall n 2 else s.tmrRise n 2) && decide ((s.getTmr n).capT ≠ s.fclk)) = true := by
    rw [hedge, h2, decide_eq_true hcap]
    rfl
  subst hv
  refine (congrArg Host.Outcome.next (congrArg State.tmrFlush (if_pos hc))).trans ?_
  rw [hval]
  rfl

theorem State.tmrOverrun_reach : Reach ⟨[.regs, .marks, .tmr], [(R.TMR_STAT n, R.TMR_STAT n + 1)]⟩ s (s.tmrOverrun n) :=
  (Reach.frame (.refl s)).when fun h => h.evt (Foot.holds_iff.2 ⟨_, .head _, by simp [tmrFlg]⟩) rfl rfl

theorem State.get_tmrOverrun {f : Fld} (hf : f.addr ≠ R.TMR_STAT n) : (s.tmrOverrun n).get f = s.get f :=
  (State.tmrOverrun_reach (n := n)).get (Foot.holds_false_iff.2 (by simp; omega))

/-- A capture on top of one that stands is an overrun. -/
theorem State.flg_tmrOverrun (h : s.bit (tmrFlg n 3) = true) : (s.tmrOverrun n).get (tmrFlg n 4) = 1 := by
  obtain ⟨u, hu⟩ : ∃ u, s.updTmr n (fun t => { t with capT := s.fclk }) = u := ⟨_, rfl⟩
  have hb : u.bit (tmrFlg n 3) = true := hu ▸ h
  have ho : s.tmrOverrun n = if u.bit (tmrFlg n 3) then u.evt (tmrFlg n 4) else u := hu ▸ rfl
  rw [ho, if_pos hb]
  exact State.get_evt _ _ (by decide : 4 + 1 ≤ 20) Nat.one_pos

theorem State.get_tmrCaptured {f : Fld} (h0 : f.addr ≠ R.TMR_CAP n) (h1 : f.addr ≠ R.TMR_CAP (n + 1)) :
    (s.tmrCaptured n v).get f = (s.tmrOverrun n).get f :=
  (State.pairSet_reach (g := F.TMR_CAP) (s := s.tmrOverrun n) (v := v)).get (Foot.holds_false_iff.2 (by simp [F.TMR_CAP]; omega))

theorem State.linkEven_tmrOverrun : (s.tmrOverrun n).linkEven n = s.linkEven n :=
  State.linkEven_of_get (State.get_tmrOverrun (by simp only [F.TMR_CFG.LINK, R.TMR_CFG, R.TMR_STAT]; omega))

/-- A line captures the count of the FCLK before (R288). -/
theorem timerLineCapture_takes {n : Fin 16} (hq : s.tmrActs = []) (hedge : s.bit (F.TMR_CFG.CAPEDGE n) = false)
    (h2 : s.tmrRise n 2 = true) (hcap : (s.getTmr n).capT ≠ s.fclk) (hch : (s.getTmr n).chT ≠ s.fclk) :
    GoesTo (exec (.timerLineCapture n) s) fun t =>
      t.pairGet n F.TMR_CAP = s.pairGet n F.TMR_CNT ∧ t.bit (F.TMR_STAT.CAPF n) = true ∧ t.get (F.TMR_CNT n) = s.get (F.TMR_CNT n)
      ∧ (s.bit (F.TMR_STAT.CAPF n) = true → t.bit (F.TMR_STAT.CAPOVR n) = true) := by
  obtain ⟨v, hv⟩ : ∃ v, s.tmrCaptured n (s.pairGet n F.TMR_CNT) = v := ⟨_, rfl⟩
  obtain ⟨t, ht⟩ : ∃ t, v.tmrTell n 3 ((v.evt (tmrFlg n 3)).bit (F.TMR_CFG.CIE n)) = t := ⟨_, rfl⟩
  have hr : Reach (matchFoot n) v t := ht ▸ State.tmrTell_reach n.isLt
  have hvacts : v.tmrActs = s.tmrActs := by
    rw [← hv]
    exact ((State.pairSet_reach (g := F.TMR_CAP)).tmrActs rfl).trans (State.tmrOverrun_reach.tmrActs rfl)
  have hvcap : v.pairGet n F.TMR_CAP = s.pairGet n F.TMR_CNT := by
    have hw : s.pairGet n F.TMR_CNT < if s.linkEven n then 2 ^ 40 else 2 ^ 20 := State.pairGet_lt (k := 2)
    rw [← hv]
    refine (State.pairGet_pairSet (k := 6) (by decide)).trans ?_
    rw [State.linkEven_tmrOverrun]
    split at hw
    · next h => rw [if_pos h, Nat.mod_eq_of_lt hw]
    · next h => rw [if_neg h, Nat.mod_eq_of_lt hw]
  refine ⟨t, (exec_timerLineCapture hedge h2 hcap hch hv).trans (congrArg Host.Outcome.next ?_), ?_, ?_, ?_, fun hf => ?_⟩
  · rw [ht]
    exact State.tmrFlush_of_nil ((hr.tmrActs rfl).trans (hvacts.trans hq))
  · exact (hr.pairGet (k := 6) n.isLt (by decide)).trans hvcap
  · exact State.bit_of_get_one (ht ▸ State.flg_tmrTell n.isLt (by decide))
  · refine (hr.get (val_apart (k := 2) (by omega) (by decide))).trans ?_
    rw [← hv]
    exact (State.get_tmrCaptured (by simp only [tmrVal, R.TMR_CAP]; omega) (by simp only [tmrVal, R.TMR_CAP]; omega)).trans
      (State.get_tmrOverrun (by simp only [tmrVal, R.TMR_STAT]; omega))
  · refine State.bit_of_get_one ((ht ▸ State.flg_tmrTell_ne (b := 3) (d := 4) n.isLt (by decide) (by decide)).trans ?_)
    rw [← hv]
    exact (State.get_tmrCaptured (by simp only [tmrFlg, R.TMR_STAT, R.TMR_CAP]; omega)
      (by simp only [tmrFlg, R.TMR_STAT, R.TMR_CAP]; omega)).trans (State.flg_tmrOverrun hf)

theorem timerLineClear_clears {n : Fin 16} (hq : s.tmrActs = []) (h3 : s.tmrRise n 3 = true) :
    GoesTo (exec (.timerLineClear n) s) fun t => t.pairGet n F.TMR_CNT = 0 ∧ (t.getTmr n).phase = s.fclk := by
  have hph : ((s.tmrPhase n).getTmr n).phase = s.fclk := State.phase_tmrPhase n.isLt
  by_cases h : (s.tmrPhase n).pairGet n F.TMR_CNT = 0
  · refine ⟨s.tmrPhase n, congrArg Host.Outcome.next ?_, h, hph⟩
    exact (congrArg State.tmrFlush ((if_pos h3).trans (if_pos h))).trans (State.tmrFlush_of_nil hq)
  · refine ⟨(s.tmrPhase n).tmrChange n 0, congrArg Host.Outcome.next ?_, State.pairGet_tmrChange n.isLt (by split <;> decide),
      (State.phase_tmrChange n.isLt).trans hph⟩
    exact (congrArg State.tmrFlush ((if_pos h3).trans (if_neg h))).trans
      (State.tmrFlush_of_nil ((State.tmrActs_tmrChange n.isLt).trans hq))

/-! ### Writes and reads -/

theorem timerRunWrite_runs {n : Fin 16} {run : Bool} (ha : s.islandUp .angle = true) (hw : s.tmrWaits = false) :
    GoesTo (exec (.timerRunWrite n run) s) fun t =>
      t.bit (F.TMR_CTRL.RUN n) = run ∧ SameRegs (fun a => a = R.TMR_CTRL n) s t :=
  ⟨s.tmrRun n run, congrArg Host.Outcome.next ((if_pos ha).trans (State.tmrAct_of_free hw)), State.run_tmrRun,
    fun a h => State.tmrRun_reach.reg a (Foot.holds_false_iff.2 (by simp; omega))⟩

theorem State.pairGet_pairSet_zero : (s.pairSet n F.TMR_CNT 0).pairGet n F.TMR_CNT = 0 := by
  refine (State.pairGet_pairSet (k := 2) (by decide)).trans ?_
  rw [Nat.zero_mod, Nat.zero_mod, ite_self]

theorem State.fclk_pairSet {g : Nat → Fld} : (s.pairSet n g v).fclk = s.fclk := by
  unfold State.pairSet
  split <;> rfl

theorem State.pairGet_tmrPhase {m : Nat} {g : Nat → Fld} : (s.tmrPhase m).pairGet n g = s.pairGet n g := rfl

theorem State.reg_tmrPhase {m a : Nat} : (s.tmrPhase m).reg a = s.reg a := rfl

theorem exec_timerClearCommand {n : Fin 16} (ha : s.islandUp .angle = true) (hw : s.tmrWaits = false) :
    exec (.timerClearCommand n) s = .next ((s.pairSet n F.TMR_CNT 0).tmrPhase n) :=
  congrArg Host.Outcome.next ((if_pos ha).trans (State.tmrAct_of_free hw))

theorem timerClearCommand_clears {n : Fin 16} (ha : s.islandUp .angle = true) (hw : s.tmrWaits = false) :
    GoesTo (exec (.timerClearCommand n) s) fun t =>
      t.pairGet n F.TMR_CNT = 0 ∧ (t.getTmr n).phase = s.fclk ∧ SameRegs (fun a => a = R.TMR_CNT n ∨ a = R.TMR_CNT (n + 1)) s t := by
  refine ⟨_, exec_timerClearCommand ha hw, State.pairGet_tmrPhase.trans State.pairGet_pairSet_zero,
    (State.phase_tmrPhase n.isLt).trans State.fclk_pairSet, fun a h => State.reg_tmrPhase.trans ?_⟩
  exact (State.pairSet_reach (g := F.TMR_CNT)).reg a (Foot.holds_false_iff.2 (by simp [F.TMR_CNT]; omega))

theorem timerCountWrite_sets {n : Fin 16} {v : Word} (ha : s.islandUp .angle = true) (hw : s.tmrWaits = false) :
    GoesTo (exec (.timerCountWrite n v) s) fun t =>
      t.get (F.TMR_CNT n) = v.toNat ∧ t.get (F.TMR_STAT.C0F n) = s.get (F.TMR_STAT.C0F n) ∧ (s.linkEven n = true → t.get (F.TMR_CNT (n + 1)) = 0) := by
  have hv : v.toNat < 2 ^ 20 := v.isLt
  have hr := State.pairSet_reach (s := s) (n := n) (v := v.toNat % 2 ^ 20) (g := F.TMR_CNT)
  refine ⟨s.pairSet n F.TMR_CNT (v.toNat % 2 ^ 20), congrArg Host.Outcome.next ((if_pos ha).trans (State.tmrAct_of_free hw)), ?_,
    hr.get (Foot.holds_false_iff.2 (by simp [F.TMR_CNT, F.TMR_STAT.C0F, R.TMR_CNT, R.TMR_STAT]; omega)), fun h => ?_⟩
  · have hs {u : State} : (u.set (F.TMR_CNT n) (v.toNat % 2 ^ 20)).get (F.TMR_CNT n) = v.toNat :=
      (State.get_set_val_self (k := 2)).trans (by omega)
    unfold State.pairSet
    split
    · exact (State.get_set_val (k := 2) tmrVal_ne_next).trans hs
    · exact hs
  · rw [State.pairSet, if_pos h]
    exact (State.get_set_val_self (k := 2)).trans (by omega)

theorem timerReloadWrite_single {n : Fin 16} {v : Word} (ha : s.islandUp .angle = true) (hw : s.tmrWaits = false)
    (he : s.linkEven n = false) (ho : s.linkOdd n = false) :
    GoesTo (exec (.timerReloadWrite n v) s) fun t =>
      t.get (F.TMR_RELOAD n) = v.toNat ∧ SameRegs (fun a => a = R.TMR_RELOAD n) s t := by
  have hd : s.tmrReload n v.toNat = s.set (F.TMR_RELOAD n) v.toNat := by
    rw [State.tmrReload, he, ho]
    rfl
  exact ⟨s.set (F.TMR_RELOAD n) v.toNat, congrArg Host.Outcome.next ((if_pos ha).trans ((State.tmrAct_of_free hw).trans hd)),
    (State.get_set_val_self (k := 3)).trans (Nat.mod_eq_of_lt v.isLt), fun a h => s.reg_set _ _ a h⟩

theorem timerReloadWrite_held {n : Fin 16} {v : Word} (ha : s.islandUp .angle = true) (hw : s.tmrWaits = false)
    (he : s.linkEven n = true) :
    GoesTo (exec (.timerReloadWrite n v) s) fun t => (t.getTmr n).heldReload = some v.toNat ∧ t.regs = s.regs := by
  have hd : s.tmrReload n v.toNat = s.updTmr n fun t => { t with heldReload := some v.toNat } := if_pos he
  refine ⟨_, congrArg Host.Outcome.next ((if_pos ha).trans ((State.tmrAct_of_free hw).trans hd)), ?_, rfl⟩
  rw [State.getTmr_updTmr n.isLt]

theorem timerReloadWrite_both {n : Fin 16} {v : Word} {lo : Nat} (ha : s.islandUp .angle = true) (hw : s.tmrWaits = false)
    (ho : s.linkOdd n = true) (hh : (s.getTmr (n - 1)).heldReload = some lo) :
    GoesTo (exec (.timerReloadWrite n v) s) fun t =>
      t.get (F.TMR_RELOAD n) = v.toNat ∧ t.get (F.TMR_RELOAD (n - 1)) = lo % 2 ^ 20 ∧ (t.getTmr (n - 1)).heldReload = none := by
  have hodd : n.val % 2 = 1 := by simpa using (Bool.and_eq_true_iff.1 ho).1
  have he : s.linkEven n = false := by simp [State.linkEven, hodd]
  have hd : s.tmrReload n v.toNat
      = ((s.set (F.TMR_RELOAD (n - 1)) lo).set (F.TMR_RELOAD n) v.toNat).updTmr (n - 1) fun t => { t with heldReload := none } := by
    unfold State.tmrReload
    rw [he, ho, hh]
    rfl
  obtain ⟨u, hu⟩ : ∃ u, (s.set (F.TMR_RELOAD (n - 1)) lo).set (F.TMR_RELOAD n) v.toNat = u := ⟨_, rfl⟩
  have hself : u.get (F.TMR_RELOAD n) = v.toNat := by
    rw [← hu]
    exact (State.get_set_val_self (k := 3)).trans (Nat.mod_eq_of_lt v.isLt)
  have hlow : u.get (F.TMR_RELOAD (n - 1)) = lo % 2 ^ 20 := by
    rw [← hu]
    exact (State.get_set_val (k := 3) (by simp only [F.TMR_RELOAD, R.TMR_RELOAD, tmrVal]; omega)).trans (State.get_set_val_self (k := 3))
  rw [hu] at hd
  refine ⟨_, congrArg Host.Outcome.next ((if_pos ha).trans ((State.tmrAct_of_free hw).trans hd)), hself, hlow, ?_⟩
  rw [State.getTmr_updTmr (by omega)]

/-- PAST after a compare write. -/
theorem State.past_tmrPast (hk : k < 2) (he : s.linkEven n = false) :
    (s.tmrPast n k).bit (cmpPast k n) = decide (s.get (cmpFld k n) ≤ s.get (F.TMR_CNT n)) := by
  have hpair (g : Nat → Fld) : s.pairGet n g = s.get (g n) := if_neg (by rw [he]; decide)
  have hb (b : Bool) : (s.setB (cmpPast k n) b).bit (cmpPast k n) = b := by
    rw [cmpPast_eq hk]
    have h := s.get_set_self ⟨R.TMR_STAT n, 5 + k, 1⟩ (by simp only; omega) (b2n b)
    cases b
    · exact State.bit_of_get_zero h
    · exact State.bit_of_get_one h
  refine (hb _).trans ?_
  rw [hpair, hpair]

theorem State.tmrCompare_single (he : s.linkEven n = false) (ho : s.linkOdd n = false) :
    s.tmrCompare n k v = (s.set (cmpFld k n) v).tmrPast n k :=
  (if_neg (by rw [he]; decide)).trans (if_neg (by rw [ho]; decide))

theorem timerCompareWrite_single {n : Fin 16} {k : Fin 2} {v : Word} (ha : s.islandUp .angle = true) (hw : s.tmrWaits = false)
    (he : s.linkEven n = false) (ho : s.linkOdd n = false) :
    GoesTo (exec (.timerCompareWrite n k v) s) fun t =>
      t.get (cmpFld k n) = v.toNat ∧ t.bit (cmpPast k n) = decide (v.toNat ≤ s.get (F.TMR_CNT n)) := by
  have hk : cmpFld k n = tmrVal (4 + k) n := congrFun (cmpFld_eq k.isLt) n
  obtain ⟨u, hu⟩ : ∃ u, s.set (cmpFld k n) v.toNat = u := ⟨_, rfl⟩
  have hd : s.tmrCompare n k v.toNat = u.tmrPast n k := (State.tmrCompare_single he ho).trans (congrArg (State.tmrPast · n k) hu)
  rw [hk] at hu
  have hul : u.linkEven n = false := by
    have hc : (s.set (tmrVal (4 + k) n) v.toNat).get (F.TMR_CFG.LINK n) = s.get (F.TMR_CFG.LINK n) :=
      State.get_set_val (k := 4 + k.val) (tmrVal_ne_cfg (by omega))
    rw [← hu]
    exact (State.linkEven_of_get hc).trans he
  have hself : u.get (cmpFld k n) = v.toNat := by
    rw [hk, ← hu]
    exact State.get_set_val_self.trans (Nat.mod_eq_of_lt v.isLt)
  have hcnt : u.get (F.TMR_CNT n) = s.get (F.TMR_CNT n) := by
    rw [← hu]
    exact State.get_set_val (k := 4 + k.val) (by simp only [F.TMR_CNT, R.TMR_CNT, tmrVal]; omega)
  refine ⟨u.tmrPast n k, congrArg Host.Outcome.next ((if_pos ha).trans ((State.tmrAct_of_free hw).trans hd)), ?_, ?_⟩
  · refine (State.get_set_addr _ _ _ ?_ _).trans hself
    rw [hk, cmpPast_eq k.isLt]
    simp only [tmrVal, R.TMR_STAT]
    omega
  · rw [State.past_tmrPast k.isLt hul, hself, hcnt]

/-- The RUN bits that a loop of starts leaves. -/
theorem State.run_each {m : Nat} (mask : Nat) (l : List Nat) :
    (s.each l fun s n => if bitOf mask n then s.tmrRun n true else s).bit (F.TMR_CTRL.RUN m)
      = (s.bit (F.TMR_CTRL.RUN m) || (l.contains m && bitOf mask m)) := by
  induction l generalizing s with
  | nil => simp [State.each]
  | cons j l ih =>
    have hne (h : m ≠ j) : (s.tmrRun j true).bit (F.TMR_CTRL.RUN m) = s.bit (F.TMR_CTRL.RUN m) :=
      State.bit_eq_of_get (State.tmrRun_reach.get (Foot.holds_false_iff.2 (by simp [F.TMR_CTRL.RUN, R.TMR_CTRL]; omega)))
    refine ih.trans ?_
    dsimp only
    by_cases hm : m = j
    · subst hm
      by_cases hb : bitOf mask m = true
      · rw [if_pos hb, State.run_tmrRun]
        simp [hb]
      · rw [if_neg hb]
        simp [hb]
    · have hj : (if bitOf mask j = true then s.tmrRun j true else s).bit (F.TMR_CTRL.RUN m) = s.bit (F.TMR_CTRL.RUN m) := by
        split
        · exact hne hm
        · rfl
      rw [hj]
      simp [hm]

theorem timerGroupRun_starts {mask : BitVec 16} (ha : s.islandUp .angle = true) (hw : s.tmrWaits = false) :
    GoesTo (exec (.timerGroupRun mask) s) fun t =>
      ∀ n, n < 16 → t.bit (F.TMR_CTRL.RUN n) = (s.bit (F.TMR_CTRL.RUN n) || bitOf mask.toNat n) := by
  refine ⟨s.tmrGroup mask.toNat, congrArg Host.Outcome.next ((if_pos ha).trans (State.tmrAct_of_free hw)), fun n hn => ?_⟩
  refine (State.run_each mask.toNat (List.range 16)).trans ?_
  rw [List.contains_iff_mem.2 (List.mem_range.2 hn), Bool.true_and]

theorem reg_of_cnt (s : State) (n : Nat) : BitVec.ofNat 20 (s.get (F.TMR_CNT n)) = s.reg (R.TMR_CNT n) := by
  apply BitVec.eq_of_toNat_eq
  have hlt : (s.reg (R.TMR_CNT n)).toNat < 1048576 := (s.reg (R.TMR_CNT n)).isLt
  simpa [State.get, fldGet, F.TMR_CNT] using hlt

theorem exec_timerPairCountRead {n : Fin 16} (ha : s.islandUp .angle = true) {r : Nat × State} (hr : s.tmrRead n = r) :
    exec (.timerPairCountRead n) s = .next { r.2 with rd := BitVec.ofNat 20 r.1 } := by
  subst hr
  exact congrArg Host.Outcome.next (if_pos ha)

theorem timerPairCountRead_single {n : Fin 16} (ha : s.islandUp .angle = true) (he : s.linkEven n = false) (ho : s.linkOdd n = false) :
    GoesTo (exec (.timerPairCountRead n) s) fun t => t.rd = s.reg (R.TMR_CNT n) ∧ t.regs = s.regs ∧ t.tmr = s.tmr := by
  have hr : s.tmrRead n = (s.get (F.TMR_CNT n), s) := by
    unfold State.tmrRead
    rw [he, ho]
    split
    · contradiction
    · split <;> rfl
  exact ⟨_, exec_timerPairCountRead ha hr, reg_of_cnt s n, rfl, rfl⟩

theorem timerPairCountRead_even {n : Fin 16} (ha : s.islandUp .angle = true) (he : s.linkEven n = true) :
    GoesTo (exec (.timerPairCountRead n) s) fun t =>
      t.rd = s.reg (R.TMR_CNT n) ∧ (t.getTmr (n + 1)).latch = some (s.get (F.TMR_CNT (n + 1))) ∧ t.regs = s.regs := by
  have heven : n.val % 2 = 0 := by simpa using (Bool.and_eq_true_iff.1 he).1
  have hr : s.tmrRead n = (s.get (F.TMR_CNT n), s.updTmr (n + 1) fun t => { t with latch := some (s.get (F.TMR_CNT (n + 1))) }) := if_pos he
  refine ⟨_, exec_timerPairCountRead ha hr, reg_of_cnt s n, ?_, rfl⟩
  have hl := congrArg Tmr.latch (State.getTmr_updTmr (s := s) (n := n + 1) (by omega)
    (f := fun t => { t with latch := some (s.get (F.TMR_CNT (n + 1))) }))
  exact hl

theorem timerPairCountRead_odd {n : Fin 16} {v : Nat} (ha : s.islandUp .angle = true) (ho : s.linkOdd n = true)
    (hl : (s.getTmr n).latch = some v) :
    GoesTo (exec (.timerPairCountRead n) s) fun t => t.rd = BitVec.ofNat 20 v ∧ (t.getTmr n).latch = none ∧ t.regs = s.regs := by
  have hodd : n.val % 2 = 1 := by simpa using (Bool.and_eq_true_iff.1 ho).1
  have he : s.linkEven n = false := by simp [State.linkEven, hodd]
  have hr : s.tmrRead n = (v, s.updTmr n fun t => { t with latch := none }) := by
    unfold State.tmrRead
    rw [he, hl, ho]
    rfl
  refine ⟨_, exec_timerPairCountRead ha hr, rfl, ?_, rfl⟩
  exact congrArg Tmr.latch (State.getTmr_updTmr (s := s) n.isLt (f := fun t => { t with latch := none }))

/-! ### Slews -/

theorem tbSlew_fast (ha : s.islandUp .angle = true) (hsync : s.get F.TB_STAT.SYNC = 1) (ht : s.slewT + 1024 ≤ s.fclk + 1) (hc : 0 < s.corr) :
    GoesTo (exec (.tbSlew true) s) fun t => t.tb = s.tb + 2 ∧ t.fclk = s.fclk + 1 ∧ t.corr = s.corr - 1 ∧ t.slewT = s.fclk + 1 := by
  obtain ⟨t, hx, u, utb, -, -, ⟨hfclk, htb, -⟩, hcorr, hslew⟩ := exec_tbSlew (fast := true) ha hsync ht (by simpa using hc)
  exact ⟨t, hx, htb.trans (u.tb_tbAdvance_two.trans (by rw [utb])), hfclk, hcorr, hslew⟩

theorem tbSlew_slow (ha : s.islandUp .angle = true) (hsync : s.get F.TB_STAT.SYNC = 1) (ht : s.slewT + 1024 ≤ s.fclk + 1) (hc : s.corr < 0) :
    GoesTo (exec (.tbSlew false) s) fun t => t.tb = s.tb ∧ t.fclk = s.fclk + 1 ∧ t.corr = s.corr + 1 ∧ t.mtDue = s.mtDue := by
  obtain ⟨t, hx, u, utb, umt, -, ⟨hfclk, htb, hmt, -⟩, hcorr, -⟩ := exec_tbSlew (fast := false) ha hsync ht (by simpa using hc)
  exact ⟨t, hx, htb.trans (u.tb_tbAdvance_zero.trans utb), hfclk, hcorr, hmt.trans (u.mtDue_tbAdvance_zero.trans umt)⟩

/-- Settles O24: a timer's advance, its lines, its writes and its reads, each by the lemma of its command; a slew is an FCLK that passes
with two counts or none. -/
theorem timersCountCompareAndCapture : Obligations.TimersCountCompareAndCapture := by
  unfold Obligations.TimersCountCompareAndCapture
  exact ⟨fun s n => timerAdvance_counts, fun s n => timerAdvance_wraps, fun s n => timerLineStart_runs, fun s n => timerLineStop_stops,
    fun s n => timerLineCapture_takes, fun s n => timerLineClear_clears, fun s n run => timerRunWrite_runs,
    fun s n => timerClearCommand_clears, fun s n v => timerCountWrite_sets, fun s n v => timerReloadWrite_single,
    fun s n v => timerReloadWrite_held, fun s n v lo => timerReloadWrite_both, fun s n k v => timerCompareWrite_single,
    fun s mask => timerGroupRun_starts, fun s n => timerPairCountRead_single, fun s n => timerPairCountRead_even,
    fun s n v => timerPairCountRead_odd, fun s => tbSlew_fast, fun s => tbSlew_slow⟩

end Sys2Proof.Machine
end

section
/-! SUPPORT. NVS: reads, page writes and log entries, and O26. -/

set_option Elab.async false

namespace Sys2Proof.Machine

variable {s t : State} {n a p : Nat} {m : Master}

/-! ### The store -/

theorem State.busRes_busEnd {d : List Byte} {bad : Bool} : (s.busEnd m d bad).busRes m = some (d, bad) := by
  simp [State.busEnd, State.busRes, State.updHal]

/-- Bytes written to NVS read as they were written. -/
theorem State.nvByte_setBytes_at (l : List Byte) (s : State) (a i : Nat) (h : i < l.length) :
    (s.setNvBytes a l).nvByte (a + i) = l[i] := by
  induction l generalizing s a i with
  | nil => exact absurd h (by simp)
  | cons b l ih =>
    rw [State.setNvBytes]
    cases i with
    | zero =>
      rw [State.nvByte_setBytes _ _ _ _ (by omega), State.nvByte_set]
      simp
    | succ i =>
      rw [show a + (i + 1) = a + 1 + i by omega, ih _ _ _ (by simpa using h)]
      rfl

theorem State.nvBytes_setBytes (l : List Byte) (s : State) (a : Nat) : (s.setNvBytes a l).nvBytes a l.length = l := by
  refine List.ext_getElem (by simp [State.nvBytes]) fun i h1 h2 => ?_
  simpa [State.nvBytes] using State.nvByte_setBytes_at l s a i h2

theorem State.setNvBytes_halls (l : List Byte) : (s.setNvBytes a l).halls = s.halls := by
  induction l generalizing s a with
  | nil => rfl
  | cons b l ih => exact ih

theorem State.setNvBytes_hal (l : List Byte) : (s.setNvBytes a l).hal = s.hal := by
  induction l generalizing s a with
  | nil => rfl
  | cons b l ih => exact ih

/-- No word of a store without errors holds one. -/
theorem State.nvErr_nil (h : s.nvsErr = []) (k w : Nat) : s.nvErr w k = none := by
  induction k generalizing w with
  | zero => rfl
  | succ k ih =>
    unfold State.nvErr
    rw [ih, h]
    rfl

/-! ### Reads -/

theorem exec_nvsRead_clean {a : BitVec 21} {sz : AccSize} (hm : s.islandUp .memory = true) (hw : s.nvWaits a.toNat (accBytes sz) = false)
    (he : s.nvsErr = []) :
    exec (.nvsRead m a sz ⟨0, 0⟩) s = .next (let r := s.nvSpace m a.toNat (min (accBytes sz) (2097152 - a.toNat))
      r.1.busEnd m r.2.1 r.2.2.bad) := by
  have hs : ({ s with nvsErr := [] } : State) = s := he ▸ rfl
  refine congrArg Host.Outcome.next ((if_pos (by rw [hm, hw]; rfl)).trans ?_)
  dsimp only
  rw [if_pos (show (0 : Fin 3).val = 0 from rfl), if_pos (show (0 : Fin 3).val = 0 from rfl), he, hs]

/-- A read above the reserved areas, without errors, gives the bytes that stand. -/
theorem State.nvSpace_clean (he : s.nvsErr = []) (ha : 0x102000 ≤ a) : s.nvSpace m a n = (s, s.nvBytes a n, .ok) := by
  refine (if_pos (by rw [decide_eq_true ha, Bool.or_true])).trans ?_
  unfold State.nvOp
  dsimp only
  rw [State.nvErr_nil he]

theorem nvsRead_gives {a : BitVec 21} {sz : AccSize} (hm : s.islandUp .memory = true) (hw : s.nvWaits a.toNat (accBytes sz) = false)
    (he : s.nvsErr = []) (ha : 0x102000 ≤ a.toNat) (hn : a.toNat + accBytes sz ≤ 2097152) :
    GoesTo (exec (.nvsRead m a sz ⟨0, 0⟩) s) fun t =>
      t.busRes m = some (s.nvBytes a.toNat (accBytes sz), false) ∧ SameStores s t ∧ t.regs = s.regs := by
  refine ⟨s.busEnd m (s.nvBytes a.toNat (accBytes sz)) false, (exec_nvsRead_clean hm hw he).trans ?_, State.busRes_busEnd,
    ⟨rfl, rfl, rfl, rfl⟩, rfl⟩
  rw [Nat.min_eq_left (by omega), State.nvSpace_clean he ha]
  rfl

theorem nvsRead_waits {a : BitVec 21} {sz : AccSize} {err : WordErrs} (hw : s.nvWaits a.toNat (accBytes sz) = true) :
    exec (.nvsRead m a sz err) s = .next s :=
  congrArg Host.Outcome.next (if_neg (by rw [hw, Bool.not_true, Bool.and_false]; decide))

/-! ### Commands -/

/-- A host's command on a page of the user area asks for it. -/
theorem State.nvHost_asks {bs : List Byte} (hh : s.nvHas .host = false) (hlo : 33408 ≤ s.get F.HAL_NVPAGE)
    (hhi : s.get F.HAL_NVPAGE ≤ 33791) : s.nvHost bs = s.nvAsk .host [(s.get F.HAL_NVPAGE, bs)] :=
  (if_neg (by rw [hh]; decide)).trans (if_pos (by rw [decide_eq_true hlo, decide_eq_true hhi]; rfl))

theorem State.nvHost_prot {bs : List Byte} (hh : s.nvHas .host = false)
    (ho : s.get F.HAL_NVPAGE < 33408 ∨ 33791 < s.get F.HAL_NVPAGE) : s.nvHost bs = s.evt F.HAL_NVSTAT.PROT :=
  (if_neg (by rw [hh]; decide)).trans (if_neg (by simp only [Bool.and_eq_true, decide_eq_true_eq]; omega))

theorem exec_nvsProgramCommand (hm : s.islandUp .memory = true) : exec .nvsProgramCommand s = .next (s.nvHost s.nvBuf) :=
  congrArg Host.Outcome.next (if_pos hm)

theorem exec_nvsEraseCommand (hm : s.islandUp .memory = true) : exec .nvsEraseCommand s = .next (s.nvHost erased) :=
  congrArg Host.Outcome.next (if_pos hm)

/-! ### Page writes -/

/-- The waiting request that starts: the first of those of lowest rank. -/
def nvBest (h : NvReq) (l : List NvReq) : NvReq := l.foldl (fun b r => if r.who.rank < b.who.rank then r else b) h

theorem nvBest_mem (h : NvReq) (l : List NvReq) : nvBest h l ∈ h :: l := by
  induction l generalizing h with
  | nil => exact .head _
  | cons r l ih =>
    have hm := ih (if r.who.rank < h.who.rank then r else h)
    rcases List.mem_cons.1 hm with he | he
    · refine (congrArg (· ∈ h :: r :: l) he).mpr ?_
      split
      · exact .tail _ (.head _)
      · exact .head _
    · exact .tail _ (.tail _ he)

theorem nvBest_rank (h : NvReq) (l : List NvReq) : ∀ x ∈ h :: l, (nvBest h l).who.rank ≤ x.who.rank := by
  induction l generalizing h with
  | nil => simp [nvBest]
  | cons r l ih =>
    have hm := ih (if r.who.rank < h.who.rank then r else h)
    have hb : nvBest h (r :: l) = nvBest (if r.who.rank < h.who.rank then r else h) l := rfl
    have hf := hm _ (.head _)
    have hle : (if r.who.rank < h.who.rank then r else h).who.rank ≤ h.who.rank
        ∧ (if r.who.rank < h.who.rank then r else h).who.rank ≤ r.who.rank := by split <;> omega
    intro x hx
    rw [hb]
    rcases List.mem_cons.1 hx with rfl | hx
    · exact hf.trans hle.1
    · rcases List.mem_cons.1 hx with rfl | hx
      · exact hf.trans hle.2
      · exact hm x (.tail _ hx)

theorem nvsWriteStart_starts (hm : s.islandUp .memory = true) (hr : s.hal.running = none) (hw : s.hal.waiting ≠ []) :
    GoesTo (exec .nvsWriteStart s) fun t =>
      ∃ r, r ∈ s.hal.waiting ∧ t.hal.running = some r ∧ t.hal.waiting = s.hal.waiting.erase r
        ∧ (∀ x ∈ s.hal.waiting, r.who.rank ≤ x.who.rank) ∧ SameStores s t := by
  obtain ⟨h, l, hl⟩ := List.exists_cons_of_ne_nil hw
  refine ⟨s.updHal fun x => { x with waiting := x.waiting.erase (nvBest h l), running := some (nvBest h l) },
    congrArg Host.Outcome.next ((if_pos (by rw [hm, hr]; rfl)).trans ?_), nvBest h l, hl ▸ nvBest_mem h l, rfl, rfl,
    hl ▸ nvBest_rank h l, ⟨rfl, rfl, rfl, rfl⟩⟩
  rw [hl]
  rfl

/-- A page whose write failed holds 32 bytes that no rule gives. -/
theorem State.nvFailed_puts (s : State) (p : Nat) :
    ∃ bs, bs.length = 32 ∧ (s.nvFailed p).nvs = (s.setNvBytes (32 * p) bs).nvs ∧ (s.nvFailed p).hal = (s.setNvBytes (32 * p) bs).hal := by
  unfold State.nvFailed
  dsimp only
  generalize hbs : (List.range 32).map (fun i => BitVec.ofNat 8 (Config.freeWord (s.freeCtr + i)).toNat) = bs
  exact ⟨bs, by rw [← hbs, List.length_map, List.length_range], rfl, rfl⟩

/-- The end of a host's write of one page. -/
theorem exec_nvsWriteDone_host {bs : List Byte} {ok : Bool} (hm : s.islandUp .memory = true)
    (hr : s.hal.running = some ⟨.host, [(p, bs)]⟩) {u : State} (hu : (s.updHal fun x => { x with running := none }) = u) :
    exec (.nvsWriteDone ok) s = .next ((if ok then u.nvPut p bs else u.nvFailed p).nvEnd .host ok) := by
  subst hu
  unfold exec execNvsWriteDone
  refine congrArg Host.Outcome.next ?_
  rw [hr]
  refine (if_pos hm).trans (if_neg ?_)
  simp

theorem nvsWriteDone_puts {bs : List Byte} (hm : s.islandUp .memory = true) (hr : s.hal.running = some ⟨.host, [(p, bs)]⟩)
    (hl : bs.length = 32) :
    GoesTo (exec (.nvsWriteDone true) s) fun t =>
      t.nvBytes (32 * p) 32 = bs ∧ (∀ a, a < 32 * p ∨ 32 * p + 32 ≤ a → t.nvByte a = s.nvByte a) ∧ t.bit F.HAL_NVSTAT.DONE = true
        ∧ t.hal.running = none ∧ t.halls = s.halls := by
  obtain ⟨u, hu⟩ : ∃ u, (s.updHal fun x => { x with running := none }) = u := ⟨_, rfl⟩
  have hn : ((u.nvPut p bs).evt F.HAL_NVSTAT.DONE).nvs = (u.setNvBytes (32 * p) bs).nvs := State.evt_nvs _ _
  have hb (a : Nat) : ((u.nvPut p bs).evt F.HAL_NVSTAT.DONE).nvByte a = (u.setNvBytes (32 * p) bs).nvByte a :=
    congrArg (cellGet nvsDefault · a) hn
  have hus (a : Nat) : u.nvByte a = s.nvByte a := by rw [← hu]; rfl
  refine ⟨(u.nvPut p bs).evt F.HAL_NVSTAT.DONE, exec_nvsWriteDone_host hm hr hu, ?_, fun a ha => ?_, ?_, ?_, ?_⟩
  · have h := State.nvBytes_setBytes bs u (32 * p)
    rw [hl] at h
    exact (List.map_congr_left fun i _ => hb (32 * p + i)).trans h
  · exact (hb a).trans ((State.nvByte_setBytes bs u _ _ (by rw [hl]; exact ha)).trans (hus a))
  · exact State.bit_of_get_one (State.get_evt _ _ (by decide) (by decide))
  · exact (congrArg Hal.running (State.evt_hal _ _)).trans ((congrArg Hal.running (State.setNvBytes_hal bs)).trans (by rw [← hu]; rfl))
  · exact (State.evt_halls _ _).trans ((State.setNvBytes_halls bs).trans (by rw [← hu]; rfl))

theorem nvsWriteDone_fails {bs : List Byte} (hm : s.islandUp .memory = true) (hr : s.hal.running = some ⟨.host, [(p, bs)]⟩) :
    GoesTo (exec (.nvsWriteDone false) s) fun t =>
      t.bit F.HAL_NVSTAT.ERR = true ∧ t.hal.running = none ∧ (∀ a, a < 32 * p ∨ 32 * p + 32 ≤ a → t.nvByte a = s.nvByte a) := by
  obtain ⟨u, hu⟩ : ∃ u, (s.updHal fun x => { x with running := none }) = u := ⟨_, rfl⟩
  have hus (a : Nat) : u.nvByte a = s.nvByte a := by rw [← hu]; rfl
  have hur : u.hal.running = none := by rw [← hu]; rfl
  obtain ⟨bs, hl, hn, hh⟩ := u.nvFailed_puts p
  refine ⟨(u.nvFailed p).evt F.HAL_NVSTAT.ERR, exec_nvsWriteDone_host hm hr hu, ?_, ?_, fun a ha => ?_⟩
  · exact State.bit_of_get_one (State.get_evt _ _ (by decide) (by decide))
  · exact (congrArg Hal.running ((State.evt_hal _ _).trans (hh.trans (State.setNvBytes_hal bs)))).trans hur
  · exact (congrArg (cellGet nvsDefault · a) ((State.evt_nvs _ _).trans hn)).trans
      ((State.nvByte_setBytes bs u _ _ (by rw [hl]; exact ha)).trans (hus a))

/-! ### The log -/

theorem exec_logEntryWrite {r : LogRec} {rest : List LogRec} (hm : s.islandUp .memory = true) (hd : s.hal.logDue = true)
    (hn : s.nvHas .log = false) (hq : s.hal.logQ = r :: rest) :
    exec .logEntryWrite s = .next (State.nvAsk (s.updHal fun x => { x with logQ := rest, logDue := false }) .log
      [(logPage + s.get F.HAL_LOGHEAD, leBytes 6 (s.hal.logSeq + 1) ++ r.bytes)]) := by
  unfold exec execLogEntryWrite
  refine congrArg Host.Outcome.next ((if_pos (by rw [hm, hd, hn]; rfl)).trans ?_)
  rw [hq]
  rfl

/-- Settles O26: reads, commands, the order and the end of page writes, and the log's entries, each by the equation of its command. -/
theorem nvsPagesAndTheFaultLog : Obligations.NvsPagesAndTheFaultLog := by
  unfold Obligations.NvsPagesAndTheFaultLog
  refine ⟨fun s m a sz => nvsRead_gives, fun s m a sz err => nvsRead_waits, fun s hm hh hlo hhi => ?_, fun s hm hh hlo hhi => ?_,
    fun s hm hh ho => ?_, fun s hm hh => ?_, fun s => nvsWriteStart_starts, fun s p bs => nvsWriteDone_puts,
    fun s p bs => nvsWriteDone_fails, fun s r rest hm hd hn hq => ?_⟩
  · exact ⟨_, (exec_nvsProgramCommand hm).trans (congrArg Host.Outcome.next (State.nvHost_asks hh hlo hhi)), rfl, rfl, rfl, rfl, rfl, rfl⟩
  · exact ⟨_, (exec_nvsEraseCommand hm).trans (congrArg Host.Outcome.next (State.nvHost_asks hh hlo hhi)), rfl, rfl, rfl, rfl, rfl, rfl⟩
  · exact ⟨_, (exec_nvsProgramCommand hm).trans (congrArg Host.Outcome.next (State.nvHost_prot hh ho)),
      State.bit_of_get_one (State.get_evt _ _ (by decide) (by decide)), State.evt_hal _ _⟩
  · exact ⟨_, (exec_nvsProgramCommand hm).trans (congrArg Host.Outcome.next (if_pos hh)),
      State.bit_of_get_one (State.get_evt _ _ (by decide) (by decide)), State.evt_hal _ _⟩
  · exact ⟨_, exec_logEntryWrite hm hd hn hq, rfl, rfl, rfl, ⟨rfl, rfl, rfl, rfl⟩, rfl⟩

end Sys2Proof.Machine
end

section
/-! SUPPORT. What an operation leaves of the state's fields, and SENT receivers: O38. -/

set_option Elab.async false

namespace Sys2Proof.Machine

variable {G : Foot} {s t : State}

/-! ### A field outside the footprint -/

theorem Reach.fclk (h : Reach G s t) (hp : G.has .fclk = false := by decide) : t.fclk = s.fclk := by
  have he := congrArg State.fclk h.parts
  rwa [Foot.put, hp] at he

theorem Reach.tb (h : Reach G s t) (hp : G.has .tb = false := by decide) : t.tb = s.tb := by
  have he := congrArg State.tb h.parts
  rwa [Foot.put, hp] at he

theorem Reach.freeCtr (h : Reach G s t) (hp : G.has .freeCtr = false := by decide) : t.freeCtr = s.freeCtr := by
  have he := congrArg State.freeCtr h.parts
  rwa [Foot.put, hp] at he

theorem Reach.halls (h : Reach G s t) (hp : G.has .halls = false := by decide) : t.halls = s.halls := by
  have he := congrArg State.halls h.parts
  rwa [Foot.put, hp] at he

theorem Reach.hallErr (h : Reach G s t) (hp : G.has .hallErr = false := by decide) : t.hallErr = s.hallErr := by
  have he := congrArg State.hallErr h.parts
  rwa [Foot.put, hp] at he

theorem Reach.nvs (h : Reach G s t) (hp : G.has .nvs = false := by decide) : t.nvs = s.nvs := by
  have he := congrArg State.nvs h.parts
  rwa [Foot.put, hp] at he

theorem Reach.nvsErr (h : Reach G s t) (hp : G.has .nvsErr = false := by decide) : t.nvsErr = s.nvsErr := by
  have he := congrArg State.nvsErr h.parts
  rwa [Foot.put, hp] at he

theorem Reach.pins (h : Reach G s t) (hp : G.has .pins = false := by decide) : t.pins = s.pins := by
  have he := congrArg State.pins h.parts
  rwa [Foot.put, hp] at he

theorem Reach.por (h : Reach G s t) (hp : G.has .por = false := by decide) : t.por = s.por := by
  have he := congrArg State.por h.parts
  rwa [Foot.put, hp] at he

theorem Reach.hal (h : Reach G s t) (hp : G.has .hal = false := by decide) : t.hal = s.hal := by
  have he := congrArg State.hal h.parts
  rwa [Foot.put, hp] at he

theorem Reach.hook (h : Reach G s t) (hp : G.has .hook = false := by decide) : t.hook = s.hook := by
  have he := congrArg State.hook h.parts
  rwa [Foot.put, hp] at he

theorem Reach.gal (h : Reach G s t) (hp : G.has .gal = false := by decide) : t.gal = s.gal := by
  have he := congrArg State.gal h.parts
  rwa [Foot.put, hp] at he

theorem Reach.irt (h : Reach G s t) (hp : G.has .irt = false := by decide) : t.irt = s.irt := by
  have he := congrArg State.irt h.parts
  rwa [Foot.put, hp] at he

theorem Reach.host (h : Reach G s t) (hp : G.has .host = false := by decide) : t.host = s.host := by
  have he := congrArg State.host h.parts
  rwa [Foot.put, hp] at he

theorem Reach.stc (h : Reach G s t) (hp : G.has .stc = false := by decide) : t.stc = s.stc := by
  have he := congrArg State.stc h.parts
  rwa [Foot.put, hp] at he

theorem Reach.tru (h : Reach G s t) (hp : G.has .tru = false := by decide) : t.tru = s.tru := by
  have he := congrArg State.tru h.parts
  rwa [Foot.put, hp] at he

theorem Reach.can (h : Reach G s t) (hp : G.has .can = false := by decide) : t.can = s.can := by
  have he := congrArg State.can h.parts
  rwa [Foot.put, hp] at he

theorem Reach.sent (h : Reach G s t) (hp : G.has .sent = false := by decide) : t.sent = s.sent := by
  have he := congrArg State.sent h.parts
  rwa [Foot.put, hp] at he

theorem Reach.sameStores (h : Reach G s t) (h1 : G.has .halls = false := by decide) (h2 : G.has .hallErr = false := by decide)
    (h3 : G.has .nvs = false := by decide) (h4 : G.has .nvsErr = false := by decide) : SameStores s t :=
  ⟨h.halls h1, h.hallErr h2, h.nvs h3, h.nvsErr h4⟩

/-! ### Receivers -/

variable {r : Nat}

theorem State.getSent_updSent (hr : r < 8) {f : SentRx → SentRx} : (s.updSent r f).getSent r = f (s.getSent r) :=
  vget_vupd_self s.sent hr f _

theorem State.get_updSent {f : SentRx → SentRx} (g : Fld) : (s.updSent r f).get g = s.get g := rfl

theorem State.fclk_updSent {f : SentRx → SentRx} : (s.updSent r f).fclk = s.fclk := rfl

theorem Reach.getSent (h : Reach G s t) (hp : G.has .sent = false := by decide) : t.getSent r = s.getSent r :=
  congrArg (vget · r SentRx.reset) (h.sent hp)

/-- A register of receiver `r`. -/
def sentFld (k lo len r : Nat) : Fld := ⟨0x7C00 + 0x10 * r + k, lo, len⟩

/-- What a frame's deliveries and its interrupt reach. -/
abbrev sentTailFoot : Foot := ⟨[.regs, .por, .marks], [(0x3400, 0x3480), (0x6417, 0x6418), (0x6500, 0x6640), (0x7CA0, 0x7CC0)]⟩

theorem sentFld_apart (hr : r < 8) {k lo len : Nat} (hk : k < 16) : sentTailFoot.holds (sentFld k lo len r).addr = false :=
  Foot.holds_false_iff.2 (by simp [sentFld]; omega)

theorem State.get_set_sentFld {j k lo len lo' len' v : Nat} (h : j ≠ k) :
    (s.set (sentFld k lo len r) v).get (sentFld j lo' len' r) = s.get (sentFld j lo' len' r) :=
  State.get_set_addr _ _ _ (by simp only [sentFld]; omega) _

theorem State.get_set_sentFld_self {k len v : Nat} (h : len ≤ 20) :
    (s.set (sentFld k 0 len r) v).get (sentFld k 0 len r) = v % 2 ^ len :=
  State.get_set_self _ _ (by simpa [sentFld] using h) _

/-- The registers of an accepted frame, before its deliveries. -/
def State.sentShow (s : State) (r cal st : Nat) (ch : Nat × Nat) : State :=
  (((((s.set (F.SENT_CH1 r) ch.1).set (F.SENT_CH1HI r) (ch.1 / 2 ^ 20)).set (F.SENT_CH2 r) ch.2).set (F.SENT_STATUS r) st).set
    (F.SENT_TICK r) (min (10 * cal / 168) 0xFFFFF))

theorem State.sentShow_gives (s : State) (r cal st : Nat) (ch : Nat × Nat) :
    (s.sentShow r cal st ch).get (F.SENT_CH1 r) = ch.1 % 2 ^ 20 ∧ (s.sentShow r cal st ch).get (F.SENT_CH2 r) = ch.2 % 2 ^ 12
      ∧ (s.sentShow r cal st ch).get (F.SENT_STATUS r) = st % 2 ^ 4 ∧ (s.sentShow r cal st ch).get (F.SENT_TICK r) = min (10 * cal / 168) 0xFFFFF
      ∧ (s.sentShow r cal st ch).get (F.SENT_ERR.COUNT r) = s.get (F.SENT_ERR.COUNT r) := by
  have hne {j k lo len lo' len' v : Nat} {u : State} (h : j ≠ k) := State.get_set_sentFld (s := u) (r := r) (lo := lo) (len := len) (lo' := lo') (len' := len') (v := v) h
  refine ⟨?_, ?_, ?_, ?_, ?_⟩
  · exact (hne (k := 7) (j := 2) (by decide)).trans ((hne (k := 5) (j := 2) (by decide)).trans ((hne (k := 4) (j := 2) (by decide)).trans
      ((hne (k := 3) (j := 2) (by decide)).trans (State.get_set_sentFld_self (k := 2) (by decide)))))
  · exact (hne (k := 7) (j := 4) (by decide)).trans ((hne (k := 5) (j := 4) (by decide)).trans
      (State.get_set_sentFld_self (k := 4) (by decide)))
  · exact (hne (k := 7) (j := 5) (by decide)).trans (State.get_set_sentFld_self (k := 5) (by decide))
  · exact (State.get_set_sentFld_self (k := 7) (by decide)).trans (Nat.mod_eq_of_lt (by omega))
  · exact (hne (k := 7) (j := 6) (by decide)).trans ((hne (k := 5) (j := 6) (by decide)).trans ((hne (k := 4) (j := 6) (by decide)).trans
      ((hne (k := 3) (j := 6) (by decide)).trans (hne (k := 2) (j := 6) (by decide)))))

theorem State.sentShow_getSent {cal st : Nat} {ch : Nat × Nat} : (s.sentShow r cal st ch).getSent r = s.getSent r := by
  simp only [State.sentShow, State.getSent, State.set_sent]

/-- An accepted frame: its registers, then deliveries and an interrupt, which change none of them. -/
theorem State.sentTake_shows (hr : r < 8) (p : SentPulses) (v : List Nat) :
    Reach sentTailFoot ((s.updSent r fun x => { x with cal := some p.cal, accT := s.fclk, silent := false }).sentShow r p.cal (v.headD 0)
      (sentChannels (s.get (F.SENT_CFG.FMT r)) (v.drop 1).dropLast)) (s.sentTake r p v) :=
  (((Reach.refl _).then State.qvFeed_reach).then State.qvFeed_reach).then (State.raiseIf_reach (by omega))

/-- What an accepted frame gives. -/
theorem State.sentTake_gives (hr : r < 8) (p : SentPulses) (v : List Nat) :
    (s.sentTake r p v).get (F.SENT_CH1 r) = (sentChannels (s.get (F.SENT_CFG.FMT r)) (v.drop 1).dropLast).1 % 2 ^ 20
      ∧ (s.sentTake r p v).get (F.SENT_CH2 r) = (sentChannels (s.get (F.SENT_CFG.FMT r)) (v.drop 1).dropLast).2 % 2 ^ 12
      ∧ (s.sentTake r p v).get (F.SENT_STATUS r) = v.headD 0 % 2 ^ 4 ∧ (s.sentTake r p v).get (F.SENT_TICK r) = min (10 * p.cal / 168) 0xFFFFF
      ∧ (s.sentTake r p v).get (F.SENT_ERR.COUNT r) = s.get (F.SENT_ERR.COUNT r)
      ∧ (s.sentTake r p v).getSent r = { s.getSent r with cal := some p.cal, accT := s.fclk, silent := false } := by
  have h := State.sentTake_shows (s := s) hr p v
  obtain ⟨h1, h2, h3, h4, h5⟩ := State.sentShow_gives (s.updSent r fun x => { x with cal := some p.cal, accT := s.fclk, silent := false }) r p.cal
    (v.headD 0) (sentChannels (s.get (F.SENT_CFG.FMT r)) (v.drop 1).dropLast)
  exact ⟨(h.get (sentFld_apart (k := 2) hr (by decide))).trans h1, (h.get (sentFld_apart (k := 4) hr (by decide))).trans h2,
    (h.get (sentFld_apart (k := 5) hr (by decide))).trans h3, (h.get (sentFld_apart (k := 7) hr (by decide))).trans h4,
    (h.get (sentFld_apart (k := 6) hr (by decide))).trans (h5.trans (State.get_updSent _)),
    h.getSent.trans (State.sentShow_getSent.trans (State.getSent_updSent hr))⟩

/-! ### Rejections -/

/-- What a rejection leaves. -/
theorem State.sentReject_gives (hr : r < 8) (cause src det : Nat) :
    (s.sentReject r cause src det).get (F.SENT_ERR.LASTC r) = cause % 2 ^ 3
      ∧ (s.sentReject r cause src det).get (F.SENT_ERR.COUNT r) = satAdd (s.get (F.SENT_ERR.COUNT r)) 1 (2 ^ 10 - 1)
      ∧ ((s.sentReject r cause src det).por.pulses.any fun p => p.src = src) = true
      ∧ (∀ {k lo len : Nat}, k < 16 → k ≠ 6 → (s.sentReject r cause src det).get (sentFld k lo len r) = s.get (sentFld k lo len r))
      ∧ (s.sentReject r cause src det).getSent r = { s.getSent r with slow := [] } := by
  obtain ⟨u, hu⟩ : ∃ u, s.set (F.SENT_ERR.LASTC r) cause = u := ⟨_, rfl⟩
  obtain ⟨w, hw⟩ : ∃ w, u.evtInc (F.SENT_ERR.COUNT r) = w := ⟨_, rfl⟩
  obtain ⟨y, hy⟩ : ∃ y, w.updSent r (fun x => { x with slow := [] }) = y := ⟨_, rfl⟩
  have he : s.sentReject r cause src det = (y.raiseIf (y.bit (F.SENT_CFG2.EIRQ r)) (288 + r)).report src det := by
    rw [← hy, ← hw, ← hu]
    rfl
  have h : Reach sentTailFoot y (s.sentReject r cause src det) := by
    rw [he]
    exact ((Reach.refl y).then (State.raiseIf_reach (by omega))).then State.report_reach
  have hyw (f : Fld) : y.get f = w.get f := by
    rw [← hy]
    exact State.get_updSent f
  have hlast : w.get (F.SENT_ERR.LASTC r) = cause % 2 ^ 3 := by
    rw [← hw]
    refine (State.get_evtInc_apart u (F.SENT_ERR.COUNT r) (F.SENT_ERR.LASTC r) (by simp [F.SENT_ERR.COUNT]) fun _ =>
      .inr (by simp [F.SENT_ERR.COUNT, F.SENT_ERR.LASTC])).trans ?_
    rw [← hu]
    exact State.get_set_self s (F.SENT_ERR.LASTC r) (by simp [F.SENT_ERR.LASTC]) cause
  have hcount : w.get (F.SENT_ERR.COUNT r) = satAdd (s.get (F.SENT_ERR.COUNT r)) 1 (2 ^ 10 - 1) := by
    have hc : u.get (F.SENT_ERR.COUNT r) = s.get (F.SENT_ERR.COUNT r) := by
      rw [← hu]
      exact State.get_set_disj s (F.SENT_ERR.LASTC r) (F.SENT_ERR.COUNT r) rfl (by simp [F.SENT_ERR.LASTC])
        (.inl (by simp [F.SENT_ERR.COUNT, F.SENT_ERR.LASTC])) cause
    rw [← hw, ← hc]
    exact State.get_set_satAdd u _ (F.SENT_ERR.COUNT r) (by simp [F.SENT_ERR.COUNT]) 1
  refine ⟨(h.get (sentFld_apart (k := 6) hr (by decide))).trans ((hyw _).trans hlast),
    (h.get (sentFld_apart (k := 6) hr (by decide))).trans ((hyw _).trans hcount), ?_, fun {k lo len} hk h6 => ?_, ?_⟩
  · rw [he]
    exact State.report_pulse _ _ _
  · refine (h.get (sentFld_apart hr hk)).trans ((hyw _).trans ?_)
    rw [← hw]
    refine (State.get_evtInc_addr _ _ _ (by simp only [sentFld, F.SENT_ERR.COUNT, R.SENT_ERR]; omega)).trans ?_
    rw [← hu]
    exact State.get_set_addr _ _ _ (by simp only [sentFld, F.SENT_ERR.LASTC, R.SENT_ERR]; omega) _
  · have hs : w.getSent r = s.getSent r := by
      rw [← hw, ← hu]
      exact congrArg (vget · r SentRx.reset) ((State.evtInc_sent _ _).trans (State.set_sent _ _ _))
    rw [h.getSent, ← hy, State.getSent_updSent hr, hs]

/-! ### Slow messages -/

/-- The registers of a slow message, before its deliveries. -/
def State.slowShow (s : State) (r id data kind : Nat) : State :=
  ((s.set (F.SENT_SMSG r) data).set (F.SENT_SMID.ID r) id).set (F.SENT_SMID.KIND r) kind

theorem State.slowTake_shows (hr : r < 8) {id data kind : Nat} :
    Reach sentTailFoot (s.slowShow r id data kind) (s.slowTake r id data kind) :=
  ((Reach.refl _).each fun s i hi => (Reach.refl s).when fun h =>
    (h.set (Foot.holds_range 0x7CA0 0x7CC0 (by simp only [F.SENT_SLOTV, R.SENT_SLOTV]; have := List.mem_range.1 hi; omega))).then
      State.qvFeed_reach).then (State.raiseIf_reach (by omega))

theorem State.slowTake_gives (hr : r < 8) {id data kind : Nat} :
    (s.slowTake r id data kind).get (F.SENT_SMSG r) = data % 2 ^ 16 ∧ (s.slowTake r id data kind).get (F.SENT_SMID.ID r) = id % 2 ^ 8
      ∧ (s.slowTake r id data kind).get (F.SENT_SMID.KIND r) = kind % 2 ^ 2 ∧ (s.slowTake r id data kind).getSent r = s.getSent r := by
  have h := State.slowTake_shows (s := s) (id := id) (data := data) (kind := kind) hr
  have hid : (s.slowShow r id data kind).get (F.SENT_SMID.ID r) = id % 2 ^ 8 := by
    rw [State.slowShow, State.get_set_disj _ (F.SENT_SMID.KIND r) (F.SENT_SMID.ID r) rfl (by simp [F.SENT_SMID.KIND])
      (.inr (by simp [F.SENT_SMID.ID, F.SENT_SMID.KIND]))]
    exact State.get_set_sentFld_self (k := 9) (by decide)
  have hmsg : (s.slowShow r id data kind).get (F.SENT_SMSG r) = data % 2 ^ 16 := by
    rw [State.slowShow, State.get_set_addr _ _ _ (by simp [F.SENT_SMID.KIND, F.SENT_SMSG, R.SENT_SMID, R.SENT_SMSG]),
      State.get_set_addr _ _ _ (by simp [F.SENT_SMID.ID, F.SENT_SMSG, R.SENT_SMID, R.SENT_SMSG])]
    exact State.get_set_sentFld_self (k := 8) (by decide)
  refine ⟨(h.get (sentFld_apart (k := 8) hr (by decide))).trans hmsg, (h.get (sentFld_apart (k := 9) hr (by decide))).trans hid,
    (h.get (sentFld_apart (k := 9) hr (by decide))).trans ?_, h.getSent⟩
  exact State.get_set_self _ _ (by simp [F.SENT_SMID.KIND]) _

/-! ### Frames -/

theorem exec_sentFrameEnd {r : Fin 8} {p : SentPulses} (hup : s.sentUp r = true) : exec (.sentFrameEnd r p) s = .next (s.sentFrame r p) :=
  congrArg Host.Outcome.next (if_pos hup)

/-- A frame that passes, and completes no slow message. -/
theorem State.sentFrame_taken {p : SentPulses} {v l : List Nat} (hc : s.sentCheck r p = 0)
    (hv : v = p.nibs.map fun n => (nibValue p.cal n).toNat) (hn : slowNext (s.get (F.SENT_CFG2.SLOW r)) (s.getSent r).slow (v.headD 0) = (l, false)) :
    s.sentFrame r p = (s.updSent r fun x => { x with slow := l }).sentTake r p v := by
  subst hv
  unfold State.sentFrame
  dsimp only
  rw [hn]
  exact (if_neg (by rw [hc]; exact fun h => h rfl)).trans (if_neg Bool.false_ne_true)

/-- A frame that passes and completes a slow message. -/
theorem State.sentFrame_slow {p : SentPulses} {v l : List Nat} {id d k : Nat} {ok : Bool} (hc : s.sentCheck r p = 0)
    (hv : v = p.nibs.map fun n => (nibValue p.cal n).toNat) (hn : slowNext (s.get (F.SENT_CFG2.SLOW r)) (s.getSent r).slow (v.headD 0) = (l, true))
    (hp : slowParse (s.bit (F.SENT_CFG.LEGACY r)) l = (id, d, k, ok)) :
    s.sentFrame r p = if ok then ((s.updSent r fun x => { x with slow := [] }).sentTake r p v).slowTake r id d k
      else s.sentReject r 6 94 r := by
  subst hv
  unfold State.sentFrame
  dsimp only
  rw [hn]
  refine (if_neg (by rw [hc]; exact fun h => h rfl)).trans ((if_pos rfl).trans ?_)
  dsimp only
  rw [hp]

theorem sentFrameEnd_takes {r : Fin 8} {p : SentPulses} {v l : List Nat} (hup : s.sentUp r = true) (hc : s.sentCheck r p = 0)
    (hv : v = p.nibs.map fun n => (nibValue p.cal n).toNat) (hn : slowNext (s.get (F.SENT_CFG2.SLOW r)) (s.getSent r).slow (v.headD 0) = (l, false)) :
    GoesTo (exec (.sentFrameEnd r p) s) fun t =>
      t.get (F.SENT_CH1 r) = (sentChannels (s.get (F.SENT_CFG.FMT r)) (v.drop 1).dropLast).1 % 2 ^ 20
      ∧ t.get (F.SENT_CH2 r) = (sentChannels (s.get (F.SENT_CFG.FMT r)) (v.drop 1).dropLast).2 % 2 ^ (F.SENT_CH2 r).len
      ∧ t.get (F.SENT_STATUS r) = v.headD 0 % 2 ^ (F.SENT_STATUS r).len ∧ t.get (F.SENT_TICK r) = min (10 * p.cal / 168) 0xFFFFF
      ∧ (t.getSent r).accT = s.fclk ∧ (t.getSent r).cal = some p.cal ∧ (t.getSent r).slow = l
      ∧ t.get (F.SENT_ERR.COUNT r) = s.get (F.SENT_ERR.COUNT r) := by
  obtain ⟨h1, h2, h3, h4, h5, h6⟩ := State.sentTake_gives (s := s.updSent r fun x => { x with slow := l }) r.isLt p v
  rw [State.getSent_updSent r.isLt] at h6
  refine ⟨_, (exec_sentFrameEnd hup).trans (congrArg Host.Outcome.next (State.sentFrame_taken hc hv hn)), h1, h2, h3, h4,
    congrArg SentRx.accT h6, congrArg SentRx.cal h6, congrArg SentRx.slow h6, h5⟩

theorem sentFrameEnd_rejects {r : Fin 8} {p : SentPulses} {k : Fin 8} (hup : s.sentUp r = true) (hc : s.sentCheck r p = k.val)
    (hk : k.val ≠ 0) :
    GoesTo (exec (.sentFrameEnd r p) s) fun t =>
      t.get (F.SENT_ERR.LASTC r) = k ∧ t.get (F.SENT_ERR.COUNT r) = satAdd (s.get (F.SENT_ERR.COUNT r)) 1 (2 ^ (F.SENT_ERR.COUNT r).len - 1)
      ∧ (t.por.pulses.any fun p => p.src = 93) = true ∧ t.get (F.SENT_CH1 r) = s.get (F.SENT_CH1 r)
      ∧ (t.getSent r).accT = (s.getSent r).accT ∧ (t.getSent r).slow = [] := by
  obtain ⟨h1, h2, h3, h4, h5⟩ := State.sentReject_gives (s := s) r.isLt k.val 93 (8 * r + k.val)
  have he : s.sentFrame r p = s.sentReject r k.val 93 (8 * r + k.val) := by
    unfold State.sentFrame
    dsimp only
    rw [hc]
    exact if_pos hk
  refine ⟨_, (exec_sentFrameEnd hup).trans (congrArg Host.Outcome.next he), h1.trans (Nat.mod_eq_of_lt k.isLt), h2, h3,
    h4 (k := 2) (by decide) (by decide), ?_, ?_⟩ <;> rw [h5]

theorem sentFrameEnd_slow {r : Fin 8} {p : SentPulses} {v l : List Nat} {id : Fin 256} {d : Nat} {k : Fin 4} (hup : s.sentUp r = true)
    (hc : s.sentCheck r p = 0) (hv : v = p.nibs.map fun n => (nibValue p.cal n).toNat)
    (hn : slowNext (s.get (F.SENT_CFG2.SLOW r)) (s.getSent r).slow (v.headD 0) = (l, true))
    (hp : slowParse (s.bit (F.SENT_CFG.LEGACY r)) l = (id.val, d, k.val, true)) :
    GoesTo (exec (.sentFrameEnd r p) s) fun t =>
      t.get (F.SENT_SMSG r) = d % 2 ^ (F.SENT_SMSG r).len ∧ t.get (F.SENT_SMID.ID r) = id ∧ t.get (F.SENT_SMID.KIND r) = k
      ∧ (t.getSent r).slow = [] ∧ (t.getSent r).accT = s.fclk := by
  obtain ⟨-, -, -, -, -, h6⟩ := State.sentTake_gives (s := s.updSent r fun x => { x with slow := [] }) r.isLt p v
  rw [State.getSent_updSent r.isLt] at h6
  obtain ⟨h1, h2, h3, h4⟩ := State.slowTake_gives (s := (s.updSent r fun x => { x with slow := [] }).sentTake r p v) (id := id) (data := d)
    (kind := k) r.isLt
  exact ⟨_, (exec_sentFrameEnd hup).trans (congrArg Host.Outcome.next ((State.sentFrame_slow hc hv hn hp).trans (if_pos rfl))), h1,
    h2.trans (Nat.mod_eq_of_lt id.isLt), h3.trans (Nat.mod_eq_of_lt k.isLt), congrArg SentRx.slow (h4.trans h6),
    congrArg SentRx.accT (h4.trans h6)⟩

theorem sentFrameEnd_slow_rejects {r : Fin 8} {p : SentPulses} {v l : List Nat} {id d k : Nat} (hup : s.sentUp r = true)
    (hc : s.sentCheck r p = 0) (hv : v = p.nibs.map fun n => (nibValue p.cal n).toNat)
    (hn : slowNext (s.get (F.SENT_CFG2.SLOW r)) (s.getSent r).slow (v.headD 0) = (l, true))
    (hp : slowParse (s.bit (F.SENT_CFG.LEGACY r)) l = (id, d, k, false)) :
    GoesTo (exec (.sentFrameEnd r p) s) fun t =>
      t.get (F.SENT_ERR.LASTC r) = 6 ∧ t.get (F.SENT_ERR.COUNT r) = satAdd (s.get (F.SENT_ERR.COUNT r)) 1 (2 ^ (F.SENT_ERR.COUNT r).len - 1)
      ∧ (t.por.pulses.any fun p => p.src = 94) = true ∧ t.get (F.SENT_SMSG r) = s.get (F.SENT_SMSG r) ∧ (t.getSent r).slow = [] := by
  obtain ⟨h1, h2, h3, h4, h5⟩ := State.sentReject_gives (s := s) r.isLt 6 94 r
  have he : s.sentFrame r p = s.sentReject r 6 94 r := (State.sentFrame_slow hc hv hn hp).trans (if_neg (by decide))
  refine ⟨_, (exec_sentFrameEnd hup).trans (congrArg Host.Outcome.next he), h1, h2, h3, h4 (k := 8) (by decide) (by decide), ?_⟩
  rw [h5]

theorem sentSilence_reports {r : Fin 8} (hup : s.sentUp r = true) (hn : s.get (F.SENT_CFG2.SILTO r) ≠ 0) (hs : (s.getSent r).silent = false)
    (ht : (s.getSent r).accT + 400000 * s.get (F.SENT_CFG2.SILTO r) ≤ s.fclk) (hc : s.comes (s.sentComes r) = false) :
    GoesTo (exec (.sentSilence r) s) fun t =>
      t.get (F.SENT_ERR.LASTC r) = 7 ∧ t.get (F.SENT_ERR.COUNT r) = satAdd (s.get (F.SENT_ERR.COUNT r)) 1 (2 ^ (F.SENT_ERR.COUNT r).len - 1)
      ∧ (t.por.pulses.any fun p => p.src = 95) = true ∧ (t.getSent r).silent = true ∧ t.get (F.SENT_CH1 r) = s.get (F.SENT_CH1 r) := by
  obtain ⟨h1, h2, h3, h4, h5⟩ := State.sentReject_gives (s := s.updSent r fun x => { x with silent := true }) r.isLt 7 95 r
  rw [State.getSent_updSent r.isLt] at h5
  refine ⟨_, congrArg Host.Outcome.next (if_pos ?_), h1, h2, h3, congrArg SentRx.silent h5, h4 (k := 2) (by decide) (by decide)⟩
  rw [hup, decide_eq_true hn, hs, decide_eq_true ht, hc]
  rfl

/-- Settles O38: frames taken and rejected, slow messages, and silence, each by what its operation gives. -/
theorem sentFramesAreCheckedAndTaken : Obligations.SentFramesAreCheckedAndTaken := by
  unfold Obligations.SentFramesAreCheckedAndTaken
  exact ⟨fun s r p v l => sentFrameEnd_takes, fun s r p k => sentFrameEnd_rejects, fun s r p v l id d k => sentFrameEnd_slow,
    fun s r p v l id d k => sentFrameEnd_slow_rejects, fun s r => sentSilence_reports⟩

end Sys2Proof.Machine
end

section
/-! SUPPORT. CAN: message objects, requests and the error state, and O37. -/

set_option Elab.async false

namespace Sys2Proof.Machine

variable {G : Foot} {s t : State} {x o q : Nat}

/-! ### Objects -/

theorem State.getCan_updCan (hx : x < 2) {f : Can → Can} : (s.updCan x f).getCan x = f (s.getCan x) :=
  vget_vupd_self s.can hx f _

theorem State.get_updCan {f : Can → Can} (g : Fld) : (s.updCan x f).get g = s.get g := rfl

theorem getCan_of_can (h : t.can = s.can) : t.getCan x = s.getCan x := congrArg (vget · x Can.reset) h

theorem canObj_of_objs (h : (t.getCan x).objs = (s.getCan x).objs) : t.canObj x o = s.canObj x o :=
  congrArg (·.getD o CanObj.reset) h

theorem canObj_of_can (h : t.can = s.can) : t.canObj x o = s.canObj x o := canObj_of_objs (congrArg Can.objs (getCan_of_can h))

/-- An object after an update of it. -/
theorem State.canObj_updObj (hx : x < 2) (ho : o < (s.getCan x).objs.length) {f : CanObj → CanObj} :
    (s.updObj x o f).canObj x o = f (s.canObj x o) := by
  unfold State.canObj State.updObj
  rw [State.getCan_updCan hx]
  simp [ho]

/-- Another object. -/
theorem State.canObj_updObj_ne (hx : x < 2) (hq : q ≠ o) {f : CanObj → CanObj} : (s.updObj x o f).canObj x q = s.canObj x q := by
  unfold State.canObj State.updObj
  rw [State.getCan_updCan hx]
  simp [List.getElem?_set_ne hq.symm]

/-- An object that is valid is one of the controller's. -/
theorem State.canObj_lt (h : (s.canObj x o).valid = true) : o < (s.getCan x).objs.length := by
  by_contra hn
  have hr : s.canObj x o = CanObj.reset := List.getD_eq_default _ _ (by omega)
  rw [hr] at h
  revert h
  decide

/-- The object that a frame goes to is valid. -/
theorem State.canMatch_valid {f : CanFrame} (h : s.canMatch x f = some o) : (s.canObj x o).valid = true := by
  have hp := List.find?_some h
  simp only [Bool.and_eq_true] at hp
  exact hp.1.1.1

/-- The object that a frame goes to depends on the objects alone. -/
theorem State.canMatch_of_objs (h : (t.getCan x).objs = (s.getCan x).objs) (f : CanFrame) : t.canMatch x f = s.canMatch x f := by
  have ho (o : Nat) : t.canObj x o = s.canObj x o := canObj_of_objs h
  unfold State.canMatch
  simp only [ho]

/-! ### Pending requests -/

theorem State.canPend_canPendSet {b : Bool} : (s.canPendSet x o b).canPend x o = b :=
  State.bitOf_setBitAt _ _ b (by simp [F.CAN_TXRQ]) (Nat.mod_lt _ (by decide))

theorem State.canPend_canPendSet_ne {b : Bool} (hq : q ≠ o) : (s.canPendSet x o b).canPend x q = s.canPend x q := by
  unfold State.canPend State.canPendSet
  by_cases h : q / 16 = o / 16
  · rw [h]
    exact State.bitOf_setBitAt_ne _ _ b (by simp [F.CAN_TXRQ]) (Nat.mod_lt _ (by decide)) (by omega)
  · rw [State.get_setBitAt_apart _ _ _ _ _ (by simp [F.CAN_TXRQ]) fun e => absurd e (by simp [F.CAN_TXRQ, R.CAN_TXRQ]; omega)]

theorem State.can_canPendSet {b : Bool} : (s.canPendSet x o b).can = s.can := State.setBitAt_can _ _ _ _

theorem canPend_of_regs (h : t.regs = s.regs) : t.canPend x o = s.canPend x o :=
  congrArg (bitOf · (o % 16)) (State.get_of_regs h _)

theorem Reach.canPend (h : Reach G s t) (hG : G.holds (R.CAN_TXRQ x (o / 16)) = false) : t.canPend x o = s.canPend x o :=
  congrArg (bitOf · (o % 16)) (h.get hG)

theorem txrq_apart (hx : x < 2) (ho : o < 32) : showFoot.holds (R.CAN_TXRQ x (o / 16)) = false :=
  Foot.holds_false_iff.2 (by simp [R.CAN_TXRQ]; omega)

/-! ### The error state -/

/-- A field of controller `x`. -/
def canFld (k lo len x : Nat) : Fld := ⟨0x7800 + 0x200 * x + k, lo, len⟩

theorem State.get_set_canFld {i j lo len lo' len' v : Nat} (h : j ≠ i) :
    (s.set (canFld i lo len x) v).get (canFld j lo' len' x) = s.get (canFld j lo' len' x) :=
  State.get_set_addr _ _ _ (by simp only [canFld]; omega) _

/-- The three fields that show the error state. -/
def State.canShown (s : State) (x st tec rec : Nat) : State :=
  ((s.set (F.CAN_STAT.STATE x) st).set (F.CAN_ERRCNT.TEC x) tec).set (F.CAN_ERRCNT.REC x) rec

theorem State.canShown_gives (s : State) (x st tec rec : Nat) :
    (s.canShown x st tec rec).get (F.CAN_STAT.STATE x) = st % 2 ^ 2 ∧ (s.canShown x st tec rec).get (F.CAN_ERRCNT.TEC x) = tec % 2 ^ 8
      ∧ (s.canShown x st tec rec).get (F.CAN_ERRCNT.REC x) = rec % 2 ^ 7
      ∧ (s.canShown x st tec rec).get (F.CAN_ERRCNT.LEC x) = s.get (F.CAN_ERRCNT.LEC x) := by
  obtain ⟨a, ha⟩ : ∃ a, s.set (F.CAN_STAT.STATE x) st = a := ⟨_, rfl⟩
  obtain ⟨b, hb⟩ : ∃ b, a.set (F.CAN_ERRCNT.TEC x) tec = b := ⟨_, rfl⟩
  have he : s.canShown x st tec rec = b.set (F.CAN_ERRCNT.REC x) rec := by rw [← hb, ← ha]; rfl
  rw [he]
  refine ⟨?_, ?_, State.get_set_self _ _ (by simp [F.CAN_ERRCNT.REC]) _, ?_⟩
  · refine (State.get_set_canFld (s := b) (i := 5) (j := 4) (by decide)).trans ?_
    rw [← hb]
    refine (State.get_set_canFld (s := a) (i := 5) (j := 4) (by decide)).trans ?_
    rw [← ha]
    exact State.get_set_self _ _ (by simp [F.CAN_STAT.STATE]) _
  · refine (State.get_set_disj b (F.CAN_ERRCNT.REC x) (F.CAN_ERRCNT.TEC x) rfl (by simp [F.CAN_ERRCNT.REC])
      (.inr (by simp [F.CAN_ERRCNT.TEC, F.CAN_ERRCNT.REC])) rec).trans ?_
    rw [← hb]
    exact State.get_set_self _ _ (by simp [F.CAN_ERRCNT.TEC]) _
  · refine (State.get_set_disj b (F.CAN_ERRCNT.REC x) (F.CAN_ERRCNT.LEC x) rfl (by simp [F.CAN_ERRCNT.REC])
      (.inl (by simp [F.CAN_ERRCNT.LEC, F.CAN_ERRCNT.REC])) rec).trans ?_
    rw [← hb]
    refine (State.get_set_disj a (F.CAN_ERRCNT.TEC x) (F.CAN_ERRCNT.LEC x) rfl (by simp [F.CAN_ERRCNT.TEC])
      (.inl (by simp [F.CAN_ERRCNT.LEC, F.CAN_ERRCNT.TEC])) tec).trans ?_
    rw [← ha]
    exact State.get_set_canFld (i := 4) (j := 5) (by decide)

/-- What showing the error state does beside the three fields. -/
theorem State.canShow_shows (hx : x < 2) :
    Reach raiseFoot (s.canShown x (s.canState x) (min (s.getCan x).tec 255) (min (s.getCan x).rec_ 127)) (s.canShow x) := by
  unfold State.canShow
  dsimp only
  exact (((Reach.refl _).then (State.raiseIf_reach (by omega))).when (·.then State.report_reach)).when (·.then State.report_reach)

/-- The status that a controller shows. -/
theorem State.canShow_gives (hx : x < 2) :
    (s.canShow x).get (F.CAN_STAT.STATE x) = s.canState x ∧ (s.canShow x).get (F.CAN_ERRCNT.TEC x) = min (s.getCan x).tec 255
      ∧ (s.canShow x).get (F.CAN_ERRCNT.REC x) = min (s.getCan x).rec_ 127
      ∧ (s.canShow x).get (F.CAN_ERRCNT.LEC x) = s.get (F.CAN_ERRCNT.LEC x) := by
  obtain ⟨h1, h2, h3, h4⟩ := s.canShown_gives x (s.canState x) (min (s.getCan x).tec 255) (min (s.getCan x).rec_ 127)
  have h := State.canShow_shows (s := s) hx
  have ha (k lo len : Nat) (hk : k < 6) : raiseFoot.holds (canFld k lo len x).addr = false :=
    Foot.holds_false_iff.2 (by simp [canFld]; omega)
  have hst : s.canState x < 4 := by
    unfold State.canState
    dsimp only
    split_ifs <;> omega
  exact ⟨(h.get (ha 4 _ _ (by decide))).trans (h1.trans (Nat.mod_eq_of_lt hst)),
    (h.get (ha 5 _ _ (by decide))).trans (h2.trans (Nat.mod_eq_of_lt (by omega))),
    (h.get (ha 5 _ _ (by decide))).trans (h3.trans (Nat.mod_eq_of_lt (by omega))), (h.get (ha 5 _ _ (by decide))).trans h4⟩

/-! ### Frames received -/

theorem State.objs_canRxOk (hx : x < 2) : ((s.canRxOk x).getCan x).objs = (s.getCan x).objs := by
  unfold State.canRxOk
  split
  · refine (congrArg Can.objs (getCan_of_can ((State.canShow_reach hx).can))).trans ?_
    rw [State.getCan_updCan hx]
    rfl
  · refine (congrArg Can.objs (getCan_of_can ((State.canShow_reach hx).can))).trans ?_
    rw [State.getCan_updCan hx]

theorem State.tb_canRxOk (hx : x < 2) : (s.canRxOk x).tb = s.tb := (State.canRxOk_reach hx).tb

/-- What a stored frame's interrupt and signals reach. -/
abbrev storeTailFoot : Foot := ⟨[.regs, .por, .marks], [(0x3400, 0x3480), (0x6417, 0x6418), (0x6500, 0x6640)]⟩

/-- A frame stored. -/
theorem State.canStore_gives (hx : x < 2) (ho : o < 32) (hl : o < (s.getCan x).objs.length) (f : CanFrame) :
    (s.canStore x o f).canObj x o
        = { s.canObj x o with
            stat := f.dlc.toNat + 16 * b2n f.fdf + 32 * b2n f.brs + 64 * b2n f.esi, ots := s.tb.toNat % 2 ^ 20
            data := (f.data ++ List.replicate 64 0).take (dlcBytes f.fdf f.dlc.toNat) ++ (s.canObj x o).data.drop (dlcBytes f.fdf f.dlc.toNat) }
      ∧ bitOf ((s.canStore x o f).get (F.CAN_NEW x (o / 16))) (o % 16) = true
      ∧ ∀ q, q ≠ o → (s.canStore x o f).canObj x q = s.canObj x q := by
  unfold State.canStore
  dsimp only
  generalize bitOf (s.get (F.CAN_NEW x (o / 16))) (o % 16) = old
  generalize hu : s.updObj x o _ = u
  generalize hv : u.evtAt (F.CAN_NEW x (o / 16)) (o % 16) = v
  generalize hw : (if old then (v.evtAt (F.CAN_LOST x (o / 16)) (o % 16)).report 92 (32 * x + o) else v) = w
  obtain ⟨y, hy⟩ : ∃ y, (w.raiseIf (w.canObj x o).rxIrq (284 + 2 * x)).canSignals x o (dlcBytes f.fdf f.dlc.toNat) = y := ⟨_, rfl⟩
  have hr : Reach storeTailFoot w y := by
    rw [← hy]
    exact ((Reach.refl w).then (State.raiseIf_reach (by omega))).then State.canSignals_reach
  have hwv : w.can = v.can ∧ w.get (F.CAN_NEW x (o / 16)) = v.get (F.CAN_NEW x (o / 16)) := by
    rw [← hw]
    split
    · refine ⟨(State.report_can _ _ _).trans (State.evtAt_can _ _ _), (State.get_of_regs (State.report_regs _ _ _) _).trans ?_⟩
      exact congrArg (fldGet _) (State.reg_evtAt _ _ _ _ (by simp [F.CAN_NEW, F.CAN_LOST, R.CAN_NEW, R.CAN_LOST]))
    · exact ⟨rfl, rfl⟩
  have hcan : y.can = u.can := by
    rw [hr.can, hwv.1, ← hv]
    exact State.evtAt_can _ _ _
  rw [hy]
  refine ⟨(canObj_of_can hcan).trans ?_, ?_, fun q hq => (canObj_of_can hcan).trans ?_⟩
  · rw [← hu, State.canObj_updObj hx hl]
  · rw [hr.get (Foot.holds_false_iff.2 (by simp [F.CAN_NEW, R.CAN_NEW]; omega)), hwv.2, ← hv]
    exact State.bitOf_evtAt _ _ (by simp [F.CAN_NEW]) (Nat.mod_lt _ (by decide))
  · rw [← hu]
    exact State.canObj_updObj_ne hx hq

theorem exec_canFrameReceive {x : Fin 2} {f : CanFrame} (hu : s.canLive x = true) (hf : f.fdf = false ∨ s.bit (F.CAN_CFG.FDEN x) = true) :
    exec (.canFrameReceive x f) s = .next ((s.canRxOk x).canTake x f) :=
  congrArg Host.Outcome.next (if_pos (by rw [hu]; rcases hf with h | h <;> simp [h]))

theorem canFrameReceive_stores {x : Fin 2} {o : Fin 32} {f : CanFrame} (hu : s.canLive x = true)
    (hf : f.fdf = false ∨ s.bit (F.CAN_CFG.FDEN x) = true) (hrtr : f.rtr = false) (hm : s.canMatch x f = some o.val) :
    GoesTo (exec (.canFrameReceive x f) s) fun t =>
      (t.canObj x o).data = (f.data ++ List.replicate 64 0).take (dlcBytes f.fdf f.dlc.toNat)
          ++ (s.canObj x o).data.drop (dlcBytes f.fdf f.dlc.toNat)
      ∧ (t.canObj x o).stat = f.dlc.toNat + 16 * b2n f.fdf + 32 * b2n f.brs + 64 * b2n f.esi ∧ (t.canObj x o).ots = s.tb.toNat % 2 ^ 20
      ∧ bitOf (t.get (F.CAN_NEW x (o / 16))) (o % 16) = true ∧ ∀ q, q ≠ o.val → t.canObj x q = s.canObj x q := by
  have hobjs := State.objs_canRxOk (s := s) x.isLt
  have hm' : (s.canRxOk x).canMatch x f = some o.val := (State.canMatch_of_objs hobjs f).trans hm
  have ht : (s.canRxOk x).canTake x f = (s.canRxOk x).canStore x o f := by
    unfold State.canTake
    rw [hm']
    exact if_neg (by rw [hrtr]; decide)
  obtain ⟨h1, h2, h3⟩ := State.canStore_gives (s := s.canRxOk x) x.isLt o.isLt (State.canObj_lt (State.canMatch_valid hm')) f
  have ho (q : Nat) : (s.canRxOk x).canObj x q = s.canObj x q := canObj_of_objs hobjs
  rw [ho, State.tb_canRxOk x.isLt] at h1
  exact ⟨_, (exec_canFrameReceive hu hf).trans (congrArg Host.Outcome.next ht), congrArg CanObj.data h1, congrArg CanObj.stat h1,
    congrArg CanObj.ots h1, h2, fun q hq => (h3 q hq).trans (ho q)⟩

theorem canFrameReceive_discards {x : Fin 2} {f : CanFrame} (hd : f.rtr = true ∨ s.canMatch x f = none) :
    GoesTo (exec (.canFrameReceive x f) s) fun t => ∀ q, t.canObj x q = s.canObj x q := by
  have hobjs := State.objs_canRxOk (s := s) x.isLt
  have ht : (s.canRxOk x).canTake x f = s.canRxOk x := by
    unfold State.canTake
    rcases hd with h | h
    · exact if_pos h
    · rw [State.canMatch_of_objs hobjs, h]
      exact ite_self _
  refine ⟨_, rfl, fun q => ?_⟩
  split
  · rw [ht]
    exact canObj_of_objs hobjs
  · rfl

/-! ### Frames sent -/

theorem canFrameSent_ends {x : Fin 2} {o : Fin 32} (hs : s.canSends x = true) (hb : s.canOnBus x = some o.val)
    (hl : s.bit (F.CAN_CFG.LBACK x) = false) :
    GoesTo (exec (.canFrameSent x) s) fun t =>
      t.canPend x o = false ∧ (t.getCan x).tec = (s.getCan x).tec - 1 ∧ (t.getCan x).bus = none
        ∧ (t.getCan x).objs = (s.getCan x).objs := by
  obtain ⟨u, hu⟩ : ∃ u, s.canPendSet x o false = u := ⟨_, rfl⟩
  obtain ⟨w, hw⟩ : ∃ w, u.updCan x (fun k => { k with bus := none, tec := k.tec - 1 }) = w := ⟨_, rfl⟩
  obtain ⟨y, hy⟩ : ∃ y, (w.raiseIf (s.canObj x o).txIrq (285 + 2 * x)).canShow x = y := ⟨_, rfl⟩
  have hr : Reach showFoot w y := by
    rw [← hy]
    exact ((Reach.refl w).then (State.raiseIf_reach (by omega))).trans (State.canShow_reach x.isLt)
  have hlw : w.bit (F.CAN_CFG.LBACK x) = s.bit (F.CAN_CFG.LBACK x) := by
    rw [← hw, ← hu]
    refine State.bit_eq_of_get ((State.get_updCan _).trans (State.get_setBitAt_apart _ _ _ _ _ (by simp [F.CAN_TXRQ]) fun e => absurd e ?_))
    simp [F.CAN_CFG.LBACK, F.CAN_TXRQ, R.CAN_CFG, R.CAN_TXRQ]
    omega
  have hyl : y.bit (F.CAN_CFG.LBACK x) = false :=
    (hr.bit (Foot.holds_false_iff.2 (by simp [F.CAN_CFG.LBACK, R.CAN_CFG]; omega))).trans (hlw.trans hl)
  have he : s.canSent x o = y := by
    unfold State.canSent
    dsimp only
    rw [hu, hw, hy]
    exact if_neg (by rw [hyl]; decide)
  have hg : y.getCan x = { s.getCan x with bus := none, tec := (s.getCan x).tec - 1 } := by
    rw [getCan_of_can hr.can, ← hw, State.getCan_updCan x.isLt, ← hu, getCan_of_can State.can_canPendSet]
  have hp : y.canPend x o = false := by
    rw [hr.canPend (txrq_apart x.isLt o.isLt), ← hw]
    refine (canPend_of_regs (s := u) rfl).trans ?_
    rw [← hu]
    exact State.canPend_canPendSet
  refine ⟨y, congrArg Host.Outcome.next ((if_pos hs).trans ?_), hp, by rw [hg], by rw [hg], by rw [hg]⟩
  rw [hb]
  exact he

/-! ### Requests -/

/-- A loop whose step for `a` brings about what the others keep. -/
theorem State.each_settles {α : Type} {f : State → α → State} {I P : State → Prop} {a : α} (hI : ∀ s b, I s → I (f s b))
    (hset : ∀ s, I s → P (f s a)) (hkeep : ∀ s b, P s → P (f s b)) {l : List α} (ha : a ∈ l) {s : State} (hs : I s) : P (s.each l f) := by
  induction l generalizing s with
  | nil => cases ha
  | cons b l ih =>
    rcases List.mem_cons.1 ha with rfl | ha
    · exact State.each_keeps P f hkeep l _ (hset s hs)
    · exact ih ha (hI s b hs)

theorem exec_canTxRequest {x : Fin 2} {m : BitVec 32} (hu : s.canUp x = true) : exec (.canTxRequest x m) s = .next (s.canRequest x m.toNat) :=
  congrArg Host.Outcome.next (if_pos hu)

/-- A step of a request. -/
theorem State.can_requestStep {v b : Nat} :
    (if bitOf v b && (s.canObj x b).valid && (s.canObj x b).tx then s.canPendSet x b true else s).can = s.can := by
  split
  · exact State.can_canPendSet
  · rfl

theorem State.can_canRequest {v : Nat} : (s.canRequest x v).can = s.can :=
  State.each_keeps (fun t => t.can = s.can) _ (fun _ _ h => State.can_requestStep.trans h) _ s rfl

theorem canTxRequest_sets {x : Fin 2} {o : Fin 32} {m : BitVec 32} (hu : s.canUp x = true) (hm : bitOf m.toNat o = true)
    (hv : (s.canObj x o).valid = true) (ht : (s.canObj x o).tx = true) :
    GoesTo (exec (.canTxRequest x m) s) fun t => t.canPend x o = true ∧ t.can = s.can := by
  refine ⟨_, exec_canTxRequest hu, ?_, State.can_canRequest⟩
  refine State.each_settles (I := fun t => t.can = s.can) (P := fun t => t.canPend x o = true) (a := o.val)
    (fun t b h => State.can_requestStep.trans h) (fun t h => ?_) (fun t b h => ?_) (List.mem_range.2 o.isLt) rfl
  · rw [if_pos (by rw [canObj_of_can h, hm, hv, ht]; rfl)]
    exact State.canPend_canPendSet
  · split
    · by_cases hb : o.val = b
      · rw [← hb]
        exact State.canPend_canPendSet
      · exact (State.canPend_canPendSet_ne hb).trans h
    · exact h

theorem canTxRequest_keeps {x : Fin 2} {o : Fin 32} {m : BitVec 32} (hu : s.canUp x = true)
    (hv : (s.canObj x o).valid = false ∨ (s.canObj x o).tx = false) :
    GoesTo (exec (.canTxRequest x m) s) fun t => t.canPend x o = s.canPend x o ∧ t.can = s.can := by
  refine ⟨_, exec_canTxRequest hu, ?_⟩
  refine State.each_keeps (fun t => t.canPend x o = s.canPend x o ∧ t.can = s.can) _ (fun t b ⟨hp, hc⟩ =>
    ⟨?_, State.can_requestStep.trans hc⟩) _ s ⟨rfl, rfl⟩
  split
  · next h =>
    have hb : o.val ≠ b := by
      rintro rfl
      rw [canObj_of_can hc] at h
      rcases hv with hv | hv <;> simp [hv] at h
    exact (State.canPend_canPendSet_ne hb).trans hp
  · exact hp

/-- A step of a withdrawal. -/
def State.abortStep (s : State) (x v : Nat) (b : Option Nat) (o : Nat) : State :=
  if bitOf v o && s.canPend x o then
    if b = some o then s.updCan x fun k => { k with bus := some o } else s.canPendSet x o false
  else s

theorem exec_canTxAbort {x : Fin 2} {m : BitVec 32} {b : Option (Fin 32)} (hu : s.canUp x = true) :
    exec (.canTxAbort x m b) s = .next (s.each (List.range 32) fun s o => s.abortStep x m.toNat (b.map (·.val)) o) :=
  congrArg Host.Outcome.next (if_pos hu)

theorem State.objs_abortStep (hx : x < 2) {v : Nat} {b : Option Nat} :
    ((s.abortStep x v b o).getCan x).objs = (s.getCan x).objs := by
  unfold State.abortStep
  split_ifs
  · rw [State.getCan_updCan hx]
  · exact congrArg Can.objs (getCan_of_can State.can_canPendSet)
  · rfl

/-- A step of a withdrawal leaves the requests of the others. -/
theorem State.canPend_abortStep_ne {v : Nat} {b : Option Nat} (hq : q ≠ o) : (s.abortStep x v b o).canPend x q = s.canPend x q := by
  unfold State.abortStep
  split_ifs
  · exact canPend_of_regs rfl
  · exact State.canPend_canPendSet_ne hq
  · rfl

/-- The request withdrawn is no longer pending, but where its frame is on the bus. -/
theorem State.canPend_abortStep {v : Nat} {b : Option Nat} (hv : bitOf v o = true) (hb : b ≠ some o) :
    (s.abortStep x v b o).canPend x o = false := by
  unfold State.abortStep
  by_cases hp : s.canPend x o = true
  · rw [if_pos (by rw [hv, hp]; rfl), if_neg hb]
    exact State.canPend_canPendSet
  · rw [if_neg (by simp [hp])]
    exact Bool.eq_false_iff.2 hp

theorem State.abortStep_onBus {v : Nat} (hv : bitOf v o = true) (hp : s.canPend x o = true) :
    s.abortStep x v (some o) o = s.updCan x fun k => { k with bus := some o } :=
  (if_pos (by rw [hv, hp]; rfl)).trans (if_pos rfl)

theorem State.can_abortStep_ne {v : Nat} (hq : q ≠ o) : (s.abortStep x v (some q) o).can = s.can := by
  unfold State.abortStep
  rw [if_neg fun h => hq (Option.some.inj h)]
  split
  · exact State.can_canPendSet
  · rfl

theorem canTxAbort_clears {x : Fin 2} {o : Fin 32} {m : BitVec 32} {b : Option (Fin 32)} (hu : s.canUp x = true)
    (hm : bitOf m.toNat o = true) (hb : b ≠ some o) :
    GoesTo (exec (.canTxAbort x m b) s) fun t => t.canPend x o = false ∧ (t.getCan x).objs = (s.getCan x).objs := by
  have hb' : b.map (·.val) ≠ some o.val := by
    cases b with
    | none => exact nofun
    | some c => exact fun h => hb (congrArg some (Fin.ext (Option.some.inj h)))
  refine ⟨_, exec_canTxAbort hu, ?_, ?_⟩
  · refine State.each_settles (I := fun _ => True) (P := fun t => t.canPend x o = false) (a := o.val) (fun _ _ _ => trivial)
      (fun t _ => State.canPend_abortStep hm hb') (fun t c h => ?_) (List.mem_range.2 o.isLt) trivial
    by_cases hc : o.val = c
    · exact hc ▸ State.canPend_abortStep hm hb'
    · exact (State.canPend_abortStep_ne hc).trans h
  · exact State.each_keeps (fun t => (t.getCan x).objs = (s.getCan x).objs) _ (fun t c h => (State.objs_abortStep x.isLt).trans h) _ s rfl

theorem canTxAbort_waits {x : Fin 2} {o : Fin 32} {m : BitVec 32} (hu : s.canUp x = true) (hm : bitOf m.toNat o = true)
    (hp : s.canPend x o = true) :
    GoesTo (exec (.canTxAbort x m (some o)) s) fun t => t.canPend x o = true ∧ (t.getCan x).bus = some o.val := by
  have hstep (t : State) (c : Nat) (h : t.canPend x o = true) : (t.abortStep x m.toNat (some o.val) c).canPend x o = true := by
    by_cases hc : o.val = c
    · rw [← hc, State.abortStep_onBus hm h]
      exact (canPend_of_regs rfl).trans h
    · exact (State.canPend_abortStep_ne hc).trans h
  have hset (t : State) (h : t.canPend x o = true) : ((t.abortStep x m.toNat (some o.val) o).getCan x).bus = some o.val := by
    rw [State.abortStep_onBus hm h, State.getCan_updCan x.isLt]
  refine ⟨_, exec_canTxAbort hu, State.each_settles (I := fun t => t.canPend x o = true)
    (P := fun t => t.canPend x o = true ∧ (t.getCan x).bus = some o.val) (a := o.val) hstep (fun t h => ⟨hstep t o h, hset t h⟩)
    (fun t c ⟨h, hbus⟩ => ⟨hstep t c h, ?_⟩) (List.mem_range.2 o.isLt) hp⟩
  by_cases hc : o.val = c
  · exact hc ▸ hset t h
  · exact (congrArg Can.bus (getCan_of_can (State.can_abortStep_ne hc))).trans hbus

/-! ### Arbitration -/

/-- The winner depends on the objects and their requests alone. -/
theorem State.canWinner_congr (ho : (t.getCan x).objs = (s.getCan x).objs) (hr : t.regs = s.regs) : t.canWinner x = s.canWinner x := by
  have h1 (o : Nat) : t.canObj x o = s.canObj x o := canObj_of_objs ho
  have h2 (o : Nat) : t.canPend x o = s.canPend x o := canPend_of_regs hr
  unfold State.canWinner
  simp only [h1, h2]

theorem State.canAgain_some (hb : s.canOnBus x = some o) :
    s.canAgain x = if (s.getCan x).bus.isSome || s.bit (F.CAN_CFG.DAR x) then (s.updCan x fun k => { k with bus := none }).canPendSet x o false
      else s.updCan x fun k => { k with bus := none } := by
  unfold State.canAgain
  rw [hb]

theorem canArbitrationLost_again {x : Fin 2} (hs : s.canSends x = true) (hb : s.canOnBus x = some o) (hn : (s.getCan x).bus = none)
    (hd : s.bit (F.CAN_CFG.DAR x) = false) :
    GoesTo (exec (.canArbitrationLost x) s) fun t => t.regs = s.regs ∧ t.canOnBus x = some o := by
  refine ⟨s.updCan x fun k => { k with bus := none }, congrArg Host.Outcome.next ((if_pos hs).trans ((State.canAgain_some hb).trans (if_neg ?_))),
    rfl, ?_⟩
  · rw [hn, hd]
    decide
  · have hw : (s.updCan x fun k => { k with bus := none }).canWinner x = s.canWinner x :=
      State.canWinner_congr (by rw [State.getCan_updCan x.isLt]) rfl
    unfold State.canOnBus at hb ⊢
    rw [hn] at hb
    rw [State.getCan_updCan x.isLt]
    exact hw.trans hb

theorem canArbitrationLost_drops {x : Fin 2} {o : Fin 32} (hs : s.canSends x = true) (hb : s.canOnBus x = some o.val)
    (hd : s.bit (F.CAN_CFG.DAR x) = true) :
    GoesTo (exec (.canArbitrationLost x) s) fun t => t.canPend x o = false ∧ (t.getCan x).bus = none := by
  refine ⟨_, congrArg Host.Outcome.next ((if_pos hs).trans ((State.canAgain_some hb).trans (if_pos (by rw [hd, Bool.or_true])))),
    State.canPend_canPendSet, ?_⟩
  rw [getCan_of_can State.can_canPendSet, State.getCan_updCan x.isLt]

end Sys2Proof.Machine
end

section
/-! SUPPORT. CAN: the object view, errors, bus-off and recovery, and O37. -/

set_option Elab.async false

namespace Sys2Proof.Machine

variable {s t : State} {x o k : Nat}

/-! ### The object view -/

theorem leNat_lt (l : List Byte) : leNat l < 256 ^ l.length := by
  induction l with
  | nil => decide
  | cons b l ih =>
    have hb : b.toNat < 256 := b.isLt
    rw [leNat, List.length_cons, pow_succ]
    omega

theorem leAt_lt (l : List Byte) (o n : Nat) : leAt l o n < 256 ^ n :=
  (leNat_lt _).trans_le (Nat.pow_le_pow_right (by decide) (by simp [slice]))

/-- The registers of the view of controller `x` from offset `k` on. -/
def viewFoot (k x : Nat) : Foot := ⟨[.regs], [(0x7800 + 0x200 * x + k, 0x7840 + 0x200 * x)]⟩

theorem viewFoot_le {j : Nat} (h : k ≤ j) : (viewFoot j x).le (viewFoot k x) = true :=
  Foot.le_iff.2 ⟨fun _ h => h, fun r hr => ⟨_, .head _, by simp [viewFoot] at hr; subst hr; simp; omega⟩⟩

theorem viewFoot_holds {j : Nat} (h : k ≤ j) (hj : j < 0x40) : (viewFoot k x).holds (0x7800 + 0x200 * x + j) = true :=
  Foot.holds_iff.2 ⟨_, .head _, by simp; omega⟩

theorem viewFoot_apart {j : Nat} (h : j < k) : (viewFoot k x).holds (0x7800 + 0x200 * x + j) = false :=
  Foot.holds_false_iff.2 (by simp [viewFoot]; omega)

/-- The data of an object come to the view. -/
def State.viewData (s : State) (x : Nat) (data : List Byte) : State :=
  s.each (List.range 32) fun s k => s.set (F.CAN_ODATA x k) (leAt data (2 * k) 2)

theorem State.viewData_reach {data : List Byte} : Reach (viewFoot 0x20 x) s (s.viewData x data) :=
  (Reach.refl s).each fun s k hk => (Reach.refl s).set (Foot.holds_iff.2 ⟨_, .head _, by
    have := List.mem_range.1 hk
    simp [F.CAN_ODATA, R.CAN_ODATA]
    omega⟩) rfl

/-- A field of each of several registers, each set to its value. -/
theorem State.get_each_setTo (s : State) {f : Nat → Fld} (v : Nat → Nat) (hf : ∀ i, (f i).lo + (f i).len ≤ 20)
    (hne : ∀ i j, i ≠ j → (f i).addr ≠ (f j).addr) {i n : Nat} (hi : i < n) :
    (s.each (List.range n) fun s k => s.set (f k) (v k)).get (f i) = v i % 2 ^ (f i).len := by
  induction n with
  | zero => omega
  | succ n ih =>
    rw [State.each, List.range_succ, List.foldl_append]
    by_cases h : i = n
    · rw [h]
      exact State.get_set_self _ (f n) (hf n) (v n)
    · exact (State.get_set_addr _ (f n) (f i) (hne i n h) (v n)).trans (ih (by omega))

theorem State.get_viewData {data : List Byte} (hk : k < 32) : (s.viewData x data).get (F.CAN_ODATA x k) = leAt data (2 * k) 2 := by
  refine (State.get_each_setTo s _ (fun i => by simp [F.CAN_ODATA]) (fun i j h => by simp [F.CAN_ODATA, R.CAN_ODATA]; omega) hk).trans ?_
  exact Nat.mod_eq_of_lt (leAt_lt data (2 * k) 2)

/-- The view after the object's identifier: mask, status, stamp and data. -/
def State.viewRest (s : State) (x : Nat) (c : CanObj) : State :=
  State.viewData ((((s.set (F.CAN_OMSKLO x) c.mask).set (F.CAN_OMSKHI x) (c.mask / 2 ^ 16)).set (F.CAN_OSTAT x) c.stat).set (F.CAN_OTS x) c.ots)
    x c.data

theorem State.viewRest_reach {c : CanObj} : Reach (viewFoot 0x13 x) s (s.viewRest x c) :=
  (((((Reach.refl s).set (viewFoot_holds (j := 0x13) (by decide) (by decide)) rfl).set
    (viewFoot_holds (j := 0x14) (by decide) (by decide)) rfl).set (viewFoot_holds (j := 0x15) (by decide) (by decide)) rfl).set
    (viewFoot_holds (j := 0x16) (by decide) (by decide)) rfl).trans (State.viewData_reach.mono (viewFoot_le (by decide)))

theorem State.can_viewData {data : List Byte} : (s.viewData x data).can = s.can := State.viewData_reach.can rfl

theorem exec_canObjectSelect {x : Fin 2} {o : Fin 32} (hu : s.canUp x = true) :
    exec (.canObjectSelect x o) s = .next (State.viewRest ((((s.set (F.CAN_OSEL x) o).setReg (R.CAN_OCFG x) (BitVec.ofNat 20 (s.canObj x o).cfg)).set
      (F.CAN_OIDLO x) (s.canObj x o).id).set (F.CAN_OIDHI x) ((s.canObj x o).id / 2 ^ 16)) x (s.canObj x o)) :=
  congrArg Host.Outcome.next (if_pos hu)

theorem canObjectSelect_shows {x : Fin 2} {o : Fin 32} (hu : s.canUp x = true) :
    GoesTo (exec (.canObjectSelect x o) s) fun t =>
      t.get (F.CAN_OSEL x) = o ∧ t.reg (R.CAN_OCFG x) = BitVec.ofNat 20 (s.canObj x o).cfg ∧ t.get (F.CAN_OIDLO x) = (s.canObj x o).id % 2 ^ 16
      ∧ t.get (F.CAN_OIDHI x) = (s.canObj x o).id / 2 ^ 16 % 2 ^ (F.CAN_OIDHI x).len
      ∧ (∀ k : Fin 32, t.get (F.CAN_ODATA x k) = leAt (s.canObj x o).data (2 * k) 2) ∧ t.can = s.can := by
  obtain ⟨c, hc⟩ : ∃ c, s.canObj x o = c := ⟨_, rfl⟩
  have hx := exec_canObjectSelect (s := s) (x := x) (o := o) hu
  rw [hc] at hx ⊢
  obtain ⟨u1, h1⟩ : ∃ u, s.set (F.CAN_OSEL x) o = u := ⟨_, rfl⟩
  obtain ⟨u2, h2⟩ : ∃ u, u1.setReg (R.CAN_OCFG x) (BitVec.ofNat 20 c.cfg) = u := ⟨_, rfl⟩
  obtain ⟨u3, h3⟩ : ∃ u, u2.set (F.CAN_OIDLO x) c.id = u := ⟨_, rfl⟩
  obtain ⟨u4, h4⟩ : ∃ u, u3.set (F.CAN_OIDHI x) (c.id / 2 ^ 16) = u := ⟨_, rfl⟩
  obtain ⟨t, ht⟩ : ∃ t, u4.viewRest x c = t := ⟨_, rfl⟩
  rw [h1, h2, h3, h4, ht] at hx
  have r4 : Reach (viewFoot 0x13 x) u4 t := ht ▸ State.viewRest_reach
  have r3 : Reach (viewFoot 0x12 x) u3 t :=
    ((Reach.refl u3).set (f := F.CAN_OIDHI x) (viewFoot_holds (j := 0x12) (by decide) (by decide)) rfl).trans (h4 ▸ r4.mono (viewFoot_le (by decide)))
  have r2 : Reach (viewFoot 0x11 x) u2 t :=
    ((Reach.refl u2).set (f := F.CAN_OIDLO x) (viewFoot_holds (j := 0x11) (by decide) (by decide)) rfl).trans (h3 ▸ r3.mono (viewFoot_le (by decide)))
  have r1 : Reach (viewFoot 0x10 x) u1 t :=
    ((Reach.refl u1).setReg (a := R.CAN_OCFG x) (viewFoot_holds (j := 0x10) (by decide) (by decide)) rfl).trans
      (h2 ▸ r2.mono (viewFoot_le (by decide)))
  refine ⟨t, hx, ?_, ?_, ?_, ?_, fun k => ?_, (r1.can rfl).trans (h1 ▸ rfl)⟩
  · refine (r1.get (viewFoot_apart (j := 0xF) (by decide))).trans ?_
    rw [← h1]
    exact (State.get_set_self _ _ (by simp [F.CAN_OSEL]) _).trans (Nat.mod_eq_of_lt o.isLt)
  · refine (r2.reg _ (viewFoot_apart (j := 0x10) (by decide))).trans ?_
    rw [← h2]
    exact State.reg_setReg_self u1 (R.CAN_OCFG x) _
  · refine (r3.get (viewFoot_apart (j := 0x11) (by decide))).trans ?_
    rw [← h3]
    exact State.get_set_self _ _ (by simp [F.CAN_OIDLO]) _
  · refine (r4.get (viewFoot_apart (j := 0x12) (by decide))).trans ?_
    rw [← h4]
    exact State.get_set_self _ _ (by simp [F.CAN_OIDHI]) _
  · rw [← ht]
    exact State.get_viewData k.isLt

theorem canObjectWrite_copies {x : Fin 2} {o : Fin 32} (hu : s.canUp x = true) (ho : s.get (F.CAN_OSEL x) = o.val)
    (hl : (s.getCan x).objs.length = 32) (hp : (s.canObj x o).tx = false ∨ s.canPend x o = false) :
    GoesTo (exec (.canObjectWrite x) s) fun t =>
      t.canObj x o = s.canView x ∧ (∀ q, q ≠ o.val → t.canObj x q = s.canObj x q) ∧ t.regs = s.regs := by
  have hw : s.canOwr x = s.updObj x o fun _ => s.canView x := by
    unfold State.canOwr
    rw [ho]
    exact if_neg (by rcases hp with h | h <;> simp [h])
  exact ⟨_, congrArg Host.Outcome.next ((if_pos hu).trans hw), State.canObj_updObj x.isLt (by rw [hl]; exact o.isLt),
    fun q hq => State.canObj_updObj_ne x.isLt hq, rfl⟩

theorem canObjectWrite_rejects {x : Fin 2} {o : Fin 32} (hu : s.canUp x = true) (ho : s.get (F.CAN_OSEL x) = o.val)
    (ht : (s.canObj x o).tx = true) (hp : s.canPend x o = true) :
    GoesTo (exec (.canObjectWrite x) s) fun t => t.bit (F.CAN_STAT.OWREJ x) = true ∧ t.can = s.can := by
  have hw : s.canOwr x = s.evt (F.CAN_STAT.OWREJ x) := by
    unfold State.canOwr
    rw [ho]
    exact if_pos (by rw [ht, hp]; rfl)
  exact ⟨_, congrArg Host.Outcome.next ((if_pos hu).trans hw),
    State.bit_of_get_one (State.get_evt _ _ (by simp [F.CAN_STAT.OWREJ]) Nat.one_pos), State.evt_can _ _⟩

/-! ### Errors -/

/-- What a frame sent again leaves of the controller. -/
theorem State.getCan_canAgain (hx : x < 2) : ∃ b, (s.canAgain x).getCan x = { s.getCan x with bus := b } := by
  unfold State.canAgain
  split
  · exact ⟨_, rfl⟩
  · dsimp only
    refine ⟨none, ?_⟩
    split
    · rw [getCan_of_can State.can_canPendSet, State.getCan_updCan hx]
    · rw [State.getCan_updCan hx]

theorem State.get_canAgain {lo len : Nat} (hk : k < 9) : (s.canAgain x).get (canFld k lo len x) = s.get (canFld k lo len x) := by
  unfold State.canAgain
  split
  · rfl
  · dsimp only
    split
    · refine (State.get_setBitAt_apart _ _ _ _ _ (by simp [F.CAN_TXRQ]) fun e => absurd e ?_).trans (State.get_updCan _)
      simp only [canFld, F.CAN_TXRQ, R.CAN_TXRQ]
      omega
    · rfl

/-- A controller that is enabled and off shows bus-off. -/
theorem State.canState_off (he : s.bit (F.CAN_CFG.EN x) = true) (ho : (s.getCan x).off = true) : s.canState x = 2 :=
  (if_neg (by rw [he]; decide)).trans (if_pos ho)

/-- One with clear counters is active. -/
theorem State.canState_active (he : s.bit (F.CAN_CFG.EN x) = true) (hc : (s.getCan x).off = false ∧ (s.getCan x).tec = 0 ∧ (s.getCan x).rec_ = 0) :
    s.canState x = 0 := by
  obtain ⟨ho, ht, hr⟩ := hc
  exact (if_neg (by rw [he]; decide)).trans ((if_neg (by rw [ho]; decide)).trans (if_neg (by rw [ht, hr]; decide)))

theorem canBusError_transmits {x : Fin 2} {l : Fin 6} (hu : s.canLive x = true) (hm : s.bit (F.CAN_CFG.MON x) = false)
    (he : s.bit (F.CAN_CFG.EN x) = true) (ho : (s.getCan x).off = false) :
    GoesTo (exec (.canBusError x true true l) s) fun t =>
      t.get (F.CAN_ERRCNT.LEC x) = l + 1 ∧ (t.getCan x).tec = (s.getCan x).tec + 8
        ∧ (255 < (s.getCan x).tec + 8 → t.get (F.CAN_STAT.STATE x) = 2) := by
  obtain ⟨u, h1⟩ : ∃ u, s.set (F.CAN_ERRCNT.LEC x) (l.val + 1) = u := ⟨_, rfl⟩
  obtain ⟨w, h2⟩ : ∃ w, u.updCan x (fun c => { c with tec := c.tec + 8, off := c.off || (true && decide (255 < c.tec + 8)) }) = w := ⟨_, rfl⟩
  obtain ⟨a, h3⟩ : ∃ a, w.canAgain x = a := ⟨_, rfl⟩
  have hw : s.canError x true true (l.val + 1) = a.canShow x := by
    rw [← h3, ← h2, ← h1]
    rfl
  have hlt := l.isLt
  obtain ⟨hst, -, -, hlec⟩ := State.canShow_gives (s := a) x.isLt
  obtain ⟨b, hb⟩ := State.getCan_canAgain (s := w) x.isLt
  have huc : u.getCan x = s.getCan x := getCan_of_can (h1 ▸ State.set_can _ _ _)
  have hg : a.getCan x = { s.getCan x with tec := (s.getCan x).tec + 8, off := decide (255 < (s.getCan x).tec + 8), bus := b } := by
    rw [← h3, hb, ← h2, State.getCan_updCan x.isLt, huc, ho]
    rfl
  have hcfg {lo len : Nat} : a.get (canFld 0 lo len x) = s.get (canFld 0 lo len x) := by
    rw [← h3, State.get_canAgain (by decide), ← h2, State.get_updCan, ← h1]
    exact State.get_set_canFld (i := 5) (j := 0) (by decide)
  have haen : a.bit (F.CAN_CFG.EN x) = true := (State.bit_eq_of_get hcfg).trans he
  refine ⟨a.canShow x, congrArg Host.Outcome.next ((if_pos (by rw [hu, hm]; rfl)).trans hw), hlec.trans ?_, ?_, fun h => hst.trans ?_⟩
  · rw [← h3]
    refine (State.get_canAgain (k := 5) (by decide)).trans ?_
    rw [← h2, State.get_updCan, ← h1]
    exact (State.get_set_self s (F.CAN_ERRCNT.LEC x) (by simp [F.CAN_ERRCNT.LEC]) _).trans (Nat.mod_eq_of_lt (by simp [F.CAN_ERRCNT.LEC]; omega))
  · rw [getCan_of_can (State.canShow_reach x.isLt).can, hg]
  · exact State.canState_off haen (by rw [hg]; exact decide_eq_true h)

theorem canBusError_receives {x : Fin 2} {l : Fin 6} {g : Bool} (hu : s.canLive x = true) :
    GoesTo (exec (.canBusError x false g l) s) fun t =>
      t.get (F.CAN_ERRCNT.LEC x) = l + 1 ∧ (t.getCan x).rec_ = min 255 ((s.getCan x).rec_ + if g then 8 else 1)
        ∧ (t.getCan x).tec = (s.getCan x).tec := by
  obtain ⟨u, h1⟩ : ∃ u, s.set (F.CAN_ERRCNT.LEC x) (l.val + 1) = u := ⟨_, rfl⟩
  obtain ⟨w, h2⟩ : ∃ w, u.updCan x (fun c => { c with rec_ := min 255 (c.rec_ + if g then 8 else 1) }) = w := ⟨_, rfl⟩
  have hw : s.canError x false g (l.val + 1) = w.canShow x := by
    rw [← h2, ← h1]
    rfl
  have hlt := l.isLt
  obtain ⟨-, -, -, hlec⟩ := State.canShow_gives (s := w) x.isLt
  have huc : u.getCan x = s.getCan x := getCan_of_can (h1 ▸ State.set_can _ _ _)
  have hg : (w.canShow x).getCan x = { s.getCan x with rec_ := min 255 ((s.getCan x).rec_ + if g then 8 else 1) } := by
    rw [getCan_of_can (State.canShow_reach x.isLt).can, ← h2, State.getCan_updCan x.isLt, huc]
  refine ⟨w.canShow x, congrArg Host.Outcome.next ((if_pos (by rw [hu]; rfl)).trans hw), hlec.trans ?_, by rw [hg], by rw [hg]⟩
  rw [← h2, State.get_updCan, ← h1]
  exact (State.get_set_self s (F.CAN_ERRCNT.LEC x) (by simp [F.CAN_ERRCNT.LEC]) _).trans (Nat.mod_eq_of_lt (by simp [F.CAN_ERRCNT.LEC]; omega))

/-! ### Recovery -/

theorem canRecover_counts {x : Fin 2} (hu : s.canUp x = true) (hs : s.get (F.CAN_STAT.STATE x) = 2) :
    GoesTo (exec (.canRecover x) s) fun t => t.getCan x = { s.getCan x with counting := true } ∧ t.regs = s.regs :=
  ⟨_, congrArg Host.Outcome.next ((if_pos hu).trans (if_pos hs)), State.getCan_updCan x.isLt, rfl⟩

theorem canBusOffRecovery_clears {x : Fin 2} (hu : s.canUp x = true) (hs : s.get (F.CAN_STAT.STATE x) = 2)
    (hc : s.bit (F.CAN_CFG.ABOR x) = true ∨ (s.getCan x).counting = true) (he : s.bit (F.CAN_CFG.EN x) = true) :
    GoesTo (exec (.canBusOffRecovery x) s) fun t =>
      t.get (F.CAN_STAT.STATE x) = 0 ∧ t.get (F.CAN_ERRCNT.TEC x) = 0 ∧ t.get (F.CAN_ERRCNT.REC x) = 0 ∧ (t.getCan x).off = false
        ∧ (t.getCan x).objs = (s.getCan x).objs := by
  obtain ⟨w, hw⟩ : ∃ w, s.updCan x (fun c => { c with tec := 0, rec_ := 0, off := false, counting := false }) = w := ⟨_, rfl⟩
  have hg : w.getCan x = { s.getCan x with tec := 0, rec_ := 0, off := false, counting := false } := by
    rw [← hw, State.getCan_updCan x.isLt]
  have hen : w.bit (F.CAN_CFG.EN x) = true := by
    rw [← hw]
    exact he
  obtain ⟨h1, h2, h3, -⟩ := State.canShow_gives (s := w) x.isLt
  have ht : (w.canShow x).getCan x = w.getCan x := getCan_of_can (State.canShow_reach x.isLt).can
  refine ⟨w.canShow x, congrArg Host.Outcome.next ((if_pos ?_).trans (by rw [hw])), h1.trans (State.canState_active hen (by rw [hg]; exact ⟨rfl, rfl, rfl⟩)),
    h2.trans (by rw [hg]; rfl), h3.trans (by rw [hg]; rfl), by rw [ht, hg], by rw [ht, hg]⟩
  rw [hu, hs]
  rcases hc with h | h <;> simp [h]

/-- Settles O37: frames, requests, the object view and the error state, each by the lemma of its command. -/
theorem canFramesObjectsAndErrors : Obligations.CanFramesObjectsAndErrors := by
  unfold Obligations.CanFramesObjectsAndErrors
  exact ⟨fun s x o f => canFrameReceive_stores, fun s x f _ => canFrameReceive_discards, fun s x o => canFrameSent_ends,
    fun s x o m => canTxRequest_sets, fun s x o m => canTxRequest_keeps, fun s x o m b => canTxAbort_clears,
    fun s x o m => canTxAbort_waits, fun s x o => canArbitrationLost_again, fun s x o => canArbitrationLost_drops,
    fun s x o => canObjectSelect_shows, fun s x o => canObjectWrite_copies, fun s x o => canObjectWrite_rejects,
    fun s x l => canBusError_transmits, fun s x l g => canBusError_receives, fun s x => canRecover_counts,
    fun s x => canBusOffRecovery_clears⟩

end Sys2Proof.Machine
end

section
/-! SUPPORT. The Porter: what a finding decided does before its reaction, and the reactions (R411 to R418). -/

set_option Elab.async false

namespace Sys2Proof.Machine

variable {G : Foot} {s t u : State} {k : Nat} {d : Decided} {g : FaultSig}

/-! ### Findings that keep everything of the Porter but crossings lost -/

/-- From `s` to `t` the Porter's fields stay, but for crossings that met their failed check. -/
structure SamePor (s t : State) : Prop where
  fields : t.por = { s.por with lost := t.por.lost }
  lost : ∀ x, x ∈ t.por.lost → x ∈ s.por.lost

theorem SamePor.refl (s : State) : SamePor s s := ⟨rfl, fun _ h => h⟩

theorem SamePor.of_eq (h : t.por = s.por) : SamePor s t := ⟨by rw [h], fun x hx => h ▸ hx⟩

theorem SamePor.trans (h : SamePor s t) (h' : SamePor t u) : SamePor s u :=
  ⟨by rw [h'.fields, h.fields], fun x hx => h.lost x (h'.lost x hx)⟩

theorem SamePor.ite {c : Prop} {_ : Decidable c} (h : SamePor s t) (h' : SamePor s u) : SamePor s (if c then t else u) := by
  split
  · exact h
  · exact h'

theorem State.samePor_raise : SamePor s (s.raise k) := by
  rcases s.raise_cases k with ⟨-, h⟩ | ⟨-, -, h⟩ | ⟨-, -, -, h⟩ | ⟨-, -, -, h⟩
  · exact .of_eq (by rw [h])
  · exact ⟨by rw [h]; rfl, fun x hx => by rw [h] at hx; exact List.mem_of_mem_erase hx⟩
  · exact .of_eq (by rw [h, State.evtInc_por])
  · exact .of_eq (by rw [h, State.incW_por])

theorem State.samePor_raiseIf {c : Bool} : SamePor s (s.raiseIf c k) :=
  .ite State.samePor_raise (.refl s)

/-- A raise reaches its own source alone. -/
theorem State.raise_reach_src (k : Nat) : Reach ⟨[.regs, .marks, .por], [(0x6417, 0x6418), (0x6500 + k, 0x6501 + k)]⟩ s (s.raise k) := by
  have hs : (⟨[.regs, .marks, .por], [(0x6417, 0x6418), (0x6500 + k, 0x6501 + k)]⟩ : Foot).holds (R.IRT_SRC k) = true :=
    Foot.holds_iff.2 ⟨_, .tail _ (.head _), by simp [R.IRT_SRC]⟩
  exact (Reach.refl s).unless fun h => h.branch (·.frame)
    (·.branch (·.evtAdd (Foot.holds_iff.2 ⟨_, .head _, by decide⟩) rfl rfl) (·.set hs rfl))

theorem State.raiseIf_reach_src (k : Nat) {c : Bool} :
    Reach ⟨[.regs, .marks, .por], [(0x6417, 0x6418), (0x6500 + k, 0x6501 + k)]⟩ s (s.raiseIf c k) :=
  (Reach.refl s).when (·.trans (State.raise_reach_src k))

theorem Reach.islandUp (h : Reach G s t) (i : Island) (hp : G.has .pcr = false := by decide)
    (hr : G.holds R.PCR_STAT = false := by decide) : t.islandUp i = s.islandUp i := by
  have h1 : t.bit F.PCR_STAT.PLLA_LOCK = s.bit F.PCR_STAT.PLLA_LOCK := h.bit hr
  have h2 : t.bit F.PCR_STAT.PLLG_LOCK = s.bit F.PCR_STAT.PLLG_LOCK := h.bit hr
  cases i <;> simp only [State.islandUp, State.running, h.pcr hp, h1, h2]

/-! ### Capture and log -/

/-- What a finding reaches before its reaction: the capture, the log's drops, sources 3 and 4. -/
abbrev noteFoot : Foot :=
  ⟨[.regs, .marks, .por, .hal], [(0x5051, 0x5052), (0x6417, 0x6418), (0x6503, 0x6505), (0x7003, 0x700B)]⟩

theorem State.captureTake_reach : Reach ⟨[.regs], [(0x7003, 0x700A)]⟩ s (s.captureTake d) := by
  unfold State.captureTake
  exact ((((((((((((((((Reach.refl s).setReg).set).set).set).set).set).set).setReg).set).set).set).set).set).set).set).set

/-- What SECOND reaches. -/
abbrev secondFoot : Foot := ⟨[.regs, .marks, .por], [(0x6417, 0x6418), (0x6503, 0x6504), (0x700A, 0x700B)]⟩

theorem State.secondSet_reach : Reach secondFoot s s.secondSet :=
  ((Reach.refl s).then (State.raiseIf_reach_src 3)).set

theorem State.capture_reach : Reach noteFoot s (s.capture d) := by
  have h : Reach noteFoot s s := .refl s
  unfold State.capture
  exact .ite ((h.then State.captureTake_reach).then State.secondSet_reach)
    (.ite (.ite (((h.then State.secondSet_reach).set).set) (h.then State.captureTake_reach)) h)

theorem State.por_captureTake : (s.captureTake d).por = s.por := State.captureTake_reach.por

theorem State.samePor_secondSet : SamePor s s.secondSet :=
  State.samePor_raiseIf.trans (.of_eq (State.set_por _ _ _))

theorem State.samePor_capture : SamePor s (s.capture d) := by
  have ht : SamePor s (s.captureTake d) := .of_eq State.por_captureTake
  unfold State.capture
  refine .ite (ht.trans State.samePor_secondSet) (.ite (.ite ?_ ht) (.refl s))
  exact State.samePor_secondSet.trans (.of_eq ((State.set_por _ _ _).trans (State.set_por _ _ _)))

/-- What an entry offered to the log reaches. -/
abbrev logFoot : Foot := ⟨[.regs, .marks, .por, .hal], [(0x5051, 0x5052), (0x6417, 0x6418), (0x6504, 0x6505)]⟩

theorem State.logOffer_reach {r : LogRec} : Reach logFoot s (s.logOffer r) :=
  (Reach.refl s).branch (·.then State.updHal_reach) (fun h => h.evtAdd.then (State.raise_reach_src 4))

theorem State.samePor_logOffer {r : LogRec} : SamePor s (s.logOffer r) :=
  .ite (.of_eq rfl) ((SamePor.of_eq (State.evtInc_por _ _)).trans State.samePor_raise)

theorem State.logEvent_reach : Reach logFoot s (s.logEvent d) :=
  (Reach.refl s).when fun _ => State.logOffer_reach

theorem State.samePor_logEvent : SamePor s (s.logEvent d) :=
  .ite State.samePor_logOffer (.refl s)

/-- The capture clear that a write of this FCLK brings, ahead of the capture. -/
def State.clrAhead (s : State) : State :=
  if s.comes s.clrComes then s.capClear.updPor fun p => { p with clrT := some s.fclk } else s

theorem State.clrAhead_reach : Reach noteFoot s s.clrAhead :=
  (Reach.refl s).when fun h => (h.unless fun h => ((h.set).set).set).then State.updPor_reach

/-- A finding captured, logged and, but for a notice, sent to be counted. -/
def State.noted (s : State) (d : Decided) : State :=
  let s := (s.clrAhead.capture d).logEvent d
  if d.sev then s else s.updPor fun p => { p with countQ := p.countQ ++ [d.item] }

theorem State.noted_reach : Reach noteFoot s (s.noted d) :=
  ((State.clrAhead_reach.trans State.capture_reach).then State.logEvent_reach).unless (·.then State.updPor_reach)

theorem State.clrAhead_of_none (h : s.comes s.clrComes = false) : s.clrAhead = s := if_neg (by rw [h]; decide)

/-- A finding of an event is sent to be counted. -/
theorem State.por_noted (hc : s.comes s.clrComes = false) (hs : d.sev = false) :
    (s.noted d).por = { s.por with countQ := s.por.countQ ++ [d.item], lost := (s.noted d).por.lost }
      ∧ ∀ x, x ∈ (s.noted d).por.lost → x ∈ s.por.lost := by
  obtain ⟨u, hu⟩ : ∃ u, (s.clrAhead.capture d).logEvent d = u := ⟨_, rfl⟩
  have h : SamePor s u := by
    rw [← hu, State.clrAhead_of_none hc]
    exact State.samePor_capture.trans State.samePor_logEvent
  have hn : s.noted d = u.updPor fun p => { p with countQ := p.countQ ++ [d.item] } := by
    rw [State.noted, hu, hs]
    exact if_neg Bool.false_ne_true
  rw [hn]
  refine ⟨?_, h.lost⟩
  simp only [State.updPor]
  rw [h.fields]

/-- A notice is not counted again. -/
theorem State.samePor_noted (hc : s.comes s.clrComes = false) (hs : d.sev = true) : SamePor s (s.noted d) := by
  have hn : s.noted d = (s.capture d).logEvent d := by
    rw [State.noted, State.clrAhead_of_none hc, hs]
    exact if_pos rfl
  rw [hn]
  exact State.samePor_capture.trans State.samePor_logEvent

/-! ### What the capture holds -/

theorem State.captureTake_gives (s : State) (d : Decided) :
    (s.captureTake d).get F.POR_FIRST.VALID = 1 ∧ (s.captureTake d).get F.POR_FIRST.SRC = d.item.sig.src % 2 ^ 7
      ∧ (s.captureTake d).get F.POR_FIRST.REACT = d.react % 2 ^ 3 ∧ (s.captureTake d).get F.POR_FIRST.SEV = b2n d.sev % 2
      ∧ (s.captureTake d).get F.POR_FIRST.INTEG = b2n d.item.integ % 2 ∧ (s.captureTake d).get F.POR_FDET.DET = d.item.sig.det % 2 ^ 8 := by
  unfold State.captureTake State.setB
  dsimp only
  refine ⟨?_, ?_, ?_, ?_, ?_, ?_⟩ <;>
    simp (disch := decide) only [State.get_set_apart, State.get_setReg_ne, State.get_set_self] <;> rfl

/-- A finding that the capture takes: it stands there, and no more than SECOND changes beside it. -/
theorem State.capture_takes (hv : s.bit F.POR_FIRST.VALID = false) (hc : s.get F.POR_GCFG.CAPMIN ≤ d.react) :
    Reach secondFoot (s.captureTake d) (s.capture d) := by
  unfold State.capture
  dsimp only
  split
  · exact State.secondSet_reach
  · rw [if_neg (by rw [hv]; decide)]
    exact .refl _

/-- The capture after a finding that it takes. -/
theorem State.noted_takes (hq : s.comes s.clrComes = false) (hv : s.bit F.POR_FIRST.VALID = false) (hc : s.get F.POR_GCFG.CAPMIN ≤ d.react) :
    (s.noted d).get F.POR_FIRST.VALID = 1 ∧ (s.noted d).get F.POR_FIRST.SRC = d.item.sig.src % 2 ^ 7
      ∧ (s.noted d).get F.POR_FIRST.REACT = d.react % 2 ^ 3 ∧ (s.noted d).get F.POR_FIRST.SEV = b2n d.sev % 2
      ∧ (s.noted d).get F.POR_FIRST.INTEG = b2n d.item.integ % 2 ∧ (s.noted d).get F.POR_FDET.DET = d.item.sig.det % 2 ^ 8 := by
  have h : Reach ⟨[.regs, .marks, .por, .hal], [(0x5051, 0x5052), (0x6417, 0x6418), (0x6503, 0x6505), (0x700A, 0x700B)]⟩
      (s.captureTake d) (s.noted d) := by
    unfold State.noted
    rw [State.clrAhead_of_none hq]
    exact (((Reach.refl _).then (State.capture_takes hv hc)).then State.logEvent_reach).unless (·.then State.updPor_reach)
  obtain ⟨h1, h2, h3, h4, h5, h6⟩ := s.captureTake_gives d
  exact ⟨h.get.trans h1, h.get.trans h2, h.get.trans h3, h.get.trans h4, h.get.trans h5, h.get.trans h6⟩

/-! ### Reactions -/

/-- What a cut of the banks reaches. -/
abbrev cutFoot : Foot := ⟨[.regs, .marks, .por, .inj], [(0x3000, 0x3400), (0x6417, 0x6418), (0x65D0, 0x65E0)]⟩

theorem inj_holds {a : Nat} (h : 0x3000 ≤ a ∧ a < 0x3400) : cutFoot.holds a = true := Foot.holds_range 0x3000 0x3400 h

theorem State.updBank_reach {b : Nat} {f : Bank → Bank} : Reach ⟨[.inj], []⟩ s (s.updBank b f) :=
  .frame (.refl s)

theorem State.setRefused_reach {b : Bool} : Reach ⟨[.inj], []⟩ s (s.setRefused k b) :=
  .frame (.refl s)

theorem State.bankClose_reach {b : Nat} (hb : b < 4) : Reach cutFoot s (s.bankClose b) := by
  have hn := s.condInj_lt hb
  have h1 : cutFoot.holds (R.INJ_RISE (s.condInj b)) = true := inj_holds (by simp only [R.INJ_RISE]; omega)
  have h2 : cutFoot.holds (R.INJ_OPEN (s.condInj b)) = true := inj_holds (by simp only [R.INJ_OPEN]; omega)
  have h3 : cutFoot.holds (R.INJ_STAT (s.condInj b)) = true := inj_holds (by simp only [R.INJ_STAT]; omega)
  have h4 : cutFoot.holds (R.INJ_BSTAT b) = true := inj_holds (by simp only [R.INJ_BSTAT]; omega)
  have h5 : cutFoot.holds (R.INJ_EOIF (s.condInj b)) = true := inj_holds (by simp only [R.INJ_EOIF]; omega)
  have h6 : cutFoot.holds (R.INJ_EOIL (s.condInj b)) = true := inj_holds (by simp only [R.INJ_EOIL]; omega)
  unfold State.bankClose
  exact ((((((Reach.refl s).set h1).set h2).set h3).set h4).set h4 |>.when fun h => (((h.set h5).set h6).set h3).set h3).then State.updBank_reach

theorem State.bankCut_reach {b cause : Nat} (hb : b < 4) : Reach cutFoot s (s.bankCut b cause) := by
  have hn := s.condInj_lt hb
  have h1 : cutFoot.holds (R.INJ_BSTAT b) = true := inj_holds (by simp only [R.INJ_BSTAT]; omega)
  have h2 : cutFoot.holds (R.INJ_STAT (s.condInj b)) = true := inj_holds (by simp only [R.INJ_STAT]; omega)
  refine (Reach.refl s).when fun _ => ((((State.bankClose_reach hb).then State.setRefused_reach).set h1).evt h2).trans
    ((State.raise_reach_src _).mono (Foot.le_iff.2 ⟨fun p hp => ?_, fun r hr => ?_⟩))
  · simp only [Foot.has, List.contains_iff_mem, List.mem_cons] at hp ⊢
    tauto
  · simp only [List.mem_cons, List.not_mem_nil, or_false] at hr
    rcases hr with rfl | rfl
    · exact ⟨_, .tail _ (.head _), by decide⟩
    · exact ⟨_, .tail _ (.tail _ (.head _)), by simp; omega⟩

theorem State.cutAll_reach {cause : Nat} : Reach cutFoot s (s.cutAll cause) :=
  (Reach.refl s).each fun _ _ hb => State.bankCut_reach (List.mem_range.1 hb)

/-- The trap and the interrupt of one reaction. -/
abbrev performFoot : Foot := ⟨[.regs, .marks, .por], [(0x6416, 0x6418), (0x6500, 0x6501)]⟩

theorem State.perform_reach {r : Nat} {first : Bool} : Reach performFoot s (s.perform d r first) :=
  ((Reach.refl s).then (State.raiseIf_reach_src 0)).when fun h => h.unless fun h => h.evt.when (·.set)

/-- A trap reaction, the first of its cycle, sets PEND with the source. -/
theorem State.perform_traps {r : Nat} (hr : r = 2 ∨ r = 5) (hm : s.islandUp .memory = true) :
    (s.perform d r true).get F.IRT_TRAP.PEND = 1 ∧ (s.perform d r true).get F.IRT_TRAP.PSRC = d.item.sig.src % 2 ^ 7 := by
  obtain ⟨u, hu⟩ : ∃ u, s.raiseIf (1 ≤ r && r ≠ 4) 0 = u := ⟨_, rfl⟩
  have hup : u.islandUp .memory = true :=
    (Reach.islandUp (hu ▸ State.raiseIf_reach_src 0 : Reach ⟨[.regs, .marks, .por], [(0x6417, 0x6418), (0x6500, 0x6501)]⟩ s u) .memory).trans hm
  have he : s.perform d r true = (u.evt F.IRT_TRAP.PEND).set F.IRT_TRAP.PSRC d.item.sig.src := by
    unfold State.perform
    rw [hu]
    refine (if_pos (by simpa using hr)).trans ((if_neg (by rw [hup]; decide)).trans (if_pos rfl))
  rw [he]
  exact ⟨(State.get_set_apart _ _ _ (by decide) (by decide) _).trans (State.get_evt _ _ (by decide) (by decide)),
    State.get_set_self _ _ (by decide) _⟩

/-- One finding decided with a reaction that resets nothing. -/
theorem State.decided_one (hr : d.react = 1 ∨ d.react = 2) : s.decided [d] = (s.noted d).perform d d.react true := by
  have hl : (s.noted d).limited d = false := by
    unfold State.limited
    rcases hr with h | h <;> rw [h] <;> rfl
  have hd : s.decide_ [d] = (s.noted d).reactAll [d] := rfl
  unfold State.decided
  rw [hd]
  unfold State.reactAll
  simp only [List.map_cons, List.map_nil, List.any_cons, List.any_nil, Bool.or_false, hl, Bool.false_eq_true, if_false]
  rcases hr with h | h <;> rw [h] <;> simp [State.each]

end Sys2Proof.Machine
end

section
/-! SUPPORT. The Porter: findings, their reactions, and the trap pin: O52. -/

set_option Elab.async false

namespace Sys2Proof.Machine

variable {s t u : State} {d : Decided} {g : FaultSig}

/-! ### One finding -/

/-- The state with the occurrence `g` of source `k` taken from its pair. -/
def State.pulseTaken (s : State) (k : Nat) (g : FaultSig) : State :=
  s.updPor fun p => { p with pulses := p.pulses.erase g, same := p.same.filter fun x => x ≠ k }

theorem src_of_find {l : List FaultSig} {k : Nat} (h : l.find? (fun p => p.src = k) = some g) : g.src = k := by
  simpa using List.find?_some h

/-- An occurrence waiting on the pair of a source, as an observation finds it. -/
theorem State.sample_pulse {k : Fin 128} (hf : s.por.forced = []) (hp : s.por.pulses.find? (fun p => p.src = k.val) = some g) :
    s.sample (.error k) = (if s.srcUp k && !s.por.same.contains k.val then some ⟨g, false, false⟩ else none, s.pulseTaken k g) := by
  unfold State.sample
  dsimp only
  rw [hf, hp]
  exact if_neg (by simp)

/-- An enabled occurrence is decided, with the reaction of its event. -/
theorem exec_faultEvent_found {k : Fin 128} (hs : s.islandUp .safety = true) (hv : s.sevBit k = false) (hf : s.por.forced = [])
    (hu : s.srcUp k = true) (hsame : s.por.same.contains k.val = false) (hp : s.por.pulses.find? (fun p => p.src = k.val) = some g)
    (he : s.bit (F.POR_SRCA.EN k) = true) :
    exec (.faultEvent [.error k]) s
      = .next ((s.pulseTaken k g).decided [⟨⟨g, false, false⟩, s.get (F.POR_SRCA.EVR k), false⟩]) := by
  refine congrArg Host.Outcome.next ((if_pos hs).trans ?_)
  have hl : s.sampleAll [.error k] [] = ([⟨⟨g, false, false⟩, s.get (F.POR_SRCA.EVR k), false⟩], s.pulseTaken k g) := by
    have hsam := State.sample_pulse hf hp
    rw [hu, hsame] at hsam
    unfold State.sampleAll
    simp only [List.contains_nil, Bool.false_eq_true, if_false, State.sampleAll, hsam, Bool.not_false, Bool.and_self, if_true, evSrc]
    rw [if_pos he]
    exact congrArg (fun r => ([(⟨⟨g, false, false⟩, r, false⟩ : Decided)], s.pulseTaken k g)) (if_neg (Bool.eq_false_iff.1 hv))
  rw [hl]

/-- Nothing decided changes nothing. -/
theorem State.decided_nil : s.decided [] = s := by
  simp [State.decided, State.decide_, State.reactAll, decSort, State.each]

/-- A masked occurrence is discarded. -/
theorem exec_faultEvent_masked {k : Fin 128} (hs : s.islandUp .safety = true) (hf : s.por.forced = [])
    (hp : s.por.pulses.find? (fun p => p.src = k.val) = some g) (he : s.bit (F.POR_SRCA.EN k) = false) :
    exec (.faultEvent [.error k]) s = .next (s.pulseTaken k g) := by
  refine congrArg Host.Outcome.next ((if_pos hs).trans ?_)
  have hl : s.sampleAll [.error k] [] = ([], s.pulseTaken k g) := by
    unfold State.sampleAll
    simp only [List.contains_nil, Bool.false_eq_true, if_false, State.sampleAll, State.sample_pulse hf hp, evSrc, he]
    split <;> rfl
  rw [hl]
  exact State.decided_nil

/-- A standing condition already decided gives nothing. -/
theorem exec_faultEvent_seen {k : Fin 128} (hs : s.islandUp .safety = true) (hf : s.por.forced = [])
    (hp : s.por.pulses.find? (fun p => p.src = k.val) = none) (hn : s.por.seen.contains k.val = true) :
    exec (.faultEvent [.error k]) s = .next s := by
  refine congrArg Host.Outcome.next ((if_pos hs).trans ?_)
  have hsam : s.sample (.error k) = (none, s) := by
    unfold State.sample
    dsimp only
    rw [hf, hp, hn, Bool.not_true, Bool.and_false]
    refine (if_neg (by simp)).trans ?_
    dsimp only
    split <;> rfl
  have hl : s.sampleAll [.error k] [] = ([], s) := by
    unfold State.sampleAll
    simp only [List.contains_nil, Bool.false_eq_true, if_false, State.sampleAll, hsam]
  rw [hl]
  exact State.decided_nil

/-! ### The trap pin (R379) -/

theorem htrapPin_low_iff (hr : s.running = true) : s.htrapPin = .low ↔ s.bit F.IRT_TRAP.PEND = true := by
  unfold State.htrapPin State.htrap
  rw [hr]
  cases s.bit F.IRT_TRAP.PEND <;> decide

theorem htrapPin_high_iff (hr : s.running = true) : s.htrapPin = .high ↔ s.bit F.IRT_TRAP.PEND = false := by
  unfold State.htrapPin State.htrap
  rw [hr]
  cases s.bit F.IRT_TRAP.PEND <;> decide

/-- A finding whose reaction is TRAP sets PEND with its source. -/
theorem faultEvent_traps {k : Fin 128} (hs : s.islandUp .safety = true) (hv : s.sevBit k = false) (hf : s.por.forced = [])
    (hu : s.srcUp k = true) (hsame : s.por.same.contains k.val = false) (hp : s.por.pulses.find? (fun p => p.src = k.val) = some g)
    (he : s.bit (F.POR_SRCA.EN k) = true) (hr : s.get (F.POR_SRCA.EVR k) = 2) (hm : s.islandUp .memory = true) :
    ∃ t, exec (.faultEvent [.error k]) s = .next t ∧ t.get F.IRT_TRAP.PEND = 1 ∧ t.get F.IRT_TRAP.PSRC = k
      ∧ Reach performFoot ((s.pulseTaken k g).noted ⟨⟨g, false, false⟩, 2, false⟩) t := by
  obtain ⟨w, hw⟩ : ∃ w, s.pulseTaken k g = w := ⟨_, rfl⟩
  have hx := exec_faultEvent_found hs hv hf hu hsame hp he
  rw [hr, hw, State.decided_one (.inr rfl)] at hx
  have hwm : w.islandUp .memory = true := by
    rw [← hw]
    exact hm
  obtain ⟨h1, h2⟩ := State.perform_traps (d := ⟨⟨g, false, false⟩, 2, false⟩) (.inl rfl) ((State.noted_reach (s := w).islandUp .memory).trans hwm)
  refine ⟨_, hx, h1, h2.trans ?_, by rw [hw]; exact State.perform_reach⟩
  have hk := k.isLt
  show g.src % 2 ^ 7 = k
  rw [src_of_find hp]
  exact Nat.mod_eq_of_lt hk

theorem trapClear_clears (hi : s.irtUp = true) (hn : bitOf (s.setNow R.IRT_TRAP) 0 = false) :
    GoesTo (exec .trapClear s) fun t => t.bit F.IRT_TRAP.PEND = false ∧ t.htrapPin = .high := by
  have hb : (s.set F.IRT_TRAP.PEND 0).bit F.IRT_TRAP.PEND = false := State.bit_of_get_zero (State.get_set_self _ _ (by decide) _)
  refine ⟨s.set F.IRT_TRAP.PEND 0, congrArg Host.Outcome.next (if_pos (by rw [hi, hn]; rfl)), hb, ?_⟩
  have hrun : (s.set F.IRT_TRAP.PEND 0).running = true := (Bool.and_eq_true_iff.1 hi).1
  exact (htrapPin_high_iff hrun).2 hb

/-- Settles O52: the pin is the level of PEND while the part runs, a trap reaction sets PEND, a write of 1 clears it, and a reset drives
both pins high. -/
theorem htrapFollowsPend : Obligations.HtrapFollowsPend := by
  unfold Obligations.HtrapFollowsPend
  refine ⟨fun s hr => ⟨htrapPin_low_iff hr, htrapPin_high_iff hr⟩, fun s k g hs hv hf hu hp he hr hsame hm => ?_,
    fun s => trapClear_clears, fun s h => ?_⟩
  · obtain ⟨t, hx, h1, -⟩ := faultEvent_traps hs hv hf hu hsame hp he hr hm
    exact ⟨t, hx, State.bit_of_get_one h1⟩
  · obtain ⟨k, hk⟩ := Option.isSome_iff_exists.1 h
    exact ⟨State.hirqPin_of_held hk, State.htrapPin_of_held hk⟩

end Sys2Proof.Machine
end

section
/-! SUPPORT. The Porter: decisions, counts, severe sources, forcing and the heartbeat, and O35. -/

set_option Elab.async false

namespace Sys2Proof.Machine

variable {G : Foot} {s t u : State} {d : Decided} {g : FaultSig}

theorem Reach.wvl (h : Reach G s t) (hp : G.has .wvl = false := by decide) : t.wvl = s.wvl := by
  have he := congrArg State.wvl h.parts
  rwa [Foot.put, hp] at he

/-! ### Reactions -/

theorem State.samePor_perform {r : Nat} {first : Bool} : SamePor s (s.perform d r first) := by
  unfold State.perform
  refine .ite (.ite State.samePor_raiseIf ?_) State.samePor_raiseIf
  exact State.samePor_raiseIf.trans (.ite (.of_eq ((State.set_por _ _ _).trans (State.evt_por _ _))) (.of_eq (State.evt_por _ _)))

/-- A write that clears the capture comes whether or not an occurrence has been taken. -/
theorem State.clrComes_pulseTaken {k : Nat} (h : s.comes s.clrComes = false) : (s.pulseTaken k g).comes (s.pulseTaken k g).clrComes = false := h

/-- An interrupt reaction raises source 0. -/
theorem State.perform_irq {first : Bool} : s.perform d 1 first = s.raise 0 := rfl

theorem State.count_irq_noted (hm : s.islandUp .memory = true) (hl : LostItem.irq 0 ∉ (s.noted d).por.lost) :
    ((s.noted d).raise 0).get (F.IRT_SRC.COUNT 0) = min 15 (s.get (F.IRT_SRC.COUNT 0) + 1) := by
  have h := State.noted_reach (s := s) (d := d)
  rw [State.count_raise _ 0 (by decide) ((h.islandUp .memory).trans hm) hl, h.get]

theorem faultEvent_irq {k : Fin 128} (hs : s.islandUp .safety = true) (hv : s.sevBit k = false) (hf : s.por.forced = [])
    (hu : s.srcUp k = true) (hsame : s.por.same.contains k.val = false) (hq : s.comes s.clrComes = false)
    (hp : s.por.pulses.find? (fun p => p.src = k.val) = some g) (he : s.bit (F.POR_SRCA.EN k) = true)
    (hr : s.get (F.POR_SRCA.EVR k) = 1) (hfv : s.bit F.POR_FIRST.VALID = false) (hcap : s.get F.POR_GCFG.CAPMIN ≤ 1)
    (hm : s.islandUp .memory = true) (hl : s.por.lost.contains (.irq 0) = false) :
    GoesTo (exec (.faultEvent [.error k]) s) fun t =>
      t.bit F.POR_FIRST.VALID = true ∧ t.get F.POR_FIRST.SRC = k ∧ t.get F.POR_FIRST.REACT = 1 ∧ t.bit F.POR_FIRST.SEV = false
      ∧ t.bit F.POR_FIRST.INTEG = false ∧ t.get F.POR_FDET.DET = g.det % 2 ^ F.POR_FDET.DET.len
      ∧ t.por.countQ = s.por.countQ ++ [⟨g, false, false⟩] ∧ t.por.pulses = s.por.pulses.erase g
      ∧ t.get (F.IRT_SRC.COUNT 0) = min 15 (s.get (F.IRT_SRC.COUNT 0) + 1) ∧ t.bit F.POR_STAT.SAFE = s.bit F.POR_STAT.SAFE := by
  obtain ⟨w, hw⟩ : ∃ w, s.pulseTaken k g = w := ⟨_, rfl⟩
  obtain ⟨d, hd⟩ : ∃ d : Decided, (⟨⟨g, false, false⟩, 1, false⟩ : Decided) = d := ⟨_, rfl⟩
  have hx := exec_faultEvent_found hs hv hf hu hsame hp he
  rw [hr, hw, hd, State.decided_one (hd ▸ .inl rfl)] at hx
  have hreact : d.react = 1 := hd ▸ rfl
  have hwg (f : Fld) : w.get f = s.get f := State.get_of_regs (hw ▸ rfl) f
  have hwq : w.comes w.clrComes = false := hw ▸ State.clrComes_pulseTaken hq
  have hwm : w.islandUp .memory = true := hw ▸ hm
  have hwp : w.por = { s.por with pulses := s.por.pulses.erase g, same := s.por.same.filter fun x => x ≠ k.val } := hw ▸ rfl
  have hwv : w.bit F.POR_FIRST.VALID = false := (State.bit_eq_of_get (hwg _)).trans hfv
  obtain ⟨h1, h2, h3, h4, h5, h6⟩ := State.noted_takes (s := w) (d := d) hwq hwv (by rw [hwg, hreact]; exact hcap)
  obtain ⟨hpor, hlost⟩ := State.por_noted (s := w) (d := d) hwq (hd ▸ rfl)
  have hnl : LostItem.irq 0 ∉ (w.noted d).por.lost := fun h => by
    have := hlost _ h
    rw [hwp] at this
    exact absurd (List.contains_iff_mem.2 this) (by rw [hl]; decide)
  have ht : (w.noted d).perform d d.react true = (w.noted d).raise 0 := by
    rw [hreact]
    rfl
  have hr0 := State.raise_reach_src (s := w.noted d) 0
  have hsp : SamePor (w.noted d) ((w.noted d).raise 0) := State.samePor_raise
  have hk : g.src % 2 ^ 7 = k := (src_of_find hp).symm ▸ Nat.mod_eq_of_lt k.isLt
  rw [ht] at hx
  refine ⟨_, hx, State.bit_of_get_one (hr0.get.trans h1), hr0.get.trans (h2.trans (hd ▸ hk)), hr0.get.trans (h3.trans (hd ▸ rfl)),
    State.bit_of_get_zero (hr0.get.trans (h4.trans (hd ▸ rfl))), State.bit_of_get_zero (hr0.get.trans (h5.trans (hd ▸ rfl))),
    hr0.get.trans (h6.trans (hd ▸ rfl)), ?_, ?_, ?_, ?_⟩
  · rw [hsp.fields, hpor, hwp, ← hd]
  · rw [hsp.fields, hpor, hwp]
  · rw [State.count_irq_noted hwm hnl, hwg]
  · exact State.bit_eq_of_get (hr0.get.trans (State.noted_reach.get.trans (hwg _)))

theorem faultEvent_trap {k : Fin 128} (hs : s.islandUp .safety = true) (hv : s.sevBit k = false) (hf : s.por.forced = [])
    (hu : s.srcUp k = true) (hsame : s.por.same.contains k.val = false) (hq : s.comes s.clrComes = false)
    (hp : s.por.pulses.find? (fun p => p.src = k.val) = some g) (he : s.bit (F.POR_SRCA.EN k) = true)
    (hr : s.get (F.POR_SRCA.EVR k) = 2) (hm : s.islandUp .memory = true) :
    GoesTo (exec (.faultEvent [.error k]) s) fun t =>
      t.bit F.IRT_TRAP.PEND = true ∧ t.get F.IRT_TRAP.PSRC = k ∧ t.htrap = true ∧ t.por.countQ = s.por.countQ ++ [⟨g, false, false⟩] := by
  obtain ⟨t, hx, h1, h2, -⟩ := faultEvent_traps hs hv hf hu hsame hp he hr hm
  obtain ⟨w, hw⟩ : ∃ w, s.pulseTaken k g = w := ⟨_, rfl⟩
  have hx' := exec_faultEvent_found hs hv hf hu hsame hp he
  rw [hr, hw, State.decided_one (.inr rfl)] at hx'
  have ht : t = (w.noted ⟨⟨g, false, false⟩, 2, false⟩).perform ⟨⟨g, false, false⟩, 2, false⟩ 2 true :=
    Host.Outcome.next.inj (hx.symm.trans hx')
  have hwq : w.comes w.clrComes = false := hw ▸ State.clrComes_pulseTaken hq
  have hb := State.bit_of_get_one h1
  refine ⟨t, hx, hb, h2, hb, ?_⟩
  rw [ht, State.samePor_perform.fields, (State.por_noted hwq rfl).1, ← hw]
  rfl

/-- A chip reset decided. -/
theorem State.decided_creset (hr : d.react = 4) (hl : (s.noted d).limited d = false) (hs : s.safe = false) :
    s.decided [d] = ((s.noted d).inc F.POR_STAT.RSTCNT).chipReset .porter := by
  have hsafe : (s.noted d).safe = false := (State.noted_reach (s := s) (d := d)).bit.trans hs
  have hd : s.decide_ [d] = (s.noted d).reactAll [d] := rfl
  unfold State.decided
  rw [hd]
  unfold State.reactAll
  simp [hl, hsafe, hr, State.each]

/-- Safe state entered, and the trap. -/
theorem State.decided_safe (hr : d.react = 5) :
    s.decided [d] = ((s.noted d).safeEnter d.item.sig.src).perform d 5 true := by
  have hl : (s.noted d).limited d = false := by
    unfold State.limited
    rw [hr]
    rfl
  have hd : s.decide_ [d] = (s.noted d).reactAll [d] := rfl
  unfold State.decided
  rw [hd]
  unfold State.reactAll
  simp [hl, hr, State.each]

/-! ### Resets and safe state -/

/-- The NVS writes under way and waiting. -/
def SameNv (s t : State) : Prop := t.hal.running = s.hal.running ∧ t.hal.waiting = s.hal.waiting

theorem SameNv.of_eq (h : t.hal = s.hal) : SameNv s t := ⟨congrArg _ h, congrArg _ h⟩

theorem SameNv.trans (h : SameNv s t) (h' : SameNv t u) : SameNv s u := ⟨h'.1.trans h.1, h'.2.trans h.2⟩

theorem State.sameNv_logOffer {r : LogRec} : SameNv s (s.logOffer r) := by
  unfold State.logOffer
  split
  · exact ⟨rfl, rfl⟩
  · exact .of_eq ((State.raise_hal _ _).trans (State.evtInc_hal _ _))

theorem State.sameNv_noted : SameNv s (s.noted d) := by
  have h1 : SameNv s (s.clrAhead.capture d) := by
    have ha : SameNv s s.clrAhead := by
      unfold State.clrAhead
      split
      · exact .of_eq (State.capClear_reach.hal)
      · exact ⟨rfl, rfl⟩
    refine ha.trans ?_
    unfold State.capture
    dsimp only
    split_ifs
    · exact .of_eq (State.secondSet_reach.hal.trans State.captureTake_reach.hal)
    · exact .of_eq ((State.set_hal _ _ _).trans ((State.inc_hal _ _).trans State.secondSet_reach.hal))
    · exact .of_eq State.captureTake_reach.hal
    · exact ⟨rfl, rfl⟩
  obtain ⟨v, hv⟩ : ∃ v, s.clrAhead.capture d = v := ⟨_, rfl⟩
  have h2 : SameNv v (v.logEvent d) := by
    unfold State.logEvent
    dsimp only
    split
    · exact State.sameNv_logOffer
    · exact ⟨rfl, rfl⟩
  rw [hv] at h1
  unfold State.noted
  rw [hv]
  dsimp only
  split
  · exact h1.trans h2
  · exact h1.trans h2

/-- A chip reset leaves NVS where no write is under way and no load waits. -/
theorem State.nvs_chipReset_porter (hr : s.hal.running = none) (hw : s.hal.waiting = []) (hl : s.wvl.load = none) :
    (s.chipReset .porter).nvs = s.nvs := by
  have h1 : s.nvCut = s := by
    unfold State.nvCut
    rw [hr]
  have he (i : Fin 2) : s.slotErasing i = false := by
    unfold State.slotErasing
    rw [hr, hw]
    rfl
  have h2 : s.slotCut = s := by
    simp [State.slotCut, State.each, hl, he]
  unfold State.chipReset
  simp only [h1, h2]
  rfl

theorem faultEvent_creset {k : Fin 128} (hs : s.islandUp .safety = true) (hv : s.sevBit k = false) (hf : s.por.forced = [])
    (hu : s.srcUp k = true) (hsame : s.por.same.contains k.val = false) (hp : s.por.pulses.find? (fun p => p.src = k.val) = some g)
    (he : s.bit (F.POR_SRCA.EN k) = true) (hr : s.get (F.POR_SRCA.EVR k) = 4)
    (hlim : s.get F.POR_GCFG.RSTLIM = 0 ∨ s.get F.POR_STAT.RSTCNT < s.get F.POR_GCFG.RSTLIM) (hsafe : s.safe = false) :
    GoesTo (exec (.faultEvent [.error k]) s) fun t =>
      t.pcr.held = some .porter ∧ t.get F.POR_STAT.RSTCNT = satAdd (s.get F.POR_STAT.RSTCNT) 1 (2 ^ F.POR_STAT.RSTCNT.len - 1)
      ∧ (s.hal.running = none → s.hal.waiting = [] → s.wvl.load = none → t.nvs = s.nvs) := by
  obtain ⟨w, hw⟩ : ∃ w, s.pulseTaken k g = w := ⟨_, rfl⟩
  obtain ⟨d, hd⟩ : ∃ d : Decided, (⟨⟨g, false, false⟩, 4, false⟩ : Decided) = d := ⟨_, rfl⟩
  have hn := State.noted_reach (s := w) (d := d)
  have hwg (f : Fld) : w.get f = s.get f := State.get_of_regs (hw ▸ rfl) f
  have hcnt : (w.noted d).get F.POR_STAT.RSTCNT = s.get F.POR_STAT.RSTCNT := hn.get.trans (hwg _)
  have hl : (w.noted d).limited d = false := by
    unfold State.limited
    rw [hcnt, hn.get, hwg]
    rcases hlim with h | h
    · simp [h]
    · simp [h]
  have hx := exec_faultEvent_found hs hv hf hu hsame hp he
  rw [hr, hw, hd, State.decided_creset (hd ▸ rfl) hl ((State.bit_eq_of_get (hwg _)).trans hsafe)] at hx
  obtain ⟨y, hy⟩ : ∃ y, (w.noted d).inc F.POR_STAT.RSTCNT = y := ⟨_, rfl⟩
  rw [hy] at hx
  refine ⟨_, hx, (y.pcr_chipReset .porter).1, y.get_rstcnt_chipReset_porter.trans ?_, fun h1 h2 h3 => ?_⟩
  · rw [← hy]
    exact (State.get_set_satAdd (w.noted d) _ F.POR_STAT.RSTCNT (by decide) 1).trans (by rw [hcnt])
  · obtain ⟨hrun, hwait⟩ := State.sameNv_noted (s := w) (d := d)
    have hyh : y.hal = (w.noted d).hal := hy ▸ rfl
    refine (State.nvs_chipReset_porter ?_ ?_ ?_).trans ?_
    · rw [hyh, hrun, ← hw]
      exact h1
    · rw [hyh, hwait, ← hw]
      exact h2
    · have hyw : y.wvl = s.wvl := by
        rw [← hy]
        exact hn.wvl.trans (hw ▸ rfl)
      rw [hyw]
      exact h3
    · rw [← hy]
      exact hn.nvs.trans (hw ▸ rfl)

end Sys2Proof.Machine
end

section
/-! SUPPORT. The Porter: safe state, counts, severe sources, forcing and the heartbeat, and O35. -/

set_option Elab.async false

namespace Sys2Proof.Machine

variable {G : Foot} {s t u : State} {d : Decided} {g : FaultSig}

/-! ### Safe state -/

/-- Safe state entered: its flag and its source, then the cut of every bank, which change neither. -/
theorem State.safeEnter_gives (hs : s.safe = false) (k : Nat) :
    (s.safeEnter k).get F.POR_STAT.SAFE = 1 ∧ (s.safeEnter k).get F.POR_STAT.SSRC = k % 2 ^ 7 ∧ (s.safeEnter k).por.alive = false
      ∧ (s.safeEnter k).islandUp .memory = s.islandUp .memory := by
  obtain ⟨u, hu⟩ : ∃ u, (s.set F.POR_STAT.SAFE 1).set F.POR_STAT.SSRC k = u := ⟨_, rfl⟩
  obtain ⟨v, hv⟩ : ∃ v, (u.raise 2).cutAll 2 = v := ⟨_, rfl⟩
  have he : s.safeEnter k = v.updPor fun p => { p with alive := false } := by
    unfold State.safeEnter
    rw [if_neg (by rw [hs]; decide), hu]
    exact congrArg (State.updPor · _) hv
  have h : Reach ⟨[.regs, .marks, .por, .inj], [(0x3000, 0x3400), (0x6417, 0x6418), (0x6502, 0x6503), (0x65D0, 0x65E0)]⟩ u (s.safeEnter k) := by
    rw [he, ← hv]
    exact (((Reach.refl u).then (State.raise_reach_src 2)).then State.cutAll_reach).then State.updPor_reach
  refine ⟨h.get.trans ?_, h.get.trans ?_, by rw [he]; rfl, (h.islandUp .memory).trans ?_⟩
  · rw [← hu]
    exact (State.get_set_apart _ _ _ (by decide) (by decide) _).trans (State.get_set_self _ _ (by decide) _)
  · rw [← hu]
    exact State.get_set_self _ _ (by decide) _
  · have hset : Reach ⟨[.regs], [(0x7000, 0x7001)]⟩ s u := hu ▸ ((Reach.refl s).set).set
    exact hset.islandUp .memory

theorem faultEvent_safe {k : Fin 128} (hs : s.islandUp .safety = true) (hv : s.sevBit k = false) (hf : s.por.forced = [])
    (hu : s.srcUp k = true) (hsame : s.por.same.contains k.val = false) (hp : s.por.pulses.find? (fun p => p.src = k.val) = some g)
    (he : s.bit (F.POR_SRCA.EN k) = true) (hr : s.get (F.POR_SRCA.EVR k) = 5) (hsafe : s.safe = false) :
    GoesTo (exec (.faultEvent [.error k]) s) fun t =>
      t.safe = true ∧ t.get F.POR_STAT.SSRC = k ∧ GatesOff t ∧ t.por.alive = false
        ∧ (s.islandUp .memory = true → t.bit F.IRT_TRAP.PEND = true) := by
  obtain ⟨w, hw⟩ : ∃ w, s.pulseTaken k g = w := ⟨_, rfl⟩
  obtain ⟨d, hd⟩ : ∃ d : Decided, (⟨⟨g, false, false⟩, 5, false⟩ : Decided) = d := ⟨_, rfl⟩
  have hx := exec_faultEvent_found hs hv hf hu hsame hp he
  rw [hr, hw, hd, State.decided_safe (hd ▸ rfl)] at hx
  have hn := State.noted_reach (s := w) (d := d)
  have hws : w.safe = false := hw ▸ hsafe
  have hwm : w.islandUp .memory = s.islandUp .memory := hw ▸ rfl
  obtain ⟨h1, h2, h3, h4⟩ := (w.noted d).safeEnter_gives (hn.bit.trans hws) d.item.sig.src
  obtain ⟨y, hy⟩ : ∃ y, (w.noted d).safeEnter d.item.sig.src = y := ⟨_, rfl⟩
  rw [hy] at h1 h2 h3 h4 hx
  have hpf := State.perform_reach (s := y) (d := d) (r := 5) (first := true)
  have hk : d.item.sig.src % 2 ^ 7 = k := by
    rw [← hd]
    exact (src_of_find hp).symm ▸ Nat.mod_eq_of_lt k.isLt
  have hsafe' : (y.perform d 5 true).safe = true := State.bit_of_get_one (hpf.get.trans h1)
  refine ⟨_, hx, hsafe', hpf.get.trans (h2.trans hk), gatesOff_of_safe hsafe', ?_, fun hm => ?_⟩
  · rw [State.samePor_perform.fields]
    exact h3
  · exact State.bit_of_get_one (State.perform_traps (.inr rfl) (h4.trans ((hn.islandUp .memory).trans (hwm.trans hm)))).1

/-! ### Counts (R410, R411) -/

theorem exec_faultCount {c : CountItem} {l : List CountItem} (hm : s.islandUp .management = true) (hc : s.comes s.sevComes = false)
    (hq : s.por.countQ = c :: l) : exec .faultCount s = .next ((s.updPor fun p => { p with countQ := l }).count c) := by
  refine congrArg Host.Outcome.next ((if_pos hm).trans ((if_neg (by rw [hc]; decide)).trans ?_))
  unfold State.countNext
  rw [hq]

/-- A window that does not close at a count. -/
theorem State.winClose_open {k : Nat} (h : ∀ e, s.por.ages.find? (fun e => e.1 = k) = some e → e.2 < s.porW k) : s.winClose k = s := by
  unfold State.winClose
  split
  · rfl
  · next e he =>
    have hlt := h e he
    exact if_neg (by simp; omega)

/-- The total after a count, and what it leaves of the window's count. -/
theorem State.evtInc_total (s : State) (k : Nat) :
    (s.evtInc (F.POR_CNT.TOTAL k)).get (F.POR_CNT.TOTAL k) = satAdd (s.get (F.POR_CNT.TOTAL k)) 1 (2 ^ 12 - 1)
      ∧ (s.evtInc (F.POR_CNT.TOTAL k)).get (F.POR_CNT.WCNT k) = s.get (F.POR_CNT.WCNT k)
      ∧ (s.evtInc (F.POR_CNT.TOTAL k)).por = s.por
      ∧ Reach ⟨[.regs, .marks], [(R.POR_CNT k, R.POR_CNT k + 1)]⟩ s (s.evtInc (F.POR_CNT.TOTAL k)) :=
  ⟨State.get_set_satAdd s _ (F.POR_CNT.TOTAL k) (by simp [F.POR_CNT.TOTAL]) 1,
    State.get_evtInc_apart _ _ _ (by simp [F.POR_CNT.TOTAL]) (fun _ => .inr (by simp [F.POR_CNT.TOTAL, F.POR_CNT.WCNT])),
    State.evtInc_por _ _, (Reach.refl s).evtAdd (Foot.holds_iff.2 ⟨_, .head _, by simp [F.POR_CNT.TOTAL]⟩) rfl rfl⟩

theorem mem_cellIns {α : Type} (a : Nat) (v : α) (l : List (Nat × α)) : (a, v) ∈ cellIns a v l := by
  induction l with
  | nil => exact .head _
  | cons x l ih =>
    unfold cellIns
    split
    · exact .head _
    · exact .tail _ ih

theorem ne_of_mem_cellDel {α : Type} {a : Nat} {l : List (Nat × α)} {e : Nat × α} (h : e ∈ cellDel a l) : e.1 ≠ a := by
  induction l with
  | nil => cases h
  | cons x l ih =>
    unfold cellDel at h
    split at h
    · exact ih h
    · next hx =>
      rcases List.mem_cons.1 h with rfl | h
      · exact hx
      · exact ih h

/-- The count that opens a window. -/
theorem State.count_opens {k : Nat} (hk : k < 128) (c : CountItem) (hc : c.sig.src = k) (ha : s.por.ages.find? (fun e => e.1 = k) = none)
    (hw : s.get (F.POR_CNT.WCNT k) = 0) (hn : 1 < s.get (F.POR_SRCA.N k)) :
    s.count c = (((s.evtInc (F.POR_CNT.TOTAL k)).set (F.POR_CNT.WCNT k) 1).updPor fun p => { p with ages := cellIns k 0 (cellDel k p.ages) }) := by
  have hsrc : c.sig.src % 128 = k := hc ▸ Nat.mod_eq_of_lt (hc ▸ hk)
  obtain ⟨u, hu⟩ : ∃ u, s.evtInc (F.POR_CNT.TOTAL k) = u := ⟨_, rfl⟩
  obtain ⟨-, h2, -, h4⟩ := s.evtInc_total k
  rw [hu] at h2 h4
  obtain ⟨v, hv⟩ : ∃ v, (u.set (F.POR_CNT.WCNT k) 1).updPor (fun p => { p with ages := cellIns k 0 (cellDel k p.ages) }) = v := ⟨_, rfl⟩
  have hvw : v.get (F.POR_CNT.WCNT k) = 1 := by
    rw [← hv]
    exact State.get_set_self u (F.POR_CNT.WCNT k) (by simp [F.POR_CNT.WCNT]) 1
  have hvn : v.get (F.POR_SRCA.N k) = s.get (F.POR_SRCA.N k) := by
    rw [← hv]
    refine (State.get_set_addr u (F.POR_CNT.WCNT k) (F.POR_SRCA.N k) (by simp [F.POR_CNT.WCNT, F.POR_SRCA.N, R.POR_CNT, R.POR_SRCA]) 1).trans ?_
    exact h4.get (Foot.holds_false_iff.2 (by simp [F.POR_SRCA.N, R.POR_CNT, R.POR_SRCA]))
  unfold State.count
  dsimp only
  rw [hsrc, State.winClose_open (by rw [ha]; exact nofun), hu, if_pos (show u.get (F.POR_CNT.WCNT k) = 0 from h2.trans hw), hv]
  refine if_neg ?_
  have hlt : ¬v.porN k ≤ v.get (F.POR_CNT.WCNT k) := by
    unfold State.porN
    rw [hvw, hvn]
    omega
  simp [hlt]

theorem faultCount_opens {k : Fin 128} {c : CountItem} {l : List CountItem} (hm : s.islandUp .management = true)
    (hc : s.comes s.sevComes = false) (hq : s.por.countQ = c :: l) (hsrc : c.sig.src = k.val)
    (ha : s.por.ages.find? (fun e => e.1 = k.val) = none) (hw : s.get (F.POR_CNT.WCNT k) = 0) (hn : 1 < s.get (F.POR_SRCA.N k)) :
    GoesTo (exec .faultCount s) fun t =>
      t.get (F.POR_CNT.TOTAL k) = satAdd (s.get (F.POR_CNT.TOTAL k)) 1 (2 ^ (F.POR_CNT.TOTAL k).len - 1) ∧ t.get (F.POR_CNT.WCNT k) = 1
      ∧ (k.val, 0) ∈ t.por.ages ∧ t.por.countQ = l ∧ t.por.sevQ = s.por.sevQ ∧ SameRegs (fun a => a = R.POR_CNT k) s t := by
  obtain ⟨w, hwd⟩ : ∃ w, s.updPor (fun p => { p with countQ := l }) = w := ⟨_, rfl⟩
  have hwg (f : Fld) : w.get f = s.get f := State.get_of_regs (hwd ▸ rfl) f
  have hwp : w.por = { s.por with countQ := l } := hwd ▸ rfl
  obtain ⟨h1, -, h3, h4⟩ := w.evtInc_total k
  obtain ⟨u, hu⟩ : ∃ u, w.evtInc (F.POR_CNT.TOTAL k) = u := ⟨_, rfl⟩
  have he := State.count_opens (s := w) k.isLt c hsrc (by rw [hwp]; exact ha) (by rw [hwg]; exact hw) (by rw [hwg]; exact hn)
  rw [hu] at he h1 h3 h4
  have hx := exec_faultCount hm hc hq
  rw [hwd, he] at hx
  refine ⟨_, hx, ?_, ?_, mem_cellIns _ _ _, ?_, ?_, fun a ha => ?_⟩
  · refine (State.get_set_disj u (F.POR_CNT.WCNT k) (F.POR_CNT.TOTAL k) rfl (by simp [F.POR_CNT.WCNT]) (.inl (by simp [F.POR_CNT.WCNT, F.POR_CNT.TOTAL])) 1).trans ?_
    rw [h1, hwg]
    rfl
  · exact State.get_set_self u (F.POR_CNT.WCNT k) (by simp [F.POR_CNT.WCNT]) 1
  · exact (congrArg Por.countQ h3).trans (by rw [hwp])
  · exact (congrArg Por.sevQ h3).trans (by rw [hwp])
  · refine (State.reg_set u (F.POR_CNT.WCNT k) 1 a ha).trans ((h4.reg a (Foot.holds_false_iff.2 (by simp; omega))).trans ?_)
    rw [← hwd]
    rfl

/-- The count that makes a source severe. -/
theorem State.count_severe {k : Nat} (hk : k < 128) (c : CountItem) (hc : c.sig.src = k)
    (ha : ∀ e, s.por.ages.find? (fun e => e.1 = k) = some e → e.2 < s.porW k) (hw : s.get (F.POR_CNT.WCNT k) ≠ 0)
    (hn : s.porN k ≤ s.get (F.POR_CNT.WCNT k) + 1) (hlt : s.get (F.POR_CNT.WCNT k) < 255) (hsev : s.sevBit k = false) {u : State}
    (hu : (s.evtInc (F.POR_CNT.TOTAL k)).inc (F.POR_CNT.WCNT k) = u) :
    s.count c = (((u.evtAt (F.POR_SEV (k / 16)) (k % 16)).raise 1).updPor fun p => { p with sevQ := p.sevQ ++ [c] })
      ∧ u.get (F.POR_CNT.WCNT k) = s.get (F.POR_CNT.WCNT k) + 1 ∧ u.por = s.por
      ∧ Reach ⟨[.regs, .marks], [(R.POR_CNT k, R.POR_CNT k + 1)]⟩ s u := by
  have hsrc : c.sig.src % 128 = k := hc ▸ Nat.mod_eq_of_lt (hc ▸ hk)
  obtain ⟨v, hv⟩ : ∃ v, s.evtInc (F.POR_CNT.TOTAL k) = v := ⟨_, rfl⟩
  obtain ⟨-, h2, h3, h4⟩ := s.evtInc_total k
  rw [hv] at h2 h3 h4 hu
  have hr : Reach ⟨[.regs, .marks], [(R.POR_CNT k, R.POR_CNT k + 1)]⟩ s u :=
    hu ▸ h4.set (f := F.POR_CNT.WCNT k) (Foot.holds_iff.2 ⟨_, .head _, by simp [F.POR_CNT.WCNT]⟩) rfl
  have huw : u.get (F.POR_CNT.WCNT k) = s.get (F.POR_CNT.WCNT k) + 1 := by
    rw [← hu]
    refine (State.get_set_satAdd v v (F.POR_CNT.WCNT k) (by simp [F.POR_CNT.WCNT]) 1).trans ?_
    rw [h2]
    exact if_neg (show ¬255 < s.get (F.POR_CNT.WCNT k) + 1 by omega)
  have huN : u.porN k = s.porN k :=
    congrArg (max 1) (hr.get (Foot.holds_false_iff.2 (by simp [F.POR_SRCA.N, R.POR_CNT, R.POR_SRCA])))
  have hus : u.sevBit k = false :=
    (congrArg (bitOf · (k % 16)) (hr.get (Foot.holds_false_iff.2 (by simp [F.POR_SEV, R.POR_CNT, R.POR_SEV]; omega)))).trans hsev
  refine ⟨?_, huw, hu ▸ h3, hr⟩
  unfold State.count
  dsimp only
  rw [hsrc, State.winClose_open ha, hv, if_neg (show ¬v.get (F.POR_CNT.WCNT k) = 0 from fun h => hw (h2.symm.trans h)), hu]
  exact if_pos (by rw [huN, huw, decide_eq_true hn, hus]; rfl)

theorem faultCount_severe {k : Fin 128} {c : CountItem} {l : List CountItem} {a : Nat} (hm : s.islandUp .management = true)
    (hc : s.comes s.sevComes = false) (hq : s.por.countQ = c :: l) (hsrc : c.sig.src = k.val)
    (ha : s.por.ages.find? (fun e => e.1 = k.val) = some (k.val, a)) (hw : a < s.porW k) (hn0 : s.get (F.POR_CNT.WCNT k) ≠ 0)
    (hn : s.porN k ≤ s.get (F.POR_CNT.WCNT k) + 1) (hlt : s.get (F.POR_CNT.WCNT k) < 255) (hsev : s.sevBit k = false)
    (hmem : s.islandUp .memory = true) (hl : s.por.lost.contains (.irq 1) = false) :
    GoesTo (exec .faultCount s) fun t =>
      t.get (F.POR_CNT.WCNT k) = s.get (F.POR_CNT.WCNT k) + 1 ∧ t.sevBit k = true ∧ t.por.sevQ = s.por.sevQ ++ [c] ∧ t.por.countQ = l
        ∧ t.get (F.IRT_SRC.COUNT 1) = min 15 (s.get (F.IRT_SRC.COUNT 1) + 1) := by
  obtain ⟨w, hwd⟩ : ∃ w, s.updPor (fun p => { p with countQ := l }) = w := ⟨_, rfl⟩
  have hwg (f : Fld) : w.get f = s.get f := State.get_of_regs (hwd ▸ rfl) f
  have hwp : w.por = { s.por with countQ := l } := hwd ▸ rfl
  obtain ⟨u, hu⟩ : ∃ u, (w.evtInc (F.POR_CNT.TOTAL k)).inc (F.POR_CNT.WCNT k) = u := ⟨_, rfl⟩
  have hage (e : Nat × Nat) (h : w.por.ages.find? (fun e => e.1 = k.val) = some e) : e.2 < w.porW k := by
    rw [hwp] at h
    have he : e = (k.val, a) := Option.some.inj (h.symm.trans ha)
    have hW : w.porW k = s.porW k := congrArg (max 1) (hwg _)
    rw [he, hW]
    exact hw
  obtain ⟨he, h1, h2, h3⟩ := State.count_severe (s := w) k.isLt c hsrc hage (by rw [hwg]; exact hn0)
    (by rw [hwg]; exact (congrArg (max 1) (hwg _)).trans_le hn) (by rw [hwg]; exact hlt)
    ((congrArg (bitOf · (k % 16)) (hwg _)).trans hsev) hu
  obtain ⟨v, hv⟩ : ∃ v, u.evtAt (F.POR_SEV (k / 16)) (k % 16) = v := ⟨_, rfl⟩
  have hx := exec_faultCount hm hc hq
  rw [hwd, he, hv] at hx
  have hvr : Reach ⟨[.regs, .marks], [(0x7020, 0x7028)]⟩ u v :=
    hv ▸ (Reach.refl u).evtAt (Foot.holds_iff.2 ⟨_, .head _, by simp [F.POR_SEV, R.POR_SEV]; omega⟩)
  have hvp : v.por = { s.por with countQ := l } := by
    rw [← hv]
    exact (State.evtAt_por _ _ _).trans (h2.trans hwp)
  have hrr := State.raise_reach_src (s := v) 1
  have hsp : SamePor v (v.raise 1) := State.samePor_raise
  have hup : v.islandUp .memory = true := by
    rw [hvr.islandUp .memory, h3.islandUp .memory rfl (Foot.holds_false_iff.2 (by simp [R.PCR_STAT, R.POR_CNT]; omega)), ← hwd]
    exact hmem
  have hnl : LostItem.irq 1 ∉ v.por.lost := fun h => by
    rw [hvp] at h
    exact absurd (List.contains_iff_mem.2 h) (by rw [hl]; decide)
  refine ⟨_, hx, ?_, ?_, ?_, ?_, ?_⟩
  · exact (hrr.get (Foot.holds_false_iff.2 (by simp [F.POR_CNT.WCNT, R.POR_CNT]; omega))).trans
      ((hvr.get (Foot.holds_false_iff.2 (by simp [F.POR_CNT.WCNT, R.POR_CNT]; omega))).trans (h1.trans (by rw [hwg])))
  · refine (congrArg (bitOf · (k % 16)) (hrr.get (Foot.holds_false_iff.2 (by simp [F.POR_SEV, R.POR_SEV]; omega)))).trans ?_
    rw [← hv]
    exact State.bitOf_evtAt _ _ (by simp [F.POR_SEV]) (Nat.mod_lt _ (by decide))
  · show ((v.raise 1).por.sevQ ++ [c]) = _
    rw [hsp.fields, hvp]
  · show (v.raise 1).por.countQ = l
    rw [hsp.fields, hvp]
  · refine (State.count_raise v 1 (by decide) hup hnl).trans ?_
    rw [hvr.get, h3.get (Foot.holds_false_iff.2 (by simp [F.IRT_SRC.COUNT, R.IRT_SRC, R.POR_CNT]; omega)), hwg]

end Sys2Proof.Machine
end

section
/-! SUPPORT. The Porter: notices, windows, forcing, the clears, the heartbeat and ALIVE, and O35. -/

set_option Elab.async false

namespace Sys2Proof.Machine

variable {G : Foot} {s t u : State} {d : Decided} {g : FaultSig}

/-! ### Severe notices -/

theorem severeNotice_irq {k : Fin 128} {c : CountItem} {l : List CountItem} (hs : s.islandUp .safety = true) (hq : s.por.sevQ = c :: l)
    (hsrc : c.sig.src = k.val) (hr : s.get (F.POR_SRCA.SEVR k) = 1) (hfv : s.bit F.POR_FIRST.VALID = false)
    (hcap : s.get F.POR_GCFG.CAPMIN ≤ 1) (hc : s.comes s.clrComes = false) (hm : s.islandUp .memory = true)
    (hl : s.por.lost.contains (.irq 0) = false) :
    GoesTo (exec .severeNotice s) fun t =>
      t.por.sevQ = l ∧ t.por.countQ = s.por.countQ ∧ t.bit F.POR_FIRST.SEV = true ∧ t.get F.POR_FIRST.SRC = k
        ∧ t.get (F.IRT_SRC.COUNT 0) = min 15 (s.get (F.IRT_SRC.COUNT 0) + 1) := by
  obtain ⟨w, hw⟩ : ∃ w, s.updPor (fun p => { p with sevQ := l }) = w := ⟨_, rfl⟩
  obtain ⟨d, hd⟩ : ∃ d : Decided, (⟨c, 1, true⟩ : Decided) = d := ⟨_, rfl⟩
  have hreact : d.react = 1 := hd ▸ rfl
  have hx : exec .severeNotice s = .next ((w.noted d).raise 0) := by
    refine congrArg Host.Outcome.next ((if_pos hs).trans ?_)
    rw [hq]
    dsimp only
    rw [hsrc, hr, hw, hd, State.decided_one (.inl hreact), hreact]
    rfl
  have hwg (f : Fld) : w.get f = s.get f := State.get_of_regs (hw ▸ rfl) f
  have hwq : w.comes w.clrComes = false := hw ▸ hc
  have hwm : w.islandUp .memory = true := hw ▸ hm
  have hwp : w.por = { s.por with sevQ := l } := hw ▸ rfl
  obtain ⟨-, h2, -, h4, -, -⟩ := State.noted_takes (s := w) (d := d) hwq ((State.bit_eq_of_get (hwg _)).trans hfv)
    (by rw [hwg, hreact]; exact hcap)
  have hsp := State.samePor_noted (s := w) (d := d) hwq (hd ▸ rfl)
  have hnl : LostItem.irq 0 ∉ (w.noted d).por.lost := fun h => by
    have := hsp.lost _ h
    rw [hwp] at this
    exact absurd (List.contains_iff_mem.2 this) (by rw [hl]; decide)
  have hr0 := State.raise_reach_src (s := w.noted d) 0
  have hpor : SamePor w ((w.noted d).raise 0) := hsp.trans State.samePor_raise
  have hk : d.item.sig.src % 2 ^ 7 = k := by
    rw [← hd]
    exact hsrc ▸ Nat.mod_eq_of_lt (hsrc ▸ k.isLt)
  refine ⟨_, hx, ?_, ?_, State.bit_of_get_one (hr0.get.trans (h4.trans (hd ▸ rfl))), hr0.get.trans (h2.trans hk), ?_⟩
  · rw [hpor.fields, hwp]
  · rw [hpor.fields, hwp]
  · rw [State.count_irq_noted hwm hnl, hwg]

/-! ### Windows -/

theorem porterWindowClose_closes {k : Fin 128} {a : Nat} (hm : s.islandUp .management = true)
    (ha : s.por.ages.find? (fun e => e.1 = k.val) = some (k.val, a)) (hw : s.porW k ≤ a) (hv : s.sevBit k = false) :
    GoesTo (exec (.porterWindowClose k) s) fun t =>
      t.get (F.POR_CNT.WCNT k) = 0 ∧ t.get (F.POR_CNT.TOTAL k) = s.get (F.POR_CNT.TOTAL k) ∧ SameRegs (fun a => a = R.POR_CNT k) s t
        ∧ ∀ e, e ∈ t.por.ages → e.1 ≠ k := by
  have hc : s.winClose k = (s.set (F.POR_CNT.WCNT k) 0).updPor fun p => { p with ages := cellDel k p.ages } := by
    unfold State.winClose
    rw [ha]
    exact if_pos (by rw [hv]; simpa using hw)
  refine ⟨_, congrArg Host.Outcome.next ((if_pos hm).trans hc), ?_, ?_, fun a h => s.reg_set _ _ a h, fun e he => ne_of_mem_cellDel he⟩
  · exact State.get_set_self s (F.POR_CNT.WCNT k) (by simp [F.POR_CNT.WCNT]) 0
  · exact State.get_set_disj s (F.POR_CNT.WCNT k) (F.POR_CNT.TOTAL k) rfl (by simp [F.POR_CNT.WCNT])
      (.inl (by simp [F.POR_CNT.WCNT, F.POR_CNT.TOTAL])) 0

/-! ### Forcing (R408) -/

theorem Reach.srcUp (h : Reach G s t) (k : Nat) (hp : G.has .pcr = false := by decide) (h1 : G.holds R.PCR_STAT = false := by decide)
    (h2 : G.holds R.PCR_BRSTAT = false := by decide) : t.srcUp k = s.srcUp k := by
  have hi (i : Island) := h.islandUp i hp h1
  have hb (b : Nat) : t.blockFree b = s.blockFree b := congrArg (fun x => !bitOf x b) (h.get h2)
  simp only [State.srcUp, State.angleOk, hi, hb]

theorem Reach.pairAct (h : Reach G s t) (k : Nat) (hpor : t.por.pulses = s.por.pulses ∧ t.por.stand = s.por.stand)
    (hp : G.has .pcr = false := by decide) (h1 : G.holds R.PCR_STAT = false := by decide)
    (h2 : G.holds R.PCR_BRSTAT = false := by decide) : t.pairAct k = s.pairAct k := by
  unfold State.pairAct
  rw [h.srcUp k hp h1 h2, hpor.1, hpor.2]

/-- A step of a write of POR_FORCE. -/
def State.forceStep (s : State) (i act : Nat) (b : Bool) (j : Nat) : State :=
  if bitOf act j then s.updPor fun p => { p with forced := p.forced.filter (fun e => e.1 ≠ 16 * i + j) ++ [(16 * i + j, b)] } else s

/-- A write of POR_FORCE, its record of a rejection first. -/
theorem State.forceWrite_eq (i : Nat) (src : Master) (v : Word) :
    ∃ u, s.forceWrite i src v = u.each (List.range 16) (fun u j => u.forceStep i (s.wlActs src (R.POR_FORCE i) v) (s.bit F.POR_FCFG) j)
      ∧ Reach ⟨[.regs, .marks], [(0x800, 0x1000)]⟩ s u ∧ u.por = s.por :=
  ⟨_, rfl, (Reach.refl s).when (·.then State.recordReject_reach), by
    split
    · exact State.recordReject_por _ _
    · rfl⟩

theorem State.forceStep_pairs {i act j : Nat} {b : Bool} :
    (s.forceStep i act b j).por.pulses = s.por.pulses ∧ (s.forceStep i act b j).por.stand = s.por.stand := by
  unfold State.forceStep
  split <;> exact ⟨rfl, rfl⟩

theorem faultForce_forces {i : Fin 8} {j : Fin 16} {src : Master} {v : Word} (hm : s.islandUp .management = true)
    (hb : bitOf (s.wlActs src (R.POR_FORCE i) v) j = true) :
    GoesTo (exec (.faultForce i src v) s) fun t =>
      ((16 * i.val + j.val, s.bit F.POR_FCFG) : Nat × Bool) ∈ t.por.forced ∧ t.pairAct (16 * i + j) = s.pairAct (16 * i + j) := by
  obtain ⟨u, hu, hr, hp⟩ := State.forceWrite_eq (s := s) i src v
  obtain ⟨t, ht⟩ : ∃ t, u.each (List.range 16) (fun u j => u.forceStep i (s.wlActs src (R.POR_FORCE i) v) (s.bit F.POR_FCFG) j) = t := ⟨_, rfl⟩
  have hut : Reach ⟨[.por], []⟩ u t := ht ▸ (Reach.refl u).each fun u j _ => (Reach.refl u).when (·.then State.updPor_reach)
  have hpairs : t.por.pulses = u.por.pulses ∧ t.por.stand = u.por.stand :=
    ht ▸ State.each_keeps (fun t => t.por.pulses = u.por.pulses ∧ t.por.stand = u.por.stand) _
      (fun x j h => ⟨State.forceStep_pairs.1.trans h.1, State.forceStep_pairs.2.trans h.2⟩) _ u ⟨rfl, rfl⟩
  refine ⟨t, congrArg Host.Outcome.next ((if_pos hm).trans (hu.trans ht)), ?_, ?_⟩
  · rw [← ht]
    refine State.each_settles (I := fun _ => True) (P := fun t => (16 * i.val + j.val, s.bit F.POR_FCFG) ∈ t.por.forced) (a := j.val)
      (fun _ _ _ => trivial) (fun x _ => ?_) (fun x b h => ?_) (List.mem_range.2 j.isLt) trivial
    · unfold State.forceStep
      rw [if_pos hb]
      exact List.mem_append_right _ (.head _)
    · unfold State.forceStep
      split
      · by_cases hj : j.val = b
        · exact hj ▸ List.mem_append_right _ (.head _)
        · exact List.mem_append_left _ (List.mem_filter.2 ⟨h, by simp; omega⟩)
      · exact h
  · exact (hut.pairAct _ hpairs).trans (hr.pairAct _ ⟨congrArg _ hp, congrArg _ hp⟩)

/-! ### Severe bits cleared -/

/-- A step of a write of POR_SEV. -/
def State.sevStep (s : State) (i v j : Nat) : State :=
  if bitOf v j && s.sevBit (16 * i + j) && !bitOf (s.setNow (R.POR_SEV i)) j then
    ((s.setBitAt (F.POR_SEV i) j false).set (F.POR_CNT.WCNT (16 * i + j)) 0).updPor fun p => { p with ages := cellDel (16 * i + j) p.ages }
  else s

theorem State.setNow_set {f : Fld} {v a : Nat} : (s.set f v).setNow a = s.setNow a := rfl

theorem State.setNow_setBitAt {f : Fld} {k a : Nat} {b : Bool} : (s.setBitAt f k b).setNow a = s.setNow a := rfl

theorem State.setNow_updPor {f : Por → Por} {a : Nat} : (s.updPor f).setNow a = s.setNow a := rfl

theorem State.setNow_sevStep {i v j a : Nat} : (s.sevStep i v j).setNow a = s.setNow a := by
  unfold State.sevStep
  split
  · rw [State.setNow_updPor, State.setNow_set, State.setNow_setBitAt]
  · rfl

/-- A severe bit cleared, with its window's count. -/
theorem State.sevStep_clears {i v j : Nat} (hj : j < 16) (hv : bitOf v j = true) (hs : s.sevBit (16 * i + j) = true)
    (hn : bitOf (s.setNow (R.POR_SEV i)) j = false) :
    (s.sevStep i v j).sevBit (16 * i + j) = false ∧ (s.sevStep i v j).get (F.POR_CNT.WCNT (16 * i + j)) = 0 := by
  have hi : (16 * i + j) / 16 = i ∧ (16 * i + j) % 16 = j := by omega
  have he : s.sevStep i v j = ((s.setBitAt (F.POR_SEV i) j false).set (F.POR_CNT.WCNT (16 * i + j)) 0).updPor
      fun p => { p with ages := cellDel (16 * i + j) p.ages } := if_pos (by rw [hv, hs, hn]; rfl)
  rw [he]
  refine ⟨?_, State.get_set_self (s.setBitAt (F.POR_SEV i) j false) (F.POR_CNT.WCNT (16 * i + j)) (by simp [F.POR_CNT.WCNT]) 0⟩
  unfold State.sevBit
  rw [hi.1, hi.2]
  refine (congrArg (bitOf · j) (State.get_set_addr (s.setBitAt (F.POR_SEV i) j false) (F.POR_CNT.WCNT (16 * i + j)) (F.POR_SEV i) ?_ 0)).trans
    (s.bitOf_setBitAt (F.POR_SEV i) false (by simp [F.POR_SEV]) (by simpa [F.POR_SEV] using hj))
  simp [F.POR_CNT.WCNT, F.POR_SEV, R.POR_CNT, R.POR_SEV]
  omega

/-- The bits and the counts of other sources stay. -/
theorem State.sevStep_keeps {i v j b : Nat} (hj : j < 16) (h : j ≠ b) (hb : b < 16) :
    (s.sevStep i v b).sevBit (16 * i + j) = s.sevBit (16 * i + j)
      ∧ (s.sevStep i v b).get (F.POR_CNT.WCNT (16 * i + j)) = s.get (F.POR_CNT.WCNT (16 * i + j)) := by
  have hi : (16 * i + j) / 16 = i ∧ (16 * i + j) % 16 = j := by omega
  unfold State.sevStep
  split
  · constructor
    · unfold State.sevBit
      rw [hi.1, hi.2]
      refine (congrArg (bitOf · j) (State.get_set_addr (s.setBitAt (F.POR_SEV i) b false) (F.POR_CNT.WCNT (16 * i + b)) (F.POR_SEV i) ?_ 0)).trans
        (s.bitOf_setBitAt_ne (F.POR_SEV i) false (by simp [F.POR_SEV]) (by simpa [F.POR_SEV] using hj) h)
      simp [F.POR_CNT.WCNT, F.POR_SEV, R.POR_CNT, R.POR_SEV]
      omega
    · refine (State.get_set_addr (s.setBitAt (F.POR_SEV i) b false) (F.POR_CNT.WCNT (16 * i + b)) (F.POR_CNT.WCNT (16 * i + j)) ?_ 0).trans
        (State.get_setBitAt_apart _ _ _ _ _ (by simp [F.POR_SEV]) fun e => absurd e ?_)
      · simpa [F.POR_CNT.WCNT, R.POR_CNT] using h
      · simp [F.POR_CNT.WCNT, F.POR_SEV, R.POR_CNT, R.POR_SEV]
        omega
  · exact ⟨rfl, rfl⟩

/-- The loop of a clear: a severe bit that the write names is clear after its step, and stays so. -/
theorem State.sevLoop_clears {i v j : Nat} (hj : j < 16) (hv : bitOf v j = true) (l : List Nat) (hl : ∀ b ∈ l, b < 16) {s : State}
    (h : j ∈ l ∧ s.sevBit (16 * i + j) = true ∧ bitOf (s.setNow (R.POR_SEV i)) j = false
      ∨ s.sevBit (16 * i + j) = false ∧ s.get (F.POR_CNT.WCNT (16 * i + j)) = 0) :
    (s.each l fun s j => s.sevStep i v j).sevBit (16 * i + j) = false
      ∧ (s.each l fun s j => s.sevStep i v j).get (F.POR_CNT.WCNT (16 * i + j)) = 0 := by
  induction l generalizing s with
  | nil =>
    rcases h with ⟨h, -⟩ | h
    · cases h
    · exact h
  | cons b l ih =>
    refine ih (fun b hb => hl b (.tail _ hb)) (s := s.sevStep i v b) ?_
    by_cases hb : j = b
    · subst hb
      right
      rcases h with ⟨-, hs, hn⟩ | ⟨hs, hw⟩
      · exact State.sevStep_clears hj hv hs hn
      · have he : s.sevStep i v j = s := if_neg (by rw [hs]; simp)
        rw [he]
        exact ⟨hs, hw⟩
    · obtain ⟨h1, h2⟩ := State.sevStep_keeps (s := s) (i := i) (v := v) hj hb (hl b (.head _))
      rw [h1, h2, State.setNow_sevStep]
      rcases h with ⟨hm, hs, hn⟩ | h
      · exact .inl ⟨(List.mem_cons.1 hm).resolve_left hb, hs, hn⟩
      · exact .inr h

theorem severeClear_clears {i : Fin 8} {j : Fin 16} {v : Word} (hm : s.islandUp .management = true) (hv : bitOf v.toNat j = true)
    (hs : s.sevBit (16 * i + j) = true) (hn : bitOf (s.setNow (R.POR_SEV i)) j = false) :
    GoesTo (exec (.severeClear i v) s) fun t =>
      t.sevBit (16 * i + j) = false ∧ t.get (F.POR_CNT.WCNT (16 * i + j)) = 0 ∧ SameStores s t := by
  obtain ⟨h1, h2⟩ := State.sevLoop_clears j.isLt hv (List.range 16) (fun b hb => List.mem_range.1 hb)
    (.inl ⟨List.mem_range.2 j.isLt, hs, hn⟩)
  exact ⟨s.sevClear i v.toNat, congrArg Host.Outcome.next (if_pos hm), h1, h2, (State.sevClear_reach i.isLt).sameStores⟩

/-! ### The capture clear -/

theorem capclr_clears {src : Master} (hm : s.islandUp .management = true) (hp : (s.porCmd src 0x96001).1 = 1) (hc : s.por.clrT ≠ some s.fclk) :
    GoesTo (exec (.capclr src) s) fun t =>
      t.bit F.POR_FIRST.VALID = false ∧ t.bit F.POR_SECOND.SECOND = false ∧ t.get F.POR_SECOND.COUNT = 0
        ∧ t.get F.POR_FIRST.SRC = s.get F.POR_FIRST.SRC := by
  obtain ⟨u, hu⟩ : ∃ u, (s.porCmd src 0x96001).2 = u := ⟨_, rfl⟩
  have hr : Reach ⟨[.regs, .marks], [(0x800, 0x1000)]⟩ s u := hu ▸ (Reach.refl s).when (·.then State.recordReject_reach)
  have hclr : u.por.clrT ≠ some u.fclk := by rwa [hr.por, hr.fclk]
  have he : u.capClear = ((u.set F.POR_FIRST.VALID 0).set F.POR_SECOND.SECOND 0).set F.POR_SECOND.COUNT 0 := if_neg hclr
  have hx : exec (.capclr src) s = .next u.capClear :=
    congrArg Host.Outcome.next ((if_pos hm).trans ((if_pos hp).trans (congrArg State.capClear hu)))
  rw [he] at hx
  refine ⟨_, hx, State.bit_of_get_zero ?_, State.bit_of_get_zero ?_, ?_, ?_⟩
  · simp (disch := decide) only [State.get_set_apart, State.get_set_self]
    rfl
  · simp (disch := decide) only [State.get_set_apart, State.get_set_self]
    rfl
  · simp (disch := decide) only [State.get_set_self]
    rfl
  · simp (disch := decide) only [State.get_set_apart]
    exact hr.get

/-! ### Heartbeat and ALIVE (R420, R421) -/

theorem heartbeatTimeout_reports (hs : s.islandUp .safety = true) (hc : s.comes (fun c => c = .heartbeatSend) = false)
    (ha : s.islandUp .angle = true) (ht : s.por.beatT + s.beatTime ≤ s.fclk) :
    GoesTo (exec .heartbeatTimeout s) fun t =>
      (t.por.pulses.any fun p => p.src = 1) = true ∧ t.por.beatT = s.fclk ∧ t.regs = s.regs := by
  obtain ⟨u, hu⟩ : ∃ u, s.updPor (fun p => { p with beat := false, beatT := s.fclk }) = u := ⟨_, rfl⟩
  have hb : u.por.beatT = s.fclk := hu ▸ rfl
  have hbr : (u.report 1 0).por.beatT = u.por.beatT := by
    unfold State.report State.reportSig
    dsimp only
    split_ifs <;> rfl
  refine ⟨u.report 1 0, congrArg Host.Outcome.next ((if_pos (by rw [hs, hc]; rfl)).trans ((if_pos ha).trans ((if_pos ht).trans ?_))),
    State.report_pulse _ _ _, hbr.trans hb, (State.report_regs _ _ _).trans (hu ▸ rfl)⟩
  exact congrArg (State.report · 1 0) hu

theorem heartbeatTimeout_early (ha : s.islandUp .angle = true) (ht : s.fclk < s.por.beatT + s.beatTime) :
    exec .heartbeatTimeout s = .next s := by
  refine congrArg Host.Outcome.next ?_
  dsimp only
  split
  · exact if_neg (show ¬s.por.beatT + s.beatTime ≤ s.fclk by omega)
  · rfl

theorem heartbeatTimeout_stopped (hs : s.islandUp .safety = true) (hc : s.comes (fun c => c = .heartbeatSend) = false)
    (ha : s.islandUp .angle = false) (hb : s.por.beat = false) :
    GoesTo (exec .heartbeatTimeout s) fun t => (t.por.pulses.any fun p => p.src = 1) = true ∧ t.regs = s.regs :=
  ⟨s.report 1 0, congrArg Host.Outcome.next ((if_pos (by rw [hs, hc]; rfl)).trans ((if_neg (by rw [ha]; decide)).trans
    (if_neg (by rw [hb]; decide)))), State.report_pulse _ _ _, State.report_regs _ _ _⟩

theorem heartbeatTimeout_look (hs : s.islandUp .safety = true) (hc : s.comes (fun c => c = .heartbeatSend) = false)
    (ha : s.islandUp .angle = false) (hb : s.por.beat = true) :
    GoesTo (exec .heartbeatTimeout s) fun t => t.por = { s.por with beat := false } ∧ t.regs = s.regs :=
  ⟨_, congrArg Host.Outcome.next ((if_pos (by rw [hs, hc]; rfl)).trans ((if_neg (by rw [ha]; decide)).trans (if_pos hb))), rfl, rfl⟩

/-- ALIVE takes its level, and the readback is compared with it. -/
theorem exec_aliveToggle {rb : Bool} (hp : s.pcr.held = none) {u : State}
    (hu : (s.updPor fun p => { p with alive := s.aliveOn && !s.por.alive }) = u) :
    exec (.aliveToggle rb) s = .next (if rb = (s.aliveOn && !s.por.alive) then u.standOff 0 4 else u.standOn 0 4) := by
  subst hu
  exact congrArg Host.Outcome.next (if_pos (by rw [hp]; rfl))

theorem aliveToggle_agrees {rb : Bool} (hp : s.pcr.held = none) (hr : rb = (s.aliveOn && !s.por.alive)) :
    GoesTo (exec (.aliveToggle rb) s) fun t =>
      t.por.alive = rb ∧ (t.por.stand.any fun p => p.src = 0 && p.det = 4) = false ∧ t.regs = s.regs := by
  obtain ⟨u, hu⟩ : ∃ u, (s.updPor fun p => { p with alive := s.aliveOn && !s.por.alive }) = u := ⟨_, rfl⟩
  have ha : u.por.alive = (s.aliveOn && !s.por.alive) := hu ▸ rfl
  exact ⟨u.standOff 0 4, (exec_aliveToggle hp hu).trans (congrArg Host.Outcome.next (if_pos hr)), ha.trans hr.symm, State.stand_standOff _ _ _,
    (State.standOff_regs _ _ _).trans (hu ▸ rfl)⟩

theorem aliveToggle_differs {rb : Bool} (hp : s.pcr.held = none) (hr : rb ≠ (s.aliveOn && !s.por.alive)) :
    GoesTo (exec (.aliveToggle rb) s) fun t =>
      t.por.alive = !rb ∧ (t.por.stand.any fun p => p.src = 0 && p.det = 4) = true ∧ t.regs = s.regs := by
  obtain ⟨u, hu⟩ : ∃ u, (s.updPor fun p => { p with alive := s.aliveOn && !s.por.alive }) = u := ⟨_, rfl⟩
  have ha : u.por.alive = (s.aliveOn && !s.por.alive) := hu ▸ rfl
  have hon : (u.standOn 0 4).por.alive = u.por.alive := by
    unfold State.standOn
    split <;> rfl
  have hne : (s.aliveOn && !s.por.alive) = !rb := by
    revert hr
    cases rb <;> cases (s.aliveOn && !s.por.alive) <;> decide
  exact ⟨u.standOn 0 4, (exec_aliveToggle hp hu).trans (congrArg Host.Outcome.next (if_neg hr)), hon.trans (ha.trans hne),
    State.stand_standOn _ _ _, (State.standOn_regs _ _ _).trans (hu ▸ rfl)⟩

/-- Settles O35: findings with each reaction, counts and notices, windows, forcing, clears, heartbeat and ALIVE. -/
theorem faultsAreDecidedCountedAndReacted : Obligations.FaultsAreDecidedCountedAndReacted := by
  unfold Obligations.FaultsAreDecidedCountedAndReacted
  refine ⟨fun s k g => faultEvent_irq, fun s k g => faultEvent_trap, fun s k g hs hv hf hu hsame _ => faultEvent_creset hs hv hf hu hsame,
    fun s k g hs hv hf hu hsame _ => faultEvent_safe hs hv hf hu hsame, fun s k g hs hf hp he => ?_,
    fun s k => exec_faultEvent_seen, fun s k c l => faultCount_opens, fun s k c l a => faultCount_severe,
    fun s k c l => severeNotice_irq, fun s k a => porterWindowClose_closes, fun s i j src v => faultForce_forces,
    fun s i j v => severeClear_clears, fun s src => capclr_clears, fun s hm => ?_, fun s => heartbeatTimeout_reports,
    fun s => heartbeatTimeout_early, fun s => heartbeatTimeout_stopped, fun s => heartbeatTimeout_look, fun s rb => aliveToggle_agrees,
    fun s rb => aliveToggle_differs⟩
  · exact ⟨s.pulseTaken k g, exec_faultEvent_masked hs hf hp he, rfl, rfl, rfl⟩
  · exact ⟨_, congrArg Host.Outcome.next (if_pos hm), rfl, rfl⟩

end Sys2Proof.Machine
end

section
/-! SUPPORT. The interrupt router: exchanges within the bay, the showing of a host's state, claims and their ends (O60). -/

set_option Elab.async false

namespace Sys2Proof.Machine

variable {s t u : State} {h k b x : Nat}

/-! ### The showing of a host's state -/

/-- What the showing of a host's state keeps: registers outside the host table, the slot, and the router but for its exclusions. -/
structure Shown (s t : State) : Prop where
  reach : Reach shownFoot s t
  slot : t.slot = s.slot
  irt : { t.irt with excl := s.irt.excl } = s.irt

theorem Shown.refl (s : State) : Shown s s :=
  ⟨.refl s, rfl, rfl⟩

theorem Shown.trans (e : Shown s t) (e' : Shown t u) : Shown s u where
  reach := e.reach.trans e'.reach
  slot := e'.slot.trans e.slot
  irt := by
    have h := congrArg (fun r : Irt => { r with excl := s.irt.excl }) e'.irt
    exact h.trans e.irt

theorem Shown.loc (e : Shown s t) : t.irt.loc = s.irt.loc := (congrArg Irt.loc e.irt :)
theorem Shown.offer (e : Shown s t) : t.irt.offer = s.irt.offer := (congrArg Irt.offer e.irt :)
theorem Shown.claim (e : Shown s t) : t.irt.claim = s.irt.claim := (congrArg Irt.claim e.irt :)
theorem Shown.slotT (e : Shown s t) : t.irt.slotT = s.irt.slotT := (congrArg Irt.slotT e.irt :)
theorem Shown.freeT (e : Shown s t) : t.irt.freeT = s.irt.freeT := (congrArg Irt.freeT e.irt :)

theorem htab_ne_hstat (hh : h < 8) : F.IRT_HSTAT.SLOT.addr ≠ R.IRT_HTAB h := by
  simp only [F.IRT_HSTAT.SLOT, R.IRT_HSTAT, R.IRT_HTAB]
  omega

theorem State.htabSet_shown (hh : h < 8) {r p q : Nat} : Shown s (s.htabSet h b r p q) where
  reach := State.htabSet_reach hh
  slot := by
    have ha := htab_ne_hstat hh
    unfold State.slot State.htabSet
    rw [State.get_set_addr _ _ _ ha, State.get_set_addr _ _ _ ha, State.get_set_addr _ _ _ ha, State.get_set_addr _ _ _ ha,
      State.get_set_addr _ _ _ ha]
  irt := rfl

theorem State.htabTake_shown (hh : h < 8) {r p q : Nat} : Shown s (s.htabTake h b r p q) := by
  have hx : Shown s (s.updIrt fun r => { r with excl := r.excl.filter fun x => x ≠ h }) :=
    ⟨.then (.refl s) State.updIrt_reach, rfl, rfl⟩
  unfold State.htabTake
  dsimp only
  split_ifs
  · exact .refl s
  · exact State.htabSet_shown hh
  · exact ⟨(Reach.refl s).setReg (htab_holds hh), s.get_setReg_ne (f := F.IRT_HSTAT.SLOT) (htab_ne_hstat hh) 0, rfl⟩
  · exact hx.trans (State.htabSet_shown hh)
  · exact State.htabSet_shown hh
  · exact .refl s

theorem State.hidconf_shown : Shown s (s.set F.IRT_HSTAT.HIDCONF 1) where
  reach := (Reach.refl s).set
  slot := State.get_set_disj _ F.IRT_HSTAT.HIDCONF F.IRT_HSTAT.SLOT (by decide) (by decide) (by decide) 1
  irt := rfl

theorem State.hostShow_shown (hh : h < 8) {r : Nat} : Shown s (s.hostShow h r) := by
  unfold State.hostShow
  dsimp only
  have ht : Shown s (s.htabTake h s.bay r (s.get F.IRT_HOST.PRIO) s.slot) := State.htabTake_shown hh
  have hs (v d x : State) (q : Nat) (e : Shown s v) : Shown s (if v.bay = 0 then v else v.irqSend 63 7 h q) := by
    split
    · exact e
    · exact e.trans ⟨.then (.refl v) State.irqSend_reach, rfl, rfl⟩
  split_ifs
  · exact ht.trans State.hidconf_shown
  · exact (ht.trans State.hidconf_shown).trans ⟨.then (.refl _) State.irqSend_reach, rfl, rfl⟩
  · exact ht
  · exact ht.trans ⟨.then (.refl _) State.irqSend_reach, rfl, rfl⟩

theorem State.hostTell_shown : Shown s s.hostTell := by
  unfold State.hostTell
  split
  · exact State.hostShow_shown State.hid_lt
  · exact .refl s

/-- The slot takes its state, and what the showing keeps stands as before. -/
theorem State.slotSet_shown : Shown (s.set F.IRT_HSTAT.SLOT k) (s.slotSet k) :=
  State.hostTell_shown

theorem State.slot_slotSet (hk : k < 4) : (s.slotSet k).slot = k :=
  State.slotSet_shown.slot.trans ((s.get_set_self F.IRT_HSTAT.SLOT (by decide) k).trans (Nat.mod_eq_of_lt hk))

/-- A field outside the host table and the slot's register. -/
theorem State.get_slotSet {f : Fld} (hf : shownFoot.holds f.addr = false := by decide) : (s.slotSet k).get f = s.get f :=
  State.slotSet_reach.get hf

theorem State.host_slotSet : (s.slotSet k).host = s.host :=
  (State.slotSet_reach (s := s) (k := k)).host

/-! ### Exchanges -/

theorem State.isHere_bay : s.isHere s.bay = true := by
  simp [State.isHere]

theorem State.irqTo_here {sub : Nat} (hb : s.isHere b = true) :
    s.irqTo b sub h x = s.updIrt fun r => { r with loc := r.loc ++ [(sub, h, x)] } :=
  if_pos hb

theorem State.irqTo_regs {sub : Nat} : (s.irqTo b sub h x).regs = s.regs := by
  unfold State.irqTo
  split <;> rfl

theorem State.fclk_irqTo {sub : Nat} : (s.irqTo b sub h x).fclk = s.fclk := by
  unfold State.irqTo
  split <;> rfl

/-- An exchange that leaves changes no part of the router but the exchanges on their way. -/
theorem State.irt_irqTo {sub : Nat} : { (s.irqTo b sub h x).irt with loc := s.irt.loc } = s.irt := by
  unfold State.irqTo
  split <;> rfl

/-- The oldest exchange within the bay is taken by its command. -/
theorem State.irqMsg_here {sub : Nat} {rest : List (Nat × Nat × Nat)} {f : State → Nat → Nat → Nat → State} (hu : s.irtUp = true)
    (hl : s.irt.loc = (sub, h, x) :: rest) : s.irqMsg true sub f = f (s.updIrt fun r => { r with loc := rest }) s.bay h x := by
  unfold State.irqMsg
  rw [hu, hl]
  exact if_pos rfl

/-- A count takes one more event, up to its limit. -/
theorem State.evtInc_counts (s : State) {f : Fld} (hf : f.lo + f.len ≤ 20) :
    (s.evtInc f).get f = satAdd (s.get f) 1 (2 ^ f.len - 1) :=
  State.get_set_satAdd s _ f hf 1

/-- What a count of the router reaches. -/
abbrev routerSpur : Foot := ⟨[.regs, .marks], [(0x6417, 0x6418)]⟩

/-! ### The source that a claim is given -/

theorem find_source {p : Nat → Bool} {k : Fin 320} (hk : p k = true) (hj : ∀ j : Fin 320, j < k → p j = false) :
    (List.range 320).find? p = some k.val :=
  List.find?_range_eq_some.2 ⟨hk, List.mem_range.2 k.isLt, fun j hlt => by
    rw [hj ⟨j, hlt.trans k.isLt⟩ hlt]
    rfl⟩

theorem find_no_source {p : Nat → Bool} (hj : ∀ j : Fin 320, p j = false) : (List.range 320).find? p = none :=
  List.find?_range_eq_none.2 fun j hlt => by rw [hj ⟨j, hlt⟩]; rfl

theorem State.claimServe_some {k : Fin 320} (hk : s.srcFor k h = true) (hj : ∀ j : Fin 320, j < k → s.srcFor j h = false) :
    s.claimServe b h = (s.set (F.IRT_SRC.COUNT k) (s.get (F.IRT_SRC.COUNT k) - 1)).irqTo b 4 h k := by
  have hf : (List.range 320).find? (fun k => s.srcFor k h) = some k.val := find_source hk hj
  unfold State.claimServe
  rw [hf]

theorem State.claimServe_none (hj : ∀ j : Fin 320, s.srcFor j h = false) : s.claimServe b h = s.irqTo b 4 h 1023 := by
  have hf : (List.range 320).find? (fun k => s.srcFor k h) = none := find_no_source hj
  unfold State.claimServe
  rw [hf]

theorem State.get_count_down {k : Nat} :
    (s.set (F.IRT_SRC.COUNT k) (s.get (F.IRT_SRC.COUNT k) - 1)).get (F.IRT_SRC.COUNT k) = s.get (F.IRT_SRC.COUNT k) - 1 := by
  have hlt := s.get_lt (F.IRT_SRC.COUNT k)
  rw [s.get_set_self (F.IRT_SRC.COUNT k) (by simp only [F.IRT_SRC.COUNT]; decide)]
  exact Nat.mod_eq_of_lt (by omega)

/-- A claim of this bay is given the lowest source that is eligible. -/
theorem State.claimServe_gives {k : Fin 320} (hb : s.isHere b = true) (hk : s.srcFor k h = true)
    (hj : ∀ j : Fin 320, j < k → s.srcFor j h = false) :
    (s.claimServe b h).get (F.IRT_SRC.COUNT k) = s.get (F.IRT_SRC.COUNT k) - 1
      ∧ SameRegs (fun a => a = R.IRT_SRC k) s (s.claimServe b h)
      ∧ (s.claimServe b h).irt = { s.irt with loc := s.irt.loc ++ [(4, h, k.val)] } := by
  have ha : F.GAL_STAT.BAY.addr ≠ (F.IRT_SRC.COUNT k).addr := by
    simp only [F.GAL_STAT.BAY, R.GAL_STAT, F.IRT_SRC.COUNT, R.IRT_SRC]
    omega
  obtain ⟨v, hv⟩ : ∃ v, s.set (F.IRT_SRC.COUNT k) (s.get (F.IRT_SRC.COUNT k) - 1) = v := ⟨_, rfl⟩
  have hbay : v.bay = s.bay := hv ▸ s.get_set_addr _ _ ha _
  have hb' : v.isHere b = true := by
    unfold State.isHere
    rw [hbay]
    exact hb
  have hi : v.irt = s.irt := by rw [← hv]; rfl
  rw [State.claimServe_some hk hj, hv, State.irqTo_here hb', ← hi]
  refine ⟨?_, fun a ha => ?_, rfl⟩
  · exact (congrArg (·.get (F.IRT_SRC.COUNT k)) hv.symm).trans State.get_count_down
  · exact (congrArg (·.reg a) hv.symm).trans (State.reg_setReg_ne _ ha _)

/-! ### Reads of IRT_CLAIM -/

theorem irqClaimRead_claims (hu : s.irtUp = true) (hr : s.host.rest.isSome = true) (hb : s.host.begun = false) (hs : s.slot = 1)
    (hh : s.isHere (s.get F.IRT_HSLOT.BAY) = true) :
    GoesTo (exec .irqClaimRead s) fun t =>
      t.slot = 2 ∧ t.irt.loc = s.irt.loc ++ [(3, s.hid, 0)] ∧ t.host.begun = true ∧ t.hirq = false := by
  obtain ⟨v, hv⟩ : ∃ v, (s.updHost fun p => { p with begun := true }) = v := ⟨_, rfl⟩
  have hvh : v.host.begun = true := hv ▸ rfl
  have hvi : v.irt = s.irt := hv ▸ rfl
  have hvs : v.slot = 1 := (hv ▸ rfl : v.slot = s.slot).trans hs
  have hvb : v.isHere (v.get F.IRT_HSLOT.BAY) = true := (hv ▸ rfl : v.isHere (v.get F.IRT_HSLOT.BAY) = s.isHere (s.get F.IRT_HSLOT.BAY)).trans hh
  have hvd : v.hid = s.hid := hv ▸ rfl
  obtain ⟨w, hw⟩ : ∃ w, ((v.irqTo (v.get F.IRT_HSLOT.BAY) 3 v.hid 0).updIrt fun r =>
      { r with claim := some ⟨v.get F.IRT_HSLOT.BAY, 0, 0, 0, v.fclk⟩ }) = w := ⟨_, rfl⟩
  have hwl : w.irt.loc = s.irt.loc ++ [(3, s.hid, 0)] := by
    rw [← hw, State.irqTo_here hvb, ← hvi, ← hvd]
    rfl
  have hwh : w.host.begun = true := by
    rw [← hw, State.irqTo_here hvb]
    exact hvh
  have he : s.claimRead = w.slotSet 2 := by
    unfold State.claimRead
    rw [hv]
    dsimp only
    rw [if_pos hvs, hw]
  have hsl : (w.slotSet 2).slot = 2 := State.slot_slotSet (by decide)
  refine ⟨w.slotSet 2, congrArg Host.Outcome.next ((if_pos (by rw [hu, hr, hb]; rfl)).trans he), hsl,
    State.slotSet_shown.loc.trans hwl, (congrArg HostPort.begun State.host_slotSet).trans hwh, ?_⟩
  unfold State.hirq
  rw [hsl]
  rfl

theorem irqClaimRead_none (hu : s.irtUp = true) (hr : s.host.rest.isSome = true) (hb : s.host.begun = false) (hs : s.slot ≠ 1) :
    GoesTo (exec .irqClaimRead s) fun t => t.host.claimed = some 1023 ∧ t.regs = s.regs ∧ t.irt = s.irt :=
  ⟨_, congrArg Host.Outcome.next ((if_pos (by rw [hu, hr, hb]; rfl)).trans (if_neg hs)), rfl, rfl, rfl⟩

/-! ### Claims taken -/

section
variable {rest : List (Nat × Nat × Nat)} (hu : s.irtUp = true) (hl : s.irt.loc = (3, h, x) :: rest)
include hu hl

theorem irqClaimReceive_gives (hw : s.waiting = []) (hc : s.irt.claims = []) {k : Fin 320} (hk : s.srcFor k h = true)
    (hj : ∀ j : Fin 320, j < k → s.srcFor j h = false) :
    GoesTo (exec (.irqClaimReceive true) s) fun t =>
      t.get (F.IRT_SRC.COUNT k) = s.get (F.IRT_SRC.COUNT k) - 1 ∧ SameRegs (fun a => a = R.IRT_SRC k) s t
      ∧ t.irt.loc = rest ++ [(4, h, k.val)] := by
  obtain ⟨hn, hr, hi⟩ := State.claimServe_gives (s := s.updIrt fun r => { r with loc := rest }) (b := s.bay) State.isHere_bay hk hj
  refine ⟨(s.updIrt fun r => { r with loc := rest }).claimServe s.bay h, congrArg Host.Outcome.next ((State.irqMsg_here hu hl).trans
    (if_pos ?_)), hn, hr, congrArg Irt.loc hi⟩
  change (s.waiting.isEmpty && s.irt.claims.isEmpty) = true
  rw [hw, hc]
  rfl

theorem irqClaimReceive_empty (hw : s.waiting = []) (hc : s.irt.claims = []) (hj : ∀ j : Fin 320, s.srcFor j h = false) :
    GoesTo (exec (.irqClaimReceive true) s) fun t => t.irt.loc = rest ++ [(4, h, 1023)] ∧ t.regs = s.regs := by
  refine ⟨(s.updIrt fun r => { r with loc := rest }).updIrt fun r => { r with loc := r.loc ++ [(4, h, 1023)] },
    congrArg Host.Outcome.next ((State.irqMsg_here hu hl).trans ((if_pos ?_).trans ((State.claimServe_none (s := s.updIrt fun r => { r with loc := rest }) hj).trans
      (State.irqTo_here State.isHere_bay)))), rfl, rfl⟩
  change (s.waiting.isEmpty && s.irt.claims.isEmpty) = true
  rw [hw, hc]
  rfl

theorem irqClaimReceive_waits (hw : s.waiting ≠ [] ∨ s.irt.claims ≠ []) :
    GoesTo (exec (.irqClaimReceive true) s) fun t =>
      t.irt.claims = s.irt.claims ++ [(s.bay, h)] ∧ t.irt.loc = rest ∧ t.regs = s.regs := by
  refine ⟨_, congrArg Host.Outcome.next ((State.irqMsg_here hu hl).trans (if_neg ?_)), rfl, rfl, rfl⟩
  change ¬(s.waiting.isEmpty && s.irt.claims.isEmpty) = true
  simpa [Bool.and_eq_true, List.isEmpty_iff, imp_iff_not_or] using hw

end

/-- A claim that waited is answered at the FCLK's end. -/
theorem State.claimsRun_gives (hc : s.irt.claims = [(s.bay, h)]) {k : Fin 320} (hk : s.srcFor k h = true)
    (hj : ∀ j : Fin 320, j < k → s.srcFor j h = false) :
    s.claimsRun.get (F.IRT_SRC.COUNT k) = s.get (F.IRT_SRC.COUNT k) - 1 ∧ s.claimsRun.irt.claims = []
      ∧ s.claimsRun.irt.loc = s.irt.loc ++ [(4, h, k.val)] := by
  obtain ⟨hn, -, hi⟩ := State.claimServe_gives (s := s.updIrt fun r => { r with claims := [] }) (b := s.bay) State.isHere_bay hk hj
  have he : s.claimsRun = (s.updIrt fun r => { r with claims := [] }).claimServe s.bay h := by
    unfold State.claimsRun
    rw [hc]
    rfl
  rw [he]
  exact ⟨hn, congrArg Irt.claims hi, congrArg Irt.loc hi⟩

/-! ### Claims answered -/

section
variable {rest : List (Nat × Nat × Nat)} {c : IrqAsk} (hu : s.irtUp = true) (hl : s.irt.loc = (4, h, x) :: rest)
  (hc : s.irt.claim = some c) (hb : s.isHere c.bay = true) (hs : s.slot = 2)
include hu hl hc hb hs

/-- The answer to this bay's claim is taken. -/
theorem exec_irqClaimedReceive {v : State} (hv : (s.updIrt fun r => { r with loc := rest }) = v) :
    exec (.irqClaimedReceive true) s = .next (v.claimedTake s.bay x) ∧ v.irt.claim = some c
      ∧ (v.slot = 2 && (c.bay = s.bay || (v.isHere c.bay && v.isHere s.bay))) = true := by
  subst hv
  refine ⟨congrArg Host.Outcome.next (State.irqMsg_here hu hl), hc, ?_⟩
  have h1 : decide (s.slot = 2) = true := decide_eq_true hs
  change (decide (s.slot = 2) && (decide (c.bay = s.bay) || (s.isHere c.bay && s.isHere s.bay))) = true
  rw [h1, hb, State.isHere_bay, Bool.and_self, Bool.or_true, Bool.and_self]

theorem irqClaimedReceive_gives (hx : x < 320) :
    GoesTo (exec (.irqClaimedReceive true) s) fun t =>
      t.slot = 3 ∧ (t.reg R.IRT_CLAIM).toNat = x + 1024 * s.bay ∧ t.host.claimed = some (x + 1024 * s.bay)
      ∧ t.get F.IRT_HSLOT.SRC = x ∧ t.irt.slotT = s.fclk := by
  obtain ⟨v, hv⟩ : ∃ v, (s.updIrt fun r => { r with loc := rest }) = v := ⟨_, rfl⟩
  obtain ⟨he, hvc, hcond⟩ := exec_irqClaimedReceive hu hl hc hb hs hv
  have hbay : s.bay < 64 := s.get_lt F.GAL_STAT.BAY
  have hvf : v.fclk = s.fclk := hv ▸ rfl
  obtain ⟨y, hy⟩ : ∃ y, x % 1024 + 1024 * s.bay = y := ⟨_, rfl⟩
  have hyx : y = x + 1024 * s.bay := by omega
  obtain ⟨w, hw⟩ : ∃ w, ((((v.setReg R.IRT_CLAIM (BitVec.ofNat 20 y)).updIrt fun r => { r with claim := none, slotT := v.fclk }).set
    F.IRT_HSLOT.SRC x).set F.IRT_HSLOT.BAY s.bay) = w := ⟨_, rfl⟩
  have hwr : (w.reg R.IRT_CLAIM).toNat = x + 1024 * s.bay := by
    rw [← hw, State.reg_set _ _ _ _ (by decide), State.reg_set _ _ _ _ (by decide)]
    have hr : (v.setReg R.IRT_CLAIM (BitVec.ofNat 20 y)).reg R.IRT_CLAIM = BitVec.ofNat 20 y := v.reg_setReg_self _ _
    refine (congrArg BitVec.toNat hr).trans ?_
    rw [BitVec.toNat_ofNat, Nat.mod_eq_of_lt (by omega), hyx]
  have hws : w.get F.IRT_HSLOT.SRC = x := by
    rw [← hw, State.get_set_disj _ F.IRT_HSLOT.BAY F.IRT_HSLOT.SRC (by decide) (by decide) (by decide), State.get_set_self _ F.IRT_HSLOT.SRC (by decide)]
    exact Nat.mod_eq_of_lt (show x < 1024 by omega)
  have hwt : w.irt.slotT = s.fclk := by
    rw [← hw, ← hvf]
    rfl
  refine ⟨(w.updHost fun p => { p with claimed := some y }).slotSet 3, he.trans (congrArg Host.Outcome.next ?_), State.slot_slotSet (by decide), ?_, ?_, ?_,
    State.slotSet_shown.slotT.trans hwt⟩
  · unfold State.claimedTake
    rw [hvc]
    dsimp only
    rw [if_pos hcond, if_neg (show ¬x = 1023 by omega), hy, hw]
  · exact (congrArg BitVec.toNat (State.slotSet_reach.reg R.IRT_CLAIM (by decide))).trans hwr
  · exact (congrArg HostPort.claimed State.host_slotSet).trans (congrArg some hyx)
  · exact (State.get_slotSet (s := w.updHost fun p => { p with claimed := some y })).trans hws


end

/-- A claim that ends without a source: the read gives 1023, SPUR counts it and the slot is free. -/
theorem State.claimEmpty_ends :
    s.claimEmpty.slot = 0 ∧ s.claimEmpty.reg R.IRT_CLAIM = 1023 ∧ s.claimEmpty.host.claimed = some 1023
      ∧ s.claimEmpty.irt.claim = none
      ∧ s.claimEmpty.get F.IRT_STAT.SPUR = satAdd (s.get F.IRT_STAT.SPUR) 1 (2 ^ F.IRT_STAT.SPUR.len - 1) := by
  obtain ⟨v, hv⟩ : ∃ v, (s.setReg R.IRT_CLAIM 1023) = v := ⟨_, rfl⟩
  have hvr : v.reg R.IRT_CLAIM = 1023 := hv ▸ s.reg_setReg_self _ _
  have hvg : v.get F.IRT_STAT.SPUR = s.get F.IRT_STAT.SPUR := hv ▸ s.get_setReg_ne (f := F.IRT_STAT.SPUR) (by decide) _
  have hwr : (v.evtInc F.IRT_STAT.SPUR).reg R.IRT_CLAIM = v.reg R.IRT_CLAIM :=
    (Reach.evtAdd (F := routerSpur) (.refl v)).reg R.IRT_CLAIM (by decide)
  obtain ⟨w, hw⟩ : ∃ w, v.evtInc F.IRT_STAT.SPUR = w := ⟨_, rfl⟩
  have hwg : w.get F.IRT_STAT.SPUR = satAdd (s.get F.IRT_STAT.SPUR) 1 (2 ^ F.IRT_STAT.SPUR.len - 1) := by
    rw [← hw, State.evtInc_counts _ (by decide), hvg]
  have he : s.claimEmpty = ((w.updIrt fun r => { r with claim := none }).updHost fun p => { p with claimed := some 1023 }).slotSet 0 := by
    unfold State.claimEmpty
    dsimp only
    rw [hv, hw]
  rw [he]
  refine ⟨State.slot_slotSet (by decide), ?_, ?_, State.slotSet_shown.claim, ?_⟩
  · exact (State.slotSet_reach.reg R.IRT_CLAIM (by decide)).trans ((hw ▸ hwr : w.reg R.IRT_CLAIM = _).trans hvr)
  · exact congrArg HostPort.claimed State.host_slotSet
  · exact (State.get_slotSet (f := F.IRT_STAT.SPUR)).trans hwg

theorem irqClaimedReceive_empty {rest : List (Nat × Nat × Nat)} {c : IrqAsk} (hu : s.irtUp = true) (hl : s.irt.loc = (4, h, x) :: rest)
    (hc : s.irt.claim = some c) (hb : s.isHere c.bay = true) (hs : s.slot = 2) (hx : x = 1023) :
    GoesTo (exec (.irqClaimedReceive true) s) fun t =>
      t.slot = 0 ∧ t.reg R.IRT_CLAIM = 1023 ∧ t.host.claimed = some 1023
      ∧ t.get F.IRT_STAT.SPUR = satAdd (s.get F.IRT_STAT.SPUR) 1 (2 ^ F.IRT_STAT.SPUR.len - 1) := by
  obtain ⟨v, hv⟩ : ∃ v, (s.updIrt fun r => { r with loc := rest }) = v := ⟨_, rfl⟩
  obtain ⟨he, hvc, hcond⟩ := exec_irqClaimedReceive hu hl hc hb hs hv
  have hvg : v.get F.IRT_STAT.SPUR = s.get F.IRT_STAT.SPUR := by rw [← hv]; rfl
  obtain ⟨h1, h2, h3, -, h5⟩ := v.claimEmpty_ends
  refine ⟨v.claimEmpty, he.trans (congrArg Host.Outcome.next ?_), h1, h2, h3, hvg ▸ h5⟩
  unfold State.claimedTake
  rw [hvc]
  dsimp only
  rw [if_pos hcond, if_pos hx]

/-! ### Done -/

theorem State.claimDone_frees : s.claimDone.irt.freeT = some (s.thirds + 16) ∧ s.claimDone.regs = s.regs :=
  ⟨rfl, State.irqTo_regs⟩

theorem irqDoneWrite_frees {v : Word} (hu : s.irtUp = true) (hs : s.slot = 3) (hf : s.irt.freeT = none)
    (hv : v.toNat % 65536 = s.get F.IRT_HSLOT.SRC + 1024 * s.get F.IRT_HSLOT.BAY) :
    GoesTo (exec (.irqDoneWrite .host v) s) fun t =>
      t.irt.freeT = some (s.thirds + 16) ∧ t.slot = 3 ∧ t.regs = s.regs := by
  have hh : s.heldIs v.toNat = true := decide_eq_true hv
  obtain ⟨h1, h2⟩ := s.claimDone_frees
  refine ⟨s.claimDone, congrArg Host.Outcome.next ((if_pos hu).trans ((if_pos rfl).trans (if_pos ?_))), h1, ?_, h2⟩
  · rw [hs, hf, hh]
    rfl
  · exact (State.get_of_regs h2 F.IRT_HSTAT.SLOT).trans hs

theorem irqDoneWrite_other {v : Word} (hu : s.irtUp = true)
    (hv : v.toNat % 65536 ≠ s.get F.IRT_HSLOT.SRC + 1024 * s.get F.IRT_HSLOT.BAY) :
    GoesTo (exec (.irqDoneWrite .host v) s) fun t => t.bit F.IRT_HSTAT.DONEERR = true ∧ t.irt = s.irt ∧ t.slot = s.slot := by
  have hh : s.heldIs v.toNat = false := decide_eq_false hv
  refine ⟨s.evt F.IRT_HSTAT.DONEERR, congrArg Host.Outcome.next ((if_pos hu).trans ((if_pos rfl).trans (if_neg ?_))),
    State.bit_of_get_one (s.get_evt _ (by decide) (by decide)), ?_, ?_⟩
  · rw [hh, Bool.and_false]
    decide
  · exact (Reach.evt (F := ⟨[.regs, .marks], [(0x6414, 0x6415)]⟩) (.refl s)).irt
  · exact (State.get_set_disj _ F.IRT_HSTAT.DONEERR F.IRT_HSTAT.SLOT (by decide) (by decide) (by decide) 1).trans
      ((State.mark_reach (s := s)).get (f := F.IRT_HSTAT.SLOT))

theorem irqSlotRelease_frees {f : Nat} (hu : s.irtUp = true) (hf : s.irt.freeT = some f) (ht : f ≤ s.thirds) :
    GoesTo (exec .irqSlotRelease s) fun t => t.slot = 0 ∧ t.irt.freeT = none := by
  refine ⟨(s.updIrt fun r => { r with freeT := none }).slotSet 0, congrArg Host.Outcome.next ?_, State.slot_slotSet (by decide),
    State.slotSet_shown.freeT⟩
  rw [hf]
  exact if_pos (by rw [hu, decide_eq_true ht]; rfl)

/-! ### Limits -/

theorem irqClaimTimeout_withdraws (hu : s.irtUp = true) (hs : s.slot = 1)
    (ht : s.irt.slotT + 400 * max 1 (s.get F.IRT_CFG.CLAIMT) ≤ s.fclk) (hc : s.comes (fun c => c = .irqClaimRead) = false) :
    GoesTo (exec .irqClaimTimeout s) fun t =>
      t.slot = 0 ∧ t.hirq = false ∧ (t.por.pulses.any fun p => p.src = 77) = true
      ∧ t.get F.IRT_STAT.WDRAW = satAdd (s.get F.IRT_STAT.WDRAW) 1 (2 ^ F.IRT_STAT.WDRAW.len - 1) := by
  obtain ⟨v, hv⟩ : ∃ v, s.irqTo (s.get F.IRT_HSLOT.BAY) 6 s.hid (s.get F.IRT_HSLOT.SRC) = v := ⟨_, rfl⟩
  have hvg : v.get F.IRT_STAT.WDRAW = s.get F.IRT_STAT.WDRAW := State.get_of_regs (hv ▸ State.irqTo_regs) _
  have hwd : s.withdraw = (v.set F.IRT_HSTAT.SLOT 0).evtInc F.IRT_STAT.WDRAW := by
    unfold State.withdraw
    dsimp only
    rw [hv]
  have hslot : s.withdraw.slot = 0 := by
    rw [hwd]
    exact ((Reach.evtAdd (F := routerSpur) (.refl _)).get (f := F.IRT_HSTAT.SLOT)).trans (v.get_set_self F.IRT_HSTAT.SLOT (by decide) 0)
  have hw : s.withdraw.get F.IRT_STAT.WDRAW = satAdd (s.get F.IRT_STAT.WDRAW) 1 (2 ^ F.IRT_STAT.WDRAW.len - 1) := by
    rw [hwd, State.evtInc_counts _ (by decide), v.get_set_addr _ _ (by decide), hvg]
  have hsh : Shown s.withdraw s.withdraw.hostTell := State.hostTell_shown
  have hr : (s.withdraw.hostTell.report 77 0).regs = s.withdraw.hostTell.regs := State.report_regs _ _ _
  have h0 : (s.withdraw.hostTell.report 77 0).slot = 0 := (State.get_of_regs hr F.IRT_HSTAT.SLOT).trans (hsh.slot.trans hslot)
  refine ⟨s.withdraw.hostTell.report 77 0, congrArg Host.Outcome.next (if_pos ?_), h0, ?_, State.report_pulse _ _ _, ?_⟩
  · rw [hu, hs, hc, decide_eq_true ht, Bool.and_false]
    rfl
  · unfold State.hirq
    rw [h0]
    rfl
  · exact (State.get_of_regs hr F.IRT_STAT.WDRAW).trans (hsh.reach.get.trans hw)

theorem irqHoldTimeout_ends (hu : s.irtUp = true) (hs : s.slot = 3) (hf : s.irt.freeT = none)
    (ht : s.irt.slotT + 400000 * max 1 (s.get F.IRT_CFG.HOLDT) ≤ s.fclk) (hc : s.comes s.isDone = false) :
    GoesTo (exec .irqHoldTimeout s) fun t =>
      t.irt.freeT = some (s.thirds + 16) ∧ (t.por.pulses.any fun p => p.src = 77) = true := by
  refine ⟨s.claimDone.report 77 1, congrArg Host.Outcome.next (if_pos ?_), ?_, State.report_pulse _ _ _⟩
  · rw [hu, hs, hf, hc, decide_eq_true ht]
    rfl
  · exact (congrArg Irt.freeT State.report_reach.irt).trans s.claimDone_frees.1

/-! ### Clears -/

theorem trapClear_ends (hu : s.irtUp = true) (hn : bitOf (s.setNow R.IRT_TRAP) 0 = false) :
    GoesTo (exec .trapClear s) fun t => t.bit F.IRT_TRAP.PEND = false ∧ t.htrap = false ∧ SameRegs (fun a => a = R.IRT_TRAP) s t := by
  have hb : (s.set F.IRT_TRAP.PEND 0).bit F.IRT_TRAP.PEND = false := State.bit_of_get_zero (s.get_set_self _ (by decide) 0)
  exact ⟨s.set F.IRT_TRAP.PEND 0, congrArg Host.Outcome.next (if_pos (by rw [hu, hn]; rfl)), hb, hb, fun a ha => s.reg_set _ _ _ ha⟩

theorem sourceCountClear_clears {k : Fin 320} (hu : s.irtUp = true) :
    GoesTo (exec (.sourceCountClear k) s) fun t =>
      t.get (F.IRT_SRC.COUNT k) = 0 ∧ SameRegs (fun a => a = R.IRT_SRC k) s t ∧ t.irt = s.irt :=
  ⟨s.set (F.IRT_SRC.COUNT k) 0, congrArg Host.Outcome.next (if_pos hu),
    s.get_set_self (F.IRT_SRC.COUNT k) (by simp only [F.IRT_SRC.COUNT]; decide) 0, fun a ha => s.reg_set _ _ _ ha, rfl⟩

/-- Settles O60: reads and claims of IRT_CLAIM, done, withdrawals, limits and clears. -/
theorem interruptsAreClaimedAndEnded : Obligations.InterruptsAreClaimedAndEnded := by
  unfold Obligations.InterruptsAreClaimedAndEnded
  refine ⟨fun s => irqClaimRead_claims, fun s => irqClaimRead_none, fun s h x rest k hu hl hw hc => irqClaimReceive_gives hu hl hw hc,
    fun s h x rest hu hl hw hc => irqClaimReceive_empty hu hl hw hc, fun s h x rest => irqClaimReceive_waits,
    fun s h k hc => State.claimsRun_gives hc, fun s h x rest c => irqClaimedReceive_gives, fun s h x rest c => irqClaimedReceive_empty,
    fun s v => irqDoneWrite_frees, fun s v => irqDoneWrite_other, fun s f => irqSlotRelease_frees, fun s h x rest hu hl => ?_,
    fun s h x rest hu hl => ?_, fun s => irqClaimTimeout_withdraws, fun s => irqHoldTimeout_ends, fun s => trapClear_ends,
    fun s k => sourceCountClear_clears⟩
  · exact ⟨_, congrArg Host.Outcome.next (State.irqMsg_here hu hl), rfl, rfl, rfl⟩
  · exact ⟨_, congrArg Host.Outcome.next (State.irqMsg_here hu hl), rfl, rfl, rfl⟩

end Sys2Proof.Machine
end

section
/-! SUPPORT. The interrupt router: registration, offers and their answers, and frames without an answer (O33). -/

set_option Elab.async false

namespace Sys2Proof.Machine

variable {s t u : State} {h k b x : Nat}

/-! ### Registration -/

/-- A field of a register after another of the same register is set. -/
theorem State.get_set_within {a lo len lo' len' v : Nat} (hf : lo + len ≤ 20) (hd : lo + len ≤ lo' ∨ lo' + len' ≤ lo) :
    (s.set ⟨a, lo, len⟩ v).get ⟨a, lo', len'⟩ = s.get ⟨a, lo', len'⟩ :=
  State.get_set_disj s ⟨a, lo, len⟩ ⟨a, lo', len'⟩ rfl hf hd v

/-- A field after it is set itself. -/
theorem State.get_set_own {a lo len v : Nat} (hf : lo + len ≤ 20) : (s.set ⟨a, lo, len⟩ v).get ⟨a, lo, len⟩ = v % 2 ^ len :=
  State.get_set_self s ⟨a, lo, len⟩ hf v

/-- An entry of the host table as it is written. -/
theorem State.htabSet_shows {r p q : Nat} :
    (s.htabSet h b r p q).get (F.IRT_HTAB.BAY h) = b % 64 ∧ (s.htabSet h b r p q).get (F.IRT_HTAB.REG h) = r % 2
      ∧ (s.htabSet h b r p q).get (F.IRT_HTAB.PRIO h) = p % 16 ∧ (s.htabSet h b r p q).get (F.IRT_HTAB.SLOT h) = q % 4
      ∧ (s.htabSet h b r p q).get (F.IRT_HTAB.VALID h) = 1 := by
  simp only [State.htabSet, F.IRT_HTAB.BAY, F.IRT_HTAB.REG, F.IRT_HTAB.PRIO, F.IRT_HTAB.SLOT, F.IRT_HTAB.VALID]
  simp (disch := decide) only [State.get_set_within, State.get_set_own]
  exact ⟨rfl, rfl, rfl, rfl, rfl⟩

/-- A host takes an entry that nobody holds. -/
theorem State.htabTake_new {p q : Nat} (hv : s.bit (F.IRT_HTAB.VALID h) = false) :
    s.htabTake h b 1 p q = (if q = 0 then s.updIrt fun r => { r with excl := r.excl.filter fun x => x ≠ h } else s).htabSet h b 1 p q := by
  unfold State.htabTake
  exact (if_neg (by decide)).trans (if_pos (by rw [hv]; simp))

theorem State.hostShow_new (hh : h < 8) (hv : s.bit (F.IRT_HTAB.VALID h) = false) :
    (s.hostShow h 1).get (F.IRT_HTAB.BAY h) = s.bay ∧ (s.hostShow h 1).get (F.IRT_HTAB.REG h) = 1
      ∧ (s.hostShow h 1).get (F.IRT_HTAB.PRIO h) = s.get F.IRT_HOST.PRIO ∧ (s.hostShow h 1).get (F.IRT_HTAB.VALID h) = 1 := by
  have hbay : s.bay % 64 = s.bay := Nat.mod_eq_of_lt (s.get_lt F.GAL_STAT.BAY)
  have hpr : s.get F.IRT_HOST.PRIO % 16 = s.get F.IRT_HOST.PRIO := Nat.mod_eq_of_lt (s.get_lt F.IRT_HOST.PRIO)
  obtain ⟨v, hv'⟩ : ∃ v, s.htabTake h s.bay 1 (s.get F.IRT_HOST.PRIO) s.slot = v := ⟨_, rfl⟩
  have hw : v.get (F.IRT_HTAB.BAY h) = s.bay ∧ v.get (F.IRT_HTAB.REG h) = 1 ∧ v.get (F.IRT_HTAB.PRIO h) = s.get F.IRT_HOST.PRIO
      ∧ v.get (F.IRT_HTAB.VALID h) = 1 := by
    rw [← hv', State.htabTake_new hv]
    obtain ⟨h1, h2, h3, -, h5⟩ := State.htabSet_shows (s := if s.slot = 0 then s.updIrt fun r => { r with excl := r.excl.filter fun x => x ≠ h } else s)
      (h := h) (b := s.bay) (r := 1) (p := s.get F.IRT_HOST.PRIO) (q := s.slot)
    exact ⟨h1.trans hbay, h2, h3.trans hpr, h5⟩
  have hvb : v.bay = s.bay := hv' ▸ (State.htabTake_reach hh).get (f := F.GAL_STAT.BAY)
  have hr : (s.hostShow h 1).regs = v.regs := by
    unfold State.hostShow
    dsimp only
    rw [hv', if_neg (show ¬(decide (1 = 1) && decide (v.get (F.IRT_HTAB.BAY h) ≠ v.bay)) = true by rw [hw.1, hvb]; simp)]
    split <;> rfl
  obtain ⟨h1, h2, h3, h4⟩ := hw
  exact ⟨(State.get_of_regs hr _).trans h1, (State.get_of_regs hr _).trans h2, (State.get_of_regs hr _).trans h3,
    (State.get_of_regs hr _).trans h4⟩

theorem htab_ne {g : Nat} (hg : h ≠ g) : (F.IRT_HTAB.VALID h).addr ≠ R.IRT_HTAB g := by
  simp only [F.IRT_HTAB.VALID, R.IRT_HTAB]
  omega

/-- A bay without a number gives up the entry of the host's old HID: another entry stays. -/
theorem State.moved_keeps {c : Prop} {_ : Decidable c} {g : Nat} (hg : c → h ≠ g) (hgl : g < 8) {u : State}
    (hu : (if c then s.setReg (R.IRT_HTAB g) 0 else s) = u) : u.bit (F.IRT_HTAB.VALID h) = s.bit (F.IRT_HTAB.VALID h) ∧ u.bay = s.bay := by
  subst hu
  split
  · next hc =>
    have ha : F.GAL_STAT.BAY.addr ≠ R.IRT_HTAB g := by
      simp only [F.GAL_STAT.BAY, R.GAL_STAT, R.IRT_HTAB]
      omega
    exact ⟨State.bit_eq_of_get (s.get_setReg_ne (htab_ne (hg hc)) 0), s.get_setReg_ne (f := F.GAL_STAT.BAY) ha 0⟩
  · exact ⟨rfl, rfl⟩

theorem htab_ne_host : (F.IRT_HTAB.VALID h).addr ≠ R.IRT_HOST := by
  simp only [F.IRT_HTAB.VALID, R.IRT_HTAB, R.IRT_HOST]
  omega

theorem htab_ne_hidconf : (F.IRT_HTAB.VALID h).addr ≠ F.IRT_HSTAT.HIDCONF.addr := by
  simp only [F.IRT_HTAB.VALID, R.IRT_HTAB, F.IRT_HSTAT.HIDCONF, R.IRT_HSTAT]
  omega

/-- The registration of a host at an entry that nobody holds, once IRT_HOST has its word. -/
theorem State.hostTell_new {v : Word} (hh : h < 8) {w : State} (hw : w.reg R.IRT_HOST = v) (hid : v.toNat % 8 = h)
    (hreg : bitOf v.toNat 3 = true) (hv : w.bit (F.IRT_HTAB.VALID h) = false) :
    w.hostTell.reg R.IRT_HOST = v ∧ w.hostTell.bit (F.IRT_HTAB.VALID h) = true ∧ w.hostTell.bit (F.IRT_HTAB.REG h) = true
      ∧ w.hostTell.get (F.IRT_HTAB.BAY h) = w.bay ∧ w.hostTell.get (F.IRT_HTAB.PRIO h) = v.toNat / 16 % 16 := by
  have hwid : w.hid = h := by
    change (w.reg R.IRT_HOST).toNat / 2 ^ 0 % 2 ^ 3 = h
    rw [hw, Nat.pow_zero, Nat.div_one]
    exact hid
  have hwr : w.bit F.IRT_HOST.REG = true := by
    have h1 : v.toNat / 2 ^ 3 % 2 = 1 := of_decide_eq_true hreg
    refine State.bit_of_get_one ?_
    change (w.reg R.IRT_HOST).toNat / 2 ^ 3 % 2 ^ 1 = 1
    rw [hw]
    exact h1
  have hwp : w.get F.IRT_HOST.PRIO = v.toNat / 16 % 16 := by
    change (w.reg R.IRT_HOST).toNat / 2 ^ 4 % 2 ^ 4 = v.toNat / 2 ^ 4 % 2 ^ 4
    rw [hw]
  have he : w.hostTell = w.hostShow h 1 := by
    unfold State.hostTell
    rw [if_pos hwr, hwid]
  obtain ⟨h1, h2, h3, h4⟩ := State.hostShow_new hh hv
  rw [he]
  exact ⟨((State.hostShow_reach hh).reg R.IRT_HOST (by decide)).trans hw, State.bit_of_get_one h4, State.bit_of_get_one h2, h1, h3.trans hwp⟩

/-- A write of IRT_HOST that registers a host at an entry that nobody holds. -/
theorem hostRegister_enters {g : Fin 8} {p : Fin 16} {v : Word} (hu : s.irtUp = true) (hr : s.bit F.IRT_HOST.REG = false)
    (hv : s.bit (F.IRT_HTAB.VALID g) = false) (he : v.toNat = g + 8 + 16 * p) :
    GoesTo (exec (.hostRegister v) s) fun t =>
      t.reg R.IRT_HOST = v ∧ t.bit (F.IRT_HTAB.VALID g) = true ∧ t.bit (F.IRT_HTAB.REG g) = true
      ∧ t.get (F.IRT_HTAB.BAY g) = s.bay ∧ t.get (F.IRT_HTAB.PRIO g) = p := by
  have hg := g.isLt
  have hp := p.isLt
  have hnew : (BitVec.ofNat 20 (v.toNat % 256) : Word) = v := by
    apply BitVec.eq_of_toNat_eq
    rw [BitVec.toNat_ofNat, he]
    omega
  have hid : v.toNat % 8 = g := by omega
  have hreg : bitOf v.toNat 3 = true := decide_eq_true (by omega)
  have hne : v ≠ s.reg R.IRT_HOST := by
    intro e
    have h0 : (s.reg R.IRT_HOST).toNat / 2 ^ 3 % 2 ^ 1 = 0 := by simpa [State.bit, State.get, fldGet, F.IRT_HOST.REG] using hr
    rw [← e] at h0
    omega
  obtain ⟨own, hown⟩ : ∃ own, (decide (s.bay = 0) && s.bit (F.IRT_HTAB.VALID s.hid) && decide (s.get (F.IRT_HTAB.BAY s.hid) = 0)) = own := ⟨_, rfl⟩
  obtain ⟨u, hu'⟩ : ∃ u, (if (own && decide (s.hid ≠ g)) = true then s.setReg (R.IRT_HTAB s.hid) 0 else s) = u := ⟨_, rfl⟩
  obtain ⟨huv, hub⟩ := State.moved_keeps (h := g) (fun hc e => by simp [e] at hc) State.hid_lt hu'
  obtain ⟨w, hw⟩ : ∃ w, u.setReg R.IRT_HOST v = w := ⟨_, rfl⟩
  have hwh : w.reg R.IRT_HOST = v := hw ▸ u.reg_setReg_self _ _
  have hwv : w.bit (F.IRT_HTAB.VALID g) = false := by
    rw [← hw, State.bit_eq_of_get (u.get_setReg_ne htab_ne_host v), huv, hv]
  have hwb : w.bay = s.bay := by
    rw [← hub, ← hw]
    exact u.get_setReg_ne (f := F.GAL_STAT.BAY) (by decide) v
  have hz : (w.set F.IRT_HSTAT.HIDCONF 0).bit (F.IRT_HTAB.VALID g) = false := by
    rw [State.bit_eq_of_get (w.get_set_addr _ _ htab_ne_hidconf 0), hwv]
  obtain ⟨h1, h2, h3, h4, h5⟩ := State.hostTell_new hg ((w.reg_set F.IRT_HSTAT.HIDCONF 0 R.IRT_HOST (by decide)).trans hwh) hid hreg hz
  refine ⟨(w.set F.IRT_HSTAT.HIDCONF 0).hostTell, congrArg Host.Outcome.next ((if_pos hu).trans ?_), h1, h2, h3,
    h4.trans ((w.get_set_addr F.IRT_HSTAT.HIDCONF F.GAL_STAT.BAY (by decide) 0).trans hwb), h5.trans (by omega)⟩
  unfold State.hostWrite
  dsimp only
  rw [hnew, if_neg hne, hr, Bool.false_and]
  simp only [Bool.false_eq_true, if_false]
  rw [hid, hown, hu', hw, hreg, hwv]
  simp

/-! ### Bytes -/

theorem leNat_leBytes (n v : Nat) : leNat (leBytes n v) = v % 256 ^ n := by
  induction n generalizing v with
  | zero => exact (Nat.mod_one v).symm
  | succ n ih =>
    rw [leBytes, leNat, ih, BitVec.toNat_ofNat]
    exact (Nat.pow_succ' ▸ Nat.mod_mul : v % 256 ^ (n + 1) = v % 256 + 256 * (v / 256 % 256 ^ n)).symm

/-! ### HOSTSTATE -/

/-- The oldest frame of an exchange is taken by its command. -/
theorem State.irqMsg_frame {sub : Nat} {r : RxFrame} {f : State → Nat → Nat → Nat → State} (hu : s.irtUp = true)
    (hr : s.rxFirst (fun r => r.act && r.f.kind = 10 && frSub r.f = sub) = some r) :
    s.irqMsg false sub f
      = f (s.updGal fun g => { g with rx := g.rx.erase r }) r.f.src.toNat (leAt r.f.payload 1 1) (leAt r.f.payload 2 2) := by
  unfold State.irqMsg State.rxTake
  rw [hu, hr]
  rfl

theorem hoststateReceive_enters {g : Fin 8} {p : Fin 16} {k : Fin 4} {r : RxFrame} (hu : s.irtUp = true)
    (hr : s.rxFirst (fun r => r.act && r.f.kind = 10 && frSub r.f = 7) = some r)
    (hp : r.f.payload = [7, byteOf g] ++ leBytes 2 (1 + 2 * p + 32 * k)) (hv : s.bit (F.IRT_HTAB.VALID g) = false) :
    GoesTo (exec .hoststateReceive s) fun t =>
      t.bit (F.IRT_HTAB.VALID g) = true ∧ t.get (F.IRT_HTAB.BAY g) = r.f.src.toNat ∧ t.get (F.IRT_HTAB.PRIO g) = p
      ∧ t.get (F.IRT_HTAB.SLOT g) = k ∧ t.gal.rx = s.gal.rx.erase r := by
  have hg := g.isLt
  have hpl := p.isLt
  have hk := k.isLt
  have hx1 : leAt r.f.payload 1 1 = g := by
    rw [hp]
    change (byteOf g).toNat + 256 * 0 = g
    rw [byteOf, BitVec.toNat_ofNat]
    omega
  have hx2 : leAt r.f.payload 2 2 = 1 + 2 * p + 32 * k := by
    rw [hp]
    refine (leNat_leBytes 2 _).trans (Nat.mod_eq_of_lt (by omega))
  obtain ⟨u, hu'⟩ : ∃ u, (s.updGal fun q => { q with rx := q.rx.erase r }) = u := ⟨_, rfl⟩
  have huv : u.bit (F.IRT_HTAB.VALID g) = false := hu' ▸ hv
  have hug : u.gal.rx = s.gal.rx.erase r := by rw [← hu']; rfl
  obtain ⟨w, hw⟩ : ∃ w, u.htabTake g r.f.src.toNat 1 p k = w := ⟨_, rfl⟩
  have hwn := (State.htabTake_new (b := r.f.src.toNat) (p := p.val) (q := k.val) huv).symm.trans hw
  obtain ⟨e, he⟩ : ∃ e, (if k.val = 0 then u.updIrt fun q => { q with excl := q.excl.filter fun x => x ≠ g.val } else u) = e := ⟨_, rfl⟩
  rw [he] at hwn
  have heg : e.gal = u.gal := by
    rw [← he]
    split <;> rfl
  have hwg : w.gal.rx = s.gal.rx.erase r := by
    rw [← hwn, ← hug, ← heg]
    rfl
  obtain ⟨h1, -, h3, h4, h5⟩ := State.htabSet_shows (s := e) (h := g) (b := r.f.src.toNat) (r := 1) (p := p) (q := k)
  rw [hwn] at h1 h3 h4 h5
  have hend : ∀ c : Bool, ∀ f : Fld, f.addr ≠ F.IRT_HSTAT.HIDCONF.addr → (if c then w.set F.IRT_HSTAT.HIDCONF 1 else w).get f = w.get f := by
    intro c f hf
    cases c
    · rfl
    · exact w.get_set_addr _ _ hf 1
  have hne : (F.IRT_HTAB.VALID g).addr ≠ F.IRT_HSTAT.HIDCONF.addr := htab_ne_hidconf
  refine ⟨_, congrArg Host.Outcome.next ((State.irqMsg_frame hu hr).trans (show _ = if (w.bit F.IRT_HOST.REG && w.hid = g.val && decide (r.f.src.toNat < w.bay)) then
      w.set F.IRT_HSTAT.HIDCONF 1 else w from ?_)), State.bit_of_get_one ((hend _ _ hne).trans h5),
    (hend _ (F.IRT_HTAB.BAY g) hne).trans (h1.trans (Nat.mod_eq_of_lt r.f.src.isLt)),
    (hend _ (F.IRT_HTAB.PRIO g) hne).trans (h3.trans (Nat.mod_eq_of_lt hpl)),
    (hend _ (F.IRT_HTAB.SLOT g) hne).trans (h4.trans (Nat.mod_eq_of_lt hk)), ?_⟩
  · have hx : leAt r.f.payload 2 2 % 2 = 1 ∧ leAt r.f.payload 2 2 / 2 % 16 = p ∧ leAt r.f.payload 2 2 / 32 % 4 = k := by
      rw [hx2]
      omega
    obtain ⟨hr1, hr2, hr3⟩ := hx
    unfold State.hoststate
    dsimp only
    rw [hx1, Nat.mod_eq_of_lt hg, hu', hr1, hr2, hr3, hw]
    simp
  · split
    · exact hwg
    · exact hwg

/-! ### Offers -/

/-- The order of offers: lower PRIO, then lower bay. -/
def State.hostKey (s : State) (h : Nat) : Nat := s.get (F.IRT_HTAB.PRIO h) * 64 + s.get (F.IRT_HTAB.BAY h)

theorem State.hostBetter_iff {a : Nat} : s.hostBetter a b = true ↔ s.hostKey a < s.hostKey b :=
  decide_eq_true_iff

/-- The choice among hosts ends at one of them, and none is better. -/
theorem State.best_host (l : List Nat) (a : Nat) :
    (l.foldl (fun a b => if s.hostBetter b a then b else a) a) ∈ a :: l
      ∧ ∀ x ∈ a :: l, s.hostBetter x (l.foldl (fun a b => if s.hostBetter b a then b else a) a) = false := by
  induction l generalizing a with
  | nil =>
    refine ⟨List.mem_singleton.2 rfl, fun x hx => ?_⟩
    rw [List.mem_singleton.1 hx]
    exact decide_eq_false (Nat.lt_irrefl _)
  | cons c l ih =>
    obtain ⟨e, he⟩ : ∃ e, (if s.hostBetter c a then c else a) = e := ⟨_, rfl⟩
    have hm : e = c ∨ e = a := by
      rw [← he]
      split
      · exact .inl rfl
      · exact .inr rfl
    have hle : s.hostKey e ≤ s.hostKey a ∧ s.hostKey e ≤ s.hostKey c := by
      rw [← he]
      split
      · next h =>
        have := State.hostBetter_iff.1 h
        omega
      · next h =>
        have := mt State.hostBetter_iff.2 h
        omega
    obtain ⟨h1, h2⟩ := ih e
    rw [List.foldl_cons, he]
    have he2 := h2 e (.head _)
    have hkey : ∀ x, s.hostKey e ≤ s.hostKey x → s.hostBetter x (l.foldl (fun a b => if s.hostBetter b a then b else a) e) = false := by
      intro x hx
      refine Bool.eq_false_iff.2 fun hb => ?_
      have hlt := State.hostBetter_iff.1 hb
      have hnl := mt State.hostBetter_iff.2 (Bool.eq_false_iff.1 he2)
      omega
    refine ⟨?_, fun x hx => ?_⟩
    · rcases List.mem_cons.1 h1 with h1 | h1
      · rw [h1]
        rcases hm with hm | hm <;> simp [hm]
      · exact .tail _ (.tail _ h1)
    · rcases List.mem_cons.1 hx with rfl | hx
      · exact hkey _ hle.1
      · rcases List.mem_cons.1 hx with rfl | hx
        · exact hkey _ hle.2
        · exact h2 x (.tail _ hx)

theorem irqEvaluate_offers {k : Fin 320} (hu : s.irtUp = true) (ho : s.irt.offer = none) (ht : s.irt.evalT ≤ s.thirds)
    (hk : s.hostsFor k ≠ []) (hj : ∀ j : Fin 320, j < k → s.hostsFor j = []) :
    GoesTo (exec .irqEvaluate s) fun t =>
      (∃ h, h ∈ s.hostsFor k ∧ (∀ x, x ∈ s.hostsFor k → s.hostBetter x h = false)
        ∧ t.irt.offer = some ⟨s.get (F.IRT_HTAB.BAY h), h, k, 0, s.fclk⟩
        ∧ (s.isHere (s.get (F.IRT_HTAB.BAY h)) = true → t.irt.loc = s.irt.loc ++ [(0, h, k.val)])) ∧ t.regs = s.regs := by
  have hf : (List.range 320).find? (fun k => !(s.hostsFor k).isEmpty) = some k.val :=
    find_source (by simpa [List.isEmpty_iff] using hk) fun j hlt => by rw [hj j hlt]; rfl
  have he : exec .irqEvaluate s = .next s.irqEvaluate :=
    congrArg Host.Outcome.next (if_pos (by rw [hu, ho, decide_eq_true ht]; rfl))
  rw [he]
  cases hl : s.hostsFor k with
  | nil => exact absurd hl hk
  | cons a l =>
    obtain ⟨hm, hb⟩ := s.best_host l a
    obtain ⟨h, hh⟩ : ∃ h, l.foldl (fun a b => if s.hostBetter b a then b else a) a = h := ⟨_, rfl⟩
    rw [hh] at hm hb
    refine ⟨(s.irqTo (s.get (F.IRT_HTAB.BAY h)) 0 h k).updIrt fun r =>
        { r with offer := some ⟨s.get (F.IRT_HTAB.BAY h), h, k, 0, s.fclk⟩, once := if r.once.map (·.2) = some k.val then none else r.once },
      congrArg Host.Outcome.next ?_, ⟨h, hm, hb, rfl, fun hi => ?_⟩, State.irqTo_regs⟩
    · unfold State.irqEvaluate
      rw [hf]
      dsimp only
      rw [hl]
      dsimp only
      rw [hh]
    · rw [State.irqTo_here hi]
      rfl

/-- The outstanding OFFER is the one that an answer from within the bay names. -/
theorem State.offerIs_here {rest : List (Nat × Nat × Nat)} {n f : Nat} {v : State} (hv : (s.updIrt fun r => { r with loc := rest }) = v)
    (ho : s.irt.offer = some ⟨b, h, x, n, f⟩) (hb : s.isHere b = true) : v.offerIs s.bay h x = true := by
  subst hv
  unfold State.offerIs
  rw [show (s.updIrt fun r => { r with loc := rest }).irt.offer = _ from ho]
  change (((decide (b = s.bay) || (s.isHere b && s.isHere s.bay)) && decide (h = h)) && decide (x = x)) = true
  rw [hb, State.isHere_bay]
  simp

section
variable {rest : List (Nat × Nat × Nat)} (hu : s.irtUp = true)
include hu

theorem irqOfferReceive_accepts {x : Fin 320} (hl : s.irt.loc = (0, h, x.val) :: rest) (hs : s.slot = 0)
    (hr : s.bit F.IRT_HOST.REG = true) (hh : s.hid = h) (hc : s.bit F.IRT_HSTAT.HIDCONF = false) :
    GoesTo (exec (.irqOfferReceive true) s) fun t =>
      t.slot = 1 ∧ t.hirq = true ∧ t.get F.IRT_HSLOT.SRC = x ∧ t.get F.IRT_HSLOT.BAY = s.bay ∧ t.irt.slotT = s.fclk
      ∧ t.irt.loc = rest ++ [(1, h, x.val)] := by
  have hx := x.isLt
  have hbay : s.bay < 64 := s.get_lt F.GAL_STAT.BAY
  obtain ⟨v, hv⟩ : ∃ v, (s.updIrt fun r => { r with loc := rest }) = v := ⟨_, rfl⟩
  have hcond : (v.slot = 0 && v.bit F.IRT_HOST.REG && v.hid = h && !v.bit F.IRT_HSTAT.HIDCONF) = true := by
    subst hv
    change (decide (s.slot = 0) && s.bit F.IRT_HOST.REG && decide (s.hid = h) && !s.bit F.IRT_HSTAT.HIDCONF) = true
    rw [hs, hr, hc, decide_eq_true hh]
    rfl
  have hvf : v.fclk = s.fclk := by rw [← hv]; rfl
  have hvb : v.bay = s.bay := by rw [← hv]; rfl
  have hvl : v.irt.loc = rest := by rw [← hv]; rfl
  obtain ⟨w, hw⟩ : ∃ w, ((v.set F.IRT_HSLOT.SRC x).set F.IRT_HSLOT.BAY s.bay).updIrt (fun r => { r with slotT := v.fclk }) = w := ⟨_, rfl⟩
  have hwb : w.bay = s.bay := by
    rw [← hw, ← hvb]
    exact ((v.set F.IRT_HSLOT.SRC x).get_set_addr F.IRT_HSLOT.BAY F.GAL_STAT.BAY (by decide) _).trans
      (v.get_set_addr F.IRT_HSLOT.SRC F.GAL_STAT.BAY (by decide) _)
  have hws : w.get F.IRT_HSLOT.SRC = x := by
    rw [← hw]
    refine (State.get_set_disj (v.set F.IRT_HSLOT.SRC x) F.IRT_HSLOT.BAY F.IRT_HSLOT.SRC (by decide) (by decide) (by decide) _).trans
      ((v.get_set_self F.IRT_HSLOT.SRC (by decide) _).trans (Nat.mod_eq_of_lt (show x.val < 1024 by omega)))
  have hwy : w.get F.IRT_HSLOT.BAY = s.bay := by
    rw [← hw]
    exact ((v.set F.IRT_HSLOT.SRC x).get_set_self F.IRT_HSLOT.BAY (by decide) _).trans (Nat.mod_eq_of_lt hbay)
  have hwt : w.irt.slotT = s.fclk ∧ w.irt.loc = rest := by
    rw [← hw, ← hvf, ← hvl]
    exact ⟨rfl, rfl⟩
  have hwh : w.isHere s.bay = true := by
    rw [← hwb]
    exact State.isHere_bay
  obtain ⟨y, hy⟩ : ∃ y, (w.updIrt fun r => { r with loc := r.loc ++ [(1, h, x.val)] }) = y := ⟨_, rfl⟩
  have hyr : y.regs = w.regs := by rw [← hy]; rfl
  have hyi : y.irt.slotT = s.fclk ∧ y.irt.loc = rest ++ [(1, h, x.val)] := by
    obtain ⟨h1, h2⟩ := hwt
    rw [← hy, ← h1, ← h2]
    exact ⟨rfl, rfl⟩
  have h1 : (y.slotSet 1).slot = 1 := State.slot_slotSet (by decide)
  refine ⟨y.slotSet 1, congrArg Host.Outcome.next ((State.irqMsg_here hu hl).trans ?_), h1, ?_, ?_, ?_, State.slotSet_shown.slotT.trans hyi.1,
    State.slotSet_shown.loc.trans hyi.2⟩
  · rw [hv]
    unfold State.offerTake
    rw [if_pos hcond]
    dsimp only
    rw [hw, State.irqTo_here hwh, hy]
  · unfold State.hirq
    rw [h1]
    rfl
  · exact (State.get_slotSet (f := F.IRT_HSLOT.SRC)).trans ((State.get_of_regs hyr _).trans hws)
  · exact (State.get_slotSet (f := F.IRT_HSLOT.BAY)).trans ((State.get_of_regs hyr _).trans hwy)

theorem irqOfferReceive_refuses (hl : s.irt.loc = (0, h, x) :: rest) (hs : s.slot ≠ 0) :
    GoesTo (exec (.irqOfferReceive true) s) fun t => t.irt.loc = rest ++ [(2, h, x)] ∧ t.regs = s.regs := by
  refine ⟨(s.updIrt fun r => { r with loc := rest }).updIrt fun r => { r with loc := r.loc ++ [(2, h, x)] },
    congrArg Host.Outcome.next ((State.irqMsg_here hu hl).trans ((if_neg ?_).trans (State.irqTo_here State.isHere_bay))), rfl, rfl⟩
  change ¬(decide (s.slot = 0) && s.bit F.IRT_HOST.REG && decide (s.hid = h) && !s.bit F.IRT_HSTAT.HIDCONF) = true
  rw [decide_eq_false hs]
  simp

end

section
variable {rest : List (Nat × Nat × Nat)} {n f : Nat} (hu : s.irtUp = true) (ho : s.irt.offer = some ⟨b, h, x, n, f⟩) (hb : s.isHere b = true)
include hu ho hb

theorem irqAcceptReceive_ends (hl : s.irt.loc = (1, h, x) :: rest) :
    GoesTo (exec (.irqAcceptReceive true) s) fun t => t.irt.offer = none ∧ t.irt.excl = s.irt.excl ∧ t.regs = s.regs :=
  ⟨_, congrArg Host.Outcome.next ((State.irqMsg_here hu hl).trans (if_pos (State.offerIs_here rfl ho hb))), rfl, rfl, rfl⟩

theorem irqRefuseReceive_excludes (hl : s.irt.loc = (2, h, x) :: rest) :
    GoesTo (exec (.irqRefuseReceive true) s) fun t => t.irt.offer = none ∧ h ∈ t.irt.excl ∧ t.regs = s.regs :=
  ⟨_, congrArg Host.Outcome.next ((State.irqMsg_here hu hl).trans (if_pos (State.offerIs_here rfl ho hb))), rfl, .head _, rfl⟩

end

/-! ### Frames without an answer -/

section
variable {o : IrqAsk} (hu : s.irtUp = true) (ht : o.t + s.replyTime ≤ s.fclk)
include hu ht

theorem irqFrameNoReply_asksAgain (ho : s.irt.offer = some o) (hc : s.comes (isReply false) = false)
    (hn : o.tries < s.get F.GAL_CFG.RETRY) :
    GoesTo (exec (.irqFrameNoReply false) s) fun t =>
      t.irt.offer = some { o with tries := o.tries + 1, t := s.fclk } ∧ t.regs = s.regs := by
  refine ⟨(s.irqTo o.bay 0 o.hid o.src).updIrt fun r => { r with offer := some { o with tries := o.tries + 1, t := s.fclk } },
    congrArg Host.Outcome.next ?_, rfl, State.irqTo_regs⟩
  dsimp only
  rw [if_neg Bool.false_ne_true, ho]
  dsimp only
  rw [if_pos (by rw [hu, hc, decide_eq_true ht]; rfl), if_pos hn, if_neg Bool.false_ne_true]

theorem irqFrameNoReply_excludes (ho : s.irt.offer = some o) (hc : s.comes (isReply false) = false)
    (hn : s.get F.GAL_CFG.RETRY ≤ o.tries) :
    GoesTo (exec (.irqFrameNoReply false) s) fun t => t.irt.offer = none ∧ o.hid ∈ t.irt.excl ∧ t.regs = s.regs := by
  refine ⟨s.updIrt fun r => { r with offer := none, excl := o.hid :: r.excl.filter fun y => y ≠ o.hid },
    congrArg Host.Outcome.next ?_, rfl, .head _, rfl⟩
  dsimp only
  rw [if_neg Bool.false_ne_true, ho]
  dsimp only
  rw [if_pos (by rw [hu, hc, decide_eq_true ht]; rfl), if_neg (Nat.not_lt.2 hn), if_neg Bool.false_ne_true]

theorem irqFrameNoReply_claimsAgain (ho : s.irt.claim = some o) (hc : s.comes (isReply true) = false)
    (hn : o.tries < s.get F.GAL_CFG.RETRY) :
    GoesTo (exec (.irqFrameNoReply true) s) fun t =>
      t.irt.claim = some { o with tries := o.tries + 1, t := s.fclk } ∧ t.slot = s.slot ∧ t.regs = s.regs := by
  refine ⟨(s.irqTo o.bay 3 s.hid 0).updIrt fun r => { r with claim := some { o with tries := o.tries + 1, t := s.fclk } },
    congrArg Host.Outcome.next ?_, rfl, State.get_of_regs (State.irqTo_regs (s := s)) F.IRT_HSTAT.SLOT, State.irqTo_regs⟩
  dsimp only
  rw [if_pos rfl, ho]
  dsimp only
  rw [if_pos (by rw [hu, hc, decide_eq_true ht]; rfl), if_pos hn, if_pos rfl]

theorem irqFrameNoReply_ends (ho : s.irt.claim = some o) (hc : s.comes (isReply true) = false) (hn : s.get F.GAL_CFG.RETRY ≤ o.tries) :
    GoesTo (exec (.irqFrameNoReply true) s) fun t =>
      t.irt.claim = none ∧ t.slot = 0 ∧ t.reg R.IRT_CLAIM = 1023 ∧ t.host.claimed = some 1023 := by
  obtain ⟨h1, h2, h3, h4, -⟩ := s.claimEmpty_ends
  refine ⟨s.claimEmpty, congrArg Host.Outcome.next ?_, h4, h1, h2, h3⟩
  dsimp only
  rw [if_pos rfl, ho]
  dsimp only
  rw [if_pos (by rw [hu, hc, decide_eq_true ht]; rfl), if_neg (Nat.not_lt.2 hn), if_pos rfl]

end

/-- Settles O33: registration, HOSTSTATE, offers and their answers, repeats and their end. -/
theorem interruptsAreOfferedAndClaimed : Obligations.InterruptsAreOfferedAndClaimed := by
  unfold Obligations.InterruptsAreOfferedAndClaimed
  refine ⟨fun s h p v => hostRegister_enters, fun s h p k r => hoststateReceive_enters, fun s k => irqEvaluate_offers,
    fun s h x rest hu => irqOfferReceive_accepts hu, fun s h x rest hu => irqOfferReceive_refuses hu,
    fun s h x rest b n f hu hl ho hb => irqAcceptReceive_ends hu ho hb hl, fun s h x rest b n f hu hl ho hb => irqRefuseReceive_excludes hu ho hb hl,
    fun s o hu ho ht => irqFrameNoReply_asksAgain hu ht ho, fun s o hu ho ht => irqFrameNoReply_excludes hu ht ho,
    fun s o hu ho ht => irqFrameNoReply_claimsAgain hu ht ho, fun s o hu ho ht => irqFrameNoReply_ends hu ht ho⟩

end Sys2Proof.Machine
end

section
/-! SUPPORT. The Gallery: frames taken from the lanes, and RESET frames (O53). -/

set_option Elab.async false

namespace Sys2Proof.Machine

variable {s t u : State} {f : Frame} {k : List Byte}

/-! ### A frame passes on -/

/-- With the lanes free a frame of another bay leaves at once. -/
theorem State.pass_free {i : LaneItem} (hl : s.lanesFree = true) : s.pass i = s.leave i 52 := by
  obtain ⟨⟨⟨hb, hh⟩, -⟩, -⟩ : ((s.bypassOpen = true ∧ s.gal.hold.isNone = true) ∧ s.gal.transit.isEmpty = true) ∧ s.gal.outT ≤ s.fclk := by
    simpa [State.lanesFree] using hl
  have hc : (s.bypass || s.gal.hold.isSome) = false := by
    rw [State.bypass, hb, Option.isNone_iff_eq_none.1 hh]
    rfl
  unfold State.pass
  rw [hc, if_neg Bool.false_ne_true, if_pos hl]

theorem State.bypass_of_lanesFree (hl : s.lanesFree = true) : s.bypass = false := by
  have hb : s.bypassOpen = true := by
    simp only [State.lanesFree, Bool.and_eq_true] at hl
    exact hl.1.1.1
  rw [State.bypass, hb]
  rfl

/-- What an item that leaves keeps, and what it sends. -/
structure Left (p c : Option Frame) (s t : State) : Prop where
  regs : t.regs = s.regs
  reach : Reach ⟨[.gal], []⟩ s t
  outP : t.gal.outP = p
  outC : t.gal.outC = c
  gal : { t.gal with outP := s.gal.outP, outC := s.gal.outC, laneP := s.gal.laneP, laneC := s.gal.laneC, rdP := s.gal.rdP,
                     rdC := s.gal.rdC, outT := s.gal.outT } = s.gal

theorem State.leave_left {p c : Frame} {d : Nat} : Left (some p) (some c) s (s.leave (.whole p c) d) :=
  ⟨rfl, State.leave_reach, rfl, rfl, rfl⟩

section
variable {p c : Option Frame} (h : Left p c s t)
include h

theorem Left.rx : t.gal.rx = s.gal.rx := (congrArg Gal.rx h.gal :)
theorem Left.sk : t.gal.sk = s.gal.sk := (congrArg Gal.sk h.gal :)
theorem Left.lastSeq : t.gal.lastSeq = s.gal.lastSeq := (congrArg Gal.lastSeq h.gal :)

end

theorem State.forward_left (hl : s.lanesFree = true) : Left (some (frHop f)) (some (frHop f)) s (s.forward f) := by
  unfold State.forward
  rw [State.pass_free hl]
  exact State.leave_left

/-! ### A frame is taken -/

/-- Kinds of frames that wait for their command and are not changed as they pass, each with a tag under the session key. -/
def plainKind (f : Frame) : Prop := f.kind = 12 ∨ f.kind = 14

/-- Of a frame for all that passes its bay, the bay takes what passes its checks. -/
theorem State.frameIn_plain (hk : plainKind f) (hl : s.lanesFree = true) (hd : f.dst = 63) (hb : s.bay ≠ 0) (hs : f.src.toNat ≠ s.bay)
    (hm : s.member = true) :
    s.frameIn f = if ((s.forward f).check f).1 then ((s.forward f).check f).2.deliver f else ((s.forward f).check f).2 := by
  have hleft := State.forward_left (f := f) hl
  have ht : (s.forward f).takes f = true := by
    have h1 : (s.forward f).member = true := (State.bit_eq_of_get (State.get_of_regs hleft.regs F.GAL_STAT.ROLE)).trans hm
    have h2 : (s.forward f).bay = s.bay := State.get_of_regs hleft.regs F.GAL_STAT.BAY
    unfold State.takes
    rw [h1, h2, hd]
    simp [hb]
  unfold State.frameIn
  dsimp only
  rcases hk with hk | hk <;>
    simp [hk, State.bypass_of_lanesFree hl, hs, hd, subKnown, passKind, ht]

/-- A frame under the session key. -/
theorem State.keyFor_plain (hk : plainKind f) : s.keyFor f = s.gal.sk := by
  unfold State.keyFor
  rcases hk with hk | hk <;> rw [hk] <;> rfl

theorem not_measure (hk : plainKind f) : ¬(decide (f.kind = 1) || decide (f.kind = 2)) = true := by
  rcases hk with hk | hk <;> rw [hk] <;> decide

/-- The first frame of a bay under a session key passes its checks when its tag is right. -/
theorem State.check_first (hk : plainKind f) (hsk : s.gal.sk = some k) (ht : f.tag = frTag f k)
    (hq : s.gal.lastSeq.find? (fun e => e.1 = f.src.toNat) = none) :
    s.check f = (true, s.updGal fun g => { g with lastSeq := cellIns f.src.toNat f.seq.toNat g.lastSeq }) := by
  unfold State.check
  rw [State.keyFor_plain hk, hsk]
  dsimp only
  rw [if_neg (not_not.2 ht.symm), if_neg (not_measure hk), hq]

theorem State.check_badTag (hk : plainKind f) (hsk : s.gal.sk = some k) (ht : f.tag ≠ frTag f k) :
    s.check f = (false, s.authFail f 0) := by
  unfold State.check
  rw [State.keyFor_plain hk, hsk]
  exact if_pos ht.symm

theorem State.deliver_plain (hk : plainKind f) : s.deliver f = s.rxPut f true false := by
  unfold State.deliver
  rcases hk with hk | hk <;> rw [hk] <;> rfl

/-- Words that carry a sound frame. -/
theorem exec_frameReceive_sound {rd : Bool} {ws : List (BitVec 20)} (hg : s.galUp = true) (hf : laneFrame rd ws = some f)
    (hn : frLenOk f = true) (hh : f.hops.toNat < 63) : exec (.frameReceive rd ws) s = .next (s.frameIn f) := by
  refine congrArg Host.Outcome.next ((if_pos hg).trans ?_)
  rw [hf]
  dsimp only
  rw [hn]
  exact (if_neg (by decide)).trans (if_neg (Nat.not_le.2 hh))

/-- A frame for all, with a right tag and the first of its bay, waits to act, and has passed on. -/
theorem frameReceive_takes {rd : Bool} {ws : List (BitVec 20)} (hk : plainKind f) (hg : s.galUp = true) (hf : laneFrame rd ws = some f)
    (hl : s.lanesFree = true) (hn : frLenOk f = true) (hh : f.hops.toNat < 63) (hd : f.dst = 63) (hm : s.member = true)
    (hb : s.bay ≠ 0) (hs : f.src.toNat ≠ s.bay) (hsk : s.gal.sk = some k) (ht : f.tag = frTag f k)
    (hq : s.gal.lastSeq.find? (fun e => e.1 = f.src.toNat) = none) :
    GoesTo (exec (.frameReceive rd ws) s) fun t =>
      t.gal.rx = s.gal.rx ++ [⟨f, s.tb.toNat, true, false⟩] ∧ (f.src.toNat, f.seq.toNat) ∈ t.gal.lastSeq
      ∧ t.gal.outP = some { f with hops := f.hops + 1 } ∧ t.gal.outC = some { f with hops := f.hops + 1 } ∧ t.regs = s.regs := by
  have hin := State.frameIn_plain hk hl hd hb hs hm
  have hleft := State.forward_left (f := f) hl
  obtain ⟨u, hu⟩ : ∃ u, s.forward f = u := ⟨_, rfl⟩
  rw [hu] at hin hleft
  have htb : u.tb = s.tb := hleft.reach.tb
  obtain ⟨hregs, -, hP, hC, -⟩ := id hleft
  have hc := State.check_first hk (hleft.sk.trans hsk) ht (by rw [hleft.lastSeq, hq])
  refine ⟨(u.updGal fun g => { g with lastSeq := cellIns f.src.toNat f.seq.toNat g.lastSeq }).rxPut f true false,
    (exec_frameReceive_sound hg hf hn hh).trans (congrArg Host.Outcome.next (hin.trans ?_)), ?_, ?_, hP, hC, hregs⟩
  · rw [hc]
    exact (if_pos rfl).trans (State.deliver_plain hk)
  · rw [← hleft.rx, ← htb]
    rfl
  · exact mem_cellIns _ _ _

/-! ### RESET frames -/

/-- A frame's command takes it from those that wait. -/
theorem State.onFrame_first {p : RxFrame → Bool} {r : RxFrame} {q : State → RxFrame → State} (hg : s.galUp = true) (hr : s.rxFirst p = some r) :
    s.onFrame p q = q (s.updGal fun g => { g with rx := g.rx.erase r }) r := by
  unfold State.onFrame State.rxTake
  rw [if_pos hg, hr]
  rfl

/-- A RESET frame starts a Gallery reset, or is discarded. -/
theorem resetFrame_acts {r : RxFrame} (hg : s.galUp = true) (hr : s.rxFirst (fun r => r.act && r.f.kind = 14) = some r) :
    GoesTo (exec .resetFrame s) fun t =>
      t.gal = { s.gal with rx := s.gal.rx.erase r, resetT := if leAt r.f.payload 0 1 = 0x5A then some s.fclk else s.gal.resetT }
      ∧ t.regs = s.regs := by
  refine ⟨_, congrArg Host.Outcome.next (State.onFrame_first hg hr), ?_⟩
  dsimp only
  split <;> exact ⟨rfl, rfl⟩

theorem State.running_of_galUp (hg : s.galUp = true) : s.running = true :=
  (Bool.and_eq_true_iff.1 (show (s.running && s.bit F.PCR_STAT.PLLG_LOCK) = true from hg)).1

/-- A Gallery reset that was started is held 1 µs later. -/
theorem galleryReset_holds {f : Nat} (hg : s.galUp = true) (hr : s.gal.resetT = some f) (hf : f + 400 ≤ s.fclk) :
    GoesTo (exec .galleryReset s) fun t => t.pcr.held = some .gallery := by
  refine ⟨s.chipReset .gallery, congrArg Host.Outcome.next ?_, (s.pcr_chipReset .gallery).1⟩
  rw [hr]
  exact if_pos (by rw [State.running_of_galUp hg, decide_eq_true hf]; rfl)

theorem galleryReset_early {f : Nat} (hr : s.gal.resetT = some f) (hf : s.fclk < f + 400) : exec .galleryReset s = .next s := by
  refine congrArg Host.Outcome.next ?_
  rw [hr]
  exact if_neg (by rw [decide_eq_false (show ¬f + 400 ≤ s.fclk by omega), Bool.and_false]; decide)

/-- Settles O53: a RESET frame taken, its act, the reset after 1 µs and not before. -/
theorem galleryResetsComeFromTakenFrames : Obligations.GalleryResetsComeFromTakenFrames := by
  unfold Obligations.GalleryResetsComeFromTakenFrames
  refine ⟨fun s rd ws f k hg hf hl hn hh hk hd hm hb hs hsk ht hq => ?_, fun s r hg hr => ?_, fun s f => galleryReset_holds, fun s f => galleryReset_early⟩
  · obtain ⟨t, he, h1, -, h2, h3, -⟩ := frameReceive_takes (.inr hk) hg hf hl hn hh hd hm hb hs hsk ht hq
    exact ⟨t, he, h1, h2, h3⟩
  · obtain ⟨t, he, h1, -⟩ := resetFrame_acts hg hr
    exact ⟨t, he, h1⟩

end Sys2Proof.Machine
end

section
/-! SUPPORT. The Gallery: lanes, isolation, frames received and sent, event slots (O29). -/

set_option Elab.async false

namespace Sys2Proof.Machine

variable {s t u : State} {f : Frame} {k : List Byte}

/-! ### Lanes -/

/-- What a holdover of the PLLs reaches, with what a raise and a report reach. -/
abbrev holdoverFoot : Foot := ⟨[.regs, .marks, .por], [(0x6417, 0x6418), (0x6500, 0x6640), (F.PCR_STAT.HOLDOVER.addr, F.PCR_STAT.HOLDOVER.addr + 1)]⟩

theorem State.ringHoldover_held : Reach holdoverFoot s s.ringHoldover :=
  (Reach.refl s).unless (·.set)

/-- The active input changes, counted. -/
theorem State.laneSet_shows {cable : Bool} :
    (s.laneSet cable).bit F.GAL_STAT.ACTIVE = cable ∧ (s.laneSet cable).get F.GAL_STAT.PRIMOK = s.get F.GAL_STAT.PRIMOK
      ∧ (s.laneSet cable).get F.GAL_EVCNT.SWITCH = satAdd (s.get F.GAL_EVCNT.SWITCH) 1 (2 ^ F.GAL_EVCNT.SWITCH.len - 1) := by
  obtain ⟨u, hu⟩ : ∃ u, s.setB F.GAL_STAT.ACTIVE cable = u := ⟨_, rfl⟩
  have hua : u.get F.GAL_STAT.ACTIVE = b2n cable := by
    rw [← hu]
    refine (s.get_set_self F.GAL_STAT.ACTIVE (by decide) _).trans ?_
    cases cable <;> rfl
  have hup : u.get F.GAL_STAT.PRIMOK = s.get F.GAL_STAT.PRIMOK := by
    rw [← hu]
    exact s.get_set_disj F.GAL_STAT.ACTIVE F.GAL_STAT.PRIMOK (by decide) (by decide) (by decide) _
  have hus : u.get F.GAL_EVCNT.SWITCH = s.get F.GAL_EVCNT.SWITCH := by
    rw [← hu]
    exact s.get_set_addr F.GAL_STAT.ACTIVE F.GAL_EVCNT.SWITCH (by decide) _
  have hr : Reach holdoverFoot
      (u.evtInc F.GAL_EVCNT.SWITCH) (s.laneSet cable) := by
    unfold State.laneSet
    rw [hu]
    exact ((Reach.refl _).then (State.raise_reach (by decide))).then State.ringHoldover_held
  have he (g : Fld) (hg : g.addr ≠ F.GAL_EVCNT.SWITCH.addr) : (u.evtInc F.GAL_EVCNT.SWITCH).get g = u.get g :=
    u.get_evtInc_addr _ _ hg
  refine ⟨?_, hr.get.trans ((he _ (by decide)).trans hup), hr.get.trans ((u.evtInc_counts (by decide)).trans (by rw [hus]))⟩
  rw [hr.bit, State.bit_eq_of_get (he F.GAL_STAT.ACTIVE (by decide)), State.bit, hua]
  cases cable <;> rfl

theorem laneSwitchToCable_switches (hg : s.galUp = true) (ha : s.bit F.GAL_STAT.ACTIVE = false) (hc : s.bit F.GAL_STAT.CABLEOK = true)
    (hp : s.comes primaryGroup = false) :
    GoesTo (exec .laneSwitchToCable s) fun t =>
      t.bit F.GAL_STAT.ACTIVE = true ∧ t.bit F.GAL_STAT.PRIMOK = false
      ∧ t.get F.GAL_EVCNT.SWITCH = satAdd (s.get F.GAL_EVCNT.SWITCH) 1 (2 ^ F.GAL_EVCNT.SWITCH.len - 1) := by
  obtain ⟨h1, h2, h3⟩ := (s.set F.GAL_STAT.PRIMOK 0).laneSet_shows (cable := true)
  refine ⟨(s.set F.GAL_STAT.PRIMOK 0).laneSet true, congrArg Host.Outcome.next (if_pos (by rw [hg, ha, hc, hp]; rfl)), h1,
    State.bit_of_get_zero (h2.trans (s.get_set_self F.GAL_STAT.PRIMOK (by decide) 0)), h3.trans ?_⟩
  rw [s.get_set_addr F.GAL_STAT.PRIMOK F.GAL_EVCNT.SWITCH (by decide)]

theorem laneReturnToPrimary_returns (hg : s.galUp = true) (ha : s.bit F.GAL_STAT.ACTIVE = true) (hp : s.bit F.GAL_STAT.PRIMOK = true)
    (ht : s.gal.primT + 400000 ≤ s.fclk) : GoesTo (exec .laneReturnToPrimary s) fun t => t.bit F.GAL_STAT.ACTIVE = false :=
  ⟨s.laneSet false, congrArg Host.Outcome.next (if_pos (by rw [hg, ha, hp, decide_eq_true ht]; rfl)), s.laneSet_shows.1⟩

theorem ringIsolation_isolates (hg : s.galUp = true) (hi : s.bit F.GAL_STAT.ISOL = false) (hc : s.comes isValidGroup = false) :
    GoesTo (exec .ringIsolation s) fun t =>
      t.bit F.GAL_STAT.ISOL = true ∧ t.bit F.GAL_STAT.PRIMOK = false ∧ t.bit F.GAL_STAT.CABLEOK = false
      ∧ (t.por.pulses.any fun p => p.src = 72) = true := by
  obtain ⟨u, hu⟩ : ∃ u, ((s.set F.GAL_STAT.PRIMOK 0).set F.GAL_STAT.CABLEOK 0).set F.GAL_STAT.ISOL 1 = u := ⟨_, rfl⟩
  have h : u.get F.GAL_STAT.ISOL = 1 ∧ u.get F.GAL_STAT.PRIMOK = 0 ∧ u.get F.GAL_STAT.CABLEOK = 0 := by
    rw [← hu]
    simp (disch := decide) only [State.get_set_apart, State.get_set_self]
    exact ⟨rfl, rfl, rfl⟩
  have hr : Reach holdoverFoot
      u ((u.raise 297).ringHoldover.report 72 0) :=
    (((Reach.refl u).then (State.raise_reach (by decide))).then State.ringHoldover_held).then State.report_reach
  obtain ⟨h1, h2, h3⟩ := h
  refine ⟨(u.raise 297).ringHoldover.report 72 0, congrArg Host.Outcome.next ((if_pos (by rw [hg, hi, hc]; rfl)).trans ?_),
    State.bit_of_get_one (hr.get.trans h1), State.bit_of_get_zero (hr.get.trans h2), State.bit_of_get_zero (hr.get.trans h3), State.report_pulse _ _ _⟩
  rw [hu]

theorem validCodeGroupArrival_ends {cable : Bool} (hg : s.galUp = true) (hi : s.bit F.GAL_STAT.ISOL = true) :
    GoesTo (exec (.validCodeGroupArrival cable) s) fun t =>
      t.bit F.GAL_STAT.ISOL = false ∧ t.bit F.GAL_STAT.ACTIVE = cable
      ∧ t.bit (if cable then F.GAL_STAT.CABLEOK else F.GAL_STAT.PRIMOK) = true := by
  obtain ⟨w, hw⟩ : ∃ w, (if cable then s.set F.GAL_STAT.CABLEOK 1 else (s.set F.GAL_STAT.PRIMOK 1).updGal fun g => { g with primT := s.fclk }) = w :=
    ⟨_, rfl⟩
  have hwi : w.get F.GAL_STAT.ISOL = s.get F.GAL_STAT.ISOL ∧ w.get (if cable then F.GAL_STAT.CABLEOK else F.GAL_STAT.PRIMOK) = 1 := by
    rw [← hw]
    cases cable
    · exact ⟨s.get_set_disj F.GAL_STAT.PRIMOK F.GAL_STAT.ISOL (by decide) (by decide) (by decide) 1, s.get_set_self F.GAL_STAT.PRIMOK (by decide) 1⟩
    · exact ⟨s.get_set_disj F.GAL_STAT.CABLEOK F.GAL_STAT.ISOL (by decide) (by decide) (by decide) 1, s.get_set_self F.GAL_STAT.CABLEOK (by decide) 1⟩
  obtain ⟨hwi, hwc⟩ := hwi
  refine ⟨(w.set F.GAL_STAT.ISOL 0).setB F.GAL_STAT.ACTIVE cable, congrArg Host.Outcome.next ((if_pos hg).trans ?_), ?_, ?_, ?_⟩
  · dsimp only
    rw [hw]
    exact if_pos ((State.bit_eq_of_get hwi).trans hi)
  · refine State.bit_of_get_zero (((w.set F.GAL_STAT.ISOL 0).get_set_disj F.GAL_STAT.ACTIVE F.GAL_STAT.ISOL (by decide) (by decide) (by decide) _).trans ?_)
    exact w.get_set_self F.GAL_STAT.ISOL (by decide) 0
  · have h : ((w.set F.GAL_STAT.ISOL 0).setB F.GAL_STAT.ACTIVE cable).get F.GAL_STAT.ACTIVE = b2n cable % 2 ^ 1 :=
      (w.set F.GAL_STAT.ISOL 0).get_set_self F.GAL_STAT.ACTIVE (by decide) _
    rw [State.bit, h]
    cases cable <;> rfl
  · refine State.bit_of_get_one (Eq.trans ?_ hwc)
    cases cable
    · exact ((w.set F.GAL_STAT.ISOL 0).get_set_disj F.GAL_STAT.ACTIVE F.GAL_STAT.PRIMOK (by decide) (by decide) (by decide) _).trans
        (w.get_set_disj F.GAL_STAT.ISOL F.GAL_STAT.PRIMOK (by decide) (by decide) (by decide) 0)
    · exact ((w.set F.GAL_STAT.ISOL 0).get_set_disj F.GAL_STAT.ACTIVE F.GAL_STAT.CABLEOK (by decide) (by decide) (by decide) _).trans
        (w.get_set_disj F.GAL_STAT.ISOL F.GAL_STAT.CABLEOK (by decide) (by decide) (by decide) 0)

/-! ### Words that are no frame -/

theorem State.pass_keeps {i : LaneItem} : (s.pass i).regs = s.regs ∧ (s.pass i).gal.rx = s.gal.rx := by
  unfold State.pass
  split_ifs
  · exact ⟨rfl, rfl⟩
  · exact ⟨rfl, rfl⟩
  · exact ⟨rfl, rfl⟩

theorem State.frameBad_counts {ws : List LaneWord} :
    (s.frameBad ws).get F.GAL_ERRCNT.CODE = satAdd (s.get F.GAL_ERRCNT.CODE) 1 (2 ^ F.GAL_ERRCNT.CODE.len - 1)
      ∧ (s.frameBad ws).gal.rx = s.gal.rx := by
  have hc : (s.evtInc F.GAL_ERRCNT.CODE).get F.GAL_ERRCNT.CODE = _ := s.evtInc_counts (by decide)
  have hx : (s.evtInc F.GAL_ERRCNT.CODE).gal = s.gal := (Reach.evtAdd (F := ⟨[.regs, .marks], [(0, 0)]⟩) (.refl s)).gal
  unfold State.frameBad
  dsimp only
  split
  · have hp := State.pass_keeps (s := s.evtInc F.GAL_ERRCNT.CODE)
      (i := .broken (.sof :: dataWords (patch (wordBytes ws.tail) 4 [byteOf (leAt (wordBytes ws.tail) 4 1 + 1)])))
    exact ⟨(State.get_of_regs hp.1 _).trans hc, hp.2.trans (congrArg Gal.rx hx)⟩
  · exact ⟨hc, congrArg Gal.rx hx⟩

theorem frameReceive_bad {rd : Bool} {ws : List (BitVec 20)} (hg : s.galUp = true) (hf : (laneFrame rd ws).any frLenOk = false) :
    GoesTo (exec (.frameReceive rd ws) s) fun t =>
      t.get F.GAL_ERRCNT.CODE = satAdd (s.get F.GAL_ERRCNT.CODE) 1 (2 ^ F.GAL_ERRCNT.CODE.len - 1) ∧ t.gal.rx = s.gal.rx := by
  cases h : laneFrame rd ws with
  | none =>
    obtain ⟨h1, h2⟩ := s.frameBad_counts (ws := (laneWords rd ws).1)
    refine ⟨s.frameBad (laneWords rd ws).1, congrArg Host.Outcome.next ((if_pos hg).trans ?_), h1, h2⟩
    rw [h]
  | some f =>
    rw [h] at hf
    refine ⟨s.evtInc F.GAL_ERRCNT.CODE, congrArg Host.Outcome.next ((if_pos hg).trans ?_), s.evtInc_counts (by decide),
      congrArg Gal.rx (Reach.evtAdd (F := ⟨[.regs, .marks], [(0, 0)]⟩) (.refl s)).gal⟩
    rw [h]
    exact if_pos (by rw [show frLenOk f = false from hf]; rfl)

theorem frameReceive_worn {rd : Bool} {ws : List (BitVec 20)} (hg : s.galUp = true) (hf : laneFrame rd ws = some f) (hn : frLenOk f = true)
    (hh : 63 ≤ f.hops.toNat) : exec (.frameReceive rd ws) s = .next s := by
  refine congrArg Host.Outcome.next ((if_pos hg).trans ?_)
  rw [hf]
  dsimp only
  rw [hn]
  exact (if_neg (by decide)).trans (if_pos hh)

/-! ### A frame with a wrong tag -/

/-- A failure is recorded, counted and reported. -/
theorem State.authFail_shows {c : Nat} (hc : c < 2 ^ F.GAL_AUTHREC.CAUSE.len) :
    (s.authFail f c).get F.GAL_AUTHREC.SRC = f.src.toNat ∧ (s.authFail f c).get F.GAL_AUTHREC.CAUSE = c
      ∧ (s.authFail f c).get F.GAL_ERRCNT.AUTH = satAdd (s.get F.GAL_ERRCNT.AUTH) 1 (2 ^ F.GAL_ERRCNT.AUTH.len - 1)
      ∧ ((s.authFail f c).por.pulses.any fun p => p.src = 73) = true ∧ (s.authFail f c).gal = s.gal := by
  obtain ⟨u, hu⟩ : ∃ u, ((s.set F.GAL_AUTHREC.SRC f.src.toNat).set F.GAL_AUTHREC.KIND f.kind.toNat).set F.GAL_AUTHREC.CAUSE c = u := ⟨_, rfl⟩
  have h : u.get F.GAL_AUTHREC.SRC = f.src.toNat % 2 ^ F.GAL_AUTHREC.SRC.len ∧ u.get F.GAL_AUTHREC.CAUSE = c % 2 ^ F.GAL_AUTHREC.CAUSE.len
      ∧ u.get F.GAL_ERRCNT.AUTH = s.get F.GAL_ERRCNT.AUTH := by
    rw [← hu]
    refine ⟨?_, ?_, ?_⟩ <;> simp (disch := decide) only [State.get_set_apart, State.get_set_self]
  have hug : u.gal = s.gal := by
    rw [← hu]
    rfl
  obtain ⟨h1, h2, h3⟩ := h
  have hr : Reach ⟨[.regs, .marks, .por], [(0x6417, 0x6418), (0x6500, 0x6640)]⟩ (u.evtInc F.GAL_ERRCNT.AUTH)
      (((u.evtInc F.GAL_ERRCNT.AUTH).raise 299).report 73 f.src.toNat) :=
    ((Reach.refl _).then (State.raise_reach (by decide))).then State.report_reach
  have he : s.authFail f c = ((u.evtInc F.GAL_ERRCNT.AUTH).raise 299).report 73 f.src.toNat := by
    unfold State.authFail
    dsimp only
    rw [hu]
  have ha (g : Fld) (hg : g.addr ≠ F.GAL_ERRCNT.AUTH.addr) : (u.evtInc F.GAL_ERRCNT.AUTH).get g = u.get g := u.get_evtInc_addr _ _ hg
  have hev : (u.evtInc F.GAL_ERRCNT.AUTH).gal = u.gal := (Reach.evtAdd (F := ⟨[.regs, .marks], [(0, 0)]⟩) (.refl u)).gal
  rw [he]
  refine ⟨hr.get.trans ((ha _ (by decide)).trans (h1.trans (Nat.mod_eq_of_lt f.src.isLt))), hr.get.trans ((ha _ (by decide)).trans (h2.trans (Nat.mod_eq_of_lt hc))),
    hr.get.trans ((u.evtInc_counts (by decide)).trans (by rw [h3])), State.report_pulse _ _ _, hr.gal.trans (hev.trans hug)⟩

theorem frameReceive_badTag {rd : Bool} {ws : List (BitVec 20)} (hk : plainKind f) (hg : s.galUp = true) (hf : laneFrame rd ws = some f)
    (hl : s.lanesFree = true) (hn : frLenOk f = true) (hh : f.hops.toNat < 63) (hd : f.dst = 63) (hm : s.member = true)
    (hb : s.bay ≠ 0) (hs : f.src.toNat ≠ s.bay) (hsk : s.gal.sk = some k) (ht : f.tag ≠ frTag f k) :
    GoesTo (exec (.frameReceive rd ws) s) fun t =>
      t.gal.rx = s.gal.rx ∧ t.gal.outP = some { f with hops := f.hops + 1 } ∧ t.get F.GAL_AUTHREC.SRC = f.src.toNat
      ∧ t.get F.GAL_AUTHREC.CAUSE = 0 ∧ t.get F.GAL_ERRCNT.AUTH = satAdd (s.get F.GAL_ERRCNT.AUTH) 1 (2 ^ F.GAL_ERRCNT.AUTH.len - 1)
      ∧ (t.por.pulses.any fun p => p.src = 73) = true := by
  have hin := State.frameIn_plain hk hl hd hb hs hm
  have hleft := State.forward_left (f := f) hl
  obtain ⟨u, hu⟩ : ∃ u, s.forward f = u := ⟨_, rfl⟩
  rw [hu] at hin hleft
  have hc := State.check_badTag hk (hleft.sk.trans hsk) ht
  obtain ⟨h1, h2, h3, h4, h5⟩ := u.authFail_shows (f := f) (c := 0) (by decide)
  refine ⟨u.authFail f 0, (exec_frameReceive_sound hg hf hn hh).trans (congrArg Host.Outcome.next (hin.trans ?_)),
    (congrArg Gal.rx h5).trans hleft.rx, (congrArg Gal.outP h5).trans hleft.outP, h1, h2,
    h3.trans (by rw [State.get_of_regs hleft.regs]), h4⟩
  rw [hc]
  exact if_neg Bool.false_ne_true

/-! ### Event slots -/

theorem ownFrameTransmit_event {phase : Fin 40} {i : Fin 16} {l : Bool} {tb : Nat} (hg : s.galUp = true) (hl : s.lanesFree = true)
    (hq : s.gal.ctlQ = []) (hb : s.bay ≠ 0) (hm : s.maySend = true) (hsk : s.gal.sk = some k) (hy : s.gal.syncQ = false) (ho : s.bcnOut = [])
    (hi : (List.range 16).find? (fun i => (vget s.gal.ev i none).isSome) = some i.val) (hv : vget s.gal.ev i none = some (l, tb)) :
    GoesTo (exec (.ownFrameTransmit phase) s) fun t =>
      ∃ f, t.gal.outP = some f ∧ t.gal.outC = some f ∧ f.kind = 12 ∧ f.payload = eventPay i l tb ∧ f.src.toNat = s.bay ∧ f.seq = s.tb
        ∧ f.tag = frTag f k ∧ vget t.gal.ev i none = none := by
  have hbay : s.bay < 64 := s.get_lt F.GAL_STAT.BAY
  obtain ⟨d, hd⟩ : ∃ d, s.get (F.GAL_EVTDST.DEST i) = d := ⟨_, rfl⟩
  obtain ⟨f, hf⟩ : ∃ f, s.mkFrame 12 d (eventPay i l tb) = f := ⟨_, rfl⟩
  have hleft : Left (some f) (some f) s (s.emit 12 d (eventPay i l tb)) := by
    unfold State.emit State.send
    rw [hf]
    exact State.leave_left
  have hev : vget ((s.emit 12 d (eventPay i l tb)).updGal fun g => { g with ev := vupd g.ev i fun _ => none }).gal.ev i none = none :=
    vget_vupd_self (s.emit 12 d (eventPay i l tb)).gal.ev i.isLt (fun _ => none) none
  refine ⟨(s.emit 12 d (eventPay i l tb)).updGal fun g => { g with ev := vupd g.ev i fun _ => none },
    congrArg Host.Outcome.next ((if_pos (by rw [hg, hl]; rfl)).trans ?_), f, hleft.outP, hleft.outC, ?_, ?_, ?_, ?_, ?_, hev⟩
  · unfold State.transmit
    rw [hq]
    dsimp only
    rw [if_neg hb, hm, hy, ho]
    dsimp only
    rw [hi]
    dsimp only
    rw [hv, ← hd]
    rfl
  all_goals rw [← hf]
  · rfl
  · rfl
  · exact (BitVec.toNat_ofNat _ _).trans (Nat.mod_eq_of_lt hbay)
  · rfl
  · unfold State.mkFrame
    rw [hsk]
    rfl

/-- An event sets the level and the flag of its slot. -/
theorem State.eventTake_shows {r : RxFrame} {i : Nat} {l : Bool} (hi : leAt r.f.payload 0 1 % 16 = i) (hl : decide (leAt r.f.payload 1 1 % 2 = 1) = l) :
    bitOf ((s.eventTake r).get F.GAL_ERX) i = l ∧ bitOf ((s.eventTake r).get F.GAL_ERXF) i = true ∧ (s.eventTake r).gal = s.gal := by
  have hil : i < 16 := hi ▸ Nat.mod_lt _ (by decide)
  obtain ⟨v, hv⟩ : ∃ v, s.setBitAt F.GAL_ERX i l = v := ⟨_, rfl⟩
  have hvb : bitOf (v.get F.GAL_ERX) i = l := hv ▸ State.bitOf_setBitAt s F.GAL_ERX l (by decide) hil
  have hvg : v.gal = s.gal := by
    rw [← hv]
    rfl
  have he : s.eventTake r = (v.evtAt F.GAL_ERXF i).raise 301 := by
    unfold State.eventTake
    dsimp only
    rw [hi, hl, hv]
  have hw : Reach ⟨[.regs, .marks], [(F.GAL_ERXF.addr, F.GAL_ERXF.addr + 1)]⟩ v (v.evtAt F.GAL_ERXF i) := (Reach.refl v).evtAt
  have hr : Reach raiseFoot (v.evtAt F.GAL_ERXF i) ((v.evtAt F.GAL_ERXF i).raise 301) := State.raise_reach (by decide)
  rw [he]
  refine ⟨?_, ?_, hr.gal.trans (hw.gal.trans hvg)⟩
  · rw [hr.get (f := F.GAL_ERX), hw.get (f := F.GAL_ERX), hvb]
  · rw [hr.get (f := F.GAL_ERXF)]
    exact State.bitOf_evtAt v F.GAL_ERXF (by decide) hil

theorem eventReceive_takes {r : RxFrame} (hg : s.galUp = true) (hr : s.rxFirst (fun r => r.act && r.f.kind = 12) = some r) :
    GoesTo (exec .eventReceive s) fun t =>
      bitOf (t.get F.GAL_ERX) (leAt r.f.payload 0 1 % 16) = decide (leAt r.f.payload 1 1 % 2 = 1)
      ∧ bitOf (t.get F.GAL_ERXF) (leAt r.f.payload 0 1 % 16) = true ∧ t.gal.rx = s.gal.rx.erase r := by
  obtain ⟨h1, h2, h3⟩ := (s.updGal fun g => { g with rx := g.rx.erase r }).eventTake_shows (r := r) rfl rfl
  exact ⟨_, congrArg Host.Outcome.next (State.onFrame_first hg hr), h1, h2, congrArg Gal.rx h3⟩

/-- A bit after its level is flipped. -/
theorem bitOf_flip {x i : Nat} {l : Bool} (h : l ≠ bitOf x i) : bitOf (if l then x + 2 ^ i else x - 2 ^ i) i = l := by
  have hp : 0 < 2 ^ i := Nat.two_pow_pos i
  cases l with
  | true =>
    have h0 : ¬x / 2 ^ i % 2 = 1 := fun e => h (decide_eq_true e).symm
    refine decide_eq_true ?_
    rw [if_pos rfl, Nat.add_div_right _ hp]
    omega
  | false =>
    have h1 : x / 2 ^ i % 2 = 1 := by simpa [bitOf] using h
    refine decide_eq_false ?_
    have hd := Nat.sub_mul_div x (2 ^ i) 1
    rw [Nat.mul_one] at hd
    rw [if_neg Bool.false_ne_true, hd]
    omega

theorem eventSlotChange_waits {sl : Fin 16} (hg : s.galUp = true) (hl : s.routedHigh 5 sl ≠ bitOf s.gal.evLvl sl)
    (he : s.bit (F.GAL_EVTDST.EN sl) = true) (hb : s.bay ≠ 0) :
    GoesTo (exec (.eventSlotChange sl) s) fun t =>
      vget t.gal.ev sl none = some (s.routedHigh 5 sl, s.tb.toNat) ∧ bitOf t.gal.evLvl sl = s.routedHigh 5 sl ∧ t.regs = s.regs := by
  obtain ⟨l, hl'⟩ : ∃ l, s.routedHigh 5 sl = l := ⟨_, rfl⟩
  rw [hl'] at hl ⊢
  obtain ⟨u, hu⟩ : ∃ u, (s.updGal fun g => { g with evLvl := if l then g.evLvl + 2 ^ sl.val else g.evLvl - 2 ^ sl.val }) = u := ⟨_, rfl⟩
  have hue : u.bit (F.GAL_EVTDST.EN sl) = true := by rw [← hu]; exact he
  have hub : u.bay ≠ 0 := by rw [← hu]; exact hb
  have hul : bitOf u.gal.evLvl sl = l ∧ u.regs = s.regs := by
    rw [← hu]
    exact ⟨bitOf_flip hl, rfl⟩
  refine ⟨u.updGal fun g => { g with ev := vupd g.ev sl fun _ => some (l, s.tb.toNat) }, congrArg Host.Outcome.next ?_,
    vget_vupd_self u.gal.ev sl.isLt (fun _ => some (l, s.tb.toNat)) none, hul.1, hul.2⟩
  rw [hl']
  refine (if_pos (by rw [hg, Bool.true_and]; exact decide_eq_true hl)).trans ?_
  dsimp only
  rw [hu]
  exact if_pos (by rw [hue, Bool.true_and]; exact decide_eq_true hub)

theorem galleryCountClear_clears (hg : s.galUp = true) :
    GoesTo (exec .galleryCountClear s) fun t =>
      t.reg R.GAL_ERRCNT = 0 ∧ t.reg R.GAL_EVCNT = 0 ∧ SameRegs (fun a => a = R.GAL_ERRCNT ∨ a = R.GAL_EVCNT) s t ∧ t.gal = s.gal := by
  refine ⟨s.galClr, congrArg Host.Outcome.next (if_pos hg), ?_, State.reg_setReg_self _ _ _, fun a ha => ?_, rfl⟩
  · exact (State.reg_setReg_ne _ (by decide) _).trans (State.reg_setReg_self _ _ _)
  · have h := not_or.1 ha
    exact (State.reg_setReg_ne _ h.2 _).trans (State.reg_setReg_ne _ h.1 _)

/-- Settles O29: lanes, isolation, frames in and out, RESET frames, event slots and the counts. -/
theorem ringLanesAndFrames : Obligations.RingLanesAndFrames := by
  unfold Obligations.RingLanesAndFrames
  refine ⟨fun s => laneSwitchToCable_switches, fun s => laneReturnToPrimary_returns, fun s => ringIsolation_isolates,
    fun s cable => validCodeGroupArrival_ends, fun s rd ws => frameReceive_bad, fun s rd ws f => frameReceive_worn,
    fun s rd ws f k hg hf hl hn hh hk hd hm hb hs hsk ht hq => frameReceive_takes (.inl hk) hg hf hl hn hh hd hm hb hs hsk ht hq,
    fun s rd ws f k hg hf hl hn hh hk hd hm hb hs hsk ht => frameReceive_badTag (.inl hk) hg hf hl hn hh hd hm hb hs hsk ht,
    fun s phase i l tb k hg hl hq hb hm hsk => ownFrameTransmit_event hg hl hq hb hm hsk, fun s r hg hr h5a => ?_, fun s r hg hr h5a => ?_,
    fun s r => eventReceive_takes, fun s sl => eventSlotChange_waits, fun s => galleryCountClear_clears⟩
  · obtain ⟨t, he, h1, h2⟩ := resetFrame_acts hg hr
    exact ⟨t, he, by rw [h1, if_pos h5a], by rw [h1], h2⟩
  · obtain ⟨t, he, h1, h2⟩ := resetFrame_acts hg hr
    exact ⟨t, he, by rw [h1, if_neg h5a], by rw [h1], h2⟩

end Sys2Proof.Machine
end

section
/-! SUPPORT. The Gallery: the passes of an enumeration and of a join (O30). -/

set_option Elab.async false

namespace Sys2Proof.Machine

variable {s t u : State} {f : Frame}

/-! ### What the upkeep of the ring keeps -/

/-- A Gallery without what the upkeep of the ring changes beside a pass: exchanges that wait, boot step 3, and requests. -/
def Gal.core (g : Gal) : Gal := { g with irqQ := [], step3 := none, req := [], tid := 0 }

/-- What the upkeep of the ring reaches: counts, the host table, and sources. -/
abbrev upkeepFoot : Foot :=
  ⟨[.regs, .irt, .gal, .por, .marks, .host, .freeCtr], [(R.GAL_EVCNT, R.GAL_EVCNT + 1), (0x6414, 0x6415), (0x6417, 0x6418), (0x6420, 0x6428), (0x6500, 0x6640)]⟩

/-- The upkeep of the ring, within what it reaches. -/
structure Upkeep (G : Foot) (s t : State) : Prop where
  reach : Reach G s t
  core : t.gal.core = s.gal.core

section
variable {G H : Foot}

theorem Upkeep.refl (s : State) : Upkeep G s s :=
  ⟨.refl s, rfl⟩

theorem Upkeep.trans (h : Upkeep G s t) (h' : Upkeep G t u) : Upkeep G s u :=
  ⟨h.reach.trans h'.reach, h'.core.trans h.core⟩

theorem Upkeep.then (h : Upkeep G s t) (h' : Upkeep H t u) (hle : H.le G = true := by decide) : Upkeep G s u :=
  ⟨h.reach.then h'.reach hle, h'.core.trans h.core⟩

/-- An operation that leaves the Gallery as it is. -/
theorem Upkeep.beside (h : Upkeep G s t) (h' : Reach H t u) (hle : H.le G = true := by decide) (hg : H.has .gal = false := by decide) :
    Upkeep G s u :=
  ⟨h.reach.then h' hle, (congrArg Gal.core (h'.gal hg)).trans h.core⟩

/-- An update of the Gallery that leaves its core. -/
theorem Upkeep.updGal (h : Upkeep G s t) {q : Gal → Gal} (hq : ∀ g : Gal, (q g).core = g.core) (hg : G.has .gal = true := by decide) :
    Upkeep G s (t.updGal q) :=
  ⟨h.reach.then State.updGal_reach (Foot.le_of_has hg), (hq t.gal).trans h.core⟩

theorem Upkeep.when {c : Prop} {_ : Decidable c} (h : Upkeep G s t) (hf : Upkeep G s t → Upkeep G s u) : Upkeep G s (if c then u else t) := by
  split
  · exact hf h
  · exact h

theorem Upkeep.unless {c : Prop} {_ : Decidable c} (h : Upkeep G s t) (hf : Upkeep G s t → Upkeep G s u) : Upkeep G s (if c then t else u) := by
  split
  · exact h
  · exact hf h

theorem Upkeep.branch {c : Prop} {_ : Decidable c} {v : State} (h : Upkeep G s t) (hf : Upkeep G s t → Upkeep G s u)
    (hg : Upkeep G s t → Upkeep G s v) : Upkeep G s (if c then u else v) := by
  split
  · exact hf h
  · exact hg h

theorem Upkeep.each {α : Type} {l : List α} {q : State → α → State} (h : Upkeep G s t) (hq : ∀ s x, x ∈ l → Upkeep G s (q s x)) :
    Upkeep G s (t.each l q) := by
  induction l generalizing t with
  | nil => exact h
  | cons x l ih => exact ih (h.trans (hq t x (.head _))) fun s y hy => hq s y (.tail _ hy)

variable (h : Upkeep G s t)
include h

theorem Upkeep.rx : t.gal.rx = s.gal.rx := (congrArg Gal.rx h.core :)
theorem Upkeep.nm : t.gal.nm = s.gal.nm := (congrArg Gal.nm h.core :)
theorem Upkeep.sk : t.gal.sk = s.gal.sk := (congrArg Gal.sk h.core :)
theorem Upkeep.key : t.gal.key = s.gal.key := (congrArg Gal.key h.core :)
theorem Upkeep.lastSeq : t.gal.lastSeq = s.gal.lastSeq := (congrArg Gal.lastSeq h.core :)
theorem Upkeep.hold : t.gal.hold = s.gal.hold := (congrArg Gal.hold h.core :)
theorem Upkeep.transit : t.gal.transit = s.gal.transit := (congrArg Gal.transit h.core :)
theorem Upkeep.outT : t.gal.outT = s.gal.outT := (congrArg Gal.outT h.core :)
theorem Upkeep.pass : t.gal.pass = s.gal.pass := (congrArg Gal.pass h.core :)
theorem Upkeep.complete : t.gal.complete = s.gal.complete := (congrArg Gal.complete h.core :)
theorem Upkeep.gaveUp : t.gal.gaveUp = s.gal.gaveUp := (congrArg Gal.gaveUp h.core :)

/-- Lanes that were free stay free while the bypass stays open. -/
theorem Upkeep.lanesFree (hb : t.bypassOpen = s.bypassOpen) (hf : G.has .fclk = false := by decide) : t.lanesFree = s.lanesFree := by
  unfold State.lanesFree
  rw [hb, h.hold, h.transit, h.outT, h.reach.fclk hf]

theorem Upkeep.bypassOpen (hp : G.has .pcr = false := by decide) (hr : G.holds F.PCR_STAT.BOOTSTEP.addr = false := by decide) :
    t.bypassOpen = s.bypassOpen := by
  unfold State.bypassOpen State.running
  rw [h.reach.pcr hp, h.reach.get (f := F.PCR_STAT.BOOTSTEP) hr]

end

/-! ### The host table and the bay's number -/

/-- What an entry of the host table reaches. -/
abbrev htabFoot : Foot := ⟨[.regs, .irt], [(0x6420, 0x6428)]⟩

theorem State.htabTake_entry {h b r p q : Nat} (hh : h < 8) : Reach htabFoot s (s.htabTake h b r p q) := by
  have hr : htabFoot.holds (R.IRT_HTAB h) = true := Foot.holds_range 0x6420 0x6428 (by simp only [R.IRT_HTAB]; omega)
  have hs {v : State} {b r p q : Nat} : Reach htabFoot v (v.htabSet h b r p q) := (((((Reach.refl v).set hr).set hr).set hr).set hr).set hr
  exact (Reach.refl s).branch (·.unless (·.branch (·.trans hs) (·.setReg hr))) (·.when fun e => (e.when (·.then State.updIrt_reach)).trans hs)

theorem State.hostShow_upkeep {h r : Nat} (hh : h < 8) : Upkeep upkeepFoot s (s.hostShow h r) := by
  have e : Upkeep upkeepFoot s s := .refl s
  unfold State.hostShow
  exact ((e.beside (State.htabTake_entry hh)).when (·.beside (H := ⟨[.regs], [(0x6414, 0x6415)]⟩) ((Reach.refl _).set))).unless
    (·.updGal fun _ => rfl)

theorem State.hostTell_upkeep : Upkeep upkeepFoot s s.hostTell :=
  (Upkeep.refl s).when fun _ => State.hostShow_upkeep State.hid_lt

theorem State.hostNumbered_upkeep {k : Nat} : Upkeep upkeepFoot s (s.hostNumbered k) := by
  have hr {v : State} : htabFoot.holds (R.IRT_HTAB v.hid) = true := by
    have := v.hid_lt
    exact Foot.holds_range 0x6420 0x6428 (by simp only [R.IRT_HTAB]; omega)
  unfold State.hostNumbered
  exact ((Upkeep.refl s).when (·.beside ((Reach.refl _).setReg hr))).branch (·.trans (State.hostShow_upkeep State.hid_lt))
    (·.when (·.trans (State.hostShow_upkeep State.hid_lt)))

/-- What a new bay number reaches. -/
abbrev numberFoot : Foot := ⟨upkeepFoot.parts, (R.GAL_STAT, R.GAL_STAT + 1) :: upkeepFoot.regs⟩

theorem State.bayTake_upkeep {k : Nat} : Upkeep numberFoot s (s.bayTake k) :=
  (Upkeep.refl s).unless fun e => (e.beside (H := ⟨[.regs], [(R.GAL_STAT, R.GAL_STAT + 1)]⟩) ((Reach.refl s).set)).then State.hostNumbered_upkeep

theorem State.bay_bayTake {k : Nat} (hk : k < 64) : (s.bayTake k).bay = k := by
  unfold State.bayTake
  dsimp only
  split
  · next h => exact h.symm
  · exact (State.hostNumbered_upkeep.reach.get (f := F.GAL_STAT.BAY)).trans ((s.get_set_self F.GAL_STAT.BAY (by decide) k).trans (Nat.mod_eq_of_lt hk))

/-! ### A new network -/

theorem State.reqDead_upkeep {r : GalReq} : Upkeep upkeepFoot s (s.reqDead r) := by
  have e : Upkeep upkeepFoot s (s.evtInc F.GAL_EVCNT.TO) :=
    (Upkeep.refl s).beside (H := ⟨[.regs, .marks], [(R.GAL_EVCNT, R.GAL_EVCNT + 1)]⟩) (Reach.evtAdd (.refl s))
  have e' : Upkeep upkeepFoot s (((s.evtInc F.GAL_EVCNT.TO).raise 300).report 75 r.bay) :=
    (e.beside (State.raise_reach (by decide))).beside State.report_reach
  unfold State.reqDead
  exact (e'.updGal (q := fun g => { g with req := g.req.erase r }) fun _ => rfl).when (·.beside State.hostAnswer_reach)

/-- A new NM: the session key, no sequence value, and no other part of the Gallery but the requests that end. -/
theorem State.nmTake_gives {nm : List Byte} :
    ∃ u, Upkeep upkeepFoot s u ∧ s.nmTake nm = u.updGal fun g => { g with nm := some nm, sk := some (sessionKey g.key nm), lastSeq := [] } :=
  ⟨s.each s.gal.req State.reqDead, (Upkeep.refl s).each fun _ _ _ => State.reqDead_upkeep, rfl⟩

/-! ### The MEASURE pass at a member -/

theorem enumMeasure_takes {r : RxFrame} (hg : s.galUp = true) (hm : s.galMaster = false)
    (hr : s.rxFirst (fun r => !r.own && r.f.kind = 1 && (frSub r.f = 0 || (s.galMaster && r.act))) = some r) (ha : r.act = true)
    (hn : s.gal.nm ≠ some (slice r.f.payload 2 16)) :
    GoesTo (exec .enumMeasure s) fun t =>
      t.bay = 0 ∧ t.gal.nm = some (slice r.f.payload 2 16) ∧ t.gal.sk = some (sessionKey s.gal.key (slice r.f.payload 2 16)) ∧ t.gal.lastSeq = []
      ∧ t.gal.hold = some (r.f, s.fclk) ∧ t.bit F.GAL_STAT.ENUMERATED = false := by
  obtain ⟨nm, hnm⟩ : ∃ nm, slice r.f.payload 2 16 = nm := ⟨_, rfl⟩
  obtain ⟨v, hv⟩ : ∃ v, (s.updGal fun g => { g with rx := g.rx.erase r }) = v := ⟨_, rfl⟩
  have hvm : v.galMaster = false ∧ v.gal.nm ≠ some nm ∧ v.gal.key = s.gal.key ∧ v.fclk = s.fclk := by
    subst hv
    exact ⟨hm, hnm ▸ hn, rfl, rfl⟩
  obtain ⟨hvm, hvn, hvk, hvf⟩ := hvm
  obtain ⟨u, hu, he⟩ := v.nmTake_gives (nm := nm)
  obtain ⟨w, hw⟩ : ∃ w, (v.nmTake nm).bayTake 0 = w := ⟨_, rfl⟩
  have hup : Upkeep numberFoot (v.nmTake nm) w := hw ▸ State.bayTake_upkeep
  have hwb : w.bay = 0 := hw ▸ State.bay_bayTake (by decide)
  have hfc : w.fclk = s.fclk := by
    rw [hup.reach.fclk, he]
    exact hu.reach.fclk.trans hvf
  have hgal : w.gal.nm = some nm ∧ w.gal.sk = some (sessionKey s.gal.key nm) ∧ w.gal.lastSeq = [] := by
    rw [hup.nm, hup.sk, hup.lastSeq, he, ← hvk, ← hu.key]
    exact ⟨rfl, rfl, rfl⟩
  obtain ⟨h1, h2, h3⟩ := hgal
  refine ⟨(w.set F.GAL_STAT.ENUMERATED 0).holdFrame r.f, congrArg Host.Outcome.next ((State.onFrame_first hg hr).trans ?_), ?_, h1.trans (by rw [hnm]),
    h2.trans (by rw [hnm]), h3, congrArg (fun n => some (r.f, n)) hfc, ?_⟩
  · rw [hv]
    unfold State.enumMeasure
    rw [hvm, if_neg Bool.false_ne_true]
    unfold State.measureTake
    dsimp only
    rw [hnm, if_pos (show (r.act && decide (v.gal.nm ≠ some nm)) = true by rw [ha, Bool.true_and]; exact decide_eq_true hvn), hw]
  · exact (w.get_set_disj F.GAL_STAT.ENUMERATED F.GAL_STAT.BAY (by decide) (by decide) (by decide) 0).trans hwb
  · exact State.bit_of_get_zero (w.get_set_self F.GAL_STAT.ENUMERATED (by decide) 0)

/-- The delays of the lanes stand when a MEASURE frame's hold ends, and the frame goes on. -/
theorem measureHoldEnd_goesOn {t0 : Nat} {p c : Word} (hg : s.galUp = true) (hh : s.gal.hold = some (f, t0)) (ht : t0 + 6400 ≤ s.fclk)
    (hm : s.galMaster = false) (hb : s.bypassOpen = true) (hq : s.gal.transit = []) (ho : s.gal.outT ≤ s.fclk) :
    GoesTo (exec (.measureHoldEnd p c) s) fun t =>
      t.reg R.GAL_DLYP = p ∧ t.reg R.GAL_DLYC = c ∧ t.gal.hold = none ∧ t.gal.outP = some { f with hops := f.hops + 1 } := by
  obtain ⟨u, hu⟩ : ∃ u, ((s.setReg R.GAL_DLYP p).setReg R.GAL_DLYC c) = u := ⟨_, rfl⟩
  have hup : u.reg R.GAL_DLYP = p ∧ u.reg R.GAL_DLYC = c := by
    rw [← hu]
    exact ⟨(State.reg_setReg_ne _ (by decide) _).trans (State.reg_setReg_self _ _ _), State.reg_setReg_self _ _ _⟩
  have hr : Reach ⟨[.regs], [(R.GAL_DLYP, R.GAL_DLYC + 1)]⟩ s u := hu ▸ ((Reach.refl s).setReg).setReg
  have hum : u.galMaster = false := hr.bit.trans hm
  have hul : (u.updGal fun g => { g with hold := none }).lanesFree = true := by
    have hbo : u.bypassOpen = true := by
      rw [← hb]
      unfold State.bypassOpen State.running
      rw [hr.pcr, hr.get (f := F.PCR_STAT.BOOTSTEP)]
    change (u.bypassOpen && true && u.gal.transit.isEmpty && decide (u.gal.outT ≤ u.fclk)) = true
    rw [hbo, hr.gal, hq, hr.fclk, decide_eq_true ho]
    rfl
  have hleft := State.forward_left (f := f) hul
  refine ⟨(u.updGal fun g => { g with hold := none }).forward f, congrArg Host.Outcome.next ?_, ?_, ?_, (congrArg Gal.hold hleft.gal :), hleft.outP⟩
  · dsimp only
    rw [hh]
    dsimp only
    rw [if_pos (by rw [hg, decide_eq_true ht]; rfl), hu]
    exact if_neg (by rw [show (u.updGal fun g => { g with hold := none }).galMaster = u.galMaster from rfl, hum]; simp)
  · exact (congrArg (cellGet resetOf · R.GAL_DLYP) hleft.regs).trans hup.1
  · exact (congrArg (cellGet resetOf · R.GAL_DLYC) hleft.regs).trans hup.2

/-! ### ASSIGN and DONE at a member -/

/-- A byte of a payload in which other bytes are replaced. -/
theorem leAt_patch_before {p l : List Byte} {o a n : Nat} (h : a + n ≤ o) (ho : o ≤ p.length) : leAt (patch p o l) a n = leAt p a n := by
  unfold leAt slice patch
  rw [List.append_assoc, List.drop_append_of_le_length (by simp; omega), List.take_append_of_le_length (by simp; omega), List.drop_take,
    List.take_take]
  congr 2
  omega

/-- The bytes that replace others. -/
theorem slice_patch {p l : List Byte} {o : Nat} (ho : o ≤ p.length) : slice (patch p o l) o l.length = l := by
  unfold slice patch
  rw [List.append_assoc, List.drop_append_of_le_length (by simp; omega)]
  have : (p.take o).drop o = [] := List.drop_of_length_le (by simp)
  rw [this, List.nil_append, List.take_left]

theorem length_patch {p l : List Byte} {o : Nat} (ho : o + l.length ≤ p.length) : (patch p o l).length = p.length := by
  simp [patch]
  omega

theorem Upkeep.open_number {k : Nat} (hl : s.lanesFree = true) : (s.bayTake k).lanesFree = true :=
  (State.bayTake_upkeep.lanesFree State.bayTake_upkeep.bypassOpen).trans hl

theorem enumAssign_takes {r : RxFrame} {resid : Nat} (hg : s.galUp = true)
    (hr : s.rxFirst (fun r => !r.own && r.f.kind = 1 && frSub r.f = 1) = some r) (hl : s.lanesFree = true) (ha : r.act = true)
    (hn : r.f.payload.length = 38) (hx : leAt r.f.payload 1 1 ≤ 62) :
    GoesTo (exec (.enumAssign resid) s) fun t =>
      t.bay = leAt r.f.payload 1 1 ∧ t.gal.rx = s.gal.rx.erase r
      ∧ ∃ g, t.gal.outP = some g ∧ leAt g.payload 1 1 = leAt r.f.payload 1 1 + 1 ∧ g.hops = r.f.hops + 1 := by
  obtain ⟨k, hk⟩ : ∃ k, leAt r.f.payload 1 1 = k := ⟨_, rfl⟩
  rw [hk] at hx ⊢
  obtain ⟨v, hv⟩ : ∃ v, (s.updGal fun g => { g with rx := g.rx.erase r }) = v := ⟨_, rfl⟩
  have hvl : v.lanesFree = true ∧ v.gal.rx = s.gal.rx.erase r := by
    rw [← hv]
    exact ⟨hl, rfl⟩
  obtain ⟨hvl, hvx⟩ := hvl
  obtain ⟨w, hw⟩ : ∃ w, v.bayTake k = w := ⟨_, rfl⟩
  have hwl : w.lanesFree = true := hw ▸ Upkeep.open_number hvl
  have hwb : w.bay = k := hw ▸ State.bay_bayTake (by omega)
  have hwx : w.gal.rx = v.gal.rx := hw ▸ State.bayTake_upkeep.rx
  -- the frame goes on with NEXT one higher, and with some RTB and RACC
  have he : ∃ x y : Nat, v.assignTake r resid
      = w.forward { r.f with payload := patch (patch r.f.payload 1 [byteOf (k + 1)]) 26 (leBytes 8 x ++ leBytes 4 y) } := by
    have hd : (r.act && decide (k ≤ 62)) = true := by rw [ha, decide_eq_true hx]; rfl
    unfold State.assignTake
    dsimp only
    rw [hk, if_pos hd, if_pos hd, hw]
    exact ⟨_, _, rfl⟩
  obtain ⟨x, y, he⟩ := he
  obtain ⟨g, hgf⟩ : ∃ g : Frame, { r.f with payload := patch (patch r.f.payload 1 [byteOf (k + 1)]) 26 (leBytes 8 x ++ leBytes 4 y) } = g := ⟨_, rfl⟩
  rw [hgf] at he
  have hleft := State.forward_left (f := g) hwl
  refine ⟨w.forward g, congrArg Host.Outcome.next ((State.onFrame_first hg hr).trans (hv ▸ he)), ?_, hleft.rx.trans (hwx.trans hvx), frHop g, hleft.outP,
    ?_, ?_⟩
  · exact (State.get_of_regs hleft.regs F.GAL_STAT.BAY).trans hwb
  · change leAt g.payload 1 1 = k + 1
    have hp1 : (patch r.f.payload 1 [byteOf (k + 1)]).length = 38 := (length_patch (by simp; omega)).trans hn
    rw [← hgf, leAt_patch_before (by decide) (by rw [hp1]; decide)]
    have hs : slice (patch r.f.payload 1 [byteOf (k + 1)]) 1 1 = [byteOf (k + 1)] := slice_patch (by omega)
    unfold leAt
    rw [hs]
    change (byteOf (k + 1)).toNat + 256 * 0 = k + 1
    rw [byteOf, BitVec.toNat_ofNat]
    omega
  · rw [← hgf]
    rfl

/-- What the end of an enumeration at a bay reaches. -/
abbrev endFoot : Foot := ⟨upkeepFoot.parts, (F.PCR_STAT.BOOTSTEP.addr, F.PCR_STAT.BOOTSTEP.addr + 1) :: (R.GAL_STAT, R.GAL_STAT + 1) :: upkeepFoot.regs⟩

/-- Boot step 3 ends, and no other part of it changes. -/
theorem State.step3End_shows :
    Upkeep ⟨[.regs, .gal], [(F.PCR_STAT.BOOTSTEP.addr, F.PCR_STAT.BOOTSTEP.addr + 1)]⟩ s s.step3End
      ∧ s.step3End.get F.PCR_STAT.BOOTSTEP = if s.get F.PCR_STAT.BOOTSTEP = 3 then 4 else s.get F.PCR_STAT.BOOTSTEP := by
  refine ⟨(Upkeep.refl s).when fun e => (e.beside (H := ⟨[.regs], [(F.PCR_STAT.BOOTSTEP.addr, F.PCR_STAT.BOOTSTEP.addr + 1)]⟩)
    ((Reach.refl s).set)).updGal fun _ => rfl, ?_⟩
  unfold State.step3End
  split
  · exact s.get_set_self F.PCR_STAT.BOOTSTEP (by decide) 4
  · rfl

/-- A bay that is enumerated: its flag, and the end of boot step 3. -/
theorem State.enumerated_shows :
    Upkeep endFoot s s.enumerated ∧ s.enumerated.bit F.GAL_STAT.ENUMERATED = true ∧ s.enumerated.bay = s.bay
      ∧ s.enumerated.get F.PCR_STAT.BOOTSTEP = if s.get F.PCR_STAT.BOOTSTEP = 3 then 4 else s.get F.PCR_STAT.BOOTSTEP := by
  obtain ⟨v, hv⟩ : ∃ v, (s.set F.GAL_STAT.ENUMERATED 1).set F.GAL_STAT.ENUM_WAIT 0 = v := ⟨_, rfl⟩
  have hvg : v.get F.GAL_STAT.ENUMERATED = 1 ∧ v.get F.GAL_STAT.BAY = s.get F.GAL_STAT.BAY
      ∧ v.get F.PCR_STAT.BOOTSTEP = s.get F.PCR_STAT.BOOTSTEP := by
    rw [← hv]
    refine ⟨?_, ?_, ?_⟩ <;> simp (disch := decide) only [State.get_set_apart, State.get_set_self]
    all_goals rfl
  obtain ⟨hve, hvb, hvs⟩ := hvg
  have hu0 : Upkeep endFoot s v := by
    rw [← hv]
    exact ((Upkeep.refl s).beside (H := ⟨[.regs], [(R.GAL_STAT, R.GAL_STAT + 1)]⟩) ((Reach.refl s).set)).beside
      (H := ⟨[.regs], [(R.GAL_STAT, R.GAL_STAT + 1)]⟩) ((Reach.refl _).set)
  obtain ⟨w, hw⟩ : ∃ w, v.raise 298 = w := ⟨_, rfl⟩
  have hwr : Reach raiseFoot v w := hw ▸ State.raise_reach (by decide)
  obtain ⟨hx, hxs⟩ := w.step3End_shows
  have ht : Upkeep upkeepFoot w.step3End w.step3End.hostTell := State.hostTell_upkeep
  have he : s.enumerated = w.step3End.hostTell := by
    unfold State.enumerated
    rw [hv, hw]
  rw [he]
  refine ⟨((hu0.beside hwr).then hx).then ht, State.bit_of_get_one ?_, ?_, ?_⟩
  · rw [ht.reach.get (f := F.GAL_STAT.ENUMERATED), hx.reach.get (f := F.GAL_STAT.ENUMERATED), hwr.get (f := F.GAL_STAT.ENUMERATED), hve]
  · exact (ht.reach.get (f := F.GAL_STAT.BAY)).trans ((hx.reach.get (f := F.GAL_STAT.BAY)).trans ((hwr.get (f := F.GAL_STAT.BAY)).trans hvb))
  · rw [ht.reach.get (f := F.PCR_STAT.BOOTSTEP), hxs, hwr.get (f := F.PCR_STAT.BOOTSTEP), hvs]

/-- The lanes stay free at the end of an enumeration: the bypass is open from boot step 3 on. -/
theorem State.lanesFree_enumerated (hl : s.lanesFree = true) : s.enumerated.lanesFree = true := by
  obtain ⟨hu, -, -, hs⟩ := s.enumerated_shows
  refine (hu.lanesFree ?_).trans hl
  unfold State.bypassOpen State.running
  dsimp only
  rw [hu.reach.pcr, hs]
  split
  · next h => rw [h]; rfl
  · rfl

theorem enumDone_ends {r : RxFrame} (hg : s.galUp = true)
    (hr : s.rxFirst (fun r => !r.own && r.f.kind = 1 && frSub r.f = 2) = some r) (hl : s.lanesFree = true) (ha : r.act = true) (hb : s.bay ≠ 0) :
    GoesTo (exec .enumDone s) fun t =>
      t.bit F.GAL_STAT.ENUMERATED = true ∧ t.bay = s.bay ∧ t.get F.GAL_RINGN = (leAt r.f.payload 1 1 - 1) % 2 ^ F.GAL_RINGN.len
      ∧ t.get F.PCR_STAT.BOOTSTEP ≠ 3 ∧ t.gal.outP = some { r.f with hops := r.f.hops + 1 } := by
  obtain ⟨v, hv⟩ : ∃ v, (s.updGal fun g => { g with rx := g.rx.erase r }).set F.GAL_RINGN (leAt r.f.payload 1 1 - 1) = v := ⟨_, rfl⟩
  have hvr : v.get F.GAL_RINGN = (leAt r.f.payload 1 1 - 1) % 2 ^ F.GAL_RINGN.len := by
    rw [← hv]
    exact State.get_set_self _ F.GAL_RINGN (by decide) _
  have hvp : Reach ⟨[.regs], [(R.GAL_RINGN, R.GAL_RINGN + 1)]⟩ (s.updGal fun g => { g with rx := g.rx.erase r }) v := hv ▸ (Reach.refl _).set
  have hvb : v.bay = s.bay := hvp.get (f := F.GAL_STAT.BAY)
  have hvl : v.lanesFree = true := by
    rw [← hl]
    unfold State.lanesFree State.bypassOpen State.running
    dsimp only
    rw [hvp.pcr, hvp.get (f := F.PCR_STAT.BOOTSTEP), hvp.gal, hvp.fclk]
    rfl
  obtain ⟨hu, hue, hub, hus⟩ := v.enumerated_shows
  have hleft := State.forward_left (f := r.f) (State.lanesFree_enumerated hvl)
  refine ⟨v.enumerated.forward r.f, congrArg Host.Outcome.next ((State.onFrame_first hg hr).trans ?_), ?_, ?_, ?_, ?_, hleft.outP⟩
  · unfold State.doneTake
    dsimp only
    rw [if_pos ha, hv, if_pos (by rw [hvb]; exact hb)]
  · exact (State.bit_eq_of_get (State.get_of_regs hleft.regs _)).trans hue
  · exact (State.get_of_regs hleft.regs F.GAL_STAT.BAY).trans (hub.trans hvb)
  · exact (State.get_of_regs hleft.regs F.GAL_RINGN).trans (hu.reach.get.trans hvr)
  · rw [State.get_of_regs hleft.regs, hus]
    split
    · decide
    · assumption

/-! ### JOIN at a member -/

theorem length_idBytes : s.idBytes.length = 8 := by
  simp [State.idBytes, List.range, List.range.loop, length_leBytes]

theorem joinOffer_takes {r : RxFrame} (hg : s.galUp = true)
    (hr : s.rxFirst (fun r => !r.own && r.f.kind = 2 && frSub r.f = 0) = some r) (hl : s.lanesFree = true) (ha : r.act = true) (hb : s.bay = 0)
    (hz : leAt r.f.payload 18 8 = 0) (hn : r.f.payload.length = 27) :
    GoesTo (exec .joinOffer s) fun t =>
      t.gal.nm = some (slice r.f.payload 2 16)
      ∧ ∃ g, t.gal.outP = some g ∧ slice g.payload 18 8 = s.idBytes ∧ g.hops = r.f.hops + 1 := by
  obtain ⟨v, hv⟩ : ∃ v, ((s.updGal fun g => { g with rx := g.rx.erase r }).updGal fun g =>
      { g with nm := some (slice r.f.payload 2 16), sk := some (sessionKey g.key (slice r.f.payload 2 16)) }) = v := ⟨_, rfl⟩
  have hvl : v.lanesFree = true ∧ v.gal.nm = some (slice r.f.payload 2 16) ∧ v.idBytes = s.idBytes := by
    rw [← hv]
    exact ⟨hl, rfl, rfl⟩
  obtain ⟨hvl, hvn, hvi⟩ := hvl
  have hleft := State.forward_left (f := { r.f with payload := patch r.f.payload 18 v.idBytes }) hvl
  refine ⟨v.forward { r.f with payload := patch r.f.payload 18 v.idBytes }, congrArg Host.Outcome.next ((State.onFrame_first hg hr).trans ?_),
    (congrArg Gal.nm hleft.gal :).trans hvn, _, hleft.outP, ?_, rfl⟩
  · unfold State.offerPass
    dsimp only
    rw [if_pos (show (r.act && decide ((s.updGal fun g => { g with rx := g.rx.erase r }).bay = 0) && decide (leAt r.f.payload 18 8 = 0)) = true by
      rw [ha, hz, decide_eq_true (show (s.updGal fun g => { g with rx := g.rx.erase r }).bay = 0 from hb)]; rfl), hv]
  · have h8 : v.idBytes.length = 8 := length_idBytes
    have hs := slice_patch (p := r.f.payload) (l := v.idBytes) (o := 18) (by omega)
    rw [h8, hvi] at hs
    rw [hvi]
    exact hs

theorem joinGrant_takes {r : RxFrame} (hg : s.galUp = true)
    (hr : s.rxFirst (fun r => !r.own && r.f.kind = 2 && frSub r.f = 1) = some r) (hl : s.lanesFree = true) (ha : r.act = true) (hb : s.bay = 0)
    (hi : slice r.f.payload 18 8 = s.idBytes) (hx : leAt r.f.payload 1 1 < 64) :
    GoesTo (exec .joinGrant s) fun t =>
      t.bay = leAt r.f.payload 1 1 ∧ t.bit F.GAL_STAT.ENUMERATED = true ∧ t.gal.outP = some { r.f with hops := r.f.hops + 1 } := by
  obtain ⟨v, hv⟩ : ∃ v, (s.updGal fun g => { g with rx := g.rx.erase r }) = v := ⟨_, rfl⟩
  have hvl : v.lanesFree = true ∧ v.bay = 0 ∧ v.idBytes = s.idBytes := by
    rw [← hv]
    exact ⟨hl, hb, rfl⟩
  obtain ⟨hvl, hvb, hvi⟩ := hvl
  obtain ⟨w, hw⟩ : ∃ w, v.bayTake (leAt r.f.payload 1 1) = w := ⟨_, rfl⟩
  have hwl : w.lanesFree = true := hw ▸ Upkeep.open_number hvl
  have hwb : w.bay = leAt r.f.payload 1 1 := hw ▸ State.bay_bayTake hx
  obtain ⟨hu, hue, hub, -⟩ := w.enumerated_shows
  have hleft := State.forward_left (f := r.f) (State.lanesFree_enumerated hwl)
  refine ⟨w.enumerated.forward r.f, congrArg Host.Outcome.next ((State.onFrame_first hg hr).trans ?_), ?_, ?_, hleft.outP⟩
  · rw [hv]
    unfold State.grantTake
    dsimp only
    rw [if_pos (show (r.act && decide (v.bay = 0) && decide (slice r.f.payload 18 8 = v.idBytes)) = true by
      rw [ha, decide_eq_true hvb, hvi, decide_eq_true hi]; rfl), Nat.mod_eq_of_lt hx, hw]
  · exact (State.get_of_regs hleft.regs F.GAL_STAT.BAY).trans (hub.trans hwb)
  · exact (State.bit_eq_of_get (State.get_of_regs hleft.regs _)).trans hue

end Sys2Proof.Machine
end

section
/-! SUPPORT. The Gallery: the master's passes (O30). -/

set_option Elab.async false

namespace Sys2Proof.Machine

variable {s t u : State} {f : Frame}

/-! ### A full enumeration -/

/-- A full enumeration starts: bay 1, the MEASURE pass, an empty roster, cleared sequence values. -/
theorem State.fullEnum_starts :
    s.fullEnum.bay = 1 ∧ s.fullEnum.gal.pass = some (.measure, s.fclk) ∧ s.fullEnum.gal.roster = [] ∧ s.fullEnum.gal.lastSeq = []
      ∧ s.fullEnum.gal.hold.isSome = true ∧ s.fullEnum.gal.gaveUp = s.gal.gaveUp ∧ Reach numberFoot s s.fullEnum := by
  obtain ⟨nm, hnm⟩ : ∃ nm, (s.freeBytes 16).1 = nm := ⟨_, rfl⟩
  obtain ⟨v, hv⟩ : ∃ v, (s.freeBytes 16).2.bayTake 1 = v := ⟨_, rfl⟩
  have hvu : Upkeep numberFoot s v := by
    rw [← hv]
    exact ((Upkeep.refl s).beside State.freeBytes_reach).trans State.bayTake_upkeep
  have hvb : v.bay = 1 := hv ▸ State.bay_bayTake (by decide)
  obtain ⟨u, hu, he⟩ := v.nmTake_gives (nm := nm)
  obtain ⟨w, hw⟩ : ∃ w, (u.updGal fun g => { g with nm := some nm, sk := some (sessionKey g.key nm), lastSeq := [] }).set F.GAL_STAT.ROSTERFULL 0 = w :=
    ⟨_, rfl⟩
  have hwr : Reach ⟨[.regs, .gal], [(R.GAL_STAT, R.GAL_STAT + 1)]⟩ u w := by
    rw [← hw]
    exact ((Reach.refl u).then State.updGal_reach).set
  have hwb : w.get F.GAL_STAT.BAY = u.get F.GAL_STAT.BAY := by
    rw [← hw]
    exact State.get_set_disj _ F.GAL_STAT.ROSTERFULL F.GAL_STAT.BAY (by decide) (by decide) (by decide) 0
  have hwg : w.gal.lastSeq = [] ∧ w.gal.gaveUp = u.gal.gaveUp := by
    rw [← hw]
    exact ⟨rfl, rfl⟩
  obtain ⟨y, hy⟩ : ∃ y, (w.updGal fun g => { g with ctlQ := [], roster := [], join := none }) = y := ⟨_, rfl⟩
  have hyg : y.gal.roster = [] ∧ y.gal.lastSeq = w.gal.lastSeq ∧ y.gal.gaveUp = w.gal.gaveUp ∧ y.regs = w.regs ∧ y.fclk = w.fclk := by
    rw [← hy]
    exact ⟨rfl, rfl, rfl, rfl, rfl⟩
  obtain ⟨hy1, hy2, hy3, hy4, hy5⟩ := hyg
  have hfull : s.fullEnum = y.passBegin .measure 1 (enumPay 0 0 nm y.idBytes 0 0) := by
    unfold State.fullEnum
    dsimp only
    rw [hnm, hv, he, hw, hy]
  have hfc : y.fclk = s.fclk := hy5.trans (hwr.fclk.trans (hu.reach.fclk.trans hvu.reach.fclk))
  have hreach : Reach numberFoot s (y.passBegin .measure 1 (enumPay 0 0 nm y.idBytes 0 0)) := by
    refine Reach.then ?_ State.passBegin_reach
    rw [← hy]
    exact ((hvu.reach.then hu.reach).then hwr).then State.updGal_reach
  rw [hfull]
  refine ⟨?_, congrArg (fun n => some (EnumPass.measure, n)) hfc, hy1, hy2.trans hwg.1, rfl, ?_, hreach⟩
  · exact (State.get_of_regs hy4 F.GAL_STAT.BAY).trans (hwb.trans ((hu.reach.get (f := F.GAL_STAT.BAY)).trans hvb))
  · exact hy3.trans (hwg.2.trans (hu.gaveUp.trans hvu.gaveUp))

theorem enumStart_starts (hm : s.enumMay = true) (h3 : s.gal.step3.isSome = true) (hp : s.gal.pass = none) (hc : s.gal.complete = false)
    (ht : s.get F.GAL_CFG.ENUMDLY ≤ s.gal.ticks) :
    GoesTo (exec .enumStart s) fun t =>
      t.bay = 1 ∧ t.gal.pass = some (.measure, s.fclk) ∧ t.gal.roster = [] ∧ t.gal.hold.isSome = true := by
  obtain ⟨h1, h2, h3', -, h5, -⟩ := s.fullEnum_starts
  exact ⟨s.fullEnum, congrArg Host.Outcome.next (if_pos (by rw [hm, h3, hp, hc, decide_eq_true ht]; rfl)), h1, h2, h3', h5⟩

theorem fullEnumeration_starts (hm : s.enumMay = true) :
    GoesTo (exec .fullEnumeration s) fun t =>
      t.bay = 1 ∧ t.gal.pass = some (.measure, s.fclk) ∧ t.gal.roster = [] ∧ t.gal.lastSeq = [] := by
  obtain ⟨h1, h2, h3, h4, -⟩ := s.fullEnum_starts
  exact ⟨s.fullEnum, congrArg Host.Outcome.next (if_pos hm), h1, h2, h3, h4⟩

theorem enumPassTimeout_starts {t0 : Nat} (hm : s.enumMay = true) (hp : s.gal.pass = some (.assign, t0)) (ht : t0 + 800000 ≤ s.fclk)
    (hb : s.backComes = false) :
    GoesTo (exec .enumPassTimeout s) fun t =>
      t.gal.pass = some (.measure, s.fclk)
      ∧ t.get F.GAL_ERRCNT.ENUMRETRY = satAdd (s.get F.GAL_ERRCNT.ENUMRETRY) 1 (2 ^ F.GAL_ERRCNT.ENUMRETRY.len - 1) := by
  obtain ⟨u, hu⟩ : ∃ u, s.evtInc F.GAL_ERRCNT.ENUMRETRY = u := ⟨_, rfl⟩
  have hur : Reach ⟨[.regs, .marks], [(R.GAL_ERRCNT, R.GAL_ERRCNT + 1)]⟩ s u := hu ▸ Reach.evtAdd (.refl s)
  have hug : u.get F.GAL_ERRCNT.ENUMRETRY = _ := hu ▸ s.evtInc_counts (by decide)
  obtain ⟨-, h2, -, -, -, -, h7⟩ := u.fullEnum_starts
  refine ⟨u.fullEnum, congrArg Host.Outcome.next ?_, h2.trans (by rw [hur.fclk]), h7.get.trans hug⟩
  rw [hp]
  dsimp only
  rw [if_neg (show ¬(decide (EnumPass.assign = EnumPass.measure) || decide (EnumPass.assign = EnumPass.joinMeasure)) = true by decide),
    if_pos (by rw [hm, hb, decide_eq_true ht]; rfl), hu]

theorem enumRetryTimer_goesOn {t0 : Nat} (hm : s.enumMay = true) (hc : s.gal.complete = false) (hg : s.gal.gaveUp = false)
    (h3 : s.gal.step3 = some t0) (ht : t0 + 20000000 ≤ s.fclk) (hb : s.get F.PCR_STAT.BOOTSTEP = 3) :
    GoesTo (exec .enumRetryTimer s) fun t =>
      t.bay = 1 ∧ t.get F.PCR_STAT.BOOTSTEP = 4 ∧ t.gal.pass = some (.measure, s.fclk) ∧ t.gal.gaveUp = true := by
  obtain ⟨u, hu⟩ : ∃ u, (s.updGal fun g => { g with gaveUp := true, retryT := some s.fclk }) = u := ⟨_, rfl⟩
  have hug : u.gal.gaveUp = true ∧ u.get F.PCR_STAT.BOOTSTEP = 3 ∧ u.fclk = s.fclk := by
    rw [← hu]
    exact ⟨rfl, hb, rfl⟩
  obtain ⟨hug, hub, huf⟩ := hug
  obtain ⟨hx, hxs⟩ := u.step3End_shows
  obtain ⟨h1, h2, -, -, -, h6, h7⟩ := u.step3End.fullEnum_starts
  refine ⟨u.step3End.fullEnum, congrArg Host.Outcome.next ?_, h1, ?_, h2.trans (by rw [hx.reach.fclk, huf]), h6.trans (hx.gaveUp.trans hug)⟩
  · dsimp only
    rw [if_pos (by rw [hm, hc]; rfl), hg, if_pos (by decide), h3]
    dsimp only
    rw [if_pos ht, hu]
  · rw [h7.get (f := F.PCR_STAT.BOOTSTEP), hxs, if_pos hub]

/-! ### Frames that come back to the master -/

/-- A frame of the master's own is taken. -/
theorem exec_enumFrameReturn {r : RxFrame} {wanted : Bool} (hm : s.enumMay = true) (hr : s.rxFirst (fun r => r.own) = some r) :
    exec (.enumFrameReturn wanted) s = .next ((s.updGal fun g => { g with rx := g.rx.erase r }).frameBack r wanted) := by
  have hg : s.galUp = true := (Bool.and_eq_true_iff.1 (show (s.galUp && s.galMaster) = true from hm)).1
  exact congrArg Host.Outcome.next ((if_pos hm).trans (State.onFrame_first hg hr))

theorem enumFrameReturn_assigns {r : RxFrame} {t0 : Nat} {wanted : Bool} (hm : s.enumMay = true) (hp : s.gal.pass = some (.measure, t0))
    (hr : s.rxFirst (fun r => r.own) = some r) (hk : r.f.kind = 1) (hs : frSub r.f = 0) :
    GoesTo (exec (.enumFrameReturn wanted) s) fun t =>
      t.gal.pass = some (.assign, s.fclk) ∧ t.gal.ctlQ = s.gal.ctlQ ++ [(1, enumPay 1 2 (s.gal.nm.getD []) s.idBytes 0 0)] ∧ t.bay = s.bay := by
  refine ⟨(s.updGal fun g => { g with rx := g.rx.erase r }).passBegin .assign 1 (enumPay 1 2 (s.gal.nm.getD []) s.idBytes 0 0),
    (exec_enumFrameReturn hm hr).trans (congrArg Host.Outcome.next ?_), rfl, rfl, rfl⟩
  unfold State.frameBack
  rw [hk, if_neg (by decide)]
  rw [show (s.updGal fun g => { g with rx := g.rx.erase r }).gal.pass = _ from hp]
  dsimp only
  exact if_pos (by rw [hs]; rfl)

/-- The completion of an enumeration at its master. -/
theorem State.doneBack_completes :
    s.doneBack.gal.pass = none ∧ s.doneBack.gal.complete = true ∧ s.doneBack.bit F.GAL_STAT.ENUMERATED = true
      ∧ s.doneBack.get F.TB_STAT.SYNC = 1 := by
  obtain ⟨v, hv⟩ : ∃ v, (s.set F.GAL_RINGN (s.gal.next - 1)).syncSet 1 = v := ⟨_, rfl⟩
  have hvs : v.get F.TB_STAT.SYNC = 1 := by
    rw [← hv]
    unfold State.syncSet
    split
    · assumption
    · exact ((State.raise_reach (by decide)).get (f := F.TB_STAT.SYNC)).trans (State.get_set_self _ F.TB_STAT.SYNC (by decide) 1)
  obtain ⟨w, hw⟩ : ∃ w, (v.updGal fun g => { g with pass := none, complete := true, ticks := 0 }) = w := ⟨_, rfl⟩
  have hwg : w.gal.pass = none ∧ w.gal.complete = true ∧ w.get F.TB_STAT.SYNC = 1 := by
    rw [← hw]
    exact ⟨rfl, rfl, hvs⟩
  obtain ⟨hw1, hw2, hw3⟩ := hwg
  obtain ⟨hu, hue, -⟩ := w.enumerated_shows
  have hadd : ∀ l : List Nat, ∀ q : Nat → List Byte, Upkeep ⟨[.gal], []⟩ w.enumerated (w.enumerated.each l fun s b => s.reqAdd .roster b 3 (q b)) :=
    fun l q => (Upkeep.refl _).each fun s b _ => (Upkeep.refl s).updGal fun _ => rfl
  obtain ⟨x, hx⟩ : ∃ x, w.enumerated.each ((List.range (s.gal.next - 2)).map (· + 2)) (fun s b => s.reqAdd .roster b 3 ([4] ++ leBytes 2 (R.GAL_ID 0))) = x :=
    ⟨_, rfl⟩
  have hux : Upkeep ⟨[.gal], []⟩ w.enumerated x := hx ▸ hadd _ fun _ => [4] ++ leBytes 2 (R.GAL_ID 0)
  have he : s.doneBack = x := by
    unfold State.doneBack
    dsimp only
    rw [hv, hw, hx]
  rw [he]
  exact ⟨hux.pass.trans (hu.pass.trans hw1), hux.complete.trans (hu.complete.trans hw2), hux.reach.bit.trans hue,
    hux.reach.get.trans (hu.reach.get.trans hw3)⟩

theorem enumFrameReturn_completes {r : RxFrame} {t0 : Nat} {wanted : Bool} (hm : s.enumMay = true) (hp : s.gal.pass = some (.done, t0))
    (hr : s.rxFirst (fun r => r.own) = some r) (hk : r.f.kind = 1) (hs : frSub r.f = 2) :
    GoesTo (exec (.enumFrameReturn wanted) s) fun t =>
      t.gal.pass = none ∧ t.gal.complete = true ∧ t.bit F.GAL_STAT.ENUMERATED = true ∧ t.get F.TB_STAT.SYNC = 1 := by
  refine ⟨(s.updGal fun g => { g with rx := g.rx.erase r }).doneBack, (exec_enumFrameReturn hm hr).trans (congrArg Host.Outcome.next ?_),
    State.doneBack_completes⟩
  unfold State.frameBack
  rw [hk, if_neg (by decide)]
  rw [show (s.updGal fun g => { g with rx := g.rx.erase r }).gal.pass = _ from hp]
  dsimp only
  exact if_pos (by rw [hs]; rfl)

/-! ### Joins -/

/-- An OFFER waits to leave. -/
theorem State.joinSend_offers (he : s.bit F.GAL_STAT.ENUMERATED = true) :
    s.joinSend.gal.ctlQ = s.gal.ctlQ ++ [(2, joinPay 0 0 (s.gal.nm.getD []) (List.replicate 8 0))] ∧ s.joinSend.gal.ticks = 0
      ∧ s.joinSend.regs = s.regs := by
  unfold State.joinSend
  rw [if_pos he]
  exact ⟨rfl, rfl, rfl⟩

/-- Settles O30: the passes at a member, the starts of an enumeration, the frames that return, and joins. -/
theorem ringEnumeratesItsBays : Obligations.RingEnumeratesItsBays := by
  unfold Obligations.RingEnumeratesItsBays
  refine ⟨fun s r hg hm _ hr => enumMeasure_takes hg hm hr, fun s f t0 p c => measureHoldEnd_goesOn, fun s r resid => enumAssign_takes,
    fun s r => enumDone_ends, fun s r => joinOffer_takes, fun s r => joinGrant_takes, fun s => enumStart_starts, fun s => fullEnumeration_starts,
    fun s t0 => enumPassTimeout_starts, fun s t0 => enumRetryTimer_goesOn, fun s r t0 wanted => enumFrameReturn_assigns,
    fun s r t0 wanted => enumFrameReturn_completes, fun s hm he => ?_, fun s hm he ht => ?_⟩
  · obtain ⟨h1, -, h3⟩ := State.joinSend_offers he
    exact ⟨s.joinSend, congrArg Host.Outcome.next (if_pos hm), h1, h3⟩
  · obtain ⟨h1, h2, -⟩ := State.joinSend_offers he
    exact ⟨s.joinSend, congrArg Host.Outcome.next (if_pos (by rw [hm, decide_eq_true ht]; rfl)), h1, h2⟩

end Sys2Proof.Machine
end

section
/-! SUPPORT. Accesses of memory space that fall in a hall which is granted and holds no error: what they read and what they write. -/

set_option Elab.async false

namespace Sys2Proof.Machine

variable {s t : State} {m : Master} {a n k r acc : Nat}

/-! ### Bytes of the halls -/

theorem State.hallBytes_append : s.hallBytes a (n + k) = s.hallBytes a n ++ s.hallBytes (a + n) k := by
  unfold State.hallBytes
  rw [List.range_add, List.map_append, List.map_map]
  congr 1
  exact List.map_congr_left fun i _ => congrArg s.hallByte (Nat.add_assoc a n i).symm

theorem State.length_hallBytes : (s.hallBytes a n).length = n := by
  simp [State.hallBytes]

theorem State.setHallBytes_append (l l' : List Byte) : s.setHallBytes a (l ++ l') = (s.setHallBytes a l).setHallBytes (a + l.length) l' := by
  induction l generalizing s a with
  | nil => rfl
  | cons b l ih =>
    rw [List.cons_append, State.setHallBytes, ih, State.setHallBytes, List.length_cons, Nat.add_assoc, Nat.add_comm 1]

/-- A write of hall bytes reaches the halls alone. -/
theorem State.setHallBytes_halls (l : List Byte) : Reach ⟨[.halls], []⟩ s (s.setHallBytes a l) := by
  induction l generalizing s a with
  | nil => exact .refl s
  | cons b l ih => exact (Reach.frame (.refl s)).trans ih

theorem State.hallBytes_setBytes (l : List Byte) : (s.setHallBytes a l).hallBytes a l.length = l := by
  refine List.ext_getElem State.length_hallBytes fun i h1 h2 => ?_
  simp only [State.hallBytes, List.getElem_map, List.getElem_range]
  exact s.hallByte_setBytes_at l a i h2

/-! ### One access -/

/-- The masters that read every hall that is powered: through port A where they own it, else through port B. -/
def readsHalls : Master → Bool
  | .host | .gallery | .hook _ => true
  | _ => false

theorem State.hallPort_read (hm : readsHalls m = true) (hh : a / 524288 < 16) (hp : s.bit (F.HAL_OWN.PWR (a / 524288)) = true) :
    ∃ pb, s.hallPort m a n false = some pb := by
  unfold State.hallPort
  rw [if_neg (by simp [hp]; omega)]
  split
  · exact ⟨_, rfl⟩
  · cases m with
    | host => exact ⟨_, rfl⟩
    | gallery => exact ⟨_, rfl⟩
    | hook c => exact ⟨_, rfl⟩
    | _ => cases hm

theorem State.hallPort_write (ho : s.ownsHall m (a / 524288) = true) (hh : a / 524288 < 16) (hp : s.bit (F.HAL_OWN.PWR (a / 524288)) = true) :
    s.hallPort m a n true = some false := by
  unfold State.hallPort
  rw [if_neg (by simp [hp]; omega), if_pos ho]

theorem State.hallWord_read (he : s.hallErr = []) (ha : a < 15 * 524288) {pb : Bool} :
    s.hallWord m a n none pb acc = (s, s.hallBytes a n, .ok) := by
  simp [State.hallWord, he, errGet]
  omega

theorem State.hallPut_clean (he : s.hallErr = []) (l : List Byte) : s.hallPut a l = s.setHallBytes a l := by
  have h : (s.setHallBytes a l).hallErr = [] := (State.setHallBytes_halls l).hallErr.trans he
  unfold State.hallPut
  rw [he]
  change ({ s.setHallBytes a l with hallErr := [] } : State) = _
  rw [← h]

theorem State.hallWord_write (he : s.hallErr = []) {pb : Bool} {l : List Byte} (hl : l.length ≤ n) :
    s.hallWord m a n (some l) pb acc = (s.setHallBytes a l, [], .ok) := by
  have hw : errGet s.hallErr (a / 8) = none := by rw [he]; rfl
  unfold State.hallWord
  dsimp only
  rw [hw, ite_self]
  dsimp only
  rw [if_neg (by simp), List.take_of_length_le hl, State.hallPut_clean he]

/-- An access that stays within one word is one access of that word. -/
theorem State.hallOp_word {wr : Option (List Byte)} {pb : Bool} (hp : s.hallPort m a n wr.isSome = some pb) (hn : n ≤ 8 - a % 8)
    (hl : ∀ l, wr = some l → l.length ≤ n) : s.hallOp m a n wr acc = s.hallWord m a n wr pb acc := by
  unfold State.hallOp
  rw [hp]
  dsimp only
  rw [Nat.min_eq_left hn, if_pos rfl]
  cases wr with
  | none => rfl
  | some l => rw [Option.map_some, List.take_of_length_le (hl l rfl)]

/-- The place of an access in a hall below HALL15: it stays within the hall. -/
structure InHall (a n : Nat) : Prop where
  low : a / 524288 < 15
  fits : a % 524288 + n ≤ 524288

theorem InHall.next (h : InHall a n) {z : Nat} (hz : z < n) : InHall (a + z) (n - z) ∧ (a + z) / 524288 = a / 524288 := by
  obtain ⟨h1, h2⟩ := h
  have hd : (a + z) / 524288 = a / 524288 := by omega
  exact ⟨⟨by omega, by omega⟩, hd⟩

theorem InHall.lt (h : InHall a n) : a < 15 * 524288 ∧ a + n ≤ 15 * 524288 := by
  obtain ⟨h1, h2⟩ := h
  omega

/-- An access takes at least a byte, no more than are left, and stays within a word. -/
theorem accSize_word (h : InHall a (r + 1)) :
    let z := min (accSize a (r + 1)) (r + 1)
    1 ≤ z ∧ z ≤ r + 1 ∧ z ≤ 8 - a % 8 := by
  have hr : regSpace a = false := by
    have := h.lt
    simp [regSpace]
    omega
  have hz : accSize a (r + 1) = (if a % 8 = 0 && 8 ≤ r + 1 then 8 else if a % 4 = 0 && 4 ≤ r + 1 then 4 else if a % 2 = 0 && 2 ≤ r + 1 then 2 else 1) := by
    unfold accSize
    rw [hr]
    rfl
  dsimp only
  rw [hz]
  split_ifs with h1 h2 h3
  · simp at h1; omega
  · simp at h2; omega
  · simp at h3; omega
  · omega

/-! ### Reads -/

theorem State.memRead_hall (hm : readsHalls m = true) (he : s.hallErr = []) (h : InHall a n) (hp : s.bit (F.HAL_OWN.PWR (a / 524288)) = true)
    (hn : n ≤ 8 - a % 8) : s.memRead m a n acc = (s, s.hallBytes a n, .ok) := by
  have hlow := h.low
  obtain ⟨hlt, hle⟩ := h.lt
  obtain ⟨pb, hpb⟩ := State.hallPort_read (n := n) hm (by omega) hp
  unfold State.memRead
  rw [if_pos (by omega), State.hallOp_word (wr := none) hpb hn (fun l e => by cases e), State.hallWord_read he hlt]

/-- Reads of a hall give its bytes and change nothing. -/
theorem State.memReads_hall (hm : readsHalls m = true) (he : s.hallErr = []) (h : InHall a r) (hp : s.bit (F.HAL_OWN.PWR (a / 524288)) = true)
    (hk : r ≤ k) : s.memReads m acc k a r = (s, s.hallBytes a r, .ok, a + r) := by
  induction k generalizing a r with
  | zero =>
    have : r = 0 := by omega
    subst this
    rfl
  | succ k ih =>
    cases r with
    | zero => rfl
    | succ r =>
      obtain ⟨h1, h2, h3⟩ := accSize_word h
      obtain ⟨z, hz⟩ : ∃ z, min (accSize a (r + 1)) (r + 1) = z := ⟨_, rfl⟩
      rw [hz] at h1 h2 h3
      have hin : InHall a z := ⟨h.low, by have := h.fits; omega⟩
      unfold State.memReads
      dsimp only
      rw [hz, State.memRead_hall hm he hin hp h3, if_neg (show ¬MemRes.ok ≠ .ok by decide)]
      dsimp only
      by_cases hzr : z = r + 1
      · have hnil : r + 1 - z = 0 := by omega
        have hend : s.memReads m acc k (a + z) (r + 1 - z) = (s, [], .ok, a + z) := by
          rw [hnil]
          cases k <;> rfl
        rw [hend, hzr, List.append_nil]
      · obtain ⟨hn, hd⟩ := h.next (z := z) (by omega)
        rw [ih hn (by rw [hd]; exact hp) (by omega), ← State.hallBytes_append, show z + (r + 1 - z) = r + 1 by omega,
          show a + z + (r + 1 - z) = a + (r + 1) by omega]

/-! ### Writes -/

theorem State.memWrite_hall {l : List Byte} (he : s.hallErr = []) (h : InHall a l.length) (hp : s.bit (F.HAL_OWN.PWR (a / 524288)) = true)
    (ho : s.ownsHall m (a / 524288) = true) (hn : l.length ≤ 8 - a % 8) : s.memWrite m a l = (s.setHallBytes a l, .ok) := by
  have hlow := h.low
  obtain ⟨hlt, hle⟩ := h.lt
  unfold State.memWrite
  rw [if_pos (by omega), State.hallOp_word (wr := some l) (State.hallPort_write ho (by omega) hp) hn (fun l' e => by cases e; exact Nat.le_refl _),
    State.hallWord_write he (Nat.le_refl _)]

theorem State.ownsHall_halls {l : List Byte} {h : Nat} : (s.setHallBytes a l).ownsHall m h = s.ownsHall m h := by
  have hg : ∀ f, (s.setHallBytes a l).get f = s.get f := fun f => State.get_of_regs (s.setHallBytes_regs a l) f
  cases m <;> simp [State.ownsHall, hg]

/-- Writes of a hall that their master owns leave the bytes given, and change nothing else. -/
theorem State.memWrites_hall {l : List Byte} (he : s.hallErr = []) (h : InHall a l.length) (hp : s.bit (F.HAL_OWN.PWR (a / 524288)) = true)
    (ho : s.ownsHall m (a / 524288) = true) (hk : l.length ≤ k) : s.memWrites m k a l = (s.setHallBytes a l, .ok, a + l.length) := by
  induction k generalizing s a l with
  | zero =>
    have : l = [] := List.length_eq_zero_iff.1 (by omega)
    subst this
    rfl
  | succ k ih =>
    cases l with
    | nil => rfl
    | cons b l =>
      obtain ⟨h1, h2, h3⟩ := accSize_word (r := l.length) h
      obtain ⟨z, hz⟩ : ∃ z, min (accSize a (l.length + 1)) (l.length + 1) = z := ⟨_, rfl⟩
      rw [hz] at h1 h2 h3
      obtain ⟨x, hx⟩ : ∃ x, (b :: l).take z = x := ⟨_, rfl⟩
      obtain ⟨y, hy⟩ : ∃ y, (b :: l).drop z = y := ⟨_, rfl⟩
      have hxl : x.length = z := by rw [← hx, List.length_take, List.length_cons]; omega
      have hyl : y.length = l.length + 1 - z := by rw [← hy, List.length_drop, List.length_cons]
      have hxy : b :: l = x ++ y := by rw [← hx, ← hy, List.take_append_drop]
      have hfit := h.fits
      rw [List.length_cons] at hfit
      have hw : s.memWrite m a x = (s.setHallBytes a x, .ok) :=
        State.memWrite_hall he ⟨h.low, by omega⟩ hp ho (by omega)
      unfold State.memWrites
      dsimp only
      rw [hz, hx, hw, if_neg (show ¬MemRes.ok ≠ .ok by decide), hy, hxy, State.setHallBytes_append, hxl, List.length_append, hxl]
      dsimp only
      by_cases hzr : z = l.length + 1
      · have hnil : y = [] := List.length_eq_zero_iff.1 (by omega)
        subst hnil
        cases k <;> rfl
      · obtain ⟨hn, hd⟩ := h.next (z := z) (by rw [List.length_cons]; omega)
        have hR : Reach ⟨[.halls], []⟩ s (s.setHallBytes a x) := State.setHallBytes_halls x
        rw [ih (hR.hallErr.trans he) (by rw [hyl]; simpa using hn) (by rw [hd]; exact (State.bit_eq_of_get (State.get_of_regs (s.setHallBytes_regs a x) _)).trans hp)
          (by rw [hd, State.ownsHall_halls]; exact ho) (by rw [hyl]; simp at hk; omega), Nat.add_assoc]

end Sys2Proof.Machine
end

section
/-! SUPPORT. The Gallery: SYNC frames, requests of other bays, and requests to them (O31). -/

set_option Elab.async false

namespace Sys2Proof.Machine

variable {s t u : State} {f : Frame}

/-! ### Reads of EO_CFGn -/

theorem eoCfg_masks (n : Fin 24) : readMask (R.EO_CFG n) = 2 ^ 13 - 1 ∧ accMask (R.EO_CFG n) .rc = 0 := by
  revert n
  decide

theorem State.peek_eoCfg (n : Fin 24) : s.peek (R.EO_CFG n) = (s.reg (R.EO_CFG n)).toNat % 2 ^ 13 := by
  have ha : 0x2800 ≤ R.EO_CFG n ∧ R.EO_CFG n < 0x2818 := by simp only [R.EO_CFG]; omega
  simp only [State.peek, (eoCfg_masks n).1, Nat.and_two_pow_sub_one_eq_mod, Bool.and_eq_true, Bool.or_eq_true, decide_eq_true_eq]
  have hb : 0x2818 ≤ R.CHT_STAT ∧ 0x2818 ≤ R.CMP_ZONE 0 ∧ 0x2818 ≤ R.CMP_ZONE 1 ∧ 0x2818 ≤ R.HAL_NVSTAT ∧ 0x2818 ≤ R.HAL_LOGSTAT
      ∧ 0x2818 ≤ R.GAL_RSTAT ∧ 0x2818 ≤ R.HOST_STAT ∧ 0x2818 ≤ R.POR_STAT := by decide
  repeat rw [if_neg (by omega)]

theorem State.rcShow_plain {a v : Nat} (h : accMask a .rc = 0) (hv : v < 2 ^ 20) : s.rcShow a v = v := by
  unfold State.rcShow
  rw [h]
  split
  · exact (by simpa [pick] using Nat.and_two_pow_sub_one_of_lt_two_pow hv)
  · rfl

theorem State.readReg_eoCfg (n : Fin 24) (h : s.islandUp .angle = true) :
    s.readReg (R.EO_CFG n) = (s, (s.reg (R.EO_CFG n)).toNat % 2 ^ 13, false) := by
  have ha : 0x2800 ≤ R.EO_CFG n ∧ R.EO_CFG n < 0x2818 := by simp only [R.EO_CFG]; omega
  have hup : s.regUp (R.EO_CFG n) = true := by simp [State.regUp, regIsland_eoCfg, h]
  have hc : s.clearRC (R.EO_CFG n) = s := by simp [State.clearRC, (eoCfg_masks n).2]
  have hlt : (s.reg (R.EO_CFG n)).toNat % 2 ^ 13 < 2 ^ 20 := by omega
  have hr : s.regRead (R.EO_CFG n) = (s, (s.reg (R.EO_CFG n)).toNat % 2 ^ 13) := by
    simp only [State.regRead, State.peek_eoCfg, hc, State.rcShow_plain (eoCfg_masks n).2 hlt, Bool.and_eq_true, decide_eq_true_eq, R.IRT_CLAIM]
    repeat rw [if_neg (by omega)]
  unfold State.readReg
  rw [hup, hr]
  rfl

/-- A read of one register. -/
theorem State.regReads_one {a v : Nat} (h : s.readReg a = (s, v, false)) : s.regReads 1 a = (s, [v], true) := by
  unfold State.regReads
  rw [h]
  rfl

/-- A write of one register. -/
theorem State.regWrites_one {m : Master} {a v : Nat} (h : s.writeReg m a (BitVec.ofNat 20 v) = (t, false)) : s.regWrites m a [v] = (t, true) := by
  unfold State.regWrites
  rw [h]
  rfl

/-! ### Requests of other bays -/

section
variable {r : RxFrame} {tid : Fin 16} {rest : List Byte}

theorem byteOf_toNat {x : Nat} (h : x < 256) : (byteOf x).toNat = x := by
  rw [byteOf, BitVec.toNat_ofNat]
  exact Nat.mod_eq_of_lt h

/-- A byte of a payload that is spelled out. -/
theorem leAt_cons {x : Nat} (h : x < 256) {l : List Byte} : leAt (byteOf x :: l) 0 1 = x := by
  change (byteOf x).toNat + 256 * 0 = x
  rw [byteOf_toNat h, Nat.mul_zero, Nat.add_zero]

/-- A request whose TID is not kept is carried out and answered. -/
theorem State.remote_answers {q : State → List Byte → State × Bool × List Byte} {d : List Byte} (hk : s.gal.kept = [])
    (hp : r.f.payload = byteOf tid :: rest) (hq : q s r.f.payload = (t, true, d)) :
    s.remote r q = t.respPut r.f.src.toNat tid 0 d := by
  have ht : leAt r.f.payload 0 1 % 16 = tid := by
    rw [hp, leAt_cons (by omega)]
    exact Nat.mod_eq_of_lt tid.isLt
  unfold State.remote
  dsimp only
  rw [hk, ht]
  dsimp only [List.find?]
  rw [hq]
  rfl

/-- The request's command, once its frame is taken. -/
theorem State.onFrame_remote {p : RxFrame → Bool} {q : State → List Byte → State × Bool × List Byte} {d : List Byte} (hg : s.galUp = true)
    (hr : s.rxFirst p = some r) (hk : s.gal.kept = []) (hp : r.f.payload = byteOf tid :: rest) {v : State}
    (hv : (s.updGal fun g => { g with rx := g.rx.erase r }) = v) (hq : q v r.f.payload = (t, true, d)) :
    s.onFrame p (fun s r => s.remote r q) = t.respPut r.f.src.toNat tid 0 d := by
  refine (State.onFrame_first hg hr).trans ?_
  rw [hv]
  exact State.remote_answers (by rw [← hv]; exact hk) hp hq

/-- An answer joins those that wait. -/
theorem State.respPut_shows {src : Nat} {d : List Byte} :
    (s.respPut src tid 0 d).gal.respQ = s.gal.respQ ++ [(src, [byteOf tid, 0] ++ d)] ∧ (s.respPut src tid 0 d).regs = s.regs :=
  ⟨rfl, rfl⟩

theorem State.respPut_stores {src : Nat} {d : List Byte} : Reach ⟨[.gal], []⟩ s (s.respPut src tid 0 d) := by
  unfold State.respPut
  exact State.updGal_reach

end

theorem remoteRegrd_answers {n : Fin 24} {r : RxFrame} {tid : Fin 16} (hg : s.galUp = true) (ha : s.islandUp .angle = true) (hk : s.gal.kept = [])
    (hr : s.rxFirst (fun r => r.act && r.f.kind.toNat = 3) = some r) (hp : r.f.payload = [byteOf tid, 1] ++ leBytes 2 (R.EO_CFG n)) :
    GoesTo (exec .remoteRegrd s) fun t =>
      t.gal.respQ = s.gal.respQ ++ [(r.f.src.toNat, [byteOf tid, 0] ++ leBytes 3 ((s.reg (R.EO_CFG n)).toNat % 2 ^ 13))] ∧ t.regs = s.regs := by
  obtain ⟨v, hv⟩ : ∃ v, (s.updGal fun g => { g with rx := g.rx.erase r }) = v := ⟨_, rfl⟩
  have hva : v.islandUp .angle = true ∧ v.regs = s.regs ∧ v.gal.respQ = s.gal.respQ := by
    rw [← hv]
    exact ⟨ha, rfl, rfl⟩
  obtain ⟨hva, hvr, hvq⟩ := hva
  have haddr : leAt r.f.payload 2 2 = R.EO_CFG n := by
    rw [hp]
    exact (leNat_leBytes 2 _).trans (Nat.mod_eq_of_lt (by simp only [R.EO_CFG]; omega))
  have hone : leAt r.f.payload 1 1 = 1 := by rw [hp]; rfl
  have hq : v.remRegrd r.f.payload = (v, true, leBytes 3 ((s.reg (R.EO_CFG n)).toNat % 2 ^ 13)) := by
    unfold State.remRegrd
    dsimp only
    rw [hone, if_neg (by decide), haddr, State.regReads_one (State.readReg_eoCfg n hva), State.reg, State.reg, hvr]
    exact congrArg (fun l => (v, true, l)) (List.append_nil _)
  refine ⟨_, congrArg Host.Outcome.next (State.onFrame_remote hg hr hk hp hv hq), ?_, hvr⟩
  exact State.respPut_shows.1.trans (by rw [hvq])

theorem chunks_one (l : List Byte) (h : l.length = 3) : chunks 3 l = [l] := by
  unfold chunks slice
  rw [h]
  simp [List.range, List.range.loop, List.take_of_length_le (Nat.le_of_eq h)]

theorem remoteRegwr_writes {n : Fin 24} {w : Word} {r : RxFrame} {tid : Fin 16} (hg : s.galUp = true) (ha : s.islandUp .angle = true)
    (hk : s.gal.kept = []) (hr : s.rxFirst (fun r => r.act && r.f.kind.toNat = 4) = some r)
    (hp : r.f.payload = [byteOf tid, 1] ++ leBytes 2 (R.EO_CFG n) ++ leBytes 3 w.toNat) :
    GoesTo (exec .remoteRegwr s) fun t =>
      t.reg (R.EO_CFG n) = BitVec.ofNat 20 (s.merged .gallery (R.EO_CFG n) (s.reg (R.EO_CFG n)).toNat w.toNat)
      ∧ t.gal.respQ = s.gal.respQ ++ [(r.f.src.toNat, [byteOf tid, 0])] := by
  obtain ⟨v, hv⟩ : ∃ v, (s.updGal fun g => { g with rx := g.rx.erase r }) = v := ⟨_, rfl⟩
  have hva : v.islandUp .angle = true ∧ v.gal.respQ = s.gal.respQ ∧ v.merged .gallery (R.EO_CFG n) (v.reg (R.EO_CFG n)).toNat w.toNat
      = s.merged .gallery (R.EO_CFG n) (s.reg (R.EO_CFG n)).toNat w.toNat := by
    rw [← hv]
    exact ⟨ha, rfl, rfl⟩
  obtain ⟨hva, hvq, hvm⟩ := hva
  have haddr : leAt r.f.payload 2 2 = R.EO_CFG n := by
    rw [hp]
    exact (leNat_leBytes 2 _).trans (Nat.mod_eq_of_lt (by simp only [R.EO_CFG]; omega))
  have hval : (chunks 3 (r.f.payload.drop 4)).map leNat = [w.toNat] := by
    have hd : r.f.payload.drop 4 = leBytes 3 w.toNat := by rw [hp]; rfl
    have hlt := w.isLt
    rw [hd, chunks_one _ (length_leBytes 3 _), List.map_singleton, leNat_leBytes, Nat.mod_eq_of_lt (by omega)]
  have hq : v.remRegwr r.f.payload = (v.writeCodes .gallery (R.EO_CFG n) w, true, []) := by
    unfold State.remRegwr
    dsimp only
    rw [haddr, hval, State.regWrites_one (State.writeReg_eoCfg n hva .gallery (BitVec.ofNat 20 w.toNat)), BitVec.ofNat_toNat, BitVec.setWidth_eq]
  refine ⟨_, congrArg Host.Outcome.next (State.onFrame_remote hg hr hk hp hv hq), ?_, ?_⟩
  · refine (congrArg (cellGet resetOf · (R.EO_CFG n)) State.respPut_shows.2).trans ?_
    rw [← hvm]
    exact (v.reg_writeCodes .gallery (R.EO_CFG n) w (by simp only [R.EO_CFG, R.WVL_WLREJ]; omega)).trans (if_pos rfl)
  · exact State.respPut_shows.1.trans (by rw [State.writeCodes_gal, hvq, List.append_nil])

/-- An address below the registers is of memory. -/
theorem memAligned_hall {a n k : Nat} (h : InHall a k) : memAligned a n = true := by
  have := h.lt
  simp [memAligned, regSpace]
  omega

theorem remoteMemrd_answers {a n : Nat} {r : RxFrame} {tid : Fin 16} (hg : s.galUp = true) (hk : s.gal.kept = [])
    (hr : s.rxFirst (fun r => r.act && r.f.kind = 5 && !s.memWaits (leAt r.f.payload 2 4) (leAt r.f.payload 1 1)) = some r)
    (hp : r.f.payload = [byteOf tid, byteOf n] ++ leBytes 4 a) (h1 : 1 ≤ n) (h2 : n ≤ 56) (h : InHall a n)
    (hw : s.bit (F.HAL_OWN.PWR (a / 524288)) = true) (he : s.hallErr = []) :
    GoesTo (exec .remoteMemrd s) fun t =>
      t.gal.respQ = s.gal.respQ ++ [(r.f.src.toNat, [byteOf tid, 0] ++ s.hallBytes a n)] ∧ SameStores s t ∧ t.regs = s.regs := by
  obtain ⟨v, hv⟩ : ∃ v, (s.updGal fun g => { g with rx := g.rx.erase r }) = v := ⟨_, rfl⟩
  have hR : Reach ⟨[.gal], []⟩ s v := hv ▸ State.updGal_reach
  have hvs : v.hallErr = [] ∧ v.bit (F.HAL_OWN.PWR (a / 524288)) = true ∧ v.regs = s.regs ∧ v.gal.respQ = s.gal.respQ
      ∧ v.hallBytes a n = s.hallBytes a n := by
    rw [← hv]
    exact ⟨he, hw, rfl, rfl, rfl⟩
  obtain ⟨hve, hvw, hvr, hvq, hvb⟩ := hvs
  have hlt := h.lt
  have hn : leAt r.f.payload 1 1 = n := by
    rw [hp]
    exact leAt_cons (x := n) (by omega) (l := leBytes 4 a)
  have ha : leAt r.f.payload 2 4 = a := by
    rw [hp]
    exact (leNat_leBytes 4 _).trans (Nat.mod_eq_of_lt (by omega))
  have hq : v.remMemrd r.f.payload = (v, true, s.hallBytes a n) := by
    unfold State.remMemrd
    dsimp only
    rw [hn, ha, if_neg (by simp; omega), memAligned_hall h, if_neg (by decide), State.memReads_hall rfl hve h hvw (by omega), hvb]
    rfl
  obtain ⟨hq1, hq2⟩ := State.respPut_shows (s := v) (src := r.f.src.toNat) (tid := tid) (d := s.hallBytes a n)
  exact ⟨_, congrArg Host.Outcome.next (State.onFrame_remote hg hr hk hp hv hq), hq1.trans (by rw [hvq]), (hR.trans State.respPut_stores).sameStores,
    hq2.trans hvr⟩

theorem remoteMemwr_writes {a : Nat} {d : List Byte} {r : RxFrame} {tid : Fin 16} (hg : s.galUp = true) (hk : s.gal.kept = [])
    (hr : s.rxFirst (fun r => r.act && r.f.kind.toNat = 6) = some r)
    (hp : r.f.payload = [byteOf tid, byteOf d.length] ++ leBytes 4 a ++ d) (h2 : d.length ≤ 56) (h : InHall a d.length)
    (hw : s.bit (F.HAL_OWN.PWR (a / 524288)) = true) (ho : s.get (F.HAL_OWN.OWNER (a / 524288)) = 2) (he : s.hallErr = []) :
    GoesTo (exec .remoteMemwr s) fun t =>
      t.hallBytes a d.length = d ∧ (∀ b, b < a ∨ a + d.length ≤ b → t.hallByte b = s.hallByte b)
      ∧ t.gal.respQ = s.gal.respQ ++ [(r.f.src.toNat, [byteOf tid, 0])] ∧ t.regs = s.regs := by
  obtain ⟨v, hv⟩ : ∃ v, (s.updGal fun g => { g with rx := g.rx.erase r }) = v := ⟨_, rfl⟩
  have hvs : v.hallErr = [] ∧ v.bit (F.HAL_OWN.PWR (a / 524288)) = true ∧ v.regs = s.regs ∧ v.gal.respQ = s.gal.respQ
      ∧ v.get (F.HAL_OWN.OWNER (a / 524288)) = 2 ∧ ∀ b, v.hallByte b = s.hallByte b := by
    rw [← hv]
    exact ⟨he, hw, rfl, rfl, ho, fun _ => rfl⟩
  obtain ⟨hve, hvw, hvr, hvq, hvo, hvb⟩ := hvs
  have hlt := h.lt
  have ha : leAt r.f.payload 2 4 = a := by
    rw [hp]
    refine Eq.trans ?_ ((leNat_leBytes 4 a).trans (Nat.mod_eq_of_lt (by omega)))
    rfl
  have hd : r.f.payload.drop 6 = d := by
    rw [hp]
    rfl
  have hq : v.remMemwr r.f.payload = (v.setHallBytes a d, true, []) := by
    unfold State.remMemwr
    dsimp only
    rw [hd, ha, memAligned_hall h, if_neg (by decide), State.memWrites_hall (m := .gallery) hve h hvw (decide_eq_true hvo) (by omega)]
    rfl
  have hx : ∀ b, (State.respPut (v.setHallBytes a d) r.f.src.toNat tid 0 []).hallByte b = (v.setHallBytes a d).hallByte b := fun _ => rfl
  obtain ⟨hq1, hq2⟩ := State.respPut_shows (s := v.setHallBytes a d) (src := r.f.src.toNat) (tid := tid) (d := [])
  refine ⟨_, congrArg Host.Outcome.next (State.onFrame_remote hg hr hk hp hv hq), v.hallBytes_setBytes d, fun b hb => ?_, ?_, ?_⟩
  · exact (hx b).trans ((v.hallByte_setBytes d a b hb).trans (hvb b))
  · exact hq1.trans (by rw [(State.setHallBytes_halls d).gal, hvq, List.append_nil])
  · exact hq2.trans ((State.setHallBytes_regs _ _ _).trans hvr)

/-! ### Answers to this bay's requests -/

theorem respReceive_ends {r : RxFrame} {q : GalReq} (hg : s.galUp = true) (hr : s.rxFirst (fun r => r.act && r.f.kind = 7) = some r)
    (hf : s.gal.req.find? (fun q => q.sent && q.bay = r.f.src.toNat && leAt q.body 0 1 % 16 = leAt r.f.payload 0 1 % 16) = some q)
    (hw : q.who = .host) (hz : leAt r.f.payload 1 1 = 0) :
    GoesTo (exec .respReceive s) fun t =>
      t.host.done = some (1, respHost q.kind (r.f.payload.drop 2)) ∧ t.host.remote = none ∧ t.gal.req = s.gal.req.erase q ∧ t.regs = s.regs := by
  obtain ⟨v, hv⟩ : ∃ v, (s.updGal fun g => { g with rx := g.rx.erase r }) = v := ⟨_, rfl⟩
  have hvs : v.gal.req = s.gal.req ∧ v.regs = s.regs := by
    rw [← hv]
    exact ⟨rfl, rfl⟩
  obtain ⟨hvq, hvr⟩ := hvs
  have he : v.respTake r = (v.updGal fun g => { g with req := g.req.erase q }).hostAnswer 1 (respHost q.kind (r.f.payload.drop 2)) := by
    unfold State.respTake
    dsimp only
    rw [hvq, hf]
    dsimp only
    rw [hw, hz]
    rfl
  refine ⟨(v.updGal fun g => { g with req := g.req.erase q }).hostAnswer 1 (respHost q.kind (r.f.payload.drop 2)),
    congrArg Host.Outcome.next ((State.onFrame_first hg hr).trans (by rw [hv]; exact he)), rfl, rfl, ?_, hvr⟩
  exact congrArg (List.erase · q) hvq

theorem transactionTimeout_repeats {b : Fin 63} {q : GalReq} (hg : s.galUp = true)
    (hf : s.gal.req.find? (fun q => q.sent && q.bay = b.val) = some q) (ht : q.t + s.replyTime ≤ s.fclk) (hc : s.respComes q = false)
    (hn : q.tries < s.get F.GAL_CFG.RETRY) :
    GoesTo (exec (.transactionTimeout b) s) fun t =>
      { q with sent := false, tries := q.tries + 1 } ∈ t.gal.req ∧ t.regs = s.regs ∧ t.host = s.host := by
  refine ⟨s.updGal fun g => { g with req := g.req.map fun x => if x = q then { q with sent := false, tries := q.tries + 1 } else x },
    congrArg Host.Outcome.next ?_, ?_, rfl, rfl⟩
  · dsimp only
    rw [hf]
    dsimp only
    rw [if_pos (by rw [hg, hc, decide_eq_true ht]; rfl), if_pos hn]
  · exact List.mem_map.2 ⟨q, List.mem_of_find?_eq_some hf, if_pos rfl⟩

theorem transactionTimeout_ends {b : Fin 63} {q : GalReq} (hg : s.galUp = true)
    (hf : s.gal.req.find? (fun q => q.sent && q.bay = b.val) = some q) (ht : q.t + s.replyTime ≤ s.fclk) (hc : s.respComes q = false)
    (hn : s.get F.GAL_CFG.RETRY ≤ q.tries) (hw : q.who = .host) :
    GoesTo (exec (.transactionTimeout b) s) fun t =>
      t.host.done = some (3, []) ∧ t.gal.req = s.gal.req.erase q ∧ (t.por.pulses.any fun p => p.src = 75) = true
      ∧ t.get F.GAL_EVCNT.TO = satAdd (s.get F.GAL_EVCNT.TO) 1 (2 ^ F.GAL_EVCNT.TO.len - 1) := by
  obtain ⟨u, hu⟩ : ∃ u, s.evtInc F.GAL_EVCNT.TO = u := ⟨_, rfl⟩
  have hug : u.get F.GAL_EVCNT.TO = _ := hu ▸ s.evtInc_counts (by decide)
  have hur : u.gal = s.gal := hu ▸ (Reach.evtAdd (F := ⟨[.regs, .marks], [(0, 0)]⟩) (.refl s)).gal
  obtain ⟨w, hw'⟩ : ∃ w, (u.raise 300).report 75 q.bay = w := ⟨_, rfl⟩
  have hR : Reach raiseFoot u w := hw' ▸ (State.raise_reach (by decide)).then State.report_reach
  have hp : (w.por.pulses.any fun p => p.src = 75) = true := hw' ▸ State.report_pulse _ _ _
  have he : s.reqDead q = (w.updGal fun g => { g with req := g.req.erase q }).hostAnswer 3 [] := by
    unfold State.reqDead
    dsimp only
    rw [hu, hw', if_pos hw]
  refine ⟨(w.updGal fun g => { g with req := g.req.erase q }).hostAnswer 3 [], congrArg Host.Outcome.next ?_, rfl, ?_, hp, ?_⟩
  · rw [hf]
    dsimp only
    rw [if_pos (by rw [hg, hc, decide_eq_true ht]; rfl), if_neg (Nat.not_lt.2 hn), he]
  · exact congrArg (fun g : Gal => g.req.erase q) (hR.gal.trans hur)
  · exact (hR.get (f := F.GAL_EVCNT.TO)).trans hug

/-! ### SYNC -/

theorem State.syncSet_shows {k : Nat} (hk : k < 4) (hn : s.get F.TB_STAT.SYNC ≠ k) :
    (s.syncSet k).get F.TB_STAT.SYNC = k
      ∧ Reach ⟨[.regs, .marks, .por], (F.TB_STAT.SYNC.addr, F.TB_STAT.SYNC.addr + 1) :: raiseFoot.regs⟩ s (s.syncSet k) := by
  unfold State.syncSet
  rw [if_neg hn]
  refine ⟨((State.raise_reach (by decide)).get (f := F.TB_STAT.SYNC)).trans ((s.get_set_self F.TB_STAT.SYNC (by decide) k).trans (Nat.mod_eq_of_lt hk)), ?_⟩
  exact ((Reach.refl s).set).then (State.raise_reach (by decide))

theorem syncSend_queues (hg : s.galUp = true) (hd : s.syncDue = true) (hm : s.galMaster = true) (hf : s.gal.free = true) :
    GoesTo (exec .syncSend s) fun t => t.gal.syncQ = true ∧ t.syncDue = false ∧ t.regs = s.regs := by
  refine ⟨({ s with syncDue := false } : State).updGal fun g => { g with syncQ := true }, congrArg Host.Outcome.next ((if_pos (by rw [hg, hd]; rfl)).trans
    (if_pos ?_)), rfl, rfl, rfl⟩
  change (s.galMaster && s.gal.free) = true
  rw [hm, hf]
  rfl

theorem syncTimeout_holdsOver (ha : s.islandUp .angle = true) (hm : s.galMaster = false) (hs : s.get F.TB_STAT.SYNC = 1)
    (ht : s.gal.syncT + 3200000 ≤ s.fclk) (hc : s.syncComes = false) :
    GoesTo (exec .syncTimeout s) fun t => t.get F.TB_STAT.SYNC = 2 :=
  ⟨s.syncSet 2, congrArg Host.Outcome.next (if_pos (by rw [ha, hm, hc, hs, decide_eq_true ht]; rfl)), (State.syncSet_shows (by decide) (by rw [hs]; decide)).1⟩

/-- The error of a SYNC frame, in fortieths of a count of TB (R360). -/
def syncErr (r : RxFrame) (phase : Nat) : Int := ((r.tb * 40 + phase : Nat) : Int) - (leAt r.f.payload 0 8 * 40 + leAt r.f.payload 8 4 : Nat)

/-- The first SYNC frame steps TB by the rounded error, and leaves the lanes as they are. -/
theorem State.syncTake_first {r : RxFrame} {phase : Nat} (hs : s.get F.TB_STAT.SYNC = 0) :
    (s.syncTake r phase).tb = BitVec.ofNat 60 (((s.tb.toNat : Int) - rndDiv (syncErr r phase) 40) % (2 ^ 60 : Int)).toNat
      ∧ (s.syncTake r phase).get F.TB_STAT.SYNC = 1 ∧ (s.syncTake r phase).corr = 0 ∧ (s.syncTake r phase).gal.syncT = s.fclk
      ∧ (s.syncTake r phase).lanesFree = s.lanesFree ∧ (s.syncTake r phase).get F.GAL_DLYP = s.get F.GAL_DLYP := by
  obtain ⟨e, he⟩ : ∃ e, syncErr r phase = e := ⟨_, rfl⟩
  obtain ⟨v, hv⟩ : ∃ v, (if (decide (-524288 ≤ e) && decide (e ≤ 524287)) = true then s.set F.GAL_SYNCERR (toW 20 e) else s.free.2.set F.GAL_SYNCERR s.free.1) = v :=
    ⟨_, rfl⟩
  have hvR : Reach ⟨[.regs, .freeCtr], [(R.GAL_SYNCERR, R.GAL_SYNCERR + 1)]⟩ s v := by
    rw [← hv]
    exact .ite ((Reach.refl s).set) ((Reach.frame (t := s.free.2) (.refl s)).set)
  obtain ⟨w, hw⟩ : ∃ w, (v.set F.GAL_SYNC (leAt r.f.payload 12 1)).updGal (fun g => { g with syncT := s.fclk }) = w := ⟨_, rfl⟩
  have hwR : Reach ⟨[.regs, .freeCtr, .gal], [(R.GAL_SYNCERR, R.GAL_SYNCERR + 1), (R.GAL_SYNC, R.GAL_SYNC + 1)]⟩ s w := by
    rw [← hw]
    exact (((Reach.refl s).then hvR).set).then State.updGal_reach
  have hwg : w.gal = { s.gal with syncT := s.fclk } := by
    rw [← hw, ← hvR.gal]
    rfl
  obtain ⟨k, hk⟩ : ∃ k, (((w.tb.toNat : Int) - rndDiv e 40) % (2 ^ 60 : Int)).toNat = k := ⟨_, rfl⟩
  have hkl : k < 2 ^ 60 := by
    have h1 : 0 ≤ ((w.tb.toNat : Int) - rndDiv e 40) % (2 ^ 60 : Int) := Int.emod_nonneg _ (by decide)
    have h2 : ((w.tb.toNat : Int) - rndDiv e 40) % (2 ^ 60 : Int) < 2 ^ 60 := Int.emod_lt_of_pos _ (by decide)
    omega
  obtain ⟨x, hx⟩ : ∃ x, (w.tbStep k).inc F.TB_STAT.STEPS = x := ⟨_, rfl⟩
  have hxR : Reach ⟨[.regs, .tb, .tbLog, .mtDue, .tick10], [(F.TB_STAT.STEPS.addr, F.TB_STAT.STEPS.addr + 1)]⟩ w x := by
    rw [← hx]
    exact ((Reach.refl w).then State.tbStep_reach).set
  have hxt : x.tb = BitVec.ofNat 60 k := by
    rw [← hx]
    change BitVec.ofNat 60 (k % 2 ^ 60) = _
    rw [Nat.mod_eq_of_lt hkl]
  have hxs : x.get F.TB_STAT.SYNC = 0 := by
    rw [← hs, ← hwR.get (f := F.TB_STAT.SYNC), ← hx]
    exact State.get_set_disj (w.tbStep k) F.TB_STAT.STEPS F.TB_STAT.SYNC (by decide) (by decide) (by decide) _
  obtain ⟨hy, hyR⟩ := State.syncSet_shows (s := x) (k := 1) (by decide) (by rw [hxs]; decide)
  have heq : s.syncTake r phase
      = { ((x.syncSet 1).updGal fun g => { g with lastErr := some (e - 40 * rndDiv e 40, 0) }) with corr := 0 } := by
    unfold State.syncTake
    dsimp only
    rw [show ((r.tb * 40 + phase : Nat) : Int) - (leAt r.f.payload 0 8 * 40 + leAt r.f.payload 8 4 : Nat) = e from he, hv, hw,
      if_pos (hwR.get.trans hs), hk, hx]
  rw [heq, he, ← hwR.tb, hk]
  refine ⟨hyR.tb.trans hxt, hy, rfl, ?_, ?_, ?_⟩
  · exact congrArg Gal.syncT (hyR.gal.trans (hxR.gal.trans hwg))
  · have hg : (x.syncSet 1).gal = { s.gal with syncT := s.fclk } := hyR.gal.trans (hxR.gal.trans hwg)
    have hp : (x.syncSet 1).pcr = s.pcr := hyR.pcr.trans (hxR.pcr.trans hwR.pcr)
    have hb : (x.syncSet 1).get F.PCR_STAT.BOOTSTEP = s.get F.PCR_STAT.BOOTSTEP := hyR.get.trans (hxR.get.trans hwR.get)
    have hf : (x.syncSet 1).fclk = s.fclk := hyR.fclk.trans (hxR.fclk.trans hwR.fclk)
    have hl : (x.syncSet 1).lanesFree = s.lanesFree := by
      unfold State.lanesFree State.bypassOpen State.running
      rw [hg, hp, hb, hf]
    exact hl
  · exact (hyR.get (f := F.GAL_DLYP)).trans (hxR.get.trans hwR.get)

/-- A SYNC frame as it goes on: COR advanced by the residence and a lane's delay (R361). -/
def State.syncOut (s : State) (r : RxFrame) (resid : Nat) (d : Fld) : Frame :=
  frHop { r.f with payload := patch r.f.payload 8 (leBytes 4 (leAt r.f.payload 8 4 + resid + s.get d) ++ [byteOf (leAt r.f.payload 12 1 + 1)]) }

theorem syncReceive_steps {r : RxFrame} {phase : Fin 40} {resid : Nat} (hg : s.galUp = true) (hm : s.galMaster = false)
    (hs : s.get F.TB_STAT.SYNC = 0) (hr : s.rxFirst (fun r => !r.own && r.f.kind = 9) = some r) (hl : s.lanesFree = true) (ha : r.act = true)
    (hn : r.f.payload.length = 14) :
    GoesTo (exec (.syncReceive phase resid) s) fun t =>
      t.tb = BitVec.ofNat 60 (((s.tb.toNat : Int) - rndDiv (syncErr r phase) 40) % (2 ^ 60 : Int)).toNat ∧ t.get F.TB_STAT.SYNC = 1 ∧ t.corr = 0
      ∧ t.gal.syncT = s.fclk
      ∧ ∃ g, t.gal.outP = some g ∧ leAt g.payload 8 4 = (leAt r.f.payload 8 4 + resid + s.get F.GAL_DLYP) % 2 ^ 32 := by
  obtain ⟨v, hv⟩ : ∃ v, (s.updGal fun g => { g with rx := g.rx.erase r }) = v := ⟨_, rfl⟩
  have hvs : v.get F.TB_STAT.SYNC = 0 ∧ v.tb = s.tb ∧ v.fclk = s.fclk ∧ v.lanesFree = true ∧ v.get F.GAL_DLYP = s.get F.GAL_DLYP
      ∧ v.galMaster = false := by
    rw [← hv]
    exact ⟨hs, rfl, rfl, hl, rfl, hm⟩
  obtain ⟨hvs, hvt, hvf, hvl, hvd, hvm⟩ := hvs
  obtain ⟨h1, h2, h3, h4, h5, h6⟩ := State.syncTake_first (r := r) (phase := phase) hvs
  obtain ⟨w, hw⟩ : ∃ w, v.syncTake r phase = w := ⟨_, rfl⟩
  rw [hw] at h1 h2 h3 h4 h5 h6
  have hleft : Left (some (w.syncOut r resid F.GAL_DLYP)) (some (w.syncOut r resid F.GAL_DLYC)) w (w.pass (.whole (w.syncOut r resid F.GAL_DLYP) (w.syncOut r resid F.GAL_DLYC))) := by
    rw [State.pass_free (h5.trans hvl)]
    exact State.leave_left
  refine ⟨w.pass (.whole (w.syncOut r resid F.GAL_DLYP) (w.syncOut r resid F.GAL_DLYC)), congrArg Host.Outcome.next ((State.onFrame_first hg hr).trans ?_), ?_,
    (State.get_of_regs hleft.regs _).trans h2, hleft.reach.corr.trans h3, ((congrArg Gal.syncT hleft.gal :).trans h4).trans hvf,
    w.syncOut r resid F.GAL_DLYP, hleft.outP, ?_⟩
  · rw [hv]
    unfold State.syncPass
    dsimp only
    rw [if_pos (by rw [ha, hvm]; rfl), hw]
    rfl
  · exact hleft.reach.tb.trans (h1.trans (by rw [hvt]))
  · obtain ⟨c, hc⟩ : ∃ c, leAt r.f.payload 8 4 + resid + s.get F.GAL_DLYP = c := ⟨_, rfl⟩
    have hp : (w.syncOut r resid F.GAL_DLYP).payload = patch r.f.payload 8 (leBytes 4 c ++ [byteOf (leAt r.f.payload 12 1 + 1)]) := by
      rw [← hc, ← hvd, ← h6]
      rfl
    have hs4 := slice_patch (p := r.f.payload) (l := leBytes 4 c ++ [byteOf (leAt r.f.payload 12 1 + 1)]) (o := 8) (by omega)
    have h4l : (leBytes 4 c).length = 4 := length_leBytes 4 c
    have hcut : slice (patch r.f.payload 8 (leBytes 4 c ++ [byteOf (leAt r.f.payload 12 1 + 1)])) 8 4 = leBytes 4 c := by
      have h5l : (leBytes 4 c ++ [byteOf (leAt r.f.payload 12 1 + 1)]).length = 5 := by rw [List.length_append, h4l]; rfl
      rw [h5l] at hs4
      have ht := congrArg (List.take 4) hs4
      rw [List.take_left' h4l] at ht
      refine Eq.trans ?_ ht
      unfold slice
      rw [List.take_take]
      rfl
    rw [hc]
    unfold leAt
    rw [hp, hcut]
    exact leNat_leBytes 4 c

/-- Settles O31: SYNC frames, requests of other bays, answers and time-outs. -/
theorem ringTimeAndTransactions : Obligations.RingTimeAndTransactions := by
  unfold Obligations.RingTimeAndTransactions
  refine ⟨fun s r phase resid hg hm hs hr hl ha hn => ?_, fun s => syncSend_queues, fun s => syncTimeout_holdsOver, fun s r q => respReceive_ends,
    fun s b q => transactionTimeout_repeats, fun s b q => transactionTimeout_ends, fun s n r tid => remoteRegrd_answers,
    fun s n v r tid => remoteRegwr_writes, fun s a n r tid hg _ hk hr hp h1 h2 hl hf => remoteMemrd_answers hg hk hr hp h1 h2 ⟨hl, hf⟩,
    fun s a d r tid hg _ hk hr hp _ h2 hl hf => remoteMemwr_writes hg hk hr hp h2 ⟨hl, hf⟩⟩
  exact syncReceive_steps hg hm hs hr hl ha hn

end Sys2Proof.Machine
end

section
/-! SUPPORT. The host port: frames, FETCH, requests, the result (O32). -/

set_option Elab.async false

namespace Sys2Proof.Machine

variable {s t u : State} {d f : List Byte} {op : Nat}

/-! ### Bytes of a frame -/

theorem beNat_reverse (l : List Byte) : beNat l.reverse = leNat l := by
  unfold beNat
  rw [List.foldl_reverse]
  induction l with
  | nil => rfl
  | cons b l ih => rw [List.foldr_cons, ih, leNat, Nat.add_comm]

theorem beNat_beBytes (n v : Nat) : beNat (beBytes n v) = v % 256 ^ n :=
  (beNat_reverse _).trans (leNat_leBytes n v)

/-- A frame with its CRC, of the length that its OP gives, passes its checks. -/
theorem hostCheck_sound {o : Nat} (ho : leAt f 0 1 / 32 = o) (h1 : 1 ≤ o) (h4 : o ≤ 4) (h3 : 3 ≤ f.length + 1)
    (hl : f.length + 1 = hostLen (f ++ [crc8 f])) : hostCheck (f ++ [crc8 f]) = 0 := by
  have hne : f ≠ [] := by
    rintro rfl
    have : (0 : Nat) / 32 = o := ho
    omega
  have hop : leAt (f ++ [crc8 f]) 0 1 / 32 = o := by
    rw [← ho]
    unfold leAt slice
    rw [List.drop_zero, List.drop_zero, List.take_append_of_le_length (List.length_pos_of_ne_nil hne)]
  have hlen : (f ++ [crc8 f]).length = f.length + 1 := by simp
  have hlast : (f ++ [crc8 f]).getLast? = some (crc8 (f ++ [crc8 f]).dropLast) := by
    rw [List.dropLast_concat, List.getLast?_concat]
  have hc : (decide ((f ++ [crc8 f]).length < 3) || decide ((f ++ [crc8 f]).length ≠ hostLen (f ++ [crc8 f]))) = false := by
    rw [hlen, ← hl]
    simp
    omega
  unfold hostCheck
  rw [hop]
  obtain rfl | rfl | rfl | rfl : o = 1 ∨ o = 2 ∨ o = 3 ∨ o = 4 := by omega
  all_goals exact (if_neg (by rw [hc]; decide)).trans (if_neg (not_not.2 hlast))

/-! ### A frame begins -/

theorem State.hostOpen_keeps :
    (s.hostOpen d).host.done = s.host.done ∧ (s.hostOpen d).hostBusy = s.hostBusy ∧ (s.hostOpen d).regs = s.regs
      ∧ (d ≠ [] → (s.hostOpen d).host.pstat = s.pstat) ∧ ∃ h, s.hostOpen d = { s with host := h } := by
  have hp (hd : d ≠ []) : (if d.isEmpty = true then s.host.pstat else s.pstat) = s.pstat :=
    if_neg (by simpa using hd)
  unfold State.hostOpen State.hostSdo
  dsimp only
  split
  · exact ⟨rfl, rfl, rfl, hp, _, rfl⟩
  · exact ⟨rfl, rfl, rfl, hp, _, rfl⟩

/-- A frame of a command's own OP. -/
theorem State.hostFrame_own (hm : s.islandUp .memory = true) (ho : leAt d 0 1 / 32 = op) (hd : d ≠ []) :
    s.hostFrame op d 0
      = if hostCheck d ≠ 0 then (s.hostOpen d).hostErr (hostCheck d) else if op = 0 then s.hostOpen d else (s.hostOpen d).hostRequest d := by
  unfold State.hostFrame
  dsimp only
  rw [ho, hm, if_neg (by simp), if_neg (by simpa using hd)]

/-- A request that passes its checks, while none is under way, is carried out. -/
theorem State.hostRequest_local {x dl : Nat} (hb : u.hostBusy = false) (ho : leAt d 0 1 / 32 = op) (h0 : leAt d 1 1 = 0) (hx : leAt d 2 1 = x)
    (hdl : (if op = 1 then 3 * (x % 16 + 1) else if op = 3 then x else 0) = dl) (hg : hostBad op 0 x d = false) :
    u.hostRequest d = (u.updHost fun h => { h with result := none, done := some (1, []), dlen := dl }).hostLocal op x d := by
  unfold State.hostRequest
  dsimp only
  rw [hb, if_neg Bool.false_ne_true, ho, h0, hx, hdl, hg, if_neg Bool.false_ne_true, if_pos (by simp)]

/-- A request under way has its end. -/
theorem State.hostEnd_done {c : Nat} {l : List Byte} (h : u.host.done.isSome = true) :
    u.hostEnd c l = u.updHost fun h => { h with done := some (c, l) } :=
  if_pos h

theorem leAt_first (hf : f ≠ []) : leAt (f ++ d) 0 1 = leAt f 0 1 := by
  unfold leAt slice
  rw [List.drop_zero, List.drop_zero, List.take_append_of_le_length (List.length_pos_of_ne_nil hf)]

/-- The length that an OP and its NM1 or COUNT byte give. -/
theorem hostLen_op {x : Nat} (ho : leAt d 0 1 / 32 = op) (hx : leAt d 2 1 = x) (h1 : 1 ≤ op) (h4 : op ≤ 4) :
    hostLen d = if op = 1 then 6 else if op = 2 then 6 + 3 * (x % 16 + 1) else if op = 3 then 8 else 8 + x := by
  unfold hostLen
  dsimp only
  rw [ho, hx]
  obtain rfl | rfl | rfl | rfl : op = 1 ∨ op = 2 ∨ op = 3 ∨ op = 4 := by omega
  all_goals rfl

/-- A request frame with its CRC that is sound, in a state without a request: it is carried out. -/
theorem State.hostFrame_local {x dl : Nat} (hm : s.islandUp .memory = true) (hb : s.hostBusy = false) (ho : leAt f 0 1 = 32 * op) (h1 : 1 ≤ op)
    (h4 : op ≤ 4) (h3 : 3 ≤ f.length) (h0 : leAt (f ++ [crc8 f]) 1 1 = 0) (hx : leAt (f ++ [crc8 f]) 2 1 = x)
    (hl : f.length + 1 = if op = 1 then 6 else if op = 2 then 6 + 3 * (x % 16 + 1) else if op = 3 then 8 else 8 + x)
    (hdl : (if op = 1 then 3 * (x % 16 + 1) else if op = 3 then x else 0) = dl)
    (hg : (if op ≤ 2 then decide (16 ≤ x) else x = 0 || decide (56 < x)) = false) :
    ∃ u, Reach ⟨[.host], []⟩ s u ∧ (∃ h, u = { s with host := h }) ∧ u.regs = s.regs ∧ u.host.result = none ∧ u.host.done = some (1, []) ∧ u.host.dlen = dl
      ∧ s.hostFrame op (f ++ [crc8 f]) 0 = u.hostLocal op x (f ++ [crc8 f]) := by
  have hne : f ≠ [] := by rintro rfl; simp at h3
  have hof : leAt (f ++ [crc8 f]) 0 1 = 32 * op := (leAt_first hne).trans ho
  have hop : leAt (f ++ [crc8 f]) 0 1 / 32 = op := by omega
  have hbad : hostBad op 0 x (f ++ [crc8 f]) = false := by
    unfold hostBad
    rw [hg, hof]
    simp
  obtain ⟨-, hk, hr, -, h, hh⟩ := s.hostOpen_keeps (d := f ++ [crc8 f])
  have hz : hostCheck (f ++ [crc8 f]) = 0 := hostCheck_sound (by omega) h1 h4 (by omega) (hl.trans (hostLen_op hop hx h1 h4).symm)
  refine ⟨(s.hostOpen (f ++ [crc8 f])).updHost fun h => { h with result := none, done := some (1, []), dlen := dl },
    State.hostOpen_reach.then State.updHost_reach, ⟨{ h with result := none, done := some (1, []), dlen := dl }, by rw [hh]; rfl⟩, hr, rfl, rfl, rfl, (State.hostFrame_own hm hop (by simp)).trans ?_⟩
  rw [hz, if_neg (by decide), if_neg (by omega)]
  exact State.hostRequest_local (hk.trans hb) hop h0 hx hdl hbad

/-! ### FETCH -/

/-- The answer to a FETCH. -/
def fetchOut (code : Nat) (l : List Byte) : List Byte := [0] ++ (byteOf code :: l) ++ [crc8 (byteOf code :: l)]

theorem length_fetchOut (code : Nat) (l : List Byte) : (fetchOut code l).length = l.length + 3 := by
  simp [fetchOut]

theorem fetch_frame (hd : d.take 2 = [0, 0xBD]) : d ≠ [] ∧ leAt d 0 1 = 0 ∧ hostCheck d = 0 ∧ 2 ≤ d.length := by
  match d, hd with
  | a :: b :: l, hd =>
    have ha : a = 0 := by simpa using congrArg (·.getD 0 0) hd
    have hb : b = 0xBD := by simpa using congrArg (·.getD 1 0) hd
    subst ha hb
    refine ⟨List.cons_ne_nil _ _, rfl, ?_, by simp⟩
    have hc : crc8 [0] = (0xBD : Byte) := by decide
    have h0 : leAt (0 :: 0xBD :: l) 0 1 / 32 = 0 := show leNat [0] / 32 = 0 by decide
    unfold hostCheck
    rw [h0]
    simp [← hc]
  | [_], hd => simp at hd
  | [], hd => simp at hd

theorem hostFetch_clocks {code : Nat} {l : List Byte} (hm : s.islandUp .memory = true) (hd : d.take 2 = [0, 0xBD])
    (hr : s.host.result = some (code, l)) :
    GoesTo (exec (.hostFetch d 0) s) fun t =>
      t.host.pstat = s.pstat
      ∧ t.host.sdo = (fetchOut code l ++ List.replicate (d.length - 1) 0).take (d.length - 1)
      ∧ t.host.result = (if (fetchOut code l).length ≤ d.length - 1 then none else s.host.result) ∧ t.regs = s.regs := by
  obtain ⟨hne, h0, hz, -⟩ := fetch_frame hd
  obtain ⟨-, -, hregs, hp, -⟩ := s.hostOpen_keeps (d := d)
  have he : s.hostFrame 0 d 0 = s.hostOpen d := by
    rw [State.hostFrame_own hm (by rw [h0]) hne, hz]
    rfl
  refine ⟨s.hostOpen d, congrArg Host.Outcome.next he, hp hne, ?_, ?_, hregs⟩
  all_goals
    unfold State.hostOpen State.hostSdo
    dsimp only
    rw [if_pos hd]
    rw [show (s.updHost fun h => { h with pstat := if d.isEmpty then h.pstat else s.pstat, crcErr := false, fErr := false, refused := false }).host.result
      = _ from hr]
    rfl

/-- A FETCH as long as its answer clocks it out whole, and consumes the result. -/
theorem hostFetch_whole {code : Nat} {l : List Byte} (hm : s.islandUp .memory = true) (hd : d.take 2 = [0, 0xBD])
    (hr : s.host.result = some (code, l)) (hn : d.length = l.length + 4) :
    GoesTo (exec (.hostFetch d 0) s) fun t =>
      t.host.pstat = s.pstat ∧ t.host.sdo = fetchOut code l ∧ t.host.result = none ∧ t.regs = s.regs := by
  obtain ⟨t, he, hp, hs, ht, hg⟩ := hostFetch_clocks hm hd hr
  have hl : (fetchOut code l).length = d.length - 1 := by
    rw [length_fetchOut, hn]
    omega
  refine ⟨t, he, hp, hs.trans ?_, ht.trans (if_pos (Nat.le_of_eq hl)), hg⟩
  rw [← hl, List.take_append_of_le_length (Nat.le_refl _), List.take_length]

/-- A shorter FETCH clocks out the beginning, and the result stays. -/
theorem hostFetch_part {code : Nat} {l : List Byte} (hm : s.islandUp .memory = true) (hd : d.take 2 = [0, 0xBD])
    (hr : s.host.result = some (code, l)) (hn : d.length < l.length + 4) :
    GoesTo (exec (.hostFetch d 0) s) fun t =>
      t.host.pstat = s.pstat ∧ t.host.sdo = (fetchOut code l).take (d.length - 1) ∧ t.host.result = s.host.result ∧ t.regs = s.regs := by
  obtain ⟨t, he, hp, hs, ht, hg⟩ := hostFetch_clocks hm hd hr
  have hl : d.length - 1 < (fetchOut code l).length := by
    rw [length_fetchOut]
    omega
  exact ⟨t, he, hp, hs.trans (List.take_append_of_le_length (by omega)), ht.trans (if_neg (by omega)), hg⟩

/-! ### Requests of registers -/

theorem beNat_eoCfg (n : Fin 24) : beNat (beBytes 2 (R.EO_CFG n)) = R.EO_CFG n :=
  (beNat_beBytes 2 _).trans (Nat.mod_eq_of_lt (by simp only [R.EO_CFG]; omega))

theorem hostRegrd_reads {n : Fin 24} (hm : s.islandUp .memory = true) (hb : s.hostBusy = false) (ha : s.islandUp .angle = true)
    (hf : f = [0x20, 0, 0] ++ beBytes 2 (R.EO_CFG n)) :
    GoesTo (exec (.hostRegrd (f ++ [crc8 f]) 0) s) fun t =>
      t.host.done = some (1, beBytes 3 ((s.reg (R.EO_CFG n)).toNat % 2 ^ 13)) ∧ t.hostBusy = true ∧ t.host.result = none ∧ t.regs = s.regs
      ∧ SameStores s t := by
  have h5 : f.length = 5 := by rw [hf]; rfl
  obtain ⟨u, hR, -, hr, hn, hd, hl, he⟩ := s.hostFrame_local (f := f) (op := 1) (x := 0) (dl := 3) hm hb (by rw [hf]; rfl) (by decide) (by decide)
    (by omega) (by rw [hf]; rfl) (by rw [hf]; rfl) (by rw [h5]; rfl) rfl rfl
  have hua : u.islandUp .angle = true := (hR.islandUp .angle rfl rfl).trans ha
  have haddr : beNat (slice (f ++ [crc8 f]) 3 2) = R.EO_CFG n := by
    rw [hf]
    exact beNat_eoCfg n
  have hq : u.hostLocal 1 0 (f ++ [crc8 f]) = u.updHost fun h => { h with done := some (1, beBytes 3 ((u.reg (R.EO_CFG n)).toNat % 2 ^ 13)) } := by
    unfold State.hostLocal
    dsimp only
    rw [haddr]
    unfold State.hostRegs
    dsimp only
    rw [if_neg (by simp [R.EO_CFG, R.IRT_CLAIM]; omega), State.regReads_one (State.readReg_eoCfg n hua)]
    exact State.hostEnd_done (by rw [hd]; rfl)
  refine ⟨u.updHost fun h => { h with done := some (1, beBytes 3 ((u.reg (R.EO_CFG n)).toNat % 2 ^ 13)) }, congrArg Host.Outcome.next (he.trans hq), ?_, rfl,
    hn, hr, (hR.then State.updHost_reach).sameStores⟩
  exact congrArg (fun r => some (1, beBytes 3 ((cellGet resetOf r (R.EO_CFG n)).toNat % 2 ^ 13))) hr

theorem hostRegwr_writes {n : Fin 24} {v : Word} (hm : s.islandUp .memory = true) (hb : s.hostBusy = false) (ha : s.islandUp .angle = true)
    (hf : f = [0x40, 0, 0] ++ beBytes 2 (R.EO_CFG n) ++ beBytes 3 v.toNat) :
    GoesTo (exec (.hostRegwr (f ++ [crc8 f]) 0) s) fun t =>
      t.reg (R.EO_CFG n) = BitVec.ofNat 20 (s.merged .host (R.EO_CFG n) (s.reg (R.EO_CFG n)).toNat v.toNat) ∧ t.host.done = some (1, [])
      ∧ t.nvs = s.nvs := by
  have h8 : f.length = 8 := by rw [hf]; rfl
  obtain ⟨u, hR, hx, hr, -, hd, -, he⟩ := s.hostFrame_local (f := f) (op := 2) (x := 0) (dl := 0) hm hb (by rw [hf]; rfl) (by decide) (by decide)
    (by omega) (by rw [hf]; rfl) (by rw [hf]; rfl) (by rw [h8]; rfl) rfl rfl
  have hua : u.islandUp .angle = true := (hR.islandUp .angle rfl rfl).trans ha
  have haddr : beNat (slice (f ++ [crc8 f]) 3 2) = R.EO_CFG n := by
    rw [hf]
    exact beNat_eoCfg n
  have hval : (chunks 3 ((f ++ [crc8 f]).dropLast.drop 5)).map beNat = [v.toNat] := by
    have hdrop : (f ++ [crc8 f]).dropLast.drop 5 = beBytes 3 v.toNat := by
      rw [List.dropLast_concat, hf]
      rfl
    have hlt := v.isLt
    rw [hdrop, chunks_one _ rfl, List.map_singleton, beNat_beBytes, Nat.mod_eq_of_lt (by omega)]
  obtain ⟨w, hw⟩ : ∃ w, u.writeCodes .host (R.EO_CFG n) v = w := ⟨_, rfl⟩
  have hwd : w.host = u.host := by rw [← hw, State.writeCodes_host]
  have hq : u.hostLocal 2 0 (f ++ [crc8 f]) = w.updHost fun h => { h with done := some (1, []) } := by
    unfold State.hostLocal
    dsimp only
    rw [haddr, hval, State.regWrites_one (State.writeReg_eoCfg n hua .host (BitVec.ofNat 20 v.toNat)), BitVec.ofNat_toNat, BitVec.setWidth_eq, hw]
    exact State.hostEnd_done (by rw [hwd, hd]; rfl)
  refine ⟨w.updHost fun h => { h with done := some (1, []) }, congrArg Host.Outcome.next (he.trans hq), ?_, rfl, ?_⟩
  · have hm' : u.merged .host (R.EO_CFG n) (u.reg (R.EO_CFG n)).toNat v.toNat = s.merged .host (R.EO_CFG n) (s.reg (R.EO_CFG n)).toNat v.toNat := by
      obtain ⟨h, rfl⟩ := hx
      rfl
    change w.reg (R.EO_CFG n) = _
    rw [← hw, ← hm']
    exact (u.reg_writeCodes .host (R.EO_CFG n) v (by simp only [R.EO_CFG, R.WVL_WLREJ]; omega)).trans (if_pos rfl)
  · change w.nvs = _
    rw [← hw, State.writeCodes_nvs, hR.nvs]

/-! ### Requests of memory -/

theorem memWaits_hall {a n : Nat} (h : InHall a n) : s.memWaits a n = false := by
  have := h.lt
  unfold State.memWaits
  simp
  omega

/-- A count of 1 to 56 is in range. -/
theorem count_inRange {n : Nat} (h1 : 1 ≤ n) (h2 : n ≤ 56) : (decide (n = 0) || decide (56 < n)) = false := by
  simp
  omega

theorem State.hostLocal_memrd {a n : Nat} (h : InHall a n) (ha : beNat (slice d 3 4) = a) : u.hostLocal 3 n d = u.hostMem a n := by
  subst ha
  have hrs : regSpace (beNat (slice d 3 4)) = false := by
    have := h.lt
    simp [regSpace]
    omega
  exact (if_neg (by rw [memAligned_hall h]; decide)).trans ((if_neg (by rw [hrs]; simp)).trans (if_neg (by rw [memWaits_hall h]; decide)))

theorem State.hostLocal_memwr {a n k : Nat} {l : List Byte} (h : InHall a k) (ha : beNat (slice d 3 4) = a) (hl : d.dropLast.drop 7 = l) :
    u.hostLocal 4 n d = (u.memWrites .host 64 a l).1.hostEnd (if (u.memWrites .host 64 a l).2.1 = .ok then 1 else 2) [] := by
  subst ha hl
  exact if_neg (by rw [memAligned_hall h]; decide)

theorem hostMemrd_reads {a n : Nat} (hm : s.islandUp .memory = true) (hb : s.hostBusy = false) (hf : f = [0x60, 0, byteOf n] ++ beBytes 4 a)
    (h1 : 1 ≤ n) (h2 : n ≤ 56) (h : InHall a n) (hw : s.bit (F.HAL_OWN.PWR (a / 524288)) = true) (he : s.hallErr = []) :
    GoesTo (exec (.hostMemrd (f ++ [crc8 f]) 0) s) fun t =>
      t.host.done = some (1, s.hallBytes a n) ∧ t.host.dlen = n ∧ SameStores s t ∧ t.regs = s.regs := by
  have h7 : f.length = 7 := by rw [hf]; rfl
  have hlt := h.lt
  have hn : leAt (f ++ [crc8 f]) 2 1 = n := by
    rw [hf]
    exact leAt_cons (x := n) (l := []) (by omega)
  obtain ⟨u, hR, -, hr, -, hd, hl, he'⟩ := s.hostFrame_local (f := f) (op := 3) (x := n) (dl := n) hm hb (by rw [hf]; rfl) (by decide) (by decide)
    (by omega) (by rw [hf]; rfl) hn (by rw [h7]; rfl) rfl (count_inRange h1 h2)
  have haddr : beNat (slice (f ++ [crc8 f]) 3 4) = a := by
    rw [hf]
    exact (beNat_beBytes 4 a).trans (Nat.mod_eq_of_lt (by omega))
  have hq : u.hostLocal 3 n (f ++ [crc8 f]) = u.updHost fun h => { h with done := some (1, u.hallBytes a n) } := by
    rw [State.hostLocal_memrd h haddr]
    unfold State.hostMem
    dsimp only
    rw [State.memReads_hall rfl (hR.hallErr.trans he) h ((State.bit_eq_of_get (State.get_of_regs hr _)).trans hw) (by omega)]
    exact State.hostEnd_done (by rw [hd]; rfl)
  refine ⟨u.updHost fun h => { h with done := some (1, u.hallBytes a n) }, congrArg Host.Outcome.next (he'.trans hq), ?_, hl,
    (hR.then State.updHost_reach).sameStores, hr⟩
  have hbs : u.hallBytes a n = s.hallBytes a n := by
    unfold State.hallBytes State.hallByte
    rw [hR.halls]
  exact congrArg (fun l => some (1, l)) hbs

theorem hostMemwr_writes {a : Nat} {d : List Byte} (hm : s.islandUp .memory = true) (hb : s.hostBusy = false)
    (hf : f = [0x80, 0, byteOf d.length] ++ beBytes 4 a ++ d) (h1 : 1 ≤ d.length) (h2 : d.length ≤ 56) (h : InHall a d.length)
    (hw : s.bit (F.HAL_OWN.PWR (a / 524288)) = true) (ho : s.get (F.HAL_OWN.OWNER (a / 524288)) = 1) (he : s.hallErr = []) :
    GoesTo (exec (.hostMemwr (f ++ [crc8 f]) 0) s) fun t =>
      t.hallBytes a d.length = d ∧ (∀ b, b < a ∨ a + d.length ≤ b → t.hallByte b = s.hallByte b) ∧ t.host.done = some (1, []) ∧ t.regs = s.regs := by
  have h7 : f.length = 7 + d.length := by
    rw [hf]
    simp [beBytes, length_leBytes]
    omega
  have hlt := h.lt
  have hn : leAt (f ++ [crc8 f]) 2 1 = d.length := by
    rw [hf]
    exact leAt_cons (x := d.length) (l := []) (by omega)
  obtain ⟨u, hR, -, hr, -, hd, -, he'⟩ := s.hostFrame_local (f := f) (op := 4) (x := d.length) (dl := 0) hm hb (by rw [hf]; rfl) (by decide) (by decide)
    (by omega) (by rw [hf]; rfl) hn (by
      rw [h7]
      simp
      omega) rfl (count_inRange h1 h2)
  have haddr : beNat (slice (f ++ [crc8 f]) 3 4) = a := by
    rw [hf]
    exact (beNat_beBytes 4 a).trans (Nat.mod_eq_of_lt (by omega))
  have hdrop : (f ++ [crc8 f]).dropLast.drop 7 = d := by
    rw [List.dropLast_concat, hf]
    rfl
  have hq : u.hostLocal 4 d.length (f ++ [crc8 f]) = (u.setHallBytes a d).updHost fun h => { h with done := some (1, []) } := by
    rw [State.hostLocal_memwr h haddr hdrop,
      State.memWrites_hall (m := .host) (hR.hallErr.trans he) h ((State.bit_eq_of_get (State.get_of_regs hr _)).trans hw)
        (decide_eq_true ((State.get_of_regs hr _).trans ho)) (by omega)]
    exact State.hostEnd_done (by rw [(State.setHallBytes_halls d).host, hd]; rfl)
  refine ⟨(u.setHallBytes a d).updHost fun h => { h with done := some (1, []) }, congrArg Host.Outcome.next (he'.trans hq), u.hallBytes_setBytes d,
    fun b hb => ?_, rfl, (State.setHallBytes_regs _ _ _).trans hr⟩
  refine (u.hallByte_setBytes d a b hb).trans ?_
  unfold State.hallByte
  rw [hR.halls]

/-! ### Frames that ask for nothing -/

/-- A frame error sets LASTERR and the flag that PSTAT shows. -/
theorem State.hostErr_shows {e : Nat} (he : e < 8) :
    (s.hostErr e).get F.HOST_STAT.LASTERR = e ∧ (s.hostErr e).host.pstat = s.host.pstat ∧ (s.hostErr e).host.done = s.host.done
      ∧ (e ≠ 1 → (s.hostErr e).host.fErr = true) := by
  obtain ⟨f, hf⟩ : ∃ f, (if e = 1 then F.HOST_ERRCNT.CRC else F.HOST_ERRCNT.FRAME) = f := ⟨_, rfl⟩
  have ha : f.addr = R.HOST_ERRCNT := by
    rw [← hf]
    split
    · rfl
    · rfl
  obtain ⟨u, hu⟩ : ∃ u, (s.set F.HOST_STAT.LASTERR e).evtInc f = u := ⟨_, rfl⟩
  have hR : Reach ⟨[.regs, .marks], [(R.HOST_ERRCNT, R.HOST_ERRCNT + 1)]⟩ (s.set F.HOST_STAT.LASTERR e) u :=
    hu ▸ (Reach.refl _).evtAdd (by rw [ha]; decide)
  have hg : u.get F.HOST_STAT.LASTERR = e :=
    (hR.get (f := F.HOST_STAT.LASTERR)).trans ((s.get_set_self F.HOST_STAT.LASTERR (by decide) e).trans (Nat.mod_eq_of_lt he))
  have hh : u.host = s.host := hR.host
  have hs : s.hostErr e = u.updHost fun h => if e = 1 then { h with crcErr := true } else { h with fErr := true } := by
    unfold State.hostErr
    dsimp only
    rw [hf, hu]
  rw [hs, ← hh]
  refine ⟨hg, ?_, ?_, fun h1 => congrArg HostPort.fErr (if_neg h1)⟩
  all_goals
    unfold State.updHost
    dsimp only
    split
    · rfl
    · rfl

theorem hostCheck_lt : hostCheck d < 8 := by
  unfold hostCheck
  split <;> repeat' split
  all_goals decide

theorem ne_nil_of_op (h : leAt d 0 1 / 32 = 3) : d ≠ [] := by
  rintro rfl
  exact absurd h (by decide)

theorem hostMemrd_refused (hm : s.islandUp .memory = true) (hb : s.hostBusy = true) (hc : hostCheck (f ++ [crc8 f]) = 0) (ho : leAt f 0 1 / 32 = 3) :
    GoesTo (exec (.hostMemrd (f ++ [crc8 f]) 0) s) fun t =>
      t.get F.HOST_STAT.LASTERR = 4 ∧ t.host.refused = true ∧ t.host.done = s.host.done ∧ SameStores s t := by
  obtain ⟨hd, hk, -⟩ := s.hostOpen_keeps (d := f ++ [crc8 f])
  have hop : leAt (f ++ [crc8 f]) 0 1 / 32 = 3 := (congrArg (· / 32) (leAt_first (ne_nil_of_op ho))).trans ho
  obtain ⟨u, hu⟩ : ∃ u, s.hostOpen (f ++ [crc8 f]) = u := ⟨_, rfl⟩
  have hR : Reach ⟨[.host, .regs], [(R.HOST_STAT, R.HOST_STAT + 1)]⟩ s u := hu ▸ State.hostOpen_reach.mono (by decide)
  rw [hu] at hd hk
  have he : s.hostFrame 3 (f ++ [crc8 f]) 0 = (u.set F.HOST_STAT.LASTERR 4).updHost fun h => { h with refused := true } := by
    rw [State.hostFrame_own hm hop (ne_nil_of_op hop), hc, if_neg (by decide), if_neg (by decide), hu]
    exact if_pos (hk.trans hb)
  refine ⟨(u.set F.HOST_STAT.LASTERR 4).updHost fun h => { h with refused := true }, congrArg Host.Outcome.next he, ?_, rfl, hd, ?_⟩
  · exact u.get_set_self F.HOST_STAT.LASTERR (by decide) 4
  · exact ((hR.set).then State.updHost_reach).sameStores

theorem hostMemrd_fails {e : Nat} (hm : s.islandUp .memory = true) (hc : hostCheck d = e) (h0 : e ≠ 0) (ho : leAt d 0 1 / 32 = 3) :
    GoesTo (exec (.hostMemrd d 0) s) fun t =>
      t.get F.HOST_STAT.LASTERR = e ∧ t.host.pstat = s.pstat ∧ t.host.done = s.host.done ∧ SameStores s t := by
  have hd := ne_nil_of_op ho
  obtain ⟨hk, -, -, hp, -⟩ := s.hostOpen_keeps (d := d)
  obtain ⟨h1, h2, h3, -⟩ := (s.hostOpen d).hostErr_shows (e := e) (hc ▸ hostCheck_lt)
  have he : s.hostFrame 3 d 0 = (s.hostOpen d).hostErr e := by
    rw [State.hostFrame_own hm ho hd, hc, if_pos h0]
  exact ⟨(s.hostOpen d).hostErr e, congrArg Host.Outcome.next he, h1, h2.trans (hp hd), h3.trans hk,
    ((State.hostOpen_reach.mono (by decide)).trans State.hostErr_reach).sameStores⟩

theorem hostFrameTimeout_ends (hm : s.islandUp .memory = true) (hc : s.comes isHostFrame = false) :
    GoesTo (exec (.hostFrameTimeout d) s) fun t =>
      t.get F.HOST_STAT.LASTERR = 3 ∧ t.host.fErr = true ∧ t.host.done = s.host.done ∧ (t.por.pulses.any fun p => p.src = 76) = true ∧ SameStores s t := by
  obtain ⟨hk, -⟩ := s.hostOpen_keeps (d := d)
  obtain ⟨h1, -, h3, h4⟩ := (s.hostOpen d).hostErr_shows (e := 3) (by decide)
  have hE : Reach ⟨[.regs, .host, .marks, .por], [(0x6401, 0x6403)]⟩ s ((s.hostOpen d).hostErr 3) :=
    ((State.hostOpen_reach.mono (by decide)).trans State.hostErr_reach).mono (by decide)
  obtain ⟨u, hu⟩ : ∃ u, (s.hostOpen d).hostErr 3 = u := ⟨_, rfl⟩
  rw [hu] at h1 h3 h4 hE
  have hR : Reach ⟨[.por], []⟩ u (u.report 76 3) := State.report_reach
  refine ⟨u.report 76 3, congrArg Host.Outcome.next ((if_pos (by rw [hm, hc]; rfl)).trans (congrArg (State.report · 76 3) hu)), (hR.get).trans h1, ?_, ?_,
    State.report_pulse _ _ _, (hE.then hR).sameStores⟩
  · exact (congrArg HostPort.fErr hR.host).trans (h4 (by decide))
  · exact (congrArg HostPort.done hR.host).trans (h3.trans hk)

theorem hostResultReady_stands {code : Nat} {l : List Byte} (hm : s.islandUp .memory = true) (hn : s.host.nvRead = none) (hd : s.host.done = some (code, l)) :
    GoesTo (exec .hostResultReady s) fun t =>
      t.host.done = none
      ∧ t.host.result = some (code, if code = 1 then (l ++ List.replicate s.host.dlen 0).take s.host.dlen else List.replicate s.host.dlen 0)
      ∧ t.regs = s.regs := by
  have he : execHostResultReady s = .next (s.hostReady code l) := by
    unfold execHostResultReady
    dsimp only
    rw [hm, if_neg (show ¬(!true) = true by decide), hn]
    dsimp only
    rw [hd]
  exact ⟨s.hostReady code l, he, rfl, rfl, rfl⟩

/-- Settles O32: each clause by the answer to FETCH, the request carried out, or the frame refused. -/
theorem hostFramesRequestAndFetch : Obligations.HostFramesRequestAndFetch := by
  unfold Obligations.HostFramesRequestAndFetch
  exact ⟨fun _ _ _ _ hm hd hr hn => hostFetch_whole hm hd hr hn, fun _ _ _ _ hm hd hr hn => hostFetch_part hm hd hr hn,
    fun _ _ _ hm hb ha hf => hostRegrd_reads hm hb ha hf, fun _ _ _ _ hm hb ha hf => hostRegwr_writes hm hb ha hf,
    fun _ _ _ _ hm hb hf h1 h2 hl hh hw he => hostMemrd_reads hm hb hf h1 h2 ⟨hl, hh⟩ hw he,
    fun _ _ _ _ hm hb hf h1 h2 hl hh hw ho he => hostMemwr_writes hm hb hf h1 h2 ⟨hl, hh⟩ hw ho he,
    fun _ _ hm hb hc ho => hostMemrd_refused hm hb hc ho, fun _ _ _ hm hc h0 ho => hostMemrd_fails hm hc h0 ho,
    fun _ _ _ hm hn hd => hostResultReady_stands hm hn hd, fun _ _ hm hc => hostFrameTimeout_ends hm hc⟩

end Sys2Proof.Machine
end

section
/-! SUPPORT. HOOK channels: what stands behind a channel and in its registers after each operation (O27, O28). -/

set_option Elab.async false

namespace Sys2Proof.Machine

variable {s t u : State} {c j k : Nat}

/-! ### Channels and their registers -/

theorem State.getHk_updHk (hc : c < 16) {f : Hk → Hk} : (s.updHk c f).getHk c = f (s.getHk c) :=
  vget_vupd_self s.hook.ch hc f _

theorem State.getHk_updHk_ne (h : j ≠ c) {f : Hk → Hk} : (s.updHk c f).getHk j = s.getHk j :=
  vget_vupd_ne s.hook.ch h f _

theorem State.get_updHk {f : Hk → Hk} (g : Fld) : (s.updHk c f).get g = s.get g := rfl

theorem State.getHk_set {f : Fld} {v : Nat} : (s.set f v).getHk c = s.getHk c := rfl

theorem getHk_of_hook (h : t.hook = s.hook) : t.getHk c = s.getHk c := congrArg (fun h : Hook => vget h.ch c Hk.reset) h

/-- Setting a register of a channel leaves its other registers. -/
theorem State.get_set_hk {i k lo len lo' len' v : Nat} (h : i ≠ k) :
    (s.set ⟨0x5400 + 0x10 * c + i, lo, len⟩ v).get ⟨0x5400 + 0x10 * c + k, lo', len'⟩ = s.get ⟨0x5400 + 0x10 * c + k, lo', len'⟩ :=
  State.get_set_addr s ⟨0x5400 + 0x10 * c + i, lo, len⟩ ⟨0x5400 + 0x10 * c + k, lo', len'⟩ (fun e => h (Nat.add_left_cancel e).symm) v

/-- The interrupt source of a channel reaches no register of HOOK and nothing behind it. -/
theorem State.raiseIf_hk {b : Bool} (hc : c < 16) :
    (s.raiseIf b (224 + c)).hook = s.hook ∧ ∀ f : Fld, 0x5400 ≤ f.addr → f.addr < 0x5800 → (s.raiseIf b (224 + c)).get f = s.get f := by
  have hR : Reach raiseFoot s (s.raiseIf b (224 + c)) := State.raiseIf_reach (by omega)
  exact ⟨hR.hook, fun f h1 h2 => hR.get (Foot.holds_false_iff.2 (by simp; omega))⟩

/-! ### State, PC and counters of a channel -/

theorem State.hkSt_hkSet {st : Nat} : (s.hkSet c st).hkSt c = st % 8 := State.get_set_own (by decide)

/-- Setting a field of HK_STAT beside STATE. -/
theorem State.hkSt_setStat {lo len v : Nat} (h3 : 3 ≤ lo) (h : lo + len ≤ 20) : (s.set ⟨R.HK_STAT c, lo, len⟩ v).hkSt c = s.hkSt c :=
  State.get_set_within h (.inr h3)

/-- Setting another register of the channel leaves its state. -/
theorem State.hkSt_set {i lo len v : Nat} (hi : i ≠ 4) : (s.set ⟨0x5400 + 0x10 * c + i, lo, len⟩ v).hkSt c = s.hkSt c :=
  State.get_set_hk hi

/-- Setting another register of the channel leaves its PC. -/
theorem State.hkPc_set {i lo len v : Nat} (h2 : i ≠ 2) (h3 : i ≠ 3) : (s.set ⟨0x5400 + 0x10 * c + i, lo, len⟩ v).hkPc c = s.hkPc c :=
  congrArg₂ (fun x y => x + 2 ^ 20 * y) (State.get_set_hk h2) (State.get_set_hk h3)

theorem State.hkPc_hkSet {st : Nat} : (s.hkSet c st).hkPc c = s.hkPc c := State.hkPc_set (i := 4) (by decide) (by decide)

theorem State.hkSt_hkPcSet {a : Nat} : (s.hkPcSet c a).hkSt c = s.hkSt c :=
  (State.hkSt_set (i := 3) (by decide)).trans (State.hkSt_set (i := 2) (by decide))

theorem State.hkPc_hkPcSet {a : Nat} (h : a % 16 = 0) (ha : a < 2 ^ 32) : (s.hkPcSet c a).hkPc c = a := by
  have hlo : (s.hkPcSet c a).get (F.HK_PC_LO c) = a / 16 * 16 % 2 ^ 20 := (State.get_set_hk (i := 3) (k := 2) (by decide)).trans (State.get_set_own (by decide))
  have hhi : (s.hkPcSet c a).get (F.HK_PC_HI c) = a / 2 ^ 20 % 2 ^ 12 := State.get_set_own (by decide)
  unfold State.hkPc
  rw [hlo, hhi]
  omega

theorem State.hkSt_updHk {f : Hk → Hk} : (s.updHk j f).hkSt c = s.hkSt c := State.get_updHk _

theorem State.hkPc_updHk {f : Hk → Hk} : (s.updHk j f).hkPc c = s.hkPc c :=
  congrArg₂ (fun x y => x + 2 ^ 20 * y) (State.get_updHk _) (State.get_updHk _)

theorem State.getHk_hkSet {st : Nat} : (s.hkSet j st).getHk c = s.getHk c := State.getHk_set

theorem State.getHk_hkPcSet {a : Nat} : (s.hkPcSet j a).getHk c = s.getHk c := State.getHk_set.trans State.getHk_set

/-- A stop before its interrupt. -/
def State.hkStopped (s : State) (c cause : Nat) : State :=
  ((s.hkSet c 0).set (F.HK_STAT.SCAUSE c) cause).updHk c fun h =>
    { h with desc := none, begun := false, stopping := false, need := 0,
             burst := h.burst.map fun b => { b with late := true, bad := b.bad || h.bad.isSome } }

theorem State.hkStop_eq {cause : Nat} :
    ∃ b, s.hkStop c cause = (s.hkStopped c cause).raiseIf b (224 + c) := ⟨_, rfl⟩

theorem State.hkStopped_shows (hc : c < 16) {cause : Nat} :
    (s.hkStopped c cause).hkSt c = 0 ∧ (s.hkStopped c cause).get (F.HK_STAT.SCAUSE c) = cause % 16 ∧ (s.hkStopped c cause).hkPc c = s.hkPc c
      ∧ ((s.hkStopped c cause).getHk c).desc = none ∧ ((s.hkStopped c cause).getHk c).stopping = false := by
  obtain ⟨v, hv⟩ : ∃ v, (s.hkSet c 0).set (F.HK_STAT.SCAUSE c) cause = v := ⟨_, rfl⟩
  have h1 : v.hkSt c = 0 := hv ▸ (State.hkSt_setStat (lo := 12) (len := 4) (by decide) (by decide)).trans State.hkSt_hkSet
  have h2 : v.get (F.HK_STAT.SCAUSE c) = cause % 16 := hv ▸ State.get_set_own (by decide)
  have h3 : v.hkPc c = s.hkPc c := hv ▸ (State.hkPc_set (i := 4) (by decide) (by decide)).trans State.hkPc_hkSet
  unfold State.hkStopped
  rw [hv, State.getHk_updHk hc]
  exact ⟨h1, h2, h3, rfl, rfl⟩

/-- Registers of a channel, and what stands behind it, after its interrupt. -/
theorem State.raiseIf_chan {b : Bool} (hc : c < 16) :
    (s.raiseIf b (224 + c)).hkSt c = s.hkSt c ∧ (s.raiseIf b (224 + c)).hkPc c = s.hkPc c ∧ (s.raiseIf b (224 + c)).getHk c = s.getHk c
      ∧ ∀ k lo len, k < 16 → (s.raiseIf b (224 + c)).get ⟨0x5400 + 0x10 * c + k, lo, len⟩ = s.get ⟨0x5400 + 0x10 * c + k, lo, len⟩ := by
  obtain ⟨hh, hg⟩ := s.raiseIf_hk (b := b) hc
  have hreg (k lo len : Nat) (hk : k < 16) :
      (s.raiseIf b (224 + c)).get ⟨0x5400 + 0x10 * c + k, lo, len⟩ = s.get ⟨0x5400 + 0x10 * c + k, lo, len⟩ :=
    hg _ (by dsimp only; omega) (by dsimp only; omega)
  exact ⟨hreg 4 0 3 (by decide), congrArg₂ (fun x y => x + 2 ^ 20 * y) (hreg 2 0 20 (by decide)) (hreg 3 0 12 (by decide)), getHk_of_hook hh, hreg⟩

/-- What a stop with a cause leaves. -/
theorem State.hkStop_shows (hc : c < 16) {cause : Nat} :
    (s.hkStop c cause).hkSt c = 0 ∧ (s.hkStop c cause).get (F.HK_STAT.SCAUSE c) = cause % 16 ∧ (s.hkStop c cause).hkPc c = s.hkPc c
      ∧ ((s.hkStop c cause).getHk c).desc = none ∧ ((s.hkStop c cause).getHk c).stopping = false := by
  obtain ⟨h1, h2, h3, h4, h5⟩ := s.hkStopped_shows hc (cause := cause)
  obtain ⟨b, he⟩ := s.hkStop_eq (c := c) (cause := cause)
  obtain ⟨r1, r2, r3, r4⟩ := (s.hkStopped c cause).raiseIf_chan (b := b) hc
  rw [he, r1, r2, r3]
  exact ⟨h1, (r4 4 12 4 (by decide)).trans h2, h3, h4, h5⟩

end Sys2Proof.Machine
end

section
/-! SUPPORT. HOOK: starts and stops, the PC, descriptor fetches, LOOP, WAIT and SIGNAL (O27). -/

set_option Elab.async false

namespace Sys2Proof.Machine

variable {s t u : State} {c : Fin 16}

/-! ### Starts, stops, the PC, clears -/

theorem hookStart_fetches (hu : s.hkUp = true) (h0 : s.hkSt c = 0) :
    GoesTo (exec (.hookStart c) s) fun t => t.hkSt c = 1 ∧ (t.getHk c).desc = none ∧ t.hkPc c = s.hkPc c ∧ SameStores s t := by
  obtain ⟨u, hs⟩ : ∃ u, s.hkSet c 1 = u := ⟨_, rfl⟩
  have h1 : u.hkSt c = 1 := hs ▸ State.hkSt_hkSet
  have h2 : u.hkPc c = s.hkPc c := hs ▸ State.hkPc_hkSet
  have he : s.hkStart c = u.updHk c fun h => { h with desc := none, begun := false, paced := false, need := 0, bad := none, mism := false, issued := 0 } := by
    unfold State.hkStart
    rw [if_pos h0, hs]
  refine ⟨s.hkStart c, congrArg Host.Outcome.next (if_pos hu), ?_, ?_, ?_, (State.hkStart_reach c.isLt).sameStores⟩
  · rw [he]
    exact h1
  · rw [he, State.getHk_updHk c.isLt]
  · rw [he]
    exact h2

theorem hookStart_ignored (hu : s.hkUp = true) (h0 : s.hkSt c ≠ 0) : exec (.hookStart c) s = .next s :=
  congrArg Host.Outcome.next ((if_pos hu).trans (if_neg h0))

theorem hookStop_stops (hu : s.hkUp = true) (h0 : s.hkSt c ≠ 0) (hb : (s.getHk c).burst = []) :
    GoesTo (exec (.hookStop c) s) fun t =>
      t.hkSt c = 0 ∧ t.get (F.HK_STAT.SCAUSE c) = 2 ∧ (t.getHk c).desc = none ∧ t.hkPc c = s.hkPc c := by
  obtain ⟨h1, h2, h3, h4, -⟩ := s.hkStop_shows c.isLt (cause := 2)
  exact ⟨s.hkStop c 2, congrArg Host.Outcome.next ((if_pos hu).trans ((if_neg h0).trans (if_pos (by rw [hb]; rfl)))), h1, h2, h4, h3⟩

theorem hookStop_waits (hu : s.hkUp = true) (h0 : s.hkSt c ≠ 0) (hb : (s.getHk c).burst ≠ []) :
    GoesTo (exec (.hookStop c) s) fun t => (t.getHk c).stopping = true ∧ t.regs = s.regs :=
  ⟨s.updHk c fun h => { h with stopping := true },
    congrArg Host.Outcome.next ((if_pos hu).trans ((if_neg h0).trans (if_neg (by simpa using hb)))), by rw [State.getHk_updHk c.isLt], rfl⟩

theorem hookClearRequests_clears (hu : s.hkUp = true) (hp : s.hkPulsesNow c = 0) :
    GoesTo (exec (.hookClearRequests c) s) fun t =>
      t.get (F.HK_STAT.REQCNT c) = 0 ∧ t.get (F.HK_STAT.REQOVF c) = 0 ∧ SameRegs (fun a => a = R.HK_STAT c) s t ∧ t.hook = s.hook := by
  have he : s.hkClr c = (s.set (F.HK_STAT.REQCNT c) 0).set (F.HK_STAT.REQOVF c) 0 := by
    unfold State.hkClr
    rw [hp]
    rfl
  refine ⟨(s.set (F.HK_STAT.REQCNT c) 0).set (F.HK_STAT.REQOVF c) 0, congrArg Host.Outcome.next ((if_pos hu).trans he), ?_, State.get_set_own (by decide),
    fun a ha => ?_, rfl⟩
  · exact (State.get_set_within (by decide) (.inr (by decide))).trans (State.get_set_own (by decide))
  · exact (State.reg_setReg_ne _ ha _).trans (State.reg_setReg_ne _ ha _)

theorem hookPcWrite_low {v : Word} (hu : s.hkUp = true) (h0 : s.hkSt c = 0) :
    GoesTo (exec (.hookPcWrite c false v) s) fun t =>
      t.get (F.HK_PC_LO c) = v.toNat / 16 * 16 ∧ t.get (F.HK_PC_HI c) = s.get (F.HK_PC_HI c) := by
  have hv := v.isLt
  exact ⟨s.set (F.HK_PC_LO c) (v.toNat / 16 * 16), congrArg Host.Outcome.next ((if_pos hu).trans (if_pos h0)),
    (State.get_set_own (by decide)).trans (Nat.mod_eq_of_lt (by omega)), State.get_set_hk (i := 2) (k := 3) (by decide)⟩

theorem hookPcWrite_high {v : Word} (hu : s.hkUp = true) (h0 : s.hkSt c = 0) :
    GoesTo (exec (.hookPcWrite c true v) s) fun t =>
      t.get (F.HK_PC_HI c) = v.toNat % 2 ^ (F.HK_PC_HI c).len ∧ t.get (F.HK_PC_LO c) = s.get (F.HK_PC_LO c) :=
  ⟨s.set (F.HK_PC_HI c) v.toNat, congrArg Host.Outcome.next ((if_pos hu).trans (if_pos h0)), State.get_set_own (by decide),
    State.get_set_hk (i := 3) (k := 2) (by decide)⟩

/-! ### The descriptor fetch -/

/-- Part of a run of hall bytes. -/
theorem slice_hallBytes {a i n m : Nat} (h : i + n ≤ m) : slice (s.hallBytes a m) i n = s.hallBytes (a + i) n := by
  obtain ⟨r, rfl⟩ := Nat.exists_eq_add_of_le h
  rw [Nat.add_assoc, State.hallBytes_append, State.hallBytes_append]
  unfold slice
  rw [List.drop_left' State.length_hallBytes, List.take_left' State.length_hallBytes]

theorem leAt_hallBytes {a i n m : Nat} (h : i + n ≤ m) : leAt (s.hallBytes a m) i n = leNat (s.hallBytes (a + i) n) :=
  congrArg leNat (slice_hallBytes h)

/-- Word `k` of a descriptor in a hall. -/
def State.descWord (s : State) (pc k : Nat) : Nat := leNat (s.hallBytes (pc + 4 * k) 4)

/-- The four words at the PC. -/
def State.descAt (s : State) (pc : Nat) : List Nat := [s.descWord pc 0, s.descWord pc 1, s.descWord pc 2, s.descWord pc 3]

theorem State.hkFetch_reads (hp : s.hkPc c % 16 = 0) (hh : s.hkPc c + 16 ≤ 15 * 524288) (he : s.hallErr = [])
    (hw : s.bit (F.HAL_OWN.PWR (s.hkPc c / 524288)) = true) :
    s.hkFetch c = if !bitOf (s.descWord (s.hkPc c) 0) 31 then s.hkStop c 1
      else
        let u := (s.set (F.HK_CMPOFS c) 0xFFFFF).updHk c fun h =>
          { h with desc := some (s.descAt (s.hkPc c)), begun := false, paced := false, need := max 1 (s.descWord (s.hkPc c) 2 % 65536), bad := none,
                   mism := false, issued := 0, seq := h.seq + 1, left := [] }
        if 6 ≤ s.descWord (s.hkPc c) 0 % 16 then (u.freeAddr.2).hkBad c 5 u.freeAddr.1
        else u.hkSet c (if s.descWord (s.hkPc c) 0 % 16 = 4 then 2 else 3) := by
  have hin : InHall (s.hkPc c) 16 := ⟨by omega, by omega⟩
  have hword (k : Nat) (hk : k < 4) : leAt (s.hallBytes (s.hkPc c) 16) (4 * k) 4 = s.descWord (s.hkPc c) k := leAt_hallBytes (by omega)
  unfold State.hkFetch
  dsimp only
  rw [if_neg (by omega), State.memReads_hall rfl he hin hw (by decide)]
  dsimp only
  rw [hword 0 (by decide), hword 1 (by decide), hword 2 (by decide), hword 3 (by decide), if_neg (not_not.2 rfl)]
  rfl

theorem exec_descriptorFetch (hu : s.hkUp = true) (h1 : s.hkSt c = 1) (hs : (s.getHk c).stopping = false) :
    exec (.descriptorFetch c) s = .next (s.hkFetch c) :=
  congrArg Host.Outcome.next (if_pos (by rw [hu, h1, hs]; rfl))

theorem descriptorFetch_ends (hu : s.hkUp = true) (h1 : s.hkSt c = 1) (hs : (s.getHk c).stopping = false) (hp : s.hkPc c % 16 = 0)
    (hh : s.hkPc c + 16 ≤ 15 * 524288) (he : s.hallErr = []) (hw : s.bit (F.HAL_OWN.PWR (s.hkPc c / 524288)) = true)
    (ho : bitOf (leNat (s.hallBytes (s.hkPc c) 4)) 31 = false) :
    GoesTo (exec (.descriptorFetch c) s) fun t => t.hkSt c = 0 ∧ t.get (F.HK_STAT.SCAUSE c) = 1 ∧ SameStores s t := by
  obtain ⟨h2, h3, -, -, -⟩ := s.hkStop_shows c.isLt (cause := 1)
  refine ⟨s.hkStop c 1, (exec_descriptorFetch hu h1 hs).trans (congrArg Host.Outcome.next ?_), h2, h3, (State.hkStop_reach c.isLt).sameStores⟩
  rw [State.hkFetch_reads hp hh he hw]
  exact if_pos (by rw [State.descWord, Nat.mul_zero, Nat.add_zero, ho]; rfl)

theorem descriptorFetch_holds (hu : s.hkUp = true) (h1 : s.hkSt c = 1) (hs : (s.getHk c).stopping = false) (hp : s.hkPc c % 16 = 0)
    (hh : s.hkPc c + 16 ≤ 15 * 524288) (he : s.hallErr = []) (hw : s.bit (F.HAL_OWN.PWR (s.hkPc c / 524288)) = true)
    (ho : bitOf (leNat (s.hallBytes (s.hkPc c) 4)) 31 = true) (h6 : leNat (s.hallBytes (s.hkPc c) 4) % 16 < 6) :
    GoesTo (exec (.descriptorFetch c) s) fun t =>
      (t.getHk c).desc = some ((List.range 4).map fun k => leNat (s.hallBytes (s.hkPc c + 4 * k) 4)) ∧ (t.getHk c).begun = false
      ∧ (t.getHk c).need = max 1 (leNat (s.hallBytes (s.hkPc c + 8) 4) % 65536)
      ∧ t.hkSt c = (if leNat (s.hallBytes (s.hkPc c) 4) % 16 = 4 then 2 else 3) ∧ t.get (F.HK_CMPOFS c) = 0xFFFFF ∧ SameStores s t := by
  have hz : s.descWord (s.hkPc c) 0 = leNat (s.hallBytes (s.hkPc c) 4) := by rw [State.descWord, Nat.mul_zero, Nat.add_zero]
  obtain ⟨v, hv⟩ : ∃ v, s.set (F.HK_CMPOFS c) 0xFFFFF = v := ⟨_, rfl⟩
  have hvc : v.get (F.HK_CMPOFS c) = 0xFFFFF := hv ▸ State.get_set_own (by decide)
  have hvR : Reach hkFoot s v := hv ▸ (Reach.refl s).set (hkReg_holds c.isLt (k := 11) (by decide))
  obtain ⟨u, hu'⟩ : ∃ u, v.updHk c (fun h =>
    { h with desc := some (s.descAt (s.hkPc c)), begun := false, paced := false, need := max 1 (s.descWord (s.hkPc c) 2 % 65536), bad := none,
             mism := false, issued := 0, seq := h.seq + 1, left := [] }) = u := ⟨_, rfl⟩
  have huh : (u.getHk c).desc = some (s.descAt (s.hkPc c)) ∧ (u.getHk c).begun = false ∧ (u.getHk c).need = max 1 (s.descWord (s.hkPc c) 2 % 65536) := by
    rw [← hu', State.getHk_updHk c.isLt]
    exact ⟨rfl, rfl, rfl⟩
  have huc : u.get (F.HK_CMPOFS c) = 0xFFFFF := by
    rw [← hu']
    exact hvc
  have huR : Reach hkFoot s u := hu' ▸ hvR.then State.updHk_reach
  obtain ⟨hd, hb, hn⟩ := huh
  obtain ⟨st, hst, hlt⟩ : ∃ st, (if leNat (s.hallBytes (s.hkPc c) 4) % 16 = 4 then 2 else 3) = st ∧ st < 8 := ⟨_, rfl, by split <;> decide⟩
  refine ⟨u.hkSet c st, (exec_descriptorFetch hu h1 hs).trans (congrArg Host.Outcome.next ?_), hd, hb, hn, ?_, ?_,
    (huR.trans (State.hkSet_reach c.isLt)).sameStores⟩
  · rw [State.hkFetch_reads hp hh he hw]
    dsimp only
    rw [hz, ho, if_neg (show ¬(!true) = true by decide), if_neg (by omega), hv, hu', hst]
  · exact State.hkSt_hkSet.trans ((Nat.mod_eq_of_lt hlt).trans hst.symm)
  · exact (State.get_set_hk (i := 4) (k := 11) (by decide)).trans huc

end Sys2Proof.Machine
end

section
/-! SUPPORT. HOOK: LOOP, WAIT and SIGNAL, pulses, and the status write (O27). -/

set_option Elab.async false

namespace Sys2Proof.Machine

variable {s t u : State} {c : Fin 16} {i j : Nat}

/-! ### LOOP, WAIT, SIGNAL -/

/-- What a LOOP that jumps does. -/
def State.hkJump (s : State) (c a : Nat) : State := ((s.hkPcSet c a).hkSet c 1).updHk c fun h => { h with desc := none }

theorem State.hkJump_shows (hc : j < 16) {a : Nat} (ha : a % 16 = 0) (hl : a < 2 ^ 32) :
    (s.hkJump j a).hkPc j = a ∧ (s.hkJump j a).hkSt j = 1 ∧ (s.hkJump j a).get (F.HK_LCNT j) = s.get (F.HK_LCNT j)
      ∧ ((s.hkJump j a).getHk j).loopAt = (s.getHk j).loopAt := by
  obtain ⟨v, hv⟩ : ∃ v, s.hkPcSet j a = v := ⟨_, rfl⟩
  obtain ⟨w, hw⟩ : ∃ w, v.hkSet j 1 = w := ⟨_, rfl⟩
  have h1 : w.hkPc j = a := hw ▸ State.hkPc_hkSet.trans (hv ▸ State.hkPc_hkPcSet ha hl)
  have h2 : w.hkSt j = 1 := hw ▸ State.hkSt_hkSet
  have h3 : w.get (F.HK_LCNT j) = s.get (F.HK_LCNT j) := by
    rw [← hw, ← hv]
    exact (State.get_set_hk (i := 4) (k := 8) (by decide)).trans ((State.get_set_hk (i := 3) (k := 8) (by decide)).trans
      (State.get_set_hk (i := 2) (k := 8) (by decide)))
  have h4 : (w.getHk j) = s.getHk j := by rw [← hw, State.getHk_hkSet, ← hv, State.getHk_hkPcSet]
  unfold State.hkJump
  rw [hv, hw, State.getHk_updHk hc, h4, State.hkPc_updHk, State.hkSt_updHk, State.get_updHk]
  exact ⟨h1, h2, h3, rfl⟩

/-- A LOOP in no other loop, to a target in line. -/
theorem State.hkLoop_count (h : (s.getHk c).loopAt.getD (s.hkPc c) = s.hkPc c) (ht : s.hkWord c 1 % 16 = 0) (hn : s.hkWord c 2 % 65536 ≠ 0) {v : State}
    (hv : (if (s.getHk c).loopAt.isNone && s.hkWord c 2 % 65536 ≠ 0 then
      (s.set (F.HK_LCNT c) (s.hkWord c 2 % 65536)).updHk c fun h => { h with loopAt := some (s.hkPc c) } else s) = v) :
    s.hkLoop c = if 1 < v.get (F.HK_LCNT c) then (v.set (F.HK_LCNT c) (v.get (F.HK_LCNT c) - 1)).hkJump c (s.hkWord c 1)
      else ((v.set (F.HK_LCNT c) 0).updHk c fun h => { h with loopAt := none, begun := true }).hkSet c 4 := by
  subst hv
  exact (if_neg (not_not.2 h)).trans ((if_neg (not_not.2 ht)).trans (if_neg hn))

theorem hookLoop_jumps (ha : s.hkAt c 3 = true) (hl : (s.getHk c).loopAt = none) (ht : s.hkWord c 1 % 16 = 0) (hlt : s.hkWord c 1 < 2 ^ 32)
    (hn : 2 ≤ s.hkWord c 2 % 65536) :
    GoesTo (exec (.hookLoop c) s) fun t =>
      t.hkPc c = s.hkWord c 1 ∧ t.hkSt c = 1 ∧ t.get (F.HK_LCNT c) = s.hkWord c 2 % 65536 - 1 ∧ (t.getHk c).loopAt = some (s.hkPc c) := by
  obtain ⟨v, hv⟩ : ∃ v, (if (s.getHk c).loopAt.isNone && s.hkWord c 2 % 65536 ≠ 0 then
      (s.set (F.HK_LCNT c) (s.hkWord c 2 % 65536)).updHk c fun h => { h with loopAt := some (s.hkPc c) } else s) = v := ⟨_, rfl⟩
  have hvs : v.get (F.HK_LCNT c) = s.hkWord c 2 % 65536 ∧ (v.getHk c).loopAt = some (s.hkPc c) := by
    rw [← hv, if_pos (by rw [hl]; simp; omega), State.getHk_updHk c.isLt, State.get_updHk]
    exact ⟨(State.get_set_own (by decide)).trans (Nat.mod_mod _ _), rfl⟩
  obtain ⟨h1, h2⟩ := hvs
  obtain ⟨w, hw⟩ : ∃ w, v.set (F.HK_LCNT c) (v.get (F.HK_LCNT c) - 1) = w := ⟨_, rfl⟩
  have hwl : w.get (F.HK_LCNT c) = s.hkWord c 2 % 65536 - 1 := by
    rw [← hw, h1]
    exact (State.get_set_own (by decide)).trans (Nat.mod_eq_of_lt (by omega))
  have hwh : (w.getHk c).loopAt = some (s.hkPc c) := by
    rw [← hw, State.getHk_set]
    exact h2
  obtain ⟨j1, j2, j3, j4⟩ := w.hkJump_shows c.isLt ht hlt
  refine ⟨w.hkJump c (s.hkWord c 1), congrArg Host.Outcome.next ((if_pos ha).trans ?_), j1, j2, j3.trans hwl, j4.trans hwh⟩
  rw [State.hkLoop_count (by rw [hl]; rfl) ht (by omega) hv, if_pos (by omega), hw]

theorem hookLoop_leaves (ha : s.hkAt c 3 = true) (hl : (s.getHk c).loopAt = some (s.hkPc c)) (ht : s.hkWord c 1 % 16 = 0)
    (hn : s.hkWord c 2 % 65536 ≠ 0) (hc : s.get (F.HK_LCNT c) ≤ 1) :
    GoesTo (exec (.hookLoop c) s) fun t =>
      t.hkPc c = s.hkPc c ∧ t.hkSt c = 4 ∧ t.get (F.HK_LCNT c) = 0 ∧ (t.getHk c).loopAt = none := by
  obtain ⟨w, hw⟩ : ∃ w, s.set (F.HK_LCNT c) 0 = w := ⟨_, rfl⟩
  have hwl : w.get (F.HK_LCNT c) = 0 := hw ▸ State.get_set_own (by decide)
  have hwp : w.hkPc c = s.hkPc c := hw ▸ State.hkPc_set (i := 8) (by decide) (by decide)
  obtain ⟨x, hx⟩ : ∃ x, w.updHk c (fun h => { h with loopAt := none, begun := true }) = x := ⟨_, rfl⟩
  have hxs : x.get (F.HK_LCNT c) = 0 ∧ x.hkPc c = s.hkPc c ∧ (x.getHk c).loopAt = none := by
    rw [← hx, State.getHk_updHk c.isLt, State.get_updHk, State.hkPc_updHk]
    exact ⟨hwl, hwp, rfl⟩
  obtain ⟨x1, x2, x3⟩ := hxs
  refine ⟨x.hkSet c 4, congrArg Host.Outcome.next ((if_pos ha).trans ?_), State.hkPc_hkSet.trans x2, State.hkSt_hkSet,
    (State.get_set_hk (i := 4) (k := 8) (by decide)).trans x1,
    (congrArg Hk.loopAt State.getHk_hkSet).trans x3⟩
  rw [State.hkLoop_count (by rw [hl]; rfl) ht hn (if_neg (by rw [hl]; simp)), if_neg (by omega), hw, hx]

/-- A WAIT that needs nothing more goes to its status write. -/
theorem State.waitTest_ends (h2 : s.hkSt j = 2) (hb : (s.getHk j).begun = true) (hn : (s.getHk j).need = 0) : s.waitTest j = s.hkSet j 4 :=
  if_pos (by rw [h2, hb, hn]; rfl)

theorem hookWait_takes (ha : s.hkAt c 4 = true) (h1 : 1 ≤ s.hkWord c 1 % 256) (h32 : s.hkWord c 1 % 256 ≤ 32) (h2 : s.hkSt c = 2)
    (hp : s.get (F.HK_CFG.PSRC c) = s.hkWord c 1 % 256) (hn : (s.getHk c).need ≤ s.get (F.HK_STAT.REQCNT c)) :
    GoesTo (exec (.hookWait c) s) fun t =>
      t.hkSt c = 4 ∧ t.get (F.HK_STAT.REQCNT c) = s.get (F.HK_STAT.REQCNT c) - (s.getHk c).need := by
  obtain ⟨n, hneed⟩ : ∃ n, (s.getHk c).need = n := ⟨_, rfl⟩
  obtain ⟨v, hv⟩ : ∃ v, (if n = 0 then s else s.set (F.HK_STAT.REQCNT c) (s.get (F.HK_STAT.REQCNT c) - n)) = v := ⟨_, rfl⟩
  rw [hneed] at hn ⊢
  have hlt : s.get (F.HK_STAT.REQCNT c) < 2 ^ 4 := s.get_lt _
  have hvs : v.hkSt c = 2 ∧ v.get (F.HK_STAT.REQCNT c) = s.get (F.HK_STAT.REQCNT c) - n := by
    rw [← hv]
    split
    · next h0 => exact ⟨h2, by rw [h0]; rfl⟩
    · exact ⟨(State.hkSt_setStat (lo := 3) (len := 4) (by decide) (by decide)).trans h2, (State.get_set_own (by decide)).trans (Nat.mod_eq_of_lt (by omega))⟩
  obtain ⟨v2, vn⟩ := hvs
  obtain ⟨w, hw⟩ : ∃ w, v.updHk c (fun h => { h with begun := true, need := 0 }) = w := ⟨_, rfl⟩
  have hws : w.hkSt c = 2 ∧ w.get (F.HK_STAT.REQCNT c) = s.get (F.HK_STAT.REQCNT c) - n ∧ (w.getHk c).begun = true ∧ (w.getHk c).need = 0 := by
    rw [← hw, State.getHk_updHk c.isLt, State.get_updHk, State.hkSt_updHk]
    exact ⟨v2, vn, rfl, rfl⟩
  obtain ⟨w2, wn, wb, w0⟩ := hws
  have hpulsed : s.hkPulsed c (s.hkWord c 1 % 256) = true := by
    unfold State.hkPulsed
    rw [decide_eq_true h1, decide_eq_true h32]
    rfl
  refine ⟨w.hkSet c 4, congrArg Host.Outcome.next ((if_pos ha).trans ?_), State.hkSt_hkSet,
    (State.get_set_within (by decide) (.inl (by decide))).trans wn⟩
  unfold State.hkWait
  dsimp only
  rw [if_neg (by omega), if_pos hpulsed, if_pos hp.symm, hneed, Nat.min_eq_left hn, hv, Nat.sub_self, hw]
  exact State.waitTest_ends w2 wb w0

theorem hookSignal_goes (ha : s.hkAt c 5 = true) :
    GoesTo (exec (.hookSignal c) s) fun t => t.hkSt c = 4 ∧ (t.getHk c).begun = true ∧ t.hook.pulses = s.hook.pulses := by
  obtain ⟨u, hu⟩ : ∃ u, s.updHk c (fun h => { h with begun := true }) = u := ⟨_, rfl⟩
  have hb : (u.getHk c).begun = true := by rw [← hu, State.getHk_updHk c.isLt]
  have hp : u.hook.pulses = s.hook.pulses := by rw [← hu]; rfl
  exact ⟨u.hkSet c 4, congrArg Host.Outcome.next ((if_pos ha).trans (by rw [hu])), State.hkSt_hkSet, hb, hp⟩

/-! ### Pulses -/

/-- A pulse that the channel's own source counts. -/
theorem State.hkCount_counts (hused : ((s.getHk j).usedT.any s.thisMclk) = false) :
    (if s.get (F.HK_STAT.REQCNT j) = 15 then (s.hkCount j).bit (F.HK_STAT.REQOVF j) = true ∧ (s.hkCount j).get (F.HK_STAT.REQCNT j) = 15
      else (s.hkCount j).get (F.HK_STAT.REQCNT j) = s.get (F.HK_STAT.REQCNT j) + 1) := by
  obtain ⟨u, hu⟩ : ∃ u, s.updHk j (fun h => { h with inT := some (s.fclk, s.hkPulsesNow j + 1) }) = u := ⟨_, rfl⟩
  have hug : u.get (F.HK_STAT.REQCNT j) = s.get (F.HK_STAT.REQCNT j) := by rw [← hu, State.get_updHk]
  have he : s.hkCount j = if s.get (F.HK_STAT.REQCNT j) = 15 then u.evt (F.HK_STAT.REQOVF j) else u.incW (F.HK_STAT.REQCNT j) := by
    unfold State.hkCount
    dsimp only
    rw [hu]
    cases hT : (s.getHk j).usedT with
    | none => simp
    | some t =>
      rw [hT] at hused
      simp [show s.thisMclk t = false from hused]
  have hlt : s.get (F.HK_STAT.REQCNT j) < 2 ^ 4 := s.get_lt _
  by_cases h15 : s.get (F.HK_STAT.REQCNT j) = 15
  · rw [he, if_pos h15, if_pos h15]
    refine ⟨State.bit_of_get_one (u.get_evt _ (by simp [F.HK_STAT.REQOVF]) (by simp [F.HK_STAT.REQOVF])), ?_⟩
    exact (State.get_set_within (by decide) (.inr (by decide))).trans ((State.get_of_regs (State.mark_regs _ _ _) _).trans (hug.trans h15))
  · rw [he, if_neg h15, if_neg h15]
    exact (State.get_set_own (by decide)).trans (by rw [hug]; exact Nat.mod_eq_of_lt (by omega))

/-- What a pulse of channel `i` reaches. -/
theorem State.hkPulse_chan {code : Nat} : Reach ⟨[.regs, .hook, .marks], [(R.HK_STAT i, R.HK_STAT i + 1)]⟩ s (s.hkPulse i code) := by
  have h {lo len : Nat} : Foot.holds ⟨[.regs, .hook, .marks], [(R.HK_STAT i, R.HK_STAT i + 1)]⟩ (⟨R.HK_STAT i, lo, len⟩ : Fld).addr = true :=
    Foot.holds_iff.2 ⟨_, .head _, Nat.le_refl _, .inr (Nat.lt_succ_self _)⟩
  have hu {u : State} {f : Hk → Hk} : Reach ⟨[.regs, .hook, .marks], [(R.HK_STAT i, R.HK_STAT i + 1)]⟩ u (u.updHk i f) :=
    (Reach.refl u).frame
  refine (Reach.refl s).branch (fun e => (e.trans hu).when fun e => e.set h rfl) (·.when fun e => ?_)
  unfold State.hkCount
  exact (e.trans hu).branch (·.evt h rfl rfl) (·.set h rfl)

theorem State.waitTest_hook : (s.waitTest i).hook = s.hook := by
  unfold State.waitTest
  split
  · rfl
  · rfl

theorem State.hkCount_hook : ∃ f, (s.hkCount i).hook = (s.updHk i f).hook := by
  refine ⟨fun h => { h with inT := some (s.fclk, s.hkPulsesNow i + 1) }, ?_⟩
  unfold State.hkCount
  dsimp only
  rw [apply_ite State.hook, State.evt_hook]
  exact ite_self _

/-- A pulse of channel `i` leaves what stands behind the others, and the pulses on their way. -/
theorem State.hkPulse_hook {code : Nat} : ∃ f, (s.hkPulse i code).hook = (s.updHk i f).hook ∨ (s.hkPulse i code).hook = s.hook := by
  unfold State.hkPulse
  split
  · exact ⟨_, .inl State.waitTest_hook⟩
  · split
    · obtain ⟨f, hf⟩ := s.hkCount_hook (i := i)
      exact ⟨f, .inl hf⟩
    · exact ⟨id, .inr rfl⟩

theorem State.hkPulse_keeps {code : Nat} : (s.hkPulse i code).hook.pulses = s.hook.pulses ∧ (j ≠ i → (s.hkPulse i code).getHk j = s.getHk j) := by
  obtain ⟨f, hf | hf⟩ := s.hkPulse_hook (i := i) (code := code)
  · exact ⟨(congrArg Hook.pulses hf :), fun hj => (getHk_of_hook hf).trans (State.getHk_updHk_ne hj)⟩
  · exact ⟨(congrArg Hook.pulses hf :), fun _ => getHk_of_hook hf⟩

/-- A loop over different places: the step for `a` is made once. -/
theorem State.each_once {α : Type} {f : State → α → State} {I P : State → Prop} {a : α} (hI : ∀ s b, b ≠ a → I s → I (f s b))
    (hset : ∀ s, I s → P (f s a)) (hkeep : ∀ s b, b ≠ a → P s → P (f s b)) {l : List α} (hn : l.Nodup) (ha : a ∈ l) {s : State} (hs : I s) :
    P (s.each l f) := by
  induction l generalizing s with
  | nil => cases ha
  | cons b l ih =>
    obtain ⟨hb, hl⟩ := List.nodup_cons.1 hn
    by_cases hab : b = a
    · subst hab
      have hk : ∀ (m : List α), b ∉ m → ∀ t, P t → P (t.each m f) := by
        intro m
        induction m with
        | nil => exact fun _ _ h => h
        | cons x m ihm =>
          intro hm t ht
          exact ihm (fun h => hm (.tail _ h)) _ (hkeep t x (fun h => hm (h ▸ .head _)) ht)
      exact hk l hb _ (hset s hs)
    · exact ih hl ((List.mem_cons.1 ha).resolve_left fun h => hab h.symm) (hI s b hab hs)

/-- What the count of a pulse of channel `c` depends on. -/
def pulseView (s : State) (c : Nat) : Nat × Hk × Nat × Nat × Nat := (s.fclk, s.getHk c, s.hkSt c, s.get (F.HK_CFG.PSRC c), s.get (F.HK_STAT.REQCNT c))

theorem pulseView_ne {code : Nat} (h : i ≠ j) : pulseView (s.hkPulse i code) j = pulseView s j
    ∧ (s.hkPulse i code).get (F.HK_STAT.REQOVF j) = s.get (F.HK_STAT.REQOVF j) := by
  have hR := s.hkPulse_chan (i := i) (code := code)
  have hg (k : Nat) (lo len : Nat) (hk : k < 16) :
      (s.hkPulse i code).get ⟨0x5400 + 0x10 * j + k, lo, len⟩ = s.get ⟨0x5400 + 0x10 * j + k, lo, len⟩ :=
    hR.get (Foot.holds_false_iff.2 (by simp only [R.HK_STAT, List.mem_singleton, forall_eq]; omega))
  refine ⟨?_, hg 4 7 1 (by decide)⟩
  unfold pulseView
  rw [hR.fclk rfl, (State.hkPulse_keeps (i := i) (code := code)).2 h.symm]
  exact congrArg (fun p => (s.fclk, s.getHk j, p)) (congrArg₂ Prod.mk (hg 4 0 3 (by decide)) (congrArg₂ Prod.mk (hg 0 2 8 (by decide)) (hg 4 3 4 (by decide))))

/-- The channel that does not wait counts a pulse of its own source. -/
theorem State.hkPulse_own {code : Nat} (hp : s.get (F.HK_CFG.PSRC j) = code) (h2 : s.hkSt j ≠ 2) : s.hkPulse j code = s.hkCount j := by
  unfold State.hkPulse State.waitsOn
  rw [decide_eq_false h2, if_neg (by simp), if_pos hp.symm]

/-- The count of channel `c` is one higher than `n`, or has overflowed. -/
def Counted (n c : Nat) (t : State) : Prop :=
  if n = 15 then t.bit (F.HK_STAT.REQOVF c) = true ∧ t.get (F.HK_STAT.REQCNT c) = 15 else t.get (F.HK_STAT.REQCNT c) = n + 1

theorem Counted.congr {n : Nat} (h : Counted n j s) (hc : t.get (F.HK_STAT.REQCNT j) = s.get (F.HK_STAT.REQCNT j))
    (ho : t.get (F.HK_STAT.REQOVF j) = s.get (F.HK_STAT.REQOVF j)) : Counted n j t := by
  unfold Counted
  rw [hc, State.bit_eq_of_get ho]
  exact h

theorem pacingPulse_counts {code mask : Nat} {rest : List (Nat × Nat)} (hm : s.islandUp .memory = true) (hb : s.blockFree 12 = true)
    (hq : s.hook.pulses = (code, mask) :: rest) (hbit : bitOf mask c = true) (hp : s.get (F.HK_CFG.PSRC c) = code) (h2 : s.hkSt c ≠ 2)
    (hused : ((s.getHk c).usedT.any s.thisMclk) = false) :
    GoesTo (exec (.pacingPulse none) s) fun t =>
      t.hook.pulses = rest ∧ (if s.get (F.HK_STAT.REQCNT c) = 15 then t.bit (F.HK_STAT.REQOVF c) = true ∧ t.get (F.HK_STAT.REQCNT c) = 15
        else t.get (F.HK_STAT.REQCNT c) = s.get (F.HK_STAT.REQCNT c) + 1) := by
  obtain ⟨v, hv⟩ : ∃ v, ({ s with hook := { s.hook with pulses := rest } } : State) = v := ⟨_, rfl⟩
  have hvs : pulseView v c = pulseView s c ∧ v.hook.pulses = rest ∧ v.blockFree 12 = true := by
    rw [← hv]
    exact ⟨rfl, rfl, hb⟩
  obtain ⟨hvv, hvp, hvb⟩ := hvs
  have he : execPacingPulse none s = .next (v.each (List.range 16) fun s k => if bitOf mask k then s.hkPulse k code else s) := by
    unfold execPacingPulse
    dsimp only
    rw [hm, if_pos rfl, hq]
    dsimp only
    rw [hv, hvb, if_pos rfl]
  refine ⟨v.each (List.range 16) fun s k => if bitOf mask k then s.hkPulse k code else s, he, ?_, ?_⟩
  · refine State.each_keeps (fun t => t.hook.pulses = rest) _ (fun t k h => ?_) _ v hvp
    split
    · exact State.hkPulse_keeps (j := k).1.trans h
    · exact h
  · refine State.each_once (a := c.val) (I := fun t => pulseView t c = pulseView s c) (P := Counted (s.get (F.HK_STAT.REQCNT c)) c)
      (fun t k hk h => ?_) (fun t h => ?_) (fun t k hk h => ?_) List.nodup_range
      (List.mem_range.2 c.isLt) hvv
    · split
      · exact (pulseView_ne hk).1.trans h
      · exact h
    · obtain ⟨h1, h3, h4, h5, h6⟩ : t.fclk = s.fclk ∧ t.getHk c = s.getHk c ∧ t.hkSt c = s.hkSt c ∧ t.get (F.HK_CFG.PSRC c) = s.get (F.HK_CFG.PSRC c)
          ∧ t.get (F.HK_STAT.REQCNT c) = s.get (F.HK_STAT.REQCNT c) := by simpa [pulseView] using h
      have hu : ((t.getHk c).usedT.any t.thisMclk) = false := by
        have hcl : t.thisMclk = s.thisMclk := by
          funext x
          unfold State.thisMclk State.clockNo
          rw [h1]
        rw [h3, hcl, hused]
      have := t.hkCount_counts hu
      rw [hbit, if_pos rfl, State.hkPulse_own (h5.trans hp) (h4 ▸ h2), ← h6]
      exact this
    · split
      · obtain ⟨h1, h3⟩ := pulseView_ne (s := t) (code := code) hk
        exact h.congr (congrArg (fun p => p.2.2.2.2) h1 :) h3
      · exact h

theorem pacingPulse_edge (hm : s.islandUp .memory = true) (hb : s.blockFree 12 = true) (hlc : levelCode (s.get (F.HK_CFG.PSRC c)) = true)
    (hpe : s.bit (F.HK_CFG.PEDGE c) = true) (hl : s.hkLevel c (s.get (F.HK_CFG.PSRC c)) = true) (h2 : s.hkSt c ≠ 2)
    (h15 : s.get (F.HK_STAT.REQCNT c) ≠ 15) (hlow : (s.getHk c).lvl = false) (hused : ((s.getHk c).usedT.any s.thisMclk) = false) :
    GoesTo (exec (.pacingPulse (some c)) s) fun t =>
      t.get (F.HK_STAT.REQCNT c) = s.get (F.HK_STAT.REQCNT c) + 1 ∧ SameRegs (fun a => a = R.HK_STAT c) s t := by
  obtain ⟨v, hv⟩ : ∃ v, s.hkLook c = v := ⟨_, rfl⟩
  have hvs : v.get (F.HK_CFG.PSRC c) = s.get (F.HK_CFG.PSRC c) ∧ v.hkSt c = s.hkSt c ∧ v.get (F.HK_STAT.REQCNT c) = s.get (F.HK_STAT.REQCNT c)
      ∧ v.regs = s.regs ∧ (v.getHk c).usedT = (s.getHk c).usedT ∧ v.thisMclk = s.thisMclk := by
    rw [← hv]
    unfold State.hkLook
    rw [State.getHk_updHk c.isLt, State.get_updHk, State.get_updHk, State.hkSt_updHk]
    exact ⟨rfl, rfl, rfl, rfl, rfl, rfl⟩
  obtain ⟨v1, v2, v3, v4, v5, v6⟩ := hvs
  have hpl : v.hkPulse c (s.get (F.HK_CFG.PSRC c)) = v.hkCount c := State.hkPulse_own v1 (v2 ▸ h2)
  have hc := v.hkCount_counts (by rw [v5, v6, hused])
  rw [v3, if_neg h15] at hc
  refine ⟨v.hkPulse c (s.get (F.HK_CFG.PSRC c)), congrArg Host.Outcome.next ((if_pos hm).trans ?_), hpl ▸ hc, fun a ha => ?_⟩
  · dsimp only
    rw [hb, hlc, hpe, hl, hlow, hv]
    rfl
  · refine ((State.hkPulse_chan (i := c)).reg a (Foot.holds_false_iff.2 ?_)).trans (congrArg (cellGet resetOf · a) v4)
    simp only [List.mem_singleton, forall_eq]
    omega

end Sys2Proof.Machine
end

section
/-! SUPPORT. HOOK: the status write (O27). -/

set_option Elab.async false

namespace Sys2Proof.Machine

variable {s t u : State} {c : Fin 16}

/-- Late bursts have nothing to send. -/
theorem State.sendBursts_late {l : List Burst} (h : (l.all fun b => b.late) = true) : s.sendBursts c l = (s, l) := by
  induction l with
  | nil => rfl
  | cons b l ih =>
    obtain ⟨hb, hl⟩ := Bool.and_eq_true_iff.1 (List.all_cons ▸ h)
    unfold State.sendBursts
    rw [if_pos hb, ih hl]

/-- One byte of a hall that HOOK owns. -/
theorem State.memWrite_byte {a : Nat} {b : Byte} (he : s.hallErr = []) (h : InHall a 1) (hp : s.bit (F.HAL_OWN.PWR (a / 524288)) = true)
    (ho : s.get (F.HAL_OWN.OWNER (a / 524288)) = 3) : s.memWrite (.hook c) a [b] = (s.setHallBytes a [b], .ok) :=
  State.memWrite_hall he h hp (Bool.or_eq_true_iff.2 (.inl (decide_eq_true ho))) (by simp; omega)

/-- The bytes of a status write: byte 2, and byte 3 unless KEEP. -/
def State.statusPut (s : State) (a : Nat) (b : Byte) (keep : Bool) : State :=
  if keep then s.setHallBytes a [b] else (s.setHallBytes a [b]).setHallBytes (a + 1) [0]

theorem State.statusPut_halls {a : Nat} {b : Byte} {keep : Bool} : Reach ⟨[.halls], []⟩ s (s.statusPut a b keep) :=
  .ite (State.setHallBytes_halls _) ((State.setHallBytes_halls _).trans (State.setHallBytes_halls _))

theorem State.hallByte_setByte {a : Nat} {b : Byte} : (s.setHallBytes a [b]).hallByte a = b := by
  have := s.hallByte_setBytes_at [b] a 0 Nat.one_pos
  simpa using this

theorem State.hallByte_setByte_ne {a x : Nat} {b : Byte} (h : x ≠ a) : (s.setHallBytes a [b]).hallByte x = s.hallByte x :=
  s.hallByte_setBytes [b] a x (by simp; omega)

theorem State.statusPut_shows {a : Nat} {b : Byte} {keep : Bool} :
    (s.statusPut a b keep).hallByte a = b ∧ (s.statusPut a b keep).hallByte (a + 1) = (if keep then s.hallByte (a + 1) else 0)
      ∧ ∀ x, x ≠ a → x ≠ a + 1 → (s.statusPut a b keep).hallByte x = s.hallByte x := by
  cases keep with
  | true => exact ⟨State.hallByte_setByte, State.hallByte_setByte_ne (by omega), fun x h _ => State.hallByte_setByte_ne h⟩
  | false =>
    exact ⟨(State.hallByte_setByte_ne (by omega)).trans State.hallByte_setByte, State.hallByte_setByte,
      fun x h h' => (State.hallByte_setByte_ne h').trans (State.hallByte_setByte_ne h)⟩

/-- What follows the bytes of the status: the PC, the interrupt, the bursts that are late from now on. -/
def State.statusDone (s : State) (c pc : Nat) (irq : Bool) : State :=
  (((s.hkPcSet c (pc + 16)).raiseIf irq (224 + c)).updHk c fun x =>
    { x with desc := none, begun := false, burst := x.burst.map fun b => { b with late := true, bad := b.bad || x.bad.isSome } }).hkSet c 1

theorem State.statusDone_shows {pc : Nat} {irq : Bool} (hp : pc % 16 = 0) (hh : pc + 16 < 2 ^ 32) :
    (s.statusDone c pc irq).hkSt c = 1 ∧ (s.statusDone c pc irq).hkPc c = pc + 16 ∧ ((s.statusDone c pc irq).getHk c).desc = none
      ∧ Reach hkFoot s (s.statusDone c pc irq) := by
  obtain ⟨v, hv⟩ : ∃ v, (s.hkPcSet c (pc + 16)).raiseIf irq (224 + c) = v := ⟨_, rfl⟩
  have hvp : v.hkPc c = pc + 16 := hv ▸ (State.raiseIf_chan c.isLt).2.1.trans (State.hkPc_hkPcSet (by omega) hh)
  have hvR : Reach hkFoot s v := hv ▸ (State.hkPcSet_reach c.isLt).then (State.raiseIf_reach (by omega))
  unfold State.statusDone
  rw [hv, State.hkPc_hkSet, State.hkPc_updHk, State.getHk_hkSet, State.getHk_updHk c.isLt]
  exact ⟨State.hkSt_hkSet, hvp, rfl, (hvR.then State.updHk_reach).trans (State.hkSet_reach c.isLt)⟩

theorem State.hkWriteback_puts (hl : ((s.getHk c).burst.all fun b => b.late) = true) (hp : s.hkPc c % 16 = 0) (hh : s.hkPc c + 16 ≤ 15 * 524288)
    (he : s.hallErr = []) (hw : s.bit (F.HAL_OWN.PWR (s.hkPc c / 524288)) = true) (ho : s.get (F.HAL_OWN.OWNER (s.hkPc c / 524288)) = 3)
    (h5 : s.hkWord c 0 % 16 ≠ 5) (hm : (s.getHk c).mism = false) :
    ∃ v irq, Reach ⟨[.hook], []⟩ s v ∧ v.regs = s.regs
      ∧ s.hkWriteback c = (v.statusPut (s.hkPc c + 2) (byteOf (statusByte (s.getHk c).bad (s.getHk c).mism)) (bitOf (s.hkWord c 0) 5)).statusDone c (s.hkPc c) irq := by
  obtain ⟨v, hv⟩ : ∃ v, s.updHk c (fun h => { h with burst := (s.getHk c).burst }) = v := ⟨_, rfl⟩
  have hvs : v.getHk c = s.getHk c ∧ v.hkPc c = s.hkPc c ∧ v.regs = s.regs ∧ v.hallErr = [] := by
    rw [← hv, State.getHk_updHk c.isLt, State.hkPc_updHk]
    exact ⟨rfl, rfl, rfl, he⟩
  have hvR : Reach ⟨[.hook], []⟩ s v := hv ▸ State.updHk_reach
  obtain ⟨v1, v2, v3, v4⟩ := hvs
  obtain ⟨b, hb⟩ : ∃ b, byteOf (statusByte (s.getHk c).bad (s.getHk c).mism) = b := ⟨_, rfl⟩
  obtain ⟨pc, hpc⟩ : ∃ pc, s.hkPc c = pc := ⟨_, rfl⟩
  rw [hpc] at hp hh hw ho v2 ⊢
  have hd2 : (pc + 2) / 524288 = pc / 524288 := by omega
  have hd3 : (pc + 3) / 524288 = pc / 524288 := by omega
  obtain ⟨r, hr⟩ : ∃ r, v.setHallBytes (pc + 2) [b] = r := ⟨_, rfl⟩
  have hrs : r.regs = s.regs ∧ r.hallErr = [] := hr ▸ ⟨(State.setHallBytes_regs _ _ _).trans v3, (State.setHallBytes_halls _).hallErr.trans v4⟩
  have h2 : v.memWrite (.hook c) (pc + 2) [b] = (r, .ok) := by
    rw [State.memWrite_byte v4 ⟨by omega, by omega⟩, hr]
    · rw [hd2, State.bit_eq_of_get (State.get_of_regs v3 _)]
      exact hw
    · rw [hd2, State.get_of_regs v3]
      exact ho
  have h3 : r.memWrite (.hook c) (pc + 3) [0] = (r.setHallBytes (pc + 3) [0], .ok) := by
    refine State.memWrite_byte hrs.2 ⟨by omega, by omega⟩ ?_ ?_
    · rw [hd3, State.bit_eq_of_get (State.get_of_regs hrs.1 _)]
      exact hw
    · rw [hd3, State.get_of_regs hrs.1]
      exact ho
  refine ⟨v, bitOf (s.hkWord c 0) 6, hvR, v3, ?_⟩
  have hword : ((s.getHk c).desc.getD []).getD 0 0 = s.hkWord c 0 := rfl
  unfold State.hkWriteback
  dsimp only
  rw [State.sendBursts_late hl]
  dsimp only
  rw [hv, v1, v2, hb, h2, if_neg (not_not.2 rfl), hword, hm, Bool.false_and, if_neg Bool.false_ne_true]
  cases hk : bitOf (s.hkWord c 0) 5 with
  | true =>
    rw [if_pos rfl, if_neg (not_not.2 rfl), if_neg h5, State.statusPut, if_pos rfl, hr]
    rfl
  | false =>
    rw [if_neg Bool.false_ne_true, h3, if_neg (not_not.2 rfl), if_neg h5, State.statusPut, if_neg Bool.false_ne_true, hr]
    rfl

theorem descriptorStatusWrite_stores (hu : s.hkUp = true) (hr : s.hkWbReady c = true) (hp : s.hkPc c % 16 = 0) (hh : s.hkPc c + 16 ≤ 15 * 524288)
    (he : s.hallErr = []) (hw : s.bit (F.HAL_OWN.PWR (s.hkPc c / 524288)) = true) (ho : s.get (F.HAL_OWN.OWNER (s.hkPc c / 524288)) = 3)
    (h5 : s.hkWord c 0 % 16 ≠ 5) (hm : (s.getHk c).mism = false) (hl : ((s.getHk c).burst.all fun b => b.late) = true) :
    GoesTo (exec (.descriptorStatusWrite c) s) fun t =>
      t.hallByte (s.hkPc c + 2) = byteOf (statusByte (s.getHk c).bad (s.getHk c).mism)
      ∧ t.hallByte (s.hkPc c + 3) = (if bitOf (s.hkWord c 0) 5 then s.hallByte (s.hkPc c + 3) else 0)
      ∧ (∀ a, a ≠ s.hkPc c + 2 → a ≠ s.hkPc c + 3 → t.hallByte a = s.hallByte a) ∧ t.hkSt c = 1 ∧ t.hkPc c = s.hkPc c + 16
      ∧ (t.getHk c).desc = none := by
  obtain ⟨v, irq, hv, -, heq⟩ := State.hkWriteback_puts hl hp hh he hw ho h5 hm
  obtain ⟨x, hx⟩ : ∃ x, v.statusPut (s.hkPc c + 2) (byteOf (statusByte (s.getHk c).bad (s.getHk c).mism)) (bitOf (s.hkWord c 0) 5) = x := ⟨_, rfl⟩
  obtain ⟨y1, y2, y3, hR⟩ := x.statusDone_shows (c := c) (pc := s.hkPc c) (irq := irq) hp (by omega)
  have hbyte (a : Nat) : v.hallByte a = s.hallByte a := by
    unfold State.hallByte
    rw [hv.halls]
  have hb (a : Nat) : (x.statusDone c (s.hkPc c) irq).hallByte a = x.hallByte a := by
    unfold State.hallByte
    rw [hR.halls]
  obtain ⟨x1, x2, x3⟩ := v.statusPut_shows (a := s.hkPc c + 2) (b := byteOf (statusByte (s.getHk c).bad (s.getHk c).mism)) (keep := bitOf (s.hkWord c 0) 5)
  rw [hx] at x1 x2 x3
  exact ⟨x.statusDone c (s.hkPc c) irq, congrArg Host.Outcome.next ((if_pos (by rw [hu, hr]; rfl)).trans (heq.trans (by rw [hx]))), (hb _).trans x1,
    (hb _).trans (x2.trans (by rw [hbyte])), fun a h2 h3 => (hb a).trans ((x3 a h2 h3).trans (hbyte a)), y1, y2, y3⟩

/-- Settles O27: each operation of a channel by what it leaves in its registers, behind them, and in the halls. -/
theorem hookChannelsRunDescriptors : Obligations.HookChannelsRunDescriptors := by
  unfold Obligations.HookChannelsRunDescriptors
  exact ⟨fun _ _ hu h0 => hookStart_fetches hu h0, fun _ _ hu h0 => hookStart_ignored hu h0, fun _ _ hu h0 hb => hookStop_stops hu h0 hb,
    fun _ _ hu h0 hb => hookStop_waits hu h0 hb, fun _ _ hu hp => hookClearRequests_clears hu hp, fun _ _ _ hu h0 => hookPcWrite_low hu h0,
    fun _ _ _ hu h0 => hookPcWrite_high hu h0, fun _ _ hu h1 hs hp hh he hw ho => descriptorFetch_ends hu h1 hs hp hh he hw ho,
    fun _ _ hu h1 hs hp hh he hw ho h6 => descriptorFetch_holds hu h1 hs hp hh he hw ho h6, fun _ _ ha hl ht hlt hn => hookLoop_jumps ha hl ht hlt hn,
    fun _ _ ha hl ht hn hc => hookLoop_leaves ha hl ht hn hc, fun _ _ ha h1 h32 h2 hp hn => hookWait_takes ha h1 h32 h2 hp hn,
    fun _ _ ha => hookSignal_goes ha, fun _ _ _ _ _ hm hb hq hbit hp h2 hused => pacingPulse_counts hm hb hq hbit hp h2 hused,
    fun _ _ hm hb hlc hpe hl h2 h15 hlow hused => pacingPulse_edge hm hb hlc hpe hl h2 h15 hlow hused,
    fun _ _ hu hr hp hh he hw ho h5 hm hl => descriptorStatusWrite_stores hu hr hp hh he hw ho h5 hm hl⟩

end Sys2Proof.Machine
end

section
/-! SUPPORT. What the statement on HOOK's bursts does not rule out: an abandoned burst whose first bytes still complete, and which write STOP
to the control register of their own channel (R326, R334; against O28). -/

set_option Elab.async false

namespace Sys2Proof.Machine

variable {s t u : State} {c : Nat}

/-- STOP of a channel without bursts leaves it STOPPED. -/
theorem State.hkHalt_stopped (hc : c < 16) (hb : (s.getHk c).burst = []) : (s.hkHalt c).hkSt c = 0 := by
  unfold State.hkHalt
  split
  · next h => exact h
  · rw [hb, if_pos (by rfl)]
    exact (State.hkStop_shows hc).1

/-- A write of STOP to HK_CTRL0 in memory space. -/
theorem State.memWrites_stop (hu : u.hkUp = true) :
    u.memWrites (.hook 0) 64 (regBase + 4 * R.HK_CTRL 0) [2, 0, 0, 0] = (u.hkHalt 0, .ok, regBase + 4 * R.HK_CTRL 0 + 4) := by
  obtain ⟨hm, hb⟩ := Bool.and_eq_true_iff.1 hu
  have hw : u.writeReg (.hook 0) (R.HK_CTRL 0) 2 = (u.hkHalt 0, false) :=
    (if_neg (by rw [show u.regUp (R.HK_CTRL 0) = true from hm]; decide)).trans
      ((if_neg (by rw [show u.regFree (R.HK_CTRL 0) = true from hb]; decide)).trans rfl)
  have h1 : u.memWrite (.hook 0) (regBase + 4 * R.HK_CTRL 0) [2, 0, 0, 0] = (u.hkHalt 0, .ok) := by
    unfold State.memWrite
    rw [if_neg (by decide), if_pos (by decide)]
    change ((u.writeReg (.hook 0) (R.HK_CTRL 0) 2).1, if (u.writeReg (.hook 0) (R.HK_CTRL 0) 2).2 then MemRes.refused else .ok) = _
    rw [hw]
    rfl
  unfold State.memWrites
  dsimp only
  rw [show ([2, 0, 0, 0] : List Byte).take (min (accSize (regBase + 4 * R.HK_CTRL 0) (([0, 0, 0] : List Byte).length + 1)) (([0, 0, 0] : List Byte).length + 1)) = [2, 0, 0, 0] by decide, h1]
  rfl

/-- A FILL with the pattern 2, which is STOP, of the four bytes of HK_CTRL0 in memory space, outstanding since FCLK 0. -/
def stopFill : Burst :=
  ⟨[1 + 2 ^ 9 + 2 ^ 10, 2, regBase + 4 * R.HK_CTRL 0, 4], false, 0, 4, 0, regBase + 4 * R.HK_CTRL 0, [], false, 0, 1, false⟩

/-- HOOK runs, and channel 0 has its one burst outstanding for longer than its time limit. -/
def stopFillLate : State :=
  ({ State.reset with
    regs := [(R.PCR_STAT, fldSet F.PCR_STAT.PLLA_LOCK 0 1), (R.HK_STAT 0, fldSet (F.HK_STAT.STATE 0) 0 4)]
    fclk := 400 * 256
    pcr := { Pcr.reset with held := none } } : State).updHk 0 fun h => { h with desc := some stopFill.words, begun := true, burst := [stopFill] }

/-- The record of a BAD descriptor reaches nothing behind the channels. -/
theorem State.hkErr_hook (hc : c < 16) {cause addr : Nat} : (s.hkErr c cause addr).hook = s.hook := by
  have hR : Reach ⟨[.regs, .marks, .por], hkFoot.regs⟩ s (s.hkErr c cause addr) := by
    unfold State.hkErr
    exact (((((((Reach.refl s).set).set).evtAdd).set).set).evtAdd (hkReg_holds hc (k := 12) (by decide))).then (State.raiseIf_reach (by omega))
  exact hR.hook

/-- Marking a descriptor BAD leaves the bursts of its channel. -/
theorem State.hkBad_burst (hc : c < 16) {cause addr : Nat} : ((s.hkBad c cause addr).getHk c).burst = (s.getHk c).burst := by
  unfold State.hkBad
  split
  · rfl
  · rw [State.getHk_hkSet, State.getHk_updHk hc, getHk_of_hook (State.hkErr_hook hc)]

theorem hkUp_of_reach (hR : Reach hkFoot s t) (hs : s.hkUp = true) : t.hkUp = true := by
  unfold State.hkUp State.blockFree at hs ⊢
  rw [hR.islandUp .memory rfl rfl, hR.get (f := F.PCR_BRSTAT)]
  exact hs

/-- A burst abandoned after some of its bytes. -/
theorem burstTimeout_part {c : Fin 16} {wr : Fin 65} {b : Burst} {l : List Burst} {v w : State} {d : List Byte} {r : MemRes × Nat}
    (hq : (s.getHk c).burst = b :: l)
    (ht : (s.hkUp && decide (b.t + 400 * max 1 (s.get F.HK_GCFG) ≤ s.fclk) && !(s.comes (fun x => x = .burstComplete c) && !s.burstWaits b)) = true)
    (ho : dOp b.words ≠ 2) (hw : wr.val ≠ 0) (hv : s.updHk c (fun h => { h with burst := l }) = v)
    (hu : (v.freeAddr.2).burstBad c b 4 v.freeAddr.1 = u) (hd : u.burstData c { b with late := true, bad := true } = (u, some d))
    (hs : u.sideWrite c (dDinc b.words) b.dst (d.take wr) = (w, r)) :
    exec (.burstTimeout c wr) s = .next ((w.reportSig ⟨69, c, b.dst, 3, 2⟩).hkDrained c) := by
  change execBurstTimeout c wr s = _
  unfold execBurstTimeout
  rw [hq]
  dsimp only
  rw [ht, if_pos rfl, hv, hu, hd, decide_eq_false ho, decide_eq_false hw]
  dsimp only
  rw [hs, if_neg ho, if_neg ho]
  rfl

/-- Draining leaves a STOPPED channel STOPPED. -/
theorem State.hkDrained_stopped (hc : c < 16) (h : s.hkSt c = 0) : (s.hkDrained c).hkSt c = 0 := by
  unfold State.hkDrained
  split
  · exact (State.hkStop_shows hc).1
  · exact h

/-- With its four bytes written, the burst has stopped the channel that it left BAD. -/
theorem stopFillLate_stops : ∃ t, exec (.burstTimeout 0 4) stopFillLate = .next t ∧ t.hkSt 0 = 0 := by
  obtain ⟨v, hv⟩ : ∃ v, stopFillLate.updHk 0 (fun h => { h with burst := [] }) = v := ⟨_, rfl⟩
  have hvs : (v.getHk 0).burst = [] ∧ (v.getHk 0).stopping = false ∧ v.hkUp = true := by
    rw [← hv, State.getHk_updHk (by decide)]
    exact ⟨rfl, by decide +kernel, by decide +kernel⟩
  obtain ⟨v1, v2, v3⟩ := hvs
  obtain ⟨u, hu⟩ : ∃ u, (v.freeAddr.2).hkBad 0 4 v.freeAddr.1 = u := ⟨_, rfl⟩
  have hus : (u.getHk 0).burst = [] ∧ u.hkUp = true := by
    rw [← hu, State.hkBad_burst (by decide)]
    exact ⟨v1, hkUp_of_reach (State.hkBadFree_reach (by decide)) v3⟩
  have hbad : (v.freeAddr.2).burstBad 0 stopFill 4 v.freeAddr.1 = u := by
    rw [← hu]
    exact (if_neg Bool.false_ne_true).trans (if_neg (by rw [show ((v.freeAddr.2).getHk 0).stopping = false from v2]; decide))
  have hfill : fillBytes 2 stopFill.dst 4 true = [2, 0, 0, 0] := by decide
  have hdata : u.burstData 0 { stopFill with late := true, bad := true } = (u, some [2, 0, 0, 0]) :=
    (if_neg Bool.false_ne_true).trans ((if_pos (by decide)).trans (congrArg (fun l => (u, some l)) hfill))
  have hside : u.sideWrite 0 (dDinc stopFill.words) stopFill.dst ([2, 0, 0, 0] : List Byte) = (u.hkHalt 0, .ok, stopFill.dst + 4) :=
    (if_pos (by decide)).trans (State.memWrites_stop hus.2)
  have he := burstTimeout_part (s := stopFillLate) (c := 0) (wr := 4) (by decide +kernel) (by decide +kernel) (by decide) (by decide) hv hbad hdata hside
  exact ⟨_, he, State.hkDrained_stopped (by decide)
    ((State.reportSig_reach.get (f := F.HK_STAT.STATE 0)).trans (State.hkHalt_stopped (by decide) hus.1))⟩

/-- Refutes O28: in `stopFillLate` the channel is STOPPED after its burst is abandoned, and does not go on to its status write. -/
theorem not_hookDataMovesInBursts : ¬ Obligations.HookDataMovesInBursts := by
  unfold Obligations.HookDataMovesInBursts
  rintro ⟨-, -, -, -, -, -, h, -⟩
  obtain ⟨t, ht, -, -, hst, -⟩ := h stopFillLate 0 4 stopFill [] (by decide +kernel) (by decide +kernel) (by decide +kernel) (by decide) (by decide +kernel)
    (by decide +kernel) (by decide +kernel)
  obtain ⟨t', ht', h0⟩ := stopFillLate_stops
  obtain rfl : t = t' := Host.Outcome.next.inj (ht.symm.trans ht')
  exact absurd (hst.symm.trans h0) (by decide)

end Sys2Proof.Machine
end

section
/-! SUPPORT. Trust: the checks of a command and what it leaves (O34). -/

set_option Elab.async false

namespace Sys2Proof.Machine

variable {s t u : State} {n k : Nat} {b : List Byte}

/-! ### What the checks depend on -/

/-- What the checks of a command read: registers but for what BUSY, DONE, FAIL and CAUSE show, keys, the challenge, NVS. -/
structure TrustSame (s u : State) : Prop where
  regs : ∀ f : Fld, f.addr ≠ R.TRU_STAT → u.get f = s.get f
  life : u.get F.TRU_STAT.LIFE = s.get F.TRU_STAT.LIFE
  idok : u.get F.TRU_STAT.IDOK = s.get F.TRU_STAT.IDOK
  root : u.tru.root = s.tru.root
  rec_ : u.tru.rec_ = s.tru.rec_
  chalOk : u.tru.chalOk = s.tru.chalOk
  nvs : u.nvs = s.nvs
  nvsErr : u.nvsErr = s.nvsErr

variable (h : TrustSame s u)

section
include h

theorem TrustSame.truBuf : u.truBuf = s.truBuf := by
  unfold State.truBuf
  exact congrArg (List.flatMap · (List.range 112)) (funext fun k => congrArg (leBytes 2) (h.regs (F.TRU_BUF k) (by simp only [F.TRU_BUF, R.TRU_BUF, R.TRU_STAT]; omega)))

theorem TrustSame.identDig : u.identDig = s.identDig := by
  have hp : u.identPub = s.identPub :=
    congrArg (List.flatMap · (List.range 32)) (funext fun k => congrArg (leBytes 2) (h.regs (F.TRU_IDPUB k) (by simp only [F.TRU_IDPUB, R.TRU_IDPUB, R.TRU_STAT]; omega)))
  unfold State.identDig
  rw [State.bit_eq_of_get h.idok, hp]

theorem TrustSame.nvErr {w k : Nat} : u.nvErr w k = s.nvErr w k := by
  induction k generalizing w with
  | zero => rfl
  | succ k ih =>
    unfold State.nvErr
    rw [h.nvsErr, ih]

theorem TrustSame.nvBytes {a k : Nat} : u.nvBytes a k = s.nvBytes a k := by
  unfold State.nvBytes State.nvByte
  rw [h.nvs]

theorem TrustSame.identKey : u.identKey = s.identKey := by
  have ha : u.identAt = s.identAt := by
    unfold State.identAt
    simp only [h.nvErr, h.nvBytes]
  unfold State.identKey
  rw [State.bit_eq_of_get h.idok, h.root, ha]
  simp only [h.nvBytes]

theorem TrustSame.truFirst : u.truFirst n b = s.truFirst n b := by
  unfold State.truFirst State.life
  rw [h.life, State.bit_eq_of_get h.idok, h.identDig]

theorem TrustSame.truSig : u.truSig b = s.truSig b := by
  have hc : (List.range 8).flatMap (fun k => leBytes 2 (u.get (F.TRU_CHAL k))) = (List.range 8).flatMap fun k => leBytes 2 (s.get (F.TRU_CHAL k)) :=
    congrArg (List.flatMap · (List.range 8)) (funext fun k => congrArg (leBytes 2) (h.regs (F.TRU_CHAL k) (by simp only [F.TRU_CHAL, R.TRU_CHAL, R.TRU_STAT]; omega)))
  unfold State.truSig
  dsimp only
  rw [hc, h.chalOk, h.rec_]

theorem TrustSame.truOwn : u.truOwn n b = s.truOwn n b := by
  unfold State.truOwn
  dsimp only
  rw [h.rec_, h.identKey, State.bit_eq_of_get (h.regs F.WVL_STAT.ENC (by decide))]

theorem TrustSame.truNew : u.truNew n b = s.truNew n b := by
  unfold State.truNew
  dsimp only
  rw [h.rec_]

end

/-! ### The start of a command -/

/-- A command that has been started and not checked. -/
def State.truBegun (s : State) (n : Nat) : State := (s.set F.TRU_STAT.BUSY 1).updTru fun t => { t with cmd := some ⟨n, false, false, none⟩ }

theorem State.truBegun_same : TrustSame s (s.truBegun n) where
  regs f hf := State.get_set_addr s F.TRU_STAT.BUSY f hf 1
  life := State.get_set_disj s F.TRU_STAT.BUSY F.TRU_STAT.LIFE rfl (by decide) (by decide) 1
  idok := State.get_set_disj s F.TRU_STAT.BUSY F.TRU_STAT.IDOK rfl (by decide) (by decide) 1
  root := rfl
  rec_ := rfl
  chalOk := rfl
  nvs := rfl
  nvsErr := rfl

/-- The outcome of the checks noted at the command. -/
def State.truPut (s : State) (n : Nat) (chal : Bool) (r : Option Nat) : State := s.updTru fun t => { t with cmd := some ⟨n, true, chal, r⟩ }

theorem State.truTry_eq (hc : u.tru.cmd = some ⟨n, false, false, none⟩) (hv : u.wvl.verify = none) (hj : u.tru.job = none) :
    u.truTry =
      let c1 := u.truFirst n u.truBuf
      let chal := c1 = 0 && truSigned n
      let c2 := if c1 ≠ 0 then c1 else if truSigned n then u.truSig u.truBuf else 0
      let c3 := if c2 ≠ 0 then c2 else u.truOwn n u.truBuf
      if c3 ≠ 0 then u.truPut n chal (some c3)
      else
        match u.truNew n u.truBuf with
        | some r => (u.truPut n chal none).truAsk r true (if n = 5 then retirePages else [])
        | none => u.truPut n chal (some 0) := by
  unfold State.truTry
  rw [hc]
  dsimp only
  rw [hv, hj, if_neg (by decide)]
  rfl

/-- A command starts while none is under way. -/
theorem State.truStart_eq (hm : s.islandUp .memory = true) (hc : s.tru.cmd = none) : s.truStart n = (s.truBegun n).truTry := by
  unfold State.truStart
  rw [hm, hc]
  rfl

/-- What a command leaves behind that has started with outcome `r`. -/
structure Begun (s t : State) (n : Nat) (chal : Bool) (r : Option Nat) : Prop where
  busy : t.bit F.TRU_STAT.BUSY = true
  cmd : t.tru.cmd = some ⟨n, true, chal, r⟩
  regs : SameRegs (fun a => a = R.TRU_STAT) s t

theorem State.truPut_begun {chal : Bool} {r : Option Nat} :
    Begun s ((s.truBegun n).truPut n chal r) n chal r ∧ ((s.truBegun n).truPut n chal r).tru.job = s.tru.job
      ∧ ((s.truBegun n).truPut n chal r).hal = s.hal :=
  ⟨⟨State.bit_of_get_one (s.get_set_self F.TRU_STAT.BUSY (by decide) 1), rfl, fun _ ha => State.reg_setReg_ne s ha _⟩, rfl, rfl⟩

/-- A command whose first checks fail. -/
theorem truStart_fails (hm : s.islandUp .memory = true) (hc : s.tru.cmd = none) (hv : s.wvl.verify = none) (hj : s.tru.job = none)
    (hf : s.truFirst n s.truBuf = k) (hk : k ≠ 0) :
    Begun s (s.truStart n) n false (some k) ∧ (s.truStart n).tru.job = none ∧ (s.truStart n).hal = s.hal := by
  have hs := s.truBegun_same (n := n)
  have he : s.truStart n = (s.truBegun n).truPut n false (some k) := by
    rw [State.truStart_eq hm hc, State.truTry_eq (u := s.truBegun n) rfl hv hj]
    dsimp only
    rw [hs.truBuf, hs.truFirst, hf, if_pos hk, if_pos hk, if_pos hk, decide_eq_false hk, Bool.false_and]
  obtain ⟨h1, h2, h3⟩ := s.truPut_begun (n := n) (chal := false) (r := some k)
  rw [he]
  exact ⟨h1, h2.trans hj, h3⟩

/-- A command whose checks pass up to its own. -/
theorem truStart_checked (hm : s.islandUp .memory = true) (hc : s.tru.cmd = none) (hv : s.wvl.verify = none) (hj : s.tru.job = none)
    (hf : s.truFirst n s.truBuf = 0) (hg : truSigned n = true → s.truSig s.truBuf = 0) :
    s.truStart n = if s.truOwn n s.truBuf ≠ 0 then (s.truBegun n).truPut n (truSigned n) (some (s.truOwn n s.truBuf))
      else
        match s.truNew n s.truBuf with
        | some r => ((s.truBegun n).truPut n (truSigned n) none).truAsk r true (if n = 5 then retirePages else [])
        | none => (s.truBegun n).truPut n (truSigned n) (some 0) := by
  have hs := s.truBegun_same (n := n)
  have hz : (if truSigned n = true then s.truSig s.truBuf else 0) = 0 := by
    split
    · next h => exact hg h
    · rfl
  rw [State.truStart_eq hm hc, State.truTry_eq (u := s.truBegun n) rfl hv hj]
  dsimp only
  rw [hs.truBuf, hs.truFirst, hf, if_neg (not_not.2 rfl), hs.truSig, hz, if_neg (not_not.2 rfl), hs.truOwn, hs.truNew, decide_eq_true rfl, Bool.true_and]

/-- An update that a command asks for keeps the rest of it. -/
theorem Begun.truAsk {chal : Bool} {l : List (Nat × List Byte)} {r : TrustRec} (h : Begun s t n chal none) :
    Begun s (t.truAsk r true l) n chal none ∧ (t.truAsk r true l).tru.job = some (.record { r with gen := t.tru.rec_.gen + 1 } true) :=
  ⟨⟨h.busy, h.cmd, h.regs⟩, rfl⟩

/-- A command that changes the record, its checks passed. -/
theorem truStart_asks {r : TrustRec} (hm : s.islandUp .memory = true) (hc : s.tru.cmd = none) (hv : s.wvl.verify = none) (hj : s.tru.job = none)
    (hf : s.truFirst n s.truBuf = 0) (hg : truSigned n = true → s.truSig s.truBuf = 0) (ho : s.truOwn n s.truBuf = 0)
    (hr : s.truNew n s.truBuf = some r) :
    Begun s (s.truStart n) n (truSigned n) none ∧ (s.truStart n).tru.job = some (.record { r with gen := s.tru.rec_.gen + 1 } true) := by
  rw [truStart_checked hm hc hv hj hf hg, if_neg (not_not.2 ho), hr]
  exact (s.truPut_begun (n := n) (chal := truSigned n) (r := none)).1.truAsk

/-- A command that changes no record, its checks passed or its own failed. -/
theorem truStart_stands (hm : s.islandUp .memory = true) (hc : s.tru.cmd = none) (hv : s.wvl.verify = none) (hj : s.tru.job = none)
    (hf : s.truFirst n s.truBuf = 0) (hg : truSigned n = true → s.truSig s.truBuf = 0) (hr : s.truNew n s.truBuf = none) :
    Begun s (s.truStart n) n (truSigned n) (some (s.truOwn n s.truBuf)) ∧ (s.truStart n).tru.job = none ∧ (s.truStart n).hal = s.hal := by
  have he : s.truStart n = (s.truBegun n).truPut n (truSigned n) (some (s.truOwn n s.truBuf)) := by
    rw [truStart_checked hm hc hv hj hf hg, hr]
    by_cases h0 : s.truOwn n s.truBuf = 0
    · rw [if_neg (not_not.2 h0), h0]
    · rw [if_pos h0]
  obtain ⟨h1, h2, h3⟩ := s.truPut_begun (n := n) (chal := truSigned n) (r := some (s.truOwn n s.truBuf))
  rw [he]
  exact ⟨h1, h2.trans hj, h3⟩

end Sys2Proof.Machine
end

section
/-! SUPPORT. Trust: the end of a command, the challenge, the debug session, tamper (O34). -/

set_option Elab.async false

namespace Sys2Proof.Machine

variable {s t u : State} {n k : Nat}

/-! ### Commands that start -/

/-- The commands of Table 18.2, and the unknown ones. -/
theorem exec_trust {c : Instr} (h : (n, c) ∈ ([(0, .trustUnknownCommand), (1, .trustClaim), (2, .trustAddkey), (3, .trustRevoke), (4, .trustLock), (5, .trustRetire), (6, .trustSetfloor), (7, .trustDebug), (8, .trustAttest)] : List (Nat × Instr))) :
    exec c s = .next (s.truStart n) := by
  simp only [List.mem_cons, List.not_mem_nil, or_false, Prod.mk.injEq] at h
  obtain ⟨rfl, rfl⟩ | ⟨rfl, rfl⟩ | ⟨rfl, rfl⟩ | ⟨rfl, rfl⟩ | ⟨rfl, rfl⟩ | ⟨rfl, rfl⟩ | ⟨rfl, rfl⟩ | ⟨rfl, rfl⟩ | ⟨rfl, rfl⟩ := h
  all_goals rfl

theorem trustClaim_asks (hm : s.islandUp .memory = true) (hc : s.tru.cmd = none) (hv : s.wvl.verify = none) (hj : s.tru.job = none)
    (hf : s.truFirst 1 s.truBuf = 0) (ho : s.truOwn 1 s.truBuf = 0) :
    GoesTo (exec .trustClaim s) fun t =>
      t.bit F.TRU_STAT.BUSY = true ∧ t.tru.cmd = some ⟨1, true, false, none⟩ ∧ SameRegs (fun a => a = R.TRU_STAT) s t
      ∧ ∃ r, s.truNew 1 s.truBuf = some r ∧ t.tru.job = some (.record { r with gen := s.tru.rec_.gen + 1 } true) := by
  obtain ⟨r, hr⟩ : ∃ r, s.truNew 1 s.truBuf = some r := ⟨_, rfl⟩
  obtain ⟨⟨h1, h2, h3⟩, h4⟩ := truStart_asks hm hc hv hj hf (fun h => by cases h) ho hr
  exact ⟨s.truStart 1, rfl, h1, h2, h3, r, hr, h4⟩

/-- The signed commands. -/
theorem signed_of_mem {c : Instr} (h : (n, c) ∈ ([(2, .trustAddkey), (3, .trustRevoke), (4, .trustLock), (5, .trustRetire), (6, .trustSetfloor), (7, .trustDebug)] : List (Nat × Instr))) :
    exec c s = .next (s.truStart n) ∧ truSigned n = true ∧ (n ≠ 7 → ∀ b, ∃ r, s.truNew n b = some r) ∧ (n = 7 → ∀ b, s.truNew n b = none) := by
  simp only [List.mem_cons, List.not_mem_nil, or_false, Prod.mk.injEq] at h
  obtain ⟨rfl, rfl⟩ | ⟨rfl, rfl⟩ | ⟨rfl, rfl⟩ | ⟨rfl, rfl⟩ | ⟨rfl, rfl⟩ | ⟨rfl, rfl⟩ := h
  case inr.inr.inr.inr.inr => exact ⟨rfl, rfl, fun h => absurd rfl h, fun _ _ => rfl⟩
  all_goals exact ⟨rfl, rfl, fun _ _ => ⟨_, rfl⟩, fun h => absurd h (by decide)⟩

theorem trustSigned_passes {c : Instr} (hm : s.islandUp .memory = true) (hc : s.tru.cmd = none) (hv : s.wvl.verify = none) (hj : s.tru.job = none)
    (h : (n, c) ∈ ([(2, .trustAddkey), (3, .trustRevoke), (4, .trustLock), (5, .trustRetire), (6, .trustSetfloor), (7, .trustDebug)] : List (Nat × Instr)))
    (hf : s.truFirst n s.truBuf = 0) (hg : s.truSig s.truBuf = 0) (ho : s.truOwn n s.truBuf = 0) :
    GoesTo (exec c s) fun t =>
      t.bit F.TRU_STAT.BUSY = true ∧ t.tru.cmd = some ⟨n, true, true, if n = 7 then some 0 else none⟩ ∧ SameRegs (fun a => a = R.TRU_STAT) s t
      ∧ (∀ r, s.truNew n s.truBuf = some r → t.tru.job = some (.record { r with gen := s.tru.rec_.gen + 1 } true)) ∧ (n = 7 → t.tru.job = none) := by
  obtain ⟨he, hs, hnew, hdbg⟩ := signed_of_mem (s := s) h
  by_cases h7 : n = 7
  · have hr := hdbg h7 s.truBuf
    obtain ⟨⟨h1, h2, h3⟩, h4, -⟩ := truStart_stands hm hc hv hj hf (fun _ => hg) hr
    refine ⟨s.truStart n, he, h1, ?_, h3, fun r hr' => ?_, fun _ => h4⟩
    · rw [h2, hs, ho, if_pos h7]
    · rw [hr] at hr'
      cases hr'
  · obtain ⟨r, hr⟩ := hnew h7 s.truBuf
    obtain ⟨⟨h1, h2, h3⟩, h4⟩ := truStart_asks hm hc hv hj hf (fun _ => hg) ho hr
    refine ⟨s.truStart n, he, h1, ?_, h3, fun r' hr' => ?_, fun h => absurd h h7⟩
    · rw [h2, hs, if_neg h7]
    · rw [hr] at hr'
      exact h4.trans (by rw [Option.some.inj hr'])

theorem trust_fails {c : Instr} (hm : s.islandUp .memory = true) (hc : s.tru.cmd = none) (hv : s.wvl.verify = none) (hj : s.tru.job = none)
    (he : exec c s = .next (s.truStart n)) (hf : s.truFirst n s.truBuf = k) (hk : k ≠ 0) :
    GoesTo (exec c s) fun t =>
      t.bit F.TRU_STAT.BUSY = true ∧ t.tru.cmd = some ⟨n, true, false, some k⟩ ∧ t.tru.job = none ∧ t.hal = s.hal
      ∧ SameRegs (fun a => a = R.TRU_STAT) s t := by
  obtain ⟨⟨h1, h2, h3⟩, h4, h5⟩ := truStart_fails hm hc hv hj hf hk
  exact ⟨s.truStart n, he, h1, h2, h4, h5, h3⟩

theorem trustAttest_stands (hm : s.islandUp .memory = true) (hc : s.tru.cmd = none) (hv : s.wvl.verify = none) (hj : s.tru.job = none)
    (hf : s.truFirst 8 s.truBuf = 0) :
    GoesTo (exec .trustAttest s) fun t =>
      t.bit F.TRU_STAT.BUSY = true ∧ t.tru.cmd = some ⟨8, true, false, some (if s.identKey.isNone then 11 else 0)⟩ ∧ t.hal = s.hal
      ∧ SameRegs (fun a => a = R.TRU_STAT) s t := by
  obtain ⟨⟨h1, h2, h3⟩, -, h5⟩ := truStart_stands (n := 8) hm hc hv hj hf (fun h => by cases h) rfl
  exact ⟨s.truStart 8, rfl, h1, h2, h5, h3⟩

theorem trust_busy {c : Instr} (hm : s.islandUp .memory = true) (hc : s.tru.cmd.isSome = true) (he : exec c s = .next (s.truStart n)) :
    GoesTo (exec c s) fun t => t.bit F.TRU_STAT.FAIL = true ∧ t.get F.TRU_STAT.CAUSE = 12 ∧ t.tru = s.tru ∧ t.hal = s.hal := by
  obtain ⟨v, hv⟩ : ∃ v, s.evt F.TRU_STAT.FAIL = v := ⟨_, rfl⟩
  have hvf : v.get F.TRU_STAT.FAIL = 1 := hv ▸ s.get_evt _ (by decide) (by decide)
  have hvR : Reach ⟨[.regs, .marks], [(R.TRU_STAT, R.TRU_STAT + 1)]⟩ s v := hv ▸ (Reach.refl s).evt
  obtain ⟨w, hw⟩ : ∃ w, v.set F.TRU_STAT.CAUSE 12 = w := ⟨_, rfl⟩
  have hwf : w.get F.TRU_STAT.FAIL = 1 := hw ▸ (v.get_set_disj F.TRU_STAT.CAUSE F.TRU_STAT.FAIL rfl (by decide) (by decide) 12).trans hvf
  have hwc : w.get F.TRU_STAT.CAUSE = 12 := hw ▸ v.get_set_self F.TRU_STAT.CAUSE (by decide) 12
  have hwR : Reach ⟨[.regs, .marks], [(R.TRU_STAT, R.TRU_STAT + 1)]⟩ s w := hw ▸ hvR.set
  have hR : Reach raiseFoot w (w.raise 313) := State.raise_reach (by decide)
  have hs : s.truStart n = w.raise 313 := by
    unfold State.truStart
    rw [hm, hc, hv, hw]
    rfl
  exact ⟨w.raise 313, he.trans (congrArg Host.Outcome.next hs), hR.bit.trans (State.bit_of_get_one hwf), hR.get.trans hwc, hR.tru.trans hwR.tru,
    hR.hal.trans hwR.hal⟩

/-! ### The challenge -/

theorem leAt_two_lt {b : List Byte} {i : Nat} : leAt b i 2 < 2 ^ 16 := by
  have h := leAt_lt b i 2
  exact h

/-- What a challenge in force reaches. -/
abbrev chalFoot : Foot := ⟨[.regs, .tru, .freeCtr], [(R.TRU_CHAL 0, R.TRU_CHAL 8)]⟩

/-- A challenge in force stands in its registers. -/
theorem State.chalSet_shows {b : List Byte} :
    (s.chalSet b).tru.chalOk = true ∧ (s.chalSet b).tru.chalT = 0 ∧ (∀ k : Fin 8, (s.chalSet b).get (F.TRU_CHAL k) = leAt b (2 * k) 2)
      ∧ Reach chalFoot s (s.chalSet b) ∧ (s.chalSet b).tru.cmd = s.tru.cmd := by
  obtain ⟨v, hv⟩ : ∃ v, (s.each (List.range 8) fun s k => s.set (F.TRU_CHAL k) (leAt b (2 * k) 2)) = v := ⟨_, rfl⟩
  have hg (k : Fin 8) : v.get (F.TRU_CHAL k) = leAt b (2 * k) 2 := by
    rw [← hv, State.get_each_setTo s (f := F.TRU_CHAL) (fun k => leAt b (2 * k) 2) (fun _ => by simp only [F.TRU_CHAL]; omega)
      (fun i j h => by simp only [F.TRU_CHAL, R.TRU_CHAL]; omega) k.isLt]
    exact Nat.mod_eq_of_lt leAt_two_lt
  have hR : Reach chalFoot s v := by
    rw [← hv]
    refine (Reach.refl s).each fun s i hi => (Reach.refl s).set (Foot.holds_range (R.TRU_CHAL 0) (R.TRU_CHAL 8) ?_)
    have hi := List.mem_range.1 hi
    simp only [F.TRU_CHAL, R.TRU_CHAL]
    omega
  have ht : v.tru = s.tru := by
    rw [← hv]
    exact State.each_keeps (fun t => t.tru = s.tru) (fun s k => s.set (F.TRU_CHAL k) (leAt b (2 * k) 2)) (fun _ _ h => h) _ s rfl
  have he : s.chalSet b = v.updTru fun t => { t with chalOk := true, chalNext := none, chalT := 0 } := by
    unfold State.chalSet
    rw [hv]
  rw [he]
  exact ⟨rfl, rfl, hg, hR.then State.updTru_reach, (congrArg Tru.cmd ht :)⟩

/-- A challenge that is drawn while no command is under way. -/
theorem State.chalDraw_shows (hc : s.tru.cmd = none) :
    s.chalDraw.tru.chalOk = true ∧ s.chalDraw.tru.chalT = 0 ∧ (∀ k : Fin 8, s.chalDraw.get (F.TRU_CHAL k) = leAt (s.freeBytes 16).1 (2 * k) 2)
      ∧ Reach chalFoot s s.chalDraw ∧ s.chalDraw.tru.cmd = none := by
  obtain ⟨h1, h2, h3, h4, h5⟩ := (s.freeBytes 16).2.chalSet_shows (b := (s.freeBytes 16).1)
  have he : s.chalDraw = (s.freeBytes 16).2.chalSet (s.freeBytes 16).1 := if_neg (by rw [hc]; decide)
  rw [he]
  exact ⟨h1, h2, h3, ((Reach.refl s).then State.freeBytes_reach).trans h4, h5.trans hc⟩

theorem challengeExpire_draws (hm : s.islandUp .memory = true) (ht : 24000 ≤ s.tru.chalT) (hc : s.tru.cmd = none) :
    GoesTo (exec .challengeExpire s) fun t =>
      t.tru.chalOk = true ∧ t.tru.chalT = 0 ∧ ∀ k : Fin 8, t.get (F.TRU_CHAL k) = leAt (s.freeBytes 16).1 (2 * k) 2 := by
  obtain ⟨h1, h2, h3, -⟩ := State.chalDraw_shows hc
  exact ⟨s.chalDraw, congrArg Host.Outcome.next (if_pos (by rw [hm, decide_eq_true ht]; rfl)), h1, h2, h3⟩

theorem challengeExpire_waits (hm : s.islandUp .memory = true) (ht : 24000 ≤ s.tru.chalT) (hc : s.tru.cmd.isSome = true) :
    GoesTo (exec .challengeExpire s) fun t => t.tru.chalNext = some (s.freeBytes 16).1 ∧ t.tru.cmd = s.tru.cmd ∧ t.regs = s.regs :=
  ⟨(s.freeBytes 16).2.updTru fun t => { t with chalNext := some (s.freeBytes 16).1, chalT := 0 },
    congrArg Host.Outcome.next ((if_pos (by rw [hm, decide_eq_true ht]; rfl)).trans (if_pos hc)), rfl, rfl, rfl⟩

/-! ### The end of a command -/

/-- A command taken off, with the flag at bit `lo` of TRU_STAT, its cause and its interrupt. -/
def State.truEnded (s : State) (lo cause k : Nat) : State :=
  ((((s.set F.TRU_STAT.BUSY 0).updTru fun t => { t with cmd := none }).evt ⟨R.TRU_STAT, lo, 1⟩).set F.TRU_STAT.CAUSE cause).raise k

theorem State.truEnded_shows {lo cause : Nat} (hm : s.islandUp .memory = true) (hlo : lo = 3 ∨ lo = 4) (hca : cause < 16) (hk : k < 320) :
    (s.truEnded lo cause k).bit F.TRU_STAT.BUSY = false ∧ (s.truEnded lo cause k).get ⟨R.TRU_STAT, lo, 1⟩ = 1
      ∧ (s.truEnded lo cause k).get F.TRU_STAT.CAUSE = cause ∧ (s.truEnded lo cause k).tru = { s.tru with cmd := none }
      ∧ (s.por.lost.contains (.irq k) = false → (s.truEnded lo cause k).get (F.IRT_SRC.COUNT k) = min 15 (s.get (F.IRT_SRC.COUNT k) + 1))
      ∧ (s.truEnded lo cause k).get F.TRU_STAT.DEBUG = s.get F.TRU_STAT.DEBUG
      ∧ Reach ⟨[.regs, .marks, .por, .tru], (R.TRU_STAT, R.TRU_STAT + 1) :: raiseFoot.regs⟩ s (s.truEnded lo cause k) := by
  obtain ⟨u, hu⟩ : ∃ u, (s.set F.TRU_STAT.BUSY 0).updTru (fun t => { t with cmd := none }) = u := ⟨_, rfl⟩
  have hus : u.get F.TRU_STAT.BUSY = 0 ∧ u.tru = { s.tru with cmd := none } ∧ u.get F.TRU_STAT.DEBUG = s.get F.TRU_STAT.DEBUG := by
    rw [← hu]
    exact ⟨s.get_set_self F.TRU_STAT.BUSY (by decide) 0, rfl, s.get_set_disj F.TRU_STAT.BUSY F.TRU_STAT.DEBUG rfl (by decide) (by decide) 0⟩
  have huR : Reach ⟨[.regs, .marks, .tru], [(R.TRU_STAT, R.TRU_STAT + 1)]⟩ s u := hu ▸ (Reach.refl s).set.then State.updTru_reach
  obtain ⟨u1, u2, u3⟩ := hus
  obtain ⟨v, hv⟩ : ∃ v, u.evt ⟨R.TRU_STAT, lo, 1⟩ = v := ⟨_, rfl⟩
  have hvR : Reach ⟨[.regs, .marks], [(R.TRU_STAT, R.TRU_STAT + 1)]⟩ u v := hv ▸ (Reach.refl u).evt (Foot.holds_range R.TRU_STAT (R.TRU_STAT + 1) ⟨Nat.le_refl _, Nat.lt_succ_self _⟩)
  have hvg (f : Fld) (hf : f.lo + f.len ≤ lo ∨ lo + 1 ≤ f.lo) : v.get f = u.get f := by
    rw [← hv]
    exact (State.get_set_apart _ ⟨R.TRU_STAT, lo, 1⟩ f (by dsimp only; omega) (fun _ => hf.symm) 1).trans (State.get_of_regs (State.mark_regs _ _ _) _)
  have hv1 : v.get ⟨R.TRU_STAT, lo, 1⟩ = 1 := hv ▸ u.get_evt _ (by dsimp only; omega) (by dsimp only; omega)
  obtain ⟨w, hw⟩ : ∃ w, v.set F.TRU_STAT.CAUSE cause = w := ⟨_, rfl⟩
  have hwR : Reach ⟨[.regs], [(R.TRU_STAT, R.TRU_STAT + 1)]⟩ v w := hw ▸ (Reach.refl v).set
  have hwg (f : Fld) (hf : f.lo + f.len ≤ 5 ∨ 9 ≤ f.lo) : w.get f = v.get f := hw ▸ v.get_set_apart F.TRU_STAT.CAUSE f (by decide) (fun _ => hf.symm) cause
  have hwc : w.get F.TRU_STAT.CAUSE = cause := hw ▸ (v.get_set_self F.TRU_STAT.CAUSE (by decide) cause).trans (Nat.mod_eq_of_lt hca)
  have hsw : Reach ⟨[.regs, .marks, .tru], [(R.TRU_STAT, R.TRU_STAT + 1)]⟩ s w := (huR.then hvR).then hwR
  have hR : Reach raiseFoot w (w.raise k) := State.raise_reach hk
  have he : s.truEnded lo cause k = w.raise k := by
    unfold State.truEnded
    rw [hu, hv, hw]
  have hraise (f : Fld) (hf : f.addr = R.TRU_STAT) : raiseFoot.holds f.addr = false := by
    rw [hf]
    decide
  rw [he]
  refine ⟨hR.bit.trans (State.bit_of_get_zero ((hwg _ (by decide)).trans ((hvg _ ?_).trans u1))), (hR.get (hraise _ rfl)).trans ((hwg _ (.inl ?_)).trans hv1),
    hR.get.trans hwc, hR.tru.trans (hwR.tru.trans (hvR.tru.trans u2)), fun hl => ?_, hR.get.trans ((hwg _ (by decide)).trans ((hvg _ ?_).trans u3)),
    (hsw.mono (by decide)).then hR⟩
  · exact .inl (show 3 ≤ lo by omega)
  · dsimp only
    omega
  · have hp : w.por = s.por := hsw.por
    rw [State.count_raise w k hk ((hsw.islandUp .memory).trans hm) (by rw [hp]; simpa using hl),
      hsw.get (Foot.holds_false_iff.2 (by simp [F.IRT_SRC.COUNT, R.IRT_SRC, R.TRU_STAT]; omega))]
  · exact .inr (show lo + 1 ≤ 14 by omega)

/-- A command whose outcome stands. -/
theorem State.truTry_done {c : TruCmd} (hc : s.tru.cmd = some c) (hd : c.done = true) : s.truTry = s := by
  unfold State.truTry
  rw [hc]
  dsimp only
  rw [hd]
  rfl

theorem exec_trustCommandEnd {c : TruCmd} (hm : s.islandUp .memory = true) (hc : s.tru.cmd = some c) (hd : c.done = true) (hk : c.cause = some k) :
    exec .trustCommandEnd s = .next (s.truFinish c k) := by
  change execTrustCommandEnd s = _
  unfold execTrustCommandEnd
  rw [if_pos hm]
  dsimp only
  rw [State.truTry_done hc hd, hc]
  dsimp only
  rw [hk]

/-- A signed command that passed, by its effect. -/
theorem State.truFinish_passed {c : TruCmd} {u : State} (hu : s.truEffect c.code = u) (hc : c.chal = true) :
    s.truFinish c 0 = (u.truEnded 3 0 312).chalDraw := by
  unfold State.truFinish
  dsimp only
  rw [if_pos rfl, hu, if_pos rfl, if_pos hc]
  rfl

/-- A signed command that passed has ended, and a new challenge stands. -/
theorem State.truPassed_shows (hm : s.islandUp .memory = true) :
    let t := (s.truEnded 3 0 312).chalDraw
    t.bit F.TRU_STAT.BUSY = false ∧ t.bit F.TRU_STAT.DONE = true ∧ t.get F.TRU_STAT.CAUSE = 0 ∧ t.tru.cmd = none
      ∧ (s.por.lost.contains (.irq 312) = false → t.get (F.IRT_SRC.COUNT 312) = min 15 (s.get (F.IRT_SRC.COUNT 312) + 1))
      ∧ t.tru.chalOk = true ∧ t.tru.chalT = 0 ∧ (∀ k : Fin 8, t.get (F.TRU_CHAL k) = leAt (s.freeBytes 16).1 (2 * k) 2)
      ∧ t.get F.TRU_STAT.DEBUG = s.get F.TRU_STAT.DEBUG ∧ t.get F.TRU_DBGLEFT = s.get F.TRU_DBGLEFT := by
  obtain ⟨h1, h2, h3, h4, h5, h6, hR⟩ := s.truEnded_shows (lo := 3) (cause := 0) (k := 312) hm (.inl rfl) (by decide) (by decide)
  obtain ⟨v, hv⟩ : ∃ v, s.truEnded 3 0 312 = v := ⟨_, rfl⟩
  rw [hv] at h1 h2 h3 h4 h5 h6 hR
  obtain ⟨c1, c2, c3, cR, c5⟩ := v.chalDraw_shows (congrArg Tru.cmd h4)
  have hf : (v.freeBytes 16).1 = (s.freeBytes 16).1 := by
    unfold State.freeBytes
    rw [hR.freeCtr]
  dsimp only
  rw [hv]
  exact ⟨cR.bit.trans h1, State.bit_of_get_one (cR.get.trans h2), cR.get.trans h3, c5, fun hl => cR.get.trans (h5 hl), c1, c2,
    fun k => (c3 k).trans (by rw [hf]), cR.get.trans h6, cR.get.trans hR.get⟩

theorem trustCommandEnd_passes (hm : s.islandUp .memory = true) (hc : s.tru.cmd = some ⟨n, true, true, some 0⟩) (hn : n = 2 ∨ n = 3 ∨ n = 4 ∨ n = 6)
    (hl : s.por.lost.contains (.irq 312) = false) :
    GoesTo (exec .trustCommandEnd s) fun t =>
      t.bit F.TRU_STAT.BUSY = false ∧ t.bit F.TRU_STAT.DONE = true ∧ t.get F.TRU_STAT.CAUSE = 0 ∧ t.tru.cmd = none
      ∧ t.get (F.IRT_SRC.COUNT 312) = min 15 (s.get (F.IRT_SRC.COUNT 312) + 1) ∧ t.tru.chalOk = true ∧ t.tru.chalT = 0
      ∧ ∀ k : Fin 8, t.get (F.TRU_CHAL k) = leAt (s.freeBytes 16).1 (2 * k) 2 := by
  have he : s.truEffect n = s := by obtain rfl | rfl | rfl | rfl := hn <;> rfl
  obtain ⟨h1, h2, h3, h4, h5, h6, h7, h8, -⟩ := s.truPassed_shows hm
  exact ⟨(s.truEnded 3 0 312).chalDraw, (exec_trustCommandEnd hm hc rfl rfl).trans (congrArg Host.Outcome.next (State.truFinish_passed he rfl)), h1, h2, h3, h4,
    h5 hl, h6, h7, h8⟩

theorem trustCommandEnd_fails (hm : s.islandUp .memory = true) (hc : s.tru.cmd = some ⟨n, true, false, some k⟩) (hk : k ≠ 0) (h16 : k < 16)
    (hx : s.tru.chalNext = none) (hl : s.por.lost.contains (.irq 313) = false) :
    GoesTo (exec .trustCommandEnd s) fun t =>
      t.bit F.TRU_STAT.BUSY = false ∧ t.bit F.TRU_STAT.FAIL = true ∧ t.get F.TRU_STAT.CAUSE = k ∧ t.tru.cmd = none
      ∧ t.get (F.IRT_SRC.COUNT 313) = min 15 (s.get (F.IRT_SRC.COUNT 313) + 1) ∧ t.hal = s.hal := by
  obtain ⟨h1, h2, h3, h4, h5, -, hR⟩ := s.truEnded_shows (lo := 4) (cause := k) (k := 313) hm (.inr rfl) h16 (by decide)
  obtain ⟨v, hv⟩ : ∃ v, s.truEnded 4 k 313 = v := ⟨_, rfl⟩
  rw [hv] at h1 h2 h3 h4 h5 hR
  have hn : v.tru.chalNext = none := (congrArg Tru.chalNext h4).trans hx
  have he : s.truFinish ⟨n, true, false, some k⟩ k = v := by
    unfold State.truFinish
    dsimp only
    unfold State.truEnded at hv
    rw [if_neg hk, if_neg hk, if_neg Bool.false_ne_true, F.TRU_STAT.FAIL, hv, hn]
  exact ⟨v, (exec_trustCommandEnd hm hc rfl rfl).trans (congrArg Host.Outcome.next he), h1, State.bit_of_get_one h2, h3, congrArg Tru.cmd h4, h5 hl, hR.hal⟩

theorem trustCommandEnd_debugs (hm : s.islandUp .memory = true) (hc : s.tru.cmd = some ⟨7, true, true, some 0⟩) (hn : leAt s.truBuf 92 2 ≠ 0) :
    GoesTo (exec .trustCommandEnd s) fun t =>
      t.bit F.TRU_STAT.BUSY = false ∧ t.bit F.TRU_STAT.DONE = true ∧ t.bit F.TRU_STAT.DEBUG = true ∧ t.get F.TRU_DBGLEFT = leAt s.truBuf 92 2
      ∧ t.tru.cmd = none := by
  obtain ⟨x, hx⟩ : ∃ x, leAt s.truBuf 92 2 = x := ⟨_, rfl⟩
  have hlt : x < 2 ^ 16 := hx ▸ leAt_two_lt
  obtain ⟨u, hu⟩ : ∃ u, (s.set F.TRU_STAT.DEBUG 1).set F.TRU_DBGLEFT x = u := ⟨_, rfl⟩
  have he : s.truEffect 7 = u := by
    change (if leAt s.truBuf 92 2 = 0 then s.debugEnd else (s.set F.TRU_STAT.DEBUG 1).set F.TRU_DBGLEFT (leAt s.truBuf 92 2)) = u
    rw [if_neg hn, hx, hu]
  have hR : Reach ⟨[.regs], [(0x6800, 0x6803)]⟩ s u := hu ▸ ((Reach.refl s).set).set
  have hd : u.get F.TRU_STAT.DEBUG = 1 :=
    hu ▸ (State.get_set_addr _ F.TRU_DBGLEFT F.TRU_STAT.DEBUG (by decide) x).trans (s.get_set_self F.TRU_STAT.DEBUG (by decide) 1)
  have hx' : u.get F.TRU_DBGLEFT = x := hu ▸ (State.get_set_self _ F.TRU_DBGLEFT (by decide) x).trans (Nat.mod_eq_of_lt hlt)
  obtain ⟨h1, h2, -, h4, -, -, -, -, h9, h10⟩ := u.truPassed_shows ((hR.islandUp .memory).trans hm)
  exact ⟨(u.truEnded 3 0 312).chalDraw, (exec_trustCommandEnd hm hc rfl rfl).trans (congrArg Host.Outcome.next (State.truFinish_passed he rfl)), h1, h2,
    State.bit_of_get_one (h9.trans hd), (h10.trans hx').trans hx.symm, h4⟩

/-! ### Debug and tamper -/

theorem debugSessionExpire_ends (hm : s.islandUp .memory = true) (hd : s.bit F.TRU_STAT.DEBUG = true) (h0 : s.get F.TRU_DBGLEFT = 0)
    (hl : s.por.lost.contains (.irq 315) = false) :
    GoesTo (exec .debugSessionExpire s) fun t =>
      t.bit F.TRU_STAT.DEBUG = false ∧ t.get (F.IRT_SRC.COUNT 315) = min 15 (s.get (F.IRT_SRC.COUNT 315) + 1) ∧ t.tru = s.tru := by
  obtain ⟨u, hu⟩ : ∃ u, (s.set F.TRU_STAT.DEBUG 0).set F.TRU_DBGLEFT 0 = u := ⟨_, rfl⟩
  have hud : u.get F.TRU_STAT.DEBUG = 0 :=
    hu ▸ (State.get_set_addr _ F.TRU_DBGLEFT F.TRU_STAT.DEBUG (by decide) 0).trans (s.get_set_self F.TRU_STAT.DEBUG (by decide) 0)
  have hR : Reach ⟨[.regs], [(0x6800, 0x6803)]⟩ s u := hu ▸ ((Reach.refl s).set).set
  have hR' : Reach raiseFoot u (u.raise 315) := State.raise_reach (by decide)
  have he : s.debugEnd = u.raise 315 := by
    unfold State.debugEnd
    rw [if_pos hd, hu]
  refine ⟨u.raise 315, congrArg Host.Outcome.next ((if_pos (by rw [hm, hd, h0]; rfl)).trans he), hR'.bit.trans (State.bit_of_get_zero hud), ?_,
    hR'.tru.trans hR.tru⟩
  rw [State.count_raise u 315 (by decide) ((hR.islandUp .memory).trans hm) (by rw [hR.por]; simpa using hl), hR.get]

/-- After the end of a session none is open. -/
theorem State.debugEnd_shows : s.debugEnd.bit F.TRU_STAT.DEBUG = false
    ∧ Reach ⟨[.regs, .marks, .por], (0x6800, 0x6803) :: raiseFoot.regs⟩ s s.debugEnd := by
  refine ⟨?_, (Reach.refl s).when fun h => ((h.set).set).then (State.raise_reach (by decide))⟩
  unfold State.debugEnd
  split
  · exact (State.raise_reach (by decide)).bit.trans (State.bit_of_get_zero
      ((State.get_set_addr _ F.TRU_DBGLEFT F.TRU_STAT.DEBUG (by decide) 0).trans (s.get_set_self F.TRU_STAT.DEBUG (by decide) 0)))
  · next h => exact Bool.eq_false_iff.2 h

theorem tamperTrip_erases {k : Fin 4} (hh : s.pcr.held = none) (hw : s.pcr.watch = false ∨ 2 ≤ k.val) :
    GoesTo (exec (.tamperTrip k) s) fun t =>
      t.gal.nm = s.gal.nm ∧ t.gal.sk = none ∧ t.tru.chalOk = false ∧ (∀ i : Fin 8, t.get (F.TRU_CHAL i) = 0)
      ∧ bitOf (t.get F.TRU_TAMP.SENSOR) k = true
      ∧ t.get F.TRU_TAMP.COUNT = satAdd (s.get F.TRU_TAMP.COUNT) 1 (2 ^ F.TRU_TAMP.COUNT.len - 1) ∧ t.bit F.TRU_STAT.DEBUG = false
      ∧ (t.por.pulses.any fun p => p.src = 6) = true := by
  obtain ⟨u, hu⟩ : ∃ u, s.updGal (fun g => { g with sk := none }) = u := ⟨_, rfl⟩
  have hus : u.gal.nm = s.gal.nm ∧ u.gal.sk = none ∧ u.get F.TRU_TAMP.COUNT = s.get F.TRU_TAMP.COUNT := by
    rw [← hu]
    exact ⟨rfl, rfl, rfl⟩
  obtain ⟨u1, u2, u3⟩ := hus
  obtain ⟨v, hv⟩ : ∃ v, (u.each (List.range 8) fun s i => s.set (F.TRU_CHAL i) 0) = v := ⟨_, rfl⟩
  have hvR : Reach ⟨[.regs], [(R.TRU_CHAL 0, R.TRU_CHAL 8)]⟩ u v := by
    rw [← hv]
    refine (Reach.refl u).each fun s i hi => (Reach.refl s).set (Foot.holds_range (R.TRU_CHAL 0) (R.TRU_CHAL 8) ?_)
    have hi := List.mem_range.1 hi
    simp only [F.TRU_CHAL, R.TRU_CHAL]
    omega
  have hv0 (i : Fin 8) : v.get (F.TRU_CHAL i) = 0 := by
    rw [← hv, State.get_each_set u (f := F.TRU_CHAL) 0 (fun _ => by simp only [F.TRU_CHAL]; omega)
      (fun i j h => by simp only [F.TRU_CHAL, R.TRU_CHAL]; omega) i.isLt]
    rfl
  obtain ⟨w, hw'⟩ : ∃ w, v.updTru (fun t => { t with chalOk := false, chalNext := none }) = w := ⟨_, rfl⟩
  have hws : w.tru.chalOk = false ∧ w.regs = v.regs ∧ w.gal = v.gal := by
    rw [← hw']
    exact ⟨rfl, rfl, rfl⟩
  obtain ⟨w1, w2, w3⟩ := hws
  obtain ⟨d1, dR⟩ := w.debugEnd_shows
  obtain ⟨x, hx⟩ : ∃ x, w.debugEnd = x := ⟨_, rfl⟩
  rw [hx] at d1 dR
  obtain ⟨y, hy⟩ : ∃ y, x.evtAt F.TRU_TAMP.SENSOR k = y := ⟨_, rfl⟩
  have hyR : Reach ⟨[.regs, .marks], [(R.TRU_TAMP, R.TRU_TAMP + 1)]⟩ x y := hy ▸ (Reach.refl x).evtAt
  have hyb : bitOf (y.get F.TRU_TAMP.SENSOR) k = true := hy ▸ x.bitOf_evtAt F.TRU_TAMP.SENSOR (by decide) k.isLt
  have hyc : y.get F.TRU_TAMP.COUNT = x.get F.TRU_TAMP.COUNT := by
    rw [← hy]
    exact (State.get_set_disj _ F.TRU_TAMP.SENSOR F.TRU_TAMP.COUNT rfl (by decide) (by decide) _).trans (State.get_of_regs (State.mark_regs _ _ _) _)
  obtain ⟨z, hz⟩ : ∃ z, y.evtInc F.TRU_TAMP.COUNT = z := ⟨_, rfl⟩
  have hzR : Reach ⟨[.regs, .marks], [(R.TRU_TAMP, R.TRU_TAMP + 1)]⟩ y z := hz ▸ (Reach.refl y).evtAdd
  have hzc : z.get F.TRU_TAMP.COUNT = satAdd (y.get F.TRU_TAMP.COUNT) 1 (2 ^ F.TRU_TAMP.COUNT.len - 1) := hz ▸ y.evtInc_counts (by decide)
  have hzb : z.get F.TRU_TAMP.SENSOR = y.get F.TRU_TAMP.SENSOR := by
    rw [← hz]
    exact (State.get_set_disj _ F.TRU_TAMP.COUNT F.TRU_TAMP.SENSOR rfl (by decide) (by decide) _).trans (State.get_of_regs (State.mark_regs _ _ _) _)
  have hR : Reach ⟨[.regs, .marks, .por], (0x6800, 0x6803) :: (R.TRU_TAMP, R.TRU_TAMP + 1) :: raiseFoot.regs⟩ w ((z.raise 314).report 6 k) :=
    ((((dR.mono (by decide)).then hyR).then hzR).then (State.raise_reach (by decide))).then State.report_reach
  have hT : Reach raiseFoot z ((z.raise 314).report 6 k) := (State.raise_reach (by decide)).then State.report_reach
  have he : s.tamper k = (z.raise 314).report 6 k := by
    unfold State.tamper
    dsimp only
    rw [hu, hv, hw', hx, hy, hz]
  refine ⟨(z.raise 314).report 6 k, congrArg Host.Outcome.next ((if_pos ?_).trans he), ?_, ?_, ?_, fun i => ?_, ?_, ?_, ?_, State.report_pulse _ _ _⟩
  · rw [hh]
    rcases hw with h | h
    · rw [h]
      rfl
    · rw [decide_eq_true h, Bool.or_true]
      rfl
  · rw [hR.gal, w3, hvR.gal, u1]
  · rw [hR.gal, w3, hvR.gal, u2]
  · rw [hR.tru, w1]
  · refine (hR.get (Foot.holds_false_iff.2 ?_)).trans ((State.get_of_regs w2 _).trans (hv0 i))
    simp [F.TRU_CHAL, R.TRU_CHAL, R.TRU_TAMP]
    omega
  · rw [hT.get, hzb]
    exact hyb
  · rw [hT.get, hzc, hyc, dR.get, State.get_of_regs w2, hvR.get, u3]
  · rw [hT.bit, hzR.bit, hyR.bit]
    exact d1

/-- Settles O34: the commands by their checks and their ends, the challenge, the session and a tamper trip. -/
theorem trustCommandsAreCheckedAndEnd : Obligations.TrustCommandsAreCheckedAndEnd := by
  unfold Obligations.TrustCommandsAreCheckedAndEnd
  refine ⟨fun _ hm hc hv hj hf ho => trustClaim_asks hm hc hv hj hf ho, fun _ _ _ hm hc hv hj h hf hg ho => trustSigned_passes hm hc hv hj h hf hg ho,
    fun _ _ _ _ hm hc hv hj h hf hk => trust_fails hm hc hv hj (exec_trust h) hf hk, fun s hm hc hv hj => ?_,
    fun _ hm hc hv hj hf => trustAttest_stands hm hc hv hj hf, fun _ _ _ hm hc h => trust_busy hm hc (exec_trust h),
    fun _ _ hm hc hn hl => trustCommandEnd_passes hm hc hn hl, fun _ _ k hm hc hk hx hl => trustCommandEnd_fails hm hc hk k.isLt hx hl,
    fun _ hm hc hn => trustCommandEnd_debugs hm hc hn, fun _ hm ht hc => challengeExpire_draws hm ht hc, fun _ hm ht hc => challengeExpire_waits hm ht hc,
    fun _ hm hd h0 hl => debugSessionExpire_ends hm hd h0 hl, fun _ _ hh hw => tamperTrip_erases hh hw⟩
  obtain ⟨t, ht, h1, h2, -, h4, h5⟩ := trust_fails (c := .trustUnknownCommand) hm hc hv hj rfl (show s.truFirst 0 s.truBuf = 13 from rfl) (by decide)
  exact ⟨t, ht, h1, h2, h4, h5⟩

end Sys2Proof.Machine
end

section
/-! SUPPORT. Self-test: results, and the rotations of compare units and edge timers (O36). -/

set_option Elab.async false

namespace Sys2Proof.Machine

variable {s t u : State} {kind k n : Nat}

/-! ### Results -/

/-- A result that sets bit `lo` of STC_STAT and counts in the field at `c` of STC_CNT. -/
def State.stcMark (s : State) (lo c k : Nat) : State := ((s.evt ⟨R.STC_STAT, lo, 1⟩).evtInc ⟨R.STC_CNT, c, 10⟩).raise k

/-- What a result reaches. -/
abbrev markFoot : Foot := ⟨[.regs, .marks, .por], (R.STC_STAT, R.STC_STAT + 1) :: (R.STC_CNT, R.STC_CNT + 1) :: raiseFoot.regs⟩

theorem State.stcMark_shows {lo c : Nat} (hlo : lo < 20) (hc : c ≤ 10) (hk : k < 320) :
    (s.stcMark lo c k).get ⟨R.STC_STAT, lo, 1⟩ = 1
      ∧ (s.stcMark lo c k).get ⟨R.STC_CNT, c, 10⟩ = satAdd (s.get ⟨R.STC_CNT, c, 10⟩) 1 (2 ^ 10 - 1)
      ∧ (∀ f : Fld, f.addr = R.STC_STAT → f.lo + f.len ≤ lo ∨ lo + 1 ≤ f.lo → (s.stcMark lo c k).get f = s.get f)
      ∧ Reach markFoot s (s.stcMark lo c k) ∧ SamePor s (s.stcMark lo c k) := by
  have hne : R.STC_STAT ≠ R.STC_CNT := by decide
  obtain ⟨v, hv⟩ : ∃ v, s.evt ⟨R.STC_STAT, lo, 1⟩ = v := ⟨_, rfl⟩
  have hv1 : v.get ⟨R.STC_STAT, lo, 1⟩ = 1 := hv ▸ s.get_evt _ (by dsimp only; omega) (by dsimp only; omega)
  have hvg (f : Fld) (hf : f.addr = R.STC_STAT → f.lo + f.len ≤ lo ∨ lo + 1 ≤ f.lo) : v.get f = s.get f := by
    rw [← hv]
    exact (State.get_set_apart _ ⟨R.STC_STAT, lo, 1⟩ f (by dsimp only; omega) (fun e => (hf e).symm) 1).trans (State.get_of_regs (State.mark_regs _ _ _) _)
  have hvR : Reach markFoot s v := hv ▸ (Reach.refl s).evt (Foot.holds_range R.STC_STAT (R.STC_STAT + 1) ⟨Nat.le_refl _, Nat.lt_succ_self _⟩)
  have hvp : SamePor s v := SamePor.of_eq (hv ▸ State.evt_por _ _)
  obtain ⟨w, hw⟩ : ∃ w, v.evtInc ⟨R.STC_CNT, c, 10⟩ = w := ⟨_, rfl⟩
  have hw1 : w.get ⟨R.STC_CNT, c, 10⟩ = satAdd (v.get ⟨R.STC_CNT, c, 10⟩) 1 (2 ^ 10 - 1) := hw ▸ v.evtInc_counts (by dsimp only; omega)
  have hwg (f : Fld) (hf : f.addr = R.STC_STAT) : w.get f = v.get f := by
    rw [← hw]
    exact v.get_evtInc_addr ⟨R.STC_CNT, c, 10⟩ f (by rw [hf]; exact hne)
  have hwR : Reach markFoot v w := hw ▸ (Reach.refl v).evtAdd (Foot.holds_range R.STC_CNT (R.STC_CNT + 1) ⟨Nat.le_refl _, Nat.lt_succ_self _⟩)
  have hwp : SamePor v w := SamePor.of_eq (hw ▸ State.evtInc_por _ _)
  have hR : Reach raiseFoot w (w.raise k) := State.raise_reach hk
  have hget (f : Fld) (hf : f.addr = R.STC_STAT ∨ f.addr = R.STC_CNT) : (w.raise k).get f = w.get f := by
    refine hR.get ?_
    rcases hf with h | h
    · rw [h]
      decide
    · rw [h]
      decide
  have he : s.stcMark lo c k = w.raise k := by
    unfold State.stcMark
    rw [hv, hw]
  rw [he]
  refine ⟨(hget _ (.inl rfl)).trans ((hwg _ rfl).trans hv1), (hget _ (.inr rfl)).trans (hw1.trans ?_), fun f hf hd => ?_, (hvR.trans hwR).then hR, ?_⟩
  · rw [hvg _ (fun e => absurd e.symm hne)]
  · exact (hget f (.inl hf)).trans ((hwg f hf).trans (hvg f fun _ => hd))
  · exact (hvp.trans hwp).trans (State.samePor_raise)

/-- A failure: FAIL sets, and nothing of the self-test moves. -/
theorem State.stcFail_shows : s.stcFail.get F.STC_STAT.FAIL = 1
    ∧ (∀ f : Fld, f.addr = R.STC_STAT → f.lo + f.len ≤ 4 ∨ 5 ≤ f.lo → s.stcFail.get f = s.get f) ∧ Reach markFoot s s.stcFail ∧ SamePor s s.stcFail := by
  obtain ⟨h1, -, h2, h3, h4⟩ := s.stcMark_shows (lo := 4) (c := 0) (k := 316) (by decide) (by decide) (by decide)
  exact ⟨h1, h2, h3, h4⟩

/-- An INCOMPLETE result: INC sets, it is counted, and the rotations stand. -/
theorem State.stcInc_shows : (s.stcInc kind).get F.STC_STAT.INC = 1
    ∧ (s.stcInc kind).get F.STC_CNT.INCOMP = satAdd (s.get F.STC_CNT.INCOMP) 1 (2 ^ F.STC_CNT.INCOMP.len - 1)
    ∧ (∀ f : Fld, f.addr = R.STC_STAT → f.lo + f.len ≤ 5 ∨ 6 ≤ f.lo → (s.stcInc kind).get f = s.get f)
    ∧ Reach ⟨[.regs, .marks, .por, .stc], markFoot.regs⟩ s (s.stcInc kind) ∧ (s.stcInc kind).stc.cmpu = s.stc.cmpu ∧ (s.stcInc kind).stc.etmr = s.stc.etmr := by
  obtain ⟨h1, h2, h3, h4, -⟩ := s.stcMark_shows (lo := 5) (c := 10) (k := 317) (by decide) (by decide) (by decide)
  obtain ⟨v, hv⟩ : ∃ v, s.stcMark 5 10 317 = v := ⟨_, rfl⟩
  rw [hv] at h1 h2 h3 h4
  obtain ⟨w, hw⟩ : ∃ w, v.updStc (fun x => { x with inc := vupd x.inc kind fun _ => (vget s.stc.inc kind 0 + 1) % 3 }) = w := ⟨_, rfl⟩
  have hws : w.regs = v.regs ∧ w.stc.cmpu = v.stc.cmpu ∧ w.stc.etmr = v.stc.etmr := by
    rw [← hw]
    exact ⟨rfl, rfl, rfl⟩
  have hwR : Reach ⟨[.regs, .marks, .por, .stc], markFoot.regs⟩ s w := hw ▸ (h4.mono (by decide)).then State.updStc_reach
  obtain ⟨w1, w2, w3⟩ := hws
  have he : s.stcInc kind = if vget s.stc.inc kind 0 + 1 = 3 then w.report 84 kind else w := by
    unfold State.stcInc
    unfold State.stcMark at hv
    dsimp only
    rw [F.STC_STAT.INC, F.STC_CNT.INCOMP, hv, hw]
  have hR : Reach ⟨[.por], []⟩ w (s.stcInc kind) := by
    rw [he]
    exact (Reach.refl w).when fun _ => State.report_reach
  have hg (f : Fld) : (s.stcInc kind).get f = v.get f := (hR.get rfl).trans (State.get_of_regs w1 f)
  have hs : v.stc = s.stc := h4.stc
  refine ⟨(hg _).trans h1, (hg _).trans h2, fun f hf hd => (hg f).trans (h3 f hf hd), hwR.then hR, ?_, ?_⟩
  · rw [hR.stc, w2, hs]
  · rw [hR.stc, w3, hs]

/-! ### Rotations -/

theorem State.rot_updRot {f : Rot → Rot} : (s.updRot kind f).rot kind = f (s.rot kind) := by
  unfold State.updRot State.updStc State.rot
  by_cases h : kind = 2
  · simp only [if_pos h]
  · simp only [if_neg h]

theorem rot_of_stc (h : t.stc = s.stc) : t.rot kind = s.rot kind := by
  unfold State.rot
  rw [h]

theorem State.rot_stcDone {c : Nat} : (s.stcDone c n).rot kind = s.rot kind := rfl

/-- The fields of a rotation: where they stand. -/
theorem rotFld_places (h : kind = 2 ∨ kind = 3) :
    ((rotHas kind).addr = R.STC_STAT ∧ (rotSpare kind).addr = R.STC_STAT ∧ (rotRes kind).addr = R.STC_RES ∧ (rotBad kind).addr = R.STC_UFAIL)
      ∧ ((rotHas kind).lo + (rotHas kind).len ≤ 4 ∧ 7 ≤ (rotSpare kind).lo ∧ (rotSpare kind).lo + (rotSpare kind).len ≤ 20)
      ∧ (rotRes kind).lo + (rotRes kind).len ≤ 20 ∧ (rotBad kind).lo + (rotBad kind).len ≤ 20 ∧ (rotRes kind).len = 3 := by
  rcases h with rfl | rfl
  · decide
  · decide

/-- A unit that goes out of service. -/
theorem State.rotLose_shows (hk : kind = 2 ∨ kind = 3) {res : Nat} (hr : res < 8) :
    (s.rotLose kind n res).bit (rotHas kind) = false ∧ (s.rotLose kind n res).get (rotRes kind) = res
      ∧ (s.rotLose kind n res).get (rotBad kind) = n % 2 ^ (rotBad kind).len ∧ (s.rotLose kind n res).bit F.STC_STAT.FAIL = true
      ∧ (s.rotLose kind n res).stc = s.stc ∧ ((s.rotLose kind n res).por.pulses.any fun p => p.src = 79 + kind) = true
      ∧ ((s.rotLose kind n res).por.pulses.any fun p => p.src = 85) = true := by
  obtain ⟨⟨aH, -, aR, aB⟩, ⟨hH, -, -⟩, hR, hB, hlen⟩ := rotFld_places hk
  obtain ⟨v, hv⟩ : ∃ v, ((s.set (rotRes kind) res).set (rotBad kind) n).set (rotHas kind) 0 = v := ⟨_, rfl⟩
  have hv1 : v.get (rotHas kind) = 0 := hv ▸ (State.get_set_self _ _ (by omega) 0).trans (Nat.zero_mod _)
  have hv2 : v.get (rotRes kind) = res := by
    rw [← hv, State.get_set_addr _ _ _ (by rw [aH, aR]; decide), State.get_set_addr _ _ _ (by rw [aB, aR]; decide), State.get_set_self _ _ hR, hlen]
    exact Nat.mod_eq_of_lt hr
  have hv3 : v.get (rotBad kind) = n % 2 ^ (rotBad kind).len := by
    rw [← hv, State.get_set_addr _ _ _ (by rw [aH, aB]; decide), State.get_set_self _ _ hB]
  have hvs : v.stc = s.stc := hv ▸ rfl
  obtain ⟨f1, f2, fR, -⟩ := v.stcFail_shows
  obtain ⟨w, hw⟩ : ∃ w, v.stcFail = w := ⟨_, rfl⟩
  rw [hw] at f1 f2 fR
  have he : s.rotLose kind n res = (w.report (79 + kind) n).report 85 kind := by
    unfold State.rotLose
    dsimp only
    rw [hv, hw]
  have hp : Reach ⟨[.por], []⟩ w ((w.report (79 + kind) n).report 85 kind) := State.report_reach.trans State.report_reach
  have hg (f : Fld) : ((w.report (79 + kind) n).report 85 kind).get f = w.get f := hp.get rfl
  rw [he]
  refine ⟨State.bit_of_get_zero ((hg _).trans ((f2 _ aH (.inl hH)).trans hv1)), (hg _).trans ((fR.get ?_).trans hv2), (hg _).trans ((fR.get ?_).trans hv3),
    State.bit_of_get_one ((hg _).trans f1), hp.stc.trans (fR.stc.trans hvs), State.pulse_report _ _ _ (State.report_pulse _ _ _), State.report_pulse _ _ _⟩
  · rw [aR]
    decide
  · rw [aB]
    decide

/-- A freed unit whose test passed. -/
theorem State.rotDone_pass (hk : kind = 2 ∨ kind = 3) {len : Nat} (hf : (s.rot kind).freed = some n) (ht : (s.rot kind).freedT + len ≤ s.fclk)
    (hn : n < 2 ^ (rotSpare kind).len) :
    (s.rotDone kind len .pass).get (rotSpare kind) = n ∧ (s.rotDone kind len .pass).get (rotRes kind) = 1
      ∧ ((s.rotDone kind len .pass).rot kind).freed = none ∧ (s.rotDone kind len .pass).bit (rotHas kind) = s.bit (rotHas kind) := by
  obtain ⟨⟨aH, aS, aR, -⟩, ⟨hH, hS, hS'⟩, hR, -, hlen⟩ := rotFld_places hk
  obtain ⟨u, hu⟩ : ∃ u, s.updRot kind (fun r => { r with freed := none }) = u := ⟨_, rfl⟩
  have hur : (u.rot kind).freed = none := by rw [← hu, State.rot_updRot]
  have hug (f : Fld) : u.get f = s.get f := by
    rw [← hu]
    exact State.get_of_regs rfl f
  obtain ⟨v, hv⟩ : ∃ v, (u.set (rotRes kind) 1).set (rotSpare kind) n = v := ⟨_, rfl⟩
  have hv1 : v.get (rotSpare kind) = n := hv ▸ (State.get_set_self _ _ hS' n).trans (Nat.mod_eq_of_lt hn)
  have hv2 : v.get (rotRes kind) = 1 := by
    rw [← hv, State.get_set_addr _ _ _ (by rw [aS, aR]; decide), State.get_set_self _ _ hR, hlen]
    rfl
  have hv3 : v.get (rotHas kind) = s.get (rotHas kind) := by
    rw [← hv, State.get_set_apart _ (rotSpare kind) (rotHas kind) hS' (fun _ => .inr (by omega)), State.get_set_addr _ _ _ (by rw [aR, aH]; decide), hug]
  have hv4 : v.stc = u.stc := hv ▸ rfl
  have he : s.rotDone kind len .pass = v.stcDone kind n := by
    unfold State.rotDone
    rw [hf]
    dsimp only
    rw [if_pos ht, hu, hv]
  have hg (f : Fld) : (v.stcDone kind n).get f = v.get f := State.get_of_regs rfl f
  rw [he, State.rot_stcDone, rot_of_stc hv4]
  exact ⟨(hg _).trans hv1, (hg _).trans hv2, hur, State.bit_eq_of_get ((hg _).trans hv3)⟩

/-- A freed unit whose test failed. -/
theorem State.rotDone_fail (hk : kind = 2 ∨ kind = 3) {len : Nat} (hf : (s.rot kind).freed = some n) (ht : (s.rot kind).freedT + len ≤ s.fclk)
    (hn : n < 2 ^ (rotBad kind).len) :
    (s.rotDone kind len .fail).bit (rotHas kind) = false ∧ (s.rotDone kind len .fail).get (rotRes kind) = 2
      ∧ (s.rotDone kind len .fail).get (rotBad kind) = n ∧ ((s.rotDone kind len .fail).rot kind).freed = none
      ∧ (s.rotDone kind len .fail).bit F.STC_STAT.FAIL = true ∧ ((s.rotDone kind len .fail).por.pulses.any fun p => p.src = 79 + kind) = true := by
  obtain ⟨u, hu⟩ : ∃ u, s.updRot kind (fun r => { r with freed := none }) = u := ⟨_, rfl⟩
  have hur : (u.rot kind).freed = none := by rw [← hu, State.rot_updRot]
  obtain ⟨h1, h2, h3, h4, h5, h6, -⟩ := u.rotLose_shows (n := n) hk (res := 2) (by decide)
  obtain ⟨v, hv⟩ : ∃ v, u.rotLose kind n 2 = v := ⟨_, rfl⟩
  rw [hv] at h1 h2 h3 h4 h5 h6
  have he : s.rotDone kind len .fail = v.stcDone kind n := by
    unfold State.rotDone
    rw [hf]
    dsimp only
    rw [if_pos ht, hu, hv]
  have hg (f : Fld) : (v.stcDone kind n).get f = v.get f := State.get_of_regs rfl f
  rw [he, State.rot_stcDone, rot_of_stc h5]
  exact ⟨(State.bit_eq_of_get (hg _)).trans h1, (hg _).trans h2, (hg _).trans (h3.trans (Nat.mod_eq_of_lt hn)), hur, (State.bit_eq_of_get (hg _)).trans h4, h6⟩

/-- A freed unit whose test was incomplete. -/
theorem State.rotDone_incomplete (hk : kind = 2 ∨ kind = 3) {len : Nat} (hf : (s.rot kind).freed = some n) :
    ((s.rotDone kind len .incomplete).rot kind).retry = some n ∧ ((s.rotDone kind len .incomplete).rot kind).freed = none
      ∧ (s.rotDone kind len .incomplete).get (rotRes kind) = 3 ∧ (s.rotDone kind len .incomplete).bit F.STC_STAT.INC = true
      ∧ (s.rotDone kind len .incomplete).bit (rotHas kind) = s.bit (rotHas kind) := by
  obtain ⟨⟨aH, -, aR, -⟩, ⟨hH, -, -⟩, hR, -, hlen⟩ := rotFld_places hk
  obtain ⟨u, hu⟩ : ∃ u, s.updRot kind (fun r => { r with freed := none, retry := some n }) = u := ⟨_, rfl⟩
  have hur : (u.rot kind).freed = none ∧ (u.rot kind).retry = some n := by
    rw [← hu, State.rot_updRot]
    exact ⟨rfl, rfl⟩
  have hug (f : Fld) : u.get f = s.get f := by
    rw [← hu]
    exact State.get_of_regs rfl f
  obtain ⟨v, hv⟩ : ∃ v, u.set (rotRes kind) 3 = v := ⟨_, rfl⟩
  have hv1 : v.get (rotRes kind) = 3 := by
    rw [← hv, State.get_set_self _ _ hR, hlen]
    rfl
  have hv2 : v.get (rotHas kind) = s.get (rotHas kind) := by
    rw [← hv, State.get_set_addr _ _ _ (by rw [aR, aH]; decide), hug]
  have hv3 : v.stc = u.stc := hv ▸ rfl
  obtain ⟨i1, -, i2, iR, i3, i4⟩ := v.stcInc_shows (kind := kind)
  have he : s.rotDone kind len .incomplete = v.stcInc kind := by
    unfold State.rotDone
    rw [hf]
    dsimp only
    rw [hu, hv]
  have hrot : (v.stcInc kind).rot kind = u.rot kind := by
    unfold State.rot
    rw [i3, i4, hv3]
  rw [he, hrot]
  refine ⟨hur.2, hur.1, (iR.get ?_).trans hv1, State.bit_of_get_one i1, State.bit_eq_of_get ((i2 _ aH (.inl (by omega))).trans hv2)⟩
  rw [aR]
  decide

end Sys2Proof.Machine
end

section
/-! SUPPORT. Self-test: hall regions, NVS pages, steps and hand-overs, late tests (O36). -/

set_option Elab.async false

namespace Sys2Proof.Machine

variable {s t u : State} {k n h g : Nat}

/-! ### Steps and hand-overs -/

theorem compareUnitStep_steps (hr : s.rotReady 2 = true) (hw : s.stc.cmpu.wait = none) (hn : s.stc.cmpu.retry = none) (hk : s.stc.cmpu.next = k) :
    GoesTo (exec .compareUnitStep s) fun t =>
      t.stc.cmpu.wait = some k ∧ t.stc.cmpu.next = (k + 1) % 128 ∧ t.stc.cmpu.stepT = s.fclk ∧ t.stc.cmpu.nextT = s.fclk + s.cStep ∧ t.regs = s.regs := by
  have he : execCompareUnitStep s = .next (s.rotStep 2 k s.cStep 128 true) := by
    unfold execCompareUnitStep
    rw [if_pos (by rw [hr, hw]; rfl), hn, hk]
  exact ⟨s.rotStep 2 k s.cStep 128 true, he, rfl, rfl, rfl, rfl, rfl⟩

theorem compareUnitStep_retries {v : Nat} (hr : s.rotReady 2 = true) (hw : s.stc.cmpu.wait = none) (hn : s.stc.cmpu.retry = some v) :
    GoesTo (exec .compareUnitStep s) fun t =>
      t.stc.cmpu.freed = some v ∧ t.stc.cmpu.wait = none ∧ t.stc.cmpu.nextT = s.fclk + s.cStep ∧ t.regs = s.regs := by
  have he : execCompareUnitStep s = .next (s.rotRetry 2 v s.cStep) := by
    unfold execCompareUnitStep
    rw [if_pos (by rw [hr, hw]; rfl), hn]
  exact ⟨s.rotRetry 2 v s.cStep, he, rfl, hw, rfl, rfl⟩

theorem compareUnitHandover_agrees (ho : s.stcOn = true) (hw : s.stc.cmpu.wait = some k) (ht : s.stc.cmpu.stepT + 17 ≤ s.fclk) :
    GoesTo (exec (.compareUnitHandover true) s) fun t =>
      t.stc.cmpu.unit = s.stc.cmpu.unit.set k (s.get F.STC_STAT.CSPU) ∧ t.stc.cmpu.freed = some (s.stc.cmpu.unit.getD k 0) ∧ t.stc.cmpu.freedT = s.fclk
      ∧ t.stc.cmpu.wait = none ∧ t.regs = s.regs := by
  have he : execCompareUnitHandover true s = .next (s.rotHand 2 k) := by
    unfold execCompareUnitHandover
    rw [hw]
    dsimp only
    rw [if_pos ho, if_pos rfl, if_pos ht]
  exact ⟨s.rotHand 2 k, he, rfl, rfl, rfl, rfl, rfl⟩

theorem compareUnitHandover_fails (ho : s.stcOn = true) (hw : s.stc.cmpu.wait = some k) :
    GoesTo (exec (.compareUnitHandover false) s) fun t =>
      t.bit F.STC_STAT.CSPARE = false ∧ t.get F.STC_RES.CMPU = 4 ∧ t.get F.STC_UFAIL.CMPU = s.get F.STC_STAT.CSPU ∧ t.stc.cmpu.unit = s.stc.cmpu.unit
      ∧ t.stc.cmpu.next = k ∧ t.stc.cmpu.wait = none ∧ (t.por.pulses.any fun p => p.src = 81) = true ∧ (t.por.pulses.any fun p => p.src = 85) = true := by
  obtain ⟨u, hu⟩ : ∃ u, s.updRot 2 (fun r => { r with wait := none, next := k }) = u := ⟨_, rfl⟩
  have hus : u.stc.cmpu = { s.stc.cmpu with wait := none, next := k } := by
    rw [← hu]
    rfl
  obtain ⟨c, hc⟩ : ∃ c, s.get F.STC_STAT.CSPU = c := ⟨_, rfl⟩
  have hlt : c < 2 ^ 8 := hc ▸ s.get_lt F.STC_STAT.CSPU
  obtain ⟨h1, h2, h3, -, h5, h6, h7⟩ := u.rotLose_shows (kind := 2) (n := c) (.inl rfl) (res := 4) (by decide)
  have he : execCompareUnitHandover false s = .next (u.rotLose 2 c 4) := by
    unfold execCompareUnitHandover
    rw [hw]
    dsimp only
    rw [if_pos ho, if_neg Bool.false_ne_true, hu, hc]
  have h8 : (u.rotLose 2 c 4).stc.cmpu = { s.stc.cmpu with wait := none, next := k } := (congrArg Stc.cmpu h5).trans hus
  refine ⟨u.rotLose 2 c 4, he, h1, h2, (h3.trans (Nat.mod_eq_of_lt hlt)).trans hc.symm, ?_, ?_, ?_, h6, h7⟩
  all_goals rw [h8]

theorem edgeTimerStep_retries {v : Nat} (hr : s.rotReady 3 = true) (hw : s.stc.etmr.wait = none) (hn : s.stc.etmr.retry = some v) :
    GoesTo (exec .edgeTimerStep s) fun t =>
      t.stc.etmr.freed = some v ∧ t.stc.etmr.wait = none ∧ t.stc.etmr.nextT = s.fclk + s.tStep ∧ t.regs = s.regs := by
  have he : execEdgeTimerStep s = .next (s.rotRetry 3 v s.tStep) := by
    unfold execEdgeTimerStep
    rw [if_pos hr]
    dsimp only
    rw [hn, hw]
  exact ⟨s.rotRetry 3 v s.tStep, he, rfl, hw, rfl, rfl⟩

/-- A slot that has not become free gives way to the next one. -/
def State.slotPassed (s : State) (w : Option Nat) : State := s.updRot 3 fun r => { r with again := r.again.drop 1 ++ w.toList }

theorem edgeTimerStep_goes (hr : s.rotReady 3 = true) (hg : s.stc.etmr.again = []) (hn : s.stc.etmr.wait = none → s.stc.etmr.retry = none) :
    exec .edgeTimerStep s = .next ((s.slotPassed s.stc.etmr.wait).rotStep 3 s.stc.etmr.next s.tStep 24 true) := by
  change execEdgeTimerStep s = _
  unfold execEdgeTimerStep
  rw [if_pos hr]
  dsimp only
  rw [hg]
  cases hw : s.stc.etmr.wait with
  | none =>
    rw [hn hw]
    rfl
  | some w =>
    cases s.stc.etmr.retry with
    | none => rfl
    | some r => rfl

theorem edgeTimerStep_steps (hr : s.rotReady 3 = true) (hy : s.stc.etmr.retry = none) (hg : s.stc.etmr.again = [])
    (hk : s.stc.etmr.next = k) :
    GoesTo (exec .edgeTimerStep s) fun t =>
      t.stc.etmr.wait = some k ∧ t.stc.etmr.next = (k + 1) % 24 ∧ t.stc.etmr.nextT = s.fclk + s.tStep ∧ t.regs = s.regs := by
  refine ⟨(s.slotPassed s.stc.etmr.wait).rotStep 3 s.stc.etmr.next s.tStep 24 true, edgeTimerStep_goes hr hg fun _ => hy, congrArg some hk, ?_, rfl, rfl⟩
  exact congrArg (fun x => (x + 1) % 24) hk

theorem edgeTimerStep_passes (hr : s.rotReady 3 = true) (hw : s.stc.etmr.wait = some k) (hg : s.stc.etmr.again = []) (hn : s.stc.etmr.next = n) :
    GoesTo (exec .edgeTimerStep s) fun t => t.stc.etmr.wait = some n ∧ t.stc.etmr.again = [k] ∧ t.regs = s.regs := by
  refine ⟨(s.slotPassed s.stc.etmr.wait).rotStep 3 s.stc.etmr.next s.tStep 24 true, edgeTimerStep_goes hr hg (fun h => absurd (hw.symm.trans h) nofun),
    congrArg some hn, ?_, rfl⟩
  change s.stc.etmr.again.drop 1 ++ s.stc.etmr.wait.toList = [k]
  rw [hg, hw]
  rfl

theorem edgeTimerSlotFree_hands (ho : s.stcOn = true) (hw : s.stc.etmr.wait = some k) (hb : s.timersBusy < 24) :
    GoesTo (exec .edgeTimerSlotFree s) fun t =>
      t.stc.etmr.unit = s.stc.etmr.unit.set k (s.get F.STC_STAT.TSPU) ∧ t.stc.etmr.freed = some (s.stc.etmr.unit.getD k 0) ∧ t.stc.etmr.wait = none
      ∧ t.regs = s.regs := by
  have he : execEdgeTimerSlotFree s = .next (s.rotHand 3 k) := by
    unfold execEdgeTimerSlotFree
    rw [hw]
    dsimp only
    rw [if_pos (by rw [ho, decide_eq_true hb]; rfl)]
  exact ⟨s.rotHand 3 k, he, rfl, rfl, rfl, rfl⟩

/-! ### Late tests -/

theorem testIntervalLate_reports {k : Fin 5} {e : Nat × Nat} (ho : s.stcOn = true)
    (hf : (s.stcTimes k).find? (fun e => decide (e.2 + stcBound k < s.fclk)) = some e) :
    GoesTo (exec (.testIntervalLate k) s) fun t =>
      t.bit F.STC_STAT.LATE = true ∧ (t.por.pulses.any fun p => p.src = 83) = true ∧ SameStores s t := by
  obtain ⟨v, hv⟩ : ∃ v, (s.evt F.STC_STAT.LATE).report 83 k = v := ⟨_, rfl⟩
  have hvl : v.bit F.STC_STAT.LATE = true := hv ▸ State.report_reach.bit.trans (State.bit_of_get_one (s.get_evt _ (by decide) (by decide)))
  have hvp : (v.por.pulses.any fun p => p.src = 83) = true := hv ▸ State.report_pulse _ _ _
  have hvR : Reach rotationFoot s v := hv ▸ (Reach.refl s).evt.then State.report_reach
  have he : execTestIntervalLate k s = .next (if k.val = 4 then v.updCmp fun c => { c with done := cellDel e.1 c.done }
      else v.updStc fun x => { x with done := cellDel e.1 x.done }) := by
    unfold execTestIntervalLate
    rw [if_pos ho, hf]
    dsimp only
    rw [hv]
  by_cases h4 : k.val = 4
  · exact ⟨v.updCmp fun c => { c with done := cellDel e.1 c.done }, he.trans (congrArg Host.Outcome.next (if_pos h4)), hvl, hvp,
      (hvR.frame (t := v.updCmp fun c => { c with done := cellDel e.1 c.done })).sameStores⟩
  · exact ⟨v.updStc fun x => { x with done := cellDel e.1 x.done }, he.trans (congrArg Host.Outcome.next (if_neg h4)), hvl, hvp,
      (hvR.then State.updStc_reach).sameStores⟩

/-! ### NVS pages -/

theorem State.nvOp_reads {code a k : Nat} : Reach eccFoot s (s.nvOp code a k).1 := by
  unfold State.nvOp
  dsimp only
  split
  · exact State.eccRecord_reach
  · exact State.eccRecord_reach
  · exact .refl s

theorem State.pageRead_keeps {p : Nat} : (s.pageRead p).halls = s.halls ∧ (s.pageRead p).stc.nvDue = s.stc.nvDue := by
  have hR : Reach eccFoot s (s.each (List.range 4) fun s i => (s.nvOp 11 (32 * p + 8 * i) 8).1) := (Reach.refl s).each fun _ _ _ => State.nvOp_reads
  exact ⟨hR.halls, (congrArg Stc.nvDue hR.stc :)⟩

theorem nvsBackgroundRead_reads (ho : s.stcOn = true) (hd : 0 < s.stc.nvDue) (hb : s.nvBusyPage = none) :
    GoesTo (exec .nvsBackgroundRead s) fun t =>
      t.get F.STC_NPOS = (s.get F.STC_NPOS + max 1 (s.get F.STC_PACE0.NPPT)) % 65536 ∧ t.stc.nvDue = s.stc.nvDue - 1 ∧ t.halls = s.halls := by
  obtain ⟨p, hp⟩ : ∃ p, s.get F.STC_NPOS + max 1 (s.get F.STC_PACE0.NPPT) = p := ⟨_, rfl⟩
  obtain ⟨v, hv⟩ : ∃ v, s.each ((List.range (max 1 (s.get F.STC_PACE0.NPPT))).map fun i => (s.get F.STC_NPOS + i) % 65536) State.pageRead = v := ⟨_, rfl⟩
  have hvs : v.halls = s.halls ∧ v.stc.nvDue = s.stc.nvDue := by
    rw [← hv]
    exact State.each_keeps (fun t => t.halls = s.halls ∧ t.stc.nvDue = s.stc.nvDue) State.pageRead
      (fun t _ ⟨h1, h2⟩ => ⟨t.pageRead_keeps.1.trans h1, t.pageRead_keeps.2.trans h2⟩) _ s ⟨rfl, rfl⟩
  have he : execNvsBackgroundRead s = .next ((v.set F.STC_NPOS p).updStc fun x => { x with nvDue := x.nvDue - 1 }) := by
    unfold execNvsBackgroundRead
    rw [if_pos (by rw [ho, decide_eq_true hd]; rfl)]
    dsimp only
    rw [hb]
    dsimp only
    rw [hv, hp]
  refine ⟨(v.set F.STC_NPOS p).updStc fun x => { x with nvDue := x.nvDue - 1 }, he, ?_, congrArg (· - 1) hvs.2, hvs.1⟩
  rw [hp]
  exact v.get_set_self F.STC_NPOS (by decide) p

end Sys2Proof.Machine
end

section
/-! SUPPORT. Self-test: the regions of the halls (O36). -/

set_option Elab.async false

namespace Sys2Proof.Machine

variable {s t u : State} {k n h g : Nat}

/-- The test stays in its hall while that has power. -/
theorem State.stcHall_powered (hh : h < 16) (hp : s.bit (F.HAL_OWN.PWR h) = true) : s.stcHall h = some h := by
  have hl : (List.range 16).map (fun k => (h + k) % 16) = h :: (List.range' 1 15).map (fun k => (h + k) % 16) := by
    rw [show List.range 16 = 0 :: List.range' 1 15 from rfl, List.map_cons, Nat.add_zero, Nat.mod_eq_of_lt hh]
  unfold State.stcHall
  rw [hl]
  exact List.find?_cons_of_pos hp

/-- What every test of a region does first: its time, its words, the save buffers. -/
def State.regionPre (s : State) (h g : Nat) (bufFail : Bool) : State :=
  let m := s.mint
  let f := s.fclk
  let s := s.updStc fun x => { x with hallT := f + m }
  let s := match s.regionRow h g with | some row => s.regionWords h row | none => s
  let s := s.bufTest bufFail
  s.updStc fun x => { x with buf := if x.bufBad.contains (1 - x.buf) then x.buf else 1 - x.buf }

/-- The words of a region without errors stay. -/
theorem State.regionWords_clean {r : Nat} (he : s.hallErr = []) : s.regionWords h r = s := by
  unfold State.regionWords
  rw [he]
  rfl

theorem State.bufTest_reach : Reach ⟨[.regs], [(R.STC_RES, R.STC_RES + 1)]⟩ s (s.bufTest false) := by
  unfold State.bufTest
  dsimp only
  rw [if_neg Bool.false_ne_true]
  exact .ite (.refl s) (Reach.refl s).set

theorem State.regionPre_shows (he : s.hallErr = []) :
    (s.regionPre h g false).stc.hallT = s.fclk + s.mint ∧ Reach ⟨[.regs, .stc], [(R.STC_RES, R.STC_RES + 1)]⟩ s (s.regionPre h g false) := by
  obtain ⟨u, hu⟩ : ∃ u, s.updStc (fun x => { x with hallT := s.fclk + s.mint }) = u := ⟨_, rfl⟩
  have hus : u.stc.hallT = s.fclk + s.mint ∧ u.hallErr = [] := by
    rw [← hu]
    exact ⟨rfl, he⟩
  have huR : Reach ⟨[.regs, .stc], [(R.STC_RES, R.STC_RES + 1)]⟩ s u := hu ▸ (Reach.refl s).then State.updStc_reach
  have hw : (match u.regionRow h g with | some row => u.regionWords h row | none => u) = u := by
    split
    · exact State.regionWords_clean hus.2
    · rfl
  have hb : Reach ⟨[.regs], [(R.STC_RES, R.STC_RES + 1)]⟩ u (u.bufTest false) := State.bufTest_reach
  have hp : s.regionPre h g false = (u.bufTest false).updStc fun x => { x with buf := if x.bufBad.contains (1 - x.buf) then x.buf else 1 - x.buf } := by
    unfold State.regionPre
    dsimp only
    rw [hu]
    exact congrArg (fun v : State => (v.bufTest false).updStc fun x => { x with buf := if x.bufBad.contains (1 - x.buf) then x.buf else 1 - x.buf }) hw
  rw [hp]
  exact ⟨(congrArg Stc.hallT hb.stc).trans hus.1, (huR.then hb).then State.updStc_reach⟩

section
variable (hh : s.stcHall h = some h) (hm : s.get F.STC_MPOS.HALL = h) (hg : s.get F.STC_MPOS.REGION = g)
include hh hm hg

theorem State.regionTest_incomplete : s.regionTest .incomplete false
    = ((((s.regionPre h g false).set F.STC_MPOS.HALL h).set F.STC_MPOS.REGION g).set F.STC_RES.MEM 3).stcInc 0 := by
  unfold State.regionTest
  rw [hm, hh]
  dsimp only
  rw [if_pos rfl, hg]
  rfl

theorem State.regionTest_pass : ∃ f : Stc → Stc, (∀ x, (f x).hallT = x.hallT) ∧ s.regionTest .pass false
    = ((((s.regionPre h g false).set F.STC_RES.MEM 1).updStc f).stcDone 0 (2056 * h + g)).regionNext h g := by
  by_cases h2 : 2048 ≤ g
  · refine ⟨fun x => { x with spareOk := x.spareOk.filter (fun k => k ≠ 8 * h + (g - 2048)) ++ [8 * h + (g - 2048)] }, fun _ => rfl, ?_⟩
    unfold State.regionTest
    rw [hm, hh]
    dsimp only
    rw [if_pos rfl, hg, decide_eq_true h2]
    rfl
  · refine ⟨id, fun _ => rfl, ?_⟩
    unfold State.regionTest
    rw [hm, hh]
    dsimp only
    rw [if_pos rfl, hg, decide_eq_false h2]
    rfl

theorem State.regionTest_fail {b : Fin 72} : s.regionTest (.fail b) false
    = ((((s.regionPre h g false).set F.STC_RES.MEM 2).marchFail h g b).stcDone 0 (2056 * h + g)).regionNext h g := by
  unfold State.regionTest
  rw [hm, hh]
  dsimp only
  rw [if_pos rfl, hg]
  rfl

end

/-- The next region of the same hall. -/
theorem State.regionNext_shows (hn : g + 1 < 2056) (hh : h < 16) :
    (s.regionNext h g).get F.STC_MPOS.HALL = h ∧ (s.regionNext h g).get F.STC_MPOS.REGION = g + 1
      ∧ Reach ⟨[.regs], [(R.STC_MPOS, R.STC_MPOS + 1)]⟩ s (s.regionNext h g) := by
  have he : s.regionNext h g = (s.set F.STC_MPOS.HALL h).set F.STC_MPOS.REGION (g + 1) := if_pos hn
  rw [he]
  refine ⟨(State.get_set_disj _ F.STC_MPOS.REGION F.STC_MPOS.HALL rfl (by decide) (by decide) _).trans
    ((s.get_set_self F.STC_MPOS.HALL (by decide) h).trans (Nat.mod_eq_of_lt hh)),
    (State.get_set_self _ F.STC_MPOS.REGION (by decide) _).trans (Nat.mod_eq_of_lt (show g + 1 < 2 ^ 12 by omega)), ((Reach.refl s).set).set⟩

/-- What the record of a failed region leaves of the self-test's registers, and of the finding that reports it. -/
structure FailKept (s t : State) : Prop where
  get : ∀ f : Fld, 0x7400 ≤ f.addr → (f.addr = R.STC_MFAIL1 → f.lo + f.len ≤ 7) → t.get f = s.get f
  pulse : (s.por.pulses.any fun p => p.src = 80) = true → (t.por.pulses.any fun p => p.src = 80) = true

theorem FailKept.refl (s : State) : FailKept s s := ⟨fun _ _ _ => rfl, fun h => h⟩

theorem FailKept.trans (h : FailKept s t) (h' : FailKept t u) : FailKept s u :=
  ⟨fun f h1 h2 => (h'.get f h1 h2).trans (h.get f h1 h2), fun hp => h'.pulse (h.pulse hp)⟩

theorem FailKept.updStc {f : Stc → Stc} : FailKept s (s.updStc f) := ⟨fun _ _ _ => State.get_of_regs rfl _, fun h => h⟩

theorem FailKept.stcDone {a b : Nat} : FailKept s (s.stcDone a b) := ⟨fun _ _ _ => State.get_of_regs rfl _, fun h => h⟩

theorem FailKept.report {a d : Nat} : FailKept s (s.report a d) :=
  ⟨fun _ _ _ => State.report_reach.get rfl, fun h => State.pulse_report _ _ _ h⟩

theorem FailKept.setSpare {v : Nat} : FailKept s (s.set F.STC_MFAIL1.SPARE v) :=
  ⟨fun f _ h => s.get_set_apart F.STC_MFAIL1.SPARE f (by decide) (fun e => .inr (h e)) v, fun h => h⟩

theorem FailKept.setFull (hh : h < 16) {v : Nat} : FailKept s (s.set (F.HAL_SPARE.FULL h) v) :=
  ⟨fun f hf _ => s.get_set_addr (F.HAL_SPARE.FULL h) f (by simp only [F.HAL_SPARE.FULL, R.HAL_SPARE]; omega) v, fun h => h⟩

theorem FailKept.repairAsk : FailKept s s.repairAsk := by
  unfold State.repairAsk
  split
  · exact .refl s
  · split
    · exact .refl s
    · exact ⟨fun _ _ _ => State.get_of_regs rfl _, fun h => h⟩

/-- The record of a failed region, before a repair is looked for. -/
def State.marchNoted (s : State) (h g bit : Nat) : State :=
  (((((s.set F.STC_MFAIL0.HALL h).set F.STC_MFAIL0.REGION g).setReg R.STC_MFAIL1 0).set F.STC_MFAIL1.BIT bit).report 80 h).stcFail

/-- The search for a repair keeps the record. -/
theorem State.marchFail_kept (hh : h < 16) {bit : Nat} : FailKept (s.marchNoted h g bit) (s.marchFail h g bit) := by
  obtain ⟨v, hv⟩ : ∃ v, s.marchNoted h g bit = v := ⟨_, rfl⟩
  unfold State.marchFail
  dsimp only
  unfold State.marchNoted at hv ⊢
  rw [hv]
  obtain ⟨w, hw⟩ : ∃ w, (if 2048 ≤ g then v.updStc fun x => { x with spareOk := x.spareOk.filter fun k => k ≠ 8 * h + (g - 2048) } else v) = w := ⟨_, rfl⟩
  have hk : FailKept v w := by
    rw [← hw]
    split
    · exact .updStc
    · exact .refl v
  rw [hw]
  split
  · exact hk
  · split
    · exact ((hk.trans .setSpare).trans .updStc).trans (FailKept.updStc.trans .repairAsk)
    · refine FailKept.trans ?_ .report
      split
      · exact hk.trans (.setFull hh)
      · exact hk

theorem State.marchNoted_shows (hh : h < 16) (hg : g < 2 ^ 12) {bit : Nat} :
    (s.marchNoted h g bit).bit F.STC_STAT.FAIL = true ∧ (s.marchNoted h g bit).get F.STC_MFAIL0.HALL = h
      ∧ (s.marchNoted h g bit).get F.STC_MFAIL0.REGION = g ∧ (s.marchNoted h g bit).get F.STC_MFAIL1.BIT = bit % 2 ^ F.STC_MFAIL1.BIT.len
      ∧ ((s.marchNoted h g bit).por.pulses.any fun p => p.src = 80) = true
      ∧ (s.marchNoted h g bit).get F.STC_RES.MEM = s.get F.STC_RES.MEM := by
  obtain ⟨v, hv⟩ : ∃ v, (((s.set F.STC_MFAIL0.HALL h).set F.STC_MFAIL0.REGION g).setReg R.STC_MFAIL1 0).set F.STC_MFAIL1.BIT bit = v := ⟨_, rfl⟩
  have hset (f : Fld) (hf : f.addr ≠ R.STC_MFAIL1) : v.get f = ((s.set F.STC_MFAIL0.HALL h).set F.STC_MFAIL0.REGION g).get f := by
    rw [← hv, State.get_set_addr _ F.STC_MFAIL1.BIT f hf]
    exact State.get_setReg_ne _ hf _
  have v1 : v.get F.STC_MFAIL0.HALL = h := by
    rw [hset _ (by decide), State.get_set_disj _ F.STC_MFAIL0.REGION F.STC_MFAIL0.HALL rfl (by decide) (by decide), State.get_set_self _ _ (by decide)]
    exact Nat.mod_eq_of_lt hh
  have v2 : v.get F.STC_MFAIL0.REGION = g := by
    rw [hset _ (by decide), State.get_set_self _ _ (by decide)]
    exact Nat.mod_eq_of_lt hg
  have v3 : v.get F.STC_MFAIL1.BIT = bit % 2 ^ F.STC_MFAIL1.BIT.len := hv ▸ State.get_set_self _ F.STC_MFAIL1.BIT (by decide) bit
  have v4 : v.get F.STC_RES.MEM = s.get F.STC_RES.MEM := by
    rw [hset _ (by decide), State.get_set_addr _ F.STC_MFAIL0.REGION F.STC_RES.MEM (by decide), State.get_set_addr _ F.STC_MFAIL0.HALL F.STC_RES.MEM (by decide)]
  have hp : ((v.report 80 h).por.pulses.any fun p => p.src = 80) = true := State.report_pulse _ _ _
  obtain ⟨f1, -, fR, fp⟩ := (v.report 80 h).stcFail_shows
  have hr (f : Fld) : (v.report 80 h).get f = v.get f := State.report_reach.get rfl
  have he : s.marchNoted h g bit = (v.report 80 h).stcFail := by
    unfold State.marchNoted
    rw [hv]
  rw [he]
  refine ⟨State.bit_of_get_one f1, fR.get.trans ((hr _).trans v1), fR.get.trans ((hr _).trans v2), fR.get.trans ((hr _).trans v3), ?_,
    fR.get.trans ((hr _).trans v4)⟩
  rw [fp.fields]
  exact hp

/-! ### The test of a region -/

theorem exec_hallRegionTest {r : MarchRes} (ho : s.stcOn = true) (ht : s.stc.hallT ≤ s.fclk) :
    exec (.hallRegionTest r false) s = .next (s.regionTest r false) :=
  congrArg Host.Outcome.next (if_pos (by rw [ho, decide_eq_true ht]; rfl))

theorem hallRegionTest_passes (ho : s.stcOn = true) (ht : s.stc.hallT ≤ s.fclk) (he : s.hallErr = [])
    (hp : s.bit (F.HAL_OWN.PWR (s.get F.STC_MPOS.HALL)) = true) (hn : s.get F.STC_MPOS.REGION + 1 < 2056) :
    GoesTo (exec (.hallRegionTest .pass false) s) fun t =>
      t.get F.STC_RES.MEM = 1 ∧ t.get F.STC_MPOS.HALL = s.get F.STC_MPOS.HALL ∧ t.get F.STC_MPOS.REGION = s.get F.STC_MPOS.REGION + 1
      ∧ t.stc.hallT = s.fclk + s.mint ∧ SameStores s t := by
  have hlt : s.get F.STC_MPOS.HALL < 2 ^ 4 := s.get_lt _
  obtain ⟨h, hh⟩ : ∃ h, s.get F.STC_MPOS.HALL = h := ⟨_, rfl⟩
  obtain ⟨g, hg⟩ : ∃ g, s.get F.STC_MPOS.REGION = g := ⟨_, rfl⟩
  rw [hh] at hp hlt
  rw [hg] at hn
  obtain ⟨f, hf, heq⟩ := State.regionTest_pass (s.stcHall_powered hlt hp) hh hg
  obtain ⟨p1, pR⟩ := s.regionPre_shows (h := h) (g := g) he
  obtain ⟨v, hv⟩ : ∃ v, (((s.regionPre h g false).set F.STC_RES.MEM 1).updStc f).stcDone 0 (2056 * h + g) = v := ⟨_, rfl⟩
  obtain ⟨p, hpre⟩ : ∃ p, s.regionPre h g false = p := ⟨_, rfl⟩
  rw [hpre] at p1 pR hv
  have hv1 : v.get F.STC_RES.MEM = 1 := by
    rw [← hv]
    exact (State.get_of_regs rfl _).trans (State.get_set_self p F.STC_RES.MEM (by decide) 1)
  have hvt : v.stc.hallT = s.fclk + s.mint := by
    rw [← hv]
    exact (hf _).trans p1
  have hvR : Reach ⟨[.regs, .stc], [(R.STC_MPOS, R.STC_RES + 1)]⟩ s v := by
    rw [← hv]
    exact (((pR.mono (by decide)).set).then State.updStc_reach).then State.stcDone_reach
  obtain ⟨n1, n2, nR⟩ := v.regionNext_shows hn hlt
  rw [hh, hg]
  exact ⟨v.regionNext h g, (exec_hallRegionTest ho ht).trans (congrArg Host.Outcome.next (heq.trans (by rw [hpre, hv]))), nR.get.trans hv1, n1, n2,
    (congrArg Stc.hallT nR.stc).trans hvt, (hvR.then nR).sameStores⟩

theorem hallRegionTest_fails {b : Fin 72} (ho : s.stcOn = true) (ht : s.stc.hallT ≤ s.fclk)
    (hp : s.bit (F.HAL_OWN.PWR (s.get F.STC_MPOS.HALL)) = true) (hn : s.get F.STC_MPOS.REGION + 1 < 2056) :
    GoesTo (exec (.hallRegionTest (.fail b) false) s) fun t =>
      t.get F.STC_RES.MEM = 2 ∧ t.bit F.STC_STAT.FAIL = true ∧ t.get F.STC_MFAIL0.HALL = s.get F.STC_MPOS.HALL
      ∧ t.get F.STC_MFAIL0.REGION = s.get F.STC_MPOS.REGION ∧ t.get F.STC_MFAIL1.BIT = b.val % 2 ^ F.STC_MFAIL1.BIT.len
      ∧ (t.por.pulses.any fun p => p.src = 80) = true ∧ t.get F.STC_MPOS.REGION = s.get F.STC_MPOS.REGION + 1 := by
  have hlt : s.get F.STC_MPOS.HALL < 2 ^ 4 := s.get_lt _
  obtain ⟨h, hh⟩ : ∃ h, s.get F.STC_MPOS.HALL = h := ⟨_, rfl⟩
  obtain ⟨g, hg⟩ : ∃ g, s.get F.STC_MPOS.REGION = g := ⟨_, rfl⟩
  rw [hh] at hp hlt
  rw [hg] at hn
  have heq := State.regionTest_fail (b := b) (s.stcHall_powered hlt hp) hh hg
  obtain ⟨u, hu⟩ : ∃ u, (s.regionPre h g false).set F.STC_RES.MEM 2 = u := ⟨_, rfl⟩
  have hum : u.get F.STC_RES.MEM = 2 := hu ▸ State.get_set_self _ F.STC_RES.MEM (by decide) 2
  obtain ⟨m1, m2, m3, m4, m5, m6⟩ := u.marchNoted_shows (h := h) (g := g) (bit := b.val) hlt (by omega)
  have hk := u.marchFail_kept (h := h) (g := g) (bit := b.val) hlt
  obtain ⟨v, hv⟩ : ∃ v, (u.marchFail h g b).stcDone 0 (2056 * h + g) = v := ⟨_, rfl⟩
  have hvk : FailKept (u.marchNoted h g b) v := hv ▸ hk.trans .stcDone
  obtain ⟨-, n2, nR⟩ := v.regionNext_shows hn hlt
  rw [hh, hg]
  refine ⟨v.regionNext h g, (exec_hallRegionTest ho ht).trans (congrArg Host.Outcome.next (heq.trans (by rw [hu, hv]))),
    nR.get.trans ((hvk.get _ (by decide) (by decide)).trans (m6.trans hum)), nR.bit.trans ((State.bit_eq_of_get (hvk.get _ (by decide) (by decide))).trans m1),
    nR.get.trans ((hvk.get _ (by decide) (by decide)).trans m2), nR.get.trans ((hvk.get _ (by decide) (by decide)).trans m3),
    nR.get.trans ((hvk.get _ (by decide) (by decide)).trans m4), ?_, n2⟩
  rw [nR.por]
  exact hvk.pulse m5

theorem hallRegionTest_stays (ho : s.stcOn = true) (ht : s.stc.hallT ≤ s.fclk) (he : s.hallErr = [])
    (hp : s.bit (F.HAL_OWN.PWR (s.get F.STC_MPOS.HALL)) = true) :
    GoesTo (exec (.hallRegionTest .incomplete false) s) fun t =>
      t.get F.STC_RES.MEM = 3 ∧ t.bit F.STC_STAT.INC = true ∧ t.get F.STC_MPOS.HALL = s.get F.STC_MPOS.HALL
      ∧ t.get F.STC_MPOS.REGION = s.get F.STC_MPOS.REGION
      ∧ t.get F.STC_CNT.INCOMP = satAdd (s.get F.STC_CNT.INCOMP) 1 (2 ^ F.STC_CNT.INCOMP.len - 1) := by
  have hlt : s.get F.STC_MPOS.HALL < 2 ^ 4 := s.get_lt _
  have hlg : s.get F.STC_MPOS.REGION < 2 ^ 12 := s.get_lt _
  obtain ⟨h, hh⟩ : ∃ h, s.get F.STC_MPOS.HALL = h := ⟨_, rfl⟩
  obtain ⟨g, hg⟩ : ∃ g, s.get F.STC_MPOS.REGION = g := ⟨_, rfl⟩
  rw [hh] at hp hlt
  rw [hg] at hlg
  have heq := State.regionTest_incomplete (s.stcHall_powered hlt hp) hh hg
  obtain ⟨-, pR⟩ := s.regionPre_shows (h := h) (g := g) he
  obtain ⟨p, hpre⟩ : ∃ p, s.regionPre h g false = p := ⟨_, rfl⟩
  rw [hpre] at heq pR
  obtain ⟨v, hv⟩ : ∃ v, ((p.set F.STC_MPOS.HALL h).set F.STC_MPOS.REGION g).set F.STC_RES.MEM 3 = v := ⟨_, rfl⟩
  have v1 : v.get F.STC_RES.MEM = 3 := hv ▸ State.get_set_self _ F.STC_RES.MEM (by decide) 3
  have v2 : v.get F.STC_MPOS.HALL = h := by
    rw [← hv, State.get_set_addr _ F.STC_RES.MEM F.STC_MPOS.HALL (by decide),
      State.get_set_disj _ F.STC_MPOS.REGION F.STC_MPOS.HALL rfl (by decide) (by decide), State.get_set_self _ _ (by decide)]
    exact Nat.mod_eq_of_lt hlt
  have v3 : v.get F.STC_MPOS.REGION = g := by
    rw [← hv, State.get_set_addr _ F.STC_RES.MEM F.STC_MPOS.REGION (by decide), State.get_set_self _ _ (by decide)]
    exact Nat.mod_eq_of_lt hlg
  have v4 : v.get F.STC_CNT.INCOMP = s.get F.STC_CNT.INCOMP := by
    rw [← hv, State.get_set_addr _ F.STC_RES.MEM F.STC_CNT.INCOMP (by decide), State.get_set_addr _ F.STC_MPOS.REGION F.STC_CNT.INCOMP (by decide),
      State.get_set_addr _ F.STC_MPOS.HALL F.STC_CNT.INCOMP (by decide), pR.get]
  rw [hv] at heq
  obtain ⟨i1, i2, -, iR, -, -⟩ := v.stcInc_shows (kind := 0)
  rw [hh, hg]
  exact ⟨v.stcInc 0, (exec_hallRegionTest ho ht).trans (congrArg Host.Outcome.next heq), iR.get.trans v1, State.bit_of_get_one i1, iR.get.trans v2,
    iR.get.trans v3, i2.trans (by rw [v4])⟩

/-! ### The tests of freed units -/

theorem exec_compareUnitTestDone {r : TestRes} (ho : s.stcOn = true) : exec (.compareUnitTestDone r) s = .next (s.rotDone 2 2048 r) :=
  congrArg Host.Outcome.next (if_pos ho)

theorem exec_edgeTimerTestDone {r : TestRes} (ho : s.stcOn = true) : exec (.edgeTimerTestDone r) s = .next (s.rotDone 3 4096 r) :=
  congrArg Host.Outcome.next (if_pos ho)

/-- Settles O36: each test by its results and by what its rotation or its hall shows then. -/
theorem selfTestsRunRepairAndRotate : Obligations.SelfTestsRunRepairAndRotate := by
  unfold Obligations.SelfTestsRunRepairAndRotate
  refine ⟨fun _ ho ht he hp hn => hallRegionTest_passes ho ht he hp hn, fun _ _ ho ht _ hp hn => hallRegionTest_fails ho ht hp hn,
    fun _ ho ht he hp => hallRegionTest_stays ho ht he hp, fun _ ho hd hb => nvsBackgroundRead_reads ho hd hb,
    fun _ _ hr hw hn hk => compareUnitStep_steps hr hw hn hk, fun _ _ ho hw ht => compareUnitHandover_agrees ho hw ht,
    fun _ _ ho hw => compareUnitHandover_fails ho hw, fun _ _ hr hw hn => compareUnitStep_retries hr hw hn,
    fun s u ho hf ht => ?_, fun s u ho hf ht => ?_, fun s u ho hf => ?_, fun _ _ hr hw hn => edgeTimerStep_retries hr hw hn,
    fun s u ho hf ht => ?_, fun s u ho hf ht => ?_, fun s u ho hf => ?_, fun _ _ hr _ hy hg hk => edgeTimerStep_steps hr hy hg hk,
    fun _ _ _ hr hw hg hn => edgeTimerStep_passes hr hw hg hn, fun _ _ ho hw hb => edgeTimerSlotFree_hands ho hw hb,
    fun _ _ _ ho hf => testIntervalLate_reports ho hf⟩
  · have hu : u.val < 2 ^ 8 := by omega
    obtain ⟨h1, h2, h3, h4⟩ := State.rotDone_pass (kind := 2) (.inl rfl) hf ht hu
    exact ⟨s.rotDone 2 2048 .pass, exec_compareUnitTestDone ho, h1, h2, h3, h4⟩
  · have hu : u.val < 2 ^ 8 := by omega
    obtain ⟨h1, h2, h3, h4, h5, h6⟩ := State.rotDone_fail (kind := 2) (.inl rfl) hf ht hu
    exact ⟨s.rotDone 2 2048 .fail, exec_compareUnitTestDone ho, h1, h2, h3, h4, h5, h6⟩
  · obtain ⟨h1, h2, h3, h4, h5⟩ := State.rotDone_incomplete (kind := 2) (len := 2048) (.inl rfl) hf
    exact ⟨s.rotDone 2 2048 .incomplete, exec_compareUnitTestDone ho, h1, h2, h3, h4, h5⟩
  · have hu : u.val < 2 ^ 5 := by omega
    obtain ⟨h1, h2, h3, h4⟩ := State.rotDone_pass (kind := 3) (.inr rfl) hf ht hu
    exact ⟨s.rotDone 3 4096 .pass, exec_edgeTimerTestDone ho, h1, h2, h3, h4⟩
  · have hu : u.val < 2 ^ 5 := by omega
    obtain ⟨h1, h2, h3, h4, h5, h6⟩ := State.rotDone_fail (kind := 3) (.inr rfl) hf ht hu
    exact ⟨s.rotDone 3 4096 .fail, exec_edgeTimerTestDone ho, h1, h2, h3, h4, h5, h6⟩
  · obtain ⟨h1, h2, h3, h4, h5⟩ := State.rotDone_incomplete (kind := 3) (len := 4096) (.inr rfl) hf
    exact ⟨s.rotDone 3 4096 .incomplete, exec_edgeTimerTestDone ho, h1, h2, h3, h4, h5⟩

end Sys2Proof.Machine
end
